-- ==== Sys2Proof/Word.lean ====
section
/-! DEFINITION. The machine word of the command packets and parameters (R42, R10), bytes, and the sparse table type
in which the model holds every numbered collection. -/

namespace Sys2Proof

/-- A packet or parameter word. -/
abbrev Word := BitVec 32

/-- One byte. -/
abbrev Byte := BitVec 8

/-- A sparse table: pairs of index and value, indices strictly rising, no value equal to the table's default. -/
abbrev Tab (α : Type) := List (Nat × α)

/-- Bits `hi` down to `lo` of a natural number, as the manual writes `[hi:lo]` (R6). -/
def field (w hi lo : Nat) : Nat := (w >>> lo) % 2 ^ (hi - lo + 1)

/-- Bit `i` of a natural number (R6). -/
def bit (w i : Nat) : Bool := (w >>> i) % 2 == 1

/-- 1 for true, 0 for false. -/
def b2n (b : Bool) : Nat := if b then 1 else 0

end Sys2Proof
end

