-- ==== Sys2Proof/Syntax.lean ====
section
/-! DEFINITION. The commands of the block: one constructor per row of the table of operations and events. -/

namespace Sys2Proof

/-- The two command ports (R35, R37). -/
inductive Port where
  | pcie | spi
  deriving DecidableEq, Repr

/-- A command packet as interpreted (R42): the port it came by, its flags, tag, target and sequence, its payload. -/
structure Cmd where
  port    : Port
  irq     : Bool
  dryRun  : Bool
  tag     : BitVec 16
  target  : BitVec 16
  seq     : Word
  payload : List Word
  deriving DecidableEq, Repr

/-- What a receiver has seen last at one symbol or bit position (R238, R239), the oldest first: symbols of 10 bits, the
first-sent bit as bit 9, or sync headers. -/
inductive Rx where
  | symbols (l : List (BitVec 10))
  | headers (l : List (BitVec 2))
  deriving DecidableEq, Repr

/-- An upstream frame as received (R267, R268): the lane it came on, its header fields, its reports in port order, its
messenger reply word and its CRC. -/
structure UpFrame where
  lane       : Fin 64
  typ        : BitVec 8
  laneField  : BitVec 6
  cells      : BitVec 6
  activePort : BitVec 2
  hold       : BitVec 3
  msgSeq     : BitVec 3
  msgStatus  : BitVec 2
  dsErr      : BitVec 2
  mark       : Word
  reports    : List (BitVec 48)
  msg        : Word
  crc        : Word
  deriving DecidableEq, Repr

/-- A peer header (R448) as received on PEER0 or PEER1. -/
structure PeerHeader where
  lane        : Fin 2
  role        : BitVec 2
  yieldReq    : Bool
  handover    : Bool
  armed       : Bool
  belayNormal : Bool
  period      : Word
  deriving DecidableEq, Repr

/-- One trajectory generator's section of a peer data frame (R449). -/
structure PeerTraj where
  pos    : Word
  vel    : Word
  acc    : Word
  status : Word
  end_   : Word
  vMax   : Word
  aMax   : Word
  jMax   : Word
  deriving DecidableEq, Repr

/-- A peer data frame (R449) with its CRC. -/
structure PeerData where
  hdr      : PeerHeader
  markTime : Word
  corr     : Word
  deb      : BitVec 6
  sneg     : BitVec 6
  modes    : List (BitVec 2)
  vref     : List (BitVec 16)
  integ    : List (BitVec 16)
  traj     : List PeerTraj
  cleat    : List Word
  activity : List Word
  excl     : List (BitVec 4)
  digests  : Option (List Word)
  crc      : Word
  deriving DecidableEq, Repr

/-- The commands: one constructor for each row of the table of operations and events, in its order. Command rows and
parameter writes carry the command packet; the other rows carry what comes from outside with the event. An operand with
a value after `:=` may be left out of a term (log entry 57). -/
inductive Instr where
  /-- `PING` (R62). -/
  | ping (c : Cmd)
  /-- `GET_PARAM` (R62). -/
  | getParam (c : Cmd)
  /-- `SET_PARAM` (R61). -/
  | setParam (c : Cmd)
  /-- `COMMIT_GROUP` (R57). -/
  | commitGroup (c : Cmd)
  /-- `COMMIT_GROUP_DISCARD` (R58). -/
  | commitGroupDiscard (c : Cmd)
  /-- `GET_BLOCK` (R520). -/
  | getBlock (c : Cmd)
  /-- `SET_BLOCK` (R63). -/
  | setBlock (c : Cmd)
  /-- `DISCOVER` (R291). -/
  | discover (c : Cmd)
  /-- `DISCOVER_DONE` (R293). -/
  | discoverDone (boards : List (Option (List Byte))) (again : List (Option (List Byte)) := [])
  /-- `READ_IDENTITY` (R294). -/
  | readIdentity (c : Cmd)
  /-- `READ_IDENTITY_DONE` (R294). -/
  | readIdentityDone (board : Option (List Byte)) (again : Option (List Byte) := none)
  /-- `PLACE` (R296). -/
  | place (c : Cmd)
  /-- `PLACE_DONE` (R297). -/
  | placeDone
  /-- `CELL_CONFIG` (R303). -/
  | cellConfig (c : Cmd)
  /-- `CELL_CONFIG_DONE` (R305). -/
  | cellConfigDone
  /-- `TALLY_REPORT` (R314). -/
  | tallyReport (c : Cmd)
  /-- `LANE_BRINGUP` (R244). -/
  | laneBringup (c : Cmd)
  /-- `LANE_RETIRE` (R249). -/
  | laneRetire (c : Cmd)
  /-- `LANE_LOOP` (R252). -/
  | laneLoop (c : Cmd)
  /-- `LANE_LOOP_END_MODE0` (R254). -/
  | laneLoopEndMode0 (c : Cmd)
  /-- `LANE_LOOP_END` (R254). -/
  | laneLoopEnd (lane : Fin 66) (received crcBad bitErrs losses : Word)
  /-- `EYE_SCAN` (R255). -/
  | eyeScan (c : Cmd)
  /-- `EYE_SCAN_DONE` (R256). -/
  | eyeScanDone (points : List (BitVec 16))
  /-- `ARM_ENABLE` (R117). -/
  | armEnable (c : Cmd)
  /-- `DEBLOCK` (R149). -/
  | deblock (c : Cmd)
  /-- `BLOCK` (R148). -/
  | block (c : Cmd)
  /-- `CLEAT_ADD` (R163). -/
  | cleatAdd (c : Cmd)
  /-- `CLEAT_RELEASE` (R168). -/
  | cleatRelease (c : Cmd)
  /-- `MAINT_ADMIT` (R171). -/
  | maintAdmit (c : Cmd)
  /-- `MAINT_END` (R173). -/
  | maintEnd (c : Cmd)
  /-- `CELL_RETIRE` (R167). -/
  | cellRetire (c : Cmd)
  /-- `CELL_RETIRE_TIMEOUT` (R167). -/
  | cellRetireTimeout (cell : Fin 3072)
  /-- `LOOP_MODE` (R196). -/
  | loopMode (c : Cmd)
  /-- `TRAJ_QUEUE` (R202). -/
  | trajQueue (c : Cmd)
  /-- `TRAJ_FLUSH` (R206). -/
  | trajFlush (c : Cmd)
  /-- `ADC_CAL_ZERO` (R345). -/
  | adcCalZero (c : Cmd)
  /-- `ADC_CAL_FULL` (R345). -/
  | adcCalFull (c : Cmd)
  /-- `ADC_CAL_ZERO_DONE` (R344). -/
  | adcCalZeroDone (adc : Fin 2)
  /-- `ADC_CAL_FULL_DONE` (R344). -/
  | adcCalFullDone (adc : Fin 2)
  /-- `ADC_INJECT` (R339). -/
  | adcInject (c : Cmd)
  /-- `DEC_SYNC` (R353). -/
  | decSync (c : Cmd)
  /-- `HOME_START` (R367). -/
  | homeStart (c : Cmd)
  /-- `HOME_ABORT` (R370). -/
  | homeAbort (c : Cmd)
  /-- `HOMING_DONE` (R370). -/
  | homingDone (axis : Fin 2)
  /-- `CMP_SELFTEST` (R388). -/
  | cmpSelftest (c : Cmd)
  /-- `CMP_SELFTEST_DONE` (R388). -/
  | cmpSelftestDone (leg : Fin 4) (steps : BitVec 3)
  /-- `FAULT_READ` (R438). -/
  | faultRead (c : Cmd)
  /-- `FAULT_CLEAR` (R431). -/
  | faultClear (c : Cmd)
  /-- `FAULT_ACK` (R429). -/
  | faultAck (c : Cmd)
  /-- `FAULT_INJECT` (R442). -/
  | faultInject (c : Cmd)
  /-- `SAFETY_UNLOCK` (R418). -/
  | safetyUnlock (c : Cmd)
  /-- `SAFETY_WRITE` (R419). -/
  | safetyWrite (c : Cmd)
  /-- `SAFETY_LOG_READ` (R420). -/
  | safetyLogRead (c : Cmd)
  /-- `SAFETY_LOCK` (R419). -/
  | safetyLock (c : Cmd)
  /-- `TAKEOVER` (R459). -/
  | takeover (c : Cmd)
  /-- `SWITCHBACK` (R459). -/
  | switchback (c : Cmd)
  /-- `REEL_ARM` (R465). -/
  | reelArm (c : Cmd)
  /-- `REEL_READ` (R478). -/
  | reelRead (c : Cmd)
  /-- `REEL_STOP` (R474). -/
  | reelStop (c : Cmd)
  /-- `TIME_OFFSET` (R320). -/
  | timeOffset (c : Cmd)
  /-- `TIME_STEP` (R321). -/
  | timeStep (c : Cmd)
  /-- `TIME_READ` (R319). -/
  | timeRead (c : Cmd)
  /-- `POWER_STATE` (R484). -/
  | powerState (c : Cmd)
  /-- `TRACE_READ` (R230). -/
  | traceRead (c : Cmd)
  /-- `FW_PATCH` (R232). -/
  | fwPatch (c : Cmd)
  /-- `FW_PATCH_DONE` (R233). -/
  | fwPatchDone
  /-- `FACTORY_UNLOCK` (R441). -/
  | factoryUnlock (c : Cmd)
  /-- `PACKET_TAKE` (R35). -/
  | packetTake (port : Port)
  /-- `WRITE_PACKET` (R39). -/
  | writePacket (words : List Word)
  /-- `READ_REPLY` (R40). -/
  | readReply (words : Nat)
  /-- `READ_STATUS` (R38). -/
  | readStatus
  /-- `CMD_TAIL_WRITE` (R33). -/
  | cmdTailWrite (words : List Word) (value : Word)
  /-- `RPL_HEAD_WRITE` (R33). -/
  | rplHeadWrite (value : Word)
  /-- `IRQ_CAUSE_WRITE` (R518). -/
  | irqCauseWrite (value : Word)
  /-- `MSI_ENABLE_WRITE` (R68). -/
  | msiEnableWrite (value : Word)
  /-- `BAR0_WRITE` (R32). -/
  | bar0Write (offset : BitVec 18) (value : Word)
  /-- `BAR2_RO_WRITE` (R33). -/
  | bar2RoWrite (offset : BitVec 14) (value : Word)
  /-- `PCIE_RESET` (R28). -/
  | pcieReset
  /-- `PCIE_LINK_DOWN` (R28). -/
  | pcieLinkDown
  /-- `HOST_SILENT` (R70). -/
  | hostSilent
  /-- `TRAJ_PRESET` (R207). -/
  | trajPreset (c : Cmd)
  /-- `ENC_PRESET` (R372). -/
  | encPreset (c : Cmd)
  /-- `ENC_LATCH_CFG` (R365). -/
  | encLatchCfg (c : Cmd)
  /-- `DISC_MT_START` (R300). -/
  | discMtStart (c : Cmd)
  /-- `DISC_MT_ABORT` (R300). -/
  | discMtAbort (c : Cmd)
  /-- `MT_WINDOW_END` (R301). -/
  | mtWindowEnd
  /-- `TALLY_EXPECT_ACT` (R310). -/
  | tallyExpectAct (c : Cmd)
  /-- `TALLY_OLD_CLEAR` (R310). -/
  | tallyOldClear (c : Cmd)
  /-- `TALLY_PERSIST_EXPIRY` (R311). -/
  | tallyPersistExpiry (kind : Fin 3)
  /-- `CLT_EXCLUDE` (R172). -/
  | cltExclude (c : Cmd)
  /-- `ADC_PT_START` (R347). -/
  | adcPtStart (c : Cmd)
  /-- `PATH_TEST_DONE` (R347). -/
  | pathTestDone
  /-- `DEC_CFG` (R353). -/
  | decCfg (c : Cmd)
  /-- `TBUS_FORCE` (R472). -/
  | tbusForce (c : Cmd)
  /-- `CHOP_MODE` (R378). -/
  | chopMode (c : Cmd)
  /-- `CHOP_FORCE` (R381). -/
  | chopForce (c : Cmd)
  /-- `PWR_LANE_EN` (R482). -/
  | pwrLaneEn (c : Cmd)
  /-- `FRM_HUB_HOLD_MAX` (R283). -/
  | frmHubHoldMax (c : Cmd)
  /-- `STR_TRACE_CTRL` (R231). -/
  | strTraceCtrl (c : Cmd)
  /-- `FLT_ERR_HOLD` (R439). -/
  | fltErrHold (c : Cmd)
  /-- `PERIOD_MARK` (R73). -/
  | periodMark (pulse0 pulse1 : List Nat)
  /-- `DISPATCH_RESUME` (R456). -/
  | dispatchResume
  /-- `RESUME_TIMEOUT` (R456). -/
  | resumeTimeout
  /-- `TAKEOVER_WINDOW_END` (R458). -/
  | takeoverWindowEnd
  /-- `PEER_HEARTBEAT` (R447). -/
  | peerHeartbeat (header : PeerHeader) (crc : Word := 0)
  /-- `PEER_DATA_FRAME` (R451). -/
  | peerDataFrame (frame : PeerData)
  /-- `UPSTREAM_FRAME` (R261). -/
  | upstreamFrame (frame : UpFrame)
  /-- `UPSTREAM_FRAME_DEADLINE` (R261). -/
  | upstreamFrameDeadline (lane : Fin 64)
  /-- `CELL_SILENCE_SUSPECT` (R103). -/
  | cellSilenceSuspect (cell : Fin 3072)
  /-- `CLEAT_RETRY_WINDOW_END` (R166). -/
  | cleatRetryWindowEnd (entry : Fin 32)
  /-- `CLEAT_ENTRY_FREE` (R161). -/
  | cleatEntryFree (entry : Fin 32)
  /-- `ACTIVITY_FREE` (R173). -/
  | activityFree (slot : Fin 16)
  /-- `PERM_CONFIRM_TIMEOUT` (R286). -/
  | permConfirmTimeout (cell : Fin 3072)
  /-- `PERM_BYPASS_RETRY` (R286). -/
  | permBypassRetry (cell : Fin 3072)
  /-- `TASK_PLACE` (R222). -/
  | taskPlace
  /-- `TASK_COMPLETE` (R219). -/
  | taskComplete (strand : Fin 8)
  /-- `TASK_DEADLINE` (R224). -/
  | taskDeadline (slot : Fin 256)
  /-- `TASK_WATCHDOG` (R225). -/
  | taskWatchdog (strand : Fin 8)
  /-- `STRAND_SRAM_ERROR` (R225). -/
  | strandSramError (strand : Fin 8) (corrected : Bool := false)
  /-- `DETECT_DONE` (R241). -/
  | detectDone (lane : Fin 66) (rx : Rx := .symbols [])
  /-- `TRAIN_DONE` (R241). -/
  | trainDone (lane : Fin 66) (eq : BitVec 4) (clean : Nat := 0)
  /-- `LOCK_DONE` (R241). -/
  | lockDone (lane : Fin 66) (rx : Rx := .symbols [])
  /-- `CAPS_DONE` (R242). -/
  | capsDone (lane : Fin 66) (hubGen : BitVec 2) (mask : BitVec 48) (cellGens : List (BitVec 2)) (selectOk : Bool) (activePort : BitVec 2)
  /-- `BRINGUP_STAGE_TIMEOUT` (R240). -/
  | bringupStageTimeout (lane : Fin 66)
  /-- `LOSS_OF_LOCK` (R247). -/
  | lossOfLock (lane : Fin 66) (scanned : List (BitVec 16)) (rx : Rx := .symbols [])
  /-- `REBRINGUP_RETRY` (R247). -/
  | rebringupRetry (lane : Fin 66)
  /-- `RETRY_WINDOW_END` (R247). -/
  | retryWindowEnd (lane : Fin 66)
  /-- `LANE_ERROR_WINDOW_END` (R246). -/
  | laneErrorWindowEnd (lane : Fin 66)
  /-- `GRACE_EXPIRY` (R428). -/
  | graceExpiry (entry : Fin 256)
  /-- `ERR_PULSE_END` (R439). -/
  | errPulseEnd
  /-- `BELAY_SAMPLE` (R404). -/
  | belaySample (a b : BitVec 8) (srstHigh tripA tripB injection : Bool)
  /-- `TEST_PULSE_START` (R407). -/
  | testPulseStart (output : Fin 4)
  /-- `TEST_PULSE_END` (R407). -/
  | testPulseEnd (output : Fin 4)
  /-- `SRST_STUCK` (R409). -/
  | srstStuck
  /-- `HEARTBEAT_TIMEOUT` (R414). -/
  | heartbeatTimeout
  /-- `FDC_STALE_TIMEOUT` (R416). -/
  | fdcStaleTimeout (current : Bool)
  /-- `BELAY_CLOCK_CHECK` (R399). -/
  | belayClockCheck (count : Nat)
  /-- `BELAY_RESET` (R399). -/
  | belayReset (low : Bool := true) (rc : Nat := 0)
  /-- `BELAY_RESET_RELEASE` (R401). -/
  | belayResetRelease (ok : Nat := 200000) (rc : Nat := 780)
  /-- `SAFETY_SESSION_TIMEOUT` (R419). -/
  | safetySessionTimeout
  /-- `UNLOCK_BACKOFF_END` (R418). -/
  | unlockBackoffEnd
  /-- `CHOP_CYCLE_START` (R374). -/
  | chopCycleStart (leg : Fin 4) (cmp : BitVec 4)
  /-- `CHOP_GATE_EDGE` (R374). -/
  | chopGateEdge (leg : Fin 4) (edge : Fin 4) (cmp : BitVec 4 := 0)
  /-- `CHOP_TRIP_RECOGNISED` (R383). -/
  | chopTripRecognised (leg : Fin 4)
  /-- `CHOP_TRIP_RELEASED` (R383). -/
  | chopTripReleased (leg : Fin 4)
  /-- `CHOP_BLANKING_END` (R383). -/
  | chopBlankingEnd (leg : Fin 4)
  /-- `CHOP_SC_CONFIRM` (R387). -/
  | chopScConfirm (leg : Fin 4) (held : Nat := 0)
  /-- `CHOP_SC_WINDOW_END` (R387). -/
  | chopScWindowEnd (cmp : BitVec 4 := 0)
  /-- `GATE_SUPPLY_NOT_OK` (R389). -/
  | gateSupplyNotOk (leg : Fin 4) (low : Bool)
  /-- `GATE_SUPPLY_OK` (R389). -/
  | gateSupplyOk (leg : Fin 4) (low : Bool)
  /-- `ADC_SEQUENCE_TRIGGER` (R333). -/
  | adcSequenceTrigger (adc : Fin 2) (seq : Fin 9)
  /-- `ADC_CONVERSION_END` (R340). -/
  | adcConversionEnd (adc : Fin 2) (raw : BitVec 16)
  /-- `DEC_SLOT` (R351). -/
  | decSlot (channel : Fin 16) (bits : List Bool)
  /-- `DEC_STUCK` (R355). -/
  | decStuck (channel : Fin 16)
  /-- `DSYNC_FALL` (R353). -/
  | dsyncFall
  /-- `ENC_TRANSITION` (R360). -/
  | encTransition (axis : Fin 2) (a b z home : List Bool)
  /-- `ENC_ILLEGAL_WINDOW_END` (R360). -/
  | encIllegalWindowEnd (axis : Fin 2)
  /-- `ENC_LIMIT_TRIP` (R366). -/
  | encLimitTrip (axis : Fin 2) (neg : Bool) (held : Nat := 0)
  /-- `ENC_HOME_ACTIVE` (R368). -/
  | encHomeActive (axis : Fin 2) (held : Nat := 0)
  /-- `TIME_HOLDOVER_EXPIRY` (R322). -/
  | timeHoldoverExpiry
  /-- `TBUS_FALL` (R471). -/
  | tbusFall (line : Fin 4)
  /-- `TBUS_PULSE_END` (R471). -/
  | tbusPulseEnd (line : Fin 4)
  /-- `REEL_POST_END` (R474). -/
  | reelPostEnd
  /-- `PORST_RELEASE` (R491). -/
  | porstRelease (testmode : Bool)
  /-- `PORST_ASSERT` (R491). -/
  | porstAssert (supervisor : Bool)
  /-- `LISTEN_ENTRY` (R483). -/
  | listenEntry (wakeLow : Bool)
  /-- `WAKE_N_LOW` (R487). -/
  | wakeNLow (testmode : Bool)
  /-- `DORMANT_ENTRY` (R483). -/
  | dormantEntry
  /-- `XTAL_SWITCH` (R488). -/
  | xtalSwitch
  /-- `XTAL_FAIL` (R488). -/
  | xtalFail
  /-- `CORE_PLL_LOCK` (R489). -/
  | corePllLock
  /-- `BIST_DONE` (R492). -/
  | bistDone (sram rom belayClock tripBack : Bool) (strandsBad : BitVec 4)
  /-- `LANE_PLL_LOCK` (R489). -/
  | lanePllLock (quad : Fin 4)
  /-- `DISPATCH_TEST_DONE` (R492). -/
  | dispatchTestDone (pass : Bool) (strandsBad : BitVec 4)
  /-- `RUN_TO_READY` (R485). -/
  | runToReady
  /-- `CORE_PLL_LOSS` (R490). -/
  | corePllLoss
  /-- `LANE_PLL_LOSS` (R490). -/
  | lanePllLoss (quad : Fin 4)
  /-- `ENC_LIMIT_INACTIVE` (R366). -/
  | encLimitInactive (axis : Fin 2) (neg : Bool) (held : Nat := 0)
  /-- `TBUS_RISING_EDGE` (R467). -/
  | tbusRisingEdge (line : Fin 4)
  /-- `TRIGGER_UNIT_TIMEOUT` (R469). -/
  | triggerUnitTimeout (unit : Fin 4)
  /-- `TICK_WRAP` (R476). -/
  | tickWrap
  /-- `BAR0_READ` (R29). -/
  | bar0Read (offset : BitVec 18) (wide : Bool)
  /-- `BELAY_SRAM_ERROR` (R398). -/
  | belaySramError
  deriving DecidableEq, Repr

end Sys2Proof
end

