-- ==== Sys2Proof/Decode.lean ====
section
/-! DEFINITION. Decoding of table words. No row of the table of operations and events gives bits: the commands of the
block are packets and events, so no word spells one by itself. -/

namespace Sys2Proof

/-- The command a word of `nbits` bits spells by the table: none, as no row gives bits. -/
def decodeTableWord (_nbits _w : Nat) : Option Instr := none

end Sys2Proof
end

