-- ==== Sys2Proof/Config.lean ====
section
/-! DEFINITION. What one device fixes and the manual does not state, and the free values: constants without a body, so
that nothing can be proved of their values. -/

namespace Sys2Proof

/-- `DEV_REVISION`: the silicon revision of the device (log entry 1). -/
opaque Config.revision : Word

/-- `DEV_ROM_VERSION`: the ROM firmware version of the device (log entry 1). -/
opaque Config.romVersion : Word

/-- `DEV_SERIAL`: the serial number of the device, low word and high word (log entry 1). -/
opaque Config.serial : Word × Word

/-- The factory key of the device, which the manual does not publish (R441, log entry 1). -/
opaque Config.factoryKey : Word × Word

/-- The free taps of the half-band filter at distances 1, 3, 5 and 7 from its centre (R350 fixes its length, its
symmetry and its gain only; log entry 2). -/
opaque Config.halfBandTap : Fin 4 → Rat

/-- The deviation of a generator's position and velocity from the time-optimal profile, which R201 bounds by 1 u and
1 u/s; by the index of the free value (log entry 3). -/
opaque Config.trajError : Nat → Int × Int

/-- A free word, for results the manual does not state; by the index of the free value (log entry 4). -/
opaque Config.freeWord : Nat → Word

/-- The bits of a 64b/66b control block after its block type, which the manual does not state (R236, log entry 49). -/
opaque Config.blockFill : Nat → Nat

/-- The register from which a loop's PRBS-31 starts, which the manual does not state (R253, log entry 50). -/
opaque Config.prbsSeed : Nat

end Sys2Proof
end

