-- ==== Sys2Proof/Machine/ParamTable.lean ====
section
/-! DEFINITION. The parameter table: one row for every parameter of the index (R495, R496), with its ID, width,
access, instances, reset value, range, stop-only mark and commit group, as its defining chapter's table gives them. -/

namespace Sys2Proof.Machine

/-- Access codes of R14. -/
inductive Access where
  | ro | rw | rw1c | wo | rs
  deriving DecidableEq, Repr

/-- How the range column of a parameter's table limits a written value. `full`: every value of the width;
`among`: the listed intervals; `mask`: bits outside the mask are reserved; `special`: a rule of its chapter decides. -/
inductive Range where
  | full
  | among (l : List (Int × Int))
  | mask (m : Nat)
  | special
  deriving DecidableEq, Repr

/-- One row of a parameter table (R13). `count` is the number of instances, 0 for a scalar; `group` is the commit
group's code of R55, 0 for none; `wide` marks a 64-bit pair whose high word is the next ID (R15). -/
structure ParamDef where
  id     : Nat
  wide   : Bool
  width  : Nat
  access : Access
  count  : Nat
  reset  : Int
  signed : Bool
  range  : Range
  stop   : Bool
  group  : Nat
  deriving DecidableEq, Repr

abbrev P.DEV_ID : Nat := 0x0001
abbrev P.DEV_REVISION : Nat := 0x0002
abbrev P.DEV_ROM_VERSION : Nat := 0x0003
abbrev P.DEV_SERIAL : Nat := 0x0004
abbrev P.HOST_CONFIG_MARK : Nat := 0x0101
abbrev P.HOST_MIRROR_SEL : Nat := 0x0103
abbrev P.HOST_WDOG : Nat := 0x0104
abbrev P.HOST_SPI_FRAMING : Nat := 0x0105
abbrev P.HOST_CRC_ERR : Nat := 0x0106
abbrev P.HOST_SEQ_ERR : Nat := 0x0107
abbrev P.HOST_BAR0_WR_DROP : Nat := 0x0108
abbrev P.HOST_IRQ_CAUSE : Nat := 0x0109
abbrev P.HOST_MSI_ENABLE : Nat := 0x010A
abbrev P.HOST_INT_ENABLE : Nat := 0x010B
abbrev P.HOST_CG_STAGED_MISC : Nat := 0x0110
abbrev P.HOST_CG_ARMED_MISC : Nat := 0x0111
abbrev P.HOST_CG_STAGED_LANE : Nat := 0x0112
abbrev P.HOST_CG_ARMED_LANE : Nat := 0x0114
abbrev P.PWR_STATE : Nat := 0x0201
abbrev P.PWR_TARGET : Nat := 0x0202
abbrev P.PWR_DOMAINS : Nat := 0x0203
abbrev P.PWR_LANE_EN : Nat := 0x0204
abbrev P.PWR_CLK_STATUS : Nat := 0x0205
abbrev P.PWR_RESET_CAUSE : Nat := 0x0206
abbrev P.PWR_BIST : Nat := 0x0207
abbrev P.PWR_EVENT : Nat := 0x0208
abbrev P.PER_PERIOD : Nat := 0x0801
abbrev P.PER_EPOCH : Nat := 0x0802
abbrev P.PER_LATENCY : Nat := 0x0803
abbrev P.PER_EPOCH_EFF : Nat := 0x0804
abbrev P.PER_COUNT : Nat := 0x0805
abbrev P.PER_EPOCH_COUNT : Nat := 0x0807
abbrev P.PER_EPOCH_PHASE : Nat := 0x0808
abbrev P.PER_REPORT_DIV : Nat := 0x0809
abbrev P.PER_REPORT_PHASE : Nat := 0x080A
abbrev P.PER_SCHED_SLACK : Nat := 0x080B
abbrev P.PER_CHANGE : Nat := 0x080C
abbrev P.PER_MIN_EPOCH : Nat := 0x080D
abbrev P.BAL_MODE : Nat := 0x1001
abbrev P.BAL_SWAP_DEADBAND : Nat := 0x1002
abbrev P.BAL_VBASE : Nat := 0x1003
abbrev P.BAL_DR_MAX : Nat := 0x1004
abbrev P.BAL_RESID_NOTE : Nat := 0x1005
abbrev P.BAL_RESID_SUSPECT : Nat := 0x1006
abbrev P.BAL_SPREAD : Nat := 0x1010
abbrev P.BAL_INSERVICE : Nat := 0x1011
abbrev P.BAL_FB_COUNT : Nat := 0x1012
abbrev P.BAL_SCALE : Nat := 0x1013
abbrev P.BAL_TABLE_EPOCH : Nat := 0x1014
abbrev P.BAL_LIST_LEN : Nat := 0x1015
abbrev P.BAL_STALE : Nat := 0x1017
abbrev P.BAL_RESID_MAX : Nat := 0x1018
abbrev P.BAL_RESID_CELL : Nat := 0x1019
abbrev P.BAL_PASS_TICKS : Nat := 0x101A
abbrev P.BAL_IFC : Nat := 0x101B
abbrev P.CAP_X0 : Nat := 0x1101
abbrev P.CAP_DX : Nat := 0x1102
abbrev P.CAP_LEVEL : Nat := 0x1103
abbrev P.CAP_TARGET : Nat := 0x1104
abbrev P.CAP_SWAP_LAST : Nat := 0x1105
abbrev P.CAP_SWAP_NOSLOT : Nat := 0x1106
abbrev P.CAP_DEFER : Nat := 0x1107
abbrev P.CAP_DEFER_MAX : Nat := 0x1108
abbrev P.CAP_SHORT : Nat := 0x1109
abbrev P.CAP_CLAMP : Nat := 0x110A
abbrev P.CAP_END_TICK : Nat := 0x110C
abbrev P.BUD_EPOCH_TOTAL : Nat := 0x1201
abbrev P.BUD_ARM_FLOOR : Nat := 0x1202
abbrev P.BUD_ARM_CEIL : Nat := 0x1203
abbrev P.BUD_GRANT : Nat := 0x1204
abbrev P.BUD_DEMAND : Nat := 0x1205
abbrev P.BUD_SPENT : Nat := 0x1206
abbrev P.BUD_UNGRANTED : Nat := 0x1207
abbrev P.BUD_STATUS : Nat := 0x1208
abbrev P.BUD_STARVE_SPREAD : Nat := 0x1209
abbrev P.BUD_STARVE_EPOCHS : Nat := 0x120A
abbrev P.BUD_STARVE_RUN : Nat := 0x120B
abbrev P.CLT_MAINT_RESERVE : Nat := 0x1301
abbrev P.CLT_RETRY_EPOCHS : Nat := 0x1302
abbrev P.CLT_WARN_FREE : Nat := 0x1303
abbrev P.CLT_FAULT_FREE : Nat := 0x1304
abbrev P.CLT_MAINT_FREE : Nat := 0x1305
abbrev P.CLT_HIGH_WATER : Nat := 0x1306
abbrev P.CLT_PENDING : Nat := 0x1307
abbrev P.CLT_ENTRY : Nat := 0x1310
abbrev P.CLT_EXCLUDE : Nat := 0x1311
abbrev P.CLT_ACTIVITY : Nat := 0x1312
abbrev P.ARM_EDGE_MAX : Nat := 0x1401
abbrev P.ARM_CELLS_REQUIRED : Nat := 0x1402
abbrev P.ARM_LEDGER : Nat := 0x1403
abbrev P.ARM_I_SRC : Nat := 0x1404
abbrev P.ARM_I_FS : Nat := 0x1405
abbrev P.ARM_ISIGN_HYST : Nat := 0x1406
abbrev P.ARM_I_LAST : Nat := 0x1407
abbrev P.ARM_ISIGN : Nat := 0x1408
abbrev P.ARM_KIND : Nat := 0x1409
abbrev P.ARM_INSTALLED : Nat := 0x140A
abbrev P.ARM_RETIRED : Nat := 0x140B
abbrev P.ARM_UNAVAIL : Nat := 0x140C
abbrev P.ARM_MAINT : Nat := 0x140D
abbrev P.ARM_VBIAS : Nat := 0x140E
abbrev P.ARM_FOH : Nat := 0x140F
abbrev P.ARM_VREF : Nat := 0x1410
abbrev P.LOOP_PATCH_FB : Nat := 0x1801
abbrev P.LOOP_PATCH_REF : Nat := 0x1802
abbrev P.LOOP_PATCH_FF : Nat := 0x1803
abbrev P.LOOP_PATCH_MU : Nat := 0x1804
abbrev P.LOOP_KI : Nat := 0x1805
abbrev P.LOOP_KD : Nat := 0x1806
abbrev P.LOOP_DFILT : Nat := 0x1807
abbrev P.LOOP_OUT_MIN : Nat := 0x1808
abbrev P.LOOP_OUT_MAX : Nat := 0x1809
abbrev P.LOOP_I_PRESET : Nat := 0x180A
abbrev P.LOOP_FE_LIMIT : Nat := 0x180B
abbrev P.LOOP_FE_TIME : Nat := 0x180C
abbrev P.LOOP_MODEL_A : Nat := 0x180D
abbrev P.LOOP_MODEL_B : Nat := 0x180E
abbrev P.LOOP_PLAUS_LIMIT : Nat := 0x180F
abbrev P.LOOP_PLAUS_COUNT : Nat := 0x1810
abbrev P.LOOP_ARM_W0 : Nat := 0x1811
abbrev P.LOOP_ARM_W1 : Nat := 0x1812
abbrev P.LOOP_ARM_W2 : Nat := 0x1813
abbrev P.LOOP_ARM_W3 : Nat := 0x1814
abbrev P.LOOP_ARM_W4 : Nat := 0x1815
abbrev P.LOOP_ARM_W5 : Nat := 0x1816
abbrev P.LOOP_STATE : Nat := 0x1820
abbrev P.LOOP_ERR : Nat := 0x1821
abbrev P.LOOP_OUT : Nat := 0x1822
abbrev P.LOOP_INTEG : Nat := 0x1823
abbrev P.LOOP_RESID : Nat := 0x1824
abbrev P.LOOP_SAT : Nat := 0x1825
abbrev P.LOOP_KP : Nat := 0x1826
abbrev P.TRAJ_POS : Nat := 0x1901
abbrev P.TRAJ_VEL : Nat := 0x1902
abbrev P.TRAJ_ACC : Nat := 0x1903
abbrev P.TRAJ_STATUS : Nat := 0x1904
abbrev P.TRAJ_PRESET : Nat := 0x1905
abbrev P.TRAJ_SHIFT : Nat := 0x1906
abbrev P.TRAJ_VFS : Nat := 0x1907
abbrev P.TRAJ_DONE : Nat := 0x1908
abbrev P.TRAJ_HOST_VAL : Nat := 0x1910
abbrev P.TRAJ_PULSE_WIN : Nat := 0x1911
abbrev P.TRAJ_PULSE_VAL : Nat := 0x1912
abbrev P.STR_STATUS : Nat := 0x1C01
abbrev P.STR_BUSY : Nat := 0x1C02
abbrev P.STR_READY_MAX : Nat := 0x1C03
abbrev P.STR_SLOTS_HIGH : Nat := 0x1C04
abbrev P.STR_WAIT_MAX : Nat := 0x1C05
abbrev P.STR_DEADLINE_MISS : Nat := 0x1C06
abbrev P.STR_TASK_LIMIT : Nat := 0x1C07
abbrev P.STR_SRAM_CORR : Nat := 0x1C08
abbrev P.STR_TRACE_CTRL : Nat := 0x1C10
abbrev P.STR_TRACE_MASK : Nat := 0x1C11
abbrev P.STR_TRACE_POS : Nat := 0x1C12
abbrev P.STR_TRACE_LOST : Nat := 0x1C13
abbrev P.STR_PATCH_LEVEL : Nat := 0x1C20
abbrev P.STR_PATCH_STATE : Nat := 0x1C21
abbrev P.LANE_GEN_MAX : Nat := 0x2001
abbrev P.LANE_TX_SWING : Nat := 0x2002
abbrev P.LANE_RX_EQ : Nat := 0x2003
abbrev P.LANE_POLARITY : Nat := 0x2004
abbrev P.LANE_STATE : Nat := 0x2005
abbrev P.LANE_ERR_LIMIT : Nat := 0x2006
abbrev P.LANE_ERR_COUNT : Nat := 0x2007
abbrev P.LANE_ERR_TOTAL : Nat := 0x2008
abbrev P.LANE_FAIL : Nat := 0x2009
abbrev P.LANE_CAPS : Nat := 0x200A
abbrev P.LANE_EQ_RESULT : Nat := 0x200C
abbrev P.LANE_LOCK_LOSS : Nat := 0x200D
abbrev P.FRM_HUB_HOLD_MAX : Nat := 0x2101
abbrev P.FRM_MSG_RETRY : Nat := 0x2102
abbrev P.FRM_PERM_TIMEOUT : Nat := 0x2103
abbrev P.FRM_DS_ERR : Nat := 0x2104
abbrev P.FRM_US_ERR : Nat := 0x2105
abbrev P.FRM_HOLD_EVENTS : Nat := 0x2106
abbrev P.FRM_MSG_FAIL : Nat := 0x2107
abbrev P.FRM_HUB_STATUS : Nat := 0x2108
abbrev P.FRM_CELL_STATE : Nat := 0x2110
abbrev P.FRM_CELL_VCAP : Nat := 0x2111
abbrev P.FRM_MSG_RESULT : Nat := 0x2113
abbrev P.DISC_I2C_KHZ : Nat := 0x2401
abbrev P.DISC_PLACED : Nat := 0x2402
abbrev P.DISC_TOPO_CRC : Nat := 0x2403
abbrev P.DISC_LANE_CHECK : Nat := 0x2404
abbrev P.DISC_CELL_STATE : Nat := 0x2405
abbrev P.DISC_BOARD_STATE : Nat := 0x2406
abbrev P.DISC_FAIL : Nat := 0x2407
abbrev P.DISC_MT_WINDOW : Nat := 0x2411
abbrev P.DISC_MT_TOL : Nat := 0x2412
abbrev P.DISC_MT_STATUS : Nat := 0x2413
abbrev P.DISC_MT_START : Nat := 0x2414
abbrev P.DISC_MT_QPOS : Nat := 0x2415
abbrev P.DISC_MT_QABS : Nat := 0x2416
abbrev P.DISC_CELL_STOP_MASK : Nat := 0x2420
abbrev P.TALLY_CONVERTER : Nat := 0x2501
abbrev P.TALLY_BLOCK : Nat := 0x2502
abbrev P.TALLY_STATUS : Nat := 0x2503
abbrev P.TALLY_EXPECT_ACT : Nat := 0x2504
abbrev P.TALLY_OLD_CLEAR : Nat := 0x2505
abbrev P.TALLY_PERSIST : Nat := 0x2506
abbrev P.TALLY_PEER_MASK : Nat := 0x2507
abbrev P.TALLY_DEBLOCK_GUARD : Nat := 0x2508
abbrev P.TALLY_AT_NEW : Nat := 0x2510
abbrev P.TALLY_AT_OLD : Nat := 0x2511
abbrev P.TALLY_OTHER : Nat := 0x2512
abbrev P.TALLY_UNKNOWN : Nat := 0x2513
abbrev P.TALLY_PEER_CONVERTER : Nat := 0x2514
abbrev P.TALLY_CELL_DIGEST : Nat := 0x2515
abbrev P.TALLY_HUB_DIGEST : Nat := 0x2516
abbrev P.TIME_NOW : Nat := 0x2801
abbrev P.TIME_SEC_HI : Nat := 0x2803
abbrev P.TIME_CELL_NOW : Nat := 0x2804
abbrev P.TIME_CELL_DELTA : Nat := 0x2805
abbrev P.TIME_RATE : Nat := 0x2806
abbrev P.TIME_RATE_MAX : Nat := 0x2807
abbrev P.TIME_KP : Nat := 0x2808
abbrev P.TIME_KI : Nat := 0x2809
abbrev P.TIME_INTEG : Nat := 0x280A
abbrev P.TIME_STEP_LIMIT : Nat := 0x280B
abbrev P.TIME_LOCK_LIMIT : Nat := 0x280C
abbrev P.TIME_LOCK_COUNT : Nat := 0x280D
abbrev P.TIME_HOLDOVER : Nat := 0x280E
abbrev P.TIME_STATE : Nat := 0x280F
abbrev P.TIME_LAST_OFFSET : Nat := 0x2810
abbrev P.TIME_EVENT : Nat := 0x2812
abbrev P.TIME_UNLOCKED_CELLS : Nat := 0x2813
abbrev P.ADC_REG_CFG : Nat := 0x3001
abbrev P.ADC_REG_CH : Nat := 0x3002
abbrev P.ADC_INJ_CFG : Nat := 0x3003
abbrev P.ADC_INJ_DELAY : Nat := 0x3004
abbrev P.ADC_INJ_STATUS : Nat := 0x3005
abbrev P.ADC_INJ_LOST : Nat := 0x3006
abbrev P.ADC_OVERRUN : Nat := 0x3007
abbrev P.ADC_REG_SKIP : Nat := 0x3008
abbrev P.ADC_CAL_CH : Nat := 0x3010
abbrev P.ADC_CAL_AVG : Nat := 0x3011
abbrev P.ADC_CAL_ZREF : Nat := 0x3012
abbrev P.ADC_CAL_FREF : Nat := 0x3013
abbrev P.ADC_CAL_Z : Nat := 0x3014
abbrev P.ADC_CAL_G : Nat := 0x3015
abbrev P.ADC_CAL_STATE : Nat := 0x3016
abbrev P.ADC_TDAC : Nat := 0x3018
abbrev P.ADC_LATEST : Nat := 0x3020
abbrev P.ADC_CHAN_FS : Nat := 0x3021
abbrev P.ADC_PLAUS_CH : Nat := 0x3028
abbrev P.ADC_PLAUS_LIMIT : Nat := 0x3029
abbrev P.ADC_PLAUS_COUNT : Nat := 0x302A
abbrev P.ADC_PLAUS_DIFF : Nat := 0x302B
abbrev P.ADC_PLAUS_SKIP : Nat := 0x302C
abbrev P.ADC_QUEUE_EN : Nat := 0x3030
abbrev P.ADC_Q_HEAD : Nat := 0x3031
abbrev P.ADC_Q_TAIL : Nat := 0x3032
abbrev P.ADC_Q_DROP : Nat := 0x3033
abbrev P.ADC_PT_START : Nat := 0x3038
abbrev P.ADC_PT_LEVELS : Nat := 0x3039
abbrev P.ADC_PT_EXPECT : Nat := 0x303A
abbrev P.ADC_PT_TOL : Nat := 0x303B
abbrev P.ADC_PT_RESULT : Nat := 0x303C
abbrev P.DEC_CFG : Nat := 0x3101
abbrev P.DEC_CTRL : Nat := 0x3102
abbrev P.DEC_STATUS : Nat := 0x3103
abbrev P.DEC_STUCK_LIMIT : Nat := 0x3104
abbrev P.DEC_SYNC_COUNT : Nat := 0x3105
abbrev P.DEC_SAT : Nat := 0x3106
abbrev P.DEC_QUEUE_EN : Nat := 0x3107
abbrev P.ENC_CPR : Nat := 0x3401
abbrev P.ENC_INDEX_EXPECT : Nat := 0x3402
abbrev P.ENC_MODE : Nat := 0x3403
abbrev P.ENC_FILTER : Nat := 0x3404
abbrev P.ENC_POS : Nat := 0x3405
abbrev P.ENC_RAW : Nat := 0x3406
abbrev P.ENC_PRESET : Nat := 0x3407
abbrev P.ENC_POS_SHIFT : Nat := 0x3408
abbrev P.ENC_SPEED : Nat := 0x3409
abbrev P.ENC_SPEED_WIN : Nat := 0x340A
abbrev P.ENC_SPEED_FS : Nat := 0x340B
abbrev P.ENC_STATUS : Nat := 0x340C
abbrev P.ENC_ILLEGAL : Nat := 0x340D
abbrev P.ENC_ILLEGAL_MAX : Nat := 0x340E
abbrev P.ENC_INDEX_TOL : Nat := 0x340F
abbrev P.ENC_INDEX_CORR : Nat := 0x3410
abbrev P.ENC_LATCH_CFG : Nat := 0x3411
abbrev P.ENC_LATCH_POS : Nat := 0x3412
abbrev P.ENC_LATCH_TIME : Nat := 0x3413
abbrev P.ENC_LATCH_SRC : Nat := 0x3415
abbrev P.ENC_LIM_DEBOUNCE : Nat := 0x3418
abbrev P.ENC_LIM_RELEASE : Nat := 0x3419
abbrev P.ENC_LIM_POS_P : Nat := 0x341A
abbrev P.ENC_LIM_POS_N : Nat := 0x341B
abbrev P.ENC_HOME_CFG : Nat := 0x3420
abbrev P.ENC_HOME_REVERSE : Nat := 0x3421
abbrev P.ENC_HOME_VEL : Nat := 0x3422
abbrev P.ENC_HOME_ACC : Nat := 0x3423
abbrev P.ENC_HOME_JERK : Nat := 0x3424
abbrev P.ENC_HOME_SPAN : Nat := 0x3425
abbrev P.ENC_HOME_POS : Nat := 0x3426
abbrev P.ENC_HOME_STATE : Nat := 0x3427
abbrev P.CHOP_PERIOD : Nat := 0x3801
abbrev P.CHOP_DUTY : Nat := 0x3802
abbrev P.CHOP_DEADTIME : Nat := 0x3803
abbrev P.CHOP_MODE : Nat := 0x3804
abbrev P.CHOP_MIN_PULSE : Nat := 0x3805
abbrev P.CHOP_TRIP_CFG : Nat := 0x3806
abbrev P.CHOP_TRIP_RUN : Nat := 0x3807
abbrev P.CHOP_TRIP_TOTAL : Nat := 0x3808
abbrev P.CHOP_BLANK : Nat := 0x3809
abbrev P.CHOP_BLANK_SRC : Nat := 0x380A
abbrev P.CHOP_SC_THRESH : Nat := 0x380B
abbrev P.CHOP_SC_FILTER : Nat := 0x380C
abbrev P.CHOP_GS_CFG : Nat := 0x380D
abbrev P.CHOP_STATUS : Nat := 0x380E
abbrev P.CHOP_FORCE : Nat := 0x380F
abbrev P.CHOP_VDC_SRC : Nat := 0x3810
abbrev P.CHOP_HYST_ON : Nat := 0x3811
abbrev P.CHOP_HYST_BAND : Nat := 0x3812
abbrev P.CHOP_VDC_ABS_ON : Nat := 0x3813
abbrev P.CHOP_TRACK_SHIFT : Nat := 0x3814
abbrev P.CHOP_VDC_TRACK : Nat := 0x3815
abbrev P.CHOP_OV_LIMIT : Nat := 0x3816
abbrev P.CHOP_OV_COUNT : Nat := 0x3817
abbrev P.CHOP_IL_COUNT : Nat := 0x3818
abbrev P.SAFE_STATE : Nat := 0x4001
abbrev P.SAFE_LATCH : Nat := 0x4002
abbrev P.SAFE_SI_CFG : Nat := 0x4010
abbrev P.SAFE_DISC : Nat := 0x4011
abbrev P.SAFE_SI_STATUS : Nat := 0x4012
abbrev P.SAFE_DISC_EVENTS : Nat := 0x4013
abbrev P.SAFE_TP_EN : Nat := 0x4018
abbrev P.SAFE_TP_PERIOD : Nat := 0x4019
abbrev P.SAFE_TP_WIDTH : Nat := 0x401A
abbrev P.SAFE_TP_SETTLE : Nat := 0x401B
abbrev P.SAFE_ICM_PERIODS : Nat := 0x4020
abbrev P.SAFE_ICM_REACT : Nat := 0x4021
abbrev P.SAFE_ICM_TOL : Nat := 0x4023
abbrev P.SAFE_HB_TIMEOUT : Nat := 0x4028
abbrev P.SAFE_HB_MISS : Nat := 0x4029
abbrev P.SAFE_FDC_V_TAG : Nat := 0x4030
abbrev P.SAFE_FDC_OV : Nat := 0x4031
abbrev P.SAFE_FDC_OV_N : Nat := 0x4032
abbrev P.SAFE_FDC_I_TAG : Nat := 0x4033
abbrev P.SAFE_FDC_OC_HI : Nat := 0x4034
abbrev P.SAFE_FDC_OC_LO : Nat := 0x4035
abbrev P.SAFE_FDC_OC_N : Nat := 0x4036
abbrev P.SAFE_FDC_HYST : Nat := 0x4037
abbrev P.SAFE_FDC_STALE : Nat := 0x4038
abbrev P.SAFE_FDC_LAST : Nat := 0x4039
abbrev P.SAFE_RESET_SHORT : Nat := 0x4041
abbrev P.SAFE_RESET_COUNT : Nat := 0x4042
abbrev P.SAFE_RESET_REFUSED : Nat := 0x4043
abbrev P.SAFE_SESSION : Nat := 0x4048
abbrev P.SAFE_PASSWORD_LO : Nat := 0x4049
abbrev P.SAFE_PASSWORD_HI : Nat := 0x404A
abbrev P.SAFE_LOG_STATUS : Nat := 0x404C
abbrev P.SAFE_UNLOCK_FAIL : Nat := 0x404E
abbrev P.FLT_ERR_PULSE : Nat := 0x4401
abbrev P.FLT_ERR_HOLD : Nat := 0x4402
abbrev P.FLT_CTRL : Nat := 0x4403
abbrev P.FLT_CFG : Nat := 0x4410
abbrev P.FLT_ACTIVE_COUNT : Nat := 0x4411
abbrev P.FLT_REC_POS : Nat := 0x4412
abbrev P.FLT_LOST : Nat := 0x4413
abbrev P.FLT_STATUS : Nat := 0x4414
abbrev P.FLT_ARM_BLOCKED : Nat := 0x4415
abbrev P.FLT_GRACE_NEXT : Nat := 0x4416
abbrev P.DUP_CFG : Nat := 0x4801
abbrev P.DUP_ROLE : Nat := 0x4802
abbrev P.DUP_ARM_COUNT : Nat := 0x4803
abbrev P.DUP_TKO_WINDOW : Nat := 0x4804
abbrev P.DUP_RESUME_MAX : Nat := 0x4805
abbrev P.DUP_STATUS : Nat := 0x4806
abbrev P.DUP_MARK_SKEW : Nat := 0x4807
abbrev P.DUP_HB_MISS_TOTAL : Nat := 0x4808
abbrev P.DUP_TKO_COUNT : Nat := 0x4809
abbrev P.DUP_TKO_PERIOD : Nat := 0x480A
abbrev P.REEL_STATUS : Nat := 0x4C01
abbrev P.REEL_TRIG_TICK : Nat := 0x4C02
abbrev P.REEL_WORDS : Nat := 0x4C03
abbrev P.REEL_LOST : Nat := 0x4C04
abbrev P.REEL_MASK_VIOL : Nat := 0x4C05
abbrev P.REEL_QUEUE_HIGH : Nat := 0x4C06
abbrev P.TBUS_CFG : Nat := 0x4D01
abbrev P.TBUS_DELAY : Nat := 0x4D02
abbrev P.TBUS_PULSE : Nat := 0x4D03
abbrev P.TBUS_FORCE : Nat := 0x4D04
abbrev P.TBUS_LEVEL : Nat := 0x4D05
abbrev P.TBUS_LOOP_TICKS : Nat := 0x4D06
abbrev P.TBUS_LAST_FALL : Nat := 0x4D08

/-- The parameters of block DEV (R497 of `21_parameter_index.md`). -/
def paramsDev : List ParamDef :=
  [ ⟨P.DEV_ID, false, 32, .ro, 0, 32868, false, .full, false, 0⟩,
    ⟨P.DEV_REVISION, false, 32, .ro, 0, 0, false, .full, false, 0⟩,
    ⟨P.DEV_ROM_VERSION, false, 32, .ro, 0, 0, false, .full, false, 0⟩,
    ⟨P.DEV_SERIAL, true, 64, .rs, 0, 0, false, .full, false, 0⟩ ]

/-- The parameters of block HOST (R69 of `02_host_and_commands.md`). -/
def paramsHost : List ParamDef :=
  [ ⟨P.HOST_CONFIG_MARK, false, 32, .rw, 0, 0, false, .among [(1, 0xFFFFFFFF)], false, 0⟩,
    ⟨P.HOST_MIRROR_SEL, false, 16, .rw, 0, 0, false, .among [(0, 3071)], false, 0⟩,
    ⟨P.HOST_WDOG, false, 16, .rw, 0, 0, false, .among [(0, 0), (1, 1000)], false, 0⟩,
    ⟨P.HOST_SPI_FRAMING, false, 32, .rw1c, 0, 0, false, .full, false, 0⟩,
    ⟨P.HOST_CRC_ERR, false, 32, .rw1c, 0, 0, false, .full, false, 0⟩,
    ⟨P.HOST_SEQ_ERR, false, 32, .rw1c, 0, 0, false, .full, false, 0⟩,
    ⟨P.HOST_BAR0_WR_DROP, false, 32, .rw1c, 0, 0, false, .full, false, 0⟩,
    ⟨P.HOST_IRQ_CAUSE, false, 32, .rw1c, 0, 0, false, .full, false, 0⟩,
    ⟨P.HOST_MSI_ENABLE, false, 32, .rw, 0, 0, false, .mask 0xF, false, 0⟩,
    ⟨P.HOST_INT_ENABLE, false, 32, .rw, 0, 0, false, .mask 0x1E, false, 0⟩,
    ⟨P.HOST_CG_STAGED_MISC, false, 32, .ro, 0, 0, false, .full, false, 0⟩,
    ⟨P.HOST_CG_ARMED_MISC, false, 32, .ro, 0, 0, false, .full, false, 0⟩,
    ⟨P.HOST_CG_STAGED_LANE, true, 64, .rs, 0, 0, false, .full, false, 0⟩,
    ⟨P.HOST_CG_ARMED_LANE, true, 64, .rs, 0, 0, false, .full, false, 0⟩ ]

/-- The parameters of block PWR (R494 of `20_power_clocks_startup.md`). -/
def paramsPwr : List ParamDef :=
  [ ⟨P.PWR_STATE, false, 8, .ro, 0, 1, false, .full, false, 0⟩,
    ⟨P.PWR_TARGET, false, 8, .ro, 0, 1, false, .full, false, 0⟩,
    ⟨P.PWR_DOMAINS, false, 16, .ro, 0, 1, false, .full, false, 0⟩,
    ⟨P.PWR_LANE_EN, false, 8, .rw, 0, 15, false, .mask 0xF, true, 0⟩,
    ⟨P.PWR_CLK_STATUS, false, 16, .ro, 0, 0, false, .full, false, 0⟩,
    ⟨P.PWR_RESET_CAUSE, false, 8, .ro, 0, 0, false, .full, false, 0⟩,
    ⟨P.PWR_BIST, false, 32, .ro, 0, 0, false, .full, false, 0⟩,
    ⟨P.PWR_EVENT, false, 32, .rw1c, 0, 0, false, .full, false, 0⟩ ]

/-- The parameters of block PER (R94 of `03_period_and_timebase.md`). -/
def paramsPer : List ParamDef :=
  [ ⟨P.PER_PERIOD, false, 16, .rw, 0, 1000, false, .among [(200, 4000)], false, 1⟩,
    ⟨P.PER_EPOCH, false, 16, .rw, 0, 16, false, .among [(4, 256)], false, 1⟩,
    ⟨P.PER_LATENCY, false, 8, .ro, 0, 2, false, .full, false, 0⟩,
    ⟨P.PER_EPOCH_EFF, false, 16, .ro, 0, 16, false, .full, false, 0⟩,
    ⟨P.PER_COUNT, true, 64, .rs, 0, 0, false, .full, false, 0⟩,
    ⟨P.PER_EPOCH_COUNT, false, 32, .ro, 0, 0, false, .full, false, 0⟩,
    ⟨P.PER_EPOCH_PHASE, false, 16, .ro, 0, 0, false, .full, false, 0⟩,
    ⟨P.PER_REPORT_DIV, false, 8, .ro, 64, 0, false, .full, false, 0⟩,
    ⟨P.PER_REPORT_PHASE, false, 8, .ro, 64, 0, false, .full, false, 0⟩,
    ⟨P.PER_SCHED_SLACK, false, 16, .ro, 0, 0, true, .full, false, 0⟩,
    ⟨P.PER_CHANGE, false, 32, .rw1c, 0, 0, false, .full, false, 0⟩,
    ⟨P.PER_MIN_EPOCH, false, 16, .ro, 0, 800, false, .full, false, 0⟩ ]

/-- The parameters of block BAL (R119 of `04_balancing.md`). -/
def paramsBal : List ParamDef :=
  [ ⟨P.BAL_MODE, false, 8, .rw, 6, 0, false, .among [(0, 2)], false, 0⟩,
    ⟨P.BAL_SWAP_DEADBAND, false, 16, .rw, 6, 16, false, .among [(0, 4095)], false, 0⟩,
    ⟨P.BAL_VBASE, false, 32, .rw, 6, 1000, false, .among [(1, 2000000)], true, 0⟩,
    ⟨P.BAL_DR_MAX, false, 16, .rw, 6, 64, false, .among [(8, 1024)], false, 0⟩,
    ⟨P.BAL_RESID_NOTE, false, 16, .rw, 6, 512, false, .among [(0, 0), (1, 65535)], false, 0⟩,
    ⟨P.BAL_RESID_SUSPECT, false, 16, .rw, 6, 2048, false, .among [(0, 0), (1, 65535)], false, 0⟩,
    ⟨P.BAL_SPREAD, false, 16, .ro, 6, 0, false, .full, false, 0⟩,
    ⟨P.BAL_INSERVICE, false, 16, .ro, 6, 0, false, .full, false, 0⟩,
    ⟨P.BAL_FB_COUNT, false, 16, .ro, 6, 0, false, .full, false, 0⟩,
    ⟨P.BAL_SCALE, false, 32, .ro, 6, 0, false, .full, false, 0⟩,
    ⟨P.BAL_TABLE_EPOCH, false, 32, .ro, 6, 0, false, .full, false, 0⟩,
    ⟨P.BAL_LIST_LEN, false, 32, .ro, 6, 0, false, .full, false, 0⟩,
    ⟨P.BAL_STALE, false, 32, .rw1c, 6, 0, false, .full, false, 0⟩,
    ⟨P.BAL_RESID_MAX, false, 16, .ro, 6, 0, false, .full, false, 0⟩,
    ⟨P.BAL_RESID_CELL, false, 16, .ro, 6, 0, false, .full, false, 0⟩,
    ⟨P.BAL_PASS_TICKS, false, 16, .ro, 6, 0, false, .full, false, 0⟩,
    ⟨P.BAL_IFC, false, 16, .ro, 6, 0, true, .full, false, 0⟩ ]

/-- The parameters of block CAP (R151 of `05_capstan.md`). -/
def paramsCap : List ParamDef :=
  [ ⟨P.CAP_X0, false, 32, .ro, 6, 0, false, .full, false, 0⟩,
    ⟨P.CAP_DX, false, 32, .ro, 6, 0, false, .full, false, 0⟩,
    ⟨P.CAP_LEVEL, false, 16, .ro, 6, 0, true, .full, false, 0⟩,
    ⟨P.CAP_TARGET, false, 16, .ro, 6, 0, true, .full, false, 0⟩,
    ⟨P.CAP_SWAP_LAST, false, 32, .ro, 6, 0, false, .full, false, 0⟩,
    ⟨P.CAP_SWAP_NOSLOT, false, 32, .rw1c, 6, 0, false, .full, false, 0⟩,
    ⟨P.CAP_DEFER, false, 32, .rw1c, 6, 0, false, .full, false, 0⟩,
    ⟨P.CAP_DEFER_MAX, false, 16, .rw1c, 6, 0, false, .full, false, 0⟩,
    ⟨P.CAP_SHORT, false, 32, .rw1c, 6, 0, false, .full, false, 0⟩,
    ⟨P.CAP_CLAMP, false, 32, .rw1c, 6, 0, false, .full, false, 0⟩,
    ⟨P.CAP_END_TICK, false, 16, .ro, 0, 0, false, .full, false, 0⟩ ]

/-- The parameters of block BUD (R174 of `06_budget_and_cleat.md`). -/
def paramsBud : List ParamDef :=
  [ ⟨P.BUD_EPOCH_TOTAL, false, 16, .rw, 0, 256, false, .among [(0, 4095)], false, 6⟩,
    ⟨P.BUD_ARM_FLOOR, false, 16, .rw, 6, 0, false, .among [(0, 4095)], false, 6⟩,
    ⟨P.BUD_ARM_CEIL, false, 16, .rw, 6, 4095, false, .among [(0, 4095)], false, 6⟩,
    ⟨P.BUD_GRANT, false, 16, .ro, 6, 0, false, .full, false, 0⟩,
    ⟨P.BUD_DEMAND, false, 16, .ro, 6, 0, false, .full, false, 0⟩,
    ⟨P.BUD_SPENT, false, 16, .ro, 0, 0, false, .full, false, 0⟩,
    ⟨P.BUD_UNGRANTED, false, 16, .ro, 0, 0, false, .full, false, 0⟩,
    ⟨P.BUD_STATUS, false, 32, .rw1c, 0, 0, false, .full, false, 0⟩,
    ⟨P.BUD_STARVE_SPREAD, false, 16, .rw, 6, 1024, false, .among [(0, 0), (1, 65535)], false, 0⟩,
    ⟨P.BUD_STARVE_EPOCHS, false, 8, .rw, 6, 8, false, .among [(1, 255)], false, 0⟩,
    ⟨P.BUD_STARVE_RUN, false, 8, .ro, 6, 0, false, .full, false, 0⟩ ]

/-- The parameters of block CLT (R175 of `06_budget_and_cleat.md`). -/
def paramsClt : List ParamDef :=
  [ ⟨P.CLT_MAINT_RESERVE, false, 8, .rw, 0, 8, false, .among [(0, 16)], true, 0⟩,
    ⟨P.CLT_RETRY_EPOCHS, false, 8, .rw, 0, 4, false, .among [(1, 64)], false, 0⟩,
    ⟨P.CLT_WARN_FREE, false, 8, .rw, 0, 4, false, .among [(0, 0), (1, 32)], false, 0⟩,
    ⟨P.CLT_FAULT_FREE, false, 8, .ro, 0, 32, false, .full, false, 0⟩,
    ⟨P.CLT_MAINT_FREE, false, 8, .ro, 0, 8, false, .full, false, 0⟩,
    ⟨P.CLT_HIGH_WATER, false, 8, .rw1c, 0, 0, false, .full, false, 0⟩,
    ⟨P.CLT_PENDING, false, 16, .ro, 0, 0, false, .full, false, 0⟩,
    ⟨P.CLT_ENTRY, false, 32, .ro, 32, 0, false, .full, false, 0⟩,
    ⟨P.CLT_EXCLUDE, false, 16, .rw, 3072, 0, false, .special, false, 0⟩,
    ⟨P.CLT_ACTIVITY, false, 32, .ro, 16, 0, false, .full, false, 0⟩ ]

/-- The parameters of block ARM (R152 of `05_capstan.md`). -/
def paramsArm : List ParamDef :=
  [ ⟨P.ARM_EDGE_MAX, false, 8, .rw, 6, 4, false, .among [(1, 16)], false, 0⟩,
    ⟨P.ARM_CELLS_REQUIRED, false, 16, .rw, 6, 0, false, .among [(0, 1024)], true, 0⟩,
    ⟨P.ARM_LEDGER, false, 16, .ro, 6, 0, true, .full, false, 0⟩,
    ⟨P.ARM_I_SRC, false, 16, .rw, 6, 256, false, .mask 0x1BF, true, 0⟩,
    ⟨P.ARM_I_FS, false, 16, .rw, 6, 1000, false, .among [(1, 65535)], true, 0⟩,
    ⟨P.ARM_ISIGN_HYST, false, 16, .rw, 6, 328, false, .among [(0, 8192)], false, 0⟩,
    ⟨P.ARM_I_LAST, false, 16, .ro, 6, 0, true, .full, false, 0⟩,
    ⟨P.ARM_ISIGN, false, 8, .ro, 6, 0, false, .full, false, 0⟩,
    ⟨P.ARM_KIND, false, 8, .ro, 6, 0, false, .full, false, 0⟩,
    ⟨P.ARM_INSTALLED, false, 16, .ro, 6, 0, false, .full, false, 0⟩,
    ⟨P.ARM_RETIRED, false, 16, .ro, 6, 0, false, .full, false, 0⟩,
    ⟨P.ARM_UNAVAIL, false, 16, .ro, 6, 0, false, .full, false, 0⟩,
    ⟨P.ARM_MAINT, false, 16, .ro, 6, 0, false, .full, false, 0⟩,
    ⟨P.ARM_VBIAS, false, 16, .rw, 6, 0, true, .among [(-32768, 32767)], false, 0⟩,
    ⟨P.ARM_FOH, false, 8, .rw, 6, 1, false, .among [(0, 1)], false, 0⟩,
    ⟨P.ARM_VREF, false, 16, .ro, 6, 0, true, .full, false, 0⟩ ]

/-- The parameters of block LOOP (R209 of `07_loops_and_trajectories.md`). -/
def paramsLoop : List ParamDef :=
  [ ⟨P.LOOP_PATCH_FB, false, 16, .rw, 16, 0, false, .special, true, 5⟩,
    ⟨P.LOOP_PATCH_REF, false, 16, .rw, 16, 0, false, .special, true, 5⟩,
    ⟨P.LOOP_PATCH_FF, false, 16, .rw, 16, 0, false, .special, true, 5⟩,
    ⟨P.LOOP_PATCH_MU, false, 16, .rw, 16, 0, false, .special, false, 5⟩,
    ⟨P.LOOP_KI, false, 16, .rw, 16, 0, false, .among [(0, 32767)], false, 5⟩,
    ⟨P.LOOP_KD, false, 16, .rw, 16, 0, false, .among [(0, 65535)], false, 5⟩,
    ⟨P.LOOP_DFILT, false, 16, .rw, 16, 32767, false, .among [(1, 32767)], false, 5⟩,
    ⟨P.LOOP_OUT_MIN, false, 16, .rw, 16, (-32768), true, .among [(-32768, 32767)], false, 5⟩,
    ⟨P.LOOP_OUT_MAX, false, 16, .rw, 16, 32767, true, .among [(-32768, 32767)], false, 5⟩,
    ⟨P.LOOP_I_PRESET, false, 16, .rw, 16, 0, true, .among [(-32768, 32767)], false, 5⟩,
    ⟨P.LOOP_FE_LIMIT, false, 16, .rw, 16, 0, false, .among [(0, 0), (1, 32767)], false, 5⟩,
    ⟨P.LOOP_FE_TIME, false, 16, .rw, 16, 100, false, .among [(1, 65535)], false, 5⟩,
    ⟨P.LOOP_MODEL_A, false, 16, .rw, 16, 0, true, .among [(-32768, 32767)], false, 5⟩,
    ⟨P.LOOP_MODEL_B, false, 16, .rw, 16, 0, true, .among [(-32768, 32767)], false, 5⟩,
    ⟨P.LOOP_PLAUS_LIMIT, false, 16, .rw, 16, 0, false, .among [(0, 0), (1, 32767)], false, 5⟩,
    ⟨P.LOOP_PLAUS_COUNT, false, 16, .rw, 16, 16, false, .among [(1, 65535)], false, 5⟩,
    ⟨P.LOOP_ARM_W0, false, 16, .rw, 16, 0, true, .among [(-32768, 32767)], true, 5⟩,
    ⟨P.LOOP_ARM_W1, false, 16, .rw, 16, 0, true, .among [(-32768, 32767)], true, 5⟩,
    ⟨P.LOOP_ARM_W2, false, 16, .rw, 16, 0, true, .among [(-32768, 32767)], true, 5⟩,
    ⟨P.LOOP_ARM_W3, false, 16, .rw, 16, 0, true, .among [(-32768, 32767)], true, 5⟩,
    ⟨P.LOOP_ARM_W4, false, 16, .rw, 16, 0, true, .among [(-32768, 32767)], true, 5⟩,
    ⟨P.LOOP_ARM_W5, false, 16, .rw, 16, 0, true, .among [(-32768, 32767)], true, 5⟩,
    ⟨P.LOOP_STATE, false, 8, .ro, 16, 1, false, .full, false, 0⟩,
    ⟨P.LOOP_ERR, false, 16, .ro, 16, 0, true, .full, false, 0⟩,
    ⟨P.LOOP_OUT, false, 16, .ro, 16, 0, true, .full, false, 0⟩,
    ⟨P.LOOP_INTEG, false, 16, .ro, 16, 0, true, .full, false, 0⟩,
    ⟨P.LOOP_RESID, false, 16, .ro, 16, 0, true, .full, false, 0⟩,
    ⟨P.LOOP_SAT, false, 32, .rw1c, 16, 0, false, .full, false, 0⟩,
    ⟨P.LOOP_KP, false, 16, .ro, 16, 0, false, .full, false, 0⟩ ]

/-- The parameters of block TRAJ (R211 of `07_loops_and_trajectories.md`). -/
def paramsTraj : List ParamDef :=
  [ ⟨P.TRAJ_POS, false, 32, .ro, 4, 0, true, .full, false, 0⟩,
    ⟨P.TRAJ_VEL, false, 32, .ro, 4, 0, true, .full, false, 0⟩,
    ⟨P.TRAJ_ACC, false, 32, .ro, 4, 0, true, .full, false, 0⟩,
    ⟨P.TRAJ_STATUS, false, 32, .ro, 4, 0, false, .full, false, 0⟩,
    ⟨P.TRAJ_PRESET, false, 32, .wo, 4, 0, true, .full, false, 0⟩,
    ⟨P.TRAJ_SHIFT, false, 8, .rw, 4, 0, false, .among [(0, 16)], true, 0⟩,
    ⟨P.TRAJ_VFS, false, 32, .rw, 4, 32768, false, .among [(1, 2147483647)], true, 0⟩,
    ⟨P.TRAJ_DONE, false, 32, .rw1c, 4, 0, false, .full, false, 0⟩,
    ⟨P.TRAJ_HOST_VAL, false, 16, .rw, 8, 0, true, .among [(-32768, 32767)], false, 0⟩,
    ⟨P.TRAJ_PULSE_WIN, false, 32, .rw, 2, 20000, false, .among [(200, 20000000)], false, 0⟩,
    ⟨P.TRAJ_PULSE_VAL, false, 16, .ro, 2, 0, false, .full, false, 0⟩ ]

/-- The parameters of block STR (R234 of `08_strands_and_fairlead.md`). -/
def paramsStr : List ParamDef :=
  [ ⟨P.STR_STATUS, false, 32, .ro, 8, 0, false, .full, false, 0⟩,
    ⟨P.STR_BUSY, false, 32, .ro, 8, 0, false, .full, false, 0⟩,
    ⟨P.STR_READY_MAX, false, 16, .rw1c, 0, 0, false, .full, false, 0⟩,
    ⟨P.STR_SLOTS_HIGH, false, 16, .rw1c, 0, 0, false, .full, false, 0⟩,
    ⟨P.STR_WAIT_MAX, false, 16, .rw1c, 8, 0, false, .full, false, 0⟩,
    ⟨P.STR_DEADLINE_MISS, false, 32, .rw1c, 16, 0, false, .full, false, 0⟩,
    ⟨P.STR_TASK_LIMIT, false, 16, .rw, 0, 2000, false, .among [(600, 65535)], false, 0⟩,
    ⟨P.STR_SRAM_CORR, false, 32, .rw1c, 8, 0, false, .full, false, 0⟩,
    ⟨P.STR_TRACE_CTRL, false, 32, .rw, 0, 1, false, .mask 0xFFFF0003, false, 0⟩,
    ⟨P.STR_TRACE_MASK, false, 16, .rw, 0, 1951, false, .mask 0x7FF, false, 0⟩,
    ⟨P.STR_TRACE_POS, false, 32, .ro, 0, 0, false, .full, false, 0⟩,
    ⟨P.STR_TRACE_LOST, false, 32, .rw1c, 0, 0, false, .full, false, 0⟩,
    ⟨P.STR_PATCH_LEVEL, false, 32, .ro, 0, 0, false, .full, false, 0⟩,
    ⟨P.STR_PATCH_STATE, false, 8, .ro, 0, 0, false, .full, false, 0⟩ ]

/-- The parameters of block LANE (R258 of `09_lane_physical.md`). -/
def paramsLane : List ParamDef :=
  [ ⟨P.LANE_GEN_MAX, false, 8, .rw, 66, 3, false, .among [(1, 3)], false, 2⟩,
    ⟨P.LANE_TX_SWING, false, 8, .rw, 66, 8, false, .among [(0, 15)], false, 2⟩,
    ⟨P.LANE_RX_EQ, false, 8, .rw, 66, 128, false, .mask 0x8F, false, 2⟩,
    ⟨P.LANE_POLARITY, false, 8, .rw, 66, 0, false, .mask 0x3, false, 2⟩,
    ⟨P.LANE_STATE, false, 16, .ro, 66, 0, false, .full, false, 0⟩,
    ⟨P.LANE_ERR_LIMIT, false, 16, .rw, 66, 100, false, .among [(1, 65535)], false, 0⟩,
    ⟨P.LANE_ERR_COUNT, false, 16, .ro, 66, 0, false, .full, false, 0⟩,
    ⟨P.LANE_ERR_TOTAL, false, 32, .rw1c, 66, 0, false, .full, false, 0⟩,
    ⟨P.LANE_FAIL, false, 16, .ro, 66, 0, false, .full, false, 0⟩,
    ⟨P.LANE_CAPS, false, 32, .ro, 66, 0, false, .full, false, 0⟩,
    ⟨P.LANE_EQ_RESULT, false, 8, .ro, 66, 0, false, .full, false, 0⟩,
    ⟨P.LANE_LOCK_LOSS, false, 32, .rw1c, 66, 0, false, .full, false, 0⟩ ]

/-- The parameters of block FRM (R287 of `10_frames_and_cell_contract.md`). -/
def paramsFrm : List ParamDef :=
  [ ⟨P.FRM_HUB_HOLD_MAX, false, 8, .rw, 0, 3, false, .among [(1, 4)], true, 0⟩,
    ⟨P.FRM_MSG_RETRY, false, 8, .rw, 0, 3, false, .among [(0, 7)], false, 0⟩,
    ⟨P.FRM_PERM_TIMEOUT, false, 16, .rw, 0, 50, false, .among [(5, 1000)], false, 0⟩,
    ⟨P.FRM_DS_ERR, false, 32, .rw1c, 64, 0, false, .full, false, 0⟩,
    ⟨P.FRM_US_ERR, false, 32, .rw1c, 64, 0, false, .full, false, 0⟩,
    ⟨P.FRM_HOLD_EVENTS, false, 32, .rw1c, 64, 0, false, .full, false, 0⟩,
    ⟨P.FRM_MSG_FAIL, false, 32, .rw1c, 64, 0, false, .full, false, 0⟩,
    ⟨P.FRM_HUB_STATUS, false, 32, .ro, 64, 0, false, .full, false, 0⟩,
    ⟨P.FRM_CELL_STATE, false, 32, .ro, 3072, 0, false, .full, false, 0⟩,
    ⟨P.FRM_CELL_VCAP, false, 16, .ro, 3072, 0, false, .full, false, 0⟩,
    ⟨P.FRM_MSG_RESULT, false, 32, .ro, 3072, 0, false, .full, false, 0⟩ ]

/-- The parameters of block DISC (R315 of `11_discovery_placement_tally.md`). -/
def paramsDisc : List ParamDef :=
  [ ⟨P.DISC_I2C_KHZ, false, 16, .rw, 0, 400, false, .among [(100, 100), (400, 400)], false, 0⟩,
    ⟨P.DISC_PLACED, false, 16, .ro, 0, 0, false, .full, false, 0⟩,
    ⟨P.DISC_TOPO_CRC, false, 32, .ro, 0, 0, false, .full, false, 0⟩,
    ⟨P.DISC_LANE_CHECK, false, 32, .ro, 64, 0, false, .full, false, 0⟩,
    ⟨P.DISC_CELL_STATE, false, 32, .ro, 3072, 0, false, .full, false, 0⟩,
    ⟨P.DISC_BOARD_STATE, false, 32, .ro, 8, 0, false, .full, false, 0⟩,
    ⟨P.DISC_FAIL, false, 32, .ro, 0, 0, false, .full, false, 0⟩,
    ⟨P.DISC_MT_WINDOW, false, 32, .rw, 0, 20000, false, .among [(100, 2000000)], false, 0⟩,
    ⟨P.DISC_MT_TOL, false, 16, .rw, 0, 100, false, .among [(10, 500)], false, 0⟩,
    ⟨P.DISC_MT_STATUS, false, 32, .ro, 0, 0, false, .full, false, 0⟩,
    ⟨P.DISC_MT_START, false, 8, .wo, 0, 0, false, .among [(0, 1)], false, 0⟩,
    ⟨P.DISC_MT_QPOS, false, 32, .ro, 6, 0, false, .full, false, 0⟩,
    ⟨P.DISC_MT_QABS, false, 32, .ro, 6, 0, false, .full, false, 0⟩,
    ⟨P.DISC_CELL_STOP_MASK, false, 32, .rw, 4, 4294967295, false, .full, false, 0⟩ ]

/-- The parameters of block TALLY (R316 of `11_discovery_placement_tally.md`). -/
def paramsTally : List ParamDef :=
  [ ⟨P.TALLY_CONVERTER, false, 32, .ro, 0, 0, false, .full, false, 0⟩,
    ⟨P.TALLY_BLOCK, false, 32, .ro, 26, 0, false, .full, false, 0⟩,
    ⟨P.TALLY_STATUS, false, 32, .ro, 0, 0, false, .full, false, 0⟩,
    ⟨P.TALLY_EXPECT_ACT, false, 16, .wo, 0, 0, false, .among [(1280, 1280), (1281, 1281)], false, 0⟩,
    ⟨P.TALLY_OLD_CLEAR, false, 8, .wo, 0, 0, false, .among [(1, 1)], false, 0⟩,
    ⟨P.TALLY_PERSIST, false, 16, .rw, 0, 100, false, .among [(1, 10000)], false, 0⟩,
    ⟨P.TALLY_PEER_MASK, false, 32, .rw, 0, 58687485, false, .mask 0x3FFFFFF, false, 0⟩,
    ⟨P.TALLY_DEBLOCK_GUARD, false, 8, .rw, 0, 1, false, .among [(0, 1)], false, 0⟩,
    ⟨P.TALLY_AT_NEW, false, 16, .ro, 0, 0, false, .full, false, 0⟩,
    ⟨P.TALLY_AT_OLD, false, 16, .ro, 0, 0, false, .full, false, 0⟩,
    ⟨P.TALLY_OTHER, false, 16, .ro, 0, 0, false, .full, false, 0⟩,
    ⟨P.TALLY_UNKNOWN, false, 16, .ro, 0, 0, false, .full, false, 0⟩,
    ⟨P.TALLY_PEER_CONVERTER, false, 32, .ro, 0, 0, false, .full, false, 0⟩,
    ⟨P.TALLY_CELL_DIGEST, false, 32, .ro, 3072, 0, false, .full, false, 0⟩,
    ⟨P.TALLY_HUB_DIGEST, false, 32, .ro, 64, 0, false, .full, false, 0⟩ ]

/-- The parameters of block TIME (R330 of `12_time.md`). -/
def paramsTime : List ParamDef :=
  [ ⟨P.TIME_NOW, true, 64, .rs, 0, 0, false, .full, false, 0⟩,
    ⟨P.TIME_SEC_HI, false, 16, .ro, 0, 0, false, .full, false, 0⟩,
    ⟨P.TIME_CELL_NOW, false, 32, .ro, 0, 0, false, .full, false, 0⟩,
    ⟨P.TIME_CELL_DELTA, false, 32, .ro, 0, 0, false, .full, false, 0⟩,
    ⟨P.TIME_RATE, false, 32, .ro, 0, 0, true, .full, false, 0⟩,
    ⟨P.TIME_RATE_MAX, false, 32, .rw, 0, 109951163, false, .among [(0, 1099511628)], false, 0⟩,
    ⟨P.TIME_KP, false, 32, .rw, 0, 550, false, .among [(0, 2147483647)], false, 0⟩,
    ⟨P.TIME_KI, false, 32, .rw, 0, 55, false, .among [(0, 2147483647)], false, 0⟩,
    ⟨P.TIME_INTEG, false, 32, .ro, 0, 0, true, .full, false, 0⟩,
    ⟨P.TIME_STEP_LIMIT, false, 32, .rw, 0, 100000, false, .among [(0, 0), (100, 1000000000)], false, 0⟩,
    ⟨P.TIME_LOCK_LIMIT, false, 32, .rw, 0, 1000, false, .among [(1, 1000000)], false, 0⟩,
    ⟨P.TIME_LOCK_COUNT, false, 8, .rw, 0, 4, false, .among [(1, 255)], false, 0⟩,
    ⟨P.TIME_HOLDOVER, false, 16, .rw, 0, 5000, false, .among [(0, 0), (1, 60000)], false, 0⟩,
    ⟨P.TIME_STATE, false, 8, .ro, 0, 0, false, .full, false, 0⟩,
    ⟨P.TIME_LAST_OFFSET, true, 64, .rs, 0, 0, true, .full, false, 0⟩,
    ⟨P.TIME_EVENT, false, 32, .rw1c, 0, 0, false, .full, false, 0⟩,
    ⟨P.TIME_UNLOCKED_CELLS, false, 16, .ro, 0, 0, false, .full, false, 0⟩ ]

/-- The parameters of block ADC (R357 of `13_measurement.md`). -/
def paramsAdc : List ParamDef :=
  [ ⟨P.ADC_REG_CFG, false, 16, .rw, 2, 0, false, .mask 0xFFF3, true, 0⟩,
    ⟨P.ADC_REG_CH, false, 8, .rw, 32, 31, false, .among [(0, 23), (31, 31)], true, 0⟩,
    ⟨P.ADC_INJ_CFG, false, 32, .rw, 16, 0, false, .mask 0x7FFFFFF, true, 0⟩,
    ⟨P.ADC_INJ_DELAY, false, 16, .rw, 16, 0, false, .among [(0, 4095)], false, 0⟩,
    ⟨P.ADC_INJ_STATUS, false, 32, .ro, 16, 0, false, .full, false, 0⟩,
    ⟨P.ADC_INJ_LOST, false, 32, .rw1c, 16, 0, false, .full, false, 0⟩,
    ⟨P.ADC_OVERRUN, false, 32, .rw1c, 2, 0, false, .full, false, 0⟩,
    ⟨P.ADC_REG_SKIP, false, 32, .rw1c, 2, 0, false, .full, false, 0⟩,
    ⟨P.ADC_CAL_CH, false, 8, .rw, 2, 24, false, .among [(0, 24)], false, 0⟩,
    ⟨P.ADC_CAL_AVG, false, 8, .rw, 2, 6, false, .among [(4, 10)], false, 0⟩,
    ⟨P.ADC_CAL_ZREF, false, 16, .rw, 2, 0, false, .among [(0, 65535)], false, 0⟩,
    ⟨P.ADC_CAL_FREF, false, 16, .rw, 2, 58982, false, .among [(0, 65535)], false, 0⟩,
    ⟨P.ADC_CAL_Z, false, 16, .rw, 2, 0, true, .among [(-4096, 4096)], false, 0⟩,
    ⟨P.ADC_CAL_G, false, 16, .rw, 2, 16384, false, .among [(12288, 20480)], false, 0⟩,
    ⟨P.ADC_CAL_STATE, false, 8, .ro, 2, 0, false, .full, false, 0⟩,
    ⟨P.ADC_TDAC, false, 16, .rw, 0, 0, false, .among [(0, 4095)], false, 0⟩,
    ⟨P.ADC_LATEST, false, 32, .ro, 48, 0, false, .full, false, 0⟩,
    ⟨P.ADC_CHAN_FS, false, 32, .ro, 48, 0, true, .full, false, 0⟩,
    ⟨P.ADC_PLAUS_CH, false, 8, .rw, 4, 0, false, .mask 0x9F, false, 0⟩,
    ⟨P.ADC_PLAUS_LIMIT, false, 16, .rw, 4, 1024, false, .among [(1, 65535)], false, 0⟩,
    ⟨P.ADC_PLAUS_COUNT, false, 8, .rw, 4, 3, false, .among [(1, 255)], false, 0⟩,
    ⟨P.ADC_PLAUS_DIFF, false, 16, .ro, 4, 0, true, .full, false, 0⟩,
    ⟨P.ADC_PLAUS_SKIP, false, 32, .rw1c, 4, 0, false, .full, false, 0⟩,
    ⟨P.ADC_QUEUE_EN, false, 32, .rw, 0, 0, false, .mask 0xFFFFFF, false, 0⟩,
    ⟨P.ADC_Q_HEAD, false, 16, .rw, 0, 0, false, .among [(0, 255)], false, 0⟩,
    ⟨P.ADC_Q_TAIL, false, 16, .ro, 0, 0, false, .full, false, 0⟩,
    ⟨P.ADC_Q_DROP, false, 32, .rw1c, 0, 0, false, .full, false, 0⟩,
    ⟨P.ADC_PT_START, false, 16, .wo, 0, 0, false, .mask 0x11F, false, 0⟩,
    ⟨P.ADC_PT_LEVELS, false, 32, .rw, 0, 201327616, false, .mask 0xFFF0FFF, false, 0⟩,
    ⟨P.ADC_PT_EXPECT, false, 16, .rw, 24, 3277, false, .among [(0, 32767)], false, 0⟩,
    ⟨P.ADC_PT_TOL, false, 16, .rw, 24, 3277, false, .among [(1, 32767)], false, 0⟩,
    ⟨P.ADC_PT_RESULT, false, 32, .ro, 24, 0, false, .full, false, 0⟩ ]

/-- The parameters of block DEC (R358 of `13_measurement.md`). -/
def paramsDec : List ParamDef :=
  [ ⟨P.DEC_CFG, false, 32, .rw, 16, 6, false, .mask 0xFFFFFF3F, true, 0⟩,
    ⟨P.DEC_CTRL, false, 8, .rw, 0, 0, false, .mask 0x1, false, 0⟩,
    ⟨P.DEC_STATUS, false, 32, .ro, 16, 0, false, .full, false, 0⟩,
    ⟨P.DEC_STUCK_LIMIT, false, 16, .rw, 0, 256, false, .among [(0, 0), (16, 65535)], false, 0⟩,
    ⟨P.DEC_SYNC_COUNT, false, 32, .rw1c, 0, 0, false, .full, false, 0⟩,
    ⟨P.DEC_SAT, false, 32, .rw1c, 16, 0, false, .full, false, 0⟩,
    ⟨P.DEC_QUEUE_EN, false, 32, .rw, 0, 0, false, .mask 0xFFFF, false, 0⟩ ]

/-- The parameters of block ENC (R372 of `14_machine_feedback.md`). -/
def paramsEnc : List ParamDef :=
  [ ⟨P.ENC_CPR, false, 32, .rw, 2, 4096, false, .among [(0, 0), (4, 16777216)], false, 4⟩,
    ⟨P.ENC_INDEX_EXPECT, false, 32, .rw, 2, 0, true, .special, false, 4⟩,
    ⟨P.ENC_MODE, false, 16, .rw, 2, 0, false, .mask 0x7FF, true, 0⟩,
    ⟨P.ENC_FILTER, false, 8, .rw, 2, 2, false, .among [(1, 8)], true, 0⟩,
    ⟨P.ENC_POS, false, 32, .ro, 2, 0, true, .full, false, 0⟩,
    ⟨P.ENC_RAW, false, 32, .ro, 2, 0, true, .full, false, 0⟩,
    ⟨P.ENC_PRESET, false, 32, .wo, 2, 0, true, .full, false, 0⟩,
    ⟨P.ENC_POS_SHIFT, false, 8, .rw, 2, 0, false, .among [(0, 16)], true, 0⟩,
    ⟨P.ENC_SPEED, false, 32, .ro, 2, 0, true, .full, false, 0⟩,
    ⟨P.ENC_SPEED_WIN, false, 32, .rw, 2, 200000, false, .among [(200, 20000000)], false, 0⟩,
    ⟨P.ENC_SPEED_FS, false, 32, .rw, 2, 32768, false, .among [(1, 2147483647)], true, 0⟩,
    ⟨P.ENC_STATUS, false, 32, .ro, 2, 0, false, .full, false, 0⟩,
    ⟨P.ENC_ILLEGAL, false, 32, .rw1c, 2, 0, false, .full, false, 0⟩,
    ⟨P.ENC_ILLEGAL_MAX, false, 16, .rw, 2, 4, false, .among [(0, 65535)], false, 0⟩,
    ⟨P.ENC_INDEX_TOL, false, 16, .rw, 2, 4, false, .among [(0, 32767)], false, 0⟩,
    ⟨P.ENC_INDEX_CORR, false, 32, .ro, 2, 0, true, .full, false, 0⟩,
    ⟨P.ENC_LATCH_CFG, false, 16, .rw, 2, 0, false, .mask 0xFF, false, 0⟩,
    ⟨P.ENC_LATCH_POS, false, 32, .ro, 2, 0, true, .full, false, 0⟩,
    ⟨P.ENC_LATCH_TIME, true, 64, .rs, 2, 0, false, .full, false, 0⟩,
    ⟨P.ENC_LATCH_SRC, false, 8, .ro, 2, 0, false, .full, false, 0⟩,
    ⟨P.ENC_LIM_DEBOUNCE, false, 16, .rw, 2, 10, false, .among [(1, 500)], false, 0⟩,
    ⟨P.ENC_LIM_RELEASE, false, 32, .rw, 2, 100, false, .among [(1, 16777216)], false, 0⟩,
    ⟨P.ENC_LIM_POS_P, false, 32, .ro, 2, 0, true, .full, false, 0⟩,
    ⟨P.ENC_LIM_POS_N, false, 32, .ro, 2, 0, true, .full, false, 0⟩,
    ⟨P.ENC_HOME_CFG, false, 8, .rw, 2, 0, false, .mask 0x7, false, 0⟩,
    ⟨P.ENC_HOME_REVERSE, false, 8, .rw, 2, 0, false, .among [(0, 1)], false, 0⟩,
    ⟨P.ENC_HOME_VEL, false, 32, .rw, 2, 1000, false, .among [(1, 2147483647)], false, 0⟩,
    ⟨P.ENC_HOME_ACC, false, 32, .rw, 2, 10000, false, .among [(1, 2147483647)], false, 0⟩,
    ⟨P.ENC_HOME_JERK, false, 32, .rw, 2, 100000, false, .among [(1, 2147483647)], false, 0⟩,
    ⟨P.ENC_HOME_SPAN, false, 32, .rw, 2, 1000000, false, .among [(1, 1073741823)], false, 0⟩,
    ⟨P.ENC_HOME_POS, false, 32, .rw, 2, 0, true, .full, false, 0⟩,
    ⟨P.ENC_HOME_STATE, false, 8, .ro, 2, 0, false, .full, false, 0⟩ ]

/-- The parameters of block CHOP (R396 of `15_chopper.md`). -/
def paramsChop : List ParamDef :=
  [ ⟨P.CHOP_PERIOD, false, 32, .rw, 4, 20000, false, .among [(200, 2000000)], false, 3⟩,
    ⟨P.CHOP_DUTY, false, 32, .rw, 4, 0, false, .among [(0, 2000000)], false, 3⟩,
    ⟨P.CHOP_DEADTIME, false, 16, .rw, 4, 100, false, .among [(0, 2000)], false, 3⟩,
    ⟨P.CHOP_MODE, false, 8, .rw, 4, 0, false, .mask 0x3F, false, 0⟩,
    ⟨P.CHOP_MIN_PULSE, false, 16, .rw, 4, 0, false, .among [(0, 1000)], false, 0⟩,
    ⟨P.CHOP_TRIP_CFG, false, 16, .rw, 4, 768, false, .mask 0xFF03, false, 0⟩,
    ⟨P.CHOP_TRIP_RUN, false, 8, .ro, 4, 0, false, .full, false, 0⟩,
    ⟨P.CHOP_TRIP_TOTAL, false, 32, .rw1c, 4, 0, false, .full, false, 0⟩,
    ⟨P.CHOP_BLANK, false, 16, .rw, 4, 40, false, .among [(0, 1000)], false, 0⟩,
    ⟨P.CHOP_BLANK_SRC, false, 8, .rw, 2, 0, false, .among [(0, 1)], false, 0⟩,
    ⟨P.CHOP_SC_THRESH, false, 8, .rw, 4, 255, false, .among [(0, 255)], false, 0⟩,
    ⟨P.CHOP_SC_FILTER, false, 8, .rw, 4, 16, false, .among [(8, 80)], false, 0⟩,
    ⟨P.CHOP_GS_CFG, false, 8, .rw, 4, 0, false, .mask 0x3, false, 0⟩,
    ⟨P.CHOP_STATUS, false, 32, .ro, 4, 0, false, .full, false, 0⟩,
    ⟨P.CHOP_FORCE, false, 8, .rw, 4, 0, false, .among [(0, 2)], false, 0⟩,
    ⟨P.CHOP_VDC_SRC, false, 16, .rw, 4, 256, false, .mask 0x13F, false, 0⟩,
    ⟨P.CHOP_HYST_ON, false, 16, .rw, 4, 1638, false, .among [(0, 32767)], false, 0⟩,
    ⟨P.CHOP_HYST_BAND, false, 16, .rw, 4, 655, false, .among [(1, 32767)], false, 0⟩,
    ⟨P.CHOP_VDC_ABS_ON, false, 16, .rw, 4, 32767, true, .among [(-32768, 32767)], false, 0⟩,
    ⟨P.CHOP_TRACK_SHIFT, false, 8, .rw, 4, 10, false, .among [(0, 15)], false, 0⟩,
    ⟨P.CHOP_VDC_TRACK, false, 16, .ro, 4, 0, true, .full, false, 0⟩,
    ⟨P.CHOP_OV_LIMIT, false, 16, .rw, 4, 32767, true, .among [(-32768, 32767)], false, 0⟩,
    ⟨P.CHOP_OV_COUNT, false, 8, .rw, 4, 4, false, .among [(1, 255)], false, 0⟩,
    ⟨P.CHOP_IL_COUNT, false, 32, .rw1c, 4, 0, false, .full, false, 0⟩ ]

/-- The parameters of block SAFE (R422 of `16_belay_safety.md`). -/
def paramsSafe : List ParamDef :=
  [ ⟨P.SAFE_STATE, false, 32, .ro, 0, 22, false, .full, false, 0⟩,
    ⟨P.SAFE_LATCH, false, 32, .ro, 0, 1, false, .full, false, 0⟩,
    ⟨P.SAFE_SI_CFG, false, 16, .rw, 8, 0, false, .mask 0x3FF, true, 0⟩,
    ⟨P.SAFE_DISC, false, 8, .rw, 8, 3, false, .among [(1, 100)], true, 0⟩,
    ⟨P.SAFE_SI_STATUS, false, 32, .ro, 8, 0, false, .full, false, 0⟩,
    ⟨P.SAFE_DISC_EVENTS, false, 32, .rw1c, 8, 0, false, .full, false, 0⟩,
    ⟨P.SAFE_TP_EN, false, 8, .rw, 0, 0, false, .mask 0xF, true, 0⟩,
    ⟨P.SAFE_TP_PERIOD, false, 16, .rw, 0, 100, false, .among [(10, 10000)], true, 0⟩,
    ⟨P.SAFE_TP_WIDTH, false, 16, .rw, 0, 300, false, .among [(200, 2000)], true, 0⟩,
    ⟨P.SAFE_TP_SETTLE, false, 16, .rw, 0, 200, false, .among [(0, 2000)], true, 0⟩,
    ⟨P.SAFE_ICM_PERIODS, false, 8, .rw, 0, 1, false, .among [(1, 4)], true, 0⟩,
    ⟨P.SAFE_ICM_REACT, false, 8, .rw, 0, 2, false, .among [(1, 2)], true, 0⟩,
    ⟨P.SAFE_ICM_TOL, false, 8, .ro, 6, 4, false, .full, false, 0⟩,
    ⟨P.SAFE_HB_TIMEOUT, false, 16, .rw, 0, 50, false, .among [(3, 500)], true, 0⟩,
    ⟨P.SAFE_HB_MISS, false, 8, .rw, 0, 2, false, .among [(1, 4)], true, 0⟩,
    ⟨P.SAFE_FDC_V_TAG, false, 8, .rw, 0, 0, false, .mask 0x9F, true, 0⟩,
    ⟨P.SAFE_FDC_OV, false, 16, .rw, 0, 65535, false, .among [(0, 65535)], true, 0⟩,
    ⟨P.SAFE_FDC_OV_N, false, 8, .rw, 0, 2, false, .among [(1, 16)], true, 0⟩,
    ⟨P.SAFE_FDC_I_TAG, false, 8, .rw, 0, 0, false, .mask 0x9F, true, 0⟩,
    ⟨P.SAFE_FDC_OC_HI, false, 16, .rw, 0, 65535, false, .among [(0, 65535)], true, 0⟩,
    ⟨P.SAFE_FDC_OC_LO, false, 16, .rw, 0, 0, false, .among [(0, 65535)], true, 0⟩,
    ⟨P.SAFE_FDC_OC_N, false, 8, .rw, 0, 2, false, .among [(1, 16)], true, 0⟩,
    ⟨P.SAFE_FDC_HYST, false, 16, .rw, 0, 256, false, .among [(0, 8192)], true, 0⟩,
    ⟨P.SAFE_FDC_STALE, false, 16, .rw, 0, 50, false, .among [(0, 0), (5, 10000)], true, 0⟩,
    ⟨P.SAFE_FDC_LAST, false, 32, .ro, 0, 0, false, .full, false, 0⟩,
    ⟨P.SAFE_RESET_SHORT, false, 32, .rw1c, 0, 0, false, .full, false, 0⟩,
    ⟨P.SAFE_RESET_COUNT, false, 32, .rw1c, 0, 0, false, .full, false, 0⟩,
    ⟨P.SAFE_RESET_REFUSED, false, 32, .rw1c, 0, 0, false, .full, false, 0⟩,
    ⟨P.SAFE_SESSION, false, 16, .ro, 0, 0, false, .full, false, 0⟩,
    ⟨P.SAFE_PASSWORD_LO, false, 32, .wo, 0, 0, false, .special, true, 0⟩,
    ⟨P.SAFE_PASSWORD_HI, false, 32, .wo, 0, 0, false, .special, true, 0⟩,
    ⟨P.SAFE_LOG_STATUS, false, 32, .ro, 0, 0, false, .full, false, 0⟩,
    ⟨P.SAFE_UNLOCK_FAIL, false, 32, .ro, 0, 0, false, .full, false, 0⟩ ]

/-- The parameters of block FLT (R444 of `17_faults.md`). -/
def paramsFlt : List ParamDef :=
  [ ⟨P.FLT_ERR_PULSE, false, 8, .rw, 0, 10, false, .among [(1, 100)], false, 0⟩,
    ⟨P.FLT_ERR_HOLD, false, 8, .rw, 0, 0, false, .among [(0, 1)], false, 0⟩,
    ⟨P.FLT_CTRL, false, 8, .rw, 0, 0, false, .mask 0x1, false, 0⟩,
    ⟨P.FLT_CFG, false, 32, .rw, 65536, 0, false, .special, true, 0⟩,
    ⟨P.FLT_ACTIVE_COUNT, false, 16, .ro, 0, 0, false, .full, false, 0⟩,
    ⟨P.FLT_REC_POS, false, 32, .ro, 0, 0, false, .full, false, 0⟩,
    ⟨P.FLT_LOST, false, 32, .rw1c, 0, 0, false, .full, false, 0⟩,
    ⟨P.FLT_STATUS, false, 32, .ro, 0, 0, false, .full, false, 0⟩,
    ⟨P.FLT_ARM_BLOCKED, false, 32, .ro, 0, 0, false, .full, false, 0⟩,
    ⟨P.FLT_GRACE_NEXT, false, 16, .ro, 0, 0, false, .full, false, 0⟩ ]

/-- The parameters of block DUP (R462 of `18_duplex.md`). -/
def paramsDup : List ParamDef :=
  [ ⟨P.DUP_CFG, false, 8, .rw, 0, 0, false, .mask 0x7, true, 0⟩,
    ⟨P.DUP_ROLE, false, 8, .ro, 0, 0, false, .full, false, 0⟩,
    ⟨P.DUP_ARM_COUNT, false, 16, .rw, 0, 1000, false, .among [(16, 65535)], false, 0⟩,
    ⟨P.DUP_TKO_WINDOW, false, 8, .rw, 0, 8, false, .among [(4, 64)], false, 0⟩,
    ⟨P.DUP_RESUME_MAX, false, 8, .rw, 0, 16, false, .among [(4, 64)], false, 0⟩,
    ⟨P.DUP_STATUS, false, 32, .ro, 0, 0, false, .full, false, 0⟩,
    ⟨P.DUP_MARK_SKEW, false, 16, .ro, 0, 0, true, .full, false, 0⟩,
    ⟨P.DUP_HB_MISS_TOTAL, false, 32, .rw1c, 0, 0, false, .full, false, 0⟩,
    ⟨P.DUP_TKO_COUNT, false, 32, .rw1c, 0, 0, false, .full, false, 0⟩,
    ⟨P.DUP_TKO_PERIOD, false, 32, .ro, 0, 0, false, .full, false, 0⟩ ]

/-- The parameters of block REEL (R479 of `19_reel.md`). -/
def paramsReel : List ParamDef :=
  [ ⟨P.REEL_STATUS, false, 32, .ro, 0, 0, false, .full, false, 0⟩,
    ⟨P.REEL_TRIG_TICK, false, 32, .ro, 0, 0, false, .full, false, 0⟩,
    ⟨P.REEL_WORDS, false, 32, .ro, 0, 0, false, .full, false, 0⟩,
    ⟨P.REEL_LOST, false, 32, .rw1c, 0, 0, false, .full, false, 0⟩,
    ⟨P.REEL_MASK_VIOL, false, 32, .ro, 4, 0, false, .full, false, 0⟩,
    ⟨P.REEL_QUEUE_HIGH, false, 8, .rw1c, 0, 0, false, .full, false, 0⟩ ]

/-- The parameters of block TBUS (R480 of `19_reel.md`). -/
def paramsTbus : List ParamDef :=
  [ ⟨P.TBUS_CFG, false, 8, .rw, 4, 0, false, .mask 0x1, false, 0⟩,
    ⟨P.TBUS_DELAY, false, 16, .rw, 0, 0, false, .among [(0, 1023)], false, 0⟩,
    ⟨P.TBUS_PULSE, false, 16, .rw, 0, 200, false, .among [(20, 65535)], false, 0⟩,
    ⟨P.TBUS_FORCE, false, 8, .wo, 0, 0, false, .mask 0xF, false, 0⟩,
    ⟨P.TBUS_LEVEL, false, 8, .ro, 0, 0, false, .full, false, 0⟩,
    ⟨P.TBUS_LOOP_TICKS, false, 16, .ro, 4, 0, false, .full, false, 0⟩,
    ⟨P.TBUS_LAST_FALL, true, 64, .rs, 4, 0, false, .full, false, 0⟩ ]

/-- Every parameter of the index (R495). -/
def paramTable : List ParamDef :=
  paramsDev ++ paramsHost ++ paramsPwr ++ paramsPer ++ paramsBal ++ paramsCap ++ paramsBud ++ paramsClt ++ paramsArm ++ paramsLoop ++ paramsTraj ++ paramsStr ++ paramsLane ++ paramsFrm ++ paramsDisc ++ paramsTally ++ paramsTime ++ paramsAdc ++ paramsDec ++ paramsEnc ++ paramsChop ++ paramsSafe ++ paramsFlt ++ paramsDup ++ paramsReel ++ paramsTbus

/-- The parameters of a block by its ID (R12). -/
def blockParams : Nat → List ParamDef
  | 0x00 => paramsDev
  | 0x01 => paramsHost
  | 0x02 => paramsPwr
  | 0x08 => paramsPer
  | 0x10 => paramsBal
  | 0x11 => paramsCap
  | 0x12 => paramsBud
  | 0x13 => paramsClt
  | 0x14 => paramsArm
  | 0x18 => paramsLoop
  | 0x19 => paramsTraj
  | 0x1C => paramsStr
  | 0x20 => paramsLane
  | 0x21 => paramsFrm
  | 0x24 => paramsDisc
  | 0x25 => paramsTally
  | 0x28 => paramsTime
  | 0x30 => paramsAdc
  | 0x31 => paramsDec
  | 0x34 => paramsEnc
  | 0x38 => paramsChop
  | 0x40 => paramsSafe
  | 0x44 => paramsFlt
  | 0x48 => paramsDup
  | 0x4C => paramsReel
  | 0x4D => paramsTbus
  | _ => []

/-- The row of an ID; `none` for an undefined ID (R495). -/
def paramDef? (id : Nat) : Option ParamDef := (blockParams (id / 256)).find? (fun d => d.id == id)

/-- The row of the 64-bit parameter whose high word is this ID (R15). -/
def paramHigh? (id : Nat) : Option ParamDef :=
  if id = 0 then none else (blockParams (id / 256)).find? (fun d => d.wide && d.id + 1 == id)

/-- The flag words of R518 with their defined bits. -/
def flagWords : List (Nat × Nat) :=
  [(P.HOST_IRQ_CAUSE, 0x1F), (P.PER_CHANGE, 0xF), (P.BUD_STATUS, 0x7), (P.TIME_EVENT, 0xF), (P.PWR_EVENT, 0x7)]

/-- The reset word of a parameter (R16); 0 for an undefined ID. -/
def paramReset (id : Nat) : Word :=
  match paramDef? id with
  | some d => BitVec.ofInt 32 d.reset
  | none => 0

end Sys2Proof.Machine
end

