-- ==== Sys2Proof/Machine/Tables.lean ====
section
/-! DEFINITION. Sparse tables in canonical form, and the small list and number operations the meanings share:
sorting, clamping, rounding, CRC-32C (R8). -/

namespace Sys2Proof.Machine

/-- The value of a table at an index; `d` is the table's default, which unlisted indices read as. -/
def tabGet {α : Type} (d : α) : Tab α → Nat → α
  | [], _ => d
  | (k, v) :: t, i => if k = i then v else tabGet d t i

/-- Remove an index from a table. -/
def tabDel {α : Type} : Tab α → Nat → Tab α
  | [], _ => []
  | (k, v) :: t, i => if k = i then tabDel t i else (k, v) :: tabDel t i

/-- List an index with a value, keeping the indices rising. -/
def tabIns {α : Type} : Tab α → Nat → α → Tab α
  | [], i, x => [(i, x)]
  | (k, v) :: t, i, x =>
    if k = i then (i, x) :: t else if i < k then (i, x) :: (k, v) :: t else (k, v) :: tabIns t i x

/-- Write a value; writing the default removes the entry, so that equal tables are equal data. -/
def tabSet {α : Type} [DecidableEq α] (d : α) (t : Tab α) (i : Nat) (x : α) : Tab α :=
  if x = d then tabDel t i else tabIns t i x

/-- The canonical form: indices strictly rising from a bound, no entry equal to the default. -/
def tabWfFrom {α : Type} [DecidableEq α] (d : α) : Nat → Tab α → Bool
  | _, [] => true
  | b, (k, v) :: t => decide (b ≤ k) && decide (v ≠ d) && tabWfFrom d (k + 1) t

/-- The canonical form of a table. -/
def tabWf {α : Type} [DecidableEq α] (d : α) (t : Tab α) : Bool := tabWfFrom d 0 t

/-- Replace the value at an index by a function of it. -/
def tabUpd {α : Type} [DecidableEq α] (d : α) (t : Tab α) (i : Nat) (f : α → α) : Tab α :=
  tabSet d t i (f (tabGet d t i))

/-- Write a run of values from an index on. -/
def tabRun {α : Type} [DecidableEq α] (d : α) : Tab α → Nat → List α → Tab α
  | t, _, [] => t
  | t, i, x :: xs => tabRun d (tabSet d t i x) (i + 1) xs

/-- Read `n` values from an index on. -/
def tabSlice {α : Type} (d : α) (t : Tab α) (i n : Nat) : List α :=
  (List.range n).map (fun j => tabGet d t (i + j))

/-- Change every listed value of a table, an entry that becomes the default being removed. -/
def tabMap {α : Type} [DecidableEq α] (d : α) (f : Nat → α → α) : Tab α → Tab α
  | [] => []
  | (k, v) :: t => let x := f k v
                   if x = d then tabMap d f t else (k, x) :: tabMap d f t

/-- Keep the entries a test accepts. -/
def tabFilter {α : Type} (p : Nat → α → Bool) : Tab α → Tab α
  | [] => []
  | (k, v) :: t => if p k v then (k, v) :: tabFilter p t else tabFilter p t

/-- Insert into a list sorted by `le`, after the elements that precede or equal it. -/
def insertBy {α : Type} (le : α → α → Bool) (x : α) : List α → List α
  | [] => [x]
  | y :: ys => if le y x then y :: insertBy le x ys else x :: y :: ys

/-- Stable insertion sort. -/
def sortBy {α : Type} (le : α → α → Bool) : List α → List α
  | [] => []
  | x :: xs => insertByFirst le x (sortBy le xs)
where
  /-- Insert before the elements that equal it, which keeps the sort stable. -/
  insertByFirst (le : α → α → Bool) (x : α) : List α → List α
    | [] => [x]
    | y :: ys => if le x y then x :: y :: ys else y :: insertByFirst le x ys

/-- Sum of a list of naturals. -/
def sumNat (l : List Nat) : Nat := l.foldl (· + ·) 0

/-- Sum of a list of integers. -/
def sumInt (l : List Int) : Int := l.foldl (· + ·) 0

/-- Sum of a list of rationals. -/
def sumRat (l : List Rat) : Rat := l.foldl (· + ·) 0

/-- The least element of a list, or a default for the empty list. -/
def minNat (d : Nat) : List Nat → Nat
  | [] => d
  | x :: xs => xs.foldl min x

/-- The greatest element of a list, 0 for the empty list. -/
def maxNat (l : List Nat) : Nat := l.foldl max 0

/-- Limit an integer to an interval. -/
def clampInt (x lo hi : Int) : Int := if x < lo then lo else if hi < x then hi else x

/-- Saturate to signed 16 bits. -/
def sat16 (x : Int) : Int := clampInt x (-32768) 32767

/-- Saturate to signed 32 bits. -/
def sat32 (x : Int) : Int := clampInt x (-2147483648) 2147483647

/-- Nearest integer, halves away from zero. -/
def roundHalfAway (x : Rat) : Int := if x < 0 then -((-x + 1 / 2).floor) else (x + 1 / 2).floor

/-- Arithmetic shift right: floor division by a power of two. -/
def asr (x : Int) (n : Nat) : Int := x.fdiv (2 ^ n)

/-- Rounded shift right: add half of the last place, then shift. -/
def rshr (x : Int) (n : Nat) : Int := if n = 0 then x else (x + 2 ^ (n - 1)).fdiv (2 ^ n)

/-- Ceiling of a natural quotient. -/
def ceilDiv (a b : Nat) : Nat := if b = 0 then 0 else (a + b - 1) / b

/-- Integer read as two's complement of `n` bits. -/
def signedOf (n : Nat) (w : Nat) : Int :=
  let m := w % 2 ^ n
  if m < 2 ^ (n - 1) then (m : Int) else (m : Int) - 2 ^ n

/-- Two's complement bits of an integer. -/
def bitsOf (n : Nat) (x : Int) : Nat := (x.emod (2 ^ n)).toNat

/-- One shift of the reflected CRC-32C register (R8). -/
def crcShift (c : Nat) : Nat := if c % 2 = 1 then (c >>> 1) ^^^ 0x82F63B78 else c >>> 1

/-- One byte into the CRC register. -/
def crcByte (c b : Nat) : Nat :=
  crcShift (crcShift (crcShift (crcShift (crcShift (crcShift (crcShift (crcShift (c ^^^ b))))))))

/-- CRC-32C of a list of bytes (R8). -/
def crcBytes (l : List Nat) : Nat := (l.foldl crcByte 0xFFFFFFFF) ^^^ 0xFFFFFFFF

/-- The four bytes of a word, least significant first (R7). -/
def wordBytes (w : Word) : List Nat :=
  [w.toNat % 256, w.toNat / 256 % 256, w.toNat / 65536 % 256, w.toNat / 16777216 % 256]

/-- CRC-32C over the bytes of a list of words (R7, R8). -/
def crcWords (l : List Word) : Word := BitVec.ofNat 32 (crcBytes (l.flatMap wordBytes))

/-- Words of a list of bytes, little-endian (R7). -/
def bytesWords : List Nat → List Word
  | a :: b :: c :: d :: l => BitVec.ofNat 32 (a + 256 * b + 65536 * c + 16777216 * d) :: bytesWords l
  | _ => []

end Sys2Proof.Machine
end

