-- ==== Sys2Proof/Machine/CapstanCore.lean ====
section
/-! DEFINITION. The capstan's computation of one arm for one period, as the pseudocode of R142 gives it: level path,
crossings, placement under the edge cap, swap execution and cell selection. A function of its inputs alone (R121). -/

namespace Sys2Proof.Machine

/-- A cell's state as commanded (R144). -/
inductive CellSt where
  | block | bypass | insertP | insertN
  deriving DecidableEq, Repr

/-- The overrides of a cleat entry (R134). -/
inductive Override where
  | forceBypass | forceBlock | holdState
  deriving DecidableEq, Repr

/-- Sign of a cell's contribution to the arm level (R134). -/
def CellSt.pol : CellSt → Int
  | .insertP => 1
  | .insertN => -1
  | _ => 0

/-- The state code of a command word (R144). -/
def CellSt.code : CellSt → Nat
  | .block => 0x0
  | .bypass => 0x3
  | .insertP => 0x5
  | .insertN => 0x6

/-- A level crossing of the path (R125). -/
structure Crossing where
  from_   : Int
  to_     : Int
  nominal : Nat
  deriving DecidableEq, Repr

/-- One rank position as the capstan sees it: cell, FB flag, state at the start of the period, held by the cleat. -/
structure CapCell where
  cell : Nat
  fb   : Bool
  st   : CellSt
  held : Bool
  deriving DecidableEq, Repr

/-- A cell's edge in a period: new state and offset. -/
structure CapEdge where
  cell : Nat
  st   : CellSt
  tick : Nat
  deriving DecidableEq, Repr

/-- The inputs of R121 for one arm and one period. `table` is in rank order; `forced` lists the cells of held
FORCE_BYPASS and FORCE_BLOCK entries with their override and state at the start; `edged` lists cells whose release
change is their edge (R136); `swaps` is the list of position pairs to execute, empty where R138 allows none. -/
structure CapIn where
  per      : Nat
  x0       : Int
  dx       : Int
  lmin     : Int
  lmax     : Int
  lprev    : Int
  edgeMax  : Nat
  s        : Int
  table    : List CapCell
  forced   : List (Nat × Override × CellSt)
  edged    : List Nat
  swaps    : List (Nat × Nat)
  regionOk : Bool
  deriving DecidableEq, Repr

/-- What the computation of one arm yields. -/
structure CapOut where
  edges    : List CapEdge
  lend     : Int
  target   : Int
  clamped  : Bool
  defer    : Nat
  deferMax : Nat
  short    : Nat
  executed : Nat
  skipped  : Nat
  noslot   : Nat
  plan     : List (Nat × Int)
  deriving DecidableEq, Repr

/-- The unclamped path value at offset `t` (R123). -/
def rawLevel (c : CapIn) (t : Nat) : Int :=
  (c.x0 * (c.per : Int) + c.dx * (t : Int)).fdiv (1048576 * (c.per : Int))

/-- The level path λ(t) (R123). -/
def levelAt (c : CapIn) (t : Nat) : Int := clampInt (rawLevel c t) c.lmin c.lmax

/-- The unit crossings from one level to another at a nominal tick, in order (R125). -/
def crossingsBetween (a b : Int) (t : Nat) : List Crossing :=
  (List.range (b - a).natAbs).map (fun (i : Nat) =>
    if a ≤ b then ⟨a + (i : Int), a + (i : Int) + 1, t⟩ else ⟨a - (i : Int), a - (i : Int) - 1, t⟩)

/-- Every crossing of a period in path order (R125). -/
def crossingsOf (c : CapIn) (lstart : Int) : List Crossing :=
  (List.range c.per).flatMap (fun t =>
    crossingsBetween (if t = 0 then lstart else levelAt c (t - 1)) (levelAt c t) t)

/-- The first tick from `t` with a free unit, or `per` (R128). -/
def freeTick (per edgeMax : Nat) (used : Tab Nat) : Nat → Nat → Nat
  | 0, _ => per
  | n + 1, t =>
    if per ≤ t then per
    else if tabGet 0 used t < edgeMax then t else freeTick per edgeMax used n (t + 1)

/-- Placement of the crossings in path order; the rest is dropped at the first that finds no unit (R128, R129). -/
def placeCrossings (per edgeMax : Nat) :
    List Crossing → Nat → Tab Nat → List (Crossing × Nat) × Tab Nat
  | [], _, used => ([], used)
  | x :: xs, t, used =>
    let t1 := freeTick per edgeMax used (per + 1) (max t x.nominal)
    if per ≤ t1 then ([], used)
    else
      let r := placeCrossings per edgeMax xs t1 (tabUpd 0 used t1 (· + 1))
      ((x, t1) :: r.1, r.2)

/-- A cell of the rank table by position. -/
def capAt (c : CapIn) (pos : Nat) : Option CapCell := c.table[pos]?

/-- Whether a cell is bypassed at the start of the period (R130). -/
def CapCell.isBypassed (x : CapCell) : Bool := x.st == .bypass

/-- Execution of the swap pairs in list order (R138, R139). -/
def runSwaps (c : CapIn) (neg : Bool) :
    List (Nat × Nat) → Nat → Tab Nat → List CapEdge → Nat × Nat × Nat →
    List CapEdge × Tab Nat × Nat × Nat × Nat
  | [], _, used, ed, (e, k, n) => (ed, used, e, k, n)
  | (ip, op) :: rest, t, used, ed, (e, k, n) =>
    match capAt c ip, capAt c op with
    | some ci, some co =>
      let busy := fun (x : CapCell) => x.held || c.edged.contains x.cell || ed.any (fun y => y.cell == x.cell)
      if !c.regionOk || !ci.isBypassed || co.st.pol == 0 || busy ci || busy co then
        runSwaps c neg rest t used ed (e, k + 1, n)
      else
        let t1 := freeTick c.per c.edgeMax used (c.per + 1) t
        if c.per ≤ t1 then runSwaps c neg rest t1 used ed (e, k, n + 1)
        else
          let ed' := ed ++ [⟨ci.cell, if neg then .insertN else .insertP, t1⟩, ⟨co.cell, .bypass, t1⟩]
          runSwaps c neg rest t1 (tabUpd 0 used t1 (· + 1)) ed' (e + 1, k, n)
    | _, _ => runSwaps c neg rest t used ed (e, k + 1, n)

/-- The cell a placed crossing selects, with its new state (R130): by priority encoding from the end R100 gives. -/
def selectCell (c : CapIn) (ed : List CapEdge) (x : Crossing) : Option (Nat × CellSt) :=
  let grow := x.from_.natAbs < x.to_.natAbs
  let neg := decide (x.to_ < 0) || decide (x.from_ < 0)
  let sg := if neg then -c.s else c.s
  let free := fun (y : CapCell) => !y.held && !c.edged.contains y.cell && !ed.any (fun e => e.cell == y.cell)
  let ok := fun (y : CapCell) =>
    free y && (if grow then y.isBypassed && (!neg || y.fb)
               else y.st == (if neg then CellSt.insertN else CellSt.insertP))
  let fromLow := if grow then decide (0 < sg) else !decide (0 < sg)
  let l := if fromLow then c.table else c.table.reverse
  match l.find? ok with
  | some y => some (y.cell, if grow then (if neg then .insertN else .insertP) else .bypass)
  | none => none

/-- The crossings select their cells in placed order; selection ends at the first that finds none (R131, R132). -/
def selectAll (c : CapIn) : List (Crossing × Nat) → List CapEdge → Int → List CapEdge × Int × Nat
  | [], ed, l => (ed, l, 0)
  | (x, t) :: rest, ed, l =>
    match selectCell c ed x with
    | some (cell, st) => selectAll c rest (ed ++ [⟨cell, st, t⟩]) x.to_
    | none => (ed, l, rest.length + 1)

/-- One deblocked arm, one period (R142). -/
def capstanArm (c : CapIn) : CapOut :=
  let neg := decide (c.lprev < 0)
  let displaced := c.forced.filter (fun f => f.2.1 != .holdState && f.2.2.pol != 0)
  let lstart := displaced.foldl (fun l f => l - f.2.2.pol) c.lprev
  let forcedEdges := displaced.map (fun f =>
    (⟨f.1, if f.2.1 = .forceBlock then .block else .bypass, 0⟩ : CapEdge))
  let xs := crossingsOf c lstart
  let pl := placeCrossings c.per c.edgeMax xs 0 []
  let defers := pl.1.filter (fun p => p.1.nominal < p.2)
  let sw := runSwaps c neg c.swaps 0 pl.2 forcedEdges (0, 0, 0)
  let sel := selectAll c pl.1 sw.1 lstart
  { edges := sel.1
    lend := sel.2.1
    target := levelAt c (c.per - 1)
    clamped := (List.range c.per).any (fun t => rawLevel c t != levelAt c t)
    defer := defers.length
    deferMax := maxNat (defers.map (fun p => p.2 - p.1.nominal))
    short := (xs.length - pl.1.length) + sel.2.2
    executed := sw.2.2.1
    skipped := sw.2.2.2.1
    noslot := sw.2.2.2.2
    plan := (0, lstart) :: pl.1.map (fun p => (p.2, p.1.to_)) }

/-- A command word (R143). -/
def cmdWord (code offset : Nat) : Word := BitVec.ofNat 32 (code * 4096 + offset % 4096)

end Sys2Proof.Machine
end

