-- ==== Sys2Proof/Machine/PlanCore.lean ====
section
/-! DEFINITION. The computations of a planning pass, as functions of their inputs: forecast (R104), key (R105), rank
order (R107, R108), swap lists (R110, R111), level scale (R114), the buffer's words (R118) and the commutation
arbiter (R157). -/

namespace Sys2Proof.Machine

/-- One entry of a rank table: global index, FB flag, key (R105, R109). -/
structure RankEntry where
  cell : Nat
  fb   : Bool
  key  : Nat
  deriving DecidableEq, Repr

/-- A publication buffer's contents (R118); `plus` and `minus` are position pairs (entering, leaving), `crc` its last
word, written by the pass and checked at the latch (R115, R116). -/
structure Buf where
  arm    : Nat
  region : Bool
  epoch  : Nat
  scale  : Nat
  spread : Nat
  grant  : Nat
  nRef   : Nat
  snap   : Nat
  table  : List RankEntry
  plus   : List (Nat × Nat)
  minus  : List (Nat × Nat)
  crc    : Word
  deriving DecidableEq, Repr

/-- Number of FB entries (R109). -/
def Buf.nFb (b : Buf) : Nat := (b.table.filter (fun e => e.fb)).length

/-- The kind of an arm's table (R109): 0 EMPTY, 1 HALF, 2 FULL, 3 MIXED. -/
def Buf.kind (b : Buf) : Nat :=
  if b.table.isEmpty then 0 else if b.nFb = 0 then 1 else if b.nFb = b.table.length then 2 else 3

/-- The clamp limits of R124: the lower and the upper level. -/
def Buf.limits (b : Buf) : Int × Int :=
  let n : Int := b.table.length
  match b.kind with
  | 2 => (-n, n)
  | 3 => (-(b.nFb : Int), n)
  | _ => (0, n)

/-- The words of a buffer before its CRC (R118). -/
def Buf.body (b : Buf) : List Word :=
  let pair := fun (p : Nat × Nat) => BitVec.ofNat 32 (p.1 % 1024 + 65536 * (p.2 % 1024))
  [ BitVec.ofNat 32 (b.arm % 256 + 256 * b2n b.region + 65536 * b.table.length),
    BitVec.ofNat 32 b.epoch, BitVec.ofNat 32 b.scale,
    BitVec.ofNat 32 (b.spread % 65536 + 65536 * b.grant),
    BitVec.ofNat 32 (b.plus.length % 4096 + 65536 * (b.minus.length % 4096)),
    BitVec.ofNat 32 (b.nFb % 65536 + 65536 * b.nRef),
    BitVec.ofNat 32 b.snap ]
  ++ b.table.map (fun e => BitVec.ofNat 32 (e.cell % 4096 + 4096 * b2n e.fb + 65536 * e.key))
  ++ b.plus.map pair ++ b.minus.map pair

/-- All words of a buffer, the stored CRC last (R115, R118). -/
def Buf.words (b : Buf) : List Word := b.body ++ [b.crc]

/-- The buffer with the CRC-32C over its contents appended (R115). -/
def Buf.sealed (b : Buf) : Buf := { b with crc := crcWords b.body }

/-- The position of a cell in a rank table. -/
def rankPos (t : List RankEntry) (cell : Nat) : Option Nat :=
  (t.zipIdx).findSome? (fun p => if p.1.cell = cell then some p.2 else none)

/-- Mean of a list of rationals, with a default for the empty list (R104). -/
def meanOr (d : Rat) (l : List Rat) : Rat := if l.isEmpty then d else sumRat l / (l.length : Rat)

/-- The forecast of R104 from the two means and the factor of R104 or R521. -/
def forecast (m1 m0 factor : Rat) : Rat := m1 + (m1 - m0) * factor

/-- The key of a voltage (R105): nearest, halves away from zero, saturated to 16 bits. -/
def keyOf (v vRated : Rat) : Nat := (clampInt (roundHalfAway (v * 32768 / vRated)) 0 65535).toNat

/-- Rank order (R108): ascending key, then ascending global index. -/
def rankLe (a b : RankEntry) : Bool := a.key < b.key || (a.key == b.key && a.cell ≤ b.cell)

/-- The FROZEN order of R106: kept cells in their previous order, then the new ones in rank order. -/
def frozenOrder (prev : List Nat) (l : List RankEntry) : List RankEntry :=
  prev.filterMap (fun c => l.find? (fun e => e.cell == c))
    ++ sortBy rankLe (l.filter (fun e => !prev.contains e.cell))

/-- The pairs of one list before the cut to the grant (R111). `top` selects the end of the ideal set: false for
list+ (lowest positions), true for list−. `inRef` tells the inserted cells, `byp` the bypassed ones, `held` those with a
cleat entry. -/
def swapPairs (t : List RankEntry) (inRef byp held : Nat → Bool) (n deadband : Nat) (neg top : Bool) :
    List (Nat × Nat) :=
  let pos := t.zipIdx
  let cand := pos.filter (fun p => !neg || p.1.fb)
  let ideal := ((if top then cand.reverse else cand).take n).map (fun p => p.1.cell)
  let isIdeal := fun (c : Nat) => ideal.contains c
  let up := fun (a b : RankEntry × Nat) => a.1.key < b.1.key || (a.1.key == b.1.key && a.2 ≤ b.2)
  let down := fun (a b : RankEntry × Nat) => b.1.key < a.1.key || (a.1.key == b.1.key && b.2 ≤ a.2)
  let leaving := sortBy (if top then up else down)
    (pos.filter (fun p => inRef p.1.cell && !isIdeal p.1.cell && !held p.1.cell))
  let entering := sortBy (if top then down else up)
    (pos.filter (fun p => byp p.1.cell && isIdeal p.1.cell && !held p.1.cell))
  let gain := fun (p : (RankEntry × Nat) × (RankEntry × Nat)) =>
    if top then (p.1.1.key : Int) - p.2.1.key else (p.2.1.key : Int) - p.1.1.key
  ((entering.zip leaving).takeWhile (fun p => decide ((deadband : Int) ≤ gain p))).map
    (fun p => (p.1.2, p.2.2))

/-- The level scale of R114 in Q16.16, from the base voltage and the predicted voltages of the table's cells. -/
def levelScale (vbase : Nat) (vs : List Rat) : Nat :=
  if vs.isEmpty then 0
  else
    let m := meanOr 0 vs
    if m ≤ 0 then 0xFFFFFFFF
    else (min (roundHalfAway ((vbase : Rat) * 65536 / m)) 0xFFFFFFFF).toNat

/-- The spread of a table (R112). -/
def spreadOf (l : List RankEntry) : Nat :=
  maxNat (l.map (fun e => e.key)) - minNat 0 (l.map (fun e => e.key))

/-- One arm in the arbiter's allocation (R157). -/
structure ArbArm where
  part : Bool
  w    : Nat
  floor_ : Nat
  ceil_  : Nat
  g    : Nat
  open_ : Bool
  deriving DecidableEq, Repr

/-- What the arbiter yields: grants, ungranted units, FLOOR_SHORT and CEIL_BOUND. -/
structure ArbOut where
  grants     : List Nat
  ungranted  : Nat
  floorShort : Bool
  ceilBound  : Bool
  deriving DecidableEq, Repr

/-- The floors, served in arm order from what is left (R157). -/
def arbFloors : List ArbArm → Nat → List ArbArm
  | [], _ => []
  | a :: l, r => { a with g := min a.g r } :: arbFloors l (r - min a.g r)

/-- The last units, one each by descending weight, then ascending arm (R157). -/
def arbRest (order : List Nat) (r : Nat) (l : List ArbArm) : List ArbArm × Nat :=
  let lucky := order.take r
  (l.zipIdx.map (fun p => if lucky.contains p.2 then { p.1 with g := p.1.g + 1 } else p.1), r - lucky.length)

/-- The rounds of R157: cap the arms that would reach their ceiling and share again, else share and end. -/
def arbRounds : Nat → List ArbArm → Nat → List ArbArm × Nat
  | 0, l, r => (l, r)
  | n + 1, l, r =>
    let wsum := sumNat (l.map (fun a => if a.open_ then a.w else 0))
    if r = 0 || wsum = 0 then (l, r)
    else
      let caps := fun (a : ArbArm) => a.open_ && a.ceil_ ≤ a.g + r * a.w / wsum
      if l.any caps then
        arbRounds n (l.map (fun a => if caps a then { a with g := a.ceil_, open_ := false } else a))
          (r - sumNat (l.map (fun a => if caps a then a.ceil_ - a.g else 0)))
      else
        let share := fun (a : ArbArm) => if a.open_ then r * a.w / wsum else 0
        let r1 := r - sumNat (l.map share)
        let l1 := l.map (fun a => { a with g := a.g + share a })
        let idx := (l1.zipIdx.filter (fun p => p.1.open_))
        let order := (sortBy (fun (a b : ArbArm × Nat) => b.1.w < a.1.w || (a.1.w == b.1.w && a.2 ≤ b.2)) idx).map
          (fun p => p.2)
        arbRest order r1 l1

/-- The commutation arbiter (R157): `arms` gives part, weight, floor and ceiling of A0 to A5. -/
def arbitrate (total : Nat) (arms : List (Bool × Nat × Nat × Nat)) : ArbOut :=
  let l0 := arms.map (fun a =>
    let g := if a.1 then min a.2.2.1 a.2.2.2 else 0
    (⟨a.1, a.2.1, a.2.2.1, a.2.2.2, g, a.1 && decide (g < a.2.2.2) && decide (0 < a.2.1)⟩ : ArbArm))
  let sg := sumNat (l0.map (fun a => a.g))
  if total < sg then
    { grants := (arbFloors l0 total).map (fun a => a.g), ungranted := 0, floorShort := true, ceilBound := false }
  else
    let r := arbRounds 8 l0 (total - sg)
    { grants := r.1.map (fun a => a.g)
      ungranted := r.2
      floorShort := false
      ceilBound := decide (0 < r.2) && r.1.any (fun a => a.part && a.g == a.ceil_) }

end Sys2Proof.Machine
end

