-- ==== Sys2Proof/Machine/State.lean ====
section
/-! DEFINITION. The state of the controller as plain data: every register (in `params` or in the block that derives
it), FIFO, buffer, counter, mode and pin the spec gives it, and the queue of waiting commands. -/

namespace Sys2Proof.Machine

/-! ### Host interface -/

/-- What a port holds (R45): the sequence of its last executed packet, none before the first, and the stored
immediate reply that a repeated packet gets. -/
structure PortSt where
  seq   : Option Word
  reply : List Word
  deriving DecidableEq, Repr

/-- A requester's shadow of 64-bit reads (R15): the high word, and the pair read just before. -/
structure Shadow where
  high : Word
  last : Option (Nat × Nat)
  deriving DecidableEq, Repr

/-- The host block: BAR2 windows and pointers (R33), SPI buffer and replies (R38 to R40), sequences, the shadows of the
ports and of the strands (R15), MSI: `msiVecs` the vectors granted, `msixOn` whether MSI-X is enabled in configuration
space, `pba` the pending bits of the MSI-X structures (R27). -/
structure HostSt where
  cmdWin   : Tab Word
  rplWin   : Tab Word
  cmdTail  : BitVec 11
  cmdHead  : BitVec 11
  rplTail  : BitVec 11
  rplHead  : BitVec 11
  msix     : Tab Word
  held     : List (List Word)
  spiBuf   : List Word
  spiOut   : List (List Word)
  pcie     : PortSt
  spi      : PortSt
  shPcie   : Shadow
  shSpi    : Shadow
  shStrand : Tab Shadow
  msiVecs  : Nat
  msixOn   : Bool
  pba      : Nat
  msiSent  : Tab Nat
  linkUp   : Bool
  lastGood : Nat
  busOut   : List Word
  deriving DecidableEq, Repr

/-- A long command that runs (R51): its header for the completion reply, the tick it started, the entities it claims
and its own data. -/
structure LongOp where
  op    : Nat
  port  : Port
  irq   : Bool
  tag   : BitVec 16
  seq   : Word
  start : Nat
  key   : Nat
  args  : List Nat
  deriving DecidableEq, Repr

/-! ### Power -/

/-- Power states (R483), coded as `PWR_STATE`. -/
inductive Power where
  | dormant | listen | ready | run
  deriving DecidableEq, Repr

/-- The code of a power state (R494). -/
def Power.code : Power → Nat
  | .dormant => 0
  | .listen => 1
  | .ready => 2
  | .run => 3

/-- What the power sequencer waits for (R483 to R492): LISTEN 2 ms after a release, the core PLL, BIST, lane PLLs, the
dispatch test, the mark that leaves RUN, DORMANT 10 ms after its reply, the PLL's relock. -/
inductive PwrWait where
  | none | listen (due : Nat) | corePll | bist (due : Nat) | lanePll | dispatch (due : Nat) | leaveRun
  | dormant (due : Nat) | relock
  deriving DecidableEq, Repr

/-- The power block in PD0. `held` is `PORST_N` low; `pllAt` the tick at which the core PLL last locked. -/
structure PwrSt where
  held     : Bool
  state    : Power
  target   : Power
  wait     : PwrWait
  domains  : BitVec 12
  relAt    : Nat
  onXtal   : Bool
  xtalGone : Bool
  corePll  : Bool
  pllAt    : Nat
  lanePll  : BitVec 4
  testmode : Bool
  wakeLow  : Bool
  deriving DecidableEq, Repr

/-! ### Faults -/

/-- States of an active-fault entry (R427). -/
inductive EntryState where
  | free | noted | grace | defused | reacted
  deriving DecidableEq, Repr

/-- The code of an entry state (R435). -/
def EntryState.code : EntryState → Nat
  | .free => 0
  | .noted => 1
  | .grace => 2
  | .defused => 3
  | .reacted => 4

/-- Fault classes (R424). -/
inductive FltClass where
  | note | grace | immediate
  deriving DecidableEq, Repr

/-- The code of a class (R435, R440). -/
def FltClass.code : FltClass → Nat
  | .note => 0
  | .grace => 1
  | .immediate => 2

/-- Reactions (R425); `belay` stands for "set by the belay" in `FLT_CFG`. -/
inductive React where
  | none | blockArm | blockConverter | trip | belay
  deriving DecidableEq, Repr

/-- The code of a reaction (R440). -/
def React.code : React → Nat
  | .none => 0
  | .blockArm => 1
  | .blockConverter => 2
  | .trip => 3
  | .belay => 7

/-- An active-fault entry (R426, R435). `due` is the tick at which a GRACE entry expires; `oneTick` marks a cause that
is gone in the tick after the raise (R57, R442); `arms` is the mask of arms its reaction acted on (R433). -/
structure FltEntry where
  code     : Nat
  inst     : Nat
  st       : EntryState
  ack      : Bool
  cause    : Bool
  injected : Bool
  oneTick  : Bool
  cls      : FltClass
  react    : React
  count    : Nat
  due      : Nat
  arms     : Nat
  fltTrip  : Bool
  deriving DecidableEq, Repr

/-- The FREE entry. -/
def FltEntry.empty : FltEntry :=
  ⟨0, 0, .free, false, false, false, false, .note, .none, 0, 0, 0, false⟩

/-- The fault collector (R426, R436): the list of 256 entries, the ring of 256 records, the `ERR_N` pulse, the factory unlock, and
what the last tick with a raise took (R434): that tick, its new entries, the number of its records. -/
structure FltSt where
  entries  : Tab FltEntry
  recs     : Tab (List Word)
  recNext  : Nat
  recWrap  : Bool
  recCount : Nat
  errEnd   : Option Nat
  unlocked : Bool
  lastTick : Nat
  tickNew  : List Nat
  tickRecs : Nat
  deriving DecidableEq, Repr

/-! ### Time and period -/

/-- Servo states (R322). -/
inductive Servo where
  | free | tracking | locked | holdover
  deriving DecidableEq, Repr

/-- Device time, cell time and the servo. Times are in units of 2^-40 ns (R317); `dev` counts from 0 s. A step acts in the
tick after its command (R321): `stepTo` is the time it sets, `stepBy` what it adds, `stepFree` the index of the free
value held where that is no time. `maxOff` is the bound M of the last `TIME_OFFSET` (R330). -/
structure TimeSt where
  dev     : Nat
  cell    : Nat
  rate    : Int
  integ   : Int
  servo   : Servo
  n       : Nat
  lastOff : Int
  holdDue : Option Nat
  stepTo  : Option Nat
  stepBy  : Int
  stepFree : Nat
  maxOff  : Int
  hist    : List (Nat × Nat × Nat)
  deriving DecidableEq, Repr

/-- The period counter (R73, R74): the tick of the next mark, the count of the last mark, the count and first period of
the present epoch, the period, effective epoch and latency in force, the CG_PERIOD boundary when armed (R78), the
frame-builder order (R81), and the minimum epoch (R75). -/
structure PerSt where
  running    : Bool
  nextMark   : Nat
  lastMark   : Nat
  count      : Nat
  epochs     : Nat
  epochStart : Nat
  per        : Nat
  eff        : Nat
  lat        : Nat
  boundary   : Option Nat
  order      : List Nat
  minEpoch   : Nat
  deriving DecidableEq, Repr

/-! ### Arms and planning -/

/-- A sample of an arm's current (R97): the mark, the current in units of A / 32768, the period in ticks. -/
structure ISample where
  mark : Nat
  q    : Int
  per  : Nat
  deriving DecidableEq, Repr

/-- A planning pass in progress (R95): the epoch it plans, its snapshot mark, the tick it started, its latch mark, the
cells it plans and those held by the cleat (R107, R111), the mode and the previous order (R106), the forecast current
and the predicted voltages (R104, R105), the reference set, the bypassed cells beside it and its region (R110, R111), whether its arm takes part in the
allocation (R155), and what its tasks have yielded so far. -/
structure Pass where
  epoch    : Nat
  snap     : Nat
  tick0    : Nat
  latch    : Nat
  cells    : List Nat
  held     : List Nat
  mode     : Nat
  prev     : List Nat
  ifc      : Int
  pred     : List (Nat × Rat)
  refSet   : List Nat
  bypSet   : List Nat
  refNeg   : Bool
  part     : Bool
  table    : Option (List RankEntry)
  late     : Bool
  grant    : Option Nat
  plus     : List (Nat × Nat)
  minus    : List (Nat × Nat)
  demand   : Option Nat
  deriving DecidableEq, Repr

/-- One arm. `deblocked` is the commanded state; `firstDeb` the first deblocked period (R149) and `blockFrom` the first
period a block has put BLOCK into (R148); `sgn` the sign for the
last computed period (R98); `lprev` the level at its end; `fresh` whether the active buffer became active at the last
latch (R138). `written` is the other buffer and `ready` its ready mark. -/
structure Arm where
  deblocked : Bool
  firstDeb  : Nat
  blockFrom : Nat
  sgn       : Int
  region    : Bool
  inHyst    : Bool
  lprev     : Int
  active    : Option Buf
  written   : Option Buf
  ready     : Bool
  fresh     : Bool
  pass      : Option Pass
  x0        : Int
  dx        : Int
  vref      : Int
  vprev     : Option Int
  iHist     : List ISample
  residMax  : Nat
  residCell : Nat
  residNote : Bool
  clampNote : Bool
  shortNote : Bool
  plans     : List (Nat × List (Nat × Int))
  deriving DecidableEq, Repr

/-! ### Cells -/

/-- Identity record states (R292). -/
inductive RecSt where
  | none | valid | invalid
  deriving DecidableEq, Repr

/-- Retirement of a cell (R167, R274, R285, R286): not retiring; waiting for a pass start; excluded from the running
pass; the pair in the messenger; the fire reply received, confirmation awaited until a tick; failed, to be sent again
at a tick; retired. `closed` marks a cell seen with BYP_CLOSED, which gets no pair. -/
inductive Retire where
  | no | start (closed : Bool) | inPass (closed : Bool) | arming | fired (due : Nat) | again (due : Nat) | done
  deriving DecidableEq, Repr

/-- Membership test data of a cell (R301): voltage and the charges of the arms, positive and absolute, at its first and
at its last report in the window, the verdict and the best arm. -/
structure MtCell where
  first   : Option (Rat × List Int × List Int)
  last    : Option (Rat × List Int × List Int)
  verdict : Nat
  best    : Nat
  deriving DecidableEq, Repr

/-- One cell, by its global index (R4). `stored` is the record read last, `ident` the record with which the cell was
placed (R292). `nOt`, `nDwell` and `nHolding` count the reports with those flags (R270, log entry 48). `v` is the running value of mark `vMark`, `lastRep` the mark of the last report, `silent` whether its
present silence has been declared (R103), `idByte` the identity check byte reported last (R299), `applied` whether it has
reported since a takeover began (R456). -/
structure Cell where
  idRec     : RecSt
  stored    : List Word
  ident     : List Word
  placed    : Bool
  arm       : Nat
  fb        : Bool
  retired   : Bool
  retire    : Retire
  st        : CellSt
  laneBlock : Bool
  wasHeld   : Bool
  v         : Option Rat
  vMark     : Nat
  lastRep   : Nat
  report    : Option (BitVec 48)
  nOt       : Nat
  nDwell    : Nat
  nHolding  : Nat
  shares    : List (Nat × Rat)
  silent    : Bool
  idByte    : Nat
  applied   : Bool
  digBytes  : List Nat
  digPhase  : Nat
  digValid  : Bool
  idBad     : Nat
  idFault   : Bool
  cfgFail   : Bool
  mt        : MtCell
  deriving DecidableEq, Repr

/-- A cell of which nothing is known. -/
def Cell.empty : Cell :=
  { idRec := .none, stored := [], ident := [], placed := false, arm := 0, fb := false, retired := false, retire := .no,
    st := .block, laneBlock := false, wasHeld := false, v := none, vMark := 0, lastRep := 0,
    report := none, nOt := 0, nDwell := 0, nHolding := 0, shares := [], silent := false, idByte := 0, applied := false, digBytes := [], digPhase := 0,
    digValid := false, idBad := 0, idFault := false, cfgFail := false, mt := ⟨none, none, 0, 0⟩ }

/-! ### Lanes and the messenger -/

/-- Lane states (R240). -/
inductive LaneSt where
  | down | detect | train | lock | caps | active | loop | retired
  deriving DecidableEq, Repr

/-- The code of a lane state (R240). -/
def LaneSt.code : LaneSt → Nat
  | .down => 0
  | .detect => 1
  | .train => 2
  | .lock => 3
  | .caps => 4
  | .active => 5
  | .loop => 6
  | .retired => 7

/-- A messenger transaction (R278, R281): its source (1 permanent bypass, 2 own bytes, 3 DISCOVER, 4 READ_IDENTITY,
5 CELL_CONFIG), the request word without SEQ, the port it addresses, its SEQ once sent, the period of the frame that
carried it last, and how often it was sent. -/
structure Txn where
  src    : Nat
  req    : Word
  port   : Nat
  seq    : Nat
  period : Nat
  tries  : Nat
  deriving DecidableEq, Repr

/-- A downstream frame as sent (R262, R263): its header fields, its time field, `words` and `msg`, and its CRC. `raw`
holds the words before the belay's injection (R265), and `depart` the tick at which the first header bit leaves (R237). -/
structure DsFrame where
  lane     : Nat
  cells    : Nat
  period   : Nat
  takeover : Bool
  port     : Nat
  blockAll : Bool
  div      : Nat
  markTime : Nat
  corr     : Nat
  words    : List Word
  msg      : Word
  crc      : Word
  raw      : List Word
  depart   : Nat
  deriving DecidableEq, Repr

/-- A lane loop that runs (R252 to R254): the generation it runs at; `stage` the bring-up stage a far-end loop is in and
`pass2` its pass, `stage` being `.loop` once test frames are sent; the register of the pattern, the test frame sent last, the losses of
lock. -/
structure LoopRun where
  mode   : Nat
  due    : Nat
  sent   : Nat
  gen    : Nat
  stage  : LaneSt
  pass2  : Bool
  prbs   : Nat
  last   : Option DsFrame
  losses : Nat
  deriving DecidableEq, Repr

/-- `ds` is the frame of the present period and `dsPrev` that of the period before (R411); `select` the lane number and
generation of the SELECT sent last (R241). One lane, LN0 to LN63, PEER0 as 64 and PEER1 as 65. `div` is the report divisor of the marks from `divFrom` on and
`divOld` that of the marks before (R88). `rd` holds, plus 1, the bytes an identity read has yielded so
far, by port × 256 + address with the hub as port 63, and `rdBad` the ports whose record is being read once more
(R292). -/
structure Lane where
  st        : LaneSt
  gen       : Nat
  lastGen   : Nat
  pass2     : Bool
  awaiting  : Bool
  stageDue  : Nat
  started   : Nat
  auto      : Bool
  hubGen    : Nat
  mask      : Nat
  lowGen    : Nat
  selPort   : Nat
  errWin    : Nat
  errOpen   : Bool
  retryEnd  : Option Nat
  retryN    : Nat
  retryAt   : Option Nat
  retireReq : Bool
  used      : Bool
  div       : Nat
  divOld    : Nat
  divFrom   : Nat
  nextUs    : Nat
  lastUs    : Option Nat
  actPort   : Nat
  hold      : Nat
  otherRun  : Nat
  seq       : Nat
  qPerm     : List Txn
  qOwn      : List Txn
  qCmd      : List Txn
  out       : List Txn
  fireWait  : Bool
  ownOk     : Bool
  ownFail   : Bool
  ds        : Option DsFrame
  dsPrev    : Option DsFrame
  select    : Option (Nat × Nat)
  loopRun   : Option LoopRun
  hubRec    : RecSt
  hubIdent  : List Word
  rd        : Tab Nat
  rdBad     : List Nat
  digValid  : Bool
  idFault   : Bool
  cfgFail   : Bool
  deriving DecidableEq, Repr

/-- A lane after reset: DOWN, nothing known of its hub. -/
def Lane.empty : Lane :=
  { st := .down, gen := 0, lastGen := 0, pass2 := false, awaiting := false, stageDue := 0, started := 0,
    auto := false, hubGen := 0, mask := 0, lowGen := 0, selPort := 0, errWin := 0, errOpen := false,
    retryEnd := none, retryN := 0, retryAt := none, retireReq := false, used := false, div := 0, divOld := 0, divFrom := 0, nextUs := 0,
    lastUs := none, actPort := 0, hold := 0, otherRun := 0, seq := 0, qPerm := [], qOwn := [], qCmd := [],
    out := [], fireWait := false, ownOk := false, ownFail := false, ds := none, dsPrev := none, select := none, loopRun := none, hubRec := .none, hubIdent := [],
    rd := [], rdBad := [], digValid := false, idFault := false, cfgFail := false }

/-! ### The cleat -/

/-- States of a cleat entry (R161). -/
inductive CleatState where
  | free | held | pending
  deriving DecidableEq, Repr

/-- One cleat entry (R161, R176). `since` is the mark at which it became HELD; `freeAt` the mark at which a
RELEASE_PENDING entry becomes FREE; `latches` the latch marks left of a fault entry's retry window (R166), none when no
window runs; `start` the cell's state when the entry was taken (R136); `act` the activity of a maintenance entry. -/
structure CleatEntry where
  st       : CleatState
  cell     : Nat
  ovr      : Override
  fault    : Bool
  borrowed : Bool
  absent   : Bool
  arm      : Nat
  pos      : Nat
  since    : Nat
  freeAt   : Nat
  latches  : Option Nat
  act      : Nat
  deriving DecidableEq, Repr

/-- The FREE entry. -/
def CleatEntry.empty : CleatEntry := ⟨.free, 0, .forceBypass, false, false, false, 0, 0, 0, 0, none, 0⟩

/-- A maintenance activity (R171, R173): `ending` counts the latch marks left once ENDING. -/
structure Activity where
  id       : Nat
  declared : Nat
  costs    : List Nat
  ending   : Option Nat
  deriving DecidableEq, Repr

/-- The free activity slot. -/
def Activity.empty : Activity := ⟨0, 0, [], none⟩

/-- The cleat, the activities and the pending suspicions in the order they were declared (R165). -/
structure CleatSt where
  entries : Tab CleatEntry
  acts    : Tab Activity
  pend    : List Nat
  deriving DecidableEq, Repr

/-! ### Strands and the fairlead -/

/-- States of a task slot (R218). -/
inductive TaskState where
  | waiting | ready | running
  deriving DecidableEq, Repr

/-- A task in a slot (R217). `succ` lists successor slots with true for HARD. -/
structure Task where
  cls      : Nat
  prio     : Nat
  inst     : Nat
  part     : Nat
  counter  : Nat
  succ     : List (Nat × Bool)
  release  : Option Nat
  deadline : Option Nat
  st       : TaskState
  readyAt  : Nat
  strand   : Nat
  startAt  : Nat
  limit    : Nat
  stopped  : Bool
  deriving DecidableEq, Repr

/-- The FREE slot. -/
def Task.empty : Task := ⟨16, 0, 0, 0, 0, [], none, none, .waiting, 0, 0, 0, 0, false⟩

/-- One strand (R212, R215, R225): the slot it runs, OFFLINE, the tick from which it is gated while it has no task, the
free values that are the working data in its local SRAM while a task runs, none else, and the busy ticks of the present
1 ms window. -/
structure Strand where
  slot    : Option Nat
  offline : Bool
  gateAt  : Nat
  sram    : Option Nat
  busy    : Nat
  winFrom : Nat
  deriving DecidableEq, Repr

/-- A strand after reset: gated. -/
def Strand.empty : Strand := ⟨none, false, 0, none, 0, 0⟩

/-- The fairlead: slots, tasks waiting for a slot under the number by which links name them (R221), the next such
number, strands, trace (R227) with the START and GATE
entries that wait for their tick (R215), patch store (R232). -/
structure StrSt where
  slots     : Tab Task
  waiting   : List (Nat × Task)
  waitNo    : Nat
  strands   : Tab Strand
  trace     : Tab (Word × Word)
  traceNext : Nat
  traceWrap : Bool
  traceFrz  : Bool
  traceTick : Nat
  traceN    : Nat
  traceDue  : List (Nat × Word × Word)
  patch     : Tab Word
  patchLoad : Bool
  deriving DecidableEq, Repr

/-! ### Belay -/

/-- Belay states (R401). -/
inductive BelayState where
  | off | normal | tripped | blocking
  deriving DecidableEq, Repr

/-- The code of a belay state (R423). -/
def BelayState.code : BelayState → Nat
  | .off => 0
  | .normal => 1
  | .tripped => 2
  | .blocking => 3

/-- One dual-channel safety input (R404 to R408, R410). `tpFailA` and `tpFailB` are channels whose last check failed,
`prevA` and `prevB` whether they were in their run state before the pulse; `demandLat` and `tpLat` the latches; `runHit`
whether the present run has latched DISCREPANCY; `demand` whether the last counted sample was a demand. -/
structure SafetyInput where
  aLevel    : Bool
  bLevel    : Bool
  demand    : Bool
  disc      : Bool
  tpFailA   : Bool
  tpFailB   : Bool
  bothSafe  : Bool
  run       : Nat
  lastAgree : Bool
  lastRun   : Bool
  prevA     : Bool
  prevB     : Bool
  demandLat : Bool
  tpLat     : Bool
  runHit    : Bool
  deriving DecidableEq, Repr

/-- A safety input after reset. -/
def SafetyInput.empty : SafetyInput :=
  ⟨false, false, false, false, false, false, false, 0, true, false, false, false, false, false, false⟩

/-- The belay (R398 to R423). `latch` holds bits [11:0] of `SAFE_LATCH`; `icm` the arms latched by the insertion
monitor; `fails` the internal checks that have failed and not passed since, by instance (R410, R417); `gridAt` the last
grid sample and `tpOrigin` the pulse cycle's origin (R404, R407); `vLast` and `iLast` the last results with their ticks,
`vTag` and `iTag` their tags (R415); `lowVdd` whether low `VDD_BELAY` holds the belay in reset (R399). -/
structure BelaySt where
  state     : BelayState
  inReset   : Bool
  latch     : Nat
  icm       : Nat
  injecting : Bool
  tripOut   : Bool
  tripA     : Bool
  tripB     : Bool
  inputs    : Tab SafetyInput
  srstRun   : Nat
  srstRaw   : Bool
  srstLow   : Bool
  srstFrom  : Option Nat
  srstStuck : Bool
  tpOn      : BitVec 4
  tpOrigin  : Option Nat
  gridAt    : Option Nat
  tpStart   : Tab Nat
  tpEnd     : Tab Nat
  icmRun    : Tab Nat
  icmFrom   : Nat
  icmSt     : Tab CellSt
  hbGot     : Nat
  hbPeriod  : Nat
  hbPrev    : Option Nat
  hbSeen    : Bool
  hbTick    : Nat
  hbMiss    : Nat
  hbGood    : Nat
  hbOk      : Bool
  clockOk   : Bool
  inserted  : Bool
  ovRun     : Nat
  ocRun     : Nat
  vLast     : Option (Nat × Nat)
  iLast     : Option (Nat × Nat)
  vTag      : Nat
  iTag      : Nat
  lowVdd    : Bool
  fdcFrom   : Nat
  fails     : Nat
  okLock    : Bool
  readback  : Bool
  session   : Nat
  open_     : Bool
  sesFrom   : Nat
  password  : Option (Word × Word)
  pendLo    : Option Word
  wrongRun  : Nat
  backoff   : Option Nat
  log       : Tab (List Word)
  logCount  : Nat
  deriving DecidableEq, Repr

/-! ### Duplex -/

/-- Duplex roles (R446), coded as `DUP_ROLE`. -/
inductive Role where
  | solo | standby | takingOver | active
  deriving DecidableEq, Repr

/-- The code of a role (R462). -/
def Role.code : Role → Nat
  | .solo => 0
  | .standby => 1
  | .takingOver => 2
  | .active => 3

/-- The duplex block (R445 to R463). `got` lists the periods whose heartbeat has arrived; `u` is the first period of a
takeover (R454); `grant` the period m of a granted handover (R459); `resumed` whether dispatch has resumed (R456) and `q` the
first period computed normally. -/
structure DupSt where
  role      : Role
  marks     : Nat
  hb        : Option PeerHeader
  hbOk      : BitVec 2
  seen      : Bool
  gotMark   : Option Nat
  otherAct  : Option Nat
  missRun   : Nat
  armCount  : Nat
  armed     : Bool
  cause     : Nat
  u         : Nat
  takeover  : Bool
  resumed   : Bool
  q         : Nat
  failedRes : Bool
  yieldReq  : Bool
  grant     : Option Nat
  giving    : Option Nat
  forceTko  : Bool
  demote    : Bool
  data      : Option PeerData
  lastData  : Option PeerData
  slewed    : Bool
  sentHb    : Option PeerHeader
  sentData  : Option PeerData
  digMs     : Nat
  deriving DecidableEq, Repr

/-! ### Reel and trigger bus -/

/-- Capture states (R464). -/
inductive ReelState where
  | idle | armed | triggered | stopped
  deriving DecidableEq, Repr

/-- The code of a capture state (R479). -/
def ReelState.code : ReelState → Nat
  | .idle => 0
  | .armed => 1
  | .triggered => 2
  | .stopped => 3

/-- A record (R476): the ticks since tick 0, not reduced, and its two words. -/
structure ReelRec where
  tick : Nat
  w0   : Word
  w1   : Word
  deriving DecidableEq, Repr

/-- A channel of a capture: last recorded value and last sample (R466, R469). -/
structure ReelChan where
  last   : Option Int
  prev   : Option Int
  deriving DecidableEq, Repr

/-- A trigger unit's memory (R469): when its line last changed, the tick of the last sample on the first side of a
SLEW, and whether a RUNT is open. -/
structure ReelUnit where
  since   : Nat
  side    : Option Nat
  runt    : Bool
  missed  : Bool
  deriving DecidableEq, Repr

/-- A mask's memory (R473): the tick of its last reference event and whether a violation followed it. -/
structure ReelMask where
  ref  : Option Nat
  hit  : Bool
  viol : Nat
  deriving DecidableEq, Repr

/-- The reel (R464 to R479). `cfg` is the copied configuration; `tick0` the tick of tick 0, none while a START_MARK
capture awaits its mark; `ring` the record words 16 onwards by word index and `ringAt` the full tick of the record at
an index; `queue` the records formed and not yet written; `fresh` those of the present tick in the order of R475, which
join the queue as the tick ends; `lines` the digital levels as last seen and `base` those before the tick `baseAt`;
`trigAt` and `stopAt` the capture tick and the tick in which trigger and stop came; `stopDue` a mask's stop at the end
of this tick. -/
structure ReelSt where
  state    : ReelState
  table    : Nat
  cfg      : Tab Word
  tick0    : Option Nat
  t0       : Nat
  mark0    : Option Nat
  trigTick : Option Nat
  trigSrc  : Nat
  preShort : Bool
  overflow : Bool
  cause    : Nat
  header   : List Word
  ring     : Tab Word
  first    : Nat
  next     : Nat
  wrapped  : Bool
  words    : Nat
  ringAt   : Tab Nat
  queue    : List ReelRec
  fresh    : List ReelRec
  lastWrite : Nat
  lostRun  : Nat
  lines    : List Nat
  base     : List Nat
  baseAt   : Nat
  trigAt   : Option Nat
  stopAt   : Option Nat
  stopDue  : Bool
  chans    : Tab ReelChan
  units    : Tab ReelUnit
  masks    : Tab ReelMask
  wraps    : Nat
  deriving DecidableEq, Repr

/-- One trigger-bus line (R471, R472, R480): recognised low, driven from a tick until a tick, the first driven tick
awaiting its own recognition, and the tick of the last write of `TBUS_DELAY` with the value before it. -/
structure TbusLine where
  low       : Bool
  driveFrom : Nat
  driveTo   : Option Nat
  loopAt    : Option Nat
  lowAt     : Nat
  delayAt   : Option Nat
  delayWas  : Nat
  deriving DecidableEq, Repr

/-- A released line. -/
def TbusLine.empty : TbusLine := ⟨false, 0, none, none, 0, none, 0⟩
/-! ### Loop engine, generators, pulse inputs -/

/-- Modes of a loop slot (R194). -/
inductive LoopMode where
  | normal | start | test | recovery
  deriving DecidableEq, Repr

/-- The code of a loop mode (R209). -/
def LoopMode.code : LoopMode → Nat
  | .normal => 0
  | .start => 1
  | .test => 2
  | .recovery => 3

/-- The mode of a code (R65). -/
def LoopMode.ofCode : Nat → LoopMode
  | 0 => .normal
  | 1 => .start
  | 2 => .test
  | _ => .recovery

/-- A loop slot (R186 to R198): integrator with 30 fraction bits, derivative filter, previous feedback, last output,
model input of the last period, whether `yprev` is to be set first (R188) and the residual suspended (R195), and the
two supervision counts. `pend` is a commanded mode that waits for the mark. -/
structure LoopSlot where
  mode    : LoopMode
  pend    : Option LoopMode
  integ   : Int
  d       : Int
  yprev   : Int
  ulast   : Int
  out     : Int
  fresh   : Bool
  suspend : Bool
  feRun   : Nat
  plRun   : Nat
  deriving DecidableEq, Repr

/-- A slot after reset: START (R194). -/
def LoopSlot.empty : LoopSlot := ⟨.start, none, 0, 0, 0, 0, 0, true, true, 0, 0⟩

/-- A move of a trajectory generator (R202). -/
structure TrajMove where
  end_ : Int
  vMax : Int
  aMax : Int
  jMax : Int
  deriving DecidableEq, Repr

/-- What a generator plans anew at the next mark (R202 to R206). -/
inductive TrajPend where
  | none | replace | stop | unblend
  deriving DecidableEq, Repr

/-- A trajectory generator: its state at the time (in ticks) its plan began, the plan as segments of constant jerk with
their durations in seconds, the executing move, the queue, and the flags of R208. `decided` tells that the end of the
executing move is settled (R204); `homing` marks a generator a homing claims (R367); `leg` is the time in seconds into
the plan at which its return leg begins (R205). -/
structure TrajGen where
  p0        : Rat
  v0        : Rat
  a0        : Rat
  t0        : Rat
  plan      : List (Rat × Rat)
  leg       : Rat
  cur       : Option TrajMove
  queue     : List TrajMove
  pend      : TrajPend
  blending  : Bool
  decided   : Bool
  overshoot : Bool
  stopping  : Bool
  homing    : Option Nat
  deriving DecidableEq, Repr

/-- An idle generator at 0. -/
def TrajGen.empty : TrajGen := ⟨0, 0, 0, 0, [], 0, none, [], .none, false, false, false, false, none⟩

/-- Loop engine and generators. `wasDeb` tells whether some arm was deblocked at the last mark (R194); `pulses` lists
the ticks of the rising edges of each pulse input (R200). -/
structure LoopSt where
  slots  : Tab LoopSlot
  gens   : Tab TrajGen
  wasDeb : Bool
  pulses : Tab (List Nat)
  deriving DecidableEq, Repr

/-! ### Encoders and homing -/

/-- Homing states (R368). -/
inductive HomeState where
  | idle | search | indexWait | stopping
  deriving DecidableEq, Repr

/-- The code of a homing state (R372). -/
def HomeState.code : HomeState → Nat
  | .idle => 0
  | .search => 1
  | .indexWait => 2
  | .stopping => 3

/-- How a homing ends (R370). -/
inductive HomeEnd where
  | none | reference | aborted | noReference
  deriving DecidableEq, Repr

/-- What stood before the first `HOME` edge or index of a tick acted on a homing: the tick, the axis's r, p and status,
the homing's state and its generator, and which of the two came. A limit trip of the same tick acts first (R369). -/
structure HomeUndo where
  tick   : Nat
  raw    : Word
  pos    : Word
  status : Word
  st     : HomeState
  gen    : TrajGen
  home   : Bool
  index  : Bool
  deriving DecidableEq, Repr

/-- An encoder axis: filtered levels, direction of the last counted transition and pending reversal (R362), whether
an index is due at the next counted transition (R363), tooth intervals (R361), the edges of `r` kept for the speed
(R364), the illegal-transition window (R360) and whether its fault was raised, debounced limits, the homing (R367 to
R370) with what it took over at its start (R372), the tick of the latch's last capture (R365), the tick of the last
correction or shift with r and p before it (R365), and what a limit trip of the same tick takes back (R369). -/
structure EncAxis where
  a        : Bool
  b        : Bool
  z        : Bool
  home     : Bool
  limP     : Bool
  limN     : Bool
  lastDir  : Int
  pendRev  : Bool
  zDue     : Bool
  lastEdge : Option Nat
  prevInt  : Option Nat
  edges    : List (Nat × Int)
  illRun   : Nat
  illFrom  : Nat
  hState   : HomeState
  hNeg     : Bool
  hRev     : Bool
  hGen     : Nat
  hIndex   : Bool
  hStart   : Nat
  hEnd     : HomeEnd
  hShift   : Int
  latchAt  : Option Nat
  hTurn    : Bool
  hVel     : Nat
  hAcc     : Nat
  hJerk    : Nat
  illHit   : Bool
  before   : Option (Nat × Int × Int)
  hUndo    : Option HomeUndo
  deriving DecidableEq, Repr

/-- An axis after reset. -/
def EncAxis.empty : EncAxis :=
  ⟨false, false, false, false, false, false, 0, false, false, none, none, [], 0, 0, .idle, false, false, 0, false, 0,
   .none, 0, none, false, 0, 0, 0, false, none, none⟩

/-! ### Chopper legs -/

/-- Leg states (R390). -/
inductive LegState where
  | off | running | latched | uvloHold
  deriving DecidableEq, Repr

/-- The code of a leg state (R397). -/
def LegState.code : LegState → Nat
  | .off => 0
  | .running => 1
  | .latched => 2
  | .uvloHold => 3

/-- A turn-on of the present tick: its tick and output (1 `CHn_GH`, 2 `CHn_GL`), and what stood before: the blanking end
and the interlock's view with the ticks counted for it. A confirmation, a gate supply or a trip of the same tick takes it
back (R392). -/
structure LegOn where
  tick    : Nat
  out     : Nat
  blankTo : Nat
  ilDone  : Nat
  ilHeld  : Bool
  count   : Nat
  deriving DecidableEq, Repr

/-- A chopper leg: mode in force, cycle start tick, the values and settings of the present cycle (R374 to R377, R396), the two
generator outputs, the interlock's view (R382), the trip unit (R383 to R385), comparator (R386), gate supplies (R389),
hysteresis (R393), self-test (R388). `ghOff` and `glOff` are the ticks from which each output no longer counts as on;
`forceAt` is the delayed turn-on of FORCE (R381); `waitMark` a start that awaits a mark (R379); `dueAt` the tick in which
a write of mode 0 (true) or of `CHOP_FORCE` takes effect (R396); `onAt` the last turn-on; `scFilter` the comparator's
filter (R386). -/
structure Leg where
  st       : LegState
  mode     : Nat
  running  : Bool
  waitMark : Bool
  startAt  : Nat
  per      : Nat
  dt       : Nat
  duty     : Nat
  minPulse : Nat
  blank    : Nat
  blankSrc : Nat
  tripCfg  : Nat
  gsCfg    : Nat
  gh       : Bool
  gl       : Bool
  ghInt    : Bool
  ghOff    : Nat
  glOff    : Nat
  ilDone   : Nat
  ilHeld   : Bool
  forceAt  : Option (Nat × Nat)
  lTrip    : Bool
  lSc      : Bool
  lDc      : Bool
  release  : Bool
  tripped  : Bool
  tripIn   : Bool
  blankTo  : Nat
  cmp      : Bool
  conf     : Bool
  driven   : Bool
  gsH      : Bool
  gsL      : Bool
  clamped  : Bool
  hystOn   : Bool
  hystNew  : Bool
  ovRun    : Nat
  stBusy   : Bool
  stDone   : Bool
  stPass   : Bool
  stSteps  : Nat
  dueAt    : Option (Nat × Bool)
  onAt     : Option LegOn
  scFilter : Nat
  deriving DecidableEq, Repr

/-- A leg after reset. -/
def Leg.empty : Leg :=
  { st := .off, mode := 0, running := false, waitMark := false, startAt := 0, per := 20000, dt := 100, duty := 0,
    minPulse := 0, blank := 40,
    blankSrc := 0, tripCfg := 768, gsCfg := 0, gh := false, gl := false, ghInt := false, ghOff := 0, glOff := 0, ilDone := 0, ilHeld := false,
    forceAt := none, lTrip := false, lSc := false, lDc := false, release := false, tripped := false, tripIn := false,
    blankTo := 0, cmp := false, conf := false, driven := false,
    gsH := false, gsL := false, clamped := false, hystOn := false, hystNew := false,
    ovRun := 0, stBusy := false, stDone := false, stPass := false, stSteps := 0,
    dueAt := none, onAt := none, scFilter := 16 }

/-- The legs, and the classification window of R387: the leg that confirmed and the tick the window ends. -/
structure ChopSt where
  legs  : Tab Leg
  scWin : Option (Nat × Nat)
  deriving DecidableEq, Repr

/-! ### Measurement and decimation -/

/-- States of an injected sequence (R335): pending or running, and triggered again while running. -/
inductive InjState where
  | idle | pending | running | runAgain
  deriving DecidableEq, Repr

/-- An injected sequence: trigger count, the tick at which its conversions were due, the mark it belongs to, the place
in the run, whether it waited for a calibration, and its configuration at the trigger. `next` is the due tick, mark and
configuration of a second trigger. -/
structure Inj where
  st      : InjState
  count   : Nat
  due     : Nat
  mark    : Option Nat
  at_     : Nat
  delayed : Bool
  cfg     : Nat
  next    : Option (Nat × Option Nat × Nat)
  deriving DecidableEq, Repr

/-- An injected sequence after reset. -/
def Inj.empty : Inj := ⟨.idle, 0, 0, none, 0, false, 0, none⟩

/-- A conversion in progress (R331, R336): what it serves and the tick it started. -/
inductive ConvKind where
  | regular | injected (seq : Nat) | cal | path
  deriving DecidableEq, Repr

/-- A trigger that waits for its delay (R333, R334): the tick it is due, the sequence (8 for the regular one), the mark it
belongs to, and the `ADC_INJECT` that it answers (R339). -/
structure AdcTrig where
  due  : Nat
  seq  : Nat
  mark : Option Nat
  cmd  : Option Cmd
  deriving DecidableEq, Repr

/-- A calibration (R344 to R346): full scale or zero, whether its conversions have begun, those made and their sum. -/
structure AdcCal where
  full : Bool
  conv : Bool
  wait : List Nat
  n    : Nat
  need : Nat
  sum  : Nat
  m    : Option Nat
  deriving DecidableEq, Repr

/-- One converter. `mode` is the mode of `ADC_REG_CFG` in force; `regOn` a sequence in progress at position `regPos`;
with channels `regCh`, `regLost` whether a trigger was lost meanwhile; `regWait` a triggered sequence not yet started,
with its mark and channels; `lastRes` the result of each input for each undecided mark, by mark × 32 + input, with the
mark plus 1 (R349). -/
structure Adc where
  conv    : Option (ConvKind × Nat × Nat)
  mode    : Nat
  regOn   : Bool
  regPos  : Nat
  regMark : Option Nat
  regCnt  : Nat
  regCh   : List Nat
  regLost : Bool
  regWait : Option (Option Nat × List Nat)
  injs    : Tab Inj
  trigs   : List AdcTrig
  cal     : Option AdcCal
  lastRes : Tab (Nat × Int)
  deriving DecidableEq, Repr

/-- A converter after reset. -/
def Adc.empty : Adc := ⟨none, 0, false, 0, none, 0, [], false, none, [], [], none, []⟩

/-- A path test (R347): converter, input, the two levels, the group, conversions made in it, the sums, and the tick
from which the TDAC has settled. -/
structure PathTest where
  adc    : Nat
  chan   : Nat
  l1     : Nat
  l2     : Nat
  second : Bool
  n      : Nat
  s1     : Nat
  s2     : Nat
  from_  : Nat
  deriving DecidableEq, Repr

/-- A decimator channel (R350 to R355): the last 19 inputs and the count of each stage, outputs since the restart,
input samples since the restart, the tick before its first sample, the run of equal bits, and the sample at which the
stream was found stuck; `sat` a saturation since the last output (R350). -/
structure DecChan where
  taps    : Tab (List Int)
  cnts    : Tab Nat
  outs    : Nat
  from_   : Nat
  samples : Nat
  lastBit : Bool
  run     : Nat
  stuck   : Bool
  stuckAt : Nat
  misal   : Bool
  settled : Bool
  sat     : Bool
  deriving DecidableEq, Repr

/-- A channel after a restart. -/
def DecChan.empty : DecChan := ⟨[], [], 0, 0, 0, false, 0, false, 0, false, false, false⟩

/-- Measurement: the converters, the path test, the result ring and what the last tick with a result has queued (R342),
the plausibility runs, the marks that are not decided and, by mark × 4 + pair, the pairs compared at them (R349), and the
decimator. `grid` is the origin of its grid and `sync` a `DEC_SYNC` that waits for its mark. -/
structure MeasSt where
  adcs   : Tab Adc
  pt     : Option PathTest
  ring   : Tab Word
  qTick  : Nat
  qNow   : List (Nat × Nat)
  plRun  : Tab Nat
  plOpen : List Nat
  plCmp  : Tab Bool
  dec    : Tab DecChan
  grid   : Nat
  sync   : Bool
  deriving DecidableEq, Repr

/-! ### Discovery and tally -/

/-- A front-end board's record (R290). -/
structure Board where
  st    : RecSt
  bytes : List Nat
  deriving DecidableEq, Repr

/-- A board of which nothing is known. -/
def Board.empty : Board := ⟨.none, []⟩

/-- The membership test (R300, R301): state, whether it waits for its mark, first mark and window, the charge of each
arm up to the last mark, positive and absolute, in units of (A / 32768) ticks. -/
structure MtSt where
  st    : Nat
  armed : Bool
  from_ : Nat
  win   : Nat
  qpos  : List Int
  qabs  : List Int
  deriving DecidableEq, Repr

/-- Discovery and placement: board records, the topology in force, the membership test. -/
structure DiscSt where
  boards : Tab Board
  topo   : List Word
  placed : Bool
  mt     : MtSt
  deriving DecidableEq, Repr

/-- The tally (R306 to R314): the active expectation table, the old digests of entities, whether own digests are
STALE, when the mismatch of each entity code began, and the peer's last digests with the tick they came. -/
structure TallySt where
  exp_    : Option (List Word)
  old     : Tab (Option Word)
  stale   : Bool
  since   : Tab (Option Nat)
  peer    : Option (List Word)
  peerAt  : Nat
  deriving DecidableEq, Repr

/-! ### The machine -/

/-- The controller. `tick` counts ticks of 5 ns; `params` holds every parameter word by ID × 65536 + target, its
default being the reset value; `staged` the staged words of commit groups and `gain` the staged words of gain tables
by slot × 32 + word; `capWords` the capstan's command words by period and cell, nonzero ones only; `armedG` the armed groups by code × 128 + target; `tables` the words of host-written and result
tables by number × 65536 + word; `freeCtr` is the model's own index of free values, no part of the machine. -/
structure State where
  tick    : Nat
  params  : Tab Word
  staged  : Tab (Option Word)
  gain    : Tab (Option Word)
  armedG  : Tab Bool
  tables  : Tab Word
  ops     : List LongOp
  host    : HostSt
  pwr     : PwrSt
  flt     : FltSt
  time    : TimeSt
  per     : PerSt
  capWords : Tab (Tab Word)
  arms    : Tab Arm
  cells   : Tab Cell
  lanes   : Tab Lane
  cleat   : CleatSt
  str     : StrSt
  belay   : BelaySt
  dup     : DupSt
  reel    : ReelSt
  tbus    : Tab TbusLine
  loops   : LoopSt
  encs    : Tab EncAxis
  chop    : ChopSt
  meas    : MeasSt
  disc    : DiscSt
  tally   : TallySt
  freeCtr : Nat
  pending : List Instr
  deriving DecidableEq, Repr

/-- No fault stops the block: every condition the manual calls a fault is an effect on the collector (R424). The one
constructor is raised by nothing. -/
inductive Fault where
  /-- Raised by nothing; it would be safe. -/
  | none_
  deriving DecidableEq, Repr

/-- Why a step has no meaning. -/
inductive Refusal where
  /-- Raised by an arm of `exec` whose meaning is not written; safe. -/
  | notModelled (mnemonic : String)
  deriving DecidableEq, Repr

/-- An arm without a placement: nothing enabled, blocked, sign +1 (R98). -/
def Arm.empty : Arm :=
  { deblocked := false, firstDeb := 0, blockFrom := 0, sgn := 1, region := false, inHyst := false, lprev := 0,
    active := none, written := none, ready := false, fresh := false, pass := none, x0 := 0, dx := 0, vref := 0,
    vprev := none, iHist := [], residMax := 0, residCell := 0, residNote := false, clampNote := false,
    shortNote := false, plans := [] }

/-- The host block after reset. The manual gives no number of vectors granted after reset, and no command grants them:
8 are granted and MSI-X is not enabled (DESIGN CHOICE, log entry 41). -/
def HostSt.reset : HostSt :=
  { cmdWin := [], rplWin := [], cmdTail := 0, cmdHead := 0, rplTail := 0, rplHead := 0, msix := [], held := [],
    spiBuf := [], spiOut := [], pcie := ⟨none, []⟩, spi := ⟨none, []⟩, shPcie := ⟨0, none⟩, shSpi := ⟨0, none⟩,
    shStrand := [], msiVecs := 8, msixOn := false, pba := 0, msiSent := [], linkUp := false, lastGood := 0, busOut := [] }

/-- The power block with `PORST_N` low (R491). -/
def PwrSt.reset : PwrSt :=
  { held := true, state := .listen, target := .listen, wait := .none, domains := 1, relAt := 0, onXtal := false,
    xtalGone := false, corePll := false, pllAt := 0, lanePll := 0, testmode := false, wakeLow := false }

/-- The collector after reset. -/
def FltSt.reset : FltSt :=
  { entries := [], recs := [], recNext := 0, recWrap := false, recCount := 0, errEnd := none, unlocked := false,
    lastTick := 0, tickNew := [], tickRecs := 0 }

/-- The clock after reset: FREE, device time 0 (R322). -/
def TimeSt.reset : TimeSt :=
  { dev := 0, cell := 0, rate := 0, integ := 0, servo := .free, n := 0, lastOff := 0, holdDue := none,
    stepTo := none, stepBy := 0, stepFree := 0, maxOff := 0, hist := [] }

/-- The period counter outside RUN (R94). -/
def PerSt.reset : PerSt :=
  { running := false, nextMark := 0, lastMark := 0, count := 0, epochs := 0, epochStart := 0, per := 1000, eff := 16,
    lat := 2, boundary := none, order := List.range 64, minEpoch := 800 }

/-- The cleat after reset: every entry FREE. -/
def CleatSt.reset : CleatSt := ⟨[], [], []⟩

/-- Strands and fairlead after reset. -/
def StrSt.reset : StrSt :=
  { slots := [], waiting := [], waitNo := 256, strands := [], trace := [], traceNext := 0, traceWrap := false, traceFrz := false,
    traceTick := 0, traceN := 0, traceDue := [], patch := [], patchLoad := false }

/-- The belay with its supply off (R481): the clamps hold injection asserted, both balls read as tripped (R400). -/
def BelaySt.reset : BelaySt :=
  { state := .off, inReset := true, latch := 0, icm := 0, injecting := true, tripOut := true, tripA := false,
    tripB := true, inputs := [], srstRun := 0, srstRaw := false, srstLow := false, srstFrom := none,
    srstStuck := false, tpOn := 0, tpOrigin := none, gridAt := none, tpStart := [], tpEnd := [], icmRun := [], icmFrom := 0, icmSt := [],
    hbGot := 0, hbPeriod := 0, hbPrev := none, hbSeen := false, hbTick := 0, hbMiss := 0, hbGood := 0, hbOk := false,
    clockOk := false, inserted := false, ovRun := 0, ocRun := 0, vLast := none, iLast := none, vTag := 0, iTag := 0, lowVdd := false, fdcFrom := 0,
    fails := 0, okLock := false, readback := false, session := 0, open_ := false, sesFrom := 0, password := none,
    pendLo := none, wrongRun := 0, backoff := none, log := [], logCount := 0 }

/-- The duplex block after reset: SOLO (R446). -/
def DupSt.reset : DupSt :=
  { role := .solo, marks := 0, hb := none, hbOk := 0, seen := false, gotMark := none, otherAct := none, missRun := 0,
    armCount := 0, armed := false, cause := 0, u := 0, takeover := false, resumed := false, q := 0, failedRes := false,
    yieldReq := false, grant := none, giving := none, forceTko := false, demote := false, data := none,
    lastData := none, slewed := false, sentHb := none, sentData := none, digMs := 0 }

/-- The reel after reset: IDLE. -/
def ReelSt.reset : ReelSt :=
  { state := .idle, table := 0, cfg := [], tick0 := none, t0 := 0, mark0 := none, trigTick := none, trigSrc := 0,
    preShort := false, overflow := false, cause := 0, header := [], ring := [], first := 0, next := 0,
    wrapped := false, words := 0, ringAt := [], queue := [], fresh := [], lastWrite := 0, lostRun := 0, lines := [],
    base := [], baseAt := 0, trigAt := none, stopAt := none, stopDue := false, chans := [], units := [], masks := [],
    wraps := 0 }

/-- Loop engine after reset: every slot in START. -/
def LoopSt.reset : LoopSt := ⟨[], [], false, []⟩

/-- Measurement after reset. -/
def MeasSt.reset : MeasSt := ⟨[], none, [], 0, [], [], [], [], [], 0, false⟩

/-- No records, no placement. -/
def DiscSt.reset : DiscSt := ⟨[], [], false, ⟨0, false, 0, 0, [], []⟩⟩

/-- No expectation, nothing known of the peer. -/
def TallySt.reset : TallySt := ⟨none, [], false, [], none, 0⟩

/-- The machine right after reset, `PORST_N` still low (R491): every parameter at its reset value (R16), every domain
but PD0 off, nothing listed in any table, no command waiting. -/
def State.reset : State :=
  { tick := 0, params := [], staged := [], gain := [], armedG := [], tables := [], ops := [], host := .reset,
    pwr := .reset, flt := .reset, time := .reset, per := .reset, capWords := [], arms := [], cells := [], lanes := [],
    cleat := .reset, str := .reset, belay := .reset, dup := .reset, reel := .reset, tbus := [], loops := .reset,
    encs := [], chop := ⟨[], none⟩, meas := .reset, disc := .reset, tally := .reset, freeCtr := 0, pending := [] }

end Sys2Proof.Machine
end

