-- ==== Sys2Proof/Machine/FaultTable.lean ====
section
/-! DEFINITION. The fault table (R443): for every fault code its class, default reaction, grace time, whether `FLT_CFG`
can change them, and its instances. -/

namespace Sys2Proof.Machine

/-- What a fault's instance names, for the reaction BLOCK_ARM (R425). -/
inductive FltKind where
  | arm | cell | lane | other
  deriving DecidableEq, Repr

/-- A row of the fault table (R443). -/
structure FltDef where
  code  : Nat
  cls   : FltClass
  react : React
  grace : Nat
  fixed : Bool
  kind  : FltKind
  insts : List (Nat × Nat)
  deriving DecidableEq, Repr

abbrev F.HOST_SILENT : Nat := 0x0101
abbrev F.EPOCH_STRETCHED : Nat := 0x0801
abbrev F.PRED_RESIDUAL : Nat := 0x1001
abbrev F.CELL_SUSPECT : Nat := 0x1101
abbrev F.CELL_RETIRED : Nat := 0x1102
abbrev F.TABLE_CRC : Nat := 0x1103
abbrev F.ARM_REDUNDANCY_LOST : Nat := 0x1104
abbrev F.CELL_UVLO : Nat := 0x1105
abbrev F.CELL_SC : Nat := 0x1106
abbrev F.CELL_OV : Nat := 0x1107
abbrev F.CELL_CODE_ERR : Nat := 0x1108
abbrev F.CAP_SHORTFALL : Nat := 0x1109
abbrev F.CAP_CLAMP : Nat := 0x110A
abbrev F.BUDGET_STARVED : Nat := 0x1201
abbrev F.CLEAT_FULL : Nat := 0x1301
abbrev F.CLEAT_LOW : Nat := 0x1302
abbrev F.INSERT_COUNT : Nat := 0x1401
abbrev F.LOOP_FOLLOWING : Nat := 0x1801
abbrev F.LOOP_IMPLAUSIBLE : Nat := 0x1802
abbrev F.STRAND_OVERRUN : Nat := 0x1C01
abbrev F.STRAND_FAULT : Nat := 0x1C02
abbrev F.LANE_TRANSIENT : Nat := 0x2001
abbrev F.LANE_RETIRED : Nat := 0x2002
abbrev F.HUB_HOLD : Nat := 0x2003
abbrev F.MSG_FAIL : Nat := 0x2101
abbrev F.PERM_BYPASS_FAIL : Nat := 0x2102
abbrev F.ID_MISMATCH : Nat := 0x2401
abbrev F.TALLY_MISMATCH : Nat := 0x2501
abbrev F.TIME_UNLOCKED : Nat := 0x2801
abbrev F.ADC_PLAUSIBILITY : Nat := 0x3001
abbrev F.ADC_PATH_TEST : Nat := 0x3002
abbrev F.ADC_OVERRUN : Nat := 0x3003
abbrev F.DEC_STUCK : Nat := 0x3101
abbrev F.DEC_ALIGN : Nat := 0x3102
abbrev F.ENC_ILLEGAL : Nat := 0x3401
abbrev F.ENC_INDEX_MISMATCH : Nat := 0x3402
abbrev F.HOME_LIMIT : Nat := 0x3403
abbrev F.ENC_LIMIT : Nat := 0x3404
abbrev F.CHOP_SC : Nat := 0x3801
abbrev F.CHOP_DCLINK_SHORT : Nat := 0x3802
abbrev F.CHOP_TRIP_LATCHED : Nat := 0x3803
abbrev F.CHOP_UVLO : Nat := 0x3804
abbrev F.CHOP_SHOOT_BLOCKED : Nat := 0x3805
abbrev F.CHOP_DUTY_CLAMP : Nat := 0x3806
abbrev F.DC_OV : Nat := 0x3807
abbrev F.SAFE_DISCREPANCY : Nat := 0x4001
abbrev F.SAFE_TESTPULSE : Nat := 0x4002
abbrev F.SAFE_RESET_STUCK : Nat := 0x4003
abbrev F.CAPSTAN_SILENT : Nat := 0x4004
abbrev F.SAFE_FDC_OV : Nat := 0x4005
abbrev F.SAFE_FDC_OC : Nat := 0x4006
abbrev F.SAFE_FDC_STALE : Nat := 0x4007
abbrev F.SAFE_INTERNAL : Nat := 0x4008
abbrev F.SAFE_DEMAND : Nat := 0x4009
abbrev F.FLT_OVERFLOW : Nat := 0x4401
abbrev F.PEER_LOST : Nat := 0x4801
abbrev F.TAKEOVER_FAILED : Nat := 0x4802

/-- The fault table, part 1. -/
def fltTable1 : List FltDef :=
  [ ⟨F.HOST_SILENT, .grace, .blockConverter, 10000, false, .other, [(0, 0)]⟩,
    ⟨F.EPOCH_STRETCHED, .note, .none, 0, false, .other, [(0, 0)]⟩,
    ⟨F.PRED_RESIDUAL, .note, .none, 0, false, .arm, [(0, 5)]⟩,
    ⟨F.CELL_SUSPECT, .note, .none, 0, false, .cell, [(0, 3071)]⟩,
    ⟨F.CELL_RETIRED, .note, .none, 0, false, .cell, [(0, 3071)]⟩,
    ⟨F.TABLE_CRC, .grace, .blockArm, 5000, false, .arm, [(0, 5), (512, 527)]⟩,
    ⟨F.ARM_REDUNDANCY_LOST, .grace, .blockConverter, 50000, false, .arm, [(0, 5)]⟩,
    ⟨F.CELL_UVLO, .note, .none, 0, false, .cell, [(0, 3071)]⟩,
    ⟨F.CELL_SC, .note, .none, 0, false, .cell, [(0, 3071)]⟩,
    ⟨F.CELL_OV, .note, .none, 0, false, .cell, [(0, 3071)]⟩,
    ⟨F.CELL_CODE_ERR, .note, .none, 0, false, .cell, [(0, 3071)]⟩,
    ⟨F.CAP_SHORTFALL, .note, .none, 0, false, .arm, [(0, 5)]⟩,
    ⟨F.CAP_CLAMP, .note, .none, 0, false, .arm, [(0, 5)]⟩,
    ⟨F.BUDGET_STARVED, .note, .none, 0, false, .arm, [(0, 5)]⟩,
    ⟨F.CLEAT_FULL, .immediate, .blockArm, 0, true, .arm, [(0, 5)]⟩,
    ⟨F.CLEAT_LOW, .note, .none, 0, false, .other, [(0, 0)]⟩,
    ⟨F.INSERT_COUNT, .immediate, .belay, 0, true, .arm, [(0, 5)]⟩,
    ⟨F.LOOP_FOLLOWING, .grace, .blockConverter, 2000, false, .other, [(0, 15)]⟩,
    ⟨F.LOOP_IMPLAUSIBLE, .grace, .trip, 1000, false, .other, [(0, 15)]⟩,
    ⟨F.STRAND_OVERRUN, .grace, .blockArm, 5000, false, .arm, [(0, 5)]⟩,
    ⟨F.STRAND_FAULT, .note, .none, 0, false, .other, [(0, 7)]⟩,
    ⟨F.LANE_TRANSIENT, .note, .none, 0, false, .lane, [(0, 65)]⟩,
    ⟨F.LANE_RETIRED, .note, .none, 0, false, .lane, [(0, 65)]⟩,
    ⟨F.HUB_HOLD, .note, .none, 0, false, .lane, [(0, 63)]⟩,
    ⟨F.MSG_FAIL, .note, .none, 0, false, .lane, [(0, 63)]⟩,
    ⟨F.PERM_BYPASS_FAIL, .note, .none, 0, false, .cell, [(0, 3071)]⟩,
    ⟨F.ID_MISMATCH, .note, .none, 0, false, .cell, [(0, 3071), (4096, 4159)]⟩,
    ⟨F.TALLY_MISMATCH, .note, .none, 0, false, .other, [(0, 2)]⟩,
    ⟨F.TIME_UNLOCKED, .note, .none, 0, false, .other, [(0, 0)]⟩,
    ⟨F.ADC_PLAUSIBILITY, .grace, .blockConverter, 1000, false, .other, [(0, 3)]⟩ ]

/-- The fault table, part 2. -/
def fltTable2 : List FltDef :=
  [ ⟨F.ADC_PATH_TEST, .note, .none, 0, false, .other, [(0, 23)]⟩,
    ⟨F.ADC_OVERRUN, .note, .none, 0, false, .other, [(0, 1)]⟩,
    ⟨F.DEC_STUCK, .grace, .blockConverter, 100, false, .other, [(0, 15)]⟩,
    ⟨F.DEC_ALIGN, .note, .none, 0, false, .other, [(0, 15)]⟩,
    ⟨F.ENC_ILLEGAL, .grace, .blockConverter, 10000, false, .other, [(0, 1)]⟩,
    ⟨F.ENC_INDEX_MISMATCH, .grace, .blockConverter, 10000, false, .other, [(0, 1)]⟩,
    ⟨F.HOME_LIMIT, .note, .none, 0, false, .other, [(0, 1)]⟩,
    ⟨F.ENC_LIMIT, .grace, .blockConverter, 20000, false, .other, [(0, 1)]⟩,
    ⟨F.CHOP_SC, .immediate, .blockConverter, 0, false, .other, [(0, 3)]⟩,
    ⟨F.CHOP_DCLINK_SHORT, .immediate, .trip, 0, true, .other, [(0, 0)]⟩,
    ⟨F.CHOP_TRIP_LATCHED, .grace, .blockConverter, 5000, false, .other, [(0, 3)]⟩,
    ⟨F.CHOP_UVLO, .grace, .blockConverter, 10000, false, .other, [(0, 3)]⟩,
    ⟨F.CHOP_SHOOT_BLOCKED, .grace, .blockConverter, 1000, false, .other, [(0, 3)]⟩,
    ⟨F.CHOP_DUTY_CLAMP, .note, .none, 0, false, .other, [(0, 3)]⟩,
    ⟨F.DC_OV, .grace, .blockConverter, 1000, false, .other, [(0, 3)]⟩,
    ⟨F.SAFE_DISCREPANCY, .immediate, .belay, 0, true, .other, [(0, 7)]⟩,
    ⟨F.SAFE_TESTPULSE, .immediate, .belay, 0, true, .other, [(0, 7)]⟩,
    ⟨F.SAFE_RESET_STUCK, .note, .none, 0, true, .other, [(0, 0)]⟩,
    ⟨F.CAPSTAN_SILENT, .immediate, .trip, 0, true, .other, [(0, 0)]⟩,
    ⟨F.SAFE_FDC_OV, .immediate, .trip, 0, true, .other, [(0, 0)]⟩,
    ⟨F.SAFE_FDC_OC, .immediate, .trip, 0, true, .other, [(0, 0)]⟩,
    ⟨F.SAFE_FDC_STALE, .immediate, .trip, 0, true, .other, [(0, 23)]⟩,
    ⟨F.SAFE_INTERNAL, .immediate, .trip, 0, true, .other, [(0, 4)]⟩,
    ⟨F.SAFE_DEMAND, .immediate, .belay, 0, true, .other, [(0, 7)]⟩,
    ⟨F.FLT_OVERFLOW, .note, .none, 0, true, .other, [(0, 0)]⟩,
    ⟨F.PEER_LOST, .note, .none, 0, false, .other, [(0, 0)]⟩,
    ⟨F.TAKEOVER_FAILED, .immediate, .blockConverter, 0, false, .other, [(0, 0)]⟩ ]

/-- The fault table (R443). -/
def fltTable : List FltDef := fltTable1 ++ fltTable2

/-- The row of a code. -/
def fltDef? (code : Nat) : Option FltDef := fltTable.find? (fun d => d.code == code)

/-- Whether a code has an instance (R442). -/
def FltDef.hasInst (d : FltDef) (inst : Nat) : Bool := d.insts.any (fun p => p.1 ≤ inst && inst ≤ p.2)

/-- The reset word of `FLT_CFG` for a code (R440, R443). -/
def fltCfgReset (code : Nat) : Word :=
  match fltDef? code with
  | some d => BitVec.ofNat 32 (d.cls.code + 4 * d.react.code + 65536 * d.grace)
  | none => 0

/-- The class of a code in `FLT_CFG` (R440). -/
def FltClass.ofCode : Nat → FltClass
  | 0 => .note
  | 1 => .grace
  | _ => .immediate

/-- The reaction of a code in `FLT_CFG` (R440). -/
def React.ofCode : Nat → React
  | 0 => .none
  | 1 => .blockArm
  | 2 => .blockConverter
  | 3 => .trip
  | _ => .belay

end Sys2Proof.Machine
end

