-- ==== Sys2Proof/Machine/Wire.lean ====
section
/-! DEFINITION. What crosses a lane: the bits and the CRC of the frames (R7, R8, R259 to R263, R267, R268, R447 to R449),
line coding and delimiters (R235 to R237), alignment and loss of lock (R238, R239), test patterns (R241, R253). -/

namespace Sys2Proof.Machine

/-! ### Bit order and integrity (R7, R259) -/

/-- The `n` bytes of a field, the most significant first (R259). -/
def beBytes : Nat → Nat → List Nat
  | 0, _ => []
  | n + 1, w => (w >>> (8 * n)) % 256 :: beBytes n w

/-- The `n` bits of a field, the most significant first (R7). -/
def msbBits : Nat → Nat → List Bool
  | 0, _ => []
  | n + 1, w => bit w n :: msbBits n w

/-- The bits of bytes in transmission order: the first-sent bit of each group of eight is the most significant (R259). -/
def wireBits (l : List Nat) : List Bool := l.flatMap (msbBits 8)

/-- The number that bits spell, the first being the most significant. -/
def bitsNat (l : List Bool) : Nat := l.foldl (fun n b => 2 * n + b2n b) 0

/-- The CRC of a frame over the bytes before its CRC field (R259). -/
def frameCrc (l : List Nat) : Word := BitVec.ofNat 32 (crcBytes l)

/-! ### Downstream frames (R262, R263, R265) -/

/-- The code of a report divisor in the header (R263). -/
def divCode (d : Nat) : Nat := if d = 2 then 1 else if d = 4 then 2 else if d = 8 then 3 else 0

/-- The header of a downstream frame (R263). -/
def dsHeader (f : DsFrame) : Nat :=
  0xA5 * 2 ^ 56 + f.lane * 2 ^ 50 + f.cells * 2 ^ 44 + b2n f.takeover * 2 ^ 43 + b2n (f.port == 1) * 2 ^ 42
    + b2n (f.port == 2) * 2 ^ 41 + b2n f.blockAll * 2 ^ 40 + f.div * 2 ^ 38 + f.period

/-- The bytes of a downstream frame before its CRC (R262). -/
def dsBytes (f : DsFrame) : List Nat :=
  beBytes 8 (dsHeader f) ++ beBytes 4 f.markTime ++ beBytes 4 f.corr ++ f.words.flatMap (fun w => beBytes 2 w.toNat)
    ++ beBytes 4 f.msg.toNat

/-- A downstream frame with its CRC (R259). -/
def sealDs (f : DsFrame) : DsFrame := { f with crc := frameCrc (dsBytes f) }

/-- The bits of a downstream frame as they are sent (R259, R262). -/
def dsBits (f : DsFrame) : List Bool := wireBits (dsBytes f ++ beBytes 4 f.crc.toNat)

/-- A frame as it leaves the lane encoder while the belay injects or not (R265): BLOCK_ALL, every command word replaced
by 0x0000, the CRC recomputed; the time field and the messenger slot stay. -/
def injectDs (on : Bool) (f : DsFrame) : DsFrame :=
  sealDs { f with blockAll := on, words := if on then f.raw.map (fun _ => 0) else f.raw }

/-! ### Upstream frames (R267, R268) -/

/-- The header of an upstream frame (R268). -/
def usHeader (f : UpFrame) : Nat :=
  f.typ.toNat * 2 ^ 56 + f.laneField.toNat * 2 ^ 50 + f.cells.toNat * 2 ^ 44 + f.activePort.toNat * 2 ^ 42
    + f.hold.toNat * 2 ^ 39 + f.msgSeq.toNat * 2 ^ 36 + f.msgStatus.toNat * 2 ^ 34 + f.dsErr.toNat * 2 ^ 32 + f.mark.toNat

/-- The bytes of an upstream frame before its CRC (R267). -/
def usBytes (f : UpFrame) : List Nat :=
  beBytes 8 (usHeader f) ++ f.reports.flatMap (fun r => beBytes 6 r.toNat) ++ beBytes 4 f.msg.toNat

/-- The CRC an upstream frame must carry (R259). -/
def usCrc (f : UpFrame) : Word := frameCrc (usBytes f)

/-! ### Peer frames (R447 to R449) -/

/-- The peer header (R448): `typ` is 0x3C in a heartbeat and 0xC3 in a data frame. -/
def peerHeader (typ : Nat) (dig : Bool) (h : PeerHeader) : Nat :=
  typ * 2 ^ 56 + h.role.toNat * 2 ^ 54 + b2n h.yieldReq * 2 ^ 53 + b2n h.handover * 2 ^ 52 + b2n h.armed * 2 ^ 51
    + b2n h.belayNormal * 2 ^ 50 + b2n dig * 2 ^ 49 + h.period.toNat

/-- The CRC of a heartbeat (R447). -/
def hbCrc (h : PeerHeader) : Word := frameCrc (beBytes 8 (peerHeader 0x3C false h))

/-- Numbers packed from the least significant place on, `k` bits each. -/
def packLow (k : Nat) (l : List Nat) : Nat := l.foldr (fun x n => x + 2 ^ k * n) 0

/-- The ARMS field of a data frame (R449). -/
def armsField (f : PeerData) : Nat :=
  f.deb.toNat + 2 ^ 6 * f.sneg.toNat + 2 ^ 32 * packLow 2 (f.modes.map (fun m => m.toNat))

/-- The words of a generator's section, in the order of R449. -/
def trajWords (t : PeerTraj) : List Word := [t.pos, t.vel, t.acc, t.status, t.end_, t.vMax, t.aMax, t.jMax]

/-- The sections of a data frame between its time field and its digests (R449); a standby sends none. -/
def dataBytes (f : PeerData) : List Nat :=
  beBytes 8 (armsField f) ++ f.vref.flatMap (fun v => beBytes 2 v.toNat) ++ f.integ.flatMap (fun v => beBytes 2 v.toNat)
    ++ (f.traj.flatMap trajWords ++ f.cleat ++ f.activity).flatMap (fun w => beBytes 4 w.toNat)
    ++ wireBytes4 (f.excl.map (fun x => x.toNat))
where
  /-- Fields of 4 bits in order, two to a byte. -/
  wireBytes4 : List Nat → List Nat
    | a :: b :: l => (16 * a + b) :: wireBytes4 l
    | _ => []

/-- The CRC of a data frame (R447, R449). -/
def dataCrc (f : PeerData) : Word :=
  let dig := match f.digests with
    | some l => l
    | none => []
  frameCrc (beBytes 8 (peerHeader 0xC3 f.digests.isSome f.hdr) ++ beBytes 4 f.markTime.toNat ++ beBytes 4 f.corr.toNat
    ++ (if f.hdr.role = 1 then [] else dataBytes f) ++ dig.flatMap (fun w => beBytes 4 w.toNat))

/-! ### 8b/10b symbols (R235, R236)

The manual names the code and not its table; the table is the one in general use (PRESUMED, log entry 49). A symbol's
bit 9 is the one sent first. -/

/-- The 6-bit code of the low five bits after a negative running disparity. -/
def code6 (x : Nat) : Nat :=
  [ 0b100111, 0b011101, 0b101101, 0b110001, 0b110101, 0b101001, 0b011001, 0b111000,
    0b111001, 0b100101, 0b010101, 0b110100, 0b001101, 0b101100, 0b011100, 0b010111,
    0b011011, 0b100011, 0b010011, 0b110010, 0b001011, 0b101010, 0b011010, 0b111010,
    0b110011, 0b100110, 0b010110, 0b110110, 0b001110, 0b101110, 0b011110, 0b101011 ].getD x 0

/-- The 4-bit code of the high three bits after a negative running disparity; 8 stands for the alternate code of 7. -/
def code4 (y : Nat) : Nat :=
  [0b1011, 0b1001, 0b0101, 0b1100, 0b1101, 0b1010, 0b0110, 0b1110, 0b0111].getD y 0

/-- The 4-bit codes of the control characters K28.y after a negative running disparity. -/
def codeK28 (y : Nat) : Nat := [0b0100, 0b1001, 0b0101, 0b0011, 0b0010, 0b1010, 0b0110, 0b1000].getD y 0

/-- The ones among the low `n` bits of a number. -/
def onesOf (n w : Nat) : Nat := ((List.range n).filter (fun i => bit w i)).length

/-- The 6-bit part of a data symbol; `rd` tells a positive running disparity. -/
def sub6 (rd : Bool) (x : Nat) : Nat :=
  let c := code6 x
  if rd && (onesOf 6 c != 3 || x == 7) then 63 - c else c

/-- The running disparity after a part of `n` bits. -/
def rdAfter (rd : Bool) (n c : Nat) : Bool := if 2 * onesOf n c = n then rd else decide (n < 2 * onesOf n c)

/-- The 4-bit part of a data symbol after its 6-bit part. -/
def sub4 (rd : Bool) (x y : Nat) : Nat :=
  let alt := y == 7 && (if rd then x == 11 || x == 13 || x == 14 else x == 17 || x == 18 || x == 20)
  let c := code4 (if alt then 8 else y)
  if rd && (onesOf 4 c != 2 || y == 3) then 15 - c else c

/-- A data symbol D of a byte. -/
def symD (rd : Bool) (b : Nat) : Nat :=
  let c6 := sub6 rd (b % 32)
  16 * c6 + sub4 (rdAfter rd 6 c6) (b % 32) (b / 32 % 8)

/-- The control bytes of the code: K28.0 to K28.7, K23.7, K27.7, K29.7, K30.7. -/
def kBytes : List Nat := (List.range 8).map (fun y => 32 * y + 28) ++ [0xF7, 0xFB, 0xFD, 0xFE]

/-- A control symbol K of a byte. -/
def symK (rd : Bool) (b : Nat) : Nat :=
  let c := if b % 32 = 28 then 16 * 0b001111 + codeK28 (b / 32 % 8) else 16 * code6 (b % 32) + 0b1000
  if rd then 1023 - c else c

/-- A character of the code: a control or a data byte. -/
structure Sym where
  k : Bool
  b : Nat
  deriving DecidableEq, Repr

/-- The symbol of a character. -/
def symOf (rd : Bool) (c : Sym) : Nat := if c.k then symK rd c.b else symD rd c.b

/-- The symbols of characters one after the other. -/
def symbols : Bool → List Sym → List Nat
  | _, [] => []
  | rd, c :: l => symOf rd c :: symbols (rdAfter rd 10 (symOf rd c)) l

/-- A control character. -/
abbrev symCtl (b : Nat) : Sym := ⟨true, b⟩
/-- A data character. -/
abbrev symDat (b : Nat) : Sym := ⟨false, b⟩

/-- The idle pair K28.5 D16.2 (R236). -/
def idlePair : List Sym := [symCtl 0xBC, symDat 0x50]

/-- The pair K28.5 D21.5 of DETECT (R241). -/
def detectPair : List Sym := [symCtl 0xBC, symDat 0xB5]

/-- A frame on a G1 or G2 lane: K28.5 K27.7, its bytes, K29.7 after its CRC (R236). -/
def frameSyms (bytes : List Nat) : List Sym := [symCtl 0xBC, symCtl 0xFB] ++ bytes.map symDat ++ [symCtl 0xFD]

/-- Whether a symbol is a symbol of the code after a running disparity (R238): not, it is a code violation or a
running-disparity error. -/
def symValid (rd : Bool) (c : Nat) : Bool :=
  kBytes.any (fun b => symK rd b == c)
    || (List.range 32).any (fun x => sub6 rd x == c / 16
        && (List.range 8).any (fun y => sub4 (rdAfter rd 6 (c / 16)) x y == c % 16))

/-- Whether a symbol is a comma, K28.5 (R238). -/
def isComma (c : Nat) : Bool := c == symK false 0xBC || c == symK true 0xBC

/-! ### 64b/66b blocks (R235, R236) -/

/-- A block: its sync header and its 64 payload bits. -/
structure Block where
  sync : BitVec 2
  bits : List Bool
  deriving DecidableEq, Repr

/-- A control block of a type (R236). The manual states nothing of the bits after the block type: they are free. -/
def ctlBlock (typ : Nat) : Block := ⟨0b10, msbBits 8 typ ++ msbBits 56 (Config.blockFill typ)⟩

/-- The idle block (R236). -/
def idleBlock : Block := ctlBlock 0x1E

/-- Data blocks of a frame's bits, the last one padded with 0 bits (R236). -/
def dataBlocks : Nat → List Bool → List Block
  | 0, _ => []
  | _ + 1, [] => []
  | n + 1, l => ⟨0b01, l.take 64 ++ List.replicate (64 - l.length) false⟩ :: dataBlocks n (l.drop 64)

/-- A frame on a G3 lane: a control block of type 0x78, then its bits in data blocks (R236). -/
def frameBlocks (bits : List Bool) : List Block := ctlBlock 0x78 :: dataBlocks bits.length bits

/-- The self-synchronous scrambler x^58 + x^39 + 1 (R235): the register holds the last 58 bits sent, the last one in
bit 0. -/
def scramble : Nat → List Bool → List Bool × Nat
  | r, [] => ([], r)
  | r, b :: l =>
    let x := b ^^ (bit r 38 ^^ bit r 57)
    let q := scramble ((2 * r + b2n x) % 2 ^ 58) l
    (x :: q.1, q.2)

/-- The descrambler of the same polynomial: its register holds the last 58 bits received. -/
def descramble : Nat → List Bool → List Bool
  | _, [] => []
  | r, x :: l => (x ^^ (bit r 38 ^^ bit r 57)) :: descramble ((2 * r + b2n x) % 2 ^ 58) l

/-- Line bits of blocks: the scrambler covers the payload and never the sync header (R236). -/
def blockLine : Nat → List Block → List Bool
  | _, [] => []
  | r, b :: l => msbBits 2 b.sync.toNat ++ (scramble r b.bits).1 ++ blockLine (scramble r b.bits).2 l

/-- The line bits of a frame at a generation (R235, R236), from the running disparity or the scrambler's register before
it. -/
def frameLine (gen : Nat) (rd : Bool) (r : Nat) (f : DsFrame) : List Bool :=
  if gen = 3 then blockLine r (frameBlocks (dsBits f))
  else (symbols rd (frameSyms (dsBytes f ++ beBytes 4 f.crc.toNat))).flatMap (msbBits 10)

/-! ### Rates (R235, R237) -/

/-- Payload bits per tick (R80, R235). -/
def genRate (gen : Nat) : Rat := if gen = 1 then 5 else if gen = 2 then 25 / 2 else 50

/-- Line bits per tick (R235). -/
def lineRate (gen : Nat) : Rat := if gen = 3 then genRate gen * 66 / 64 else genRate gen * 10 / 8

/-- Ticks the start delimiter or the start block takes before the first header bit (R237). -/
def leadTicks (gen : Nat) : Rat := if gen = 3 then 66 / lineRate gen else 20 / lineRate gen

/-- Ticks the end delimiter, or the padding of the last block of a frame of `n` bits, takes after the frame (R237). -/
def tailTicks (gen n : Nat) : Rat :=
  if gen = 3 then (((64 - n % 64) % 64 : Nat) : Rat) / genRate gen else 10 / lineRate gen

/-! ### Alignment and loss of lock (R238, R239) -/

/-- Whether 4 commas come with no invalid symbol between them, `n` having come (R238). -/
def commaRun : Nat → Bool → List (BitVec 10) → Bool
  | n, _, [] => decide (4 ≤ n)
  | n, rd, c :: l =>
    if 4 ≤ n then true
    else commaRun (if !symValid rd c.toNat then 0 else if isComma c.toNat then n + 1 else n) (rdAfter rd 10 c.toNat) l

/-- Whether 64 valid headers come in a row, `n` having come (R238). -/
def headerRun : Nat → List (BitVec 2) → Bool
  | n, [] => decide (64 ≤ n)
  | n, h :: l => if 64 ≤ n then true else headerRun (if h = 0b01 ∨ h = 0b10 then n + 1 else 0) l

/-- The validity of symbols one after the other (R238). -/
def symsValid : Bool → List (BitVec 10) → List Bool
  | _, [] => []
  | rd, c :: l => symValid rd c.toNat :: symsValid (rdAfter rd 10 c.toNat) l

/-- Whether what a receiver sees at one position fits the coding of a generation (R235). -/
def rxFits (gen : Nat) : Rx → Bool
  | .symbols _ => gen != 3
  | .headers _ => gen == 3

/-- Whether a receiver is aligned by what it has seen (R238); the running disparity before the first symbol is either. -/
def rxAligned : Rx → Bool
  | .symbols l => commaRun 0 false l || commaRun 0 true l
  | .headers l => headerRun 0 l

/-- The invalid ones among the last 64 of a list of verdicts. -/
def badOf64 (l : List Bool) : Nat := ((l.drop (l.length - 64)).filter (fun v => !v)).length

/-- Whether a receiver loses lock by what it has seen (R239): 16 of the last 64 symbols or headers are invalid. -/
def rxLost : Rx → Bool
  | .symbols l => decide (16 ≤ badOf64 (symsValid false l)) && decide (16 ≤ badOf64 (symsValid true l))
  | .headers l => decide (16 ≤ badOf64 (l.map (fun h => h == 0b01 || h == 0b10)))

/-! ### Test patterns (R241, R253) -/

/-- `k` bits of the pattern x^n + x^m + 1 from a register of `n` bits, and the register after them. -/
def prbs (n m : Nat) : Nat → Nat → List Bool × Nat
  | 0, r => ([], r)
  | k + 1, r =>
    let x := bit r (n - 1) ^^ bit r (m - 1)
    let q := prbs n m k ((2 * r + b2n x) % 2 ^ n)
    (x :: q.1, q.2)

/-- The training pattern PRBS-7 (R241): x^7 + x^6 + 1 (PRESUMED, log entry 49). -/
def prbs7 (k r : Nat) : List Bool × Nat := prbs 7 6 k r

/-- The loops' PRBS-31, x^31 + x^28 + 1 (R253). -/
def prbs31 (k r : Nat) : List Bool × Nat := prbs 31 28 k r

/-- A test frame (R253): the header of a downstream frame, PRBS-31 in every field between header and CRC, a correct
CRC. The second result is the pattern's register after it. -/
def testFrame (lane cells port div period r : Nat) : DsFrame × Nat :=
  let q := prbs31 (64 + 16 * cells + 32) r
  let b := q.1
  let ws := (List.range cells).map (fun i => BitVec.ofNat 32 (bitsNat ((b.drop (64 + 16 * i)).take 16)))
  (sealDs { period := period, takeover := false, port := port, blockAll := false, div := div
            markTime := bitsNat (b.take 32), corr := bitsNat ((b.drop 32).take 32), words := ws
            msg := BitVec.ofNat 32 (bitsNat (b.drop (64 + 16 * cells))), lane := lane, cells := cells, raw := ws
            depart := 0, crc := 0 }, q.2)

end Sys2Proof.Machine
end

