-- ==== Sys2Proof/Machine/Ops.lean ====
section
/-! DEFINITION. The named operations over the state that every meaning uses: parameter words, counters, time, interrupt
causes, and access to arms, cells, lanes and the other numbered collections. -/

namespace Sys2Proof.Machine

/-! ### Parameter words -/

/-- The key of a parameter word: ID and target, which has 16 bits (R10, R11). -/
def pkey (id t : Nat) : Nat := id * 65536 + t % 65536

/-- The reset word of a key: the parameter's, for `FLT_CFG` the fault table's (R16, R443). -/
def presetOf (key : Nat) : Word :=
  if key / 65536 = P.FLT_CFG then fltCfgReset (key % 65536)
  else match paramHigh? (key / 65536) with
    | some d => BitVec.ofInt 32 (d.reset / 4294967296)
    | none => paramReset (key / 65536)

/-- The word held for a parameter and target. -/
def getP (s : State) (id t : Nat) : Word := tabGet (presetOf (pkey id t)) s.params (pkey id t)

/-- The same as a natural number. -/
def getN (s : State) (id t : Nat) : Nat := (getP s id t).toNat

/-- The same as a signed integer (R519). -/
def getI (s : State) (id t : Nat) : Int := (getP s id t).toInt

/-- Write the word of a parameter and target. -/
def putP (s : State) (id t : Nat) (w : Word) : State :=
  { s with params := tabSet (presetOf (pkey id t)) s.params (pkey id t) w }

/-- Write a natural number. -/
def putN (s : State) (id t n : Nat) : State := putP s id t (BitVec.ofNat 32 n)

/-- Write a signed integer (R519). -/
def putI (s : State) (id t : Nat) (x : Int) : State := putP s id t (BitVec.ofInt 32 x)

/-- Set bits of a flag word (R518). -/
def orP (s : State) (id t m : Nat) : State := putN s id t (getN s id t ||| m)

/-- Write a 64-bit value into its two IDs (R15). -/
def put64 (s : State) (id t : Nat) (lo hi : Word) : State := putP (putP s id t lo) (id + 1) t hi

/-- Add to a counter of 32 bits. Past 0xFFFFFFFF the manual states no value: a free word is held (log entry 4). -/
def addP (s : State) (id t n : Nat) : State :=
  if getN s id t + n < 4294967296 then putN s id t (getN s id t + n)
  else putP { s with freeCtr := s.freeCtr + 1 } id t (Config.freeWord s.freeCtr)

/-- Count one event. -/
def incP (s : State) (id t : Nat) : State := addP s id t 1

/-- Keep a high-water mark. -/
def maxP (s : State) (id t n : Nat) : State := if getN s id t < n then putN s id t n else s

/-- Forget every word of a block (R481): its parameters take their reset values. -/
def resetBlock (s : State) (keep : Nat → Bool) : State :=
  { s with params := tabFilter (fun k _ => keep (k / 65536)) s.params }

/-! ### Time -/

/-- Units of device time in a nanosecond (R317). -/
def nsUnit : Nat := 2 ^ 40

/-- Units of device time in a second. -/
def secUnit : Nat := 1000000000 * 2 ^ 40

/-- Units added to device time in one tick (R317). -/
def tickUnits (s : State) : Nat := (5 * ((nsUnit : Int) + s.time.rate)).toNat

/-- Seconds of device time. -/
def devSec (s : State) : Nat := s.time.dev / secUnit

/-- Nanoseconds of device time. -/
def devNs (s : State) : Nat := s.time.dev % secUnit / nsUnit

/-- Seconds and nanoseconds of device time `back` ticks ago (R365), by the course that device time took: the newest
record at or before that tick and the units added per tick from it on. -/
def devBack (s : State) (back : Nat) : Nat × Nat :=
  let d := match s.time.hist.find? (fun e => decide (e.1 + back ≤ s.tick)) with
    | some e => e.2.1 + (s.tick - back - e.1) * e.2.2
    | none => s.time.dev - back * tickUnits s
  (d / secUnit, d % secUnit / nsUnit)

/-- Cell time in whole nanoseconds modulo 2^32 (R323, R324). -/
def cellNs (s : State) : Nat := s.time.cell / nsUnit % 4294967296

/-- Whether the core clock runs: the core PLL is locked (R489, R490). -/
def clockOn (s : State) : Bool := s.pwr.corePll

/-- The event code of a trace entry (R228). -/
def traceCode (e : Word × Word) : Nat := field e.2.toNat 22 19

/-- One entry that has waited for its tick joins the trace ring (R215, R227). -/
def traceStart (x : StrSt) (e : Nat × Word × Word) : StrSt :=
  { x with
    trace := tabSet (0, 0) x.trace x.traceNext e.2, traceNext := (x.traceNext + 1) % 4096
    traceWrap := x.traceWrap || decide (x.traceNext = 4095)
    traceTick := e.1, traceN := (if x.traceTick = e.1 then x.traceN else 0) + 1 }

/-- The trace once time has come to `t`: the entries due by then are written in the order of their ticks and event
codes, where their events are recorded (R227, R231). -/
def traceDueTo (s : State) (t : Nat) : StrSt :=
  if s.str.traceDue.isEmpty then s.str
  else
    let x := { s.str with traceDue := s.str.traceDue.filter (fun e => decide (t < e.1)) }
    if s.str.traceFrz || !bit (getN s P.STR_TRACE_CTRL 0) 0 then x
    else
      (sortBy (fun (a b : Nat × Word × Word) => a.1 < b.1 || (a.1 == b.1 && decide (traceCode a.2 ≤ traceCode b.2)))
        (s.str.traceDue.filter (fun e => decide (e.1 ≤ t) && bit (getN s P.STR_TRACE_MASK 0) (traceCode e.2)))).foldl
        traceStart x

/-- Whether a step of device time acts in the next tick (R321). -/
def stepWaits (t : TimeSt) : Bool := t.stepTo.isSome || t.stepBy != 0

/-- Device time in the next tick (R317, R321): a step sets it or adds to it. Outside the 48-bit seconds field the manual
states no time: a free one is held (log entry 5). -/
def nextDev (s : State) : Nat :=
  let d : Int := (s.time.stepTo.getD (s.time.dev + tickUnits s) : Nat) + s.time.stepBy
  if 0 ≤ d ∧ d < 2 ^ 48 * (secUnit : Int) then d.toNat
  else
    let w := fun (i : Nat) => (Config.freeWord (s.time.stepFree + i)).toNat
    (w 0 + 4294967296 * (w 1 % 65536)) * secUnit + w 2 % 1000000000 * nsUnit

/-- The course of device time, newest first: a record of tick, device time and units per tick where the rate changes or
a step acts. What lies before the longest debounce is dropped. -/
def devCourse (s : State) : List (Nat × Nat × Nat) :=
  let u := if clockOn s then tickUnits s else 0
  let l := s.time.hist
  let l := if l.head?.map (fun e => e.2.2) = some u then l else (s.tick, s.time.dev, u) :: l
  let l := if clockOn s && stepWaits s.time then (s.tick + 1, nextDev s, u) :: l else l
  let k := l.takeWhile (fun e => decide (s.tick < e.1 + 10000000))
  k ++ (l.drop k.length).take 1

/-- The clock after `n` ticks, at least one (R317, R321, R323): cell time ignores steps. -/
def clockAfter (s : State) (n : Nat) : TimeSt :=
  let u := n * tickUnits s
  if stepWaits s.time then
    { s.time with dev := nextDev s + (n - 1) * tickUnits s, cell := s.time.cell + u, stepTo := none, stepBy := 0 }
  else { s.time with dev := s.time.dev + u, cell := s.time.cell + u }

/-! ### A chopper leg between its events (R378, R381, R396) -/

/-- An edge of either output at a tick starts the blanking window (R384). -/
def legEdge (u : Nat) (l : Leg) : Leg := { l with blankTo := u + l.blank }

/-- `CHn_GH` turns off at a tick. -/
def legGhOff (u : Nat) (l : Leg) : Leg :=
  let l := { l with ghInt := false }
  if l.gh then legEdge u { l with gh := false, ghOff := u + 2 } else l

/-- `CHn_GL` turns off at a tick. -/
def legGlOff (u : Nat) (l : Leg) : Leg := if l.gl then legEdge u { l with gl := false, glOff := u + 2 } else l

/-- Both outputs turn off at a tick, a delayed turn-on being dropped. -/
def legBothOff (u : Nat) (l : Leg) : Leg := { legGlOff u (legGhOff u l) with forceAt := none }

/-- Mode 0 takes effect at a tick (R378, R390): the comparator no longer works (R386). A LATCHED leg stays so (R391). -/
def legStop (u : Nat) (l : Leg) : Leg :=
  let l := { legBothOff u l with mode := 0, cmp := false, conf := false, hystNew := false }
  if l.st = .latched then l
  else { l with st := .off, running := false, waitMark := false, tripped := false, clamped := false, ghInt := false }

/-- What `CHOP_FORCE` commands, at a tick (R381): the other output turns off at once, the turn-on follows DT ticks later;
with both off it is due at once. -/
def legForce (u force : Nat) (l : Leg) : Leg :=
  if l.mode ≠ 4 ∨ l.st ≠ .running ∨ l.tripped then l
  else
    match force with
    | 1 =>
      if l.gh then { l with forceAt := none }
      else if l.gl then { legGlOff u l with forceAt := some (u + l.dt, 1) }
      else { l with forceAt := some ((l.forceAt.map (fun f => f.1)).getD u, 1) }
    | 2 =>
      if l.gl then { l with forceAt := none }
      else if l.gh then { legGhOff u l with forceAt := some (u + l.dt, 2) }
      else { l with forceAt := some ((l.forceAt.map (fun f => f.1)).getD u, 2) }
    | _ => legBothOff u l

/-- A write of mode 0 or of `CHOP_FORCE` takes effect once its tick has come. -/
def legDue (t force : Nat) (l : Leg) : Leg :=
  match l.dueAt with
  | some (u, off) =>
    if t < u then l
    else if off then legStop u { l with dueAt := none }
    else legForce u force { l with dueAt := none }
  | none => l

/-- The legs once time has passed up to a tick. -/
def legsDue (s : State) (t : Nat) : ChopSt :=
  if s.chop.legs.all (fun p => p.2.dueAt.isNone) then s.chop
  else { s.chop with legs := tabMap Leg.empty (fun n l => legDue t (getN s P.CHOP_FORCE n) l) s.chop.legs }

/-- Whether an entry of F_CHOP_SC or F_CHOP_DCLINK_SHORT loses its cause as legs go OFF (R386, R395). -/
def cmpEnds (old new : ChopSt) (e : FltEntry) : Bool :=
  let on := fun (c : ChopSt) (n : Nat) => (tabGet Leg.empty c.legs n).cmp
  let any := fun (c : ChopSt) => (List.range 4).any (on c)
  (e.code == 0x3801 && on old e.inst && !on new e.inst) || (e.code == 0x3802 && any old && !any new)

/-- Entries in use (R435). -/
def fltUsed (es : Tab FltEntry) : Nat := (es.filter (fun p => p.2.st != .free)).length

/-- The overflow's cause is gone once at most 254 entries are in use (R426, R443); a NOTED entry may then be freed
(R432). -/
def fltSettled (auto : Bool) (es : Tab FltEntry) : Tab FltEntry :=
  let o := tabGet FltEntry.empty es 255
  if fltUsed es ≤ 254 && o.st != .free && o.cause then
    tabSet FltEntry.empty es 255 (if auto && o.st == .noted then FltEntry.empty else { o with cause := false })
  else es

/-- Let time pass up to a tick: device time and cell time advance, a cause that lasts one tick is gone (R57, R442),
and START entries that are due are written. A tick that has passed changes nothing. -/
def advanceTo (s : State) (t : Nat) : State :=
  if t ≤ s.tick then s
  else
    let time := { (if clockOn s then clockAfter s (t - s.tick) else s.time) with hist := devCourse s }
    let chop := legsDue s t
    let es := tabMap FltEntry.empty (fun _ e =>
      let gone := e.oneTick || cmpEnds s.chop chop e
      if gone && e.st == .noted && bit (getN s P.FLT_CTRL 0) 0 then FltEntry.empty
      else if gone then
        { e with oneTick := false, cause := false,
                 st := if e.st = .grace && e.ack then .defused else e.st }
      else e) s.flt.entries
    { s with tick := t, time := time, flt := { s.flt with entries := fltSettled (bit (getN s P.FLT_CTRL 0) 0) es }, str := traceDueTo s t
             chop := chop }

/-! ### Interrupt causes -/

/-- Whether the SPI port is on: from LISTEN on (R66, R481). -/
def spiOn (s : State) : Bool := !s.pwr.held && s.pwr.state != .dormant && bit s.pwr.domains.toNat 2

/-- Whether the PCIe endpoint is on: in READY and RUN (R66, R481). -/
def pcieOn (s : State) : Bool := spiOn s && (s.pwr.state == .ready || s.pwr.state == .run)

/-- A word of the MSI-X table (R27): its reset is that of PCI Express, every vector masked (log entry 41). -/
def msixWord (h : HostSt) (i : Nat) : Word := tabGet (BitVec.ofNat 32 (b2n (i % 4 == 3))) h.msix i

/-- Whether the MSI-X table masks a vector. -/
def msixMasked (h : HostSt) (v : Nat) : Bool := bit (msixWord h (4 * v + 3)).toNat 0

/-- The message of a vector leaves, or its pending bit is set where MSI-X is enabled and the vector is masked. -/
def msiVector (h : HostSt) (v : Nat) : HostSt :=
  if h.msixOn && msixMasked h v then { h with pba := h.pba ||| 2 ^ v }
  else { h with msiSent := tabUpd 0 h.msiSent v (· + 1) }

/-- Send the message of a cause (R68): on its own vector of MSI-X, on vector c mod N of MSI. -/
def msiSend (s : State) (b : Nat) : State :=
  { s with host := msiVector s.host (if s.host.msixOn then b else b % s.host.msiVecs) }

/-- Set a bit of `HOST_IRQ_CAUSE` (R67). A cause that goes from 0 to 1 while enabled is sent as a message (R68). -/
def irqSet (s : State) (b : Nat) : State :=
  if bit (getN s P.HOST_IRQ_CAUSE 0) b then s
  else
    let s := orP s P.HOST_IRQ_CAUSE 0 (2 ^ b)
    if decide (b < 4) && pcieOn s && bit (getN s P.HOST_MSI_ENABLE 0) b then msiSend s b else s

/-- Set a bit of `TIME_EVENT`, which also sets the TIME cause (R322). -/
def timeEvent (s : State) (b : Nat) : State := irqSet (orP s P.TIME_EVENT 0 (2 ^ b)) 3

/-! ### Numbered collections -/

/-- An arm. -/
def armOf (s : State) (a : Nat) : Arm := tabGet Arm.empty s.arms a

/-- Change an arm. -/
def updArm (s : State) (a : Nat) (f : Arm → Arm) : State := { s with arms := tabUpd Arm.empty s.arms a f }

/-- A cell by its global index (R4). -/
def cellOf (s : State) (c : Nat) : Cell := tabGet Cell.empty s.cells c

/-- Change a cell. -/
def updCell (s : State) (c : Nat) (f : Cell → Cell) : State := { s with cells := tabUpd Cell.empty s.cells c f }

/-- A lane. -/
def laneOf (s : State) (l : Nat) : Lane := tabGet Lane.empty s.lanes l

/-- Change a lane. -/
def updLane (s : State) (l : Nat) (f : Lane → Lane) : State := { s with lanes := tabUpd Lane.empty s.lanes l f }

/-- A cleat entry. -/
def cleatOf (s : State) (e : Nat) : CleatEntry := tabGet CleatEntry.empty s.cleat.entries e

/-- Change a cleat entry. -/
def updCleat (s : State) (e : Nat) (f : CleatEntry → CleatEntry) : State :=
  { s with cleat := { s.cleat with entries := tabUpd CleatEntry.empty s.cleat.entries e f } }

/-- A loop slot. -/
def slotOf (s : State) (n : Nat) : LoopSlot := tabGet LoopSlot.empty s.loops.slots n

/-- Change a loop slot. -/
def updSlot (s : State) (n : Nat) (f : LoopSlot → LoopSlot) : State :=
  { s with loops := { s.loops with slots := tabUpd LoopSlot.empty s.loops.slots n f } }

/-- A trajectory generator. -/
def genOf (s : State) (n : Nat) : TrajGen := tabGet TrajGen.empty s.loops.gens n

/-- Change a trajectory generator. -/
def updGen (s : State) (n : Nat) (f : TrajGen → TrajGen) : State :=
  { s with loops := { s.loops with gens := tabUpd TrajGen.empty s.loops.gens n f } }

/-- An encoder axis. -/
def encOf (s : State) (n : Nat) : EncAxis := tabGet EncAxis.empty s.encs n

/-- Change an encoder axis. -/
def updEnc (s : State) (n : Nat) (f : EncAxis → EncAxis) : State := { s with encs := tabUpd EncAxis.empty s.encs n f }

/-- A chopper leg. -/
def legOf (s : State) (n : Nat) : Leg := tabGet Leg.empty s.chop.legs n

/-- Change a chopper leg. -/
def updLeg (s : State) (n : Nat) (f : Leg → Leg) : State :=
  { s with chop := { s.chop with legs := tabUpd Leg.empty s.chop.legs n f } }

/-- A converter of the measurement block. -/
def adcOf (s : State) (n : Nat) : Adc := tabGet Adc.empty s.meas.adcs n

/-- Change a converter. -/
def updAdc (s : State) (n : Nat) (f : Adc → Adc) : State :=
  { s with meas := { s.meas with adcs := tabUpd Adc.empty s.meas.adcs n f } }

/-- A decimator channel. -/
def decOf (s : State) (n : Nat) : DecChan := tabGet DecChan.empty s.meas.dec n

/-- Change a decimator channel. -/
def updDec (s : State) (n : Nat) (f : DecChan → DecChan) : State :=
  { s with meas := { s.meas with dec := tabUpd DecChan.empty s.meas.dec n f } }

/-- A safety input of the belay. -/
def siOf (s : State) (n : Nat) : SafetyInput := tabGet SafetyInput.empty s.belay.inputs n

/-- Change a safety input. -/
def updSi (s : State) (n : Nat) (f : SafetyInput → SafetyInput) : State :=
  { s with belay := { s.belay with inputs := tabUpd SafetyInput.empty s.belay.inputs n f } }

/-- A trigger-bus line. -/
def lineOf (s : State) (n : Nat) : TbusLine := tabGet TbusLine.empty s.tbus n

/-- Change a trigger-bus line. -/
def updLine (s : State) (n : Nat) (f : TbusLine → TbusLine) : State :=
  { s with tbus := tabUpd TbusLine.empty s.tbus n f }

/-- A strand. -/
def strandOf (s : State) (n : Nat) : Strand := tabGet Strand.empty s.str.strands n

/-- Change a strand. -/
def updStrand (s : State) (n : Nat) (f : Strand → Strand) : State :=
  { s with str := { s.str with strands := tabUpd Strand.empty s.str.strands n f } }

/-- A task slot; class 16 marks the FREE slot. -/
def taskOf (s : State) (n : Nat) : Task := tabGet Task.empty s.str.slots n

/-- Change a task slot. -/
def updTask (s : State) (n : Nat) (f : Task → Task) : State :=
  { s with str := { s.str with slots := tabUpd Task.empty s.str.slots n f } }

/-- A word of a table written by the host or kept as a result. -/
def tableWord (s : State) (num i : Nat) : Word := tabGet 0 s.tables (num * 65536 + i)

/-- Words of a table from an offset on. -/
def tableWords (s : State) (num i n : Nat) : List Word := (List.range n).map (fun j => tableWord s num (i + j))

/-- Write words of a table. -/
def putTable (s : State) (num i : Nat) (ws : List Word) : State :=
  { s with tables := tabRun 0 s.tables (num * 65536 + i) ws }

/-! ### Arms -/

/-- The six arms. -/
def armList : List Nat := List.range 6

/-- A mask from a predicate over the arms. -/
def armMask (p : Nat → Bool) : Nat := sumNat (armList.map (fun a => if p a then 2 ^ a else 0))

/-- The mask of deblocked arms (R47). -/
def debMask (s : State) : Nat := armMask (fun a => (armOf s a).deblocked)

/-- Whether some arm is deblocked. -/
def anyDeb (s : State) : Bool := debMask s != 0

/-- Block the arms of a mask (R148): the first blocked period is the one after the next mark's. From the
interpretation on an arm counts as blocked in every check of deblocked arms, though its last deblocked period is still
to come (DESIGN CHOICE, log entry 42). -/
def blockArms (s : State) (mask : Nat) : State :=
  armList.foldl (fun s a =>
    if bit mask a && (armOf s a).deblocked then
      updArm s a (fun x => { x with deblocked := false, blockFrom := s.per.count + 2 })
    else s) s

/-- Whether an arm is deblocked in a period, as commanded so far (R148, R149). -/
def inDeb (x : Arm) (p : Nat) : Bool := decide (x.firstDeb ≤ p) && (x.deblocked || decide (p < x.blockFrom))

/-- Listed placed cells. -/
def placedCells (s : State) : List (Nat × Cell) := s.cells.filter (fun p => p.2.placed)

/-- Placed cells of an arm. -/
def armCells (s : State) (a : Nat) : List (Nat × Cell) := s.cells.filter (fun p => p.2.placed && p.2.arm == a)

/-- The lane of a cell (R4). -/
def laneOfCell (c : Nat) : Nat := c / 48

/-- Whether a lane is ACTIVE. -/
def laneActive (s : State) (l : Nat) : Bool := (laneOf s l).st == .active

/-- The mask of arms that hold a placed cell of a lane (R425). -/
def laneArms (s : State) (l : Nat) : Nat :=
  armMask (fun a => (armCells s a).any (fun p => laneOfCell p.1 == l))

/-! ### The redundancy ledger (R170) -/

/-- `ARM_INSTALLED`. -/
def armInstalled (s : State) (a : Nat) : Nat := (armCells s a).length

/-- `ARM_RETIRED`. -/
def armRetired (s : State) (a : Nat) : Nat := ((armCells s a).filter (fun p => p.2.retired)).length

/-- `ARM_UNAVAIL`: cells not retired on lanes that are not ACTIVE. -/
def armUnavail (s : State) (a : Nat) : Nat :=
  ((armCells s a).filter (fun p => !p.2.retired && !laneActive s (laneOfCell p.1))).length

/-- `ARM_MAINT`: costs declared by admitted and ending activities. -/
def armMaint (s : State) (a : Nat) : Nat :=
  sumNat (s.cleat.acts.map (fun p => p.2.costs.getD a 0))

/-- `ARM_LEDGER` (R170). -/
def armLedger (s : State) (a : Nat) : Int :=
  (armInstalled s a : Int) - getN s P.ARM_CELLS_REQUIRED a - armRetired s a - armUnavail s a - armMaint s a

/-! ### The cleat (R161, R162) -/

/-- The 32 entries in order. -/
def cleatList (s : State) : List CleatEntry := (List.range 32).map (cleatOf s)

/-- Size of the maintenance partition (R162). -/
def maintSize (s : State) : Nat := getN s P.CLT_MAINT_RESERVE 0

/-- Entries an activity holds (R162): maintenance entries held for it. -/
def actHeld (s : State) (id : Nat) : Nat :=
  ((cleatList s).filter (fun e => e.st == .held && !e.fault && e.act == id)).length

/-- Reserved maintenance entries (R162): declared minus held, over admitted activities. -/
def cleatReserved (s : State) : Nat :=
  sumNat (s.cleat.acts.map (fun p => if p.2.ending.isNone then p.2.declared - actHeld s p.2.id else 0))

/-- FREE entries of the maintenance partition, ascending. -/
def maintFree (s : State) : List Nat := (List.range (maintSize s)).filter (fun e => (cleatOf s e).st == .free)

/-- FREE entries of the fault partition, ascending. -/
def faultFree (s : State) : List Nat :=
  (List.range 32).filter (fun e => maintSize s ≤ e && (cleatOf s e).st == .free)

/-- The entry a fault use takes (R162): fault partition, then unreserved, then reserved maintenance entries. -/
def faultPick (s : State) : Option Nat :=
  match faultFree s with
  | e :: _ => some e
  | [] => (maintFree s).getLast?

/-- `CLT_FAULT_FREE` (R169): FREE entries a fault use could take now. -/
def cltFaultFree (s : State) : Nat := (faultFree s).length + (maintFree s).length

/-- The HELD entry of a cell. -/
def cleatHeld? (s : State) (cell : Nat) : Option Nat :=
  (List.range 32).find? (fun e => (cleatOf s e).st == .held && (cleatOf s e).cell == cell)

/-! ### Long operations (R51, R52) -/

/-- The running operation of an opcode and key. -/
def opRun? (s : State) (op key : Nat) : Option LongOp := s.ops.find? (fun o => o.op == op && o.key == key)

/-- The running operation of an opcode, whatever its key. -/
def opAny? (s : State) (op : Nat) : Option LongOp := s.ops.find? (fun o => o.op == op)

/-- Remove an operation. -/
def dropOp (s : State) (op key : Nat) : State :=
  { s with ops := s.ops.filter (fun o => !(o.op == op && o.key == key)) }

/-- Change the data of an operation. -/
def updOp (s : State) (op key : Nat) (f : List Nat → List Nat) : State :=
  { s with ops := s.ops.map (fun o => if o.op == op && o.key == key then { o with args := f o.args } else o) }

end Sys2Proof.Machine
end

