-- ==== Sys2Proof/Machine/ReelCore.lean ====
section
/-! DEFINITION. The reel's capture (R464 to R477): the record queue and ring, triggers, masks, digital lines, and the
trigger-bus drive. -/

namespace Sys2Proof.Machine

/-- Change the reel. -/
def updReel (s : State) (f : ReelSt → ReelSt) : State := { s with reel := f s.reel }

/-- Whether a capture runs (R464). -/
def reelRuns (s : State) : Bool := s.reel.state == .armed || s.reel.state == .triggered

/-- The tick of the capture, none before tick 0 (R465, R476). -/
def reelNow (s : State) : Option Nat :=
  match s.reel.tick0 with
  | some t => if t ≤ s.tick then some (s.tick - t) else none
  | none => none

/-- A word of the copied configuration (R468). -/
def reelCfg (s : State) (i : Nat) : Nat := (tabGet 0 s.reel.cfg i).toNat

/-- First word of the record ring and its end (R477). -/
def ringFirst : Nat := 16
/-- End of the record ring (R477). -/
def ringEnd : Nat := 524288

/-- A special record (R476). -/
def specialRec (now code info : Nat) : ReelRec :=
  ⟨now, BitVec.ofNat 32 now, BitVec.ofNat 32 (2 * 2 ^ 30 + code * 2 ^ 24 + info % 2 ^ 24)⟩

/-- The place of a record within its tick by its word 1 (R475); WRAP, which the list does not name, stands after START
(DESIGN CHOICE, log entry 29). -/
def recOrder (w1 : Word) : Nat :=
  let w := w1.toNat
  match field w 31 30 with
  | 0 => 64 + field w 29 24
  | 1 => 8 + field w 28 24
  | 2 => match field w 29 24 with
    | 0 => 0
    | 3 => 1
    | 1 => 2
    | 4 => 3
    | 5 => 200
    | 2 => 201
    | _ => 202
  | _ => 3

/-- Whether a record stands before another or with it (R475). -/
def recBefore (a b : ReelRec) : Bool :=
  decide (a.tick < b.tick) || (a.tick == b.tick && decide (recOrder a.w1 ≤ recOrder b.w1))

/-- A record takes its place among those of its tick. -/
def insertRec (r : ReelRec) (l : List ReelRec) : List ReelRec :=
  l.takeWhile (fun x => recBefore x r) ++ r :: l.dropWhile (fun x => recBefore x r)

/-- Whether writing at `next` would overwrite history that a triggered capture keeps (R474). -/
def wouldFull (s : State) : Bool :=
  match s.reel.trigTick with
  | some tt =>
    s.reel.state == .triggered && s.reel.wrapped
      && decide ((tt : Int) - reelCfg s 9 ≤ (tabGet 0 s.reel.ringAt s.reel.next : Nat))
  | none => false

/-- Write one record into the ring (R474, R477). -/
def ringWrite (s : State) (r : ReelRec) : State :=
  updReel s (fun x =>
    let nx := if x.next + 2 < ringEnd then x.next + 2 else ringFirst
    let wr := x.wrapped || decide (ringEnd ≤ x.next + 2)
    { x with ring := tabRun 0 x.ring x.next [r.w0, r.w1], ringAt := tabSet 0 x.ringAt x.next r.tick, next := nx
             wrapped := wr, first := if wr then nx else ringFirst, words := min (x.words + 2) 4294967295 })

/-- Form a record of the present tick, or the STEP of the next one (R475). -/
def reelForm (s : State) (r : ReelRec) : State := updReel s (fun x => { x with fresh := insertRec r x.fresh })

/-- A record enters the queue, whose last place is kept for OVERFLOW; a full queue loses it (R475). -/
def reelPush (s : State) (r : ReelRec) : State :=
  if s.reel.queue.length < 63 then
    maxP (updReel s (fun x => { x with queue := x.queue ++ [r] })) P.REEL_QUEUE_HIGH 0 (s.reel.queue.length + 1)
  else
    incP (updReel s (fun x => { x with overflow := true, lostRun := x.lostRun + 1 })) P.REEL_LOST 0

/-- The OVERFLOW record joins the queue as soon as it has room (R475). -/
def reelOverflow (s : State) (now : Nat) : State :=
  if 0 < s.reel.lostRun && s.reel.queue.length < 64 then
    maxP (updReel s (fun x =>
      { x with queue := x.queue ++ [specialRec now 2 (min x.lostRun (2 ^ 24 - 1))], lostRun := 0 }))
      P.REEL_QUEUE_HIGH 0 (s.reel.queue.length + 1)
  else s

/-- The header of the capture memory at a stop `back` ticks ago (R477). -/
def reelHeader (s : State) (cause now back : Nat) : List Word :=
  let x := s.reel
  let d := devBack s back
  let n := fun (k : Nat) => BitVec.ofNat 32 k
  let viol := sumNat ((List.range 4).map (fun k => min (getN s P.REEL_MASK_VIOL k) 255 * 256 ^ k))
  let b := [ n (0x524C + 65536 * x.table),
             n (cause + 8 * b2n x.trigTick.isSome + 16 * b2n x.preShort + 32 * b2n x.overflow
                + 256 * (if x.trigTick.isSome then x.trigSrc else 0)),
             n (x.t0 / secUnit), n (x.t0 % secUnit / nsUnit), n (x.t0 / secUnit / 4294967296 % 65536),
             n (x.trigTick.getD 0), n now, n d.1, n d.2, n x.first, n x.next,
             getP s P.REEL_LOST 0, n viol, n (x.mark0.getD 0), 0 ]
  b ++ [crcWords b]

/-- The records formed join the queue, and OVERFLOW where records were lost (R475). -/
def reelFlush (s : State) (now : Nat) (l : List ReelRec) : State := reelOverflow (l.foldl reelPush s) now

/-- End a capture at a tick (R474): the STOP record, the queue drained, the header, state STOPPED, the REEL cause. -/
def reelEnd (s : State) (cause u : Nat) : State :=
  let now := match s.reel.tick0 with
    | some t => u - t
    | none => 0
  let s := reelFlush (updReel s (fun x => { x with fresh := [] })) now s.reel.fresh
  let s := (s.reel.queue ++ [specialRec now 6 cause]).foldl ringWrite (updReel s (fun x => { x with queue := [] }))
  let s := updReel s (fun x =>
    { x with header := reelHeader s cause now (s.tick - u), state := .stopped, cause := cause, stopAt := some u
             stopDue := false })
  irqSet s 2

/-- A cause that stands before the one of this tick's stop takes its place (R474). -/
def reelRecause (s : State) (cause : Nat) : State :=
  updReel s (fun x =>
    let b := (x.header.take 15).zipIdx.map (fun p =>
      if p.2 = 1 then BitVec.ofNat 32 (p.1.toNat / 8 * 8 + cause) else p.1)
    let i := if x.next = ringFirst then ringEnd - 1 else x.next - 1
    { x with cause := cause, header := b ++ [crcWords b], ring := tabSet 0 x.ring i (specialRec 0 6 cause).w1 })

/-- A stop at the present tick; the first cause of R474 that applies in the tick counts. -/
def reelStop (s : State) (cause : Nat) : State :=
  if reelRuns s then reelEnd s (if s.reel.stopDue then min cause 3 else cause) s.tick
  else if s.reel.state == .stopped && s.reel.stopAt == some s.tick && decide (cause < s.reel.cause) then
    reelRecause s cause
  else s

/-- The writer takes up to `n` records from the queue in a tick; one that would overwrite kept history stops the
capture, and what waits is dropped (log entry 29). -/
def reelTake : Nat → Nat → State → State
  | 0, _, s => s
  | n + 1, u, s =>
    match s.reel.queue with
    | [] => s
    | r :: q =>
      if wouldFull s then reelEnd (updReel s (fun x => { x with queue := [], fresh := [] })) 2 u
      else reelTake n u (ringWrite (updReel s (fun x => { x with queue := q })) r)

/-- A tick ends: its records join the queue, a mask's stop acts, and in the next tick the writer takes up to 4 records
(R473 to R475). -/
def reelRound (u : Nat) (s : State) : State :=
  match s.reel.tick0 with
  | none => s
  | some t =>
    let due := s.reel.fresh.filter (fun r => decide (t + r.tick ≤ u))
    if s.reel.stopDue then reelEnd (updReel s (fun x => { x with fresh := due })) 3 u
    else
      let s := updReel s (fun x => { x with fresh := x.fresh.filter (fun r => decide (u < t + r.tick)) })
      reelTake 4 (u + 1) (reelFlush s (u - t) due)

/-- Ticks end one after another. -/
def reelRounds : Nat → Nat → State → State
  | 0, _, s => s
  | n + 1, u, s => if reelRuns s then reelRounds n (u + 1) (reelRound u s) else s

/-- Bring the reel up to the present tick: after 32 ticks nothing waits any more (R475). -/
def reelSync (s : State) : State :=
  if reelRuns s && decide (s.reel.lastWrite < s.tick) then
    reelRounds (min (s.tick - s.reel.lastWrite) 32) s.reel.lastWrite (updReel s (fun x => { x with lastWrite := s.tick }))
  else s

/-- Drive a trigger-bus line low from the next tick for `TBUS_PULSE` ticks (R471, R472). What the fall shows is measured
from the first driven tick, where the line stood high. -/
def tbusDrive (s : State) (n : Nat) : State :=
  let e := s.tick + 1 + getN s P.TBUS_PULSE 0
  updLine s n (fun l =>
    if l.driveTo.any (fun t => decide (s.tick < t)) then { l with driveTo := l.driveTo.map (fun t => max t e) }
    else { l with driveFrom := s.tick + 1, driveTo := some e, loopAt := if l.low then none else some (s.tick + 1) })

/-- The references of the masks: every mask with this REF starts a new check, from `back` ticks ago (R473). -/
def reelRef (s : State) (ref : Nat) (back : Nat := 0) : State :=
  if reelRuns s && (reelNow s).isSome then
    (List.range 4).foldl (fun s k =>
      if field (reelCfg s (28 + k)) 11 8 = ref && field (reelCfg s (28 + k)) 21 16 ≠ 0 then
        let again := fun (m : ReelMask) => { m with ref := some (s.tick - back), hit := false }
        updReel s (fun x => { x with masks := tabUpd ⟨none, false, 0⟩ x.masks k again })
      else s) s
  else s

/-- The trigger tick and source are set (R470, R471, R474); masks with the trigger as reference start. -/
def trigSet (s : State) (src now : Nat) (tt : Int) : State :=
  let n := tt.toNat
  let pre := reelCfg s 9
  let oldest : Int := (tabGet 0 s.reel.ringAt s.reel.next : Nat)
  let short := decide (tt < 0) || decide (n < pre) || (s.reel.wrapped && decide ((n : Int) - pre < oldest))
  let s := updReel s (fun x => { x with trigTick := some n, trigSrc := src, preShort := short, trigAt := some now })
  reelRef (putN s P.REEL_TRIG_TICK 0 n) 9 (now - n)

/-- The trigger of an ARMED reel (R470, R471): TRIGGERED, the TRIGGER record, the bus lines with OUT_EN driven, the REEL
cause set. -/
def reelFire (s : State) (src now : Nat) (tt : Int) : State :=
  let s := updReel (trigSet s src now tt) (fun x => { x with state := .triggered })
  let s := reelForm s (specialRec now 1 src)
  let s := (List.range 4).foldl (fun s n => if bit (getN s P.TBUS_CFG n) 0 then tbusDrive s n else s) s
  irqSet s 2

/-- A trigger at a capture tick (R470, R471): the reel is TRIGGERED once, and stops at once where POST_TICKS have already
passed. Of several in one tick the lowest source counts. -/
def reelTrigger (s : State) (src : Nat) (tt : Int) : State :=
  match reelNow s with
  | none => s
  | some now =>
    if s.reel.state = .armed then
      let s := reelFire s src now tt
      if reelCfg s 10 ≠ 0 ∧ tt.toNat + reelCfg s 10 ≤ now then reelStop s 1 else s
    else if s.reel.state = .triggered ∧ s.reel.trigAt = some now ∧ src < s.reel.trigSrc then
      updReel (trigSet s src now tt) (fun x => { x with
        fresh := x.fresh.map (fun r => if r.tick = now ∧ recOrder r.w1 = 2 then specialRec now 1 src else r) })
    else s

/-- Whether triggers are evaluated: the reel is ARMED, or its trigger came in this tick (R469, R470). -/
def reelWatches (s : State) : Bool :=
  s.reel.state == .armed || (s.reel.state == .triggered && s.reel.trigAt.isSome && s.reel.trigAt == reelNow s)

/-- The memory of a trigger unit. -/
def reelUnit (s : State) (k : Nat) : ReelUnit := tabGet ⟨0, none, false, false⟩ s.reel.units k

/-- Change the memory of a trigger unit. -/
def updUnit (s : State) (k : Nat) (f : ReelUnit → ReelUnit) : State :=
  updReel s (fun x => { x with units := tabUpd ⟨0, none, false, false⟩ x.units k f })

/-- A trigger unit's KIND, DIR, QUAL and SRC (R468). -/
def unitWord (s : State) (k : Nat) : Nat := reelCfg s (12 + 4 * k)

/-- A change of a digital line as units EDGE, WIDTH and TIMEOUT see it (R469); true when the unit fires. -/
def unitLine (s : State) (k line now : Nat) (high : Bool) : State × Bool :=
  let w := unitWord s k
  let kind := field w 3 0
  let dir := field w 5 4
  if field w 15 8 ≠ line || (kind ≠ 1 && kind ≠ 3 && kind ≠ 5) then (s, false)
  else
    let width := now - (reelUnit s k).since
    let s := updUnit s k (fun u => { u with since := now })
    let inside := decide (reelCfg s (14 + 4 * k) ≤ width) && decide (width ≤ reelCfg s (15 + 4 * k))
    (s, match kind with
        | 1 => if dir = 0 then high else if dir = 1 then !high else true
        | 3 => (high == (dir == 1)) && (inside != bit w 6)
        | _ => false)

/-- A sample as units LEVEL, RUNT and SLEW see it (R469); true when the unit fires. -/
def unitSample (s : State) (k ch now : Nat) (lv : Nat → Int) (prev : Option Int) (v : Int) : State × Bool :=
  let w := unitWord s k
  let kind := field w 3 0
  let down := field w 5 4 = 1
  if field w 15 8 ≠ ch then (s, false)
  else
    let l1 := lv (field (reelCfg s (13 + 4 * k)) 15 0)
    let l2 := lv (field (reelCfg s (13 + 4 * k)) 31 16)
    let u := reelUnit s k
    match kind with
    | 2 =>
      (s, match prev with
          | some p => if down then decide (l1 ≤ p ∧ v < l1) else decide (p < l1 ∧ l1 ≤ v)
          | none => false)
    | 4 =>
      let out := if down then decide (v < l2) else decide (l1 < v)
      let far := if down then decide (v ≤ l1) else decide (l2 ≤ v)
      let back := if down then decide (l2 < v) else decide (v < l1)
      let rises := prev.any (fun p => if down then decide (l2 ≤ p) else decide (p ≤ l1))
      if back then
        (updUnit s k (fun x => { x with runt := false, missed := false }), u.runt && !u.missed)
      else if out then
        (updUnit s k (fun x => if x.runt || rises then { x with runt := true, missed := x.missed || far } else x), false)
      else (s, false)
    | 6 =>
      let near := if down then decide (l1 ≤ v) else decide (v ≤ l1)
      let beyond := if down then decide (v ≤ l2) else decide (l2 ≤ v)
      if near then (updUnit s k (fun x => { x with side := some now }), false)
      else if beyond then
        let t1 := reelCfg s (14 + 4 * k)
        (updUnit s k (fun x => { x with side := none }),
          match u.side with
          | some t => if bit w 6 then decide (t1 < now - t) else decide (now - t < t1)
          | none => false)
      else (s, false)
    | _ => (s, false)

/-- Run the units over one event; the lowest that fires triggers an ARMED reel (R470). -/
def reelUnits (s : State) (now : Nat) (f : State → Nat → State × Bool) : State :=
  (List.range 4).foldl (fun s k =>
    let r := f s k
    if r.2 then reelTrigger r.1 k now else r.1) s

/-- A sample under the masks (R473): violations, the MASK record, the action; a stop comes as the tick ends (R475). -/
def reelMasks (s : State) (ch now : Nat) (lv : Nat → Int) (v : Int) : State :=
  (List.range 4).foldl (fun s k =>
    let w := reelCfg s (28 + k)
    let m := tabGet (⟨none, false, 0⟩ : ReelMask) s.reel.masks k
    let npts := field w 21 16
    match m.ref with
    | none => s
    | some ref =>
      if npts = 0 || field w 5 0 ≠ ch || !reelRuns s then s
      else
        let o := s.tick - ref
        let js := (List.range npts).filter (fun j => reelCfg s (32 + 64 * k + 2 * j) ≤ o)
        match js.getLast? with
        | none => s
        | some j =>
          let e := reelCfg s (33 + 64 * k + 2 * j)
          if lv (field e 15 0) ≤ v ∧ v ≤ lv (field e 31 16) then s
          else if m.hit then incP s P.REEL_MASK_VIOL k
          else
            let s := incP s P.REEL_MASK_VIOL k
            let s := updReel s (fun x => { x with masks := tabSet ⟨none, false, 0⟩ x.masks k { m with hit := true } })
            let act := field w 7 6
            let s := if act = 1 then reelTrigger s (4 + k) now else s
            let s := reelForm s (specialRec now 5 k)
            if act = 2 then updReel s (fun x => { x with stopDue := true }) else s) s

/-- A sample of an analogue channel (R466): the units see it, it is recorded if it moved by more than the DEADBAND, the
masks check it. `flags` are bits [23:21] of the record. -/
def reelSample (s : State) (ch : Nat) (unsigned : Bool) (v : Int) (flags : Nat) : State :=
  if !reelRuns s then s
  else match reelNow s with
    | none => s
    | some now =>
      let lv := fun (n : Nat) => if unsigned then (n : Int) else signedOf 16 n
      let s := reelSync s
      let c := tabGet (⟨none, none⟩ : ReelChan) s.reel.chans ch
      let s := if reelWatches s then reelUnits s now (fun s k => unitSample s k ch now lv c.prev v) else s
      let db := field (reelCfg s (288 + ch)) 31 16
      let record := match c.last with
        | none => true
        | some l => decide (db < (v - l).natAbs)
      let c' : ReelChan := ⟨if record then some v else c.last, some v⟩
      let s := updReel s (fun x => { x with chans := tabSet ⟨none, none⟩ x.chans ch c' })
      let s := if record then
          reelForm s ⟨now, BitVec.ofNat 32 now, BitVec.ofNat 32 (ch * 2 ^ 24 + flags * 2 ^ 21 + bitsOf 16 v)⟩
        else s
      reelMasks s ch now lv v

/-- Channels whose source code has a kind and index (R466). -/
def reelChansOf (s : State) (kind index : Nat) : List Nat :=
  (List.range 64).filter (fun c =>
    field (reelCfg s (288 + c)) 11 8 = kind && field (reelCfg s (288 + c)) 7 0 = index)

/-- OFFSET and INVERT on a 16-bit pattern (R97, R184). -/
def srcConvert (offset invert : Bool) (raw : Nat) : Int :=
  let v : Int := if offset then (raw : Int) - 32768 else signedOf 16 raw
  if invert then min (-v) 32767 else v

/-- A result of a tag, as a 16-bit pattern, as the reel takes it (R340, R466): of the tags 0 to 23 the pattern after
OFFSET and INVERT is unsigned. -/
def reelResult (s : State) (tag raw flags : Nat) : State :=
  if reelRuns s then
    (reelChansOf s 1 tag).foldl (fun s c =>
      let code := reelCfg s (288 + c)
      let v := srcConvert (bit code 12) (bit code 13) raw
      reelSample s c (decide (tag < 24)) (if tag < 24 then (bitsOf 16 v : Nat) else v) flags) s
  else s

/-- A step of device time, which acts in the next tick: the STEP record of that tick and its extension with the device
time after the step (R321, R476). -/
def reelStep (s : State) : State :=
  match reelNow s with
  | some now =>
    if reelRuns s then
      let d := nextDev s
      let s := reelForm (reelSync s) (specialRec (now + 1) 4 0)
      reelForm s ⟨now + 1, BitVec.ofNat 32 (d / secUnit), BitVec.ofNat 32 (3 * 2 ^ 30 + d % secUnit / nsUnit)⟩
    else s
  | none => s

/-- A fault record as units of KIND 7 see it (R469). -/
def reelFault (s : State) (code event : Nat) : State :=
  let s := reelSync s
  match reelWatches s, reelNow s with
  | true, some now =>
    reelUnits s now (fun s k =>
      let w := unitWord s k
      let l1 := field (reelCfg s (13 + 4 * k)) 15 0
      (s, field w 3 0 == 7 && (l1 == 0 || l1 == code) && (!bit w 6 || event == 2)))
  | _, _ => s

/-- One byte from eight levels, line 8g as bit 0. -/
def lineByte (l : List Bool) : Nat := sumNat (l.zipIdx.map (fun p => if p.1 then 2 ^ p.2 else 0))

/-- Groups of eight lines. -/
def lineGroups : Nat → List Bool → List Nat
  | 0, _ => []
  | n + 1, l => lineByte (l.take 8) :: lineGroups n (l.drop 8)

/-- Whether a safety channel is in its safe state (R404). -/
def siSafe (s : State) (n : Nat) (b : Bool) : Bool :=
  let lvl := if b then (siOf s n).bLevel else (siOf s n).aLevel
  if b && bit (getN s P.SAFE_SI_CFG n) 1 then lvl else !lvl

/-- `ERR_N` low (R439): the pulse runs or the hold is set, in READY and RUN. -/
def errLow (s : State) : Bool :=
  (s.flt.errEnd.isSome || getN s P.FLT_ERR_HOLD 0 == 1) && (s.pwr.state == .ready || s.pwr.state == .run)

/-- The levels at the balls of a leg's outputs under the interlock (R382, R378): both outputs held off when the other
counts as on; TIMER holds both off. -/
def legBalls (s : State) (n : Nat) : Bool × Bool :=
  let l := legOf s n
  let ghOn := l.gh || decide (s.tick < l.ghOff)
  let glOn := l.gl || decide (s.tick < l.glOff)
  (l.gh && !glOn, l.gl && !ghOn)

/-- The 256 digital lines (R467) as 32 bytes. -/
def reelLines (s : State) : List Nat :=
  let e := fun (n : Nat) => let x := encOf s n
    [x.a, x.b, x.z, x.home, x.limP, x.limN]
  lineGroups 32 (
    (List.range 4).map (fun n => (lineOf s n).low)
    ++ (List.range 8).flatMap (fun n => [siSafe s n false, siSafe s n true])
    ++ (List.range 4).flatMap (fun n => [(legBalls s n).1, (legBalls s n).2])
    ++ (List.range 4).map (fun n => (legOf s n).tripIn)
    ++ (List.range 4).map (fun n => (legOf s n).conf)
    ++ e 0 ++ e 1
    ++ armList.map (fun a => (armOf s a).deblocked)
    ++ [errLow s, s.belay.tripOut, s.belay.tripOut, s.belay.injecting]
    ++ armList.map (fun a => decide ((armOf s a).sgn < 0))
    ++ (List.range 64).map (fun l => laneActive s l)
    ++ (List.range 64).map (fun l => decide (0 < (laneOf s l).hold))
    ++ (List.range 32).map (fun e => (cleatOf s e).st != .free)
    ++ List.replicate 32 false)

/-- Enable mask of a group of lines (R468). -/
def lineEnable (s : State) (g : Nat) : Nat := field (reelCfg s (1 + g / 4)) (8 * (g % 4) + 7) (8 * (g % 4))

/-- The digital record of a group in the present tick (R467, R476): its enabled lines that differ from the tick before,
in place of a record of this tick that an earlier event formed. -/
def lineRecord (now : Nat) (s : State) (p : (Nat × Nat × Nat) × Nat) : State :=
  let ch := (p.1.1 ^^^ p.1.2.2) &&& lineEnable s p.2
  if p.1.2.1 = p.1.2.2 then s
  else
    let s := updReel s (fun x => { x with
      fresh := x.fresh.filter (fun r => !(r.tick == now && recOrder r.w1 == 8 + p.2)) })
    if ch = 0 then s
    else reelForm s ⟨now, BitVec.ofNat 32 now, BitVec.ofNat 32 (2 ^ 30 + p.2 * 2 ^ 24 + ch * 256 + p.1.2.2)⟩

/-- The digital lines before tick 0: levels from which changes will count, and the device time of tick 0 (R477). -/
def reelBefore (s : State) : State :=
  updReel s (fun x => { x with
    lines := reelLines s, base := reelLines s, baseAt := s.tick
    t0 := if x.tick0 = some (s.tick + 1) then nextDev s else x.t0 })

/-- Units see the lines that an event changed (R469); the levels before this tick are kept. -/
def linesSeen (now : Nat) (new : List Nat) (s : State) : State :=
  let s := updReel s (fun x => if x.baseAt = s.tick then x else { x with base := x.lines, baseAt := s.tick })
  let changes := (s.reel.lines.zip new).zipIdx.flatMap (fun p =>
    (List.range 8).filterMap (fun b => if bit p.1.1 b != bit p.1.2 b then some (8 * p.2 + b, bit p.1.2 b) else none))
  if reelWatches s then changes.foldl (fun s c => reelUnits s now (fun s k => unitLine s k c.1 now c.2)) s else s

/-- Enabled changes of the lines are recorded by group (R467, R475). -/
def linesDone (now : Nat) (new : List Nat) (s : State) : State :=
  let s := if reelRuns s then ((s.reel.base.zip (s.reel.lines.zip new)).zipIdx).foldl (lineRecord now) s else s
  updReel s (fun x => { x with lines := new })

/-- The reel after an event (R467): what waits is brought up to the present tick, units see the changed lines, `f` acts
after the units (R470), enabled changes are recorded. -/
def reelObserveWith (f : State → State) (s : State) : State :=
  if !reelRuns s then s
  else
    let s := reelSync s
    match reelNow s with
    | none => if reelRuns s then reelBefore s else s
    | some now =>
      let new := reelLines s
      if !reelRuns s || new = s.reel.lines then s else linesDone now new (f (linesSeen now new s))

/-- The digital lines after an event. -/
def reelObserve (s : State) : State := reelObserveWith (fun s => s) s

end Sys2Proof.Machine
end

