-- ==== Sys2Proof/Machine/FaultOps.lean ====
section
/-! DEFINITION. The fault collector (R424 to R442), the belay's reactions (R402, R403), and the trace buffer (R227 to
R231), which freezes on fault records. -/

namespace Sys2Proof.Machine

/-! ### The trace buffer -/

/-- The entries of one tick with one more (R227): by event code, at most 4; FREEZE stays as the last. -/
def traceJoin (l : List (Word × Word)) (e : Word × Word) : List (Word × Word) :=
  if traceCode e = 10 then l.take 3 ++ [e]
  else (insertBy (fun (a b : Word × Word) => decide (traceCode a ≤ traceCode b)) e l).take 4

/-- The high word of an entry (R228). -/
def traceHigh (code slot cls strand prio info : Nat) : Word :=
  BitVec.ofNat 32 (slot % 256 + 256 * (cls % 16) + 4096 * (strand % 8) + 65536 * (prio % 8) + 2 ^ 19 * code
    + 2 ^ 23 * (info % 512))

/-- The START of a task or the GATE of a strand at a later tick (R215): its entry waits for that tick, at most 4 for one
(R227). -/
def traceLater (s : State) (code at_ slot cls strand prio info : Nat) : State :=
  if s.str.traceFrz || !bit (getN s P.STR_TRACE_CTRL 0) 0 || !bit (getN s P.STR_TRACE_MASK 0) code then s
  else if 4 ≤ (s.str.traceDue.filter (fun e => e.1 == at_)).length then incP s P.STR_TRACE_LOST 0
  else
    { s with str := { s.str with traceDue := s.str.traceDue ++
        [(at_, BitVec.ofNat 32 (at_ - s.pwr.pllAt), traceHigh code slot cls strand prio info)] } }

/-- A scheduling event (R227 to R229): the entries of its tick stand at the end of the ring, in the order of their
codes; what has no room is counted. -/
def traceEvent (s : State) (code slot cls strand prio info : Nat) : State :=
  let ctrl := getN s P.STR_TRACE_CTRL 0
  if s.str.traceFrz || !bit ctrl 0 || !bit (getN s P.STR_TRACE_MASK 0) code then s
  else
    let n := if s.str.traceTick = s.tick then s.str.traceN else 0
    let lo := BitVec.ofNat 32 (s.tick - s.pwr.pllAt)
    let hi := traceHigh code slot cls strand prio info
    let first := (s.str.traceNext + 4096 - n) % 4096
    let old := (List.range n).map (fun j => tabGet (0, 0) s.str.trace ((first + j) % 4096))
    let new := traceJoin old (lo, hi)
    let s := if 4 ≤ n then incP s P.STR_TRACE_LOST 0 else s
    { s with str := { s.str with
        trace := new.zipIdx.foldl (fun t p => tabSet (0, 0) t ((first + p.2) % 4096) p.1) s.str.trace
        traceNext := (first + new.length) % 4096
        traceWrap := s.str.traceWrap || decide (4096 ≤ first + new.length)
        traceTick := s.tick, traceN := new.length } }

/-- Recording stops, with a FREEZE entry as its last (R231). -/
def traceFreeze (s : State) : State :=
  if s.str.traceFrz then s
  else
    let s := traceEvent s 10 0 0 0 0 0
    { s with str := { s.str with traceFrz := true } }

/-- The freeze on a fault record (R231). -/
def traceOnFault (s : State) (code : Nat) : State :=
  let ctrl := getN s P.STR_TRACE_CTRL 0
  let fc := field ctrl 31 16
  if bit ctrl 1 && (fc == 0 || fc == code) then traceFreeze s else s

/-! ### The belay's reactions (R402, R403) -/

/-- Change the belay. -/
def updBelay (s : State) (f : BelaySt → BelaySt) : State := { s with belay := f s.belay }

/-- Set a latch of the belay by its bit in `SAFE_LATCH`. -/
def belayLatch (s : State) (b : Nat) : State := updBelay s (fun x => { x with latch := x.latch ||| 2 ^ b })

/-- Whether the frame of a lane that was built at the last mark has yet to leave (R237, R402). -/
def leavesLater (s : State) (l : Nat) : Bool :=
  match (tabGet Lane.empty s.lanes l).ds with
  | some f => decide (s.tick < f.depart)
  | none => false

/-- Frames whose first header bit leaves after this tick leave with the injection in force from now on, or without it
(R265, R402); the insertion shares of words that injection replaces are dropped (R102). -/
def injectLanes (s : State) : State :=
  let on := s.belay.injecting
  { s with
    lanes := tabMap Lane.empty (fun l x =>
      if leavesLater s l then { x with ds := x.ds.map (injectDs on) } else x) s.lanes
    cells := tabMap Cell.empty (fun c x =>
      if on && leavesLater s (c / 48) then { x with shares := x.shares.filter (fun r => r.1 != s.per.count + 1) } else x)
      s.cells }

/-- BLOCK: every arm is blocked and BLOCK_ALL injected; NORMAL becomes BLOCKING. -/
def belayBlock (s : State) : State :=
  let s := updBelay s (fun x =>
    if x.state = .off then x
    else { x with injecting := true, state := if x.state = .normal then .blocking else x.state })
  blockArms (injectLanes s) 63

/-- TRIP: BLOCK, and both trip outputs tripped; any state but OFF becomes TRIPPED. -/
def belayTrip (s : State) : State :=
  let s := updBelay s (fun x =>
    if x.state = .off then x else { x with injecting := true, tripOut := true, state := .tripped })
  blockArms (injectLanes s) 63

/-- A reaction by its code: 0 NONE, 1 BLOCK, 2 TRIP (R405, R412). -/
def belayReact (s : State) (r : Nat) : State := if r = 1 then belayBlock s else if r = 2 then belayTrip s else s

/-! ### Entries and records -/

/-- An entry of the active-fault list. -/
def fltOf (s : State) (i : Nat) : FltEntry := tabGet FltEntry.empty s.flt.entries i

/-- Write an entry. -/
def setFlt (s : State) (i : Nat) (e : FltEntry) : State :=
  { s with flt := { s.flt with entries := tabSet FltEntry.empty s.flt.entries i e } }

/-- The entry of a pair. -/
def fltFind (s : State) (code inst : Nat) : Option Nat :=
  (s.flt.entries.find? (fun p => p.2.code == code && p.2.inst == inst && p.2.st != .free)).map (fun p => p.1)

/-- Whether a pair is active with its cause present. -/
def causeHeld (s : State) (code inst : Nat) : Bool :=
  s.flt.entries.any (fun p => p.2.code == code && p.2.inst == inst && p.2.st != .free && p.2.cause)

/-- Entries in use (R435). -/
def fltInUse (s : State) : Nat := fltUsed s.flt.entries

/-- The lowest FREE entry of 0 to 254 (R426), searched over a list of indices. -/
def fltFreeFrom (s : State) : List Nat → Option Nat
  | [] => none
  | i :: l => if (fltOf s i).st = .free then some i else fltFreeFrom s l

/-- What the collector has done in the present tick, which starts anew with the tick (R434). -/
def fltTick (s : State) : FltSt :=
  if s.flt.lastTick = s.tick then s.flt else { s.flt with lastTick := s.tick, tickNew := [], tickRecs := 0 }

/-- The place of a record among those of its tick (R434, R436): raises by code and instance, then grace expiries, then
what commands inject. -/
def recKey (w : List Word) : Nat :=
  let x := (w.getD 3 0).toNat
  let c := (w.getD 0 0).toNat
  if bit x 7 then 2 ^ 33 else if field x 1 0 = 2 && field x 3 2 = 1 then 2 ^ 32 else c % 65536 * 65536 + c / 65536

/-- A record enters the ring: those of one tick stand in the order of R434. -/
def recJoin (f : FltSt) (w : List Word) : Tab (List Word) :=
  let n := min f.tickRecs 255
  let first := (f.recNext + 256 - n) % 256
  let old := (List.range n).map (fun j => tabGet [] f.recs ((first + j) % 256))
  (insertBy (fun a b => decide (recKey a ≤ recKey b)) w old).zipIdx.foldl
    (fun t p => tabSet [] t ((first + p.2) % 256) p.1) f.recs

/-- A raise takes an entry (R426): the entries taken in one tick stand in ascending code and instance (R434). -/
def takeEntry (s : State) (i : Nat) (e : FltEntry) : State :=
  let s := setFlt s i e
  if e.injected then s
  else
    let f := fltTick s
    let l := f.tickNew.filter (fun j => j != i && (fltOf s j).st != .free) ++ [i]
    let es := sortBy (fun (a b : FltEntry) => decide (a.code * 65536 + a.inst ≤ b.code * 65536 + b.inst)) (l.map (fltOf s))
    let s := { s with flt := { f with tickNew := l } }
    ((sortBy (fun (a b : Nat) => decide (a ≤ b)) l).zip es).foldl (fun s p => setFlt s p.1 p.2) s

/-- Write a record (R436, R437): the ring, the FAULT cause, `ERR_N` at REACTED, the trace freeze, units of KIND 7. -/
def fltRecord (s : State) (e : FltEntry) (event : Nat) (react : React) : State :=
  let w : List Word :=
    [ BitVec.ofNat 32 (e.code + 65536 * e.inst), BitVec.ofNat 32 (devSec s), BitVec.ofNat 32 (devNs s),
      BitVec.ofNat 32 (event + 4 * e.cls.code + 16 * react.code + 128 * b2n e.injected + 256 * b2n e.ack
        + 65536 * (s.per.count % 65536)) ]
  let f := fltTick s
  let s := { s with flt := { f with
      recs := recJoin f w
      tickRecs := f.tickRecs + 1
      recNext := (f.recNext + 1) % 256
      recWrap := f.recWrap || decide (f.recNext = 255)
      recCount := min (f.recCount + 1) 65535
      errEnd := if event = 2 then some (s.tick + 200000 * getN s P.FLT_ERR_PULSE 0) else f.errEnd } }
  let s := irqSet s 1
  reelFault (traceOnFault s e.code) e.code event

/-- The arms a reaction acts on, and the reaction as recorded (R425). -/
def reactTarget (s : State) (d : FltDef) (inst : Nat) : React → React × Nat
  | .none => (.none, 0)
  | .blockConverter => (.blockConverter, 63)
  | .trip => (.trip, 63)
  | .belay => (.none, 0)
  | .blockArm =>
    match d.kind with
    | .arm => if inst < 6 then (.blockArm, 2 ^ inst) else (.blockConverter, 63)
    | .cell =>
      if inst < 3072 then
        (.blockArm, if (cellOf s inst).placed then 2 ^ (cellOf s inst).arm else 0)
      else if inst < 4096 + 64 then (.blockArm, laneArms s (inst - 4096))
      else (.blockConverter, 63)
    | .lane => (.blockArm, laneArms s inst)
    | .other => (.blockConverter, 63)

/-- The effect of a reaction (R425): the arms are blocked, a TRIP trips the belay with latch FLT (R403). -/
def reactEffect (s : State) (r : React) (mask : Nat) : State :=
  let s := blockArms s mask
  if r = .trip then belayLatch (belayTrip s) 11 else s

/-- Class, reaction and grace time with which a code is raised (R440). -/
def fltConfig (s : State) (code : Nat) : FltClass × React × Nat :=
  let w := getN s P.FLT_CFG code
  (FltClass.ofCode (field w 1 0), React.ofCode (field w 4 2), field w 31 16)

/-- The reaction of a belay fault as configured (R417): by input, by `SAFE_ICM_REACT`, else TRIP. -/
def belayReaction (s : State) (code inst : Nat) : Nat :=
  if code = F.INSERT_COUNT then getN s P.SAFE_ICM_REACT 0
  else if code = F.SAFE_DISCREPANCY || code = F.SAFE_TESTPULSE || code = F.SAFE_DEMAND then
    field (getN s P.SAFE_SI_CFG inst) 9 8
  else 2

/-- A belay reaction as recorded (R417). -/
def belayRecorded (r : Nat) : React := if r = 0 then .none else if r = 1 then .blockConverter else .trip

/-- How a raise comes: from its source, by injection, or from the belay, which reacts by itself. -/
structure RaiseMode where
  injected : Bool
  oneTick  : Bool
  belay    : Bool
  deriving DecidableEq, Repr

/-- A new active entry's content (R427): by class NOTED, GRACE with its timer, or REACTED. -/
def newEntry (s : State) (code inst : Nat) (cls : FltClass) (react : React) (grace mask : Nat) (m : RaiseMode) :
    FltEntry :=
  { code := code, inst := inst
    st := match cls with
      | .note => .noted
      | .grace => .grace
      | .immediate => .reacted
    ack := false, cause := true, injected := m.injected, oneTick := m.oneTick, cls := cls, react := react, count := 1
    due := if cls = .grace then s.tick + max 1 (200 * grace) else 0
    arms := if cls = .immediate then mask else 0
    fltTrip := cls == .immediate && react == .trip && !m.belay }

/-- A re-raise of a pair that has an entry (R430); its record tells whether it was injected (R437). -/
def reRaise (s : State) (i : Nat) (e : FltEntry) (mask : Nat) (grace : Nat) (m : RaiseMode) : State :=
  let fltRecord := fun (s : State) (e : FltEntry) => fltRecord s { e with injected := m.injected }
  let e := { e with count := min (e.count + 1) 31 }
  if e.cause then setFlt s i { e with oneTick := e.oneTick && m.oneTick }
  else
    let e := { e with cause := true, oneTick := m.oneTick }
    match e.st with
    | .defused =>
      let e := { e with st := .grace, ack := false, due := s.tick + max 1 (200 * grace) }
      fltRecord (setFlt s i e) e 1 e.react
    | .reacted =>
      let s := if e.cls = .immediate && !m.belay then reactEffect s e.react mask else s
      fltRecord (setFlt s i { e with arms := if e.cls = .immediate then mask else e.arms }) e 1 e.react
    | _ => fltRecord (setFlt s i e) e 1 e.react

/-- The overflow fault in entry 255 (R426). -/
def raiseOverflow (s : State) : State :=
  let s := incP s P.FLT_LOST 0
  let e := fltOf s 255
  if e.st = .free then
    let e := newEntry s F.FLT_OVERFLOW 0 .note .none 0 0 ⟨false, false, false⟩
    fltRecord (setFlt s 255 e) e 0 .none
  else reRaise s 255 e 0 0 ⟨false, false, false⟩

/-- A raise with its class, reaction and grace time (R424, R426, R430). -/
def raiseWith (s : State) (code inst : Nat) (cls : FltClass) (react : React) (grace : Nat) (m : RaiseMode) : State :=
  match fltDef? code with
  | none => s
  | some d =>
    let t := if m.belay then (react, if react = .none then 0 else 63) else reactTarget s d inst react
    match fltFind s code inst with
    | some i => reRaise s i (fltOf s i) t.2 grace m
    | none =>
      match fltFreeFrom s (List.range 255) with
      | none => raiseOverflow (if m.belay then s else reactEffect s t.1 t.2)
      | some i =>
        let e := newEntry s code inst cls react grace t.2 m
        match cls with
        | .immediate =>
          let e := { e with react := t.1 }
          let s := if m.belay then s else reactEffect s t.1 t.2
          fltRecord (takeEntry s i e) e 2 t.1
        | _ => fltRecord (takeEntry s i e) e 0 react

/-- A raise by a source outside the belay, with the configured class and reaction (R440). -/
def raiseFault (s : State) (code inst : Nat) : State :=
  let c := fltConfig s code
  raiseWith s code inst c.1 c.2.1 c.2.2 ⟨false, false, false⟩

/-- A raise whose cause is gone in the next tick (R57). -/
def raiseOnce (s : State) (code inst : Nat) : State :=
  let c := fltConfig s code
  raiseWith s code inst c.1 c.2.1 c.2.2 ⟨false, true, false⟩

/-- A fault the belay detects: it reacts itself and the collector records (R403, R417). -/
def raiseBelay (s : State) (code inst latch : Nat) : State :=
  let r := belayReaction s code inst
  let s := if r = 0 && code = F.SAFE_DEMAND then s else belayLatch s latch
  let s := belayReact s r
  raiseWith s code inst .immediate (belayRecorded r) 0
    ⟨false, r == 0 && code == F.SAFE_DEMAND, true⟩

/-- The entry becomes FREE; the overflow's cause is gone once at most 254 entries are in use (R426, R443). -/
def freeEntry (s : State) (i : Nat) : State :=
  let s := setFlt s i FltEntry.empty
  { s with flt := { s.flt with entries := fltSettled (bit (getN s P.FLT_CTRL 0) 0) s.flt.entries } }

/-- A cause is gone: a GRACE entry that is acknowledged becomes DEFUSED (R429), a NOTED one may be freed (R432). -/
def causeGone (s : State) (code inst : Nat) : State :=
  match fltFind s code inst with
  | none => s
  | some i =>
    let e := fltOf s i
    let e := { e with cause := false, oneTick := false, st := if e.st = .grace && e.ack then .defused else e.st }
    if e.st = .noted && bit (getN s P.FLT_CTRL 0) 0 then freeEntry s i else setFlt s i e

/-- Raise or end a condition by its truth, on a change only. -/
def causeSet (s : State) (code inst : Nat) (present : Bool) : State :=
  if present then (if causeHeld s code inst then s else raiseFault s code inst)
  else (if causeHeld s code inst then causeGone s code inst else s)

/-- A grace expiry (R428): REACTED, the reaction, the record. -/
def graceExpire (s : State) (i : Nat) : State :=
  let e := fltOf s i
  match e.st, fltDef? e.code with
  | .grace, some d =>
    let t := reactTarget s d e.inst e.react
    let s := reactEffect s t.1 t.2
    let e := { e with st := .reacted, react := t.1, arms := t.2, fltTrip := t.1 == .trip }
    fltRecord (setFlt s i e) e 2 t.1
  | _, _ => s

/-- Grace times that end in this tick end before a command of the tick acts (R434). -/
def gracesDue (s : State) : State :=
  (s.flt.entries.filter (fun p => p.2.st == .grace && decide (p.2.due ≤ s.tick))).foldl (fun s p => graceExpire s p.1) s

/-- Microseconds left on an entry's timer (R435), rounded up. -/
def graceLeft (s : State) (e : FltEntry) : Nat :=
  if e.st = .grace then min (ceilDiv (e.due - s.tick) 200) 65535 else 0

/-- The words of table 0x0900 (R435). -/
def fltTableWord (s : State) (i : Nat) : Word :=
  if i = 0 then BitVec.ofNat 32 (fltInUse s)
  else
    let e := fltOf s ((i - 1) / 2)
    if e.st = .free then 0
    else if i % 2 = 1 then BitVec.ofNat 32 (e.code + 65536 * e.inst)
    else BitVec.ofNat 32 (e.st.code + 8 * b2n e.ack + 16 * b2n e.cause + 32 * b2n e.injected + 64 * e.cls.code
      + 256 * e.react.code + 2048 * e.count + 65536 * graceLeft s e)

/-- The REACTED entry that acted on an arm of a mask, for the refusal of `DEBLOCK` (R433): code and instance. -/
def reactedOn (s : State) (mask : Nat) : Option (Nat × Nat) :=
  (s.flt.entries.find? (fun p => p.2.st == .reacted && p.2.arms &&& mask != 0)).map (fun p => (p.2.code, p.2.inst))

/-- `FLT_ARM_BLOCKED` (R444). -/
def fltArmBlocked (s : State) : Nat :=
  let r := s.flt.entries.filter (fun p => p.2.st == .reacted)
  armMask (fun a => r.any (fun p => bit p.2.arms a)) + (if r.any (fun p => p.2.react == .trip) then 64 else 0)

/-- `FLT_STATUS` (R444). -/
def fltStatus (s : State) : Nat :=
  let any := fun (st : EntryState) => s.flt.entries.any (fun p => p.2.st == st)
  b2n (errLow s) + 2 * b2n s.flt.errEnd.isSome + 4 * b2n (any .grace) + 8 * b2n (any .reacted)
    + 16 * b2n s.flt.unlocked + 32 * b2n s.pwr.testmode

/-- `FLT_GRACE_NEXT` (R444). -/
def fltGraceNext (s : State) : Nat :=
  minNat 0 ((s.flt.entries.filter (fun p => p.2.st == .grace)).map (fun p => graceLeft s p.2))

end Sys2Proof.Machine
end

