-- ==== Sys2Proof/Machine/Operands.lean ====
section
/-! DEFINITION. The command layer (R42 to R54): status codes, replies, the checks of R44 steps 5 to 7 that every command
row shares, dry runs, short and long commands and their completion. -/

namespace Sys2Proof.Machine

/-! ### Status codes (R46) -/

abbrev St.ok : Nat := 0x00
abbrev St.accepted : Nat := 0x01
abbrev St.opcode : Nat := 0x10
abbrev St.param : Nat := 0x11
abbrev St.range : Nat := 0x12
abbrev St.state : Nat := 0x13
abbrev St.locked : Nat := 0x14
abbrev St.resource : Nat := 0x15
abbrev St.conflict : Nat := 0x16
abbrev St.timeout : Nat := 0x17
abbrev St.integrity : Nat := 0x18
abbrev St.factory : Nat := 0x19

/-- An error reply's status, detail and DIAG (R46, R47). -/
structure CmdErr where
  status : Nat
  detail : Nat
  diag   : Nat
  deriving DecidableEq, Repr

/-- What a command's own checks and effect yield: a refusal, a short command's final reply with its detail and
payload, or a long command's start. `fail` is a refusal that leaves a trace (R418); `after` is what follows the ACCEPTED reply in the same tick (R51);
`later` is a short command whose reply is written when its effect has come, within the 40 µs of R50. -/
inductive Res where
  | err (e : CmdErr)
  | fail (e : CmdErr) (s : State)
  | ok (detail : Nat) (payload : List Word) (s : State)
  | accepted (s : State) (after : State → State)
  | later (s : State)

/-- A short command that ends with OK and no payload. -/
def Res.done (s : State) : Res := .ok 0 [] s

/-- Refuse with the first error, or go on. -/
def Res.check (e : Option CmdErr) (r : Res) : Res :=
  match e with
  | some e => .err e
  | none => r

/-- The first error of a list of checks (R44: the first failure decides). -/
def firstErr : List (Option CmdErr) → Option CmdErr
  | [] => none
  | some e :: _ => some e
  | none :: l => firstErr l

/-- A check: the error if the condition holds. -/
def errIf (b : Bool) (status detail diag : Nat) : Option CmdErr := if b then some ⟨status, detail, diag⟩ else none

/-- DIAG of E_STATE detail 0x0003 (R48). -/
def diagKind (kind entity : Nat) : Nat := kind * 2 ^ 28 + entity % 2 ^ 28

/-- E_STATE detail 0x0003 with KIND and entity (R47, R48). -/
def notReady (kind entity : Nat) : CmdErr := ⟨St.state, 3, diagKind kind entity⟩

/-- E_CONFLICT detail 0x0001 with the tag of the operation that holds the resource (R47, R52). -/
def heldBy (tag : Nat) : CmdErr := ⟨St.conflict, 1, tag⟩

/-- The conflict with a running operation, if there is one. -/
def busyErr (o : Option LongOp) : Option CmdErr := o.map (fun x => heldBy x.tag.toNat)

/-- Refusal on a standby (R452): E_STATE detail 0x0005, DIAG 0. -/
def standbyErr (s : State) : Option CmdErr := errIf (s.dup.role == .standby) St.state 5 0

/-- Refusal while an arm is deblocked: E_STATE detail 0x0002, DIAG the mask (R47, R60). -/
def deblockedErr (s : State) : Option CmdErr := errIf (anyDeb s) St.state 2 (debMask s)

/-- A payload word; 0 beyond the payload. -/
def pw (c : Cmd) (i : Nat) : Nat := (c.payload.getD i 0).toNat

/-- The target as a number. -/
def tgt (c : Cmd) : Nat := c.target.toNat

/-! ### Replies (R43, R47) -/

/-- The words of a reply: header, CRC-32C, payload (R43). -/
def replyWords (op status tag detail : Nat) (seq : Word) (payload : List Word) : List Word :=
  let h : List Word := [ BitVec.ofNat 32 (op % 256 + 256 * (status % 256) + 65536 * tag),
                         BitVec.ofNat 32 (payload.length + 65536 * (detail % 65536)), seq ]
  h ++ [crcWords (h ++ payload)] ++ payload

/-- Whether a port is on. -/
def portOn (s : State) : Port → Bool
  | .pcie => pcieOn s
  | .spi => spiOn s

/-- Words free in the reply window (R33). -/
def rplFree (h : HostSt) : Nat := 1024 - (h.rplTail - h.rplHead).toNat

/-- Change the host block. -/
def updHost (s : State) (f : HostSt → HostSt) : State := { s with host := f s.host }

/-- Write a reply's words at the reply tail and advance it (R33, R36). -/
def rplPut (h : HostSt) (ws : List Word) : HostSt :=
  { h with
    rplWin := ws.zipIdx.foldl (fun t p => tabSet 0 t ((h.rplTail.toNat + p.2) % 1024) p.1) h.rplWin
    rplTail := h.rplTail + BitVec.ofNat 11 ws.length }

/-- Deliver a reply (R36, R40, R67). On PCIe it is written if the window has room and no reply waits before it, else
it waits with its IRQ mark as first word; a PCIe reply with the endpoint off is held for SPI (R484). -/
def sendReply (s : State) (port : Port) (irq : Bool) (ws : List Word) : State :=
  if port = .pcie && pcieOn s then
    if s.host.held.isEmpty && decide (ws.length ≤ rplFree s.host) then
      let s := updHost s (fun h => rplPut h ws)
      if irq then irqSet s 0 else s
    else updHost s (fun h => { h with held := h.held ++ [BitVec.ofNat 32 (b2n irq) :: ws] })
  else if spiOn s then
    irqSet (updHost s (fun h => { h with spiOut := h.spiOut ++ [ws] })) 4
  else s

/-- Replies that wait for room in the reply window are written in order as room comes (R36). -/
def flushHeld : List (List Word) → State → State
  | [], s => updHost s (fun h => { h with held := [] })
  | [] :: l, s => flushHeld l s
  | (m :: ws) :: l, s =>
    if ws.length ≤ rplFree s.host then
      let s := updHost s (fun h => rplPut h ws)
      flushHeld l (if m = 1 then irqSet s 0 else s)
    else updHost s (fun h => { h with held := (m :: ws) :: l })

/-! ### Command checks (R44 steps 5 to 7) -/

/-- The target rule of an opcode (R44 step 5, R65): below a bound, or decided by the command's own first check. -/
inductive TargetRule where
  | below (n : Nat)
  | own
  deriving DecidableEq, Repr

/-- A row of the opcode tables (R62, R65): opcode, target, payload lengths, the states L, Y and R in which it is
available, reserved payload bits as (word, mask), the largest reply payload, and whether it is long. -/
structure CmdSpec where
  op       : Nat
  target   : TargetRule
  lenLo    : Nat
  lenHi    : Nat
  listen   : Bool
  ready    : Bool
  run      : Bool
  reserved : List (Nat × Nat)
  maxReply : Nat
  long     : Bool
  deriving DecidableEq, Repr

/-- Step 5: TARGET (R11, R47). -/
def targetErr (sp : CmdSpec) (c : Cmd) : Option CmdErr :=
  match sp.target with
  | .below n => errIf (decide (n ≤ tgt c)) St.range 0xFFFD (tgt c)
  | .own => none

/-- Step 6: payload length, then reserved payload bits (R47). Where an opcode allows a range of lengths, the expected
LENGTH in DIAG is the nearer bound of the range (DESIGN CHOICE, log entry 41). -/
def lengthErr (sp : CmdSpec) (c : Cmd) : Option CmdErr :=
  let n := c.payload.length
  firstErr [ errIf (decide (n < sp.lenLo)) St.param 0xFFFF sp.lenLo,
             errIf (decide (sp.lenHi < n)) St.param 0xFFFF sp.lenHi,
             (sp.reserved.find? (fun m => pw c m.1 &&& m.2 != 0)).map
               (fun m => (⟨St.param, 0x8000 + m.1, pw c m.1⟩ : CmdErr)) ]

/-- Step 7: the power state (R65, R66). -/
def powerErr (sp : CmdSpec) (s : State) : Option CmdErr :=
  let ok := match s.pwr.state with
    | .dormant => false
    | .listen => sp.listen
    | .ready => sp.ready
    | .run => sp.run
  errIf (!ok) St.state 1 s.pwr.state.code

/-! ### Interpretation (R49 to R53) -/

/-- The commands outstanding (R49): the operations that run, and the commands whose final reply waits for room in the
reply window (R36). A reply that waits is final unless its status is ACCEPTED. -/
def outstanding (s : State) : Nat :=
  s.ops.length + (s.host.held.filter (fun r => field (r.getD 1 0).toNat 15 8 != St.accepted)).length

/-- Whether a short command is still under interpretation: an `ADC_INJECT` whose trigger waits for its delay (R339). -/
def answersLater (s : State) : Bool := s.meas.adcs.any (fun p => p.2.trigs.any (fun t => t.cmd.isSome))

/-- Whether a command of a port can be under interpretation: the port is on, fewer than 16 commands are outstanding
(R35, R49), none is still under interpretation (R49), and the core clock runs, which LISTEN does without (R489, R490). -/
def takeable (s : State) (p : Port) : Bool :=
  portOn s p && decide (outstanding s < 16) && !answersLater s && (clockOn s || s.pwr.state == .listen)

/-- A packet has passed the CRC and sequence checks (R45, R70). -/
def goodPacket (s : State) (p : Port) (seq : Word) : State :=
  let s := updHost s (fun h => match p with
    | .pcie => { h with lastGood := s.tick, pcie := { h.pcie with seq := some seq } }
    | .spi => { h with lastGood := s.tick, spi := { h.spi with seq := some seq } })
  causeGone s F.HOST_SILENT 0

/-- Send an immediate reply and store it for a repeated packet (R45). -/
def answer (s : State) (op : Nat) (c : Cmd) (status detail : Nat) (payload : List Word) : State :=
  let ws := replyWords op status c.tag.toNat detail c.seq payload
  let s := updHost s (fun h => match c.port with
    | .pcie => { h with pcie := { h.pcie with reply := ws } }
    | .spi => { h with spi := { h.spi with reply := ws } })
  sendReply s c.port c.irq ws

/-- Reply and effect of an interpreted command (R47, R50, R51, R53). -/
def finish (op : Nat) (c : Cmd) (r : Res) (s : State) : State :=
  match r with
  | .err e => answer s op c e.status e.detail [BitVec.ofNat 32 e.diag]
  | .fail e s' => answer (if c.dryRun then s else s') op c e.status e.detail [BitVec.ofNat 32 e.diag]
  | .ok detail payload s' => answer (if c.dryRun then s else s') op c St.ok detail payload
  | .accepted s' after =>
    if c.dryRun then answer s op c St.ok 0 []
    else after (answer s' op c St.accepted 0 [])
  | .later s' => if c.dryRun then answer s op c St.ok 0 [] else s'

/-- The checks of R44 steps 5 to 7 in order; `own` is the command's own check of its target and block words. -/
def commonErr (sp : CmdSpec) (own : Option CmdErr) (c : Cmd) (s : State) : Option CmdErr :=
  firstErr [targetErr sp c, own, lengthErr sp c, powerErr sp s]

/-- Interpretation of a packet that has passed R44 steps 1 to 4. -/
def interpret (sp : CmdSpec) (own : Option CmdErr) (body : Cmd → State → Res) (c : Cmd) (s : State) : State :=
  let s := goodPacket s c.port c.seq
  finish sp.op c (Res.check (commonErr sp own c s) (body c s)) s

/-- A command row: the interpretation, where a command can be under it. -/
def runCmd (sp : CmdSpec) (own : Option CmdErr) (body : Cmd → State → Res) (c : Cmd) (s : State) : State :=
  if takeable s c.port then interpret sp own body c s else s

/-- A command's specification with target 0 and no reserved bits, available in READY and RUN as given. -/
def cmdSpec (op lo hi : Nat) (ready run : Bool) : CmdSpec := ⟨op, .below 1, lo, hi, false, ready, run, [], 1, false⟩

/-! ### Long operations (R51, R52) -/

/-- Start a long operation. -/
def startOp (s : State) (op key : Nat) (c : Cmd) (args : List Nat) : State :=
  { s with ops := s.ops ++ [⟨op, c.port, c.irq, c.tag, c.seq, s.tick, key, args⟩] }

/-- Complete a long operation: completion reply with the same opcode, tag and sequence, which sets REPLY_PCIE when it is
written (R67), which may be later in the reply window; its resources are released. -/
def completeOp (s : State) (o : LongOp) (status detail : Nat) (payload : List Word) : State :=
  let s := dropOp s o.op o.key
  let t := sendReply s o.port true (replyWords o.op status o.tag.toNat detail o.seq payload)
  if o.port = .pcie && pcieOn s then t else irqSet t 0

/-- Complete with OK. -/
def completeOk (s : State) (o : LongOp) (payload : List Word) : State := completeOp s o St.ok 0 payload

/-- Complete with an error and its DIAG. -/
def completeErr (s : State) (o : LongOp) (e : CmdErr) : State :=
  completeOp s o e.status e.detail [BitVec.ofNat 32 e.diag]

/-- A meaning's outcome: the next state, after the reel has seen the digital lines (R467). -/
def ends (s : State) : Host.Outcome State Fault Refusal := .next (reelObserve s)

/-- Outside the always-on logic and the belay nothing happens while the core clock stands still (R490). -/
def whenClocked (s : State) (o : Host.Outcome State Fault Refusal) : Host.Outcome State Fault Refusal :=
  if clockOn s then o else .next s

/-- Microseconds since an operation started, for the DIAG of E_TIMEOUT (R47). -/
def elapsedUs (s : State) (o : LongOp) : Nat := (s.tick - o.start) / 200

end Sys2Proof.Machine
end

