-- ==== Sys2Proof/Machine/CleatOps.lean ====
section
/-! DEFINITION. Operations of the cleat, the ledger and retirement (R161 to R173, R274, R285, R286) that several
meanings share. -/

namespace Sys2Proof.Machine

/-! ### Due marks -/

/-- The next mark's count. -/
def nextMarkNo (s : State) : Nat := s.per.count + 1

/-- Run an effect that is due at mark `m`: at once if that mark has come, at its tick if it is the next one; nothing
happens before. -/
def atMark (s : State) (m : Nat) (f : State → State) : State :=
  if !s.per.running then s
  else if m ≤ s.per.count then f s
  else if m = s.per.count + 1 then f (advanceTo s s.per.nextMark)
  else s

/-! ### Supervision -/

/-- The ledger's supervision (R170): it raises only while a placement is in force, and the cause is gone wherever the
ledger is 0 or above. -/
def ledgerWatch (s : State) : State :=
  armList.foldl (fun s a =>
    if 0 ≤ armLedger s a || s.disc.placed then causeSet s F.ARM_REDUNDANCY_LOST a (decide (armLedger s a < 0)) else s) s

/-- The cleat's supervision: `CLT_HIGH_WATER` and `F_CLEAT_LOW` (R169). -/
def cleatWatch (s : State) : State :=
  let s := maxP s P.CLT_HIGH_WATER 0 ((cleatList s).filter (fun e => e.st != .free)).length
  let warn := getN s P.CLT_WARN_FREE 0
  causeSet s F.CLEAT_LOW 0 (warn != 0 && decide (cltFaultFree s ≤ warn))

/-- Whether a cell has a pending suspicion. -/
def isPending (s : State) (c : Nat) : Bool := s.cleat.pend.contains c

/-- Whether an arm has a pending suspicion (R165). -/
def armPending (s : State) (a : Nat) : Option Nat := s.cleat.pend.find? (fun c => (cellOf s c).arm == a)

/-- Causes of the cell faults are gone once the cell holds no fault entry and no pending suspicion (R443). -/
def cellCauses (s : State) (c : Nat) : State :=
  let held := match cleatHeld? s c with
    | some e => (cleatOf s e).fault
    | none => false
  if held || isPending s c then s
  else [F.CELL_SUSPECT, F.CELL_UVLO, F.CELL_SC, F.CELL_OV, F.CELL_CODE_ERR].foldl (fun s f => causeGone s f c) s

/-- The cause of `F_CLEAT_FULL` of an arm is gone without pending suspicion (R165). -/
def cleatFullGone (s : State) (a : Nat) : State :=
  if (armPending s a).isNone && causeHeld s F.CLEAT_FULL a then causeGone s F.CLEAT_FULL a else s

/-! ### Entries -/

/-- Rank position of a cell in its arm's active table (R137). -/
def activePos (s : State) (a c : Nat) : Option Nat :=
  match (armOf s a).active with
  | some b => rankPos b.table c
  | none => none

/-- The retry window of a fault entry of a cell (R166): none runs for a cell under retirement. -/
def retryOf (s : State) (c : Nat) : Option Nat :=
  if (cellOf s c).retire = .no then some (getN s P.CLT_RETRY_EPOCHS 0) else none

/-- A HELD entry for a cell (R161). `since` is the mark at which it is first HELD. -/
def heldEntry (s : State) (e c : Nat) (ovr : Override) (fault : Bool) (act since : Nat) : CleatEntry :=
  let a := (cellOf s c).arm
  let pos := activePos s a c
  { st := .held, cell := c, ovr := ovr, fault := fault, borrowed := fault && decide (e < maintSize s)
    absent := pos.isNone, arm := a, pos := pos.getD 0, since := since, freeAt := 0
    latches := if fault then retryOf s c else none, act := if fault then 0 else act }

/-- The entry that holds the cell, changed to fault use at mark `m` (R164). -/
def toFault (s : State) (m e : Nat) : State :=
  updCleat s e (fun x => { x with fault := true, ovr := .forceBypass, borrowed := decide (e < maintSize s), act := 0,
                                  since := m, latches := retryOf s x.cell })

/-- Take entry `e` for fault use of a cell, HELD at mark `m`. -/
def takeFault (s : State) (m e c : Nat) : State :=
  cleatWatch (updCleat s e (fun _ => heldEntry s e c .forceBypass true 0 m))

/-- Release a HELD entry at mark `m` (R161): RELEASE_PENDING until mark m + L − 1. -/
def releaseEntry (s : State) (e m : Nat) : State :=
  let x := cleatOf s e
  if x.st = .held then
    let s := updCleat s e (fun x => { x with st := .pending, freeAt := m + s.per.lat - 1, latches := none })
    cellCauses s x.cell
  else s

/-- Start retirement of a cell (R167 step 1): it ends the entry's retry window. `closed` as R274. -/
def startRetire (s : State) (c : Nat) (closed : Bool) : State :=
  if (cellOf s c).retire = .no && !(cellOf s c).retired then
    let s := updCell s c (fun x => { x with retire := .start closed })
    match cleatHeld? s c with
    | some e => updCleat s e (fun x => { x with latches := none })
    | none => s
  else s

/-- A suspicion takes a fault entry, or is pending (R162, R164, R165). A new cause in the cell's own fault entry is a
failure of its retry window (R166). -/
def faultUse (s : State) (c : Nat) : State :=
  match cleatHeld? s c with
  | some e =>
    if (cleatOf s e).fault then
      (if (cleatOf s e).latches.isSome then startRetire s c false else s)
    else cleatWatch (toFault s (nextMarkNo s) e)
  | none =>
    if isPending s c then s
    else match faultPick s with
      | some e => takeFault s (nextMarkNo s) e c
      | none =>
        let s := { s with cleat := { s.cleat with pend := s.cleat.pend ++ [c] } }
        let a := (cellOf s c).arm
        if (armOf s a).deblocked then raiseFault s F.CLEAT_FULL a else s

/-- A cell is suspect for a cause named by a fault code (R103, R164). RETIRED cells raise nothing (R270). -/
def suspectCell (s : State) (c code : Nat) : State :=
  if (cellOf s c).retired then s else faultUse (raiseFault s code c) c

/-- The entry of a cell that is to be retired (R167) or whose suspicion is pending: the one it holds, changed to fault
use at mark `m`, else a fault entry under R162. Nothing happens where none is available. -/
def retireEntry (s : State) (m c : Nat) : State :=
  match cleatHeld? s c with
  | some e => if (cleatOf s e).fault then s else cleatWatch (toFault s m e)
  | none =>
    match faultPick s with
    | some e => takeFault s m e c
    | none => s

/-- A pending suspicion's turn at mark `m` (R165): the oldest takes a FREE entry. -/
def servePending (m : Nat) (s : State) : State :=
  match s.cleat.pend with
  | [] => s
  | c :: l =>
    if (faultPick s).isNone && (cleatHeld? s c).isNone then s
    else
      let s := { s with cleat := { s.cleat with pend := l } }
      cleatFullGone (retireEntry s m c) (cellOf s c).arm

/-- Every pending suspicion that finds an entry at mark `m`, in the order of their declaration (R165). -/
def servePendings (m : Nat) (s : State) : State := (List.range 32).foldl (fun s _ => servePending m s) s

/-- A `CELL_RETIRE` that waits starts once its cell holds an entry or one has become FREE (R167). -/
def serveRetire (m : Nat) (s : State) : State :=
  (s.ops.filter (fun o => o.op == 0x37 && o.args.headD 0 == 1)).foldl (fun s o =>
    let s := retireEntry s m o.key
    if (cleatHeld? s o.key).isSome then startRetire (updOp s 0x37 o.key (fun _ => [0])) o.key false else s) s

/-- RELEASE_PENDING ends at mark `m` (R161): the entries due by then are FREE together (R168), and waiting suspicions and
retirements are served (R165, R167). -/
def freeCleats (s : State) (m : Nat) : State :=
  let due := (List.range 32).filter (fun e => (cleatOf s e).st == .pending && decide ((cleatOf s e).freeAt ≤ m))
  let s := due.foldl (fun s e => updCleat s e (fun _ => CleatEntry.empty)) s
  cleatWatch (serveRetire m (servePendings m s))

/-- An entry's RELEASE_PENDING ends, with all that end by the same mark (R161). -/
def freeCleat (s : State) (e : Nat) : State :=
  if (cleatOf s e).st = .pending then freeCleats s (cleatOf s e).freeAt else s

/-! ### Retirement -/

/-- Steps 3 to 5 of R167: RETIRED, the note, the entry released at mark `m`, the ledger, the host's reply. -/
def retireDone (s : State) (c m : Nat) : State :=
  let s := updCell s c (fun x => { x with retired := true, retire := .done })
  let s := causeGone (raiseFault s F.CELL_RETIRED c) F.CELL_RETIRED c
  let s := causeGone s F.PERM_BYPASS_FAIL c
  let s := match cleatHeld? s c with
    | some e => releaseEntry s e m
    | none => s
  let s := ledgerWatch s
  match opRun? s 0x37 c with
  | some o => completeOk s o []
  | none => s

/-- The bypass pair failed or was not confirmed (R286): the note, and a new pair `FRM_PERM_TIMEOUT` later. -/
def permFailed (s : State) (c : Nat) : State :=
  let s := raiseFault s F.PERM_BYPASS_FAIL c
  updCell s c (fun x => { x with retire := .again (s.tick + 200000 * getN s P.FRM_PERM_TIMEOUT 0) })

/-! ### Maintenance -/

/-- The slot of an activity that is admitted or ending. -/
def actSlot? (s : State) (id : Nat) : Option Nat :=
  (List.range 16).find? (fun i => id != 0 && (tabGet Activity.empty s.cleat.acts i).id == id)

/-- The slot of an admitted activity. -/
def actAdmitted? (s : State) (id : Nat) : Option Nat :=
  (List.range 16).find? (fun i =>
    let a := tabGet Activity.empty s.cleat.acts i
    id != 0 && a.id == id && a.ending.isNone)

/-- Change an activity slot. -/
def updAct (s : State) (i : Nat) (f : Activity → Activity) : State :=
  { s with cleat := { s.cleat with acts := tabUpd Activity.empty s.cleat.acts i f } }

/-- Whether a cell is held by a FORCE_BYPASS or FORCE_BLOCK entry of an activity. -/
def heldByAct (s : State) (id c : Nat) : Bool :=
  (cleatList s).any (fun e =>
    e.st == .held && !e.fault && e.act == id && e.cell == c && e.ovr != .holdState)

/-- The use of an activity in an arm (R172), counting cell `c` as excluded or held as well. -/
def actUse (s : State) (id a c : Nat) : Nat :=
  ((armCells s a).filter (fun p =>
    p.1 == c || getN s P.CLT_EXCLUDE p.1 == id || heldByAct s id p.1)).length

/-- The slot of an activity whose costs end is freed (R173). -/
def freeActivity (s : State) (i : Nat) : State := ledgerWatch (updAct s i (fun _ => Activity.empty))

/-- Remove an activity's exclusion marks (R173). -/
def clearExcl (s : State) (id : Nat) : State :=
  { s with params := tabFilter (fun k w => !(k / 65536 == P.CLT_EXCLUDE && w.toNat == id)) s.params }

end Sys2Proof.Machine
end

