-- ==== Sys2Proof/Machine/StrOps.lean ====
section
/-! DEFINITION. The fairlead's operations (R215 to R226): task slots, dependence counters, placement, completion,
abandonment, and the strands. -/

namespace Sys2Proof.Machine

/-! ### Task classes (R216) -/

abbrev TC.intake : Nat := 0
abbrev TC.pred : Nat := 1
abbrev TC.sort : Nat := 2
abbrev TC.arb : Nat := 3
abbrev TC.swap : Nat := 4
abbrev TC.publish : Nat := 5
abbrev TC.cmd : Nat := 6
abbrev TC.msg : Nat := 7
abbrev TC.tally : Nat := 8
abbrev TC.disc : Nat := 9
abbrev TC.background : Nat := 10
/-- The mark of a FREE slot. -/
abbrev TC.free : Nat := 16

/-- The priority of a class (R216). -/
def clsPrio : Nat → Nat
  | 0 => 0
  | 1 => 2
  | 2 => 2
  | 3 => 1
  | 4 => 2
  | 5 => 1
  | 6 => 3
  | 7 => 4
  | 8 => 5
  | 9 => 6
  | _ => 7

/-- Slots in use. -/
def slotsUsed (s : State) : Nat := (s.str.slots.filter (fun p => p.2.cls != TC.free)).length

/-- Tasks READY and not placed. -/
def readyTasks (s : State) : List (Nat × Task) := s.str.slots.filter (fun p => p.2.cls != TC.free && p.2.st == .ready)

/-- The first FREE slot of those a class may use: 255 is for CMD alone (R217). -/
def freeSlot (s : State) (cls : Nat) : Option Nat :=
  if cls = TC.cmd then (if (taskOf s 255).cls = TC.free then some 255 else none)
  else (List.range 255).find? (fun i => (taskOf s i).cls == TC.free)

/-- A task event in the trace (R229): the instance as INFO. -/
def traceTask (s : State) (code slot : Nat) (t : Task) (strand : Nat) : State :=
  traceEvent s code slot t.cls strand t.prio t.inst

/-- A slot becomes READY. -/
def readyTask (s : State) (i : Nat) : State :=
  let s := updTask s i (fun t => { t with st := .ready, readyAt := s.tick })
  let s := traceTask s 0 i (taskOf s i) 0
  maxP s P.STR_READY_MAX 0 (readyTasks s).length

/-- Put a task into a FREE slot: READY with counter 0, else WAITING (R218). -/
def seatTask (s : State) (i : Nat) (t : Task) : State :=
  let s := updTask s i (fun _ => { t with st := .waiting })
  let s := maxP s P.STR_SLOTS_HIGH 0 (slotsUsed s)
  if t.counter = 0 then readyTask s i else s

/-- Create a task in the first FREE slot, or, without one, for the first slot that becomes FREE (R221); links name it by
the number told: its slot, or the number it waits under. -/
def createSlot (s : State) (t : Task) : State × Nat :=
  match freeSlot s t.cls with
  | some i => (seatTask s i t, i)
  | none =>
    ({ s with str := { s.str with waiting := s.str.waiting ++ [(s.str.waitNo, t)], waitNo := s.str.waitNo + 1 } },
      s.str.waitNo)

/-- Create a task (R221). -/
def createTask (s : State) (t : Task) : State := (createSlot s t).1

/-- A new task of a class, with the priority of its class (R216). -/
def newTask (cls inst part counter : Nat) (succ : List (Nat × Bool)) (release deadline : Option Nat) : Task :=
  { Task.empty with cls := cls, prio := clsPrio cls, inst := inst, part := part, counter := counter, succ := succ,
                    release := release, deadline := deadline }

/-- Links to a task that waited for a slot follow it there (R217, R221). -/
def relink (a b : Nat) (t : Task) : Task := { t with succ := t.succ.map (fun p => if p.1 = a then (b, p.2) else p) }

/-- The oldest task that waits for a slot takes a FREE one (R221). -/
def seatWaiting (s : State) : State :=
  match s.str.waiting with
  | [] => s
  | (k, t) :: l =>
    match freeSlot s t.cls with
    | none => s
    | some j =>
      seatTask { s with str := { s.str with
        waiting := l.map (fun p => (p.1, relink k j p.2)), slots := tabMap Task.empty (fun _ x => relink k j x) s.str.slots } }
        j (relink k j t)

/-- Free a slot; a task that waits for one takes it (R221). -/
def freeTask (s : State) (i : Nat) : State := seatWaiting (updTask s i (fun _ => Task.empty))

/-- Decrement the counter of a WAITING successor (R219); one that waits for a slot is WAITING too. -/
def decTask (s : State) (i : Nat) : State :=
  let t := taskOf s i
  if 256 ≤ i then
    { s with str := { s.str with
        waiting := s.str.waiting.map (fun p => if p.1 = i then (i, { p.2 with counter := p.2.counter - 1 }) else p) } }
  else if t.cls ≠ TC.free && t.st = .waiting then
    let s := updTask s i (fun t => { t with counter := t.counter - 1 })
    if t.counter ≤ 1 then readyTask s i else s
  else s

/-- Abandonment or cancellation of successors (R219): HARD ones that wait are cancelled, and theirs in turn; SOFT ones
are decremented. The first argument bounds the depth of the links. -/
def cancelSucc : Nat → State → List (Nat × Bool) → State
  | 0, s, _ => s
  | n + 1, s, l =>
    l.foldl (fun s p =>
      let t := taskOf s p.1
      if !p.2 then decTask s p.1
      else if 256 ≤ p.1 then
        let succ := ((s.str.waiting.find? (fun q => q.1 == p.1)).map (fun q => q.2.succ)).getD []
        cancelSucc n { s with str := { s.str with waiting := s.str.waiting.filter (fun q => q.1 != p.1) } } succ
      else if t.cls ≠ TC.free && t.st = .waiting then
        let s := traceTask s 4 p.1 t 0
        let s := freeTask s p.1
        cancelSucc n s t.succ
      else s) s

/-! ### Strands -/

/-- Whether a strand's domain is on (R214). -/
def strandOn (s : State) (n : Nat) : Bool := if n < 4 then bit s.pwr.domains.toNat 4 else bit s.pwr.domains.toNat 5

/-- The window of 1 ms that holds a tick. -/
def busyWindow (t : Nat) : Nat := t / 200000

/-- Account busy ticks from `a` to `b` to a strand's windows (`STR_BUSY`). -/
def busyAdd (s : State) (n a b : Nat) : State :=
  let x := strandOf s n
  let wa := busyWindow a
  let wb := busyWindow b
  let old := x.winFrom
  let s := if old < wa then putN s P.STR_BUSY n (if old + 1 = wa then x.busy else 0) else s
  let base := if old < wa then 0 else x.busy
  if wa = wb then updStrand s n (fun x => { x with winFrom := wa, busy := base + (b - a) })
  else
    let s := putN s P.STR_BUSY n (base + (200000 * (wa + 1) - a))
    updStrand s n (fun x => { x with winFrom := wb, busy := b - 200000 * wb })

/-- `STR_BUSY` at this tick: of the last complete window. -/
def busyRead (s : State) (n : Nat) : Nat :=
  let x := strandOf s n
  let w := busyWindow s.tick
  let lo := 200000 * (w - 1)
  let run := match x.slot with
    | some i =>
      let a := max (taskOf s i).startAt lo
      if a < 200000 * w then 200000 * w - a else 0
    | none => 0
  if w ≤ x.winFrom then getN s P.STR_BUSY n
  else if w = x.winFrom + 1 then x.busy + run
  else run

/-- Words of a strand's local SRAM (R212): 64 KB. -/
def sramWords : Nat := 16384

/-- A word of a strand's local SRAM (R212): working data of the running task, which the manual leaves to the firmware
(a free value); none is kept from task to task. -/
def sramWord (s : State) (n w : Nat) : Option Word :=
  if w < sramWords then (strandOf s n).sram.map (fun k => Config.freeWord (k + w)) else none

/-- A strand without a task is gated in the next tick, unless a task is placed on it in this one (R215). -/
def releaseStrand (s : State) (n : Nat) : State :=
  traceLater (updStrand s n (fun x => { x with slot := none, gateAt := s.tick + 1, sram := none })) 5 (s.tick + 1) 0 0 n 0 0

/-- Whether a strand is gated (R215). -/
def strandGated (s : State) (n : Nat) : Bool := (strandOf s n).slot.isNone && decide ((strandOf s n).gateAt ≤ s.tick)

/-- The GATE entry of a strand that gets a task in time is not written. -/
def gateDrop (s : State) (n : Nat) : State :=
  { s with str := { s.str with traceDue := s.str.traceDue.filter (fun e =>
      !(traceCode e.2 == 5 && field e.2.2.toNat 14 12 == n && decide (s.tick < e.1))) } }

/-- Stop the task in a slot and free its strand: its busy ticks are accounted. -/
def unseat (s : State) (i : Nat) : State :=
  let t := taskOf s i
  if t.cls ≠ TC.free && t.st = .running then releaseStrand (busyAdd s t.strand t.startAt s.tick) t.strand else s

/-- Abandon a task (R224): its slot and strand are freed, R219 applies to its successors, the miss is counted. -/
def abandonTask (s : State) (i : Nat) : State :=
  let t := taskOf s i
  if t.cls = TC.free then s
  else
    let s := traceTask s 3 i t (if t.st = .running then t.strand else 0)
    let s := unseat s i
    let s := freeTask s i
    let s := incP s P.STR_DEADLINE_MISS t.cls
    cancelSucc 8 s t.succ

/-- Whether a task is before another in placement order: priority, readiness, slot (R222). -/
def placeLe (a b : Nat × Task) : Bool :=
  a.2.prio < b.2.prio || (a.2.prio == b.2.prio &&
    (a.2.readyAt < b.2.readyAt || (a.2.readyAt == b.2.readyAt && a.1 ≤ b.1)))

/-- Strands that can take a task, ascending (R222). -/
def freeStrands (s : State) : List Nat :=
  (List.range 8).filter (fun n => strandOn s n && !(strandOf s n).offline && (strandOf s n).slot.isNone)

/-- Place one task on a strand; a gated strand starts it 2 ticks later (R215). -/
def placeOn (s : State) (i n : Nat) : State :=
  let t := taskOf s i
  let g := strandGated s n
  let s := if g then traceEvent s 6 0 0 n 0 0 else gateDrop s n
  let at_ := if g then s.tick + 2 else s.tick
  let s := updTask s i (fun t => { t with st := .running, strand := n, startAt := at_,
                                          limit := getN s P.STR_TASK_LIMIT 0 })
  let s := updStrand { s with freeCtr := s.freeCtr + sramWords } n (fun x => { x with slot := some i, sram := some s.freeCtr })
  let s := maxP s P.STR_WAIT_MAX t.prio (min (at_ - t.readyAt) 65535)
  if g then traceLater s 1 at_ i t.cls n t.prio t.inst else traceTask s 1 i t n

/-- One round of placement (R222). -/
def placeTasks (s : State) : State :=
  ((sortBy placeLe (readyTasks s)).zip (freeStrands s)).foldl (fun s p => placeOn s p.1.1 p.2) s

/-- A task is stopped by the watchdog or an SRAM error (R225): the strand goes OFFLINE and `F_STRAND_FAULT` is raised;
the task becomes READY again, and is abandoned at its second stop. -/
def stopTask (s : State) (n info : Nat) : State :=
  match (strandOf s n).slot with
  | none => s
  | some i =>
    let t := taskOf s i
    let s := traceEvent s 7 i t.cls n t.prio info
    let s := busyAdd s n t.startAt s.tick
    let s := updStrand s n (fun x => { x with slot := none, offline := true, gateAt := s.tick, sram := none })
    let s := raiseFault s F.STRAND_FAULT n
    if t.stopped then
      abandonTask (updTask s i (fun t => { t with st := .waiting })) i
    else
      readyTask (updTask s i (fun t => { t with stopped := true })) i

/-- Cancel every task a test accepts, without effect on successors: the work is dropped whole. Tasks that wait for a slot
take those that become FREE (R221). -/
def dropTasks (s : State) (p : Task → Bool) : State :=
  let hit := s.str.slots.filter (fun x => x.2.cls != TC.free && p x.2)
  let s := { s with str := { s.str with waiting := s.str.waiting.filter (fun t => !p t.2) } }
  let s := hit.foldl (fun s x => updTask (unseat s x.1) x.1 (fun _ => Task.empty)) s
  hit.foldl (fun s _ => seatWaiting s) s

/-- `STR_STATUS` of a strand (R234). -/
def strStatus (s : State) (n : Nat) : Nat :=
  let x := strandOf s n
  if !strandOn s n then 3
  else if x.offline then 2
  else match x.slot with
    | some i => 1 + 256 * i + 65536 * (taskOf s i).cls
    | none => 0

end Sys2Proof.Machine
end

