-- ==== Sys2Proof/Machine/TallyCore.lean ====
section
/-! DEFINITION. The tally (R306 to R314): block digests, the converter tally, entity states, mismatches. -/

namespace Sys2Proof.Machine

/-! ### Tables in force -/

/-- A word of a committed gain table; before any is committed, zeros with their CRC (R190). -/
def gainWord (s : State) (n i : Nat) : Word :=
  let ws := tableWords s (0x0200 + n) 0 18
  if i = 17 && ws.all (fun w => w == 0) then crcWords (List.replicate 17 0) else ws.getD i 0

/-- The point Gi of a gain table (R189). -/
def gainPoint (s : State) (n i : Nat) : Nat :=
  let w := (gainWord s n (i / 2)).toNat
  if i % 2 = 0 then w % 65536 else w / 65536

/-- Image length N of the patch store's word 0 (R232). -/
def patchLen (s : State) : Nat := field (tabGet 0 s.str.patch 0).toNat 31 16

/-! ### Digests (R306, R307) -/

/-- The block IDs in the order of the block index b (R306). -/
def blockIds : List Nat :=
  [0x00, 0x01, 0x02, 0x08, 0x10, 0x11, 0x12, 0x13, 0x14, 0x18, 0x19, 0x1C, 0x20, 0x21, 0x24, 0x25, 0x28, 0x30, 0x31,
   0x34, 0x38, 0x40, 0x44, 0x48, 0x4C, 0x4D]

/-- Whether a parameter is left out of the digests (R306). -/
def digestSkips (id : Nat) : Bool :=
  id == P.TRAJ_HOST_VAL || id == P.CLT_EXCLUDE || id == P.STR_TRACE_CTRL || id == P.STR_TRACE_MASK
    || id == P.DISC_MT_START || id == P.FLT_ERR_HOLD || id / 256 == 0x01 || id / 256 == 0x25

/-- The targets of a parameter in ascending order (R3, R11). -/
def targetsOf (d : ParamDef) : List Nat :=
  if d.id = P.FLT_CFG then (sortBy (fun (a b : FltDef) => decide (a.code ≤ b.code)) fltTable).map (fun f => f.code)
  else if d.count = 0 then [0] else List.range d.count

/-- The words of a block's digest that come from parameters. -/
def digestParams (s : State) (blk : Nat) : List Word :=
  (blockParams blk).flatMap (fun d =>
    if d.access = .rw && !digestSkips d.id then (targetsOf d).map (fun t => getP s d.id t) else [])

/-- The CRC words of a block's tables in force. -/
def digestTables (s : State) (blk : Nat) : List Word :=
  if blk = 0x18 then (List.range 16).map (fun n => gainWord s n 17)
  else if blk = 0x24 then (if s.disc.placed then [s.disc.topo.getD 457 0] else [])
  else if blk = 0x1C then
    (if getN s P.STR_PATCH_STATE 0 = 2 then [tabGet 0 s.str.patch (patchLen s - 1)] else [])
  else []

/-- The digest of a block; 0 for a block with nothing to digest. -/
def blockDigest (s : State) (blk : Nat) : Word :=
  let ws := digestParams s blk ++ digestTables s blk
  if ws.isEmpty then 0 else crcWords ws

/-- The indices that enter the converter tally: all but 1 and 15 (R307). -/
def tallyIndices : List Nat := (List.range 26).filter (fun b => b != 1 && b != 15)

/-- A change of what is digested has been applied: STALE, and a TALLY task (R307). While STALE no own digest is compared,
so mismatches of own and peer blocks are held anew from the comparison after it; a cause they have raised stays until
then (DEDUCED, log entry 51). -/
def tallyStale (s : State) : State :=
  let s := { s with tally := { s.tally with stale := true, since := tabFilter (fun c _ => decide (c < 0x2000)) s.tally.since } }
  let waits := s.str.slots.any (fun p => p.2.cls == TC.tally && p.2.st != .running)
  if waits then s else createTask s (newTask TC.tally 0x1FF 0 0 [] none none)

/-- A digest of a written parameter may have changed (R306, R307). -/
def tallyTouch (s : State) (id : Nat) : State :=
  match paramDef? id with
  | some d => if d.access = .rw && !digestSkips id then tallyStale s else s
  | none => s

/-! ### Entity states (R311) -/

/-- Entity code of a hub (R311). -/
def hubCode (l : Nat) : Nat := 0x1000 + l

/-- The expectation byte of a cell or hub in a table (R309). -/
def expByte (t : List Word) (code : Nat) : Nat :=
  let k := (t.getD 0 0).toNat % 256
  let i := if code < 0x1000 then 28 + k + code / 4 else 796 + k + (code - 0x1000) / 4
  field (t.getD i 0).toNat (8 * (code % 4) + 7) (8 * (code % 4))

/-- The expected digest of a cell or hub, none without expectation. -/
def expDigest (s : State) (code : Nat) : Option Word :=
  match s.tally.exp_ with
  | none => none
  | some t =>
    let b := expByte t code
    if bit b 7 then none else some (t.getD (28 + b % 64) 0)

/-- The digest of a cell or hub, none when UNKNOWN (R308). -/
def entDigest (s : State) (code : Nat) : Option Word :=
  if code < 0x1000 then
    (if (cellOf s code).digValid then some (getP s P.TALLY_CELL_DIGEST code) else none)
  else if (laneOf s (code - 0x1000)).digValid then some (getP s P.TALLY_HUB_DIGEST (code - 0x1000)) else none

/-- States of an entity (R311). -/
inductive EntSt where
  | none | atNew | atOld | other | unknown
  deriving DecidableEq, Repr

/-- The state of an entity (R311); `none` without expectation. -/
def entState (s : State) (code : Nat) : EntSt :=
  match expDigest s code with
  | none => .none
  | some e =>
    match entDigest s code with
    | none => .unknown
    | some d =>
      if d = e then .atNew
      else if tabGet none s.tally.old code = some d then .atOld
      else .other

/-- All cells, and all hubs. -/
def cellCodes : List Nat := List.range 3072
/-- Entity codes of the hubs. -/
def hubCodes : List Nat := (List.range 64).map hubCode

/-- How many entities of a list are in a state. -/
def entCount (s : State) (l : List Nat) (st : EntSt) : Nat := (l.filter (fun c => entState s c == st)).length

/-! ### Mismatches (R311, R312) -/

/-- Own blocks that differ from the expectation; none is compared while STALE. -/
def ownBad (s : State) : List Nat :=
  match s.tally.exp_ with
  | none => []
  | some t => if s.tally.stale then []
              else tallyIndices.filter (fun b => getP s P.TALLY_BLOCK b != t.getD (2 + b) 0)

/-- Whether the own converter tally differs from the expectation. -/
def convBad (s : State) : Bool :=
  match s.tally.exp_ with
  | none => false
  | some t => !s.tally.stale && getP s P.TALLY_CONVERTER 0 != t.getD 1 0

/-- Peer blocks that differ (R312). -/
def peerBad (s : State) : List Nat :=
  match s.tally.peer with
  | none => []
  | some l =>
    if s.tally.stale then []
    else tallyIndices.filter (fun b =>
      bit (getN s P.TALLY_PEER_MASK 0) b && l.getD (1 + b) 0 != getP s P.TALLY_BLOCK b)

/-- Cells and hubs that are OTHER. -/
def otherCodes (s : State) : List Nat := (cellCodes ++ hubCodes).filter (fun c => entState s c == .other)

/-- The entity code that stands for the own converter tally among own blocks; the manual reports none for it. -/
def convCode : Nat := 0x2FFF

/-- The kind of a mismatch by its entity code: 0 own, 1 peer, 2 cells and hubs. -/
def mismatchKind (code : Nat) : Nat := if code < 0x2000 then 2 else if code < 0x3000 then 0 else 1

/-- The entities of a kind that mismatch now (R311). -/
def mismatchNow (s : State) (k : Nat) : List Nat :=
  if k = 0 then (ownBad s).map (fun b => 0x2000 + b) ++ (if convBad s then [convCode] else [])
  else if k = 1 then (peerBad s).map (fun b => 0x3000 + b)
  else otherCodes s

/-- When the mismatch of an entity began. -/
def mismatchSince (s : State) (code : Nat) : Option Nat := tabGet none s.tally.since code

/-- Whether the mismatch of an entity has been held for `TALLY_PERSIST` (R311). -/
def heldCode (s : State) (code : Nat) : Bool :=
  match mismatchSince s code with
  | some t => decide (t + 200000 * getN s P.TALLY_PERSIST 0 ≤ s.tick)
  | none => false

/-- Whether a kind has a mismatch that has been held (R311). -/
def mismatchHeld (s : State) (k : Nat) : Bool := s.tally.since.any (fun p => mismatchKind p.1 == k && heldCode s p.1)

/-- When the oldest mismatch of a kind began. -/
def mismatchFrom (s : State) (k : Nat) : Option Nat :=
  ((s.tally.since.filter (fun p => mismatchKind p.1 == k)).filterMap (fun p => p.2)).min?

/-- Follow one kind of mismatch: when that of each entity began; the cause is gone when none remains. While STALE blocks
are not compared and end no cause. -/
def tallyFollow (s : State) (k : Nat) : State :=
  let now := mismatchNow s k
  let kept := tabFilter (fun c _ => mismatchKind c != k || now.contains c) s.tally.since
  let t := now.foldl (fun t c => if (tabGet none t c).isSome then t else tabSet none t c (some s.tick)) kept
  let s := { s with tally := { s.tally with since := t } }
  if now.isEmpty && (k == 2 || !s.tally.stale) then causeGone s F.TALLY_MISMATCH k else s

/-- Follow every kind of mismatch. -/
def tallyWatch (s : State) : State := tallyFollow (tallyFollow (tallyFollow s 0) 1) 2

/-- The TALLY task's work (R307): the digests are recomputed. -/
def tallyCompute (s : State) : State :=
  let s := (blockIds.zipIdx).foldl (fun s p =>
    if p.2 = 1 || p.2 = 15 then s else putP s P.TALLY_BLOCK p.2 (blockDigest s p.1)) s
  let s := putP s P.TALLY_CONVERTER 0 (crcWords (tallyIndices.map (fun b => getP s P.TALLY_BLOCK b)))
  tallyWatch { s with tally := { s.tally with stale := false } }

/-- A new digest of a cell or hub (R308). -/
def setDigest (s : State) (code : Nat) (w : Word) : State :=
  let s := if code < 0x1000 then updCell (putP s P.TALLY_CELL_DIGEST code w) code (fun x => { x with digValid := true })
    else updLane (putP s P.TALLY_HUB_DIGEST (code - 0x1000) w) (code - 0x1000) (fun x => { x with digValid := true })
  tallyFollow s 2

/-- `TALLY_STATUS` (R316). -/
def tallyStatus (s : State) : Nat :=
  b2n s.tally.exp_.isSome + 2 * b2n s.tally.stale + 4 * b2n (s.tally.old.any (fun p => p.2.isSome))
    + 8 * b2n (mismatchHeld s 0) + 16 * b2n (mismatchHeld s 1) + 32 * b2n (mismatchHeld s 2)
    + 64 * b2n (s.tally.peer.isSome && decide (s.tick ≤ s.tally.peerAt + 600000))

end Sys2Proof.Machine
end

