-- ==== Sys2Proof/Machine/ParamOps.lean ====
section
/-! DEFINITION. The checks of a parameter write that hold for every parameter: target (R11), width, sign and range
(R519, the range columns), and the two kinds of RW1C (R518). -/

namespace Sys2Proof.Machine

/-- The definition behind a parameter word: a parameter, or the high word of a 64-bit one under its own ID (R15). -/
def paramAny? (id : Nat) : Option ParamDef :=
  match paramDef? id with
  | some d => some d
  | none => (paramHigh? id).map (fun d => { d with id := id, wide := false })

/-- Whether a target names an instance of a parameter (R11). -/
def targetOk (d : ParamDef) (t : Nat) : Bool :=
  if d.id = P.FLT_CFG then (fltDef? t).isSome
  else if d.count = 0 then t == 0
  else decide (t < d.count)

/-- The refusal of a target (R11). -/
def paramTargetErr (d : ParamDef) (t : Nat) : Option CmdErr :=
  if targetOk d t then none
  else some ⟨if d.count = 0 && d.id ≠ P.FLT_CFG then St.param else St.range, d.id, t⟩

/-- The value a word carries, signed or not (R519). -/
def wordValue (d : ParamDef) (w : Word) : Int := if d.signed then w.toInt else (w.toNat : Int)

/-- Whether a word keeps to its parameter's width (R519). -/
def widthOk (d : ParamDef) (w : Word) : Bool :=
  if d.signed then decide (-(2 ^ (d.width - 1) : Int) ≤ w.toInt) && decide (w.toInt < 2 ^ (d.width - 1))
  else decide (w.toNat < 2 ^ d.width)

/-- Whether a word lies in the range its table states. -/
def inRange (d : ParamDef) (w : Word) : Bool :=
  match d.range with
  | .full => true
  | .among l => l.any (fun p => decide (p.1 ≤ wordValue d w) && decide (wordValue d w ≤ p.2))
  | .mask m => w.toNat &&& m == w.toNat
  | .special => true

/-- The refusal of a word out of range (R519). -/
def rangeErr (d : ParamDef) (w : Word) : Option CmdErr :=
  errIf (!(widthOk d w && inRange d w)) St.range d.id w.toNat

/-- The defined bits of a flag word, none for a counter (R518). -/
def flagMask (id : Nat) : Option Nat := (flagWords.find? (fun p => p.1 == id)).map (fun p => p.2)

/-- The refusal of a write to an RW1C parameter (R518). -/
def clearErr (d : ParamDef) (w : Word) : Option CmdErr :=
  match flagMask d.id with
  | some _ => none
  | none => errIf (w.toNat != 0 && w.toNat != 0xFFFFFFFF) St.range d.id w.toNat

/-- The effect of a write to an RW1C parameter (R518). -/
def clearSet (s : State) (id t : Nat) (w : Word) : State :=
  match flagMask id with
  | some m => putN s id t (getN s id t - (getN s id t &&& (w.toNat &&& m)))
  | none => if w.toNat = 0xFFFFFFFF then putN s id t 0 else s

end Sys2Proof.Machine
end

