-- ==== Sys2Proof/Machine/Belay.lean ====
section
/-! DEFINITION. The belay safety island (R398 to R423). -/

namespace Sys2Proof.Machine

/-! ### Safety inputs (R404 to R408) -/

/-- `SAFE_SI_CFG` of an input. -/
def siCfg (s : State) (n : Nat) : Nat := getN s P.SAFE_SI_CFG n

/-- Whether the belay runs: on, and not held in reset. -/
def belayOn (s : State) : Bool := s.belay.state != .off && !s.belay.inReset

/-- The test-pulse outputs of an input's tested channels (R407). -/
def siPulses (cfg : Nat) : List Nat :=
  (if bit cfg 4 then [field cfg 3 2] else []) ++ (if bit cfg 7 then [field cfg 6 5] else [])

/-- Whether a test-pulse output is in its pulse. -/
def tpPulse (s : State) (k : Nat) : Bool := bit s.belay.tpOn.toNat k

/-- Whether a grid sample is excluded for an input (R408). -/
def siExcluded (s : State) (cfg : Nat) : Bool :=
  (siPulses cfg).any (fun k =>
    tpPulse s k || decide (s.tick < tabGet 0 s.belay.tpEnd k + 200 * getN s P.SAFE_TP_SETTLE 0
                           ∧ tabGet 0 s.belay.tpEnd k ≠ 0))

/-- Whether this sample is the check of a test-pulse output: the last grid sample at least 100 µs after the start of the
pulse and before its end (R407). -/
def tpCheckNow (s : State) (k : Nat) : Bool :=
  let a := tabGet 0 s.belay.tpStart k
  let e := a + 200 * getN s P.SAFE_TP_WIDTH 0
  tpPulse s k && decide (a + 20000 ≤ s.tick) && decide (s.tick < e) && decide (e ≤ s.tick + 20000)

/-- Whether channel A or B of an input is in its safe state at given levels (R404). -/
def chanSafe (cfg : Nat) (b lvl : Bool) : Bool := if b && bit cfg 1 then lvl else !lvl

/-- The check of one channel during its pulse (R407). -/
def tpCheck (s : State) (n : Nat) (b : Bool) : State :=
  let cfg := siCfg s n
  let x := siOf s n
  let k := if b then field cfg 6 5 else field cfg 3 2
  let tested := if b then bit cfg 7 else bit cfg 4
  let was := if b then x.prevB else x.prevA
  if tested && tpCheckNow s k && was then
    let fail := !chanSafe cfg b (if b then x.bLevel else x.aLevel)
    let s := updSi s n (fun x => if b then { x with tpFailB := fail } else { x with tpFailA := fail })
    if fail then raiseBelay (updSi s n (fun x => { x with tpLat := true })) F.SAFE_TESTPULSE n 4 else s
  else s

/-- A run of disagreements ends (R406). -/
def siRunEnd (s : State) (n : Nat) : State :=
  let x := siOf s n
  let s := updSi s n (fun x => { x with run := 0, runHit := false })
  if 0 < x.run && !x.runHit then incP s P.SAFE_DISC_EVENTS n else s

/-- A demand (R405). -/
def siDemand (s : State) (n : Nat) : State :=
  let s := updSi s n (fun x => { x with bothSafe := x.bothSafe || x.disc })
  let s := if field (siCfg s n) 9 8 = 0 then s else updSi s n (fun x => { x with demandLat := true })
  raiseBelay s F.SAFE_DEMAND n 2

/-- A disagreement (R406): a run latches once. -/
def siDisagree (s : State) (n : Nat) : State :=
  let s := updSi s n (fun x => { x with run := min (x.run + 1) 255 })
  if getN s P.SAFE_DISC n ≤ (siOf s n).run && !(siOf s n).runHit then
    raiseBelay (updSi s n (fun x => { x with disc := true, bothSafe := false, runHit := true })) F.SAFE_DISCREPANCY n 3
  else s

/-- One grid sample of an input (R404 to R408). -/
def siSample (s : State) (n : Nat) (a b : Bool) : State :=
  let cfg := siCfg s n
  let s := updSi s n (fun x => { x with aLevel := a, bLevel := b })
  if !bit cfg 0 then s
  else
    let sa := chanSafe cfg false a
    let sb := chanSafe cfg true b
    let s := tpCheck (tpCheck s n false) n true
    if siExcluded s cfg then s
    else
      let s := updSi s n (fun x => { x with lastAgree := sa == sb, lastRun := !sa && !sb, demand := sa && sb })
      if sa && sb then siDemand (siRunEnd s n) n
      else if sa || sb then siDisagree s n
      else siRunEnd s n

/-! ### Internal checks (R399, R400, R411) -/

/-- An internal check fails (R417). -/
def internalFail (s : State) (i : Nat) : State :=
  raiseBelay (updBelay s (fun x => { x with fails := x.fails ||| 2 ^ i })) F.SAFE_INTERNAL i 10

/-- An internal check passes (R410). -/
def internalPass (s : State) (i : Nat) : State :=
  updBelay s (fun x => { x with fails := x.fails - (x.fails &&& 2 ^ i) })

/-! ### Safety reset (R409 to R411) -/

/-- Release the latch bits of a mask, the causes of their faults being gone (R417). -/
def unlatch (s : State) (m : Nat) : State := updBelay s (fun x => { x with latch := x.latch - (x.latch &&& m) })

/-- Release of an input's latches at an accepted edge (R410). -/
def siRelease (s : State) (n : Nat) : State :=
  let x := siOf s n
  let s := if x.demandLat && x.lastRun then
      causeGone (updSi s n (fun x => { x with demandLat := false })) F.SAFE_DEMAND n
    else s
  let s := if x.disc && x.bothSafe && x.lastAgree then
      causeGone (updSi s n (fun x => { x with disc := false, bothSafe := false })) F.SAFE_DISCREPANCY n
    else s
  if x.tpLat && !x.tpFailA && !x.tpFailB then
    causeGone (updSi s n (fun x => { x with tpLat := false })) F.SAFE_TESTPULSE n
  else s

/-- Whether some input holds a latch of a kind. -/
def anyInput (s : State) (p : SafetyInput → Bool) : Bool := (List.range 8).any (fun n => p (siOf s n))

/-- Whether the last result of a tag lies inside a limit by the hysteresis (R410). -/
def fdcInside (s : State) (i : Bool) : Bool :=
  let h := getN s P.SAFE_FDC_HYST 0
  if i then
    match s.belay.iLast.filter (fun _ => s.belay.iTag == field (getN s P.SAFE_FDC_I_TAG 0) 4 0) with
    | some r => decide (r.2 + h ≤ getN s P.SAFE_FDC_OC_HI 0) && decide (getN s P.SAFE_FDC_OC_LO 0 + h ≤ r.2)
    | none => false
  else
    match s.belay.vLast.filter (fun _ => s.belay.vTag == field (getN s P.SAFE_FDC_V_TAG 0) 4 0) with
    | some r => decide (r.2 + h ≤ getN s P.SAFE_FDC_OV 0)
    | none => false

/-- Whether each enabled tag has a result within `SAFE_FDC_STALE` (R410); with the check off nothing is asked of them
(DEDUCED, log entry 20). -/
def fdcFresh (s : State) : Bool :=
  let ok := fun (id tag : Nat) (l : Option (Nat × Nat)) =>
    !bit (getN s id 0) 7 || getN s P.SAFE_FDC_STALE 0 == 0 || match l with
      | some r => tag == field (getN s id 0) 4 0 && decide (s.tick ≤ r.1 + 200 * getN s P.SAFE_FDC_STALE 0)
      | none => false
  ok P.SAFE_FDC_V_TAG s.belay.vTag s.belay.vLast && ok P.SAFE_FDC_I_TAG s.belay.iTag s.belay.iLast

/-- Release a latch bit if its condition holds, the causes of a fault's instances being gone. -/
def relBit (s : State) (b : Nat) (ok : Bool) (code : Nat) (insts : List Nat) : State :=
  if bit s.belay.latch b && ok then insts.foldl (fun s i => causeGone s code i) (unlatch s (2 ^ b)) else s

/-- Release every latch whose condition holds (R410). -/
def releaseLatches (s : State) : State :=
  let s := if s.belay.okLock then unlatch s 3 else s
  let s := (List.range 8).foldl siRelease s
  let s := if anyInput s (fun x => x.demandLat) then s else unlatch s 4
  let s := if anyInput s (fun x => x.disc) then s else unlatch s 8
  let s := if anyInput s (fun x => x.tpLat) then s else unlatch s 16
  let s := relBit (updBelay s (fun x => { x with icm := 0 })) 5 true F.INSERT_COUNT armList
  let s := relBit s 6 (decide (2 ≤ s.belay.hbGood)) F.CAPSTAN_SILENT [0]
  let s := relBit s 7 (fdcInside s false) F.SAFE_FDC_OV [0]
  let s := relBit s 8 (fdcInside s true) F.SAFE_FDC_OC [0]
  let s := relBit s 9 (fdcFresh s) F.SAFE_FDC_STALE (List.range 24)
  let s := relBit s 10 (s.belay.fails == 0) F.SAFE_INTERNAL (List.range 5)
  if s.flt.entries.any (fun p => p.2.st != .free && p.2.fltTrip && p.2.cause) then s else unlatch s 2048

/-- Whether every frame that left an ACTIVE cell lane in the last complete period carried BLOCK_ALL and only words
0x0000 (R411). -/
def framesBlocked (s : State) : Bool :=
  (List.range 64).all (fun l => !laneActive s l || match (laneOf s l).dsPrev with
    | some f => f.blockAll && f.words.all (fun w => w == 0)
    | none => true)

/-- An accepted reset edge (R410, R411). The read-back is checked where an injection is in force (log entry 20):
`readback` is whether the encoders' outputs read back as the frames that left. -/
def resetEdge (s : State) (readback : Bool) : State :=
  let s := incP s P.SAFE_RESET_COUNT 0
  if s.belay.injecting && !(readback && framesBlocked s) then incP (internalFail s 2) P.SAFE_RESET_REFUSED 0
  else
    let s := releaseLatches (internalPass s 2)
    if s.belay.latch = 0 then
      injectLanes (updBelay s (fun x => { x with state := .normal, injecting := false, tripOut := false, icmRun := [] }))
    else incP s P.SAFE_RESET_REFUSED 0

/-- A press reaches 5 s (R409). -/
def srstHeld (s : State) : State := raiseFault (updBelay s (fun x => { x with srstStuck := true })) F.SAFE_RESET_STUCK 0

/-- One grid sample of `SRST_N` (R409): a level counts after 10 equal samples. -/
def srstSample (s : State) (high readback : Bool) : State :=
  let x := s.belay
  let run := if x.srstRaw = high then min (x.srstRun + 1) 10 else 1
  let s := updBelay s (fun x => { x with srstRaw := high, srstRun := run })
  let s := if x.srstLow && !x.srstStuck && x.srstFrom.any (fun t => decide (t + 1000000000 ≤ s.tick)) then srstHeld s else s
  if run < 10 then s
  else if !high && !x.srstLow then
    updBelay s (fun x => { x with srstLow := true, srstFrom := some s.tick, srstStuck := false })
  else if high && x.srstLow then
    let d := s.tick - x.srstFrom.getD s.tick
    let s := updBelay s (fun x => { x with srstLow := false, srstFrom := none })
    if x.srstStuck || 1000000000 ≤ d then causeGone s F.SAFE_RESET_STUCK 0
    else if d < 10000000 then incP s P.SAFE_RESET_SHORT 0
    else resetEdge s readback
  else s

/-- The trip balls read back (R400). -/
def tripBack (s : State) (a b : Bool) : State :=
  let s := updBelay s (fun x => { x with tripA := a, tripB := b })
  if a != s.belay.tripOut && b == s.belay.tripOut then internalPass s 1
  else if bit s.belay.fails 1 then s else internalFail s 1

/-- The grid comes to its next sample (R404), 100 µs after the last; the first sample fixes the grid, and the origin of
the pulse cycle 50 µs after it (R407; DESIGN CHOICE, log entry 20). -/
def gridNext (s : State) : State :=
  let s := match s.belay.gridAt with
    | some t => advanceTo s (t + 20000)
    | none => s
  updBelay s (fun x => { x with gridAt := some s.tick, tpOrigin := some (x.tpOrigin.getD (s.tick + 10000)) })

/-- A 100 µs grid sample (R404, R409, R400): the levels of the channels, of `SRST_N` and of the trip balls, and whether
the encoders' outputs of the last complete period read back as the frames sent (R411). -/
def execBelaySample (a b : BitVec 8) (srstHigh tripA tripB injection : Bool) (s : State) :
    Host.Outcome State Fault Refusal :=
  if belayOn s then
    let s := internalPass (tripBack (gridNext s) tripA tripB) 3
    let s := updBelay s (fun x => { x with readback := injection })
    let s := (List.range 8).foldl (fun s n => siSample s n (bit a.toNat n) (bit b.toNat n)) s
    ends (srstSample s srstHigh injection)
  else ends s

/-- The tick of an output's next pulse (R407): a quarter of the period after one another from the cycle's origin. -/
def tpDue (s : State) (k origin : Nat) : Nat :=
  let p := 200000 * getN s P.SAFE_TP_PERIOD 0
  let a := origin + k * p / 4
  a + (s.tick - a + (p - 1)) / p * p

/-- A test pulse starts in its slot (R407): the run states before it are kept. Pulses never overlap. -/
def execTestPulseStart (output : Fin 4) (s : State) : Host.Outcome State Fault Refusal :=
  let k := output.val
  if belayOn s && bit (getN s P.SAFE_TP_EN 0) k && s.belay.tpOn == 0 && s.belay.tpOrigin.isSome then
    let s := advanceTo s (tpDue s k (s.belay.tpOrigin.getD 0))
    let s := updBelay s (fun x => { x with tpOn := x.tpOn ||| BitVec.ofNat 4 (2 ^ k), tpStart := tabSet 0 x.tpStart k s.tick })
    ends ((List.range 8).foldl (fun s n =>
      let cfg := siCfg s n
      updSi s n (fun x =>
        let x := if bit cfg 4 && field cfg 3 2 == k then { x with prevA := !chanSafe cfg false x.aLevel } else x
        if bit cfg 7 && field cfg 6 5 == k then { x with prevB := !chanSafe cfg true x.bLevel } else x)) s)
  else ends s

/-- A test pulse ends (R407). -/
def execTestPulseEnd (output : Fin 4) (s : State) : Host.Outcome State Fault Refusal :=
  let k := output.val
  if tpPulse s k then
    let e := tabGet 0 s.belay.tpStart k + 200 * getN s P.SAFE_TP_WIDTH 0
    let s := advanceTo s e
    ends (updBelay s (fun x => { x with tpOn := x.tpOn &&& ~~~(BitVec.ofNat 4 (2 ^ k)), tpEnd := tabSet 0 x.tpEnd k s.tick }))
  else ends s

/-- A press of `SRST_N` reaches 5 s (R409). -/
def execSrstStuck (s : State) : Host.Outcome State Fault Refusal :=
  match s.belay.srstFrom with
  | some t =>
    if belayOn s && !s.belay.srstStuck then
      let s := advanceTo s (t + 1000000000)
      ends (srstHeld s)
    else ends s
  | none => ends s

/-- No capstan heartbeat for `SAFE_HB_TIMEOUT` (R414). -/
def execHeartbeatTimeout (s : State) : Host.Outcome State Fault Refusal :=
  if belayOn s && s.belay.hbSeen then
    let s := advanceTo s (s.belay.hbTick + 200 * getN s P.SAFE_HB_TIMEOUT 0)
    ends (raiseBelay s F.CAPSTAN_SILENT 0 6)
  else ends s

/-- An enabled tag has had no result for `SAFE_FDC_STALE` while a cell is inserted (R416). -/
def execFdcStaleTimeout (current : Bool) (s : State) : Host.Outcome State Fault Refusal :=
  let cfg := getN s (if current then P.SAFE_FDC_I_TAG else P.SAFE_FDC_V_TAG) 0
  let stale := getN s P.SAFE_FDC_STALE 0
  if belayOn s && bit cfg 7 && stale != 0 && s.belay.inserted then
    let x := s.belay
    let last := match (if current then x.iLast.filter (fun _ => x.iTag == field cfg 4 0)
        else x.vLast.filter (fun _ => x.vTag == field cfg 4 0)) with
      | some r => r.1
      | none => 0
    let s := advanceTo s (max last s.belay.fdcFrom + 200 * stale)
    ends (raiseBelay s F.SAFE_FDC_STALE (field cfg 4 0) 9)
  else ends s

/-- The belay's count of core ticks over 5,000 RC cycles (R399). -/
def execBelayClockCheck (count : Nat) (s : State) : Host.Outcome State Fault Refusal :=
  if belayOn s && clockOn s then
    let ok := decide (36000 ≤ count) && decide (count ≤ 44000)
    let s := updBelay s (fun x => { x with clockOk := ok })
    ends (if ok then internalPass s 0 else internalFail s 0)
  else ends s

/-- Whether the count of RC cycles in a cycle of the always-on clock is legal (R399). -/
def rcOk (rc : Nat) : Bool := decide (600 ≤ rc) && decide (rc ≤ 960)

/-- The reset supervisor (R399, R400): `VDD_BELAY` below 0.72 V (`low`), or `rc` RC cycles in a cycle of the always-on
clock, hold the belay in reset: tripped outputs, injection held. -/
def execBelayReset (s : State) (low : Bool := true) (rc : Nat := 0) : Host.Outcome State Fault Refusal :=
  if belayOn s && (low || !rcOk rc) then
    let s := internalFail s 4
    ends (updBelay s (fun x => { x with inReset := true, injecting := true, tripOut := true, lowVdd := low }))
  else if s.belay.state ≠ .off ∧ low then ends (updBelay s (fun x => { x with lowVdd := true }))
  else ends s

/-- Release from reset (R399, R401) with `VDD_BELAY` no longer low for `ok` ticks and a legal count: TRIPPED, with latch
BELAY_RESET. -/
def execBelayResetRelease (s : State) (ok : Nat := 200000) (rc : Nat := 780) : Host.Outcome State Fault Refusal :=
  if s.belay.state ≠ .off ∧ s.belay.inReset ∧ rcOk rc ∧ (!s.belay.lowVdd || decide (200000 ≤ ok)) then
    let s := internalPass (belayLatch s 1) 4
    ends (updBelay s (fun x => { x with
      inReset := false, lowVdd := false, state := .tripped, srstRun := 0, srstLow := false, srstFrom := none
      srstStuck := false, tpOn := 0, gridAt := none, tpOrigin := none, ovRun := 0, ocRun := 0, icmRun := [] }))
  else ends s

/-- An error in the belay's SRAM that SECDED cannot correct (R398, R417). -/
def execBelaySramError (s : State) : Host.Outcome State Fault Refusal :=
  if belayOn s then ends (internalFail s 3) else ends s

/-! ### Fast DC comparators (R415) -/

/-- Whether a count reaches its limit, or is past it without its latch (R414, R415). -/
def countHit (s : State) (run id latch : Nat) : Bool :=
  decide (getN s id 0 ≤ run) && (run == getN s id 0 || !bit s.belay.latch latch)

/-- One ADC-B raw result of a tag (R415). -/
def fdcResult (s : State) (tag raw : Nat) : State :=
  if !belayOn s then s
  else
    let v := getN s P.SAFE_FDC_V_TAG 0
    let i := getN s P.SAFE_FDC_I_TAG 0
    let last := getN s P.SAFE_FDC_LAST 0
    let s := if bit v 7 && field v 4 0 == tag then
        let s := putN s P.SAFE_FDC_LAST 0 (last / 65536 * 65536 + raw)
        let above := decide (getN s P.SAFE_FDC_OV 0 < raw)
        let s := updBelay s (fun x => { x with
          vLast := some (s.tick, raw), vTag := tag
          ovRun := if !above then 0 else if x.vTag = tag then x.ovRun + 1 else 1 })
        if above && countHit s s.belay.ovRun P.SAFE_FDC_OV_N 7 then raiseBelay s F.SAFE_FDC_OV 0 7 else s
      else s
    if bit i 7 && field i 4 0 == tag then
      let last := getN s P.SAFE_FDC_LAST 0
      let s := putN s P.SAFE_FDC_LAST 0 (last % 65536 + 65536 * raw)
      let above := decide (getN s P.SAFE_FDC_OC_HI 0 < raw) || decide (raw < getN s P.SAFE_FDC_OC_LO 0)
      let s := updBelay s (fun x => { x with
        iLast := some (s.tick, raw), iTag := tag
        ocRun := if !above then 0 else if x.iTag = tag then x.ocRun + 1 else 1 })
      if above && countHit s s.belay.ocRun P.SAFE_FDC_OC_N 8 then raiseBelay s F.SAFE_FDC_OC 0 8 else s
    else s

/-! ### Insertion-count monitor and capstan watchdog at a mark (R412 to R414) -/

/-- The insertion-count monitor finds an arm out of tolerance for `SAFE_ICM_PERIODS` (R412). -/
def icmFound (s : State) (a : Nat) : State :=
  raiseBelay (updBelay s (fun x => { x with icm := x.icm ||| 2 ^ a, icmRun := tabSet 0 x.icmRun a 0 })) F.INSERT_COUNT a 5

/-- The verdict on one arm for one period (R412). -/
def icmVerdict (s : State) (a : Nat) (bad : Bool) : State :=
  let run := if bad then tabGet 0 s.belay.icmRun a + 1 else 0
  let s := updBelay s (fun x => { x with icmRun := tabSet 0 x.icmRun a run })
  if bad && decide (getN s P.SAFE_ICM_PERIODS 0 ≤ run) then icmFound s a else s

/-- A heartbeat of the capstan for a period (R150, R414). -/
def hbArrive (s : State) (p : Nat) : State :=
  updBelay s (fun x => { x with hbGot := x.hbGot + 1, hbSeen := true, hbTick := s.tick, hbPeriod := p % 256 })

/-- The check of the capstan at a mark (R414): exactly one heartbeat since the last mark, its period one above that of
the heartbeat before it. -/
def hbCheck (s : State) : State :=
  if !s.belay.hbSeen then s
  else
    let next := match s.belay.hbPrev with
      | some p => s.belay.hbPeriod == (p + 1) % 256
      | none => true
    let ok := s.belay.hbGot == 1 && next
    let s := updBelay s (fun x => { x with hbGot := 0, hbPrev := some x.hbPeriod, hbOk := ok,
                                           hbGood := if ok then min (x.hbGood + 1) 2 else 0,
                                           hbMiss := if ok then 0 else x.hbMiss + 1 })
    if !ok && countHit s s.belay.hbMiss P.SAFE_HB_MISS 6 then raiseBelay s F.CAPSTAN_SILENT 0 6 else s

/-! ### Sessions and the log (R418 to R420) -/

/-- One log entry (R420). -/
def belayLogAdd (s : State) (kind id t old new : Nat) : State :=
  let w : List Word :=
    [ BitVec.ofNat 32 (devSec s), BitVec.ofNat 32 (devNs s + 2 ^ 30 * kind),
      BitVec.ofNat 32 (id + 65536 * (t % 256) + 2 ^ 24 * s.belay.session), BitVec.ofNat 32 old, BitVec.ofNat 32 new ]
  updBelay s (fun x => { x with log := tabSet [] x.log (x.logCount % 64) w, logCount := x.logCount + 1 })

/-- End an open session (R419). -/
def sessionEnd (s : State) : State :=
  if s.belay.open_ then
    updBelay (belayLogAdd s 2 0 0 0 0) (fun x => { x with open_ := false, pendLo := none })
  else s

/-- Whether every character of a password word is one of 0x21 to 0x7E (R418). -/
def pwChars (w : Word) : Bool := (wordBytes w).all (fun b => decide (0x21 ≤ b) && decide (b ≤ 0x7E))

/-- `SAFETY_UNLOCK`'s check and effect (R418). -/
def safetyUnlockBody (c : Cmd) (s : State) : Res :=
  let w := (c.payload.getD 0 0, c.payload.getD 1 0)
  let refuse := fun (s : State) => Res.fail ⟨St.locked, 0, 0⟩ s
  let good := pwChars w.1 && pwChars w.2 && match s.belay.password with
    | some p => p == w
    | none => true
  if s.belay.backoff.isSome then refuse (incP s P.SAFE_UNLOCK_FAIL 0)
  else if !good then
    let s := belayLogAdd (incP s P.SAFE_UNLOCK_FAIL 0) 3 0 0 0 0
    let n := s.belay.wrongRun + 1
    refuse (updBelay s (fun x => { x with wrongRun := if n = 3 then 0 else n,
                                          backoff := if n = 3 then some (s.tick + 2000000000) else none }))
  else
    let n := s.belay.session % 255 + 1
    let s := sessionEnd s
    let s := updBelay s (fun x => { x with
      password := some (x.password.getD w), wrongRun := 0, session := n, open_ := true, sesFrom := s.tick
      pendLo := none })
    .ok 0 [BitVec.ofNat 32 n] (belayLogAdd s 1 0 0 0 0)

/-- The row of `SAFETY_UNLOCK`. -/
def spSafetyUnlock : CmdSpec := cmdSpec 0x80 2 2 true true

/-- `SAFETY_UNLOCK` (R418). -/
def execSafetyUnlock (c : Cmd) (s : State) : Host.Outcome State Fault Refusal :=
  ends (runCmd spSafetyUnlock none safetyUnlockBody c s)

/-- The checks of a block SAFE parameter's value beyond its range column (R407, R408, R418, R422). -/
def safeValueErr (s : State) (d : ParamDef) (w : Word) : Option CmdErr :=
  let n := w.toNat
  let bad := fun (b : Bool) => errIf b St.range d.id n
  let tp := fun (p v t : Nat) => bad (decide (1000 * p < 4 * (v + t)))
  if d.id = P.SAFE_SI_CFG then bad (field n 9 8 == 3 || (bit n 1 && bit n 7))
  else if d.id = P.SAFE_FDC_V_TAG || d.id = P.SAFE_FDC_I_TAG then bad (decide (24 ≤ field n 4 0))
  else if d.id = P.SAFE_TP_PERIOD then tp n (getN s P.SAFE_TP_WIDTH 0) (getN s P.SAFE_TP_SETTLE 0)
  else if d.id = P.SAFE_TP_WIDTH then tp (getN s P.SAFE_TP_PERIOD 0) n (getN s P.SAFE_TP_SETTLE 0)
  else if d.id = P.SAFE_TP_SETTLE then tp (getN s P.SAFE_TP_PERIOD 0) (getN s P.SAFE_TP_WIDTH 0) n
  else if d.id = P.SAFE_PASSWORD_LO then bad (!pwChars w)
  else if d.id = P.SAFE_PASSWORD_HI then bad (!pwChars w || s.belay.pendLo.isNone)
  else none

/-- The parameter a `SAFETY_WRITE` names: RW, RW1C or WO of block SAFE (R419). -/
def safeParam? (id : Nat) : Option ParamDef :=
  match paramDef? id with
  | some d => if id / 256 = 0x40 ∧ (d.access = .rw ∨ d.access = .rw1c ∨ d.access = .wo) then some d else none
  | none => none

/-- `SAFETY_WRITE`'s checks and effect (R419, R420, R422). -/
def safetyWriteBody (c : Cmd) (s : State) : Res :=
  let id := pw c 0
  let w := c.payload.getD 1 0
  let t := tgt c
  let touch := fun (s : State) => updBelay s (fun x => { x with sesFrom := s.tick })
  if !s.belay.open_ then .err ⟨St.locked, id, id⟩
  else match safeParam? id with
    | none => .err ⟨St.param, id, id⟩
    | some d =>
      if d.access = .rw1c then
        Res.check (clearErr d w)
          (.done (touch (belayLogAdd (clearSet s id t w) 0 id t (getN s id t) (getN (clearSet s id t w) id t))))
      else
        Res.check (firstErr [rangeErr d w, safeValueErr s d w, deblockedErr s])
          (if id = P.SAFE_PASSWORD_LO then
            .done (touch (belayLogAdd (updBelay s (fun x => { x with pendLo := some w })) 0 id t 0 0))
          else if id = P.SAFE_PASSWORD_HI then
            .done (touch (belayLogAdd (updBelay s (fun x =>
              { x with password := some (x.pendLo.getD 0, w), pendLo := none })) 0 id t 0 0))
          else
            .done (tallyTouch (touch (belayLogAdd (putP s id t w) 0 id t (getN s id t) w.toNat)) id))

/-- The target of a `SAFETY_WRITE` (R11, R44 step 5). -/
def safetyWriteOwn (c : Cmd) : Option CmdErr :=
  match paramAny? (pw c 0 % 65536) with
  | some d => paramTargetErr d (tgt c)
  | none => none

/-- The row of `SAFETY_WRITE`. -/
def spSafetyWrite : CmdSpec := { cmdSpec 0x81 2 2 true true with target := .own, reserved := [(0, 0xFFFF0000)] }

/-- `SAFETY_WRITE` (R419). -/
def execSafetyWrite (c : Cmd) (s : State) : Host.Outcome State Fault Refusal :=
  ends (runCmd spSafetyWrite (safetyWriteOwn c) safetyWriteBody c s)

/-- `SAFETY_LOG_READ`'s checks and reply (R420). -/
def safetyLogReadBody (c : Cmd) (s : State) : Res :=
  let a := pw c 0
  let n := pw c 1
  Res.check (firstErr [errIf (decide (63 < a)) St.range 0x8000 a,
                       errIf (n == 0 || decide (64 < n)) St.range 0x8001 n])
    (.ok 0 ((List.range n).flatMap (fun k =>
      let e := tabGet [] s.belay.log ((a + k) % 64)
      if e.isEmpty then List.replicate 5 0 else e)) s)

/-- The row of `SAFETY_LOG_READ`. -/
def spSafetyLogRead : CmdSpec := { cmdSpec 0x82 2 2 true true with maxReply := 320 }

/-- `SAFETY_LOG_READ` (R420). -/
def execSafetyLogRead (c : Cmd) (s : State) : Host.Outcome State Fault Refusal :=
  ends (runCmd spSafetyLogRead none safetyLogReadBody c s)

/-- `SAFETY_LOCK`'s effect (R410, R419). -/
def safetyLockBody (_ : Cmd) (s : State) : Res :=
  .done (if s.belay.open_ then updBelay (sessionEnd s) (fun x => { x with okLock := true }) else s)

/-- The row of `SAFETY_LOCK`. -/
def spSafetyLock : CmdSpec := cmdSpec 0x83 0 0 true true

/-- `SAFETY_LOCK` (R419). -/
def execSafetyLock (c : Cmd) (s : State) : Host.Outcome State Fault Refusal :=
  ends (runCmd spSafetyLock none safetyLockBody c s)

/-- The session ends 60 s after its last use (R419). -/
def execSafetySessionTimeout (s : State) : Host.Outcome State Fault Refusal :=
  if s.belay.open_ then ends (sessionEnd (advanceTo s (s.belay.sesFrom + 12000000000))) else ends s

/-- The 10 s without unlock end (R418). -/
def execUnlockBackoffEnd (s : State) : Host.Outcome State Fault Refusal :=
  match s.belay.backoff with
  | some t => ends (updBelay (advanceTo s t) (fun x => { x with backoff := none }))
  | none => ends s

/-! ### Read-backs (R422, R423) -/

/-- `SAFE_STATE` (R423). -/
def safeState (s : State) : Nat :=
  let x := s.belay
  x.state.code + 4 * b2n x.injecting + 8 * b2n x.tripA + 16 * b2n x.tripB + 32 * b2n x.srstLow + 64 * b2n x.hbOk
    + 128 * b2n x.clockOk + 256 * x.hbPeriod

/-- `SAFE_LATCH` (R422). -/
def safeLatch (s : State) : Nat :=
  let inputs := sumNat ((List.range 8).map (fun n =>
    let x := siOf s n
    if x.demandLat || x.disc || x.tpLat then 2 ^ n else 0))
  s.belay.latch + 65536 * inputs + 2 ^ 24 * s.belay.icm

/-- `SAFE_SI_STATUS` (R422): DEMAND is whether the last counted sample was a demand (R405). -/
def siStatus (s : State) (n : Nat) : Nat :=
  let x := siOf s n
  b2n x.aLevel + 2 * b2n x.bLevel + 4 * b2n x.demand + 8 * b2n x.disc + 16 * b2n x.tpFailA
    + 32 * b2n x.tpFailB + 64 * b2n x.bothSafe + 256 * x.run

/-- `SAFE_SESSION` (R422). -/
def safeSession (s : State) : Nat :=
  let x := s.belay
  x.session + 256 * b2n x.open_ + 512 * b2n x.password.isSome + 1024 * b2n x.backoff.isSome

/-- `SAFE_LOG_STATUS` (R422). -/
def safeLogStatus (s : State) : Nat :=
  min s.belay.logCount 65535 + 65536 * (s.belay.logCount % 64) + 2 ^ 22 * b2n (decide (64 < s.belay.logCount))

end Sys2Proof.Machine
end

