-- ==== Sys2Proof/Machine/LaneOps.lean ====
section
/-! DEFINITION. Lanes as several meanings use them: the schedule and divisors (R75 to R88), the messenger (R278 to
R286, R522), entry to and exit from ACTIVE, lane errors, retirement and re-bring-up (R243 to R249, R277). -/

namespace Sys2Proof.Machine

/-! ### Schedule and divisors -/

/-- Present ports of a lane's capability record. -/
def popcount (m : Nat) : Nat := ((List.range 48).filter (fun p => bit m p)).length

/-- The present ports of a lane in ascending order. -/
def presentPorts (s : State) (l : Nat) : List Nat := (List.range 48).filter (fun p => bit (laneOf s l).mask p)

/-- Ticks of `n` bits at a generation's payload rate (R80, R235). -/
def genTicks (gen n : Nat) : Nat :=
  if gen = 1 then ceilDiv n 5 else if gen = 2 then ceilDiv (2 * n) 25 else ceilDiv n 50

/-- Downstream frame time F (R80). -/
def dsTicks (gen n : Nat) : Nat := genTicks gen (192 + 16 * n)

/-- Upstream frame time U (R80). -/
def usTicks (gen n : Nat) : Nat := genTicks gen (128 + 48 * n)

/-- The margins of the frames under a period and latency (R80, R82): `lanes` gives generation and present ports in
frame-builder order. -/
def schedMargins (per lat : Nat) : List (Nat × Nat) → Nat → List Int
  | [], _ => []
  | (gen, n) :: l, f =>
    let f := f + ceilDiv n 16
    let start := max f ((lat - 2) * per)
    ((((lat - 1) * per : Nat) : Int) - 40 - ((start + dsTicks gen n : Nat) : Int)) :: schedMargins per lat l f

/-- ACTIVE cell lanes in frame-builder order, with `extra` counted as ACTIVE at a generation (R80, R243). -/
def schedLanes (s : State) (extra : Option (Nat × Nat)) : List (Nat × Nat) :=
  s.per.order.filterMap (fun l =>
    let x := laneOf s l
    match extra with
    | some (e, g) =>
      if e = l then some (g, popcount x.mask)
      else if x.st = .active then some (x.gen, popcount x.mask) else none
    | none => if x.st = .active then some (x.gen, popcount x.mask) else none)

/-- The smallest margin; 0 without any frame. -/
def minInt : List Int → Int
  | [] => 0
  | x :: xs => xs.foldl min x

/-- `PER_SCHED_SLACK` (R82). -/
def schedSlack (s : State) : Int := minInt (schedMargins s.per.per s.per.lat (schedLanes s none) 64)

/-- Whether the schedule closes under a period and latency (R82). -/
def schedCloses (s : State) (per lat : Nat) (extra : Option (Nat × Nat)) : Bool :=
  (schedMargins per lat (schedLanes s extra) 64).all (fun m => decide (0 ≤ m))

/-- The command latency for a period and a number of placed cells (R79). -/
def latencyOf (per placed : Nat) : Nat := if per < 400 && 2048 < placed then 3 else 2

/-- The minimum epoch in ticks for the largest arm (R75). -/
def minEpochOf (n : Nat) : Nat := if n ≤ 256 then 800 else if n ≤ 512 then 2400 else 5600

/-- The effective epoch (R76). -/
def effOf (epoch per minEpoch : Nat) : Nat := max epoch (ceilDiv minEpoch per)

/-- Number of placed cells. -/
def placedCount (s : State) : Nat := (placedCells s).length

/-- The report divisor (R85). -/
def divOf (gen n per : Nat) : Nat :=
  match [1, 2, 4, 8].find? (fun d => usTicks gen n ≤ d * (per - 40)) with
  | some d => d
  | none => 8

/-- The staged value of a parameter. -/
def stagedP (s : State) (id t : Nat) : Option Nat := (tabGet none s.staged (pkey id t)).map (fun w => w.toNat)

/-- Whether a commit group is armed (R57). -/
def groupArmed (s : State) (code t : Nat) : Bool := tabGet false s.armedG (code * 128 + t)

/-- The armed period, if CG_PERIOD is armed with one. -/
def armedPeriod (s : State) : Option Nat := if groupArmed s 1 0 then stagedP s P.PER_PERIOD 0 else none

/-- The checks of R243 on a lane that would reach ACTIVE. -/
def entryChecks (s : State) (l gen : Nat) : Bool :=
  let p := s.per.per
  let g1 := gen != 1 || (decide (400 ≤ p) && match stagedP s P.PER_PERIOD 0 with
    | some q => decide (400 ≤ q)
    | none => true)
  let sched := decide (64 ≤ l) || (schedCloses s p s.per.lat (some (l, gen)) && match armedPeriod s with
    | some q => schedCloses s q (latencyOf q (placedCount s)) (some (l, gen))
    | none => true)
  g1 && sched

/-- The first mark from `m` on that a string reports (R86). -/
def reportFrom (m l d : Nat) : Nat := if d = 0 then m else m + (l + d * m - m) % d

/-- The divisor of a lane's report of mark `k` (R88): a new one takes effect at its boundary mark. -/
def divFor (x : Lane) (k : Nat) : Nat := if k < x.divFrom then x.divOld else x.div

/-- The first mark from `j` on that a string reports, where divisor `d0` ends before mark `b` and `d1` begins at it
(R86, R88). -/
def repFrom (d0 b d1 l j : Nat) : Nat :=
  if j < b ∧ reportFrom j l d0 < b then reportFrom j l d0 else reportFrom (max j b) l d1

/-- The first mark from `j` on that lane `l` reports. -/
def laneRep (x : Lane) (l j : Nat) : Nat := repFrom x.divOld x.divFrom x.div l j

/-! ### Messenger -/

/-- Request word of an operation without SEQ (R278). -/
def msgWord (op port addr data : Nat) : Word :=
  BitVec.ofNat 32 (op * 2 ^ 29 + port * 2 ^ 20 + addr * 2 ^ 12 + data % 256)

/-- Operation of a request (R278). -/
def msgOp (w : Word) : Nat := field w.toNat 31 29
/-- Address of a request. -/
def msgAddr (w : Word) : Nat := field w.toNat 19 12

/-- A new transaction of a source. -/
def newTxn (src op port addr data : Nat) : Txn := ⟨src, msgWord op port addr data, port, 0, 0, 0⟩

/-- The word of a transaction on the wire. -/
def txnWord (t : Txn) : Word := t.req ||| BitVec.ofNat 32 (t.seq * 2 ^ 26)

/-- The first waiting transaction in the order of R282. -/
def nextTxn (x : Lane) : Option Txn :=
  match x.qPerm, x.qOwn, x.qCmd with
  | t :: _, _, _ => some t
  | [], t :: _, _ => some t
  | [], [], t :: _ => some t
  | [], [], [] => none

/-- Take the first waiting transaction out of its queue. -/
def popTxn (x : Lane) : Lane :=
  match x.qPerm, x.qOwn, x.qCmd with
  | _ :: l, _, _ => { x with qPerm := l }
  | [], _ :: l, _ => { x with qOwn := l }
  | [], [], _ :: l => { x with qCmd := l }
  | [], [], [] => x

/-- The messenger slot of a lane's frame for period `p` (R281, R282): a resend first, then the first waiting source.
`rep` gives the first mark from a mark on that the string reports: a request carried in the frame for period p is
answered in that of the first such mark after p. -/
def msgSlot (x : Lane) (rep : Nat → Nat) (p : Nat) : Word × Lane :=
  let taken := x.out.any (fun t => t.period != 0 && rep (t.period + 1) == rep (p + 1))
  if taken then (0, x)
  else match x.out.find? (fun t => t.period == 0) with
    | some t =>
      let t' := { t with period := p, tries := t.tries + 1 }
      (txnWord t', { x with out := x.out.map (fun u => if u.seq = t.seq then t' else u) })
    | none =>
      match nextTxn x with
      | none => (0, x)
      | some t =>
        let op := msgOp t.req
        let alone := op = 4 || op = 7
        let hold := x.fireWait && op != 7
        if 4 ≤ x.out.length || (alone && !x.out.isEmpty) || hold then (0, x)
        else
          let t' := { t with seq := x.seq, period := p, tries := 0 }
          (txnWord t', { popTxn x with out := x.out ++ [t'], seq := (x.seq + 1) % 8,
                                       fireWait := decide (op = 6) || (x.fireWait && op != 7) })

/-- The transaction whose reply the frame of mark `k` should carry (R281). -/
def txnDue (x : Lane) (l k : Nat) : Option Txn :=
  x.out.find? (fun t => t.period != 0 && laneRep x l (t.period + 1) == k)

/-- The operation that claims a lane's messenger (R52, R282): `DISCOVER`, `READ_IDENTITY` or `CELL_CONFIG`. -/
def msgClaim (s : State) (lanes : List Nat) : Option LongOp :=
  s.ops.find? (fun o =>
    (o.op == 0x10 && lanes.any (fun l => bit (o.args.getD 0 0) l))
      || (o.op == 0x11 && o.args.getD 0 0 != 2 && lanes.contains (o.args.getD 1 0))
      || (o.op == 0x13 && lanes.any (fun l => bit (o.args.getD 0 0) l)))

/-- The 64 ID_READ requests of a record (R288, R294). -/
def idReads (src port : Nat) : List Txn := (List.range 64).map (fun i => newTxn src 1 port (4 * i) 0)

/-- Bytes of an identity record read so far; 0 where none was read. -/
def rdBytes (x : Lane) (port : Nat) : List Nat :=
  (List.range 256).map (fun a => tabGet 0 x.rd (port * 256 + a) - 1)

/-- Whether a record's CRC is correct (R288): over 0x00 to 0xFB. -/
def recordOk (b : List Nat) : Bool :=
  let c := crcBytes (b.take 252)
  c == (b.getD 252 0) + 256 * (b.getD 253 0) + 65536 * (b.getD 254 0) + 16777216 * (b.getD 255 0)

/-- Forget the bytes read for a port. -/
def rdClear (x : Lane) (port : Nat) : Lane := { x with rd := tabFilter (fun k _ => k / 256 != port) x.rd }

/-- Store a hub's or cell's record as NONE, VALID or INVALID (R292). Port 63 is the hub. -/
def storeRecord (s : State) (l port : Nat) (st : RecSt) (ws : List Word) : State :=
  if port = 63 then updLane s l (fun x => { x with hubRec := st, hubIdent := ws })
  else updCell s (48 * l + port) (fun x => { x with idRec := st, stored := ws })

/-- The result of a record read: stored for `DISCOVER`, kept in the operation for `READ_IDENTITY`. -/
def recordDone (s : State) (l port src : Nat) (ok : Bool) : State :=
  let ws := bytesWords (rdBytes (laneOf s l) port)
  let s := updLane s l (fun x => { x with rdBad := x.rdBad.filter (fun p => p != port) })
  if src = 3 then
    updLane (storeRecord s l port (if ok then .valid else .invalid) (if ok then ws else [])) l (fun x => rdClear x port)
  else
    { s with ops := s.ops.map (fun o =>
        if o.op = 0x11 && o.args.getD 1 0 = l && o.args.getD 2 0 = port then
          { o with args := o.args.set 3 (if ok then 1 else 2) } else o) }

/-- Drop the waiting transactions of a source for a port. -/
def dropTxns (x : Lane) (src port : Nat) : Lane :=
  { x with qCmd := x.qCmd.filter (fun t => !(t.src == src && t.port == port)) }

/-- CFG_FAIL of a cell or hub (R305). -/
def setCfgFail (s : State) (l port : Nat) : State :=
  if port = 63 then updLane s l (fun x => { x with cfgFail := true })
  else updCell s (48 * l + port) (fun x => { x with cfgFail := true })

/-- A transaction ends as failed for its source (R281, R522). -/
def txnFail (s : State) (l : Nat) (t : Txn) : State :=
  if t.src = 1 then
    let s := updLane s l (fun x => { x with qPerm := x.qPerm.filter (fun u => u.port != t.port), fireWait := false })
    if (cellOf s (48 * l + t.port)).retire = .arming then permFailed s (48 * l + t.port) else s
  else if t.src = 3 || t.src = 4 then
    recordDone (updLane s l (fun x => dropTxns x t.src t.port)) l t.port t.src false
  else if t.src = 5 then setCfgFail (updLane s l (fun x => dropTxns x 5 t.port)) l t.port
  else s

/-- Whether every byte of a record has come. -/
def rdFull (x : Lane) (port : Nat) : Bool := (List.range 256).all (fun a => tabGet 0 x.rd (port * 256 + a) != 0)

/-- An ID_READ reply (R279): its bytes, and once all have come the record's CRC; one that fails is read once more
(R292). -/
def idReply (s : State) (l : Nat) (t : Txn) (w : Word) : State :=
  let a := msgAddr t.req
  let s := updLane s l (fun x =>
    { x with rd := tabRun 0 x.rd (t.port * 256 + a) ((wordBytes w).map (fun b => b + 1)) })
  if !rdFull (laneOf s l) t.port then s
  else if recordOk (rdBytes (laneOf s l) t.port) then recordDone s l t.port t.src true
  else if (laneOf s l).rdBad.contains t.port then recordDone s l t.port t.src false
  else updLane s l (fun x =>
    { rdClear x t.port with rdBad := t.port :: x.rdBad, qCmd := idReads t.src t.port ++ x.qCmd })

/-- Own writes of R283 for a lane: hub bytes, cell bytes, each group then applied. -/
def ownTxns (s : State) (l : Nat) : List Txn :=
  let h := getN s P.FRM_HUB_HOLD_MAX 0
  let bytes := fun (port base : Nat) =>
    (List.range 8).map (fun i => newTxn 2 3 port (base + i) (if i = 0 then h else 0)) ++ [newTxn 2 4 port 0 0xA7]
  bytes 63 0 ++ (presentPorts s l).flatMap (fun p => bytes p 0x78)

/-- Whether a lane has confirmed its own writes: none waits or is outstanding. -/
def ownSettle (s : State) (l : Nat) : State :=
  let x := laneOf s l
  if x.qOwn.isEmpty && !x.out.any (fun t => t.src == 2) && x.st == .active && !x.ownOk && !x.ownFail then
    updLane s l (fun x => { x with ownOk := true })
  else s

/-- Queue the controller's own writes (R283). -/
def queueOwn (s : State) (l : Nat) : State :=
  let ts := ownTxns s l
  updLane s l (fun x => { x with qOwn := ts, ownOk := false, ownFail := false })

/-- A transaction ends OK (R279, R281, R285, R305, R308). -/
def txnOk (s : State) (l : Nat) (t : Txn) (w : Word) : State :=
  let s := causeGone s F.MSG_FAIL l
  let op := msgOp t.req
  let code := if t.port = 63 then hubCode l else 48 * l + t.port
  if t.src = 1 then
    (if op = 7 && (cellOf s (48 * l + t.port)).retire == .arming then
      updCell s (48 * l + t.port) (fun x =>
        { x with retire := .fired (s.tick + 200000 * getN s P.FRM_PERM_TIMEOUT 0) })
    else s)
  else if op = 1 then idReply s l t w
  else if op = 4 then
    let s := if t.port = 63 || (cellOf s code).placed then setDigest s code w else s
    if t.src = 2 then ownSettle s l else s
  else if t.src = 5 && (op = 2 || op = 5) && t.port < 48 then putP s P.FRM_MSG_RESULT (48 * l + t.port) w
  else if t.src = 2 then ownSettle s l
  else s

/-- Take a transaction out of the outstanding ones. -/
def txnDrop (s : State) (l : Nat) (t : Txn) : State :=
  updLane s l (fun x => { x with out := x.out.filter (fun u => u.seq != t.seq) })

/-- A transaction fails for good (R281): counted, `F_MSG_FAIL`, and its source told. -/
def txnLost (s : State) (l : Nat) (t : Txn) : State :=
  let s := txnDrop s l t
  let s := raiseFault (incP s P.FRM_MSG_FAIL l) F.MSG_FAIL l
  let s := if t.src = 2 then updLane s l (fun x => { x with ownFail := true }) else s
  txnFail s l t

/-- A reply is missing (R281): the request is sent again until the retries are spent. -/
def txnMissing (s : State) (l : Nat) (t : Txn) : State :=
  if t.tries < getN s P.FRM_MSG_RETRY 0 then
    updLane s l (fun x => { x with out := x.out.map (fun u => if u.seq = t.seq then { u with period := 0 } else u) })
  else txnLost s l t

/-- The frame of mark `k` is missing: so is the reply it should carry (R281). -/
def frameMissing (s : State) (l k : Nat) : State :=
  match txnDue (laneOf s l) l k with
  | some t => txnMissing s l t
  | none => s

/-! ### Leaving and entering ACTIVE -/

/-- Every cell of the lane is recorded as BLOCK; an inserted one is displaced (R277). -/
def blockLaneCells (s : State) (l : Nat) : State :=
  (List.range 48).foldl (fun s p =>
    let c := 48 * l + p
    let x := cellOf s c
    if x.placed then
      let s := if x.st.pol != 0 then updArm s x.arm (fun a => { a with lprev := a.lprev - x.st.pol }) else s
      updCell s c (fun x => { x with st := .block, laneBlock := true, digValid := false, digBytes := [] })
    else s) s

/-- Waiting or outstanding transactions of a lane, one for each source and port. -/
def laneTxns (x : Lane) : List Txn :=
  (x.out ++ x.qPerm ++ x.qOwn ++ x.qCmd).foldl (fun l t =>
    if l.any (fun u => u.src == t.src && u.port == t.port) then l else l ++ [t]) []

/-- Transactions of a lane that leaves ACTIVE end as failed, without being messenger failures (R522). -/
def failLaneTxns (s : State) (l : Nat) : State :=
  let ts := laneTxns (laneOf s l)
  let s := updLane s l (fun x => { x with out := [], qPerm := [], qOwn := [], qCmd := [], fireWait := false,
                                          ownOk := false, rdBad := [], rd := [] })
  let s := ts.foldl (fun s t => if t.src = 3 then s else txnFail s l t) s
  if ts.any (fun t => t.src == 3) then
    (63 :: List.range 48).foldl (fun s p => storeRecord s l p .none []) s
  else s

/-- The count of point (h, v) of a scan; points not scanned are 0 (R256). -/
def eyeCount (pts : List (BitVec 16)) (i : Nat) : Nat := (pts.getD i 0).toNat

/-- The longest run of a value that holds of consecutive indices. -/
def longestRun : List Bool → Nat → Nat → Nat
  | [], cur, best => max cur best
  | true :: l, cur, best => longestRun l (cur + 1) best
  | false :: l, cur, best => longestRun l 0 (max cur best)

/-- The eye width (R256): the longest run of h with count 0 at v = 0. -/
def eyeWidth (pts : List (BitVec 16)) : Nat :=
  longestRun ((List.range 65).map (fun h => eyeCount pts (32 * 65 + h) == 0)) 0 0

/-- The eye height (R256): the longest run of v with count 0 at h = 0. -/
def eyeHeight (pts : List (BitVec 16)) : Nat :=
  longestRun ((List.range 64).map (fun v => eyeCount pts (v * 65 + 32) == 0)) 0 0

/-- The words of table 0x0300 (R256). -/
def eyeWords (l gen x : Nat) (complete : Bool) (pts : List (BitVec 16)) : List Word :=
  let w0 : Word := BitVec.ofNat 32 (l + 256 * gen + 65536 * x + 2 ^ 24 * b2n complete)
  let w1 : Word := BitVec.ofNat 32 (eyeWidth pts + 65536 * eyeHeight pts)
  let ws := [w0, w1] ++ (List.range 2080).map (fun k =>
    BitVec.ofNat 32 (eyeCount pts (2 * k) + 65536 * eyeCount pts (2 * k + 1)))
  ws ++ [crcWords ws]

/-- The points a scan has measured by now (R255): each takes `2 ^ x` UI at the lane's rate. -/
def scannedPoints (s : State) (o : LongOp) : Nat :=
  let r := match o.args.getD 1 0 with
    | 1 => 100
    | 2 => 250
    | _ => 825
  min 4160 ((s.tick - o.start) * r / 16 / 2 ^ (o.args.getD 0 0))

/-- The counts of a scan that ends early and that no input of the model carries (R256): those of the points measured are
free values, the others are 0 (log entry 34). -/
def freePoints (s : State) (o : LongOp) : List (BitVec 16) :=
  ((List.range 2080).flatMap (fun k =>
    let w := (Config.freeWord (s.freeCtr + k)).toNat
    [BitVec.ofNat 16 w, BitVec.ofNat 16 (w / 65536)])).take (scannedPoints s o)

/-- Store a scan's result (R256). The operation holds the dwell exponent and the generation. -/
def eyeStore (s : State) (o : LongOp) (l : Nat) (complete : Bool) (pts : List (BitVec 16)) : State :=
  putTable s 0x0300 0 (eyeWords l (o.args.getD 1 0) (o.args.getD 0 0) complete pts)

/-- End an eye scan of a lane with a completion (R250). -/
def endScan (s : State) (l : Nat) : State :=
  match opRun? s 0x23 l with
  | some o =>
    completeErr { eyeStore s o l false (freePoints s o) with freeCtr := s.freeCtr + 2080 } o ⟨St.state, 9, 0⟩
  | none => s

/-- Everything that follows a lane's exit from ACTIVE (R25, R277, R522). -/
def leaveActive (s : State) (l : Nat) : State :=
  let s := updLane s l (fun x => { x with errOpen := false, lastGen := x.gen, gen := 0, div := 0, lastUs := none,
                                          ds := if leavesLater s l then none else x.ds })
  if l < 64 then
    let s := failLaneTxns (blockLaneCells s l) l
    tallyFollow (ledgerWatch (endScan s l)) 2
  else endScan s l

/-- Take a lane to another state; leaving ACTIVE has its consequences. -/
def laneTo (s : State) (l : Nat) (st : LaneSt) : State :=
  let was := (laneOf s l).st
  let s := updLane s l (fun x => { x with st := st })
  if was = .active && st ≠ .active then leaveActive s l else s

/-- The retry window closes (R244, R247). -/
def closeRetry (s : State) (l : Nat) : State :=
  updLane s l (fun x => { x with retryEnd := none, retryN := 0, retryAt := none })

/-- A lane is RETIRED (R248). -/
def retireLane (s : State) (l : Nat) : State :=
  let s := laneTo (closeRetry s l) l .retired
  let s := updLane s l (fun x => { x with auto := false, awaiting := false, retireReq := false, pass2 := false, gen := 0 })
  raiseFault s F.LANE_RETIRED l

/-- The generation a lane's bring-up chose and its ports, as the completion reply gives them (R244). -/
def bringupOk (s : State) (l : Nat) : State :=
  match opRun? s 0x20 l with
  | some o => completeOk s o [BitVec.ofNat 32 (laneOf s l).gen, BitVec.ofNat 32 (popcount (laneOf s l).mask)]
  | none => s

/-- The lane's presence mask against its placement (R299). -/
def presenceCheck (s : State) (l : Nat) : State :=
  let placed := (List.range 48).filter (fun p => (cellOf s (48 * l + p)).placed)
  if s.disc.placed && (laneOf s l).used && placed != presentPorts s l then
    updLane (raiseFault s F.ID_MISMATCH (hubCode l)) l (fun x => { x with idFault := true })
  else s

/-- Entry to ACTIVE at a mark (R243, R246, R247, R283, R88, R103, R251). -/
def enterActive (s : State) (l gen : Nat) : State :=
  let n := popcount (laneOf s l).mask
  let d := if l < 64 then divOf gen n s.per.per else 1
  let s := updLane s l (fun x => { x with
    st := .active, gen := gen, lastGen := gen, awaiting := false, auto := false, pass2 := false, errWin := s.tick, errOpen := true,
    div := d, divOld := d, divFrom := 0, nextUs := reportFrom (s.per.count + 1) l d, lastUs := none, seq := 0, hold := 0, otherRun := 0,
    out := [], qPerm := [], qOwn := [], qCmd := [], fireWait := false })
  let s := putN (closeRetry s l) P.LANE_ERR_COUNT l 0
  let s := causeGone s F.LANE_RETIRED l
  let s := if l < 64 then
      let s := orP s P.PER_CHANGE 0 2
      let s := (List.range 48).foldl (fun s p =>
        if (cellOf s (48 * l + p)).placed then
          updCell s (48 * l + p) (fun x => { x with lastRep := s.per.count, silent := false, digPhase := 0 })
        else s) s
      ledgerWatch (presenceCheck (queueOwn s l) l)
    else s
  bringupOk s l

/-! ### Bring-up -/

/-- The group's staged values are applied to the lane at the start of a bring-up (R55, R57). -/
def applyLaneGroup (s : State) (l : Nat) : State :=
  if groupArmed s 2 l then
    let ids := [P.LANE_GEN_MAX, P.LANE_TX_SWING, P.LANE_RX_EQ, P.LANE_POLARITY]
    let s := ids.foldl (fun s id =>
      match tabGet none s.staged (pkey id l) with
      | some w => { putP s id l w with staged := tabSet none s.staged (pkey id l) none }
      | none => s) s
    tallyStale { s with armedG := tabSet false s.armedG (2 * 128 + l) false }
  else s

/-- Limit times of the stages in ticks (R240). -/
def stageLimit : LaneSt → Nat
  | .detect => 2000000
  | .train => 2000000
  | .lock => 400000
  | .caps => 200000
  | _ => 0

/-- Enter a bring-up stage. -/
def enterStage (s : State) (l : Nat) (st : LaneSt) (pass2 : Bool) : State :=
  updLane (laneTo s l st) l (fun x => { x with pass2 := pass2, stageDue := s.tick + stageLimit st })

/-- Start a bring-up at DETECT (R244, R247). -/
def startBringup (s : State) (l : Nat) (auto : Bool) : State :=
  let s := applyLaneGroup s l
  let s := enterStage s l .detect false
  updLane s l (fun x => { x with auto := auto, awaiting := false, started := s.tick, retryAt := none })

/-- A failed automatic re-bring-up (R247): a wait of 500 ms, or RETIRED at the third failure in the window. -/
def retryFailed (s : State) (l : Nat) : State :=
  let x := laneOf s l
  let open_ := match x.retryEnd with
    | some t => decide (s.tick < t)
    | none => false
  let n := if open_ then x.retryN + 1 else 1
  if 3 ≤ n then retireLane (updLane s l (fun x => { x with retryN := n })) l
  else updLane s l (fun x => { x with
    st := .down, retryN := n, retryEnd := if open_ then x.retryEnd else some (s.tick + 2000000000)
    retryAt := some (s.tick + 100000000), awaiting := false, auto := false, pass2 := false, gen := 0 })

/-- A bring-up ends as failed (R240, R244, R247): `LANE_FAIL` names the state and the cause. -/
def bringupFail (s : State) (l cause : Nat) (e : LongOp → CmdErr) : State :=
  let x := laneOf s l
  let s := putN s P.LANE_FAIL l (x.st.code + 8 * cause)
  if x.auto then retryFailed s l
  else
    let s := updLane s l (fun x => { x with st := .down, awaiting := false, pass2 := false, gen := 0 })
    match opRun? s 0x20 l with
    | some o => completeErr s o (e o)
    | none => s

/-- A lane's domain turns off, or RUN is left (R482, R485): DOWN, and what it ran ends with E_STATE detail 0x0009. -/
def laneOff (s : State) (l : Nat) : State :=
  let s := closeRetry (laneTo s l .down) l
  updLane s l (fun x => { x with
    auto := false, awaiting := false, retireReq := false, loopRun := none, pass2 := false, gen := 0, ds := none
    dsPrev := none })

/-- Count a lane error (R245, R246): the first of a window raises `F_LANE_TRANSIENT`; beyond the limit the lane is
RETIRED. -/
def laneError (s : State) (l : Nat) : State :=
  let n := getN s P.LANE_ERR_COUNT l + 1
  let s := incP (putN s P.LANE_ERR_COUNT l (min n 65535)) P.LANE_ERR_TOTAL l
  let s := if n = 1 then raiseFault s F.LANE_TRANSIENT l else s
  if getN s P.LANE_ERR_LIMIT l < n && (laneOf s l).st = .active then retireLane s l else s

/-- Several lane errors. -/
def laneErrors : Nat → State → Nat → State
  | 0, s, _ => s
  | n + 1, s, l => laneErrors n (laneError s l) l

end Sys2Proof.Machine
end

