-- ==== Sys2Proof/Machine/Meas.lean ====
section
/-! DEFINITION. Measurement and decimation (R331 to R358). -/

namespace Sys2Proof.Machine

/-! ### Results (R340 to R342, R349) -/

/-- Change the measurement block. -/
def updMeas (s : State) (f : MeasSt → MeasSt) : State := { s with meas := f s.meas }

/-- The words of one tick in the order of the queue (R342): ADC-A, ADC-B, then decimator channels, by rank. -/
def queueInsert (l : List (Nat × Nat)) (r : Nat × Nat) : List (Nat × Nat) :=
  l.filter (fun q => decide (q.1 ≤ r.1)) ++ [r] ++ l.filter (fun q => decide (r.1 < q.1))

/-- Queue a result word of a rank (R342): it takes its place among the words queued in this tick; the last of them is
dropped where the ring is full. -/
def queueResult (s : State) (rank w : Nat) : State :=
  let tail := getN s P.ADC_Q_TAIL 0
  let old := if s.meas.qTick = s.tick then s.meas.qNow else []
  let first := (tail + 256 - old.length % 256) % 256
  let full := (tail + 1) % 256 == getN s P.ADC_Q_HEAD 0
  let new := if full then (queueInsert old (rank, w)).dropLast else queueInsert old (rank, w)
  let s := updMeas s (fun m => { m with
    qTick := s.tick, qNow := new
    ring := new.zipIdx.foldl (fun t p => tabSet 0 t ((first + p.2) % 256) (BitVec.ofNat 32 p.1.2)) m.ring })
  if full then incP s P.ADC_Q_DROP 0 else putN s P.ADC_Q_TAIL 0 ((tail + 1) % 256)

/-- A result as R340 delivers it. `rank` is its converter's place in the queue's order (R342): 0 ADC-A, 1 ADC-B, 2 + n
decimator channel n. `latest` tells whether it goes to its latest-value register. -/
structure Result where
  tag      : Nat
  rank     : Nat
  value    : Nat
  seq      : Nat
  settled  : Bool
  injected : Bool
  delayed  : Bool
  ovr      : Bool
  latest   : Bool
  queued   : Bool
  deriving DecidableEq, Repr

/-- Deliver a result: latest-value register, queue, reel (R340, R341, R466). -/
def deliver (s : State) (r : Result) : State :=
  let s := if r.latest then
      putN s P.ADC_LATEST r.tag (r.value + 65536 * (r.seq % 256) + 2 ^ 24 * b2n r.settled + 2 ^ 25 * b2n r.injected
        + 2 ^ 26 * b2n r.delayed + 2 ^ 27 * b2n r.ovr + 2 ^ 28)
    else s
  let s := if r.queued then
      queueResult s r.rank (r.value + 65536 * (r.seq % 256) + 2 ^ 24 * r.tag + 2 ^ 30 * b2n r.settled + 2 ^ 31 * b2n r.injected)
    else s
  reelResult s r.tag r.value (4 * b2n r.settled + 2 * b2n r.injected + b2n r.ovr)

/-- The calibrated code (R344). -/
def calibrate (s : State) (a raw : Nat) : Nat :=
  let zref : Int := getN s P.ADC_CAL_ZREF a
  let z := getI s P.ADC_CAL_Z a
  let g : Int := getN s P.ADC_CAL_G a
  (clampInt (zref + asr (((raw : Int) - z - zref) * g + 8192) 14) 0 65535).toNat

/-- The comparison of a plausibility pair at mark `k` (R349). -/
def plausCompare (s : State) (p k : Nat) (d : Int) : State :=
  let s := putI s P.ADC_PLAUS_DIFF p (sat16 d)
  let above := decide (getN s P.ADC_PLAUS_LIMIT p < d.natAbs)
  let run := if above then tabGet 0 s.meas.plRun p + 1 else 0
  let s := updMeas s (fun m => { m with plRun := tabSet 0 m.plRun p run, plCmp := tabSet false m.plCmp (4 * k + p) true })
  if !above then causeGone s F.ADC_PLAUSIBILITY p
  else if getN s P.ADC_PLAUS_COUNT p ≤ run && !causeHeld s F.ADC_PLAUSIBILITY p then raiseFault s F.ADC_PLAUSIBILITY p
  else s

/-- Whether a pair compares an input (R349). -/
def plausPair (s : State) (p ch : Nat) : Bool :=
  let c := getN s P.ADC_PLAUS_CH p
  bit c 7 && field c 4 0 == ch

/-- A comparable result of an input that belongs to mark `k`, against the other converter's (R349). -/
def plausResult (s : State) (a ch k code : Nat) : State :=
  let s := updAdc s a (fun x => { x with lastRes := tabSet (0, 0) x.lastRes (32 * k + ch) (k + 1, (code : Int)) })
  let o := tabGet (0, 0) (adcOf s (1 - a)).lastRes (32 * k + ch)
  if o.1 ≠ k + 1 then s
  else
    let d : Int := if a = 0 then (code : Int) - o.2 else o.2 - code
    (List.range 4).foldl (fun s p =>
      if plausPair s p ch && !tabGet false s.meas.plCmp (4 * k + p) then plausCompare s p k d else s) s

/-- Whether a converter has yet to convert for mark `k`: a trigger, a sequence that waits or runs (R338). -/
def markWaits (x : Adc) (k : Nat) : Bool :=
  x.trigs.any (fun t => t.mark == some k) || (x.regOn && x.regMark == some k)
    || (match x.regWait with
      | some w => w.1 == some k
      | none => false)
    || x.injs.any (fun p => p.2.st != .idle && (p.2.mark == some k || match p.2.next with
      | some n => n.2.1 == some k
      | none => false))

/-- Mark `k` is decided: each enabled pair that was not compared at it is skipped (R349). -/
def plausDecide (s : State) (k : Nat) : State :=
  let s := (List.range 4).foldl (fun s p =>
    if bit (getN s P.ADC_PLAUS_CH p) 7 && !tabGet false s.meas.plCmp (4 * k + p) then incP s P.ADC_PLAUS_SKIP p else s) s
  let s := (List.range 2).foldl (fun s a =>
    updAdc s a (fun x => { x with lastRes := tabFilter (fun i _ => i / 32 != k) x.lastRes })) s
  updMeas s (fun m => { m with plCmp := tabFilter (fun i _ => i / 4 != k) m.plCmp, plOpen := m.plOpen.filter (fun j => j != k) })

/-- Marks for which no converter has anything left to convert are decided (R349); mark `m` opens. -/
def plausMark (s : State) (m : Nat) : State :=
  let s := s.meas.plOpen.foldl (fun s k =>
    if markWaits (adcOf s 0) k || markWaits (adcOf s 1) k then s else plausDecide s k) s
  updMeas s (fun x => { x with plOpen := x.plOpen ++ [m] })

/-- Whether a channel is under a path test (R348). -/
def underTest (s : State) (ch : Nat) : Bool :=
  match s.meas.pt with
  | some p => p.chan == ch
  | none => false

/-- An ADC result (R340, R342, R348): from a sequence of `mark` or with its trigger count. -/
def adcResult (s : State) (a ch raw count : Nat) (mark : Option Nat) (inj delayed : Bool) : State :=
  let code := calibrate s a raw
  let test := underTest s ch
  let seq := match mark with
    | some k => k
    | none => count
  let s := deliver s
    { tag := ch, rank := a, value := code, seq := seq, settled := !test, injected := inj, delayed := delayed
      ovr := raw == 0 || raw == 65535, latest := !test, queued := bit (getN s P.ADC_QUEUE_EN 0) ch }
  match mark with
  | some k => if delayed || test then s else plausResult s a ch k code
  | none => s

/-! ### Sequences (R333 to R337) -/

/-- The channels of a regular sequence (R333). -/
def regChans (s : State) (a : Nat) : List Nat :=
  ((List.range 16).map (fun p => getN s P.ADC_REG_CH (16 * a + p))).takeWhile (fun c => c != 0x1F)

/-- MODE of `ADC_REG_CFG` as set. -/
def regMode (s : State) (a : Nat) : Nat := field (getN s P.ADC_REG_CFG a) 1 0

/-- The four channel fields of an injected sequence's configuration (R357). -/
def injFields (cfg : Nat) : List Nat := [field cfg 4 0, field cfg 9 5, field cfg 14 10, field cfg 19 15]

/-- The channels of an injected sequence (R357). -/
def injChans (cfg : Nat) : List Nat := (injFields cfg).take (field cfg 21 20 + 1)

/-- An injected sequence. -/
def injOf (x : Adc) (q : Nat) : Inj := tabGet Inj.empty x.injs q

/-- Change an injected sequence. -/
def updInj (s : State) (a q : Nat) (f : Inj → Inj) : State :=
  updAdc s a (fun x => { x with injs := tabUpd Inj.empty x.injs q f })

/-- The injected sequences of an ADC that are to run next, lowest first: while a calibration runs only those that it
waits for (R336, R346). -/
def injNext (x : Adc) : Option Nat :=
  let allowed := fun (q : Nat) => match x.cal with
    | some c => c.wait.contains q
    | none => true
  let running := (List.range 8).find? (fun q => (injOf x q).st == .running || (injOf x q).st == .runAgain)
  match running with
  | some q => some q
  | none => (List.range 8).find? (fun q => (injOf x q).st == .pending && allowed q)

/-- A PENDING sequence starts (R335): DELAY_TICKS and DELAYED are reported. -/
def injStart (s : State) (a q : Nat) : State :=
  let i := injOf (adcOf s a) q
  if i.st = .pending then
    let s := putN s P.ADC_INJ_STATUS (8 * a + q) (b2n i.delayed + 256 * min (s.tick - i.due) (2 ^ 20 - 1))
    updInj s a q (fun i => { i with st := .running, at_ := 0 })
  else s

/-- Start a conversion (R331). -/
def convStart (s : State) (a : Nat) (k : ConvKind) (ch : Nat) : State :=
  updAdc s a (fun x => { x with conv := some (k, ch, s.tick) })

/-- Take a triggered regular sequence into progress (R333). -/
def regBegin (s : State) (a : Nat) : State :=
  let x := adcOf s a
  if x.regOn then s
  else match x.regWait with
    | some w =>
      updAdc s a (fun x => { x with regOn := true, regPos := 0, regMark := w.1, regCh := w.2, regWait := none
                                    regCnt := x.regCnt + 1, mode := 1 })
    | none =>
      let chans := regChans s a
      if regMode s a = 2 && !chans.isEmpty then
        updAdc s a (fun x => { x with regOn := true, regPos := 0, regMark := none, regCh := chans
                                      regCnt := x.regCnt + 1, regLost := false, mode := 2 })
      else updAdc s a (fun x => { x with mode := regMode s a })

/-- At a conversion boundary, start what waits first (R336, R346). -/
def adcKick (s : State) (a : Nat) : State :=
  let x := adcOf s a
  if x.conv.isSome then s
  else match injNext x with
    | some q =>
      let s := injStart s a q
      let i := injOf (adcOf s a) q
      convStart s a (.injected q) ((injChans i.cfg).getD i.at_ 0)
    | none =>
      match x.cal with
      | some c =>
        if c.n < c.need then
          convStart (updAdc s a (fun x => { x with cal := some { c with conv := true } })) a .cal
            (getN s P.ADC_CAL_CH a)
        else s
      | none =>
        match s.meas.pt with
        | some p =>
          if p.adc = a && decide (p.from_ ≤ s.tick) && p.n < 16 then convStart s a .path p.chan
          else
            let s := regBegin s a
            let x := adcOf s a
            if x.regOn then convStart s a .regular (x.regCh.getD x.regPos 0) else s
        | none =>
          let s := regBegin s a
          let x := adcOf s a
          if x.regOn then convStart s a .regular (x.regCh.getD x.regPos 0) else s

/-- Whether a calibration holds its ADC (R346 steps 1 to 4). -/
def calHolds (x : Adc) : Bool := x.cal.isSome

/-- An ADC that has waited with nothing to convert for the TDAC to settle began its path-test conversion at that tick
(R336, R347). -/
def pathWake (s : State) (a : Nat) : State :=
  match (adcOf s a).conv, s.meas.pt with
  | none, some p =>
    if p.adc = a && decide (p.from_ < s.tick) && p.n < 16 then
      updAdc s a (fun x => { x with conv := some (.path, p.chan, p.from_) })
    else s
  | _, _ => s

/-- A trigger of an injected sequence takes effect (R335, R346); true when it is lost. -/
def injTrigger (s : State) (a q due : Nat) (mark : Option Nat) : State × Bool :=
  let s := pathWake s a
  let x := adcOf s a
  let i := injOf x q
  let cfg := getN s P.ADC_INJ_CFG (8 * a + q)
  if !bit cfg 26 then (s, false)
  else
    match i.st with
    | .idle =>
      (adcKick (updInj s a q (fun i => { i with
        st := .pending, count := i.count + 1, due := due, mark := mark, delayed := calHolds x, cfg := cfg })) a, false)
    | .running =>
      (updInj s a q (fun i => { i with st := .runAgain, next := some (due, mark, cfg) }), false)
    | _ => (incP s P.ADC_INJ_LOST (8 * a + q), true)

/-- Whether MARK is the mode in force for a trigger (R333): as set, or that of the MARK sequence in progress. -/
def markMode (s : State) (a : Nat) : Bool := regMode s a == 1 || ((adcOf s a).mode == 1 && (adcOf s a).regOn)

/-- A trigger of the regular sequence takes effect (R333, R337, R346). -/
def regTrigger (s : State) (a : Nat) (mark : Option Nat) : State :=
  let s := pathWake s a
  let x := adcOf s a
  let chans := regChans s a
  if !markMode s a || chans.isEmpty then s
  else if calHolds x then incP s P.ADC_REG_SKIP a
  else if x.regWait.isSome || (x.regOn && x.regMark.isSome) then
    raiseFault (incP (updAdc s a (fun x => { x with regLost := true })) P.ADC_OVERRUN a) F.ADC_OVERRUN a
  else adcKick (updAdc s a (fun x => { x with regWait := some (mark, chans), regLost := false })) a

/-- A trigger event of a code (R334): every enabled sequence of both ADCs with that TRIG is triggered DELAY later. -/
def trigEvent (s : State) (code : Nat) (mark : Option Nat) : State :=
  (List.range 2).foldl (fun s a =>
    let l := (List.range 8).filterMap (fun q =>
      let cfg := getN s P.ADC_INJ_CFG (8 * a + q)
      if bit cfg 26 && field cfg 25 22 == code then
        some (⟨s.tick + getN s P.ADC_INJ_DELAY (8 * a + q), q, mark, none⟩ : AdcTrig)
      else none)
    if l.isEmpty then s else updAdc s a (fun x => { x with trigs := x.trigs ++ l })) s

/-- The triggers of a period mark (R333, R334). -/
def adcMark (s : State) (k : Nat) : State :=
  let s := trigEvent s 1 (some k)
  (List.range 2).foldl (fun s a =>
    if markMode s a then
      updAdc s a (fun x => { x with trigs := x.trigs ++ [⟨s.tick + field (getN s P.ADC_REG_CFG a) 15 4, 8, some k, none⟩] })
    else s) s

/-- The reply of an `ADC_INJECT` whose trigger has taken effect (R339): detail 0x0001 if it is lost. -/
def injReply (c : Option Cmd) (lost : Bool) (s : State) : State :=
  match c with
  | some c => answer s 0x52 c St.ok (b2n lost) []
  | none => s

/-- A trigger whose delay has passed (R333, R334): sequence 0 to 7 is injected, 8 the regular one. -/
def execAdcSequenceTrigger (adc : Fin 2) (seq : Fin 9) (s : State) : Host.Outcome State Fault Refusal := whenClocked s <|
  let a := adc.val
  match (adcOf s a).trigs.find? (fun t => t.seq == seq.val) with
  | none => ends s
  | some t =>
    let s := advanceTo s t.due
    let s := updAdc s a (fun x => { x with trigs := x.trigs.erase t })
    ends (if seq.val < 8 then
        injReply t.cmd (injTrigger s a seq.val t.due t.mark).2 (injTrigger s a seq.val t.due t.mark).1
      else regTrigger s a t.mark)

/-! ### Conversions (R331, R335, R336, R344, R347) -/

/-- The end of a regular conversion. -/
def regConverted (s : State) (a ch raw : Nat) : State :=
  let x := adcOf s a
  let s := adcResult s a ch raw x.regCnt x.regMark false false
  if !x.regOn then s
  else if x.regPos + 1 < x.regCh.length then updAdc s a (fun x => { x with regPos := x.regPos + 1 })
  else
    let s := updAdc s a (fun x => { x with regOn := false })
    if x.regMark.isSome && !x.regLost then causeGone s F.ADC_OVERRUN a else s

/-- The end of a conversion of an injected sequence. -/
def injConverted (s : State) (a q ch raw : Nat) : State :=
  let i := injOf (adcOf s a) q
  let s := adcResult s a ch raw i.count (if field i.cfg 25 22 = 1 then i.mark else none) true i.delayed
  if i.at_ + 1 < (injChans i.cfg).length then updInj s a q (fun i => { i with at_ := i.at_ + 1 })
  else
    let s := updAdc s a (fun x => { x with cal := x.cal.map (fun c => { c with wait := c.wait.erase q }) })
    match i.st, i.next with
    | .runAgain, some n =>
      let held := match (adcOf s a).cal with
        | some c => !c.wait.contains q
        | none => false
      updInj s a q (fun i => { i with st := .pending, count := i.count + 1, due := n.1, mark := n.2.1, cfg := n.2.2,
                                      next := none, at_ := 0, delayed := held })
    | _, _ => updInj s a q (fun i => { i with st := .idle, at_ := 0 })

/-- The end of a path-test conversion (R347): after 16 the second level settles for 400 ticks. -/
def pathConverted (s : State) (raw : Nat) : State :=
  updMeas s (fun m => { m with pt := m.pt.map (fun p =>
    let p := if p.second then { p with s2 := p.s2 + raw } else { p with s1 := p.s1 + raw }
    if p.n + 1 < 16 then { p with n := p.n + 1 }
    else if p.second then { p with n := 16 }
    else { p with n := 0, second := true, from_ := s.tick + 400 }) })

/-- What the end of a conversion finds: an ADC that waited for the TDAC to settle has started its path-test conversion
meanwhile (R336, R347). -/
def convWake (s : State) (a : Nat) : State :=
  match (adcOf s a).conv, s.meas.pt with
  | none, some p =>
    if p.adc ≠ a then s else if p.from_ < s.tick then pathWake s a else adcKick (advanceTo s p.from_) a
  | _, _ => s

/-- The end of a conversion with its raw code (R331, R340): the belay takes ADC-B's codes (R415). -/
def execAdcConversionEnd (adc : Fin 2) (raw : BitVec 16) (s : State) : Host.Outcome State Fault Refusal := whenClocked s <|
  let a := adc.val
  let r := raw.toNat
  let s := convWake s a
  match (adcOf s a).conv with
  | none => ends s
  | some (k, ch, from_) =>
    let s := advanceTo s (from_ + 100)
    let s := updAdc s a (fun x => { x with conv := none })
    let s := match k with
      | .cal => s
      | _ => if a = 1 then fdcResult s ch r else s
    let s := match k with
      | .regular => regConverted s a ch r
      | .injected q => injConverted s a q ch r
      | .cal => updAdc s a (fun x => { x with cal := x.cal.map (fun c => { c with n := c.n + 1, sum := c.sum + r }) })
      | .path => pathConverted s r
    ends (adcKick s a)

/-- `ADC_INJ_STATUS` (R357). -/
def injStatus (s : State) (t : Nat) : Nat :=
  let st := (injOf (adcOf s (t / 8)) (t % 8)).st
  getN s P.ADC_INJ_STATUS t + 2 * b2n (st == .pending || st == .runAgain) + 4 * b2n (st == .running || st == .runAgain)

/-- The row of `ADC_INJECT`. -/
def spAdcInject : CmdSpec := { cmdSpec 0x52 1 1 false true with reserved := [(0, 0xFFFFFF0E)] }

/-- `ADC_INJECT`'s checks and effect (R339). The trigger takes effect DELAY ticks after the interpretation, and the reply,
which tells whether it is lost, is written then, within the 40 µs of R50 (DEDUCED, log entry 54). -/
def adcInjectBody (c : Cmd) (s : State) : Res :=
  let a := pw c 0 % 2
  let q := field (pw c 0) 7 4
  let t := 8 * a + q
  let delay := getN s P.ADC_INJ_DELAY t
  Res.check (firstErr [errIf (decide (8 ≤ q)) St.range 0x8000 (pw c 0),
                       errIf (!bit (getN s P.ADC_INJ_CFG t) 26) St.state 3 (diagKind 7 q)])
    (if delay = 0 then
      let r := injTrigger s a q s.tick none
      .ok (b2n r.2) [] r.1
    else .later (updAdc s a (fun x => { x with trigs := x.trigs ++ [⟨s.tick + delay, q, none, some c⟩] })))

/-- `ADC_INJECT` (R339). -/
def execAdcInject (c : Cmd) (s : State) : Host.Outcome State Fault Refusal :=
  ends (runCmd spAdcInject none adcInjectBody c s)

/-! ### Calibration (R344 to R346) -/

/-- The tag of the operation that calibrates an ADC. -/
def calOp (s : State) (a : Nat) : Option LongOp :=
  match opRun? s 0x50 a with
  | some o => some o
  | none => opRun? s 0x51 a

/-- The conflicts of a calibration (R345). A path test was started by a parameter write and has no tag. -/
def calErr (s : State) (a : Nat) : Option CmdErr :=
  let onTdac := getN s P.ADC_CAL_CH a == 24
  let otherTdac := (adcOf s (1 - a)).cal.isSome && getN s P.ADC_CAL_CH (1 - a) == 24
  firstErr
    [ busyErr (calOp s a),
      errIf (match s.meas.pt with
        | some p => p.adc == a || onTdac
        | none => false) St.conflict 1 0,
      if onTdac && otherTdac then busyErr (calOp s (1 - a)) else none ]

/-- The runs a calibration waits for (R346 step 2): one of a sequence that is PENDING or RUNNING, two of one that is
both. -/
def calWait (x : Adc) : List Nat :=
  (List.range 8).flatMap (fun q =>
    match (injOf x q).st with
    | .idle => []
    | .runAgain => [q, q]
    | _ => [q])

/-- A calibration begins (R346): sequences that are PENDING or RUNNING complete first, the regular one is abandoned. -/
def calBegin (s : State) (a : Nat) (full : Bool) : State :=
  let wait := calWait (adcOf s a)
  adcKick (updAdc s a (fun x => { x with
    cal := some ⟨full, false, wait, 0, 2 ^ getN s P.ADC_CAL_AVG a, 0, none⟩, regOn := false, regWait := none })) a

/-- A calibration command's checks and effect (R345). -/
def adcCalBody (op : Nat) (full : Bool) (c : Cmd) (s : State) : Res :=
  let a := pw c 0
  Res.check (calErr s a) (.accepted (startOp s op a c []) (fun s => calBegin s a full))

/-- The row of `ADC_CAL_ZERO`. -/
def spAdcCalZero : CmdSpec := { cmdSpec 0x50 1 1 true true with reserved := [(0, 0xFFFFFFFE)], maxReply := 2, long := true }

/-- `ADC_CAL_ZERO` (R345). -/
def execAdcCalZero (c : Cmd) (s : State) : Host.Outcome State Fault Refusal :=
  ends (runCmd spAdcCalZero none (adcCalBody 0x50 false) c s)

/-- The row of `ADC_CAL_FULL`. -/
def spAdcCalFull : CmdSpec := { cmdSpec 0x51 1 1 true true with reserved := [(0, 0xFFFFFFFE)], maxReply := 2, long := true }

/-- `ADC_CAL_FULL` (R345). -/
def execAdcCalFull (c : Cmd) (s : State) : Host.Outcome State Fault Refusal :=
  ends (runCmd spAdcCalFull none (adcCalBody 0x51 true) c s)

/-- Flags ZERO_DONE and FULL_DONE of `ADC_CAL_STATE` are kept in its stored word. -/
def calState (s : State) (a : Nat) : Nat :=
  let st := match (adcOf s a).cal with
    | none => 0
    | some c => if c.conv then 2 else 1
  getN s P.ADC_CAL_STATE a + st

/-- A calibration's operation ends with its result, and the sequences triggered meanwhile run (R344, R346). -/
def calEnd (s : State) (a op flag id : Nat) (m x : Int) (bad : Option Int) : State :=
  let s := updAdc s a (fun y => { y with cal := none })
  let s := match bad with
    | some _ => s
    | none => tallyTouch (orP (putI s id a x) P.ADC_CAL_STATE a flag) id
  let s := match opRun? s op a with
    | none => s
    | some o =>
      match bad with
      | some d => completeErr s o ⟨St.range, id, bitsOf 32 d⟩
      | none => completeOk s o [BitVec.ofInt 32 m, BitVec.ofInt 32 x]
  adcKick s a

/-- The mean of a calibration whose conversions are all made (R344). -/
def calMean (s : State) (a : Nat) (full : Bool) : Option Int :=
  match (adcOf s a).cal with
  | some c => if c.full = full && c.n = c.need && c.conv then some (((c.sum + c.need / 2) / c.need : Nat) : Int) else none
  | none => none

/-- The end of a zero calibration (R344). -/
def execAdcCalZeroDone (adc : Fin 2) (s : State) : Host.Outcome State Fault Refusal := whenClocked s <|
  let a := adc.val
  match calMean s a false with
  | none => ends s
  | some m =>
    let z := m - getN s P.ADC_CAL_ZREF a
    ends (calEnd s a 0x50 4 P.ADC_CAL_Z m z (if 4096 < z.natAbs then some z else none))

/-- The end of a full-scale calibration (R344). -/
def execAdcCalFullDone (adc : Fin 2) (s : State) : Host.Outcome State Fault Refusal := whenClocked s <|
  let a := adc.val
  match calMean s a true with
  | none => ends s
  | some m =>
    let zref : Int := getN s P.ADC_CAL_ZREF a
    let d := m - getI s P.ADC_CAL_Z a - zref
    let g := if d ≤ 0 then 0 else roundHalfAway (16384 * ((getN s P.ADC_CAL_FREF a : Int) - zref : Int) / (d : Rat))
    ends (calEnd s a 0x51 8 P.ADC_CAL_G m g (if d ≤ 0 ∨ g < 12288 ∨ 20480 < g then some g else none))

/-! ### Input path test (R347, R348) -/

/-- L1 and L2 of `ADC_PT_LEVELS`. -/
def ptLevels (s : State) : Nat × Nat :=
  (field (getN s P.ADC_PT_LEVELS 0) 11 0, field (getN s P.ADC_PT_LEVELS 0) 27 16)

/-- The checks of `ADC_PT_START` beyond its reserved bits (R348). -/
def ptStartErr (s : State) (v : Nat) : Option CmdErr :=
  let a := field v 8 8
  let l := ptLevels s
  firstErr
    [ errIf (decide (23 < field v 4 0)) St.range P.ADC_PT_START v,
      deblockedErr s,
      errIf s.meas.pt.isSome St.conflict 1 0,
      busyErr (calOp s a),
      if getN s P.ADC_CAL_CH (1 - a) = 24 then busyErr (calOp s (1 - a)) else none,
      errIf (l.1 == l.2) St.range P.ADC_PT_LEVELS (getN s P.ADC_PT_LEVELS 0) ]

/-- `ADC_PT_START` starts a path test (R347). -/
def ptStart (s : State) (v : Nat) : State :=
  let ch := field v 4 0
  let l := ptLevels s
  let s := putN s P.ADC_PT_RESULT ch (2 ^ 18)
  updMeas s (fun m => { m with pt := some ⟨field v 8 8, ch, l.1, l.2, false, 0, 0, 0, s.tick + 400⟩ })

/-- A path test whose conversions are all made ends (R347, R356). -/
def execPathTestDone (s : State) : Host.Outcome State Fault Refusal := whenClocked s <|
  match s.meas.pt with
  | some p =>
    if p.second && p.n == 16 then
      let ratio := sat16 (roundHalfAway (128 * ((p.s2 : Rat) - p.s1) / ((p.l2 : Rat) - p.l1)))
      let ok := decide ((ratio - getN s P.ADC_PT_EXPECT p.chan).natAbs ≤ getN s P.ADC_PT_TOL p.chan)
      let s := updMeas s (fun m => { m with pt := none })
      let s := putN s P.ADC_PT_RESULT p.chan (bitsOf 16 ratio + 65536 * b2n ok + 2 ^ 17)
      ends (if ok then causeGone s F.ADC_PATH_TEST p.chan else raiseFault s F.ADC_PATH_TEST p.chan)
    else ends s
  | none => ends s

/-! ### Decimation (R350 to R355) -/

/-- Stages k of a channel. -/
def decStages (cfg : Nat) : Nat := field cfg 4 1

/-- Shift s_j of stage j, counted from 1 (R358). -/
def decShift (cfg j : Nat) : Nat := field cfg (8 + 3 * (j - 1) + 2) (8 + 3 * (j - 1))

/-- The tap at a distance from the centre of the half-band filter: the centre 1, even distances 0, the DC gain 2 (R350,
log entry 2). -/
def halfTap (d : Nat) : Rat :=
  if d = 0 then 1
  else if d = 9 then 1 / 2 - (Config.halfBandTap 0 + Config.halfBandTap 1 + Config.halfBandTap 2 + Config.halfBandTap 3)
  else match d with
    | 1 => Config.halfBandTap 0
    | 3 => Config.halfBandTap 1
    | 5 => Config.halfBandTap 2
    | 7 => Config.halfBandTap 3
    | _ => 0

/-- One output of a stage from its last 19 inputs, newest first (R350): shift with rounding half up. -/
def halfBand (l : List Int) (shift : Nat) : Int :=
  let y := sumRat ((List.range 19).map (fun i => halfTap (if i ≤ 9 then 9 - i else i - 9) * (l.getD i 0 : Rat)))
  (y / (2 ^ shift : Rat) + 1 / 2).floor

/-- One input into stages j to k: the channel, the last stage's output if one completes, and the saturations. -/
def decFeed (cfg : Nat) : Nat → Nat → DecChan → Int → Nat → DecChan × Option Int × Nat
  | 0, _, x, v, sat => (x, some v, sat)
  | n + 1, j, x, v, sat =>
    let l := (v :: tabGet [] x.taps j).take 19
    let c := (tabGet 0 x.cnts j + 1) % 2
    let x := { x with taps := tabSet [] x.taps j l, cnts := tabSet 0 x.cnts j c }
    if c = 1 then (x, none, sat)
    else
      let y := halfBand l (decShift cfg j)
      let z := clampInt y (-8388608) 8388607
      decFeed cfg n (j + 1) x z (if y = z then sat else sat + 1)

/-- A completed output of a channel (R350, R352, R354): saturated to ±32,767, the full scale of R350 (DEDUCED, log entry
54). A saturation of an earlier input sets OVR of the next output. -/
def decOutput (s : State) (n : Nat) (y : Int) (sat : Nat) : State :=
  let cfg := getN s P.DEC_CFG n
  let k := decStages cfg
  let z := clampInt y (-32767) 32767
  let sat := if z = y then sat else sat + 1
  let x := decOf s n
  let m := x.outs + 1
  let settled := decide (1 + 18 * (2 ^ k - 1) ≤ m * 2 ^ k)
  let atMark := bit cfg 5 && s.per.running && x.from_ + 10 * x.samples == s.per.lastMark
  let s := updDec s n (fun x => { x with outs := m, settled := settled, sat := false })
  let s := addP s P.DEC_SAT n sat
  deliver s
    { tag := 32 + n, rank := 2 + n, value := bitsOf 16 z, seq := if atMark then s.per.count else m, settled := settled
      injected := false, delayed := false, ovr := x.sat || decide (0 < sat), latest := !bit cfg 5 || atMark || x.misal
      queued := bit (getN s P.DEC_QUEUE_EN 0) n }

/-- One input bit of a channel (R350, R355). -/
def decBit (s : State) (n : Nat) (b : Bool) : State :=
  let x := decOf s n
  let moved := decide (0 < x.run) && b != x.lastBit
  let s := updDec s n (fun x => { x with samples := x.samples + 1, run := if moved then 1 else x.run + 1, lastBit := b })
  let s := if x.stuck && moved && decide (x.stuckAt < x.samples + 1) then
      causeGone (updDec s n (fun x => { x with stuck := false })) F.DEC_STUCK n
    else s
  let cfg := getN s P.DEC_CFG n
  let r := decFeed cfg (decStages cfg) 1 (decOf s n) (if b then 32768 else -32768) 0
  let s := updDec s n (fun _ => r.1)
  match r.2.1 with
  | some y => decOutput s n y r.2.2
  | none => addP (if r.2.2 = 0 then s else updDec s n (fun x => { x with sat := true })) P.DEC_SAT n r.2.2

/-- Whether `BS_CLKc` runs (R350): one of its channels is enabled. -/
def bsClkRuns (s : State) (c : Nat) : Bool :=
  (List.range 4).any (fun i => bit (getN s P.DEC_CFG (4 * c + i)) 0)

/-- The run of equal bits of a channel by now, the samples since its last slot included (R355). -/
def stuckRun (s : State) (n : Nat) : Nat :=
  let x := decOf s n
  x.run + (s.tick - (x.from_ + 10 * x.samples)) / 10

/-- A run of `DEC_STUCK_LIMIT` samples or more raises `F_DEC_STUCK` (R355). -/
def stuckCheck (s : State) (n run : Nat) : State :=
  let lim := getN s P.DEC_STUCK_LIMIT 0
  if lim != 0 && decide (lim ≤ run) && !(decOf s n).stuck then
    raiseFault (updDec s n (fun x => { x with stuck := true, stuckAt := (s.tick - x.from_) / 10 })) F.DEC_STUCK n
  else s

/-- The last tick of the slot in which a channel's bits up to a tick are served (R351). -/
def slotEnd (s : State) (n last : Nat) : Nat :=
  let lo := max s.tick (last + 8)
  let base := s.meas.grid + 8 * n + 7
  if lo ≤ base then base else base + 128 * ceilDiv (lo - base) 128

/-- A channel's slot (R351) with the input bits taken since its last one. -/
def execDecSlot (channel : Fin 16) (bits : List Bool) (s : State) : Host.Outcome State Fault Refusal := whenClocked s <|
  let n := channel.val
  if bit (getN s P.DEC_CFG n) 0 then
    let x := decOf s n
    let s := advanceTo s (slotEnd s n (x.from_ + 10 * (x.samples + bits.length)))
    ends (bits.foldl (fun s b => let s := decBit s n b; stuckCheck s n (decOf s n).run) s)
  else ends s

/-- A bitstream goes on holding its value (R355): with the samples since the channel's last slot the run may have
reached `DEC_STUCK_LIMIT`. -/
def execDecStuck (channel : Fin 16) (s : State) : Host.Outcome State Fault Refusal := whenClocked s <|
  let n := channel.val
  ends (if bit (getN s P.DEC_CFG n) 0 then stuckCheck s n (stuckRun s n) else s)

/-- A restart of a channel (R353): filter state cleared, output count 0; `base` is the tick before its first sample. -/
def decRestart (s : State) (n base : Nat) : State :=
  updDec s n (fun x => { DecChan.empty with
    from_ := base, lastBit := x.lastBit, run := x.run, stuck := x.stuck, misal := x.misal })

/-- A restart of every channel, with the grid's origin at a tick (R353). -/
def decSyncAt (s : State) (t : Nat) : State :=
  (List.range 16).foldl (fun s n => decRestart s n t) (updMeas s (fun m => { m with grid := t }))

/-- The last tick of the input grid at or before the present one; an origin still to come is the next one. -/
def gridBack (s : State) : Nat := if s.tick < s.meas.grid then s.meas.grid else s.tick - (s.tick - s.meas.grid) % 10

/-- A write of `DEC_CFG` restarts the channel (R353). -/
def decCfgSet (s : State) (n : Nat) : State := decRestart s n (gridBack s)

/-- `DEC_CFG`'s stages must be 3 to 8 (R358). -/
def decCfgErr (w : Word) : Option CmdErr :=
  errIf (decide (decStages w.toNat < 3) || decide (8 < decStages w.toNat)) St.range P.DEC_CFG w.toNat

/-- A falling edge of `DSYNC` (R353): the origin moves to the next input sample. -/
def execDsyncFall (s : State) : Host.Outcome State Fault Refusal := whenClocked s <|
  if bit (getN s P.DEC_CTRL 0) 0 then
    let t := if s.tick ≤ s.meas.grid then s.meas.grid else if (s.tick - s.meas.grid) % 10 = 0 then s.tick else gridBack s + 10
    ends (incP (decSyncAt s t) P.DEC_SYNC_COUNT 0)
  else ends s

/-- The row of `DEC_SYNC`. -/
def spDecSync : CmdSpec := cmdSpec 0x53 0 0 false true

/-- `DEC_SYNC`'s effect: it waits for its mark (R353). -/
def decSyncBody (_ : Cmd) (s : State) : Res := .done (updMeas s (fun m => { m with sync := true }))

/-- `DEC_SYNC` (R353). -/
def execDecSync (c : Cmd) (s : State) : Host.Outcome State Fault Refusal :=
  ends (runCmd spDecSync none decSyncBody c s)

/-- The decimator at a mark (R352, R353): alignment of the MARK channels, then a `DEC_SYNC` that waits. -/
def decMark (s : State) : State :=
  let s := (List.range 16).foldl (fun s n =>
    let cfg := getN s P.DEC_CFG n
    let x := decOf s n
    if bit cfg 0 && bit cfg 5 && decide (x.from_ < s.tick) then
      let ok := (s.tick - x.from_) % (2 ^ decStages cfg * 10) == 0
      let s := updDec s n (fun x => { x with misal := !ok })
      if ok then causeGone s F.DEC_ALIGN n else raiseFault s F.DEC_ALIGN n
    else s) s
  if s.meas.sync then
    incP (decSyncAt (updMeas s (fun m => { m with sync := false })) s.tick) P.DEC_SYNC_COUNT 0
  else s

/-- `DEC_STATUS` (R358). -/
def decStatus (s : State) (n : Nat) : Nat :=
  let x := decOf s n
  b2n x.settled + 2 * b2n x.misal + 4 * b2n x.stuck + 65536 * min x.outs 65535

/-- `ADC_CHAN_FS` of a tag (R343): FULL_SCALE of the lowest VALID board record whose inputs cover it (R290). -/
def chanFs (s : State) (t : Nat) : Word :=
  let cover := fun (b : Nat) =>
    let x := tabGet Board.empty s.disc.boards b
    let f := x.bytes.getD 2 0
    if x.st = .valid && decide (f ≤ t) && decide (t < f + x.bytes.getD 3 0) then (bytesWords (x.bytes.drop 4)).head?
    else none
  match (List.range 8).findSome? cover with
  | some w => w
  | none => 0

end Sys2Proof.Machine
end

