-- ==== Sys2Proof/Machine/Chopper.lean ====
section
/-! DEFINITION. Chopper legs and power-stage protection (R373 to R397). -/

namespace Sys2Proof.Machine

/-! ### Outputs, blanking, interlock -/

/-- MODE of `CHOP_MODE` as set (R396). -/
def chopModeP (s : State) (n : Nat) : Nat := field (getN s P.CHOP_MODE n) 2 0

/-- Whether a mode drives the balls: PWM, HYST or FORCE (R378). -/
def switching (mode : Nat) : Bool := mode == 1 || mode == 2 || mode == 4

/-- The interlock (R382): ticks in which both outputs would be on, an output counting as on for 2 ticks after it is
turned off, are counted once and raise the fault. -/
def interlock (s : State) (n : Nat) : State :=
  let l := legOf s n
  let inf := s.tick + 1
  let gh := if l.gh then (if l.gl then inf else l.glOff) else l.ghOff
  let gl := if l.gl then (if l.gh then inf else l.ghOff) else l.glOff
  let e := min gh gl
  let a := max s.tick l.ilDone
  if a < e then
    let s := updLeg (addP s P.CHOP_IL_COUNT n (e - a)) n (fun l => { l with ilDone := e, ilHeld := true })
    raiseFault s F.CHOP_SHOOT_BLOCKED n
  else s

/-- Turn `CHn_GH` off. -/
def ghTurnOff (s : State) (n : Nat) : State := updLeg s n (legGhOff s.tick)

/-- Turn `CHn_GL` off. -/
def glTurnOff (s : State) (n : Nat) : State := updLeg s n (legGlOff s.tick)

/-- A turn-on of this very tick does not happen (R392): the output stays off without an edge, and what the interlock
counted for it is taken back. -/
def undoOn (s : State) (n : Nat) : State :=
  match (legOf s n).onAt with
  | none => s
  | some o =>
    if o.tick ≠ s.tick then s
    else
      let s := updLeg s n (fun l => { l with
        gh := l.gh && o.out != 1, ghInt := l.ghInt && o.out != 1, gl := l.gl && o.out != 2, onAt := none
        blankTo := o.blankTo, ilDone := o.ilDone, ilHeld := o.ilHeld })
      if o.count = 0 then s
      else causeGone (putN s P.CHOP_IL_COUNT n (getN s P.CHOP_IL_COUNT n - o.count)) F.CHOP_SHOOT_BLOCKED n

/-- Turn both outputs off, a delayed turn-on being dropped and one of this tick taken back. -/
def legOff (s : State) (n : Nat) : State := updLeg (undoOn s n) n (legBothOff s.tick)

/-- A turn-on with its interlock, kept for R392. -/
def turnOn (s : State) (n out : Nat) (f : Leg → Leg) : State :=
  let l := legOf s n
  let c := getN s P.CHOP_IL_COUNT n
  let s := interlock (updLeg s n f) n
  updLeg s n (fun x => { x with
    onAt := some ⟨s.tick, out, l.blankTo, l.ilDone, l.ilHeld, getN s P.CHOP_IL_COUNT n - c⟩ })

/-- Turn `CHn_GH` on; in TIMER only the internal signal (R378). -/
def ghTurnOn (s : State) (n : Nat) : State :=
  let l := legOf s n
  if l.gh || l.mode == 3 then updLeg s n (fun l => { l with ghInt := true })
  else turnOn s n 1 (fun l => legEdge s.tick { l with gh := true, ghInt := true })

/-- Turn `CHn_GL` on; in TIMER it is held off. -/
def glTurnOn (s : State) (n : Nat) : State :=
  let l := legOf s n
  if l.gl || l.mode == 3 then s else turnOn s n 2 (fun l => legEdge s.tick { l with gl := true })

/-- Whether a trip is blanked (R384). -/
def blanked (s : State) (n : Nat) : Bool :=
  let l := legOf s n
  if n < 2 && l.blankSrc == 1 then
    let m := legOf s (n + 2)
    m.mode == 3 && m.running && m.ghInt
  else decide (s.tick < l.blankTo)

/-- The leg latches off with a cause (R385, R387). -/
def legLatch (s : State) (n : Nat) (f : Leg → Leg) : State :=
  updLeg (legOff s n) n (fun l => f { l with st := .latched, release := false })

/-- A recognised trip acts (R383, R385); a turn-on of the same tick neither happens nor blanks it (R392). -/
def tripAct (s : State) (n : Nat) : State :=
  let l := legOf s n
  if !(l.tripIn && bit l.tripCfg 0 && l.running && l.st == .running && !blanked (undoOn s n) n) then s
  else
    let s := legOff s n
    if l.tripped then s
    else
      let s := updLeg s n (fun l => { l with tripped := true })
      let s := incP (putN s P.CHOP_TRIP_RUN n (min (getN s P.CHOP_TRIP_RUN n + 1) 255)) P.CHOP_TRIP_TOTAL n
      if field l.tripCfg 15 8 ≤ getN s P.CHOP_TRIP_RUN n then
        raiseFault (legLatch s n (fun l => { l with lTrip := true })) F.CHOP_TRIP_LATCHED n
      else s

/-! ### Gate supplies (R389) -/

/-- Whether every enabled gate supply is OK. -/
def gsOk (l : Leg) : Bool := (!bit l.gsCfg 0 || l.gsH) && (!bit l.gsCfg 1 || l.gsL)

/-- An enabled supply that is not OK in a switching mode (R389). -/
def gsAct (s : State) (n : Nat) : State :=
  let l := legOf s n
  if gsOk l || !switching l.mode || l.st == .off then s
  else
    let s := if l.st = .running then updLeg (legOff s n) n (fun l => { l with st := .uvloHold }) else s
    raiseFault s F.CHOP_UVLO n

/-! ### HYST and duty (R376, R393, R394) -/

/-- V of `CHOP_VDC_SRC` with the register's VALID bit (R393). -/
def chopV (s : State) (n : Nat) : Int × Bool :=
  let src := getN s P.CHOP_VDC_SRC n
  let w := getN s P.ADC_LATEST (field src 5 0)
  let raw := w % 65536
  (if bit src 8 then (raw : Int) - 32768 else signedOf 16 raw, bit w 28)

/-- The control decision of a cycle in HYST (R393, R394). -/
def hystCycle (s : State) (n : Nat) : State × Nat :=
  let v := chopV s n
  if !v.2 then (s, 0)
  else
    let v := v.1
    let s := if (legOf s n).hystNew then
        updLeg (putI s P.CHOP_VDC_TRACK n v) n (fun l => { l with hystNew := false, hystOn := false, ovRun := 0 })
      else s
    let vt := getI s P.CHOP_VDC_TRACK n
    let von := min (vt + getN s P.CHOP_HYST_ON n) (getI s P.CHOP_VDC_ABS_ON n)
    let voff := von - getN s P.CHOP_HYST_BAND n
    let on := (legOf s n).hystOn
    let on' := if on then decide (voff < v) else decide (von ≤ v)
    let s := if !on && !on' then putI s P.CHOP_VDC_TRACK n (vt + asr (v - vt) (getN s P.CHOP_TRACK_SHIFT n)) else s
    let above := decide (getI s P.CHOP_OV_LIMIT n < v)
    let run := if above then (legOf s n).ovRun + 1 else 0
    let s := updLeg s n (fun l => { l with hystOn := on', ovRun := run })
    let s := if !above then causeGone s F.DC_OV n
      else if getN s P.CHOP_OV_COUNT n ≤ run && !causeHeld s F.DC_OV n then raiseFault s F.DC_OV n
      else s
    (s, if on' then getN s P.CHOP_DUTY n else 0)

/-- The effective duty of the cycle (R376). -/
def cycleDuty (s : State) (n : Nat) : State :=
  let r := match (legOf s n).mode with
    | 2 => hystCycle s n
    | 1 => (s, getN s P.CHOP_DUTY n)
    | 3 => (s, getN s P.CHOP_DUTY n)
    | _ => (s, 0)
  let s := r.1
  let l := legOf s n
  let lim := l.per - 2 * l.dt
  let clamp := decide (lim < r.2)
  let s := updLeg s n (fun l => { l with duty := min r.2 lim, clamped := clamp })
  if clamp then raiseFault s F.CHOP_DUTY_CLAMP n else causeGone s F.CHOP_DUTY_CLAMP n

/-! ### FORCE (R381) -/

/-- A turn-on of FORCE that is due in this tick happens (R381). -/
def forceOn (s : State) (n : Nat) : State :=
  let l := legOf s n
  match l.forceAt with
  | none => s
  | some (t, out) =>
    if s.tick < t then s
    else
      let s := updLeg s n (fun l => { l with forceAt := none })
      if l.st != .running || l.tripped then s else if out = 1 then ghTurnOn s n else glTurnOn s n

/-- At a cycle start the outputs are brought to what `CHOP_FORCE` commands; outside FORCE no turn-on of it is left. -/
def forceApply (s : State) (n : Nat) : State :=
  if (legOf s n).mode = 4 then forceOn (updLeg s n (legForce s.tick (getN s P.CHOP_FORCE n))) n
  else updLeg s n (fun l => { l with forceAt := none })

/-! ### Cycle start (R374 to R379, R390) -/

/-- Apply the staged values of CG_CHOP at the cycle start (R55, R375). -/
def chopCommit (s : State) (n : Nat) : State :=
  if groupArmed s 3 n then
    let s := [P.CHOP_PERIOD, P.CHOP_DUTY, P.CHOP_DEADTIME].foldl (fun s id =>
      match tabGet none s.staged (pkey id n) with
      | some w => { putP s id n w with staged := tabSet none s.staged (pkey id n) none }
      | none => s) s
    tallyStale { s with armedG := tabSet false s.armedG (3 * 128 + n) false }
  else s

/-- The causes that comparators hold end with their levels (R395). -/
def cmpCauses (s : State) : State :=
  let s := (List.range 4).foldl (fun s n => if (legOf s n).cmp then s else causeSet s F.CHOP_SC n false) s
  if (List.range 4).any (fun n => (legOf s n).cmp) then s else causeSet s F.CHOP_DCLINK_SHORT 0 false

/-- The comparators' levels, unfiltered (R397); a comparator works in every mode except OFF (R386). -/
def cmpLevels (s : State) (v : BitVec 4) : State :=
  cmpCauses ((List.range 4).foldl (fun s n => updLeg s n (fun l =>
    { l with cmp := bit v.toNat n && l.mode != 0, conf := l.conf && bit v.toNat n && l.mode != 0 })) s)

/-- The state in which a cycle starts (R390). -/
def cycleState (l : Leg) (modeP : Nat) : LegState :=
  match l.st with
  | .off => .running
  | .latched => if l.release then (if modeP = 0 then .off else .running) else .latched
  | .uvloHold => if gsOk l then .running else .uvloHold
  | .running => .running

/-- One cycle start of a leg at the present tick (R374 to R378, R390, R392). -/
def cycleStart (s : State) (n : Nat) : State :=
  let s := chopCommit s n
  let old := legOf s n
  let s := if old.tripped then s else putN s P.CHOP_TRIP_RUN n 0
  let s := if old.running && !old.ilHeld then causeGone s F.CHOP_SHOOT_BLOCKED n else s
  let m := chopModeP s n
  let s := updLeg s n (fun l =>
    { l with
      gsCfg := getN s P.CHOP_GS_CFG n, tripCfg := getN s P.CHOP_TRIP_CFG n, blank := getN s P.CHOP_BLANK n
      blankSrc := getN s P.CHOP_BLANK_SRC n, minPulse := getN s P.CHOP_MIN_PULSE n, per := getN s P.CHOP_PERIOD n
      scFilter := getN s P.CHOP_SC_FILTER n
      dt := getN s P.CHOP_DEADTIME n, mode := m, hystNew := l.hystNew || (m == 2 && old.mode != 2)
      hystOn := l.hystOn && !(m == 2 && old.mode != 2) })
  let st := cycleState (legOf s n) m
  let s := updLeg s n (fun l => { l with
    st := st, release := if st = .latched then l.release else false, running := st != .off, waitMark := false
    startAt := s.tick, tripped := false, ilHeld := decide (s.tick < l.ilDone) })
  if st = .off then cmpCauses (updLeg (undoOn s n) n (legStop s.tick))
  else
    let s := cycleDuty s n
    let s := if m = 3 || st != .running then legOff s n else s
    let s := if st = .running then gsAct s n else s
    let s := if gsOk (legOf s n) then causeGone s F.CHOP_UVLO n else s
    let s := forceApply (tripAct s n) n
    reelRef (trigEvent s (2 + n) none) (1 + n)

/-- Whether a leg awaits its first cycle start (R379). -/
def chopStarting (s : State) (n : Nat) : Bool :=
  (legOf s n).st == .off && !(legOf s n).running && chopModeP s n != 0

/-- Whether a leg's next cycle start will come: its counter runs, or its first cycle is due. -/
def cycleAwaited (s : State) (n : Nat) : Bool := (legOf s n).running || (chopStarting s n && !(legOf s n).waitMark)

/-- The tick of a leg's next cycle start, the present one where none will come. -/
def cycleDue (s : State) (n : Nat) : Nat :=
  let l := legOf s n
  if l.running then l.startAt + l.per else if cycleAwaited s n then l.startAt else s.tick

/-- Whether a cycle start of a leg is still to be taken in this tick: it comes before what else the tick brings (R392). -/
def cycleFirst (s : State) (n : Nat) : Bool := cycleAwaited s n && cycleDue s n == s.tick

/-- A leg's counter wraps, or its first cycle begins (R374, R379). A source leg in TIMER restarts with the leg it serves
(R384). `cmp` are the comparators' levels. -/
def execChopCycleStart (leg : Fin 4) (cmp : BitVec 4) (s : State) : Host.Outcome State Fault Refusal := whenClocked s <|
  let n := leg.val
  let s := advanceTo s (cycleDue s n)
  if cycleDue s n ≤ s.tick && cycleAwaited s n then
    let s := cmpLevels (cycleStart s n) cmp
    let m := legOf s (n + 2)
    ends (if n < 2 && (legOf s n).blankSrc == 1 && m.running && m.mode == 3 then cycleStart s (n + 2) else s)
  else ends (cmpLevels s cmp)

/-- Whether the cycle's upper pulse is sent (R376, R377). -/
def ghPulse (l : Leg) : Bool := decide (2 * l.dt < l.per) && decide (0 < l.duty) && decide (l.minPulse ≤ l.duty)

/-- Whether the cycle's lower pulse is sent (R376, R377). -/
def glPulse (l : Leg) : Bool :=
  let w := l.per - 2 * l.dt - l.duty
  decide (2 * l.dt < l.per) && decide (0 < w) && decide (l.minPulse ≤ w)

/-- The tick offset of an edge in the cycle (R374): 0 `CHn_GL` off, 1 `CHn_GH` on, 2 `CHn_GH` off, 3 `CHn_GL` on. -/
def edgeOffset (l : Leg) (e : Nat) : Nat :=
  match e with
  | 0 => 0
  | 1 => l.dt
  | 2 => l.dt + l.duty
  | _ => 2 * l.dt + l.duty

/-- The tick of an edge row: a due write of the leg first, then its place in the cycle, or in FORCE the delayed
turn-on. -/
def edgeTick (s : State) (n e : Nat) : Nat :=
  let l := legDue (s.tick + 1) (getN s P.CHOP_FORCE n) (legOf s n)
  if !l.running || l.mode == 0 then s.tick
  else if l.mode = 4 then
    match l.forceAt with
    | some (t, out) => if out = 1 && e = 1 || out = 2 && e = 3 then t else s.tick
    | none => s.tick
  else l.startAt + edgeOffset l e

/-- One edge at the present tick (R374, R376, R377). -/
def edgeAct (s : State) (n e : Nat) : State :=
  let l := legOf s n
  let live := l.st == .running && !l.tripped
  if !l.running || l.mode == 0 then s
  else if l.mode = 4 then
    (match l.forceAt with
    | some (_, out) => if out = 1 && e = 1 || out = 2 && e = 3 then forceOn s n else s
    | none => s)
  else match e with
    | 0 => glTurnOff s n
    | 1 => if live && ghPulse l then ghTurnOn s n else s
    | 2 => ghTurnOff s n
    | _ => if live && glPulse l then glTurnOn s n else s

/-- A commanded edge of the cycle (R374), or in FORCE the delayed turn-on (R381). `cmp` are the comparators' levels. -/
def execChopGateEdge (leg : Fin 4) (edge : Fin 4) (s : State) (cmp : BitVec 4 := 0) : Host.Outcome State Fault Refusal :=
  whenClocked s <|
  let s := advanceTo s (edgeTick s leg edge)
  ends (cmpLevels (edgeAct s leg edge) cmp)

/-! ### Trip input, comparator, gate supplies -/

/-- `CHn_TRIP_N` is recognised active (R383); in the tick of a cycle start it belongs to the new cycle (R392). -/
def execChopTripRecognised (leg : Fin 4) (s : State) : Host.Outcome State Fault Refusal := whenClocked s <|
  let n := leg.val
  let s := updLeg s n (fun l => { l with tripIn := true })
  ends (if cycleFirst s n then s else tripAct s n)

/-- `CHn_TRIP_N` is recognised inactive (R383, R395). -/
def execChopTripReleased (leg : Fin 4) (s : State) : Host.Outcome State Fault Refusal := whenClocked s <|
  let n := leg.val
  ends (causeGone (updLeg s n (fun l => { l with tripIn := false })) F.CHOP_TRIP_LATCHED n)

/-- A blanking window ends; a trip that is still active acts (R383, R384). -/
def execChopBlankingEnd (leg : Fin 4) (s : State) : Host.Outcome State Fault Refusal := whenClocked s <|
  let n := leg.val
  let l := legOf s n
  let s := if n < 2 && l.blankSrc == 1 then s else advanceTo s l.blankTo
  ends (if cycleFirst s n then s else tripAct s n)

/-- Every leg that is not OFF latches off with cause LATCH_DCLINK (R387). -/
def dclinkLatch (s : State) : State :=
  (List.range 4).foldl (fun s n =>
    if (legOf s n).st = .off then s else legLatch s n (fun l => { l with lDc := true })) s

/-- The classification window ends at the present tick with one confirming leg: its F_CHOP_SC (R387). -/
def scClose (s : State) : State :=
  match s.chop.scWin with
  | none => s
  | some (m, _) =>
    let s := { s with chop := { s.chop with scWin := none } }
    if m < 4 then
      let s := raiseFault s F.CHOP_SC m
      if (legOf s m).cmp then s else causeGone s F.CHOP_SC m
    else s

/-- The classification window with its leg, 4 once two have confirmed, and its end (R387). -/
def scOpen (s : State) (leg e : Nat) : State := { s with chop := { s.chop with scWin := some (leg, e) } }

/-- A confirmation of a leg (R387); a window that has ended before this tick is closed first. -/
def scConfirm (s : State) (n : Nat) : State :=
  let s := if s.chop.scWin.any (fun w => decide (w.2 < s.tick)) then scClose s else s
  match s.chop.scWin with
  | none => scOpen (legLatch s n (fun l => { l with lSc := true })) n (s.tick + 200)
  | some (m, e) =>
    if m = 4 ∨ m = n then s
    else
      raiseFault (scOpen (dclinkLatch (legLatch s n (fun l => { l with lSc := true }))) 4 e) F.CHOP_DCLINK_SHORT 0

/-- A comparator has been asserted for `held` ticks: confirmed once that reaches the filter (R386 to R388). It works in
every mode except OFF. -/
def execChopScConfirm (leg : Fin 4) (s : State) (held : Nat := 0) : Host.Outcome State Fault Refusal := whenClocked s <|
  let n := leg.val
  let l := legOf s n
  if l.stBusy || l.mode == 0 then ends s
  else
    let s := updLeg s n (fun l => { l with cmp := true, conf := l.conf || decide (l.scFilter ≤ held) })
    ends (if l.scFilter ≤ held then scConfirm s n else s)

/-- The 1 µs of classification ends (R387). `cmp` are the comparators' levels. -/
def execChopScWindowEnd (s : State) (cmp : BitVec 4 := 0) : Host.Outcome State Fault Refusal := whenClocked s <|
  match s.chop.scWin with
  | none => ends (cmpLevels s cmp)
  | some (_, e) => ends (cmpLevels (scClose (advanceTo s e)) cmp)

/-- A gate supply is recognised as NOT OK (R389). -/
def execGateSupplyNotOk (leg : Fin 4) (low : Bool) (s : State) : Host.Outcome State Fault Refusal := whenClocked s <|
  let n := leg.val
  let s := updLeg s n (fun l => if low then { l with gsL := false } else { l with gsH := false })
  ends (if bit (legOf s n).gsCfg (if low then 1 else 0) && !cycleFirst s n then gsAct s n else s)

/-- A gate supply is recognised as OK (R389, R395). -/
def execGateSupplyOk (leg : Fin 4) (low : Bool) (s : State) : Host.Outcome State Fault Refusal := whenClocked s <|
  let n := leg.val
  let s := updLeg s n (fun l => if low then { l with gsL := true } else { l with gsH := true })
  ends (if gsOk (legOf s n) then causeGone s F.CHOP_UVLO n else s)

/-- The causes of a leg's latches that a `FAULT_CLEAR` releases (R391). The fault that set LATCH_SC is F_CHOP_SC where it
was raised, else the F_CHOP_DCLINK_SHORT as which the confirmation was classified (R387, R390; DEDUCED, log entry 25). -/
def chopCleared (s : State) (code inst : Nat) : State :=
  let rel := fun (s : State) (n : Nat) (f : Leg → Leg) =>
    let l := f (legOf s n)
    let done := l.st == .latched && !l.lTrip && !l.lSc && !l.lDc
    let s := updLeg s n (fun _ => { l with release := done })
    if done then putN s P.CHOP_TRIP_RUN n 0 else s
  if code = F.CHOP_TRIP_LATCHED then rel s inst (fun l => { l with lTrip := false })
  else if code = F.CHOP_SC then rel s inst (fun l => { l with lSc := false })
  else if code = F.CHOP_DCLINK_SHORT then
    (List.range 4).foldl (fun s n => if (legOf s n).lDc then rel s n (fun l => { l with
      lDc := false, lSc := l.lSc && (fltFind s F.CHOP_SC n).isSome }) else s) s
  else s

/-! ### Self-test (R388) -/

/-- The row of `CMP_SELFTEST`. -/
def spCmpSelftest : CmdSpec := { cmdSpec 0x62 0 0 true true with target := .below 4, long := true }

/-- `CMP_SELFTEST`'s checks and effect (R388). -/
def cmpSelftestBody (c : Cmd) (s : State) : Res :=
  let n := tgt c
  let l := legOf s n
  Res.check (firstErr [busyErr (opRun? s 0x62 n),
                       errIf (switching l.mode && l.st == .running) St.state 2 (debMask s)])
    (.accepted (updLeg (startOp s 0x62 n c []) n (fun l => { l with stBusy := true })) id)

/-- `CMP_SELFTEST` (R388). -/
def execCmpSelftest (c : Cmd) (s : State) : Host.Outcome State Fault Refusal :=
  ends (runCmd spCmpSelftest none cmpSelftestBody c s)

/-- The self-test ends after four filter lengths with the pass bits of its steps (R388). -/
def execCmpSelftestDone (leg : Fin 4) (steps : BitVec 3) (s : State) : Host.Outcome State Fault Refusal := whenClocked s <|
  let n := leg.val
  match opRun? s 0x62 n with
  | none => ends s
  | some o =>
    let s := advanceTo s (o.start + 4 * getN s P.CHOP_SC_FILTER n)
    let pass := steps == 7
    let s := updLeg s n (fun l => { l with stBusy := false, stDone := true, stPass := pass, stSteps := steps.toNat })
    ends (completeOk s o [BitVec.ofNat 32 (steps.toNat + 8 * b2n pass)])

/-! ### Parameter writes of the block -/

/-- `CHOP_MODE`'s checks beyond its reserved bits (R380). -/
def chopModeErr (s : State) (n v : Nat) : Option CmdErr :=
  let m := field v 2 0
  let l := legOf s n
  let old := getN s P.CHOP_MODE n
  firstErr
    [ errIf (decide (4 < m)) St.range P.CHOP_MODE v,
      if m = 4 then deblockedErr s else none,
      errIf (switching m && l.stDone && !l.stPass) St.state 3 (diagKind 7 n),
      errIf (field v 5 4 != field old 5 4 && l.st != .off) St.conflict 3 n,
      busyErr (opRun? s 0x62 n) ]

/-- `CHOP_MODE` after its write (R378, R379, R390): mode 0 acts in the next tick, from OFF the first cycle is scheduled.
The leg's balls are driven from its first write on (R503). -/
def chopModeSet (s : State) (n : Nat) : State :=
  let v := getN s P.CHOP_MODE n
  let s := updLeg s n (fun l => { l with driven := true })
  if field v 2 0 = 0 then updLeg s n (fun l => { l with dueAt := some (s.tick + 1, true), waitMark := false })
  else
    updLeg s n (fun l =>
      let l := { l with dueAt := l.dueAt.filter (fun d => !d.2) }
      if l.st = .off then { l with waitMark := bit v 3, startAt := s.tick + 1, running := false } else l)

/-- `CHOP_FORCE` after its write: it acts in the next tick (R396). -/
def chopForceSet (s : State) (n : Nat) : State :=
  updLeg s n (fun l => { l with dueAt := if l.dueAt.any (fun d => d.2) then l.dueAt else some (s.tick + 1, false) })

/-- `CHOP_STATUS` (R397). -/
def chopStatus (s : State) (n : Nat) : Nat :=
  let l := legOf s n
  let b := legBalls s n
  l.st.code + 4 * b2n l.lTrip + 8 * b2n l.lSc + 16 * b2n l.lDc + 32 * b2n l.tripped + 64 * b2n l.hystOn
    + 128 * b2n l.clamped + 256 * b2n b.1 + 512 * b2n b.2 + 1024 * b2n l.gsH + 2048 * b2n l.gsL + 4096 * b2n l.cmp
    + 8192 * b2n l.tripIn + 16384 * b2n l.stDone + 32768 * b2n l.stPass + 65536 * l.stSteps

/-- Legs that await a mark begin their first cycle at it (R379). -/
def chopMark (s : State) : State :=
  (List.range 4).foldl (fun s n =>
    if chopStarting s n && (legOf s n).waitMark then
      updLeg s n (fun l => { l with waitMark := false, startAt := s.tick })
    else s) s

end Sys2Proof.Machine
end

