-- ==== Sys2Proof/Machine/Ident.lean ====
section
/-! DEFINITION. Fields of an identity record held as 64 words (R288) and the conversion of a capacitor voltage (R289). -/

namespace Sys2Proof.Machine

/-- A word of a record. -/
def idWord (ws : List Word) (i : Nat) : Nat := (ws.getD i 0).toNat

/-- KIND. -/
def idKind (ws : List Word) : Nat := field (idWord ws 0) 15 8

/-- GEN. -/
def idGen (ws : List Word) : Nat := field (idWord ws 0) 23 16

/-- Full-bridge power stage: STAGE is 1. -/
def idFb (ws : List Word) : Bool := field (idWord ws 0) 31 24 == 1

/-- V_RATED in volts. -/
def idRated (ws : List Word) : Rat := (idWord ws 1 : Rat) / 1000

/-- Capacitance in farads. -/
def idCap (ws : List Word) : Rat := (idWord ws 3 : Rat) / 1000000

/-- The short serial number, two words. -/
def idSerial (ws : List Word) : Nat × Nat := (idWord ws 6, idWord ws 7 % 65536)

/-- The identity check byte: byte 0xFC (R288). -/
def idCheck (ws : List Word) : Nat := idWord ws 63 % 256

/-- Volts from a VCAP code (R289). -/
def idVolts (ws : List Word) (vcap : Nat) : Rat :=
  let gain : Int := field (idWord ws 4) 15 0
  let code : Int := ((vcap : Int) * gain).fdiv 16384 + signedOf 16 (field (idWord ws 4) 31 16)
  ((code * (idWord ws 2 : Int) : Int) : Rat) / 65536000

end Sys2Proof.Machine
end

