-- ==== Sys2Proof/Machine/Groups.lean ====
section
/-! DEFINITION. Commit groups (R55 to R59): members, staged and armed state, application at a boundary. -/

namespace Sys2Proof.Machine

/-- Number of targets of a group code, 0 for an unknown code (R55). -/
def groupTargets : Nat → Nat
  | 1 => 1
  | 2 => 66
  | 3 => 4
  | 4 => 2
  | 5 => 16
  | 6 => 1
  | _ => 0

/-- The boundary a group's commit reports (R62). -/
def groupBoundary : Nat → Nat
  | 1 => 1
  | 2 => 3
  | 3 => 2
  | 6 => 1
  | _ => 0

/-- The parameter members of a group, with their targets (R55). -/
def groupMembers (code t : Nat) : List (Nat × Nat) :=
  match code with
  | 1 => [(P.PER_PERIOD, 0), (P.PER_EPOCH, 0)]
  | 2 => [P.LANE_GEN_MAX, P.LANE_TX_SWING, P.LANE_RX_EQ, P.LANE_POLARITY].map (fun id => (id, t))
  | 3 => [P.CHOP_PERIOD, P.CHOP_DUTY, P.CHOP_DEADTIME].map (fun id => (id, t))
  | 4 => [P.ENC_CPR, P.ENC_INDEX_EXPECT].map (fun id => (id, t))
  | 5 => (paramsLoop.filter (fun d => d.access == .rw)).map (fun d => (d.id, t))
  | 6 => (P.BUD_EPOCH_TOTAL, 0)
          :: (List.range 6).flatMap (fun a => [(P.BUD_ARM_FLOOR, a), (P.BUD_ARM_CEIL, a)])
  | _ => []

/-- The target of the group a parameter's instance belongs to (R55). -/
def groupTarget (code t : Nat) : Nat := if code = 1 || code = 6 then 0 else t

/-- A staged word. -/
def stagedW (s : State) (id t : Nat) : Option Word := tabGet none s.staged (pkey id t)

/-- The value in force or, where staged, the staged one. -/
def stagedOr (s : State) (id t : Nat) : Word := (stagedW s id t).getD (getP s id t)

/-- Stage a word (R56). -/
def stageW (s : State) (id t : Nat) (w : Word) : State := { s with staged := tabSet none s.staged (pkey id t) (some w) }

/-- A staged gain-table word (R190). -/
def stagedGain (s : State) (n i : Nat) : Option Word := tabGet none s.gain (n * 32 + i)

/-- Whether some word of a slot's gain table is staged. -/
def gainStaged (s : State) (n : Nat) : Bool := (List.range 18).any (fun i => (stagedGain s n i).isSome)

/-- Whether a group holds staged values. -/
def groupStaged (s : State) (code t : Nat) : Bool :=
  (groupMembers code t).any (fun m => (stagedW s m.1 m.2).isSome) || (code == 5 && gainStaged s t)

/-- Whether a group's staged values contain a stop-only one (R59, R60). -/
def groupStop (s : State) (code t : Nat) : Bool :=
  (groupMembers code t).any (fun m =>
    (stagedW s m.1 m.2).isSome && match paramDef? m.1 with
      | some d => d.stop
      | none => false)

/-- Arm or disarm a group. -/
def setArmed (s : State) (code t : Nat) (b : Bool) : State :=
  { s with armedG := tabSet false s.armedG (code * 128 + t) b }

/-- Forget what is staged in a group, which is disarmed (R58). -/
def dropGroup (s : State) (code t : Nat) : State :=
  let s := { s with staged := (groupMembers code t).foldl (fun g m => tabSet none g (pkey m.1 m.2) none) s.staged }
  let s := if code = 5 then { s with gain := tabFilter (fun k _ => k / 32 != t) s.gain } else s
  setArmed s code t false

/-- Apply the staged parameter words of a group in one tick; it returns to unstaged (R57). -/
def applyGroup (s : State) (code t : Nat) : State :=
  let s' := (groupMembers code t).foldl (fun x m =>
    match stagedW s m.1 m.2 with
    | some w => putP x m.1 m.2 w
    | none => x) s
  tallyStale (dropGroup s' code t)

/-- The gain table that a boundary would activate: staged words over the committed ones. -/
def gainNext (s : State) (n : Nat) : List Word :=
  (List.range 18).map (fun i => (stagedGain s n i).getD (gainWord s n i))

/-- Every group, as code and target. -/
def allGroups : List (Nat × Nat) :=
  (List.range 7).flatMap (fun c => (List.range (groupTargets c)).map (fun t => (c, t)))

/-- The bits of `HOST_CG_STAGED_MISC` and `HOST_CG_ARMED_MISC` (R69). -/
def groupBits (p : Nat → Nat → Bool) : Nat :=
  b2n (p 1 0) + sumNat ((List.range 4).map (fun t => 2 ^ (1 + t) * b2n (p 3 t)))
    + sumNat ((List.range 2).map (fun t => 2 ^ (5 + t) * b2n (p 4 t)))
    + sumNat ((List.range 16).map (fun t => 2 ^ (7 + t) * b2n (p 5 t))) + 2 ^ 23 * b2n (p 6 0)
    + 2 ^ 24 * b2n (p 2 64) + 2 ^ 25 * b2n (p 2 65)

/-- The bits of `HOST_CG_STAGED_LANE` and `HOST_CG_ARMED_LANE` for 32 lanes (R69). -/
def groupLaneBits (p : Nat → Nat → Bool) (base : Nat) : Nat :=
  sumNat ((List.range 32).map (fun i => 2 ^ i * b2n (p 2 (base + i))))

end Sys2Proof.Machine
end

