-- ==== Sys2Proof/Machine/TrajCore.lean ====
section
/-! DEFINITION. Jerk-limited profiles of the trajectory generators (R201 to R206) as lists of segments of constant jerk,
in exact rationals but for square roots, which are taken to 2^-40. -/

namespace Sys2Proof.Machine

/-- Position, velocity and acceleration. -/
structure Kin where
  p : Rat
  v : Rat
  a : Rat
  deriving DecidableEq, Repr

/-- The integer square root of a natural number, bit by bit from a power of two down. -/
def isqrtGo : Nat → Nat → Nat → Nat
  | 0, n, r => if (r + 1) * (r + 1) ≤ n then r + 1 else r
  | k + 1, n, r => isqrtGo k n (if (r + 2 ^ (k + 1)) * (r + 2 ^ (k + 1)) ≤ n then r + 2 ^ (k + 1) else r)

/-- Integer square root. -/
def isqrt (n : Nat) : Nat := isqrtGo (n.log2 / 2 + 1) n 0

/-- Square root of a rational to 2^-40; 0 of a negative one. -/
def sqrtRat (x : Rat) : Rat := (isqrt (x * 2 ^ 80).floor.toNat : Rat) / 2 ^ 40

/-- The state after a time under constant jerk. -/
def Kin.after (k : Kin) (j t : Rat) : Kin :=
  { p := k.p + k.v * t + k.a * t * t / 2 + j * t * t * t / 6, v := k.v + k.a * t + j * t * t / 2, a := k.a + j * t }

/-- The state after a list of segments. -/
def Kin.run : Kin → List (Rat × Rat) → Kin
  | k, [] => k
  | k, (j, t) :: l => Kin.run (k.after j t) l

/-- The state at a time into a list of segments; past the end the velocity reached there is kept. -/
def Kin.at_ : Kin → List (Rat × Rat) → Rat → Kin
  | k, [], t => { k with p := k.p + k.v * t }
  | k, (j, d) :: l, t => if t < d then k.after j t else Kin.at_ (k.after j d) l (t - d)

/-- Total duration of a list of segments. -/
def segTime (l : List (Rat × Rat)) : Rat := sumRat (l.map (fun s => s.2))

/-- Absolute value. -/
def absR (x : Rat) : Rat := if x < 0 then -x else x

/-- The fastest change of velocity from (v0, a0) to (v, 0) within the limits: three segments, after a first one that
brings an acceleration above the limit back to it (R201, R205). -/
def velSegs (v0 a0 v aMax jMax : Rat) : List (Rat × Rat) :=
  let above := if aMax < absR a0 then (absR a0 - aMax) / jMax else 0
  let jo := if a0 < 0 then jMax else -jMax
  let v1 := v0 + a0 * above + jo * above * above / 2
  let a1 := a0 + jo * above
  let d : Rat := if v1 + a1 * absR a1 / (2 * jMax) ≤ v then 1 else -1
  let dv := d * (v - v1)
  let a' := d * a1
  let x := jMax * dv + a' * a' / 2
  let peak := if aMax * aMax < x then aMax else max 0 (sqrtRat x)
  let peak := if peak < a' then a' else peak
  let tc := if aMax * aMax < x then (dv - (2 * aMax * aMax - a' * a') / (2 * jMax)) / aMax else 0
  [(jo, above), (d * jMax, (peak - a') / jMax), (0, tc), (-d * jMax, peak / jMax)]

/-- Displacement of a velocity change. -/
def velDisp (v0 a0 v aMax jMax : Rat) : Rat := (Kin.run ⟨0, v0, a0⟩ (velSegs v0 a0 v aMax jMax)).p

/-- Bisection for the largest value of `[lo, hi]` that a monotone test accepts. -/
def bisect (ok : Rat → Bool) : Nat → Rat → Rat → Rat
  | 0, lo, _ => lo
  | n + 1, lo, hi => let m := (lo + hi) / 2
                     if ok m then bisect ok n m hi else bisect ok n lo m

/-- A profile by way of a peak velocity: to it, cruise, and down to the junction speed in the last four segments. -/
def peakSegs (v0 a0 v cruise vj aMax jMax : Rat) : List (Rat × Rat) :=
  velSegs v0 a0 v aMax jMax ++ [(0, cruise)] ++ velSegs v 0 vj aMax jMax

/-- The profile over a distance to the right of where the fastest change to the junction speed ends, in mirrored
coordinates (R201). -/
def fwdSegs (dist v0 a0 vj vMax aMax jMax : Rat) : List (Rat × Rat) :=
  let f := fun (v : Rat) => velDisp v0 a0 v aMax jMax + velDisp v 0 vj aMax jMax
  if f vMax ≤ dist then peakSegs v0 a0 vMax ((dist - f vMax) / vMax) vj aMax jMax
  else
    let vb := v0 + a0 * absR a0 / (2 * jMax)
    let lo := max vj (min (max vb 0) vMax)
    if a0 < 0 && dist < f lo then
      -- the braking acceleration is raised to a value between a0 and 0 first, then braking goes on from there
      let g := fun (a1 : Rat) =>
        let t := (a1 - a0) / jMax
        let k := Kin.after ⟨0, v0, a0⟩ jMax t
        k.p + velDisp k.v k.a vj aMax jMax
      let a1 := bisect (fun a => decide (g a ≤ dist)) 64 a0 0
      let t := (a1 - a0) / jMax
      let k := Kin.after ⟨0, v0, a0⟩ jMax t
      [(jMax, t)] ++ velSegs k.v k.a vj aMax jMax
    else
      let v := bisect (fun v => decide (f v ≤ dist)) 64 (if f lo ≤ dist then lo else 0) vMax
      peakSegs v0 a0 v 0 vj aMax jMax

/-- The hardest braking of a forward motion that is being braked already, until its velocity is 0 (R201). -/
def brakeSegs (v a aMax jMax : Rat) : List (Rat × Rat) :=
  let t1 := absR (a + aMax) / jMax
  let j := if a < -aMax then jMax else -jMax
  let t2 := v / (if -a < aMax then -a else aMax)
  let t := bisect (fun t => decide (0 ≤ (Kin.at_ ⟨0, v, a⟩ [(j, t1), (0, t2)] t).v)) 64 0 (t1 + t2)
  if t ≤ t1 then [(j, t)] else [(j, t1), (0, t - t1)]

/-- How far a motion whose braking must reverse it goes on before it turns, braked least (R201): in mirrored
coordinates, with `v + a |a| / (2 j) < 0 < v`. -/
def turnDisp (v a jMax : Rat) : Rat := (Kin.after ⟨0, v, a⟩ jMax ((-a - sqrtRat (a * a - 2 * jMax * v)) / jMax)).p

/-- The segments of a move from a state to an end with junction speed `vj` in the direction of motion, and whether the
end must be passed first, which stops the generator beyond it and returns (R205, R206). A motion whose braking must
reverse it may pass an end ahead of it in turning. -/
def planMove (k : Kin) (end_ vj vMax aMax jMax : Rat) : List (Rat × Rat) × Bool :=
  let stop := velSegs k.v k.a 0 aMax jMax
  let ks := Kin.run k stop
  if vj = 0 && ks.p = end_ then (stop, false)
  else
    let d : Rat := if 0 < vj then (if end_ < k.p then -1 else 1) else if ks.p < end_ then 1 else -1
    let mir := fun (l : List (Rat × Rat)) => l.map (fun s => (d * s.1, s.2))
    let f : Rat := if k.v < 0 then -1 else 1
    let gap := f * (end_ - k.p)
    let turns := vj = 0 && k.v != 0 && decide (f * (k.v + k.a * absR k.a / (2 * jMax)) < 0) && decide (0 < gap)
    let brake := brakeSegs (f * k.v) (f * k.a) aMax jMax
    if vj = 0 && (end_ - k.p) * (end_ - ks.p) ≤ 0 && (k.v != 0 || k.a != 0)
        || turns && decide (gap < (Kin.run ⟨0, f * k.v, f * k.a⟩ brake).p) then
      (stop ++ mir (fwdSegs (d * (end_ - ks.p)) 0 0 0 vMax aMax jMax), true)
    else if turns && decide (gap < turnDisp (f * k.v) (f * k.a) jMax) then
      let b := brake.map (fun s => (f * s.1, s.2))
      let kb := Kin.run k b
      (b ++ mir (fwdSegs (d * (end_ - kb.p)) (d * kb.v) (d * kb.a) 0 vMax aMax jMax), false)
    else (mir (fwdSegs (d * (end_ - k.p)) (d * k.v) (d * k.a) vj vMax aMax jMax), false)

/-- The largest junction speed of R204 for moves A and B from A's present state. -/
def junction (k : Kin) (endA vA aA jA endB vB aB jB : Rat) : Rat :=
  let d : Rat := if endA < k.p then -1 else 1
  let room := absR (endB - endA)
  let ok := fun (v : Rat) =>
    decide (velDisp v 0 0 aB jB ≤ room) && decide (velDisp (d * k.v) (d * k.a) v aA jA ≤ d * (endA - k.p))
  let hi := min vA vB
  if ok hi then hi else bisect ok 64 0 hi

/-- Whether the deceleration towards the end, the last four segments, has begun at a time into the plan (R204). -/
def decelBegun (l : List (Rat × Rat)) (t : Rat) : Bool :=
  decide (segTime (l.take (l.length - 4)) < t)

end Sys2Proof.Machine
end

