-- ==== Sys2Proof/Machine/TrajOps.lean ====
section
/-! DEFINITION. The trajectory generators over time (R201 to R208). -/

namespace Sys2Proof.Machine

/-- Seconds in a number of ticks (R9). -/
def tickSec (t : Rat) : Rat := t / 200000000

/-- A generator's state at a time in ticks. -/
def genAt (g : TrajGen) (t : Rat) : Kin := Kin.at_ ⟨g.p0, g.v0, g.a0⟩ g.plan (tickSec (t - g.t0))

/-- The time in ticks at which a generator's plan ends. -/
def genEnd (g : TrajGen) : Rat := g.t0 + segTime g.plan * 200000000

/-- A generator that goes on from a state at a time with a plan. -/
def genFrom (g : TrajGen) (k : Kin) (t : Rat) (plan : List (Rat × Rat)) : TrajGen :=
  { g with p0 := k.p, v0 := k.v, a0 := k.a, t0 := t, plan := plan }

/-- A generator is idle: no move executes and the queue is empty (R203). -/
def genIdle (g : TrajGen) : Bool := g.cur.isNone && g.queue.isEmpty

/-- Plan a move from a state at a time, to stop at its end (R201, R205). -/
def genPlan (g : TrajGen) (k : Kin) (t : Rat) (m : TrajMove) : TrajGen :=
  let r := planMove k m.end_ 0 m.vMax m.aMax m.jMax
  { genFrom g k t r.1 with
    leg := if r.2 then segTime (r.1.take 4) else 0, cur := some m, pend := .none, blending := false, decided := false, overshoot := r.2, stopping := false }

/-- Start the next queued move, or be at rest (R203). -/
def genNext (g : TrajGen) (k : Kin) (t : Rat) : TrajGen :=
  match g.queue with
  | m :: l => genPlan { g with queue := l } k t m
  | [] => { genFrom g k t [] with
            cur := none, pend := .none, blending := false, decided := false, stopping := false }

/-- The end of the executing move: its end value, at rest or with the junction speed; a stop ends where it ends. -/
def genArrive (g : TrajGen) : Kin :=
  let k := Kin.run ⟨g.p0, g.v0, g.a0⟩ g.plan
  { p := if g.stopping then (roundHalfAway k.p : Rat) else match g.cur with
      | some m => (m.end_ : Rat)
      | none => k.p
    v := if g.blending then k.v else 0
    a := 0 }

/-- Complete the moves that end by a time, counting them (R203). A move that is to be planned anew at the next mark does
not complete before (R205, R206). -/
def genSync : Nat → TrajGen → Rat → TrajGen × Nat
  | 0, g, _ => (g, 0)
  | n + 1, g, t =>
    if g.cur.isSome && g.pend == .none && decide (genEnd g ≤ t) then
      let r := genSync n (genNext { g with pend := .none } (genArrive g) (genEnd g)) t
      (r.1, r.2 + 1)
    else (g, 0)

/-- Bring a generator to the present tick. -/
def syncGen (s : State) (n : Nat) : State :=
  let r := genSync 10 (genOf s n) s.tick
  addP (updGen s n (fun _ => r.1)) P.TRAJ_DONE n r.2

/-- The blending decision at a mark (R204). A move that must pass its end has no direction towards it before its return
leg, and is not blended before (DEDUCED, log entry 47). -/
def genBlend (g : TrajGen) (t : Rat) : TrajGen :=
  match g.cur, g.queue with
  | some a, b :: _ =>
    if g.decided || g.stopping then g
    else
      let g := { g with decided := true }
      let k := genAt g t
      let onward := if (a.end_ : Rat) < k.p then decide (b.end_ < a.end_) else decide (a.end_ < b.end_)
      if !onward || decide (tickSec (t - g.t0) < g.leg) || decelBegun g.plan (tickSec (t - g.t0)) then g
      else
        let vj := junction k a.end_ a.vMax a.aMax a.jMax b.end_ b.vMax b.aMax b.jMax
        if vj ≤ 0 then g
        else { genFrom g k t (planMove k a.end_ vj a.vMax a.aMax a.jMax).1 with leg := 0, blending := true }
  | _, _ => g

/-- A generator at the time of a mark (R201): completed moves, a pending plan, the start of a queued move, blending. -/
def genMark (g : TrajGen) (t : Rat) : TrajGen × Nat :=
  let r := genSync 10 g t
  let g := r.1
  let g := match g.pend, g.cur with
    | .none, none => if g.queue.isEmpty then g else genNext g (genAt g t) t
    | .none, some _ => g
    | .unblend, some m =>
      let r := genPlan g (genAt g t) t m
      { r with overshoot := g.overshoot || r.overshoot }
    | _, some m => genPlan g (genAt g t) t m
    | _, none => { g with pend := .none }
  (genBlend g t, r.2)

/-- Write a signed word; outside 32 bits the manual states no reading and a free one is held (log entry 4). -/
def putFit (s : State) (id t : Nat) (x : Int) : State :=
  if -2147483648 ≤ x ∧ x ≤ 2147483647 then putI s id t x
  else putP { s with freeCtr := s.freeCtr + 1 } id t (Config.freeWord s.freeCtr)

/-- An integer within 1 of a rational, the choice being free (R201, log entry 3). -/
def nearInt (x : Rat) (e : Int) : Int := clampInt (roundHalfAway x + e) ((x - 1).ceil) ((x + 1).floor)

/-- The outputs of a generator at a mark: a generator at rest reads exactly. -/
def genReport (s : State) (n : Nat) : State :=
  let g := genOf s n
  let k := genAt g s.tick
  if g.cur.isNone then
    putI (putI (putFit s P.TRAJ_POS n (roundHalfAway k.p)) P.TRAJ_VEL n 0) P.TRAJ_ACC n 0
  else
    let e := Config.trajError s.freeCtr
    let f := Config.trajError (s.freeCtr + 1)
    let s := { s with freeCtr := s.freeCtr + 2 }
    putFit (putFit (putFit s P.TRAJ_POS n (nearInt k.p e.1)) P.TRAJ_VEL n (nearInt k.v e.2)) P.TRAJ_ACC n
      (nearInt k.a f.1)

/-- Every generator advances to the mark (R201). -/
def trajAdvance (s : State) : State :=
  (List.range 4).foldl (fun s n =>
    let r := genMark (genOf s n) s.tick
    genReport (addP (updGen s n (fun _ => r.1)) P.TRAJ_DONE n r.2) n) s

/-- Replace the plan of a generator by a move (R205). -/
def genReplace (s : State) (n : Nat) (m : TrajMove) : State :=
  let s := syncGen s n
  updGen s n (fun g =>
    if g.cur.isSome then { g with cur := some m, queue := [], pend := .replace, blending := false, stopping := false }
    else { g with queue := [m] })

/-- Stop a generator within the limits of its executing move, its queue emptied (R206). -/
def genStop (s : State) (n : Nat) : State :=
  let s := syncGen s n
  let t : Rat := s.tick
  updGen s n (fun g =>
    match g.cur with
    | none => { g with queue := [] }
    | some m =>
      if g.stopping then { g with queue := [] }
      else
        let k := genAt g t
        { genFrom g k t (velSegs k.v k.a 0 m.aMax m.jMax) with
          queue := [], pend := .none, blending := false, stopping := true })

/-- Empty the queue; a blended move is re-planned at the next mark to stop at its end (R206). -/
def genFlush (s : State) (n : Nat) : State :=
  let s := syncGen s n
  updGen s n (fun g =>
    { g with queue := [], pend := if g.blending && g.pend = .none then .unblend else g.pend, decided := false })

/-- `TRAJ_STATUS` (R208). -/
def trajStatus (s : State) (n : Nat) : Nat :=
  let g := genOf s n
  b2n g.cur.isSome + 2 * b2n g.blending + 4 * b2n g.overshoot + 8 * b2n g.stopping + 16 * g.queue.length

/-- The homing that claims a generator (R367): the conflict with it. -/
def genClaimed (s : State) (n : Nat) : Option CmdErr :=
  match (genOf s n).homing with
  | some axis => busyErr (opRun? s 0x60 axis)
  | none => none

/-- `TRAJ_PRESET`'s checks (R207, R367). -/
def trajPresetErr (s : State) (n : Nat) : Option CmdErr :=
  firstErr [genClaimed s n, errIf (!genIdle (genSync 10 (genOf s n) s.tick).1) St.conflict 3 n]

/-- `TRAJ_PRESET`'s effect (R207): only in RUN is there a generator to preset (R481). -/
def trajPresetSet (s : State) (n : Nat) (x : Int) : State :=
  if s.pwr.state = .run then
    let s := syncGen s n
    let s := putI (putI (putI s P.TRAJ_POS n x) P.TRAJ_VEL n 0) P.TRAJ_ACC n 0
    updGen s n (fun g => genFrom g ⟨x, 0, 0⟩ s.tick [])
  else s

/-! ### Commands -/

/-- The row of `TRAJ_QUEUE`. -/
def spTrajQueue : CmdSpec := { cmdSpec 0x41 5 5 false true with target := .below 4, reserved := [(0, 0xFFFFFFFE)] }

/-- `TRAJ_QUEUE`'s checks and effect (R202, R205, R452). -/
def trajQueueBody (c : Cmd) (s : State) : Res :=
  let n := tgt c
  let bad := fun (i : Nat) => errIf (pw c i == 0 || decide (2147483647 < pw c i)) St.range (0x8000 + i) (pw c i)
  let m : TrajMove := ⟨signedOf 32 (pw c 1), pw c 2, pw c 3, pw c 4⟩
  let g := genOf (syncGen s n) n
  let repl := bit (pw c 0) 0
  Res.check (firstErr [standbyErr s, bad 2, bad 3, bad 4, genClaimed s n,
                       errIf (!repl && decide (8 ≤ g.queue.length)) St.resource 2 8])
    (.done (if repl then genReplace s n m
            else updGen (syncGen s n) n (fun g => { g with queue := g.queue ++ [m] })))

/-- `TRAJ_QUEUE` (R202). -/
def execTrajQueue (c : Cmd) (s : State) : Host.Outcome State Fault Refusal :=
  ends (runCmd spTrajQueue none trajQueueBody c s)

/-- The row of `TRAJ_FLUSH`. -/
def spTrajFlush : CmdSpec := { cmdSpec 0x42 1 1 false true with target := .below 4, reserved := [(0, 0xFFFFFFFE)] }

/-- `TRAJ_FLUSH`'s checks and effect (R206, R452). -/
def trajFlushBody (c : Cmd) (s : State) : Res :=
  let n := tgt c
  Res.check (firstErr [standbyErr s, genClaimed s n]) (.done (if bit (pw c 0) 0 then genStop s n else genFlush s n))

/-- `TRAJ_FLUSH` (R206). -/
def execTrajFlush (c : Cmd) (s : State) : Host.Outcome State Fault Refusal :=
  ends (runCmd spTrajFlush none trajFlushBody c s)

end Sys2Proof.Machine
end

