-- ==== Sys2Proof/Machine/Encoder.lean ====
section
/-! DEFINITION. Machine feedback: counting, index, latch, limits and homing (R359 to R372). -/

namespace Sys2Proof.Machine

/-! ### Bits and counts -/

/-- A bit of `ENC_MODE` (R372). -/
def encMode (s : State) (n b : Nat) : Bool := bit (getN s P.ENC_MODE n) b

/-- Whether an axis is enabled. -/
def encOn (s : State) (n : Nat) : Bool := encMode s n 0

/-- A stored bit of `ENC_STATUS` (REFERENCED, UNCERTAIN, LIMP_TRIP, LIMN_TRIP). -/
def encFlag (s : State) (n b : Nat) : Bool := bit (getN s P.ENC_STATUS n) b

/-- Set or clear a stored bit of `ENC_STATUS`. -/
def setEncFlag (s : State) (n b : Nat) (x : Bool) : State :=
  if encFlag s n b = x then s else putN s P.ENC_STATUS n (getN s P.ENC_STATUS n ^^^ 2 ^ b)

/-- The raw count r. -/
def encR (s : State) (n : Nat) : Int := getI s P.ENC_RAW n

/-- The reported position p. -/
def encP (s : State) (n : Nat) : Int := getI s P.ENC_POS n

/-- r and p before any correction or shift of the present tick (R365). -/
def encBefore (s : State) (n : Nat) : Int × Int :=
  match (encOf s n).before with
  | some (t, q) => if t = s.tick then q else (encR s n, encP s n)
  | none => (encR s n, encP s n)

/-- Shift r and p by the same amount. -/
def encShift (s : State) (n : Nat) (d : Int) : State :=
  let q := encBefore s n
  let s := updEnc s n (fun x => { x with before := some (s.tick, q) })
  putFit (putFit s P.ENC_RAW n (encR s n + d)) P.ENC_POS n (encP s n + d)

/-- `ENC_STATUS` (R372). -/
def encStatus (s : State) (n : Nat) : Nat :=
  let x := encOf s n
  getN s P.ENC_STATUS n % 16 + 16 * b2n x.home + 32 * b2n x.z + 64 * b2n x.pendRev

/-- `ENC_HOME_STATE` (R372). -/
def encHomeState (s : State) (n : Nat) : Nat := (encOf s n).hState.code + 4 * b2n (encOf s n).hRev

/-! ### Latch (R365) -/

/-- An enabled event of an armed latch, by its bit in `ENC_LATCH_CFG`; `back` is how many ticks ago its raw edge was
first sampled. A second event in the tick of the capture joins its mask. -/
def encLatch (s : State) (n ev back : Nat) : State :=
  let cfg := getN s P.ENC_LATCH_CFG n
  if !bit cfg ev then s
  else if bit cfg 0 then
    let t := devBack s back
    let s := putI s P.ENC_LATCH_POS n (encBefore s n).2
    let s := put64 s P.ENC_LATCH_TIME n (BitVec.ofNat 32 t.2) (BitVec.ofNat 32 t.1)
    let s := putN s P.ENC_LATCH_SRC n (2 ^ ev)
    let s := putN s P.ENC_LATCH_CFG n (cfg - 1)
    updEnc s n (fun x => { x with latchAt := some s.tick })
  else if (encOf s n).latchAt = some s.tick then orP s P.ENC_LATCH_SRC n (2 ^ ev)
  else s

/-- Delay of the filtered inputs in ticks (R359). -/
def encDelay (s : State) (n : Nat) : Nat := getN s P.ENC_FILTER n

/-- Delay of the debounced limits in ticks (R359). -/
def limDelay (s : State) (n : Nat) : Nat := 20000 * getN s P.ENC_LIM_DEBOUNCE n

/-! ### Homing (R367 to R370) -/

/-- Whether a homing of the axis runs. -/
def homing (s : State) (n : Nat) : Bool := (encOf s n).hState != .idle

/-- Whether a homing searches. -/
def homeSearching (s : State) (n : Nat) : Bool :=
  (encOf s n).hState == .search || (encOf s n).hState == .indexWait

/-- A search move from the axis position in a direction (R368), with the limits in force at the start (R372). -/
def homeMove (s : State) (n : Nat) (neg : Bool) : State :=
  let span : Int := getN s P.ENC_HOME_SPAN n
  let x := encOf s n
  let m : TrajMove := ⟨encP s n + (if neg then -span else span), x.hVel, x.hAcc, x.hJerk⟩
  genReplace s (encOf s n).hGen m

/-- STOPPING with the reason of the end (R368). -/
def homeStop (s : State) (n : Nat) (e : HomeEnd) : State :=
  updEnc (genStop s (encOf s n).hGen) n (fun x => { x with hState := .stopping, hEnd := e })

/-- The reference (R368): r, p and the generator's p are shifted, REFERENCED is set, the generator stops. -/
def homeRef (s : State) (n : Nat) : State :=
  let d := getI s P.ENC_HOME_POS n - encP s n
  let s := setEncFlag (setEncFlag (encShift s n d) n 0 true) n 1 false
  let g := (encOf s n).hGen
  let s := updGen (syncGen s g) g (fun x => { x with p0 := x.p0 + d })
  homeStop (updEnc s n (fun x => { x with hShift := d })) n .reference

/-- A limit trip during the search (R369). -/
def homeLimit (s : State) (n : Nat) (neg : Bool) : State :=
  let x := encOf s n
  if x.hNeg = neg && !x.hRev && x.hTurn then
    let s := updEnc s n (fun x => { x with hNeg := !neg, hRev := true, hState := .search })
    homeMove s n (!neg)
  else homeStop (raiseFault s F.HOME_LIMIT n) n .aborted

/-- The HOME input becomes active in a homing (R368). -/
def homeEdge (s : State) (n : Nat) : State :=
  if (encOf s n).hState = .search then
    (if (encOf s n).hIndex then updEnc s n (fun x => { x with hState := .indexWait }) else homeRef s n)
  else s

/-- An index in a homing (R368). -/
def homeIndex (s : State) (n : Nat) : State := if (encOf s n).hState = .indexWait then homeRef s n else s

/-- Before a HOME edge or an index acts on a search, what stands is kept for a limit trip of the same tick (R369). -/
def homeNote (s : State) (n : Nat) (home : Bool) : State :=
  if !homeSearching s n && !((encOf s n).hUndo.any (fun u => u.tick == s.tick)) then s
  else
    let s := syncGen s (encOf s n).hGen
    let u := match (encOf s n).hUndo with
      | some u => if u.tick = s.tick then u else fresh s
      | none => fresh s
    updEnc s n (fun x => { x with hUndo := some { u with home := u.home || home, index := u.index || !home } })
where
  /-- The record of the present tick. -/
  fresh (s : State) : HomeUndo :=
    { tick := s.tick, raw := getP s P.ENC_RAW n, pos := getP s P.ENC_POS n, status := getP s P.ENC_STATUS n
      st := (encOf s n).hState, gen := genOf s (encOf s n).hGen, home := false, index := false }

/-- The HOME input becomes active (R368). -/
def homeActive (s : State) (n : Nat) : State := homeEdge (homeNote s n true) n

/-- Take back what HOME and index did to a homing in this tick (R369). -/
def homeBack (s : State) (n : Nat) (u : HomeUndo) : State :=
  let s := putP (putP (putP s P.ENC_RAW n u.raw) P.ENC_POS n u.pos) P.ENC_STATUS n u.status
  let s := updGen s (encOf s n).hGen (fun _ => u.gen)
  updEnc s n (fun x => { x with hState := u.st, hEnd := .none, hShift := 0, hUndo := none })

/-- HOME and index act again, after the limit trip of the same tick (R369). -/
def homeAgain (s : State) (n : Nat) (u : HomeUndo) : State :=
  let s := if u.home then homeEdge s n else s
  if u.index then homeIndex s n else s

/-- A search move that has completed without a reference aborts the homing (R368). -/
def homeSearchDone (s : State) (n : Nat) : State :=
  if homeSearching s n && genIdle (genOf s (encOf s n).hGen) then homeStop s n .noReference else s

/-! ### Limits (R366) -/

/-- Release of a limit latch (R366). -/
def limRelease (s : State) (n : Nat) (neg : Bool) : State :=
  let b := if neg then 3 else 2
  let back : Int := getN s P.ENC_LIM_RELEASE n
  let free := if neg then !(encOf s n).limN && decide (getI s P.ENC_LIM_POS_N n + back ≤ encR s n)
    else !(encOf s n).limP && decide (encR s n ≤ getI s P.ENC_LIM_POS_P n - back)
  if encFlag s n b && free then
    let s := setEncFlag s n b false
    if encFlag s n 2 || encFlag s n 3 then s else causeGone s F.ENC_LIMIT n
  else s

/-- Release of both limit latches after r has moved. -/
def limReleases (s : State) (n : Nat) : State := limRelease (limRelease s n false) n true

/-- A limit trip's effect on the faults and the homing (R366, R369). -/
def limTrip (s : State) (n : Nat) (neg : Bool) : State :=
  if !homing s n then raiseFault s F.ENC_LIMIT n
  else if homeSearching s n then homeLimit s n neg
  else s

/-- A debounced limit input has become active (R366, R369): it stores r before any correction of the tick, and comes
before a HOME edge or an index of the same tick. -/
def limActive (s : State) (n : Nat) (neg : Bool) : State :=
  let s := updEnc s n (fun x => if neg then { x with limN := true } else { x with limP := true })
  let b := if neg then 3 else 2
  if !encOn s n || encFlag s n b then s
  else
    let s := encLatch s n (if neg then 4 else 3) (limDelay s n)
    let s := putI s (if neg then P.ENC_LIM_POS_N else P.ENC_LIM_POS_P) n (encBefore s n).1
    match (encOf s n).hUndo with
    | some u =>
      if u.tick = s.tick then homeAgain (limTrip (setEncFlag (homeBack s n u) n b true) n neg) n u
      else limTrip (setEncFlag s n b true) n neg
    | none => limTrip (setEncFlag s n b true) n neg

/-- A debounced limit input has become inactive (R366). -/
def limInactive (s : State) (n : Nat) (neg : Bool) : State :=
  limRelease (updEnc s n (fun x => if neg then { x with limN := false } else { x with limP := false })) n neg

/-! ### Index (R363) -/

/-- The deviation of R363. -/
def encDev (r expect cpr : Int) : Int :=
  let m := (r - expect).emod cpr
  if m ≤ cpr - 1 - cpr / 2 then m else m - cpr

/-- A member of CG_ENC for an index (R363): in the tick of the next mark an armed group's values already count. -/
def encCheck (s : State) (id n : Nat) : Nat :=
  if s.per.running && s.tick == s.per.nextMark && groupArmed s 4 n then (stagedOr s id n).toNat else getN s id n

/-- An index: check, homing reference (R363, R368). -/
def encIndex (s : State) (n : Nat) : State :=
  let cpr := encCheck s P.ENC_CPR n
  let s := if encFlag s n 0 && cpr != 0 then
      let dev := encDev (encR s n) (encCheck s P.ENC_INDEX_EXPECT n) cpr
      if dev.natAbs ≤ getN s P.ENC_INDEX_TOL n then
        let s := setEncFlag (putI (encShift s n (-dev)) P.ENC_INDEX_CORR n dev) n 1 false
        causeGone s F.ENC_INDEX_MISMATCH n
      else raiseFault s F.ENC_INDEX_MISMATCH n
    else s
  if (encOf s n).hState = .indexWait then homeIndex (homeNote s n false) n else s

/-! ### Counting (R360 to R362) -/

/-- Move r by a counted transition and p with the reversal hysteresis (R362): p holds at the first count after a
reversal, and stays where the reversal is taken back. The edge of a gap is several counts (R361). The edge is kept for
the speed (R364). -/
def encCount (s : State) (n : Nat) (d : Int) : State :=
  let x := encOf s n
  let dir : Int := if d < 0 then -1 else 1
  let same := x.lastDir = 0 || x.lastDir = dir
  let one := d.natAbs == 1
  let s := putFit s P.ENC_RAW n (encR s n + d)
  let s := if same || !one then putFit s P.ENC_POS n (if x.pendRev || !one then encR s n else encP s n + d) else s
  updEnc s n (fun x => { x with
    lastDir := dir, pendRev := !same && !x.pendRev && one, edges := x.edges ++ [(s.tick, encR s n)] })

/-- A window's count exceeds `ENC_ILLEGAL_MAX` (R360), once per window. -/
def illegalWatch (s : State) (n : Nat) : State :=
  if s.per.running && !(encOf s n).illHit && decide (getN s P.ENC_ILLEGAL_MAX n < (encOf s n).illRun) then
    setEncFlag (raiseFault (updEnc s n (fun x => { x with illHit := true })) F.ENC_ILLEGAL n) n 1 true
  else s

/-- An illegal transition (R360). -/
def encIllegal (s : State) (n : Nat) : State :=
  let s := incP s P.ENC_ILLEGAL n
  if !s.per.running then s else illegalWatch (updEnc s n (fun x => { x with illRun := x.illRun + 1 })) n

/-- The quadrature step from one pair of levels to another, for exactly one changed level: +1 when A leads B. -/
def quadStep (a b a' : Bool) : Int := if (a != a') = (a = b) then 1 else -1

/-- A sample of filtered A and B in quadrature mode (R360, R363); true at an index. -/
def encQuad (s : State) (n : Nat) (a b : Bool) : State × Bool :=
  let x := encOf s n
  let s := updEnc s n (fun x => { x with a := a, b := b })
  if x.a = a && x.b = b then (s, false)
  else if x.a ≠ a && x.b ≠ b then (encIllegal s n, false)
  else
    let d := quadStep x.a x.b a
    let s := encCount s n (if encMode s n 2 then -d else d)
    if x.zDue then (updEnc s n (fun x => { x with zDue := false }), true) else (s, false)

/-- A sample of filtered A and B in toothed-wheel mode (R361); true at an index. -/
def encTooth (s : State) (n : Nat) (a b : Bool) : State × Bool :=
  let x := encOf s n
  let s := updEnc s n (fun x => { x with a := a, b := b })
  if x.a || !a then (s, false)
  else
    let int := x.lastEdge.map (fun t => s.tick - t)
    let s := updEnc s n (fun x => { x with lastEdge := some s.tick, prevInt := int })
    let neg := (encMode s n 6 && b) != encMode s n 2
    let sg : Int := if neg then -1 else 1
    let gap := match int, x.prevInt with
      | some i, some j => if encMode s n 3 then decide (3 * i < 2 * j) else decide (3 * j < 2 * i)
      | _, _ => false
    if gap && encMode s n 3 then (s, true)
    else if gap then (encCount s n (sg * ((field (getN s P.ENC_MODE n) 5 4 : Nat) + 1 : Int)), true)
    else (encCount s n sg, false)

/-- Whether a level of HOME is a rise of an enabled axis. -/
def homeRise (s : State) (n : Nat) (home : Bool) : Bool := home && !(encOf s n).home && encOn s n

/-- The latch at HOME (R365). -/
def homeLatch (s : State) (n : Nat) (home : Bool) : State :=
  if homeRise s n home then encLatch s n 2 (encDelay s n) else s

/-- New active levels of Z and HOME: a rise of Z awaits its counted transition, a rise of HOME is the home event. -/
def encLevels (s : State) (n : Nat) (z home : Bool) : State :=
  let rise := homeRise s n home
  let s := updEnc s n (fun x => { x with z := z, home := home, zDue := x.zDue || (z && !x.z && encOn s n && !encMode s n 1) })
  if rise then homeActive s n else s

/-- A sample of an axis: the counts, the latch with p before any correction of the tick (R365), the index, the levels of
Z and HOME. -/
def encSample (s : State) (n : Nat) (a b z home : Bool) : State :=
  let r := if !encOn s n then (updEnc s n (fun x => { x with a := a, b := b }), false)
    else if encMode s n 1 then encTooth s n a b
    else encQuad s n a b
  let s := homeLatch (if r.2 then encLatch r.1 n 1 (encDelay r.1 n) else r.1) n home
  encLevels (if r.2 then encIndex s n else s) n z home

/-! ### Rows -/

/-- A filtered level (R359): a level counts once it has held for the last `n` samples. -/
def filtered (n : Nat) (pol old : Bool) (l : List Bool) : Bool :=
  if decide (n ≤ l.length) && (l.drop (l.length - n)).all (fun x => (x != pol) != old) then !old else old

/-- Filtered levels of A, B, Z or HOME change after these samples of the four inputs, the oldest first (R359 to R363).
The samples are the levels of the balls; `ENC_MODE` gives the polarity of Z and HOME. -/
def execEncTransition (axis : Fin 2) (a b z home : List Bool) (s : State) : Host.Outcome State Fault Refusal :=
  whenClocked s <|
  let n := axis.val
  let x := encOf s n
  let k := encDelay s n
  let z := filtered k (encMode s n 7) x.z z
  let home := filtered k (encMode s n 8) x.home home
  ends (limReleases (encSample s n (filtered k false x.a a) (filtered k false x.b b) z home) n)

/-- The end of a 1 ms window (R360, R371). -/
def execEncIllegalWindowEnd (axis : Fin 2) (s : State) : Host.Outcome State Fault Refusal := whenClocked s <|
  let n := axis.val
  if s.per.running then
    let s := advanceTo s ((encOf s n).illFrom + 200000)
    let s := if (encOf s n).illRun ≤ getN s P.ENC_ILLEGAL_MAX n then causeGone s F.ENC_ILLEGAL n else s
    ends (updEnc s n (fun x => { x with illRun := 0, illHit := false, illFrom := x.illFrom + 200000 }))
  else ends s

/-- A limit input has been active for `held` ticks (R359): debounced once that reaches `ENC_LIM_DEBOUNCE` (R366). -/
def execEncLimitTrip (axis : Fin 2) (neg : Bool) (s : State) (held : Nat := 0) : Host.Outcome State Fault Refusal :=
  whenClocked s <|
  ends (if limDelay s axis.val ≤ held then limReleases (limActive s axis.val neg) axis.val else s)

/-- A limit input has been inactive for `held` ticks (R359, R366). -/
def execEncLimitInactive (axis : Fin 2) (neg : Bool) (s : State) (held : Nat := 0) : Host.Outcome State Fault Refusal :=
  whenClocked s <|
  ends (if limDelay s axis.val ≤ held then limInactive s axis.val neg else s)

/-- The HOME input has been active for `held` samples (R359, R368). -/
def execEncHomeActive (axis : Fin 2) (s : State) (held : Nat := 0) : Host.Outcome State Fault Refusal := whenClocked s <|
  let n := axis.val
  ends (if encDelay s n ≤ held then limReleases (encLevels (homeLatch s n true) n (encOf s n).z true) n else s)

/-- The speed at a mark from the edges of the window, exactly (R364). -/
def encSpeed (s : State) (n : Nat) : Rat :=
  match (encOf s n).edges.filter (fun e => decide (s.tick < e.1 + getN s P.ENC_SPEED_WIN n)) with
  | e :: f :: l =>
    let g := (f :: l).getLast?.getD f
    ((g.2 - e.2 : Int) : Rat) * 200000000 / ((g.1 - e.1 : Nat) : Rat)
  | _ => 0

/-- The axis at a mark (R364): `ENC_SPEED`, whose rounding the manual leaves open. Edges older than the longest window
are dropped. -/
def encMark (s : State) (n : Nat) : State :=
  let s := updEnc s n (fun x => { x with edges := x.edges.filter (fun e => decide (s.tick < e.1 + 20000000)) })
  let v := encSpeed s n
  if v.den = 1 then putFit s P.ENC_SPEED n v.num
  else
    let up := (Config.freeWord s.freeCtr).toNat % 2
    putFit { s with freeCtr := s.freeCtr + 1 } P.ENC_SPEED n (v.floor + (up : Int))

/-- The row of `HOME_START`. -/
def spHomeStart : CmdSpec :=
  { cmdSpec 0x60 1 1 false true with target := .below 2, reserved := [(0, 0xFFFFFFFE)], maxReply := 2, long := true }

/-- `HOME_START`'s checks and effect (R367, R452). -/
def homeStartBody (c : Cmd) (s : State) : Res :=
  let n := tgt c
  let neg := bit (pw c 0) 0
  let cfg := getN s P.ENC_HOME_CFG n
  let g := field cfg 1 0
  let rev := getN s P.ENC_HOME_REVERSE n = 1
  let trip := encFlag s n (if neg then 3 else 2)
  let vel := getN s P.ENC_HOME_VEL n
  let acc := getN s P.ENC_HOME_ACC n
  let jerk := getN s P.ENC_HOME_JERK n
  Res.check (firstErr
    [ standbyErr s, busyErr (opRun? s 0x60 n),
      (errIf (!encOn s n) St.state 3 (diagKind 7 n)),
      (errIf (trip && !rev) St.state 3 (diagKind 7 n)),
      errIf (!genIdle (genSync 10 (genOf s g) s.tick).1) St.conflict 3 g,
      genClaimed s g ])
    (.accepted (startOp s 0x60 n c []) (fun s =>
      let s := causeGone (syncGen s g) F.HOME_LIMIT n
      let s := updGen s g (fun x => { genFrom x ⟨encP s n, 0, 0⟩ s.tick [] with homing := some n })
      let d := if trip then !neg else neg
      let s := updEnc s n (fun x => { x with
        hState := .search, hNeg := d, hRev := trip, hGen := g, hIndex := bit cfg 2, hStart := s.tick, hEnd := .none,
        hShift := 0, hTurn := rev, hVel := vel, hAcc := acc, hJerk := jerk })
      homeMove s n d))

/-- `HOME_START` (R367). -/
def execHomeStart (c : Cmd) (s : State) : Host.Outcome State Fault Refusal :=
  ends (runCmd spHomeStart none homeStartBody c s)

/-- The row of `HOME_ABORT`. -/
def spHomeAbort : CmdSpec := { cmdSpec 0x61 0 0 false true with target := .below 2 }

/-- `HOME_ABORT`'s check and effect (R370). -/
def homeAbortBody (c : Cmd) (s : State) : Res :=
  let n := tgt c
  Res.check (errIf (!homing s n) St.state 8 n) (.done (if homeSearching s n then homeStop s n .aborted else s))

/-- `HOME_ABORT` (R370). -/
def execHomeAbort (c : Cmd) (s : State) : Host.Outcome State Fault Refusal :=
  ends (runCmd spHomeAbort none homeAbortBody c s)

/-- The completion of a homing whose generator has come to rest (R370); UNCERTAIN clears (R360). -/
def homeFinish (s : State) (n : Nat) : State :=
  let x := encOf s n
  let s := setEncFlag (updGen s x.hGen (fun g => { g with homing := none })) n 1 false
  let s := updEnc s n (fun x => { x with hState := .idle })
  match opRun? s 0x60 n with
  | none => s
  | some o =>
    match x.hEnd with
    | .reference => completeOk s o [BitVec.ofInt 32 x.hShift, BitVec.ofInt 32 (encP s n)]
    | .noReference => completeErr s o ⟨St.timeout, 1, elapsedUs s o⟩
    | _ => completeErr s o ⟨St.state, 9, 0⟩

/-- The generator of a homing in STOPPING reaches v = 0 (R370). -/
def execHomingDone (axis : Fin 2) (s : State) : Host.Outcome State Fault Refusal := whenClocked s <|
  let n := axis.val
  if (encOf s n).hState = .stopping then
    let g := genOf s (encOf s n).hGen
    let s := if g.stopping then advanceTo s (genEnd g).ceil.toNat else s
    let s := syncGen s (encOf s n).hGen
    ends (if (genOf s (encOf s n).hGen).cur.isNone then homeFinish s n else s)
  else ends s

/-! ### Parameter writes of the block -/

/-- `ENC_PRESET` (R372): r and p are set, REFERENCED is set, UNCERTAIN cleared. -/
def encPresetSet (s : State) (n : Nat) (x : Int) : State :=
  let s := putI (putI s P.ENC_RAW n x) P.ENC_POS n x
  let s := updEnc s n (fun e => { e with pendRev := false })
  limReleases (setEncFlag (setEncFlag s n 0 true) n 1 false) n

/-- A write of `ENC_MODE`: a changed polarity changes the active levels (R359). -/
def encModeSet (s : State) (n old : Nat) : State :=
  let ch := old ^^^ getN s P.ENC_MODE n
  let x := encOf s n
  let home := x.home != bit ch 8
  let s := encLevels (homeLatch s n home) n (x.z != bit ch 7) home
  let lim := fun (s : State) (b : Nat) (neg act : Bool) =>
    if !bit ch b then s else if act then limInactive s n neg else limActive s n neg
  lim (lim s 9 false x.limP) 10 true x.limN

end Sys2Proof.Machine
end

