-- ==== Sys2Proof/Machine/LoopOps.lean ====
section
/-! DEFINITION. The loop engine (R179 to R200): sources, the control law, modes and supervision, arm references. -/

namespace Sys2Proof.Machine

/-! ### Sources (R183 to R185) -/

/-- The 16-bit pattern in a latest-value register (R183). -/
def latestRaw (s : State) (tag : Nat) : Nat := getN s P.ADC_LATEST tag % 65536

/-- The value a source code delivers at the present mark (R185). -/
def srcVal (s : State) (code : Nat) : Int :=
  let i := field code 7 0
  let kind := field code 11 8
  let v : Int := match kind with
    | 1 => signedOf 16 (latestRaw s i)
    | 2 => (slotOf s i).out
    | 3 => sat16 (asr (getI s P.TRAJ_POS i) (getN s P.TRAJ_SHIFT i))
    | 4 => sat16 ((getI s P.TRAJ_VEL i * 32768).fdiv (getN s P.TRAJ_VFS i : Int))
    | 5 => getI s P.TRAJ_HOST_VAL i
    | 6 => getN s P.TRAJ_PULSE_VAL i
    | 7 => sat16 (asr (getI s P.ENC_POS i) (getN s P.ENC_POS_SHIFT i))
    | 8 => sat16 ((encSpeed s i * 32768 / (getN s P.ENC_SPEED_FS i : Rat)).floor)
    | 9 => getI s P.ARM_I_LAST i
    | _ => 0
  srcConvert (bit code 12 && kind != 2 && kind != 3 && kind != 4) (bit code 13) (bitsOf 16 v)

/-- Whether a source code is well formed: kind, index and reserved bits (R184, R185). -/
def srcOk (code : Nat) : Bool :=
  let i := field code 7 0
  decide (code < 16384) && match field code 11 8 with
    | 0 => i == 0
    | 1 => decide (i < 24) || (decide (32 ≤ i) && decide (i < 48))
    | 2 => decide (i < 16)
    | 3 => decide (i < 4)
    | 4 => decide (i < 4)
    | 5 => decide (i < 8)
    | 6 => decide (i < 2)
    | 7 => decide (i < 2)
    | 8 => decide (i < 2)
    | 9 => decide (i < 6)
    | _ => false

/-- Whether a slot is skipped: its feedback source is none (R181). -/
def slotSkipped (s : State) (n : Nat) : Bool := field (getN s P.LOOP_PATCH_FB n) 11 8 == 0

/-! ### Modes (R194 to R196) -/

/-- The entry actions of a mode (R188, R195, R197). -/
def modeEnter (s : State) (n : Nat) (m : LoopMode) : State :=
  let preset : Int := getI s P.LOOP_I_PRESET n * 32768
  updSlot s n (fun x => { x with
    mode := m, pend := none, fresh := true, suspend := true, feRun := 0, plRun := 0
    integ := match m with
      | .start => 0
      | .normal => preset
      | .recovery => preset
      | .test => x.integ })

/-- The mode changes of a mark (R194): a commanded mode first, then the change with the deblock state. `was` tells
whether some arm was deblocked at the mark before. -/
def loopModes (s : State) : State :=
  let deb := anyDeb s
  let was := s.loops.wasDeb
  let s := (List.range 16).foldl (fun s n =>
    match (slotOf s n).pend with
    | some m => if m = .start && deb then modeEnter s n .normal else modeEnter s n m
    | none =>
      match (slotOf s n).mode with
      | .start => if deb then modeEnter s n .normal else s
      | .normal => if was && !deb then modeEnter s n .start else s
      | _ => s) s
  { s with loops := { s.loops with wasDeb := deb } }

/-! ### Commit boundaries (R57, R188, R190, R197) -/

/-- The boundary of CG_LOOP for one slot. -/
def loopBoundary (s : State) (n : Nat) : State :=
  if !groupArmed s 5 n then s
  else
    let ws := gainNext s n
    if gainStaged s n && crcWords (ws.take 17) != ws.getD 17 0 then
      raiseOnce (dropGroup s 5 n) F.TABLE_CRC (0x0200 + n)
    else
      let fbNew := (stagedOr s P.LOOP_PATCH_FB n) != getP s P.LOOP_PATCH_FB n
      let s := if gainStaged s n then putTable s (0x0200 + n) 0 ws else s
      let s := applyGroup s 5 n
      let s := if fbNew then updSlot s n (fun x => { x with fresh := true }) else s
      if slotSkipped s n then
        causeGone (causeGone (updSlot s n (fun x => { x with feRun := 0, plRun := 0 })) F.LOOP_FOLLOWING n)
          F.LOOP_IMPLAUSIBLE n
      else s

/-! ### Control law (R186 to R188) -/

/-- Round a Q30 accumulator to Q15 (R180). -/
def round15 (x : Int) : Int := sat16 (asr (x + 16384) 15)

/-- The interpolated proportional gain for an error (R186, R189). -/
def gainOf (s : State) (n : Nat) (e : Int) : Nat :=
  let ae := e.natAbs
  let i := ae / 1024
  let fr := ae % 1024
  let g : Int := gainPoint s n i
  if fr = 0 then gainPoint s n i
  else (asr (g * 1024 + ((gainPoint s n (i + 1) : Int) - g) * fr) 10).toNat

/-- What one slot's control law yields: proportional gain, derivative state, integrator, output, and whether
integration was withheld. -/
structure LawOut where
  kp    : Nat
  d     : Int
  integ : Int
  out   : Int
  sat   : Bool
  deriving DecidableEq, Repr

/-- The control law of R186 on its inputs. -/
def controlLaw (s : State) (n : Nat) (x : LoopSlot) (y f e : Int) : LawOut :=
  let omin := getI s P.LOOP_OUT_MIN n
  let omax := getI s P.LOOP_OUT_MAX n
  let kp := gainOf s n e
  let yprev := if x.fresh then y else x.yprev
  let d := x.d + asr ((getN s P.LOOP_DFILT n : Int) * (-(y - yprev) - x.d)) 15
  let acc := ((kp : Int) * e) * 8 + ((getN s P.LOOP_KD n : Int) * d) * 8 + f * 32768
  let di := if x.mode = .start then 0 else (getN s P.LOOP_KI n : Int) * e
  let u := acc + (x.integ + di)
  let sat := (decide (omax * 32768 < u) && decide (0 < di)) || (decide (u < omin * 32768) && decide (di < 0))
  let cand := if sat then x.integ else x.integ + di
  let integ := max (min cand (omax * 32768)) (omin * 32768)
  { kp := kp, d := d, integ := integ, out := max (min (round15 (acc + integ)) omax) omin, sat := sat }

/-! ### Supervision (R197, R198) -/

/-- The following-error check. -/
def feCheck (s : State) (n : Nat) (e : Int) : State :=
  let lim := getN s P.LOOP_FE_LIMIT n
  let above := lim != 0 && decide (lim < e.natAbs)
  let s := if above then s else causeGone s F.LOOP_FOLLOWING n
  let x := slotOf s n
  if x.mode ≠ .normal then s
  else
    let run := if above then x.feRun + 1 else 0
    let s := updSlot s n (fun x => { x with feRun := run })
    if above && decide (getN s P.LOOP_FE_TIME n ≤ run) && !causeHeld s F.LOOP_FOLLOWING n then
      raiseFault s F.LOOP_FOLLOWING n
    else s

/-- The plausibility check; nothing is formed in the period after a mode entry. -/
def plausCheck (s : State) (n : Nat) (y : Int) : State :=
  let x := slotOf s n
  let lim := getN s P.LOOP_PLAUS_LIMIT n
  let s := if lim = 0 then causeGone s F.LOOP_IMPLAUSIBLE n else s
  if x.suspend then updSlot s n (fun x => { x with suspend := false })
  else
    let pred := round15 (getI s P.LOOP_MODEL_A n * x.yprev + (getI s P.LOOP_MODEL_B n * x.ulast) * 8)
    let r := sat16 (y - pred)
    let s := putI s P.LOOP_RESID n r
    let above := lim != 0 && decide (lim < r.natAbs)
    let s := if above then s else causeGone s F.LOOP_IMPLAUSIBLE n
    if x.mode = .normal then s
    else
      let run := if above then x.plRun + 1 else 0
      let s := updSlot s n (fun x => { x with plRun := run })
      if above && decide (getN s P.LOOP_PLAUS_COUNT n ≤ run) && !causeHeld s F.LOOP_IMPLAUSIBLE n then
        raiseFault s F.LOOP_IMPLAUSIBLE n
      else s

/-- One slot, one period (R181, R182, R186). -/
def runSlot (s : State) (n : Nat) : State :=
  let muCode := getN s P.LOOP_PATCH_MU n
  let mu := srcVal s muCode
  if slotSkipped s n then
    putI (updSlot s n (fun x => { x with out := 0, yprev := 0, suspend := false, ulast := if muCode = 0 then 0 else mu })) P.LOOP_OUT n 0
  else
    let y := srcVal s (getN s P.LOOP_PATCH_FB n)
    let r := srcVal s (getN s P.LOOP_PATCH_REF n)
    let f := srcVal s (getN s P.LOOP_PATCH_FF n)
    let e := sat16 (r - y)
    let o := controlLaw s n (slotOf s n) y f e
    let s := plausCheck (feCheck s n e) n y
    let s := updSlot s n (fun x => { x with
      d := o.d, integ := o.integ, out := o.out, yprev := y, fresh := false
      ulast := if muCode = 0 then o.out else mu })
    let s := if o.sat then incP s P.LOOP_SAT n else s
    putN (putI (putI s P.LOOP_ERR n e) P.LOOP_OUT n o.out) P.LOOP_KP n o.kp

/-- The slots of a period in order (R181). -/
def runSlots (s : State) : State := (List.range 16).foldl runSlot s

/-! ### Arm references (R191 to R193) -/

/-- The weight of a slot's output in an arm. -/
def armWeight (s : State) (a n : Nat) : Int := getI s (P.LOOP_ARM_W0 + a) n

/-- v_a of an arm (R191). -/
def armRef (s : State) (a : Nat) : Int :=
  round15 (getI s P.ARM_VBIAS a * 32768
    + sumInt ((List.range 16).map (fun n => armWeight s a n * (slotOf s n).out)))

/-- The scale that governs the period: that of the active table, 0 without one (R114, R192). -/
def armScale (s : State) (a : Nat) : Nat :=
  match (armOf s a).active with
  | some b => b.scale
  | none => 0

/-- X0 and the slope of an arm (R192, R193): `hold` where v_a(p − 1) is taken to equal v_a(p). -/
def armPath (sc : Nat) (v vprev : Int) (foh hold : Bool) : Int × Int :=
  (sat32 (asr ((sc : Int) * v) 11 + 0x80000),
   if foh && !hold then sat32 (asr ((sc : Int) * (v - vprev)) 11) else 0)

/-- The reference of an arm for period `p` (R191 to R193). -/
def armCompose (s : State) (p a : Nat) : State :=
  let v := armRef s a
  let x := armOf s a
  let hold := x.vprev.isNone || (x.deblocked && x.firstDeb == p)
  let xd := armPath (armScale s a) v (x.vprev.getD v) (getN s P.ARM_FOH a == 1) hold
  let s := updArm s a (fun x => { x with x0 := xd.1, dx := xd.2, vref := v, vprev := some v })
  putI (putI (putI s P.ARM_VREF a v) P.CAP_X0 a xd.1) P.CAP_DX a xd.2

/-- The references of every arm for period `p`. -/
def armRefs (s : State) (p : Nat) : State := armList.foldl (fun s a => armCompose s p a) s

/-- The half level alone, for a period without a composed reference (R84). -/
def armNoRefs (s : State) : State :=
  armList.foldl (fun s a =>
    let s := updArm s a (fun x => { x with x0 := 0x80000, dx := 0, vprev := none })
    putI (putI s P.CAP_X0 a 0x80000) P.CAP_DX a 0) s

/-! ### Pulse-rate inputs (R200) -/

/-- `TRAJ_PULSE_VAL` from the edges within the window. -/
def pulseVal (edges : List Nat) : Nat :=
  match edges with
  | e :: f :: l =>
    let last := (f :: l).getLast?.getD f
    if last ≤ e then 32767 else min 32767 (3276800 * (l.length + 1) / (last - e))
  | _ => 0

/-- The largest window of R200, for which the edges are kept. -/
def pulseKeep : Nat := 20000000

/-- A pulse input at a mark: `ages` tells, for each new rising edge, how many ticks before the mark it came. -/
def pulseMark (s : State) (i : Nat) (ages : List Nat) : State :=
  let win := getN s P.TRAJ_PULSE_WIN i
  let new := (ages.map (fun a => s.tick - a))
  let l := sortBy (fun (a b : Nat) => decide (a ≤ b)) (tabGet [] s.loops.pulses i ++ new)
  let l := l.filter (fun t => decide (s.tick < t + pulseKeep))
  let s := { s with loops := { s.loops with pulses := tabSet [] s.loops.pulses i l } }
  putN s P.TRAJ_PULSE_VAL i (pulseVal (l.filter (fun t => decide (s.tick < t + win))))

/-! ### Command -/

/-- The row of `LOOP_MODE`. -/
def spLoopMode : CmdSpec := { cmdSpec 0x40 1 1 false true with target := .below 16, reserved := [(0, 0xFFFFFFFC)] }

/-- `LOOP_MODE`'s checks and effect (R194, R196): the change waits for the next mark. -/
def loopModeBody (c : Cmd) (s : State) : Res :=
  let m := LoopMode.ofCode (pw c 0)
  Res.check (errIf ((m == .start || m == .test) && anyDeb s) St.state 2 (debMask s))
    (.done (updSlot s (tgt c) (fun x => { x with pend := some m })))

/-- `LOOP_MODE` (R196). -/
def execLoopMode (c : Cmd) (s : State) : Host.Outcome State Fault Refusal :=
  ends (runCmd spLoopMode none loopModeBody c s)

end Sys2Proof.Machine
end

