-- ==== Sys2Proof/Machine/Planning.lean ====
section
/-! DEFINITION. Planning (R95 to R118, R155 to R159, R521): arm currents, dead reckoning, the pass with its tasks, the
latch of its buffers, and the membership test's charges and verdicts (R300 to R302). -/

namespace Sys2Proof.Machine

/-! ### Arm current (R97, R98) -/

/-- The arm current in the latest-value register, in Q15 (R97). -/
def armQ (s : State) (a : Nat) : Int :=
  let src := getN s P.ARM_I_SRC a
  srcConvert (bit src 8) (bit src 7) (latestRaw s (field src 5 0))

/-- The same in units of A / 32768. -/
def armAmps (s : State) (a : Nat) : Int := armQ s a * getN s P.ARM_I_FS a

/-- Samples of the arm current that are kept: two epochs of 256 periods and the age of the oldest report. -/
def iKeep : Nat := 600

/-- One arm's current at a mark (R97, R98): the sample of the mark before with the length of its period, and the sign
of the period computed now. -/
def armSample (s : State) (per a : Nat) : State :=
  let q := armQ s a
  let h : Int := getN s P.ARM_ISIGN_HYST a
  let fs : Int := getN s P.ARM_I_FS a
  let n := s.per.count
  updArm (putI s P.ARM_I_LAST a q) a (fun x => { x with
    iHist := if n = 0 then x.iHist else (⟨n - 1, q * fs, per⟩ :: x.iHist).take iKeep
    sgn := if h < q then 1 else if q < -h then -1 else x.sgn
    inHyst := decide (-h ≤ q ∧ q ≤ h) })

/-- Every arm's current at a mark. -/
def armSamples (s : State) (per : Nat) : State := armList.foldl (fun s a => armSample s per a) s

/-- The current of a mark (R97). The current of the present mark is what its register holds now (log entry 31). -/
def iAt (s : State) (a k : Nat) : Int :=
  match (armOf s a).iHist.find? (fun x => x.mark == k) with
  | some x => x.q
  | none => if k = s.per.count then armAmps s a else 0

/-- The length of a period in ticks. -/
def perAt (s : State) (a k : Nat) : Nat :=
  match (armOf s a).iHist.find? (fun x => x.mark == k) with
  | some x => x.per
  | none => s.per.per

/-- The mean of i, in amperes, over the marks from `lo` up to, but not including, `hi` (R104); none without a sample. -/
def iMean (s : State) (a lo hi : Nat) : Option Rat :=
  let l := ((armOf s a).iHist.filter (fun x => decide (lo ≤ x.mark ∧ x.mark < hi))).map (fun x => x.q)
  if l.isEmpty then none else some ((sumInt l : Rat) / (l.length : Rat) / 32768)

/-! ### Cell voltage (R102) -/

/-- The running value of a cell at a mark: the last known one, continued by R102. -/
def vAt (s : State) (x : Cell) (m : Nat) : Option Rat :=
  x.v.map (fun v =>
    let dv := sumRat (x.shares.map (fun p =>
      if x.vMark ≤ p.1 ∧ p.1 < m then
        p.2 * ((iAt s x.arm p.1 + iAt s x.arm (p.1 + 1) : Int) : Rat) / 65536 * (perAt s x.arm p.1 : Rat)
      else 0))
    v + dv * 5 / 1000000000 / idCap x.ident)

/-- The insertion share of a cell over the periods from `lo` up to, but not including, `hi` (R105). -/
def shareOver (x : Cell) (lo hi n : Nat) : Rat :=
  sumRat (x.shares.map (fun p => if lo ≤ p.1 ∧ p.1 < hi then p.2 else 0)) / (n : Rat)

/-- A voltage difference in keys (R103, R105). -/
def keyDiff (x : Cell) (dv : Rat) : Rat := dv * 32768 / idRated x.ident

/-! ### Membership test (R300 to R302) -/

/-- Change the membership test. -/
def updMt (s : State) (f : MtSt → MtSt) : State := { s with disc := { s.disc with mt := f s.disc.mt } }

/-- Charge units, A / 32768 × ticks, in millicoulombs, rounded down; beyond 32 bits the manual states no reading and a
free one is held (log entry 4). -/
def putCharge (s : State) (id a : Nat) (q : Int) : State :=
  let mc := (q * 5).fdiv (32768 * 1000000)
  if mc < 4294967296 then putI s id a mc
  else putP { s with freeCtr := s.freeCtr + 1 } id a (Config.freeWord s.freeCtr)

/-- The charges of mark `k` (R301): its current, over its period of `per` ticks. -/
def mtChargeOf (s : State) (k per : Nat) : State :=
  let t := s.disc.mt
  if t.st = 1 ∧ t.from_ ≤ k ∧ k < t.from_ + t.win then
    let q := armList.map (fun a => iAt s a k * (per : Int))
    let s := updMt s (fun t => { t with
      qpos := (t.qpos.zip q).map (fun p => p.1 + max p.2 0)
      qabs := (t.qabs.zip q).map (fun p => p.1 + (p.2.natAbs : Int)) })
    armList.foldl (fun s a =>
      putCharge (putCharge s P.DISC_MT_QPOS a (s.disc.mt.qpos.getD a 0)) P.DISC_MT_QABS a (s.disc.mt.qabs.getD a 0)) s
  else s

/-- At a mark the charges of the one before it are added (R301). -/
def mtCharge (s : State) (per : Nat) : State :=
  if 0 < s.per.count then mtChargeOf s (s.per.count - 1) per else s

/-- A test that waits starts at the mark (R300). -/
def mtStartMark (s : State) : State :=
  if s.disc.mt.armed then
    let z := List.replicate 6 (0 : Int)
    let s := updMt s (fun t => { t with st := 1, armed := false, from_ := s.per.count, win := getN s P.DISC_MT_WINDOW 0,
                                        qpos := z, qabs := z })
    let s := { s with cells := tabMap Cell.empty (fun _ x =>
      { x with mt := { x.mt with first := none, last := none } }) s.cells }
    armList.foldl (fun s a => putN (putN s P.DISC_MT_QPOS a 0) P.DISC_MT_QABS a 0) s
  else s

/-- The charge of every arm up to a mark: the total less what the marks from it on have added. -/
def mtAt (s : State) (k : Nat) (pos : Bool) : List Int :=
  (if pos then s.disc.mt.qpos else s.disc.mt.qabs).zipIdx.map (fun p =>
    p.1 - sumInt ((armOf s p.2).iHist.map (fun x =>
      if k ≤ x.mark then (if pos then max x.q 0 else (x.q.natAbs : Int)) * (x.per : Int) else 0)))

/-- A report of a mark in the window (R301). -/
def mtReport (s : State) (c k : Nat) (v : Rat) : State :=
  let t := s.disc.mt
  if t.st = 1 ∧ t.from_ ≤ k ∧ k < t.from_ + t.win then
    let d := (v, mtAt s k true, mtAt s k false)
    updCell s c (fun x => { x with mt :=
      if x.mt.first.isNone then { x.mt with first := some d, last := none } else { x.mt with last := some d } })
  else s

/-- The verdict on one cell (R301): 1 PASS, 2 AMBIGUOUS, 3 FAIL, 4 INSUFFICIENT, with the best arm, 7 for none. -/
def mtVerdict (s : State) (x : Cell) : Nat × Nat :=
  let c := idCap x.ident
  match x.mt.first, x.mt.last with
  | some f, some l =>
    let dv := l.1 - f.1
    let tol : Rat := (getN s P.DISC_MT_TOL 0 : Rat) / 1000
    let q := fun (a : Nat) =>
      ((if x.fb then l.2.2.getD a 0 - f.2.2.getD a 0 else l.2.1.getD a 0 - f.2.1.getD a 0 : Int) : Rat) * 5 / 32768
        / 1000000000
    let fits := armList.filter (fun a => decide (absR (dv * c - q a) ≤ tol * q a))
    let dist := fun (a : Nat) => absR (dv * c / q a - 1)
    let best := fits.foldl (fun (b : Option Nat) a =>
      match b with
      | none => some a
      | some b => if dist a < dist b then some a else some b) none
    (if q x.arm / c < idRated x.ident / 50 then 4 else if !fits.contains x.arm then 3
      else if fits.length = 1 then 1 else 2, best.getD 7)
  | _, _ => (4, 7)

/-- The end of the window (R301, R302): a verdict for each placed, non-retired cell on an ACTIVE lane. -/
def mtEnd (s : State) : State :=
  if s.disc.mt.st = 1 then
    let s := updMt s (fun t => { t with st := 2 })
    (placedCells s).foldl (fun s p =>
      if p.2.retired || !laneActive s (laneOfCell p.1) then s
      else
        let v := mtVerdict s p.2
        let s := updCell s p.1 (fun x => { x with mt := { x.mt with verdict := v.1, best := v.2 } })
        if v.1 = 3 then raiseFault s F.ID_MISMATCH p.1 else s) s
  else s

/-- The test ends as ABORTED (R300). -/
def mtAbort (s : State) : State :=
  if s.disc.mt.armed || s.disc.mt.st == 1 then updMt s (fun t => { t with st := 3, armed := false }) else s

/-! ### The pass (R95 to R107, R521) -/

/-- Arms with a placed cell (R96). -/
def passArms (s : State) : List Nat := armList.filter (fun a => !(armCells s a).isEmpty)

/-- Whether a cell is held by a FORCE_BYPASS or FORCE_BLOCK entry. -/
def forcedNow (s : State) (c : Nat) : Bool :=
  (cleatList s).any (fun e => e.st == .held && e.cell == c && e.ovr != .holdState)

/-- Whether an exclusion mark takes the cell out of the pass, or keeps it out once it has left the table (R172, R173). -/
def exclNow (s : State) (c : Nat) (x : Cell) : Bool :=
  getN s P.CLT_EXCLUDE c != 0
    && (!(armOf s x.arm).deblocked || forcedNow s c || (activePos s x.arm c).isNone)

/-- Whether a pass takes a cell (R107). -/
def eligible (s : State) (c : Nat) (x : Cell) : Bool :=
  !x.retired && x.retire == .no && !exclNow s c x && laneActive s (laneOfCell c) && x.v.isSome

/-- The values that govern the epochs from an epoch start on: period, latency, effective epoch (R78, R521). -/
def epochVals (s : State) (start : Nat) : Nat × Nat × Nat :=
  match s.per.boundary with
  | some b =>
    if b ≤ start then
      let p := (stagedOr s P.PER_PERIOD 0).toNat
      (p, latencyOf p (placedCount s), effOf (stagedOr s P.PER_EPOCH 0).toNat p s.per.minEpoch)
    else (s.per.per, s.per.lat, s.per.eff)
  | none => (s.per.per, s.per.lat, s.per.eff)

/-- The forecast of a pass that starts at mark `m` in the epoch from `s1` and plans the epoch from `s2` on (R104, R105,
R521): the forecast current in amperes, the horizon in seconds and the number of periods of its means. -/
def passForecast (s : State) (a m s1 s2 : Nat) : Rat × Rat × Nat :=
  let v := epochVals s s1
  let w := epochVals s s2
  let e : Rat := v.2.2
  let h : Rat := e + v.2.1 + (w.2.2 : Rat) * w.1 / v.1 / 2
  let m1 := iMean s a (m - v.2.2) m
  let m0 := iMean s a (m - 2 * v.2.2) (m - v.2.2)
  let i1 := m1.getD 0
  (forecast i1 (m0.getD i1) ((h + e - 1) / (2 * e)), h * v.1 * 5 / 1000000000, v.2.2)

/-- `BAL_IFC` from a forecast current: Q15 of `ARM_I_FS`. How it rounds, and what it reads out of its range, the manual
leaves open: the choice is free (log entry 3). -/
def ifcWord (s : State) (a : Nat) (i : Rat) : State × Int :=
  let x := i * 32768 / (getN s P.ARM_I_FS a : Rat)
  if x.den = 1 && decide (-32768 ≤ x ∧ x ≤ 32767) then (s, x.num)
  else
    let w := (Config.freeWord s.freeCtr).toNat
    ({ s with freeCtr := s.freeCtr + 1 },
      if -32768 ≤ x ∧ x ≤ 32767 then min (x.floor + ((w % 2 : Nat) : Int)) 32767 else signedOf 16 w)

/-- The predicted voltage of a cell (R105, R106). -/
def predOf (s : State) (x : Cell) (ms e mode : Nat) (i th : Rat) : Rat :=
  let v := (vAt s x ms).getD 0
  if mode = 1 then v else v + shareOver x (ms - e) ms e * i * th / idCap x.ident

/-- The running value of a cell is brought forward, so that what it needs of the past stays bounded. -/
def rebase (s : State) (c m : Nat) : State :=
  let x := cellOf s c
  if x.vMark + 16 < m then
    let v := vAt s x (m - 16)
    updCell s c (fun x => { x with v := v, vMark := m - 16 })
  else s

/-- The pass of one arm starts at the present mark (R95, R104 to R107, R110, R155). At a change of L the first later pass
starts by the old L and its horizon uses the new one (DESIGN CHOICE, log entry 43). -/
def passStart (s : State) (a : Nat) : State :=
  let m := s.per.count
  let ms := m - 1
  let s1 := s.per.epochStart + s.per.eff
  let v := epochVals s s1
  let s2 := s1 + v.2.2
  let x := armOf s a
  let f := passForecast s a m s1 s2
  let cells := (armCells s a).filter (fun p => eligible s p.1 p.2)
  let mode := getN s P.BAL_MODE a
  let r := ifcWord s a f.1
  let pred := cells.map (fun p => (p.1, predOf s p.2 ms f.2.2 mode f.1 f.2.1))
  let ref := (armCells s a).filter (fun p => p.2.st.pol != 0)
  let s := updArm r.1 a (fun y => { y with
    ready := false
    pass := some {
      epoch := s.per.epochs + 2, snap := ms, tick0 := s.tick, latch := s2 - v.2.1 + 1, cells := cells.map (fun p => p.1)
      held := (cells.filter (fun p => (cleatHeld? s p.1).isSome)).map (fun p => p.1), mode := mode
      prev := match x.active with
        | some b => b.table.map (fun e => e.cell)
        | none => []
      ifc := r.2, pred := pred
      refSet := if x.deblocked || s.dup.role == .standby then ref.map (fun p => p.1) else []
      bypSet := ((armCells s a).filter (fun p => p.2.st == .bypass)).map (fun p => p.1)
      refNeg := decide (x.lprev < 0), part := x.deblocked, table := none, late := false, grant := none, plus := []
      minus := [], demand := none } })
  (armCells s a).foldl (fun s p =>
    let s := rebase s p.1 ms
    updCell s p.1 (fun y => { y with
      shares := y.shares.filter (fun q => decide (ms < q.1 + 300))
      retire := match y.retire with
        | .start b => .inPass b
        | r => r })) s

/-! ### Tasks of a pass (R216, R217, R220) -/

/-- Cells per SORT and PRED part (log entry 12). -/
def partCells : Nat := 128

/-- PUBLISH and SWAP of an arm; the number that links name SWAP by is told. -/
def makeSwap (s : State) (a latch : Nat) : State × Nat :=
  let p := createSlot s (newTask TC.publish a 0 1 [] none (some latch))
  createSlot p.1 (newTask TC.swap a 0 2 [(p.2, true)] none (some latch))

/-- PRED and SORT of an arm, before SWAP and, where the arm takes part, before ARB: the allocation waits for the arms
that take part only (R156), and a counter of at most 15 for their last SORTs (R217). The last SORT has part 15. -/
def makeSorts (s : State) (a n latch : Nat) (arb : Option Nat) (swap : Nat) : State :=
  let parts := max 1 (ceilDiv n partCells)
  let ends := (arb.map (fun i => (i, false))).toList ++ [(swap, true)]
  let last := createSlot s (newTask TC.sort a 15 (if parts = 1 then 1 else parts) ends none (some latch))
  let pred := fun (s : State) (i : Nat) (next : Nat) =>
    createTask s (newTask TC.pred a i 0 [(next, true)] none (some latch))
  if parts = 1 then pred last.1 0 last.2
  else
    (List.range parts).foldl (fun s i =>
      let r := createSlot s (newTask TC.sort a i 1 [(last.2, true)] none (some latch))
      pred r.1 i r.2) last.1

/-- The tasks of the passes that start at this mark (R216, R220). -/
def passTasks (s : State) (arms : List Nat) (latch : Nat) : State :=
  let r := arms.foldl (fun (x : State × List (Nat × Nat)) a =>
    let y := makeSwap x.1 a latch
    (y.1, x.2 ++ [(a, y.2)])) (s, [])
  let parts := arms.filter (fun a => (armOf s a).deblocked)
  let arb := createSlot r.1
    (newTask TC.arb 0x1FF 0 parts.length (r.2.map (fun p => (p.2, true))) (some (latch - 1)) (some latch))
  r.2.foldl (fun s p =>
    let n := match (armOf s p.1).pass with
      | some q => q.cells.length
      | none => 0
    makeSorts s p.1 n latch (if parts.contains p.1 then some arb.2 else none) p.2) arb.1

/-- Every pass starts (R95), and the boundary of an armed CG_PERIOD is settled (R78). -/
def passStarts (s : State) : State :=
  let s1 := s.per.epochStart + s.per.eff
  let s := if groupArmed s 1 0 && s.per.boundary.isNone then
      { s with per := { s.per with boundary := some (s1 + s.per.eff) } }
    else s
  let v := epochVals s s1
  let arms := passArms s
  let s := arms.foldl passStart s
  if arms.isEmpty then s else passTasks s arms (s1 + v.2.2 - v.2.1 + 1)

/-- The work of a pass in an arm, if one runs. -/
def updPass (s : State) (a : Nat) (f : Pass → Pass) : State := updArm s a (fun x => { x with pass := x.pass.map f })

/-- The rank table of a pass (R105 to R109). -/
def passTable (s : State) (p : Pass) : List RankEntry :=
  let l := p.pred.map (fun q =>
    let x := cellOf s q.1
    (⟨q.1, x.fb, keyOf q.2 (idRated x.ident)⟩ : RankEntry))
  if p.mode = 2 then frozenOrder p.prev l else sortBy rankLe l

/-- The last SORT of an arm (R108, R112). -/
def sortDone (s : State) (a : Nat) : State :=
  match (armOf s a).pass with
  | none => s
  | some p =>
    let t := passTable s p
    updPass (putN s P.BAL_SPREAD a (spreadOf t)) a (fun p => { p with table := some t })

/-- Arms that take part and have not reported are late: at mark s_{e+1} − L, and when the arbiter allocates, which an
abandoned SORT lets it do without that arm's spread (R156, R219). -/
def arbLate (s : State) : State :=
  armList.foldl (fun s a =>
    match (armOf s a).pass with
    | some p =>
      if p.part && p.table.isNone && p.grant.isNone then orP (updPass s a (fun p => { p with late := true })) P.BUD_STATUS 0 4
      else s
    | none => s) s

/-- The allocation (R157): grants, what stays ungranted, the status flags. -/
def arbDone (s : State) : State :=
  let s := arbLate s
  let inputs := armList.map (fun a =>
    match (armOf s a).pass with
    | some p =>
      let w := if p.late then 0 else match p.table with
        | some t => spreadOf t
        | none => 0
      (p.part, w, getN s P.BUD_ARM_FLOOR a, getN s P.BUD_ARM_CEIL a)
    | none => (false, 0, getN s P.BUD_ARM_FLOOR a, getN s P.BUD_ARM_CEIL a))
  let r := arbitrate (getN s P.BUD_EPOCH_TOTAL 0) inputs
  let s := armList.foldl (fun s a =>
    let g := r.grants.getD a 0
    updPass (putN s P.BUD_GRANT a g) a (fun p => { p with grant := some g })) s
  let s := putN s P.BUD_UNGRANTED 0 r.ungranted
  let s := if r.floorShort then orP s P.BUD_STATUS 0 1 else s
  if r.ceilBound then orP s P.BUD_STATUS 0 2 else s

/-- The swap lists of an arm (R110 to R112, R159): none in mode FROZEN (R106). -/
def swapDone (s : State) (a : Nat) : State :=
  match (armOf s a).pass with
  | none => s
  | some p =>
    match p.table, p.grant with
    | some t, some g =>
      let db := getN s P.BAL_SWAP_DEADBAND a
      let mk := fun (top : Bool) =>
        if p.mode = 2 then []
        else swapPairs t (fun c => p.refSet.contains c) (fun c => p.bypSet.contains c) (fun c => p.held.contains c) p.refSet.length db p.refNeg top
      let plus := mk false
      let minus := mk true
      let d := max plus.length minus.length
      updPass (putN s P.BUD_DEMAND a d) a (fun p =>
        { p with plus := plus.take g, minus := minus.take g, demand := some d })
    | _, _ => s

/-- The buffer a pass writes (R114, R118). -/
def passBuf (s : State) (a : Nat) (p : Pass) (t : List RankEntry) (g : Nat) : Buf :=
  Buf.sealed
    { arm := a, region := p.refNeg, epoch := p.epoch, grant := g, spread := spreadOf t, nRef := p.refSet.length
      scale := levelScale (getN s P.BAL_VBASE a) (p.pred.map (fun q => q.2)), snap := p.snap, table := t
      plus := p.plus, minus := p.minus, crc := 0 }

/-- Publication (R96, R115): the buffer is written and ready. -/
def publishDone (s : State) (a : Nat) : State :=
  match (armOf s a).pass with
  | none => s
  | some p =>
    match p.table, p.grant with
    | some t, some g =>
      let b := passBuf s a p t g
      let s := maxP s P.BAL_PASS_TICKS a (min (s.tick - p.tick0) 65535)
      updArm s a (fun x => { x with written := some b, ready := true })
    | _, _ => s

/-- The work of a completed task (R216). -/
def taskEffect (s : State) (t : Task) : State :=
  match t.cls with
  | 1 => match (armOf s t.inst).pass with
    | some p => putI s P.BAL_IFC t.inst p.ifc
    | none => s
  | 2 => if t.part = 15 then sortDone s t.inst else s
  | 3 => arbDone s
  | 4 => swapDone s t.inst
  | 5 => publishDone s t.inst
  | 8 => tallyCompute s
  | _ => s

/-! ### Latch (R116, R137, R159, R166, R167) -/

/-- The starvation of an arm in an epoch (R159), judged when its pass ends. -/
def starve (s : State) (a : Nat) (p : Pass) : State :=
  let lim := getN s P.BUD_STARVE_SPREAD a
  let yes := lim != 0 && match p.demand, p.grant, p.table with
    | some d, some g, some t => decide (g < d) && decide (lim ≤ spreadOf t)
    | _, _, _ => false
  let run := if yes then min (getN s P.BUD_STARVE_RUN a + 1) 255 else 0
  let s := putN s P.BUD_STARVE_RUN a run
  if !yes then causeGone s F.BUDGET_STARVED a
  else if getN s P.BUD_STARVE_EPOCHS a ≤ run ∧ !causeHeld s F.BUDGET_STARVED a then raiseFault s F.BUDGET_STARVED a
  else s

/-- An arm without a pass is not starved in the epoch (R159). -/
def notStarved (s : State) (a : Nat) : State :=
  if (armOf s a).pass.isSome then s else causeGone (putN s P.BUD_STARVE_RUN a 0) F.BUDGET_STARVED a

/-- Whether a buffer's contents match the CRC stored with them (R116). No event of the table corrupts a buffer (log
entry 32). -/
def bufferOk (b : Buf) : Bool := crcWords b.body == b.crc

/-- The buffer of one arm at its latch mark (R116). -/
def latchArm (s : State) (a : Nat) : State :=
  match (armOf s a).pass with
  | none => s
  | some p =>
    if p.latch ≠ s.per.count then s
    else
      let x := armOf s a
      let s := if p.demand.isSome then starve s a p else s
      let drop := fun (x : Arm) => { x with pass := none, ready := false }
      match x.ready, x.written with
      | true, some b =>
        let s := causeGone s F.STRAND_OVERRUN a
        if bufferOk b then
          causeGone (updArm s a (fun x => { drop x with active := some b, written := x.active, fresh := true }))
            F.TABLE_CRC a
        else
          incP (raiseFault (updArm s a (fun x => { drop x with fresh := false })) F.TABLE_CRC a) P.BAL_STALE a
      | _, _ =>
        let s := maxP s P.BAL_PASS_TICKS a (min (s.tick - p.tick0) 65535)
        incP (raiseFault (updArm s a (fun x => { drop x with fresh := false })) F.STRAND_OVERRUN a) P.BAL_STALE a

/-- A fault entry's retry window has seen its last latch mark without a failure: the entry is released (R166). -/
def retryEnd (s : State) (e : Nat) : State :=
  let x := cleatOf s e
  if x.st = .held ∧ x.fault ∧ x.latches.isSome then releaseEntry s e s.per.count else s

/-- One held entry at a latch mark (R137, R166, R168): its position, the release of a fault entry whose cell is absent,
the count of its window. -/
def latchEntry (s : State) (e : Nat) : State :=
  let x := cleatOf s e
  if x.st ≠ .held then s
  else
    let a := (cellOf s x.cell).arm
    let pos := activePos s a x.cell
    let has := (armOf s a).fresh
    let s := updCleat s e (fun x => { x with arm := a, pos := pos.getD 0, absent := pos.isNone })
    if x.fault && has && pos.isNone && (cellOf s x.cell).retire == .no then releaseEntry s e s.per.count
    else match x.latches with
      | some n =>
        if s.per.count ≤ x.since then s
        else if n ≤ 1 then retryEnd s e
        else updCleat s e (fun x => { x with latches := some (n - 1) })
      | none => s

/-- The pair of R285 for a cell whose retirement has come to step 2. PERM_ARM carries the cell's identity check byte, the
reported one after a mismatch (R299). -/
def sendPair (s : State) (c : Nat) : State :=
  let x := cellOf s c
  let l := laneOfCell c
  let b := if x.idFault then x.idByte else idCheck x.ident
  if s.dup.role = .standby then updCell s c (fun x => { x with retire := .arming })
  else if !laneActive s l then permFailed s c
  else
    let s := updCell s c (fun x => { x with retire := .arming })
    updLane s l (fun y => { y with
      qPerm := y.qPerm ++ [newTxn 1 6 (c % 48) 0 b, newTxn 1 7 (c % 48) 0 (255 - b)] })

/-- Step 2 of R167 for a cell at the latch of the table it was excluded from. -/
def latchRetire (s : State) (c : Nat) : State :=
  match (cellOf s c).retire with
  | .inPass true => retireDone s c s.per.count
  | .inPass false => sendPair s c
  | _ => s

/-- Activities that end (R173): the second latch mark frees the slot. -/
def latchActivity (s : State) (i : Nat) : State :=
  match (tabGet Activity.empty s.cleat.acts i).ending with
  | some n => if n ≤ 1 then freeActivity s i else updAct s i (fun a => { a with ending := some (n - 1) })
  | none => s

/-- Whether the present mark is the latch mark of the epoch in force (R95). -/
def isLatch (s : State) : Bool := s.per.count + s.per.lat == s.per.epochStart + s.per.eff + 1

/-- The latch mark (R95, R116, R137, R166 to R168, R173): late tasks are gone already. -/
def latchMark (s : State) : State :=
  let fresh := passArms s
  let ending := fresh.filter (fun a => match (armOf s a).pass with
    | some p => p.latch == s.per.count
    | none => false)
  let s := ending.foldl latchArm (armList.foldl notStarved s)
  let s := if ending.isEmpty then s
    else traceEvent s 9 0 0 0 0 (armMask (fun a => ending.contains a && (armOf s a).fresh))
  let retiring := (placedCells s).filter (fun p => p.2.retire == .inPass true || p.2.retire == .inPass false)
  let s := (List.range 32).foldl latchEntry s
  let s := retiring.foldl (fun s p => if ending.contains p.2.arm && (armOf s p.2.arm).fresh then latchRetire s p.1 else s) s
  (List.range 16).foldl latchActivity s

end Sys2Proof.Machine
end

