-- ==== Sys2Proof/Machine/Capstan.lean ====
section
/-! DEFINITION. The capstan at a mark (R121 to R153), the downstream frames (R80, R262 to R265) and the insertion-count
monitor (R412, R413). -/

namespace Sys2Proof.Machine

/-! ### Inputs of a period -/

/-- The length of a period (R78): the staged one from the boundary of an armed CG_PERIOD on, also before that boundary has
been applied. A boundary once settled keeps its mark if a `PLACE` changes the effective epoch (DESIGN CHOICE, log entry
43). -/
def periodLen (s : State) (p : Nat) : Nat :=
  match s.per.boundary with
  | some b => if b ≤ p then (stagedOr s P.PER_PERIOD 0).toNat else s.per.per
  | none => s.per.per

/-- Whether a controller of a pair commands HOLD and computes nothing (R454, R456). -/
def dupHolds (s : State) : Bool := (s.dup.role == .takingOver || s.dup.role == .active) && !s.dup.resumed

/-- Whether the capstan treats every arm as blocked (R452, R454). -/
def capIdle (s : State) : Bool := s.dup.role == .standby || dupHolds s

/-- What the capstan knows of a placed cell before a period: the state at its start, its held override, whether the
change at offset 0 is its edge (R136, R277), and whether it stays BLOCK for its lane (R277). -/
structure CapStart where
  st    : CellSt
  ovr   : Option Override
  edged : Bool
  kept  : Bool
  deriving DecidableEq, Repr

/-- The start of a deblocked arm's cell in a period; `first` in the first deblocked one (R136, R149, R277). -/
def capStart (s : State) (first : Bool) (b : Option Buf) (c : Nat) (x : Cell) : CapStart :=
  let ovr := (cleatHeld? s c).map (fun e => (cleatOf s e).ovr)
  let inTab := match b with
    | some b => b.table.any (fun e => e.cell == c)
    | none => false
  if ovr.isSome then ⟨if first && ovr != some .holdState then .block else x.st, ovr, false, false⟩
  else if x.laneBlock then
    if laneActive s (laneOfCell c) && inTab then ⟨.bypass, none, true, false⟩ else ⟨.block, none, false, true⟩
  else if first then ⟨.bypass, none, false, false⟩
  else if x.wasHeld then ⟨.bypass, none, true, false⟩
  else ⟨x.st, none, false, false⟩

/-- The inputs of R121 for a deblocked arm. -/
def capIn (p : Nat) (x : Arm) (starts : List (Nat × CapStart)) (per edgeMax : Nat) (epochStart : Bool) :
    CapIn :=
  let st := fun (c : Nat) => match starts.find? (fun q => q.1 == c) with
    | some q => q.2
    | none => ⟨.block, none, false, true⟩
  let table := match x.active with
    | some b => b.table
    | none => []
  let lim := match x.active with
    | some b => b.limits
    | none => (0, 0)
  let lprev := if x.firstDeb = p then 0 else x.lprev
  let seff : Int := if lprev < 0 then -x.sgn else x.sgn
  { per := per, x0 := x.x0, dx := x.dx, lmin := lim.1, lmax := lim.2, lprev := lprev, edgeMax := edgeMax, s := x.sgn
    table := table.map (fun e => ⟨e.cell, e.fb, (st e.cell).st, (st e.cell).ovr.isSome⟩)
    forced := starts.filterMap (fun q => q.2.ovr.map (fun o => (q.1, o, q.2.st)))
    edged := (starts.filter (fun q => q.2.edged)).map (fun q => q.1)
    swaps := match x.active with
      | some b => if epochStart && x.fresh then (if 0 < seff then b.plus else b.minus) else []
      | none => []
    regionOk := match x.active with
      | some b => b.region == decide (lprev < 0)
      | none => false }

/-- The word, the state at the end and the insertion share of a cell (R134, R136, R145, R102). -/
def capCell (per : Nat) (q : CapStart) (e : Option CapEdge) : Word × CellSt × Rat :=
  match q.ovr with
  | some .forceBypass => (cmdWord 0x3 0, .bypass, 0)
  | some .forceBlock => (cmdWord 0x0 0, .block, 0)
  | some .holdState => (cmdWord 0x9 0, q.st, q.st.pol)
  | none =>
    if q.kept then (cmdWord 0x0 0, .block, 0)
    else match e with
      | some e => (cmdWord e.st.code e.tick, e.st,
          ((q.st.pol * (e.tick : Int) + e.st.pol * ((per : Int) - e.tick) : Int) : Rat) / (per : Rat))
      | none => (cmdWord q.st.code 0, q.st, q.st.pol)

/-- Record a share of a period; a share of 0 is not listed. -/
def putShare (x : Cell) (p : Nat) (r : Rat) : Cell :=
  let l := x.shares.filter (fun q => q.1 != p)
  { x with shares := if r = 0 then l else l ++ [(p, r)] }

/-- Write a command word of a period. -/
def putWord (s : State) (p c : Nat) (w : Word) : State :=
  { s with capWords := tabUpd [] s.capWords p (fun t => tabSet 0 t c w) }

/-! ### One arm, one period -/

/-- The word of a cell a blocked arm has in a period: HOLD while a takeover lasts, else BLOCK (R145, R454). -/
def blockedWord (s : State) : Word := if dupHolds s then cmdWord 0x9 0 else 0

/-- Whether a cell is in the table an arm has in force. -/
def inActive (s : State) (a c : Nat) : Bool :=
  match (armOf s a).active with
  | some b => b.table.any (fun e => e.cell == c)
  | none => false

/-- The level path at P - 1 of an arm for a period (R123, R151), under the limits of its active table. -/
def targetLevel (s : State) (p a : Nat) : Int :=
  let i := capIn p (armOf s a) [] (periodLen s p) 0 false
  levelAt i (i.per - 1)

/-- A blocked arm (R145, R148): every word BLOCK, level 0, and a period without clamp or shortfall (R153). `CAP_TARGET`
is the level path of its reference, which is published for a blocked arm too (R151, R181); the path of a blocked arm
raises no note and ends both causes (DEDUCED, log entry 45). The cells'
states are BLOCK, but on a standby and during a takeover they are those of the reports (R452, R456). A cell that stayed
BLOCK for its lane no longer does once it is in a table (R277). -/
def capBlocked (s : State) (p a : Nat) : State :=
  let w := blockedWord s
  let s := (armCells s a).foldl (fun s q =>
    let s := putWord s p q.1 w
    if capIdle s then s
    else
      let free := laneActive s (laneOfCell q.1) && inActive s a q.1
      updCell s q.1 (fun x =>
        putShare { x with st := .block, wasHeld := false, laneBlock := x.laneBlock && !free } p 0)) s
  let s := causeGone (causeGone s F.CAP_CLAMP a) F.CAP_SHORTFALL a
  let s := updArm s a (fun x => { x with
    lprev := if capIdle s then x.lprev else 0, region := false, plans := x.plans ++ [(p, [(0, 0)])] })
  putI (putI s P.CAP_LEVEL a 0) P.CAP_TARGET a (targetLevel s p a)

/-- The notes of a period (R124, R129, R153): at most one raise per epoch; a clean period ends the cause. -/
def capNotes (s : State) (a : Nat) (o : CapOut) : State :=
  let s := if o.clamped then
      let s := incP s P.CAP_CLAMP a
      if (armOf s a).clampNote then s
      else raiseFault (updArm s a (fun x => { x with clampNote := true })) F.CAP_CLAMP a
    else causeGone s F.CAP_CLAMP a
  if o.lend ≠ o.target then
    (if (armOf s a).shortNote then s
     else raiseFault (updArm s a (fun x => { x with shortNote := true })) F.CAP_SHORTFALL a)
  else causeGone s F.CAP_SHORTFALL a

/-- A deblocked arm (R121 to R149). -/
def capDeblocked (s : State) (p a : Nat) (epochStart : Bool) : State :=
  let x := armOf s a
  let per := periodLen s p
  let first := x.firstDeb == p
  let starts := (armCells s a).map (fun q => (q.1, capStart s first x.active q.1 q.2))
  let i := capIn p x starts per (getN s P.ARM_EDGE_MAX a) epochStart
  let o := capstanArm i
  let s := starts.foldl (fun s q =>
    let r := capCell per q.2 (o.edges.find? (fun e => e.cell == q.1))
    let s := putWord s p q.1 r.1
    updCell s q.1 (fun y => putShare { y with
      st := r.2.1, wasHeld := q.2.ovr == some .forceBlock
      laneBlock := q.2.kept || (y.laneBlock && q.2.ovr.isSome &&
        (q.2.ovr != some .forceBypass || !laneActive s (laneOfCell q.1))) } p r.2.2)) s
  let s := updArm s a (fun x => { x with
    lprev := o.lend, region := decide (i.lprev < 0), plans := x.plans ++ [(p, o.plan)] })
  let s := putI (putI s P.CAP_LEVEL a o.lend) P.CAP_TARGET a o.target
  let s := if epochStart then
      addP (putN s P.CAP_SWAP_LAST a (o.executed + 65536 * o.skipped)) P.CAP_SWAP_NOSLOT a o.noslot
    else s
  let s := maxP (addP s P.CAP_DEFER a o.defer) P.CAP_DEFER_MAX a o.deferMax
  capNotes (addP s P.CAP_SHORT a o.short) a o

/-- Ticks of the schedule at which each ACTIVE cell lane's words are complete, in frame-builder order (R80, R147). -/
def capEnds (s : State) : List (Nat × Nat) :=
  (s.per.order.foldl (fun (r : List (Nat × Nat) × Nat) l =>
    if laneActive s l then
      let f := r.2 + ceilDiv (popcount (laneOf s l).mask) 16
      (r.1 ++ [(l, f)], f)
    else r) ([], 64)).1

/-- The capstan computes a period (R121, R147, R150, R158). -/
def capCompute (s : State) (p : Nat) : State :=
  let start := p == s.per.epochStart || p == s.per.epochStart + s.per.eff
  let s := { s with capWords := tabFilter (fun k _ => decide (s.per.count < k)) s.capWords }
  let s := armList.foldl (fun s a =>
    let s := if start then
        updArm (putN s P.CAP_SWAP_LAST a 0) a (fun x => { x with clampNote := false, shortNote := false })
      else s
    let s := updArm s a (fun x => { x with plans := x.plans.filter (fun q => decide (s.per.count < q.1 ∧ q.1 ≠ p)) })
    if inDeb (armOf s a) p && !capIdle s then capDeblocked s p a start else capBlocked s p a) s
  let s := if start then
      putN s P.BUD_SPENT 0 (sumNat (armList.map (fun a => getN s P.CAP_SWAP_LAST a % 4096)))
    else s
  let s := putN s P.CAP_END_TICK 0 (match (capEnds s).getLast? with
    | some q => q.2
    | none => 64)
  hbArrive s p

/-! ### Downstream frames (R262 to R265) -/

/-- Cell time, in units of 2^-40 ns, a number of ticks after the present one. -/
def cellAfter (s : State) (ticks : Rat) : Rat := (s.time.cell : Rat) + ticks * (tickUnits s : Rat)

/-- MARK_TIME of the next mark, not reduced (R324). -/
def nextMarkNs (s : State) : Nat := (cellAfter s ((s.per.nextMark - s.tick : Nat) : Rat) / (nsUnit : Rat)).floor.toNat

/-- CORR of a time field whose first bit leaves a number of ticks after the mark (R326). -/
def corrOf (s : State) (mark : Nat) (ticks : Rat) : Nat :=
  (16 * (cellAfter s ticks / (nsUnit : Rat) - (mark : Rat) + 65536) + 1 / 2).floor.toNat

/-- Whether downstream frames for the period after the present mark's are sent (R21, R446, R454, R459). -/
def sendsFrames (s : State) : Bool :=
  let p := s.per.count + 1
  match s.dup.role with
  | .solo => true
  | .standby => false
  | .takingOver => decide (s.dup.u ≤ p)
  | .active =>
    match s.dup.giving with
    | some u => decide (p < u)
    | none => decide (s.dup.u ≤ p)

/-- Whether every word of a period is HOLD (R454, R456). -/
def holdPeriod (s : State) (p : Nat) : Bool :=
  (s.dup.role == .takingOver || s.dup.role == .active) && (!s.dup.resumed || decide (p < s.dup.q))

/-- The word for a port in the frame of a period (R145, R148, R264), before any injection. -/
def frameWord (s : State) (p c : Nat) : Word :=
  let x := cellOf s c
  if holdPeriod s p then cmdWord 0x9 0
  else if x.placed && inDeb (armOf s x.arm) p then tabGet 0 (tabGet [] s.capWords p) c
  else 0

/-- Whether takeover frames are sent (R454): TAKEOVER stays set until every USED, ACTIVE lane names the own port. -/
def takeoverBit (s : State) : Bool := s.dup.takeover

/-- The report divisor of a lane in a period (R85, R88): a new one takes effect at the boundary mark. -/
def divAt (s : State) (x : Lane) (p : Nat) : Nat :=
  if periodLen s p = s.per.per then x.div else divOf x.gen (popcount x.mask) (periodLen s p)

/-- The first reported mark from a mark on, as known when the frame for period `p` is sent: the divisor of that period
takes effect at the boundary that its period belongs to (R86, R88). -/
def frameRep (s : State) (x : Lane) (l p j : Nat) : Nat :=
  let d := divAt s x p
  match s.per.boundary with
  | some b => if d = x.div then laneRep x l j else repFrom x.div b d l j
  | none => laneRep x l j

/-- The frame of a lane for the period after the present mark's (R80, R262). `lat` is the latency under which the words
of that period were computed and `per` the length of the period that has just ended: the schedule of R80 runs from the
mark `lat - 2` periods ago. -/
def sendFrame (lat per : Nat) (s : State) (l f : Nat) : State :=
  let p := s.per.count + 1
  let x := laneOf s l
  let late := (lat - 2) * per
  let ticks : Rat := ((max f late - late : Nat) : Rat) + 64 / genRate x.gen
  let mark := nextMarkNs s
  let hold := holdPeriod s p
  let d := divAt s x p
  let m := if hold then (0, x) else msgSlot x (frameRep s x l p) p
  let ws := (presentPorts s l).map (fun q => frameWord s p (48 * l + q))
  let fr : DsFrame :=
    { lane := l, cells := popcount x.mask, period := p % 4294967296, takeover := takeoverBit s, port := x.selPort
      blockAll := false, div := divCode d, markTime := mark % 4294967296, corr := corrOf s mark ticks
      words := ws, raw := ws, msg := m.1, crc := 0, depart := s.tick + (max f late - late) }
  updLane s l (fun _ => { m.2 with ds := some (injectDs s.belay.injecting fr) })

/-- The frames that left in the period that ends are kept for the belay's read-back (R411). -/
def keepFrames (s : State) : State :=
  { s with lanes := tabMap Lane.empty (fun _ x => { x with dsPrev := x.ds, ds := none }) s.lanes }

/-- The frames of the period after the present mark's, on every ACTIVE cell lane. Shares of words that are not sent as
computed are dropped (R102, R148). -/
def sendFrames (lat per : Nat) (s : State) : State :=
  let p := s.per.count + 1
  let s := keepFrames s
  let s := if sendsFrames s then (capEnds s).foldl (fun s q => sendFrame lat per s q.1 q.2) s else s
  if capIdle s then s
  else
    (placedCells s).foldl (fun s q =>
      if inDeb (armOf s q.2.arm) p && laneActive s (laneOfCell q.1) && !s.belay.injecting then s
      else if q.2.shares.any (fun r => r.1 == p) then updCell s q.1 (fun x => putShare x p 0) else s) s

/-! ### The insertion-count monitor (R412, R413) -/

/-- A cell's state during a period as its word commands it: state at the start, state from the offset on, the offset. -/
def icmCell (st : CellSt) (w : Word) : CellSt × Nat :=
  match field w.toNat 15 12 with
  | 0x0 => (.block, field w.toNat 11 0)
  | 0x3 => (.bypass, field w.toNat 11 0)
  | 0x5 => (.insertP, field w.toNat 11 0)
  | 0x6 => (.insertN, field w.toNat 11 0)
  | _ => (st, 0)

/-- The word of a cell that left its lane's encoder, BLOCK where the lane sends no frame. -/
def sentWord (s : State) (c p : Nat) : Word :=
  let l := laneOfCell c
  match (laneOf s l).ds with
  | some f =>
    if laneActive s l && sendsFrames s && f.period == p % 4294967296 then
      (match (presentPorts s l).findIdx? (fun q => q == c % 48) with
        | some i => f.words.getD i 0
        | none => 0)
    else 0
  | none => 0

/-- The planned level at a tick (R150). -/
def planAt (plan : List (Nat × Int)) (t : Nat) : Int :=
  match (plan.filter (fun q => decide (q.1 ≤ t))).getLast? with
  | some q => q.2
  | none => 0

/-- The comparison of one arm over a period: the start states, the words, the plan. Between the offsets both sides are
constant. -/
def icmBad (cells : List (CellSt × CellSt × Nat)) (plan : List (Nat × Int)) (tol : Nat) : Bool :=
  let ts := 0 :: (cells.map (fun q => q.2.2) ++ plan.map (fun q => q.1))
  ts.any (fun t =>
    let n := sumInt (cells.map (fun q => (if q.2.2 ≤ t then q.2.1 else q.1).pol))
    decide (tol < (n - planAt plan t).natAbs))

/-- Whether the comparison runs (R413): from the first latch mark after a `PLACE`, while the belay is NORMAL. -/
def icmRuns (s : State) : Bool := s.belay.state == .normal && s.belay.icmFrom == 0

/-- The monitor takes the words of the period after the present mark's. -/
def icmMark (s : State) : State :=
  let p := s.per.count + 1
  let st := fun (c : Nat) => tabGet CellSt.block s.belay.icmSt c
  let rows := (placedCells s).map (fun q => (q.1, q.2.arm, st q.1, icmCell (st q.1) (sentWord s q.1 p)))
  let run := icmRuns s
  let s := if s.belay.state = .off then s
    else updBelay s (fun x => { x with icmSt := rows.foldl (fun t r => tabSet CellSt.block t r.1 r.2.2.2.1) x.icmSt })
  let ins := rows.any (fun r => r.2.2.2.1.pol != 0)
  let s := if ins == s.belay.inserted then s
    else updBelay s (fun x => { x with inserted := ins, fdcFrom := if ins then s.tick else x.fdcFrom })
  if !run then s
  else
    armList.foldl (fun s a =>
      let x := armOf s a
      let plan := if inDeb x p then
          (match x.plans.find? (fun q => q.1 == p) with
            | some q => q.2
            | none => [(0, 0)])
        else [(0, 0)]
      let cells := (rows.filter (fun r => r.2.1 == a)).map (fun r => (r.2.2.1, r.2.2.2.1, r.2.2.2.2))
      icmVerdict s a (icmBad cells plan (getN s P.ARM_EDGE_MAX a))) s

end Sys2Proof.Machine
end

