-- ==== Sys2Proof/Machine/Frames.lean ====
section
/-! DEFINITION. Upstream frames (R261, R267 to R271, R276, R281, R299): acceptance, the hub's header, the cells' reports,
the messenger's reply; frames that do not come; silence of a cell (R103). -/

namespace Sys2Proof.Machine

/-! ### Cell reports -/

/-- Whether an arm was deblocked throughout the periods from a mark up to, but not including, another (R103). -/
def debThrough (x : Arm) (lo hi : Nat) : Bool := decide (x.firstDeb ≤ lo) && inDeb x (hi - 1)

/-- The state of APPLIED in a report (R269). -/
def appliedOf (r : BitVec 48) : CellSt :=
  match field r.toNat 14 13 with
  | 0 => .block
  | 1 => .bypass
  | 2 => .insertP
  | _ => .insertN

/-- The fault codes of a report's flags (R164). -/
def reportCodes (r : BitVec 48) : List Nat :=
  [(23, F.CELL_UVLO), (22, F.CELL_SC), (21, F.CELL_OV), (19, F.CELL_CODE_ERR)].filterMap
    (fun p => if bit r.toNat p.1 then some p.2 else none)

/-- The residual of a report, in keys (R103); none while the cell has no running value. -/
def residual (s : State) (x : Cell) (k : Nat) (v : Rat) : Option Rat :=
  (vAt s x k).map (fun p => keyDiff x (v - p))

/-- A supervised residual (R103): the note, the record of the largest, and whether the cell is suspect for it. The
residual is compared unrounded and rounded only for its record, and of two equal largest ones the first keeps its cell
(DESIGN CHOICE, log entry 44). -/
def residWatch (s : State) (c : Nat) (r : Rat) : State × Bool :=
  let a := (cellOf s c).arm
  let note := getN s P.BAL_RESID_NOTE a
  let susp := getN s P.BAL_RESID_SUSPECT a
  let m := absR r
  let n := min (roundHalfAway m).natAbs 65535
  let s := if note ≠ 0 ∧ (note : Rat) < m then
      updArm (raiseFault s F.PRED_RESIDUAL a) a (fun x => { x with residNote := true })
    else s
  let s := if (armOf s a).residCell = 0 ∨ (armOf s a).residMax < n then
      updArm s a (fun x => { x with residMax := n, residCell := c + 1 })
    else s
  (s, susp != 0 && decide ((susp : Rat) < m))

/-- The running value takes a report of mark `k` (R102, R103). The second result tells whether the residual makes the
cell suspect. -/
def takeVoltage (s : State) (c k : Nat) (r : BitVec 48) : State × Bool :=
  let x := cellOf s c
  let v := idVolts x.ident (field r.toNat 47 32)
  let q := match residual s x k v with
    | some d => if debThrough (armOf s x.arm) x.lastRep k && !x.retired then residWatch s c d else (s, false)
    | none => (s, false)
  let s := updCell q.1 c (fun x => { x with
    v := some v, vMark := k, lastRep := k, silent := false, shares := x.shares.filter (fun p => decide (k < p.1 + 300)) })
  (mtReport s c k v, q.2)

/-- States and insertion shares of a controller whose words do not rule: from APPLIED (R452, R456). `d` is the string's
divisor. -/
def takeApplied (s : State) (c k d : Nat) (r : BitVec 48) : State :=
  if s.dup.role == .standby || dupHolds s then
    let st := appliedOf r
    updCell s c (fun x =>
      (List.range d).foldl (fun x i => putShare x (k + i) ((st.pol : Int) : Rat))
        { x with st := st, applied := x.applied || decide (s.dup.u ≤ k) })
  else s

/-- The rotating field of a report (R271): digest bytes of one cycle, the identity check byte. -/
def takeRot (s : State) (c k d : Nat) (r : BitVec 48) (last : Nat) : State :=
  let j := k / d % 8
  let rot := field r.toNat 7 0
  let x := cellOf s c
  if j = 0 then updCell s c (fun x => { x with digBytes := [rot], digPhase := 1 })
  else if j ≤ 3 then
    if x.digPhase = j ∧ last + d = k then
      let b := x.digBytes ++ [rot]
      let s := updCell s c (fun x => { x with digBytes := if j = 3 then [] else b, digPhase := if j = 3 then 0 else j + 1 })
      if j = 3 then setDigest s c ((bytesWords b).headD 0) else s
    else updCell s c (fun x => { x with digBytes := [], digPhase := 0 })
  else if j = 5 then
    let bad := rot != idCheck x.ident
    let s := updCell s c (fun x => { x with idByte := rot, idBad := if bad then x.idBad + 1 else 0 })
    if bad && decide (1 ≤ x.idBad) && !x.retired && x.retire == .no then
      let s := updCell (raiseFault s F.ID_MISMATCH c) c (fun x => { x with idFault := true })
      startRetire (faultUse s c) c false
    else s
  else s

/-- BYP_CLOSED confirms a bypass pair in time (R167 step 3, R285). -/
def takeClosed (s : State) (c : Nat) : State :=
  let x := cellOf s c
  match x.retire with
  | .fired due => if s.tick ≤ due then retireDone s c (nextMarkNo s) else s
  | .arming => if s.dup.role = .standby then retireDone s c (nextMarkNo s) else s
  | _ => s

/-- BYP_CLOSED of a cell neither RETIRED nor under retirement (R274): retirement without a pair, and a fault entry. -/
def startClosed (s : State) (c : Nat) : State :=
  if (cellOf s c).retire = .no && !(cellOf s c).retired then faultUse (startRetire s c true) c else s

/-- One cell's report of mark `k` (R269, R270). -/
def takeReport (s : State) (c k d : Nat) (r : BitVec 48) : State :=
  if bit r.toNat 8 then s
  else
    let last := (cellOf s c).lastRep
    let s := updCell s c (fun x => { x with
      report := some r, nOt := x.nOt + b2n (bit r.toNat 15), nDwell := x.nDwell + b2n (bit r.toNat 12)
      nHolding := x.nHolding + b2n (bit r.toNat 17) })
    if !(cellOf s c).placed then s
    else
      let s := if bit r.toNat 20 then startClosed s c else s
      let q := takeVoltage s c k r
      let s := takeApplied q.1 c k d r
      let codes := reportCodes r ++ (if q.2 then [F.CELL_SUSPECT] else [])
      let s := if codes.isEmpty || (cellOf s c).retired then s
        else faultUse (codes.foldl (fun s f => raiseFault s f c) s) c
      let s := if bit r.toNat 20 then takeClosed s c else s
      takeRot s c k d r last

/-! ### The header (R268, R276) -/

/-- HOLD: the count of held periods and `F_HUB_HOLD` (R276). -/
def takeHold (s : State) (l k hold : Nat) : State :=
  let x := laneOf s l
  let n := match x.lastUs with
    | some j => min hold (k - j)
    | none => hold
  causeSet (addP s P.FRM_HOLD_EVENTS l n) F.HUB_HOLD l (hold != 0)

/-- ACTIVE_PORT and HOLD as `FRM_HUB_STATUS` shows them, and the run of headers naming the other port (R458). -/
def takePort (s : State) (l k port hold : Nat) : State :=
  let s := updLane s l (fun x => { x with
    actPort := port, hold := hold, lastUs := some k, nextUs := laneRep x l (k + 1)
    otherRun := if port != 0 && port != x.selPort then x.otherRun + 1 else 0 })
  if s.dup.role = .active ∧ (laneOf s l).used ∧ 2 ≤ (laneOf s l).otherRun then updDup s (fun d => { d with demote := true })
  else s
where
  /-- Change the duplex block. -/
  updDup (s : State) (f : DupSt → DupSt) : State := { s with dup := f s.dup }

/-- The messenger's reply (R268, R281). -/
def takeMsg (s : State) (l k : Nat) (f : UpFrame) : State :=
  match txnDue (laneOf s l) l k with
  | none => s
  | some t =>
    if f.msgSeq.toNat ≠ t.seq then txnMissing s l t
    else if f.msgStatus = 1 then txnOk (txnDrop s l t) l t f.msg
    else if f.msgStatus = 2 then txnLost s l t
    else txnMissing s l t

/-! ### Acceptance (R261) -/

/-- Whether the frame due next on a lane can still come in time: it ends 40 ticks before the mark that follows its
D periods (R86). -/
def usInTime (s : State) (l : Nat) : Bool :=
  let x := laneOf s l
  decide (x.nextUs + divFor x x.nextUs ≠ s.per.count + 1) || decide (s.tick + 40 ≤ s.per.nextMark)

/-- The frame of the mark due next is discarded or has not come (R245, R261, R281). -/
def usLost (s : State) (l : Nat) : State :=
  let x := laneOf s l
  let s := incP s P.FRM_US_ERR l
  let s := if x.nextUs ≤ s.per.count then
      updLane (frameMissing s l x.nextUs) l (fun x => { x with nextUs := laneRep x l (x.nextUs + 1) })
    else s
  laneError s l

/-- Whether a frame is intact (R261): its CRC is that of its bits (R259), it is of this lane, and it carries one report
for each present port. -/
def usIntact (s : State) (l : Nat) (f : UpFrame) : Bool :=
  let n := popcount (laneOf s l).mask
  f.crc == usCrc f && f.typ == 0x5A && f.laneField.toNat == l && f.cells.toNat == n && f.reports.length == n

/-- Whether a frame's MARK is a reported mark that is already over: its deadline has decided it. -/
def usOver (s : State) (l : Nat) (f : UpFrame) : Bool :=
  let x := laneOf s l
  let back := (x.nextUs % 4294967296 + 4294967296 - f.mark.toNat) % 4294967296
  decide (1 ≤ back) && decide (back < 2147483648) && decide (back ≤ x.nextUs)
    && laneRep x l (x.nextUs - back) == x.nextUs - back

/-- An accepted frame of mark `k`: header, reports in port order, messenger, the hub's discarded frames (R245). -/
def usAccept (s : State) (l : Nat) (f : UpFrame) : State :=
  let k := (laneOf s l).nextUs
  let d := divFor (laneOf s l) k
  let ports := presentPorts s l
  let s := takePort (takeHold s l k f.hold.toNat) l k f.activePort.toNat f.hold.toNat
  let s := (ports.zip f.reports).foldl (fun s p => takeReport s (48 * l + p.1) k d p.2) s
  let s := takeMsg s l k f
  laneErrors f.dsErr.toNat (addP s P.FRM_DS_ERR l f.dsErr.toNat) l

/-- An upstream frame ends (R261). A lane that is not ACTIVE takes none. -/
def execUpstreamFrame (frame : UpFrame) (s : State) : Host.Outcome State Fault Refusal := whenClocked s <|
  let l := frame.lane.toNat
  let x := laneOf s l
  ends (if x.st ≠ .active then s
    else if usIntact s l frame && usOver s l frame then s
    else if usIntact s l frame && decide (x.nextUs ≤ s.per.count)
        && frame.mark.toNat == x.nextUs % 4294967296 && usInTime s l then usAccept s l frame
    else usLost s l)

/-- The deadline of a lane's frame passes without it (R86, R261). -/
def usDeadline (s : State) (l : Nat) : State :=
  let x := laneOf s l
  let due := x.nextUs + divFor x x.nextUs
  if x.st ≠ .active ∨ x.div = 0 ∨ s.per.count + 1 < due then s
  else if due = s.per.count + 1 then usLost (advanceTo s (s.per.nextMark - 39)) l
  else usLost s l

/-- The deadline of an upstream frame (R261). -/
def execUpstreamFrameDeadline (lane : Fin 64) (s : State) : Host.Outcome State Fault Refusal := whenClocked s <|
  ends (usDeadline s lane)

/-! ### Silence (R103) -/

/-- The mark at which a cell that stays silent is declared suspect. -/
def silenceMark (s : State) (x : Cell) : Nat := x.lastRep + getN s P.BAL_DR_MAX x.arm + 2

/-- A cell that stays silent fails the retry window of its entry at the first mark after the one at which the entry
became HELD (R166; DEDUCED, log entry 46). -/
def silenceFail (s : State) (m c : Nat) : State :=
  match cleatHeld? s c with
  | some e => if (cleatOf s e).latches.isSome && decide ((cleatOf s e).since < m) then startRetire s c false else s
  | none => s

/-- A placed cell's silence up to mark `m` (R103): declared once, and a failure of a retry window it goes on in (R166). -/
def silenceAt (s : State) (m c : Nat) : State :=
  let x := cellOf s c
  if x.placed && !x.retired && laneActive s (laneOfCell c) && decide (silenceMark s x ≤ m)
      && debThrough (armOf s x.arm) x.lastRep m then
    if x.silent then silenceFail s m c
    else suspectCell (updCell s c (fun x => { x with silent := true })) c F.CELL_SUSPECT
  else s

/-- A cell has been silent for more than `BAL_DR_MAX` periods (R103). -/
def execCellSilenceSuspect (cell : Fin 3072) (s : State) : Host.Outcome State Fault Refusal := whenClocked s <|
  ends (if silenceMark s (cellOf s cell) ≤ s.per.count then silenceAt s s.per.count cell
    else atMark s (silenceMark s (cellOf s cell)) (fun s => silenceAt s (s.per.count + 1) cell))

/-- What the end of a period decides before its mark: frames that have not come, of which a lane whose divisor has
just fallen can owe two (R86, R88), and silent cells. -/
def periodEnd (s : State) : State :=
  let s := (List.range 64).foldl usDeadline ((List.range 64).foldl usDeadline s)
  let s := advanceTo s s.per.nextMark
  (placedCells s).foldl (fun s p => silenceAt s (s.per.count + 1) p.1) s

end Sys2Proof.Machine
end

