-- ==== Sys2Proof/Machine/DupOps.lean ====
section
/-! DEFINITION. Duplex operation at a mark (R445 to R463): roles, heartbeats and data frames, what a standby applies,
takeover and handover. -/

namespace Sys2Proof.Machine

/-- Change the duplex block. -/
def updDup (s : State) (f : DupSt → DupSt) : State := { s with dup := f s.dup }

/-- Whether the controller is one half of a pair (R445). -/
def paired (s : State) : Bool := s.dup.role != .solo

/-- A bit of `DUP_CFG` (R462). -/
def dupCfg (s : State) (b : Nat) : Bool := bit (getN s P.DUP_CFG 0) b

/-- Whether a peer lane is ACTIVE. -/
def peerUp (s : State) : Bool := laneActive s 64 || laneActive s 65

/-- USED lanes that are ACTIVE. -/
def usedLanes (s : State) : List Nat := (List.range 64).filter (fun l => (laneOf s l).used && laneActive s l)

/-- Whether a lane reports this controller's own port (R446). -/
def ownPort (s : State) (l : Nat) : Bool := (laneOf s l).actPort == (laneOf s l).selPort && (laneOf s l).actPort != 0

/-- Whether a lane reports the other port. -/
def otherPort (s : State) (l : Nat) : Bool := (laneOf s l).actPort != (laneOf s l).selPort && (laneOf s l).actPort != 0

/-- Entry to STANDBY (R446, R453). -/
def dupStandby (s : State) : State :=
  updDup s (fun d =>
    { d with
      role := .standby, marks := 0, otherAct := none, armCount := 0, armed := false, takeover := false,
      resumed := false, yieldReq := false, grant := none, giving := none, forceTko := false, demote := false,
      slewed := false })

/-- Entry to RUN, or a change of `DUP_CFG` (R445, R446). -/
def dupEnter (s : State) : State :=
  if dupCfg s 0 then { dupStandby s with dup := { (dupStandby s).dup with
      hb := none, hbOk := 0, seen := false, gotMark := none, missRun := 0, data := none, lastData := none } }
  else { s with dup := { DupSt.reset with cause := s.dup.cause, u := s.dup.u } }

/-- Entry to TAKING_OVER with the first period `u` (R453, R454, R459). -/
def dupTake (s : State) (u cause : Nat) : State :=
  let s := incP (putN s P.DUP_TKO_PERIOD 0 (u % 4294967296)) P.DUP_TKO_COUNT 0
  let s := { s with cells := tabMap Cell.empty (fun _ x => { x with applied := false }) s.cells }
  updDup s (fun d => { d with role := .takingOver, u := u, cause := cause, takeover := true, resumed := false
                              failedRes := false, yieldReq := false, forceTko := false, armed := false })

/-- Entry to ACTIVE by PRIMARY (R446): no takeover, dispatch at once. -/
def dupPrimary (s : State) : State :=
  updDup s (fun d => { d with role := .active, takeover := false, resumed := true, q := 0, u := 0 })

/-! ### Heartbeats at a mark (R450, R453, R446, R459) -/

/-- The heartbeat of a mark: arrived or missed. -/
def hbMark (s : State) : State :=
  match s.dup.gotMark, s.dup.hb with
  | some _, some h =>
    let act := h.role == 3 || h.role == 2
    let s := causeGone s F.PEER_LOST 0
    updDup s (fun d => { d with
      seen := true, gotMark := none, missRun := 0, armCount := if h.role = 3 then d.armCount + 1 else 0
      otherAct := if act then some s.per.count else d.otherAct })
  | _, _ =>
    let s := incP s P.DUP_HB_MISS_TOTAL 0
    let s := updDup s (fun d => { d with seen := false, missRun := d.missRun + 1, armCount := 0 })
    if s.dup.missRun = 2 then raiseFault s F.PEER_LOST 0 else s

/-- Whether the standby has seen no active controller for 16 marks (R446; log entry 33). -/
def noActive (s : State) : Bool :=
  decide (16 ≤ s.dup.marks) && match s.dup.otherAct with
    | some m => decide (m + 16 ≤ s.per.count)
    | none => true

/-- A standby at a mark (R446, R453, R459). -/
def standbyMark (s : State) : State :=
  let m := s.per.count
  let s := updDup s (fun d => { d with
    marks := d.marks + 1, armed := dupCfg s 2 && (d.armed || decide (getN s P.DUP_ARM_COUNT 0 ≤ d.armCount)) })
  let normal := s.belay.state == .normal
  let granted := s.dup.seen && match s.dup.hb with
    | some h => h.handover && h.role == 3
    | none => false
  if granted then dupTake s (m + 2) (if s.dup.yieldReq then 2 else 3)
  else if s.dup.forceTko then dupTake s (m + 1) 2
  else if s.dup.armed && s.dup.missRun == 2 && normal then dupTake s (m + 1) 1
  else if dupCfg s 1 && peerUp s && noActive s then dupPrimary s
  else s

/-- The end of a handover command (R459). -/
def handoverOk (s : State) : State :=
  let done := fun (s : State) (op : Nat) => match opAny? s op with
    | some o => completeOk s o [BitVec.ofNat 32 s.dup.u]
    | none => s
  done (done s 0x90) 0x91

/-- Whether every USED, ACTIVE lane reports the own port. -/
def allOwn (s : State) : Bool := (usedLanes s).all (ownPort s)

/-- A controller that takes over or has control, at a mark (R446, R454, R458, R459). -/
def activeMark (s : State) : State :=
  let own := allOwn s
  let s := if own then causeGone s F.TAKEOVER_FAILED 0 else s
  let s := if own && s.dup.takeover then updDup s (fun d => { d with takeover := false }) else s
  if s.dup.role = .takingOver then
    (if own && s.dup.resumed then handoverOk (updDup s (fun d => { d with role := .active })) else s)
  else if s.dup.demote then raiseFault (dupStandby s) F.PEER_LOST 0
  else match s.dup.giving with
    | some u =>
      if u ≤ s.per.count && (usedLanes s).all (otherPort s) then dupStandby (handoverOk s) else s
    | none => s

/-- A request of the standby grants the handover in the next heartbeat (R459): the last frames are for the period after
the next mark's. -/
def grantMark (s : State) : State :=
  let asked := match s.dup.hb with
    | some h => h.yieldReq && h.role == 1
    | none => false
  if s.dup.role = .active && s.dup.giving.isNone && (asked || (opAny? s 0x91).isSome) then
    let m := s.per.count + 1
    updDup s (fun d => { d with grant := some m, giving := some (m + 2), u := m + 2 })
  else s

/-- The heartbeats' consequences at a mark. -/
def dupMark (s : State) : State :=
  if !paired s then s
  else
    let s := hbMark s
    if s.dup.role = .standby then standbyMark s else grantMark (activeMark s)

/-! ### What a standby applies (R451) -/

/-- A signed number from a word. -/
def wordInt (w : Word) : Int := w.toInt

/-- A generator's mirrored state (R451). -/
def mirrorGen (s : State) (n : Nat) (t : PeerTraj) : State :=
  let k : Kin := ⟨wordInt t.pos, wordInt t.vel, wordInt t.acc⟩
  let m : TrajMove := ⟨wordInt t.end_, t.vMax.toNat, t.aMax.toNat, t.jMax.toNat⟩
  let busy := bit t.status.toNat 0
  let stop := bit t.status.toNat 3
  updGen s n (fun g =>
    let g := { g with queue := [] }
    if !busy then { genFrom g ⟨k.p, 0, 0⟩ s.tick [] with
        cur := none, pend := .none, blending := false, decided := false, overshoot := false, stopping := false }
    else if stop then { genFrom g k s.tick (velSegs k.v k.a 0 m.aMax m.jMax) with
        cur := some m, pend := .none, blending := false, decided := false, overshoot := false, stopping := true }
    else genPlan g k s.tick m)

/-- The mirrored state of an arm: R148 and R149 act on it. -/
def mirrorArm (s : State) (a : Nat) (deb : Bool) : State :=
  let x := armOf s a
  if deb && !x.deblocked then
    updArm s a (fun x => { x with deblocked := true, firstDeb := s.per.count + s.per.lat - 1 })
  else if !deb && x.deblocked then blockArms s (2 ^ a)
  else s

/-- A mirrored cleat entry (R451), HELD or RELEASE_PENDING: maintenance use only; an own fault use stays. -/
def mirrorCleat (s : State) (e : Nat) (w : Word) : State :=
  let v := w.toNat
  let own := cleatOf s e
  let maint := field v 13 12 != 0 && !bit v 16
  if own.st != .free && own.fault then s
  else if !maint then updCleat s e (fun _ => CleatEntry.empty)
  else
    let ovr : Override := match field v 15 14 with
      | 2 => .forceBlock
      | 3 => .holdState
      | _ => .forceBypass
    let c := field v 11 0
    let x := heldEntry s e c ovr false own.act s.per.count
    let x := if field v 13 12 = 1 then x else { x with st := .pending, freeAt := s.per.count + s.per.lat - 1 }
    updCleat s e (fun _ => if own.st = x.st ∧ own.cell = c ∧ own.ovr = ovr then own else x)

/-- A mirrored activity (R451). Its costs are in no frame: an activity the host admitted nowhere here has none (log
entry 33). -/
def mirrorAct (s : State) (i : Nat) (w : Word) : State :=
  let v := w.toNat
  let st := field v 27 26
  let own := tabGet Activity.empty s.cleat.acts i
  if st = 0 then updAct s i (fun _ => Activity.empty)
  else
    let id := field v 15 0
    updAct s i (fun _ =>
      { id := id, declared := field v 20 16, costs := if own.id = id then own.costs else []
        ending := if st = 2 then some (own.ending.getD 2) else none })

/-- The mirrored exclusion marks of 192 cells (R449, R451). -/
def mirrorExcl (s : State) (m : Nat) (l : List (BitVec 4)) : State :=
  l.zipIdx.foldl (fun s p =>
    let c := 192 * (m % 16) + p.2
    let v := p.1.toNat
    putN s P.CLT_EXCLUDE c (if v = 0 then 0 else (tabGet Activity.empty s.cleat.acts (v - 1)).id)) s

/-- The standby's own period numbers when it takes another count (R451, log entry 33): a new epoch starts at the mark,
and what is kept by period number starts anew. -/
def takeCount (s : State) (n : Nat) : State :=
  if n = s.per.count then s
  else
    let s := { s with per := { s.per with count := n, epochStart := n, boundary := none } }
    let s := armList.foldl (fun s a => updArm s a (fun x => { x with
      iHist := [], pass := none, ready := false, plans := [], firstDeb := min x.firstDeb n, blockFrom := min x.blockFrom n })) s
    let s := { s with
      cells := tabMap Cell.empty (fun _ x => { x with vMark := n, lastRep := n, silent := false, shares := [] }) s.cells
      capWords := [] }
    let s := (List.range 64).foldl (fun s l =>
      if laneActive s l then updLane s l (fun x => { x with
        nextUs := reportFrom (n + 1) l x.div, lastUs := none, divOld := x.div, divFrom := 0 }) else s) s
    (List.range 32).foldl (fun s e => updCleat s e (fun x =>
      if x.st = .free then x else { x with since := min x.since n, freeAt := min x.freeAt (n + s.per.lat - 1) })) s

/-- The cell time a data frame gives at its arrival (R327, R451), in units of 2^-40 ns; the frame's CORR is taken with
half the round-trip delay of the peer link added (log entry 33). -/
def frameTime (f : PeerData) : Int :=
  ((f.markTime.toNat : Int) - 65536) * (nsUnit : Int) + (f.corr.toNat : Int) * (nsUnit : Int) / 16

/-- The difference of two cell times (R325), in units of 2^-40 ns. -/
def timeDiff (a b : Int) : Int :=
  let w : Int := 4294967296 * (nsUnit : Int)
  let d := (a - b).emod w
  if d < w / 2 then d else d - w

/-- Cell time follows the active controller's (R451): the first frame sets it, later ones slew it by at most 1 ns. -/
def slewCell (s : State) (f : PeerData) : State :=
  let d := timeDiff (frameTime f) s.time.cell
  let d := if s.dup.slewed then clampInt d (-(nsUnit : Int)) nsUnit else d
  let c := ((s.time.cell : Int) + d).emod (4294967296 * (nsUnit : Int))
  updDup { s with time := { s.time with cell := c.toNat } } (fun x => { x with slewed := true })

/-- The standby's marks move towards the active controller's by at most 1 tick (R451). The skew is own minus active, in
ticks; how its fraction is rounded the manual leaves open and is free (log entry 33). -/
def slewMark (s : State) (f : PeerData) : State :=
  let own : Int := (s.time.cell : Int) - ((s.tick - s.per.lastMark : Nat) : Int) * tickUnits s
  let d := timeDiff own ((f.markTime.toNat : Int) * (nsUnit : Int))
  let u : Int := 5 * (nsUnit : Int)
  let up := if d.emod u = 0 then 0 else (Config.freeWord s.freeCtr).toNat % 2
  let s := if d.emod u = 0 then s else { s with freeCtr := s.freeCtr + 1 }
  let k := d.fdiv u + (up : Int)
  let next := if 0 < k then s.per.nextMark - 1 else if k < 0 then s.per.nextMark + 1 else s.per.nextMark
  let left := if 0 < k then k - 1 else if k < 0 then k + 1 else 0
  putI { s with per := { s.per with nextMark := max next s.tick } } P.DUP_MARK_SKEW 0 (sat16 left)

/-- A standby applies the last data frame at tick 0 of the mark (R451). -/
def applyData (s : State) : State :=
  match s.dup.role, s.dup.data with
  | .standby, some f =>
    let s := updDup s (fun d => { d with data := none, lastData := some f })
    let m := f.hdr.period.toNat
    let s := takeCount s (m + 1)
    let s := armList.foldl (fun s a => mirrorArm s a (bit f.deb.toNat a)) s
    let s := f.traj.zipIdx.foldl (fun s p => if p.2 < 4 then mirrorGen s p.2 p.1 else s) s
    let s := ledgerWatch (f.activity.zipIdx.foldl (fun s p => if p.2 < 16 then mirrorAct s p.2 p.1 else s) s)
    let s := f.cleat.zipIdx.foldl (fun s p => if p.2 < 32 then mirrorCleat s p.2 p.1 else s) s
    mirrorExcl (cleatWatch (servePendings s.per.count s)) m f.excl
  | _, _ => s

/-- Modes and integrators of the slots from the frame applied at this mark (R451): after R194 has acted on the mirrored
arms, without the entry actions. -/
def applySlots (s : State) (f : Option PeerData) : State :=
  match s.dup.role, f with
  | .standby, some f =>
    let s := f.modes.zipIdx.foldl (fun s p =>
      if p.2 < 16 then updSlot s p.2 (fun x => { x with mode := LoopMode.ofCode p.1.toNat, pend := none }) else s) s
    f.integ.zipIdx.foldl (fun s p =>
      if p.2 < 16 then updSlot s p.2 (fun x => { x with integ := p.1.toInt * 32768 }) else s) s
  | _, _ => s

/-! ### What the controller sends (R447 to R449) -/

/-- `CLT_ENTRY` of an entry (R176). -/
def cltEntry (s : State) (e : Nat) : Nat :=
  let x := cleatOf s e
  let st := match x.st with
    | .free => 0
    | .held => 1
    | .pending => 2
  let ov := match x.ovr with
    | .forceBypass => 1
    | .forceBlock => 2
    | .holdState => 3
  if x.st = .free then 0
  else x.cell + 4096 * st + 16384 * ov + 65536 * b2n x.fault + 2 ^ 17 * b2n x.borrowed + 2 ^ 18 * b2n x.absent
    + 2 ^ 19 * x.arm + 2 ^ 22 * (x.pos % 1024)

/-- `CLT_ACTIVITY` of a slot (R176). -/
def cltActivity (s : State) (i : Nat) : Nat :=
  let a := tabGet Activity.empty s.cleat.acts i
  if a.id = 0 then 0
  else a.id + 65536 * a.declared + 2 ^ 21 * actHeld s a.id + 2 ^ 26 * (if a.ending.isSome then 2 else 1)

/-- The header of the heartbeat for the next mark, or of the data frame of the present one (R448). -/
def dupHeader (s : State) (m : Nat) : PeerHeader :=
  { lane := 0, role := BitVec.ofNat 2 s.dup.role.code, yieldReq := s.dup.yieldReq
    handover := s.dup.grant == some m && s.dup.role == .active, armed := s.dup.armed
    belayNormal := s.belay.state == .normal, period := BitVec.ofNat 32 m }

/-- A generator's section (R449). -/
def dupTraj (s : State) (n : Nat) : PeerTraj :=
  let m := match (genOf s n).cur with
    | some m => m
    | none => ⟨0, 0, 0, 0⟩
  let w := fun (k : Nat) => BitVec.ofNat 32 k
  { pos := getP s P.TRAJ_POS n, vel := getP s P.TRAJ_VEL n, acc := getP s P.TRAJ_ACC n, status := w (trajStatus s n)
    end_ := BitVec.ofInt 32 m.end_, vMax := w m.vMax.toNat, aMax := w m.aMax.toNat, jMax := w m.jMax.toNat }

/-- The digest section (R449, R312). -/
def dupDigests (s : State) : List Word :=
  getP s P.TALLY_CONVERTER 0 :: (List.range 26).map (fun b => getP s P.TALLY_BLOCK b)

/-- The data frame of the present mark (R449). A standby sends only header, a time field of 0 and digests. -/
def dupData (s : State) (dig : Bool) : PeerData :=
  let d := if dig then some (dupDigests s) else none
  let h := dupHeader s s.per.count
  if s.dup.role = .standby then
    { hdr := h, markTime := 0, corr := 0, deb := 0, sneg := 0, modes := [], vref := [], integ := [], traj := []
      cleat := [], activity := [], excl := [], digests := d, crc := 0 }
  else
    let mark := s.time.cell / nsUnit
    let excl := fun (c : Nat) =>
      let id := getN s P.CLT_EXCLUDE c
      match (List.range 16).find? (fun i => id != 0 && (tabGet Activity.empty s.cleat.acts i).id == id) with
      | some i => BitVec.ofNat 4 (i + 1)
      | none => (0 : BitVec 4)
    { hdr := h, markTime := BitVec.ofNat 32 (mark % 4294967296)
      corr := BitVec.ofNat 32 (corrOf s mark (64 + 64 / 50)), deb := BitVec.ofNat 6 (debMask s)
      sneg := BitVec.ofNat 6 (armMask (fun a => decide ((armOf s a).sgn < 0)))
      modes := (List.range 16).map (fun n => BitVec.ofNat 2 (slotOf s n).mode.code)
      vref := armList.map (fun a => BitVec.ofInt 16 (armOf s a).vref)
      integ := (List.range 16).map (fun n => BitVec.ofInt 16 (round15 (slotOf s n).integ))
      traj := (List.range 4).map (dupTraj s), cleat := (List.range 32).map (fun e => BitVec.ofNat 32 (cltEntry s e))
      activity := (List.range 16).map (fun i => BitVec.ofNat 32 (cltActivity s i))
      excl := (List.range 192).map (fun j => excl (192 * (s.per.count % 16) + j)), digests := d, crc := 0 }

/-- The peer frames of the present period: D of this mark, H of the next (R447, R449). Digests follow each whole
millisecond in the first frame in which the sender is not STALE: those of a STALE side are not compared (R312; DEDUCED,
log entry 52). -/
def dupSend (s : State) : State :=
  if !paired s then s
  else if !peerUp s then updDup s (fun d => { d with sentData := none, sentHb := none })
  else
    let ms := s.time.dev / (1000000 * nsUnit)
    let dig := ms != s.dup.digMs && !s.tally.stale
    let f := dupData s dig
    let f := { f with crc := dataCrc f }
    let h := dupHeader s (s.per.count + 1)
    updDup s (fun d => { d with sentData := some f, sentHb := some h, digMs := if dig then ms else d.digMs })

end Sys2Proof.Machine
end

