-- ==== Sys2Proof/Machine/RunOps.lean ====
section
/-! DEFINITION. Leaving RUN and the steps of `POWER_STATE` between the states (R481 to R486, R492). -/

namespace Sys2Proof.Machine

/-- Change the power block. -/
def updPwr (s : State) (f : PwrSt → PwrSt) : State := { s with pwr := f s.pwr }

/-- Turn domains on or off by mask (R481). -/
def domains (s : State) (on off : Nat) : State :=
  updPwr s (fun p => { p with domains := (p.domains ||| BitVec.ofNat 12 on) &&& ~~~(BitVec.ofNat 12 off) })

/-! ### Leaving RUN (R485, R486) -/

/-- No placement is in force any more: cells leave their arms, buffers and passes go (R117, R486). The digest of the
placed topology has changed (R307). -/
def dropPlacement (s : State) : State :=
  let s := { s with
    disc := { s.disc with placed := false, topo := [] }
    cells := tabMap Cell.empty (fun _ x => { x with placed := false }) s.cells }
  let s := armList.foldl (fun s a => updArm s a (fun x => { x with
    pass := none, active := none, written := none, ready := false, fresh := false })) s
  ledgerWatch (tallyFollow (tallyStale s) 2)

/-- Whether a long operation ends when RUN is left (R486). -/
def endsWithRun (o : LongOp) : Bool :=
  [0x10, 0x12, 0x13, 0x20, 0x22, 0x23, 0x37, 0x60, 0x90, 0x91].contains o.op
    || (o.op == 0x11 && o.args.getD 0 0 != 2)

/-- One such operation ends with E_STATE detail 0x0009 (R486); what a scan has measured is kept (R256). -/
def endRunOp (s : State) (o : LongOp) : State :=
  let s := if o.op = 0x12 then dropPlacement s else s
  let s := if o.op = 0x62 then updLeg s o.key (fun l => { l with stBusy := false }) else s
  if o.op = 0x23 then endScan s o.key else completeErr s o ⟨St.state, 9, 0⟩

/-- The operations that end with RUN, in ascending opcode order (R486). -/
def endRunOps (s : State) : State :=
  (sortBy (fun (a b : LongOp) => decide (a.op ≤ b.op)) (s.ops.filter endsWithRun)).foldl endRunOp s

/-- PD6 loses its contents (R481, R485): slots, generators, the cleat with its activities and exclusion marks. Causes
that the cleat held are gone. -/
def dispatchOff (s : State) : State :=
  let marked := (cleatList s).filterMap (fun e => if e.st == .held && e.fault then some e.cell else none)
  let cells := marked ++ s.cleat.pend
  let s := { s with
    loops := LoopSt.reset, cleat := CleatSt.reset, capWords := []
    params := tabFilter (fun k _ => k / 65536 != P.CLT_EXCLUDE) s.params
    cells := tabMap Cell.empty (fun _ x => if x.retire = .done then x else { x with retire := .no }) s.cells
    encs := tabMap EncAxis.empty (fun _ x => { x with hState := .idle, hRev := false, hEnd := .none, hShift := 0, hUndo := none }) s.encs }
  let s := cells.foldl cellCauses s
  ledgerWatch (cleatWatch (armList.foldl cleatFullGone s))

/-- PD5 turns off: a task of ST4 to ST7 is READY again (R485); the planning and intake tasks are dropped. -/
def strandsBOff (s : State) : State :=
  let s := dropTasks s (fun t => decide (t.cls ≤ TC.publish))
  [4, 5, 6, 7].foldl (fun s n =>
    match (strandOf s n).slot with
    | none => s
    | some i =>
      let s := busyAdd s n (taskOf s i).startAt s.tick
      readyTask (updStrand s n (fun x => { x with slot := none, gateAt := s.tick, sram := none })) i) s

/-- The belay suspends monitor and watchdog outside RUN (R413, R414). -/
def belaySuspend (s : State) : State :=
  updBelay s (fun x => { x with
    icmRun := [], icmSt := [], hbGot := 0, hbPrev := none, hbSeen := false, hbMiss := 0, hbOk := false, inserted := false })

/-- RUN is left (R485, R486): the operations end, lanes go DOWN, PD5 to PD10 turn off, the reel stops with cause RUN. -/
def leaveRun (s : State) : State :=
  let s := endRunOps s
  let s := { s with cleat := { s.cleat with acts := [] } }
  let s := (List.range 66).foldl laneOff s
  let s := mtAbort (reelStop (reelSync s) 5)
  let s := strandsBOff (dispatchOff s)
  let s := armList.foldl (fun s a => updArm s a (fun x => { x with
    deblocked := false, firstDeb := 0, blockFrom := 0, pass := none, ready := false, vprev := none, iHist := []
    plans := [], lprev := 0, x0 := 0, dx := 0 })) s
  let s := belaySuspend (domains s 0 0x7E0)
  let s := if paired s then dupStandby s else s
  let s := { s with per := { s.per with running := false, boundary := none } }
  updPwr s (fun p => { p with state := .ready, lanePll := 0, wait := .none })

/-! ### Steps between the states (R483 to R485) -/

/-- The running `POWER_STATE` completes with the state reached (R484). -/
def powerDone (s : State) (w : Nat) : State :=
  match opAny? s 0xC0 with
  | some o => completeOk s o [BitVec.ofNat 32 w]
  | none => s

/-- The running `POWER_STATE` completes with the refusal of R492. -/
def powerFail (s : State) : State :=
  let s := updPwr s (fun p => { p with target := p.state, wait := .none })
  match opAny? s 0xC0 with
  | some o => completeErr s o (notReady 6 (getN s P.PWR_BIST 0))
  | none => s

/-- Replies that still wait for the reply window are held for SPI once PCIe is off (R484). -/
def heldToSpi (l : List (List Word)) (s : State) : State :=
  let ws := l.map (fun r => r.drop 1)
  if ws.isEmpty then s
  else irqSet (updHost s (fun h => { h with spiOut := h.spiOut ++ ws })) 4

/-- READY to LISTEN (R485): PD1, PD3, PD4, PD11 and PCIe turn off, and all they held is lost. PD0 keeps blocks DEV and
PWR, PD2 the SPI port. -/
def toListen (s : State) : State :=
  let h := s.host
  let keep := fun (id : Nat) => id / 256 == 0x00 || id / 256 == 0x02
  let r := { State.reset with
    tick := s.tick, freeCtr := s.freeCtr, pending := s.pending
    params := tabFilter (fun k _ => keep (k / 65536)) s.params
    ops := s.ops.filter (fun o => o.op == 0xC0)
    host := { HostSt.reset with
      spiBuf := h.spiBuf, spiOut := h.spiOut, spi := h.spi, shSpi := h.shSpi, lastGood := h.lastGood, busOut := h.busOut }
    pwr := { s.pwr with state := .listen, wait := .none, corePll := false, lanePll := 0, domains := 5 } }
  heldToSpi h.held r

/-- The belay's supply turns on (R401): TRIPPED with latch POWER_UP, injection held, both trip outputs tripped. -/
def belayOnAt (s : State) : State :=
  updBelay s (fun _ => { BelaySt.reset with
    state := .tripped, inReset := false, latch := 1 })

/-- LISTEN is left upwards: the domains of READY turn on and the core PLL starts (R481, R489). -/
def listenUp (s : State) : State :=
  updPwr (belayOnAt (domains s 0x81F 0)) (fun p => { p with wait := .corePll })

/-- Whether BIST has run and found a failure other than a strand's (R492). -/
def bistFailed (s : State) : Bool :=
  let b := getN s P.PWR_BIST 0
  (bit b 0 && !bit b 1) || (bit b 7 && !bit b 8)

/-- The 2 ms test before the first RUN after BIST (R492), or entry at once; the caller enters RUN when nothing is left
to wait for. -/
def lanePllsOk (s : State) : Bool :=
  let en := getN s P.PWR_LANE_EN 0
  (List.range 4).all (fun q => !bit en q || bit s.pwr.lanePll.toNat q)

/-- READY is left upwards (R482, R485): PD5, PD6 and the enabled lane domains turn on. -/
def readyUp (s : State) : State :=
  if bistFailed s then powerFail s
  else
    let en := getN s P.PWR_LANE_EN 0 % 16
    updPwr (domains s (0x60 + 128 * en) 0) (fun p => { p with wait := .lanePll })

/-- The controller has reached READY or LISTEN: the command completes, or the next step towards its target begins
(R484). Entry to RUN itself waits for its locks. -/
def powerNext (s : State) : State :=
  let s := match s.pwr.state, s.pwr.target with
    | .ready, .listen => toListen s
    | .ready, .dormant => toListen s
    | _, _ => s
  match s.pwr.state, s.pwr.target with
  | .listen, .listen => powerDone s 1
  | .listen, .dormant => updPwr (powerDone s 0) (fun p => { p with wait := .dormant (s.tick + 2000000) })
  | .listen, _ => listenUp s
  | .ready, .ready => powerDone s 2
  | .ready, .run => readyUp s
  | .run, .run => powerDone s 3
  | .run, _ => updPwr s (fun p => { p with wait := .leaveRun })
  | _, _ => s

end Sys2Proof.Machine
end

