-- ==== Sys2Proof/Machine/PeriodMark.lean ====
section
/-! DEFINITION. The period mark (R73): everything that happens at it, in order, and the entry to RUN at mark 0 (R493). -/

namespace Sys2Proof.Machine

/-! ### Epoch, period and latency (R74 to R91) -/

/-- The largest residual of an epoch is published at its end (R103). -/
def residPublish (s : State) (a : Nat) : State :=
  let x := armOf s a
  let s := putN (putN s P.BAL_RESID_MAX a x.residMax) P.BAL_RESID_CELL a
    (if x.residCell = 0 then 0xFFFF else x.residCell - 1)
  let s := if x.residNote then s else causeGone s F.PRED_RESIDUAL a
  updArm s a (fun x => { x with residMax := 0, residCell := 0, residNote := false })

/-- The period and effective epoch from the committed values (R76). A recomputation that finds the epoch still stretched
sets the flag again and does not raise the fault again while its cause is held (DESIGN CHOICE, log entry 43). -/
def setEff (s : State) : State :=
  let p := getN s P.PER_PERIOD 0
  let ep := getN s P.PER_EPOCH 0
  let e := effOf ep p s.per.minEpoch
  let s := { s with per := { s.per with per := p, eff := e } }
  let s := if ep < e then orP s P.PER_CHANGE 0 4 else s
  causeSet s F.EPOCH_STRETCHED 0 (decide (ep < e))

/-- The command latency from the committed period and the placement (R79, R91). -/
def setLatency (s : State) : State :=
  let l := latencyOf s.per.per (placedCount s)
  if l = s.per.lat then s
  else orP { s with per := { s.per with lat := l } } P.PER_CHANGE 0 1

/-- The report divisor of an ACTIVE cell lane (R85, R88): reports of the marks before this one keep the old divisor. -/
def setDiv (s : State) (l : Nat) : State :=
  let x := laneOf s l
  let d := divOf x.gen (popcount x.mask) s.per.per
  if x.st ≠ .active || x.div = d then s
  else
    let s := updLane s l (fun x => { x with
      div := d, divOld := x.div, divFrom := s.per.count
      nextUs := if x.nextUs < s.per.count then x.nextUs else reportFrom s.per.count l d })
    orP s P.PER_CHANGE 0 2

/-- Period, effective epoch, latency and divisors are recomputed (R76, R79, R88). -/
def recompute (s : State) : State := (List.range 64).foldl setDiv (setLatency (setEff s))

/-- What follows a change of L (R84): from 2 to 3 the period without commands is computed as BLOCK; after either change
the next reference has no predecessor. -/
def latencyChange (s : State) (old : Nat) : State :=
  if s.per.lat = old then s
  else if old < s.per.lat then capCompute (armNoRefs s) (s.per.count + 2)
  else armList.foldl (fun s a => updArm s a (fun x => { x with vprev := none })) s

/-- CG_PERIOD at its boundary (R57, R78, R91). -/
def periodBoundary (s : State) : State :=
  if groupArmed s 1 0 then
    recompute (orP { applyGroup s 1 0 with per := { (applyGroup s 1 0).per with boundary := none } } P.PER_CHANGE 0 8)
  else s

/-- A group that applies at this mark if it is armed (R55). -/
def groupAt (code t : Nat) (s : State) : State := if groupArmed s code t then applyGroup s code t else s

/-- An epoch start (R74, R78, R103): the count, the published residuals, CG_PERIOD at its boundary, CG_BUD. Where a
`PLACE` has changed the effective epoch, the epoch in progress ends the new number of periods after its start, or at
the next mark if that has passed (DESIGN CHOICE, log entry 43). -/
def epochMark (s : State) : State :=
  let m := s.per.count
  if m = 0 ∨ m < s.per.epochStart + s.per.eff then s
  else
    let s := { s with per := { s.per with epochs := s.per.epochs + 1, epochStart := m } }
    let s := armList.foldl residPublish s
    let s := match s.per.boundary with
      | some b => if b ≤ m then periodBoundary s else s
      | none => s
    groupAt 6 0 s

/-! ### What is due at a mark -/

/-- Tasks whose deadline mark has come are abandoned (R224); one that still waits for a slot is dropped. -/
def tasksLate (s : State) : State :=
  let m := s.per.count
  let late : Task → Bool := fun t => match t.deadline with
    | some d => decide (d ≤ m)
    | none => false
  let gone := s.str.waiting.filter (fun p => late p.2)
  let s := { s with str := { s.str with waiting := s.str.waiting.filter (fun p => !late p.2) } }
  let s := gone.foldl (fun s p => cancelSucc 8 (incP s P.STR_DEADLINE_MISS p.2.cls) p.2.succ) s
  let hit := s.str.slots.filter (fun p => p.2.cls != TC.free && late p.2)
  hit.foldl (fun s p => if late (taskOf s p.1) then abandonTask s p.1 else s) s

/-- WAITING tasks whose release mark has come are READY (R220). -/
def tasksRelease (s : State) : State :=
  let m := s.per.count
  let hit := s.str.slots.filter (fun p => p.2.cls != TC.free && p.2.st == .waiting && match p.2.release with
    | some r => decide (r ≤ m)
    | none => false)
  let s := if hit.any (fun p => p.2.cls == TC.arb) then arbLate s else s
  hit.foldl (fun s p => readyTask s p.1) s

/-- RELEASE_PENDING entries whose mark has come are FREE (R161). -/
def cleatDue (s : State) : State :=
  if (cleatList s).any (fun e => e.st == .pending && decide (e.freeAt ≤ s.per.count)) then freeCleats s s.per.count else s

/-- The INTAKE tasks of a mark (R216, R297): one for each group of 8 strings of the frame-builder order with an ACTIVE
lane (log entry 12). -/
def intakeTasks (s : State) : State :=
  (List.range 8).foldl (fun s g =>
    let ls := (s.per.order.drop (8 * g)).take 8
    match ls.find? (laneActive s) with
    | some l => createTask s (newTask TC.intake l 0 0 [] none (some (s.per.count + 1)))
    | none => s) s

/-! ### Lanes at a mark (R243, R249) -/

/-- The period whose schedule or pacing check fails for a lane that would reach ACTIVE (R77, R82, R243). -/
def entryBadPeriod (s : State) (l gen : Nat) : Nat :=
  let p := s.per.per
  let ok := (gen != 1 || decide (400 ≤ p)) && (decide (64 ≤ l) || schedCloses s p s.per.lat (some (l, gen)))
  if ok then (stagedP s P.PER_PERIOD 0).getD p else p

/-- A lane that waits for its mark reaches ACTIVE, or its bring-up fails (R243). -/
def laneEntry (s : State) (l : Nat) : State :=
  let x := laneOf s l
  if !x.awaiting then s
  else if entryChecks s l x.gen then enterActive s l x.gen
  else bringupFail s l 3 (fun _ => ⟨St.range, 0x0801, entryBadPeriod s l x.gen⟩)

/-- A running loop sends one test frame in each period (R253), a far-end loop once its bring-up stages are over. -/
def loopFrame (s : State) (l : Nat) : State :=
  match (laneOf s l).loopRun with
  | some r =>
    if s.tick < r.due && r.stage == .loop then
      let x := laneOf s l
      let n := popcount x.mask
      let q := testFrame (l % 64) n x.selPort (divCode (divOf r.gen n s.per.per)) ((s.per.count + 1) % 4294967296) r.prbs
      updLane s l (fun x => { x with loopRun := some { r with sent := r.sent + 1, prbs := q.2, last := some q.1 } })
    else s
  | none => s

/-- Lanes at a mark: requested retirements, frames of loops, then entries to ACTIVE. -/
def laneMarks (s : State) : State :=
  let s := (List.range 66).foldl loopFrame s
  let s := (List.range 66).foldl (fun s l => if (laneOf s l).retireReq then retireLane s l else s) s
  (List.range 66).foldl laneEntry s

/-! ### Takeover at a mark (R456, R458) -/

/-- Whether every placed cell on an ACTIVE lane has been reported since u (R456). -/
def resumeReady (s : State) : Bool :=
  (s.dup.role == .takingOver || s.dup.role == .active) && !s.dup.resumed && decide (s.dup.u < s.per.count)
    && (placedCells s).all (fun p => !laneActive s (laneOfCell p.1) || p.2.applied)

/-- Dispatch resumes with the period computed at mark `m` (R456): arms of the last data frame are deblocked, but for
those an own REACTED entry acts on; levels are those of the reported states. -/
def resumeAt (s : State) (m : Nat) : State :=
  let q := m + s.per.lat - 1
  let deb := match s.dup.lastData with
    | some f => f.deb.toNat
    | none => 0
  let s := armList.foldl (fun s a =>
    let on := bit deb a && (reactedOn s (2 ^ a)).isNone
    let lev := sumInt ((armCells s a).map (fun p => p.2.st.pol))
    updArm s a (fun x => { x with
      deblocked := on, firstDeb := if on then q - 1 else x.firstDeb, lprev := if on then lev else 0 })) s
  updDup s (fun d => { d with resumed := true, q := q })

/-- Dispatch has not resumed `DUP_RESUME_MAX` periods after u (R456). -/
def resumeLate (s : State) : State :=
  let d := s.dup
  if (d.role = .takingOver ∨ d.role = .active) ∧ !d.resumed ∧ !d.failedRes
      ∧ d.u + getN s P.DUP_RESUME_MAX 0 ≤ s.per.count then
    raiseFault (updDup s (fun d => { d with failedRes := true })) F.TAKEOVER_FAILED 0
  else s

/-- The handover commands end with E_TIMEOUT (R459). -/
def handoverLate (s : State) : State :=
  [0x90, 0x91].foldl (fun s op => match opAny? s op with
    | some o => completeErr s o ⟨St.timeout, 1, elapsedUs s o⟩
    | none => s) s

/-- The end of the takeover window (R458), and of the window of a handover given away (R459, log entry 33). -/
def windowEnd (s : State) : State :=
  let w := getN s P.DUP_TKO_WINDOW 0
  if s.dup.role = .takingOver ∧ s.dup.u + w ≤ s.per.count then
    let s := handoverLate s
    if (usedLanes s).any (ownPort s) then
      raiseFault (updDup s (fun d => { d with role := .active })) F.TAKEOVER_FAILED 0
    else dupStandby s
  else match s.dup.role, s.dup.giving with
    | .active, some u =>
      if u + w ≤ s.per.count then
        handoverLate (updDup s (fun d => { d with giving := none, grant := none, demote := false, u := 0 }))
      else s
    | _, _ => s

/-- The duplex block at a mark (R446 to R459). -/
def dupMarks (s : State) : State :=
  if !paired s then s
  else
    let s := dupMark s
    let s := if resumeReady s then resumeAt s s.per.count else s
    windowEnd (resumeLate s)

/-! ### The reel at a mark (R465, R466, R473) -/

/-- The value of a channel that is delivered once per mark (R466). -/
def reelMarkVal (s : State) (code : Nat) : Int :=
  if field code 11 8 = 10 then
    srcConvert (bit code 12) (bit code 13) (bitsOf 16 (getI s P.CAP_LEVEL (field code 7 0)))
  else srcVal s code

/-- A capture with START_MARK begins; masks with the mark as reference start anew; channels of kinds other than 1 are
sampled. -/
def reelMark (s : State) : State :=
  if !reelRuns s then s
  else
    let s := if s.reel.tick0.isNone then
        reelForm (updReel s (fun x => { x with
          tick0 := some s.tick, t0 := s.time.dev, lastWrite := s.tick, lines := reelLines s })) (specialRec 0 0 0)
      else s
    let s := if s.reel.mark0.isNone && (reelNow s).isSome then
        updReel s (fun x => { x with mark0 := some s.per.count })
      else s
    (List.range 64).foldl (fun s c =>
      let code := reelCfg s (288 + c) % 16384
      let k := field code 11 8
      if k = 0 || k = 1 then s else reelSample s c false (reelMarkVal s code) 0) (reelRef s 0)

/-! ### The mark -/

/-- Measurement and machine inputs at a mark. -/
def senseMark (s : State) (p0 p1 : List Nat) : State :=
  let m := s.per.count
  let s := adcMark s m
  let s := decMark (plausMark s m)
  let s := encMark (encMark s 0) 1
  let s := trajAdvance (chopMark s)
  let s := homeSearchDone (homeSearchDone s 0) 1
  pulseMark (pulseMark s 0 p0) 1 p1

/-- Planning at a mark: currents, the membership test, task releases, and at a latch mark the latch and the next
passes. `per` is the length of the period that ends. -/
def planMark (s : State) (per : Nat) : State :=
  let s := mtStartMark (mtCharge (armSamples s per) per)
  let s := if s.disc.mt.st = 1 ∧ s.disc.mt.from_ + s.disc.mt.win ≤ s.per.count then mtEnd s else s
  let s := tasksRelease s
  let s := if isLatch s then
      let s := latchMark s
      passStarts (updBelay s (fun x => { x with icmFrom := 0 }))
    else s
  intakeTasks s

/-- The loop engine at a mark (R181 to R198); `f` is the peer frame applied at it. -/
def loopMark (s : State) (f : Option PeerData) : State :=
  let s := (List.range 16).foldl loopBoundary s
  runSlots (applySlots (loopModes s) f)

/-- The work of the mark that has come: `per` is the length of the period that ends, `lat` the latency before it. -/
def markWork (s : State) (per : Nat) (p0 p1 : List Nat) : State :=
  let f := s.dup.data
  let s := applyData s
  let s := cleatDue (tasksLate s)
  let lat := s.per.lat
  let s := groupAt 4 1 (groupAt 4 0 (epochMark s))
  let s := { s with per := { s.per with lastMark := s.per.nextMark, nextMark := s.per.nextMark + s.per.per } }
  let s := traceEvent s 8 0 0 0 0 (s.per.count % 512)
  let s := laneMarks (dupMarks s)
  let s := hbCheck s
  let s := planMark (senseMark s p0 p1) per
  let s := loopMark (reelMark s) f
  let p := s.per.count + lat - 1
  let s := capCompute (armRefs s p) p
  let s := icmMark (sendFrames lat per s)
  dupSend (latencyChange s lat)

/-- The mark is counted (R73). -/
def countMark (s : State) : State := { s with per := { s.per with count := s.per.count + 1 } }

/-- The next mark comes: what its period still owes, the count, and the mark's work or the end of RUN (R485). -/
def nextMark (s : State) (p0 p1 : List Nat) : State :=
  let per := s.per.nextMark - s.per.lastMark
  let s := countMark (periodEnd s)
  if s.pwr.wait = .leaveRun then powerNext (leaveRun s) else markWork s per p0 p1

/-- A period mark (R73): `pulse0` and `pulse1` tell how many ticks before it each rising edge of `PULSE0` and `PULSE1`
came. -/
def execPeriodMark (pulse0 pulse1 : List Nat) (s : State) : Host.Outcome State Fault Refusal := whenClocked s <|
  ends (if s.per.running then nextMark s pulse0 pulse1 else s)

/-! ### Entry to RUN (R493) -/

/-- What starts anew with RUN: counts, cells' running marks, tasks, supervision windows. -/
def runReset (s : State) : State :=
  let s := { s with
    per := { s.per with running := true, count := 0, epochs := 0, epochStart := 0, lastMark := s.tick, nextMark := s.tick
                        boundary := none }
    time := { s.time with cell := s.time.dev % (4294967296 * nsUnit) }
    loops := LoopSt.reset
    cells := tabMap Cell.empty (fun _ x =>
      { x with vMark := 0, lastRep := 0, silent := false, shares := [], st := .block, applied := false, wasHeld := false }) s.cells }
  let s := armList.foldl (fun s a => updArm s a (fun x => { x with
    deblocked := false, firstDeb := 0, blockFrom := 0, pass := none, vprev := none, iHist := [], plans := [], lprev := 0 })) s
  let s := (List.range 2).foldl (fun s n => updEnc s n (fun x => { x with illFrom := s.tick, illRun := 0, illHit := false })) s
  let s := (List.range 8).foldl (fun s n =>
    causeGone (updStrand s n (fun x => { x with offline := bit (getN s P.PWR_BIST 0) (16 + n) })) F.STRAND_FAULT n) s
  let s := armList.foldl (fun s a => putN s P.BAL_PASS_TICKS a 0) s
  let s := putN (putN s P.ADC_CAL_STATE 0 0) P.ADC_CAL_STATE 1 0
  let s := updMeas s (fun m => { m with plOpen := [], plCmp := [] })
  let s := (List.range 2).foldl (fun s a => updAdc s a (fun x => { x with lastRes := [] })) s
  let s := (List.range 4).foldl (fun s n => updLeg s n (fun l => { l with stDone := false, stPass := false, stSteps := 0 })) s
  (List.range 48).foldl (fun s t => putN s P.ADC_LATEST t (getN s P.ADC_LATEST t &&& 0xEFFFFFFF)) s

/-- RUN is entered (R483, R486, R493): mark 0 falls in this tick, armed groups apply, cell time is set, the decimator's
grid starts, the role follows `DUP_CFG`. -/
def enterRun (s : State) : State :=
  let s := updPwr s (fun p => { p with state := .run, wait := .none })
  let s := periodBoundary (runReset s)
  let s := decSyncAt (groupAt 6 0 s) s.tick
  let s := markWork (dupEnter s) s.per.per [] []
  powerNext s

end Sys2Proof.Machine
end

