-- ==== Sys2Proof/Machine/Duplex.lean ====
section
/-! DEFINITION. The rows of duplex operation (R445 to R463): peer frames, the ends of a takeover's windows, the
handover commands. -/

namespace Sys2Proof.Machine

/-! ### Peer frames (R447, R451) -/

/-- A heartbeat arrives on PEER0 or PEER1 (R447): with a correct CRC it counts, and the copy on the other lane only
tells that this lane works too; without, it is discarded, which is a lane error as on a cell lane (R245, R257). -/
def execPeerHeartbeat (header : PeerHeader) (s : State) (crc : Word := 0) : Host.Outcome State Fault Refusal := whenClocked s <|
  let l := header.lane.val
  let b := BitVec.ofNat 2 (2 ^ l)
  if !laneActive s (64 + l) then ends s
  else if crc ≠ hbCrc header then ends (laneError s (64 + l))
  else if !paired s then ends s
  else if s.dup.gotMark = some header.period.toNat then ends (updDup s (fun d => { d with hbOk := d.hbOk ||| b }))
  else ends (updDup s (fun d => { d with hb := some header, gotMark := some header.period.toNat, hbOk := b }))

/-- The digests of a data frame (R312): the peer's converter tally and blocks. -/
def peerDigests (s : State) (f : PeerData) : State :=
  match f.digests with
  | none => s
  | some l =>
    tallyFollow { s with tally := { s.tally with peer := some l, peerAt := s.tick } } 1

/-- Whether a data frame of a period has been taken already. -/
def dataTaken (s : State) (f : PeerData) : Bool :=
  let same := fun (o : Option PeerData) => match o with
    | some g => g.hdr.period == f.hdr.period
    | none => false
  same s.dup.data || same s.dup.lastData

/-- A data frame arrives (R451): a standby keeps the active controller's until tick 0 of the next mark, and follows its
time; every controller takes the digests. A frame without a correct CRC is discarded: a lane error (R245, R257). -/
def execPeerDataFrame (frame : PeerData) (s : State) : Host.Outcome State Fault Refusal := whenClocked s <|
  if !laneActive s (64 + frame.hdr.lane.val) then ends s
  else if frame.crc ≠ dataCrc frame then ends (laneError s (64 + frame.hdr.lane.val))
  else if !paired s then ends s
  else
    let fromActive := frame.hdr.role == 3 || frame.hdr.role == 2
    let s := if s.dup.role = .standby && fromActive && !dataTaken s frame then
        let s := slewCell s frame
        let s := if s.per.running then slewMark s frame else s
        updDup s (fun d => { d with data := some frame })
      else s
    ends (peerDigests s frame)

/-! ### The ends of a takeover (R456, R458) -/

/-- Dispatch resumes (R456): every placed cell on an ACTIVE lane has been reported since u, and the next mark computes
the first normal period. -/
def execDispatchResume (s : State) : Host.Outcome State Fault Refusal := whenClocked s <|
  let next := { s with per := { s.per with count := s.per.count + 1 } }
  if s.per.running && paired s && resumeReady next then ends (resumeAt s (s.per.count + 1)) else ends s

/-- `DUP_RESUME_MAX` periods have passed since u without resumption (R456). -/
def execResumeTimeout (s : State) : Host.Outcome State Fault Refusal := whenClocked s <|
  if paired s && s.dup.takeover && !s.dup.resumed then
    ends (atMark s (s.dup.u + getN s P.DUP_RESUME_MAX 0) (fun s =>
      if s.dup.failedRes then s
      else raiseFault (updDup s (fun d => { d with failedRes := true })) F.TAKEOVER_FAILED 0))
  else ends s

/-- The effect of the window's end at its mark (R458): the counts are taken as of that mark. -/
def windowEndAt (s : State) (m : Nat) : State :=
  let c := s.per.count
  let t := windowEnd { s with per := { s.per with count := max c m } }
  { t with per := { t.per with count := c } }

/-- `DUP_TKO_WINDOW` periods have passed since u (R458, R459). -/
def execTakeoverWindowEnd (s : State) : Host.Outcome State Fault Refusal := whenClocked s <|
  if paired s then
    let w := getN s P.DUP_TKO_WINDOW 0
    match s.dup.role, s.dup.giving with
    | .takingOver, _ => ends (atMark s (s.dup.u + w) (fun t => windowEndAt t (s.dup.u + w)))
    | .active, some u => ends (atMark s (u + w) (fun t => windowEndAt t (u + w)))
    | _, _ => ends s
  else ends s

/-! ### Handover by command (R459) -/

/-- The refusal while the peer's blocks differ (R459): the lowest differing block's entity code. -/
def peerTallyErr (s : State) : Option CmdErr :=
  if (fltFind s F.TALLY_MISMATCH 1).isSome then some (notReady 5 (0x3000 + (peerBad s).headD 0)) else none

/-- The refusal of a wrong role (R47, R459). -/
def roleErr (s : State) (want : Role) : Option CmdErr :=
  errIf (s.dup.role != want) St.state 5 (if s.dup.role = .standby then 0 else 1)

/-- `TAKEOVER`'s checks and effect (R459). -/
def takeoverBody (c : Cmd) (s : State) : Res :=
  Res.check (firstErr
    [ if paired s then none else some (notReady 0 0), roleErr s .standby, busyErr (opAny? s 0x90), peerTallyErr s,
      errIf (s.belay.state != .normal) St.state 0xA 0 ])
    (.accepted (startOp s 0x90 0 c []) (fun s =>
      if 2 ≤ s.dup.missRun then updDup s (fun d => { d with forceTko := true })
      else updDup s (fun d => { d with yieldReq := true })))

/-- The row of `TAKEOVER`. -/
def spTakeover : CmdSpec := { cmdSpec 0x90 0 0 false true with long := true }

/-- `TAKEOVER` (R459). -/
def execTakeover (c : Cmd) (s : State) : Host.Outcome State Fault Refusal :=
  ends (runCmd spTakeover none takeoverBody c s)

/-- Whether an armed standby is seen (R459). -/
def armedStandby (s : State) : Bool :=
  s.dup.seen && match s.dup.hb with
    | some h => h.role == 1 && h.armed
    | none => false

/-- Whether the peer's belay was NORMAL in its last heartbeat. -/
def peerNormal (s : State) : Bool :=
  match s.dup.hb with
  | some h => h.belayNormal
  | none => false

/-- `SWITCHBACK`'s checks and effect (R459): the grant follows at the next mark. -/
def switchbackBody (c : Cmd) (s : State) : Res :=
  Res.check (firstErr
    [ if paired s then none else some (notReady 0 0), roleErr s .active, busyErr (opAny? s 0x91),
      if armedStandby s then none else some (notReady 0 0), peerTallyErr s,
      errIf (!peerNormal s) St.state 0xA 0 ])
    (.accepted (startOp s 0x91 0 c []) id)

/-- The row of `SWITCHBACK`. -/
def spSwitchback : CmdSpec := { cmdSpec 0x91 0 0 false true with long := true }

/-- `SWITCHBACK` (R459). -/
def execSwitchback (c : Cmd) (s : State) : Host.Outcome State Fault Refusal :=
  ends (runCmd spSwitchback none switchbackBody c s)

/-! ### Read-back (R463) -/

/-- `DUP_STATUS` (R463). -/
def dupStatus (s : State) : Nat :=
  let d := s.dup
  let h := match d.hb with
    | some h => 16 * h.role.toNat + 64 * b2n h.belayNormal
    | none => 0
  let un := ((List.range 64).filter (fun l => (laneOf s l).used && !ownPort s l)).length
  b2n d.seen + 2 * b2n d.armed + 4 * d.hbOk.toNat + h + 128 * d.cause + 1024 * min d.missRun 63
    + 65536 * (if d.role = .solo then 0 else un)

end Sys2Proof.Machine
end

