-- ==== Sys2Proof/Machine/Fairlead.lean ====
section
/-! DEFINITION. The fairlead's events (R219 to R225), `TRACE_READ` (R230) and patch images (R232, R233). -/

namespace Sys2Proof.Machine

/-- Placement of ready tasks on free strands (R222). -/
def execTaskPlace (s : State) : Host.Outcome State Fault Refusal := whenClocked s <| ends (placeTasks s)

/-- Whether a deadline mark has come (R224): a completion in the tick of the mark is late. -/
def deadlinePast (s : State) (d : Option Nat) : Bool :=
  match d with
  | none => false
  | some m => decide (m ≤ s.per.count) || (decide (m = s.per.count + 1) && decide (s.per.nextMark ≤ s.tick))

/-- A task has signalled completion in time (R219): its effect, its slot and strand free, its successors decremented. -/
def taskDone (s : State) (n i : Nat) (t : Task) : State :=
  let s := traceTask s 2 i t n
  let s := busyAdd s n t.startAt s.tick
  let s := taskEffect s t
  let s := freeTask s i
  let s := t.succ.foldl (fun s p => decTask s p.1) s
  releaseStrand s n

/-- The task on a strand completes (R219, R224). -/
def taskCompleteAt (s : State) (n : Nat) : State :=
  match (strandOf s n).slot with
  | none => s
  | some i =>
    let t := taskOf s i
    let s := advanceTo s t.startAt
    if s.per.running && deadlinePast s t.deadline then abandonTask s i else taskDone s n i t

/-- A task completes on a strand (R219). -/
def execTaskComplete (strand : Fin 8) (s : State) : Host.Outcome State Fault Refusal := whenClocked s <|
  ends (taskCompleteAt s strand)

/-- The deadline mark of a slot's task comes (R224). -/
def execTaskDeadline (slot : Fin 256) (s : State) : Host.Outcome State Fault Refusal := whenClocked s <|
  ends (match (taskOf s slot).deadline with
    | none => s
    | some m => atMark s m (fun s => abandonTask s slot))

/-- The strand watchdog stops a task (R225): the first tick beyond the limit in force when it was placed. -/
def execTaskWatchdog (strand : Fin 8) (s : State) : Host.Outcome State Fault Refusal := whenClocked s <|
  ends (match (strandOf s strand).slot with
    | none => s
    | some i => stopTask (advanceTo s ((taskOf s i).startAt + (taskOf s i).limit + 1)) strand 0)

/-- A strand's SECDED finds an SRAM error: an uncorrectable one stops its task (R225), a corrected one is counted (R226). -/
def execStrandSramError (strand : Fin 8) (s : State) (corrected : Bool := false) : Host.Outcome State Fault Refusal :=
  whenClocked s <| ends (if corrected then incP s P.STR_SRAM_CORR strand else stopTask s strand 1)

/-! ### The trace -/

/-- `TRACE_READ`'s entries (R230): absolute indices, wrapping from 4,095 to 0. -/
def traceWords (s : State) (first n : Nat) : List Word :=
  (List.range n).flatMap (fun j =>
    let e := tabGet (0, 0) s.str.trace ((first + j) % 4096)
    [e.1, e.2])

/-- `TRACE_READ`'s checks and reply (R230). -/
def traceReadBody (c : Cmd) (s : State) : Res :=
  Res.check (firstErr [errIf (decide (4095 < pw c 0)) St.range 0x8000 (pw c 0),
                       errIf (!(decide (1 ≤ pw c 1) && decide (pw c 1 ≤ 508))) St.range 0x8001 (pw c 1)])
    (.ok 0 (traceWords s (pw c 0) (pw c 1)) s)

/-- The row of `TRACE_READ`. -/
def spTraceRead : CmdSpec := { cmdSpec 0xD0 2 2 true true with maxReply := 1016 }

/-- `TRACE_READ` (R230). -/
def execTraceRead (c : Cmd) (s : State) : Host.Outcome State Fault Refusal :=
  ends (runCmd spTraceRead none traceReadBody c s)

/-- `STR_TRACE_POS` (R234). -/
def tracePos (s : State) : Nat := s.str.traceNext + 4096 * b2n s.str.traceWrap + 8192 * b2n s.str.traceFrz

/-- A write of `STR_TRACE_CTRL` (R231): recording stops with a FREEZE entry when RUN is cleared, and restarts when RUN
is written to 1. `old` is the word in force before. -/
def traceCtrl (s : State) (old new : Nat) : State :=
  if bit new 0 then { s with str := { s.str with traceFrz := false } }
  else if bit old 0 then
    putN (traceFreeze (putN s P.STR_TRACE_CTRL 0 old)) P.STR_TRACE_CTRL 0 new
  else s

/-! ### Patch images (R232, R233) -/

/-- Whether a segment is the last: it holds word N − 1 (R233). -/
def patchLast (s : State) (off n : Nat) : Bool :=
  let k := patchLen s
  decide (1 ≤ k) && decide (off ≤ k - 1) && decide (k - 1 < off + n)

/-- A segment is stored; the first of a load deactivates the active image (R233). -/
def patchStore (s : State) (off : Nat) (ws : List Word) : State :=
  let was := getN s P.STR_PATCH_STATE 0
  let s := { s with str := { s.str with patch := tabRun 0 s.str.patch off ws, patchLoad := true } }
  let s := putN (putN s P.STR_PATCH_STATE 0 1) P.STR_PATCH_LEVEL 0 0
  if was = 2 then tallyStale s else s

/-- `FW_PATCH`'s checks and effect (R232, R233). -/
def fwPatchBody (c : Cmd) (s : State) : Res :=
  let ws := c.payload.drop 1
  Res.check (firstErr [busyErr (opAny? s 0xE0),
                       errIf (decide (8192 < pw c 0 + ws.length)) St.range 0x8000 (pw c 0)])
    (let s := patchStore s (pw c 0) ws
     if patchLast s (pw c 0) ws.length then .accepted (startOp s 0xE0 0 c []) id else .done s)

/-- The row of `FW_PATCH`. -/
def spFwPatch : CmdSpec := { cmdSpec 0xE0 2 1020 true false with long := true }

/-- `FW_PATCH` (R232). -/
def execFwPatch (c : Cmd) (s : State) : Host.Outcome State Fault Refusal :=
  ends (runCmd spFwPatch none fwPatchBody c s)

/-- The words of the image in the patch store. -/
def patchImage (s : State) : List Word := tabSlice 0 s.str.patch 0 (patchLen s)

/-- Where firmware is fetched for a ROM entry point (R212, R232): the patch store word its replacement starts at, if the
active image redirects it; none for the ROM itself. -/
def fetchAt (s : State) (entry : Nat) : Option Nat :=
  if getN s P.STR_PATCH_STATE 0 = 2 then
    (((patchImage s).drop 4).take (field ((patchImage s).getD 3 0).toNat 15 0)).findSome? (fun w =>
      if field w.toNat 15 0 = entry then some (field w.toNat 31 16) else none)
  else none

/-- The refusal of an image (R232, R233): MAGIC, length or CRC wrong, or made for another ROM. -/
def patchErr (s : State) : Option CmdErr :=
  let ws := patchImage s
  let n := patchLen s
  let w0 := (ws.getD 0 0).toNat
  if field w0 15 0 ≠ 0x4650 ∨ n < 6 ∨ crcWords (ws.take (n - 1)) ≠ ws.getD (n - 1) 0 then some ⟨St.integrity, 3, 0⟩
  else if ws.getD 1 0 ≠ Config.romVersion then some ⟨St.range, 0x8002, (ws.getD 1 0).toNat⟩
  else none

/-- The image is checked and becomes active, or the load has failed (R233). -/
def patchEnd (s : State) (o : LongOp) : State :=
  let s := { s with str := { s.str with patchLoad := false } }
  match patchErr s with
  | some e => completeErr (putN s P.STR_PATCH_STATE 0 3) o e
  | none =>
    let s := putP (putN s P.STR_PATCH_STATE 0 2) P.STR_PATCH_LEVEL 0 (tabGet 0 s.str.patch 2)
    completeOk (tallyStale s) o []

/-- `FW_PATCH` completes (R233). -/
def execFwPatchDone (s : State) : Host.Outcome State Fault Refusal := whenClocked s <|
  ends (match opAny? s 0xE0 with
    | none => s
    | some o => patchEnd s o)

end Sys2Proof.Machine
end

