-- ==== Sys2Proof/Machine/Flags.lean ====
section
/-! DEFINITION. What a parameter read returns (R14, R29, R62): the status words and flags that are computed from the
state, and the words that are held as they stand. -/

namespace Sys2Proof.Machine

/-- A word from a natural number. -/
def wN (n : Nat) : Word := BitVec.ofNat 32 n

/-- A word from an integer, sign-extended (R519). -/
def wI (x : Int) : Word := BitVec.ofInt 32 x

/-! ### Field maps -/

/-- Whether `INT_N` is driven low (R41): an enabled cause is set. It is released while its domain is off (R481). -/
def intLow (s : State) : Bool := spiOn s && getN s P.HOST_IRQ_CAUSE 0 &&& getN s P.HOST_INT_ENABLE 0 != 0

/-- `PWR_CLK_STATUS` (R494). -/
def clkStatus (s : State) : Nat := b2n s.pwr.onXtal + 2 * b2n s.pwr.corePll + 4 * s.pwr.lanePll.toNat

/-- `ARM_ISIGN` (R98, R99). -/
def armIsign (s : State) (a : Nat) : Nat :=
  let x := armOf s a
  b2n (x.sgn == -1) + 2 * b2n x.region + 4 * b2n x.inHyst + 8 * b2n ((x.sgn == -1) != x.region)

/-- The value of the active buffer's word, 0 without one. -/
def activeVal (s : State) (a : Nat) (f : Buf → Nat) : Nat :=
  match (armOf s a).active with
  | some b => f b
  | none => 0

/-- Whether the retry window of a lane is open (R247). -/
def retryOpen (s : State) (l : Nat) : Bool :=
  match (laneOf s l).retryEnd with
  | some t => decide (s.tick < t)
  | none => false

/-- `LANE_STATE` (R257): the active generation of an ACTIVE lane. -/
def laneState (s : State) (l : Nat) : Nat :=
  let x := laneOf s l
  x.st.code + (if x.st = .active then 16 * x.gen else 0) + 64 * b2n x.pass2
    + (if retryOpen s l then 128 + 256 * (x.retryN % 4) else 0)

/-- `LANE_CAPS` (R242). -/
def laneCaps (s : State) (l : Nat) : Nat :=
  let x := laneOf s l
  x.hubGen + 4 * x.lowGen + 16 * popcount x.mask

/-- `FRM_HUB_STATUS` (R287). -/
def hubStatus (s : State) (l : Nat) : Nat :=
  let x := laneOf s l
  x.actPort + 4 * x.hold + 32 * x.selPort

/-- `FRM_CELL_STATE` (R270). -/
def frmCellState (s : State) (c : Nat) : Nat :=
  match (cellOf s c).report with
  | some r => field r.toNat 23 8 + 65536 * field r.toNat 31 24 + 2 ^ 24
  | none => 0

/-- `FRM_CELL_VCAP` (R269). -/
def frmVcap (s : State) (c : Nat) : Nat :=
  match (cellOf s c).report with
  | some r => field r.toNat 47 32
  | none => 0

/-- The code of a record state (R315). -/
def recCode : RecSt → Nat
  | .none => 0
  | .valid => 1
  | .invalid => 2

/-- `DISC_LANE_CHECK` (R315); the generation at discovery is held in the parameter's own word. -/
def laneCheck (s : State) (l : Nat) : Nat :=
  let x := laneOf s l
  let n := fun (st : RecSt) => ((List.range 48).filter (fun p => (cellOf s (48 * l + p)).idRec == st)).length
  recCode x.hubRec + 4 * n .valid + 256 * n .invalid + 2 ^ 14 * b2n x.used + 2 ^ 15 * b2n x.idFault
    + getN s P.DISC_LANE_CHECK l

/-- `DISC_CELL_STATE` (R315). -/
def discCellState (s : State) (c : Nat) : Nat :=
  let x := cellOf s c
  recCode x.idRec + 4 * b2n x.placed + (if x.placed then 8 * x.arm + 64 * b2n x.fb else 0) + 128 * b2n x.retired
    + 256 * b2n x.cfgFail + 512 * x.mt.verdict + 4096 * x.mt.best + 2 ^ 15 * b2n x.idFault

/-- A board's record. -/
def boardOf (s : State) (b : Nat) : Board := tabGet Board.empty s.disc.boards b

/-- `DISC_BOARD_STATE` (R290, R315). -/
def boardState (s : State) (b : Nat) : Nat :=
  let x := boardOf s b
  recCode x.st + (if x.st = .valid then
    256 * x.bytes.getD 1 0 + 65536 * x.bytes.getD 2 0 + 2 ^ 24 * x.bytes.getD 3 0 else 0)

/-- `DISC_MT_STATUS` (R315). -/
def discMtStatus (s : State) : Nat :=
  let n := fun v => ((placedCells s).filter (fun p => p.2.mt.verdict == v)).length
  s.disc.mt.st + 4 * n 2 + 65536 * n 3

/-- The code of a servo state (R322). -/
def servoCode : Servo → Nat
  | .free => 0
  | .tracking => 1
  | .locked => 2
  | .holdover => 3

/-- `TIME_UNLOCKED_CELLS` (R328): placed cells whose last report carries TIME_UNLOCKED. -/
def unlockedCells (s : State) : List Nat :=
  (placedCells s).filterMap (fun p => match p.2.report with
    | some r => if bit r.toNat 18 then some p.1 else none
    | none => none)

/-- `FLT_REC_POS` (R444). -/
def fltRecPos (s : State) : Nat := s.flt.recNext + 256 * b2n s.flt.recWrap + 65536 * s.flt.recCount

/-- `REEL_STATUS` (R479). -/
def reelStatus (s : State) : Nat :=
  s.reel.state.code + 4 * s.reel.cause + 32 * b2n s.reel.preShort + 64 * b2n s.reel.overflow

/-- `TBUS_LEVEL` (R480): lines recognised low, lines this controller drives. -/
def tbusLevel (s : State) : Nat :=
  sumNat ((List.range 4).map (fun n =>
    2 ^ n * b2n (lineOf s n).low + 2 ^ (n + 4) * b2n (match (lineOf s n).driveTo with
      | some t => decide ((lineOf s n).driveFrom ≤ s.tick ∧ s.tick < t)
      | none => false)))

/-! ### Reads by block -/

/-- DEV, HOST and PWR. -/
def readSys (s : State) (id : Nat) : Option Word :=
  if id = P.DEV_ID then some 0x8064
  else if id = P.DEV_REVISION then some Config.revision
  else if id = P.DEV_ROM_VERSION then some Config.romVersion
  else if id = P.DEV_SERIAL then some Config.serial.1
  else if id = P.DEV_SERIAL + 1 then some Config.serial.2
  else if id = P.HOST_CG_STAGED_MISC then some (wN (groupBits (groupStaged s)))
  else if id = P.HOST_CG_ARMED_MISC then some (wN (groupBits (groupArmed s)))
  else if id = P.HOST_CG_STAGED_LANE then some (wN (groupLaneBits (groupStaged s) 0))
  else if id = P.HOST_CG_STAGED_LANE + 1 then some (wN (groupLaneBits (groupStaged s) 32))
  else if id = P.HOST_CG_ARMED_LANE then some (wN (groupLaneBits (groupArmed s) 0))
  else if id = P.HOST_CG_ARMED_LANE + 1 then some (wN (groupLaneBits (groupArmed s) 32))
  else if id = P.PWR_STATE then some (wN s.pwr.state.code)
  else if id = P.PWR_TARGET then some (wN s.pwr.target.code)
  else if id = P.PWR_DOMAINS then some (wN s.pwr.domains.toNat)
  else if id = P.PWR_CLK_STATUS then some (wN (clkStatus s))
  else none

/-- PER. -/
def readPer (s : State) (id t : Nat) : Option Word :=
  let p := s.per
  if id = P.PER_LATENCY then some (wN p.lat)
  else if id = P.PER_EPOCH_EFF then some (wN p.eff)
  else if id = P.PER_COUNT then some (wN p.count)
  else if id = P.PER_COUNT + 1 then some (wN (p.count / 4294967296))
  else if id = P.PER_EPOCH_COUNT then some (wN p.epochs)
  else if id = P.PER_EPOCH_PHASE then some (wN (p.count - p.epochStart))
  else if id = P.PER_REPORT_DIV then some (wN (laneOf s t).div)
  else if id = P.PER_REPORT_PHASE then some (wN (if (laneOf s t).div = 0 then 0 else t % (laneOf s t).div))
  else if id = P.PER_SCHED_SLACK then some (wI (sat16 (schedSlack s)))
  else if id = P.PER_MIN_EPOCH then some (wN p.minEpoch)
  else none

/-- BAL, CLT and ARM. -/
def readArm (s : State) (id t : Nat) : Option Word :=
  if id = P.BAL_INSERVICE then some (wN (activeVal s t (fun b => b.table.length)))
  else if id = P.BAL_FB_COUNT then some (wN (activeVal s t Buf.nFb))
  else if id = P.BAL_SCALE then some (wN (activeVal s t (fun b => b.scale)))
  else if id = P.BAL_TABLE_EPOCH then some (wN (activeVal s t (fun b => b.epoch)))
  else if id = P.BAL_LIST_LEN then
    some (wN (activeVal s t (fun b => b.plus.length % 4096 + 65536 * (b.minus.length % 4096))))
  else if id = P.CLT_FAULT_FREE then some (wN (cltFaultFree s))
  else if id = P.CLT_MAINT_FREE then some (wN (maintFree s).length)
  else if id = P.CLT_PENDING then some (wN s.cleat.pend.length)
  else if id = P.CLT_ENTRY then some (wN (cltEntry s t))
  else if id = P.CLT_ACTIVITY then some (wN (cltActivity s t))
  else if id = P.ARM_LEDGER then some (wI (armLedger s t))
  else if id = P.ARM_ISIGN then some (wN (armIsign s t))
  else if id = P.ARM_KIND then some (wN (activeVal s t Buf.kind))
  else if id = P.ARM_INSTALLED then some (wN (armInstalled s t))
  else if id = P.ARM_RETIRED then some (wN (armRetired s t))
  else if id = P.ARM_UNAVAIL then some (wN (armUnavail s t))
  else if id = P.ARM_MAINT then some (wN (armMaint s t))
  else none

/-- LOOP, TRAJ and STR. -/
def readLoop (s : State) (id t : Nat) : Option Word :=
  if id = P.LOOP_STATE then some (wN (slotOf s t).mode.code)
  else if id = P.LOOP_INTEG then some (wI (sat16 (round15 (slotOf s t).integ)))
  else if id = P.TRAJ_STATUS then some (wN (trajStatus s t))
  else if id = P.STR_STATUS then some (wN (strStatus s t))
  else if id = P.STR_BUSY then some (wN (busyRead s t))
  else if id = P.STR_TRACE_POS then some (wN (tracePos s))
  else none

/-- LANE, FRM, DISC and TALLY. -/
def readLane (s : State) (id t : Nat) : Option Word :=
  if id = P.LANE_STATE then some (wN (laneState s t))
  else if id = P.LANE_CAPS then some (wN (laneCaps s t))
  else if id = P.FRM_HUB_STATUS then some (wN (hubStatus s t))
  else if id = P.FRM_CELL_STATE then some (wN (frmCellState s t))
  else if id = P.FRM_CELL_VCAP then some (wN (frmVcap s t))
  else if id = P.DISC_PLACED then some (wN (placedCount s))
  else if id = P.DISC_TOPO_CRC then some (if s.disc.placed then s.disc.topo.getD 457 0 else 0)
  else if id = P.DISC_LANE_CHECK then some (wN (laneCheck s t))
  else if id = P.DISC_CELL_STATE then some (wN (discCellState s t))
  else if id = P.DISC_BOARD_STATE then some (wN (boardState s t))
  else if id = P.DISC_MT_STATUS then some (wN (discMtStatus s))
  else if id = P.TALLY_STATUS then some (wN (tallyStatus s))
  else if id = P.TALLY_AT_NEW then some (wN (entCount s cellCodes .atNew))
  else if id = P.TALLY_AT_OLD then some (wN (entCount s cellCodes .atOld))
  else if id = P.TALLY_OTHER then some (wN (entCount s cellCodes .other))
  else if id = P.TALLY_UNKNOWN then some (wN (entCount s cellCodes .unknown))
  else if id = P.TALLY_PEER_CONVERTER then some ((s.tally.peer.getD []).getD 0 0)
  else none

/-- TIME. -/
def readTime (s : State) (id : Nat) : Option Word :=
  if id = P.TIME_NOW then some (wN (devNs s))
  else if id = P.TIME_NOW + 1 then some (wN (devSec s))
  else if id = P.TIME_SEC_HI then some (wN (devSec s / 4294967296 % 65536))
  else if id = P.TIME_CELL_NOW then some (wN (cellNs s))
  else if id = P.TIME_CELL_DELTA then some (wI (((s.time.dev / nsUnit : Nat) : Int) - ((cellNs s : Nat) : Int)))
  else if id = P.TIME_RATE then some (wI s.time.rate)
  else if id = P.TIME_INTEG then some (wI s.time.integ)
  else if id = P.TIME_STATE then some (wN (servoCode s.time.servo))
  else if id = P.TIME_UNLOCKED_CELLS then some (wN (unlockedCells s).length)
  else none

/-- ADC, DEC, ENC and CHOP. -/
def readField (s : State) (id t : Nat) : Option Word :=
  if id = P.ADC_INJ_STATUS then some (wN (injStatus s t))
  else if id = P.ADC_CAL_STATE then some (wN (calState s t))
  else if id = P.ADC_CHAN_FS then some (chanFs s t)
  else if id = P.DEC_STATUS then some (wN (decStatus s t))
  else if id = P.ENC_STATUS then some (wN (encStatus s t))
  else if id = P.ENC_HOME_STATE then some (wN (encHomeState s t))
  else if id = P.CHOP_STATUS then some (wN (chopStatus s t))
  else none

/-- SAFE, FLT, DUP, REEL and TBUS. -/
def readSafe (s : State) (id t : Nat) : Option Word :=
  if id = P.SAFE_STATE then some (wN (safeState s))
  else if id = P.SAFE_LATCH then some (wN (safeLatch s))
  else if id = P.SAFE_SI_STATUS then some (wN (siStatus s t))
  else if id = P.SAFE_ICM_TOL then some (getP s P.ARM_EDGE_MAX t)
  else if id = P.SAFE_SESSION then some (wN (safeSession s))
  else if id = P.SAFE_LOG_STATUS then some (wN (safeLogStatus s))
  else if id = P.FLT_ACTIVE_COUNT then some (wN (fltInUse s))
  else if id = P.FLT_REC_POS then some (wN (fltRecPos s))
  else if id = P.FLT_STATUS then some (wN (fltStatus s))
  else if id = P.FLT_ARM_BLOCKED then some (wN (fltArmBlocked s))
  else if id = P.FLT_GRACE_NEXT then some (wN (fltGraceNext s))
  else if id = P.DUP_ROLE then some (wN s.dup.role.code)
  else if id = P.DUP_STATUS then some (wN (dupStatus s))
  else if id = P.REEL_STATUS then some (wN (reelStatus s))
  else if id = P.REEL_WORDS then some (wN s.reel.words)
  else if id = P.TBUS_LEVEL then some (wN (tbusLevel s))
  else none

/-- A value the block derives from its state, none for a word that is held. -/
def readLive (s : State) (id t : Nat) : Option Word :=
  match id / 256 with
  | 0x00 => readSys s id
  | 0x01 => readSys s id
  | 0x02 => readSys s id
  | 0x08 => readPer s id t
  | 0x10 => readArm s id t
  | 0x13 => readArm s id t
  | 0x14 => readArm s id t
  | 0x18 => readLoop s id t
  | 0x19 => readLoop s id t
  | 0x1C => readLoop s id t
  | 0x20 => readLane s id t
  | 0x21 => readLane s id t
  | 0x24 => readLane s id t
  | 0x25 => readLane s id t
  | 0x28 => readTime s id
  | 0x30 => readField s id t
  | 0x31 => readField s id t
  | 0x34 => readField s id t
  | 0x38 => readField s id t
  | 0x40 => readSafe s id t
  | 0x44 => readSafe s id t
  | 0x48 => readSafe s id t
  | 0x4C => readSafe s id t
  | 0x4D => readSafe s id t
  | _ => none

/-- The word of a parameter's instance, by the ID of the word read (R14, R15): a WO parameter reads 0. -/
def readParam (s : State) (id t : Nat) : Word :=
  match paramDef? id with
  | some d => if d.access = .wo then 0 else (readLive s id t).getD (getP s id t)
  | none => if (paramHigh? id).isSome then (readLive s id t).getD (getP s id t) else 0

end Sys2Proof.Machine
end

