-- ==== Sys2Proof/Machine/Arms.lean ====
section
/-! DEFINITION. `ARM_ENABLE`, `DEBLOCK` and `BLOCK` (R117, R148, R149), with every refusal of `DEBLOCK`. -/

namespace Sys2Proof.Machine

/-- The arms a mask names. -/
def maskArms (m : Nat) : List Nat := armList.filter (fun a => bit m a)

/-- The first arm of a mask without an active table (R117). -/
def noTableErr (s : State) (m : Nat) : Option CmdErr :=
  ((maskArms m).find? (fun a => (armOf s a).active.isNone)).map (fun a => notReady 1 a)

/-- The row of `ARM_ENABLE`. -/
def spArmEnable : CmdSpec := { cmdSpec 0x30 1 1 false true with reserved := [(0, 0xFFFFFFC0)] }

/-- `ARM_ENABLE`'s check; the manual gives the command no effect on any state (log entry 35). -/
def armEnableBody (c : Cmd) (s : State) : Res := Res.check (noTableErr s (pw c 0)) (.done s)

/-- `ARM_ENABLE` (R117). -/
def execArmEnable (c : Cmd) (s : State) : Host.Outcome State Fault Refusal :=
  ends (runCmd spArmEnable none armEnableBody c s)

/-! ### `DEBLOCK` -/

/-- Refusal while an armed group holds a staged stop-only field (R59), or an armed period would change L (R83). -/
def deblockGroupErr (s : State) : Option CmdErr :=
  let lat := match armedPeriod s with
    | some p => latencyOf p (placedCount s) != s.per.lat
    | none => false
  if lat then some ⟨St.state, 7, 1⟩
  else (allGroups.find? (fun g => groupArmed s g.1 g.2 && groupStop s g.1 g.2)).map (fun g => ⟨St.state, 7, g.1⟩)

/-- The lowest placed, non-retired cell of the listed arms that a test finds. -/
def armCell? (s : State) (m : Nat) (p : Nat → Cell → Bool) : Option Nat :=
  ((placedCells s).find? (fun q => bit m q.2.arm && !q.2.retired && p q.1 q.2)).map (fun q => q.1)

/-- Whether a cell's last report carries TIME_UNLOCKED (R328). -/
def timeUnlocked (x : Cell) : Bool :=
  match x.report with
  | some r => bit r.toNat 18
  | none => false

/-- Cells that stand against a `DEBLOCK`: a pending suspicion (R165), no running value (R102), a failed membership
test (R302), a clock that is not locked (R328). -/
def deblockCellErr (s : State) (m : Nat) : Option CmdErr :=
  let err := fun (c : Option Nat) => c.map (fun c => notReady 2 c)
  firstErr
    [ err (s.cleat.pend.find? (fun c => bit m (cellOf s c).arm)),
      err (armCell? s m (fun c x => laneActive s (laneOfCell c) && x.v.isNone)),
      err (((placedCells s).find? (fun q => bit m q.2.arm && q.2.mt.verdict == 3)).map (fun q => q.1)),
      err (armCell? s m (fun _ x => timeUnlocked x)) ]

/-- The lowest ACTIVE cell lane that has not confirmed the controller's own bytes (R283). -/
def deblockLaneErr (s : State) : Option CmdErr :=
  ((List.range 64).find? (fun l => laneActive s l && !(laneOf s l).ownOk)).map (fun l => notReady 3 l)

/-- Whether an entity that has an expectation is not AT_NEW (R311, R313). -/
def notAtNew (s : State) (code : Nat) : Bool := entState s code != .none && entState s code != .atNew

/-- Whether a lane carries a placed, non-retired cell of an arm of a mask (R313). -/
def carriesArm (s : State) (m l : Nat) : Bool := (armCell? s m (fun c _ => laneOfCell c == l)).isSome

/-- The tally guard (R313), with the entity code as DIAG. -/
def deblockTallyErr (s : State) (m : Nat) : Option CmdErr :=
  if getN s P.TALLY_DEBLOCK_GUARD 0 ≠ 1 ∨ s.tally.exp_.isNone then none
  else if convBad s then some (notReady 5 (0x2000 + (ownBad s).headD 0))
  else match armCell? s m (fun c _ => notAtNew s c) with
    | some c => some (notReady 5 c)
    | none =>
      ((List.range 64).find? (fun l => carriesArm s m l && notAtNew s (hubCode l))).map
        (fun l => notReady 5 (hubCode l))

/-- The REACTED entry that acted on a listed arm and is not cleared (R433). -/
def deblockFaultErr (s : State) (m : Nat) : Option CmdErr :=
  (reactedOn (gracesDue s) m).map (fun f => notReady 4 (f.1 + 65536 * (f.2 % 4096)))

/-- The row of `DEBLOCK`. -/
def spDeblock : CmdSpec := { cmdSpec 0x31 1 1 false true with reserved := [(0, 0xFFFFFFC0)] }

/-- Every refusal of `DEBLOCK` (log entry 36 gives their order). -/
def deblockErr (s : State) (m : Nat) : Option CmdErr :=
  firstErr
    [ standbyErr s, errIf (s.belay.state != .normal) St.state 0xA 0, deblockGroupErr s, noTableErr s m,
      deblockFaultErr s m, deblockCellErr s m, deblockLaneErr s, deblockTallyErr s m ]

/-- The arms of a mask are deblocked from period m + L − 1 on, m the next mark (R149). -/
def deblockArms (s : State) (m : Nat) : State :=
  let s := (maskArms m).foldl (fun s a =>
    if (armOf s a).deblocked then s
    else updArm s a (fun x => { x with deblocked := true, firstDeb := nextMarkNo s + s.per.lat - 1 })) s
  mtAbort s

/-- `DEBLOCK`'s checks and effect. -/
def deblockBody (c : Cmd) (s : State) : Res := Res.check (deblockErr s (pw c 0)) (.done (deblockArms s (pw c 0)))

/-- `DEBLOCK` (R149). -/
def execDeblock (c : Cmd) (s : State) : Host.Outcome State Fault Refusal :=
  ends (runCmd spDeblock none deblockBody c s)

/-! ### `BLOCK` -/

/-- The row of `BLOCK`: refused in LISTEN only (R54). -/
def spBlock : CmdSpec := { cmdSpec 0x32 1 1 true true with reserved := [(0, 0xFFFFFFC0)] }

/-- `BLOCK`'s effect. -/
def blockBody (c : Cmd) (s : State) : Res := .done (blockArms s (pw c 0))

/-- `BLOCK` (R148). -/
def execBlock (c : Cmd) (s : State) : Host.Outcome State Fault Refusal := ends (runCmd spBlock none blockBody c s)

end Sys2Proof.Machine
end

