-- ==== Sys2Proof/Machine/Lanes.lean ====
section
/-! DEFINITION. Lane bring-up, faults, loops and eye scans (R238 to R257). -/

namespace Sys2Proof.Machine

/-! ### What holds a lane -/

/-- The power quad of a lane (R481): PEER0 and PEER1 are in Q3. -/
def laneQuad (l : Nat) : Nat := if l < 64 then l / 16 else 3

/-- Whether a lane's power domain is on. -/
def laneOn (s : State) (l : Nat) : Bool := bit s.pwr.domains.toNat (7 + laneQuad l)

/-- Whether a bring-up of a lane runs. -/
def bringupRuns (x : Lane) : Bool :=
  match x.st with
  | .detect => true
  | .train => true
  | .lock => true
  | .caps => true
  | _ => false

/-- The operation that holds a lane (R52, R65, R244, R249): a bring-up, a loop, a scan, or a `DISCOVER` that lists it. -/
def laneHeld (s : State) (l : Nat) : Option CmdErr :=
  busyErr (s.ops.find? (fun o =>
    ((o.op == 0x20 || o.op == 0x22 || o.op == 0x23) && o.key == l)
      || (o.op == 0x10 && bit (o.args.getD 0 0) l)))

/-- An automatic re-bring-up that runs holds the lane with no command (R47, R250). -/
def autoHeld (s : State) (l : Nat) : Option CmdErr :=
  errIf ((laneOf s l).auto && bringupRuns (laneOf s l)) St.conflict 1 0

/-- Refusal while the lane's domain is off (R244). -/
def laneOffErr (s : State) (l : Nat) : Option CmdErr := errIf (!laneOn s l) St.state 1 s.pwr.state.code

/-! ### Bring-up (R240 to R244, R257) -/

/-- The row of `LANE_BRINGUP`. -/
def spLaneBringup : CmdSpec := { cmdSpec 0x20 0 0 false true with target := .below 66, maxReply := 2, long := true }

/-- `LANE_BRINGUP`'s checks and start (R244). -/
def laneBringupBody (c : Cmd) (s : State) : Res :=
  let l := tgt c
  Res.check (firstErr [laneOffErr s l, laneHeld s l])
    (.accepted (startOp s 0x20 l c []) (fun s =>
      startBringup (updLane (closeRetry s l) l (fun x => { x with retireReq := false })) l false))

/-- `LANE_BRINGUP` (R244). -/
def execLaneBringup (c : Cmd) (s : State) : Host.Outcome State Fault Refusal :=
  ends (runCmd spLaneBringup none laneBringupBody c s)

/-- The bring-up stage a lane is in and its pass: its own, or the one a far-end loop runs first (R240, R253). -/
def stageOf (x : Lane) : LaneSt × Bool :=
  match x.st, x.loopRun with
  | .loop, some r => (r.stage, r.pass2)
  | st, _ => (st, x.pass2)

/-- The generation at whose rate a lane runs (R240, R253): G1 in DETECT, CAPS and pass 1, else that chosen. -/
def rateOf (x : Lane) : Nat :=
  match x.st, x.loopRun with
  | .active, _ => x.gen
  | .loop, some r => if r.stage = .loop || r.pass2 then r.gen else 1
  | _, _ => if x.pass2 then x.gen else 1

/-- A far-end loop goes on to another stage (R253). -/
def loopStage (s : State) (l : Nat) (st : LaneSt) (pass2 : Bool) : State :=
  updLane s l (fun x => { x with loopRun := x.loopRun.map (fun r => { r with stage := st, pass2 := pass2 }) })

/-- The next stage of a bring-up, or of the one a far-end loop runs first. -/
def toStage (s : State) (l : Nat) (st : LaneSt) (pass2 : Bool) : State :=
  if (laneOf s l).st = .loop then loopStage s l st pass2 else enterStage s l st pass2

/-- What an end of a lane sends in the states of R241, R248 and R253; delimiters, idle pairs and blocks are those of
R236. The manual gives no bits of TRAINED, LOCKED and SELECT, and nothing that a lane sends in DOWN, where it is taken to
send nothing (DESIGN CHOICE, log entry 49). -/
inductive LaneTx where
  | nothing
  | detect (pair : List Sym)
  | training (gen : Nat)
  | locked (gen : Nat)
  | select (to_ : Option (Nat × Nat))
  | frames (gen : Nat)
  deriving DecidableEq, Repr

/-- What the controller sends on a lane now (R241, R248, R253). -/
def laneSends (s : State) (l : Nat) : LaneTx :=
  let x := laneOf s l
  match (stageOf x).1 with
  | .detect => .detect detectPair
  | .train => .training (rateOf x)
  | .lock => .locked (rateOf x)
  | .caps => .select x.select
  | .active => .frames (rateOf x)
  | .loop => .frames (rateOf x)
  | .down => .nothing
  | .retired => .nothing

/-- The line bits of the frame a lane sends in the present period (R236), from the running disparity or the scrambler's
register before it. -/
def laneLine (s : State) (l : Nat) (rd : Bool) (r : Nat) : List Bool :=
  match (laneOf s l).ds with
  | some f => frameLine (rateOf (laneOf s l)) rd r f
  | none => []

/-- The line bits of one idle pair or idle block between frames (R236). -/
def idleLine (gen : Nat) (rd : Bool) (r : Nat) : List Bool :=
  if gen = 3 then blockLine r [idleBlock] else (symbols rd idlePair).flatMap (msbBits 10)

/-- The tick at which the start delimiter or start block of a lane's frame begins (R237). -/
def delimTick (s : State) (l : Nat) : Option Rat :=
  (laneOf s l).ds.map (fun f => (f.depart : Rat) - leadTicks (rateOf (laneOf s l)))

/-- Whether what the receiver has seen aligns it at the lane's rate (R238). -/
def alignedAt (x : Lane) (rx : Rx) : Bool := rxFits (rateOf x) rx && rxAligned rx

/-- The receiver sees the hub's answer (R241): aligned under R238, to TRAIN. -/
def execDetectDone (lane : Fin 66) (s : State) (rx : Rx := .symbols []) : Host.Outcome State Fault Refusal := whenClocked s <|
  let x := laneOf s lane
  ends (if (stageOf x).1 = .detect && alignedAt x rx then toStage s lane .train false else s)

/-- The hub reports TRAINED, and the own receiver has seen `clean` pattern bits without error (R241): from 2^16 on both
ends are TRAINED. `LANE_EQ_RESULT` is the adapted boost with AUTO, else the fixed one; to LOCK. -/
def execTrainDone (lane : Fin 66) (eq : BitVec 4) (s : State) (clean : Nat := 0) : Host.Outcome State Fault Refusal :=
  whenClocked s <|
  let x := laneOf s lane
  if (stageOf x).1 = .train && decide (65536 ≤ clean) then
    let rx := getN s P.LANE_RX_EQ lane
    let s := putN s P.LANE_EQ_RESULT lane (if bit rx 7 then eq.toNat else rx % 16)
    ends (toStage s lane .lock (stageOf x).2)
  else ends s

/-- A lane waits for the period mark of its entry to ACTIVE (R243). -/
def awaitEntry (s : State) (l : Nat) : State := updLane s l (fun x => { x with awaiting := true })

/-- LOCKED has come from the hub; with the own receiver aligned (R238) LOCK is done (R241): to CAPS in pass 1; in pass 2
to ACTIVE at a mark, or to the test frames of a far-end loop (R253). -/
def execLockDone (lane : Fin 66) (s : State) (rx : Rx := .symbols []) : Host.Outcome State Fault Refusal := whenClocked s <|
  let x := laneOf s lane
  if (stageOf x).1 = .lock && !x.awaiting && alignedAt x rx then
    ends (if !(stageOf x).2 then toStage s lane .caps false
      else if x.st = .loop then loopStage s lane .loop false else awaitEntry s lane)
  else ends s

/-- The generation chosen from the capability record (R242). -/
def chosenGen (s : State) (l hub low : Nat) : Nat :=
  let g := min (getN s P.LANE_GEN_MAX l) hub
  if low = 0 then g else min g low

/-- The capability record has arrived (R242): the generation is chosen, SELECT is sent with the lane number and the
generation (R241), and acknowledged or refused. -/
def capsDone (s : State) (l hub mask low : Nat) (selectOk : Bool) (port : Nat) : State :=
  let g := chosenGen s l hub low
  let s := updLane s l (fun x => { x with hubGen := hub, mask := mask, lowGen := low, select := some (l, g) })
  if 64 ≤ l && g < 3 then bringupFail s l 3 (fun _ => ⟨St.range, 0x2001, g⟩)
  else if !selectOk then bringupFail s l 2 (fun _ => ⟨St.state, 0xD, l⟩)
  else
    let s := updLane s l (fun x => { x with gen := g, selPort := if l < 64 then port else x.selPort })
    if g ≤ 1 then awaitEntry s l else enterStage s l .train true

/-- CAPS of a far-end loop (R253): the hub is told to return every frame. It goes on to pass 2 at the loop's generation,
or at G1 to the test frames; a refused SELECT leaves it where it is until its duration has elapsed (log entry 50). -/
def loopCaps (s : State) (l hub mask low : Nat) (selectOk : Bool) : State :=
  match (laneOf s l).loopRun with
  | none => s
  | some r =>
    let s := updLane s l (fun x => { x with hubGen := hub, mask := mask, lowGen := low, select := some (l, r.gen) })
    if !selectOk then s else if r.gen ≤ 1 then loopStage s l .loop false else loopStage s l .train true

/-- CAPS is done (R242). `cellGens` are the generations of the cells on the present ports. -/
def execCapsDone (lane : Fin 66) (hubGen : BitVec 2) (mask : BitVec 48) (cellGens : List (BitVec 2)) (selectOk : Bool)
    (activePort : BitVec 2) (s : State) : Host.Outcome State Fault Refusal := whenClocked s <|
  let x := laneOf s lane
  let gens := (cellGens.map (fun g => g.toNat)).filter (fun g => g != 0)
  let low := if lane.val < 64 && mask != 0 then minNat 0 gens else 0
  let m := if lane.val < 64 then mask.toNat else 0
  if x.st = .loop && (stageOf x).1 == .caps then ends (loopCaps s lane hubGen.toNat m low selectOk)
  else if x.st = .caps && !x.awaiting then ends (capsDone s lane hubGen.toNat m low selectOk activePort.toNat)
  else ends s

/-- A stage has reached its time limit (R240): the bring-up has failed. -/
def execBringupStageTimeout (lane : Fin 66) (s : State) : Host.Outcome State Fault Refusal := whenClocked s <|
  let x := laneOf s lane
  if bringupRuns x && !x.awaiting then
    let s := advanceTo s x.stageDue
    ends (bringupFail s lane 0 (fun o => ⟨St.timeout, 1, elapsedUs s o⟩))
  else ends s

/-! ### Lane faults (R245 to R251) -/

/-- A loss of lock ends a running eye scan with the points scanned so far (R250, R256). -/
def scanLost (s : State) (l : Nat) (pts : List (BitVec 16)) : State :=
  match opRun? s 0x23 l with
  | some o => completeErr (eyeStore s o l false pts) o ⟨St.state, 9, 0⟩
  | none => s

/-- A loss of lock in ACTIVE (R245, R247, R250): a lane error; unless the lane is RETIRED by it, the retry window
opens and an automatic re-bring-up starts. -/
def lockLost (s : State) (l : Nat) (pts : List (BitVec 16)) : State :=
  let s := laneError (scanLost s l pts) l
  if (laneOf s l).st ≠ .active then s
  else
    let open_ := match (laneOf s l).retryEnd with
      | some t => decide (s.tick < t)
      | none => false
    let s := if open_ then s
      else updLane s l (fun x => { x with retryEnd := some (s.tick + 2000000000), retryN := 0 })
    -- the bring-up begins in the next tick
    updLane (startBringup s l true) l (fun x => { x with started := x.started + 1, stageDue := x.stageDue + 1 })

/-- A loss of lock in a state from LOCK onward (R239, R240, R247). A loop counts it for its completion and goes on
(R254). -/
def lockGone (s : State) (l : Nat) (pts : List (BitVec 16)) : State :=
  match (laneOf s l).st with
  | .active => lockLost (incP s P.LANE_LOCK_LOSS l) l pts
  | .lock => bringupFail (incP s P.LANE_LOCK_LOSS l) l 1 (fun _ => ⟨St.state, 0xD, l⟩)
  | .caps => bringupFail (incP s P.LANE_LOCK_LOSS l) l 1 (fun _ => ⟨St.state, 0xD, l⟩)
  | .loop => updLane (incP s P.LANE_LOCK_LOSS l) l (fun x => { x with
      loopRun := x.loopRun.map (fun r => { r with losses := r.losses + 1 }) })
  | _ => s

/-- What an aligned receiver has seen makes it lose lock (R239): 16 of the last 64 symbols or headers are invalid. -/
def execLossOfLock (lane : Fin 66) (scanned : List (BitVec 16)) (s : State) (rx : Rx := .symbols []) : Host.Outcome State Fault Refusal :=
  whenClocked s <|
  ends (if rxFits (rateOf (laneOf s lane)) rx && rxLost rx then lockGone s lane scanned else s)

/-- 500 ms after a failed re-bring-up a new one starts (R247). -/
def execRebringupRetry (lane : Fin 66) (s : State) : Host.Outcome State Fault Refusal := whenClocked s <|
  match (laneOf s lane).retryAt with
  | none => ends s
  | some t => ends (if (laneOf s lane).st = .down then startBringup (advanceTo s t) lane true else s)

/-- The retry window expires (R247). -/
def execRetryWindowEnd (lane : Fin 66) (s : State) : Host.Outcome State Fault Refusal := whenClocked s <|
  match (laneOf s lane).retryEnd with
  | none => ends s
  | some t => ends (updLane (advanceTo s t) lane (fun x => { x with retryEnd := none, retryN := 0 }))

/-- An error window of 1 s ends (R246, R251): without an error the cause of the note is gone; a new count begins. -/
def execLaneErrorWindowEnd (lane : Fin 66) (s : State) : Host.Outcome State Fault Refusal := whenClocked s <|
  let x := laneOf s lane
  if x.errOpen then
    let s := advanceTo s (x.errWin + 200000000)
    let s := if getN s P.LANE_ERR_COUNT lane = 0 then causeGone s F.LANE_TRANSIENT lane else s
    let s := putN s P.LANE_ERR_COUNT lane 0
    ends (updLane s lane (fun x => { x with errWin := x.errWin + 200000000 }))
  else ends s

/-- The lowest arm whose ledger would fall below zero if the lane's cells were unavailable (R249). -/
def retireLedger (s : State) (l : Nat) : Option Nat :=
  if (laneOf s l).st = .active then
    armList.find? (fun a =>
      let n := ((armCells s a).filter (fun p => !p.2.retired && laneOfCell p.1 == l)).length
      n != 0 && decide (armLedger s a < (n : Int)))
  else none

/-- The row of `LANE_RETIRE`. -/
def spLaneRetire : CmdSpec := { cmdSpec 0x21 0 0 false true with target := .below 66 }

/-- `LANE_RETIRE`'s checks and effect (R249, R250): the lane is RETIRED at the next mark. -/
def laneRetireBody (c : Cmd) (s : State) : Res :=
  let l := tgt c
  if (laneOf s l).st = .retired then .done s
  else
    Res.check (firstErr [laneHeld s l, autoHeld s l,
                         (retireLedger s l).map (fun a => (⟨St.conflict, 2, a⟩ : CmdErr))])
      (.done (updLane s l (fun x => { x with retireReq := true })))

/-- `LANE_RETIRE` (R249). -/
def execLaneRetire (c : Cmd) (s : State) : Host.Outcome State Fault Refusal :=
  ends (runCmd spLaneRetire none laneRetireBody c s)

/-! ### Loops (R252 to R254) -/

/-- Whether a loop is admitted on a cell lane (R252): every placed, non-retired cell excluded and in no active table. -/
def loopAdmitted (s : State) (l : Nat) : Bool :=
  (List.range 48).all (fun p =>
    let c := 48 * l + p
    let x := cellOf s c
    !x.placed || x.retired
      || (getN s P.CLT_EXCLUDE c != 0 && armList.all (fun a => (activePos s a c).isNone)))

/-- The row of `LANE_LOOP`. -/
def spLaneLoop : CmdSpec :=
  { cmdSpec 0x22 2 2 false true with target := .below 66, reserved := [(0, 0xFFFFFFFC)], maxReply := 5, long := true }

/-- Mode 0 (R254): the running loop ends at once. Its counts come with the completion. -/
def loopEndNow (s : State) (l : Nat) : Res :=
  if (laneOf s l).st = .loop then
    .done (updLane s l (fun x => { x with
      st := .down, loopRun := x.loopRun.map (fun r => { r with due := s.tick }) }))
  else .err ⟨St.state, 8, l⟩

/-- The generation a loop runs at (R253): that of the lane's last ACTIVE state, or `LANE_GEN_MAX`. -/
def loopGen (s : State) (l : Nat) : Nat :=
  if (laneOf s l).lastGen = 0 then getN s P.LANE_GEN_MAX l else (laneOf s l).lastGen

/-- A loop as it starts (R253): a far-end loop runs DETECT first. -/
def newLoop (s : State) (l mode ms : Nat) : LoopRun :=
  { mode := mode, due := s.tick + 200000 * ms, sent := 0, gen := loopGen s l, stage := if mode = 3 then .detect else .loop
    pass2 := false, prbs := Config.prbsSeed, last := none, losses := 0 }

/-- The refusal of a duration outside its range (R254), in every mode. -/
def loopMsErr (ms : Nat) : Option CmdErr := errIf (decide (ms < 1) || decide (60000 < ms)) St.range 0x8001 ms

/-- `LANE_LOOP`'s checks and start (R252 to R254). A RETIRED lane stays so until a `LANE_BRINGUP` (R248): it is refused
as in the wrong bring-up state (DEDUCED, log entry 50). -/
def laneLoopBody (c : Cmd) (s : State) : Res :=
  let l := tgt c
  let mode := pw c 0
  let ms := pw c 1
  if mode = 0 then Res.check (loopMsErr ms) (loopEndNow s l)
  else
    Res.check (firstErr
      [ loopMsErr ms,
        laneOffErr s l, laneHeld s l, autoHeld s l,
        errIf ((laneOf s l).st == .retired || (decide (64 ≤ l) && (laneOf s l).st == .active)) St.state 6 l,
        errIf (decide (l < 64) && !loopAdmitted s l) St.state 0xB l ])
      (.accepted (startOp s 0x22 l c []) (fun s =>
        let s := closeRetry (laneTo s l .loop) l
        updLane s l (fun x => { x with
          retireReq := false, awaiting := false, auto := false, pass2 := false, loopRun := some (newLoop s l mode ms) })))

/-- `LANE_LOOP` (R252). -/
def execLaneLoop (c : Cmd) (s : State) : Host.Outcome State Fault Refusal :=
  ends (runCmd spLaneLoop none laneLoopBody c s)

/-- `LANE_LOOP` with mode 0 (R254): the packet's mode bits are 0. -/
def execLaneLoopEndMode0 (c : Cmd) (s : State) : Host.Outcome State Fault Refusal :=
  ends (runCmd spLaneLoop none laneLoopBody { c with payload := 0 :: c.payload.drop 1 } s)

/-- A loop's duration has elapsed, or mode 0 has ended it (R254): DOWN, and the completion with the counts: the frames
the machine has sent, what its receiver has made of those that came back, the losses of lock that `LOSS_OF_LOCK` rows have
brought and those that no row brought (`losses`: the far end's, or the parallel loop's inside the block). -/
def execLaneLoopEnd (lane : Fin 66) (received crcBad bitErrs losses : Word) (s : State) : Host.Outcome State Fault Refusal :=
  whenClocked s <|
  match (laneOf s lane).loopRun, opRun? s 0x22 lane with
  | some r, some o =>
    let s := advanceTo s r.due
    let s := updLane s lane (fun x => { x with st := .down, loopRun := none })
    ends (completeOk s o [BitVec.ofNat 32 r.sent, received, crcBad, bitErrs, BitVec.ofNat 32 r.losses + losses])
  | _, _ => ends s

/-! ### Eye scan (R255, R256) -/

/-- Ticks of a number of UI at a generation's line rate (R235), rounded up. -/
def uiTicks (gen n : Nat) : Nat :=
  if gen = 1 then ceilDiv (16 * n) 100 else if gen = 2 then ceilDiv (16 * n) 250 else ceilDiv (16 * n) 825

/-- The row of `EYE_SCAN`. -/
def spEyeScan : CmdSpec := { cmdSpec 0x23 1 1 false true with target := .below 66, maxReply := 2, long := true }

/-- `EYE_SCAN`'s checks and start (R255): it claims the offset sampler. -/
def eyeScanBody (c : Cmd) (s : State) : Res :=
  let l := tgt c
  let x := pw c 0
  Res.check (firstErr
    [ errIf (decide (x < 12) || decide (36 < x)) St.range 0x8000 x,
      busyErr (opAny? s 0x23),
      errIf ((laneOf s l).st != .active) St.state 6 l ])
    (let s := startOp s 0x23 l c [x, (laneOf s l).gen]
     .accepted s (fun s => putTable s 0x0300 0 (eyeWords l (laneOf s l).gen x false [])))

/-- `EYE_SCAN` (R255). -/
def execEyeScan (c : Cmd) (s : State) : Host.Outcome State Fault Refusal :=
  ends (runCmd spEyeScan none eyeScanBody c s)

/-- An eye scan is complete (R255, R256): its result is stored, width and height are returned. -/
def execEyeScanDone (points : List (BitVec 16)) (s : State) : Host.Outcome State Fault Refusal := whenClocked s <|
  match opAny? s 0x23 with
  | none => ends s
  | some o =>
    let s := advanceTo s (o.start + uiTicks (o.args.getD 1 0) (4160 * 2 ^ (o.args.getD 0 0)))
    let s := eyeStore s o o.key true points
    ends (completeOk s o [BitVec.ofNat 32 (eyeWidth points), BitVec.ofNat 32 (eyeHeight points)])

/-! ### Lane domains (R482) -/

/-- An operation of a lane whose domain turns off ends (R244, R254). -/
def endLaneOp (s : State) (op l : Nat) : State :=
  match opRun? s op l with
  | some o => completeErr s o ⟨St.state, 9, 0⟩
  | none => s

/-- A lane's domain turns off (R240, R482). -/
def laneDomainOff (s : State) (l : Nat) : State := endLaneOp (endLaneOp (laneOff s l) 0x20 l) 0x22 l

/-- The lanes of a power quad (R481). -/
def quadLanes (q : Nat) : List Nat := (List.range 66).filter (fun l => laneQuad l == q)

/-- A write of `PWR_LANE_EN` in RUN (R482): domains turn off with their lanes, or on, starting their PLLs. -/
def laneEnSet (s : State) : State :=
  if s.pwr.state = .run then
    (List.range 4).foldl (fun s q =>
      let want := bit (getN s P.PWR_LANE_EN 0) q
      let have_ := bit s.pwr.domains.toNat (7 + q)
      if want == have_ then s
      else if want then domains s (2 ^ (7 + q)) 0
      else
        let s := (quadLanes q).foldl laneDomainOff (domains s 0 (2 ^ (7 + q)))
        updPwr s (fun p => { p with lanePll := p.lanePll &&& ~~~(BitVec.ofNat 4 (2 ^ q)) })) s
  else s

end Sys2Proof.Machine
end

