-- ==== Sys2Proof/Machine/Discovery.lean ====
section
/-! DEFINITION. Discovery, placement, cell configuration and the tally's report (R291 to R305, R311, R314). -/

namespace Sys2Proof.Machine

/-! ### `DISCOVER` (R291 to R293) -/

/-- The lane mask of `DISCOVER`. -/
def discMask (c : Cmd) : Nat := pw c 0 + 4294967296 * pw c 1

/-- The cell lanes of a mask. -/
def maskLanes (m : Nat) : List Nat := (List.range 64).filter (fun l => bit m l)

/-- The row of `DISCOVER`. -/
def spDiscover : CmdSpec := { cmdSpec 0x10 2 2 true true with maxReply := 4, long := true }

/-- The operation that holds one of the lanes: a host's bring-up or loop (R52). An automatic re-bring-up does not hold a
lane against `DISCOVER` (DESIGN CHOICE, log entry 42). -/
def lanesHeld (s : State) (ls : List Nat) : Option CmdErr :=
  busyErr (s.ops.find? (fun o => (o.op == 0x20 || o.op == 0x22) && ls.contains o.key))

/-- The checks of `DISCOVER`. -/
def discoverErr (s : State) (ls : List Nat) (m : Nat) : Option CmdErr :=
  firstErr
    [ errIf (ls.any (fun l => laneArms s l &&& debMask s != 0)) St.state 2 (debMask s),
      busyErr (opRun? s 0x10 m), busyErr (msgClaim s ls), lanesHeld s ls ]

/-- One listed lane at the start: every record NONE; of an ACTIVE lane the hub's and the present cells' are read. -/
def discoverLane (s : State) (l : Nat) : State :=
  let s := (63 :: List.range 48).foldl (fun s p => storeRecord s l p .none []) s
  let on := laneActive s l
  let s := putN s P.DISC_LANE_CHECK l (if on then 65536 * (laneOf s l).gen else 0)
  if on then
    updLane s l (fun x => { x with rdBad := [], rd := [], qCmd := x.qCmd ++ (63 :: presentPorts s l).flatMap (idReads 3) })
  else s

/-- `DISCOVER`'s checks and start (R291). -/
def discoverBody (c : Cmd) (s : State) : Res :=
  let m := discMask c
  let ls := maskLanes m
  Res.check (discoverErr s ls m) (.accepted (startOp s 0x10 m c [m]) (fun s => ls.foldl discoverLane s))

/-- `DISCOVER` (R291). -/
def execDiscover (c : Cmd) (s : State) : Host.Outcome State Fault Refusal :=
  ends (runCmd spDiscover none discoverBody c s)

/-- Whether a lane's messenger still has transactions of a source. -/
def srcBusy (s : State) (src l : Nat) : Bool :=
  let x := laneOf s l
  x.qCmd.any (fun t => t.src == src) || x.out.any (fun t => t.src == src)

/-- Whether a board's 64 bytes carry a correct CRC (R290). -/
def boardOk (b : List Nat) : Bool :=
  decide (b.length = 64) &&
    crcBytes (b.take 60) == b.getD 60 0 + 256 * b.getD 61 0 + 65536 * b.getD 62 0 + 16777216 * b.getD 63 0

/-- One read of a board's record: VALID with a correct CRC. -/
def boardOnce (r : Option (List Byte)) : Board :=
  match r with
  | some l =>
    let b := l.map (fun x => x.toNat)
    if boardOk b then ⟨.valid, b⟩ else ⟨.invalid, []⟩
  | none => ⟨.invalid, []⟩

/-- The record of a board as read (R292): one whose CRC fails is read once more; INVALID if it fails `again` or without
acknowledgement. -/
def boardRead (r again : Option (List Byte)) : Board :=
  if r.isSome && (boardOnce r).st != .valid then boardOnce again else boardOnce r

/-- The records of the eight boards are stored. -/
def putBoards (s : State) (boards again : List (Option (List Byte))) : State :=
  { s with disc := { s.disc with boards := (List.range 8).foldl (fun t b =>
      tabSet Board.empty t b (boardRead (boards.getD b none) (again.getD b none))) s.disc.boards } }

/-- The payload of `DISCOVER`'s completion (R293). -/
def discoverReply (s : State) (ls : List Nat) : List Word :=
  let hubs := fun (st : RecSt) => (ls.filter (fun l => (laneOf s l).hubRec == st)).length
  let cells := fun (st : RecSt) =>
    sumNat (ls.map (fun l => ((List.range 48).filter (fun p => (cellOf s (48 * l + p)).idRec == st)).length))
  let bs := fun (st : RecSt) => ((List.range 8).filter (fun b => (boardOf s b).st == st)).length
  [wN (hubs .valid), wN (cells .valid), wN (bs .valid), wN (hubs .invalid + cells .invalid + bs .invalid)]

/-- A `DISCOVER` whose lanes have been read completes (R293); `boards` is what each address answered, and `again` what it
answered to a second read. -/
def execDiscoverDone (boards : List (Option (List Byte))) (s : State) (again : List (Option (List Byte)) := []) : Host.Outcome State Fault Refusal := whenClocked s <|
  ends (match s.ops.find? (fun o => o.op == 0x10 && (maskLanes o.key).all (fun l => !srcBusy s 3 l)) with
    | none => s
    | some o =>
      let s := putBoards s boards again
      completeOk s o (discoverReply s (maskLanes o.key)))

/-! ### `READ_IDENTITY` (R294) -/

/-- The target check of `READ_IDENTITY` and its kind. -/
def readIdOwn (c : Cmd) : Option CmdErr :=
  let k := pw c 0 % 4
  let n := if k = 0 then 3072 else if k = 1 then 64 else 8
  firstErr
    [ errIf (k != 3 && decide (n ≤ tgt c)) St.range 0xFFFD (tgt c),
      errIf (c.payload.length == 1 && k == 3) St.param 0x8000 (pw c 0) ]

/-- The row of `READ_IDENTITY`. -/
def spReadIdentity : CmdSpec :=
  { cmdSpec 0x11 1 1 true true with target := .own, reserved := [(0, 0xFFFFFFFC)], maxReply := 64, long := true }

/-- `READ_IDENTITY`'s checks and start: 64 reads of the hub's or cell's record. -/
def readIdentityBody (c : Cmd) (s : State) : Res :=
  let k := pw c 0
  let t := tgt c
  let l := if k = 0 then laneOfCell t else t
  let port := if k = 0 then t % 48 else 63
  let key := k * 65536 + t
  if k = 2 then Res.check (busyErr (opRun? s 0x11 key)) (.accepted (startOp s 0x11 key c [2, 0, 0, 0]) (fun s => s))
  else
    Res.check (firstErr [errIf (!laneActive s l) St.state 6 l, busyErr (msgClaim s [l])])
      (.accepted (startOp s 0x11 key c [k, l, port, 0]) (fun s =>
        updLane s l (fun x => { rdClear x port with rdBad := [], qCmd := x.qCmd ++ idReads 4 port })))

/-- `READ_IDENTITY` (R294). -/
def execReadIdentity (c : Cmd) (s : State) : Host.Outcome State Fault Refusal :=
  ends (runCmd spReadIdentity (readIdOwn c) readIdentityBody c s)

/-- A read of a hub's or cell's record completes. -/
def idLaneDone (s : State) (o : LongOp) : State :=
  let l := o.args.getD 1 0
  let port := o.args.getD 2 0
  let ws := bytesWords (rdBytes (laneOf s l) port)
  let s := updLane s l (fun x => rdClear x port)
  if o.args.getD 3 0 = 1 then completeOk s o ws else completeErr s o ⟨St.timeout, 1, elapsedUs s o⟩

/-- A read of a board's record completes. -/
def idBoardDone (s : State) (o : LongOp) (board again : Option (List Byte)) : State :=
  let b := boardRead board again
  if b.st = .valid then completeOk s o (bytesWords b.bytes ++ List.replicate 48 0)
  else completeErr s o ⟨St.timeout, 1, elapsedUs s o⟩

/-- `READ_IDENTITY` completes (R294); `board` is what a board answered, where one was read, and `again` what it answered to
a second read. -/
def execReadIdentityDone (board : Option (List Byte)) (s : State) (again : Option (List Byte) := none) : Host.Outcome State Fault Refusal := whenClocked s <|
  let b := s.ops.find? (fun o => o.op == 0x11 && o.args.getD 0 0 == 2)
  let l := s.ops.find? (fun o => o.op == 0x11 && o.args.getD 0 0 != 2 && o.args.getD 3 0 != 0)
  ends (match l, b with
    | some o, none => idLaneDone s o
    | some o, some p => if board.isSome then idBoardDone s p board again else idLaneDone s o
    | none, some p => idBoardDone s p board again
    | none, none => s)

/-! ### The topology (R295, R296) -/

/-- The word of a lane's header in a topology. -/
def topoLane (t : List Word) (l : Nat) : Nat := (t.getD (1 + 7 * l) 0).toNat

/-- Whether a lane is USED. -/
def topoUsed (t : List Word) (l : Nat) : Bool := bit (topoLane t l) 0

/-- The nibble of a lane's port. -/
def topoNib (t : List Word) (l p : Nat) : Nat :=
  field (t.getD (2 + 7 * l + p / 8) 0).toNat (4 * (p % 8) + 3) (4 * (p % 8))

/-- The arm of a port, none for an empty one. -/
def topoArm (t : List Word) (l p : Nat) : Option Nat :=
  let a := topoNib t l p % 8
  if topoUsed t l && decide (a < 6) then some a else none

/-- Declared cells with their arms, in ascending global index. -/
def topoCells (t : List Word) : List (Nat × Nat) :=
  (List.range 64).flatMap (fun l =>
    if topoUsed t l then (List.range 48).filterMap (fun p => (topoArm t l p).map (fun a => (48 * l + p, a))) else [])

/-- Check 4: the first word with a bad field (R296). -/
def topoWordBad (t : List Word) (w : Nat) : Bool :=
  let x := (t.getD w 0).toNat
  if w = 0 then field x 31 16 != 0
  else if w < 449 then
    let l := (w - 1) / 7
    if (w - 1) % 7 = 0 then field x 31 3 != 0 || (bit x 0 && field x 2 1 == 0)
    else topoUsed t l && (List.range 8).any (fun r =>
      let n := field x (4 * r + 3) (4 * r)
      n % 8 == 6 || n == 15)
  else if w < 457 then field x 31 24 != 0
  else false

/-- Check 6 on a lane: it is ACTIVE with a VALID hub record, its ports and generation fit, its cells' records fit. -/
def topoLaneOk (s : State) (t : List Word) (l : Nat) : Bool :=
  let x := laneOf s l
  let ports := (List.range 48).filter (fun p => (topoArm t l p).isSome)
  !topoUsed t l
    || (x.st == .active && x.hubRec == .valid && ports == presentPorts s l && decide (field (topoLane t l) 2 1 ≤ x.gen)
        && ports.all (fun p =>
            let y := cellOf s (48 * l + p)
            y.idRec == .valid && (idKind y.stored == 0x21 || idKind y.stored == 0x22 || idKind y.stored == 0x23)
              && (field (idWord y.stored 0) 31 24 == topoNib t l p / 8)))

/-- Check 7 on a board: KIND, FIRST and COUNT of its VALID record are the expected ones. -/
def topoBoardOk (s : State) (t : List Word) (b : Nat) : Bool :=
  let e := (t.getD (449 + b) 0).toNat
  let x := boardOf s b
  field e 7 0 == 0
    || (x.st == .valid && x.bytes.getD 1 0 == field e 7 0 && x.bytes.getD 2 0 == field e 15 8
        && x.bytes.getD 3 0 == field e 23 16)

/-- The frame-builder order a placement sets (R81). -/
def topoOrder (s : State) (t : List Word) : List Nat :=
  let used := (List.range 64).filter (topoUsed t)
  let rest := (List.range 64).filter (fun l => !topoUsed t l)
  sortBy (fun (a b : Nat) => decide ((laneOf s a).gen < (laneOf s b).gen) || ((laneOf s a).gen == (laneOf s b).gen && decide (a ≤ b))) used
    ++ rest

/-- Check 8: a period for which the schedule would not close (R80, R82, R83): the committed and the armed one. -/
def topoPeriodBad (s : State) (t : List Word) : Option Nat :=
  let n := (topoCells t).length
  let s' := { s with per := { s.per with order := topoOrder s t } }
  ((getN s P.PER_PERIOD 0) :: (armedPeriod s).toList).find? (fun p => !schedCloses s' p (latencyOf p n) none)

/-- Words of a topology table. -/
def topoWords (s : State) (num : Nat) : List Word := tableWords s num 0 458

/-- The checks of R296 in order: the check that fails, its refusal and its entity. -/
def placeFail (s : State) (num : Nat) : Option (Nat × CmdErr × Nat) :=
  let t := topoWords s num
  let cells := topoCells t
  if num ≠ 0x0600 ∧ num ≠ 0x0601 then some (1, ⟨St.param, 0x8000, num⟩, 0)
  else if anyDeb s then some (2, ⟨St.state, 2, debMask s⟩, 0)
  else if field (t.getD 0 0).toNat 15 0 ≠ 0x5450 ∨ crcWords t.dropLast ≠ t.getD 457 0 then
    some (3, ⟨St.integrity, 3, num⟩, 0)
  else match (List.range 457).find? (topoWordBad t) with
  | some w => some (4, ⟨St.range, 0x8000 + w, (t.getD w 0).toNat⟩, 0)
  | none => match armList.find? (fun a => decide (1024 < (cells.filter (fun p => p.2 == a)).length)) with
  | some a => some (5, ⟨St.range, 0x140A, a⟩, 0)
  | none => match (List.range 64).find? (fun l => !topoLaneOk s t l) with
  | some l => some (6, ⟨St.range, 0x2404, l⟩, hubCode l)
  | none => match (List.range 8).find? (fun b => !topoBoardOk s t b) with
  | some b => some (7, ⟨St.range, 0x2406, b⟩, 0x4000 + b)
  | none => (topoPeriodBad s t).map (fun p => (8, ⟨St.range, 0x0801, p⟩, 0))

/-! ### `PLACE` (R296 to R298) -/

/-- The row of `PLACE`. -/
def spPlace : CmdSpec := { cmdSpec 0x12 1 1 true true with long := true }

/-- `PLACE`'s checks and start; `DISC_FAIL` records the check and the entity (R296). It claims nothing, so a second one
may run beside it (R52, R65): its key is its packet's own. -/
def placeBody (c : Cmd) (s : State) : Res :=
  let num := pw c 0
  match placeFail s num with
  | some f => .fail f.2.1 (putN s P.DISC_FAIL 0 (f.1 + 65536 * f.2.2))
  | none =>
    .accepted (startOp (putN s P.DISC_FAIL 0 0) 0x12 (c.seq.toNat * 2 + b2n (c.port == .spi)) c
      (num :: (topoWords s num).map (fun w => w.toNat))) (fun s => s)

/-- `PLACE` (R296). -/
def execPlace (c : Cmd) (s : State) : Host.Outcome State Fault Refusal := ends (runCmd spPlace none placeBody c s)

/-- A declared cell joins its arm (R297, R298, R308): in BLOCK, with its record; the RETIRED mark stays with the same
serial. -/
def placeCell (s : State) (c a : Nat) : State :=
  updCell s c (fun x =>
    let keep := x.retired && idSerial x.ident == idSerial x.stored
    { Cell.empty with
      idRec := x.idRec, stored := x.stored, ident := x.stored, placed := true, arm := a, fb := idFb x.stored
      retired := keep, retire := if keep then .done else .no, lastRep := s.per.count, report := x.report
      cfgFail := x.cfgFail })

/-- A cell that is not declared leaves its arm; a RETIRED mark stays known with its record (R178). -/
def unplaceCell (x : Cell) : Cell :=
  { x with placed := false, retire := if x.retired then .done else .no, st := .block, v := none, shares := []
           digValid := false, digBytes := [], idBad := 0, idFault := false, mt := ⟨none, none, 0, 0⟩ }

/-- Buffers, signs and references of an arm are discarded (R98, R117, R297). -/
def placeArm (s : State) (a : Nat) : State :=
  updArm s a (fun x => { x with
    pass := none, active := none, written := none, ready := false, fresh := false, sgn := 1, inHyst := false
    region := false, lprev := 0, plans := [], vprev := none })

/-- Running `CELL_RETIRE`s end: their entries are gone (R178). -/
def endRetires (s : State) : State :=
  (s.ops.filter (fun o => o.op == 0x37)).foldl (fun s o => completeErr s o ⟨St.state, 9, 0⟩) s

/-- Causes a placement ends: those of the cell faults, of full cleats, and of every identity mismatch (R165, R299). -/
def placeCauses (s : State) : State :=
  let codes := [F.CELL_SUSPECT, F.CELL_UVLO, F.CELL_SC, F.CELL_OV, F.CELL_CODE_ERR, F.CLEAT_FULL, F.PERM_BYPASS_FAIL,
                F.ID_MISMATCH]
  (s.flt.entries.filter (fun p => p.2.st != .free && codes.contains p.2.code)).foldl
    (fun s p => causeGone s p.2.code p.2.inst) s

/-- Entries, activities, suspicions and exclusion marks go (R178). -/
def placeCleat (s : State) : State :=
  let s := { s with
    cleat := CleatSt.reset
    params := tabFilter (fun k _ => k / 65536 != P.CLT_EXCLUDE) s.params }
  placeCauses (endRetires s)

/-- The lanes of a new placement: which are USED, and no pair of an earlier one waits. -/
def placeLane (t : List Word) (s : State) (l : Nat) : State :=
  updLane s l (fun x => { x with used := topoUsed t l, idFault := false, qPerm := [], fireWait := false })

/-- The placement takes effect (R297). -/
def placeDo (s : State) (t : List Word) : State :=
  let cells := topoCells t
  let lat := s.per.lat
  let order := topoOrder s t
  let big := maxNat (armList.map (fun a => (cells.filter (fun p => p.2 == a)).length))
  let s := dropTasks (mtAbort (placeCleat s)) (fun t => decide (1 ≤ t.cls ∧ t.cls ≤ TC.publish))
  let s := { s with cells := tabMap Cell.empty (fun _ x => unplaceCell x) s.cells }
  let s := cells.foldl (fun s p => placeCell s p.1 p.2) s
  let s := armList.foldl placeArm ((List.range 64).foldl (placeLane t) s)
  let s := { s with
    disc := { s.disc with placed := true, topo := t }
    per := { s.per with order := order, minEpoch := minEpochOf big }
    belay := { s.belay with icmFrom := 1 } }
  latencyChange (recompute s) lat

/-- What watches the placement sees the new one: tally, cleat and ledger (R169, R170, R306). -/
def placeWatch (s : State) : State := ledgerWatch (cleatWatch (tallyFollow (tallyStale s) 2))

/-- The oldest running `PLACE` completes (R297). -/
def execPlaceDone (s : State) : Host.Outcome State Fault Refusal := whenClocked s <|
  ends (match opAny? s 0x12 with
    | none => s
    | some o =>
      let s := placeWatch (placeDo s ((o.args.drop 1).map wN))
      completeOk s o [wN (placedCount s)])

/-! ### `CELL_CONFIG` (R284, R303 to R305) -/

/-- The target check of `CELL_CONFIG`, and its image number. -/
def cellCfgOwn (c : Cmd) : Option CmdErr :=
  firstErr
    [ errIf (decide ((if bit (pw c 0) 1 then 64 else 3072) ≤ tgt c)) St.range 0xFFFD (tgt c),
      errIf (c.payload.length == 2 && (decide (pw c 1 < 0x0400) || decide (0x040F < pw c 1))) St.param 0x8001 (pw c 1) ]

/-- The row of `CELL_CONFIG`. -/
def spCellConfig : CmdSpec :=
  { cmdSpec 0x13 2 2 false true with target := .own, reserved := [(0, 0xFFFFFFFC)], maxReply := 2, long := true }

/-- Entries of an image. -/
def imgCount (s : State) (num : Nat) : Nat := (tableWord s num 0).toNat % 65536

/-- The entries of an image (R284). -/
def imgEntries (s : State) (num : Nat) : List Word := tableWords s num 1 (imgCount s num)

/-- Whether an image's count and CRC are good. -/
def imgOk (s : State) (num : Nat) : Bool :=
  let n := imgCount s num
  decide (1 ≤ n ∧ n ≤ 1000) && crcWords (tableWords s num 0 (n + 1)) == tableWord s num (n + 1)

/-- Whether an entry may stand in an image for a cell, or for a hub (R284, R303). -/
def imgEntryOk (hub : Bool) (w : Word) : Bool :=
  let op := msgOp w
  let a := msgAddr w
  if hub then decide (2 ≤ op ∧ op ≤ 4) && (op != 3 || decide (0x08 ≤ a ∧ a ≤ 0x5F))
  else decide (2 ≤ op ∧ op ≤ 5) && (op != 3 || decide (a < 0x78))

/-- The targets as lane and port (R303); port 63 is the hub. -/
def cfgTargets (c : Cmd) (s : State) : List (Nat × Nat) :=
  let t := tgt c
  match bit (pw c 0) 0, bit (pw c 0) 1 with
  | true, true => ((List.range 64).filter (fun l => (laneOf s l).used && laneActive s l)).map (fun l => (l, 63))
  | true, false => (placedCells s).filterMap (fun p =>
      if p.2.retired then none else some (laneOfCell p.1, p.1 % 48))
  | false, true => [(t, 63)]
  | false, false => [(laneOfCell t, t % 48)]

/-- Whether an image writes a stop-only byte (R304). -/
def imgStops (s : State) (num : Nat) : Bool :=
  (imgEntries s num).any (fun w =>
    msgOp w == 3 && bit (getN s P.DISC_CELL_STOP_MASK (msgAddr w / 32)) (msgAddr w % 32))

/-- The deblocked arms of the target cells. -/
def cfgArms (s : State) (ts : List (Nat × Nat)) : Nat :=
  armMask (fun a => (armOf s a).deblocked && ts.any (fun p =>
    p.2 != 63 && (cellOf s (48 * p.1 + p.2)).placed && (cellOf s (48 * p.1 + p.2)).arm == a))

/-- The checks of `CELL_CONFIG` (R284, R303, R304, R452). -/
def cellCfgErr (c : Cmd) (s : State) (ts : List (Nat × Nat)) : Option CmdErr :=
  let all := bit (pw c 0) 0
  let hub := bit (pw c 0) 1
  let num := pw c 1
  let ls := ts.map (fun p => p.1)
  firstErr
    [ standbyErr s,
      if !hub && !all && !(cellOf s (tgt c)).placed then some (notReady 2 (tgt c)) else none,
      if all && !s.disc.placed then some (notReady 0 0) else none,
      errIf (hub && !all && !laneActive s (tgt c)) St.state 6 (tgt c),
      errIf (!imgOk s num) St.integrity 3 num,
      ((imgEntries s num).zipIdx.find? (fun p => !imgEntryOk hub p.1)).map
        (fun p => (⟨St.range, 0x8001, p.2⟩ : CmdErr)),
      errIf (!hub && imgStops s num && cfgArms s ts != 0) St.state 2 (cfgArms s ts),
      busyErr (msgClaim s ls) ]

/-- Queue an image for one target (R284): PORT is supplied; a target whose lane is not ACTIVE has failed. -/
def cfgStart (es : List Word) (s : State) (p : Nat × Nat) : State :=
  let s := if p.2 = 63 then updLane s p.1 (fun x => { x with cfgFail := false })
    else updCell s (48 * p.1 + p.2) (fun x => { x with cfgFail := false })
  if laneActive s p.1 then
    updLane s p.1 (fun x => { x with qCmd := x.qCmd ++ es.map (fun w =>
      ⟨5, (w &&& 0xE00FFFFF) ||| BitVec.ofNat 32 (p.2 * 2 ^ 20), p.2, 0, 0, 0⟩) })
  else setCfgFail s p.1 p.2

/-- `CELL_CONFIG`'s checks and start. -/
def cellConfigBody (c : Cmd) (s : State) : Res :=
  let ts := cfgTargets c s
  let mask := sumNat ((List.range 64).map (fun l => if ts.any (fun p => p.1 == l) then 2 ^ l else 0))
  Res.check (cellCfgErr c s ts)
    (.accepted (startOp s 0x13 (mask + 2 ^ 64 * b2n (bit (pw c 0) 1)) c (mask :: ts.map (fun p => p.1 * 64 + p.2)))
      (fun s => ts.foldl (cfgStart (imgEntries s (pw c 1))) s))

/-- `CELL_CONFIG` (R303). -/
def execCellConfig (c : Cmd) (s : State) : Host.Outcome State Fault Refusal :=
  ends (runCmd spCellConfig (cellCfgOwn c) cellConfigBody c s)

/-- Whether a target of `CELL_CONFIG` has failed (R305). -/
def cfgFailed (s : State) (t : Nat) : Bool :=
  if t % 64 = 63 then (laneOf s (t / 64)).cfgFail else (cellOf s (48 * (t / 64) + t % 64)).cfgFail

/-- A `CELL_CONFIG` whose transactions have ended completes (R305). -/
def execCellConfigDone (s : State) : Host.Outcome State Fault Refusal := whenClocked s <|
  ends (match s.ops.find? (fun o => o.op == 0x13 && (maskLanes (o.args.headD 0)).all (fun l => !srcBusy s 5 l)) with
    | none => s
    | some o =>
      let ts := o.args.drop 1
      let bad := (ts.filter (cfgFailed s)).length
      completeOk s o [wN (ts.length - bad), wN bad])

/-! ### The tally (R311, R314) -/

/-- The checks of `TALLY_REPORT`'s mode. -/
def tallyOwn (c : Cmd) : Option CmdErr :=
  errIf (c.payload.length == 1 && pw c 0 % 4 == 3) St.param 0x8000 (pw c 0)

/-- The row of `TALLY_REPORT`. -/
def spTallyReport : CmdSpec := { cmdSpec 0x14 1 1 true true with reserved := [(0, 0xFFFFFFFC)], maxReply := 1001 }

/-- Mode 0: the summary. -/
def tallySummary (s : State) : List Word :=
  let n := fun st => entCount s cellCodes st
  let h := fun st => entCount s hubCodes st
  [ getP s P.TALLY_CONVERTER 0, (s.tally.exp_.getD []).getD 1 0, (s.tally.peer.getD []).getD 0 0, wN (tallyStatus s),
    wN (n .atNew + 65536 * n .atOld), wN (n .other + 65536 * n .unknown),
    wN (h .atNew + 256 * h .other + 65536 * h .unknown) ]

/-- Mode 1: the mismatches that have been held, in ascending entity code, with the digest seen. -/
def tallyMismatches (s : State) : List (Nat × Word) :=
  ((otherCodes s).filter (heldCode s)).map (fun c => (c, (entDigest s c).getD 0))
    ++ ((ownBad s).filter (fun b => heldCode s (0x2000 + b))).map (fun b => (0x2000 + b, getP s P.TALLY_BLOCK b))
    ++ ((peerBad s).filter (fun b => heldCode s (0x3000 + b))).map (fun b =>
        (0x3000 + b, (s.tally.peer.getD []).getD (1 + b) 0))

/-- Mode 1's payload: the total, the entries returned, and the pairs. -/
def tallyList (s : State) : List Word :=
  let l := tallyMismatches s
  let e := min l.length 500
  wN (l.length + 65536 * e) :: (l.take e).flatMap (fun p => [wN p.1, p.2])

/-- Mode 2: the convergence of each arm's cells. -/
def tallyArms (s : State) : List Word :=
  armList.flatMap (fun a =>
    let cs := (armCells s a).map (fun p => p.1)
    let n := fun st => entCount s cs st
    [wN (n .atNew + 65536 * n .atOld), wN (n .other + 65536 * n .unknown)])

/-- `TALLY_REPORT`'s reply (R314). -/
def tallyReportBody (c : Cmd) (s : State) : Res :=
  match pw c 0 with
  | 0 => .ok 0 (tallySummary s) s
  | 1 => .ok 0 (tallyList s) s
  | _ => .ok 0 (tallyArms s) s

/-- `TALLY_REPORT` (R314). -/
def execTallyReport (c : Cmd) (s : State) : Host.Outcome State Fault Refusal :=
  ends (runCmd spTallyReport (tallyOwn c) tallyReportBody c s)

/-- The oldest mismatch of a kind has been held for `TALLY_PERSIST` (R311): one that is still there raises the fault. -/
def execTallyPersistExpiry (kind : Fin 3) (s : State) : Host.Outcome State Fault Refusal := whenClocked s <|
  let s := tallyFollow s kind
  ends (match mismatchFrom s kind with
    | none => s
    | some t =>
      let s := advanceTo s (t + 200000 * getN s P.TALLY_PERSIST 0)
      if causeHeld s F.TALLY_MISMATCH kind then s else raiseFault s F.TALLY_MISMATCH kind)

/-- The window of the membership test ends (R301): the charge of its last mark is added first, where the mark that ends
the window has yet to do its work. -/
def execMtWindowEnd (s : State) : Host.Outcome State Fault Refusal := whenClocked s <|
  let m := s.disc.mt.from_ + s.disc.mt.win
  ends (if s.disc.mt.st = 1 then
      atMark s m (fun s =>
        mtEnd (if s.per.count < m then mtChargeOf s s.per.count (s.per.nextMark - s.per.lastMark) else s))
    else s)

end Sys2Proof.Machine
end

