-- ==== Sys2Proof/Machine/Faults.lean ====
section
/-! DEFINITION. The commands and timers of the fault collector (R428 to R442). -/

namespace Sys2Proof.Machine

/-! ### `FAULT_READ` (R438) -/

/-- The row of `FAULT_READ`. -/
def spFaultRead : CmdSpec := { cmdSpec 0x70 1 1 true true with reserved := [(0, 0xFFFF0000)], maxReply := 256 }

/-- A fault record; one never written reads as four words of 0. -/
def fltRec (s : State) (i : Nat) : List Word :=
  let r := tabGet [] s.flt.recs (i % 256)
  if r.isEmpty then List.replicate 4 0 else r

/-- `FAULT_READ`'s checks and reply. -/
def faultReadBody (c : Cmd) (s : State) : Res :=
  let n := field (pw c 0) 15 8
  Res.check (errIf (n == 0 || decide (64 < n)) St.range 0x8000 n)
    (.ok 0 ((List.range n).flatMap (fun k => fltRec s (field (pw c 0) 7 0 + k))) s)

/-- `FAULT_READ` (R438). -/
def execFaultRead (c : Cmd) (s : State) : Host.Outcome State Fault Refusal :=
  ends (runCmd spFaultRead none faultReadBody c s)

/-! ### `FAULT_CLEAR` and `FAULT_ACK` (R429, R431) -/

/-- The row of `FAULT_CLEAR`; its target is an instance. -/
def spFaultClear : CmdSpec := { cmdSpec 0x71 1 1 true true with target := .own, reserved := [(0, 0xFFFF0000)] }

/-- `FAULT_CLEAR`'s checks and effect: the entry is freed; a leg's latch is released (R391). -/
def faultClearBody (c : Cmd) (s : State) : Res :=
  let s := gracesDue s
  let code := pw c 0 % 65536
  match fltFind s code (tgt c) with
  | none => .err ⟨St.state, 8, code⟩
  | some i =>
    if (fltOf s i).cause then .err ⟨St.state, 4, code⟩
    else .done (chopCleared (freeEntry s i) code (tgt c))

/-- `FAULT_CLEAR` (R431). -/
def execFaultClear (c : Cmd) (s : State) : Host.Outcome State Fault Refusal :=
  ends (runCmd spFaultClear none faultClearBody c s)

/-- The row of `FAULT_ACK`. -/
def spFaultAck : CmdSpec := { cmdSpec 0x72 1 1 true true with target := .own, reserved := [(0, 0xFFFF0000)] }

/-- An entry with its ACK bit set; a GRACE entry whose cause is gone becomes DEFUSED (R429). -/
def ackEntry (e : FltEntry) : FltEntry :=
  { e with ack := true, st := if e.st = .grace && !e.cause then .defused else e.st }

/-- `FAULT_ACK`'s check and effect. -/
def faultAckBody (c : Cmd) (s : State) : Res :=
  let s := gracesDue s
  let code := pw c 0 % 65536
  match fltFind s code (tgt c) with
  | none => .err ⟨St.state, 8, code⟩
  | some i => .done (setFlt s i (ackEntry (fltOf s i)))

/-- `FAULT_ACK` (R429). -/
def execFaultAck (c : Cmd) (s : State) : Host.Outcome State Fault Refusal :=
  ends (runCmd spFaultAck none faultAckBody c s)

/-! ### `FAULT_INJECT` and `FACTORY_UNLOCK` (R441, R442) -/

/-- The faults the belay detects itself (R417). -/
def belayCode (code : Nat) : Bool :=
  code == F.INSERT_COUNT || (decide (0x4001 ≤ code) && decide (code ≤ 0x4009) && code != F.SAFE_RESET_STUCK)

/-- An injected raise (R442): as the source would raise it, with a cause that lasts one tick; the belay applies the
reaction of one of its own codes with latch FLT; the overflow takes its own entry (R426). -/
def injectFault (s : State) (code inst : Nat) : State :=
  if belayCode code then
    let r := belayReaction s code inst
    let s := if r = 0 then s else belayLatch (belayReact s r) 11
    raiseWith s code inst .immediate (belayRecorded r) 0 ⟨true, true, true⟩
  else if code = F.FLT_OVERFLOW then
    let m : RaiseMode := ⟨true, true, false⟩
    if (fltOf s 255).st = .free then
      let e := newEntry s code 0 .note .none 0 0 m
      fltRecord (setFlt s 255 e) e 0 .none
    else reRaise s 255 (fltOf s 255) 0 0 m
  else
    let k := fltConfig s code
    raiseWith s code inst k.1 k.2.1 k.2.2 ⟨true, true, false⟩

/-- The row of `FAULT_INJECT`. -/
def spFaultInject : CmdSpec := { cmdSpec 0x73 1 1 true true with target := .own, reserved := [(0, 0xFFFF0000)] }

/-- `FAULT_INJECT`'s checks and effect. -/
def faultInjectBody (c : Cmd) (s : State) : Res :=
  let code := pw c 0 % 65536
  let known := match fltDef? code with
    | some d => d.hasInst (tgt c)
    | none => false
  Res.check (firstErr
    [ errIf (!s.pwr.testmode) St.factory 1 0, errIf (!s.flt.unlocked) St.factory 2 0,
      errIf (!known) St.range 0x8000 code ])
    (.done (injectFault s code (tgt c)))

/-- `FAULT_INJECT` (R442). -/
def execFaultInject (c : Cmd) (s : State) : Host.Outcome State Fault Refusal :=
  ends (runCmd spFaultInject none faultInjectBody c s)

/-- The row of `FACTORY_UNLOCK`. -/
def spFactoryUnlock : CmdSpec := cmdSpec 0xE1 2 2 true false

/-- `FACTORY_UNLOCK`'s checks and effect. -/
def factoryUnlockBody (c : Cmd) (s : State) : Res :=
  let ok := c.payload.getD 0 0 == Config.factoryKey.1 && c.payload.getD 1 0 == Config.factoryKey.2
  Res.check (firstErr [errIf (!s.pwr.testmode) St.factory 1 0, errIf (!ok) St.locked 0 0])
    (.done { s with flt := { s.flt with unlocked := true } })

/-- `FACTORY_UNLOCK` (R441). -/
def execFactoryUnlock (c : Cmd) (s : State) : Host.Outcome State Fault Refusal :=
  ends (runCmd spFactoryUnlock none factoryUnlockBody c s)

/-! ### Timers -/

/-- A grace time ends (R428). -/
def execGraceExpiry (entry : Fin 256) (s : State) : Host.Outcome State Fault Refusal := whenClocked s <|
  let e := fltOf s entry
  ends (if e.st = .grace then graceExpire (advanceTo s e.due) entry else s)

/-- The `ERR_N` pulse ends (R439). -/
def execErrPulseEnd (s : State) : Host.Outcome State Fault Refusal := whenClocked s <|
  ends (match s.flt.errEnd with
    | some t =>
      let s := advanceTo s t
      { s with flt := { s.flt with errEnd := none } }
    | none => s)

end Sys2Proof.Machine
end

