-- ==== Sys2Proof/Machine/Maint.lean ====
section
/-! DEFINITION. The commands and timers of the cleat, maintenance and retirement (R161 to R173, R285, R286). -/

namespace Sys2Proof.Machine

/-- E_STATE detail 0x0008 with the value given (R47). -/
def noSuch (n : Nat) : CmdErr := ⟨St.state, 8, n⟩

/-! ### `CLEAT_ADD` (R163) -/

/-- The override of `CLEAT_ADD`'s first word. -/
def ovrOf : Nat → Override
  | 1 => .forceBypass
  | 2 => .forceBlock
  | _ => .holdState

/-- The row of `CLEAT_ADD`. -/
def spCleatAdd : CmdSpec :=
  { cmdSpec 0x33 2 2 false true with target := .below 3072, reserved := [(0, 0xFFFFFFFC)] }

/-- E_RESOURCE detail 0x0001 with the FREE maintenance entries as DIAG (R163). -/
def noMaintEntry (s : State) : CmdErr := ⟨St.resource, 1, (maintFree s).length⟩

/-- The checks of `CLEAT_ADD` against its activity. -/
def cleatAddErr (s : State) (cell ovr id : Nat) : Option CmdErr :=
  let x := cellOf s cell
  match actAdmitted? s id with
  | none => some (noSuch id)
  | some i =>
    let a := tabGet Activity.empty s.cleat.acts i
    firstErr
      [ errIf (cleatHeld? s cell).isSome St.conflict 3 cell,
        if a.declared ≤ actHeld s id then some (noMaintEntry s) else none,
        errIf (ovr != 3 && decide (a.costs.getD x.arm 0 < actUse s id x.arm cell)) St.conflict 2 x.arm,
        if (maintFree s).isEmpty then some (noMaintEntry s) else none ]

/-- `CLEAT_ADD`'s checks and effect: the lowest FREE maintenance entry is HELD. -/
def cleatAddBody (c : Cmd) (s : State) : Res :=
  let cell := tgt c
  let ovr := pw c 0
  let id := pw c 1
  let e := (maintFree s).headD 0
  Res.check (firstErr
    [ standbyErr s, errIf (ovr == 0) St.range 0x8000 ovr,
      if (cellOf s cell).placed then none else some (notReady 2 cell),
      cleatAddErr s cell ovr id ])
    (.ok 0 [BitVec.ofNat 32 e]
      (cleatWatch (updCleat s e (fun _ => heldEntry s e cell (ovrOf ovr) false id (nextMarkNo s)))))

/-- `CLEAT_ADD` (R163). -/
def execCleatAdd (c : Cmd) (s : State) : Host.Outcome State Fault Refusal :=
  ends (runCmd spCleatAdd none cleatAddBody c s)

/-! ### `CLEAT_RELEASE` (R168) -/

/-- The row of `CLEAT_RELEASE`. -/
def spCleatRelease : CmdSpec := cmdSpec 0x34 1 1 false true

/-- `CLEAT_RELEASE`'s checks and effect: only a HELD maintenance entry (R168), also where the partition boundary has been
moved below it since (DESIGN CHOICE, log entry 42). -/
def cleatReleaseBody (c : Cmd) (s : State) : Res :=
  let e := pw c 0
  Res.check (firstErr
    [ standbyErr s, errIf (decide (31 < e)) St.range 0x8000 e,
      if (cleatOf s e).st != .held || (cleatOf s e).fault then some (noSuch e) else none ])
    (.done (releaseEntry s e (nextMarkNo s)))

/-- `CLEAT_RELEASE` (R168). -/
def execCleatRelease (c : Cmd) (s : State) : Host.Outcome State Fault Refusal :=
  ends (runCmd spCleatRelease none cleatReleaseBody c s)

/-! ### `MAINT_ADMIT` and `MAINT_END` (R171, R173) -/

/-- Maintenance entries declared by admitted activities (R171 step 5). -/
def declaredSum (s : State) : Nat :=
  sumNat (s.cleat.acts.map (fun p => if p.2.ending.isNone then p.2.declared else 0))

/-- The free activity slots, ascending. -/
def freeActs (s : State) : List Nat :=
  (List.range 16).filter (fun i => (tabGet Activity.empty s.cleat.acts i).id == 0)

/-- The row of `MAINT_ADMIT`. -/
def spMaintAdmit : CmdSpec := cmdSpec 0x35 8 8 false true

/-- The checks of R171, in its order. -/
def maintAdmitErr (c : Cmd) (s : State) : Option CmdErr :=
  let id := pw c 0
  let n := pw c 1
  let cost := fun (a : Nat) => pw c (2 + a)
  firstErr
    ([ standbyErr s, errIf (id == 0 || decide (65535 < id)) St.param 0x8000 id,
       errIf (actSlot? s id).isSome St.conflict 3 id, errIf (freeActs s).isEmpty St.resource 2 16,
       errIf (decide (16 < n)) St.range 0x8001 n ]
     ++ armList.map (fun a => errIf (decide (1024 < cost a)) St.range (0x8002 + a) (cost a))
     ++ [ errIf (decide (maintSize s < declaredSum s + n)) St.resource 1 (maintSize s - declaredSum s) ]
     ++ armList.map (fun a => errIf (decide (armLedger s a - cost a < 0)) St.conflict 2 a))

/-- `MAINT_ADMIT`'s effect: an activity in the lowest free slot, its costs charged at once. -/
def maintAdmitBody (c : Cmd) (s : State) : Res :=
  Res.check (maintAdmitErr c s)
    (.done (ledgerWatch (updAct s ((freeActs s).headD 0)
      (fun _ => ⟨pw c 0, pw c 1, armList.map (fun a => pw c (2 + a)), none⟩))))

/-- `MAINT_ADMIT` (R171). -/
def execMaintAdmit (c : Cmd) (s : State) : Host.Outcome State Fault Refusal :=
  ends (runCmd spMaintAdmit none maintAdmitBody c s)

/-- The row of `MAINT_END`. -/
def spMaintEnd : CmdSpec := cmdSpec 0x36 1 1 false true

/-- `MAINT_END`'s checks and effect: the marks go, the activity is ENDING until the second latch mark. -/
def maintEndBody (c : Cmd) (s : State) : Res :=
  let id := pw c 0
  match actAdmitted? s id with
  | none => Res.check (standbyErr s) (.err (noSuch id))
  | some i =>
    Res.check (firstErr [standbyErr s, if actHeld s id = 0 then none else some (noSuch id)])
      (.done (updAct (clearExcl s id) i (fun a => { a with ending := some 2 })))

/-- `MAINT_END` (R173). -/
def execMaintEnd (c : Cmd) (s : State) : Host.Outcome State Fault Refusal :=
  ends (runCmd spMaintEnd none maintEndBody c s)

/-- Whether the next mark is the latch mark of the epoch in force (R95). -/
def latchNext (s : State) : Bool := s.per.count + 1 + s.per.lat == s.per.epochStart + s.per.eff + 1

/-- An activity's slot is freed at the second latch mark after `MAINT_END` (R173). -/
def execActivityFree (slot : Fin 16) (s : State) : Host.Outcome State Fault Refusal := whenClocked s <|
  ends (match (tabGet Activity.empty s.cleat.acts slot).ending with
    | some n => if s.per.running && decide (n ≤ 1) && latchNext s then freeActivity (advanceTo s s.per.nextMark) slot else s
    | none => s)

/-! ### Entries over time -/

/-- A retry window ends without a failure (R166): the entry is released at that latch mark. -/
def execCleatRetryWindowEnd (entry : Fin 32) (s : State) : Host.Outcome State Fault Refusal := whenClocked s <|
  let x := cleatOf s entry
  ends (match x.latches with
    | some n =>
      if s.per.running && x.st == .held && x.fault && decide (n ≤ 1) && latchNext s && decide (x.since ≤ s.per.count) then
        releaseEntry (advanceTo s s.per.nextMark) entry (nextMarkNo s)
      else s
    | none => s)

/-- RELEASE_PENDING ends at mark m + L − 1 (R161). -/
def execCleatEntryFree (entry : Fin 32) (s : State) : Host.Outcome State Fault Refusal := whenClocked s <|
  ends (if (cleatOf s entry).st = .pending then atMark s (cleatOf s entry).freeAt (fun s => freeCleat s entry) else s)

/-! ### Retirement (R167, R285, R286) -/

/-- The row of `CELL_RETIRE`. -/
def spCellRetire : CmdSpec := { cmdSpec 0x37 0 0 false true with target := .below 3072, long := true }

/-- Whether the retirement of a cell takes its arm's ledger below zero (R167, R170): a cell that is unavailable
already counts no less when it is retired. -/
def retireBelow (s : State) (cell : Nat) : Bool :=
  laneActive s (laneOfCell cell) && decide (armLedger s (cellOf s cell).arm < 1)

/-- `CELL_RETIRE`'s checks and effect; without an entry it waits (R167). -/
def cellRetireBody (c : Cmd) (s : State) : Res :=
  let cell := tgt c
  let x := cellOf s cell
  Res.check (firstErr
    [ standbyErr s, if x.placed then none else some (notReady 2 cell), busyErr (opRun? s 0x37 cell),
      errIf (x.retired || x.retire != .no) St.conflict 3 cell,
      errIf (retireBelow s cell) St.conflict 2 x.arm ])
    (.accepted (startOp s 0x37 cell c [1]) (serveRetire (nextMarkNo s)))

/-- `CELL_RETIRE` (R167). -/
def execCellRetire (c : Cmd) (s : State) : Host.Outcome State Fault Refusal :=
  ends (runCmd spCellRetire none cellRetireBody c s)

/-- A `CELL_RETIRE` has waited 4 epochs for an entry (R167). -/
def execCellRetireTimeout (cell : Fin 3072) (s : State) : Host.Outcome State Fault Refusal := whenClocked s <|
  ends (match opRun? s 0x37 cell with
    | some o =>
      if o.args.headD 0 = 1 && (cellOf s cell).retire == .no then
        let s := advanceTo s (o.start + 4 * s.per.eff * s.per.per)
        completeErr s o ⟨St.timeout, 1, elapsedUs s o⟩
      else s
    | none => s)

/-- A fired bypass is not confirmed in time (R286). -/
def execPermConfirmTimeout (cell : Fin 3072) (s : State) : Host.Outcome State Fault Refusal := whenClocked s <|
  ends (match (cellOf s cell).retire with
    | .fired due => permFailed (advanceTo s due) cell
    | _ => s)

/-- The pair is sent again `FRM_PERM_TIMEOUT` after its failure (R286). -/
def execPermBypassRetry (cell : Fin 3072) (s : State) : Host.Outcome State Fault Refusal := whenClocked s <|
  ends (match (cellOf s cell).retire with
    | .again due => sendPair (advanceTo s due) cell
    | _ => s)

end Sys2Proof.Machine
end

