-- ==== Sys2Proof/Machine/Params.lean ====
section
/-! DEFINITION. Reading and writing parameters (R14, R15, R61 to R63, R518 to R520): `GET_PARAM`, `SET_PARAM`, the block
transfers, and the parameter writes that act by themselves. -/

namespace Sys2Proof.Machine

/-! ### Reads -/

/-- One read of a parameter word under a requester's shadow (R15): the low word of a pair fills it; a high word read
directly after it comes from it. -/
def readShadow (s : State) (x : Shadow) (id t : Nat) : Word × Shadow :=
  match paramDef? id with
  | some d =>
    if d.wide then (readParam s id t, ⟨readParam s (id + 1) t, some (id, t)⟩)
    else (readParam s id t, { x with last := none })
  | none =>
    (if (paramHigh? id).isSome && x.last == some (id - 1, t) then x.high else readParam s id t, { x with last := none })

/-- A strand's read of a parameter word: each strand is a requester of its own, and its shadow persists from task to
task (R15, R213). -/
def strandRead (s : State) (n id t : Nat) : Word × State :=
  let r := readShadow s (tabGet ⟨0, none⟩ s.host.shStrand n) id t
  (r.1, updHost s (fun h => { h with shStrand := tabSet ⟨0, none⟩ h.shStrand n r.2 }))

/-- A port's shadow (R15). -/
def shadowOf (s : State) (p : Port) : Shadow := if p = .pcie then s.host.shPcie else s.host.shSpi

/-- Change a port's shadow. -/
def setShadow (s : State) (p : Port) (x : Shadow) : State :=
  updHost s (fun h => if p = .pcie then { h with shPcie := x } else { h with shSpi := x })

/-- A port's read of a parameter word (R15). -/
def readAs (s : State) (p : Port) (id t : Nat) : Word × State :=
  let r := readShadow s (shadowOf s p) id t
  (r.1, setShadow s p r.2)

/-- A run of reads, in the order of the IDs. -/
def readRun (p : Port) (t : Nat) : List Nat → State → List Word × State
  | [], s => ([], s)
  | id :: l, s =>
    let r := readAs s p id t
    let q := readRun p t l r.2
    (r.1 :: q.1, q.2)

/-- The blocks whose parameters are available in LISTEN (R66). -/
def listenBlock (id : Nat) : Bool := id / 256 == 0x00 || id / 256 == 0x02

/-- The target check of a command that names one parameter (R11). -/
def paramOwn (c : Cmd) : Option CmdErr :=
  match paramAny? (pw c 0 % 65536) with
  | some d => paramTargetErr d (tgt c)
  | none => none

/-- The row of `GET_PARAM`. -/
def spGetParam (c : Cmd) : CmdSpec :=
  { cmdSpec 0x02 1 1 true true with
    target := .own, listen := listenBlock (pw c 0 % 65536), reserved := [(0, 0xFFFE0000)], maxReply := 2 }

/-- `GET_PARAM`'s checks and reply (R62). -/
def getParamBody (c : Cmd) (s : State) : Res :=
  let id := pw c 0 % 65536
  let t := tgt c
  match paramAny? id with
  | none => .err ⟨St.param, id, id⟩
  | some d =>
    let r := readAs s c.port id t
    if d.wide then .ok 0 [r.1, readParam s (id + 1) t] r.2
    else
      match if bit (pw c 0) 16 then stagedW s id t else none with
      | some w => .ok 0 [w] r.2
      | none => .ok 0 [r.1] r.2

/-- `GET_PARAM` (R62). -/
def execGetParam (c : Cmd) (s : State) : Host.Outcome State Fault Refusal :=
  ends (runCmd (spGetParam c) (paramOwn c) getParamBody c s)

/-! ### The checks of a write -/

/-- A value is refused with E_RANGE and the parameter's ID. -/
def badValue (id : Nat) (w : Word) (b : Bool) : Option CmdErr := errIf b St.range id w.toNat

/-- `CLT_EXCLUDE` (R172, R452). -/
def excludeErr (s : State) (t : Nat) (w : Word) : Option CmdErr :=
  let x := cellOf s t
  let above := match actAdmitted? s w.toNat with
    | some i => x.placed && decide ((tabGet Activity.empty s.cleat.acts i).costs.getD x.arm 0 < actUse s w.toNat x.arm t)
    | none => false
  firstErr
    [ standbyErr s,
      badValue P.CLT_EXCLUDE w (w.toNat != 0 && (actAdmitted? s w.toNat).isNone),
      errIf above St.conflict 2 x.arm ]

/-- `FLT_CFG` (R440). -/
def fltCfgErr (s : State) (t : Nat) (w : Word) : Option CmdErr :=
  let n := w.toNat
  let fixed := match fltDef? t with
    | some d => d.fixed
    | none => true
  badValue P.FLT_CFG w
    ((fixed && w != getP s P.FLT_CFG t) || (field n 1 0 == 0 && field n 4 2 != 0) || field n 15 5 != 0
      || field n 1 0 == 3 || decide (4 ≤ field n 4 2))

/-- `PER_PERIOD` (R77, R82, R83): pacing of a G1 string, the schedule, a change of the latency. -/
def periodErr (s : State) (w : Word) : Option CmdErr :=
  let v := w.toNat
  let n := placedCount s
  let g1 := s.lanes.any (fun p => p.2.st == .active && p.2.gen == 1)
  firstErr
    [ badValue P.PER_PERIOD w (decide (v < 400) && g1),
      badValue P.PER_PERIOD w (!schedCloses s v (latencyOf v n) none),
      if latencyOf v n != s.per.lat then deblockedErr s else none ]

/-- `DISC_MT_START` (R300). -/
def mtStartErr (s : State) (w : Word) : Option CmdErr :=
  if w = 1 then firstErr [deblockedErr s, if s.disc.placed then none else some (notReady 0 0)] else none

/-- The words of an expectation table up to its CRC (R309). -/
def expWords (s : State) (num : Nat) : List Word :=
  tableWords s num 0 (813 + (tableWord s num 0).toNat % 256)

/-- Whether the fields of an expectation table keep to their ranges (R309, R310). -/
def expFieldsOk (t : List Word) : Bool :=
  let k := (t.getD 0 0).toNat
  decide (1 ≤ k) && decide (k ≤ 64) &&
    (cellCodes ++ hubCodes).all (fun c =>
      let b := expByte t c
      !bit b 6 && (bit b 7 || decide (b % 64 < k)))

/-- `TALLY_EXPECT_ACT` (R310). -/
def expectErr (s : State) (w : Word) : Option CmdErr :=
  let t := expWords s w.toNat
  firstErr
    [ badValue P.TALLY_EXPECT_ACT w (!expFieldsOk t),
      errIf (crcWords t.dropLast != t.getLast?.getD 0) St.integrity 3 w.toNat ]

/-- The check of a value that its parameter's own rules make. -/
def specialErr (s : State) (id t : Nat) (w : Word) : Option CmdErr :=
  let n := w.toNat
  let bad := badValue id w
  if id = P.CLT_EXCLUDE then excludeErr s t w
  else if id = P.FLT_CFG then fltCfgErr s t w
  else if id = P.PER_PERIOD then periodErr s w
  else if id = P.ENC_INDEX_EXPECT then bad (decide (16777215 < n))
  else if id = P.LOOP_PATCH_FB || id = P.LOOP_PATCH_REF || id = P.LOOP_PATCH_FF || id = P.LOOP_PATCH_MU then
    bad (!srcOk n)
  else if id = P.ARM_I_SRC then bad (!tagOk (field n 5 0))
  else if id = P.CHOP_VDC_SRC then bad (!tagOk (field n 5 0))
  else if id = P.ADC_REG_CFG then bad (field n 1 0 == 3)
  else if id = P.ADC_INJ_CFG then bad ((injFields n).any (fun ch => decide (23 < ch)) || decide (9 < field n 25 22))
  else if id = P.ADC_PLAUS_CH then bad (decide (23 < field n 4 0))
  else if id = P.DEC_CFG then decCfgErr w
  else if id = P.CHOP_MODE then chopModeErr s t n
  else if id = P.CHOP_TRIP_CFG then bad (field n 15 8 == 0)
  else if id = P.LANE_GEN_MAX then bad (decide (64 ≤ t) && n != 3)
  else if id = P.ADC_PT_START then ptStartErr s n
  else if id = P.TRAJ_PRESET then trajPresetErr s t
  else if id = P.ENC_PRESET then busyErr (opRun? s 0x60 t)
  else if id = P.DISC_MT_START then mtStartErr s w
  else if id = P.TALLY_EXPECT_ACT then expectErr s w
  else none
where
  /-- Whether a result tag names a channel or a decimator (R341). -/
  tagOk (tag : Nat) : Bool := decide (tag < 24) || (decide (32 ≤ tag) && decide (tag < 48))

/-- The refusal of a write of a word to a parameter's instance by `SET_PARAM` (R14, R59 to R62, R518, R519). -/
def setErr (s : State) (id t : Nat) (w : Word) : Option CmdErr :=
  match paramDef? id with
  | none => some ⟨St.param, id, id⟩
  | some d =>
    if id / 256 = 0x40 then some ⟨St.locked, id, id⟩
    else
      match d.access with
      | .ro => some ⟨St.param, id, id⟩
      | .rs => some ⟨St.param, id, id⟩
      | .rw1c => clearErr d w
      | .rw => valueErr d
      | .wo => valueErr d
where
  /-- Value, group and stop-only checks in this order. -/
  valueErr (d : ParamDef) : Option CmdErr :=
    firstErr
      [ rangeErr d w, specialErr s d.id t w,
        errIf (d.group != 0 && groupArmed s d.group (groupTarget d.group t)) St.state 7 d.group,
        if d.stop then deblockedErr s else none ]

/-! ### The effect of a write -/

/-- An expectation table is activated (R310): expectations become old digests. -/
def expectAct (s : State) (num : Nat) : State :=
  let old := (cellCodes ++ hubCodes).foldl (fun o c => tabSet none o c (expDigest s c)) ([] : Tab (Option Word))
  tallyWatch { s with tally := { s.tally with exp_ := some (expWords s num), old := old } }

/-- Old digests are forgotten (R310). -/
def oldClear (s : State) : State := tallyWatch { s with tally := { s.tally with old := [] } }

/-- The effect of a write to a WO parameter (R14). -/
def writeAct (s : State) (id t : Nat) (w : Word) : State :=
  if id = P.TRAJ_PRESET then trajPresetSet s t w.toInt
  else if id = P.ENC_PRESET then encPresetSet s t w.toInt
  else if id = P.ADC_PT_START then ptStart s w.toNat
  else if id = P.DISC_MT_START then if w = 1 then updMt s (fun m => { m with armed := true }) else mtAbort s
  else if id = P.TALLY_EXPECT_ACT then expectAct s w.toNat
  else if id = P.TALLY_OLD_CLEAR then oldClear s
  else if id = P.TBUS_FORCE then
    (List.range 4).foldl (fun s n => if bit w.toNat n then tbusDrive s n else s) s
  else s

/-- What follows the write of an RW parameter; `old` is its word before. -/
def afterSet (s : State) (id t : Nat) (old : Word) : State :=
  if id = P.CHOP_FORCE then chopForceSet s t
  else if id = P.CHOP_MODE then chopModeSet s t
  else if id = P.TBUS_DELAY then updLine s t (fun l =>
    if l.delayAt = some s.tick then l else { l with delayAt := some s.tick, delayWas := old.toNat })
  else if id = P.ADC_REG_CFG then adcKick s t
  else if id = P.ADC_REG_CH then adcKick s (t / 16)
  else if id = P.ENC_MODE then encModeSet s t old.toNat
  else if id = P.ENC_LIM_RELEASE then limReleases s t
  else if id = P.ENC_ILLEGAL_MAX then illegalWatch s t
  else if id = P.ENC_LATCH_CFG then
    if bit (getN s id t) 0 then updEnc s t (fun x => { x with latchAt := none }) else s
  else if id = P.DEC_CFG then decCfgSet s t
  else if id = P.CLT_MAINT_RESERVE then cleatWatch s
  else if id = P.CLT_WARN_FREE then cleatWatch s
  else if id = P.ARM_CELLS_REQUIRED then ledgerWatch s
  else if id = P.FRM_HUB_HOLD_MAX then
    (List.range 64).foldl (fun s l => if laneActive s l then queueOwn s l else s) s
  else if id = P.STR_TRACE_CTRL then traceCtrl s old.toNat (getN s id t)
  else if id = P.TALLY_PEER_MASK then tallyWatch s
  else if id = P.DUP_CFG then if s.pwr.state = .run then dupEnter s else s
  else if id = P.PWR_LANE_EN then laneEnSet s
  else s

/-- The effect of a write that is not refused (R14, R56, R61). -/
def setWord (s : State) (id t : Nat) (w : Word) : State :=
  match paramDef? id with
  | none => s
  | some d =>
    match d.access with
    | .rw1c => clearSet s id t w
    | .wo => writeAct s id t w
    | .rw =>
      if d.group ≠ 0 then stageW s id t w
      else tallyTouch (afterSet (putP s id t w) id t (getP s id t)) id
    | _ => s

/-- Write a run of words in order (R63): the first refusal refuses the whole. -/
def setRun (t : Nat) : List (Nat × Word) → State → CmdErr ⊕ State
  | [], s => .inr s
  | (id, w) :: l, s =>
    match setErr s id t w with
    | some e => .inl e
    | none => setRun t l (setWord s id t w)

/-- The row of `SET_PARAM`. -/
def spSetParam (c : Cmd) : CmdSpec :=
  let id := pw c 0 % 65536
  let n := match paramDef? id with
    | some d => if d.wide then 3 else 2
    | none => 2
  { cmdSpec 0x03 n n true true with target := .own, listen := listenBlock id, reserved := [(0, 0xFFFF0000)] }

/-- `SET_PARAM`'s checks and effect (R61). -/
def setParamBody (c : Cmd) (s : State) : Res :=
  let id := pw c 0 % 65536
  let w := c.payload.getD 1 0
  Res.check (setErr s id (tgt c) w) (.done (setWord s id (tgt c) w))

/-- A `SET_PARAM` under interpretation. -/
def setParam (c : Cmd) (s : State) : State := runCmd (spSetParam c) (paramOwn c) setParamBody c s

/-- `SET_PARAM` (R61). -/
def execSetParam (c : Cmd) (s : State) : Host.Outcome State Fault Refusal := ends (setParam c s)

/-- The `SET_PARAM` packet that writes a named parameter: its payload is the value. -/
def paramCmd (id : Nat) (c : Cmd) : Cmd := { c with payload := wN id :: c.payload }

/-- `TRAJ_PRESET` written (R207). -/
def execTrajPreset (c : Cmd) (s : State) : Host.Outcome State Fault Refusal :=
  ends (setParam (paramCmd P.TRAJ_PRESET c) s)

/-- `ENC_PRESET` written (R372). -/
def execEncPreset (c : Cmd) (s : State) : Host.Outcome State Fault Refusal :=
  ends (setParam (paramCmd P.ENC_PRESET c) s)

/-- `ENC_LATCH_CFG` written (R365). -/
def execEncLatchCfg (c : Cmd) (s : State) : Host.Outcome State Fault Refusal :=
  ends (setParam (paramCmd P.ENC_LATCH_CFG c) s)

/-- `DISC_MT_START` written (R300). -/
def execDiscMtStart (c : Cmd) (s : State) : Host.Outcome State Fault Refusal :=
  ends (setParam (paramCmd P.DISC_MT_START c) s)

/-- `DISC_MT_START` written with 0 (R300): the value is part of the row. -/
def execDiscMtAbort (c : Cmd) (s : State) : Host.Outcome State Fault Refusal :=
  ends (setParam (paramCmd P.DISC_MT_START { c with payload := 0 :: c.payload }) s)

/-- `TALLY_EXPECT_ACT` written (R310). -/
def execTallyExpectAct (c : Cmd) (s : State) : Host.Outcome State Fault Refusal :=
  ends (setParam (paramCmd P.TALLY_EXPECT_ACT c) s)

/-- `TALLY_OLD_CLEAR` written (R310). -/
def execTallyOldClear (c : Cmd) (s : State) : Host.Outcome State Fault Refusal :=
  ends (setParam (paramCmd P.TALLY_OLD_CLEAR c) s)

/-- `CLT_EXCLUDE` written (R172). -/
def execCltExclude (c : Cmd) (s : State) : Host.Outcome State Fault Refusal :=
  ends (setParam (paramCmd P.CLT_EXCLUDE c) s)

/-- `ADC_PT_START` written (R347). -/
def execAdcPtStart (c : Cmd) (s : State) : Host.Outcome State Fault Refusal :=
  ends (setParam (paramCmd P.ADC_PT_START c) s)

/-- `DEC_CFG` written (R353). -/
def execDecCfg (c : Cmd) (s : State) : Host.Outcome State Fault Refusal := ends (setParam (paramCmd P.DEC_CFG c) s)

/-- `TBUS_FORCE` written (R472). -/
def execTbusForce (c : Cmd) (s : State) : Host.Outcome State Fault Refusal :=
  ends (setParam (paramCmd P.TBUS_FORCE c) s)

/-- `CHOP_MODE` written (R378). -/
def execChopMode (c : Cmd) (s : State) : Host.Outcome State Fault Refusal := ends (setParam (paramCmd P.CHOP_MODE c) s)

/-- `CHOP_FORCE` written (R381). -/
def execChopForce (c : Cmd) (s : State) : Host.Outcome State Fault Refusal :=
  ends (setParam (paramCmd P.CHOP_FORCE c) s)

/-- `PWR_LANE_EN` written (R482). -/
def execPwrLaneEn (c : Cmd) (s : State) : Host.Outcome State Fault Refusal :=
  ends (setParam (paramCmd P.PWR_LANE_EN c) s)

/-- `FRM_HUB_HOLD_MAX` written (R283). -/
def execFrmHubHoldMax (c : Cmd) (s : State) : Host.Outcome State Fault Refusal :=
  ends (setParam (paramCmd P.FRM_HUB_HOLD_MAX c) s)

/-- `STR_TRACE_CTRL` written (R231). -/
def execStrTraceCtrl (c : Cmd) (s : State) : Host.Outcome State Fault Refusal :=
  ends (setParam (paramCmd P.STR_TRACE_CTRL c) s)

/-- `FLT_ERR_HOLD` written (R439). -/
def execFltErrHold (c : Cmd) (s : State) : Host.Outcome State Fault Refusal :=
  ends (setParam (paramCmd P.FLT_ERR_HOLD c) s)

/-! ### Tables and block transfers (R63, R64, R520) -/

/-- The length of a table in words, none for an undefined number (R520). -/
def tableLen (num : Nat) : Option Nat :=
  if 0x0100 ≤ num ∧ num < 0x0106 then some 2056
  else if 0x0108 ≤ num ∧ num < 0x010E then some 2056
  else if 0x0200 ≤ num ∧ num < 0x0210 then some 18
  else if num = 0x0300 then some 2083
  else if 0x0400 ≤ num ∧ num < 0x0410 then some 1002
  else if num = 0x0500 ∨ num = 0x0501 then some 877
  else if num = 0x0600 ∨ num = 0x0601 then some 458
  else if num = 0x0800 then some 256
  else if num = 0x0900 then some 513
  else if num = 0x0A00 ∨ num = 0x0A01 then some 353
  else none

/-- Whether a table is written by the host. -/
def tableWritable (num : Nat) : Bool :=
  (decide (0x0200 ≤ num) && decide (num < 0x0210)) || (decide (0x0400 ≤ num) && decide (num < 0x0800))
    || (decide (0x0A00 ≤ num) && decide (num < 0x0A02))

/-- A word of a balancing buffer; beyond its contents it reads 0 (R520). -/
def bufWord (b : Option Buf) (i : Nat) : Word :=
  match b with
  | some b => b.words.getD i 0
  | none => 0

/-- A word of a table as `GET_BLOCK` reads it. -/
def tableRead (s : State) (num i : Nat) : Word :=
  if num < 0x0108 then bufWord (armOf s (num - 0x0100)).active i
  else if num < 0x0200 then bufWord (armOf s (num - 0x0108)).written i
  else if num < 0x0300 then gainWord s (num - 0x0200) i
  else if num = 0x0800 then tabGet 0 s.meas.ring i
  else if num = 0x0900 then fltTableWord s i
  else tableWord s num i

/-- The IDs a parameter run names, up to the last ID of 16 bits. -/
def runIds (c : Cmd) : List Nat :=
  let first := pw c 0 % 65536 + pw c 1
  (List.range (min (pw c 2) (65536 - first))).map (fun i => first + i)

/-- The target check of a block transfer (R11, R44 step 5). -/
def blockTargetErr (c : Cmd) : Option CmdErr :=
  if bit (pw c 0) 16 then errIf (tgt c != 0) St.range 0xFFFD (tgt c)
  else (runIds c).findSome? (fun id =>
    match paramAny? id with
    | some d => paramTargetErr d (tgt c)
    | none => none)

/-- The payload checks of R520. -/
def blockWordsErr (c : Cmd) : Option CmdErr :=
  let w0 := pw c 0
  let off := pw c 1
  let n := pw c 2
  firstErr
    [ errIf (decide (c.payload.length < 3)) St.param 0xFFFF 3,
      errIf (field w0 31 17 != 0) St.param 0x8000 w0,
      errIf (n == 0 || decide (1016 < n)) St.range 0x8002 n,
      if bit w0 16 then
        match tableLen (w0 % 65536) with
        | none => some ⟨St.param, 0x8000, w0⟩
        | some len =>
          firstErr [errIf (decide (len ≤ off)) St.range 0x8001 off, errIf (decide (len < off + n)) St.range 0x8002 n]
      else errIf (decide (65536 < w0 % 65536 + off + n)) St.range 0x8002 n ]

/-- The own checks of both block transfers. -/
def blockOwn (c : Cmd) : Option CmdErr := firstErr [blockTargetErr c, blockWordsErr c]

/-- The row of `GET_BLOCK`. -/
def spGetBlock : CmdSpec := { cmdSpec 0x05 3 3 true true with target := .own, maxReply := 1016 }

/-- `GET_BLOCK`'s reply (R62, R63). -/
def getBlockBody (c : Cmd) (s : State) : Res :=
  if bit (pw c 0) 16 then
    .ok 0 ((List.range (pw c 2)).map (fun i => tableRead s (pw c 0 % 65536) (pw c 1 + i))) s
  else
    let r := readRun c.port (tgt c) (runIds c) s
    .ok 0 r.1 r.2

/-- `GET_BLOCK` (R520). -/
def execGetBlock (c : Cmd) (s : State) : Host.Outcome State Fault Refusal :=
  ends (runCmd spGetBlock (blockOwn c) getBlockBody c s)

/-- Write words of a host-written table; a gain table's words are staged (R56, R190). -/
def tableWrite (s : State) (num i : Nat) (ws : List Word) : State :=
  if num < 0x0300 then
    { s with gain := ws.zipIdx.foldl (fun g p => tabSet none g ((num - 0x0200) * 32 + i + p.2) (some p.1)) s.gain }
  else putTable s num i ws

/-- The row of `SET_BLOCK`: three words and the data. -/
def spSetBlock (c : Cmd) : CmdSpec := { cmdSpec 0x06 (3 + pw c 2) (3 + pw c 2) true true with target := .own }

/-- `SET_BLOCK`'s checks and effect (R62, R63). -/
def setBlockBody (c : Cmd) (s : State) : Res :=
  let num := pw c 0 % 65536
  let data := c.payload.drop 3
  if bit (pw c 0) 16 then
    if !tableWritable num then .err ⟨St.param, 0x8000, pw c 0⟩
    else if num < 0x0300 && groupArmed s 5 (num - 0x0200) then .err ⟨St.state, 7, 5⟩
    else .done (tableWrite s num (pw c 1) data)
  else
    match setRun (tgt c) ((runIds c).zip data) s with
    | .inl e => .err e
    | .inr s => .done s

/-- `SET_BLOCK` (R63). -/
def execSetBlock (c : Cmd) (s : State) : Host.Outcome State Fault Refusal :=
  ends (runCmd (spSetBlock c) (blockOwn c) setBlockBody c s)

/-! ### `COMMIT_GROUP` (R57, R58) -/

/-- The group a commit names. -/
def commitCode (c : Cmd) : Nat := pw c 0 % 256

/-- A staged word as a number. -/
def stagedN (s : State) (id t : Nat) : Option Nat := (stagedW s id t).map (fun w => w.toNat)

/-- Fails if both of two staged values are there and a test of them holds. -/
def crossErr (a b : Option Nat) (bad : Nat → Nat → Bool) (detail : Nat) (diag : Nat → Nat → Nat) : Option CmdErr :=
  match a, b with
  | some x, some y => errIf (bad x y) St.range detail (diag x y)
  | _, _ => none

/-- The cross-field checks of CG_PERIOD (R75, R77, R82, R83). -/
def crossPeriod (s : State) : Option CmdErr :=
  firstErr
    [ crossErr (stagedN s P.PER_EPOCH 0) (stagedN s P.PER_PERIOD 0) (fun e p => decide (e * p < s.per.minEpoch))
        P.PER_EPOCH (fun e _ => e),
      match stagedW s P.PER_PERIOD 0 with
      | some w => periodErr s w
      | none => none ]

/-- The cross-field checks of CG_CHOP (R375). -/
def crossChop (s : State) (n : Nat) : Option CmdErr :=
  let per := stagedN s P.CHOP_PERIOD n
  let dt := stagedN s P.CHOP_DEADTIME n
  firstErr
    [ crossErr per dt (fun t d => decide (t ≤ 2 * d)) P.CHOP_DEADTIME (fun _ d => d),
      match per, dt, stagedN s P.CHOP_DUTY n with
      | some t, some d, some x => errIf (decide (t - 2 * d < x)) St.range P.CHOP_DUTY x
      | some t, none, some x =>
        errIf (decide (t - 2 * getN s P.CHOP_DEADTIME n < x)) St.range P.CHOP_DUTY x
      | none, some d, some x =>
        errIf (decide (getN s P.CHOP_PERIOD n - 2 * d < x)) St.range P.CHOP_DUTY x
      | _, _, _ => none ]

/-- The cross-field checks of CG_LOOP: MIN below MAX. -/
def crossLoop (s : State) (n : Nat) : Option CmdErr :=
  match stagedW s P.LOOP_OUT_MIN n, stagedW s P.LOOP_OUT_MAX n with
  | some a, some b => errIf (decide (b.toInt ≤ a.toInt)) St.range P.LOOP_OUT_MAX b.toNat
  | _, _ => none

/-- The cross-field checks of CG_BUD among the staged fields: sum of floors, floors and ceilings. -/
def crossBud (s : State) : Option CmdErr :=
  let fl := (List.range 6).filterMap (fun a => stagedN s P.BUD_ARM_FLOOR a)
  firstErr
    ((match stagedN s P.BUD_EPOCH_TOTAL 0 with
      | some t => errIf (decide (t < sumNat fl)) St.range P.BUD_ARM_FLOOR (sumNat fl)
      | none => none)
     :: (List.range 6).map (fun a =>
        crossErr (stagedN s P.BUD_ARM_FLOOR a) (stagedN s P.BUD_ARM_CEIL a) (fun f c => decide (c < f))
          P.BUD_ARM_CEIL (fun _ c => c)))

/-- The cross-field constraints of a group among its staged fields (R57). -/
def groupCross (s : State) (code t : Nat) : Option CmdErr :=
  match code with
  | 1 => crossPeriod s
  | 3 => crossChop s t
  | 4 => crossErr (stagedN s P.ENC_INDEX_EXPECT t) (stagedN s P.ENC_CPR t) (fun e c => c != 0 && decide (c ≤ e))
          P.ENC_INDEX_EXPECT (fun e _ => e)
  | 5 => crossLoop s t
  | 6 => crossBud s
  | _ => none

/-- The target check of `COMMIT_GROUP` (R55). -/
def commitOwn (c : Cmd) : Option CmdErr :=
  let n := groupTargets (commitCode c)
  errIf (n != 0 && decide (n ≤ tgt c)) St.range 0xFFFD (tgt c)

/-- The row of `COMMIT_GROUP`. -/
def spCommitGroup : CmdSpec :=
  { cmdSpec 0x04 1 1 true true with target := .own, reserved := [(0, 0xFFFFFE00)], maxReply := 1 }

/-- Commit without DISCARD (R57, R58). -/
def commitArm (c : Cmd) (s : State) : Res :=
  let g := commitCode c
  let t := tgt c
  let reply : List Word := [wN (groupBoundary g)]
  if groupArmed s g t then .ok 2 reply s
  else if !groupStaged s g t then .ok 1 reply s
  else
    Res.check (firstErr [groupCross s g t, if groupStop s g t then deblockedErr s else none])
      (.ok 0 reply (setArmed s g t true))

/-- Commit with DISCARD (R58). -/
def commitDrop (c : Cmd) (s : State) : Res :=
  let g := commitCode c
  let t := tgt c
  let s' := dropGroup s g t
  let s' := if g = 1 then { s' with per := { s'.per with boundary := none } } else s'
  .ok (if groupStaged s g t then 0 else 1) [wN (groupBoundary g)] s'

/-- `COMMIT_GROUP`'s checks and effect. -/
def commitGroupBody (c : Cmd) (s : State) : Res :=
  if groupTargets (commitCode c) = 0 then .err ⟨St.param, 0x8000, pw c 0⟩
  else if bit (pw c 0) 8 then commitDrop c s else commitArm c s

/-- `COMMIT_GROUP` (R57). -/
def execCommitGroup (c : Cmd) (s : State) : Host.Outcome State Fault Refusal :=
  ends (runCmd spCommitGroup (commitOwn c) commitGroupBody c s)

/-- `COMMIT_GROUP` with DISCARD (R58): the bit is part of the row. -/
def execCommitGroupDiscard (c : Cmd) (s : State) : Host.Outcome State Fault Refusal :=
  let c : Cmd := { c with payload := c.payload.modifyHead (fun w => w ||| 0x100) }
  ends (runCmd spCommitGroup (commitOwn c) commitGroupBody c s)

end Sys2Proof.Machine
end

