-- ==== Sys2Proof/Machine/Power.lean ====
section
/-! DEFINITION. Power states, clocks, resets and self-test (R481 to R494). -/

namespace Sys2Proof.Machine

/-! ### Towards a state (R484, R492) -/

/-- RUN is entered once the lane PLLs of the enabled domains are locked, after the dispatch test where one is due
(R483, R492). -/
def runReady (s : State) : State :=
  if s.pwr.wait = .lanePll && lanePllsOk s then
    if bit (getN s P.PWR_BIST 0) 7 then enterRun s
    else updPwr s (fun p => { p with wait := .dispatch (s.tick + 400000) })
  else s

/-- The next step towards the target, and entry to RUN where nothing is left to wait for. -/
def powerGo (s : State) : State := runReady (powerNext s)

/-- The row of `POWER_STATE`. -/
def spPowerState : CmdSpec := { cmdSpec 0xC0 1 1 true true with listen := true, long := true }

/-- The state of a code. -/
def powerOf : Nat → Power
  | 0 => .dormant
  | 1 => .listen
  | 2 => .ready
  | _ => .run

/-- Whether the controller is between two states. -/
def inTransit (s : State) : Bool :=
  match s.pwr.wait with
  | .none => false
  | .dormant _ => false
  | _ => true

/-- `POWER_STATE`'s checks and start (R484). -/
def powerStateBody (c : Cmd) (s : State) : Res :=
  let w := pw c 0
  Res.check (firstErr
    [ errIf (decide (3 < w)) St.range 0x8000 w, busyErr (opAny? s 0xC0),
      if w != 3 && s.pwr.state == .run then deblockedErr s else none ])
    (.accepted (startOp s 0xC0 0 c [w]) (fun s =>
      let s := updPwr s (fun p => { p with target := powerOf w })
      if inTransit s then s else powerGo (updPwr s (fun p => { p with wait := .none }))))

/-- `POWER_STATE` (R484). -/
def execPowerState (c : Cmd) (s : State) : Host.Outcome State Fault Refusal :=
  ends (runCmd spPowerState none powerStateBody c s)

/-! ### Resets (R491) -/

/-- `PORST_N` low, or the supervisor (R491): everything is reset. -/
def execPorstAssert (supervisor : Bool) (s : State) : Host.Outcome State Fault Refusal :=
  ends (putN { State.reset with tick := s.tick, freeCtr := s.freeCtr, pending := s.pending } P.PWR_RESET_CAUSE 0
    (if supervisor then 2 else 1))

/-- `PORST_N` is released (R483, R491): `TESTMODE` is sampled, LISTEN follows 2 ms later. -/
def execPorstRelease (testmode : Bool) (s : State) : Host.Outcome State Fault Refusal :=
  ends (if s.pwr.held then
      let c := getN s P.PWR_RESET_CAUSE 0
      let s := putN s P.PWR_RESET_CAUSE 0 ((if c = 0 then 1 else c) + 8 * b2n testmode)
      updPwr s (fun p => { p with held := false, wait := .listen (s.tick + 400000), relAt := s.tick, testmode := testmode })
    else s)

/-- LISTEN is entered (R483, R487); `wakeLow` is `WAKE_N` recognised low at that moment. -/
def execListenEntry (wakeLow : Bool) (s : State) : Host.Outcome State Fault Refusal :=
  ends (match s.pwr.held, s.pwr.wait with
    | false, .listen due =>
      let s := advanceTo s due
      let s := updPwr s (fun p => { p with state := .listen, target := .listen, wait := .none, domains := 5 })
      if wakeLow then powerGo (updPwr s (fun p => { p with target := .ready })) else s
    | _, _ => s)

/-! ### DORMANT (R483, R487) -/

/-- The exit from DORMANT (R16, R483, R491): every parameter takes its reset value, LISTEN follows 2 ms later. -/
def wake (s : State) : State :=
  let t := s.pwr.testmode
  let r := putN { State.reset with tick := s.tick, freeCtr := s.freeCtr, pending := s.pending } P.PWR_RESET_CAUSE 0
    (4 + 8 * b2n t)
  { r with pwr := { PwrSt.reset with
      held := false, wait := .listen (s.tick + 400000), relAt := s.pwr.relAt, onXtal := s.pwr.onXtal, xtalGone := s.pwr.xtalGone, testmode := t } }

/-- `WAKE_N` is recognised low (R487): DORMANT is left; while DORMANT is being entered it is remembered. `testmode` is
the level at the exit (R491). -/
def execWakeNLow (testmode : Bool) (s : State) : Host.Outcome State Fault Refusal :=
  ends (match s.pwr.held, s.pwr.state, s.pwr.wait with
    | false, .dormant, _ => wake (updPwr s (fun p => { p with testmode := testmode }))
    | false, _, .dormant _ => updPwr s (fun p => { p with wakeLow := true, testmode := testmode })
    | _, _, _ => s)

/-- DORMANT is entered 10 ms after the completion reply (R483, R485): only PD0 stays on. -/
def execDormantEntry (s : State) : Host.Outcome State Fault Refusal :=
  ends (match s.pwr.wait with
    | .dormant due =>
      let s := advanceTo s due
      let d := { State.reset with
        tick := s.tick, freeCtr := s.freeCtr, pending := s.pending
        params := tabFilter (fun k _ => k / 65536 / 256 == 0x00 || k / 65536 / 256 == 0x02) s.params
        pwr := { s.pwr with state := .dormant, target := .dormant, wait := .none, domains := 1 } }
      if s.pwr.wakeLow then wake d else d
    | _ => s)

/-! ### The always-on clock (R488) -/

/-- The crystal has completed 1,024 cycles: the clock switches to it within 50 ms of the release (R488). -/
def execXtalSwitch (s : State) : Host.Outcome State Fault Refusal :=
  ends (if s.pwr.held || s.pwr.xtalGone || decide (s.pwr.relAt + 10000000 < s.tick) then s else updPwr s (fun p => { p with onXtal := true }))

/-- The crystal misses 4 cycles: back to the RC until the next `PORST_N` (R488). -/
def execXtalFail (s : State) : Host.Outcome State Fault Refusal :=
  ends (if s.pwr.onXtal then orP (updPwr s (fun p => { p with onXtal := false, xtalGone := true })) P.PWR_EVENT 0 2 else s)

/-! ### The core PLL and BIST (R489, R490, R492) -/

/-- Long operations that end when the core clock stops (R486): those of RUN where RUN is left, and those of PD3 and
PD11. -/
def endsWithPll (run : Bool) (o : LongOp) : Bool :=
  (run && endsWithRun o) || [0x50, 0x51, 0x62].contains o.op || (o.op == 0x11 && o.args.getD 0 0 == 2)

/-- Those operations end, in ascending opcode order (R486). -/
def endPllOps (s : State) : State :=
  (sortBy (fun (a b : LongOp) => decide (a.op ≤ b.op)) (s.ops.filter (endsWithPll (s.pwr.state == .run)))).foldl endRunOp s

/-- The PLL has locked again: READY is entered, RUN is left (R490); a `POWER_STATE` towards RUN has ended. -/
def relock (s : State) : State :=
  let s := updPwr s (fun p => { p with corePll := true, pllAt := s.tick, wait := .none })
  let s := endPllOps s
  let s := if s.pwr.state = .run then leaveRun s
    else updPwr (domains s 0 0x7E0) (fun p => { p with lanePll := 0 })
  match opAny? s 0xC0 with
  | none => updPwr s (fun p => { p with target := .ready })
  | some o =>
    if s.pwr.target = .run then completeErr (updPwr s (fun p => { p with target := .ready })) o ⟨St.state, 9, 0⟩
    else powerGo s

/-- The core PLL locks: on the way to READY BIST starts (R489, R492); after a loss READY is entered (R490). -/
def execCorePllLock (s : State) : Host.Outcome State Fault Refusal :=
  ends (match s.pwr.wait with
    | .corePll => updPwr s (fun p => { p with corePll := true, pllAt := s.tick, wait := .bist (s.tick + 4000000) })
    | .relock => relock s
    | _ => s)

/-- The core PLL loses lock (R490): the core clock stops, the belay trips, the PLL restarts. -/
def execCorePllLoss (s : State) : Host.Outcome State Fault Refusal :=
  ends (if !s.pwr.corePll then s
    else
      let s := orP (updPwr s (fun p => { p with corePll := false })) P.PWR_EVENT 0 1
      let s := internalFail (updBelay s (fun x => { x with clockOk := false })) 0
      match s.pwr.state with
      | .listen => updPwr s (fun p => { p with wait := .corePll })
      | _ => updPwr s (fun p => { p with wait := .relock }))

/-- The word of `PWR_BIST` after BIST (R494): a bit of [6:2] and of [23:16] is set for what failed; a failed strand does
not take PASS away (R492). -/
def bistWord (sram rom belayClock tripBack : Bool) (strandsBad : Nat) : Nat :=
  let bad := sram || rom || belayClock || tripBack
  1 + 2 * b2n (!bad) + 4 * b2n sram + 8 * b2n rom + 16 * b2n (strandsBad != 0) + 32 * b2n belayClock + 64 * b2n tripBack
    + 65536 * strandsBad

/-- BIST ends (R492): the operands are what failed. READY is entered. -/
def execBistDone (sram rom belayClock tripBack : Bool) (strandsBad : BitVec 4) (s : State) :
    Host.Outcome State Fault Refusal :=
  ends (match s.pwr.wait with
    | .bist due =>
      let s := advanceTo s due
      let s := putN s P.PWR_BIST 0 (bistWord sram rom belayClock tripBack strandsBad.toNat)
      let s := (List.range 4).foldl (fun s n => updStrand s n (fun x => { x with offline := bit strandsBad.toNat n })) s
      let s := updPwr s (fun p => { p with state := .ready, wait := .none })
      powerGo { s with host := { s.host with linkUp := true } }
    | _ => s)

/-! ### Lane PLLs and the dispatch test (R489, R490, R492) -/

/-- A lane domain's PLL locks (R489). -/
def execLanePllLock (quad : Fin 4) (s : State) : Host.Outcome State Fault Refusal :=
  ends (if bit s.pwr.domains.toNat (7 + quad.val) then
      runReady (updPwr s (fun p => { p with lanePll := p.lanePll ||| BitVec.ofNat 4 (2 ^ quad.val) }))
    else s)

/-- The dispatch test ends (R492): RUN is entered, or refused and PD5 to PD10 turn off again. -/
def execDispatchTestDone (pass : Bool) (strandsBad : BitVec 4) (s : State) : Host.Outcome State Fault Refusal :=
  whenClocked s <| ends (match s.pwr.wait with
    | .dispatch due =>
      let s := advanceTo s due
      let s := orP s P.PWR_BIST 0 (128 + 256 * b2n pass + 2 ^ 20 * strandsBad.toNat)
      if pass then enterRun s
      else powerFail (updPwr (domains s 0 0x7E0) (fun p => { p with lanePll := 0 }))
    | _ => s)

/-- RUN is left at the next mark after the step down (R485). -/
def execRunToReady (s : State) : Host.Outcome State Fault Refusal :=
  whenClocked s <| ends (match s.per.running, s.pwr.wait with
    | true, .leaveRun => nextMark s [] []
    | _, _ => s)

/-- One lane of a domain whose PLL has lost lock (R490): as R247. -/
def lanePllLost (s : State) (l : Nat) : State :=
  match (laneOf s l).st with
  | .active =>
    match opRun? s 0x23 l with
    | some o => lockLost { s with freeCtr := s.freeCtr + 2080 } l (freePoints s o)
    | none => lockLost s l []
  | .lock => bringupFail s l 1 (fun _ => ⟨St.state, 0xD, l⟩)
  | .caps => bringupFail s l 1 (fun _ => ⟨St.state, 0xD, l⟩)
  | _ => s

/-- A lane domain's PLL loses lock (R490). -/
def execLanePllLoss (quad : Fin 4) (s : State) : Host.Outcome State Fault Refusal :=
  whenClocked s <| ends (if bit s.pwr.lanePll.toNat quad then
      let s := updPwr s (fun p => { p with lanePll := p.lanePll &&& ~~~(BitVec.ofNat 4 (2 ^ quad.val)) })
      (quadLanes quad).foldl lanePllLost (orP s P.PWR_EVENT 0 4)
    else s)

end Sys2Proof.Machine
end

