-- ==== Sys2Proof/Machine/Reel.lean ====
section
/-! DEFINITION. The reel's commands and timers and the trigger bus (R464 to R480). -/

namespace Sys2Proof.Machine

/-! ### `REEL_ARM` (R465, R468) -/

/-- The words of a reel configuration table. -/
def reelTable (s : State) (num : Nat) : List Word := tableWords s num 0 353

/-- A word of a configuration. -/
def cfgW (t : List Word) (i : Nat) : Nat := (t.getD i 0).toNat

/-- A level in a channel's format (R466, R468). -/
def cfgLevel (t : List Word) (ch n : Nat) : Int :=
  let src := cfgW t (288 + ch) % 65536
  if field src 11 8 = 1 && decide (field src 7 0 < 24) then (n : Int) else signedOf 16 n

/-- Whether the order of a unit's levels is wrong where its KIND needs one (R469): RUNT, and SLEW upwards. A SLEW
downwards falls from LEVEL1 to LEVEL2 and needs no LEVEL1 below LEVEL2 (DEDUCED, log entry 29). -/
def levelsBad (t : List Word) (k : Nat) : Bool :=
  let w := cfgW t (12 + 4 * k)
  let kind := field w 3 0
  let lv := fun (n : Nat) => cfgLevel t (field w 15 8) n
  let x := cfgW t (13 + 4 * k)
  (kind == 4 || (kind == 6 && field w 5 4 == 0)) && decide (lv (field x 31 16) ≤ lv (field x 15 0))

/-- A bad first word of a trigger unit (R468, R469). -/
def unitBad (w : Nat) : Bool :=
  let kind := field w 3 0
  let dir := field w 5 4
  let chan := kind == 2 || kind == 4 || kind == 6
  decide (7 < kind) || bit w 7 || field w 31 16 != 0 || (kind == 1 && dir == 3)
    || ((chan || kind == 3 || kind == 5) && decide (1 < dir)) || (chan && decide (63 < field w 15 8))

/-- A bad header of a mask. -/
def maskBad (w : Nat) : Bool :=
  field w 15 12 != 0 || field w 31 22 != 0 || field w 7 6 == 3 || decide (9 < field w 11 8) || decide (32 < field w 21 16)

/-- A bad OFFSET of a mask's point: point 0 at 0, the others ascending; points beyond NPTS are not used. -/
def pointBad (t : List Word) (k j : Nat) : Bool :=
  decide (j < field (cfgW t (28 + k)) 21 16) &&
    (if j = 0 then cfgW t (32 + 64 * k) != 0
     else decide (cfgW t (32 + 64 * k + 2 * j) ≤ cfgW t (30 + 64 * k + 2 * j)))

/-- A bad channel source: kinds of R185 and kind 10 (R466). -/
def chanBad (w : Nat) : Bool :=
  let code := w % 65536
  !(srcOk code || (decide (code < 16384) && field code 11 8 == 10 && decide (field code 7 0 < 6)))

/-- Whether a word of a configuration breaks its range or sets a reserved bit (R465 check 3). -/
def reelWordBad (t : List Word) (i : Nat) : Bool :=
  let w := cfgW t i
  if i = 0 then field w 31 17 != 0
  else if i < 9 then false
  else if i = 9 then decide (2147483648 ≤ w)
  else if i = 10 then false
  else if i = 11 then decide (15 < w)
  else if i < 28 then
    let k := (i - 12) / 4
    match (i - 12) % 4 with
    | 0 => unitBad w
    | 1 => levelsBad t k
    | 2 => field (cfgW t (12 + 4 * k)) 3 0 == 3 && decide (cfgW t (15 + 4 * k) < w)
    | _ => false
  else if i < 32 then maskBad w
  else if i < 288 then (i - 32) % 2 == 0 && pointBad t ((i - 32) / 64) ((i - 32) % 64 / 2)
  else if i < 352 then chanBad w
  else false

/-- The row of `REEL_ARM`. -/
def spReelArm : CmdSpec := cmdSpec 0xA0 1 1 false true

/-- The checks of R465 in order. -/
def reelArmErr (s : State) (num : Nat) : Option CmdErr :=
  let t := reelTable s num
  firstErr
    [ errIf (num != 0x0A00 && num != 0x0A01) St.param 0x8000 num,
      errIf (cfgW t 0 % 65536 != 0x524C || crcWords t.dropLast != t.getD 352 0) St.integrity 3 num,
      ((List.range 352).find? (reelWordBad t)).map (fun w => (⟨St.range, 0x8000 + w, cfgW t w⟩ : CmdErr)),
      errIf (reelRuns s) St.conflict 1 0 ]

/-- Arm the reel: the memory is cleared, the table copied; tick 0 is the next tick or the next mark. -/
def reelStart (s : State) (num : Nat) : State :=
  let t := reelTable s num
  let start := bit (cfgW t 0) 16
  let s := putN { s with reel := { ReelSt.reset with
    state := .armed, table := num, cfg := tabRun 0 [] 0 t, first := ringFirst, next := ringFirst
    tick0 := if start then none else some (s.tick + 1), t0 := nextDev s, lastWrite := s.tick + 1
    lines := reelLines s, base := reelLines s, baseAt := s.tick } } P.REEL_TRIG_TICK 0 0
  if start then s else reelForm s (specialRec 0 0 0)

/-- `REEL_ARM`'s checks and effect. -/
def reelArmBody (c : Cmd) (s : State) : Res := Res.check (reelArmErr s (pw c 0)) (.done (reelStart s (pw c 0)))

/-- `REEL_ARM` (R465). -/
def execReelArm (c : Cmd) (s : State) : Host.Outcome State Fault Refusal :=
  ends (runCmd spReelArm none reelArmBody c s)

/-! ### `REEL_READ`, `REEL_STOP` (R474, R478) -/

/-- A word of the capture memory (R477). -/
def reelWord (s : State) (i : Nat) : Word :=
  if i < 16 then (if s.reel.state = .idle then 0 else s.reel.header.getD i 0) else tabGet 0 s.reel.ring i

/-- The row of `REEL_READ`. -/
def spReelRead : CmdSpec := { cmdSpec 0xA1 2 2 true true with maxReply := 1016 }

/-- `REEL_READ`'s checks and reply (R478). -/
def reelReadBody (c : Cmd) (s : State) : Res :=
  let off := pw c 0
  let n := pw c 1
  Res.check (firstErr
    [ errIf (reelRuns s) St.state 0xC s.reel.state.code, errIf (decide (524287 < off)) St.range 0x8000 off,
      errIf (n == 0 || decide (1016 < n) || decide (524288 < off + n)) St.range 0x8001 n ])
    (.ok 0 ((List.range n).map (fun i => reelWord s (off + i))) s)

/-- `REEL_READ` (R478). -/
def execReelRead (c : Cmd) (s : State) : Host.Outcome State Fault Refusal :=
  ends (runCmd spReelRead none reelReadBody c s)

/-- The row of `REEL_STOP`. -/
def spReelStop : CmdSpec := cmdSpec 0xA2 0 0 false true

/-- `REEL_STOP`'s effect: a stop with cause HOST; detail 0x0001 where no capture runs (R474). -/
def reelStopBody (_ : Cmd) (s : State) : Res :=
  if reelRuns s then .done (reelStop (reelSync s) 4) else .ok 1 [] s

/-- `REEL_STOP` (R474). -/
def execReelStop (c : Cmd) (s : State) : Host.Outcome State Fault Refusal :=
  ends (runCmd spReelStop none reelStopBody c s)

/-! ### Timers of a capture -/

/-- POST_TICKS after the trigger the capture stops with cause POST (R474). -/
def execReelPostEnd (s : State) : Host.Outcome State Fault Refusal := whenClocked s <|
  ends (match s.reel.trigTick, s.reel.tick0 with
    | some t, some t0 =>
      if reelCfg s 10 = 0 then s
      else if s.reel.state = .triggered then reelStop (reelSync (advanceTo s (t0 + t + reelCfg s 10))) 1
      else if s.tick = t0 + t + reelCfg s 10 then reelStop s 1
      else s
    | _, _ => s)

/-- A unit of KIND TIMEOUT fires: its line has held level DIR for TIME1 ticks (R469). -/
def execTriggerUnitTimeout (unit : Fin 4) (s : State) : Host.Outcome State Fault Refusal := whenClocked s <|
  let w := unitWord s unit
  let high := bit ((reelLines s).getD (field w 15 8 / 8) 0) (field w 15 8 % 8)
  ends (match reelWatches s, s.reel.tick0 with
    | true, some t0 =>
      if field w 3 0 = 5 && (high == (field w 5 4 == 0)) then
        let due := (reelUnit s unit).since + reelCfg s (14 + 4 * unit.val)
        let s := reelSync (advanceTo s (t0 + due))
        reelTrigger s unit due
      else s
    | _, _ => s)

/-- TICK wraps modulo 2^32: a WRAP record with the count of wraps (R476). -/
def execTickWrap (s : State) : Host.Outcome State Fault Refusal := whenClocked s <|
  ends (match reelRuns s, s.reel.tick0 with
    | true, some t0 =>
      let n := s.reel.wraps + 1
      let s := reelSync (advanceTo s (t0 + n * 4294967296))
      reelForm (updReel s (fun x => { x with wraps := n })) (specialRec 0 3 n)
    | _, _ => s)

/-! ### The trigger bus (R471, R472) -/

/-- The bus's trigger of an ARMED reel: recognition less `TBUS_DELAY` (R471). -/
def tbusTrigger (n : Nat) (s : State) : State :=
  match reelNow s with
  | some now =>
    if bit (reelCfg s 11) n && reelWatches s then reelTrigger s (8 + n) ((now : Int) - delay) else s
  | none => s
where
  /-- `TBUS_DELAY` in force: a change applies from the tick after the write (R480). -/
  delay : Nat := if (lineOf s n).delayAt = some s.tick then (lineOf s n).delayWas else getN s P.TBUS_DELAY n

/-- What a recognised fall does beside the reel's trigger: its time, the loop time, latches, injected sequences, masks
(R334, R365, R472, R473, R480). -/
def tbusFallen (s : State) (n : Nat) : State :=
  let s := match (lineOf s n).loopAt with
    | some t => putN s P.TBUS_LOOP_TICKS n (min (s.tick - t) 65535)
    | none => s
  let s := updLine s n (fun l => { l with low := true, loopAt := none, lowAt := s.tick })
  let s := put64 s P.TBUS_LAST_FALL n (wN (devNs s)) (wN (devSec s))
  let s := reelRef (trigEvent s (6 + n) none) (5 + n)
  (List.range 2).foldl (fun s a =>
    if field (getN s P.ENC_LATCH_CFG a) 7 6 = n then encLatch s a 5 2 else s) s

/-- A falling edge is recognised on a line (R471); of a line this controller drives, two ticks after its first driven
tick at the earliest. -/
def execTbusFall (line : Fin 4) (s : State) : Host.Outcome State Fault Refusal := whenClocked s <|
  ends (if (lineOf s line).low then s
    else
      let s := match (lineOf s line).loopAt with
        | some t => advanceTo s (t + 2)
        | none => s
      reelObserveWith (tbusTrigger line) (tbusFallen s line))

/-- A driven pulse ends (R471): the line is released. -/
def execTbusPulseEnd (line : Fin 4) (s : State) : Host.Outcome State Fault Refusal := whenClocked s <|
  ends (match (lineOf s line).driveTo with
    | some t => updLine (advanceTo s t) line (fun l => { l with driveTo := none, loopAt := none })
    | none => s)

/-- A line rises, which needs every driver's release (R467): recognised two ticks after this controller's own. -/
def execTbusRisingEdge (line : Fin 4) (s : State) : Host.Outcome State Fault Refusal := whenClocked s <|
  ends (if (lineOf s line).low then
      let s := match (lineOf s line).driveTo with
        | some t => advanceTo s (t + 2)
        | none => s
      updLine s line (fun l => { l with low := false, driveTo := none, loopAt := none })
    else s)

end Sys2Proof.Machine
end

