-- ==== Sys2Proof/Machine/Time.lean ====
section
/-! DEFINITION. Time commands and the servo (R317 to R322). -/

namespace Sys2Proof.Machine

/-- Change the clock. -/
def updTime (s : State) (f : TimeSt → TimeSt) : State := { s with time := f s.time }

/-- The bound M (R320). -/
def rateMax (s : State) : Int := getN s P.TIME_RATE_MAX 0

/-- Enter LOCKED once enough offsets in a row were within the bound (R322). -/
def servoLock (s : State) : State :=
  if s.time.servo = .tracking && getN s P.TIME_LOCK_COUNT 0 ≤ s.time.n then
    causeGone (timeEvent (updTime s (fun t => { t with servo := .locked })) 1) F.TIME_UNLOCKED 0
  else s

/-- Leave LOCKED for another state (R322). -/
def servoUnlock (s : State) (st : Servo) : State :=
  let was := s.time.servo
  let s := updTime s (fun t => { t with servo := st, holdDue := none })
  if was = .locked && st ≠ .locked then raiseFault (timeEvent s 2) F.TIME_UNLOCKED 0 else s

/-- A step of device time (R321, R476), which acts in the next tick: STEPPED, TRACKING with a count of 0, the reel's STEP
record. The flags are set as the command is interpreted (DEDUCED, log entry 53). -/
def timeSet (s : State) : State :=
  let s := servoUnlock (timeEvent s 0) .tracking
  reelStep (updTime s (fun t => { t with n := 0 }))

/-- Device time is to be set in the next tick (R321). -/
def stepTo (s : State) (d : Nat) : State := timeSet (updTime s (fun t => { t with stepTo := some d, stepBy := 0 }))

/-- Device time is to be stepped in the next tick (R321). -/
def stepBy (s : State) (d : Int) : State :=
  timeSet { s with
    time := { s.time with stepBy := s.time.stepBy + d, stepFree := s.freeCtr }
    freeCtr := s.freeCtr + 3 }

/-- The servo's update by an offset (R320). -/
def servoUpdate (s : State) (o : Int) : State :=
  let m := rateMax s
  let p := asr ((getN s P.TIME_KP 0 : Int) * o) 4
  let integ := clampInt (s.time.integ + asr ((getN s P.TIME_KI 0 : Int) * o) 4) (-m) m
  let raw := -(p + integ)
  let rate := clampInt raw (-m) m
  let s := updTime s (fun t => { t with integ := integ, rate := rate, maxOff := m })
  if rate = raw then s else timeEvent s 3

/-- The servo's state after an offset (R322). -/
def servoFollow (s : State) (o : Int) : State :=
  let good := decide (o.natAbs ≤ 16 * getN s P.TIME_LOCK_LIMIT 0)
  let n := if good then (if s.time.servo = .holdover then 1 else s.time.n + 1) else 0
  let s := updTime s (fun t => { t with n := n })
  let s := if s.time.servo = .locked && good then s else servoLock (servoUnlock s .tracking)
  let hold := getN s P.TIME_HOLDOVER 0
  updTime s (fun t => { t with
    holdDue := if t.servo = .locked && hold != 0 then some (s.tick + 200000 * hold) else none })

/-- `TIME_OFFSET`'s effect (R320, R321). -/
def timeOffsetBody (c : Cmd) (s : State) : Res :=
  let o := signedOf 64 (pw c 0 + 4294967296 * pw c 1)
  let s := updTime (put64 s P.TIME_LAST_OFFSET 0 (BitVec.ofNat 32 (pw c 0)) (BitVec.ofNat 32 (pw c 1)))
    (fun t => { t with lastOff := o })
  let limit := getN s P.TIME_STEP_LIMIT 0
  if limit ≠ 0 ∧ 16 * limit < o.natAbs then .done (stepBy s (-(o * 2 ^ 36)))
  else .done (servoFollow (servoUpdate s o) o)

/-- The row of `TIME_OFFSET`. -/
def spTimeOffset : CmdSpec := cmdSpec 0xB0 2 2 true true

/-- `TIME_OFFSET` (R320, R321). -/
def execTimeOffset (c : Cmd) (s : State) : Host.Outcome State Fault Refusal :=
  ends (runCmd spTimeOffset none timeOffsetBody c s)

/-- `TIME_STEP`'s effect (R321). -/
def timeStepBody (c : Cmd) (s : State) : Res :=
  Res.check (errIf (decide (1000000000 ≤ pw c 2)) St.range 0x8002 (pw c 2))
    (.done (stepTo s ((pw c 0 + 4294967296 * pw c 1) * secUnit + pw c 2 * nsUnit)))

/-- The row of `TIME_STEP`. -/
def spTimeStep : CmdSpec := { cmdSpec 0xB1 3 3 true true with reserved := [(1, 0xFFFF0000)] }

/-- `TIME_STEP` (R321). -/
def execTimeStep (c : Cmd) (s : State) : Host.Outcome State Fault Refusal :=
  ends (runCmd spTimeStep none timeStepBody c s)

/-- `TIME_READ`'s reply (R319). -/
def timeReadBody (_ : Cmd) (s : State) : Res :=
  .ok 0 [BitVec.ofNat 32 (devSec s), BitVec.ofNat 32 (devSec s / 4294967296 % 65536), BitVec.ofNat 32 (devNs s)] s

/-- The row of `TIME_READ`. -/
def spTimeRead : CmdSpec := { cmdSpec 0xB2 0 0 true true with maxReply := 3 }

/-- `TIME_READ` (R319). -/
def execTimeRead (c : Cmd) (s : State) : Host.Outcome State Fault Refusal :=
  ends (runCmd spTimeRead none timeReadBody c s)

/-- No offset came for `TIME_HOLDOVER` in LOCKED (R322): HOLDOVER, RATE is clamp(−integ), with the bound of the last
offset, as a change of a servo parameter applies at the next one (R330). -/
def execTimeHoldoverExpiry (s : State) : Host.Outcome State Fault Refusal := whenClocked s <|
  match s.time.holdDue with
  | none => ends s
  | some d =>
    let s := servoUnlock (advanceTo s d) .holdover
    ends (updTime s (fun t => { t with rate := clampInt (-t.integ) (-t.maxOff) t.maxOff }))

end Sys2Proof.Machine
end

