-- ==== Sys2Proof/Machine/Transport.lean ====
section
/-! DEFINITION. The host's side of the ports (R26 to R45, R66 to R70): `PING`, the taking of packets, the SPI
instructions, BAR0 and BAR2, resets of the endpoint, the host watchdog. -/

namespace Sys2Proof.Machine

/-! ### `PING` (R62) -/

/-- The row of `PING`, available in LISTEN too (R66). -/
def spPing : CmdSpec := { cmdSpec 0x01 0 16 true true with listen := true, maxReply := 20 }

/-- Its payload is refused by E_RANGE beyond 16 words. The manual gives no detail for it: the model answers that of a
wrong LENGTH, 0xFFFF, with the LENGTH received (DESIGN CHOICE, log entry 41). -/
def pingOwn (c : Cmd) : Option CmdErr := errIf (decide (16 < c.payload.length)) St.range 0xFFFF c.payload.length

/-- `PING`'s reply: the identity words, then the payload. -/
def pingBody (c : Cmd) (s : State) : Res :=
  .ok 0 ([0x8064, Config.revision, Config.romVersion, getP s P.STR_PATCH_LEVEL 0] ++ c.payload) s

/-- `PING` (R62). -/
def execPing (c : Cmd) (s : State) : Host.Outcome State Fault Refusal := ends (runCmd spPing (pingOwn c) pingBody c s)

/-! ### The opcodes (R62, R65) -/

/-- What an opcode stands for: its row, its own check, its body. -/
structure CmdRow where
  sp   : CmdSpec
  own  : Option CmdErr
  body : Cmd → State → Res

/-- General commands and discovery. -/
def rowA (c : Cmd) : Nat → Option CmdRow
  | 0x01 => some ⟨spPing, pingOwn c, pingBody⟩
  | 0x02 => some ⟨spGetParam c, paramOwn c, getParamBody⟩
  | 0x03 => some ⟨spSetParam c, paramOwn c, setParamBody⟩
  | 0x04 => some ⟨spCommitGroup, commitOwn c, commitGroupBody⟩
  | 0x05 => some ⟨spGetBlock, blockOwn c, getBlockBody⟩
  | 0x06 => some ⟨spSetBlock c, blockOwn c, setBlockBody⟩
  | 0x10 => some ⟨spDiscover, none, discoverBody⟩
  | 0x11 => some ⟨spReadIdentity, readIdOwn c, readIdentityBody⟩
  | 0x12 => some ⟨spPlace, none, placeBody⟩
  | 0x13 => some ⟨spCellConfig, cellCfgOwn c, cellConfigBody⟩
  | 0x14 => some ⟨spTallyReport, tallyOwn c, tallyReportBody⟩
  | _ => none

/-- Lanes, arms, cleat, loops and generators. -/
def rowB : Nat → Option CmdRow
  | 0x20 => some ⟨spLaneBringup, none, laneBringupBody⟩
  | 0x21 => some ⟨spLaneRetire, none, laneRetireBody⟩
  | 0x22 => some ⟨spLaneLoop, none, laneLoopBody⟩
  | 0x23 => some ⟨spEyeScan, none, eyeScanBody⟩
  | 0x30 => some ⟨spArmEnable, none, armEnableBody⟩
  | 0x31 => some ⟨spDeblock, none, deblockBody⟩
  | 0x32 => some ⟨spBlock, none, blockBody⟩
  | 0x33 => some ⟨spCleatAdd, none, cleatAddBody⟩
  | 0x34 => some ⟨spCleatRelease, none, cleatReleaseBody⟩
  | 0x35 => some ⟨spMaintAdmit, none, maintAdmitBody⟩
  | 0x36 => some ⟨spMaintEnd, none, maintEndBody⟩
  | 0x37 => some ⟨spCellRetire, none, cellRetireBody⟩
  | 0x40 => some ⟨spLoopMode, none, loopModeBody⟩
  | 0x41 => some ⟨spTrajQueue, none, trajQueueBody⟩
  | 0x42 => some ⟨spTrajFlush, none, trajFlushBody⟩
  | _ => none

/-- Measurement, machine feedback, chopper, faults and safety. -/
def rowC (c : Cmd) : Nat → Option CmdRow
  | 0x50 => some ⟨spAdcCalZero, none, adcCalBody 0x50 false⟩
  | 0x51 => some ⟨spAdcCalFull, none, adcCalBody 0x51 true⟩
  | 0x52 => some ⟨spAdcInject, none, adcInjectBody⟩
  | 0x53 => some ⟨spDecSync, none, decSyncBody⟩
  | 0x60 => some ⟨spHomeStart, none, homeStartBody⟩
  | 0x61 => some ⟨spHomeAbort, none, homeAbortBody⟩
  | 0x62 => some ⟨spCmpSelftest, none, cmpSelftestBody⟩
  | 0x70 => some ⟨spFaultRead, none, faultReadBody⟩
  | 0x71 => some ⟨spFaultClear, none, faultClearBody⟩
  | 0x72 => some ⟨spFaultAck, none, faultAckBody⟩
  | 0x73 => some ⟨spFaultInject, none, faultInjectBody⟩
  | 0x80 => some ⟨spSafetyUnlock, none, safetyUnlockBody⟩
  | 0x81 => some ⟨spSafetyWrite, safetyWriteOwn c, safetyWriteBody⟩
  | 0x82 => some ⟨spSafetyLogRead, none, safetyLogReadBody⟩
  | 0x83 => some ⟨spSafetyLock, none, safetyLockBody⟩
  | _ => none

/-- Duplex, reel, time, power, trace and firmware. -/
def rowD : Nat → Option CmdRow
  | 0x90 => some ⟨spTakeover, none, takeoverBody⟩
  | 0x91 => some ⟨spSwitchback, none, switchbackBody⟩
  | 0xA0 => some ⟨spReelArm, none, reelArmBody⟩
  | 0xA1 => some ⟨spReelRead, none, reelReadBody⟩
  | 0xA2 => some ⟨spReelStop, none, reelStopBody⟩
  | 0xB0 => some ⟨spTimeOffset, none, timeOffsetBody⟩
  | 0xB1 => some ⟨spTimeStep, none, timeStepBody⟩
  | 0xB2 => some ⟨spTimeRead, none, timeReadBody⟩
  | 0xC0 => some ⟨spPowerState, none, powerStateBody⟩
  | 0xD0 => some ⟨spTraceRead, none, traceReadBody⟩
  | 0xE0 => some ⟨spFwPatch, none, fwPatchBody⟩
  | 0xE1 => some ⟨spFactoryUnlock, none, factoryUnlockBody⟩
  | _ => none

/-- The row of an opcode, none for an undefined one. -/
def cmdRow? (op : Nat) (c : Cmd) : Option CmdRow :=
  (rowA c op).or ((rowB op).or ((rowC c op).or (rowD op)))

/-! ### Taking a packet (R35, R42 to R45) -/

/-- The words that wait at a port: of the command window from CMD_HEAD on, or of the SPI buffer. -/
def packetWords (s : State) (p : Port) : List Word :=
  let h := s.host
  match p with
  | .pcie => (List.range (h.cmdTail - h.cmdHead).toNat).map (fun i => tabGet 0 h.cmdWin ((h.cmdHead.toNat + i) % 1024))
  | .spi => h.spiBuf

/-- A word of a packet. -/
def pkt (ws : List Word) (i : Nat) : Nat := (ws.getD i 0).toNat

/-- LENGTH of a packet. -/
def pktLen (ws : List Word) : Nat := field (pkt ws 1) 15 0

/-- The command a packet spells (R42). -/
def pktCmd (p : Port) (ws : List Word) : Cmd :=
  { port := p, irq := bit (pkt ws 0) 8, dryRun := bit (pkt ws 0) 9, tag := BitVec.ofNat 16 (pkt ws 0 / 65536)
    target := BitVec.ofNat 16 (pkt ws 1 / 65536), seq := ws.getD 2 0, payload := (ws.drop 4).take (pktLen ws) }

/-- The packet leaves its window or buffer. -/
def consume (s : State) (p : Port) (n : Nat) : State :=
  updHost s (fun h => match p with
    | .pcie => { h with cmdHead := h.cmdHead + BitVec.ofNat 11 n }
    | .spi => { h with spiBuf := [] })

/-- An error reply to a packet that is not executed (R44 steps 1 to 3). -/
def refusePkt (s : State) (ws : List Word) (p : Port) (e : CmdErr) : State :=
  let c := pktCmd p ws
  sendReply s p c.irq (replyWords (pkt ws 0 % 256) e.status c.tag.toNat e.detail c.seq [BitVec.ofNat 32 e.diag])

/-- Step 4: the opcode and the reserved flag bits. -/
def opcodeErr (ws : List Word) (c : Cmd) : Option CmdErr :=
  let op := pkt ws 0 % 256
  firstErr
    [ errIf (cmdRow? op c).isNone St.opcode 0 op, errIf (field (pkt ws 0) 15 10 != 0) St.opcode 1 (pkt ws 0) ]

/-- What a port holds. -/
def portSt (s : State) : Port → PortSt
  | .pcie => s.host.pcie
  | .spi => s.host.spi

/-- Step 4 and on: the packet is executed, its immediate reply stored (R45). -/
def execPkt (s : State) (ws : List Word) (c : Cmd) : State :=
  let op := pkt ws 0 % 256
  match opcodeErr ws c, cmdRow? op c with
  | some e, _ => answer (goodPacket s c.port c.seq) op c e.status e.detail [BitVec.ofNat 32 e.diag]
  | none, some r => interpret r.sp r.own r.body c s
  | none, none => s

/-- Steps 2 and 3: CRC and SEQUENCE (R44, R45); a repeated packet gets the stored reply. -/
def checkPkt (s : State) (ws : List Word) (p : Port) : State :=
  let c := pktCmd p ws
  let crc := crcWords (ws.take 3 ++ c.payload)
  if crc ≠ ws.getD 3 0 then refusePkt (incP s P.HOST_CRC_ERR 0) ws p ⟨St.integrity, 1, pkt ws 3⟩
  else match (portSt s p).seq with
    | none => execPkt s ws c
    | some q =>
      if c.seq = q + 1 then execPkt s ws c
      else if c.seq = q then sendReply (goodPacket s p q) p c.irq (portSt s p).reply
      else refusePkt (incP s P.HOST_SEQ_ERR 0) ws p ⟨St.integrity, 2, (q + 1).toNat⟩

/-- Words of the largest reply a packet can produce (R35). -/
def replyRoom (ws : List Word) (p : Port) : Nat :=
  4 + match cmdRow? (pkt ws 0 % 256) (pktCmd p ws) with
    | some r => max r.sp.maxReply 1
    | none => 1

/-- Whether the largest reply finds room: on PCIe only, and no earlier reply waits (R35). -/
def roomFor (s : State) (ws : List Word) (p : Port) : Bool :=
  p == .spi || (s.host.held.isEmpty && decide (replyRoom ws p ≤ rplFree s.host))

/-- A LENGTH above 1,020 (R44 step 1): on PCIe every packet in the window is discarded. -/
def overLong (s : State) (ws : List Word) (p : Port) : State :=
  let s := updHost s (fun h => match p with
    | .pcie => { h with cmdHead := h.cmdTail }
    | .spi => { h with spiBuf := [] })
  refusePkt s ws p ⟨St.param, 0xFFFE, pktLen ws⟩

/-- A complete packet is taken (R35, R44). -/
def takePacket (s : State) (p : Port) : State :=
  let ws := packetWords s p
  let n := 4 + pktLen ws
  if !takeable s p || decide (ws.length < 2) || !roomFor s ws p then s
  else if 1024 < n then overLong s ws p
  else if ws.length < n then s
  else checkPkt (consume s p n) ws p

/-- The controller takes a packet (R35). -/
def execPacketTake (port : Port) (s : State) : Host.Outcome State Fault Refusal := ends (takePacket s port)

/-! ### SPI (R37 to R40) -/

/-- What a port puts on its bus. -/
def busPut (s : State) (ws : List Word) : State := updHost s (fun h => { h with busOut := ws })

/-- The instructions of the SPI port (R37). -/
inductive SpiOp where
  | writePacket | readReply | readStatus
  deriving DecidableEq, Repr

/-- The instruction byte (R37). -/
def spiOp? : Nat → Option SpiOp
  | 0x02 => some .writePacket
  | 0x03 => some .readReply
  | 0x05 => some .readStatus
  | _ => none

/-- WRITE_PACKET (R39): the words clocked in until `SPI_CS_N` rose. -/
def writePacket (s : State) (words : List Word) : State :=
  if s.host.spiBuf.isEmpty && decide (2 ≤ words.length) && words.length == 4 + pktLen words then
    updHost s (fun h => { h with spiBuf := words })
  else incP s P.HOST_SPI_FRAMING 0

/-- What READ_REPLY sends in `n` words: the reply, and beyond its end words the manual leaves open; all ones without a
reply. -/
def replyOut (s : State) (n : Nat) : List Word :=
  match s.host.spiOut with
  | [] => List.replicate n 0xFFFFFFFF
  | r :: _ => r.take n ++ (List.range (n - r.length)).map (fun i => Config.freeWord (s.freeCtr + i))

/-- READ_REPLY (R40): `words` words are clocked out; the reply is consumed if its last one is among them. -/
def readReply (s : State) (words : Nat) : State :=
  let out := replyOut s words
  match s.host.spiOut with
  | [] => busPut s out
  | r :: l =>
    let s := busPut { s with freeCtr := s.freeCtr + (words - r.length) } out
    if r.length ≤ words then updHost s (fun h => { h with spiOut := l }) else s

/-- The status byte (R38). -/
def spiStatus (s : State) : Nat :=
  let c := getN s P.HOST_IRQ_CAUSE 0
  b2n (!s.host.spiOut.isEmpty) + 2 * b2n s.host.spiBuf.isEmpty + 4 * b2n (bit c 1) + 8 * b2n (bit c 2) + 16 * b2n (bit c 3)

/-- A transaction (R37): the bytes the host clocks while `SPI_CS_N` is low, the instruction byte first. Words come and
go least significant byte first; READ_REPLY and READ_STATUS have one dummy byte before what the controller sends. A
packet that ends inside a word has a wrong word count (R39). A byte that is no instruction does nothing (DESIGN CHOICE,
log entry 41). -/
def spiTransaction (s : State) : List Nat → State
  | [] => s
  | op :: rest =>
    match spiOp? op with
    | some .writePacket => if rest.length % 4 = 0 then writePacket s (bytesWords rest) else incP s P.HOST_SPI_FRAMING 0
    | some .readReply => readReply s ((rest.length - 1) / 4)
    | some .readStatus => busPut s [wN (spiStatus s)]
    | none => s

/-- The bytes the controller sends after the dummy byte: words least significant byte first, and one status byte (R37). -/
def spiBytes (op : SpiOp) (ws : List Word) : List Nat :=
  match op with
  | .readStatus => (ws.flatMap wordBytes).take 1
  | _ => ws.flatMap wordBytes

/-- A transaction with the port on. -/
def spiRun (s : State) (bytes : List Nat) : Host.Outcome State Fault Refusal :=
  ends (if spiOn s then spiTransaction s bytes else s)

/-- WRITE_PACKET (R37, R39). -/
def execWritePacket (words : List Word) (s : State) : Host.Outcome State Fault Refusal :=
  spiRun s (0x02 :: words.flatMap wordBytes)

/-- READ_REPLY (R37, R40): the instruction, the dummy byte and four clocked bytes for each word. -/
def execReadReply (words : Nat) (s : State) : Host.Outcome State Fault Refusal :=
  spiRun s (0x03 :: 0 :: List.replicate (4 * words) 0)

/-- READ_STATUS (R37, R38). -/
def execReadStatus (s : State) : Host.Outcome State Fault Refusal := spiRun s [0x05, 0, 0]

/-! ### BAR2 (R33, R34, R68, R518) -/

/-- A discarded write (R32, R33). -/
def dropWrite (s : State) : State := incP s P.HOST_BAR0_WR_DROP 0

/-- Whether a new CMD_TAIL is legal (R33). -/
def tailOk (h : HostSt) (v : Word) : Bool :=
  let new := (BitVec.ofNat 11 v.toNat - h.cmdHead).toNat
  decide (v.toNat < 2048) && decide (new ≤ 1024) && decide ((h.cmdTail - h.cmdHead).toNat ≤ new)

/-- A write of CMD_TAIL as BAR2 takes it. -/
def tailWrite (s : State) (v : Word) : State :=
  if tailOk s.host v then updHost s (fun h => { h with cmdTail := BitVec.ofNat 11 v.toNat }) else dropWrite s

/-- Words written to CMD_WIN from the tail on (R34). -/
def winWrite (h : HostSt) (words : List Word) : HostSt :=
  { h with cmdWin := words.zipIdx.foldl (fun t p => tabSet 0 t ((h.cmdTail.toNat + p.2) % 1024) p.1) h.cmdWin }

/-- The host writes a packet's words and then CMD_TAIL (R33, R34). -/
def execCmdTailWrite (words : List Word) (value : Word) (s : State) : Host.Outcome State Fault Refusal :=
  ends (if pcieOn s then tailWrite (updHost s (fun h => winWrite h words)) value else s)

/-- A write of RPL_HEAD as BAR2 takes it (R33); replies that wait for room are then written (R36). -/
def headWrite (s : State) (v : Word) : State :=
  let new := BitVec.ofNat 11 v.toNat
  let h := s.host
  if v.toNat < 2048 && decide ((h.rplTail - new).toNat ≤ (h.rplTail - h.rplHead).toNat) then
    let s := updHost s (fun h => { h with rplHead := new })
    flushHeld s.host.held s
  else dropWrite s

/-- A write of RPL_HEAD (R33). -/
def execRplHeadWrite (value : Word) (s : State) : Host.Outcome State Fault Refusal :=
  ends (if pcieOn s then headWrite s value else s)

/-- A write of IRQ_CAUSE (R518). -/
def execIrqCauseWrite (value : Word) (s : State) : Host.Outcome State Fault Refusal :=
  ends (if pcieOn s then clearSet s P.HOST_IRQ_CAUSE 0 value else s)

/-- A write of MSI_ENABLE (R68): its four defined bits. -/
def execMsiEnableWrite (value : Word) (s : State) : Host.Outcome State Fault Refusal :=
  ends (if pcieOn s then putP s P.HOST_MSI_ENABLE 0 (value &&& 0xF) else s)

/-- Messages that were pending leave once their vector is not masked any more. -/
def msixRelease (h : HostSt) : HostSt :=
  (List.range 8).foldl (fun h v =>
    if bit h.pba v && !(h.msixOn && msixMasked h v) then
      { h with pba := h.pba - 2 ^ v, msiSent := tabUpd 0 h.msiSent v (· + 1) }
    else h) h

/-- A write to the MSI-X table (R27). -/
def msixPut (h : HostSt) (i : Nat) (v : Word) : HostSt :=
  msixRelease { h with msix := tabSet (BitVec.ofNat 32 (b2n (i % 4 == 3))) h.msix i v }

/-- A write to an offset of BAR2: RO offsets discard it and count, the windows and the MSI-X table take it. -/
def bar2Write (s : State) (o : Nat) (v : Word) : State :=
  if o < 0x1000 then updHost s (fun h => { h with cmdWin := tabSet 0 h.cmdWin (o / 4) v })
  else if o / 4 = 0x800 then tailWrite s v
  else if o / 4 = 0x803 then headWrite s v
  else if o / 4 = 0x804 then clearSet s P.HOST_IRQ_CAUSE 0 v
  else if o / 4 = 0x805 then putP s P.HOST_MSI_ENABLE 0 (v &&& 0xF)
  else if 0x3000 ≤ o ∧ o < 0x3080 then updHost s (fun h => msixPut h ((o - 0x3000) / 4) v)
  else dropWrite s

/-- The word the host reads at an offset of BAR2 (R27, R33, R40, R41, R67, R68). An offset that the layout does not
define reads 0 (DESIGN CHOICE, log entry 41). -/
def bar2Read (s : State) (o : Nat) : Word :=
  let h := s.host
  if o < 0x1000 then 0
  else if o < 0x2000 then tabGet 0 h.rplWin ((o - 0x1000) / 4)
  else if o / 4 = 0x800 then h.cmdTail.zeroExtend 32
  else if o / 4 = 0x801 then h.cmdHead.zeroExtend 32
  else if o / 4 = 0x802 then h.rplTail.zeroExtend 32
  else if o / 4 = 0x803 then h.rplHead.zeroExtend 32
  else if o / 4 = 0x804 then readParam s P.HOST_IRQ_CAUSE 0
  else if o / 4 = 0x805 then readParam s P.HOST_MSI_ENABLE 0
  else if 0x3000 ≤ o ∧ o < 0x3080 then msixWord h ((o - 0x3000) / 4)
  else if o / 4 = 0xE00 then wN h.pba
  else 0

/-- A write to BAR2 (R33). -/
def execBar2RoWrite (offset : BitVec 14) (value : Word) (s : State) : Host.Outcome State Fault Refusal :=
  ends (if pcieOn s then bar2Write s offset.toNat value else s)

/-! ### BAR0 (R29 to R32) -/

/-- A write to BAR0 is discarded and counted (R32). -/
def execBar0Write (_offset : BitVec 18) (_value : Word) (s : State) : Host.Outcome State Fault Refusal :=
  ends (if pcieOn s then dropWrite s else s)

/-- The instance BAR0 shows of a parameter (R30), none outside its range. -/
def mirrorTarget (s : State) (id : Nat) : Option Nat :=
  match paramAny? id with
  | none => some 0
  | some d =>
    let t := if d.count = 0 && d.id ≠ P.FLT_CFG then 0 else getN s P.HOST_MIRROR_SEL 0
    if targetOk d t then some t else none

/-- One word of BAR0 as the PCIe requester reads it (R29, R30). -/
def mirrorRead (s : State) (id : Nat) : Word × State :=
  match mirrorTarget s id with
  | some t => readAs s .pcie id t
  | none => (0, setShadow s .pcie { shadowOf s .pcie with last := none })

/-- Both words of an aligned 64-bit read, taken atomically (R31). -/
def mirrorWide (s : State) (id : Nat) : List Word × State :=
  match paramDef? id, mirrorTarget s id with
  | some d, some t =>
    if d.wide then
      ([readParam s id t, readParam s (id + 1) t], setShadow s .pcie { shadowOf s .pcie with last := none })
    else mirrorTwo
  | _, _ => mirrorTwo
where
  /-- Two words read one after the other. -/
  mirrorTwo : List Word × State :=
    let a := mirrorRead s id
    let b := mirrorRead a.2 (id + 1)
    ([a.1, b.1], b.2)

/-- A read of BAR0 of 32 or 64 bits (R29, R31). -/
def execBar0Read (offset : BitVec 18) (wide : Bool) (s : State) : Host.Outcome State Fault Refusal :=
  let id := offset.toNat / 4
  ends (if !pcieOn s then s
    else if !wide then
      let r := mirrorRead s id
      busPut r.2 [r.1]
    else if offset.toNat % 8 = 0 then
      let r := mirrorWide s id
      busPut r.2 r.1
    else
      let a := mirrorRead s id
      let b := mirrorRead a.2 (id + 1)
      busPut b.2 [a.1, b.1])

/-! ### The endpoint (R26 to R28) and the watchdog (R70) -/

/-- What the endpoint's configuration space says of it and the host cannot change (R26). -/
structure PcieIdentity where
  vendor      : Nat
  device      : Nat
  revision    : Nat
  cls         : Nat
  subVendor   : Nat
  subsystem   : Nat
  functions   : Nat
  maxGen      : Nat
  maxWidth    : Nat
  maxPayload  : Nat
  maxReadReq  : Nat
  bar0Bytes   : Nat
  bar2Bytes   : Nat
  msixVectors : Nat
  msi         : Bool
  flr         : Bool
  aer         : Bool
  sriov       : Bool
  deriving DecidableEq, Repr

/-- The endpoint's identity (R26, R27). -/
def pcieIdentity : PcieIdentity :=
  { vendor := 0x1FA7, device := 0x8064, revision := Config.revision.toNat % 256, cls := 0x118000, subVendor := 0x1FA7,
    subsystem := 0x0001, functions := 1, maxGen := 3, maxWidth := 4, maxPayload := 256, maxReadReq := 512,
    bar0Bytes := 262144, bar2Bytes := 16384, msixVectors := 8, msi := true, flr := true, aer := true, sriov := false }

/-- The words of the configuration header that R26 and R27 fix, by byte offset as PCI Express lays them out (PRESUMED,
log entry 41): vendor and device, revision and class, the type bits of the two 64-bit non-prefetchable BARs, subsystem.
None for the words the host and the link set. -/
def cfgHeader? (o : Nat) : Option Word :=
  let i := pcieIdentity
  if o = 0x00 then some (wN (i.vendor + 65536 * i.device))
  else if o = 0x08 then some (wN (i.revision + 256 * i.cls))
  else if o = 0x0C then some 0
  else if o = 0x2C then some (wN (i.subVendor + 65536 * i.subsystem))
  else none

/-- The type bits of a BAR: memory, 64 bits, not prefetchable (R27). -/
def barType : Word := 4

/-- A PCIe reset (R28, R45): windows, pointers and unread replies of the endpoint go. -/
def execPcieReset (s : State) : Host.Outcome State Fault Refusal :=
  ends (if pcieOn s then updHost s (fun h => { h with
      cmdWin := [], rplWin := [], cmdTail := 0, cmdHead := 0, rplTail := 0, rplHead := 0, msix := [], pba := 0, held := []
      pcie := ⟨none, []⟩ })
    else s)

/-- The link goes down (R28): the controller runs on. -/
def execPcieLinkDown (s : State) : Host.Outcome State Fault Refusal :=
  ends (updHost s (fun h => { h with linkUp := false }))

/-- The host has been silent for `HOST_WDOG` with an arm deblocked (R70). -/
def execHostSilent (s : State) : Host.Outcome State Fault Refusal :=
  whenClocked s <| ends (if getN s P.HOST_WDOG 0 != 0 && anyDeb s then
      let s := advanceTo s (s.host.lastGood + 200000 * getN s P.HOST_WDOG 0)
      if causeHeld s F.HOST_SILENT 0 then s else raiseFault s F.HOST_SILENT 0
    else s)

end Sys2Proof.Machine
end

