-- ==== Sys2Proof/Machine/Dispatch.lean ====
section
/-! DEFINITION. One arm per command: the direct call of its meaning. -/

namespace Sys2Proof.Machine

/-- The effect of a command on everything but the queue. -/
def exec (i : Instr) (s : State) : Host.Outcome State Fault Refusal :=
  match i with
  | .ping c => Sys2Proof.Machine.execPing c s
  | .getParam c => Sys2Proof.Machine.execGetParam c s
  | .setParam c => Sys2Proof.Machine.execSetParam c s
  | .commitGroup c => Sys2Proof.Machine.execCommitGroup c s
  | .commitGroupDiscard c => Sys2Proof.Machine.execCommitGroupDiscard c s
  | .getBlock c => Sys2Proof.Machine.execGetBlock c s
  | .setBlock c => Sys2Proof.Machine.execSetBlock c s
  | .discover c => Sys2Proof.Machine.execDiscover c s
  | .discoverDone boards again => Sys2Proof.Machine.execDiscoverDone boards s again
  | .readIdentity c => Sys2Proof.Machine.execReadIdentity c s
  | .readIdentityDone board again => Sys2Proof.Machine.execReadIdentityDone board s again
  | .place c => Sys2Proof.Machine.execPlace c s
  | .placeDone => Sys2Proof.Machine.execPlaceDone s
  | .cellConfig c => Sys2Proof.Machine.execCellConfig c s
  | .cellConfigDone => Sys2Proof.Machine.execCellConfigDone s
  | .tallyReport c => Sys2Proof.Machine.execTallyReport c s
  | .laneBringup c => Sys2Proof.Machine.execLaneBringup c s
  | .laneRetire c => Sys2Proof.Machine.execLaneRetire c s
  | .laneLoop c => Sys2Proof.Machine.execLaneLoop c s
  | .laneLoopEndMode0 c => Sys2Proof.Machine.execLaneLoopEndMode0 c s
  | .laneLoopEnd lane received crcBad bitErrs losses => Sys2Proof.Machine.execLaneLoopEnd lane received crcBad bitErrs losses s
  | .eyeScan c => Sys2Proof.Machine.execEyeScan c s
  | .eyeScanDone points => Sys2Proof.Machine.execEyeScanDone points s
  | .armEnable c => Sys2Proof.Machine.execArmEnable c s
  | .deblock c => Sys2Proof.Machine.execDeblock c s
  | .block c => Sys2Proof.Machine.execBlock c s
  | .cleatAdd c => Sys2Proof.Machine.execCleatAdd c s
  | .cleatRelease c => Sys2Proof.Machine.execCleatRelease c s
  | .maintAdmit c => Sys2Proof.Machine.execMaintAdmit c s
  | .maintEnd c => Sys2Proof.Machine.execMaintEnd c s
  | .cellRetire c => Sys2Proof.Machine.execCellRetire c s
  | .cellRetireTimeout cell => Sys2Proof.Machine.execCellRetireTimeout cell s
  | .loopMode c => Sys2Proof.Machine.execLoopMode c s
  | .trajQueue c => Sys2Proof.Machine.execTrajQueue c s
  | .trajFlush c => Sys2Proof.Machine.execTrajFlush c s
  | .adcCalZero c => Sys2Proof.Machine.execAdcCalZero c s
  | .adcCalFull c => Sys2Proof.Machine.execAdcCalFull c s
  | .adcCalZeroDone adc => Sys2Proof.Machine.execAdcCalZeroDone adc s
  | .adcCalFullDone adc => Sys2Proof.Machine.execAdcCalFullDone adc s
  | .adcInject c => Sys2Proof.Machine.execAdcInject c s
  | .decSync c => Sys2Proof.Machine.execDecSync c s
  | .homeStart c => Sys2Proof.Machine.execHomeStart c s
  | .homeAbort c => Sys2Proof.Machine.execHomeAbort c s
  | .homingDone axis => Sys2Proof.Machine.execHomingDone axis s
  | .cmpSelftest c => Sys2Proof.Machine.execCmpSelftest c s
  | .cmpSelftestDone leg steps => Sys2Proof.Machine.execCmpSelftestDone leg steps s
  | .faultRead c => Sys2Proof.Machine.execFaultRead c s
  | .faultClear c => Sys2Proof.Machine.execFaultClear c s
  | .faultAck c => Sys2Proof.Machine.execFaultAck c s
  | .faultInject c => Sys2Proof.Machine.execFaultInject c s
  | .safetyUnlock c => Sys2Proof.Machine.execSafetyUnlock c s
  | .safetyWrite c => Sys2Proof.Machine.execSafetyWrite c s
  | .safetyLogRead c => Sys2Proof.Machine.execSafetyLogRead c s
  | .safetyLock c => Sys2Proof.Machine.execSafetyLock c s
  | .takeover c => Sys2Proof.Machine.execTakeover c s
  | .switchback c => Sys2Proof.Machine.execSwitchback c s
  | .reelArm c => Sys2Proof.Machine.execReelArm c s
  | .reelRead c => Sys2Proof.Machine.execReelRead c s
  | .reelStop c => Sys2Proof.Machine.execReelStop c s
  | .timeOffset c => Sys2Proof.Machine.execTimeOffset c s
  | .timeStep c => Sys2Proof.Machine.execTimeStep c s
  | .timeRead c => Sys2Proof.Machine.execTimeRead c s
  | .powerState c => Sys2Proof.Machine.execPowerState c s
  | .traceRead c => Sys2Proof.Machine.execTraceRead c s
  | .fwPatch c => Sys2Proof.Machine.execFwPatch c s
  | .fwPatchDone => Sys2Proof.Machine.execFwPatchDone s
  | .factoryUnlock c => Sys2Proof.Machine.execFactoryUnlock c s
  | .packetTake port => Sys2Proof.Machine.execPacketTake port s
  | .writePacket words => Sys2Proof.Machine.execWritePacket words s
  | .readReply words => Sys2Proof.Machine.execReadReply words s
  | .readStatus => Sys2Proof.Machine.execReadStatus s
  | .cmdTailWrite words value => Sys2Proof.Machine.execCmdTailWrite words value s
  | .rplHeadWrite value => Sys2Proof.Machine.execRplHeadWrite value s
  | .irqCauseWrite value => Sys2Proof.Machine.execIrqCauseWrite value s
  | .msiEnableWrite value => Sys2Proof.Machine.execMsiEnableWrite value s
  | .bar0Write offset value => Sys2Proof.Machine.execBar0Write offset value s
  | .bar2RoWrite offset value => Sys2Proof.Machine.execBar2RoWrite offset value s
  | .pcieReset => Sys2Proof.Machine.execPcieReset s
  | .pcieLinkDown => Sys2Proof.Machine.execPcieLinkDown s
  | .hostSilent => Sys2Proof.Machine.execHostSilent s
  | .trajPreset c => Sys2Proof.Machine.execTrajPreset c s
  | .encPreset c => Sys2Proof.Machine.execEncPreset c s
  | .encLatchCfg c => Sys2Proof.Machine.execEncLatchCfg c s
  | .discMtStart c => Sys2Proof.Machine.execDiscMtStart c s
  | .discMtAbort c => Sys2Proof.Machine.execDiscMtAbort c s
  | .mtWindowEnd => Sys2Proof.Machine.execMtWindowEnd s
  | .tallyExpectAct c => Sys2Proof.Machine.execTallyExpectAct c s
  | .tallyOldClear c => Sys2Proof.Machine.execTallyOldClear c s
  | .tallyPersistExpiry kind => Sys2Proof.Machine.execTallyPersistExpiry kind s
  | .cltExclude c => Sys2Proof.Machine.execCltExclude c s
  | .adcPtStart c => Sys2Proof.Machine.execAdcPtStart c s
  | .pathTestDone => Sys2Proof.Machine.execPathTestDone s
  | .decCfg c => Sys2Proof.Machine.execDecCfg c s
  | .tbusForce c => Sys2Proof.Machine.execTbusForce c s
  | .chopMode c => Sys2Proof.Machine.execChopMode c s
  | .chopForce c => Sys2Proof.Machine.execChopForce c s
  | .pwrLaneEn c => Sys2Proof.Machine.execPwrLaneEn c s
  | .frmHubHoldMax c => Sys2Proof.Machine.execFrmHubHoldMax c s
  | .strTraceCtrl c => Sys2Proof.Machine.execStrTraceCtrl c s
  | .fltErrHold c => Sys2Proof.Machine.execFltErrHold c s
  | .periodMark pulse0 pulse1 => Sys2Proof.Machine.execPeriodMark pulse0 pulse1 s
  | .dispatchResume => Sys2Proof.Machine.execDispatchResume s
  | .resumeTimeout => Sys2Proof.Machine.execResumeTimeout s
  | .takeoverWindowEnd => Sys2Proof.Machine.execTakeoverWindowEnd s
  | .peerHeartbeat header crc => Sys2Proof.Machine.execPeerHeartbeat header s crc
  | .peerDataFrame frame => Sys2Proof.Machine.execPeerDataFrame frame s
  | .upstreamFrame frame => Sys2Proof.Machine.execUpstreamFrame frame s
  | .upstreamFrameDeadline lane => Sys2Proof.Machine.execUpstreamFrameDeadline lane s
  | .cellSilenceSuspect cell => Sys2Proof.Machine.execCellSilenceSuspect cell s
  | .cleatRetryWindowEnd entry => Sys2Proof.Machine.execCleatRetryWindowEnd entry s
  | .cleatEntryFree entry => Sys2Proof.Machine.execCleatEntryFree entry s
  | .activityFree slot => Sys2Proof.Machine.execActivityFree slot s
  | .permConfirmTimeout cell => Sys2Proof.Machine.execPermConfirmTimeout cell s
  | .permBypassRetry cell => Sys2Proof.Machine.execPermBypassRetry cell s
  | .taskPlace => Sys2Proof.Machine.execTaskPlace s
  | .taskComplete strand => Sys2Proof.Machine.execTaskComplete strand s
  | .taskDeadline slot => Sys2Proof.Machine.execTaskDeadline slot s
  | .taskWatchdog strand => Sys2Proof.Machine.execTaskWatchdog strand s
  | .strandSramError strand corrected => Sys2Proof.Machine.execStrandSramError strand s corrected
  | .detectDone lane rx => Sys2Proof.Machine.execDetectDone lane s rx
  | .trainDone lane eq clean => Sys2Proof.Machine.execTrainDone lane eq s clean
  | .lockDone lane rx => Sys2Proof.Machine.execLockDone lane s rx
  | .capsDone lane hubGen mask cellGens selectOk activePort => Sys2Proof.Machine.execCapsDone lane hubGen mask cellGens selectOk activePort s
  | .bringupStageTimeout lane => Sys2Proof.Machine.execBringupStageTimeout lane s
  | .lossOfLock lane scanned rx => Sys2Proof.Machine.execLossOfLock lane scanned s rx
  | .rebringupRetry lane => Sys2Proof.Machine.execRebringupRetry lane s
  | .retryWindowEnd lane => Sys2Proof.Machine.execRetryWindowEnd lane s
  | .laneErrorWindowEnd lane => Sys2Proof.Machine.execLaneErrorWindowEnd lane s
  | .graceExpiry entry => Sys2Proof.Machine.execGraceExpiry entry s
  | .errPulseEnd => Sys2Proof.Machine.execErrPulseEnd s
  | .belaySample a b srstHigh tripA tripB injection => Sys2Proof.Machine.execBelaySample a b srstHigh tripA tripB injection s
  | .testPulseStart output => Sys2Proof.Machine.execTestPulseStart output s
  | .testPulseEnd output => Sys2Proof.Machine.execTestPulseEnd output s
  | .srstStuck => Sys2Proof.Machine.execSrstStuck s
  | .heartbeatTimeout => Sys2Proof.Machine.execHeartbeatTimeout s
  | .fdcStaleTimeout current => Sys2Proof.Machine.execFdcStaleTimeout current s
  | .belayClockCheck count => Sys2Proof.Machine.execBelayClockCheck count s
  | .belayReset low rc => Sys2Proof.Machine.execBelayReset s low rc
  | .belayResetRelease ok rc => Sys2Proof.Machine.execBelayResetRelease s ok rc
  | .safetySessionTimeout => Sys2Proof.Machine.execSafetySessionTimeout s
  | .unlockBackoffEnd => Sys2Proof.Machine.execUnlockBackoffEnd s
  | .chopCycleStart leg cmp => Sys2Proof.Machine.execChopCycleStart leg cmp s
  | .chopGateEdge leg edge cmp => Sys2Proof.Machine.execChopGateEdge leg edge s cmp
  | .chopTripRecognised leg => Sys2Proof.Machine.execChopTripRecognised leg s
  | .chopTripReleased leg => Sys2Proof.Machine.execChopTripReleased leg s
  | .chopBlankingEnd leg => Sys2Proof.Machine.execChopBlankingEnd leg s
  | .chopScConfirm leg held => Sys2Proof.Machine.execChopScConfirm leg s held
  | .chopScWindowEnd cmp => Sys2Proof.Machine.execChopScWindowEnd s cmp
  | .gateSupplyNotOk leg low => Sys2Proof.Machine.execGateSupplyNotOk leg low s
  | .gateSupplyOk leg low => Sys2Proof.Machine.execGateSupplyOk leg low s
  | .adcSequenceTrigger adc seq => Sys2Proof.Machine.execAdcSequenceTrigger adc seq s
  | .adcConversionEnd adc raw => Sys2Proof.Machine.execAdcConversionEnd adc raw s
  | .decSlot channel bits => Sys2Proof.Machine.execDecSlot channel bits s
  | .decStuck channel => Sys2Proof.Machine.execDecStuck channel s
  | .dsyncFall => Sys2Proof.Machine.execDsyncFall s
  | .encTransition axis a b z home => Sys2Proof.Machine.execEncTransition axis a b z home s
  | .encIllegalWindowEnd axis => Sys2Proof.Machine.execEncIllegalWindowEnd axis s
  | .encLimitTrip axis neg held => Sys2Proof.Machine.execEncLimitTrip axis neg s held
  | .encHomeActive axis held => Sys2Proof.Machine.execEncHomeActive axis s held
  | .timeHoldoverExpiry => Sys2Proof.Machine.execTimeHoldoverExpiry s
  | .tbusFall line => Sys2Proof.Machine.execTbusFall line s
  | .tbusPulseEnd line => Sys2Proof.Machine.execTbusPulseEnd line s
  | .reelPostEnd => Sys2Proof.Machine.execReelPostEnd s
  | .porstRelease testmode => Sys2Proof.Machine.execPorstRelease testmode s
  | .porstAssert supervisor => Sys2Proof.Machine.execPorstAssert supervisor s
  | .listenEntry wakeLow => Sys2Proof.Machine.execListenEntry wakeLow s
  | .wakeNLow testmode => Sys2Proof.Machine.execWakeNLow testmode s
  | .dormantEntry => Sys2Proof.Machine.execDormantEntry s
  | .xtalSwitch => Sys2Proof.Machine.execXtalSwitch s
  | .xtalFail => Sys2Proof.Machine.execXtalFail s
  | .corePllLock => Sys2Proof.Machine.execCorePllLock s
  | .bistDone sram rom belayClock tripBack strandsBad => Sys2Proof.Machine.execBistDone sram rom belayClock tripBack strandsBad s
  | .lanePllLock quad => Sys2Proof.Machine.execLanePllLock quad s
  | .dispatchTestDone pass strandsBad => Sys2Proof.Machine.execDispatchTestDone pass strandsBad s
  | .runToReady => Sys2Proof.Machine.execRunToReady s
  | .corePllLoss => Sys2Proof.Machine.execCorePllLoss s
  | .lanePllLoss quad => Sys2Proof.Machine.execLanePllLoss quad s
  | .encLimitInactive axis neg held => Sys2Proof.Machine.execEncLimitInactive axis neg s held
  | .tbusRisingEdge line => Sys2Proof.Machine.execTbusRisingEdge line s
  | .triggerUnitTimeout unit => Sys2Proof.Machine.execTriggerUnitTimeout unit s
  | .tickWrap => Sys2Proof.Machine.execTickWrap s
  | .bar0Read offset wide => Sys2Proof.Machine.execBar0Read offset wide s
  | .belaySramError => Sys2Proof.Machine.execBelaySramError s

end Sys2Proof.Machine
end

