-- ==== Sys2Proof/WellFormed.lean ====
section
/-! DEFINITION. Which commands and events are well formed: the packet of a command fits the layout of R42, and what an
event brings has the number of items the manual gives it. -/

namespace Sys2Proof

/-- A packet whose payload fits the LENGTH field's limit (R42, R44 step 1). -/
def Cmd.wf (c : Cmd) : Bool := decide (c.payload.length ≤ 1020)

/-- An upstream frame of at most 48 reports (R267). -/
def UpFrame.wf (f : UpFrame) : Bool := decide (f.reports.length ≤ 48)

/-- A data frame with every section of R449 whole. -/
def PeerData.wf (f : PeerData) : Bool :=
  f.modes.length == 16 && f.vref.length == 6 && f.integ.length == 16 && f.traj.length == 4 && f.cleat.length == 32
    && f.activity.length == 16 && f.excl.length == 192
    && (match f.digests with
        | none => true
        | some d => d.length == 27)

/-- A board's record of 64 bytes, or none (R290). -/
def boardWf (b : Option (List Byte)) : Bool :=
  match b with
  | none => true
  | some l => l.length == 64

/-- Well-formedness of a command or event. -/
def Instr.wf : Instr → Bool
  | .discoverDone boards again =>
    decide (boards.length ≤ 8) && boards.all boardWf && decide (again.length ≤ 8) && again.all boardWf
  | .readIdentityDone board again => boardWf board && boardWf again
  | .upstreamFrame f => f.wf
  | .peerDataFrame f => f.wf
  | .capsDone _ _ _ gens _ _ => decide (gens.length ≤ 48)
  | .eyeScanDone points => points.length == 4160
  | .writePacket ws => decide (ws.length ≤ 1024)
  | .cmdTailWrite ws _ => decide (ws.length ≤ 1024)
  | .ping c | .getParam c | .setParam c | .commitGroup c | .commitGroupDiscard c | .getBlock c | .setBlock c
  | .discover c | .readIdentity c | .place c | .cellConfig c | .tallyReport c | .laneBringup c | .laneRetire c
  | .laneLoop c | .laneLoopEndMode0 c | .eyeScan c | .armEnable c | .deblock c | .block c | .cleatAdd c
  | .cleatRelease c | .maintAdmit c | .maintEnd c | .cellRetire c | .loopMode c | .trajQueue c | .trajFlush c
  | .adcCalZero c | .adcCalFull c | .adcInject c | .decSync c | .homeStart c | .homeAbort c | .cmpSelftest c
  | .faultRead c | .faultClear c | .faultAck c | .faultInject c | .safetyUnlock c | .safetyWrite c
  | .safetyLogRead c | .safetyLock c | .takeover c | .switchback c | .reelArm c | .reelRead c | .reelStop c
  | .timeOffset c | .timeStep c | .timeRead c | .powerState c | .traceRead c | .fwPatch c | .factoryUnlock c
  | .trajPreset c | .encPreset c | .encLatchCfg c | .discMtStart c | .discMtAbort c | .tallyExpectAct c
  | .tallyOldClear c | .cltExclude c | .adcPtStart c | .decCfg c | .tbusForce c | .chopMode c | .chopForce c
  | .pwrLaneEn c | .frmHubHoldMax c | .strTraceCtrl c | .fltErrHold c => c.wf
  | _ => true

end Sys2Proof
end

