-- ==== Sys2Proof/Safety.lean ====
section
/-! DEFINITION. The terms the statements use: what a step leaves as it was, what a reply brings with it, which command
row a constructor stands for, and the invariants of the host windows (R33), the queue and the parameter table. -/

namespace Sys2Proof.Machine

/-! ### Frames -/

/-- The fields of `State`, to say which of them a command may change. -/
inductive Fld where
  | tick | params | staged | gain | armedG | tables | ops | host | pwr | flt | time | per | capWords | arms
  | cells | lanes | cleat | str | belay | dup | reel | tbus | loops | encs | chop | meas | disc | tally
  | freeCtr | pending
  deriving DecidableEq, Repr

/-- A field holds in `t` what it held in `s`. -/
def Fld.same : Fld → State → State → Prop
  | .tick, s, t => t.tick = s.tick
  | .params, s, t => t.params = s.params
  | .staged, s, t => t.staged = s.staged
  | .gain, s, t => t.gain = s.gain
  | .armedG, s, t => t.armedG = s.armedG
  | .tables, s, t => t.tables = s.tables
  | .ops, s, t => t.ops = s.ops
  | .host, s, t => t.host = s.host
  | .pwr, s, t => t.pwr = s.pwr
  | .flt, s, t => t.flt = s.flt
  | .time, s, t => t.time = s.time
  | .per, s, t => t.per = s.per
  | .capWords, s, t => t.capWords = s.capWords
  | .arms, s, t => t.arms = s.arms
  | .cells, s, t => t.cells = s.cells
  | .lanes, s, t => t.lanes = s.lanes
  | .cleat, s, t => t.cleat = s.cleat
  | .str, s, t => t.str = s.str
  | .belay, s, t => t.belay = s.belay
  | .dup, s, t => t.dup = s.dup
  | .reel, s, t => t.reel = s.reel
  | .tbus, s, t => t.tbus = s.tbus
  | .loops, s, t => t.loops = s.loops
  | .encs, s, t => t.encs = s.encs
  | .chop, s, t => t.chop = s.chop
  | .meas, s, t => t.meas = s.meas
  | .disc, s, t => t.disc = s.disc
  | .tally, s, t => t.tally = s.tally
  | .freeCtr, s, t => t.freeCtr = s.freeCtr
  | .pending, s, t => t.pending = s.pending

/-- From `s` to `t` nothing changed but the fields listed and, where `params` is not listed, the parameters listed by
ID. -/
def Keeps (fs : List Fld) (ids : List Nat) (s t : State) : Prop :=
  (∀ g : Fld, g ≠ .params → fs.contains g = false → g.same s t)
    ∧ (fs.contains .params = false →
        (∀ id k, ids.contains id = false → getP t id k = getP s id k) ∧ (ids = [] → t.params = s.params))

/-- Parameters that the interrupt causes (R67) and the reel (R470, R475) write by themselves. -/
def asideIds : List Nat := [P.HOST_IRQ_CAUSE, P.REEL_LOST, P.REEL_QUEUE_HIGH, P.REEL_TRIG_TICK]

/-- From `u` to `t` the reel saw the digital lines (R467) and nothing else happened: messages of causes may have been
sent, the reel and the trigger bus may have acted; while no capture runs nothing changed at all. -/
def Seen (u t : State) : Prop :=
  Keeps [.host, .reel, .tbus, .freeCtr] asideIds u t
    ∧ t.host = { u.host with msiSent := t.host.msiSent, pba := t.host.pba }
    ∧ (reelRuns u = false → t = u)

/-- From `u` to `t` a reply was given out (R33, R36, R40) and the reel saw the digital lines: of the host block only the
reply window and its tail, replies that wait, the stored replies and the messages sent may have changed. -/
def Aside (u t : State) : Prop :=
  Keeps [.host, .reel, .tbus, .freeCtr] asideIds u t
    ∧ t.host = { u.host with
        rplWin := t.host.rplWin, rplTail := t.host.rplTail, held := t.host.held, spiOut := t.host.spiOut
        pcie := { u.host.pcie with reply := t.host.pcie.reply }, spi := { u.host.spi with reply := t.host.spi.reply }
        msiSent := t.host.msiSent, pba := t.host.pba }
    ∧ (reelRuns u = false → Keeps [.host] [P.HOST_IRQ_CAUSE] u t)

/-! ### Commands and replies -/

/-- The stored reply of a port (R45). -/
def lastReply (h : HostSt) : Port → List Word
  | .pcie => h.pcie.reply
  | .spi => h.spi.reply

/-- The state once a packet's arrival is noted: its sequence and tick are kept, a HOST_SILENT cause is gone (R45, R70). -/
def arrived (s : State) (c : Cmd) : State := goodPacket s c.port c.seq

/-- A command may be interpreted, is no dry run and passes the checks of R44 steps 5 to 7. -/
def Admitted (sp : CmdSpec) (own : Option CmdErr) (c : Cmd) (s : State) : Prop :=
  takeable s c.port = true ∧ c.dryRun = false ∧ commonErr sp own c s = none

/-- The command's immediate reply, of this status, detail and payload, was given out and stored (R43, R45); beside that
and what goes with it the state is `u`. -/
def Replied (op status detail : Nat) (payload : List Word) (c : Cmd) (u t : State) : Prop :=
  lastReply t.host c.port = replyWords op status c.tag.toNat detail c.seq payload ∧ Aside u t

/-- The ACCEPTED reply of a long command was given out and stored, beside it the state being `u`; then `f` acted in the
same tick and the reel saw the digital lines (R51). -/
def Accepted (op : Nat) (c : Cmd) (u : State) (f : State → State) (t : State) : Prop :=
  ∃ v, lastReply v.host c.port = replyWords op St.accepted c.tag.toNat 0 c.seq []
    ∧ Keeps [.host] [P.HOST_IRQ_CAUSE] u v ∧ Seen (f v) t

/-- What an admitted command answered, as the verdict `r` of its own checks and effect on `s` says (R44, R47, R50, R51). -/
def Answered (op : Nat) (c : Cmd) (r : Res) (s t : State) : Prop :=
  match r with
  | .err e => Replied op e.status e.detail [BitVec.ofNat 32 e.diag] c s t
  | .fail e u => Replied op e.status e.detail [BitVec.ofNat 32 e.diag] c u t
  | .ok detail payload u => Replied op St.ok detail payload c u t
  | .accepted u after => Accepted op c u after t
  | .later u => Seen u t

/-- A row of the logic that the core clock drives: without the clock nothing changes, with it the row completes, time
not running back (R9, R490). -/
def Clocked (s : State) (o : Host.Outcome State Fault Refusal) : Prop :=
  (clockOn s = false → o = .next s) ∧ (clockOn s = true → ∃ t, o = .next t ∧ s.tick ≤ t.tick)

/-- The running operation a long command leaves behind (R51). -/
def opOf (op key : Nat) (c : Cmd) (args : List Nat) (tick : Nat) : LongOp :=
  ⟨op, c.port, c.irq, c.tag, c.seq, tick, key, args⟩

/-! ### The rows of the command table -/

/-- The opcode and the packet a command row stands for, none for an event (R62, R65): the parameter writes are
`SET_PARAM` packets, a commit with DISCARD is `COMMIT_GROUP` with bit 8 set. -/
def cmdOf? : Instr → Option (Nat × Cmd)
  | .ping c => some (0x01, c)
  | .getParam c => some (0x02, c)
  | .setParam c => some (0x03, c)
  | .commitGroup c => some (0x04, c)
  | .commitGroupDiscard c => some (0x04, { c with payload := c.payload.modifyHead (fun w => w ||| 0x100) })
  | .getBlock c => some (0x05, c)
  | .setBlock c => some (0x06, c)
  | .discover c => some (0x10, c)
  | .readIdentity c => some (0x11, c)
  | .place c => some (0x12, c)
  | .cellConfig c => some (0x13, c)
  | .tallyReport c => some (0x14, c)
  | .laneBringup c => some (0x20, c)
  | .laneRetire c => some (0x21, c)
  | .laneLoop c => some (0x22, c)
  | .laneLoopEndMode0 c => some (0x22, { c with payload := 0 :: c.payload.drop 1 })
  | .eyeScan c => some (0x23, c)
  | .armEnable c => some (0x30, c)
  | .deblock c => some (0x31, c)
  | .block c => some (0x32, c)
  | .cleatAdd c => some (0x33, c)
  | .cleatRelease c => some (0x34, c)
  | .maintAdmit c => some (0x35, c)
  | .maintEnd c => some (0x36, c)
  | .cellRetire c => some (0x37, c)
  | .loopMode c => some (0x40, c)
  | .trajQueue c => some (0x41, c)
  | .trajFlush c => some (0x42, c)
  | .adcCalZero c => some (0x50, c)
  | .adcCalFull c => some (0x51, c)
  | .adcInject c => some (0x52, c)
  | .decSync c => some (0x53, c)
  | .homeStart c => some (0x60, c)
  | .homeAbort c => some (0x61, c)
  | .cmpSelftest c => some (0x62, c)
  | .faultRead c => some (0x70, c)
  | .faultClear c => some (0x71, c)
  | .faultAck c => some (0x72, c)
  | .faultInject c => some (0x73, c)
  | .safetyUnlock c => some (0x80, c)
  | .safetyWrite c => some (0x81, c)
  | .safetyLogRead c => some (0x82, c)
  | .safetyLock c => some (0x83, c)
  | .takeover c => some (0x90, c)
  | .switchback c => some (0x91, c)
  | .reelArm c => some (0xA0, c)
  | .reelRead c => some (0xA1, c)
  | .reelStop c => some (0xA2, c)
  | .timeOffset c => some (0xB0, c)
  | .timeStep c => some (0xB1, c)
  | .timeRead c => some (0xB2, c)
  | .powerState c => some (0xC0, c)
  | .traceRead c => some (0xD0, c)
  | .fwPatch c => some (0xE0, c)
  | .factoryUnlock c => some (0xE1, c)
  | .trajPreset c => some (0x03, paramCmd P.TRAJ_PRESET c)
  | .encPreset c => some (0x03, paramCmd P.ENC_PRESET c)
  | .encLatchCfg c => some (0x03, paramCmd P.ENC_LATCH_CFG c)
  | .discMtStart c => some (0x03, paramCmd P.DISC_MT_START c)
  | .discMtAbort c => some (0x03, paramCmd P.DISC_MT_START { c with payload := 0 :: c.payload })
  | .tallyExpectAct c => some (0x03, paramCmd P.TALLY_EXPECT_ACT c)
  | .tallyOldClear c => some (0x03, paramCmd P.TALLY_OLD_CLEAR c)
  | .cltExclude c => some (0x03, paramCmd P.CLT_EXCLUDE c)
  | .adcPtStart c => some (0x03, paramCmd P.ADC_PT_START c)
  | .decCfg c => some (0x03, paramCmd P.DEC_CFG c)
  | .tbusForce c => some (0x03, paramCmd P.TBUS_FORCE c)
  | .chopMode c => some (0x03, paramCmd P.CHOP_MODE c)
  | .chopForce c => some (0x03, paramCmd P.CHOP_FORCE c)
  | .pwrLaneEn c => some (0x03, paramCmd P.PWR_LANE_EN c)
  | .frmHubHoldMax c => some (0x03, paramCmd P.FRM_HUB_HOLD_MAX c)
  | .strTraceCtrl c => some (0x03, paramCmd P.STR_TRACE_CTRL c)
  | .fltErrHold c => some (0x03, paramCmd P.FLT_ERR_HOLD c)
  | _ => none

/-- The words of a command packet (R42): header words 0 to 2, CRC, payload. -/
def packetOf (op : Nat) (c : Cmd) : List Word :=
  let h : List Word :=
    [ BitVec.ofNat 32 (op + 256 * b2n c.irq + 512 * b2n c.dryRun + 65536 * c.tag.toNat),
      BitVec.ofNat 32 (c.payload.length + 65536 * c.target.toNat), c.seq ]
  h ++ [crcWords (h ++ c.payload)] ++ c.payload

/-- A parameter's write row passes every check of `SET_PARAM` (R44, R61, R62). -/
def RowOk (id : Nat) (c : Cmd) (s : State) : Prop :=
  Admitted (spSetParam (paramCmd id c)) (paramOwn (paramCmd id c)) (paramCmd id c) s
    ∧ setErr (arrived s (paramCmd id c)) id (tgt c) (c.payload.getD 0 0) = none

/-- A parameter's write row was answered OK without a payload, beside that and what goes with it the state being `u`. -/
def RowDone (id : Nat) (c : Cmd) (u t : State) : Prop := Replied 0x03 St.ok 0 [] (paramCmd id c) u t

/-- The state a write row finds, its packet's arrival noted. -/
def rowFrom (id : Nat) (c : Cmd) (s : State) : State := arrived s (paramCmd id c)

/-- The reply a verdict of the checks stands for where nothing is to be changed (R47, R50, R53): status, detail and
payload. -/
def dryReply : Res → Nat × Nat × List Word
  | .err e => (e.status, e.detail, [BitVec.ofNat 32 e.diag])
  | .fail e _ => (e.status, e.detail, [BitVec.ofNat 32 e.diag])
  | .ok detail payload _ => (St.ok, detail, payload)
  | .accepted _ _ => (St.ok, 0, [])
  | .later _ => (St.ok, 0, [])

/-- Parameters whose write has an effect of its own beyond the value held. -/
def actingIds : List Nat :=
  [ P.CHOP_FORCE, P.CHOP_MODE, P.ADC_REG_CFG, P.ADC_REG_CH, P.ENC_MODE, P.ENC_LIM_RELEASE, P.ENC_ILLEGAL_MAX, P.ENC_LATCH_CFG, P.DEC_CFG, P.TBUS_DELAY,
    P.CLT_MAINT_RESERVE, P.CLT_WARN_FREE, P.ARM_CELLS_REQUIRED, P.FRM_HUB_HOLD_MAX, P.STR_TRACE_CTRL,
    P.TALLY_PEER_MASK, P.DUP_CFG, P.PWR_LANE_EN ]

/-! ### Invariants -/

/-- Words that wait in the command window: CMD_TAIL minus CMD_HEAD modulo 2,048 (R33). -/
def cmdWords (h : HostSt) : Nat := (h.cmdTail - h.cmdHead).toNat

/-- Words the host has not read in the reply window: RPL_TAIL minus RPL_HEAD modulo 2,048 (R33). -/
def rplWords (h : HostSt) : Nat := (h.rplTail - h.rplHead).toNat

/-- Neither window holds more than its 1,024 words (R33). -/
def windowsOk (s : State) : Prop := cmdWords s.host ≤ 1024 ∧ rplWords s.host ≤ 1024

/-- The tick is not below a number. -/
def timeFrom (n : Nat) (s : State) : Prop := n ≤ s.tick

/-- Every command that waits is well formed (R42). -/
def queueWf (s : State) : Prop := ∀ c ∈ s.pending, c.wf = true

/-- The parameter table is in canonical form: keys rising, no entry equal to its reset word. -/
def paramsWf (s : State) : Prop :=
  s.params.Pairwise (fun a b => a.1 < b.1) ∧ ∀ p ∈ s.params, p.2 ≠ presetOf p.1

/-- The step of a command: the command at the front, the rest behind it. -/
def withFront (s : State) (c : Instr) (rest : List Instr) : State := { s with pending := c :: rest }

end Sys2Proof.Machine
end

