-- ==== Sys2Proof/Certificates/Slice0/Obligations.lean ====
section
/-! DEFINITION. The statements about the model, for the provers, each with the sections of the spec it rests on. In
them `arrived s c` is the state once a command packet's arrival is noted, `Replied` says which immediate reply was given
out and that nothing else happened beside the state named, `Seen` that nothing happened beside what the reel records. -/

open Sys2Proof Sys2Proof.Machine

/-- A step takes the command at the front of the queue and runs it on the state with the rest of the queue. (R49) -/
def Obligations.StepRunsFront : Prop :=
  ∀ (s : State) (c : Instr) (rest : List Instr),
    Sys2Proof.Machine.step (withFront s c rest) = Sys2Proof.Machine.exec c { s with pending := rest }

/-- With no command waiting a step lets one tick pass (the model's choice, log entry 10), after which the reel sees
the digital lines: the tick count rises by one; while the core clock runs cell time advances by five nanoseconds at
the present rate, and so does device time where no step of it waits for its tick, else they stand; of the rest only
fault entries may change, the trace where a START entry has waited for its tick, and the choppers where a write of
mode 0 or of CHOP_FORCE has. (R9, R317) -/
def Obligations.StepIdle : Prop :=
  ∀ s : State, s.pending = [] →
    ∃ t, Sys2Proof.Machine.step s = .next t ∧ Seen (advanceTo s (s.tick + 1)) t ∧ t.tick = s.tick + 1
      ∧ (clockOn s = true → t.time.cell = s.time.cell + tickUnits s
          ∧ (stepWaits s.time = false → t.time.dev = s.time.dev + tickUnits s))
      ∧ (clockOn s = false → t.time.dev = s.time.dev ∧ t.time.cell = s.time.cell)
      ∧ t.time = { s.time with
          dev := t.time.dev, cell := t.time.cell, hist := t.time.hist, stepTo := t.time.stepTo, stepBy := t.time.stepBy }
      ∧ (s.str.traceDue = [] → t.str = s.str)
      ∧ ((∀ p ∈ s.chop.legs, p.2.dueAt = none) → t.chop = s.chop)
      ∧ Keeps [.tick, .time, .flt, .str, .chop, .host, .reel, .tbus, .freeCtr] asideIds s t

/-- Every step of every state answers a next state, and its queue is the old one without its front: no command or
event stops the block, none is lost, added or reordered. (R49, R424) -/
def Obligations.StepTakesFront : Prop :=
  ∀ s : State, ∃ t, Sys2Proof.Machine.step s = .next t ∧ t.pending = s.pending.tail

/-- Whatever command or event a step takes, the tick count after it is not below the one before. (R9, R73) -/
def Obligations.TimeNeverBack : Prop :=
  ∀ s t : State, Sys2Proof.Machine.step s = .next t → s.tick ≤ t.tick

/-- If neither host window holds more than 1,024 words before a step (tail minus head modulo 2,048), neither does
after it, whatever command or event it takes: no pointer write, no packet taken, no reply written ever overruns a
window. (R33, R34, R35, R36) -/
def Obligations.WindowsKept : Prop :=
  ∀ s t : State, windowsOk s → Sys2Proof.Machine.step s = .next t → windowsOk t

/-- If the parameter table lists its words by rising key and lists none that holds its reset value, so does the table
after any step: every command and event reads and writes one value per parameter instance, and equal parameter
settings are equal data. (R10, R14, R16) -/
def Obligations.ParamsKept : Prop :=
  ∀ s t : State, paramsWf s → Sys2Proof.Machine.step s = .next t → paramsWf t

/-- Right after reset PORST_N is still low and only PD0 is on, with the state LISTEN and the core PLL unlocked; every
parameter instance holds its reset value; both host windows are empty and their pointers 0; neither port expects a
sequence; no command waits or runs; every lane is DOWN, every fault entry and cleat entry FREE, device time is FREE at
0, the period counter stands, the role is SOLO, the belay is OFF and no capture runs; the state meets the invariants
of the windows and of the parameter table. (R16, R33, R45, R94, R240, R322, R427, R446, R481, R491, R494) -/
def Obligations.ResetState : Prop :=
  State.reset.pwr.held = true ∧ State.reset.pwr.domains = 1 ∧ State.reset.pwr.state = .listen
    ∧ State.reset.pwr.corePll = false
    ∧ (∀ id t, getP State.reset id t = presetOf (pkey id t))
    ∧ State.reset.host.cmdTail = 0 ∧ State.reset.host.cmdHead = 0 ∧ State.reset.host.rplTail = 0
    ∧ State.reset.host.rplHead = 0 ∧ State.reset.host.pcie.seq = none ∧ State.reset.host.spi.seq = none
    ∧ State.reset.pending = [] ∧ State.reset.ops = []
    ∧ (∀ l, (laneOf State.reset l).st = .down) ∧ (∀ i, (fltOf State.reset i).st = .free)
    ∧ (∀ i, (cleatOf State.reset i).st = .free) ∧ State.reset.time.servo = .free ∧ State.reset.time.dev = 0
    ∧ State.reset.per.running = false ∧ State.reset.dup.role = .solo ∧ State.reset.belay.state = .off
    ∧ State.reset.reel.state = .idle ∧ windowsOk State.reset ∧ paramsWf State.reset

/-- Each constructor that stands for a host command runs the one interpretation of R44 on the row of its opcode; the
parameter writes are SET_PARAM packets and a commit with DISCARD is a COMMIT_GROUP packet. (R44, R62, R65) -/
def Obligations.CommandRows : Prop :=
  ∀ (i : Instr) (op : Nat) (c : Cmd), cmdOf? i = some (op, c) →
    ∃ r, cmdRow? op c = some r ∧ r.sp.op = op
      ∧ ∀ s, Sys2Proof.Machine.exec i s = ends (runCmd r.sp r.own r.body c s)

/-- For every command row and every state in which its port can be served, a command with DRY_RUN set runs the checks
of R44 and its own admission tests on the state as its packet arrived, answers the verdict they give, which for a long
command that would be accepted is OK, and leaves everything else of that state as it was. (R53) -/
def Obligations.DryRunChangesNothing : Prop :=
  ∀ (i : Instr) (op : Nat) (c : Cmd) (r : CmdRow) (s : State),
    cmdOf? i = some (op, c) → cmdRow? op c = some r → takeable s c.port = true → c.dryRun = true →
    ∃ t, Sys2Proof.Machine.exec i s = .next t
      ∧ Replied op (dryReply (Res.check (commonErr r.sp r.own c s) (r.body c (arrived s c)))).1
          (dryReply (Res.check (commonErr r.sp r.own c s) (r.body c (arrived s c)))).2.1
          (dryReply (Res.check (commonErr r.sp r.own c s) (r.body c (arrived s c)))).2.2
          c (arrived s c) t

/-- For every command row, a command whose target, length, reserved bits, power state or own check fails answers the
first failing check's status, detail and DIAG, and nothing is executed; so does one that its own admission tests
refuse, long or short; a command of a port that cannot be served (off, sixteen commands outstanding, core clock
standing above LISTEN) changes nothing at all but what the reel records. (R44, R45, R47, R49, R490) -/
def Obligations.RefusedCommandsChangeNothing : Prop :=
  ∀ (i : Instr) (op : Nat) (c : Cmd) (r : CmdRow) (s : State),
    cmdOf? i = some (op, c) → cmdRow? op c = some r →
    (∀ e, takeable s c.port = true → commonErr r.sp r.own c s = some e →
      ∃ t, Sys2Proof.Machine.exec i s = .next t
        ∧ Replied op e.status e.detail [BitVec.ofNat 32 e.diag] c (arrived s c) t)
    ∧ (∀ e, Admitted r.sp r.own c s → r.body c (arrived s c) = .err e →
      ∃ t, Sys2Proof.Machine.exec i s = .next t
        ∧ Replied op e.status e.detail [BitVec.ofNat 32 e.diag] c (arrived s c) t)
    ∧ (takeable s c.port = false → ∃ t, Sys2Proof.Machine.exec i s = .next t ∧ Seen s t)

/-- In LISTEN the PCIe port is off; of all command rows exactly PING, GET_PARAM and SET_PARAM on the blocks DEV and
PWR, and POWER_STATE are available; any other command whose earlier checks pass is refused with E_STATE detail 1, DIAG
the power state LISTEN, and changes nothing else. (R66) -/
def Obligations.ListenCommands : Prop :=
  ∀ s : State, s.pwr.state = .listen → pcieOn s = false ∧ portOn s .pcie = false
    ∧ ∀ (i : Instr) (op : Nat) (c : Cmd) (r : CmdRow), cmdOf? i = some (op, c) → cmdRow? op c = some r →
      (powerErr r.sp s = none ↔
        op = 0x01 ∨ ((op = 0x02 ∨ op = 0x03)
            ∧ (pw c 0 % 65536 / 256 = 0x00 ∨ pw c 0 % 65536 / 256 = 0x02)) ∨ op = 0xC0)
      ∧ (powerErr r.sp s ≠ none → firstErr [targetErr r.sp c, r.own, lengthErr r.sp c] = none →
          takeable s c.port = true →
          ∃ t, Sys2Proof.Machine.exec i s = .next t ∧ Replied op St.state 1 [1] c (arrived s c) t)

/-- A reply of n words sent to the PCIe port, the endpoint on, no reply waiting before it and n words free, stands in
the reply window from the old RPL_TAIL on (modulo 1,024), the rest of the window is as before, RPL_TAIL has advanced
by n, and the cause REPLY_PCIE is set where the packet asked for it; without room it waits behind the others and the
window is untouched. A reply to the SPI port, the port on, joins the pending SPI replies at their end and sets the
cause REPLY_SPI. Nothing but the host block and the causes changes. (R33, R36, R40, R43, R67, R484) -/
def Obligations.ReplyDelivery : Prop :=
  ∀ (s : State) (irq : Bool) (ws : List Word),
    (pcieOn s = true → s.host.held = [] → ws.length ≤ rplFree s.host →
      (∀ i, i < ws.length →
        tabGet 0 (sendReply s .pcie irq ws).host.rplWin ((s.host.rplTail.toNat + i) % 1024) = ws.getD i 0)
      ∧ (∀ j, (∀ i, i < ws.length → j ≠ (s.host.rplTail.toNat + i) % 1024) →
        tabGet 0 (sendReply s .pcie irq ws).host.rplWin j = tabGet 0 s.host.rplWin j)
      ∧ (sendReply s .pcie irq ws).host.rplTail = s.host.rplTail + BitVec.ofNat 11 ws.length
      ∧ (irq = true → bit (getN (sendReply s .pcie irq ws) P.HOST_IRQ_CAUSE 0) 0 = true))
    ∧ (pcieOn s = true → (s.host.held ≠ [] ∨ rplFree s.host < ws.length) →
      sendReply s .pcie irq ws
        = updHost s (fun h => { h with held := h.held ++ [BitVec.ofNat 32 (b2n irq) :: ws] }))
    ∧ (spiOn s = true →
      (sendReply s .spi irq ws).host.spiOut = s.host.spiOut ++ [ws]
      ∧ bit (getN (sendReply s .spi irq ws) P.HOST_IRQ_CAUSE 0) 4 = true)
    ∧ (∀ p, Keeps [.host] [P.HOST_IRQ_CAUSE] s (sendReply s p irq ws))

/-- Where the words that wait at a port begin with the packet of a command (header, CRC and payload as R42 lays them
out), its port can be served, its largest reply has room, and the port expects its sequence or none, PACKET_TAKE runs
exactly that command on the state whose window has advanced past the packet. (R33, R35, R42, R44, R45) -/
def Obligations.PacketTaken : Prop :=
  ∀ (i : Instr) (op : Nat) (c : Cmd) (rest : List Word) (s : State),
    cmdOf? i = some (op, c) → c.wf = true → packetWords s c.port = packetOf op c ++ rest →
    takeable s c.port = true → roomFor s (packetWords s c.port) c.port = true →
    ((portSt s c.port).seq = none ∨ (portSt s c.port).seq = some (c.seq - 1)) →
    ∃ t, Sys2Proof.Machine.exec (.packetTake c.port) s = .next t
      ∧ Sys2Proof.Machine.exec i (consume s c.port (4 + c.payload.length)) = .next t

/-- When PACKET_TAKE takes a whole packet of at most 1,024 words: a wrong CRC counts HOST_CRC_ERR and is refused with
E_INTEGRITY detail 1, DIAG the packet's CRC word; a sequence equal to the last one sends the stored reply once more
and executes nothing; any other unexpected sequence counts HOST_SEQ_ERR and is refused with E_INTEGRITY detail 2, DIAG
the sequence expected. A packet that is not whole, or whose port cannot be served or whose reply has no room, stays
where it is. (R44, R45, R35) -/
def Obligations.PacketRefused : Prop :=
  ∀ (p : Port) (s : State),
    (takeable s p = true → 2 ≤ (packetWords s p).length → roomFor s (packetWords s p) p = true →
      pktLen (packetWords s p) ≤ 1020 → 4 + pktLen (packetWords s p) ≤ (packetWords s p).length →
      (crcWords ((packetWords s p).take 3 ++ (pktCmd p (packetWords s p)).payload) ≠ (packetWords s p).getD 3 0 →
        ∃ t, Sys2Proof.Machine.exec (.packetTake p) s = .next t
          ∧ Seen (refusePkt (incP (consume s p (4 + pktLen (packetWords s p))) P.HOST_CRC_ERR 0) (packetWords s p) p
              ⟨St.integrity, 1, pkt (packetWords s p) 3⟩) t)
      ∧ (crcWords ((packetWords s p).take 3 ++ (pktCmd p (packetWords s p)).payload) = (packetWords s p).getD 3 0 →
        ∀ q, (portSt s p).seq = some q → (pktCmd p (packetWords s p)).seq ≠ q + 1 →
        ((pktCmd p (packetWords s p)).seq = q →
          ∃ t, Sys2Proof.Machine.exec (.packetTake p) s = .next t
            ∧ Seen (sendReply (goodPacket (consume s p (4 + pktLen (packetWords s p))) p q) p
                (pktCmd p (packetWords s p)).irq (portSt s p).reply) t)
        ∧ ((pktCmd p (packetWords s p)).seq ≠ q →
          ∃ t, Sys2Proof.Machine.exec (.packetTake p) s = .next t
            ∧ Seen (refusePkt (incP (consume s p (4 + pktLen (packetWords s p))) P.HOST_SEQ_ERR 0) (packetWords s p) p
                ⟨St.integrity, 2, (q + 1).toNat⟩) t)))
    ∧ ((takeable s p = false ∨ (packetWords s p).length < 2 ∨ roomFor s (packetWords s p) p = false
        ∨ pktLen (packetWords s p) ≤ 1020 ∧ (packetWords s p).length < 4 + pktLen (packetWords s p)) →
      ∃ t, Sys2Proof.Machine.exec (.packetTake p) s = .next t ∧ Seen s t)

/-- With the endpoint on, a write to any offset of BAR0 changes nothing but HOST_BAR0_WR_DROP, which rises by one
below its largest value. (R32) -/
def Obligations.Bar0WriteDiscarded : Prop :=
  ∀ (offset : BitVec 18) (value : Word) (s : State), pcieOn s = true →
    ∃ t, Sys2Proof.Machine.exec (.bar0Write offset value) s = .next t ∧ Seen (incP s P.HOST_BAR0_WR_DROP 0) t
      ∧ (getN s P.HOST_BAR0_WR_DROP 0 < 4294967295 →
          getN t P.HOST_BAR0_WR_DROP 0 = getN s P.HOST_BAR0_WR_DROP 0 + 1)

/-- With the endpoint on: a packet's words go into CMD_WIN from CMD_TAIL on, and the new CMD_TAIL takes effect if it
has no bits above 10 and leaves at most 1,024 words and not fewer than before; RPL_HEAD takes effect if it has no bits
above 10 and leaves no more unread words than before, and replies that waited are then written as room allows; any
other pointer write is discarded and counted. A write of IRQ_CAUSE clears the defined bits written as 1, a write of
MSI_ENABLE sets its four bits. A write to a read-only offset of BAR2 is discarded and counted; one to a pointer, cause
or enable offset acts as its row; one to CMD_WIN or the MSI-X table is stored, and messages that were pending on
vectors it leaves unmasked are sent. With the endpoint off none of these writes does anything. (R27, R33, R34, R36,
R68, R518) -/
def Obligations.Bar2Writes : Prop :=
  (∀ (s : State) (v : Word), pcieOn s = true →
    (∀ ws, tailOk s.host v = true →
      ∃ t, Sys2Proof.Machine.exec (.cmdTailWrite ws v) s = .next t
        ∧ Seen (updHost s (fun h => { winWrite h ws with cmdTail := BitVec.ofNat 11 v.toNat })) t)
    ∧ (∀ ws, tailOk s.host v = false →
      ∃ t, Sys2Proof.Machine.exec (.cmdTailWrite ws v) s = .next t
        ∧ Seen (incP (updHost s (fun h => winWrite h ws)) P.HOST_BAR0_WR_DROP 0) t)
    ∧ (tailOk s.host v = true ↔ v.toNat < 2048
        ∧ (BitVec.ofNat 11 v.toNat - s.host.cmdHead).toNat ≤ 1024
        ∧ cmdWords s.host ≤ (BitVec.ofNat 11 v.toNat - s.host.cmdHead).toNat)
    ∧ (v.toNat < 2048 → (s.host.rplTail - BitVec.ofNat 11 v.toNat).toNat ≤ rplWords s.host →
      ∃ t, Sys2Proof.Machine.exec (.rplHeadWrite v) s = .next t
        ∧ Seen (flushHeld s.host.held (updHost s (fun h => { h with rplHead := BitVec.ofNat 11 v.toNat }))) t)
    ∧ ((2048 ≤ v.toNat ∨ rplWords s.host < (s.host.rplTail - BitVec.ofNat 11 v.toNat).toNat) →
      ∃ t, Sys2Proof.Machine.exec (.rplHeadWrite v) s = .next t ∧ Seen (incP s P.HOST_BAR0_WR_DROP 0) t)
    ∧ (∃ t, Sys2Proof.Machine.exec (.irqCauseWrite v) s = .next t
        ∧ Seen (putN s P.HOST_IRQ_CAUSE 0
            (getN s P.HOST_IRQ_CAUSE 0 - (getN s P.HOST_IRQ_CAUSE 0 &&& (v.toNat &&& 0x1F)))) t)
    ∧ (∃ t, Sys2Proof.Machine.exec (.msiEnableWrite v) s = .next t ∧ Seen (putP s P.HOST_MSI_ENABLE 0 (v &&& 0xF)) t)
    ∧ (∀ o : BitVec 14, 0x1000 ≤ o.toNat → o.toNat / 4 ≠ 0x800 → o.toNat / 4 ≠ 0x803 → o.toNat / 4 ≠ 0x804 →
        o.toNat / 4 ≠ 0x805 → (o.toNat < 0x3000 ∨ 0x3080 ≤ o.toNat) →
      ∃ t, Sys2Proof.Machine.exec (.bar2RoWrite o v) s = .next t ∧ Seen (incP s P.HOST_BAR0_WR_DROP 0) t)
    ∧ (∀ o : BitVec 14, o.toNat < 0x1000 →
      ∃ t, Sys2Proof.Machine.exec (.bar2RoWrite o v) s = .next t
        ∧ Seen (updHost s (fun h => { h with cmdWin := tabSet 0 h.cmdWin (o.toNat / 4) v })) t)
    ∧ (∀ o : BitVec 14, 0x3000 ≤ o.toNat → o.toNat < 0x3080 →
      ∃ t, Sys2Proof.Machine.exec (.bar2RoWrite o v) s = .next t
        ∧ Seen (updHost s (fun h => msixPut h ((o.toNat - 0x3000) / 4) v)) t)
    ∧ (∀ o : BitVec 14, (o.toNat / 4 = 0x800 → Sys2Proof.Machine.exec (.bar2RoWrite o v) s
          = Sys2Proof.Machine.exec (.cmdTailWrite [] v) s)
      ∧ (o.toNat / 4 = 0x803 → Sys2Proof.Machine.exec (.bar2RoWrite o v) s = Sys2Proof.Machine.exec (.rplHeadWrite v) s)
      ∧ (o.toNat / 4 = 0x804 → Sys2Proof.Machine.exec (.bar2RoWrite o v) s = Sys2Proof.Machine.exec (.irqCauseWrite v) s)
      ∧ (o.toNat / 4 = 0x805 →
          Sys2Proof.Machine.exec (.bar2RoWrite o v) s = Sys2Proof.Machine.exec (.msiEnableWrite v) s)))
  ∧ (∀ h i v j, msixWord { h with msix := tabSet (BitVec.ofNat 32 (b2n (i % 4 == 3))) h.msix i v } j
      = if i = j then v else msixWord h j)
  ∧ (∀ (s : State) (v : Word), pcieOn s = false →
    (∀ ws, ∃ t, Sys2Proof.Machine.exec (.cmdTailWrite ws v) s = .next t ∧ Seen s t)
    ∧ (∃ t, Sys2Proof.Machine.exec (.rplHeadWrite v) s = .next t ∧ Seen s t)
    ∧ (∃ t, Sys2Proof.Machine.exec (.irqCauseWrite v) s = .next t ∧ Seen s t)
    ∧ (∃ t, Sys2Proof.Machine.exec (.msiEnableWrite v) s = .next t ∧ Seen s t)
    ∧ (∀ o : BitVec 14, ∃ t, Sys2Proof.Machine.exec (.bar2RoWrite o v) s = .next t ∧ Seen s t))

/-- With the SPI port off a WRITE_PACKET does nothing. With it on: a WRITE_PACKET whose word count is 4 plus the
payload length of header word 1 fills the empty packet buffer; one of any other word count, or one sent while the
buffer is not empty, is discarded without a reply, and HOST_SPI_FRAMING rises by one below its largest value. (R39) -/
def Obligations.SpiFraming : Prop :=
  (∀ (ws : List Word) (s : State), spiOn s = true →
    (s.host.spiBuf = [] → ws.length = 4 + pktLen ws →
      ∃ t, Sys2Proof.Machine.exec (.writePacket ws) s = .next t
        ∧ Seen (updHost s (fun h => { h with spiBuf := ws })) t)
    ∧ ((ws.length ≠ 4 + pktLen ws ∨ s.host.spiBuf ≠ []) →
      ∃ t, Sys2Proof.Machine.exec (.writePacket ws) s = .next t ∧ Seen (incP s P.HOST_SPI_FRAMING 0) t
        ∧ t.host.spiBuf = s.host.spiBuf ∧ t.host.spiOut = s.host.spiOut
        ∧ (getN s P.HOST_SPI_FRAMING 0 < 4294967295 →
            getN t P.HOST_SPI_FRAMING 0 = getN s P.HOST_SPI_FRAMING 0 + 1)))
  ∧ (∀ (ws : List Word) (s : State), spiOn s = false →
      ∃ t, Sys2Proof.Machine.exec (.writePacket ws) s = .next t ∧ Seen s t)

/-- With the SPI port on: a READ_REPLY that clocks out at least as many words as the first pending reply has sends
that reply from word 0 and removes it; one that ends early sends the reply's first words and leaves it pending, so
that the next sends it again from word 0; with no reply pending the words sent are 0xFFFFFFFF and nothing changes.
With the port off nothing happens. (R40) -/
def Obligations.SpiReply : Prop :=
  (∀ (n : Nat) (s : State), spiOn s = false → ∃ t, Sys2Proof.Machine.exec (.readReply n) s = .next t ∧ Seen s t)
  ∧ ∀ (n : Nat) (s : State), spiOn s = true →
    (∀ r l, s.host.spiOut = r :: l → r.length ≤ n →
      ∃ t, Sys2Proof.Machine.exec (.readReply n) s = .next t ∧ t.host.spiOut = l ∧ t.host.busOut.take r.length = r
        ∧ t.host.busOut.length = n ∧ Keeps [.host, .reel, .tbus, .freeCtr] asideIds s t)
    ∧ (∀ r l, s.host.spiOut = r :: l → n < r.length →
      ∃ t, Sys2Proof.Machine.exec (.readReply n) s = .next t
        ∧ Seen (updHost s (fun h => { h with busOut := r.take n })) t ∧ t.host.spiOut = r :: l)
    ∧ (s.host.spiOut = [] →
      ∃ t, Sys2Proof.Machine.exec (.readReply n) s = .next t
        ∧ Seen (updHost s (fun h => { h with busOut := List.replicate n 0xFFFFFFFF })) t ∧ t.host.spiOut = [])

/-- READ_STATUS sends REPLY_READY, CMD_SPACE and the causes FAULT, REEL and TIME in bits 0 to 4. A 32-bit read of BAR0
sends the word of its parameter's selected instance as the PCIe requester reads it, 0 where no instance is in range. A
64-bit read at an offset that is a multiple of 8 sends both words of a 64-bit parameter as they stand together; any
other sends the two words one after the other. A PCIe reset empties windows, pointers, waiting replies, the MSI-X
table, its pending bits and the port's sequence and nothing else; a link loss changes the link only. With the port or
endpoint off these reads and the reset do nothing. With the core clock on, some arm deblocked and HOST_WDOG not 0, the
host watchdog acts HOST_WDOG ms after the last intact packet: it raises F_HOST_SILENT where its cause is not present
already; else it does nothing. (R15, R28, R29, R30, R31, R38, R70, R45) -/
def Obligations.PortEvents : Prop :=
  ∀ s : State,
    (spiOn s = false → ∃ t, Sys2Proof.Machine.exec .readStatus s = .next t ∧ Seen s t)
    ∧ (pcieOn s = false → (∀ o w, ∃ t, Sys2Proof.Machine.exec (.bar0Read o w) s = .next t ∧ Seen s t)
      ∧ (∃ t, Sys2Proof.Machine.exec .pcieReset s = .next t ∧ Seen s t))
    ∧ (∀ (o : BitVec 18) d x, pcieOn s = true → o.toNat % 8 = 0 → paramDef? (o.toNat / 4) = some d → d.wide = true →
        mirrorTarget s (o.toNat / 4) = some x →
      ∃ t, Sys2Proof.Machine.exec (.bar0Read o true) s = .next t
        ∧ Seen (updHost s (fun h => { h with
            shPcie := ⟨h.shPcie.high, none⟩, busOut := [readParam s (o.toNat / 4) x, readParam s (o.toNat / 4 + 1) x] })) t)
    ∧ (∀ (o : BitVec 18) a b, pcieOn s = true →
        o.toNat % 8 ≠ 0 ∨ (∀ d, paramDef? (o.toNat / 4) = some d → d.wide = false) ∨ mirrorTarget s (o.toNat / 4) = none →
        a = mirrorRead s (o.toNat / 4) → b = mirrorRead a.2 (o.toNat / 4 + 1) →
      ∃ t, Sys2Proof.Machine.exec (.bar0Read o true) s = .next t
        ∧ Seen (updHost b.2 (fun h => { h with busOut := [a.1, b.1] })) t)
    ∧ (spiOn s = true → ∃ t, Sys2Proof.Machine.exec .readStatus s = .next t
      ∧ Seen (updHost s (fun h => { h with busOut := [BitVec.ofNat 32 (b2n (!s.host.spiOut.isEmpty)
          + 2 * b2n s.host.spiBuf.isEmpty + 4 * b2n (bit (getN s P.HOST_IRQ_CAUSE 0) 1)
          + 8 * b2n (bit (getN s P.HOST_IRQ_CAUSE 0) 2) + 16 * b2n (bit (getN s P.HOST_IRQ_CAUSE 0) 3))] })) t)
    ∧ (∀ (o : BitVec 18) (x : Nat), pcieOn s = true → mirrorTarget s (o.toNat / 4) = some x →
      ∃ t, Sys2Proof.Machine.exec (.bar0Read o false) s = .next t
        ∧ Seen (updHost (readAs s .pcie (o.toNat / 4) x).2
            (fun h => { h with busOut := [(readAs s .pcie (o.toNat / 4) x).1] })) t)
    ∧ (∀ o : BitVec 18, pcieOn s = true → mirrorTarget s (o.toNat / 4) = none →
      ∃ t, Sys2Proof.Machine.exec (.bar0Read o false) s = .next t
        ∧ Seen (updHost s (fun h => { h with shPcie := { h.shPcie with last := none }, busOut := [0] })) t)
    ∧ (pcieOn s = true → ∃ t, Sys2Proof.Machine.exec .pcieReset s = .next t
      ∧ Seen (updHost s (fun h => { h with
          cmdWin := [], rplWin := [], cmdTail := 0, cmdHead := 0, rplTail := 0, rplHead := 0, msix := [], pba := 0,
          held := [], pcie := ⟨none, []⟩ })) t)
    ∧ (∃ t, Sys2Proof.Machine.exec .pcieLinkDown s = .next t ∧ Seen (updHost s (fun h => { h with linkUp := false })) t)
    ∧ (∀ u, clockOn s = true → getN s P.HOST_WDOG 0 ≠ 0 → anyDeb s = true →
      u = advanceTo s (s.host.lastGood + 200000 * getN s P.HOST_WDOG 0) →
      ∃ t, Sys2Proof.Machine.exec .hostSilent s = .next t
        ∧ Seen (if causeHeld u F.HOST_SILENT 0 then u else raiseFault u F.HOST_SILENT 0) t)
    ∧ (clockOn s = true → (getN s P.HOST_WDOG 0 = 0 ∨ anyDeb s = false) →
      ∃ t, Sys2Proof.Machine.exec .hostSilent s = .next t ∧ Seen s t)

/-- An admitted PING answers the device code 0x8064, revision, ROM version, patch level and its own payload, and
changes nothing. An admitted GET_PARAM of a defined parameter answers its word as the port's requester reads it (a
64-bit one both words, a staged word where STAGED asks for it and one is staged); of an undefined ID it is refused
with E_PARAM. An admitted GET_BLOCK of a table answers the words asked for, of a parameter run the words read in
ascending ID. Reads change nothing but the requester's shadow. (R14, R15, R62, R63, R520) -/
def Obligations.ReadCommands : Prop :=
  (∀ c s, Admitted spPing (pingOwn c) c s →
    ∃ t, Sys2Proof.Machine.exec (.ping c) s = .next t
      ∧ Replied 0x01 St.ok 0
          ([0x8064, Config.revision, Config.romVersion, getP s P.STR_PATCH_LEVEL 0] ++ c.payload) c (arrived s c) t)
  ∧ (∀ c s d, Admitted (spGetParam c) (paramOwn c) c s → paramAny? (pw c 0 % 65536) = some d → d.wide = false →
      (bit (pw c 0) 16 = false ∨ stagedW s (pw c 0 % 65536) (tgt c) = none) →
    ∃ t, Sys2Proof.Machine.exec (.getParam c) s = .next t
      ∧ Replied 0x02 St.ok 0 [(readAs (arrived s c) c.port (pw c 0 % 65536) (tgt c)).1] c
          (readAs (arrived s c) c.port (pw c 0 % 65536) (tgt c)).2 t)
  ∧ (∀ c s d w, Admitted (spGetParam c) (paramOwn c) c s → paramAny? (pw c 0 % 65536) = some d → d.wide = false →
      bit (pw c 0) 16 = true → stagedW s (pw c 0 % 65536) (tgt c) = some w →
    ∃ t, Sys2Proof.Machine.exec (.getParam c) s = .next t
      ∧ Replied 0x02 St.ok 0 [w] c (readAs (arrived s c) c.port (pw c 0 % 65536) (tgt c)).2 t)
  ∧ (∀ c s d, Admitted (spGetParam c) (paramOwn c) c s → paramAny? (pw c 0 % 65536) = some d → d.wide = true →
    ∃ t, Sys2Proof.Machine.exec (.getParam c) s = .next t
      ∧ Replied 0x02 St.ok 0 [(readAs (arrived s c) c.port (pw c 0 % 65536) (tgt c)).1,
          readParam (arrived s c) (pw c 0 % 65536 + 1) (tgt c)] c
          (readAs (arrived s c) c.port (pw c 0 % 65536) (tgt c)).2 t)
  ∧ (∀ c s, Admitted (spGetParam c) (paramOwn c) c s → paramAny? (pw c 0 % 65536) = none →
    ∃ t, Sys2Proof.Machine.exec (.getParam c) s = .next t
      ∧ Replied 0x02 St.param (pw c 0 % 65536) [BitVec.ofNat 32 (pw c 0 % 65536)] c (arrived s c) t)
  ∧ (∀ c s, Admitted spGetBlock (blockOwn c) c s → bit (pw c 0) 16 = true →
    ∃ t, Sys2Proof.Machine.exec (.getBlock c) s = .next t
      ∧ Replied 0x05 St.ok 0
          ((List.range (pw c 2)).map (fun i => tableRead (arrived s c) (pw c 0 % 65536) (pw c 1 + i))) c (arrived s c) t)
  ∧ (∀ c s, Admitted spGetBlock (blockOwn c) c s → bit (pw c 0) 16 = false →
    ∃ t, Sys2Proof.Machine.exec (.getBlock c) s = .next t
      ∧ Replied 0x05 St.ok 0 (readRun c.port (tgt c) (runIds c) (arrived s c)).1 c
          (readRun c.port (tgt c) (runIds c) (arrived s c)).2 t)

/-- An admitted SET_PARAM whose word passes its parameter's own checks answers OK. Outside every group an RW parameter
without an action of its own then holds the word (and the digests are due to be computed anew where it enters one); a
group member's word is staged and nothing in force changes. A flag word loses the defined bits written as 1. A counter
is cleared by 0xFFFFFFFF and kept by 0. (R14, R56, R61, R518) -/
def Obligations.SetParamWrites : Prop :=
  ∀ c s id d, pw c 0 % 65536 = id → paramDef? id = some d → Admitted (spSetParam c) (paramOwn c) c s →
    id / 256 ≠ 0x40 →
    (d.access = .rw → setErr (arrived s c) id (tgt c) (c.payload.getD 1 0) = none → d.group = 0 →
        actingIds.contains id = false →
      ∃ t, Sys2Proof.Machine.exec (.setParam c) s = .next t
        ∧ Replied 0x03 St.ok 0 [] c (tallyTouch (putP (arrived s c) id (tgt c) (c.payload.getD 1 0)) id) t
        ∧ getP (tallyTouch (putP (arrived s c) id (tgt c) (c.payload.getD 1 0)) id) id (tgt c) = c.payload.getD 1 0)
    ∧ (d.access = .rw → setErr (arrived s c) id (tgt c) (c.payload.getD 1 0) = none → d.group ≠ 0 →
      ∃ t, Sys2Proof.Machine.exec (.setParam c) s = .next t
        ∧ Replied 0x03 St.ok 0 [] c (stageW (arrived s c) id (tgt c) (c.payload.getD 1 0)) t
        ∧ stagedW (stageW (arrived s c) id (tgt c) (c.payload.getD 1 0)) id (tgt c) = some (c.payload.getD 1 0))
    ∧ (∀ m, d.access = .rw1c → d.id = id → flagMask id = some m →
      ∃ t, Sys2Proof.Machine.exec (.setParam c) s = .next t
        ∧ Replied 0x03 St.ok 0 [] c (putN (arrived s c) id (tgt c)
            (getN (arrived s c) id (tgt c)
              - (getN (arrived s c) id (tgt c) &&& ((c.payload.getD 1 0).toNat &&& m)))) t)
    ∧ (d.access = .rw1c → d.id = id → flagMask id = none → c.payload.getD 1 0 = 0xFFFFFFFF →
      ∃ t, Sys2Proof.Machine.exec (.setParam c) s = .next t
        ∧ Replied 0x03 St.ok 0 [] c (putN (arrived s c) id (tgt c) 0) t)
    ∧ (d.access = .rw1c → d.id = id → flagMask id = none → c.payload.getD 1 0 = 0 →
      ∃ t, Sys2Proof.Machine.exec (.setParam c) s = .next t ∧ Replied 0x03 St.ok 0 [] c (arrived s c) t)

/-- An admitted SET_PARAM changes nothing beside its packet's arrival and answers E_PARAM for an undefined ID and for
a read-only parameter, E_LOCKED for the safety block, E_RANGE for a counter written with a word that is neither 0 nor
0xFFFFFFFF and for a word outside its parameter's width or range, E_STATE detail 7 for a word in range to a member of
an armed group; detail, or for E_STATE the DIAG, names the parameter or the group. (R14, R59, R62, R518, R519) -/
def Obligations.SetParamRefusals : Prop :=
  ∀ c s id, pw c 0 % 65536 = id → Admitted (spSetParam c) (paramOwn c) c s →
    (paramDef? id = none → ∃ t, Sys2Proof.Machine.exec (.setParam c) s = .next t
      ∧ Replied 0x03 St.param id [BitVec.ofNat 32 id] c (arrived s c) t)
    ∧ ∀ d, paramDef? id = some d →
      (id / 256 = 0x40 → ∃ t, Sys2Proof.Machine.exec (.setParam c) s = .next t
        ∧ Replied 0x03 St.locked id [BitVec.ofNat 32 id] c (arrived s c) t)
      ∧ (id / 256 ≠ 0x40 → (d.access = .ro ∨ d.access = .rs) → ∃ t, Sys2Proof.Machine.exec (.setParam c) s = .next t
        ∧ Replied 0x03 St.param id [BitVec.ofNat 32 id] c (arrived s c) t)
      ∧ (id / 256 ≠ 0x40 → d.access = .rw1c → flagMask d.id = none → (c.payload.getD 1 0).toNat ≠ 0 →
          (c.payload.getD 1 0).toNat ≠ 0xFFFFFFFF → ∃ t, Sys2Proof.Machine.exec (.setParam c) s = .next t
        ∧ Replied 0x03 St.range d.id [c.payload.getD 1 0] c (arrived s c) t)
      ∧ (id / 256 ≠ 0x40 → (d.access = .rw ∨ d.access = .wo) →
          (widthOk d (c.payload.getD 1 0) = false ∨ inRange d (c.payload.getD 1 0) = false) →
        ∃ t, Sys2Proof.Machine.exec (.setParam c) s = .next t
          ∧ Replied 0x03 St.range d.id [c.payload.getD 1 0] c (arrived s c) t)
      ∧ (id / 256 ≠ 0x40 → d.access = .rw → widthOk d (c.payload.getD 1 0) = true →
          inRange d (c.payload.getD 1 0) = true →
          specialErr (arrived s c) d.id (tgt c) (c.payload.getD 1 0) = none → d.group ≠ 0 →
          groupArmed s d.group (groupTarget d.group (tgt c)) = true →
        ∃ t, Sys2Proof.Machine.exec (.setParam c) s = .next t
          ∧ Replied 0x03 St.state 7 [BitVec.ofNat 32 d.group] c (arrived s c) t)

/-- While any arm is deblocked: an admitted SET_PARAM of a stop-only parameter, an admitted SET_BLOCK whose run comes
to a stop-only parameter, and an admitted COMMIT_GROUP without DISCARD of a group not armed whose staged set contains
one are each refused, with E_STATE detail 2 and the mask of deblocked arms as DIAG where their other checks pass, and
change nothing. (R60) -/
def Obligations.StopOnlyRefused : Prop :=
  (∀ c s id d, pw c 0 % 65536 = id → paramDef? id = some d → Admitted (spSetParam c) (paramOwn c) c s →
      d.stop = true → d.access = .rw → id / 256 ≠ 0x40 → anyDeb s = true →
    (setErr (arrived s c) id (tgt c) (c.payload.getD 1 0)).isSome = true
    ∧ (firstErr [rangeErr d (c.payload.getD 1 0), specialErr (arrived s c) d.id (tgt c) (c.payload.getD 1 0),
        errIf (d.group != 0 && groupArmed s d.group (groupTarget d.group (tgt c))) St.state 7 d.group] = none →
      ∃ t, Sys2Proof.Machine.exec (.setParam c) s = .next t
        ∧ Replied 0x03 St.state 2 [BitVec.ofNat 32 (debMask s)] c (arrived s c) t))
  ∧ (∀ c s l m id w d x, Admitted (spSetBlock c) (blockOwn c) c s → bit (pw c 0) 16 = false →
      (runIds c).zip (c.payload.drop 3) = l ++ (id, w) :: m → setRun (tgt c) l (arrived s c) = .inr x →
      paramDef? id = some d → d.stop = true → d.access = .rw → id / 256 ≠ 0x40 → anyDeb x = true →
    ∃ (e : CmdErr) (t : State), Sys2Proof.Machine.exec (.setBlock c) s = .next t
      ∧ Replied 0x06 e.status e.detail [BitVec.ofNat 32 e.diag] c (arrived s c) t
      ∧ (firstErr [rangeErr d w, specialErr x d.id (tgt c) w,
          errIf (d.group != 0 && groupArmed x d.group (groupTarget d.group (tgt c))) St.state 7 d.group] = none →
        e = ⟨St.state, 2, debMask x⟩))
  ∧ (∀ c s, Admitted spCommitGroup (commitOwn c) c s → groupTargets (commitCode c) ≠ 0 → bit (pw c 0) 8 = false →
      groupArmed s (commitCode c) (tgt c) = false → groupStop s (commitCode c) (tgt c) = true → anyDeb s = true →
    ∃ (e : CmdErr) (t : State), Sys2Proof.Machine.exec (.commitGroup c) s = .next t
      ∧ Replied 0x04 e.status e.detail [BitVec.ofNat 32 e.diag] c (arrived s c) t
      ∧ (groupCross (arrived s c) (commitCode c) (tgt c) = none → e = ⟨St.state, 2, debMask s⟩))

/-- An admitted COMMIT_GROUP without DISCARD of a known group arms it where it holds staged values, is not armed, its
cross-checks pass and no stop-only value meets a deblocked arm (detail 0); on a group with nothing staged it answers
detail 1 and on an armed one detail 2, changing nothing. With DISCARD the staged values are dropped and the group
disarmed, without any such check, detail 1 where nothing was staged; for CG_PERIOD the boundary is forgotten. The
reply carries the group's boundary. (R55, R57, R58) -/
def Obligations.CommitGroups : Prop :=
  (∀ c s, Admitted spCommitGroup (commitOwn c) c s → groupTargets (commitCode c) ≠ 0 → bit (pw c 0) 8 = false →
    (groupArmed s (commitCode c) (tgt c) = false → groupStaged s (commitCode c) (tgt c) = true →
        groupCross (arrived s c) (commitCode c) (tgt c) = none →
        (groupStop s (commitCode c) (tgt c) = false ∨ anyDeb s = false) →
      ∃ t, Sys2Proof.Machine.exec (.commitGroup c) s = .next t
        ∧ Replied 0x04 St.ok 0 [BitVec.ofNat 32 (groupBoundary (commitCode c))] c
            (setArmed (arrived s c) (commitCode c) (tgt c) true) t)
    ∧ (groupArmed s (commitCode c) (tgt c) = false → groupStaged s (commitCode c) (tgt c) = false →
      ∃ t, Sys2Proof.Machine.exec (.commitGroup c) s = .next t
        ∧ Replied 0x04 St.ok 1 [BitVec.ofNat 32 (groupBoundary (commitCode c))] c (arrived s c) t)
    ∧ (groupArmed s (commitCode c) (tgt c) = true →
      ∃ t, Sys2Proof.Machine.exec (.commitGroup c) s = .next t
        ∧ Replied 0x04 St.ok 2 [BitVec.ofNat 32 (groupBoundary (commitCode c))] c (arrived s c) t))
  ∧ (∀ c c' s, c' = { c with payload := c.payload.modifyHead (fun w => w ||| 0x100) } →
      Admitted spCommitGroup (commitOwn c') c' s → groupTargets (commitCode c') ≠ 0 → bit (pw c' 0) 8 = true →
    (commitCode c' ≠ 1 → ∃ t, Sys2Proof.Machine.exec (.commitGroupDiscard c) s = .next t
      ∧ Replied 0x04 St.ok (if groupStaged s (commitCode c') (tgt c') then 0 else 1)
          [BitVec.ofNat 32 (groupBoundary (commitCode c'))] c' (dropGroup (arrived s c') (commitCode c') (tgt c')) t)
    ∧ (commitCode c' = 1 → ∃ t, Sys2Proof.Machine.exec (.commitGroupDiscard c) s = .next t
      ∧ Replied 0x04 St.ok (if groupStaged s 1 (tgt c') then 0 else 1) [BitVec.ofNat 32 1] c'
          { dropGroup (arrived s c') 1 (tgt c') with
            per := { (arrived s c').per with boundary := none } } t))

/-- An admitted SET_BLOCK over a parameter run gives each ID in turn the word that a SET_PARAM would give it, and
answers OK, if none would be refused on the state the words before it leave; otherwise it answers the first refusal
and applies no word. An undefined ID refuses the run with E_PARAM; read by GET_BLOCK an undefined ID yields 0. An
admitted SET_BLOCK of a table the host writes stores its words, those of a gain table as staged ones. (R63) -/
def Obligations.SetBlockWrites : Prop :=
  (∀ c s, Admitted (spSetBlock c) (blockOwn c) c s → bit (pw c 0) 16 = false →
    (∀ u, setRun (tgt c) ((runIds c).zip (c.payload.drop 3)) (arrived s c) = .inr u →
      ∃ t, Sys2Proof.Machine.exec (.setBlock c) s = .next t ∧ Replied 0x06 St.ok 0 [] c u t)
    ∧ (∀ l id w m x e, (runIds c).zip (c.payload.drop 3) = l ++ (id, w) :: m →
        setRun (tgt c) l (arrived s c) = .inr x → setErr x id (tgt c) w = some e →
      ∃ t, Sys2Proof.Machine.exec (.setBlock c) s = .next t
        ∧ Replied 0x06 e.status e.detail [BitVec.ofNat 32 e.diag] c (arrived s c) t))
  ∧ (∀ k l id w s u, setRun k (l ++ [(id, w)]) s = .inr u ↔
      ∃ x, setRun k l s = .inr x ∧ setErr x id k w = none ∧ u = setWord x id k w)
  ∧ (∀ s id k w, paramDef? id = none → setErr s id k w = some ⟨St.param, id, id⟩)
  ∧ (∀ s p id k, paramAny? id = none → (readAs s p id k).1 = 0)
  ∧ (∀ c s, Admitted (spSetBlock c) (blockOwn c) c s → bit (pw c 0) 16 = true →
      tableWritable (pw c 0 % 65536) = true →
      (0x0300 ≤ pw c 0 % 65536 ∨ groupArmed s 5 (pw c 0 % 65536 - 0x0200) = false) →
    ∃ t, Sys2Proof.Machine.exec (.setBlock c) s = .next t
      ∧ Replied 0x06 St.ok 0 [] c
          (tableWrite (arrived s c) (pw c 0 % 65536) (pw c 1) (c.payload.drop 3)) t)

/-- When a long operation ends, it is no longer among the running ones, every other one is; its completion reply has
the opcode, tag and sequence of its command with the final status, detail and payload, and goes to its command's port
as replies go. The cause REPLY_PCIE is set: on PCIe when the reply is written, which may be later in the reply window,
else at once. Nothing else changes. (R43, R51, R52, R67) -/
def Obligations.CompletionReply : Prop :=
  ∀ (s : State) (o : LongOp) (status detail : Nat) (payload : List Word),
    (∀ t, t = sendReply { s with ops := s.ops.filter (fun p => !(p.op == o.op && p.key == o.key)) } o.port true
            (replyWords o.op status o.tag.toNat detail o.seq payload) →
      ((o.port = .pcie ∧ pcieOn s = true) → completeOp s o status detail payload = t)
      ∧ (¬(o.port = .pcie ∧ pcieOn s = true) → completeOp s o status detail payload = irqSet t 0))
    ∧ Keeps [.ops, .host] [P.HOST_IRQ_CAUSE] s (completeOp s o status detail payload)
    ∧ (completeOp s o status detail payload).ops = s.ops.filter (fun p => !(p.op == o.op && p.key == o.key))

/-- An admitted DISCOVER whose checks pass is accepted and runs under its lane mask; every listed lane forgets its
records and, where ACTIVE, queues the reads of its hub and present cells. The first check that fails is its answer: a
deblocked arm on a listed lane (E_STATE detail 2), the same DISCOVER running or a messenger claimed (E_CONFLICT detail
1), a lane held. Its completion stores what the eight boards answered and counts VALID hubs, cells and boards and
INVALID records. An admitted READ_IDENTITY of a board, or of a hub or cell on an ACTIVE lane whose messenger no
operation claims, is accepted and queues its 64 reads; on another lane it answers E_STATE detail 6, else while such an
operation runs E_CONFLICT detail 1 with its tag. A board's record completes it, INVALID with E_TIMEOUT; a lane's once
its reads have ended. Where both wait, an answer of a board completes the board's. Without such an operation the
events change nothing. (R290, R291, R292, R293, R294) -/
def Obligations.Discovery : Prop :=
  (∀ c s, Admitted spDiscover none c s → discoverErr (arrived s c) (maskLanes (discMask c)) (discMask c) = none →
    ∃ t, Sys2Proof.Machine.exec (.discover c) s = .next t
      ∧ Accepted 0x10 c (startOp (arrived s c) 0x10 (discMask c) c [discMask c])
          (fun v => (maskLanes (discMask c)).foldl discoverLane v) t
      ∧ opOf 0x10 (discMask c) c [discMask c] s.tick ∈ t.ops)
  ∧ (∀ c s e, Admitted spDiscover none c s → discoverErr (arrived s c) (maskLanes (discMask c)) (discMask c) = some e →
    ∃ t, Sys2Proof.Machine.exec (.discover c) s = .next t
      ∧ Replied 0x10 e.status e.detail [BitVec.ofNat 32 e.diag] c (arrived s c) t)
  ∧ (∀ s ls m, discoverErr s ls m = firstErr
      [ errIf (ls.any (fun l => laneArms s l &&& debMask s != 0)) St.state 2 (debMask s),
        busyErr (opRun? s 0x10 m), busyErr (msgClaim s ls), lanesHeld s ls ])
  ∧ (∀ boards again s o, clockOn s = true →
      s.ops.find? (fun o => o.op == 0x10 && (maskLanes o.key).all (fun l => !srcBusy s 3 l)) = some o →
    ∃ t, Sys2Proof.Machine.exec (.discoverDone boards again) s = .next t
      ∧ Seen (completeOk (putBoards s boards again) o
          (discoverReply (putBoards s boards again) (maskLanes o.key))) t
      ∧ ∀ b, b < 8 → boardOf t b = boardRead (boards.getD b none) (again.getD b none))
  ∧ (∀ boards again s, clockOn s = true →
      s.ops.find? (fun o => o.op == 0x10 && (maskLanes o.key).all (fun l => !srcBusy s 3 l)) = none →
    ∃ t, Sys2Proof.Machine.exec (.discoverDone boards again) s = .next t ∧ Seen s t)
  ∧ (∀ c s, Admitted spReadIdentity (readIdOwn c) c s → pw c 0 = 2 →
      opRun? s 0x11 (2 * 65536 + tgt c) = none →
    ∃ t, Sys2Proof.Machine.exec (.readIdentity c) s = .next t
      ∧ Accepted 0x11 c (startOp (arrived s c) 0x11 (2 * 65536 + tgt c) c [2, 0, 0, 0]) (fun v => v) t)
  ∧ (∀ c s k l port, Admitted spReadIdentity (readIdOwn c) c s → pw c 0 = k → k ≠ 2 →
      l = (if k = 0 then tgt c / 48 else tgt c) → port = (if k = 0 then tgt c % 48 else 63) →
      laneActive s l = true → msgClaim s [l] = none →
    ∃ t, Sys2Proof.Machine.exec (.readIdentity c) s = .next t
      ∧ Accepted 0x11 c (startOp (arrived s c) 0x11 (k * 65536 + tgt c) c [k, l, port, 0])
          (fun v => updLane v l (fun x => { rdClear x port with rdBad := [], qCmd := x.qCmd ++ idReads 4 port })) t)
  ∧ (∀ c s o, Admitted spReadIdentity (readIdOwn c) c s → pw c 0 = 2 → opRun? s 0x11 (2 * 65536 + tgt c) = some o →
    ∃ t, Sys2Proof.Machine.exec (.readIdentity c) s = .next t
      ∧ Replied 0x11 St.conflict 1 [BitVec.ofNat 32 o.tag.toNat] c (arrived s c) t)
  ∧ (∀ c s k l, Admitted spReadIdentity (readIdOwn c) c s → pw c 0 = k → k ≠ 2 →
      l = (if k = 0 then tgt c / 48 else tgt c) →
    (laneActive s l = false → ∃ t, Sys2Proof.Machine.exec (.readIdentity c) s = .next t
      ∧ Replied 0x11 St.state 6 [BitVec.ofNat 32 l] c (arrived s c) t)
    ∧ (∀ o, laneActive s l = true → msgClaim s [l] = some o → ∃ t, Sys2Proof.Machine.exec (.readIdentity c) s = .next t
      ∧ Replied 0x11 St.conflict 1 [BitVec.ofNat 32 o.tag.toNat] c (arrived s c) t))
  ∧ (∀ board again s o, clockOn s = true →
      s.ops.find? (fun o => o.op == 0x11 && o.args.getD 0 0 != 2 && o.args.getD 3 0 != 0) = none ∨ board ≠ none →
      s.ops.find? (fun o => o.op == 0x11 && o.args.getD 0 0 == 2) = some o →
    ∃ t, Sys2Proof.Machine.exec (.readIdentityDone board again) s = .next t
      ∧ Seen (if (boardRead board again).st = .valid then
            completeOk s o (bytesWords (boardRead board again).bytes ++ List.replicate 48 0)
          else completeErr s o ⟨St.timeout, 1, elapsedUs s o⟩) t)
  ∧ (∀ board again s o, clockOn s = true →
      s.ops.find? (fun o => o.op == 0x11 && o.args.getD 0 0 != 2 && o.args.getD 3 0 != 0) = some o →
      s.ops.find? (fun o => o.op == 0x11 && o.args.getD 0 0 == 2) = none ∨ board = none →
    ∃ t, Sys2Proof.Machine.exec (.readIdentityDone board again) s = .next t ∧ Seen (idLaneDone s o) t)
  ∧ (∀ board again s, clockOn s = true →
      s.ops.find? (fun o => o.op == 0x11 && o.args.getD 0 0 != 2 && o.args.getD 3 0 != 0) = none →
      s.ops.find? (fun o => o.op == 0x11 && o.args.getD 0 0 == 2) = none →
    ∃ t, Sys2Proof.Machine.exec (.readIdentityDone board again) s = .next t ∧ Seen s t)

/-- An admitted PLACE is accepted where no check of R296 fails, DISC_FAIL then reading 0; where one fails, its refusal
is answered and DISC_FAIL holds the check and its entity. On completion the topology is in force, the count of placed
cells is answered. An admitted CELL_CONFIG whose checks pass is accepted and queues its image for every target; one
whose check fails answers that refusal; its completion answers the entities completed and failed. (R284, R296, R297,
R303, R304, R305) -/
def Obligations.Placement : Prop :=
  (∀ c s, Admitted spPlace none c s → placeFail (arrived s c) (pw c 0) = none →
    ∃ t, Sys2Proof.Machine.exec (.place c) s = .next t
      ∧ Accepted 0x12 c (startOp (putN (arrived s c) P.DISC_FAIL 0 0) 0x12
          (c.seq.toNat * 2 + b2n (c.port == .spi)) c
          (pw c 0 :: (topoWords (arrived s c) (pw c 0)).map (fun w => w.toNat))) (fun v => v) t)
  ∧ (∀ c s k e x, Admitted spPlace none c s → placeFail (arrived s c) (pw c 0) = some (k, e, x) →
    ∃ t, Sys2Proof.Machine.exec (.place c) s = .next t
      ∧ Replied 0x12 e.status e.detail [BitVec.ofNat 32 e.diag] c
          (putN (arrived s c) P.DISC_FAIL 0 (k + 65536 * x)) t)
  ∧ (∀ s o, clockOn s = true → opAny? s 0x12 = some o →
    ∃ t, Sys2Proof.Machine.exec .placeDone s = .next t
      ∧ Seen (completeOk (placeWatch (placeDo s ((o.args.drop 1).map (BitVec.ofNat 32)))) o
          [BitVec.ofNat 32 (placedCount (placeWatch (placeDo s ((o.args.drop 1).map (BitVec.ofNat 32)))))]) t
      ∧ t.disc.placed = true ∧ t.disc.topo = (o.args.drop 1).map (BitVec.ofNat 32))
  ∧ (∀ s, clockOn s = true → opAny? s 0x12 = none →
    ∃ t, Sys2Proof.Machine.exec .placeDone s = .next t ∧ Seen s t)
  ∧ (∀ c s mask, Admitted spCellConfig (cellCfgOwn c) c s →
      cellCfgErr c (arrived s c) (cfgTargets c (arrived s c)) = none →
      mask = sumNat ((List.range 64).map (fun l =>
        if (cfgTargets c (arrived s c)).any (fun p => p.1 == l) then 2 ^ l else 0)) →
    ∃ t, Sys2Proof.Machine.exec (.cellConfig c) s = .next t
      ∧ Accepted 0x13 c (startOp (arrived s c) 0x13 (mask + 2 ^ 64 * b2n (bit (pw c 0) 1)) c
          (mask :: (cfgTargets c (arrived s c)).map (fun p => p.1 * 64 + p.2)))
          (fun v => (cfgTargets c (arrived s c)).foldl (cfgStart (imgEntries v (pw c 1))) v) t)
  ∧ (∀ c s e, Admitted spCellConfig (cellCfgOwn c) c s →
      cellCfgErr c (arrived s c) (cfgTargets c (arrived s c)) = some e →
    ∃ t, Sys2Proof.Machine.exec (.cellConfig c) s = .next t
      ∧ Replied 0x13 e.status e.detail [BitVec.ofNat 32 e.diag] c (arrived s c) t)
  ∧ (∀ s o, clockOn s = true →
      s.ops.find? (fun o => o.op == 0x13 && (maskLanes (o.args.headD 0)).all (fun l => !srcBusy s 5 l)) = some o →
    ∃ t, Sys2Proof.Machine.exec .cellConfigDone s = .next t
      ∧ Seen (completeOk s o
          [ BitVec.ofNat 32 ((o.args.drop 1).length - ((o.args.drop 1).filter (cfgFailed s)).length),
            BitVec.ofNat 32 ((o.args.drop 1).filter (cfgFailed s)).length ]) t)
  ∧ (∀ s, clockOn s = true →
      s.ops.find? (fun o => o.op == 0x13 && (maskLanes (o.args.headD 0)).all (fun l => !srcBusy s 5 l)) = none →
    ∃ t, Sys2Proof.Machine.exec .cellConfigDone s = .next t ∧ Seen s t)

/-- An admitted TALLY_REPORT answers its mode's words and changes nothing. Activating an expectation table makes the
expectations so far old digests and the table's words the active one; TALLY_OLD_CLEAR forgets the old digests. A
mismatch held for TALLY_PERSIST raises F_TALLY_MISMATCH once. A write of 1 to DISC_MT_START arms the membership test
for the next mark, refused with E_STATE detail 2 while an arm is deblocked and with detail 3 without a placement; a
write of 0 aborts it; at the end of its window it is done and its verdicts are set, the charge of its last mark being
added first where that mark has yet to do its work. (R300, R301, R302, R309, R310, R311, R314) -/
def Obligations.TallyAndMembership : Prop :=
  (∀ c s, Admitted spTallyReport (tallyOwn c) c s → ∃ t, Sys2Proof.Machine.exec (.tallyReport c) s = .next t
    ∧ Replied 0x14 St.ok 0 (if pw c 0 = 0 then tallySummary (arrived s c)
        else if pw c 0 = 1 then tallyList (arrived s c) else tallyArms (arrived s c)) c (arrived s c) t)
  ∧ (∀ c s, RowOk P.TALLY_EXPECT_ACT c s → ∃ t, Sys2Proof.Machine.exec (.tallyExpectAct c) s = .next t
      ∧ RowDone P.TALLY_EXPECT_ACT c (expectAct (rowFrom P.TALLY_EXPECT_ACT c s) (c.payload.getD 0 0).toNat) t
      ∧ t.tally.exp_ = some (expWords s (c.payload.getD 0 0).toNat))
  ∧ (∀ c s, RowOk P.TALLY_OLD_CLEAR c s → ∃ t, Sys2Proof.Machine.exec (.tallyOldClear c) s = .next t
      ∧ RowDone P.TALLY_OLD_CLEAR c (oldClear (rowFrom P.TALLY_OLD_CLEAR c s)) t ∧ t.tally.old = [])
  ∧ (∀ (k : Fin 3) s t0, clockOn s = true → mismatchFrom (tallyFollow s k) k = some t0 →
    ∃ t v, Sys2Proof.Machine.exec (.tallyPersistExpiry k) s = .next t
      ∧ v = advanceTo (tallyFollow s k) (t0 + 200000 * getN s P.TALLY_PERSIST 0)
      ∧ Seen (if causeHeld v F.TALLY_MISMATCH k then v else raiseFault v F.TALLY_MISMATCH k) t)
  ∧ (∀ (k : Fin 3) s, clockOn s = true → mismatchFrom (tallyFollow s k) k = none →
    ∃ t, Sys2Proof.Machine.exec (.tallyPersistExpiry k) s = .next t ∧ Seen (tallyFollow s k) t)
  ∧ (∀ c s, Admitted (spSetParam (paramCmd P.DISC_MT_START c)) (paramOwn (paramCmd P.DISC_MT_START c))
        (paramCmd P.DISC_MT_START c) s → tgt c = 0 →
      c.payload.getD 0 0 = 1 →
    (anyDeb s = false → s.disc.placed = true → ∃ t, Sys2Proof.Machine.exec (.discMtStart c) s = .next t
      ∧ RowDone P.DISC_MT_START c (updMt (rowFrom P.DISC_MT_START c s) (fun m => { m with armed := true })) t)
    ∧ (anyDeb s = true → ∃ t, Sys2Proof.Machine.exec (.discMtStart c) s = .next t
      ∧ Replied 0x03 St.state 2 [BitVec.ofNat 32 (debMask s)] (paramCmd P.DISC_MT_START c)
          (rowFrom P.DISC_MT_START c s) t)
    ∧ (anyDeb s = false → s.disc.placed = false → ∃ t, Sys2Proof.Machine.exec (.discMtStart c) s = .next t
      ∧ Replied 0x03 St.state 3 [0] (paramCmd P.DISC_MT_START c) (rowFrom P.DISC_MT_START c s) t))
  ∧ (∀ c c' s, c' = { c with payload := 0 :: c.payload } → RowOk P.DISC_MT_START c' s →
    ∃ t, Sys2Proof.Machine.exec (.discMtAbort c) s = .next t
      ∧ RowDone P.DISC_MT_START c' (mtAbort (rowFrom P.DISC_MT_START c' s)) t ∧ t.disc.mt.st ≠ 1)
  ∧ (∀ s m, clockOn s = true → s.disc.mt.st = 1 → s.per.running = true → m = s.disc.mt.from_ + s.disc.mt.win →
    (m ≤ s.per.count → ∃ t, Sys2Proof.Machine.exec .mtWindowEnd s = .next t ∧ Seen (mtEnd s) t ∧ t.disc.mt.st = 2)
    ∧ (∀ v, m = s.per.count + 1 → v = advanceTo s s.per.nextMark →
      ∃ t, Sys2Proof.Machine.exec .mtWindowEnd s = .next t
        ∧ Seen (mtEnd (mtChargeOf v s.per.count (s.per.nextMark - s.per.lastMark))) t ∧ t.disc.mt.st = 2))
  ∧ (∀ s, clockOn s = true → s.disc.mt.st ≠ 1 ∨ s.per.running = false
        ∨ s.per.count + 1 < s.disc.mt.from_ + s.disc.mt.win →
    ∃ t, Sys2Proof.Machine.exec .mtWindowEnd s = .next t ∧ Seen s t)

/-- An admitted LANE_BRINGUP of a lane whose domain is on and that no operation holds is accepted and starts at
DETECT. LANE_RETIRE of a RETIRED lane changes nothing; of another that nothing holds it only notes the retirement for
the next mark; where an arm's ledger would fall below zero it answers E_CONFLICT detail 2 with the arm. LANE_LOOP of 1
to 60,000 ms on a free lane that is not RETIRED is accepted and runs its time, a far-end loop (mode 3) with DETECT
first; on a RETIRED lane it answers E_STATE detail 6 (the model's reading, log entry 50); mode 0 ends a running loop
in that tick, without one it answers E_STATE detail 8. EYE_SCAN of an ACTIVE lane with an exponent of 12 to 36 is
accepted while no scan runs, and table 0x0300 is empty at first. Of each command the first check that fails, in the
order listed, is the answer: the domain off, the lane held by an operation or by an automatic re-bring-up, the ledger;
the duration, the state, cells not excluded; the exponent, a running scan, a lane not ACTIVE. (R244, R249, R252, R254,
R255) -/
def Obligations.LaneCommands : Prop :=
  (∀ c s, Admitted spLaneBringup none c s → laneOn s (tgt c) = true → laneHeld s (tgt c) = none →
    ∃ t, Sys2Proof.Machine.exec (.laneBringup c) s = .next t
      ∧ Accepted 0x20 c (startOp (arrived s c) 0x20 (tgt c) c []) (fun v =>
          startBringup (updLane (closeRetry v (tgt c)) (tgt c) (fun x => { x with retireReq := false })) (tgt c) false) t)
  ∧ (∀ c s e v, Admitted spLaneBringup none c s → v = arrived s c →
      firstErr [laneOffErr v (tgt c), laneHeld v (tgt c)] = some e →
    ∃ t, Sys2Proof.Machine.exec (.laneBringup c) s = .next t
      ∧ Replied 0x20 e.status e.detail [BitVec.ofNat 32 e.diag] c v t)
  ∧ (∀ c s e v, Admitted spLaneRetire none c s → v = arrived s c → (laneOf s (tgt c)).st ≠ .retired →
      firstErr [laneHeld v (tgt c), autoHeld v (tgt c),
        (retireLedger v (tgt c)).map (fun a => (⟨St.conflict, 2, a⟩ : CmdErr))] = some e →
    ∃ t, Sys2Proof.Machine.exec (.laneRetire c) s = .next t
      ∧ Replied 0x21 e.status e.detail [BitVec.ofNat 32 e.diag] c v t)
  ∧ (∀ c s e v, Admitted spLaneLoop none c s → v = arrived s c → pw c 0 ≠ 0 →
      firstErr [ errIf (decide (pw c 1 < 1) || decide (60000 < pw c 1)) St.range 0x8001 (pw c 1),
        laneOffErr v (tgt c), laneHeld v (tgt c), autoHeld v (tgt c),
        errIf ((laneOf v (tgt c)).st == .retired || (decide (64 ≤ tgt c) && (laneOf v (tgt c)).st == .active))
          St.state 6 (tgt c),
        errIf (decide (tgt c < 64) && !loopAdmitted v (tgt c)) St.state 0xB (tgt c) ] = some e →
    ∃ t, Sys2Proof.Machine.exec (.laneLoop c) s = .next t
      ∧ Replied 0x22 e.status e.detail [BitVec.ofNat 32 e.diag] c v t)
  ∧ (∀ c c' s, c' = { c with payload := 0 :: c.payload.drop 1 } → Admitted spLaneLoop none c' s →
      pw c' 1 < 1 ∨ 60000 < pw c' 1 →
    ∃ t, Sys2Proof.Machine.exec (.laneLoopEndMode0 c) s = .next t
      ∧ Replied 0x22 St.range 0x8001 [BitVec.ofNat 32 (pw c' 1)] c' (arrived s c') t)
  ∧ (∀ c s, pw c 0 = 0 → Admitted spLaneLoop none c s →
      Sys2Proof.Machine.exec (.laneLoop c) s = Sys2Proof.Machine.exec (.laneLoopEndMode0 c) s)
  ∧ (∀ c s e v, Admitted spEyeScan none c s → v = arrived s c →
      firstErr [ errIf (decide (pw c 0 < 12) || decide (36 < pw c 0)) St.range 0x8000 (pw c 0), busyErr (opAny? v 0x23),
        errIf ((laneOf v (tgt c)).st != .active) St.state 6 (tgt c) ] = some e →
    ∃ t, Sys2Proof.Machine.exec (.eyeScan c) s = .next t
      ∧ Replied 0x23 e.status e.detail [BitVec.ofNat 32 e.diag] c v t)
  ∧ (∀ c s, Admitted spLaneRetire none c s → (laneOf s (tgt c)).st = .retired →
    ∃ t, Sys2Proof.Machine.exec (.laneRetire c) s = .next t ∧ Replied 0x21 St.ok 0 [] c (arrived s c) t)
  ∧ (∀ c s, Admitted spLaneRetire none c s → (laneOf s (tgt c)).st ≠ .retired → laneHeld s (tgt c) = none →
      autoHeld s (tgt c) = none →
    (retireLedger (arrived s c) (tgt c) = none → ∃ t, Sys2Proof.Machine.exec (.laneRetire c) s = .next t
      ∧ Replied 0x21 St.ok 0 [] c (updLane (arrived s c) (tgt c) (fun x => { x with retireReq := true })) t
      ∧ (laneOf t (tgt c)).st = (laneOf s (tgt c)).st)
    ∧ (∀ a, retireLedger (arrived s c) (tgt c) = some a → ∃ t, Sys2Proof.Machine.exec (.laneRetire c) s = .next t
      ∧ Replied 0x21 St.conflict 2 [BitVec.ofNat 32 a] c (arrived s c) t))
  ∧ (∀ c s, Admitted spLaneLoop none c s → pw c 0 ≠ 0 → 1 ≤ pw c 1 → pw c 1 ≤ 60000 → laneOn s (tgt c) = true →
      laneHeld s (tgt c) = none → autoHeld s (tgt c) = none → (laneOf s (tgt c)).st ≠ .retired →
      ((64 ≤ tgt c ∧ (laneOf s (tgt c)).st ≠ .active) ∨ (tgt c < 64 ∧ loopAdmitted s (tgt c) = true)) →
    ∃ t, Sys2Proof.Machine.exec (.laneLoop c) s = .next t
      ∧ Accepted 0x22 c (startOp (arrived s c) 0x22 (tgt c) c []) (fun v =>
          updLane (closeRetry (laneTo v (tgt c) .loop) (tgt c)) (tgt c) (fun x => { x with
            retireReq := false, awaiting := false, auto := false, pass2 := false
            loopRun := some (newLoop (closeRetry (laneTo v (tgt c) .loop) (tgt c)) (tgt c) (pw c 0) (pw c 1)) })) t)
  ∧ (∀ c s, Admitted spLaneLoop none c s → pw c 0 ≠ 0 → 1 ≤ pw c 1 → pw c 1 ≤ 60000 → laneOn s (tgt c) = true →
      laneHeld s (tgt c) = none → autoHeld s (tgt c) = none → (laneOf s (tgt c)).st = .retired →
    ∃ t, Sys2Proof.Machine.exec (.laneLoop c) s = .next t
      ∧ Replied 0x22 St.state 6 [BitVec.ofNat 32 (tgt c)] c (arrived s c) t)
  ∧ (∀ s l mode ms, newLoop s l mode ms =
      { mode := mode, due := s.tick + 200000 * ms, sent := 0
        gen := if (laneOf s l).lastGen = 0 then getN s P.LANE_GEN_MAX l else (laneOf s l).lastGen
        stage := if mode = 3 then .detect else .loop
        pass2 := false, prbs := Config.prbsSeed, last := none, losses := 0 })
  ∧ (∀ c c' s, c' = { c with payload := 0 :: c.payload.drop 1 } → Admitted spLaneLoop none c' s →
      1 ≤ pw c' 1 → pw c' 1 ≤ 60000 →
    ((laneOf s (tgt c)).st = .loop → ∃ t, Sys2Proof.Machine.exec (.laneLoopEndMode0 c) s = .next t
      ∧ Replied 0x22 St.ok 0 [] c' (updLane (arrived s c') (tgt c) (fun x => { x with
          st := .down, loopRun := x.loopRun.map (fun r => { r with due := s.tick }) })) t
      ∧ (laneOf t (tgt c)).st = .down)
    ∧ ((laneOf s (tgt c)).st ≠ .loop → ∃ t, Sys2Proof.Machine.exec (.laneLoopEndMode0 c) s = .next t
      ∧ Replied 0x22 St.state 8 [BitVec.ofNat 32 (tgt c)] c' (arrived s c') t))
  ∧ (∀ c s, Admitted spEyeScan none c s → 12 ≤ pw c 0 → pw c 0 ≤ 36 → opAny? s 0x23 = none →
      (laneOf s (tgt c)).st = .active →
    ∃ t, Sys2Proof.Machine.exec (.eyeScan c) s = .next t
      ∧ Accepted 0x23 c (startOp (arrived s c) 0x23 (tgt c) c [pw c 0, (laneOf s (tgt c)).gen])
          (fun v => putTable v 0x0300 0 (eyeWords (tgt c) (laneOf v (tgt c)).gen (pw c 0) false [])) t
      ∧ opOf 0x23 (tgt c) c [pw c 0, (laneOf s (tgt c)).gen] s.tick ∈ t.ops)

/-- Alignment (R238) at the lane's rate takes a lane in DETECT to TRAIN; both ends trained, the own one after 65,536
pattern bits without error, take it to LOCK with LANE_EQ_RESULT the adapted boost where AUTO is set, else the fixed
one; LOCK done, the receiver aligned, takes it to CAPS in pass 1 and lets it await its mark in pass 2; CAPS done
chooses the generation or fails. A far-end loop runs the same stages within LOOP, up to its test frames. A stage that
reaches its time limit fails the bring-up with cause 0. 500 ms after a failed re-bring-up a DOWN lane starts a new
one; the end of the retry window closes it and its count. In another state, or short of alignment or of the pattern
bits, these events change nothing. (R238, R240, R241, R242, R243, R247, R253) -/
def Obligations.LaneBringupEvents : Prop :=
  (∀ (l : Fin 66) rx s, clockOn s = true →
    ((stageOf (laneOf s l)).1 = .detect → alignedAt (laneOf s l) rx = true →
      ∃ t, Sys2Proof.Machine.exec (.detectDone l rx) s = .next t ∧ Seen (toStage s l .train false) t)
    ∧ ((stageOf (laneOf s l)).1 ≠ .detect ∨ alignedAt (laneOf s l) rx = false →
      ∃ t, Sys2Proof.Machine.exec (.detectDone l rx) s = .next t ∧ Seen s t))
  ∧ (∀ (l : Fin 66) (eq : BitVec 4) clean s, clockOn s = true →
    ((stageOf (laneOf s l)).1 = .train → 65536 ≤ clean →
      ∃ t, Sys2Proof.Machine.exec (.trainDone l eq clean) s = .next t
        ∧ Seen (toStage (putN s P.LANE_EQ_RESULT l (if bit (getN s P.LANE_RX_EQ l) 7 then eq.toNat
            else getN s P.LANE_RX_EQ l % 16)) l .lock (stageOf (laneOf s l)).2) t)
    ∧ ((stageOf (laneOf s l)).1 ≠ .train ∨ clean < 65536 →
      ∃ t, Sys2Proof.Machine.exec (.trainDone l eq clean) s = .next t ∧ Seen s t))
  ∧ (∀ (l : Fin 66) rx s x, clockOn s = true → x = laneOf s l →
    ((stageOf x).1 = .lock → x.awaiting = false → alignedAt x rx = true →
      ∃ t, Sys2Proof.Machine.exec (.lockDone l rx) s = .next t
        ∧ Seen (if (stageOf x).2 = false then toStage s l .caps false
            else if x.st = .loop then loopStage s l .loop false else updLane s l (fun x => { x with awaiting := true })) t)
    ∧ ((stageOf x).1 ≠ .lock ∨ x.awaiting = true ∨ alignedAt x rx = false →
      ∃ t, Sys2Proof.Machine.exec (.lockDone l rx) s = .next t ∧ Seen s t))
  ∧ (∀ s l st p, ((laneOf s l).st = .loop → toStage s l st p = loopStage s l st p)
      ∧ ((laneOf s l).st ≠ .loop → toStage s l st p = enterStage s l st p))
  ∧ (∀ (l : Fin 66) (hg : BitVec 2) (m : BitVec 48) (gs : List (BitVec 2)) (ok : Bool) (p : BitVec 2) s,
      clockOn s = true → (laneOf s l).st = .loop → (stageOf (laneOf s l)).1 = .caps →
    ∃ t, Sys2Proof.Machine.exec (.capsDone l hg m gs ok p) s = .next t
      ∧ Seen (loopCaps s l hg.toNat (if l.val < 64 then m.toNat else 0)
          (if l.val < 64 && m != 0 then minNat 0 ((gs.map (fun g => g.toNat)).filter (fun g => g != 0)) else 0) ok) t)
  ∧ (∀ (l : Fin 66) (hg : BitVec 2) (m : BitVec 48) (gs : List (BitVec 2)) (ok : Bool) (p : BitVec 2) s,
      clockOn s = true → (laneOf s l).st = .caps → (laneOf s l).awaiting = false →
    ∃ t, Sys2Proof.Machine.exec (.capsDone l hg m gs ok p) s = .next t
      ∧ Seen (capsDone s l hg.toNat (if l.val < 64 then m.toNat else 0)
          (if l.val < 64 && m != 0 then minNat 0 ((gs.map (fun g => g.toNat)).filter (fun g => g != 0)) else 0)
          ok p.toNat) t)
  ∧ (∀ (l : Fin 66) (hg : BitVec 2) (m : BitVec 48) (gs : List (BitVec 2)) (ok : Bool) (p : BitVec 2) s,
      clockOn s = true → (stageOf (laneOf s l)).1 ≠ .caps ∨ (laneOf s l).st = .caps ∧ (laneOf s l).awaiting = true →
    ∃ t, Sys2Proof.Machine.exec (.capsDone l hg m gs ok p) s = .next t ∧ Seen s t)
  ∧ (∀ (l : Fin 66) s, clockOn s = true → bringupRuns (laneOf s l) = true → (laneOf s l).awaiting = false →
    ∃ t v, Sys2Proof.Machine.exec (.bringupStageTimeout l) s = .next t ∧ v = advanceTo s (laneOf s l).stageDue
      ∧ Seen (bringupFail v l 0 (fun o => ⟨St.timeout, 1, elapsedUs v o⟩)) t)
  ∧ (∀ (l : Fin 66) s, clockOn s = true → bringupRuns (laneOf s l) = false ∨ (laneOf s l).awaiting = true →
    ∃ t, Sys2Proof.Machine.exec (.bringupStageTimeout l) s = .next t ∧ Seen s t)
  ∧ (∀ (l : Fin 66) s d, clockOn s = true → (laneOf s l).retryAt = some d →
    ∃ t, Sys2Proof.Machine.exec (.rebringupRetry l) s = .next t
      ∧ Seen (if (laneOf s l).st = .down then startBringup (advanceTo s d) l true else s) t)
  ∧ (∀ (l : Fin 66) s, clockOn s = true → (laneOf s l).retryAt = none →
    ∃ t, Sys2Proof.Machine.exec (.rebringupRetry l) s = .next t ∧ Seen s t)
  ∧ (∀ (l : Fin 66) s d, clockOn s = true → (laneOf s l).retryEnd = some d →
    ∃ t, Sys2Proof.Machine.exec (.retryWindowEnd l) s = .next t
      ∧ Seen (updLane (advanceTo s d) l (fun x => { x with retryEnd := none, retryN := 0 })) t)
  ∧ (∀ (l : Fin 66) s, clockOn s = true → (laneOf s l).retryEnd = none →
    ∃ t, Sys2Proof.Machine.exec (.retryWindowEnd l) s = .next t ∧ Seen s t)

/-- 16 invalid of the last 64 symbols or headers at the lane's rate are a loss of lock: of an ACTIVE lane it counts in
LANE_LOCK_LOSS, ends a scan, is a lane error and starts an automatic re-bring-up; in LOCK and CAPS it is counted and
fails the bring-up with cause 1; in LOOP it is counted there and for the loop's completion; elsewhere, or with fewer
invalid ones, nothing changes. The end of an error window without an error ends the note's cause; the count restarts.
The end of a loop takes the lane DOWN and answers the frames sent, the three counts given and the losses of lock,
those it has counted and those given. The end of a scan stores its points and answers width and height. Without a
running loop or scan nothing changes. (R239, R245, R246, R247, R250, R251, R253, R254, R255, R256) -/
def Obligations.LaneFaultEvents : Prop :=
  (∀ (l : Fin 66) rx pts s x, clockOn s = true → x = laneOf s l →
    (rxFits (rateOf x) rx = true → rxLost rx = true →
      (x.st = .active → ∃ t, Sys2Proof.Machine.exec (.lossOfLock l pts rx) s = .next t
        ∧ Seen (lockLost (incP s P.LANE_LOCK_LOSS l) l pts) t)
      ∧ (x.st = .lock ∨ x.st = .caps → ∃ t, Sys2Proof.Machine.exec (.lossOfLock l pts rx) s = .next t
        ∧ Seen (bringupFail (incP s P.LANE_LOCK_LOSS l) l 1 (fun _ => ⟨St.state, 0xD, l⟩)) t)
      ∧ (x.st = .loop → ∃ t, Sys2Proof.Machine.exec (.lossOfLock l pts rx) s = .next t
        ∧ Seen (updLane (incP s P.LANE_LOCK_LOSS l) l (fun x => { x with
            loopRun := x.loopRun.map (fun r => { r with losses := r.losses + 1 }) })) t)
      ∧ (x.st ≠ .active → x.st ≠ .lock → x.st ≠ .caps → x.st ≠ .loop →
        ∃ t, Sys2Proof.Machine.exec (.lossOfLock l pts rx) s = .next t ∧ Seen s t))
    ∧ (rxFits (rateOf x) rx = false ∨ rxLost rx = false →
      ∃ t, Sys2Proof.Machine.exec (.lossOfLock l pts rx) s = .next t ∧ Seen s t))
  ∧ (∀ (l : Fin 66) s, clockOn s = true → (laneOf s l).errOpen = true →
    ∃ t v, Sys2Proof.Machine.exec (.laneErrorWindowEnd l) s = .next t
      ∧ v = advanceTo s ((laneOf s l).errWin + 200000000)
      ∧ Seen (updLane (putN (if getN v P.LANE_ERR_COUNT l = 0 then causeGone v F.LANE_TRANSIENT l else v)
          P.LANE_ERR_COUNT l 0) l (fun x => { x with errWin := x.errWin + 200000000 })) t
      ∧ getN t P.LANE_ERR_COUNT l = 0)
  ∧ (∀ (l : Fin 66) s, clockOn s = true → (laneOf s l).errOpen = false →
    ∃ t, Sys2Proof.Machine.exec (.laneErrorWindowEnd l) s = .next t ∧ Seen s t)
  ∧ (∀ (l : Fin 66) (a b d g : Word) s r o, clockOn s = true → (laneOf s l).loopRun = some r →
      opRun? s 0x22 l = some o →
    ∃ t, Sys2Proof.Machine.exec (.laneLoopEnd l a b d g) s = .next t
      ∧ Seen (completeOk (updLane (advanceTo s r.due) l (fun x => { x with st := .down, loopRun := none })) o
          [BitVec.ofNat 32 r.sent, a, b, d, BitVec.ofNat 32 r.losses + g]) t
      ∧ (laneOf t l).st = .down)
  ∧ (∀ (l : Fin 66) (a b d g : Word) s, clockOn s = true →
      ((laneOf s l).loopRun = none ∨ opRun? s 0x22 l = none) →
    ∃ t, Sys2Proof.Machine.exec (.laneLoopEnd l a b d g) s = .next t ∧ Seen s t)
  ∧ (∀ pts s o, clockOn s = true → opAny? s 0x23 = some o →
    ∃ t, Sys2Proof.Machine.exec (.eyeScanDone pts) s = .next t
      ∧ Seen (completeOk (eyeStore (advanceTo s (o.start + uiTicks (o.args.getD 1 0) (4160 * 2 ^ (o.args.getD 0 0))))
          o o.key true pts) o
          [BitVec.ofNat 32 (eyeWidth pts), BitVec.ofNat 32 (eyeHeight pts)]) t)
  ∧ (∀ pts s, clockOn s = true → opAny? s 0x23 = none →
    ∃ t, Sys2Proof.Machine.exec (.eyeScanDone pts) s = .next t ∧ Seen s t)

/-- ARM_ENABLE of arms with active tables answers OK and changes nothing (the manual gives it no effect, log entry
35), of an arm without one E_STATE detail 3. DEBLOCK answers E_STATE detail 5 on a standby and detail 10 while the
belay is not NORMAL; where no refusal stands every listed arm is deblocked, one that was not from period next mark
plus L minus 1 on, and no other arm changes. BLOCK, never refused once admitted, blocks every listed deblocked arm
from the period after the next mark on and changes no other arm. No chopper output changes by either. (R54, R60, R117,
R148, R149, R373, R452) -/
def Obligations.BlockDeblock : Prop :=
  (∀ c s, Admitted spArmEnable none c s →
    (noTableErr s (pw c 0) = none → ∃ t, Sys2Proof.Machine.exec (.armEnable c) s = .next t
      ∧ Replied 0x30 St.ok 0 [] c (arrived s c) t)
    ∧ (∀ e, noTableErr s (pw c 0) = some e → ∃ t, Sys2Proof.Machine.exec (.armEnable c) s = .next t
      ∧ Replied 0x30 e.status e.detail [BitVec.ofNat 32 e.diag] c (arrived s c) t))
  ∧ (∀ c s, Admitted spDeblock none c s →
    (s.dup.role = .standby → ∃ t, Sys2Proof.Machine.exec (.deblock c) s = .next t
      ∧ Replied 0x31 St.state 5 [0] c (arrived s c) t)
    ∧ (s.dup.role ≠ .standby → s.belay.state ≠ .normal → ∃ t, Sys2Proof.Machine.exec (.deblock c) s = .next t
      ∧ Replied 0x31 St.state 10 [0] c (arrived s c) t)
    ∧ (deblockErr (arrived s c) (pw c 0) = none → ∃ t, Sys2Proof.Machine.exec (.deblock c) s = .next t
      ∧ Replied 0x31 St.ok 0 [] c (deblockArms (arrived s c) (pw c 0)) t
      ∧ t.chop = s.chop
      ∧ ∀ a, armOf t a = if a < 6 ∧ bit (pw c 0) a = true ∧ (armOf s a).deblocked = false
          then { armOf s a with deblocked := true, firstDeb := s.per.count + 1 + s.per.lat - 1 } else armOf s a))
  ∧ (∀ c s, Admitted spBlock none c s → ∃ t, Sys2Proof.Machine.exec (.block c) s = .next t
      ∧ Replied 0x32 St.ok 0 [] c (blockArms (arrived s c) (pw c 0)) t
      ∧ t.chop = s.chop
      ∧ ∀ a, armOf t a = if a < 6 ∧ bit (pw c 0) a = true ∧ (armOf s a).deblocked = true
          then { armOf s a with deblocked := false, blockFrom := s.per.count + 2 } else armOf s a)

/-- Each of these is refused on a standby with E_STATE detail 5. On another role, where its checks pass: CLEAT_ADD
answers the lowest FREE maintenance entry, which then holds the cell; CLEAT_RELEASE takes a HELD maintenance entry to
RELEASE_PENDING; MAINT_ADMIT fills the lowest free slot with the activity; MAINT_END removes the activity's marks and
lets it end at the second latch mark; CLT_EXCLUDE holds the mark written; CELL_RETIRE is accepted and its retirement
begins with the entry the cell holds, with a free fault entry, or by waiting for one. Where a check fails, the first
failing one's error is answered and nothing is done. (R163, R167, R168, R171, R172, R173, R452) -/
def Obligations.CleatCommands : Prop :=
  (∀ c s, Admitted spCleatAdd none c s →
    (s.dup.role = .standby → ∃ t, Sys2Proof.Machine.exec (.cleatAdd c) s = .next t
      ∧ Replied 0x33 St.state 5 [0] c (arrived s c) t)
    ∧ (s.dup.role ≠ .standby → pw c 0 ≠ 0 → (cellOf s (tgt c)).placed = true →
        cleatAddErr (arrived s c) (tgt c) (pw c 0) (pw c 1) = none →
      ∃ t, Sys2Proof.Machine.exec (.cleatAdd c) s = .next t
        ∧ Replied 0x33 St.ok 0 [BitVec.ofNat 32 ((maintFree s).headD 0)] c
            (cleatWatch (updCleat (arrived s c) ((maintFree s).headD 0) (fun _ =>
              heldEntry (arrived s c) ((maintFree s).headD 0) (tgt c) (ovrOf (pw c 0)) false (pw c 1)
                (s.per.count + 1)))) t
        ∧ (cleatOf t ((maintFree s).headD 0)).st = .held ∧ (cleatOf t ((maintFree s).headD 0)).cell = tgt c)
    ∧ (s.dup.role ≠ .standby → pw c 0 = 0 → ∃ t, Sys2Proof.Machine.exec (.cleatAdd c) s = .next t
      ∧ Replied 0x33 St.range 0x8000 [0] c (arrived s c) t)
    ∧ (s.dup.role ≠ .standby → pw c 0 ≠ 0 → (cellOf s (tgt c)).placed = false →
      ∃ t, Sys2Proof.Machine.exec (.cleatAdd c) s = .next t
        ∧ Replied 0x33 St.state 3 [BitVec.ofNat 32 (diagKind 2 (tgt c))] c (arrived s c) t)
    ∧ (∀ e, s.dup.role ≠ .standby → pw c 0 ≠ 0 → (cellOf s (tgt c)).placed = true →
        cleatAddErr (arrived s c) (tgt c) (pw c 0) (pw c 1) = some e →
      ∃ t, Sys2Proof.Machine.exec (.cleatAdd c) s = .next t
        ∧ Replied 0x33 e.status e.detail [BitVec.ofNat 32 e.diag] c (arrived s c) t))
  ∧ (∀ c s, Admitted spCleatRelease none c s →
    (s.dup.role = .standby → ∃ t, Sys2Proof.Machine.exec (.cleatRelease c) s = .next t
      ∧ Replied 0x34 St.state 5 [0] c (arrived s c) t)
    ∧ (s.dup.role ≠ .standby → pw c 0 ≤ 31 → (cleatOf s (pw c 0)).st = .held → (cleatOf s (pw c 0)).fault = false →
      ∃ t, Sys2Proof.Machine.exec (.cleatRelease c) s = .next t
        ∧ Replied 0x34 St.ok 0 [] c (releaseEntry (arrived s c) (pw c 0) (s.per.count + 1)) t
        ∧ (cleatOf t (pw c 0)).st = .pending ∧ (cleatOf t (pw c 0)).freeAt = s.per.count + 1 + s.per.lat - 1)
    ∧ (s.dup.role ≠ .standby → 31 < pw c 0 → ∃ t, Sys2Proof.Machine.exec (.cleatRelease c) s = .next t
      ∧ Replied 0x34 St.range 0x8000 [BitVec.ofNat 32 (pw c 0)] c (arrived s c) t)
    ∧ (s.dup.role ≠ .standby → pw c 0 ≤ 31 → (cleatOf s (pw c 0)).st ≠ .held ∨ (cleatOf s (pw c 0)).fault = true →
      ∃ t, Sys2Proof.Machine.exec (.cleatRelease c) s = .next t
        ∧ Replied 0x34 St.state 8 [BitVec.ofNat 32 (pw c 0)] c (arrived s c) t))
  ∧ (∀ c s, Admitted spMaintAdmit none c s →
    (s.dup.role = .standby → ∃ t, Sys2Proof.Machine.exec (.maintAdmit c) s = .next t
      ∧ Replied 0x35 St.state 5 [0] c (arrived s c) t)
    ∧ (maintAdmitErr c (arrived s c) = none → ∃ t, Sys2Proof.Machine.exec (.maintAdmit c) s = .next t
        ∧ Replied 0x35 St.ok 0 [] c (ledgerWatch (updAct (arrived s c) ((freeActs s).headD 0)
            (fun _ => ⟨pw c 0, pw c 1, armList.map (fun a => pw c (2 + a)), none⟩))) t
        ∧ (tabGet Activity.empty t.cleat.acts ((freeActs s).headD 0)).id = pw c 0)
    ∧ (∀ e, maintAdmitErr c (arrived s c) = some e → ∃ t, Sys2Proof.Machine.exec (.maintAdmit c) s = .next t
        ∧ Replied 0x35 e.status e.detail [BitVec.ofNat 32 e.diag] c (arrived s c) t))
  ∧ (∀ c s, Admitted spMaintEnd none c s →
    (s.dup.role = .standby → ∃ t, Sys2Proof.Machine.exec (.maintEnd c) s = .next t
      ∧ Replied 0x36 St.state 5 [0] c (arrived s c) t)
    ∧ (∀ i, s.dup.role ≠ .standby → actAdmitted? s (pw c 0) = some i → actHeld s (pw c 0) = 0 →
      ∃ t, Sys2Proof.Machine.exec (.maintEnd c) s = .next t
        ∧ Replied 0x36 St.ok 0 [] c (updAct (clearExcl (arrived s c) (pw c 0)) i (fun a => { a with ending := some 2 })) t
        ∧ (tabGet Activity.empty t.cleat.acts i).ending = some 2)
    ∧ (∀ i, s.dup.role ≠ .standby → actAdmitted? s (pw c 0) = some i → actHeld s (pw c 0) ≠ 0 →
      ∃ t, Sys2Proof.Machine.exec (.maintEnd c) s = .next t
        ∧ Replied 0x36 St.state 8 [BitVec.ofNat 32 (pw c 0)] c (arrived s c) t)
    ∧ (s.dup.role ≠ .standby → actAdmitted? s (pw c 0) = none → ∃ t, Sys2Proof.Machine.exec (.maintEnd c) s = .next t
        ∧ Replied 0x36 St.state 8 [BitVec.ofNat 32 (pw c 0)] c (arrived s c) t))
  ∧ (∀ c s, Admitted (spSetParam (paramCmd P.CLT_EXCLUDE c)) (paramOwn (paramCmd P.CLT_EXCLUDE c))
        (paramCmd P.CLT_EXCLUDE c) s →
    (s.dup.role = .standby → (c.payload.getD 0 0).toNat < 65536 →
      ∃ t, Sys2Proof.Machine.exec (.cltExclude c) s = .next t
        ∧ Replied 0x03 St.state 5 [0] (paramCmd P.CLT_EXCLUDE c) (rowFrom P.CLT_EXCLUDE c s) t)
    ∧ (∀ e, setErr (rowFrom P.CLT_EXCLUDE c s) P.CLT_EXCLUDE (tgt c) (c.payload.getD 0 0) = some e →
      ∃ t, Sys2Proof.Machine.exec (.cltExclude c) s = .next t
        ∧ Replied 0x03 e.status e.detail [BitVec.ofNat 32 e.diag] (paramCmd P.CLT_EXCLUDE c)
            (rowFrom P.CLT_EXCLUDE c s) t))
  ∧ (∀ c s, RowOk P.CLT_EXCLUDE c s → ∃ t, Sys2Proof.Machine.exec (.cltExclude c) s = .next t
      ∧ RowDone P.CLT_EXCLUDE c
          (tallyTouch (putP (rowFrom P.CLT_EXCLUDE c s) P.CLT_EXCLUDE (tgt c) (c.payload.getD 0 0)) P.CLT_EXCLUDE) t
      ∧ getP t P.CLT_EXCLUDE (tgt c) = c.payload.getD 0 0)
  ∧ (∀ c s, Admitted spCellRetire none c s →
    (s.dup.role = .standby → ∃ t, Sys2Proof.Machine.exec (.cellRetire c) s = .next t
      ∧ Replied 0x37 St.state 5 [0] c (arrived s c) t)
    ∧ (s.dup.role ≠ .standby → (cellOf s (tgt c)).placed = true → opRun? s 0x37 (tgt c) = none →
        (cellOf s (tgt c)).retired = false → (cellOf s (tgt c)).retire = .no →
        retireBelow (arrived s c) (tgt c) = false →
      ∃ t, Sys2Proof.Machine.exec (.cellRetire c) s = .next t
        ∧ Accepted 0x37 c (startOp (arrived s c) 0x37 (tgt c) c [1]) (serveRetire (s.per.count + 1)) t)
    ∧ (s.dup.role ≠ .standby → (cellOf s (tgt c)).placed = false → ∃ t, Sys2Proof.Machine.exec (.cellRetire c) s = .next t
      ∧ Replied 0x37 St.state 3 [BitVec.ofNat 32 (diagKind 2 (tgt c))] c (arrived s c) t)
    ∧ (∀ o, s.dup.role ≠ .standby → (cellOf s (tgt c)).placed = true → opRun? s 0x37 (tgt c) = some o →
      ∃ t, Sys2Proof.Machine.exec (.cellRetire c) s = .next t
        ∧ Replied 0x37 St.conflict 1 [BitVec.ofNat 32 o.tag.toNat] c (arrived s c) t)
    ∧ (s.dup.role ≠ .standby → (cellOf s (tgt c)).placed = true → opRun? s 0x37 (tgt c) = none →
        (cellOf s (tgt c)).retired = true ∨ (cellOf s (tgt c)).retire ≠ .no →
      ∃ t, Sys2Proof.Machine.exec (.cellRetire c) s = .next t
        ∧ Replied 0x37 St.conflict 3 [BitVec.ofNat 32 (tgt c)] c (arrived s c) t)
    ∧ (s.dup.role ≠ .standby → (cellOf s (tgt c)).placed = true → opRun? s 0x37 (tgt c) = none →
        (cellOf s (tgt c)).retired = false → (cellOf s (tgt c)).retire = .no →
        retireBelow (arrived s c) (tgt c) = true →
      ∃ t, Sys2Proof.Machine.exec (.cellRetire c) s = .next t
        ∧ Replied 0x37 St.conflict 2 [BitVec.ofNat 32 (cellOf s (tgt c)).arm] c (arrived s c) t))

/-- At its latch mark a fault entry whose retry window ends is released, an ending activity in its last latch is
freed; an entry in RELEASE_PENDING is freed once its mark has come. A CELL_RETIRE that has waited four epochs for an
entry ends with E_TIMEOUT detail 1; a fired bypass not confirmed in time fails, and the pair of a failed one is sent
again when due. Where nothing is due, nothing changes. (R161, R166, R167, R168, R173, R286) -/
def Obligations.CleatTimers : Prop :=
  (∀ (e : Fin 32) s n, clockOn s = true → (cleatOf s e).latches = some n → n ≤ 1 → (cleatOf s e).st = .held →
      (cleatOf s e).fault = true → s.per.running = true → latchNext s = true → (cleatOf s e).since ≤ s.per.count →
    ∃ t, Sys2Proof.Machine.exec (.cleatRetryWindowEnd e) s = .next t
      ∧ Seen (releaseEntry (advanceTo s s.per.nextMark) e (s.per.count + 1)) t ∧ (cleatOf t e).st = .pending)
  ∧ (∀ (e : Fin 32) s, clockOn s = true → (∀ n, (cleatOf s e).latches = some n →
        1 < n ∨ (cleatOf s e).st ≠ .held ∨ (cleatOf s e).fault = false ∨ s.per.running = false ∨ latchNext s = false
          ∨ s.per.count < (cleatOf s e).since) →
    ∃ t, Sys2Proof.Machine.exec (.cleatRetryWindowEnd e) s = .next t ∧ Seen s t)
  ∧ (∀ (e : Fin 32) s, clockOn s = true → (cleatOf s e).st = .pending → s.per.running = true →
      (cleatOf s e).freeAt ≤ s.per.count + 1 →
    ∃ t, Sys2Proof.Machine.exec (.cleatEntryFree e) s = .next t
      ∧ Seen (freeCleats (if (cleatOf s e).freeAt ≤ s.per.count then s else advanceTo s s.per.nextMark)
          (cleatOf s e).freeAt) t)
  ∧ (∀ (e : Fin 32) s, clockOn s = true →
      (cleatOf s e).st ≠ .pending ∨ s.per.running = false ∨ s.per.count + 1 < (cleatOf s e).freeAt →
    ∃ t, Sys2Proof.Machine.exec (.cleatEntryFree e) s = .next t ∧ Seen s t)
  ∧ (∀ (i : Fin 16) s n, clockOn s = true → (tabGet Activity.empty s.cleat.acts i).ending = some n → n ≤ 1 →
      s.per.running = true → latchNext s = true →
    ∃ t, Sys2Proof.Machine.exec (.activityFree i) s = .next t
      ∧ Seen (freeActivity (advanceTo s s.per.nextMark) i) t ∧ (tabGet Activity.empty t.cleat.acts i).id = 0)
  ∧ (∀ (i : Fin 16) s, clockOn s = true → (∀ n, (tabGet Activity.empty s.cleat.acts i).ending = some n →
        1 < n ∨ s.per.running = false ∨ latchNext s = false) →
    ∃ t, Sys2Proof.Machine.exec (.activityFree i) s = .next t ∧ Seen s t)
  ∧ (∀ (x : Fin 3072) s o, clockOn s = true → opRun? s 0x37 x = some o → o.args.headD 0 = 1 →
      (cellOf s x).retire = .no →
    ∃ t v, Sys2Proof.Machine.exec (.cellRetireTimeout x) s = .next t
      ∧ v = advanceTo s (o.start + 4 * s.per.eff * s.per.per)
      ∧ Seen (completeErr v o ⟨St.timeout, 1, elapsedUs v o⟩) t)
  ∧ (∀ (x : Fin 3072) s, clockOn s = true →
      (∀ o, opRun? s 0x37 x = some o → o.args.headD 0 ≠ 1 ∨ (cellOf s x).retire ≠ .no) →
    ∃ t, Sys2Proof.Machine.exec (.cellRetireTimeout x) s = .next t ∧ Seen s t)
  ∧ (∀ (x : Fin 3072) s d, clockOn s = true → (cellOf s x).retire = .fired d →
    ∃ t, Sys2Proof.Machine.exec (.permConfirmTimeout x) s = .next t ∧ Seen (permFailed (advanceTo s d) x) t)
  ∧ (∀ (x : Fin 3072) s d, clockOn s = true → (cellOf s x).retire = .again d →
    ∃ t, Sys2Proof.Machine.exec (.permBypassRetry x) s = .next t ∧ Seen (sendPair (advanceTo s d) x) t)
  ∧ (∀ (x : Fin 3072) s, clockOn s = true →
    ((∀ d, (cellOf s x).retire ≠ .fired d) →
      ∃ t, Sys2Proof.Machine.exec (.permConfirmTimeout x) s = .next t ∧ Seen s t)
    ∧ ((∀ d, (cellOf s x).retire ≠ .again d) →
      ∃ t, Sys2Proof.Machine.exec (.permBypassRetry x) s = .next t ∧ Seen s t))

/-- LOOP_MODE notes the mode for the next mark and leaves the mode in force; START and TEST while an arm is deblocked
answer E_STATE detail 2 with the mask. TRAJ_QUEUE and TRAJ_FLUSH answer E_STATE detail 5 on a standby and E_CONFLICT
detail 1 where a homing claims the generator. Else TRAJ_QUEUE of limits 1 to 2,147,483,647 appends the move while
fewer than 8 wait, answers E_RESOURCE detail 2 with DIAG 8 where 8 wait, and with REPLACE puts it in place of the
plan; the first limit outside that range answers E_RANGE with its word. TRAJ_FLUSH stops the generator or empties its
queue. TRAJ_PRESET in RUN sets the position to the written value, velocity and acceleration to 0; outside RUN, where
no generator runs, it changes nothing; it refuses with E_CONFLICT detail 1 where a homing claims the generator and
with detail 3 and the generator where it is not idle. (R194, R196, R202, R203, R205, R206, R207, R367, R452) -/
def Obligations.LoopsAndTrajectories : Prop :=
  (∀ c s, Admitted spLoopMode none c s →
    ((¬ (LoopMode.ofCode (pw c 0) = .start ∨ LoopMode.ofCode (pw c 0) = .test) ∨ anyDeb s = false) →
      ∃ t, Sys2Proof.Machine.exec (.loopMode c) s = .next t
        ∧ Replied 0x40 St.ok 0 [] c
            (updSlot (arrived s c) (tgt c) (fun x => { x with pend := some (LoopMode.ofCode (pw c 0)) })) t
        ∧ (slotOf t (tgt c)).mode = (slotOf s (tgt c)).mode)
    ∧ ((LoopMode.ofCode (pw c 0) = .start ∨ LoopMode.ofCode (pw c 0) = .test) → anyDeb s = true →
      ∃ t, Sys2Proof.Machine.exec (.loopMode c) s = .next t
        ∧ Replied 0x40 St.state 2 [BitVec.ofNat 32 (debMask s)] c (arrived s c) t))
  ∧ (∀ c s, Admitted spTrajQueue none c s →
    (s.dup.role = .standby → ∃ t, Sys2Proof.Machine.exec (.trajQueue c) s = .next t
      ∧ Replied 0x41 St.state 5 [0] c (arrived s c) t)
    ∧ (∀ i, s.dup.role ≠ .standby → 2 ≤ i → i ≤ 4 → pw c i = 0 ∨ 2147483647 < pw c i →
        (∀ k, 2 ≤ k → k < i → 1 ≤ pw c k ∧ pw c k ≤ 2147483647) →
      ∃ t, Sys2Proof.Machine.exec (.trajQueue c) s = .next t
        ∧ Replied 0x41 St.range (0x8000 + i) [BitVec.ofNat 32 (pw c i)] c (arrived s c) t)
    ∧ (s.dup.role ≠ .standby → (∀ i, 2 ≤ i → i ≤ 4 → 1 ≤ pw c i ∧ pw c i ≤ 2147483647) →
      (∀ n o, (genOf s (tgt c)).homing = some n → opRun? s 0x60 n = some o →
        ∃ t, Sys2Proof.Machine.exec (.trajQueue c) s = .next t
          ∧ Replied 0x41 St.conflict 1 [BitVec.ofNat 32 o.tag.toNat] c (arrived s c) t)
      ∧ ((genOf s (tgt c)).homing = none → bit (pw c 0) 0 = true →
        ∃ t, Sys2Proof.Machine.exec (.trajQueue c) s = .next t
          ∧ Replied 0x41 St.ok 0 [] c
              (genReplace (arrived s c) (tgt c) ⟨signedOf 32 (pw c 1), pw c 2, pw c 3, pw c 4⟩) t)
      ∧ ((genOf s (tgt c)).homing = none → bit (pw c 0) 0 = false →
          (genOf (syncGen (arrived s c) (tgt c)) (tgt c)).queue.length < 8 →
        ∃ t, Sys2Proof.Machine.exec (.trajQueue c) s = .next t
          ∧ Replied 0x41 St.ok 0 [] c (updGen (syncGen (arrived s c) (tgt c)) (tgt c) (fun g => { g with
              queue := g.queue ++ [⟨signedOf 32 (pw c 1), pw c 2, pw c 3, pw c 4⟩] })) t)
      ∧ ((genOf s (tgt c)).homing = none → bit (pw c 0) 0 = false →
          8 ≤ (genOf (syncGen (arrived s c) (tgt c)) (tgt c)).queue.length →
        ∃ t, Sys2Proof.Machine.exec (.trajQueue c) s = .next t
          ∧ Replied 0x41 St.resource 2 [8] c (arrived s c) t)))
  ∧ (∀ c s, Admitted spTrajFlush none c s →
    (s.dup.role = .standby → ∃ t, Sys2Proof.Machine.exec (.trajFlush c) s = .next t
      ∧ Replied 0x42 St.state 5 [0] c (arrived s c) t)
    ∧ (∀ n o, s.dup.role ≠ .standby → (genOf s (tgt c)).homing = some n → opRun? s 0x60 n = some o →
      ∃ t, Sys2Proof.Machine.exec (.trajFlush c) s = .next t
        ∧ Replied 0x42 St.conflict 1 [BitVec.ofNat 32 o.tag.toNat] c (arrived s c) t)
    ∧ (s.dup.role ≠ .standby → (genOf s (tgt c)).homing = none →
      ∃ t, Sys2Proof.Machine.exec (.trajFlush c) s = .next t
        ∧ Replied 0x42 St.ok 0 [] c
            (if bit (pw c 0) 0 then genStop (arrived s c) (tgt c) else genFlush (arrived s c) (tgt c)) t
        ∧ (genOf t (tgt c)).queue = []))
  ∧ (∀ c s, RowOk P.TRAJ_PRESET c s → s.pwr.state = .run →
    ∃ t, Sys2Proof.Machine.exec (.trajPreset c) s = .next t
      ∧ RowDone P.TRAJ_PRESET c (trajPresetSet (rowFrom P.TRAJ_PRESET c s) (tgt c) (c.payload.getD 0 0).toInt) t
      ∧ getP t P.TRAJ_POS (tgt c) = c.payload.getD 0 0 ∧ getP t P.TRAJ_VEL (tgt c) = 0
      ∧ getP t P.TRAJ_ACC (tgt c) = 0)
  ∧ (∀ c s, RowOk P.TRAJ_PRESET c s → s.pwr.state ≠ .run →
    ∃ t, Sys2Proof.Machine.exec (.trajPreset c) s = .next t ∧ RowDone P.TRAJ_PRESET c (rowFrom P.TRAJ_PRESET c s) t)
  ∧ (∀ c s, Admitted (spSetParam (paramCmd P.TRAJ_PRESET c)) (paramOwn (paramCmd P.TRAJ_PRESET c))
        (paramCmd P.TRAJ_PRESET c) s →
    (∀ n o, (genOf s (tgt c)).homing = some n → opRun? s 0x60 n = some o →
      ∃ t, Sys2Proof.Machine.exec (.trajPreset c) s = .next t
        ∧ Replied 0x03 St.conflict 1 [BitVec.ofNat 32 o.tag.toNat] (paramCmd P.TRAJ_PRESET c)
            (rowFrom P.TRAJ_PRESET c s) t)
    ∧ ((genOf s (tgt c)).homing = none → genIdle (genSync 10 (genOf s (tgt c)) s.tick).1 = false →
      ∃ t, Sys2Proof.Machine.exec (.trajPreset c) s = .next t
        ∧ Replied 0x03 St.conflict 3 [BitVec.ofNat 32 (tgt c)] (paramCmd P.TRAJ_PRESET c)
            (rowFrom P.TRAJ_PRESET c s) t))

/-- A calibration command without a conflict is accepted and begins: the sequences under way complete first, the
regular one is abandoned; with one its error is answered. A calibration whose conversions are made ends with the
rounded mean: for zero the offset Z, for full scale the gain; within its bounds it is held, its DONE flag set and mean
and value answered, beyond them, or where the full-scale distance is not positive, E_RANGE and nothing held.
ADC_INJECT of an enabled sequence triggers it at once, answering detail 1 where the trigger is lost; with a delay the
trigger waits, and the reply with it (log entry 54); a sequence number above 7 answers E_RANGE, a disabled sequence
E_STATE detail 3. ADC_PT_START starts a path test of its channel, or answers its first failing check's error; its end
holds ratio and verdict and sets or ends the fault's cause. (R339, R344, R345, R346, R347, R348, R357) -/
def Obligations.AdcCommands : Prop :=
  (∀ c s, Admitted spAdcCalZero none c s → calErr (arrived s c) (pw c 0) = none →
    ∃ t, Sys2Proof.Machine.exec (.adcCalZero c) s = .next t
      ∧ Accepted 0x50 c (startOp (arrived s c) 0x50 (pw c 0) c []) (fun v => calBegin v (pw c 0) false) t)
  ∧ (∀ c s e, Admitted spAdcCalZero none c s → calErr (arrived s c) (pw c 0) = some e →
    ∃ t, Sys2Proof.Machine.exec (.adcCalZero c) s = .next t
      ∧ Replied 0x50 e.status e.detail [BitVec.ofNat 32 e.diag] c (arrived s c) t)
  ∧ (∀ c s, Admitted spAdcCalFull none c s → calErr (arrived s c) (pw c 0) = none →
    ∃ t, Sys2Proof.Machine.exec (.adcCalFull c) s = .next t
      ∧ Accepted 0x51 c (startOp (arrived s c) 0x51 (pw c 0) c []) (fun v => calBegin v (pw c 0) true) t)
  ∧ (∀ c s e, Admitted spAdcCalFull none c s → calErr (arrived s c) (pw c 0) = some e →
    ∃ t, Sys2Proof.Machine.exec (.adcCalFull c) s = .next t
      ∧ Replied 0x51 e.status e.detail [BitVec.ofNat 32 e.diag] c (arrived s c) t)
  ∧ (∀ (a : Fin 2) s m z, clockOn s = true → calMean s a false = some m → z = m - getN s P.ADC_CAL_ZREF a →
    (z.natAbs ≤ 4096 → ∃ t, Sys2Proof.Machine.exec (.adcCalZeroDone a) s = .next t
      ∧ Seen (calEnd s a 0x50 4 P.ADC_CAL_Z m z none) t)
    ∧ (4096 < z.natAbs → ∃ t, Sys2Proof.Machine.exec (.adcCalZeroDone a) s = .next t
      ∧ Seen (calEnd s a 0x50 4 P.ADC_CAL_Z m z (some z)) t))
  ∧ (∀ (a : Fin 2) s m d g, clockOn s = true → calMean s a true = some m →
      d = m - getI s P.ADC_CAL_Z a - getN s P.ADC_CAL_ZREF a → 0 < d →
      g = roundHalfAway (16384 * ((getN s P.ADC_CAL_FREF a : Int) - getN s P.ADC_CAL_ZREF a : Int) / (d : Rat)) →
    (12288 ≤ g → g ≤ 20480 → ∃ t, Sys2Proof.Machine.exec (.adcCalFullDone a) s = .next t
      ∧ Seen (calEnd s a 0x51 8 P.ADC_CAL_G m g none) t)
    ∧ ((g < 12288 ∨ 20480 < g) → ∃ t, Sys2Proof.Machine.exec (.adcCalFullDone a) s = .next t
      ∧ Seen (calEnd s a 0x51 8 P.ADC_CAL_G m g (some g)) t))
  ∧ (∀ (a : Fin 2) s m, clockOn s = true → calMean s a true = some m →
      m - getI s P.ADC_CAL_Z a - getN s P.ADC_CAL_ZREF a ≤ 0 →
    ∃ t, Sys2Proof.Machine.exec (.adcCalFullDone a) s = .next t
      ∧ Seen (calEnd s a 0x51 8 P.ADC_CAL_G m 0 (some 0)) t)
  ∧ (∀ (a : Fin 2) s, clockOn s = true →
    (calMean s a false = none → ∃ t, Sys2Proof.Machine.exec (.adcCalZeroDone a) s = .next t ∧ Seen s t)
    ∧ (calMean s a true = none → ∃ t, Sys2Proof.Machine.exec (.adcCalFullDone a) s = .next t ∧ Seen s t))
  ∧ (∀ c s a q, Admitted spAdcInject none c s → a = pw c 0 % 2 → q = field (pw c 0) 7 4 →
    (8 ≤ q → ∃ t, Sys2Proof.Machine.exec (.adcInject c) s = .next t
      ∧ Replied 0x52 St.range 0x8000 [BitVec.ofNat 32 (pw c 0)] c (arrived s c) t)
    ∧ (q < 8 → bit (getN s P.ADC_INJ_CFG (8 * a + q)) 26 = false →
      ∃ t, Sys2Proof.Machine.exec (.adcInject c) s = .next t
        ∧ Replied 0x52 St.state 3 [BitVec.ofNat 32 (diagKind 7 q)] c (arrived s c) t)
    ∧ (q < 8 → bit (getN s P.ADC_INJ_CFG (8 * a + q)) 26 = true → getN s P.ADC_INJ_DELAY (8 * a + q) = 0 →
      ∃ t, Sys2Proof.Machine.exec (.adcInject c) s = .next t
        ∧ Replied 0x52 St.ok (b2n (injTrigger (arrived s c) a q s.tick none).2) [] c
            (injTrigger (arrived s c) a q s.tick none).1 t)
    ∧ (q < 8 → bit (getN s P.ADC_INJ_CFG (8 * a + q)) 26 = true → getN s P.ADC_INJ_DELAY (8 * a + q) ≠ 0 →
      ∃ t, Sys2Proof.Machine.exec (.adcInject c) s = .next t
        ∧ Seen (updAdc (arrived s c) a (fun x => { x with
            trigs := x.trigs ++ [⟨s.tick + getN s P.ADC_INJ_DELAY (8 * a + q), q, none, some c⟩] })) t))
  ∧ (∀ c s e, Admitted (spSetParam (paramCmd P.ADC_PT_START c)) (paramOwn (paramCmd P.ADC_PT_START c))
        (paramCmd P.ADC_PT_START c) s →
      setErr (rowFrom P.ADC_PT_START c s) P.ADC_PT_START (tgt c) (c.payload.getD 0 0) = some e →
    ∃ t, Sys2Proof.Machine.exec (.adcPtStart c) s = .next t
      ∧ Replied 0x03 e.status e.detail [BitVec.ofNat 32 e.diag] (paramCmd P.ADC_PT_START c)
          (rowFrom P.ADC_PT_START c s) t)
  ∧ (∀ c s, RowOk P.ADC_PT_START c s → ∃ t, Sys2Proof.Machine.exec (.adcPtStart c) s = .next t
      ∧ RowDone P.ADC_PT_START c (ptStart (rowFrom P.ADC_PT_START c s) (c.payload.getD 0 0).toNat) t
      ∧ t.meas.pt.map (fun p => (p.adc, p.chan)) = some (field (c.payload.getD 0 0).toNat 8 8, field (c.payload.getD 0 0).toNat 4 0))
  ∧ (∀ s p ratio ok, clockOn s = true → s.meas.pt = some p → p.second = true → p.n = 16 →
      ratio = sat16 (roundHalfAway (128 * ((p.s2 : Rat) - p.s1) / ((p.l2 : Rat) - p.l1))) →
      ok = decide ((ratio - getN s P.ADC_PT_EXPECT p.chan).natAbs ≤ getN s P.ADC_PT_TOL p.chan) →
    ∃ t u, Sys2Proof.Machine.exec .pathTestDone s = .next t
      ∧ u = putN (updMeas s (fun m => { m with pt := none })) P.ADC_PT_RESULT p.chan
          (bitsOf 16 ratio + 65536 * b2n ok + 2 ^ 17)
      ∧ Seen (if ok then causeGone u F.ADC_PATH_TEST p.chan else raiseFault u F.ADC_PATH_TEST p.chan) t
      ∧ t.meas.pt = none)
  ∧ (∀ s, clockOn s = true → (∀ p, s.meas.pt = some p → p.second = false ∨ p.n ≠ 16) →
    ∃ t, Sys2Proof.Machine.exec .pathTestDone s = .next t ∧ Seen s t)

/-- A trigger whose delay has passed leaves the list and takes effect on its injected sequence or on the regular one.
A conversion ends 100 ticks after its start: its code goes to its sequence, its calibration or its path test, that of
ADC-B to the belay first, and what waits is started. Without such a trigger or conversion nothing changes. (R331,
R333, R334, R335, R336, R340, R347, R415) -/
def Obligations.AdcEvents : Prop :=
  (∀ (a : Fin 2) (q : Fin 9) s g, clockOn s = true → (adcOf s a).trigs.find? (fun x => x.seq == q.val) = some g →
    ∃ t u, Sys2Proof.Machine.exec (.adcSequenceTrigger a q) s = .next t
      ∧ u = updAdc (advanceTo s g.due) a (fun x => { x with trigs := x.trigs.erase g })
      ∧ Seen (if q.val < 8 then
            (match g.cmd with
              | some c => answer (injTrigger u a q g.due g.mark).1 0x52 c St.ok (b2n (injTrigger u a q g.due g.mark).2) []
              | none => (injTrigger u a q g.due g.mark).1)
          else regTrigger u a g.mark) t)
  ∧ (∀ (a : Fin 2) (q : Fin 9) s, clockOn s = true → (adcOf s a).trigs.find? (fun x => x.seq == q.val) = none →
    ∃ t, Sys2Proof.Machine.exec (.adcSequenceTrigger a q) s = .next t ∧ Seen s t)
  ∧ (∀ (a : Fin 2) (raw : BitVec 16) s w, clockOn s = true → w = convWake s a →
    (∀ k ch b, (adcOf w a).conv = some (k, ch, b) →
      ∃ t u v, Sys2Proof.Machine.exec (.adcConversionEnd a raw) s = .next t
        ∧ u = updAdc (advanceTo w (b + 100)) a (fun x => { x with conv := none })
        ∧ v = (if a.val = 1 ∧ k ≠ .cal then fdcResult u ch raw.toNat else u)
        ∧ Seen (adcKick (match k with
            | .regular => regConverted v a ch raw.toNat
            | .injected q => injConverted v a q ch raw.toNat
            | .cal => updAdc v a (fun x => { x with
                cal := x.cal.map (fun c => { c with n := c.n + 1, sum := c.sum + raw.toNat }) })
            | .path => pathConverted v raw.toNat) a) t)
    ∧ ((adcOf w a).conv = none → ∃ t, Sys2Proof.Machine.exec (.adcConversionEnd a raw) s = .next t ∧ Seen w t))
  ∧ (∀ s a, (adcOf s a).conv ≠ none ∨ (∀ p, s.meas.pt = some p → p.adc ≠ a) → convWake s a = s)

/-- DEC_SYNC waits for its mark. A write of DEC_CFG holds the value and restarts the channel: no sample, no output,
filter state cleared, its first sample on the input grid. A slot of an enabled channel feeds its input bits in order;
of a disabled one it changes nothing. A bitstream that has held one value for DEC_STUCK_LIMIT samples raises
F_DEC_STUCK once where the limit is not 0, in its slot or beyond it. A falling edge of DSYNC restarts every channel on
the next input sample, which becomes the grid's origin, and counts where DEC_CTRL lets it, else nothing changes.
(R350, R351, R353, R355, R358) -/
def Obligations.Decimation : Prop :=
  (∀ c s, Admitted spDecSync none c s → ∃ t, Sys2Proof.Machine.exec (.decSync c) s = .next t
      ∧ Replied 0x53 St.ok 0 [] c (updMeas (arrived s c) (fun m => { m with sync := true })) t
      ∧ t.meas.sync = true)
  ∧ (∀ c s, RowOk P.DEC_CFG c s → ∃ t, Sys2Proof.Machine.exec (.decCfg c) s = .next t
      ∧ RowDone P.DEC_CFG c (tallyTouch (decCfgSet
          (putP (rowFrom P.DEC_CFG c s) P.DEC_CFG (tgt c) (c.payload.getD 0 0)) (tgt c)) P.DEC_CFG) t
      ∧ getP t P.DEC_CFG (tgt c) = c.payload.getD 0 0
      ∧ (decOf t (tgt c)).samples = 0 ∧ (decOf t (tgt c)).outs = 0 ∧ (decOf t (tgt c)).taps = []
      ∧ (decOf t (tgt c)).from_ = gridBack s)
  ∧ (∀ (n : Fin 16) bits s, clockOn s = true → bit (getN s P.DEC_CFG n) 0 = true →
    ∃ t, Sys2Proof.Machine.exec (.decSlot n bits) s = .next t
      ∧ Seen (bits.foldl (fun s b => stuckCheck (decBit s n b) n (decOf (decBit s n b) n).run) (advanceTo s
          (slotEnd s n ((decOf s n).from_ + 10 * ((decOf s n).samples + bits.length))))) t)
  ∧ (∀ (n : Fin 16) bits s, clockOn s = true → bit (getN s P.DEC_CFG n) 0 = false →
    ∃ t, Sys2Proof.Machine.exec (.decSlot n bits) s = .next t ∧ Seen s t)
  ∧ (∀ (n : Fin 16) s, clockOn s = true → bit (getN s P.DEC_CFG n) 0 = true → getN s P.DEC_STUCK_LIMIT 0 ≠ 0 →
      getN s P.DEC_STUCK_LIMIT 0 ≤ (decOf s n).run + (s.tick - ((decOf s n).from_ + 10 * (decOf s n).samples)) / 10 →
      (decOf s n).stuck = false →
    ∃ t, Sys2Proof.Machine.exec (.decStuck n) s = .next t
      ∧ Seen (raiseFault (updDec s n (fun x => { x with
          stuck := true, stuckAt := (s.tick - (decOf s n).from_) / 10 })) F.DEC_STUCK n) t
      ∧ (decOf t n).stuck = true)
  ∧ (∀ (n : Fin 16) s, clockOn s = true →
      (bit (getN s P.DEC_CFG n) 0 = false ∨ getN s P.DEC_STUCK_LIMIT 0 = 0 ∨ (decOf s n).stuck = true
        ∨ (decOf s n).run + (s.tick - ((decOf s n).from_ + 10 * (decOf s n).samples)) / 10 < getN s P.DEC_STUCK_LIMIT 0) →
    ∃ t, Sys2Proof.Machine.exec (.decStuck n) s = .next t ∧ Seen s t)
  ∧ (∀ s n run, stuckCheck s n run = if getN s P.DEC_STUCK_LIMIT 0 ≠ 0 ∧ getN s P.DEC_STUCK_LIMIT 0 ≤ run
        ∧ (decOf s n).stuck = false then
      raiseFault (updDec s n (fun x => { x with stuck := true, stuckAt := (s.tick - x.from_) / 10 })) F.DEC_STUCK n else s)
  ∧ (∀ s g, clockOn s = true → bit (getN s P.DEC_CTRL 0) 0 = true →
      g = (if s.tick ≤ s.meas.grid then s.meas.grid else s.tick + (10 - (s.tick - s.meas.grid) % 10) % 10) →
    ∃ t, Sys2Proof.Machine.exec .dsyncFall s = .next t
      ∧ Seen (incP (decSyncAt s g) P.DEC_SYNC_COUNT 0) t ∧ t.meas.grid = g)
  ∧ (∀ s, clockOn s = true → bit (getN s P.DEC_CTRL 0) 0 = false →
    ∃ t, Sys2Proof.Machine.exec .dsyncFall s = .next t ∧ Seen s t)

/-- HOME_START of an enabled axis, on no standby, is accepted where no homing of the axis runs, the limit in the
search direction has not tripped or ENC_HOME_REVERSE is 1, and the generator is idle and unclaimed: the generator is
claimed from the axis position and a search move starts, in the opposite direction and as the one reversal where that
limit has tripped. It answers E_STATE detail 5 on a standby; E_CONFLICT detail 1 while a homing of the axis runs;
E_STATE detail 3 for a disabled axis or a tripped limit without ENC_HOME_REVERSE; E_CONFLICT detail 3 with the
generator where that is not idle, detail 1 where the other axis's homing claims it. HOME_ABORT of a searching homing
stops it, of one in STOPPING it answers OK, without a homing E_STATE detail 8. When the generator of a homing in
STOPPING is at rest the homing is finished, its generator and its operation released and UNCERTAIN cleared; while it
still moves, or with no homing in STOPPING, the homing goes on as it was. (R360, R367, R368, R370, R452) -/
def Obligations.Homing : Prop :=
  (∀ c s g neg trip, Admitted spHomeStart none c s → g = field (getN s P.ENC_HOME_CFG (tgt c)) 1 0 → neg = bit (pw c 0) 0 →
      trip = encFlag s (tgt c) (if neg then 3 else 2) →
    (s.dup.role = .standby → ∃ t, Sys2Proof.Machine.exec (.homeStart c) s = .next t
      ∧ Replied 0x60 St.state 5 [0] c (arrived s c) t)
    ∧ (∀ o, s.dup.role ≠ .standby → opRun? s 0x60 (tgt c) = some o → ∃ t, Sys2Proof.Machine.exec (.homeStart c) s = .next t
      ∧ Replied 0x60 St.conflict 1 [BitVec.ofNat 32 o.tag.toNat] c (arrived s c) t)
    ∧ (s.dup.role ≠ .standby → opRun? s 0x60 (tgt c) = none →
        encOn s (tgt c) = false ∨ (trip = true ∧ getN s P.ENC_HOME_REVERSE (tgt c) ≠ 1) →
      ∃ t, Sys2Proof.Machine.exec (.homeStart c) s = .next t
        ∧ Replied 0x60 St.state 3 [BitVec.ofNat 32 (diagKind 7 (tgt c))] c (arrived s c) t)
    ∧ (s.dup.role ≠ .standby → opRun? s 0x60 (tgt c) = none → encOn s (tgt c) = true →
        trip = false ∨ getN s P.ENC_HOME_REVERSE (tgt c) = 1 →
      (genIdle (genSync 10 (genOf s g) s.tick).1 = false →
        ∃ t, Sys2Proof.Machine.exec (.homeStart c) s = .next t
          ∧ Replied 0x60 St.conflict 3 [BitVec.ofNat 32 g] c (arrived s c) t)
      ∧ (∀ n o, genIdle (genSync 10 (genOf s g) s.tick).1 = true → (genOf s g).homing = some n → opRun? s 0x60 n = some o →
        ∃ t, Sys2Proof.Machine.exec (.homeStart c) s = .next t
          ∧ Replied 0x60 St.conflict 1 [BitVec.ofNat 32 o.tag.toNat] c (arrived s c) t)
      ∧ (genIdle (genSync 10 (genOf s g) s.tick).1 = true → (genOf s g).homing = none →
        ∃ t f, Sys2Proof.Machine.exec (.homeStart c) s = .next t
          ∧ Accepted 0x60 c (startOp (arrived s c) 0x60 (tgt c) c []) f t
          ∧ (∀ v w d, w = causeGone (syncGen v g) F.HOME_LIMIT (tgt c) → d = (if trip then !neg else neg) →
            f v = homeMove (updEnc (updGen w g (fun x =>
              { genFrom x ⟨encP w (tgt c), 0, 0⟩ w.tick [] with homing := some (tgt c) })) (tgt c) (fun x =>
              { x with
                hState := .search, hNeg := d, hRev := trip, hGen := g
                hIndex := bit (getN s P.ENC_HOME_CFG (tgt c)) 2, hStart := w.tick, hEnd := .none, hShift := 0
                hTurn := decide (getN s P.ENC_HOME_REVERSE (tgt c) = 1), hVel := getN s P.ENC_HOME_VEL (tgt c)
                hAcc := getN s P.ENC_HOME_ACC (tgt c), hJerk := getN s P.ENC_HOME_JERK (tgt c) }))
              (tgt c) d))))
  ∧ (∀ c s, Admitted spHomeAbort none c s →
    (homing s (tgt c) = false → ∃ t, Sys2Proof.Machine.exec (.homeAbort c) s = .next t
      ∧ Replied 0x61 St.state 8 [BitVec.ofNat 32 (tgt c)] c (arrived s c) t)
    ∧ (homeSearching s (tgt c) = true → ∃ t, Sys2Proof.Machine.exec (.homeAbort c) s = .next t
      ∧ Replied 0x61 St.ok 0 [] c (homeStop (arrived s c) (tgt c) .aborted) t
      ∧ (encOf t (tgt c)).hState = .stopping)
    ∧ (homing s (tgt c) = true → homeSearching s (tgt c) = false →
      ∃ t, Sys2Proof.Machine.exec (.homeAbort c) s = .next t ∧ Replied 0x61 St.ok 0 [] c (arrived s c) t))
  ∧ (∀ (n : Fin 2) s v, clockOn s = true → (encOf s n).hState = .stopping →
      v = syncGen (if (genOf s (encOf s n).hGen).stopping then advanceTo s (genEnd (genOf s (encOf s n).hGen)).ceil.toNat
        else s) (encOf s n).hGen →
    ((genOf v (encOf v n).hGen).cur = none → ∃ t, Sys2Proof.Machine.exec (.homingDone n) s = .next t
      ∧ Seen (homeFinish v n) t ∧ (encOf t n).hState = .idle ∧ encFlag t n 1 = false)
    ∧ ((genOf v (encOf v n).hGen).cur ≠ none → ∃ t, Sys2Proof.Machine.exec (.homingDone n) s = .next t ∧ Seen v t))
  ∧ (∀ (n : Fin 2) s, clockOn s = true → (encOf s n).hState ≠ .stopping →
    ∃ t, Sys2Proof.Machine.exec (.homingDone n) s = .next t ∧ Seen s t)

/-- ENC_PRESET sets raw count and position to the written value; during a homing of the axis it answers E_CONFLICT
detail 1. ENC_LATCH_CFG holds its value; arming forgets the last capture. A transition takes the levels of A, B, Z and
HOME that have held for ENC_FILTER samples; an enabled axis counts by its mode, of a disabled one only the levels are
kept; then the latch takes an index and a HOME edge of the sample, the index is handled, and the levels and the limit
releases follow. The end of an illegal window within the limit ends the fault's cause; a new count starts; while no
period runs it changes nothing. A limit input active for the debounce time latches once and trips, one inactive for
that time may release, a HOME input active for ENC_FILTER samples is a level change; held for less they change
nothing. (R359, R360, R361, R363, R365, R366, R367, R368, R371, R372) -/
def Obligations.Encoder : Prop :=
  (∀ c s, RowOk P.ENC_PRESET c s → ∃ t, Sys2Proof.Machine.exec (.encPreset c) s = .next t
      ∧ RowDone P.ENC_PRESET c (encPresetSet (rowFrom P.ENC_PRESET c s) (tgt c) (c.payload.getD 0 0).toInt) t)
  ∧ (∀ c s o, Admitted (spSetParam (paramCmd P.ENC_PRESET c)) (paramOwn (paramCmd P.ENC_PRESET c))
        (paramCmd P.ENC_PRESET c) s → opRun? s 0x60 (tgt c) = some o →
    ∃ t, Sys2Proof.Machine.exec (.encPreset c) s = .next t
      ∧ Replied 0x03 St.conflict 1 [BitVec.ofNat 32 o.tag.toNat] (paramCmd P.ENC_PRESET c) (rowFrom P.ENC_PRESET c s) t)
  ∧ (∀ c s, RowOk P.ENC_LATCH_CFG c s →
    ∃ t u, Sys2Proof.Machine.exec (.encLatchCfg c) s = .next t
      ∧ u = putP (rowFrom P.ENC_LATCH_CFG c s) P.ENC_LATCH_CFG (tgt c) (c.payload.getD 0 0)
      ∧ RowDone P.ENC_LATCH_CFG c (tallyTouch (if bit (c.payload.getD 0 0).toNat 0
          then updEnc u (tgt c) (fun x => { x with latchAt := none }) else u) P.ENC_LATCH_CFG) t
      ∧ getP t P.ENC_LATCH_CFG (tgt c) = c.payload.getD 0 0)
  ∧ (∀ (n : Fin 2) as bs zs homes k a b z home s, clockOn s = true → k = getN s P.ENC_FILTER n →
      a = filtered k false (encOf s n).a as → b = filtered k false (encOf s n).b bs →
      z = filtered k (encMode s n 7) (encOf s n).z zs →
      home = filtered k (encMode s n 8) (encOf s n).home homes →
    ∃ t r u v, Sys2Proof.Machine.exec (.encTransition n as bs zs homes) s = .next t
      ∧ (encOn s n = false → r = (updEnc s n (fun x => { x with a := a, b := b }), false))
      ∧ (encOn s n = true → encMode s n 1 = false → r = encQuad s n a b)
      ∧ (encOn s n = true → encMode s n 1 = true → r = encTooth s n a b)
      ∧ u = homeLatch (if r.2 then encLatch r.1 n 1 (encDelay r.1 n) else r.1) n home
      ∧ v = (if r.2 then encIndex u n else u)
      ∧ Seen (limReleases (encLevels v n z home) n) t)
  ∧ (∀ (n : Fin 2) s, clockOn s = true → s.per.running = true →
    ∃ t v, Sys2Proof.Machine.exec (.encIllegalWindowEnd n) s = .next t
      ∧ v = advanceTo s ((encOf s n).illFrom + 200000)
      ∧ Seen (updEnc (if (encOf v n).illRun ≤ getN v P.ENC_ILLEGAL_MAX n then causeGone v F.ENC_ILLEGAL n else v) n
          (fun x => { x with illRun := 0, illHit := false, illFrom := x.illFrom + 200000 })) t
      ∧ (encOf t n).illRun = 0)
  ∧ (∀ (n : Fin 2) s, clockOn s = true → s.per.running = false →
    ∃ t, Sys2Proof.Machine.exec (.encIllegalWindowEnd n) s = .next t ∧ Seen s t)
  ∧ (∀ (n : Fin 2) neg held s, clockOn s = true →
    (20000 * getN s P.ENC_LIM_DEBOUNCE n ≤ held →
      (∃ t, Sys2Proof.Machine.exec (.encLimitTrip n neg held) s = .next t ∧ Seen (limReleases (limActive s n neg) n) t)
      ∧ ∃ t, Sys2Proof.Machine.exec (.encLimitInactive n neg held) s = .next t ∧ Seen (limInactive s n neg) t)
    ∧ (held < 20000 * getN s P.ENC_LIM_DEBOUNCE n →
      (∃ t, Sys2Proof.Machine.exec (.encLimitTrip n neg held) s = .next t ∧ Seen s t)
      ∧ ∃ t, Sys2Proof.Machine.exec (.encLimitInactive n neg held) s = .next t ∧ Seen s t)
    ∧ (getN s P.ENC_FILTER n ≤ held → ∃ t, Sys2Proof.Machine.exec (.encHomeActive n held) s = .next t
      ∧ Seen (limReleases (encLevels (homeLatch s n true) n (encOf s n).z true) n) t)
    ∧ (held < getN s P.ENC_FILTER n → ∃ t, Sys2Proof.Machine.exec (.encHomeActive n held) s = .next t ∧ Seen s t))

/-- A CHOP_MODE write holds its value: mode 0 is due in the next tick, another mode of a leg in OFF schedules its
first cycle for the next tick or, with MARK_START, the next mark. CHOP_FORCE holds its value and is due in the next
tick. As that tick comes, mode 0 turns both outputs off and takes a leg that is not latched to OFF; in FORCE, 0 turns
both off, and a change from one output to the other turns the first off at once and the second on a dead time later.
CHOP_MODE is refused for a mode above 4, mode 4 while an arm is deblocked, a switching mode after a failed self-test,
a change of polarity while the leg is not OFF, and during a self-test, in this order. CMP_SELFTEST of a leg not
RUNNING in a switching mode is accepted and makes the comparator busy; of one that is it answers E_STATE detail 2;
during a self-test E_CONFLICT detail 1. Its end keeps the three steps and the pass bit and answers them; with no test
running the event changes nothing. (R378, R379, R380, R381, R386, R388, R390, R391, R396) -/
def Obligations.ChopperCommands : Prop :=
  (∀ c s w, RowOk P.CHOP_MODE c s → w = c.payload.getD 0 0 →
    ∃ t, Sys2Proof.Machine.exec (.chopMode c) s = .next t
      ∧ RowDone P.CHOP_MODE c (tallyTouch (chopModeSet
          (putP (rowFrom P.CHOP_MODE c s) P.CHOP_MODE (tgt c) w) (tgt c)) P.CHOP_MODE) t
      ∧ getP t P.CHOP_MODE (tgt c) = w
      ∧ (field w.toNat 2 0 = 0 → (legOf t (tgt c)).dueAt = some (s.tick + 1, true))
      ∧ (field w.toNat 2 0 ≠ 0 → (legOf s (tgt c)).st = .off →
          (legOf t (tgt c)).waitMark = bit w.toNat 3 ∧ (legOf t (tgt c)).startAt = s.tick + 1))
  ∧ (∀ c s, RowOk P.CHOP_FORCE c s →
    ∃ t, Sys2Proof.Machine.exec (.chopForce c) s = .next t
      ∧ RowDone P.CHOP_FORCE c (tallyTouch (chopForceSet
          (putP (rowFrom P.CHOP_FORCE c s) P.CHOP_FORCE (tgt c) (c.payload.getD 0 0)) (tgt c)) P.CHOP_FORCE) t
      ∧ getP t P.CHOP_FORCE (tgt c) = c.payload.getD 0 0
      ∧ ((legOf s (tgt c)).dueAt = none → (legOf t (tgt c)).dueAt = some (s.tick + 1, false)))
  ∧ (∀ s u, s.tick < u → (∃ p ∈ s.chop.legs, p.2.dueAt ≠ none) →
      (advanceTo s u).chop.legs = tabMap Leg.empty (fun n l => legDue u (getN s P.CHOP_FORCE n) l) s.chop.legs)
  ∧ (∀ l t f u x, l.dueAt = some (u, x) → u ≤ t →
    (x = true → (legDue t f l).gh = false ∧ (legDue t f l).gl = false ∧ (l.st ≠ .latched → (legDue t f l).st = .off))
    ∧ (x = false → l.mode = 4 → l.st = .running → l.tripped = false →
        (f = 0 → (legDue t f l).gh = false ∧ (legDue t f l).gl = false ∧ (legDue t f l).forceAt = none)
        ∧ (f = 1 → l.gl = true → l.gh = false → (legDue t f l).gl = false ∧ (legDue t f l).forceAt = some (u + l.dt, 1))
        ∧ (f = 2 → l.gh = true → l.gl = false →
            (legDue t f l).gh = false ∧ (legDue t f l).forceAt = some (u + l.dt, 2))))
  ∧ (∀ c s v m e, Admitted (spSetParam (paramCmd P.CHOP_MODE c)) (paramOwn (paramCmd P.CHOP_MODE c))
        (paramCmd P.CHOP_MODE c) s → v = (c.payload.getD 0 0).toNat → v < 64 → m = field v 2 0 →
      firstErr
        [ errIf (decide (4 < m)) St.range P.CHOP_MODE v,
          errIf (m == 4 && debMask s != 0) St.state 2 (debMask s),
          errIf (switching m && (legOf s (tgt c)).stDone && !(legOf s (tgt c)).stPass) St.state 3 (diagKind 7 (tgt c)),
          errIf (field v 5 4 != field (getN s P.CHOP_MODE (tgt c)) 5 4 && (legOf s (tgt c)).st != .off) St.conflict 3 (tgt c),
          (opRun? s 0x62 (tgt c)).map (fun o => heldBy o.tag.toNat) ] = some e →
    ∃ t, Sys2Proof.Machine.exec (.chopMode c) s = .next t
      ∧ Replied 0x03 e.status e.detail [BitVec.ofNat 32 e.diag] (paramCmd P.CHOP_MODE c) (rowFrom P.CHOP_MODE c s) t)
  ∧ (∀ c s, Admitted spCmpSelftest none c s →
    (∀ o, opRun? s 0x62 (tgt c) = some o → ∃ t, Sys2Proof.Machine.exec (.cmpSelftest c) s = .next t
        ∧ Replied 0x62 St.conflict 1 [BitVec.ofNat 32 o.tag.toNat] c (arrived s c) t)
    ∧ (opRun? s 0x62 (tgt c) = none → switching (legOf s (tgt c)).mode = false ∨ (legOf s (tgt c)).st ≠ .running →
      ∃ t, Sys2Proof.Machine.exec (.cmpSelftest c) s = .next t
        ∧ Accepted 0x62 c (updLeg (startOp (arrived s c) 0x62 (tgt c) c []) (tgt c) (fun l => { l with stBusy := true }))
            id t)
    ∧ (opRun? s 0x62 (tgt c) = none → switching (legOf s (tgt c)).mode = true → (legOf s (tgt c)).st = .running →
      ∃ t, Sys2Proof.Machine.exec (.cmpSelftest c) s = .next t
        ∧ Replied 0x62 St.state 2 [BitVec.ofNat 32 (debMask s)] c (arrived s c) t))
  ∧ (∀ (n : Fin 4) (k : BitVec 3) s o, clockOn s = true → opRun? s 0x62 n = some o →
    ∃ t, Sys2Proof.Machine.exec (.cmpSelftestDone n k) s = .next t
      ∧ Seen (completeOk (updLeg (advanceTo s (o.start + 4 * getN s P.CHOP_SC_FILTER n)) n (fun l =>
          { l with stBusy := false, stDone := true, stPass := k == 7, stSteps := k.toNat })) o
          [BitVec.ofNat 32 (k.toNat + 8 * b2n (k == 7))]) t
      ∧ (legOf t n).stPass = (k == 7))
  ∧ (∀ (n : Fin 4) (k : BitVec 3) s, clockOn s = true → opRun? s 0x62 n = none →
    ∃ t, Sys2Proof.Machine.exec (.cmpSelftestDone n k) s = .next t ∧ Seen s t)

/-- A cycle starts for a running leg one period after the last start, for one that is starting and awaits no mark at
its scheduled tick, and with it that of the source leg of its blanking in TIMER; else only the comparators' levels are
taken. Edge 0 turns the low output off, edge 2 the high one; edges 1 and 3 turn them on where the leg is live and the
cycle has the pulse; they fall in ticks 0, DT, DT + D and 2 DT + D of the cycle. In FORCE an edge is the delayed turn-
on, at its tick. A leg that does not run has no edges. A trip recognised is kept and acts, unless a cycle start of
this tick is still to come; one released ends the latch's cause; the end of blanking lets a trip act. (R374, R376,
R377, R379, R381, R383, R384, R392, R397) -/
def Obligations.ChopperCycle : Prop :=
  (∀ (n : Fin 4) cmp s v, clockOn s = true → v = advanceTo s (cycleDue s n) →
    (cycleDue v n ≤ v.tick → cycleAwaited v n = true →
      ∃ t u, Sys2Proof.Machine.exec (.chopCycleStart n cmp) s = .next t
        ∧ u = cmpLevels (cycleStart v n) cmp
        ∧ Seen (if n.val < 2 && (legOf u n).blankSrc == 1 && (legOf u (n + 2)).running && (legOf u (n + 2)).mode == 3
            then cycleStart u (n + 2) else u) t)
    ∧ (v.tick < cycleDue v n ∨ cycleAwaited v n = false →
      ∃ t, Sys2Proof.Machine.exec (.chopCycleStart n cmp) s = .next t ∧ Seen (cmpLevels v cmp) t))
  ∧ (∀ (n : Fin 4) s,
    ((legOf s n).running = true → cycleAwaited s n = true ∧ cycleDue s n = (legOf s n).startAt + (legOf s n).per)
    ∧ ((legOf s n).running = false → chopStarting s n = true → (legOf s n).waitMark = false →
        cycleAwaited s n = true ∧ cycleDue s n = (legOf s n).startAt)
    ∧ ((legOf s n).running = false → chopStarting s n = false ∨ (legOf s n).waitMark = true → cycleAwaited s n = false))
  ∧ (∀ (n e : Fin 4) s, (legOf s n).dueAt = none → (legOf s n).running = true → (legOf s n).mode ≠ 0 →
      (legOf s n).mode ≠ 4 →
    (e = 0 → edgeTick s n e = (legOf s n).startAt)
    ∧ (e = 1 → edgeTick s n e = (legOf s n).startAt + (legOf s n).dt)
    ∧ (e = 2 → edgeTick s n e = (legOf s n).startAt + ((legOf s n).dt + (legOf s n).duty))
    ∧ (e = 3 → edgeTick s n e = (legOf s n).startAt + (2 * (legOf s n).dt + (legOf s n).duty)))
  ∧ (∀ (n e : Fin 4) cmp s v l, clockOn s = true → v = advanceTo s (edgeTick s n e) → l = legOf v n →
    (l.running = true → l.mode ≠ 0 → l.mode ≠ 4 →
      ∃ t, Sys2Proof.Machine.exec (.chopGateEdge n e cmp) s = .next t
        ∧ (e = 0 → Seen (cmpLevels (glTurnOff v n) cmp) t) ∧ (e = 2 → Seen (cmpLevels (ghTurnOff v n) cmp) t)
        ∧ (e = 1 → Seen (cmpLevels (if l.st = .running ∧ l.tripped = false ∧ ghPulse l = true
            then ghTurnOn v n else v) cmp) t)
        ∧ (e = 3 → Seen (cmpLevels (if l.st = .running ∧ l.tripped = false ∧ glPulse l = true
            then glTurnOn v n else v) cmp) t))
    ∧ (∀ d out, l.running = true → l.mode = 4 → l.forceAt = some (d, out) → d ≤ v.tick →
        (out = 1 ∧ e = 1) ∨ (out = 2 ∧ e = 3) →
      ∃ t w, Sys2Proof.Machine.exec (.chopGateEdge n e cmp) s = .next t
        ∧ w = updLeg v n (fun l => { l with forceAt := none })
        ∧ Seen (cmpLevels (if l.st ≠ .running ∨ l.tripped = true then w
            else if out = 1 then ghTurnOn w n else glTurnOn w n) cmp) t)
    ∧ (l.running = false ∨ l.mode = 0 ∨ (l.mode = 4 ∧ l.forceAt = none) →
      ∃ t, Sys2Proof.Machine.exec (.chopGateEdge n e cmp) s = .next t ∧ Seen (cmpLevels v cmp) t))
  ∧ (∀ (n : Fin 4) s, clockOn s = true →
    (∀ u, u = updLeg s n (fun l => { l with tripIn := true }) →
      ∃ t, Sys2Proof.Machine.exec (.chopTripRecognised n) s = .next t
        ∧ Seen (if cycleFirst u n then u else tripAct u n) t)
    ∧ (∃ t, Sys2Proof.Machine.exec (.chopTripReleased n) s = .next t
      ∧ Seen (causeGone (updLeg s n (fun l => { l with tripIn := false })) F.CHOP_TRIP_LATCHED n) t
      ∧ (legOf t n).tripIn = false)
    ∧ (∀ u, u = (if n.val < 2 ∧ (legOf s n).blankSrc = 1 then s else advanceTo s (legOf s n).blankTo) →
      ∃ t, Sys2Proof.Machine.exec (.chopBlankingEnd n) s = .next t
        ∧ Seen (if cycleFirst u n then u else tripAct u n) t))

/-- A comparator asserted for less than its filter only shows its level. A first confirmed comparator of a leg that is
not in mode 0 and not under test latches the leg off and opens the window of 200 ticks; a second leg's within it
latches that leg and with it every leg that is not OFF and raises F_CHOP_DCLINK_SHORT; another of the same leg, or
once the window is classified, adds nothing. A window past its end is closed first. The window's end raises F_CHOP_SC
of the one leg and takes the comparators' levels. A gate supply NOT OK is kept and, where enabled, acts unless a cycle
start of this tick is still to come; one that is OK again is kept and, once all enabled supplies are, ends the cause.
(R386, R387, R388, R389, R392, R395) -/
def Obligations.ChopperFaults : Prop :=
  (∀ (n : Fin 4) held s, clockOn s = true → (legOf s n).stBusy = true ∨ (legOf s n).mode = 0 →
    ∃ t, Sys2Proof.Machine.exec (.chopScConfirm n held) s = .next t ∧ Seen s t)
  ∧ (∀ (n : Fin 4) held s, clockOn s = true → (legOf s n).stBusy = false → (legOf s n).mode ≠ 0 →
    (held < (legOf s n).scFilter → ∃ t, Sys2Proof.Machine.exec (.chopScConfirm n held) s = .next t
      ∧ Seen (updLeg s n (fun l => { l with cmp := true })) t)
    ∧ (∀ u w, (legOf s n).scFilter ≤ held → u = updLeg s n (fun l => { l with cmp := true, conf := true }) →
        w = (if s.chop.scWin.any (fun x => decide (x.2 < s.tick)) then scClose u else u) →
      (w.chop.scWin = none → ∃ t, Sys2Proof.Machine.exec (.chopScConfirm n held) s = .next t
        ∧ Seen (scOpen (legLatch w n (fun l => { l with lSc := true })) n (w.tick + 200)) t
        ∧ (legOf t n).st = .latched)
      ∧ (∀ m e, w.chop.scWin = some (m, e) → m ≠ 4 → m ≠ n →
        ∃ t, Sys2Proof.Machine.exec (.chopScConfirm n held) s = .next t
          ∧ Seen (raiseFault (scOpen (dclinkLatch (legLatch w n (fun l => { l with lSc := true }))) 4 e)
              F.CHOP_DCLINK_SHORT 0) t)
      ∧ (∀ m e, w.chop.scWin = some (m, e) → m = 4 ∨ m = n →
        ∃ t, Sys2Proof.Machine.exec (.chopScConfirm n held) s = .next t ∧ Seen w t)))
  ∧ (∀ s cmp m e, clockOn s = true → s.chop.scWin = some (m, e) →
    ∃ t v, Sys2Proof.Machine.exec (.chopScWindowEnd cmp) s = .next t
      ∧ v = { advanceTo s e with chop := { (advanceTo s e).chop with scWin := none } }
      ∧ Seen (cmpLevels (if m < 4 then (if (legOf (raiseFault v F.CHOP_SC m) m).cmp then raiseFault v F.CHOP_SC m
          else causeGone (raiseFault v F.CHOP_SC m) F.CHOP_SC m) else v) cmp) t)
  ∧ (∀ s cmp, clockOn s = true → s.chop.scWin = none →
    ∃ t, Sys2Proof.Machine.exec (.chopScWindowEnd cmp) s = .next t ∧ Seen (cmpLevels s cmp) t)
  ∧ (∀ (n : Fin 4) low s, clockOn s = true →
    (∃ t u, Sys2Proof.Machine.exec (.gateSupplyNotOk n low) s = .next t
      ∧ u = updLeg s n (fun l => if low then { l with gsL := false } else { l with gsH := false })
      ∧ Seen (if bit (legOf u n).gsCfg (if low then 1 else 0) && !cycleFirst u n then gsAct u n else u) t)
    ∧ ∃ t u, Sys2Proof.Machine.exec (.gateSupplyOk n low) s = .next t
      ∧ u = updLeg s n (fun l => if low then { l with gsL := true } else { l with gsH := true })
      ∧ Seen (if gsOk (legOf u n) then causeGone u F.CHOP_UVLO n else u) t)

/-- FAULT_READ of 1 to 64 records answers them and changes nothing, of another count it answers E_RANGE with the
count. Grace times that end in the tick end first: then FAULT_CLEAR of an entry whose cause is gone frees it and
releases a leg's latch; while the cause is there it answers E_STATE detail 4, without an entry detail 8; FAULT_ACK
sets an entry's ACK bit, a GRACE entry without cause becoming DEFUSED. Without the test mode FACTORY_UNLOCK and
FAULT_INJECT answer E_FACTORY detail 1; in it FACTORY_UNLOCK with the factory's key unlocks, with another E_LOCKED;
FAULT_INJECT answers E_FACTORY detail 2 while locked and E_RANGE for an unknown code or instance, else raises the
fault. A grace time that ends takes its reaction; the end of the pulse lets ERR_N go; FLT_ERR_HOLD holds its value.
(R391, R428, R429, R431, R438, R439, R441, R442) -/
def Obligations.FaultCommands : Prop :=
  (∀ c s, Admitted spFaultRead none c s → 1 ≤ field (pw c 0) 15 8 → field (pw c 0) 15 8 ≤ 64 →
    ∃ t, Sys2Proof.Machine.exec (.faultRead c) s = .next t
      ∧ Replied 0x70 St.ok 0 ((List.range (field (pw c 0) 15 8)).flatMap (fun k =>
          fltRec (arrived s c) (field (pw c 0) 7 0 + k))) c (arrived s c) t)
  ∧ (∀ c s, Admitted spFaultRead none c s → field (pw c 0) 15 8 = 0 ∨ 64 < field (pw c 0) 15 8 →
    ∃ t, Sys2Proof.Machine.exec (.faultRead c) s = .next t
      ∧ Replied 0x70 St.range 0x8000 [BitVec.ofNat 32 (field (pw c 0) 15 8)] c (arrived s c) t)
  ∧ (∀ c s v code, Admitted spFaultClear none c s → code = pw c 0 % 65536 → v = gracesDue (arrived s c) →
    (fltFind v code (tgt c) = none → ∃ t, Sys2Proof.Machine.exec (.faultClear c) s = .next t
      ∧ Replied 0x71 St.state 8 [BitVec.ofNat 32 code] c (arrived s c) t)
    ∧ (∀ i, fltFind v code (tgt c) = some i → (fltOf v i).cause = true →
      ∃ t, Sys2Proof.Machine.exec (.faultClear c) s = .next t
        ∧ Replied 0x71 St.state 4 [BitVec.ofNat 32 code] c (arrived s c) t)
    ∧ (∀ i, fltFind v code (tgt c) = some i → (fltOf v i).cause = false →
      ∃ t, Sys2Proof.Machine.exec (.faultClear c) s = .next t
        ∧ Replied 0x71 St.ok 0 [] c (chopCleared (freeEntry v i) code (tgt c)) t))
  ∧ (∀ c s v code, Admitted spFaultAck none c s → code = pw c 0 % 65536 → v = gracesDue (arrived s c) →
    (fltFind v code (tgt c) = none → ∃ t, Sys2Proof.Machine.exec (.faultAck c) s = .next t
      ∧ Replied 0x72 St.state 8 [BitVec.ofNat 32 code] c (arrived s c) t)
    ∧ (∀ i, fltFind v code (tgt c) = some i → ∃ t, Sys2Proof.Machine.exec (.faultAck c) s = .next t
      ∧ Replied 0x72 St.ok 0 [] c (setFlt v i { fltOf v i with
          ack := true, st := if (fltOf v i).st = .grace && !(fltOf v i).cause then .defused else (fltOf v i).st }) t))
  ∧ (∀ c s, Admitted spFaultInject none c s →
    (s.pwr.testmode = false → ∃ t, Sys2Proof.Machine.exec (.faultInject c) s = .next t
      ∧ Replied 0x73 St.factory 1 [0] c (arrived s c) t)
    ∧ (s.pwr.testmode = true → s.flt.unlocked = false → ∃ t, Sys2Proof.Machine.exec (.faultInject c) s = .next t
      ∧ Replied 0x73 St.factory 2 [0] c (arrived s c) t)
    ∧ (s.pwr.testmode = true → s.flt.unlocked = true →
        (∀ d, fltDef? (pw c 0 % 65536) = some d → d.hasInst (tgt c) = false) →
      ∃ t, Sys2Proof.Machine.exec (.faultInject c) s = .next t
        ∧ Replied 0x73 St.range 0x8000 [BitVec.ofNat 32 (pw c 0 % 65536)] c (arrived s c) t)
    ∧ (∀ d, s.pwr.testmode = true → s.flt.unlocked = true → fltDef? (pw c 0 % 65536) = some d →
        d.hasInst (tgt c) = true →
      ∃ t, Sys2Proof.Machine.exec (.faultInject c) s = .next t
        ∧ Replied 0x73 St.ok 0 [] c (injectFault (arrived s c) (pw c 0 % 65536) (tgt c)) t))
  ∧ (∀ c s, Admitted spFactoryUnlock none c s →
    (s.pwr.testmode = false → ∃ t, Sys2Proof.Machine.exec (.factoryUnlock c) s = .next t
      ∧ Replied 0xE1 St.factory 1 [0] c (arrived s c) t)
    ∧ (s.pwr.testmode = true → c.payload.getD 0 0 = Config.factoryKey.1 → c.payload.getD 1 0 = Config.factoryKey.2 →
      ∃ t, Sys2Proof.Machine.exec (.factoryUnlock c) s = .next t
        ∧ Replied 0xE1 St.ok 0 [] c { arrived s c with flt := { (arrived s c).flt with unlocked := true } } t
        ∧ t.flt.unlocked = true)
    ∧ (s.pwr.testmode = true →
        c.payload.getD 0 0 ≠ Config.factoryKey.1 ∨ c.payload.getD 1 0 ≠ Config.factoryKey.2 →
      ∃ t, Sys2Proof.Machine.exec (.factoryUnlock c) s = .next t ∧ Replied 0xE1 St.locked 0 [0] c (arrived s c) t))
  ∧ (∀ (i : Fin 256) s, clockOn s = true →
    ((fltOf s i).st = .grace → ∃ t, Sys2Proof.Machine.exec (.graceExpiry i) s = .next t
      ∧ Seen (graceExpire (advanceTo s (fltOf s i).due) i) t)
    ∧ ((fltOf s i).st ≠ .grace → ∃ t, Sys2Proof.Machine.exec (.graceExpiry i) s = .next t ∧ Seen s t))
  ∧ (∀ s, clockOn s = true →
    (∀ d, s.flt.errEnd = some d → ∃ t, Sys2Proof.Machine.exec .errPulseEnd s = .next t
      ∧ Seen { advanceTo s d with flt := { (advanceTo s d).flt with errEnd := none } } t ∧ t.flt.errEnd = none)
    ∧ (s.flt.errEnd = none → ∃ t, Sys2Proof.Machine.exec .errPulseEnd s = .next t ∧ Seen s t))
  ∧ (∀ c s, RowOk P.FLT_ERR_HOLD c s → ∃ t, Sys2Proof.Machine.exec (.fltErrHold c) s = .next t
      ∧ RowDone P.FLT_ERR_HOLD c (tallyTouch (putP (rowFrom P.FLT_ERR_HOLD c s) P.FLT_ERR_HOLD (tgt c)
          (c.payload.getD 0 0)) P.FLT_ERR_HOLD) t
      ∧ getP t P.FLT_ERR_HOLD (tgt c) = c.payload.getD 0 0)

/-- SAFETY_UNLOCK with the password opens the next session and answers its number; with a character outside 0x21 to
0x7E or another password, or while 10 s without unlock run, it answers E_LOCKED and counts the failure, the third
wrong one in a row starting the 10 s. SAFETY_WRITE without a session answers E_LOCKED, of an ID that no write reaches
E_PARAM. Within one a good value of a plain parameter is held, logged, and the session's time restarts; so is a
cleared counter, in any arm state; a password's low word waits for the high one, which sets it. A value out of range
is refused, and any but a clear while an arm is deblocked. SAFETY_LOG_READ answers entries and changes nothing, or
E_RANGE. SAFETY_LOCK ends an open session and meets the condition of the latches POWER_UP and BELAY_RESET. 60 s end a
session, 10 s the wait; without them the events change nothing. (R410, R418, R419, R420, R422) -/
def Obligations.SafetySessions : Prop :=
  (∀ c s p, Admitted spSafetyUnlock none c s → p = (c.payload.getD 0 0, c.payload.getD 1 0) →
    (∀ d, s.belay.backoff = some d → ∃ t, Sys2Proof.Machine.exec (.safetyUnlock c) s = .next t
      ∧ Replied 0x80 St.locked 0 [0] c (incP (arrived s c) P.SAFE_UNLOCK_FAIL 0) t)
    ∧ (s.belay.backoff = none →
        pwChars p.1 = false ∨ pwChars p.2 = false ∨ (∃ q, s.belay.password = some q ∧ q ≠ p) →
      ∃ t u, Sys2Proof.Machine.exec (.safetyUnlock c) s = .next t
        ∧ u = belayLogAdd (incP (arrived s c) P.SAFE_UNLOCK_FAIL 0) 3 0 0 0 0
        ∧ Replied 0x80 St.locked 0 [0] c (updBelay u (fun x => { x with
            wrongRun := if u.belay.wrongRun + 1 = 3 then 0 else u.belay.wrongRun + 1
            backoff := if u.belay.wrongRun + 1 = 3 then some (u.tick + 2000000000) else none })) t)
    ∧ (s.belay.backoff = none → pwChars p.1 = true → pwChars p.2 = true →
        (s.belay.password = none ∨ s.belay.password = some p) →
      ∃ t, Sys2Proof.Machine.exec (.safetyUnlock c) s = .next t
        ∧ Replied 0x80 St.ok 0 [BitVec.ofNat 32 (s.belay.session % 255 + 1)] c
            (belayLogAdd (updBelay (sessionEnd (arrived s c)) (fun x => { x with
              password := some (x.password.getD p), wrongRun := 0, session := s.belay.session % 255 + 1, open_ := true
              sesFrom := (sessionEnd (arrived s c)).tick, pendLo := none })) 1 0 0 0 0) t
        ∧ t.belay.open_ = true ∧ t.belay.session = s.belay.session % 255 + 1))
  ∧ (∀ c s id w, Admitted spSafetyWrite (safetyWriteOwn c) c s → id = pw c 0 → w = c.payload.getD 1 0 →
    (s.belay.open_ = false → ∃ t, Sys2Proof.Machine.exec (.safetyWrite c) s = .next t
      ∧ Replied 0x81 St.locked id [BitVec.ofNat 32 id] c (arrived s c) t)
    ∧ (∀ d, s.belay.open_ = true → safeParam? id = some d → d.access = .rw → id ≠ P.SAFE_PASSWORD_LO →
        id ≠ P.SAFE_PASSWORD_HI → rangeErr d w = none → safeValueErr (arrived s c) d w = none → anyDeb s = false →
      ∃ t, Sys2Proof.Machine.exec (.safetyWrite c) s = .next t
        ∧ Replied 0x81 St.ok 0 [] c (tallyTouch (updBelay (belayLogAdd (putP (arrived s c) id (tgt c) w) 0 id (tgt c)
            (getN (arrived s c) id (tgt c)) w.toNat) (fun x => { x with sesFrom := s.tick })) id) t
        ∧ t.belay.sesFrom = s.tick)
    ∧ (s.belay.open_ = true → safeParam? id = none → ∃ t, Sys2Proof.Machine.exec (.safetyWrite c) s = .next t
      ∧ Replied 0x81 St.param id [BitVec.ofNat 32 id] c (arrived s c) t)
    ∧ (∀ d u, s.belay.open_ = true → safeParam? id = some d → d.access = .rw1c → clearErr d w = none →
        u = clearSet (arrived s c) id (tgt c) w →
      ∃ t, Sys2Proof.Machine.exec (.safetyWrite c) s = .next t
        ∧ Replied 0x81 St.ok 0 [] c (updBelay (belayLogAdd u 0 id (tgt c) (getN (arrived s c) id (tgt c))
            (getN u id (tgt c))) (fun x => { x with sesFrom := u.tick })) t)
    ∧ (∀ d e, s.belay.open_ = true → safeParam? id = some d →
        (d.access = .rw1c ∧ clearErr d w = some e)
          ∨ (d.access ≠ .rw1c ∧ firstErr [rangeErr d w, safeValueErr (arrived s c) d w,
              errIf (anyDeb s) St.state 2 (debMask s)] = some e) →
      ∃ t, Sys2Proof.Machine.exec (.safetyWrite c) s = .next t
        ∧ Replied 0x81 e.status e.detail [BitVec.ofNat 32 e.diag] c (arrived s c) t)
    ∧ (∀ d, s.belay.open_ = true → safeParam? id = some d → d.access = .wo →
        rangeErr d w = none → safeValueErr (arrived s c) d w = none → anyDeb s = false →
      (id = P.SAFE_PASSWORD_LO → ∃ t, Sys2Proof.Machine.exec (.safetyWrite c) s = .next t
        ∧ Replied 0x81 St.ok 0 [] c (updBelay (belayLogAdd (updBelay (arrived s c) (fun x =>
            { x with pendLo := some w })) 0 id (tgt c) 0 0) (fun x => { x with sesFrom := s.tick })) t
        ∧ t.belay.pendLo = some w)
      ∧ (id = P.SAFE_PASSWORD_HI → ∃ t, Sys2Proof.Machine.exec (.safetyWrite c) s = .next t
        ∧ Replied 0x81 St.ok 0 [] c (updBelay (belayLogAdd (updBelay (arrived s c) (fun x =>
            { x with password := some (x.pendLo.getD 0, w), pendLo := none })) 0 id (tgt c) 0 0)
            (fun x => { x with sesFrom := s.tick })) t
        ∧ t.belay.password = some (s.belay.pendLo.getD 0, w))))
  ∧ (∀ c s, Admitted spSafetyLogRead none c s → pw c 0 ≤ 63 → 1 ≤ pw c 1 → pw c 1 ≤ 64 →
    ∃ t, Sys2Proof.Machine.exec (.safetyLogRead c) s = .next t
      ∧ Replied 0x82 St.ok 0 ((List.range (pw c 1)).flatMap (fun k =>
          if (tabGet [] s.belay.log ((pw c 0 + k) % 64)).isEmpty then List.replicate 5 0
          else tabGet [] s.belay.log ((pw c 0 + k) % 64))) c (arrived s c) t)
  ∧ (∀ c s, Admitted spSafetyLogRead none c s →
    (63 < pw c 0 → ∃ t, Sys2Proof.Machine.exec (.safetyLogRead c) s = .next t
      ∧ Replied 0x82 St.range 0x8000 [BitVec.ofNat 32 (pw c 0)] c (arrived s c) t)
    ∧ (pw c 0 ≤ 63 → pw c 1 = 0 ∨ 64 < pw c 1 → ∃ t, Sys2Proof.Machine.exec (.safetyLogRead c) s = .next t
      ∧ Replied 0x82 St.range 0x8001 [BitVec.ofNat 32 (pw c 1)] c (arrived s c) t))
  ∧ (∀ c s, Admitted spSafetyLock none c s → ∃ t, Sys2Proof.Machine.exec (.safetyLock c) s = .next t
      ∧ Replied 0x83 St.ok 0 [] c (if s.belay.open_ then
          updBelay (sessionEnd (arrived s c)) (fun x => { x with okLock := true }) else arrived s c) t
      ∧ t.belay.open_ = false)
  ∧ (∀ s, (s.belay.open_ = true → ∃ t, Sys2Proof.Machine.exec .safetySessionTimeout s = .next t
        ∧ Seen (sessionEnd (advanceTo s (s.belay.sesFrom + 12000000000))) t ∧ t.belay.open_ = false)
    ∧ (s.belay.open_ = false → ∃ t, Sys2Proof.Machine.exec .safetySessionTimeout s = .next t ∧ Seen s t))
  ∧ (∀ s, (∀ d, s.belay.backoff = some d → ∃ t, Sys2Proof.Machine.exec .unlockBackoffEnd s = .next t
        ∧ Seen (updBelay (advanceTo s d) (fun x => { x with backoff := none })) t ∧ t.belay.backoff = none)
    ∧ (s.belay.backoff = none → ∃ t, Sys2Proof.Machine.exec .unlockBackoffEnd s = .next t ∧ Seen s t))

/-- While the belay runs a sample brings the grid to its next tick, reads the trip balls back, takes the inputs and
SRST_N in order; a pulse of an enabled output starts in its slot while no pulse runs, the grid having an origin, and
ends at its width; a press reaches 5 s; a missing heartbeat, a stale tag, a clock count out of 36,000 to 44,000 and an
SRAM error raise their fault and latch. A supply below 0.72 V, or a count of RC cycles outside 600 to 960, holds the
belay in reset: tripped outputs, injection. It is released, to TRIPPED with latch BELAY_RESET, at a good count, after
a low supply once that has been good for 1 ms. Where these conditions do not hold, the event changes nothing; a low
supply during a reset is noted. (R398, R399, R400, R401, R404, R407, R409, R411, R414, R416, R417) -/
def Obligations.BelayEvents : Prop :=
  (∀ (a b : BitVec 8) h ta tb inj s, belayOn s = true →
    ∃ t u, Sys2Proof.Machine.exec (.belaySample a b h ta tb inj) s = .next t
      ∧ u = updBelay (internalPass (tripBack (gridNext s) ta tb) 3) (fun x => { x with readback := inj })
      ∧ Seen (srstSample ((List.range 8).foldl (fun s n => siSample s n (bit a.toNat n) (bit b.toNat n)) u) h inj) t)
  ∧ (∀ (k : Fin 4) s o v, belayOn s = true → bit (getN s P.SAFE_TP_EN 0) k = true → s.belay.tpOn = 0 →
      s.belay.tpOrigin = some o → v = advanceTo s (tpDue s k o) →
    ∃ t u, Sys2Proof.Machine.exec (.testPulseStart k) s = .next t ∧ Seen u t
      ∧ u.belay.tpOn = s.belay.tpOn ||| BitVec.ofNat 4 (2 ^ k.val) ∧ tabGet 0 u.belay.tpStart k = v.tick
      ∧ u.tick = v.tick)
  ∧ (∀ s k o p, p = 200000 * getN s P.SAFE_TP_PERIOD 0 → 0 < p →
      s.tick ≤ tpDue s k o ∧ ∃ i, tpDue s k o = o + k * p / 4 + i * p)
  ∧ (∀ (k : Fin 4) s, belayOn s = false ∨ bit (getN s P.SAFE_TP_EN 0) k = false ∨ s.belay.tpOn ≠ 0
        ∨ s.belay.tpOrigin = none →
    ∃ t, Sys2Proof.Machine.exec (.testPulseStart k) s = .next t ∧ Seen s t)
  ∧ (∀ (k : Fin 4) s, (tpPulse s k = true →
      ∃ t v, Sys2Proof.Machine.exec (.testPulseEnd k) s = .next t
        ∧ v = advanceTo s (tabGet 0 s.belay.tpStart k + 200 * getN s P.SAFE_TP_WIDTH 0)
        ∧ Seen (updBelay v (fun x =>
            { x with tpOn := x.tpOn &&& ~~~(BitVec.ofNat 4 (2 ^ k.val)), tpEnd := tabSet 0 x.tpEnd k v.tick })) t)
    ∧ (tpPulse s k = false → ∃ t, Sys2Proof.Machine.exec (.testPulseEnd k) s = .next t ∧ Seen s t))
  ∧ (∀ s, (∀ f, belayOn s = true → s.belay.srstFrom = some f → s.belay.srstStuck = false →
      ∃ t v, Sys2Proof.Machine.exec .srstStuck s = .next t ∧ v = advanceTo s (f + 1000000000)
        ∧ Seen (raiseFault (updBelay v (fun x => { x with srstStuck := true })) F.SAFE_RESET_STUCK 0) t)
    ∧ (belayOn s = false ∨ s.belay.srstFrom = none ∨ s.belay.srstStuck = true →
      ∃ t, Sys2Proof.Machine.exec .srstStuck s = .next t ∧ Seen s t))
  ∧ (∀ s, (belayOn s = true → s.belay.hbSeen = true →
      ∃ t v, Sys2Proof.Machine.exec .heartbeatTimeout s = .next t
        ∧ v = advanceTo s (s.belay.hbTick + 200 * getN s P.SAFE_HB_TIMEOUT 0)
        ∧ Seen (raiseBelay v F.CAPSTAN_SILENT 0 6) t)
    ∧ (belayOn s = false ∨ s.belay.hbSeen = false →
      ∃ t, Sys2Proof.Machine.exec .heartbeatTimeout s = .next t ∧ Seen s t))
  ∧ (∀ i s cfg tag last, cfg = getN s (if i then P.SAFE_FDC_I_TAG else P.SAFE_FDC_V_TAG) 0 → tag = field cfg 4 0 →
      last = ((if i then s.belay.iLast.filter (fun _ => s.belay.iTag == tag)
        else s.belay.vLast.filter (fun _ => s.belay.vTag == tag)).map (fun r => r.1)).getD 0 →
    (belayOn s = true → s.belay.inserted = true → getN s P.SAFE_FDC_STALE 0 ≠ 0 → bit cfg 7 = true →
      ∃ t v, Sys2Proof.Machine.exec (.fdcStaleTimeout i) s = .next t
        ∧ v = advanceTo s (max last s.belay.fdcFrom + 200 * getN s P.SAFE_FDC_STALE 0)
        ∧ Seen (raiseBelay v F.SAFE_FDC_STALE tag 9) t)
    ∧ (belayOn s = false ∨ s.belay.inserted = false ∨ getN s P.SAFE_FDC_STALE 0 = 0 ∨ bit cfg 7 = false →
      ∃ t, Sys2Proof.Machine.exec (.fdcStaleTimeout i) s = .next t ∧ Seen s t))
  ∧ (∀ n s v, v = updBelay s (fun x => { x with clockOk := decide (36000 ≤ n) && decide (n ≤ 44000) }) →
    (belayOn s = true → clockOn s = true → ∃ t, Sys2Proof.Machine.exec (.belayClockCheck n) s = .next t
      ∧ Seen (if 36000 ≤ n ∧ n ≤ 44000 then internalPass v 0 else internalFail v 0) t)
    ∧ (belayOn s = false ∨ clockOn s = false →
      ∃ t, Sys2Proof.Machine.exec (.belayClockCheck n) s = .next t ∧ Seen s t))
  ∧ (∀ low rc s, (belayOn s = true → low = true ∨ rc < 600 ∨ 960 < rc →
      ∃ t, Sys2Proof.Machine.exec (.belayReset low rc) s = .next t
        ∧ Seen (updBelay (internalFail s 4) (fun x =>
            { x with inReset := true, injecting := true, tripOut := true, lowVdd := low })) t
        ∧ belayOn t = false)
    ∧ (belayOn s = false → s.belay.state ≠ .off → low = true →
      ∃ t, Sys2Proof.Machine.exec (.belayReset low rc) s = .next t
        ∧ Seen (updBelay s (fun x => { x with lowVdd := true })) t)
    ∧ ((low = false ∧ (belayOn s = false ∨ 600 ≤ rc ∧ rc ≤ 960)) ∨ s.belay.state = .off →
      ∃ t, Sys2Proof.Machine.exec (.belayReset low rc) s = .next t ∧ Seen s t))
  ∧ (∀ ok rc s, (s.belay.state ≠ .off → s.belay.inReset = true → 600 ≤ rc → rc ≤ 960 →
        s.belay.lowVdd = false ∨ 200000 ≤ ok →
      ∃ t u, Sys2Proof.Machine.exec (.belayResetRelease ok rc) s = .next t
        ∧ Seen u t ∧ u.belay.inReset = false ∧ u.belay.state = .tripped ∧ u.belay.tpOn = 0
        ∧ bit u.belay.latch 1 = true)
    ∧ (s.belay.state = .off ∨ s.belay.inReset = false ∨ rc < 600 ∨ 960 < rc ∨ (s.belay.lowVdd = true ∧ ok < 200000) →
      ∃ t, Sys2Proof.Machine.exec (.belayResetRelease ok rc) s = .next t ∧ Seen s t))
  ∧ (∀ s, (belayOn s = true → ∃ t, Sys2Proof.Machine.exec .belaySramError s = .next t ∧ Seen (internalFail s 3) t)
    ∧ (belayOn s = false → ∃ t, Sys2Proof.Machine.exec .belaySramError s = .next t ∧ Seen s t))
  ∧ (∀ (a b : BitVec 8) h ta tb inj s, belayOn s = false →
    ∃ t, Sys2Proof.Machine.exec (.belaySample a b h ta tb inj) s = .next t ∧ Seen s t)

/-- In a pair a standby whose peer's blocks agree and whose belay is NORMAL accepts TAKEOVER: with two or more
heartbeats missed it takes over by itself at the next mark, else it asks the active controller to give way. An active
controller that sees an armed standby whose belay is NORMAL accepts SWITCHBACK. Refused are: outside a pair, and
SWITCHBACK without an armed standby seen, with E_STATE detail 3; in the wrong role, with detail 5; while the same
command runs, with E_CONFLICT detail 1; while the peer's blocks differ, with E_STATE detail 3 and the lowest of them;
while the belay that receives control is not NORMAL, with E_STATE detail 10. (R47, R52, R459) -/
def Obligations.DuplexCommands : Prop :=
  (∀ c s, Admitted spTakeover none c s →
    (s.dup.role = .solo → ∃ t, Sys2Proof.Machine.exec (.takeover c) s = .next t
      ∧ Replied 0x90 St.state 3 [0] c (arrived s c) t)
    ∧ (s.dup.role = .active ∨ s.dup.role = .takingOver → ∃ t, Sys2Proof.Machine.exec (.takeover c) s = .next t
      ∧ Replied 0x90 St.state 5 [1] c (arrived s c) t)
    ∧ (∀ o, s.dup.role = .standby → opAny? s 0x90 = some o → ∃ t, Sys2Proof.Machine.exec (.takeover c) s = .next t
      ∧ Replied 0x90 St.conflict 1 [BitVec.ofNat 32 o.tag.toNat] c (arrived s c) t)
    ∧ (s.dup.role = .standby → opAny? s 0x90 = none → (fltFind (arrived s c) F.TALLY_MISMATCH 1).isSome = true →
      ∃ t, Sys2Proof.Machine.exec (.takeover c) s = .next t
        ∧ Replied 0x90 St.state 3 [BitVec.ofNat 32 (diagKind 5 (0x3000 + (peerBad (arrived s c)).headD 0))] c
            (arrived s c) t)
    ∧ (s.dup.role = .standby → opAny? s 0x90 = none → (fltFind (arrived s c) F.TALLY_MISMATCH 1) = none →
        s.belay.state ≠ .normal →
      ∃ t, Sys2Proof.Machine.exec (.takeover c) s = .next t ∧ Replied 0x90 St.state 0xA [0] c (arrived s c) t)
    ∧ (s.dup.role = .standby → opAny? s 0x90 = none → (fltFind (arrived s c) F.TALLY_MISMATCH 1) = none →
        s.belay.state = .normal →
      ∃ t, Sys2Proof.Machine.exec (.takeover c) s = .next t
        ∧ Accepted 0x90 c (startOp (arrived s c) 0x90 0 c []) (fun v =>
            if 2 ≤ v.dup.missRun then updDup v (fun d => { d with forceTko := true })
            else updDup v (fun d => { d with yieldReq := true })) t
        ∧ t.dup = (if 2 ≤ s.dup.missRun then { s.dup with forceTko := true } else { s.dup with yieldReq := true })
        ∧ opOf 0x90 0 c [] s.tick ∈ t.ops))
  ∧ (∀ c s, Admitted spSwitchback none c s →
    (s.dup.role = .solo → ∃ t, Sys2Proof.Machine.exec (.switchback c) s = .next t
      ∧ Replied 0x91 St.state 3 [0] c (arrived s c) t)
    ∧ (s.dup.role = .standby → ∃ t, Sys2Proof.Machine.exec (.switchback c) s = .next t
      ∧ Replied 0x91 St.state 5 [0] c (arrived s c) t)
    ∧ (s.dup.role = .takingOver → ∃ t, Sys2Proof.Machine.exec (.switchback c) s = .next t
      ∧ Replied 0x91 St.state 5 [1] c (arrived s c) t)
    ∧ (∀ o, s.dup.role = .active → opAny? s 0x91 = some o → ∃ t, Sys2Proof.Machine.exec (.switchback c) s = .next t
      ∧ Replied 0x91 St.conflict 1 [BitVec.ofNat 32 o.tag.toNat] c (arrived s c) t)
    ∧ (s.dup.role = .active → opAny? s 0x91 = none → armedStandby s = false →
      ∃ t, Sys2Proof.Machine.exec (.switchback c) s = .next t ∧ Replied 0x91 St.state 3 [0] c (arrived s c) t)
    ∧ (s.dup.role = .active → opAny? s 0x91 = none → armedStandby s = true →
        (fltFind (arrived s c) F.TALLY_MISMATCH 1).isSome = true →
      ∃ t, Sys2Proof.Machine.exec (.switchback c) s = .next t
        ∧ Replied 0x91 St.state 3 [BitVec.ofNat 32 (diagKind 5 (0x3000 + (peerBad (arrived s c)).headD 0))] c
            (arrived s c) t)
    ∧ (s.dup.role = .active → opAny? s 0x91 = none → armedStandby s = true →
        (fltFind (arrived s c) F.TALLY_MISMATCH 1) = none → peerNormal s = false →
      ∃ t, Sys2Proof.Machine.exec (.switchback c) s = .next t ∧ Replied 0x91 St.state 0xA [0] c (arrived s c) t)
    ∧ (s.dup.role = .active → opAny? s 0x91 = none → armedStandby s = true →
        (fltFind (arrived s c) F.TALLY_MISMATCH 1) = none → peerNormal s = true →
      ∃ t, Sys2Proof.Machine.exec (.switchback c) s = .next t
        ∧ Accepted 0x91 c (startOp (arrived s c) 0x91 0 c []) id t
        ∧ opOf 0x91 0 c [] s.tick ∈ t.ops ∧ t.dup = s.dup))

/-- On an ACTIVE peer lane a peer frame without a correct CRC is a lane error and nothing else. In a pair a heartbeat
of a new period is kept, its copy on the other lane only notes that lane; a data frame's digests are taken, and a
standby that has not yet taken the period from an active controller slews its cell time and marks and keeps the frame.
Dispatch resumes when every placed cell has been reported; the resume time ends at its mark, without resumption
raising F_TAKEOVER_FAILED once; the window of a takeover, or of a handover given, ends at its mark. Outside a pair, on
a lane that is not ACTIVE, or where there is nothing to resume or to end, they change nothing. (R245, R257, R312,
R447, R451, R456, R458, R459) -/
def Obligations.PeerFrames : Prop :=
  (∀ (h : PeerHeader) crc s, clockOn s = true →
    (laneActive s (64 + h.lane.val) = false ∨ (crc = hbCrc h ∧ paired s = false) →
      ∃ t, Sys2Proof.Machine.exec (.peerHeartbeat h crc) s = .next t ∧ Seen s t)
    ∧ (laneActive s (64 + h.lane.val) = true → crc ≠ hbCrc h →
      ∃ t, Sys2Proof.Machine.exec (.peerHeartbeat h crc) s = .next t ∧ Seen (laneError s (64 + h.lane.val)) t)
    ∧ (paired s = true → laneActive s (64 + h.lane.val) = true → crc = hbCrc h → s.dup.gotMark = some h.period.toNat →
      ∃ t, Sys2Proof.Machine.exec (.peerHeartbeat h crc) s = .next t
        ∧ Seen (updDup s (fun d => { d with hbOk := d.hbOk ||| BitVec.ofNat 2 (2 ^ h.lane.val) })) t)
    ∧ (paired s = true → laneActive s (64 + h.lane.val) = true → crc = hbCrc h → s.dup.gotMark ≠ some h.period.toNat →
      ∃ t, Sys2Proof.Machine.exec (.peerHeartbeat h crc) s = .next t
        ∧ Seen (updDup s (fun d => { d with
            hb := some h, gotMark := some h.period.toNat, hbOk := BitVec.ofNat 2 (2 ^ h.lane.val) })) t))
  ∧ (∀ (f : PeerData) s, clockOn s = true →
    (laneActive s (64 + f.hdr.lane.val) = false ∨ (f.crc = dataCrc f ∧ paired s = false) →
      ∃ t, Sys2Proof.Machine.exec (.peerDataFrame f) s = .next t ∧ Seen s t)
    ∧ (laneActive s (64 + f.hdr.lane.val) = true → f.crc ≠ dataCrc f →
      ∃ t, Sys2Proof.Machine.exec (.peerDataFrame f) s = .next t ∧ Seen (laneError s (64 + f.hdr.lane.val)) t)
    ∧ (paired s = true → laneActive s (64 + f.hdr.lane.val) = true → f.crc = dataCrc f →
      ∃ t, Sys2Proof.Machine.exec (.peerDataFrame f) s = .next t
        ∧ Seen (peerDigests (if s.dup.role = .standby ∧ (f.hdr.role = 3 ∨ f.hdr.role = 2) ∧ dataTaken s f = false then
            updDup (if s.per.running then slewMark (slewCell s f) f else slewCell s f) (fun d => { d with data := some f })
          else s) f) t))
  ∧ (∀ s n, clockOn s = true → n = { s with per := { s.per with count := s.per.count + 1 } } →
    (s.per.running = true → paired s = true → resumeReady n = true →
      ∃ t, Sys2Proof.Machine.exec .dispatchResume s = .next t ∧ Seen (resumeAt s (s.per.count + 1)) t)
    ∧ (s.per.running = false ∨ paired s = false ∨ resumeReady n = false →
      ∃ t, Sys2Proof.Machine.exec .dispatchResume s = .next t ∧ Seen s t))
  ∧ (∀ s, clockOn s = true →
    (paired s = true → s.dup.takeover = true → s.dup.resumed = false →
      ∃ t, Sys2Proof.Machine.exec .resumeTimeout s = .next t
        ∧ Seen (atMark s (s.dup.u + getN s P.DUP_RESUME_MAX 0) (fun s =>
            if s.dup.failedRes then s
            else raiseFault (updDup s (fun d => { d with failedRes := true })) F.TAKEOVER_FAILED 0)) t)
    ∧ (paired s = false ∨ s.dup.takeover = false ∨ s.dup.resumed = true →
      ∃ t, Sys2Proof.Machine.exec .resumeTimeout s = .next t ∧ Seen s t))
  ∧ (∀ s w, clockOn s = true → w = getN s P.DUP_TKO_WINDOW 0 →
    (s.dup.role = .takingOver → ∃ t, Sys2Proof.Machine.exec .takeoverWindowEnd s = .next t
        ∧ Seen (atMark s (s.dup.u + w) (fun t => windowEndAt t (s.dup.u + w))) t)
    ∧ (∀ u, s.dup.role = .active → s.dup.giving = some u → ∃ t, Sys2Proof.Machine.exec .takeoverWindowEnd s = .next t
        ∧ Seen (atMark s (u + w) (fun t => windowEndAt t (u + w))) t)
    ∧ (s.dup.role = .standby ∨ s.dup.role = .solo ∨ (s.dup.role = .active ∧ s.dup.giving = none) →
        ∃ t, Sys2Proof.Machine.exec .takeoverWindowEnd s = .next t ∧ Seen s t))

/-- REEL_ARM of a configuration table that passes every check, while no capture runs, arms the reel with a cleared
memory and the table's words. In this order, another table number answers E_PARAM detail 0x8000, a bad signature or
CRC E_INTEGRITY detail 3, a word out of range E_RANGE with the word, a running capture E_CONFLICT detail 1. REEL_READ
of 1 to 1,016 words inside the memory answers them and changes nothing; while a capture runs it answers E_STATE detail
12 with the state, outside these ranges E_RANGE. REEL_STOP brings a capture up to the tick and stops it with cause
HOST, and answers detail 1 where none runs. A stop of a running capture leaves STOPPED and its cause, that of a mask's
stop due in the tick coming first. (R464, R465, R474, R477, R478) -/
def Obligations.ReelCommands : Prop :=
  (∀ c s w, Admitted spReelArm none c s → w = reelTable s (pw c 0) →
    (pw c 0 ≠ 0x0A00 → pw c 0 ≠ 0x0A01 → ∃ t, Sys2Proof.Machine.exec (.reelArm c) s = .next t
      ∧ Replied 0xA0 St.param 0x8000 [BitVec.ofNat 32 (pw c 0)] c (arrived s c) t)
    ∧ (pw c 0 = 0x0A00 ∨ pw c 0 = 0x0A01 → cfgW w 0 % 65536 ≠ 0x524C ∨ crcWords w.dropLast ≠ w.getD 352 0 →
      ∃ t, Sys2Proof.Machine.exec (.reelArm c) s = .next t
        ∧ Replied 0xA0 St.integrity 3 [BitVec.ofNat 32 (pw c 0)] c (arrived s c) t)
    ∧ (pw c 0 = 0x0A00 ∨ pw c 0 = 0x0A01 → cfgW w 0 % 65536 = 0x524C → crcWords w.dropLast = w.getD 352 0 →
      (∀ i, (List.range 352).find? (reelWordBad w) = some i → ∃ t, Sys2Proof.Machine.exec (.reelArm c) s = .next t
        ∧ Replied 0xA0 St.range (0x8000 + i) [BitVec.ofNat 32 (cfgW w i)] c (arrived s c) t)
      ∧ ((List.range 352).find? (reelWordBad w) = none → reelRuns s = true →
        ∃ t, Sys2Proof.Machine.exec (.reelArm c) s = .next t ∧ Replied 0xA0 St.conflict 1 [0] c (arrived s c) t)
      ∧ ((List.range 352).find? (reelWordBad w) = none → reelRuns s = false →
        ∃ t, Sys2Proof.Machine.exec (.reelArm c) s = .next t
          ∧ Replied 0xA0 St.ok 0 [] c (reelStart (arrived s c) (pw c 0)) t)))
  ∧ (∀ s num, (reelStart s num).reel.state = .armed ∧ (reelStart s num).reel.ring = [] ∧ (reelStart s num).reel.table = num
      ∧ (reelStart s num).reel.trigTick = none ∧ (reelStart s num).reel.header = []
      ∧ (reelStart s num).reel.cfg = tabRun 0 [] 0 (reelTable s num)
      ∧ (reelStart s num).reel.tick0 = (if bit (cfgW (reelTable s num) 0) 16 then none else some (s.tick + 1)))
  ∧ (∀ c s, Admitted spReelRead none c s →
    (reelRuns s = false → 1 ≤ pw c 1 → pw c 1 ≤ 1016 → pw c 0 + pw c 1 ≤ 524288 →
      ∃ t, Sys2Proof.Machine.exec (.reelRead c) s = .next t
        ∧ Replied 0xA1 St.ok 0 ((List.range (pw c 1)).map (fun i => reelWord s (pw c 0 + i))) c (arrived s c) t)
    ∧ (reelRuns s = true → ∃ t, Sys2Proof.Machine.exec (.reelRead c) s = .next t
        ∧ Replied 0xA1 St.state 0xC [BitVec.ofNat 32 s.reel.state.code] c (arrived s c) t)
    ∧ (reelRuns s = false → 524287 < pw c 0 → ∃ t, Sys2Proof.Machine.exec (.reelRead c) s = .next t
        ∧ Replied 0xA1 St.range 0x8000 [BitVec.ofNat 32 (pw c 0)] c (arrived s c) t)
    ∧ (reelRuns s = false → pw c 0 ≤ 524287 → pw c 1 = 0 ∨ 1016 < pw c 1 ∨ 524288 < pw c 0 + pw c 1 →
      ∃ t, Sys2Proof.Machine.exec (.reelRead c) s = .next t
        ∧ Replied 0xA1 St.range 0x8001 [BitVec.ofNat 32 (pw c 1)] c (arrived s c) t))
  ∧ (∀ c s, Admitted spReelStop none c s →
    (reelRuns s = true → ∃ t, Sys2Proof.Machine.exec (.reelStop c) s = .next t
      ∧ Replied 0xA2 St.ok 0 [] c (reelStop (reelSync (arrived s c)) 4) t)
    ∧ (reelRuns s = false → ∃ t, Sys2Proof.Machine.exec (.reelStop c) s = .next t
      ∧ Replied 0xA2 St.ok 1 [] c (arrived s c) t))
  ∧ (∀ s cause, reelRuns s = true → (Sys2Proof.Machine.reelStop s cause).reel.state = .stopped
      ∧ (Sys2Proof.Machine.reelStop s cause).reel.cause = (if s.reel.stopDue then min cause 3 else cause))

/-- A triggered capture stops with cause POST once POST_TICKS, unless 0, have passed; where it has stopped otherwise
in that very tick, POST takes its place among the causes. A timeout unit of a watching reel whose line holds its level
fires after TIME1 ticks; each wrap of TICK forms a WRAP record with the count of wraps; where these do not apply
nothing changes. A falling edge on a bus line that is high is noted with its time, acts on latches and sequences and
triggers an enabled watching reel; a driven pulse is released at its end; a rising edge ends the low. A write of
TBUS_FORCE drives the lines of its bits low from the next tick for TBUS_PULSE ticks; a pulse that runs is prolonged,
and what a fall shows is measured where the line stood high. (R467, R469, R470, R471, R472, R474, R476) -/
def Obligations.ReelTimers : Prop :=
  (∀ s t0 x, clockOn s = true → s.reel.tick0 = some t0 → s.reel.trigTick = some x →
    (reelCfg s 10 ≠ 0 → s.reel.state = .triggered → ∃ t, Sys2Proof.Machine.exec .reelPostEnd s = .next t
      ∧ Seen (reelStop (reelSync (advanceTo s (t0 + x + reelCfg s 10))) 1) t)
    ∧ (reelCfg s 10 ≠ 0 → s.reel.state ≠ .triggered → s.tick = t0 + x + reelCfg s 10 →
      ∃ t, Sys2Proof.Machine.exec .reelPostEnd s = .next t ∧ Seen (reelStop s 1) t)
    ∧ (reelCfg s 10 = 0 ∨ (s.reel.state ≠ .triggered ∧ s.tick ≠ t0 + x + reelCfg s 10) →
      ∃ t, Sys2Proof.Machine.exec .reelPostEnd s = .next t ∧ Seen s t))
  ∧ (∀ s, clockOn s = true → s.reel.tick0 = none ∨ s.reel.trigTick = none →
      ∃ t, Sys2Proof.Machine.exec .reelPostEnd s = .next t ∧ Seen s t)
  ∧ (∀ (k : Fin 4) s w on, clockOn s = true → w = unitWord s k →
      on = bit ((reelLines s).getD (field w 15 8 / 8) 0) (field w 15 8 % 8) →
    (∀ t0 due, reelWatches s = true → s.reel.tick0 = some t0 → field w 3 0 = 5 → on = (field w 5 4 == 0) →
        due = (reelUnit s k).since + reelCfg s (14 + 4 * k.val) →
      ∃ t, Sys2Proof.Machine.exec (.triggerUnitTimeout k) s = .next t
        ∧ Seen (reelTrigger (reelSync (advanceTo s (t0 + due))) k due) t)
    ∧ (reelWatches s = false ∨ s.reel.tick0 = none ∨ field w 3 0 ≠ 5 ∨ on ≠ (field w 5 4 == 0) →
      ∃ t, Sys2Proof.Machine.exec (.triggerUnitTimeout k) s = .next t ∧ Seen s t))
  ∧ (∀ s n, clockOn s = true → n = s.reel.wraps + 1 →
    (∀ t0, reelRuns s = true → s.reel.tick0 = some t0 → ∃ t, Sys2Proof.Machine.exec .tickWrap s = .next t
      ∧ Seen (reelForm (updReel (reelSync (advanceTo s (t0 + n * 4294967296))) (fun x => { x with wraps := n }))
          (specialRec 0 3 n)) t)
    ∧ (reelRuns s = false ∨ s.reel.tick0 = none → ∃ t, Sys2Proof.Machine.exec .tickWrap s = .next t ∧ Seen s t))
  ∧ (∀ (l : Fin 4) s v, clockOn s = true → v = ((lineOf s l).loopAt.map (fun a => advanceTo s (a + 2))).getD s →
    ((lineOf s l).low = false → ∃ t, Sys2Proof.Machine.exec (.tbusFall l) s = .next t
      ∧ Seen (reelObserveWith (tbusTrigger l) (tbusFallen v l)) t)
    ∧ ((lineOf s l).low = true → ∃ t, Sys2Proof.Machine.exec (.tbusFall l) s = .next t ∧ Seen s t))
  ∧ (∀ (l : Fin 4) s, clockOn s = true →
    (∀ d, (lineOf s l).driveTo = some d → ∃ t, Sys2Proof.Machine.exec (.tbusPulseEnd l) s = .next t
      ∧ Seen (updLine (advanceTo s d) l (fun x => { x with driveTo := none, loopAt := none })) t)
    ∧ ((lineOf s l).driveTo = none → ∃ t, Sys2Proof.Machine.exec (.tbusPulseEnd l) s = .next t ∧ Seen s t))
  ∧ (∀ (l : Fin 4) s v, clockOn s = true → v = ((lineOf s l).driveTo.map (fun a => advanceTo s (a + 2))).getD s →
    ((lineOf s l).low = true → ∃ t, Sys2Proof.Machine.exec (.tbusRisingEdge l) s = .next t
      ∧ Seen (updLine v l (fun x => { x with low := false, driveTo := none, loopAt := none })) t)
    ∧ ((lineOf s l).low = false → ∃ t, Sys2Proof.Machine.exec (.tbusRisingEdge l) s = .next t ∧ Seen s t))
  ∧ (∀ c s, RowOk P.TBUS_FORCE c s → ∃ t u, Sys2Proof.Machine.exec (.tbusForce c) s = .next t ∧ RowDone P.TBUS_FORCE c u t
      ∧ u = (List.range 4).foldl (fun s n => if bit (c.payload.getD 0 0).toNat n then tbusDrive s n else s)
          (rowFrom P.TBUS_FORCE c s))
  ∧ (∀ s n e, e = s.tick + 1 + getN s P.TBUS_PULSE 0 →
    (∀ d, (lineOf s n).driveTo = some d → s.tick < d →
      lineOf (tbusDrive s n) n = { lineOf s n with driveTo := some (max d e) })
    ∧ ((∀ d, (lineOf s n).driveTo = some d → d ≤ s.tick) →
      lineOf (tbusDrive s n) n = { lineOf s n with
        driveFrom := s.tick + 1, driveTo := some e, loopAt := if (lineOf s n).low then none else some (s.tick + 1) }))

/-- Period marks are held in ticks. Whatever TIME_STEP, TIME_OFFSET or the holdover expiry answers, the period
generator (its running period, the ticks of the last and the next mark) is as before; the commands leave the tick as
it was, and time passing changes no mark whatever RATE is. (R318) -/
def Obligations.MarksIgnoreTime : Prop :=
  (∀ c s t, Sys2Proof.Machine.exec (.timeStep c) s = .next t ∨ Sys2Proof.Machine.exec (.timeOffset c) s = .next t →
      t.per = s.per ∧ t.tick = s.tick)
  ∧ (∀ s t, Sys2Proof.Machine.exec .timeHoldoverExpiry s = .next t → t.per = s.per)
  ∧ (∀ s d, (advanceTo s d).per = s.per)

/-- TIME_READ answers seconds low, seconds high and nanoseconds of the device time of the tick and changes nothing. A
TIME_STEP with w1 [31:16] 0 and nanoseconds below 10^9 makes device time equal to its payload in the tick after
interpretation; with w1 [31:16] not 0 it answers E_PARAM detail 0x8001, else with nanoseconds of 10^9 or more E_RANGE
detail 0x8002. A TIME_OFFSET keeps its offset as the last one; above 16 times a limit that is not 0 it steps device
time by minus the offset in the tick after interpretation, the integrator and RATE as they were; else it updates the
servo: with P = KP o / 16 and the integrator clamped to M, RATE is minus their sum clamped to M. A step makes the
servo TRACKING with a count of 0 and sets STEPPED; both are set in the tick of interpretation (model's reading, log
entry 53). Otherwise n counts offsets within the lock bound (1 for the first in HOLDOVER), 0 outside it; the servo is
LOCKED if it was and the offset is within the bound or n reaches TIME_LOCK_COUNT, else TRACKING; in LOCKED the
holdover is due TIME_HOLDOVER ms after the offset, unless 0. In a tick without a step device time grows by the units
of the tick. A holdover expiry acts at that tick, if none is due not at all: HOLDOVER with RATE minus the integrator,
clamped to the M of the last offset. (R317, R319, R320, R321, R322, R330) -/
def Obligations.TimeCommands : Prop :=
  (∀ c s, Admitted spTimeRead none c s → ∃ t, Sys2Proof.Machine.exec (.timeRead c) s = .next t
      ∧ Replied 0xB2 St.ok 0 [BitVec.ofNat 32 (devSec s), BitVec.ofNat 32 (devSec s / 4294967296 % 65536),
          BitVec.ofNat 32 (devNs s)] c (arrived s c) t)
  ∧ (∀ c s, Admitted spTimeStep none c s →
    (pw c 2 < 1000000000 → ∃ t, Sys2Proof.Machine.exec (.timeStep c) s = .next t
      ∧ Replied 0xB1 St.ok 0 [] c (stepTo (arrived s c)
          ((pw c 0 + 4294967296 * pw c 1) * secUnit + pw c 2 * nsUnit)) t)
    ∧ (1000000000 ≤ pw c 2 → ∃ t, Sys2Proof.Machine.exec (.timeStep c) s = .next t
      ∧ Replied 0xB1 St.range 0x8002 [BitVec.ofNat 32 (pw c 2)] c (arrived s c) t))
  ∧ spTimeStep.reserved = [(1, 0xFFFF0000)]
  ∧ (∀ c s o u, Admitted spTimeOffset none c s → o = signedOf 64 (pw c 0 + 4294967296 * pw c 1) →
      u = updTime (put64 (arrived s c) P.TIME_LAST_OFFSET 0 (BitVec.ofNat 32 (pw c 0)) (BitVec.ofNat 32 (pw c 1)))
        (fun t => { t with lastOff := o }) →
    (getN s P.TIME_STEP_LIMIT 0 ≠ 0 → 16 * getN s P.TIME_STEP_LIMIT 0 < o.natAbs →
      ∃ t, Sys2Proof.Machine.exec (.timeOffset c) s = .next t
        ∧ Replied 0xB0 St.ok 0 [] c (stepBy u (-(o * 2 ^ 36))) t)
    ∧ (getN s P.TIME_STEP_LIMIT 0 = 0 ∨ o.natAbs ≤ 16 * getN s P.TIME_STEP_LIMIT 0 →
      ∃ t, Sys2Proof.Machine.exec (.timeOffset c) s = .next t
        ∧ Replied 0xB0 St.ok 0 [] c (servoFollow (servoUpdate u o) o) t))
  ∧ (∀ s w, (∀ d, w = stepTo s d → w.time.stepTo = some d ∧ w.time.stepBy = 0)
    ∧ (∀ b, w = stepBy s b → w.time.stepTo = s.time.stepTo ∧ w.time.stepBy = s.time.stepBy + b)
    ∧ ((∃ d, w = stepTo s d) ∨ (∃ b, w = stepBy s b) →
        w.time.servo = .tracking ∧ w.time.n = 0 ∧ w.time.dev = s.time.dev ∧ w.time.rate = s.time.rate
        ∧ w.time.integ = s.time.integ ∧ bit (getN w P.TIME_EVENT 0) 0 = true))
  ∧ (∀ s, clockOn s = true →
    (∀ d, s.time.stepTo = some d → s.time.stepBy = 0 → d < 2 ^ 48 * secUnit → (advanceTo s (s.tick + 1)).time.dev = d)
    ∧ (∀ e : Int, s.time.stepTo = none → e = (s.time.dev + tickUnits s : Nat) + s.time.stepBy → 0 ≤ e →
        e < 2 ^ 48 * (secUnit : Int) → ((advanceTo s (s.tick + 1)).time.dev : Int) = e))
  ∧ (∀ s o m, m = (getN s P.TIME_RATE_MAX 0 : Int) →
      (servoUpdate s o).time.integ = clampInt (s.time.integ + asr ((getN s P.TIME_KI 0 : Int) * o) 4) (-m) m
      ∧ (servoUpdate s o).time.rate
        = clampInt (-(asr ((getN s P.TIME_KP 0 : Int) * o) 4 + (servoUpdate s o).time.integ)) (-m) m
      ∧ (servoUpdate s o).time.maxOff = m ∧ (servoUpdate s o).time.servo = s.time.servo
      ∧ (servoUpdate s o).time.n = s.time.n)
  ∧ (∀ s o w good, w = servoFollow s o → good = decide (o.natAbs ≤ 16 * getN s P.TIME_LOCK_LIMIT 0) →
      w.time.n = (if good then (if s.time.servo = .holdover then 1 else s.time.n + 1) else 0)
      ∧ w.time.servo = (if (s.time.servo = .locked ∧ good = true) ∨ getN s P.TIME_LOCK_COUNT 0 ≤ w.time.n then .locked
          else .tracking)
      ∧ w.time.holdDue = (if w.time.servo = .locked ∧ getN s P.TIME_HOLDOVER 0 ≠ 0
          then some (s.tick + 200000 * getN s P.TIME_HOLDOVER 0) else none)
      ∧ w.time.rate = s.time.rate)
  ∧ (∀ s, clockOn s = true →
    (∀ d, s.time.holdDue = some d → ∃ t v, Sys2Proof.Machine.exec .timeHoldoverExpiry s = .next t
      ∧ v = servoUnlock (advanceTo s d) .holdover
      ∧ Seen (updTime v (fun t => { t with rate := clampInt (-t.integ) (-t.maxOff) t.maxOff })) t
      ∧ t.time.servo = .holdover ∧ t.time.holdDue = none
      ∧ t.time.rate = clampInt (-s.time.integ) (-s.time.maxOff) s.time.maxOff)
    ∧ (s.time.holdDue = none → ∃ t, Sys2Proof.Machine.exec .timeHoldoverExpiry s = .next t ∧ Seen s t))

/-- POWER_STATE of a state 0 to 3 is accepted while none runs and, leaving RUN, no arm is deblocked: the target is set
and the way to it begins unless one is under way. A code above 3 answers E_RANGE detail 0x8000; while one runs
E_CONFLICT detail 1 with its tag; leaving RUN with arms deblocked E_STATE detail 2 with their mask (in this order).
PORST_N low resets everything with cause 1, the supervisor with cause 2; the tick runs on. Its release samples
TESTMODE, LISTEN follows 2 ms later with PD0 and PD2 on, and READY where WAKE_N is low then. WAKE_N low leaves DORMANT
with cause 4, every parameter but the cause at its reset value, the clock source kept, and is remembered while DORMANT
is being entered; else it does nothing. Entry to DORMANT keeps blocks DEV and PWR and PD0 alone. PWR_LANE_EN holds its
word; in RUN the lane domains follow it (at the end of the tick of interpretation: the model's choice, log entry 56),
else they stay. (R482, R483, R484, R485, R487, R491) -/
def Obligations.PowerStates : Prop :=
  (∀ c s, Admitted spPowerState none c s →
    (pw c 0 ≤ 3 → opAny? s 0xC0 = none → pw c 0 = 3 ∨ s.pwr.state ≠ .run ∨ anyDeb s = false →
      ∃ t, Sys2Proof.Machine.exec (.powerState c) s = .next t
        ∧ Accepted 0xC0 c (startOp (arrived s c) 0xC0 0 c [pw c 0]) (fun v =>
            if inTransit v then updPwr v (fun p => { p with target := powerOf (pw c 0) })
            else powerGo (updPwr v (fun p => { p with target := powerOf (pw c 0), wait := .none }))) t)
    ∧ (3 < pw c 0 → ∃ t, Sys2Proof.Machine.exec (.powerState c) s = .next t
        ∧ Replied 0xC0 St.range 0x8000 [BitVec.ofNat 32 (pw c 0)] c (arrived s c) t)
    ∧ (∀ o, pw c 0 ≤ 3 → opAny? s 0xC0 = some o → ∃ t, Sys2Proof.Machine.exec (.powerState c) s = .next t
        ∧ Replied 0xC0 St.conflict 1 [BitVec.ofNat 32 o.tag.toNat] c (arrived s c) t)
    ∧ (pw c 0 < 3 → opAny? s 0xC0 = none → s.pwr.state = .run → anyDeb s = true →
        ∃ t, Sys2Proof.Machine.exec (.powerState c) s = .next t
        ∧ Replied 0xC0 St.state 2 [BitVec.ofNat 32 (debMask s)] c (arrived s c) t))
  ∧ (∀ b s, Sys2Proof.Machine.exec (.porstAssert b) s = .next (putN { State.reset with
        tick := s.tick, freeCtr := s.freeCtr, pending := s.pending } P.PWR_RESET_CAUSE 0 (if b then 2 else 1)))
  ∧ (∀ m s, (s.pwr.held = true → ∃ t, Sys2Proof.Machine.exec (.porstRelease m) s = .next t
        ∧ Seen (updPwr (putN s P.PWR_RESET_CAUSE 0 ((if getN s P.PWR_RESET_CAUSE 0 = 0 then 1 else getN s P.PWR_RESET_CAUSE 0)
            + 8 * b2n m)) (fun p => { p with held := false, wait := .listen (s.tick + 400000), relAt := s.tick, testmode := m })) t)
    ∧ (s.pwr.held = false → ∃ t, Sys2Proof.Machine.exec (.porstRelease m) s = .next t ∧ Seen s t))
  ∧ (∀ w s, (∀ d u, s.pwr.held = false → s.pwr.wait = .listen d → u = updPwr (advanceTo s d) (fun p => { p with
        state := .listen, target := .listen, wait := .none, domains := 5 }) →
      ∃ t, Sys2Proof.Machine.exec (.listenEntry w) s = .next t
        ∧ Seen (if w then powerGo (updPwr u (fun p => { p with target := .ready })) else u) t)
    ∧ (s.pwr.held = true ∨ (∀ d, s.pwr.wait ≠ .listen d) →
        ∃ t, Sys2Proof.Machine.exec (.listenEntry w) s = .next t ∧ Seen s t))
  ∧ (∀ m s, (s.pwr.held = false → s.pwr.state = .dormant → ∃ t, Sys2Proof.Machine.exec (.wakeNLow m) s = .next t
      ∧ Seen (wake (updPwr s (fun p => { p with testmode := m }))) t)
    ∧ (∀ d, s.pwr.held = false → s.pwr.state ≠ .dormant → s.pwr.wait = .dormant d → ∃ t, Sys2Proof.Machine.exec (.wakeNLow m) s = .next t
      ∧ Seen (updPwr s (fun p => { p with wakeLow := true, testmode := m })) t)
    ∧ (s.pwr.held = true ∨ (s.pwr.state ≠ .dormant ∧ ∀ d, s.pwr.wait ≠ .dormant d) →
        ∃ t, Sys2Proof.Machine.exec (.wakeNLow m) s = .next t ∧ Seen s t))
  ∧ (∀ s, (wake s).pwr.wait = .listen (s.tick + 400000) ∧ (wake s).pwr.held = false
      ∧ getN (wake s) P.PWR_RESET_CAUSE 0 = 4 + 8 * b2n s.pwr.testmode
      ∧ (∀ id k, id ≠ P.PWR_RESET_CAUSE → getP (wake s) id k = getP State.reset id k)
      ∧ (wake s).pwr.onXtal = s.pwr.onXtal ∧ (wake s).pwr.xtalGone = s.pwr.xtalGone ∧ (wake s).pwr.domains = 1)
  ∧ (∀ s, (∀ d v u, s.pwr.wait = .dormant d → v = advanceTo s d → u = { State.reset with
        tick := v.tick, freeCtr := v.freeCtr, pending := v.pending
        params := tabFilter (fun k _ => k / 65536 / 256 == 0x00 || k / 65536 / 256 == 0x02) v.params
        pwr := { v.pwr with state := .dormant, target := .dormant, wait := .none, domains := 1 } } →
      ∃ t, Sys2Proof.Machine.exec .dormantEntry s = .next t ∧ Seen (if s.pwr.wakeLow then wake u else u) t)
    ∧ ((∀ d, s.pwr.wait ≠ .dormant d) → ∃ t, Sys2Proof.Machine.exec .dormantEntry s = .next t ∧ Seen s t))
  ∧ (∀ c s, RowOk P.PWR_LANE_EN c s → ∃ t u, Sys2Proof.Machine.exec (.pwrLaneEn c) s = .next t ∧ RowDone P.PWR_LANE_EN c u t
      ∧ u = tallyTouch (laneEnSet (putP (rowFrom P.PWR_LANE_EN c s) P.PWR_LANE_EN (tgt c) (c.payload.getD 0 0))) P.PWR_LANE_EN)
  ∧ (∀ s, (s.pwr.state ≠ .run → laneEnSet s = s)
    ∧ (s.pwr.state = .run → ∀ q, q < 4 →
        bit (laneEnSet s).pwr.domains.toNat (7 + q) = bit (getN s P.PWR_LANE_EN 0) q))

/-- The crystal takes over within 50 ms of PORST_N's release unless it has failed since; its failure goes back to the
RC for good. The core PLL's lock starts BIST of 20 ms on the way to READY, after a loss it runs the relock, which
leaves RUN towards READY; its loss stops the core clock and fails the belay's clock check. BIST's end writes its word
and enters READY. A lane PLL's lock lets RUN be entered once all enabled ones hold, after the 2 ms dispatch test where
none has run since BIST; its loss acts on the lanes of its domain. The dispatch test enters RUN or refuses it and
turns PD5 to PD10 off. RUN is left at the next mark. Each of these events does nothing where its wait is not on.
(R488, R489, R490, R492, R494, R485) -/
def Obligations.ClocksAndSelfTest : Prop :=
  (∀ s, (s.pwr.held = false → s.pwr.xtalGone = false → s.tick ≤ s.pwr.relAt + 10000000 → ∃ t, Sys2Proof.Machine.exec .xtalSwitch s = .next t
        ∧ Seen (updPwr s (fun p => { p with onXtal := true })) t)
    ∧ (s.pwr.held = true ∨ s.pwr.xtalGone = true ∨ s.pwr.relAt + 10000000 < s.tick → ∃ t, Sys2Proof.Machine.exec .xtalSwitch s = .next t ∧ Seen s t))
  ∧ (∀ s, (s.pwr.onXtal = true → ∃ t, Sys2Proof.Machine.exec .xtalFail s = .next t
        ∧ Seen (orP (updPwr s (fun p => { p with onXtal := false, xtalGone := true })) P.PWR_EVENT 0 2) t)
    ∧ (s.pwr.onXtal = false → ∃ t, Sys2Proof.Machine.exec .xtalFail s = .next t ∧ Seen s t))
  ∧ (∀ s, (s.pwr.wait = .corePll → ∃ t, Sys2Proof.Machine.exec .corePllLock s = .next t
        ∧ Seen (updPwr s (fun p => { p with corePll := true, pllAt := s.tick, wait := .bist (s.tick + 4000000) })) t)
    ∧ (s.pwr.wait = .relock → ∃ t, Sys2Proof.Machine.exec .corePllLock s = .next t ∧ Seen (relock s) t)
    ∧ (s.pwr.wait ≠ .corePll → s.pwr.wait ≠ .relock → ∃ t, Sys2Proof.Machine.exec .corePllLock s = .next t ∧ Seen s t))
  ∧ (∀ s u, u = internalFail (updBelay (orP (updPwr s (fun p => { p with corePll := false })) P.PWR_EVENT 0 1)
        (fun x => { x with clockOk := false })) 0 →
    (s.pwr.corePll = true → u.pwr.state ≠ .listen → ∃ t, Sys2Proof.Machine.exec .corePllLoss s = .next t
        ∧ Seen (updPwr u (fun p => { p with wait := .relock })) t ∧ t.pwr.corePll = false)
    ∧ (s.pwr.corePll = true → u.pwr.state = .listen → ∃ t, Sys2Proof.Machine.exec .corePllLoss s = .next t
        ∧ Seen (updPwr u (fun p => { p with wait := .corePll })) t)
    ∧ (s.pwr.corePll = false → ∃ t, Sys2Proof.Machine.exec .corePllLoss s = .next t ∧ Seen s t))
  ∧ (∀ a b x y (bad : BitVec 4) s, (∀ d, s.pwr.wait = .bist d →
      ∃ t u, Sys2Proof.Machine.exec (.bistDone a b x y bad) s = .next t
        ∧ u = (List.range 4).foldl (fun s n => updStrand s n (fun x => { x with offline := bit bad.toNat n }))
            (putN (advanceTo s d) P.PWR_BIST 0 (bistWord a b x y bad.toNat))
        ∧ Seen (powerGo { (updPwr u (fun p => { p with state := .ready, wait := .none })) with
            host := { u.host with linkUp := true } }) t)
    ∧ ((∀ d, s.pwr.wait ≠ .bist d) → ∃ t, Sys2Proof.Machine.exec (.bistDone a b x y bad) s = .next t ∧ Seen s t))
  ∧ (∀ (q : Fin 4) s, (bit s.pwr.domains.toNat (7 + q.val) = true → ∃ t, Sys2Proof.Machine.exec (.lanePllLock q) s = .next t
        ∧ Seen (runReady (updPwr s (fun p => { p with lanePll := p.lanePll ||| BitVec.ofNat 4 (2 ^ q.val) }))) t)
    ∧ (bit s.pwr.domains.toNat (7 + q.val) = false →
        ∃ t, Sys2Proof.Machine.exec (.lanePllLock q) s = .next t ∧ Seen s t))
  ∧ (∀ (q : Fin 4) s, clockOn s = true → (bit s.pwr.lanePll.toNat q = true →
      ∃ t, Sys2Proof.Machine.exec (.lanePllLoss q) s = .next t
        ∧ Seen ((quadLanes q).foldl lanePllLost (orP (updPwr s (fun p =>
            { p with lanePll := p.lanePll &&& ~~~(BitVec.ofNat 4 (2 ^ q.val)) })) P.PWR_EVENT 0 4)) t)
    ∧ (bit s.pwr.lanePll.toNat q = false → ∃ t, Sys2Proof.Machine.exec (.lanePllLoss q) s = .next t ∧ Seen s t))
  ∧ (∀ pass (bad : BitVec 4) s, clockOn s = true → (∀ d u, s.pwr.wait = .dispatch d →
        u = orP (advanceTo s d) P.PWR_BIST 0 (128 + 256 * b2n pass + 2 ^ 20 * bad.toNat) →
      ∃ t, Sys2Proof.Machine.exec (.dispatchTestDone pass bad) s = .next t
        ∧ Seen (if pass then enterRun u
            else powerFail (updPwr (domains u 0 0x7E0) (fun p => { p with lanePll := 0 }))) t)
    ∧ ((∀ d, s.pwr.wait ≠ .dispatch d) →
        ∃ t, Sys2Proof.Machine.exec (.dispatchTestDone pass bad) s = .next t ∧ Seen s t))
  ∧ (∀ s, clockOn s = true → (s.per.running = true → s.pwr.wait = .leaveRun →
      ∃ t, Sys2Proof.Machine.exec .runToReady s = .next t ∧ Seen (powerNext (leaveRun (countMark (periodEnd s)))) t)
    ∧ (s.per.running = false ∨ s.pwr.wait ≠ .leaveRun →
        ∃ t, Sys2Proof.Machine.exec .runToReady s = .next t ∧ Seen s t))
  ∧ (∀ s, (s.pwr.wait = .lanePll → lanePllsOk s = true → runReady s = if bit (getN s P.PWR_BIST 0) 7 then enterRun s
        else updPwr s (fun p => { p with wait := .dispatch (s.tick + 400000) }))
    ∧ (s.pwr.wait ≠ .lanePll ∨ lanePllsOk s = false → runReady s = s))
  ∧ (∀ s, (leaveRun s).pwr.state = .ready ∧ (leaveRun s).per.running = false ∧ (leaveRun s).pwr.lanePll = 0)

/-- Placement takes the READY tasks in order of priority, readiness and slot onto the free strands in ascending order.
A task completes on its strand: in time its effect happens, its slot and strand become free and its successors'
counters fall, at or after its deadline mark it is abandoned. A deadline mark that comes abandons the slot's task; the
watchdog stops a task one tick beyond its limit with info 0, an uncorrectable SRAM error with info 1; a corrected one
is counted and has no other effect. A placed task runs on its strand from the tick of the placement, two ticks later
where the strand was gated, with the limit in force then; its strand is not gated. A strand or slot without a task
changes nothing. (R215, R219, R222, R224, R225, R226) -/
def Obligations.StrandTasks : Prop :=
  (∀ s, clockOn s = true → ∃ t, Sys2Proof.Machine.exec .taskPlace s = .next t
      ∧ Seen (((sortBy placeLe (readyTasks s)).zip (freeStrands s)).foldl (fun s p => placeOn s p.1.1 p.2) s) t)
  ∧ (∀ (n : Fin 8) s i v x, clockOn s = true → (strandOf s n).slot = some i → x = taskOf s i → v = advanceTo s x.startAt →
      ∃ t, Sys2Proof.Machine.exec (.taskComplete n) s = .next t
        ∧ Seen (if v.per.running && deadlinePast v x.deadline then abandonTask v i else taskDone v n i x) t)
  ∧ (∀ (i : Fin 256) s, clockOn s = true →
    (∀ m, (taskOf s i).deadline = some m → ∃ t, Sys2Proof.Machine.exec (.taskDeadline i) s = .next t
      ∧ Seen (atMark s m (fun s => abandonTask s i)) t)
    ∧ ((taskOf s i).deadline = none → ∃ t, Sys2Proof.Machine.exec (.taskDeadline i) s = .next t ∧ Seen s t))
  ∧ (∀ (n : Fin 8) s, clockOn s = true →
    (∀ i, (strandOf s n).slot = some i → (∃ t, Sys2Proof.Machine.exec (.taskWatchdog n) s = .next t
        ∧ Seen (stopTask (advanceTo s ((taskOf s i).startAt + (taskOf s i).limit + 1)) n 0) t)
      ∧ (∃ t, Sys2Proof.Machine.exec (.strandSramError n false) s = .next t ∧ Seen (stopTask s n 1) t))
    ∧ ((strandOf s n).slot = none → (∃ t, Sys2Proof.Machine.exec (.taskWatchdog n) s = .next t ∧ Seen s t)
      ∧ (∃ t, Sys2Proof.Machine.exec (.strandSramError n false) s = .next t ∧ Seen s t)
      ∧ (∃ t, Sys2Proof.Machine.exec (.taskComplete n) s = .next t ∧ Seen s t))
    ∧ (∃ t, Sys2Proof.Machine.exec (.strandSramError n true) s = .next t ∧ Seen (incP s P.STR_SRAM_CORR n) t))
  ∧ (∀ s i n, (taskOf (placeOn s i n) i).st = .running ∧ (taskOf (placeOn s i n) i).strand = n
      ∧ (taskOf (placeOn s i n) i).startAt = (if strandGated s n then s.tick + 2 else s.tick)
      ∧ (taskOf (placeOn s i n) i).limit = getN s P.STR_TASK_LIMIT 0
      ∧ (strandOf (placeOn s i n) n).slot = some i ∧ strandGated (placeOn s i n) n = false)

/-- TRACE_READ of 1 to 508 entries from an index up to 4,095 answers two words an entry, wrapping, and changes
nothing; a higher index answers E_RANGE detail 0x8000, else another count detail 0x8001. STR_TRACE_CTRL with RUN set
lets recording go on; clearing RUN ends it with a FREEZE entry, once. FW_PATCH stores its words at its offset; the
segment with the image's last word is accepted as an operation, each other one is answered OK; while an image is
checked it answers E_CONFLICT detail 1 with the running command's tag (the model's reading of R47, log entry 38), else
beyond 8,192 words E_RANGE detail 0x8000. At its end the image is checked: the state becomes active with its level, or
failed. (R230, R231, R232, R233) -/
def Obligations.TraceAndPatch : Prop :=
  (∀ c s, Admitted spTraceRead none c s → pw c 0 ≤ 4095 → 1 ≤ pw c 1 → pw c 1 ≤ 508 →
    ∃ t, Sys2Proof.Machine.exec (.traceRead c) s = .next t
      ∧ Replied 0xD0 St.ok 0 ((List.range (pw c 1)).flatMap (fun j =>
          [(tabGet (0, 0) s.str.trace ((pw c 0 + j) % 4096)).1, (tabGet (0, 0) s.str.trace ((pw c 0 + j) % 4096)).2]))
          c (arrived s c) t)
  ∧ (∀ c s, Admitted spTraceRead none c s →
    (4095 < pw c 0 → ∃ t, Sys2Proof.Machine.exec (.traceRead c) s = .next t
      ∧ Replied 0xD0 St.range 0x8000 [BitVec.ofNat 32 (pw c 0)] c (arrived s c) t)
    ∧ (pw c 0 ≤ 4095 → pw c 1 = 0 ∨ 508 < pw c 1 → ∃ t, Sys2Proof.Machine.exec (.traceRead c) s = .next t
      ∧ Replied 0xD0 St.range 0x8001 [BitVec.ofNat 32 (pw c 1)] c (arrived s c) t))
  ∧ (∀ c s w v, RowOk P.STR_TRACE_CTRL c s → w = c.payload.getD 0 0 → v = rowFrom P.STR_TRACE_CTRL c s →
    ∃ t u, Sys2Proof.Machine.exec (.strTraceCtrl c) s = .next t ∧ RowDone P.STR_TRACE_CTRL c u t
      ∧ u = tallyTouch (traceCtrl (putP v P.STR_TRACE_CTRL (tgt c) w) (getN v P.STR_TRACE_CTRL (tgt c)) w.toNat)
          P.STR_TRACE_CTRL)
  ∧ (∀ s old new, bit new 0 = true → traceCtrl s old new = { s with str := { s.str with traceFrz := false } })
  ∧ (∀ s old new, bit new 0 = false →
    (bit old 0 = true → traceCtrl s old new = putN (traceFreeze (putN s P.STR_TRACE_CTRL 0 old)) P.STR_TRACE_CTRL 0 new)
    ∧ (bit old 0 = false → traceCtrl s old new = s))
  ∧ (∀ s, (s.str.traceFrz = false → traceFreeze s = { traceEvent s 10 0 0 0 0 0 with
        str := { (traceEvent s 10 0 0 0 0 0).str with traceFrz := true } })
    ∧ (s.str.traceFrz = true → traceFreeze s = s))
  ∧ (∀ c s ws u, Admitted spFwPatch none c s → ws = c.payload.drop 1 → u = patchStore (arrived s c) (pw c 0) ws →
    (opAny? s 0xE0 = none → pw c 0 + ws.length ≤ 8192 → patchLast u (pw c 0) ws.length = true →
      ∃ t, Sys2Proof.Machine.exec (.fwPatch c) s = .next t ∧ Accepted 0xE0 c (startOp u 0xE0 0 c []) id t
        ∧ opOf 0xE0 0 c [] s.tick ∈ t.ops)
    ∧ (opAny? s 0xE0 = none → pw c 0 + ws.length ≤ 8192 → patchLast u (pw c 0) ws.length = false →
      ∃ t, Sys2Proof.Machine.exec (.fwPatch c) s = .next t ∧ Replied 0xE0 St.ok 0 [] c u t)
    ∧ (opAny? s 0xE0 = none → 8192 < pw c 0 + ws.length → ∃ t, Sys2Proof.Machine.exec (.fwPatch c) s = .next t
        ∧ Replied 0xE0 St.range 0x8000 [BitVec.ofNat 32 (pw c 0)] c (arrived s c) t)
    ∧ (∀ o, opAny? s 0xE0 = some o → ∃ t, Sys2Proof.Machine.exec (.fwPatch c) s = .next t
        ∧ Replied 0xE0 St.conflict 1 [BitVec.ofNat 32 o.tag.toNat] c (arrived s c) t))
  ∧ (∀ s off ws k, k < ws.length → tabGet 0 (patchStore s off ws).str.patch (off + k) = ws.getD k 0)
  ∧ (∀ s, clockOn s = true →
    (∀ o u, opAny? s 0xE0 = some o → u = { s with str := { s.str with patchLoad := false } } →
      (patchErr u = none → ∃ t, Sys2Proof.Machine.exec .fwPatchDone s = .next t
        ∧ Seen (completeOk (tallyStale (putP (putN u P.STR_PATCH_STATE 0 2) P.STR_PATCH_LEVEL 0
            (tabGet 0 u.str.patch 2))) o []) t)
      ∧ (∀ e, patchErr u = some e → ∃ t, Sys2Proof.Machine.exec .fwPatchDone s = .next t
        ∧ Seen (completeErr (putN u P.STR_PATCH_STATE 0 3) o e) t))
    ∧ (opAny? s 0xE0 = none → ∃ t, Sys2Proof.Machine.exec .fwPatchDone s = .next t ∧ Seen s t))

/-- A mark in RUN settles what its period owes, is counted and does the mark's work, or ends RUN where RUN is being
left. An intact frame of the mark due next on an ACTIVE lane, in time, is accepted: header, reports in port order,
messenger, the hub's count; an intact one of a mark already over changes nothing, any other is lost. The deadline of a
frame that has not come loses it 39 ticks before the mark; before that or on a lane that is not ACTIVE it does
nothing. A cell silent past its limit, placed, not retired, on an ACTIVE lane and its arm deblocked all the while, is
declared suspect at its mark, once; one that stays silent can fail the retry window of its entry (the model's reading,
log entry 46). FRM_HUB_HOLD_MAX holds its word and is sent to every ACTIVE lane. (R73, R86, R103, R245, R261, R268,
R269, R283, R485) -/
def Obligations.FramesAndMarks : Prop :=
  (∀ p0 p1 s, clockOn s = true →
    (s.per.running = true → s.pwr.wait ≠ .leaveRun → ∃ t, Sys2Proof.Machine.exec (.periodMark p0 p1) s = .next t
      ∧ Seen (markWork (countMark (periodEnd s)) (s.per.nextMark - s.per.lastMark) p0 p1) t)
    ∧ (s.per.running = true → s.pwr.wait = .leaveRun → ∃ t, Sys2Proof.Machine.exec (.periodMark p0 p1) s = .next t
      ∧ Seen (powerNext (leaveRun (countMark (periodEnd s)))) t)
    ∧ (s.per.running = false → ∃ t, Sys2Proof.Machine.exec (.periodMark p0 p1) s = .next t ∧ Seen s t))
  ∧ (∀ s, (countMark s).per.count = s.per.count + 1)
  ∧ (∀ (f : UpFrame) s l x, clockOn s = true → l = f.lane.toNat → x = laneOf s l →
    (x.st ≠ .active → ∃ t, Sys2Proof.Machine.exec (.upstreamFrame f) s = .next t ∧ Seen s t)
    ∧ (x.st = .active → usIntact s l f = true → usOver s l f = true →
        ∃ t, Sys2Proof.Machine.exec (.upstreamFrame f) s = .next t ∧ Seen s t)
    ∧ (x.st = .active → usIntact s l f = true → usOver s l f = false → x.nextUs ≤ s.per.count →
        f.mark.toNat = x.nextUs % 4294967296 → usInTime s l = true →
        ∃ t, Sys2Proof.Machine.exec (.upstreamFrame f) s = .next t ∧ Seen (usAccept s l f) t)
    ∧ (x.st = .active → usIntact s l f = false ∨ (usOver s l f = false ∧ (s.per.count < x.nextUs
          ∨ f.mark.toNat ≠ x.nextUs % 4294967296 ∨ usInTime s l = false)) →
        ∃ t, Sys2Proof.Machine.exec (.upstreamFrame f) s = .next t ∧ Seen (usLost s l) t))
  ∧ (∀ (l : Fin 64) s x, clockOn s = true → x = laneOf s l →
    (x.st = .active → x.div ≠ 0 → x.nextUs + divFor x x.nextUs = s.per.count + 1 →
      ∃ t, Sys2Proof.Machine.exec (.upstreamFrameDeadline l) s = .next t
        ∧ Seen (usLost (advanceTo s (s.per.nextMark - 39)) l) t)
    ∧ (x.st = .active → x.div ≠ 0 → x.nextUs + divFor x x.nextUs < s.per.count + 1 →
      ∃ t, Sys2Proof.Machine.exec (.upstreamFrameDeadline l) s = .next t ∧ Seen (usLost s l) t)
    ∧ (x.st ≠ .active ∨ x.div = 0 ∨ s.per.count + 1 < x.nextUs + divFor x x.nextUs →
      ∃ t, Sys2Proof.Machine.exec (.upstreamFrameDeadline l) s = .next t ∧ Seen s t))
  ∧ (∀ (c : Fin 3072) s k, clockOn s = true → k = silenceMark s (cellOf s c) →
    (k ≤ s.per.count → ∃ t, Sys2Proof.Machine.exec (.cellSilenceSuspect c) s = .next t
      ∧ Seen (silenceAt s s.per.count c) t)
    ∧ (s.per.count < k → ∃ t, Sys2Proof.Machine.exec (.cellSilenceSuspect c) s = .next t
      ∧ Seen (atMark s k (fun v => silenceAt v (v.per.count + 1) c)) t))
  ∧ (∀ s m c x g, x = cellOf s c → g = (x.placed && !x.retired && laneActive s (laneOfCell c)
        && decide (silenceMark s x ≤ m) && debThrough (armOf s x.arm) x.lastRep m) →
    (g = true → x.silent = false →
      silenceAt s m c = suspectCell (updCell s c (fun x => { x with silent := true })) c F.CELL_SUSPECT)
    ∧ (g = true → x.silent = true → silenceAt s m c = silenceFail s m c)
    ∧ (g = false → silenceAt s m c = s))
  ∧ (∀ c s w v, RowOk P.FRM_HUB_HOLD_MAX c s → w = c.payload.getD 0 0 →
      v = putP (rowFrom P.FRM_HUB_HOLD_MAX c s) P.FRM_HUB_HOLD_MAX (tgt c) w →
    ∃ t u, Sys2Proof.Machine.exec (.frmHubHoldMax c) s = .next t ∧ RowDone P.FRM_HUB_HOLD_MAX c u t
      ∧ u = tallyTouch ((List.range 64).foldl (fun s l => if laneActive s l then queueOwn s l else s) v)
          P.FRM_HUB_HOLD_MAX)

/-- For every command of the opcode table that is a packet, and every state that admits it (its port's turn, no
DRY_RUN, target, LENGTH and power state as R44 asks): exec answers a next state in which the reply is the one its own
checks and effect decide, with the opcode, tag and sequence of the command. Where they refuse, the reply has the
refusal's status, detail and DIAG and nothing else changed; where a short command's pass, it has OK, its detail and
payload, and beside it the state is that of the effect; a long command's answers ACCEPTED and has started; a reply
that comes later leaves the effect alone. A write row of a named parameter whose checks pass answers OK, beside it the
state being that of the write. (R44, R47, R50, R51) -/
def Obligations.AdmittedCommands : Prop :=
  (∀ c s, Admitted spPing (pingOwn c) c s →
      ∃ t, Sys2Proof.Machine.exec (.ping c) s = .next t ∧ Answered 0x01 c (pingBody c (arrived s c)) (arrived s
      c) t)
  ∧ (∀ c s, Admitted (spGetParam c) (paramOwn c) c s →
      ∃ t, Sys2Proof.Machine.exec (.getParam c) s = .next t ∧ Answered 0x02 c (getParamBody c (arrived s c))
      (arrived s c) t)
  ∧ (∀ c s, Admitted (spSetParam c) (paramOwn c) c s →
      ∃ t, Sys2Proof.Machine.exec (.setParam c) s = .next t ∧ Answered 0x03 c (setParamBody c (arrived s c))
      (arrived s c) t)
  ∧ (∀ c s, Admitted spCommitGroup (commitOwn c) c s →
      ∃ t, Sys2Proof.Machine.exec (.commitGroup c) s = .next t ∧ Answered 0x04 c (commitGroupBody c (arrived s
      c)) (arrived s c) t)
  ∧ (∀ c d s, d = { c with payload := c.payload.modifyHead (fun w => w ||| 0x100) } → Admitted spCommitGroup
      (commitOwn d) d s →
      ∃ t, Sys2Proof.Machine.exec (.commitGroupDiscard c) s = .next t ∧ Answered 0x04 d (commitGroupBody d
      (arrived s d)) (arrived s d) t)
  ∧ (∀ c s, Admitted spGetBlock (blockOwn c) c s →
      ∃ t, Sys2Proof.Machine.exec (.getBlock c) s = .next t ∧ Answered 0x05 c (getBlockBody c (arrived s c))
      (arrived s c) t)
  ∧ (∀ c s, Admitted (spSetBlock c) (blockOwn c) c s →
      ∃ t, Sys2Proof.Machine.exec (.setBlock c) s = .next t ∧ Answered 0x06 c (setBlockBody c (arrived s c))
      (arrived s c) t)
  ∧ (∀ c s, Admitted spDiscover none c s →
      ∃ t, Sys2Proof.Machine.exec (.discover c) s = .next t ∧ Answered 0x10 c (discoverBody c (arrived s c))
      (arrived s c) t)
  ∧ (∀ c s, Admitted spReadIdentity (readIdOwn c) c s →
      ∃ t, Sys2Proof.Machine.exec (.readIdentity c) s = .next t ∧ Answered 0x11 c (readIdentityBody c (arrived
      s c)) (arrived s c) t)
  ∧ (∀ c s, Admitted spPlace none c s →
      ∃ t, Sys2Proof.Machine.exec (.place c) s = .next t ∧ Answered 0x12 c (placeBody c (arrived s c)) (arrived
      s c) t)
  ∧ (∀ c s, Admitted spCellConfig (cellCfgOwn c) c s →
      ∃ t, Sys2Proof.Machine.exec (.cellConfig c) s = .next t ∧ Answered 0x13 c (cellConfigBody c (arrived s
      c)) (arrived s c) t)
  ∧ (∀ c s, Admitted spTallyReport (tallyOwn c) c s →
      ∃ t, Sys2Proof.Machine.exec (.tallyReport c) s = .next t ∧ Answered 0x14 c (tallyReportBody c (arrived s
      c)) (arrived s c) t)
  ∧ (∀ c s, Admitted spLaneBringup none c s →
      ∃ t, Sys2Proof.Machine.exec (.laneBringup c) s = .next t ∧ Answered 0x20 c (laneBringupBody c (arrived s
      c)) (arrived s c) t)
  ∧ (∀ c s, Admitted spLaneRetire none c s →
      ∃ t, Sys2Proof.Machine.exec (.laneRetire c) s = .next t ∧ Answered 0x21 c (laneRetireBody c (arrived s
      c)) (arrived s c) t)
  ∧ (∀ c s, Admitted spLaneLoop none c s →
      ∃ t, Sys2Proof.Machine.exec (.laneLoop c) s = .next t ∧ Answered 0x22 c (laneLoopBody c (arrived s c))
      (arrived s c) t)
  ∧ (∀ c d s, d = { c with payload := 0 :: c.payload.drop 1 } → Admitted spLaneLoop none d s →
      ∃ t, Sys2Proof.Machine.exec (.laneLoopEndMode0 c) s = .next t ∧ Answered 0x22 d (laneLoopBody d (arrived
      s d)) (arrived s d) t)
  ∧ (∀ c s, Admitted spEyeScan none c s →
      ∃ t, Sys2Proof.Machine.exec (.eyeScan c) s = .next t ∧ Answered 0x23 c (eyeScanBody c (arrived s c))
      (arrived s c) t)
  ∧ (∀ c s, Admitted spArmEnable none c s →
      ∃ t, Sys2Proof.Machine.exec (.armEnable c) s = .next t ∧ Answered 0x30 c (armEnableBody c (arrived s c))
      (arrived s c) t)
  ∧ (∀ c s, Admitted spDeblock none c s →
      ∃ t, Sys2Proof.Machine.exec (.deblock c) s = .next t ∧ Answered 0x31 c (deblockBody c (arrived s c))
      (arrived s c) t)
  ∧ (∀ c s, Admitted spBlock none c s →
      ∃ t, Sys2Proof.Machine.exec (.block c) s = .next t ∧ Answered 0x32 c (blockBody c (arrived s c)) (arrived
      s c) t)
  ∧ (∀ c s, Admitted spCleatAdd none c s →
      ∃ t, Sys2Proof.Machine.exec (.cleatAdd c) s = .next t ∧ Answered 0x33 c (cleatAddBody c (arrived s c))
      (arrived s c) t)
  ∧ (∀ c s, Admitted spCleatRelease none c s →
      ∃ t, Sys2Proof.Machine.exec (.cleatRelease c) s = .next t ∧ Answered 0x34 c (cleatReleaseBody c (arrived
      s c)) (arrived s c) t)
  ∧ (∀ c s, Admitted spMaintAdmit none c s →
      ∃ t, Sys2Proof.Machine.exec (.maintAdmit c) s = .next t ∧ Answered 0x35 c (maintAdmitBody c (arrived s
      c)) (arrived s c) t)
  ∧ (∀ c s, Admitted spMaintEnd none c s →
      ∃ t, Sys2Proof.Machine.exec (.maintEnd c) s = .next t ∧ Answered 0x36 c (maintEndBody c (arrived s c))
      (arrived s c) t)
  ∧ (∀ c s, Admitted spCellRetire none c s →
      ∃ t, Sys2Proof.Machine.exec (.cellRetire c) s = .next t ∧ Answered 0x37 c (cellRetireBody c (arrived s
      c)) (arrived s c) t)
  ∧ (∀ c s, Admitted spLoopMode none c s →
      ∃ t, Sys2Proof.Machine.exec (.loopMode c) s = .next t ∧ Answered 0x40 c (loopModeBody c (arrived s c))
      (arrived s c) t)
  ∧ (∀ c s, Admitted spTrajQueue none c s →
      ∃ t, Sys2Proof.Machine.exec (.trajQueue c) s = .next t ∧ Answered 0x41 c (trajQueueBody c (arrived s c))
      (arrived s c) t)
  ∧ (∀ c s, Admitted spTrajFlush none c s →
      ∃ t, Sys2Proof.Machine.exec (.trajFlush c) s = .next t ∧ Answered 0x42 c (trajFlushBody c (arrived s c))
      (arrived s c) t)
  ∧ (∀ c s, Admitted spAdcCalZero none c s →
      ∃ t, Sys2Proof.Machine.exec (.adcCalZero c) s = .next t ∧ Answered 0x50 c (adcCalBody 0x50 false c
      (arrived s c)) (arrived s c) t)
  ∧ (∀ c s, Admitted spAdcCalFull none c s →
      ∃ t, Sys2Proof.Machine.exec (.adcCalFull c) s = .next t ∧ Answered 0x51 c (adcCalBody 0x51 true c
      (arrived s c)) (arrived s c) t)
  ∧ (∀ c s, Admitted spAdcInject none c s →
      ∃ t, Sys2Proof.Machine.exec (.adcInject c) s = .next t ∧ Answered 0x52 c (adcInjectBody c (arrived s c))
      (arrived s c) t)
  ∧ (∀ c s, Admitted spDecSync none c s →
      ∃ t, Sys2Proof.Machine.exec (.decSync c) s = .next t ∧ Answered 0x53 c (decSyncBody c (arrived s c))
      (arrived s c) t)
  ∧ (∀ c s, Admitted spHomeStart none c s →
      ∃ t, Sys2Proof.Machine.exec (.homeStart c) s = .next t ∧ Answered 0x60 c (homeStartBody c (arrived s c))
      (arrived s c) t)
  ∧ (∀ c s, Admitted spHomeAbort none c s →
      ∃ t, Sys2Proof.Machine.exec (.homeAbort c) s = .next t ∧ Answered 0x61 c (homeAbortBody c (arrived s c))
      (arrived s c) t)
  ∧ (∀ c s, Admitted spCmpSelftest none c s →
      ∃ t, Sys2Proof.Machine.exec (.cmpSelftest c) s = .next t ∧ Answered 0x62 c (cmpSelftestBody c (arrived s
      c)) (arrived s c) t)
  ∧ (∀ c s, Admitted spFaultRead none c s →
      ∃ t, Sys2Proof.Machine.exec (.faultRead c) s = .next t ∧ Answered 0x70 c (faultReadBody c (arrived s c))
      (arrived s c) t)
  ∧ (∀ c s, Admitted spFaultClear none c s →
      ∃ t, Sys2Proof.Machine.exec (.faultClear c) s = .next t ∧ Answered 0x71 c (faultClearBody c (arrived s
      c)) (arrived s c) t)
  ∧ (∀ c s, Admitted spFaultAck none c s →
      ∃ t, Sys2Proof.Machine.exec (.faultAck c) s = .next t ∧ Answered 0x72 c (faultAckBody c (arrived s c))
      (arrived s c) t)
  ∧ (∀ c s, Admitted spFaultInject none c s →
      ∃ t, Sys2Proof.Machine.exec (.faultInject c) s = .next t ∧ Answered 0x73 c (faultInjectBody c (arrived s
      c)) (arrived s c) t)
  ∧ (∀ c s, Admitted spSafetyUnlock none c s →
      ∃ t, Sys2Proof.Machine.exec (.safetyUnlock c) s = .next t ∧ Answered 0x80 c (safetyUnlockBody c (arrived
      s c)) (arrived s c) t)
  ∧ (∀ c s, Admitted spSafetyWrite (safetyWriteOwn c) c s →
      ∃ t, Sys2Proof.Machine.exec (.safetyWrite c) s = .next t ∧ Answered 0x81 c (safetyWriteBody c (arrived s
      c)) (arrived s c) t)
  ∧ (∀ c s, Admitted spSafetyLogRead none c s →
      ∃ t, Sys2Proof.Machine.exec (.safetyLogRead c) s = .next t ∧ Answered 0x82 c (safetyLogReadBody c
      (arrived s c)) (arrived s c) t)
  ∧ (∀ c s, Admitted spSafetyLock none c s →
      ∃ t, Sys2Proof.Machine.exec (.safetyLock c) s = .next t ∧ Answered 0x83 c (safetyLockBody c (arrived s
      c)) (arrived s c) t)
  ∧ (∀ c s, Admitted spTakeover none c s →
      ∃ t, Sys2Proof.Machine.exec (.takeover c) s = .next t ∧ Answered 0x90 c (takeoverBody c (arrived s c))
      (arrived s c) t)
  ∧ (∀ c s, Admitted spSwitchback none c s →
      ∃ t, Sys2Proof.Machine.exec (.switchback c) s = .next t ∧ Answered 0x91 c (switchbackBody c (arrived s
      c)) (arrived s c) t)
  ∧ (∀ c s, Admitted spReelArm none c s →
      ∃ t, Sys2Proof.Machine.exec (.reelArm c) s = .next t ∧ Answered 0xA0 c (reelArmBody c (arrived s c))
      (arrived s c) t)
  ∧ (∀ c s, Admitted spReelRead none c s →
      ∃ t, Sys2Proof.Machine.exec (.reelRead c) s = .next t ∧ Answered 0xA1 c (reelReadBody c (arrived s c))
      (arrived s c) t)
  ∧ (∀ c s, Admitted spReelStop none c s →
      ∃ t, Sys2Proof.Machine.exec (.reelStop c) s = .next t ∧ Answered 0xA2 c (reelStopBody c (arrived s c))
      (arrived s c) t)
  ∧ (∀ c s, Admitted spTimeOffset none c s →
      ∃ t, Sys2Proof.Machine.exec (.timeOffset c) s = .next t ∧ Answered 0xB0 c (timeOffsetBody c (arrived s
      c)) (arrived s c) t)
  ∧ (∀ c s, Admitted spTimeStep none c s →
      ∃ t, Sys2Proof.Machine.exec (.timeStep c) s = .next t ∧ Answered 0xB1 c (timeStepBody c (arrived s c))
      (arrived s c) t)
  ∧ (∀ c s, Admitted spTimeRead none c s →
      ∃ t, Sys2Proof.Machine.exec (.timeRead c) s = .next t ∧ Answered 0xB2 c (timeReadBody c (arrived s c))
      (arrived s c) t)
  ∧ (∀ c s, Admitted spPowerState none c s →
      ∃ t, Sys2Proof.Machine.exec (.powerState c) s = .next t ∧ Answered 0xC0 c (powerStateBody c (arrived s
      c)) (arrived s c) t)
  ∧ (∀ c s, Admitted spTraceRead none c s →
      ∃ t, Sys2Proof.Machine.exec (.traceRead c) s = .next t ∧ Answered 0xD0 c (traceReadBody c (arrived s c))
      (arrived s c) t)
  ∧ (∀ c s, Admitted spFwPatch none c s →
      ∃ t, Sys2Proof.Machine.exec (.fwPatch c) s = .next t ∧ Answered 0xE0 c (fwPatchBody c (arrived s c))
      (arrived s c) t)
  ∧ (∀ c s, Admitted spFactoryUnlock none c s →
      ∃ t, Sys2Proof.Machine.exec (.factoryUnlock c) s = .next t ∧ Answered 0xE1 c (factoryUnlockBody c
      (arrived s c)) (arrived s c) t)
  ∧ (∀ c s, RowOk P.TRAJ_PRESET c s →
      ∃ t, Sys2Proof.Machine.exec (.trajPreset c) s = .next t
        ∧ RowDone P.TRAJ_PRESET c (setWord (rowFrom P.TRAJ_PRESET c s) P.TRAJ_PRESET (tgt c) (c.payload.getD 0
      0)) t)
  ∧ (∀ c s, RowOk P.ENC_PRESET c s →
      ∃ t, Sys2Proof.Machine.exec (.encPreset c) s = .next t
        ∧ RowDone P.ENC_PRESET c (setWord (rowFrom P.ENC_PRESET c s) P.ENC_PRESET (tgt c) (c.payload.getD 0 0)) t)
  ∧ (∀ c s, RowOk P.ENC_LATCH_CFG c s →
      ∃ t, Sys2Proof.Machine.exec (.encLatchCfg c) s = .next t
        ∧ RowDone P.ENC_LATCH_CFG c (setWord (rowFrom P.ENC_LATCH_CFG c s) P.ENC_LATCH_CFG (tgt c)
      (c.payload.getD 0 0)) t)
  ∧ (∀ c s, RowOk P.DISC_MT_START c s →
      ∃ t, Sys2Proof.Machine.exec (.discMtStart c) s = .next t
        ∧ RowDone P.DISC_MT_START c (setWord (rowFrom P.DISC_MT_START c s) P.DISC_MT_START (tgt c)
      (c.payload.getD 0 0)) t)
  ∧ (∀ c d s, d = { c with payload := 0 :: c.payload } → RowOk P.DISC_MT_START d s →
      ∃ t, Sys2Proof.Machine.exec (.discMtAbort c) s = .next t ∧ RowDone P.DISC_MT_START d (setWord (rowFrom
      P.DISC_MT_START d s) P.DISC_MT_START (tgt d) 0) t)
  ∧ (∀ c s, RowOk P.TALLY_EXPECT_ACT c s →
      ∃ t, Sys2Proof.Machine.exec (.tallyExpectAct c) s = .next t
        ∧ RowDone P.TALLY_EXPECT_ACT c (setWord (rowFrom P.TALLY_EXPECT_ACT c s) P.TALLY_EXPECT_ACT (tgt c)
      (c.payload.getD 0 0)) t)
  ∧ (∀ c s, RowOk P.TALLY_OLD_CLEAR c s →
      ∃ t, Sys2Proof.Machine.exec (.tallyOldClear c) s = .next t
        ∧ RowDone P.TALLY_OLD_CLEAR c (setWord (rowFrom P.TALLY_OLD_CLEAR c s) P.TALLY_OLD_CLEAR (tgt c)
      (c.payload.getD 0 0)) t)
  ∧ (∀ c s, RowOk P.CLT_EXCLUDE c s →
      ∃ t, Sys2Proof.Machine.exec (.cltExclude c) s = .next t
        ∧ RowDone P.CLT_EXCLUDE c (setWord (rowFrom P.CLT_EXCLUDE c s) P.CLT_EXCLUDE (tgt c) (c.payload.getD 0
      0)) t)
  ∧ (∀ c s, RowOk P.ADC_PT_START c s →
      ∃ t, Sys2Proof.Machine.exec (.adcPtStart c) s = .next t
        ∧ RowDone P.ADC_PT_START c (setWord (rowFrom P.ADC_PT_START c s) P.ADC_PT_START (tgt c) (c.payload.getD
      0 0)) t)
  ∧ (∀ c s, RowOk P.DEC_CFG c s →
      ∃ t, Sys2Proof.Machine.exec (.decCfg c) s = .next t
        ∧ RowDone P.DEC_CFG c (setWord (rowFrom P.DEC_CFG c s) P.DEC_CFG (tgt c) (c.payload.getD 0 0)) t)
  ∧ (∀ c s, RowOk P.TBUS_FORCE c s →
      ∃ t, Sys2Proof.Machine.exec (.tbusForce c) s = .next t
        ∧ RowDone P.TBUS_FORCE c (setWord (rowFrom P.TBUS_FORCE c s) P.TBUS_FORCE (tgt c) (c.payload.getD 0 0)) t)
  ∧ (∀ c s, RowOk P.CHOP_MODE c s →
      ∃ t, Sys2Proof.Machine.exec (.chopMode c) s = .next t
        ∧ RowDone P.CHOP_MODE c (setWord (rowFrom P.CHOP_MODE c s) P.CHOP_MODE (tgt c) (c.payload.getD 0 0)) t)
  ∧ (∀ c s, RowOk P.CHOP_FORCE c s →
      ∃ t, Sys2Proof.Machine.exec (.chopForce c) s = .next t
        ∧ RowDone P.CHOP_FORCE c (setWord (rowFrom P.CHOP_FORCE c s) P.CHOP_FORCE (tgt c) (c.payload.getD 0 0)) t)
  ∧ (∀ c s, RowOk P.PWR_LANE_EN c s →
      ∃ t, Sys2Proof.Machine.exec (.pwrLaneEn c) s = .next t
        ∧ RowDone P.PWR_LANE_EN c (setWord (rowFrom P.PWR_LANE_EN c s) P.PWR_LANE_EN (tgt c) (c.payload.getD 0
      0)) t)
  ∧ (∀ c s, RowOk P.FRM_HUB_HOLD_MAX c s →
      ∃ t, Sys2Proof.Machine.exec (.frmHubHoldMax c) s = .next t
        ∧ RowDone P.FRM_HUB_HOLD_MAX c (setWord (rowFrom P.FRM_HUB_HOLD_MAX c s) P.FRM_HUB_HOLD_MAX (tgt c)
      (c.payload.getD 0 0)) t)
  ∧ (∀ c s, RowOk P.STR_TRACE_CTRL c s →
      ∃ t, Sys2Proof.Machine.exec (.strTraceCtrl c) s = .next t
        ∧ RowDone P.STR_TRACE_CTRL c (setWord (rowFrom P.STR_TRACE_CTRL c s) P.STR_TRACE_CTRL (tgt c)
      (c.payload.getD 0 0)) t)
  ∧ (∀ c s, RowOk P.FLT_ERR_HOLD c s →
      ∃ t, Sys2Proof.Machine.exec (.fltErrHold c) s = .next t
        ∧ RowDone P.FLT_ERR_HOLD c (setWord (rowFrom P.FLT_ERR_HOLD c s) P.FLT_ERR_HOLD (tgt c) (c.payload.getD
      0 0)) t)

/-- Every row that is no command packet answers a next state whose tick is not below the one before, whatever its
operands and the state. A row of the logic that the core clock drives does so while that clock runs, and changes
nothing while it stands still; a row of the host port, the always-on logic or the belay does so with or without it.
(R9, R490) -/
def Obligations.EventsComplete : Prop :=
  (∀ (boards : List (Option (List Byte))) (again : List (Option (List Byte))) s, Clocked s
      (Sys2Proof.Machine.exec (.discoverDone boards again) s))
  ∧ (∀ (board : Option (List Byte)) (again : Option (List Byte)) s, Clocked s (Sys2Proof.Machine.exec
      (.readIdentityDone board again) s))
  ∧ (∀ s, Clocked s (Sys2Proof.Machine.exec .placeDone s))
  ∧ (∀ s, Clocked s (Sys2Proof.Machine.exec .cellConfigDone s))
  ∧ (∀ (lane : Fin 66) (received crcBad bitErrs losses : Word) s, Clocked s (Sys2Proof.Machine.exec
      (.laneLoopEnd lane received crcBad bitErrs losses) s))
  ∧ (∀ (points : List (BitVec 16)) s, Clocked s (Sys2Proof.Machine.exec (.eyeScanDone points) s))
  ∧ (∀ (cell : Fin 3072) s, Clocked s (Sys2Proof.Machine.exec (.cellRetireTimeout cell) s))
  ∧ (∀ (adc : Fin 2) s, Clocked s (Sys2Proof.Machine.exec (.adcCalZeroDone adc) s))
  ∧ (∀ (adc : Fin 2) s, Clocked s (Sys2Proof.Machine.exec (.adcCalFullDone adc) s))
  ∧ (∀ (axis : Fin 2) s, Clocked s (Sys2Proof.Machine.exec (.homingDone axis) s))
  ∧ (∀ (leg : Fin 4) (steps : BitVec 3) s, Clocked s (Sys2Proof.Machine.exec (.cmpSelftestDone leg steps) s))
  ∧ (∀ s, Clocked s (Sys2Proof.Machine.exec .fwPatchDone s))
  ∧ (∀ s, Clocked s (Sys2Proof.Machine.exec .hostSilent s))
  ∧ (∀ s, Clocked s (Sys2Proof.Machine.exec .mtWindowEnd s))
  ∧ (∀ (kind : Fin 3) s, Clocked s (Sys2Proof.Machine.exec (.tallyPersistExpiry kind) s))
  ∧ (∀ s, Clocked s (Sys2Proof.Machine.exec .pathTestDone s))
  ∧ (∀ (pulse0 pulse1 : List Nat) s, Clocked s (Sys2Proof.Machine.exec (.periodMark pulse0 pulse1) s))
  ∧ (∀ s, Clocked s (Sys2Proof.Machine.exec .dispatchResume s))
  ∧ (∀ s, Clocked s (Sys2Proof.Machine.exec .resumeTimeout s))
  ∧ (∀ s, Clocked s (Sys2Proof.Machine.exec .takeoverWindowEnd s))
  ∧ (∀ (header : PeerHeader) (crc : Word) s, Clocked s (Sys2Proof.Machine.exec (.peerHeartbeat header crc) s))
  ∧ (∀ (frame : PeerData) s, Clocked s (Sys2Proof.Machine.exec (.peerDataFrame frame) s))
  ∧ (∀ (frame : UpFrame) s, Clocked s (Sys2Proof.Machine.exec (.upstreamFrame frame) s))
  ∧ (∀ (lane : Fin 64) s, Clocked s (Sys2Proof.Machine.exec (.upstreamFrameDeadline lane) s))
  ∧ (∀ (cell : Fin 3072) s, Clocked s (Sys2Proof.Machine.exec (.cellSilenceSuspect cell) s))
  ∧ (∀ (entry : Fin 32) s, Clocked s (Sys2Proof.Machine.exec (.cleatRetryWindowEnd entry) s))
  ∧ (∀ (entry : Fin 32) s, Clocked s (Sys2Proof.Machine.exec (.cleatEntryFree entry) s))
  ∧ (∀ (slot : Fin 16) s, Clocked s (Sys2Proof.Machine.exec (.activityFree slot) s))
  ∧ (∀ (cell : Fin 3072) s, Clocked s (Sys2Proof.Machine.exec (.permConfirmTimeout cell) s))
  ∧ (∀ (cell : Fin 3072) s, Clocked s (Sys2Proof.Machine.exec (.permBypassRetry cell) s))
  ∧ (∀ s, Clocked s (Sys2Proof.Machine.exec .taskPlace s))
  ∧ (∀ (strand : Fin 8) s, Clocked s (Sys2Proof.Machine.exec (.taskComplete strand) s))
  ∧ (∀ (slot : Fin 256) s, Clocked s (Sys2Proof.Machine.exec (.taskDeadline slot) s))
  ∧ (∀ (strand : Fin 8) s, Clocked s (Sys2Proof.Machine.exec (.taskWatchdog strand) s))
  ∧ (∀ (strand : Fin 8) (corrected : Bool) s, Clocked s (Sys2Proof.Machine.exec (.strandSramError strand
      corrected) s))
  ∧ (∀ (lane : Fin 66) (rx : Rx) s, Clocked s (Sys2Proof.Machine.exec (.detectDone lane rx) s))
  ∧ (∀ (lane : Fin 66) (eq : BitVec 4) (clean : Nat) s, Clocked s (Sys2Proof.Machine.exec (.trainDone lane eq
      clean) s))
  ∧ (∀ (lane : Fin 66) (rx : Rx) s, Clocked s (Sys2Proof.Machine.exec (.lockDone lane rx) s))
  ∧ (∀ (lane : Fin 66) (hubGen : BitVec 2) (mask : BitVec 48) (cellGens : List (BitVec 2)) (selectOk : Bool)
      (activePort : BitVec 2) s, Clocked s (Sys2Proof.Machine.exec (.capsDone lane hubGen mask cellGens selectOk activePort) s))
  ∧ (∀ (lane : Fin 66) s, Clocked s (Sys2Proof.Machine.exec (.bringupStageTimeout lane) s))
  ∧ (∀ (lane : Fin 66) (scanned : List (BitVec 16)) (rx : Rx) s, Clocked s (Sys2Proof.Machine.exec (.lossOfLock
      lane scanned rx) s))
  ∧ (∀ (lane : Fin 66) s, Clocked s (Sys2Proof.Machine.exec (.rebringupRetry lane) s))
  ∧ (∀ (lane : Fin 66) s, Clocked s (Sys2Proof.Machine.exec (.retryWindowEnd lane) s))
  ∧ (∀ (lane : Fin 66) s, Clocked s (Sys2Proof.Machine.exec (.laneErrorWindowEnd lane) s))
  ∧ (∀ (entry : Fin 256) s, Clocked s (Sys2Proof.Machine.exec (.graceExpiry entry) s))
  ∧ (∀ s, Clocked s (Sys2Proof.Machine.exec .errPulseEnd s))
  ∧ (∀ (leg : Fin 4) (cmp : BitVec 4) s, Clocked s (Sys2Proof.Machine.exec (.chopCycleStart leg cmp) s))
  ∧ (∀ (leg : Fin 4) (edge : Fin 4) (cmp : BitVec 4) s, Clocked s (Sys2Proof.Machine.exec (.chopGateEdge leg
      edge cmp) s))
  ∧ (∀ (leg : Fin 4) s, Clocked s (Sys2Proof.Machine.exec (.chopTripRecognised leg) s))
  ∧ (∀ (leg : Fin 4) s, Clocked s (Sys2Proof.Machine.exec (.chopTripReleased leg) s))
  ∧ (∀ (leg : Fin 4) s, Clocked s (Sys2Proof.Machine.exec (.chopBlankingEnd leg) s))
  ∧ (∀ (leg : Fin 4) (held : Nat) s, Clocked s (Sys2Proof.Machine.exec (.chopScConfirm leg held) s))
  ∧ (∀ (cmp : BitVec 4) s, Clocked s (Sys2Proof.Machine.exec (.chopScWindowEnd cmp) s))
  ∧ (∀ (leg : Fin 4) (low : Bool) s, Clocked s (Sys2Proof.Machine.exec (.gateSupplyNotOk leg low) s))
  ∧ (∀ (leg : Fin 4) (low : Bool) s, Clocked s (Sys2Proof.Machine.exec (.gateSupplyOk leg low) s))
  ∧ (∀ (adc : Fin 2) (seq : Fin 9) s, Clocked s (Sys2Proof.Machine.exec (.adcSequenceTrigger adc seq) s))
  ∧ (∀ (adc : Fin 2) (raw : BitVec 16) s, Clocked s (Sys2Proof.Machine.exec (.adcConversionEnd adc raw) s))
  ∧ (∀ (channel : Fin 16) (bits : List Bool) s, Clocked s (Sys2Proof.Machine.exec (.decSlot channel bits) s))
  ∧ (∀ (channel : Fin 16) s, Clocked s (Sys2Proof.Machine.exec (.decStuck channel) s))
  ∧ (∀ s, Clocked s (Sys2Proof.Machine.exec .dsyncFall s))
  ∧ (∀ (axis : Fin 2) (a b z home : List Bool) s, Clocked s (Sys2Proof.Machine.exec (.encTransition axis a b z
      home) s))
  ∧ (∀ (axis : Fin 2) s, Clocked s (Sys2Proof.Machine.exec (.encIllegalWindowEnd axis) s))
  ∧ (∀ (axis : Fin 2) (neg : Bool) (held : Nat) s, Clocked s (Sys2Proof.Machine.exec (.encLimitTrip axis neg
      held) s))
  ∧ (∀ (axis : Fin 2) (held : Nat) s, Clocked s (Sys2Proof.Machine.exec (.encHomeActive axis held) s))
  ∧ (∀ s, Clocked s (Sys2Proof.Machine.exec .timeHoldoverExpiry s))
  ∧ (∀ (line : Fin 4) s, Clocked s (Sys2Proof.Machine.exec (.tbusFall line) s))
  ∧ (∀ (line : Fin 4) s, Clocked s (Sys2Proof.Machine.exec (.tbusPulseEnd line) s))
  ∧ (∀ s, Clocked s (Sys2Proof.Machine.exec .reelPostEnd s))
  ∧ (∀ (pass : Bool) (strandsBad : BitVec 4) s, Clocked s (Sys2Proof.Machine.exec (.dispatchTestDone pass
      strandsBad) s))
  ∧ (∀ s, Clocked s (Sys2Proof.Machine.exec .runToReady s))
  ∧ (∀ (quad : Fin 4) s, Clocked s (Sys2Proof.Machine.exec (.lanePllLoss quad) s))
  ∧ (∀ (axis : Fin 2) (neg : Bool) (held : Nat) s, Clocked s (Sys2Proof.Machine.exec (.encLimitInactive axis
      neg held) s))
  ∧ (∀ (line : Fin 4) s, Clocked s (Sys2Proof.Machine.exec (.tbusRisingEdge line) s))
  ∧ (∀ (unit : Fin 4) s, Clocked s (Sys2Proof.Machine.exec (.triggerUnitTimeout unit) s))
  ∧ (∀ s, Clocked s (Sys2Proof.Machine.exec .tickWrap s))
  ∧ (∀ (port : Port) s, ∃ t, Sys2Proof.Machine.exec (.packetTake port) s = .next t ∧ s.tick ≤ t.tick)
  ∧ (∀ (words : List Word) s, ∃ t, Sys2Proof.Machine.exec (.writePacket words) s = .next t ∧ s.tick ≤ t.tick)
  ∧ (∀ (words : Nat) s, ∃ t, Sys2Proof.Machine.exec (.readReply words) s = .next t ∧ s.tick ≤ t.tick)
  ∧ (∀ s, ∃ t, Sys2Proof.Machine.exec .readStatus s = .next t ∧ s.tick ≤ t.tick)
  ∧ (∀ (words : List Word) (value : Word) s, ∃ t, Sys2Proof.Machine.exec (.cmdTailWrite words value) s = .next
      t ∧ s.tick ≤ t.tick)
  ∧ (∀ (value : Word) s, ∃ t, Sys2Proof.Machine.exec (.rplHeadWrite value) s = .next t ∧ s.tick ≤ t.tick)
  ∧ (∀ (value : Word) s, ∃ t, Sys2Proof.Machine.exec (.irqCauseWrite value) s = .next t ∧ s.tick ≤ t.tick)
  ∧ (∀ (value : Word) s, ∃ t, Sys2Proof.Machine.exec (.msiEnableWrite value) s = .next t ∧ s.tick ≤ t.tick)
  ∧ (∀ (offset : BitVec 18) (value : Word) s, ∃ t, Sys2Proof.Machine.exec (.bar0Write offset value) s = .next t
      ∧ s.tick ≤ t.tick)
  ∧ (∀ (offset : BitVec 14) (value : Word) s, ∃ t, Sys2Proof.Machine.exec (.bar2RoWrite offset value) s = .next
      t ∧ s.tick ≤ t.tick)
  ∧ (∀ s, ∃ t, Sys2Proof.Machine.exec .pcieReset s = .next t ∧ s.tick ≤ t.tick)
  ∧ (∀ s, ∃ t, Sys2Proof.Machine.exec .pcieLinkDown s = .next t ∧ s.tick ≤ t.tick)
  ∧ (∀ (a b : BitVec 8) (srstHigh tripA tripB injection : Bool) s, ∃ t, Sys2Proof.Machine.exec (.belaySample a
      b srstHigh tripA tripB injection) s = .next t ∧ s.tick ≤ t.tick)
  ∧ (∀ (output : Fin 4) s, ∃ t, Sys2Proof.Machine.exec (.testPulseStart output) s = .next t ∧ s.tick ≤ t.tick)
  ∧ (∀ (output : Fin 4) s, ∃ t, Sys2Proof.Machine.exec (.testPulseEnd output) s = .next t ∧ s.tick ≤ t.tick)
  ∧ (∀ s, ∃ t, Sys2Proof.Machine.exec .srstStuck s = .next t ∧ s.tick ≤ t.tick)
  ∧ (∀ s, ∃ t, Sys2Proof.Machine.exec .heartbeatTimeout s = .next t ∧ s.tick ≤ t.tick)
  ∧ (∀ (current : Bool) s, ∃ t, Sys2Proof.Machine.exec (.fdcStaleTimeout current) s = .next t ∧ s.tick ≤ t.tick)
  ∧ (∀ (count : Nat) s, ∃ t, Sys2Proof.Machine.exec (.belayClockCheck count) s = .next t ∧ s.tick ≤ t.tick)
  ∧ (∀ (low : Bool) (rc : Nat) s, ∃ t, Sys2Proof.Machine.exec (.belayReset low rc) s = .next t ∧ s.tick ≤ t.tick)
  ∧ (∀ (ok : Nat) (rc : Nat) s, ∃ t, Sys2Proof.Machine.exec (.belayResetRelease ok rc) s = .next t ∧ s.tick ≤
      t.tick)
  ∧ (∀ s, ∃ t, Sys2Proof.Machine.exec .safetySessionTimeout s = .next t ∧ s.tick ≤ t.tick)
  ∧ (∀ s, ∃ t, Sys2Proof.Machine.exec .unlockBackoffEnd s = .next t ∧ s.tick ≤ t.tick)
  ∧ (∀ (testmode : Bool) s, ∃ t, Sys2Proof.Machine.exec (.porstRelease testmode) s = .next t ∧ s.tick ≤ t.tick)
  ∧ (∀ (supervisor : Bool) s, ∃ t, Sys2Proof.Machine.exec (.porstAssert supervisor) s = .next t ∧ s.tick ≤ t.tick)
  ∧ (∀ (wakeLow : Bool) s, ∃ t, Sys2Proof.Machine.exec (.listenEntry wakeLow) s = .next t ∧ s.tick ≤ t.tick)
  ∧ (∀ (testmode : Bool) s, ∃ t, Sys2Proof.Machine.exec (.wakeNLow testmode) s = .next t ∧ s.tick ≤ t.tick)
  ∧ (∀ s, ∃ t, Sys2Proof.Machine.exec .dormantEntry s = .next t ∧ s.tick ≤ t.tick)
  ∧ (∀ s, ∃ t, Sys2Proof.Machine.exec .xtalSwitch s = .next t ∧ s.tick ≤ t.tick)
  ∧ (∀ s, ∃ t, Sys2Proof.Machine.exec .xtalFail s = .next t ∧ s.tick ≤ t.tick)
  ∧ (∀ s, ∃ t, Sys2Proof.Machine.exec .corePllLock s = .next t ∧ s.tick ≤ t.tick)
  ∧ (∀ (sram rom belayClock tripBack : Bool) (strandsBad : BitVec 4) s, ∃ t, Sys2Proof.Machine.exec (.bistDone
      sram rom belayClock tripBack strandsBad) s = .next t ∧ s.tick ≤ t.tick)
  ∧ (∀ (quad : Fin 4) s, ∃ t, Sys2Proof.Machine.exec (.lanePllLock quad) s = .next t ∧ s.tick ≤ t.tick)
  ∧ (∀ s, ∃ t, Sys2Proof.Machine.exec .corePllLoss s = .next t ∧ s.tick ≤ t.tick)
  ∧ (∀ (offset : BitVec 18) (wide : Bool) s, ∃ t, Sys2Proof.Machine.exec (.bar0Read offset wide) s = .next t ∧
      s.tick ≤ t.tick)
  ∧ (∀ s, ∃ t, Sys2Proof.Machine.exec .belaySramError s = .next t ∧ s.tick ≤ t.tick)
end

