-- ==== Sys2Proof/Laws/State.lean ====
section
/-! SUPPORT. Small lemmas about the sparse tables and the state's named updates: what each reads back, and that each
keeps everything else. -/

namespace Sys2Proof.Machine

/-! ### Tables -/

theorem tabGet_nil {α : Type} (d : α) (i : Nat) : tabGet d [] i = d := rfl

/-- Reading after listing a value. -/
theorem tabGet_tabIns {α : Type} (d : α) (t : Tab α) (i j : Nat) (x : α) :
    tabGet d (tabIns t i x) j = if i = j then x else tabGet d t j := by
  induction t with
  | nil => simp [tabIns, tabGet]
  | cons p t ih =>
    obtain ⟨k, v⟩ := p
    simp only [tabIns]
    split
    · subst k
      simp only [tabGet]
      split <;> rfl
    · split
      · simp only [tabGet]
      · simp only [tabGet, ih]
        by_cases h1 : k = j <;> by_cases h2 : i = j <;> simp_all

/-- Reading after removing an index. -/
theorem tabGet_tabDel {α : Type} (d : α) (t : Tab α) (i j : Nat) :
    tabGet d (tabDel t i) j = if i = j then d else tabGet d t j := by
  induction t with
  | nil => simp [tabDel, tabGet]
  | cons p t ih =>
    obtain ⟨k, v⟩ := p
    simp only [tabDel]
    split
    · subst k
      rw [ih]
      simp only [tabGet]
      split <;> rfl
    · simp only [tabGet, ih]
      by_cases h1 : k = j <;> by_cases h2 : i = j <;> simp_all

/-- Reading after a write. -/
theorem tabGet_tabSet {α : Type} [DecidableEq α] (d : α) (t : Tab α) (i j : Nat) (x : α) :
    tabGet d (tabSet d t i x) j = if i = j then x else tabGet d t j := by
  unfold tabSet
  split
  · subst x
    exact tabGet_tabDel d t i j
  · exact tabGet_tabIns d t i j x

@[simp] theorem tabGet_tabSet_same {α : Type} [DecidableEq α] (d : α) (t : Tab α) (i : Nat) (x : α) :
    tabGet d (tabSet d t i x) i = x := by
  simp [tabGet_tabSet]

theorem tabGet_tabSet_ne {α : Type} [DecidableEq α] (d : α) (t : Tab α) (i j : Nat) (x : α) (h : i ≠ j) :
    tabGet d (tabSet d t i x) j = tabGet d t j := by
  simp [tabGet_tabSet, h]

/-- Reading after an update. -/
theorem tabGet_tabUpd {α : Type} [DecidableEq α] (d : α) (t : Tab α) (i j : Nat) (f : α → α) :
    tabGet d (tabUpd d t i f) j = if i = j then f (tabGet d t i) else tabGet d t j :=
  tabGet_tabSet d t i j _

@[simp] theorem tabGet_tabUpd_same {α : Type} [DecidableEq α] (d : α) (t : Tab α) (i : Nat) (f : α → α) :
    tabGet d (tabUpd d t i f) i = f (tabGet d t i) :=
  tabGet_tabSet_same d t i _

theorem tabGet_tabUpd_ne {α : Type} [DecidableEq α] (d : α) (t : Tab α) (i j : Nat) (f : α → α) (h : i ≠ j) :
    tabGet d (tabUpd d t i f) j = tabGet d t j :=
  tabGet_tabSet_ne d t i j _ h

/-- Reading after a run of writes. -/
theorem tabGet_tabRun {α : Type} [DecidableEq α] (d : α) (t : Tab α) (i j : Nat) (xs : List α) :
    tabGet d (tabRun d t i xs) j = if i ≤ j ∧ j < i + xs.length then xs.getD (j - i) d else tabGet d t j := by
  induction xs generalizing t i with
  | nil => rw [tabRun, if_neg (by simp only [List.length_nil]; omega)]
  | cons x xs ih =>
    simp only [tabRun, ih, tabGet_tabSet, List.length_cons]
    by_cases h : i = j
    · subst h
      rw [if_neg (by omega), if_pos rfl, if_pos (by omega)]
      simp
    · by_cases h1 : i ≤ j ∧ j < i + (xs.length + 1)
      · rw [if_pos (by omega), if_pos h1, show j - i = (j - (i + 1)) + 1 by omega, List.getD_cons_succ]
      · rw [if_neg (by omega), if_neg h1, if_neg h]

/-- Words of a table just written. -/
theorem tableWords_putTable (s : State) (num : Nat) (ws : List Word) :
    tableWords (putTable s num 0 ws) num 0 ws.length = ws := by
  apply List.ext_getElem
  · simp [tableWords]
  · intro k h1 h2
    simp only [tableWords, tableWord, putTable, List.getElem_map, List.getElem_range, tabGet_tabRun]
    rw [if_pos (by omega), show num * 65536 + (0 + k) - (num * 65536 + 0) = k by omega]
    simp [h2]

/-- A lower bound may be lowered. -/
theorem tabWfFrom_mono {α : Type} [DecidableEq α] (d : α) (b c : Nat) (t : Tab α) (h : c ≤ b)
    (w : tabWfFrom d b t = true) : tabWfFrom d c t = true := by
  cases t with
  | nil => rfl
  | cons p t =>
    obtain ⟨k, v⟩ := p
    simp only [tabWfFrom, Bool.and_eq_true, decide_eq_true_eq] at w ⊢
    exact ⟨⟨Nat.le_trans h w.1.1, w.1.2⟩, w.2⟩

theorem tabWfFrom_tabDel {α : Type} [DecidableEq α] (d : α) (b : Nat) (t : Tab α) (i : Nat)
    (w : tabWfFrom d b t = true) : tabWfFrom d b (tabDel t i) = true := by
  induction t generalizing b with
  | nil => rfl
  | cons p t ih =>
    obtain ⟨k, v⟩ := p
    simp only [tabWfFrom, Bool.and_eq_true, decide_eq_true_eq] at w
    simp only [tabDel]
    split
    · exact tabWfFrom_mono d (k + 1) b _ (by omega) (ih _ w.2)
    · simp only [tabWfFrom, Bool.and_eq_true, decide_eq_true_eq]
      exact ⟨w.1, ih _ w.2⟩

theorem tabWfFrom_tabIns {α : Type} [DecidableEq α] (d : α) (b : Nat) (t : Tab α) (i : Nat) (x : α) (hx : x ≠ d)
    (hb : b ≤ i) (w : tabWfFrom d b t = true) : tabWfFrom d b (tabIns t i x) = true := by
  induction t generalizing b with
  | nil => simp [tabIns, tabWfFrom, hx, hb]
  | cons p t ih =>
    obtain ⟨k, v⟩ := p
    simp only [tabWfFrom, Bool.and_eq_true, decide_eq_true_eq] at w
    simp only [tabIns]
    split
    · subst k
      simp [tabWfFrom, hx, hb, w.2]
    · split
      · simp only [tabWfFrom, Bool.and_eq_true, decide_eq_true_eq]
        exact ⟨⟨hb, hx⟩, ⟨by omega, w.1.2⟩, w.2⟩
      · simp only [tabWfFrom, Bool.and_eq_true, decide_eq_true_eq]
        exact ⟨w.1, ih _ (by omega) w.2⟩

/-- A write keeps the canonical form. -/
theorem tabWf_tabSet {α : Type} [DecidableEq α] (d : α) (t : Tab α) (i : Nat) (x : α) (w : tabWf d t = true) :
    tabWf d (tabSet d t i x) = true := by
  unfold tabSet
  split
  · exact tabWfFrom_tabDel d 0 t i w
  · rename_i h
    exact tabWfFrom_tabIns d 0 t i x h (Nat.zero_le _) w

/-- An update keeps the canonical form. -/
theorem tabWf_tabUpd {α : Type} [DecidableEq α] (d : α) (t : Tab α) (i : Nat) (f : α → α) (w : tabWf d t = true) :
    tabWf d (tabUpd d t i f) = true :=
  tabWf_tabSet d t i _ w

/-- A run of writes keeps the canonical form. -/
theorem tabWf_tabRun {α : Type} [DecidableEq α] (d : α) (t : Tab α) (i : Nat) (xs : List α) (w : tabWf d t = true) :
    tabWf d (tabRun d t i xs) = true := by
  induction xs generalizing t i with
  | nil => exact w
  | cons x xs ih => exact ih _ _ (tabWf_tabSet d t i x w)

/-- Changing every listed value keeps the canonical form. -/
theorem tabWfFrom_tabMap {α : Type} [DecidableEq α] (d : α) (f : Nat → α → α) (b : Nat) (t : Tab α)
    (w : tabWfFrom d b t = true) : tabWfFrom d b (tabMap d f t) = true := by
  induction t generalizing b with
  | nil => rfl
  | cons p t ih =>
    obtain ⟨k, v⟩ := p
    simp only [tabWfFrom, Bool.and_eq_true, decide_eq_true_eq] at w
    simp only [tabMap]
    split
    · exact tabWfFrom_mono d (k + 1) b _ (by omega) (ih _ w.2)
    · rename_i h
      simp only [tabWfFrom, Bool.and_eq_true, decide_eq_true_eq]
      exact ⟨⟨w.1.1, h⟩, ih _ w.2⟩

/-- Keeping some entries keeps the canonical form. -/
theorem tabWfFrom_tabFilter {α : Type} [DecidableEq α] (d : α) (p : Nat → α → Bool) (b : Nat) (t : Tab α)
    (w : tabWfFrom d b t = true) : tabWfFrom d b (tabFilter p t) = true := by
  induction t generalizing b with
  | nil => rfl
  | cons q t ih =>
    obtain ⟨k, v⟩ := q
    simp only [tabWfFrom, Bool.and_eq_true, decide_eq_true_eq] at w
    simp only [tabFilter]
    split
    · simp only [tabWfFrom, Bool.and_eq_true, decide_eq_true_eq]
      exact ⟨w.1, ih _ w.2⟩
    · exact tabWfFrom_mono d (k + 1) b _ (by omega) (ih _ w.2)

/-! ### Parameters -/

/-- Keys of different parameters differ. -/
theorem pkey_ne (id t id' t' : Nat) (h : id ≠ id') : pkey id t ≠ pkey id' t' := by
  unfold pkey
  omega

theorem pkey_inj (id t id' t' : Nat) (ht : t < 65536) (ht' : t' < 65536) :
    pkey id t = pkey id' t' ↔ id = id' ∧ t = t' := by
  unfold pkey
  omega

theorem getP_putP (s : State) (id t id' t' : Nat) (w : Word) :
    getP (putP s id t w) id' t' = if pkey id t = pkey id' t' then w else getP s id' t' := by
  unfold getP putP
  by_cases h : pkey id t = pkey id' t'
  · simp [h]
  · simp [h, tabGet_tabSet_other _ _ _ _ _ _ h]
where
  /-- The default read by another index plays no part. -/
  tabGet_tabSet_other {α : Type} [DecidableEq α] (d d' : α) (t : Tab α) (i j : Nat) (x : α) (h : i ≠ j) :
      tabGet d' (tabSet d t i x) j = tabGet d' t j := by
    unfold tabSet
    split
    · rw [tabGet_tabDel, if_neg h]
    · rw [tabGet_tabIns, if_neg h]

@[simp] theorem getP_putP_same (s : State) (id t : Nat) (w : Word) : getP (putP s id t w) id t = w := by
  simp [getP_putP]

theorem getP_putP_ne (s : State) (id t id' t' : Nat) (w : Word) (h : id ≠ id') :
    getP (putP s id t w) id' t' = getP s id' t' := by
  simp [getP_putP, pkey_ne id t id' t' h]

/-! ### Frames -/

/-- What may change under `B` may change under `A`. -/
def covers (A : List Fld) (ai : List Nat) (B : List Fld) (bi : List Nat) : Bool :=
  B.all A.contains && (A.contains .params || bi.all ai.contains)

theorem Keeps.refl {fs : List Fld} {ids : List Nat} (s : State) : Keeps fs ids s s :=
  ⟨fun g _ _ => by cases g <;> rfl, fun _ => ⟨fun _ _ _ => rfl, fun _ => rfl⟩⟩

theorem Fld.same_trans {g : Fld} {s t u : State} (h : g.same s t) (k : g.same t u) : g.same s u := by
  cases g <;> exact Eq.trans k h

theorem Keeps.trans {fs : List Fld} {ids : List Nat} {s t u : State} (h : Keeps fs ids s t) (k : Keeps fs ids t u) :
    Keeps fs ids s u :=
  ⟨fun g hp hg => Fld.same_trans (h.1 g hp hg) (k.1 g hp hg),
    fun hp => ⟨fun id x hi => ((k.2 hp).1 id x hi).trans ((h.2 hp).1 id x hi),
      fun hn => ((k.2 hp).2 hn).trans ((h.2 hp).2 hn)⟩⟩

theorem Keeps.mono {A B : List Fld} {ai bi : List Nat} {s t : State} (h : Keeps B bi s t)
    (hc : covers A ai B bi = true) : Keeps A ai s t := by
  unfold covers at hc
  simp only [Bool.and_eq_true, Bool.or_eq_true, List.all_eq_true] at hc
  have hB : ∀ g : Fld, A.contains g = false → B.contains g = false := by
    intro g hg
    cases hb : B.contains g with
    | false => rfl
    | true => exact absurd (hc.1 g (by simpa using hb)) (by rw [hg]; simp)
  refine ⟨fun g hp hg => h.1 g hp (hB g hg), fun hp => ?_⟩
  have h2 := h.2 (hB _ hp)
  have hi : ∀ x ∈ bi, ai.contains x = true := by
    rcases hc.2 with q | q
    · rw [hp] at q
      exact absurd q (by simp)
    · exact q
  refine ⟨fun id k hk => h2.1 id k ?_, fun hn => h2.2 ?_⟩
  · cases hb : bi.contains id with
    | false => rfl
    | true => exact absurd (hi id (by simpa using hb)) (by rw [hk]; simp)
  · subst hn
    cases bi with
    | nil => rfl
    | cons x l => exact absurd (hi x (by simp)) (by simp)

/-- One more operation. -/
theorem Keeps.step {A B : List Fld} {ai bi : List Nat} {r s t : State} (k : Keeps B bi s t) (h : Keeps A ai r s)
    (hc : covers A ai B bi = true) : Keeps A ai r t :=
  h.trans (k.mono hc)

theorem Keeps.foldl {A : List Fld} {ai : List Nat} {α : Type} {r s : State} {f : State → α → State} {l : List α}
    (h : Keeps A ai r s) (hf : ∀ x a, Keeps A ai r x → Keeps A ai r (f x a)) : Keeps A ai r (l.foldl f s) := by
  induction l generalizing s with
  | nil => exact h
  | cons a l ih => exact ih (hf s a h)

/-- A field that is not listed. -/
theorem Keeps.fld {fs : List Fld} {ids : List Nat} {s t : State} (h : Keeps fs ids s t) (g : Fld)
    (hp : g ≠ .params := by decide) (hg : fs.contains g = false := by decide) : g.same s t :=
  h.1 g hp hg

/-- A parameter that is not listed. -/
theorem Keeps.param {fs : List Fld} {ids : List Nat} {s t : State} (h : Keeps fs ids s t) (id k : Nat)
    (hp : fs.contains .params = false := by decide) (hi : ids.contains id = false := by decide) :
    getP t id k = getP s id k :=
  (h.2 hp).1 id k hi

theorem Keeps.tick {fs : List Fld} {ids : List Nat} {s t : State} (h : Keeps fs ids s t)
    (hg : fs.contains .tick = false := by decide) : t.tick = s.tick :=
  h.1 .tick (by decide) hg

theorem Keeps.params {fs : List Fld} {s t : State} (h : Keeps fs [] s t)
    (hg : fs.contains .params = false := by decide) : t.params = s.params :=
  (h.2 hg).2 rfl

theorem Keeps.staged {fs : List Fld} {ids : List Nat} {s t : State} (h : Keeps fs ids s t)
    (hg : fs.contains .staged = false := by decide) : t.staged = s.staged :=
  h.1 .staged (by decide) hg

theorem Keeps.gain {fs : List Fld} {ids : List Nat} {s t : State} (h : Keeps fs ids s t)
    (hg : fs.contains .gain = false := by decide) : t.gain = s.gain :=
  h.1 .gain (by decide) hg

theorem Keeps.armedG {fs : List Fld} {ids : List Nat} {s t : State} (h : Keeps fs ids s t)
    (hg : fs.contains .armedG = false := by decide) : t.armedG = s.armedG :=
  h.1 .armedG (by decide) hg

theorem Keeps.tables {fs : List Fld} {ids : List Nat} {s t : State} (h : Keeps fs ids s t)
    (hg : fs.contains .tables = false := by decide) : t.tables = s.tables :=
  h.1 .tables (by decide) hg

theorem Keeps.ops {fs : List Fld} {ids : List Nat} {s t : State} (h : Keeps fs ids s t)
    (hg : fs.contains .ops = false := by decide) : t.ops = s.ops :=
  h.1 .ops (by decide) hg

theorem Keeps.host {fs : List Fld} {ids : List Nat} {s t : State} (h : Keeps fs ids s t)
    (hg : fs.contains .host = false := by decide) : t.host = s.host :=
  h.1 .host (by decide) hg

theorem Keeps.pwr {fs : List Fld} {ids : List Nat} {s t : State} (h : Keeps fs ids s t)
    (hg : fs.contains .pwr = false := by decide) : t.pwr = s.pwr :=
  h.1 .pwr (by decide) hg

theorem Keeps.flt {fs : List Fld} {ids : List Nat} {s t : State} (h : Keeps fs ids s t)
    (hg : fs.contains .flt = false := by decide) : t.flt = s.flt :=
  h.1 .flt (by decide) hg

theorem Keeps.time {fs : List Fld} {ids : List Nat} {s t : State} (h : Keeps fs ids s t)
    (hg : fs.contains .time = false := by decide) : t.time = s.time :=
  h.1 .time (by decide) hg

theorem Keeps.per {fs : List Fld} {ids : List Nat} {s t : State} (h : Keeps fs ids s t)
    (hg : fs.contains .per = false := by decide) : t.per = s.per :=
  h.1 .per (by decide) hg

theorem Keeps.capWords {fs : List Fld} {ids : List Nat} {s t : State} (h : Keeps fs ids s t)
    (hg : fs.contains .capWords = false := by decide) : t.capWords = s.capWords :=
  h.1 .capWords (by decide) hg

theorem Keeps.arms {fs : List Fld} {ids : List Nat} {s t : State} (h : Keeps fs ids s t)
    (hg : fs.contains .arms = false := by decide) : t.arms = s.arms :=
  h.1 .arms (by decide) hg

theorem Keeps.cells {fs : List Fld} {ids : List Nat} {s t : State} (h : Keeps fs ids s t)
    (hg : fs.contains .cells = false := by decide) : t.cells = s.cells :=
  h.1 .cells (by decide) hg

theorem Keeps.lanes {fs : List Fld} {ids : List Nat} {s t : State} (h : Keeps fs ids s t)
    (hg : fs.contains .lanes = false := by decide) : t.lanes = s.lanes :=
  h.1 .lanes (by decide) hg

theorem Keeps.cleat {fs : List Fld} {ids : List Nat} {s t : State} (h : Keeps fs ids s t)
    (hg : fs.contains .cleat = false := by decide) : t.cleat = s.cleat :=
  h.1 .cleat (by decide) hg

theorem Keeps.str {fs : List Fld} {ids : List Nat} {s t : State} (h : Keeps fs ids s t)
    (hg : fs.contains .str = false := by decide) : t.str = s.str :=
  h.1 .str (by decide) hg

theorem Keeps.belay {fs : List Fld} {ids : List Nat} {s t : State} (h : Keeps fs ids s t)
    (hg : fs.contains .belay = false := by decide) : t.belay = s.belay :=
  h.1 .belay (by decide) hg

theorem Keeps.dup {fs : List Fld} {ids : List Nat} {s t : State} (h : Keeps fs ids s t)
    (hg : fs.contains .dup = false := by decide) : t.dup = s.dup :=
  h.1 .dup (by decide) hg

theorem Keeps.reel {fs : List Fld} {ids : List Nat} {s t : State} (h : Keeps fs ids s t)
    (hg : fs.contains .reel = false := by decide) : t.reel = s.reel :=
  h.1 .reel (by decide) hg

theorem Keeps.tbus {fs : List Fld} {ids : List Nat} {s t : State} (h : Keeps fs ids s t)
    (hg : fs.contains .tbus = false := by decide) : t.tbus = s.tbus :=
  h.1 .tbus (by decide) hg

theorem Keeps.loops {fs : List Fld} {ids : List Nat} {s t : State} (h : Keeps fs ids s t)
    (hg : fs.contains .loops = false := by decide) : t.loops = s.loops :=
  h.1 .loops (by decide) hg

theorem Keeps.encs {fs : List Fld} {ids : List Nat} {s t : State} (h : Keeps fs ids s t)
    (hg : fs.contains .encs = false := by decide) : t.encs = s.encs :=
  h.1 .encs (by decide) hg

theorem Keeps.chop {fs : List Fld} {ids : List Nat} {s t : State} (h : Keeps fs ids s t)
    (hg : fs.contains .chop = false := by decide) : t.chop = s.chop :=
  h.1 .chop (by decide) hg

theorem Keeps.meas {fs : List Fld} {ids : List Nat} {s t : State} (h : Keeps fs ids s t)
    (hg : fs.contains .meas = false := by decide) : t.meas = s.meas :=
  h.1 .meas (by decide) hg

theorem Keeps.disc {fs : List Fld} {ids : List Nat} {s t : State} (h : Keeps fs ids s t)
    (hg : fs.contains .disc = false := by decide) : t.disc = s.disc :=
  h.1 .disc (by decide) hg

theorem Keeps.tally {fs : List Fld} {ids : List Nat} {s t : State} (h : Keeps fs ids s t)
    (hg : fs.contains .tally = false := by decide) : t.tally = s.tally :=
  h.1 .tally (by decide) hg

theorem Keeps.freeCtr {fs : List Fld} {ids : List Nat} {s t : State} (h : Keeps fs ids s t)
    (hg : fs.contains .freeCtr = false := by decide) : t.freeCtr = s.freeCtr :=
  h.1 .freeCtr (by decide) hg

theorem Keeps.pending {fs : List Fld} {ids : List Nat} {s t : State} (h : Keeps fs ids s t)
    (hg : fs.contains .pending = false := by decide) : t.pending = s.pending :=
  h.1 .pending (by decide) hg

end Sys2Proof.Machine
end

