-- ==== Sys2Proof/Laws/Keeps.lean ====
section
/-! SUPPORT. How the frame of a composed operation follows from the frames of its parts: the rules by which the lemmas
`<operation>_keeps` of the files beside this one are proved, and the primitive operations. -/

namespace Sys2Proof.Machine

/-! ### Rules -/

/-- A first operation, then the rest. -/
theorem Keeps.cut {A : List Fld} {ai : List Nat} {r s t : State} (h : Keeps A ai r s)
    (k : Keeps A ai r s → Keeps A ai r t) : Keeps A ai r t :=
  k h

/-- An update of the record. -/
theorem Keeps.upd {B : List Fld} {s t : State} (hp : t.params = s.params)
    (h : ∀ g : Fld, B.contains g = false → g.same s t) : Keeps B [] s t :=
  ⟨fun g _ hg => h g hg, fun _ => ⟨fun id k _ => by unfold getP; rw [hp], fun _ => hp⟩⟩

/-- An update of the record and its parameters. -/
theorem Keeps.updAll {B : List Fld} {s t : State} (hp : B.contains .params = true)
    (h : ∀ g : Fld, B.contains g = false → g.same s t) : Keeps B [] s t :=
  ⟨fun g _ hg => h g hg, fun hn => absurd hp (by rw [hn]; simp)⟩

theorem Keeps.ite {A : List Fld} {ai : List Nat} {p : Prop} [Decidable p] {r s t : State} (h : Keeps A ai r s)
    (k : Keeps A ai r t) : Keeps A ai r (if p then s else t) := by
  split
  · exact h
  · exact k

/-- What a command's own checks and effect may change (R44). -/
def ResKeeps (A : List Fld) (ai : List Nat) (r : State) : Res → Prop
  | .err _ => True
  | .fail _ s => Keeps A ai r s
  | .ok _ _ s => Keeps A ai r s
  | .later s => Keeps A ai r s
  | .accepted s after => Keeps A ai r s ∧ ∀ x, Keeps A ai x (after x)

theorem ResKeeps.check {A : List Fld} {ai : List Nat} {r : State} {e : Option CmdErr} {x : Res}
    (h : ResKeeps A ai r x) : ResKeeps A ai r (Res.check e x) := by
  cases e with
  | none => exact h
  | some e => trivial

theorem ResKeeps.ite {A : List Fld} {ai : List Nat} {p : Prop} [Decidable p] {r : State} {x y : Res}
    (h : ResKeeps A ai r x) (k : ResKeeps A ai r y) : ResKeeps A ai r (if p then x else y) := by
  split
  · exact h
  · exact k

theorem ResKeeps.accepted {A : List Fld} {ai : List Nat} {r s : State} {f : State → State} (h : Keeps A ai r s)
    (k : ∀ x, Keeps A ai x (f x)) : ResKeeps A ai r (.accepted s f) :=
  ⟨h, k⟩

theorem ResKeeps.done {A : List Fld} {ai : List Nat} {r s : State} (h : Keeps A ai r s) :
    ResKeeps A ai r (Res.done s) :=
  h

/-- What a meaning may change. -/
def OutKeeps (A : List Fld) (ai : List Nat) (r : State) (o : Host.Outcome State Fault Refusal) : Prop :=
  ∀ t, o = .next t → Keeps A ai r t

theorem OutKeeps.next {A : List Fld} {ai : List Nat} {r s : State} (h : Keeps A ai r s) :
    OutKeeps A ai r (.next s) := by
  intro t e
  injection e with e
  exact e ▸ h

theorem OutKeeps.ite {A : List Fld} {ai : List Nat} {p : Prop} [Decidable p] {r : State}
    {x y : Host.Outcome State Fault Refusal} (h : OutKeeps A ai r x) (k : OutKeeps A ai r y) :
    OutKeeps A ai r (if p then x else y) := by
  split
  · exact h
  · exact k

theorem OutKeeps.clocked {A : List Fld} {ai : List Nat} {r s : State} {o : Host.Outcome State Fault Refusal}
    (h : Keeps A ai r s) (k : OutKeeps A ai r o) : OutKeeps A ai r (whenClocked s o) := by
  unfold whenClocked
  split
  · exact k
  · exact .next h

theorem OutKeeps.cut {A : List Fld} {ai : List Nat} {r s : State} {o : Host.Outcome State Fault Refusal}
    (h : Keeps A ai r s) (k : Keeps A ai r s → OutKeeps A ai r o) : OutKeeps A ai r o :=
  k h

theorem OutKeeps.mono {A B : List Fld} {ai bi : List Nat} {r s : State} {o : Host.Outcome State Fault Refusal}
    (k : OutKeeps B bi s o) (h : Keeps A ai r s) (hc : covers A ai B bi = true) : OutKeeps A ai r o :=
  fun t e => Keeps.step (k t e) h hc

theorem Keeps.atMark {A : List Fld} {ai : List Nat} {r s : State} {m : Nat} {f : State → State}
    (hc : covers A ai [.tick, .flt, .time, .str, .chop] [] = true)
    (ht : ∀ x n, Keeps [.tick, .flt, .time, .str, .chop] [] x (advanceTo x n)) (h : Keeps A ai r s)
    (hf : ∀ x, Keeps A ai r x → Keeps A ai r (f x)) : Keeps A ai r (Machine.atMark s m f) := by
  unfold Machine.atMark
  split
  · exact h
  · split
    · exact hf _ h
    · split
      · exact hf _ ((ht s _).step h hc)
      · exact h

theorem ResKeeps.mono {A B : List Fld} {ai bi : List Nat} {r s : State} {x : Res} (k : ResKeeps B bi s x)
    (h : Keeps A ai r s) (hc : covers A ai B bi = true) : ResKeeps A ai r x := by
  cases x with
  | err e => trivial
  | fail e t => exact Keeps.step k h hc
  | ok n p t => exact Keeps.step k h hc
  | later t => exact Keeps.step k h hc
  | accepted t f => exact ⟨Keeps.step k.1 h hc, fun y => (k.2 y).mono hc⟩

theorem ResKeeps.cut {A : List Fld} {ai : List Nat} {r s : State} {x : Res} (h : Keeps A ai r s)
    (k : Keeps A ai r s → ResKeeps A ai r x) : ResKeeps A ai r x :=
  k h

/-- What a run of writes may change. -/
def SumKeeps (A : List Fld) (ai : List Nat) (r : State) : CmdErr ⊕ State → Prop
  | .inl _ => True
  | .inr s => Keeps A ai r s

theorem SumKeeps.inr {A : List Fld} {ai : List Nat} {r s : State} (h : Keeps A ai r s) :
    SumKeeps A ai r (.inr s) :=
  h

theorem SumKeeps.mono {A B : List Fld} {ai bi : List Nat} {r s : State} {x : CmdErr ⊕ State}
    (k : SumKeeps B bi s x) (h : Keeps A ai r s) (hc : covers A ai B bi = true) : SumKeeps A ai r x := by
  cases x with
  | inl e => trivial
  | inr t => exact Keeps.step k h hc

/-- The IDs that the reel and the interrupt causes write by themselves. -/
abbrev trigIds : List Nat := [P.HOST_IRQ_CAUSE, P.REEL_LOST, P.REEL_QUEUE_HIGH, P.REEL_TRIG_TICK]

theorem Keeps.reelUnits {A : List Fld} {ai : List Nat} {r s : State} {now : Nat} {f : State → Nat → State × Bool}
    (ht : ∀ x n m, Keeps [.host, .reel, .tbus, .freeCtr] trigIds x (reelTrigger x n m))
    (hc : covers A ai [.host, .reel, .tbus, .freeCtr] trigIds = true) (h : Keeps A ai r s)
    (hf : ∀ x k, Keeps A ai r x → Keeps A ai r (f x k).1) : Keeps A ai r (Machine.reelUnits s now f) := by
  unfold Machine.reelUnits
  refine Keeps.foldl h fun x k hx => ?_
  dsimp only
  split
  · exact (ht _ _ _).step (hf x k hx) hc
  · exact hf x k hx

theorem Keeps.reelObserveWith {A : List Fld} {ai : List Nat} {r s : State} {f : State → State}
    (hs : ∀ x, Keeps [.host, .reel, .freeCtr] [P.HOST_IRQ_CAUSE, P.REEL_LOST, P.REEL_QUEUE_HIGH] x (reelSync x))
    (hb : ∀ x, Keeps [.reel] [] x (reelBefore x))
    (hn : ∀ n l x, Keeps [.host, .reel, .tbus, .freeCtr] trigIds x (linesSeen n l x))
    (hd : ∀ n l x, Keeps [.reel] [] x (linesDone n l x))
    (hc : covers A ai [.host, .reel, .tbus, .freeCtr] trigIds = true) (h : Keeps A ai r s)
    (hf : ∀ x, Keeps A ai r x → Keeps A ai r (f x)) : Keeps A ai r (Machine.reelObserveWith f s) := by
  have sub : ∀ {B bi x y}, Keeps B bi x y → covers [.host, .reel, .tbus, .freeCtr] trigIds B bi = true →
      Keeps A ai r x → Keeps A ai r y := fun k q hx => (k.mono q).step hx hc
  have hs' := sub (hs s) (by decide) h
  unfold Machine.reelObserveWith
  split
  · exact h
  · dsimp only
    split
    · exact .ite (sub (hb _) (by decide) hs') hs'
    · exact .ite hs' (sub (hd _ _ _) (by decide) (hf _ (sub (hn _ _ _) (by decide) hs')))

theorem OutKeeps.ends {A : List Fld} {ai : List Nat} {r s : State}
    (ho : ∀ x, Keeps [.host, .reel, .tbus, .freeCtr] trigIds x (reelObserve x))
    (hc : covers A ai [.host, .reel, .tbus, .freeCtr] trigIds = true) (h : Keeps A ai r s) :
    OutKeeps A ai r (Machine.ends s) :=
  .next ((ho s).step h hc)

/-- A command's frame from its body's. -/
theorem Keeps.interpret {A : List Fld} {ai : List Nat} {r s : State} {sp : CmdSpec} {own : Option CmdErr}
    {body : Cmd → State → Res} {c : Cmd} (hg : ∀ x p q, Keeps [.host, .flt] [] x (goodPacket x p q))
    (ha : ∀ x o d n m l, Keeps [.host] [P.HOST_IRQ_CAUSE] x (answer x o d n m l))
    (hc : covers A ai [.host, .flt] [P.HOST_IRQ_CAUSE] = true) (h : Keeps A ai r s)
    (hb : ∀ x, ResKeeps A ai x (body c x)) : Keeps A ai r (Machine.interpret sp own body c s) := by
  have ha' : ∀ {x y o n m l}, Keeps A ai x y → Keeps A ai x (answer y o c n m l) := fun q =>
    (ha _ _ _ _ _ _).step q (by
      simp only [covers, Bool.and_eq_true, Bool.or_eq_true, List.all_eq_true] at hc ⊢
      exact ⟨fun g hg => hc.1 g (by simp_all), hc.2⟩)
  have hg' : Keeps A ai r (goodPacket s c.port c.seq) := (hg s c.port c.seq).step h (by
    simp only [covers, Bool.and_eq_true, Bool.or_eq_true, List.all_eq_true] at hc ⊢
    exact ⟨hc.1, .inr (by simp)⟩)
  unfold Machine.interpret
  dsimp only
  cases commonErr sp own c (goodPacket s c.port c.seq) with
  | some e => exact ha' hg'
  | none =>
    refine Keeps.trans hg' ?_
    have hb := hb (goodPacket s c.port c.seq)
    simp only [Res.check, finish]
    generalize goodPacket s c.port c.seq = x at hb
    revert hb
    cases body c x with
    | err e => exact fun _ => ha' (.refl x)
    | fail e y =>
      intro hb
      simp only
      split
      · exact ha' (.refl x)
      · exact ha' hb
    | ok d p y =>
      intro hb
      simp only
      split
      · exact ha' (.refl x)
      · exact ha' hb
    | accepted y f =>
      intro hb
      simp only
      split
      · exact ha' (.refl x)
      · exact (ha' hb.1).trans (hb.2 _)
    | later y =>
      intro hb
      simp only
      split
      · exact ha' (.refl x)
      · exact hb

theorem Keeps.runCmd {A : List Fld} {ai : List Nat} {r s : State} {sp : CmdSpec} {own : Option CmdErr}
    {body : Cmd → State → Res} {c : Cmd} (hg : ∀ x p q, Keeps [.host, .flt] [] x (goodPacket x p q))
    (ha : ∀ x o d n m l, Keeps [.host] [P.HOST_IRQ_CAUSE] x (answer x o d n m l))
    (hc : covers A ai [.host, .flt] [P.HOST_IRQ_CAUSE] = true) (h : Keeps A ai r s)
    (hb : ∀ x, ResKeeps A ai x (body c x)) : Keeps A ai r (Machine.runCmd sp own body c s) := by
  unfold Machine.runCmd
  exact .ite (.interpret hg ha hc h hb) h

/-! ### Primitive operations -/

theorem putP_keeps (s : State) (id t : Nat) (w : Word) : Keeps [] [id] s (putP s id t w) :=
  ⟨fun g hg _ => by cases g <;> first | rfl | exact absurd rfl hg,
    fun _ => ⟨fun id' k hk => getP_putP_ne _ _ _ _ _ _ (by intro e; subst e; simp at hk),
      fun h => absurd h (by simp)⟩⟩

theorem putN_keeps (s : State) (id t n : Nat) : Keeps [] [id] s (putN s id t n) := putP_keeps _ _ _ _

theorem putI_keeps (s : State) (id t : Nat) (x : Int) : Keeps [] [id] s (putI s id t x) := putP_keeps _ _ _ _

theorem orP_keeps (s : State) (id t m : Nat) : Keeps [] [id] s (orP s id t m) := putP_keeps _ _ _ _

theorem put64_keeps (s : State) (id t : Nat) (lo hi : Word) : Keeps [] [id, id + 1] s (put64 s id t lo hi) :=
  (putP_keeps _ _ _ _).step ((putP_keeps _ _ _ _).step (.refl s) (by simp [covers])) (by simp [covers])

theorem freeCtr_keeps (s : State) (n : Nat) : Keeps [.freeCtr] [] s { s with freeCtr := n } :=
  .upd rfl fun g hg => by cases g <;> first | exact absurd hg (by decide) | rfl

theorem addP_keeps (s : State) (id t n : Nat) : Keeps [.freeCtr] [id] s (addP s id t n) := by
  unfold addP
  split
  · exact (putN_keeps _ _ _ _).step (.refl s) (by simp [covers])
  · exact (putP_keeps _ _ _ _).step ((freeCtr_keeps _ _).step (.refl s) (by simp [covers])) (by simp [covers])

theorem incP_keeps (s : State) (id t : Nat) : Keeps [.freeCtr] [id] s (incP s id t) := addP_keeps _ _ _ _

theorem maxP_keeps (s : State) (id t n : Nat) : Keeps [] [id] s (maxP s id t n) := by
  unfold maxP
  split
  · exact putN_keeps _ _ _ _
  · exact .refl s

theorem putFit_keeps (s : State) (id t : Nat) (x : Int) : Keeps [.freeCtr] [id] s (putFit s id t x) := by
  unfold putFit
  split
  · exact (putI_keeps _ _ _ _).step (.refl s) (by simp [covers])
  · exact (putP_keeps _ _ _ _).step ((freeCtr_keeps _ _).step (.refl s) (by simp [covers])) (by simp [covers])

theorem putCharge_keeps (s : State) (id a : Nat) (q : Int) : Keeps [.freeCtr] [id] s (putCharge s id a q) := by
  unfold putCharge
  dsimp only
  split
  · exact (putI_keeps _ _ _ _).step (.refl s) (by simp [covers])
  · exact (putP_keeps _ _ _ _).step ((freeCtr_keeps _ _).step (.refl s) (by simp [covers])) (by simp [covers])

theorem clearSet_keeps (s : State) (id t : Nat) (w : Word) : Keeps [] [id] s (clearSet s id t w) := by
  unfold clearSet
  split
  · exact putN_keeps _ _ _ _
  · split
    · exact putN_keeps _ _ _ _
    · exact .refl s

end Sys2Proof.Machine
end

