-- ==== Sys2Proof/Laws/OpsFrame.lean ====
section
/-! SUPPORT. What each operation of `Machine/Ops.lean` may change, and that it changes nothing else. -/

namespace Sys2Proof.Machine

theorem advanceTo_keeps (s : State) (t : Nat) :
    Keeps [.tick, .flt, .time, .str, .chop] [] s (advanceTo s t) := by
  unfold advanceTo
  extract_lets y0 y1 y2 y3 y4
  clear_value y0 y1 y2 y3 y4
  refine Keeps.ite ?_ ?_
  · exact Keeps.refl _
  · refine Keeps.step (B := [.tick, .flt, .time, .str, .chop]) (bi := []) (s := s)
      (.upd rfl fun g hg => by cases g <;> first | exact absurd hg (by decide) | rfl) ?_ (by decide)
    exact Keeps.refl _

theorem dropOp_keeps (s : State) (op : Nat) (key : Nat) :
    Keeps [.ops] [] s (dropOp s op key) := by
  unfold dropOp
  refine Keeps.step (B := [.ops]) (bi := []) (s := s)
      (.upd rfl fun g hg => by cases g <;> first | exact absurd hg (by decide) | rfl) ?_ (by decide)
  exact Keeps.refl _

theorem msiSend_keeps (s : State) (b : Nat) :
    Keeps [.host] [] s (msiSend s b) := by
  unfold msiSend
  refine Keeps.step (B := [.host]) (bi := []) (s := s)
      (.upd rfl fun g hg => by cases g <;> first | exact absurd hg (by decide) | rfl) ?_ (by decide)
  exact Keeps.refl _

theorem putTable_keeps (s : State) (num : Nat) (i : Nat) (ws : List Word) :
    Keeps [.tables] [] s (putTable s num i ws) := by
  unfold putTable
  refine Keeps.step (B := [.tables]) (bi := []) (s := s)
      (.upd rfl fun g hg => by cases g <;> first | exact absurd hg (by decide) | rfl) ?_ (by decide)
  exact Keeps.refl _

theorem resetBlock_keeps (s : State) (keep : Nat → Bool) :
    Keeps [.params] [] s (resetBlock s keep) := by
  unfold resetBlock
  refine Keeps.step (B := [.params]) (bi := []) (s := s)
      (.updAll rfl fun g hg => by cases g <;> first | exact absurd hg (by decide) | rfl) ?_ (by decide)
  exact Keeps.refl _

theorem updAdc_keeps (s : State) (n : Nat) (f : Adc → Adc) :
    Keeps [.meas] [] s (updAdc s n f) := by
  unfold updAdc
  extract_lets y0
  clear_value y0
  refine Keeps.step (B := [.meas]) (bi := []) (s := s)
      (.upd rfl fun g hg => by cases g <;> first | exact absurd hg (by decide) | rfl) ?_ (by decide)
  exact Keeps.refl _

theorem updArm_keeps (s : State) (a : Nat) (f : Arm → Arm) :
    Keeps [.arms] [] s (updArm s a f) := by
  unfold updArm
  refine Keeps.step (B := [.arms]) (bi := []) (s := s)
      (.upd rfl fun g hg => by cases g <;> first | exact absurd hg (by decide) | rfl) ?_ (by decide)
  exact Keeps.refl _

theorem updCell_keeps (s : State) (c : Nat) (f : Cell → Cell) :
    Keeps [.cells] [] s (updCell s c f) := by
  unfold updCell
  refine Keeps.step (B := [.cells]) (bi := []) (s := s)
      (.upd rfl fun g hg => by cases g <;> first | exact absurd hg (by decide) | rfl) ?_ (by decide)
  exact Keeps.refl _

theorem updCleat_keeps (s : State) (e : Nat) (f : CleatEntry → CleatEntry) :
    Keeps [.cleat] [] s (updCleat s e f) := by
  unfold updCleat
  extract_lets y0
  clear_value y0
  refine Keeps.step (B := [.cleat]) (bi := []) (s := s)
      (.upd rfl fun g hg => by cases g <;> first | exact absurd hg (by decide) | rfl) ?_ (by decide)
  exact Keeps.refl _

theorem updDec_keeps (s : State) (n : Nat) (f : DecChan → DecChan) :
    Keeps [.meas] [] s (updDec s n f) := by
  unfold updDec
  extract_lets y0
  clear_value y0
  refine Keeps.step (B := [.meas]) (bi := []) (s := s)
      (.upd rfl fun g hg => by cases g <;> first | exact absurd hg (by decide) | rfl) ?_ (by decide)
  exact Keeps.refl _

theorem updEnc_keeps (s : State) (n : Nat) (f : EncAxis → EncAxis) :
    Keeps [.encs] [] s (updEnc s n f) := by
  unfold updEnc
  refine Keeps.step (B := [.encs]) (bi := []) (s := s)
      (.upd rfl fun g hg => by cases g <;> first | exact absurd hg (by decide) | rfl) ?_ (by decide)
  exact Keeps.refl _

theorem updGen_keeps (s : State) (n : Nat) (f : TrajGen → TrajGen) :
    Keeps [.loops] [] s (updGen s n f) := by
  unfold updGen
  extract_lets y0
  clear_value y0
  refine Keeps.step (B := [.loops]) (bi := []) (s := s)
      (.upd rfl fun g hg => by cases g <;> first | exact absurd hg (by decide) | rfl) ?_ (by decide)
  exact Keeps.refl _

theorem updLane_keeps (s : State) (l : Nat) (f : Lane → Lane) :
    Keeps [.lanes] [] s (updLane s l f) := by
  unfold updLane
  refine Keeps.step (B := [.lanes]) (bi := []) (s := s)
      (.upd rfl fun g hg => by cases g <;> first | exact absurd hg (by decide) | rfl) ?_ (by decide)
  exact Keeps.refl _

theorem updLeg_keeps (s : State) (n : Nat) (f : Leg → Leg) :
    Keeps [.chop] [] s (updLeg s n f) := by
  unfold updLeg
  extract_lets y0
  clear_value y0
  refine Keeps.step (B := [.chop]) (bi := []) (s := s)
      (.upd rfl fun g hg => by cases g <;> first | exact absurd hg (by decide) | rfl) ?_ (by decide)
  exact Keeps.refl _

theorem updLine_keeps (s : State) (n : Nat) (f : TbusLine → TbusLine) :
    Keeps [.tbus] [] s (updLine s n f) := by
  unfold updLine
  refine Keeps.step (B := [.tbus]) (bi := []) (s := s)
      (.upd rfl fun g hg => by cases g <;> first | exact absurd hg (by decide) | rfl) ?_ (by decide)
  exact Keeps.refl _

theorem updOp_keeps (s : State) (op : Nat) (key : Nat) (f : List Nat → List Nat) :
    Keeps [.ops] [] s (updOp s op key f) := by
  unfold updOp
  refine Keeps.step (B := [.ops]) (bi := []) (s := s)
      (.upd rfl fun g hg => by cases g <;> first | exact absurd hg (by decide) | rfl) ?_ (by decide)
  exact Keeps.refl _

theorem updSi_keeps (s : State) (n : Nat) (f : SafetyInput → SafetyInput) :
    Keeps [.belay] [] s (updSi s n f) := by
  unfold updSi
  extract_lets y0
  clear_value y0
  refine Keeps.step (B := [.belay]) (bi := []) (s := s)
      (.upd rfl fun g hg => by cases g <;> first | exact absurd hg (by decide) | rfl) ?_ (by decide)
  exact Keeps.refl _

theorem updSlot_keeps (s : State) (n : Nat) (f : LoopSlot → LoopSlot) :
    Keeps [.loops] [] s (updSlot s n f) := by
  unfold updSlot
  extract_lets y0
  clear_value y0
  refine Keeps.step (B := [.loops]) (bi := []) (s := s)
      (.upd rfl fun g hg => by cases g <;> first | exact absurd hg (by decide) | rfl) ?_ (by decide)
  exact Keeps.refl _

theorem updStrand_keeps (s : State) (n : Nat) (f : Strand → Strand) :
    Keeps [.str] [] s (updStrand s n f) := by
  unfold updStrand
  extract_lets y0
  clear_value y0
  refine Keeps.step (B := [.str]) (bi := []) (s := s)
      (.upd rfl fun g hg => by cases g <;> first | exact absurd hg (by decide) | rfl) ?_ (by decide)
  exact Keeps.refl _

theorem updTask_keeps (s : State) (n : Nat) (f : Task → Task) :
    Keeps [.str] [] s (updTask s n f) := by
  unfold updTask
  extract_lets y0
  clear_value y0
  refine Keeps.step (B := [.str]) (bi := []) (s := s)
      (.upd rfl fun g hg => by cases g <;> first | exact absurd hg (by decide) | rfl) ?_ (by decide)
  exact Keeps.refl _

theorem blockArms_keeps (s : State) (mask : Nat) :
    Keeps [.arms] [] s (blockArms s mask) := by
  unfold blockArms
  refine Keeps.foldl ?_ fun x0 a1 h2 => ?_
  · exact Keeps.refl _
  · refine Keeps.ite ?_ ?_
    · exact Keeps.step (updArm_keeps _ _ _) h2 (by decide)
    · exact h2

theorem irqSet_keeps (s : State) (b : Nat) :
    Keeps [.host] [P.HOST_IRQ_CAUSE] s (irqSet s b) := by
  unfold irqSet
  extract_lets y0
  refine Keeps.cut (s := y0) ?_ fun h30 => ?_
  · unfold y0
    exact Keeps.step (orP_keeps _ _ _ _) (Keeps.refl _) (by decide)
  clear_value y0
  refine Keeps.ite ?_ ?_
  · exact Keeps.refl _
  · refine Keeps.ite ?_ ?_
    · exact Keeps.step (msiSend_keeps _ _) h30 (by decide)
    · exact h30

theorem timeEvent_keeps (s : State) (b : Nat) :
    Keeps [.host] [P.HOST_IRQ_CAUSE, P.TIME_EVENT] s (timeEvent s b) := by
  unfold timeEvent
  exact Keeps.step (irqSet_keeps _ _) (Keeps.step (orP_keeps _ _ _ _) (Keeps.refl _) (by decide)) (by decide)

end Sys2Proof.Machine
end

