-- ==== Sys2Proof/Laws/ReelCoreFrame.lean ====
section
/-! SUPPORT. What each operation of `Machine/ReelCore.lean` may change, and that it changes nothing else. -/

namespace Sys2Proof.Machine

theorem tbusDrive_keeps (s : State) (n : Nat) :
    Keeps [.tbus] [] s (tbusDrive s n) := by
  unfold tbusDrive
  extract_lets y0
  clear_value y0
  exact Keeps.step (updLine_keeps _ _ _) (Keeps.refl _) (by decide)

theorem updReel_keeps (s : State) (f : ReelSt → ReelSt) :
    Keeps [.reel] [] s (updReel s f) := by
  unfold updReel
  refine Keeps.step (B := [.reel]) (bi := []) (s := s)
      (.upd rfl fun g hg => by cases g <;> first | exact absurd hg (by decide) | rfl) ?_ (by decide)
  exact Keeps.refl _

theorem updUnit_keeps (s : State) (k : Nat) (f : ReelUnit → ReelUnit) :
    Keeps [.reel] [] s (updUnit s k f) := by
  unfold updUnit
  exact Keeps.step (updReel_keeps _ _) (Keeps.refl _) (by decide)

theorem reelBefore_keeps (s : State) :
    Keeps [.reel] [] s (reelBefore s) := by
  unfold reelBefore
  exact Keeps.step (updReel_keeps _ _) (Keeps.refl _) (by decide)

theorem reelForm_keeps (s : State) (r : ReelRec) :
    Keeps [.reel] [] s (reelForm s r) := by
  unfold reelForm
  exact Keeps.step (updReel_keeps _ _) (Keeps.refl _) (by decide)

theorem reelOverflow_keeps (s : State) (now : Nat) :
    Keeps [.reel] [P.REEL_QUEUE_HIGH] s (reelOverflow s now) := by
  unfold reelOverflow
  refine Keeps.ite ?_ ?_
  · exact Keeps.step (maxP_keeps _ _ _ _) (Keeps.step (updReel_keeps _ _) (Keeps.refl _) (by decide)) (by decide)
  · exact Keeps.refl _

theorem reelPush_keeps (s : State) (r : ReelRec) :
    Keeps [.reel, .freeCtr] [P.REEL_LOST, P.REEL_QUEUE_HIGH] s (reelPush s r) := by
  unfold reelPush
  refine Keeps.ite ?_ ?_
  · exact Keeps.step (maxP_keeps _ _ _ _) (Keeps.step (updReel_keeps _ _) (Keeps.refl _) (by decide)) (by decide)
  · exact Keeps.step (incP_keeps _ _ _) (Keeps.step (updReel_keeps _ _) (Keeps.refl _) (by decide)) (by decide)

theorem reelRecause_keeps (s : State) (cause : Nat) :
    Keeps [.reel] [] s (reelRecause s cause) := by
  unfold reelRecause
  exact Keeps.step (updReel_keeps _ _) (Keeps.refl _) (by decide)

theorem reelRef_keeps (s : State) (ref : Nat) (back : optParam Nat 0) :
    Keeps [.reel] [] s (reelRef s ref back) := by
  unfold reelRef
  refine Keeps.ite ?_ ?_
  · refine Keeps.foldl ?_ fun x60 a61 h62 => ?_
    · exact Keeps.refl _
    · extract_lets y63
      refine Keeps.ite ?_ ?_
      · exact Keeps.step (updReel_keeps _ _) h62 (by decide)
      · exact h62
  · exact Keeps.refl _

theorem ringWrite_keeps (s : State) (r : ReelRec) :
    Keeps [.reel] [] s (ringWrite s r) := by
  unfold ringWrite
  exact Keeps.step (updReel_keeps _ _) (Keeps.refl _) (by decide)

theorem trigSet_keeps (s : State) (src : Nat) (now : Nat) (tt : Int) :
    Keeps [.reel] [P.REEL_TRIG_TICK] s (trigSet s src now tt) := by
  unfold trigSet
  extract_lets y0 y1 y2 y3 y4
  clear_value y0 y1 y2 y3
  refine Keeps.cut (s := y4) ?_ fun h30 => ?_
  · unfold y4
    exact Keeps.step (updReel_keeps _ _) (Keeps.refl _) (by decide)
  clear_value y4
  exact Keeps.step (reelRef_keeps _ _ _) (Keeps.step (putN_keeps _ _ _ _) h30 (by decide)) (by decide)

theorem unitLine_keeps (s : State) (k : Nat) (line : Nat) (now : Nat) (high : Bool) :
    Keeps [.reel] [] s (unitLine s k line now high).1 := by
  unfold unitLine
  extract_lets y0 y1 y2 y3 y4 y5
  clear_value y0 y1 y2 y3 y5
  refine Keeps.cut (s := y4) ?_ fun h30 => ?_
  · unfold y4
    exact Keeps.step (updUnit_keeps _ _ _) (Keeps.refl _) (by decide)
  clear_value y4
  split
  · dsimp only
    exact Keeps.refl _
  · dsimp only
    exact h30

theorem unitSample_keeps (s : State) (k : Nat) (ch : Nat) (now : Nat) (lv : Nat → Int) (prev : Option Int) (v : Int) :
    Keeps [.reel] [] s (unitSample s k ch now lv prev v).1 := by
  unfold unitSample
  extract_lets y0 y1 y2 y3 y4 y5 y6 y7 y8 y9 y10 y11 y12
  clear_value y0 y1 y3 y4 y5 y6 y7 y8 y9 y10 y11 y12
  split
  · dsimp only
    exact Keeps.refl _
  · split
    · dsimp only
      exact Keeps.refl _
    · split
      · dsimp only
        exact Keeps.step (updUnit_keeps _ _ _) (Keeps.refl _) (by decide)
      · split
        · dsimp only
          exact Keeps.step (updUnit_keeps _ _ _) (Keeps.refl _) (by decide)
        · dsimp only
          exact Keeps.refl _
    · split
      · dsimp only
        exact Keeps.step (updUnit_keeps _ _ _) (Keeps.refl _) (by decide)
      · split
        · dsimp only
          exact Keeps.step (updUnit_keeps _ _ _) (Keeps.refl _) (by decide)
        · dsimp only
          exact Keeps.refl _
    · dsimp only
      exact Keeps.refl _

theorem lineRecord_keeps (now : Nat) (s : State) (p : (Nat × Nat × Nat) × Nat) :
    Keeps [.reel] [] s (lineRecord now s p) := by
  unfold lineRecord
  extract_lets y0 y1
  clear_value y0
  refine Keeps.cut (s := y1) ?_ fun h30 => ?_
  · unfold y1
    exact Keeps.step (updReel_keeps _ _) (Keeps.refl _) (by decide)
  clear_value y1
  refine Keeps.ite ?_ ?_
  · exact Keeps.refl _
  · refine Keeps.ite ?_ ?_
    · exact h30
    · exact Keeps.step (reelForm_keeps _ _) h30 (by decide)

theorem linesDone_keeps (now : Nat) (new : List Nat) (s : State) :
    Keeps [.reel] [] s (linesDone now new s) := by
  unfold linesDone
  extract_lets y0
  refine Keeps.cut (s := y0) ?_ fun h30 => ?_
  · unfold y0
    refine Keeps.ite ?_ ?_
    · refine Keeps.foldl ?_ fun x31 a32 h33 => ?_
      · exact Keeps.refl _
      · exact Keeps.step (lineRecord_keeps _ _ _) h33 (by decide)
    · exact Keeps.refl _
  clear_value y0
  exact Keeps.step (updReel_keeps _ _) h30 (by decide)

theorem reelFire_keeps (s : State) (src : Nat) (now : Nat) (tt : Int) :
    Keeps [.host, .reel, .tbus] [P.HOST_IRQ_CAUSE, P.REEL_TRIG_TICK] s (reelFire s src now tt) := by
  unfold reelFire
  extract_lets y0 y1 y2
  refine Keeps.cut (s := y0) ?_ fun h30 => ?_
  · unfold y0
    refine Keeps.step (updReel_keeps _ _) ?_ (by decide)
    exact Keeps.step (trigSet_keeps _ _ _ _) (Keeps.refl _) (by decide)
  clear_value y0
  refine Keeps.cut (s := y1) ?_ fun h31 => ?_
  · unfold y1
    exact Keeps.step (reelForm_keeps _ _) h30 (by decide)
  clear_value y1
  refine Keeps.cut (s := y2) ?_ fun h32 => ?_
  · unfold y2
    refine Keeps.foldl ?_ fun x33 a34 h35 => ?_
    · exact h31
    · refine Keeps.ite ?_ ?_
      · exact Keeps.step (tbusDrive_keeps _ _) h35 (by decide)
      · exact h35
  clear_value y2
  exact Keeps.step (irqSet_keeps _ _) h32 (by decide)

theorem reelFlush_keeps (s : State) (now : Nat) (l : List ReelRec) :
    Keeps [.reel, .freeCtr] [P.REEL_LOST, P.REEL_QUEUE_HIGH] s (reelFlush s now l) := by
  unfold reelFlush
  refine Keeps.step (reelOverflow_keeps _ _) ?_ (by decide)
  refine Keeps.foldl ?_ fun x0 a1 h2 => ?_
  · exact Keeps.refl _
  · exact Keeps.step (reelPush_keeps _ _) h2 (by decide)

theorem reelEnd_keeps (s : State) (cause : Nat) (u : Nat) :
    Keeps [.host, .reel, .freeCtr] [P.HOST_IRQ_CAUSE, P.REEL_LOST, P.REEL_QUEUE_HIGH] s (reelEnd s cause u) := by
  unfold reelEnd
  extract_lets y0 y1 y2 y3
  clear_value y0
  refine Keeps.cut (s := y1) ?_ fun h30 => ?_
  · unfold y1
    refine Keeps.step (reelFlush_keeps _ _ _) ?_ (by decide)
    exact Keeps.step (updReel_keeps _ _) (Keeps.refl _) (by decide)
  clear_value y1
  refine Keeps.cut (s := y2) ?_ fun h31 => ?_
  · unfold y2
    refine Keeps.foldl ?_ fun x32 a33 h34 => ?_
    · exact Keeps.step (updReel_keeps _ _) h30 (by decide)
    · exact Keeps.step (ringWrite_keeps _ _) h34 (by decide)
  clear_value y2
  refine Keeps.cut (s := y3) ?_ fun h35 => ?_
  · unfold y3
    exact Keeps.step (updReel_keeps _ _) h31 (by decide)
  clear_value y3
  exact Keeps.step (irqSet_keeps _ _) h35 (by decide)

theorem reelStop_keeps (s : State) (cause : Nat) :
    Keeps [.host, .reel, .freeCtr] [P.HOST_IRQ_CAUSE, P.REEL_LOST, P.REEL_QUEUE_HIGH] s (reelStop s cause) := by
  unfold reelStop
  refine Keeps.ite ?_ ?_
  · exact Keeps.step (reelEnd_keeps _ _ _) (Keeps.refl _) (by decide)
  · refine Keeps.ite ?_ ?_
    · exact Keeps.step (reelRecause_keeps _ _) (Keeps.refl _) (by decide)
    · exact Keeps.refl _

theorem reelTake_keeps (a : Nat) (a' : Nat) (a'' : State) :
    Keeps [.host, .reel, .freeCtr] [P.HOST_IRQ_CAUSE, P.REEL_LOST, P.REEL_QUEUE_HIGH] a'' (reelTake a a' a'') := by
  induction a generalizing a'' with
  | zero => exact Keeps.refl _
  | succ n ih =>
    unfold reelTake
    split
    · exact Keeps.refl _
    · split
      · exact (reelEnd_keeps _ _ _).step ((updReel_keeps _ _).step (.refl a'') (by decide)) (by decide)
      · exact (ih _).step ((ringWrite_keeps _ _).step ((updReel_keeps _ _).step (.refl a'') (by decide)) (by decide))
          (by decide)

theorem reelTrigger_keeps (s : State) (src : Nat) (tt : Int) :
    Keeps [.host, .reel, .tbus, .freeCtr] [P.HOST_IRQ_CAUSE, P.REEL_LOST, P.REEL_QUEUE_HIGH,
        P.REEL_TRIG_TICK] s (reelTrigger s src tt) := by
  unfold reelTrigger
  split
  · exact Keeps.refl _
  · extract_lets y30
    refine Keeps.cut (s := y30) ?_ fun h60 => ?_
    · unfold y30
      exact Keeps.step (reelFire_keeps _ _ _ _) (Keeps.refl _) (by decide)
    clear_value y30
    refine Keeps.ite ?_ ?_
    · refine Keeps.ite ?_ ?_
      · exact Keeps.step (reelStop_keeps _ _) h60 (by decide)
      · exact h60
    · refine Keeps.ite ?_ ?_
      · refine Keeps.step (updReel_keeps _ _) ?_ (by decide)
        exact Keeps.step (trigSet_keeps _ _ _ _) (Keeps.refl _) (by decide)
      · exact Keeps.refl _

theorem linesSeen_keeps (now : Nat) (new : List Nat) (s : State) :
    Keeps [.host, .reel, .tbus, .freeCtr] [P.HOST_IRQ_CAUSE, P.REEL_LOST, P.REEL_QUEUE_HIGH,
        P.REEL_TRIG_TICK] s (linesSeen now new s) := by
  unfold linesSeen
  extract_lets y0 y1
  clear_value y1
  refine Keeps.cut (s := y0) ?_ fun h30 => ?_
  · unfold y0
    exact Keeps.step (updReel_keeps _ _) (Keeps.refl _) (by decide)
  clear_value y0
  refine Keeps.ite ?_ ?_
  · refine Keeps.foldl ?_ fun x31 a32 h33 => ?_
    · exact h30
    · refine Keeps.reelUnits reelTrigger_keeps (by decide) ?_ fun x34 a35 h36 => ?_
      · exact h33
      · exact Keeps.step (unitLine_keeps _ _ _ _ _) h36 (by decide)
  · exact h30

theorem reelMasks_keeps (s : State) (ch : Nat) (now : Nat) (lv : Nat → Int) (v : Int) :
    Keeps [.host, .reel, .tbus, .freeCtr] [P.HOST_IRQ_CAUSE, P.REEL_LOST, P.REEL_MASK_VIOL, P.REEL_QUEUE_HIGH,
        P.REEL_TRIG_TICK] s (reelMasks s ch now lv v) := by
  unfold reelMasks
  refine Keeps.foldl ?_ fun x30 a31 h32 => ?_
  · exact Keeps.refl _
  · extract_lets y33 y34 y35 y36 y37 y38 y39 y40
    clear_value y33 y34 y35 y38
    refine Keeps.cut (s := y36) ?_ fun h63 => ?_
    · unfold y36
      exact Keeps.step (incP_keeps _ _ _) h32 (by decide)
    clear_value y36
    refine Keeps.cut (s := y37) ?_ fun h64 => ?_
    · unfold y37
      exact Keeps.step (updReel_keeps _ _) h63 (by decide)
    clear_value y37
    refine Keeps.cut (s := y39) ?_ fun h65 => ?_
    · unfold y39
      refine Keeps.ite ?_ ?_
      · exact Keeps.step (reelTrigger_keeps _ _ _) h64 (by decide)
      · exact h64
    clear_value y39
    refine Keeps.cut (s := y40) ?_ fun h66 => ?_
    · unfold y40
      exact Keeps.step (reelForm_keeps _ _) h65 (by decide)
    clear_value y40
    split
    · exact h32
    · extract_lets y97 y98
      clear_value y97 y98
      refine Keeps.ite ?_ ?_
      · exact h32
      · split
        · exact h32
        · extract_lets y187
          clear_value y187
          refine Keeps.ite ?_ ?_
          · exact h32
          · refine Keeps.ite ?_ ?_
            · exact Keeps.step (incP_keeps _ _ _) h32 (by decide)
            · refine Keeps.ite ?_ ?_
              · exact Keeps.step (updReel_keeps _ _) h66 (by decide)
              · exact h66

theorem reelRound_keeps (u : Nat) (s : State) :
    Keeps [.host, .reel, .freeCtr] [P.HOST_IRQ_CAUSE, P.REEL_LOST, P.REEL_QUEUE_HIGH] s (reelRound u s) := by
  unfold reelRound
  split
  · exact Keeps.refl _
  · extract_lets y30 y31
    clear_value y30
    refine Keeps.cut (s := y31) ?_ fun h60 => ?_
    · unfold y31
      exact Keeps.step (updReel_keeps _ _) (Keeps.refl _) (by decide)
    clear_value y31
    refine Keeps.ite ?_ ?_
    · refine Keeps.step (reelEnd_keeps _ _ _) ?_ (by decide)
      exact Keeps.step (updReel_keeps _ _) (Keeps.refl _) (by decide)
    · exact Keeps.step (reelTake_keeps _ _ _) (Keeps.step (reelFlush_keeps _ _ _) h60 (by decide)) (by decide)

theorem reelRounds_keeps (a : Nat) (a' : Nat) (a'' : State) :
    Keeps [.host, .reel, .freeCtr] [P.HOST_IRQ_CAUSE, P.REEL_LOST, P.REEL_QUEUE_HIGH] a'' (reelRounds a a' a'') := by
  induction a generalizing a' a'' with
  | zero => exact Keeps.refl _
  | succ n ih =>
    unfold reelRounds
    split
    · exact (ih _ _).step (reelRound_keeps _ _) (by decide)
    · exact Keeps.refl _

theorem reelSync_keeps (s : State) :
    Keeps [.host, .reel, .freeCtr] [P.HOST_IRQ_CAUSE, P.REEL_LOST, P.REEL_QUEUE_HIGH] s (reelSync s) := by
  unfold reelSync
  refine Keeps.ite ?_ ?_
  · refine Keeps.step (reelRounds_keeps _ _ _) ?_ (by decide)
    exact Keeps.step (updReel_keeps _ _) (Keeps.refl _) (by decide)
  · exact Keeps.refl _

theorem reelFault_keeps (s : State) (code : Nat) (event : Nat) :
    Keeps [.host, .reel, .tbus, .freeCtr] [P.HOST_IRQ_CAUSE, P.REEL_LOST, P.REEL_QUEUE_HIGH,
        P.REEL_TRIG_TICK] s (reelFault s code event) := by
  unfold reelFault
  extract_lets y0
  refine Keeps.cut (s := y0) ?_ fun h30 => ?_
  · unfold y0
    exact Keeps.step (reelSync_keeps _) (Keeps.refl _) (by decide)
  clear_value y0
  split
  · refine Keeps.reelUnits reelTrigger_keeps (by decide) ?_ fun x91 a92 h93 => ?_
    · exact h30
    · extract_lets y94 y95
      clear_value y94 y95
      dsimp only
      exact h93
  · exact h30

theorem reelObserve_keeps (s : State) :
    Keeps [.host, .reel, .tbus, .freeCtr] [P.HOST_IRQ_CAUSE, P.REEL_LOST, P.REEL_QUEUE_HIGH,
        P.REEL_TRIG_TICK] s (reelObserve s) := by
  unfold reelObserve
  refine Keeps.reelObserveWith reelSync_keeps reelBefore_keeps linesSeen_keeps linesDone_keeps (by decide) ?_ fun x0
        h1 => ?_
  · exact Keeps.refl _
  · exact h1

theorem reelSample_keeps (s : State) (ch : Nat) (unsigned : Bool) (v : Int) (flags : Nat) :
    Keeps [.host, .reel, .tbus, .freeCtr] [P.HOST_IRQ_CAUSE, P.REEL_LOST, P.REEL_MASK_VIOL, P.REEL_QUEUE_HIGH,
        P.REEL_TRIG_TICK] s (reelSample s ch unsigned v flags) := by
  unfold reelSample
  extract_lets y0 y1 y2
  clear_value y2
  refine Keeps.cut (s := y1) ?_ fun h30 => ?_
  · unfold y1
    exact Keeps.step (reelSync_keeps _) (Keeps.refl _) (by decide)
  clear_value y1
  refine Keeps.ite ?_ ?_
  · exact Keeps.refl _
  · split
    · exact Keeps.refl _
    · extract_lets y91 y92 y93 y94 y95 y96
      clear_value y92 y93 y94
      refine Keeps.cut (s := y91) ?_ fun h121 => ?_
      · unfold y91
        refine Keeps.ite ?_ ?_
        · refine Keeps.reelUnits reelTrigger_keeps (by decide) ?_ fun x122 a123 h124 => ?_
          · exact h30
          · exact Keeps.step (unitSample_keeps _ _ _ _ _ _ _) h124 (by decide)
        · exact h30
      clear_value y91
      refine Keeps.cut (s := y95) ?_ fun h125 => ?_
      · unfold y95
        exact Keeps.step (updReel_keeps _ _) h121 (by decide)
      clear_value y95
      refine Keeps.cut (s := y96) ?_ fun h126 => ?_
      · unfold y96
        refine Keeps.ite ?_ ?_
        · exact Keeps.step (reelForm_keeps _ _) h125 (by decide)
        · exact h125
      clear_value y96
      exact Keeps.step (reelMasks_keeps _ _ _ _ _) h126 (by decide)

theorem reelStep_keeps (s : State) :
    Keeps [.host, .reel, .freeCtr] [P.HOST_IRQ_CAUSE, P.REEL_LOST, P.REEL_QUEUE_HIGH] s (reelStep s) := by
  unfold reelStep
  extract_lets y0
  clear_value y0
  split
  · extract_lets y60
    refine Keeps.cut (s := y60) ?_ fun h90 => ?_
    · unfold y60
      refine Keeps.step (reelForm_keeps _ _) ?_ (by decide)
      exact Keeps.step (reelSync_keeps _) (Keeps.refl _) (by decide)
    clear_value y60
    refine Keeps.ite ?_ ?_
    · exact Keeps.step (reelForm_keeps _ _) h90 (by decide)
    · exact Keeps.refl _
  · exact Keeps.refl _

theorem reelResult_keeps (s : State) (tag : Nat) (raw : Nat) (flags : Nat) :
    Keeps [.host, .reel, .tbus, .freeCtr] [P.HOST_IRQ_CAUSE, P.REEL_LOST, P.REEL_MASK_VIOL, P.REEL_QUEUE_HIGH,
        P.REEL_TRIG_TICK] s (reelResult s tag raw flags) := by
  unfold reelResult
  refine Keeps.ite ?_ ?_
  · refine Keeps.foldl ?_ fun x60 a61 h62 => ?_
    · exact Keeps.refl _
    · extract_lets y63 y64
      clear_value y63 y64
      exact Keeps.step (reelSample_keeps _ _ _ _ _) h62 (by decide)
  · exact Keeps.refl _

end Sys2Proof.Machine
end

