-- ==== Sys2Proof/Laws/FaultOpsFrame.lean ====
section
/-! SUPPORT. What each operation of `Machine/FaultOps.lean` may change, and that it changes nothing else. -/

namespace Sys2Proof.Machine

theorem injectLanes_keeps (s : State) :
    Keeps [.cells, .lanes] [] s (injectLanes s) := by
  unfold injectLanes
  extract_lets y0
  clear_value y0
  refine Keeps.step (B := [.cells, .lanes]) (bi := []) (s := s)
      (.upd rfl fun g hg => by cases g <;> first | exact absurd hg (by decide) | rfl) ?_ (by decide)
  exact Keeps.refl _

theorem setFlt_keeps (s : State) (i : Nat) (e : FltEntry) :
    Keeps [.flt] [] s (setFlt s i e) := by
  unfold setFlt
  extract_lets y0
  clear_value y0
  refine Keeps.step (B := [.flt]) (bi := []) (s := s)
      (.upd rfl fun g hg => by cases g <;> first | exact absurd hg (by decide) | rfl) ?_ (by decide)
  exact Keeps.refl _

theorem takeEntry_keeps (s : State) (i : Nat) (e : FltEntry) :
    Keeps [.flt] [] s (takeEntry s i e) := by
  unfold takeEntry
  extract_lets y0 y1 y2 y3 y4
  clear_value y1 y2 y3
  refine Keeps.cut (s := y0) ?_ fun h30 => ?_
  · unfold y0
    exact Keeps.step (setFlt_keeps _ _ _) (Keeps.refl _) (by decide)
  clear_value y0
  refine Keeps.cut (s := y4) ?_ fun h31 => ?_
  · unfold y4
    refine Keeps.step (B := [.flt]) (bi := []) (s := y0)
        (.upd rfl fun g hg => by cases g <;> first | exact absurd hg (by decide) | rfl) ?_ (by decide)
    exact h30
  clear_value y4
  refine Keeps.ite ?_ ?_
  · exact h30
  · refine Keeps.foldl ?_ fun x32 a33 h34 => ?_
    · exact h31
    · exact Keeps.step (setFlt_keeps _ _ _) h34 (by decide)

theorem traceEvent_keeps (s : State) (code : Nat) (slot : Nat) (cls : Nat) (strand : Nat) (prio : Nat) (info : Nat) :
    Keeps [.str, .freeCtr] [P.STR_TRACE_LOST] s (traceEvent s code slot cls strand prio info) := by
  unfold traceEvent
  extract_lets y0 y1 y2 y3 y4 y5 y6 y7 y8
  clear_value y0 y1 y2 y3 y4 y5 y6 y8
  refine Keeps.cut (s := y7) ?_ fun h30 => ?_
  · unfold y7
    refine Keeps.ite ?_ ?_
    · exact Keeps.step (incP_keeps _ _ _) (Keeps.refl _) (by decide)
    · exact Keeps.refl _
  clear_value y7
  refine Keeps.ite ?_ ?_
  · exact Keeps.refl _
  · refine Keeps.step (B := [.str]) (bi := []) (s := y7)
      (.upd rfl fun g hg => by cases g <;> first | exact absurd hg (by decide) | rfl) ?_ (by decide)
    exact h30

theorem traceFreeze_keeps (s : State) :
    Keeps [.str, .freeCtr] [P.STR_TRACE_LOST] s (traceFreeze s) := by
  unfold traceFreeze
  extract_lets y0 y1
  clear_value y1
  refine Keeps.cut (s := y0) ?_ fun h30 => ?_
  · unfold y0
    exact Keeps.step (traceEvent_keeps _ _ _ _ _ _ _) (Keeps.refl _) (by decide)
  clear_value y0
  refine Keeps.ite ?_ ?_
  · exact Keeps.refl _
  · refine Keeps.step (B := [.str]) (bi := []) (s := y0)
      (.upd rfl fun g hg => by cases g <;> first | exact absurd hg (by decide) | rfl) ?_ (by decide)
    exact h30

theorem traceLater_keeps (s : State) (code : Nat) (at_ : Nat) (slot : Nat) (cls : Nat) (strand : Nat) (prio : Nat)
      (info : Nat) :
    Keeps [.str, .freeCtr] [P.STR_TRACE_LOST] s (traceLater s code at_ slot cls strand prio info) := by
  unfold traceLater
  extract_lets y0
  clear_value y0
  refine Keeps.ite ?_ ?_
  · exact Keeps.refl _
  · refine Keeps.ite ?_ ?_
    · exact Keeps.step (incP_keeps _ _ _) (Keeps.refl _) (by decide)
    · refine Keeps.step (B := [.str]) (bi := []) (s := s)
        (.upd rfl fun g hg => by cases g <;> first | exact absurd hg (by decide) | rfl) ?_ (by decide)
      exact Keeps.refl _

theorem traceOnFault_keeps (s : State) (code : Nat) :
    Keeps [.str, .freeCtr] [P.STR_TRACE_LOST] s (traceOnFault s code) := by
  unfold traceOnFault
  extract_lets y0 y1
  clear_value y0 y1
  refine Keeps.ite ?_ ?_
  · exact Keeps.step (traceFreeze_keeps _) (Keeps.refl _) (by decide)
  · exact Keeps.refl _

theorem updBelay_keeps (s : State) (f : BelaySt → BelaySt) :
    Keeps [.belay] [] s (updBelay s f) := by
  unfold updBelay
  refine Keeps.step (B := [.belay]) (bi := []) (s := s)
      (.upd rfl fun g hg => by cases g <;> first | exact absurd hg (by decide) | rfl) ?_ (by decide)
  exact Keeps.refl _

theorem belayBlock_keeps (s : State) :
    Keeps [.arms, .cells, .lanes, .belay] [] s (belayBlock s) := by
  unfold belayBlock
  extract_lets y0
  refine Keeps.cut (s := y0) ?_ fun h30 => ?_
  · unfold y0
    exact Keeps.step (updBelay_keeps _ _) (Keeps.refl _) (by decide)
  clear_value y0
  exact Keeps.step (blockArms_keeps _ _) (Keeps.step (injectLanes_keeps _) h30 (by decide)) (by decide)

theorem belayLatch_keeps (s : State) (b : Nat) :
    Keeps [.belay] [] s (belayLatch s b) := by
  unfold belayLatch
  exact Keeps.step (updBelay_keeps _ _) (Keeps.refl _) (by decide)

theorem belayTrip_keeps (s : State) :
    Keeps [.arms, .cells, .lanes, .belay] [] s (belayTrip s) := by
  unfold belayTrip
  extract_lets y0
  refine Keeps.cut (s := y0) ?_ fun h30 => ?_
  · unfold y0
    exact Keeps.step (updBelay_keeps _ _) (Keeps.refl _) (by decide)
  clear_value y0
  exact Keeps.step (blockArms_keeps _ _) (Keeps.step (injectLanes_keeps _) h30 (by decide)) (by decide)

theorem freeEntry_keeps (s : State) (i : Nat) :
    Keeps [.flt] [] s (freeEntry s i) := by
  unfold freeEntry
  extract_lets y0 y1
  clear_value y1
  refine Keeps.cut (s := y0) ?_ fun h30 => ?_
  · unfold y0
    exact Keeps.step (setFlt_keeps _ _ _) (Keeps.refl _) (by decide)
  clear_value y0
  refine Keeps.step (B := [.flt]) (bi := []) (s := y0)
      (.upd rfl fun g hg => by cases g <;> first | exact absurd hg (by decide) | rfl) ?_ (by decide)
  exact h30

theorem reactEffect_keeps (s : State) (r : React) (mask : Nat) :
    Keeps [.arms, .cells, .lanes, .belay] [] s (reactEffect s r mask) := by
  unfold reactEffect
  extract_lets y0
  refine Keeps.cut (s := y0) ?_ fun h30 => ?_
  · unfold y0
    exact Keeps.step (blockArms_keeps _ _) (Keeps.refl _) (by decide)
  clear_value y0
  refine Keeps.ite ?_ ?_
  · exact Keeps.step (belayLatch_keeps _ _) (Keeps.step (belayTrip_keeps _) h30 (by decide)) (by decide)
  · exact h30

theorem belayReact_keeps (s : State) (r : Nat) :
    Keeps [.arms, .cells, .lanes, .belay] [] s (belayReact s r) := by
  unfold belayReact
  refine Keeps.ite ?_ ?_
  · exact Keeps.step (belayBlock_keeps _) (Keeps.refl _) (by decide)
  · refine Keeps.ite ?_ ?_
    · exact Keeps.step (belayTrip_keeps _) (Keeps.refl _) (by decide)
    · exact Keeps.refl _

theorem causeGone_keeps (s : State) (code : Nat) (inst : Nat) :
    Keeps [.flt] [] s (causeGone s code inst) := by
  unfold causeGone
  split
  · exact Keeps.refl _
  · extract_lets y30 y31
    clear_value y30 y31
    refine Keeps.ite ?_ ?_
    · exact Keeps.step (freeEntry_keeps _ _) (Keeps.refl _) (by decide)
    · exact Keeps.step (setFlt_keeps _ _ _) (Keeps.refl _) (by decide)

theorem fltRecord_keeps (s : State) (e : FltEntry) (event : Nat) (react : React) :
    Keeps [.host, .flt, .str, .reel, .tbus, .freeCtr] [P.HOST_IRQ_CAUSE, P.REEL_LOST, P.REEL_QUEUE_HIGH,
        P.REEL_TRIG_TICK, P.STR_TRACE_LOST] s (fltRecord s e event react) := by
  unfold fltRecord
  extract_lets y0 y1 y2 y3
  clear_value y0 y1
  refine Keeps.cut (s := y2) ?_ fun h30 => ?_
  · unfold y2
    refine Keeps.step (B := [.flt]) (bi := []) (s := s)
        (.upd rfl fun g hg => by cases g <;> first | exact absurd hg (by decide) | rfl) ?_ (by decide)
    exact Keeps.refl _
  clear_value y2
  refine Keeps.cut (s := y3) ?_ fun h31 => ?_
  · unfold y3
    exact Keeps.step (irqSet_keeps _ _) h30 (by decide)
  clear_value y3
  exact Keeps.step (reelFault_keeps _ _ _) (Keeps.step (traceOnFault_keeps _ _) h31 (by decide)) (by decide)

theorem graceExpire_keeps (s : State) (i : Nat) :
    Keeps [.host, .flt, .arms, .cells, .lanes, .str, .belay, .reel, .tbus, .freeCtr] [P.HOST_IRQ_CAUSE, P.REEL_LOST,
        P.REEL_QUEUE_HIGH, P.REEL_TRIG_TICK, P.STR_TRACE_LOST] s (graceExpire s i) := by
  unfold graceExpire
  extract_lets y0
  clear_value y0
  split
  · extract_lets y60 y61 y62
    clear_value y60 y62
    refine Keeps.cut (s := y61) ?_ fun h90 => ?_
    · unfold y61
      exact Keeps.step (reactEffect_keeps _ _ _) (Keeps.refl _) (by decide)
    clear_value y61
    exact Keeps.step (fltRecord_keeps _ _ _ _) (Keeps.step (setFlt_keeps _ _ _) h90 (by decide)) (by decide)
  · exact Keeps.refl _

theorem gracesDue_keeps (s : State) :
    Keeps [.host, .flt, .arms, .cells, .lanes, .str, .belay, .reel, .tbus, .freeCtr] [P.HOST_IRQ_CAUSE, P.REEL_LOST,
        P.REEL_QUEUE_HIGH, P.REEL_TRIG_TICK, P.STR_TRACE_LOST] s (gracesDue s) := by
  unfold gracesDue
  refine Keeps.foldl ?_ fun x0 a1 h2 => ?_
  · exact Keeps.refl _
  · exact Keeps.step (graceExpire_keeps _ _) h2 (by decide)

theorem reRaise_keeps (s : State) (i : Nat) (e : FltEntry) (mask : Nat) (grace : Nat) (m : RaiseMode) :
    Keeps [.host, .flt, .arms, .cells, .lanes, .str, .belay, .reel, .tbus, .freeCtr] [P.HOST_IRQ_CAUSE, P.REEL_LOST,
        P.REEL_QUEUE_HIGH, P.REEL_TRIG_TICK, P.STR_TRACE_LOST] s (reRaise s i e mask grace m) := by
  unfold reRaise
  extract_lets y0 y1 y2 y3 y4
  clear_value y1 y2 y3
  refine Keeps.cut (s := y4) ?_ fun h30 => ?_
  · unfold y4
    refine Keeps.ite ?_ ?_
    · exact Keeps.step (reactEffect_keeps _ _ _) (Keeps.refl _) (by decide)
    · exact Keeps.refl _
  clear_value y4
  refine Keeps.ite ?_ ?_
  · exact Keeps.step (setFlt_keeps _ _ _) (Keeps.refl _) (by decide)
  · split
    · unfold y0
      refine Keeps.step (fltRecord_keeps _ _ _ _) ?_ (by decide)
      exact Keeps.step (setFlt_keeps _ _ _) (Keeps.refl _) (by decide)
    · unfold y0
      exact Keeps.step (fltRecord_keeps _ _ _ _) (Keeps.step (setFlt_keeps _ _ _) h30 (by decide)) (by decide)
    · unfold y0
      refine Keeps.step (fltRecord_keeps _ _ _ _) ?_ (by decide)
      exact Keeps.step (setFlt_keeps _ _ _) (Keeps.refl _) (by decide)

theorem raiseOverflow_keeps (s : State) :
    Keeps [.host, .flt, .arms, .cells, .lanes, .str, .belay, .reel, .tbus, .freeCtr] [P.FLT_LOST, P.HOST_IRQ_CAUSE,
        P.REEL_LOST, P.REEL_QUEUE_HIGH, P.REEL_TRIG_TICK, P.STR_TRACE_LOST] s (raiseOverflow s) := by
  unfold raiseOverflow
  extract_lets y0 y1 y2
  clear_value y1 y2
  refine Keeps.cut (s := y0) ?_ fun h30 => ?_
  · unfold y0
    exact Keeps.step (incP_keeps _ _ _) (Keeps.refl _) (by decide)
  clear_value y0
  refine Keeps.ite ?_ ?_
  · exact Keeps.step (fltRecord_keeps _ _ _ _) (Keeps.step (setFlt_keeps _ _ _) h30 (by decide)) (by decide)
  · exact Keeps.step (reRaise_keeps _ _ _ _ _ _) h30 (by decide)

theorem raiseWith_keeps (s : State) (code : Nat) (inst : Nat) (cls : FltClass) (react : React) (grace : Nat) (m :
      RaiseMode) :
    Keeps [.host, .flt, .arms, .cells, .lanes, .str, .belay, .reel, .tbus, .freeCtr] [P.FLT_LOST, P.HOST_IRQ_CAUSE,
        P.REEL_LOST, P.REEL_QUEUE_HIGH, P.REEL_TRIG_TICK, P.STR_TRACE_LOST] s (raiseWith s code inst cls react grace
        m) := by
  unfold raiseWith
  split
  · exact Keeps.refl _
  · extract_lets y30 y31 y32 y33
    clear_value y30 y31 y32
    refine Keeps.cut (s := y33) ?_ fun h60 => ?_
    · unfold y33
      refine Keeps.ite ?_ ?_
      · exact Keeps.refl _
      · exact Keeps.step (reactEffect_keeps _ _ _) (Keeps.refl _) (by decide)
    clear_value y33
    split
    · exact Keeps.step (reRaise_keeps _ _ _ _ _ _) (Keeps.refl _) (by decide)
    · split
      · refine Keeps.step (raiseOverflow_keeps _) ?_ (by decide)
        refine Keeps.ite ?_ ?_
        · exact Keeps.refl _
        · exact Keeps.step (reactEffect_keeps _ _ _) (Keeps.refl _) (by decide)
      · split
        · refine Keeps.step (fltRecord_keeps _ _ _ _) ?_ (by decide)
          exact Keeps.step (takeEntry_keeps _ _ _) h60 (by decide)
        · refine Keeps.step (fltRecord_keeps _ _ _ _) ?_ (by decide)
          exact Keeps.step (takeEntry_keeps _ _ _) (Keeps.refl _) (by decide)

theorem raiseBelay_keeps (s : State) (code : Nat) (inst : Nat) (latch : Nat) :
    Keeps [.host, .flt, .arms, .cells, .lanes, .str, .belay, .reel, .tbus, .freeCtr] [P.FLT_LOST, P.HOST_IRQ_CAUSE,
        P.REEL_LOST, P.REEL_QUEUE_HIGH, P.REEL_TRIG_TICK, P.STR_TRACE_LOST] s (raiseBelay s code inst latch) := by
  unfold raiseBelay
  extract_lets y0 y1 y2
  clear_value y0
  refine Keeps.cut (s := y1) ?_ fun h30 => ?_
  · unfold y1
    refine Keeps.ite ?_ ?_
    · exact Keeps.refl _
    · exact Keeps.step (belayLatch_keeps _ _) (Keeps.refl _) (by decide)
  clear_value y1
  refine Keeps.cut (s := y2) ?_ fun h31 => ?_
  · unfold y2
    exact Keeps.step (belayReact_keeps _ _) h30 (by decide)
  clear_value y2
  exact Keeps.step (raiseWith_keeps _ _ _ _ _ _ _) h31 (by decide)

theorem raiseFault_keeps (s : State) (code : Nat) (inst : Nat) :
    Keeps [.host, .flt, .arms, .cells, .lanes, .str, .belay, .reel, .tbus, .freeCtr] [P.FLT_LOST, P.HOST_IRQ_CAUSE,
        P.REEL_LOST, P.REEL_QUEUE_HIGH, P.REEL_TRIG_TICK, P.STR_TRACE_LOST] s (raiseFault s code inst) := by
  unfold raiseFault
  extract_lets y0
  clear_value y0
  exact Keeps.step (raiseWith_keeps _ _ _ _ _ _ _) (Keeps.refl _) (by decide)

theorem raiseOnce_keeps (s : State) (code : Nat) (inst : Nat) :
    Keeps [.host, .flt, .arms, .cells, .lanes, .str, .belay, .reel, .tbus, .freeCtr] [P.FLT_LOST, P.HOST_IRQ_CAUSE,
        P.REEL_LOST, P.REEL_QUEUE_HIGH, P.REEL_TRIG_TICK, P.STR_TRACE_LOST] s (raiseOnce s code inst) := by
  unfold raiseOnce
  extract_lets y0
  clear_value y0
  exact Keeps.step (raiseWith_keeps _ _ _ _ _ _ _) (Keeps.refl _) (by decide)

theorem causeSet_keeps (s : State) (code : Nat) (inst : Nat) (present : Bool) :
    Keeps [.host, .flt, .arms, .cells, .lanes, .str, .belay, .reel, .tbus, .freeCtr] [P.FLT_LOST, P.HOST_IRQ_CAUSE,
        P.REEL_LOST, P.REEL_QUEUE_HIGH, P.REEL_TRIG_TICK, P.STR_TRACE_LOST] s (causeSet s code inst present) := by
  unfold causeSet
  refine Keeps.ite ?_ ?_
  · refine Keeps.ite ?_ ?_
    · exact Keeps.refl _
    · exact Keeps.step (raiseFault_keeps _ _ _) (Keeps.refl _) (by decide)
  · refine Keeps.ite ?_ ?_
    · exact Keeps.step (causeGone_keeps _ _ _) (Keeps.refl _) (by decide)
    · exact Keeps.refl _

end Sys2Proof.Machine
end

