-- ==== Sys2Proof/Laws/OperandsFrame.lean ====
section
/-! SUPPORT. What each operation of `Machine/Operands.lean` may change, and that it changes nothing else. -/

namespace Sys2Proof.Machine

theorem startOp_keeps (s : State) (op : Nat) (key : Nat) (c : Cmd) (args : List Nat) :
    Keeps [.ops] [] s (startOp s op key c args) := by
  unfold startOp
  refine Keeps.step (B := [.ops]) (bi := []) (s := s)
      (.upd rfl fun g hg => by cases g <;> first | exact absurd hg (by decide) | rfl) ?_ (by decide)
  exact Keeps.refl _

theorem updHost_keeps (s : State) (f : HostSt → HostSt) :
    Keeps [.host] [] s (updHost s f) := by
  unfold updHost
  refine Keeps.step (B := [.host]) (bi := []) (s := s)
      (.upd rfl fun g hg => by cases g <;> first | exact absurd hg (by decide) | rfl) ?_ (by decide)
  exact Keeps.refl _

theorem flushHeld_keeps (a : List (List Word)) (a' : State) :
    Keeps [.host] [P.HOST_IRQ_CAUSE] a' (flushHeld a a') := by
  induction a generalizing a' with
  | nil => exact (updHost_keeps _ _).step (.refl a') (by decide)
  | cons x l ih =>
    cases x with
    | nil => exact ih a'
    | cons m ws =>
      unfold flushHeld
      split
      · split
        · exact (ih _).step ((irqSet_keeps _ _).step ((updHost_keeps _ _).step (.refl a') (by decide)) (by decide))
            (by decide)
        · exact (ih _).step ((updHost_keeps _ _).step (.refl a') (by decide)) (by decide)
      · exact (updHost_keeps _ _).step (.refl a') (by decide)

theorem sendReply_keeps (s : State) (port : Port) (irq : Bool) (ws : List Word) :
    Keeps [.host] [P.HOST_IRQ_CAUSE] s (sendReply s port irq ws) := by
  unfold sendReply
  extract_lets y0
  refine Keeps.cut (s := y0) ?_ fun h30 => ?_
  · unfold y0
    exact Keeps.step (updHost_keeps _ _) (Keeps.refl _) (by decide)
  clear_value y0
  refine Keeps.ite ?_ ?_
  · refine Keeps.ite ?_ ?_
    · refine Keeps.ite ?_ ?_
      · exact Keeps.step (irqSet_keeps _ _) h30 (by decide)
      · exact h30
    · exact Keeps.step (updHost_keeps _ _) (Keeps.refl _) (by decide)
  · refine Keeps.ite ?_ ?_
    · exact Keeps.step (irqSet_keeps _ _) (Keeps.step (updHost_keeps _ _) (Keeps.refl _) (by decide)) (by decide)
    · exact Keeps.refl _

theorem answer_keeps (s : State) (op : Nat) (c : Cmd) (status : Nat) (detail : Nat) (payload : List Word) :
    Keeps [.host] [P.HOST_IRQ_CAUSE] s (answer s op c status detail payload) := by
  unfold answer
  extract_lets y0 y1
  clear_value y0
  refine Keeps.cut (s := y1) ?_ fun h30 => ?_
  · unfold y1
    exact Keeps.step (updHost_keeps _ _) (Keeps.refl _) (by decide)
  clear_value y1
  exact Keeps.step (sendReply_keeps _ _ _ _) h30 (by decide)

theorem completeOp_keeps (s : State) (o : LongOp) (status : Nat) (detail : Nat) (payload : List Word) :
    Keeps [.ops, .host] [P.HOST_IRQ_CAUSE] s (completeOp s o status detail payload) := by
  unfold completeOp
  extract_lets y0 y1
  refine Keeps.cut (s := y0) ?_ fun h30 => ?_
  · unfold y0
    exact Keeps.step (dropOp_keeps _ _ _) (Keeps.refl _) (by decide)
  clear_value y0
  refine Keeps.cut (s := y1) ?_ fun h31 => ?_
  · unfold y1
    exact Keeps.step (sendReply_keeps _ _ _ _) h30 (by decide)
  clear_value y1
  refine Keeps.ite ?_ ?_
  · exact h31
  · exact Keeps.step (irqSet_keeps _ _) h31 (by decide)

theorem goodPacket_keeps (s : State) (p : Port) (seq : Word) :
    Keeps [.host, .flt] [] s (goodPacket s p seq) := by
  unfold goodPacket
  extract_lets y0
  refine Keeps.cut (s := y0) ?_ fun h30 => ?_
  · unfold y0
    exact Keeps.step (updHost_keeps _ _) (Keeps.refl _) (by decide)
  clear_value y0
  exact Keeps.step (causeGone_keeps _ _ _) h30 (by decide)

theorem completeErr_keeps (s : State) (o : LongOp) (e : CmdErr) :
    Keeps [.ops, .host] [P.HOST_IRQ_CAUSE] s (completeErr s o e) := by
  unfold completeErr
  exact Keeps.step (completeOp_keeps _ _ _ _ _) (Keeps.refl _) (by decide)

theorem completeOk_keeps (s : State) (o : LongOp) (payload : List Word) :
    Keeps [.ops, .host] [P.HOST_IRQ_CAUSE] s (completeOk s o payload) := by
  unfold completeOk
  exact Keeps.step (completeOp_keeps _ _ _ _ _) (Keeps.refl _) (by decide)

end Sys2Proof.Machine
end

