-- ==== Sys2Proof/Laws/CleatOpsFrame.lean ====
section
/-! SUPPORT. What each operation of `Machine/CleatOps.lean` may change, and that it changes nothing else. -/

namespace Sys2Proof.Machine

theorem clearExcl_keeps (s : State) (id : Nat) :
    Keeps [.params] [] s (clearExcl s id) := by
  unfold clearExcl
  refine Keeps.step (B := [.params]) (bi := []) (s := s)
      (.updAll rfl fun g hg => by cases g <;> first | exact absurd hg (by decide) | rfl) ?_ (by decide)
  exact Keeps.refl _

theorem startRetire_keeps (s : State) (c : Nat) (closed : Bool) :
    Keeps [.cells, .cleat] [] s (startRetire s c closed) := by
  unfold startRetire
  extract_lets y0
  refine Keeps.cut (s := y0) ?_ fun h30 => ?_
  · unfold y0
    exact Keeps.step (updCell_keeps _ _ _) (Keeps.refl _) (by decide)
  clear_value y0
  refine Keeps.ite ?_ ?_
  · split
    · exact Keeps.step (updCleat_keeps _ _ _) h30 (by decide)
    · exact h30
  · exact Keeps.refl _

theorem toFault_keeps (s : State) (m : Nat) (e : Nat) :
    Keeps [.cleat] [] s (toFault s m e) := by
  unfold toFault
  exact Keeps.step (updCleat_keeps _ _ _) (Keeps.refl _) (by decide)

theorem updAct_keeps (s : State) (i : Nat) (f : Activity → Activity) :
    Keeps [.cleat] [] s (updAct s i f) := by
  unfold updAct
  extract_lets y0
  clear_value y0
  refine Keeps.step (B := [.cleat]) (bi := []) (s := s)
      (.upd rfl fun g hg => by cases g <;> first | exact absurd hg (by decide) | rfl) ?_ (by decide)
  exact Keeps.refl _

theorem cellCauses_keeps (s : State) (c : Nat) :
    Keeps [.flt] [] s (cellCauses s c) := by
  unfold cellCauses
  extract_lets y0
  clear_value y0
  refine Keeps.ite ?_ ?_
  · exact Keeps.refl _
  · refine Keeps.foldl ?_ fun x30 a31 h32 => ?_
    · exact Keeps.refl _
    · exact Keeps.step (causeGone_keeps _ _ _) h32 (by decide)

theorem cleatFullGone_keeps (s : State) (a : Nat) :
    Keeps [.flt] [] s (cleatFullGone s a) := by
  unfold cleatFullGone
  refine Keeps.ite ?_ ?_
  · exact Keeps.step (causeGone_keeps _ _ _) (Keeps.refl _) (by decide)
  · exact Keeps.refl _

theorem releaseEntry_keeps (s : State) (e : Nat) (m : Nat) :
    Keeps [.flt, .cleat] [] s (releaseEntry s e m) := by
  unfold releaseEntry
  extract_lets y0 y1
  clear_value y0
  refine Keeps.cut (s := y1) ?_ fun h30 => ?_
  · unfold y1
    exact Keeps.step (updCleat_keeps _ _ _) (Keeps.refl _) (by decide)
  clear_value y1
  refine Keeps.ite ?_ ?_
  · exact Keeps.step (cellCauses_keeps _ _) h30 (by decide)
  · exact Keeps.refl _

theorem permFailed_keeps (s : State) (c : Nat) :
    Keeps [.host, .flt, .arms, .cells, .lanes, .str, .belay, .reel, .tbus, .freeCtr] [P.FLT_LOST, P.HOST_IRQ_CAUSE,
        P.REEL_LOST, P.REEL_QUEUE_HIGH, P.REEL_TRIG_TICK, P.STR_TRACE_LOST] s (permFailed s c) := by
  unfold permFailed
  extract_lets y0
  refine Keeps.cut (s := y0) ?_ fun h30 => ?_
  · unfold y0
    exact Keeps.step (raiseFault_keeps _ _ _) (Keeps.refl _) (by decide)
  clear_value y0
  exact Keeps.step (updCell_keeps _ _ _) h30 (by decide)

theorem cleatWatch_keeps (s : State) :
    Keeps [.host, .flt, .arms, .cells, .lanes, .str, .belay, .reel, .tbus, .freeCtr] [P.CLT_HIGH_WATER, P.FLT_LOST,
        P.HOST_IRQ_CAUSE, P.REEL_LOST, P.REEL_QUEUE_HIGH, P.REEL_TRIG_TICK, P.STR_TRACE_LOST] s (cleatWatch s) := by
  unfold cleatWatch
  extract_lets y0 y1
  clear_value y1
  refine Keeps.cut (s := y0) ?_ fun h30 => ?_
  · unfold y0
    exact Keeps.step (maxP_keeps _ _ _ _) (Keeps.refl _) (by decide)
  clear_value y0
  exact Keeps.step (causeSet_keeps _ _ _ _) h30 (by decide)

theorem ledgerWatch_keeps (s : State) :
    Keeps [.host, .flt, .arms, .cells, .lanes, .str, .belay, .reel, .tbus, .freeCtr] [P.FLT_LOST, P.HOST_IRQ_CAUSE,
        P.REEL_LOST, P.REEL_QUEUE_HIGH, P.REEL_TRIG_TICK, P.STR_TRACE_LOST] s (ledgerWatch s) := by
  unfold ledgerWatch
  refine Keeps.foldl ?_ fun x0 a1 h2 => ?_
  · exact Keeps.refl _
  · refine Keeps.ite ?_ ?_
    · exact Keeps.step (causeSet_keeps _ _ _ _) h2 (by decide)
    · exact h2

theorem retireDone_keeps (s : State) (c : Nat) (m : Nat) :
    Keeps [.ops, .host, .flt, .arms, .cells, .lanes, .cleat, .str, .belay, .reel, .tbus, .freeCtr] [P.FLT_LOST,
        P.HOST_IRQ_CAUSE, P.REEL_LOST, P.REEL_QUEUE_HIGH, P.REEL_TRIG_TICK,
        P.STR_TRACE_LOST] s (retireDone s c m) := by
  unfold retireDone
  extract_lets y0 y1 y2 y3 y4
  refine Keeps.cut (s := y0) ?_ fun h30 => ?_
  · unfold y0
    exact Keeps.step (updCell_keeps _ _ _) (Keeps.refl _) (by decide)
  clear_value y0
  refine Keeps.cut (s := y1) ?_ fun h31 => ?_
  · unfold y1
    exact Keeps.step (causeGone_keeps _ _ _) (Keeps.step (raiseFault_keeps _ _ _) h30 (by decide)) (by decide)
  clear_value y1
  refine Keeps.cut (s := y2) ?_ fun h32 => ?_
  · unfold y2
    exact Keeps.step (causeGone_keeps _ _ _) h31 (by decide)
  clear_value y2
  refine Keeps.cut (s := y3) ?_ fun h33 => ?_
  · unfold y3
    split
    · exact Keeps.step (releaseEntry_keeps _ _ _) h32 (by decide)
    · exact h32
  clear_value y3
  refine Keeps.cut (s := y4) ?_ fun h34 => ?_
  · unfold y4
    exact Keeps.step (ledgerWatch_keeps _) h33 (by decide)
  clear_value y4
  split
  · exact Keeps.step (completeOk_keeps _ _ _) h34 (by decide)
  · exact h34

theorem takeFault_keeps (s : State) (m : Nat) (e : Nat) (c : Nat) :
    Keeps [.host, .flt, .arms, .cells, .lanes, .cleat, .str, .belay, .reel, .tbus, .freeCtr] [P.CLT_HIGH_WATER,
        P.FLT_LOST, P.HOST_IRQ_CAUSE, P.REEL_LOST, P.REEL_QUEUE_HIGH, P.REEL_TRIG_TICK,
        P.STR_TRACE_LOST] s (takeFault s m e c) := by
  unfold takeFault
  refine Keeps.step (cleatWatch_keeps _) ?_ (by decide)
  exact Keeps.step (updCleat_keeps _ _ _) (Keeps.refl _) (by decide)

theorem faultUse_keeps (s : State) (c : Nat) :
    Keeps [.host, .flt, .arms, .cells, .lanes, .cleat, .str, .belay, .reel, .tbus, .freeCtr] [P.CLT_HIGH_WATER,
        P.FLT_LOST, P.HOST_IRQ_CAUSE, P.REEL_LOST, P.REEL_QUEUE_HIGH, P.REEL_TRIG_TICK,
        P.STR_TRACE_LOST] s (faultUse s c) := by
  unfold faultUse
  extract_lets y0 y1 y2
  clear_value y0 y2
  refine Keeps.cut (s := y1) ?_ fun h30 => ?_
  · unfold y1
    refine Keeps.step (B := [.cleat]) (bi := []) (s := s)
        (.upd rfl fun g hg => by cases g <;> first | exact absurd hg (by decide) | rfl) ?_ (by decide)
    exact Keeps.refl _
  clear_value y1
  split
  · refine Keeps.ite ?_ ?_
    · refine Keeps.ite ?_ ?_
      · exact Keeps.step (startRetire_keeps _ _ _) (Keeps.refl _) (by decide)
      · exact Keeps.refl _
    · refine Keeps.step (cleatWatch_keeps _) ?_ (by decide)
      exact Keeps.step (toFault_keeps _ _ _) (Keeps.refl _) (by decide)
  · refine Keeps.ite ?_ ?_
    · exact Keeps.refl _
    · split
      · exact Keeps.step (takeFault_keeps _ _ _ _) (Keeps.refl _) (by decide)
      · refine Keeps.ite ?_ ?_
        · exact Keeps.step (raiseFault_keeps _ _ _) h30 (by decide)
        · exact h30

theorem freeActivity_keeps (s : State) (i : Nat) :
    Keeps [.host, .flt, .arms, .cells, .lanes, .cleat, .str, .belay, .reel, .tbus, .freeCtr] [P.FLT_LOST,
        P.HOST_IRQ_CAUSE, P.REEL_LOST, P.REEL_QUEUE_HIGH, P.REEL_TRIG_TICK,
        P.STR_TRACE_LOST] s (freeActivity s i) := by
  unfold freeActivity
  refine Keeps.step (ledgerWatch_keeps _) ?_ (by decide)
  exact Keeps.step (updAct_keeps _ _ _) (Keeps.refl _) (by decide)

theorem retireEntry_keeps (s : State) (m : Nat) (c : Nat) :
    Keeps [.host, .flt, .arms, .cells, .lanes, .cleat, .str, .belay, .reel, .tbus, .freeCtr] [P.CLT_HIGH_WATER,
        P.FLT_LOST, P.HOST_IRQ_CAUSE, P.REEL_LOST, P.REEL_QUEUE_HIGH, P.REEL_TRIG_TICK,
        P.STR_TRACE_LOST] s (retireEntry s m c) := by
  unfold retireEntry
  split
  · refine Keeps.ite ?_ ?_
    · exact Keeps.refl _
    · refine Keeps.step (cleatWatch_keeps _) ?_ (by decide)
      exact Keeps.step (toFault_keeps _ _ _) (Keeps.refl _) (by decide)
  · split
    · exact Keeps.step (takeFault_keeps _ _ _ _) (Keeps.refl _) (by decide)
    · exact Keeps.refl _

theorem servePending_keeps (m : Nat) (s : State) :
    Keeps [.host, .flt, .arms, .cells, .lanes, .cleat, .str, .belay, .reel, .tbus, .freeCtr] [P.CLT_HIGH_WATER,
        P.FLT_LOST, P.HOST_IRQ_CAUSE, P.REEL_LOST, P.REEL_QUEUE_HIGH, P.REEL_TRIG_TICK,
        P.STR_TRACE_LOST] s (servePending m s) := by
  unfold servePending
  extract_lets y0
  clear_value y0
  split
  · exact Keeps.refl _
  · extract_lets y60
    refine Keeps.cut (s := y60) ?_ fun h90 => ?_
    · unfold y60
      refine Keeps.step (B := [.cleat]) (bi := []) (s := s)
          (.upd rfl fun g hg => by cases g <;> first | exact absurd hg (by decide) | rfl) ?_ (by decide)
      exact Keeps.refl _
    clear_value y60
    refine Keeps.ite ?_ ?_
    · exact Keeps.refl _
    · refine Keeps.step (cleatFullGone_keeps _ _) ?_ (by decide)
      exact Keeps.step (retireEntry_keeps _ _ _) h90 (by decide)

theorem servePendings_keeps (m : Nat) (s : State) :
    Keeps [.host, .flt, .arms, .cells, .lanes, .cleat, .str, .belay, .reel, .tbus, .freeCtr] [P.CLT_HIGH_WATER,
        P.FLT_LOST, P.HOST_IRQ_CAUSE, P.REEL_LOST, P.REEL_QUEUE_HIGH, P.REEL_TRIG_TICK,
        P.STR_TRACE_LOST] s (servePendings m s) := by
  unfold servePendings
  refine Keeps.foldl ?_ fun x0 a1 h2 => ?_
  · exact Keeps.refl _
  · exact Keeps.step (servePending_keeps _ _) h2 (by decide)

theorem serveRetire_keeps (m : Nat) (s : State) :
    Keeps [.ops, .host, .flt, .arms, .cells, .lanes, .cleat, .str, .belay, .reel, .tbus,
        .freeCtr] [P.CLT_HIGH_WATER, P.FLT_LOST, P.HOST_IRQ_CAUSE, P.REEL_LOST, P.REEL_QUEUE_HIGH, P.REEL_TRIG_TICK,
        P.STR_TRACE_LOST] s (serveRetire m s) := by
  unfold serveRetire
  refine Keeps.foldl ?_ fun x30 a31 h32 => ?_
  · exact Keeps.refl _
  · extract_lets y33
    refine Keeps.cut (s := y33) ?_ fun h63 => ?_
    · unfold y33
      exact Keeps.step (retireEntry_keeps _ _ _) h32 (by decide)
    clear_value y33
    refine Keeps.ite ?_ ?_
    · exact Keeps.step (startRetire_keeps _ _ _) (Keeps.step (updOp_keeps _ _ _ _) h63 (by decide)) (by decide)
    · exact h63

theorem suspectCell_keeps (s : State) (c : Nat) (code : Nat) :
    Keeps [.host, .flt, .arms, .cells, .lanes, .cleat, .str, .belay, .reel, .tbus, .freeCtr] [P.CLT_HIGH_WATER,
        P.FLT_LOST, P.HOST_IRQ_CAUSE, P.REEL_LOST, P.REEL_QUEUE_HIGH, P.REEL_TRIG_TICK,
        P.STR_TRACE_LOST] s (suspectCell s c code) := by
  unfold suspectCell
  refine Keeps.ite ?_ ?_
  · exact Keeps.refl _
  · refine Keeps.step (faultUse_keeps _ _) ?_ (by decide)
    exact Keeps.step (raiseFault_keeps _ _ _) (Keeps.refl _) (by decide)

theorem freeCleats_keeps (s : State) (m : Nat) :
    Keeps [.ops, .host, .flt, .arms, .cells, .lanes, .cleat, .str, .belay, .reel, .tbus,
        .freeCtr] [P.CLT_HIGH_WATER, P.FLT_LOST, P.HOST_IRQ_CAUSE, P.REEL_LOST, P.REEL_QUEUE_HIGH, P.REEL_TRIG_TICK,
        P.STR_TRACE_LOST] s (freeCleats s m) := by
  unfold freeCleats
  extract_lets y0 y1
  clear_value y0
  refine Keeps.cut (s := y1) ?_ fun h30 => ?_
  · unfold y1
    refine Keeps.foldl ?_ fun x31 a32 h33 => ?_
    · exact Keeps.refl _
    · exact Keeps.step (updCleat_keeps _ _ _) h33 (by decide)
  clear_value y1
  refine Keeps.step (cleatWatch_keeps _) ?_ (by decide)
  exact Keeps.step (serveRetire_keeps _ _) (Keeps.step (servePendings_keeps _ _) h30 (by decide)) (by decide)

theorem freeCleat_keeps (s : State) (e : Nat) :
    Keeps [.ops, .host, .flt, .arms, .cells, .lanes, .cleat, .str, .belay, .reel, .tbus,
        .freeCtr] [P.CLT_HIGH_WATER, P.FLT_LOST, P.HOST_IRQ_CAUSE, P.REEL_LOST, P.REEL_QUEUE_HIGH, P.REEL_TRIG_TICK,
        P.STR_TRACE_LOST] s (freeCleat s e) := by
  unfold freeCleat
  refine Keeps.ite ?_ ?_
  · exact Keeps.step (freeCleats_keeps _ _) (Keeps.refl _) (by decide)
  · exact Keeps.refl _

end Sys2Proof.Machine
end

