-- ==== Sys2Proof/Laws/StrOpsFrame.lean ====
section
/-! SUPPORT. What each operation of `Machine/StrOps.lean` may change, and that it changes nothing else. -/

namespace Sys2Proof.Machine

theorem busyAdd_keeps (s : State) (n : Nat) (a : Nat) (b : Nat) :
    Keeps [.str] [P.STR_BUSY] s (busyAdd s n a b) := by
  unfold busyAdd
  extract_lets y0 y1 y2 y3 y4 y5 y6
  clear_value y0 y1 y2 y3 y5
  refine Keeps.cut (s := y4) ?_ fun h30 => ?_
  · unfold y4
    refine Keeps.ite ?_ ?_
    · exact Keeps.step (putN_keeps _ _ _ _) (Keeps.refl _) (by decide)
    · exact Keeps.refl _
  clear_value y4
  refine Keeps.cut (s := y6) ?_ fun h31 => ?_
  · unfold y6
    exact Keeps.step (putN_keeps _ _ _ _) h30 (by decide)
  clear_value y6
  refine Keeps.ite ?_ ?_
  · exact Keeps.step (updStrand_keeps _ _ _) h30 (by decide)
  · exact Keeps.step (updStrand_keeps _ _ _) h31 (by decide)

theorem gateDrop_keeps (s : State) (n : Nat) :
    Keeps [.str] [] s (gateDrop s n) := by
  unfold gateDrop
  extract_lets y0
  clear_value y0
  refine Keeps.step (B := [.str]) (bi := []) (s := s)
      (.upd rfl fun g hg => by cases g <;> first | exact absurd hg (by decide) | rfl) ?_ (by decide)
  exact Keeps.refl _

theorem releaseStrand_keeps (s : State) (n : Nat) :
    Keeps [.str, .freeCtr] [P.STR_TRACE_LOST] s (releaseStrand s n) := by
  unfold releaseStrand
  refine Keeps.step (traceLater_keeps _ _ _ _ _ _ _ _) ?_ (by decide)
  exact Keeps.step (updStrand_keeps _ _ _) (Keeps.refl _) (by decide)

theorem traceTask_keeps (s : State) (code : Nat) (slot : Nat) (t : Task) (strand : Nat) :
    Keeps [.str, .freeCtr] [P.STR_TRACE_LOST] s (traceTask s code slot t strand) := by
  unfold traceTask
  exact Keeps.step (traceEvent_keeps _ _ _ _ _ _ _) (Keeps.refl _) (by decide)

theorem unseat_keeps (s : State) (i : Nat) :
    Keeps [.str, .freeCtr] [P.STR_BUSY, P.STR_TRACE_LOST] s (unseat s i) := by
  unfold unseat
  extract_lets y0
  clear_value y0
  refine Keeps.ite ?_ ?_
  · refine Keeps.step (releaseStrand_keeps _ _) ?_ (by decide)
    exact Keeps.step (busyAdd_keeps _ _ _ _) (Keeps.refl _) (by decide)
  · exact Keeps.refl _

theorem placeOn_keeps (s : State) (i : Nat) (n : Nat) :
    Keeps [.str, .freeCtr] [P.STR_TRACE_LOST, P.STR_WAIT_MAX] s (placeOn s i n) := by
  unfold placeOn
  extract_lets y0 y1 y2 y3 y4 y5 y6
  clear_value y0 y1 y3
  refine Keeps.cut (s := y2) ?_ fun h30 => ?_
  · unfold y2
    refine Keeps.ite ?_ ?_
    · exact Keeps.step (traceEvent_keeps _ _ _ _ _ _ _) (Keeps.refl _) (by decide)
    · exact Keeps.step (gateDrop_keeps _ _) (Keeps.refl _) (by decide)
  clear_value y2
  refine Keeps.cut (s := y4) ?_ fun h31 => ?_
  · unfold y4
    exact Keeps.step (updTask_keeps _ _ _) h30 (by decide)
  clear_value y4
  refine Keeps.cut (s := y5) ?_ fun h32 => ?_
  · unfold y5
    refine Keeps.step (updStrand_keeps _ _ _) ?_ (by decide)
    refine Keeps.step (B := [.freeCtr]) (bi := []) (s := y4)
        (.upd rfl fun g hg => by cases g <;> first | exact absurd hg (by decide) | rfl) ?_ (by decide)
    exact h31
  clear_value y5
  refine Keeps.cut (s := y6) ?_ fun h33 => ?_
  · unfold y6
    exact Keeps.step (maxP_keeps _ _ _ _) h32 (by decide)
  clear_value y6
  refine Keeps.ite ?_ ?_
  · exact Keeps.step (traceLater_keeps _ _ _ _ _ _ _ _) h33 (by decide)
  · exact Keeps.step (traceTask_keeps _ _ _ _ _) h33 (by decide)

theorem placeTasks_keeps (s : State) :
    Keeps [.str, .freeCtr] [P.STR_TRACE_LOST, P.STR_WAIT_MAX] s (placeTasks s) := by
  unfold placeTasks
  refine Keeps.foldl ?_ fun x0 a1 h2 => ?_
  · exact Keeps.refl _
  · exact Keeps.step (placeOn_keeps _ _ _) h2 (by decide)

theorem readyTask_keeps (s : State) (i : Nat) :
    Keeps [.str, .freeCtr] [P.STR_READY_MAX, P.STR_TRACE_LOST] s (readyTask s i) := by
  unfold readyTask
  extract_lets y0 y1
  refine Keeps.cut (s := y0) ?_ fun h30 => ?_
  · unfold y0
    exact Keeps.step (updTask_keeps _ _ _) (Keeps.refl _) (by decide)
  clear_value y0
  refine Keeps.cut (s := y1) ?_ fun h31 => ?_
  · unfold y1
    exact Keeps.step (traceTask_keeps _ _ _ _ _) h30 (by decide)
  clear_value y1
  exact Keeps.step (maxP_keeps _ _ _ _) h31 (by decide)

theorem seatTask_keeps (s : State) (i : Nat) (t : Task) :
    Keeps [.str, .freeCtr] [P.STR_READY_MAX, P.STR_SLOTS_HIGH, P.STR_TRACE_LOST] s (seatTask s i t) := by
  unfold seatTask
  extract_lets y0 y1
  refine Keeps.cut (s := y0) ?_ fun h30 => ?_
  · unfold y0
    exact Keeps.step (updTask_keeps _ _ _) (Keeps.refl _) (by decide)
  clear_value y0
  refine Keeps.cut (s := y1) ?_ fun h31 => ?_
  · unfold y1
    exact Keeps.step (maxP_keeps _ _ _ _) h30 (by decide)
  clear_value y1
  refine Keeps.ite ?_ ?_
  · exact Keeps.step (readyTask_keeps _ _) h31 (by decide)
  · exact h31

theorem seatWaiting_keeps (s : State) :
    Keeps [.str, .freeCtr] [P.STR_READY_MAX, P.STR_SLOTS_HIGH, P.STR_TRACE_LOST] s (seatWaiting s) := by
  unfold seatWaiting
  extract_lets y0
  clear_value y0
  split
  · exact Keeps.refl _
  · split
    · exact Keeps.refl _
    · refine Keeps.step (seatTask_keeps _ _ _) ?_ (by decide)
      refine Keeps.step (B := [.str]) (bi := []) (s := s)
          (.upd rfl fun g hg => by cases g <;> first | exact absurd hg (by decide) | rfl) ?_ (by decide)
      exact Keeps.refl _

theorem createSlot_keeps (s : State) (t : Task) :
    Keeps [.str, .freeCtr] [P.STR_READY_MAX, P.STR_SLOTS_HIGH, P.STR_TRACE_LOST] s (createSlot s t).1 := by
  unfold createSlot
  extract_lets y0
  clear_value y0
  split
  · dsimp only
    exact Keeps.step (seatTask_keeps _ _ _) (Keeps.refl _) (by decide)
  · dsimp only
    refine Keeps.step (B := [.str]) (bi := []) (s := s)
        (.upd rfl fun g hg => by cases g <;> first | exact absurd hg (by decide) | rfl) ?_ (by decide)
    exact Keeps.refl _

theorem createTask_keeps (s : State) (t : Task) :
    Keeps [.str, .freeCtr] [P.STR_READY_MAX, P.STR_SLOTS_HIGH, P.STR_TRACE_LOST] s (createTask s t) := by
  unfold createTask
  exact Keeps.step (createSlot_keeps _ _) (Keeps.refl _) (by decide)

theorem decTask_keeps (s : State) (i : Nat) :
    Keeps [.str, .freeCtr] [P.STR_READY_MAX, P.STR_TRACE_LOST] s (decTask s i) := by
  unfold decTask
  extract_lets y0 y1 y2
  clear_value y0 y1
  refine Keeps.cut (s := y2) ?_ fun h30 => ?_
  · unfold y2
    exact Keeps.step (updTask_keeps _ _ _) (Keeps.refl _) (by decide)
  clear_value y2
  refine Keeps.ite ?_ ?_
  · refine Keeps.step (B := [.str]) (bi := []) (s := s)
      (.upd rfl fun g hg => by cases g <;> first | exact absurd hg (by decide) | rfl) ?_ (by decide)
    exact Keeps.refl _
  · refine Keeps.ite ?_ ?_
    · refine Keeps.ite ?_ ?_
      · exact Keeps.step (readyTask_keeps _ _) h30 (by decide)
      · exact h30
    · exact Keeps.refl _

theorem dropTasks_keeps (s : State) (p : Task → Bool) :
    Keeps [.str, .freeCtr] [P.STR_BUSY, P.STR_READY_MAX, P.STR_SLOTS_HIGH, P.STR_TRACE_LOST] s (dropTasks s p) := by
  unfold dropTasks
  extract_lets y0 y1 y2 y3
  clear_value y0 y1
  refine Keeps.cut (s := y2) ?_ fun h30 => ?_
  · unfold y2
    refine Keeps.step (B := [.str]) (bi := []) (s := s)
        (.upd rfl fun g hg => by cases g <;> first | exact absurd hg (by decide) | rfl) ?_ (by decide)
    exact Keeps.refl _
  clear_value y2
  refine Keeps.cut (s := y3) ?_ fun h31 => ?_
  · unfold y3
    refine Keeps.foldl ?_ fun x32 a33 h34 => ?_
    · exact h30
    · exact Keeps.step (updTask_keeps _ _ _) (Keeps.step (unseat_keeps _ _) h34 (by decide)) (by decide)
  clear_value y3
  refine Keeps.foldl ?_ fun x35 a36 h37 => ?_
  · exact h31
  · exact Keeps.step (seatWaiting_keeps _) h37 (by decide)

theorem freeTask_keeps (s : State) (i : Nat) :
    Keeps [.str, .freeCtr] [P.STR_READY_MAX, P.STR_SLOTS_HIGH, P.STR_TRACE_LOST] s (freeTask s i) := by
  unfold freeTask
  refine Keeps.step (seatWaiting_keeps _) ?_ (by decide)
  exact Keeps.step (updTask_keeps _ _ _) (Keeps.refl _) (by decide)

theorem cancelSucc_keeps (a : Nat) (a' : State) (a'' : List (Nat × Bool)) :
    Keeps [.str, .freeCtr] [P.STR_READY_MAX, P.STR_SLOTS_HIGH, P.STR_TRACE_LOST] a' (cancelSucc a a' a'') := by
  induction a generalizing a' a'' with
  | zero => exact Keeps.refl _
  | succ n ih =>
    unfold cancelSucc
    refine Keeps.foldl (.refl a') fun x p h => ?_
    dsimp only
    split
    · exact (decTask_keeps _ _).step h (by decide)
    · split
      · exact (ih _ _).step (.step (B := [.str]) (bi := []) (s := x)
          (.upd rfl fun g hg => by cases g <;> first | exact absurd hg (by decide) | rfl) h (by decide)) (by decide)
      · split
        · exact (ih _ _).step ((freeTask_keeps _ _).step ((traceTask_keeps _ _ _ _ _).step h (by decide)) (by
            decide)) (by decide)
        · exact h

theorem abandonTask_keeps (s : State) (i : Nat) :
    Keeps [.str, .freeCtr] [P.STR_BUSY, P.STR_DEADLINE_MISS, P.STR_READY_MAX, P.STR_SLOTS_HIGH,
        P.STR_TRACE_LOST] s (abandonTask s i) := by
  unfold abandonTask
  extract_lets y0 y1 y2 y3 y4
  clear_value y0
  refine Keeps.cut (s := y1) ?_ fun h30 => ?_
  · unfold y1
    exact Keeps.step (traceTask_keeps _ _ _ _ _) (Keeps.refl _) (by decide)
  clear_value y1
  refine Keeps.cut (s := y2) ?_ fun h31 => ?_
  · unfold y2
    exact Keeps.step (unseat_keeps _ _) h30 (by decide)
  clear_value y2
  refine Keeps.cut (s := y3) ?_ fun h32 => ?_
  · unfold y3
    exact Keeps.step (freeTask_keeps _ _) h31 (by decide)
  clear_value y3
  refine Keeps.cut (s := y4) ?_ fun h33 => ?_
  · unfold y4
    exact Keeps.step (incP_keeps _ _ _) h32 (by decide)
  clear_value y4
  refine Keeps.ite ?_ ?_
  · exact Keeps.refl _
  · exact Keeps.step (cancelSucc_keeps _ _ _) h33 (by decide)

theorem stopTask_keeps (s : State) (n : Nat) (info : Nat) :
    Keeps [.host, .flt, .arms, .cells, .lanes, .str, .belay, .reel, .tbus, .freeCtr] [P.FLT_LOST, P.HOST_IRQ_CAUSE,
        P.REEL_LOST, P.REEL_QUEUE_HIGH, P.REEL_TRIG_TICK, P.STR_BUSY, P.STR_DEADLINE_MISS, P.STR_READY_MAX,
        P.STR_SLOTS_HIGH, P.STR_TRACE_LOST] s (stopTask s n info) := by
  unfold stopTask
  split
  · exact Keeps.refl _
  · extract_lets y30 y31 y32 y33 y34
    clear_value y30
    refine Keeps.cut (s := y31) ?_ fun h60 => ?_
    · unfold y31
      exact Keeps.step (traceEvent_keeps _ _ _ _ _ _ _) (Keeps.refl _) (by decide)
    clear_value y31
    refine Keeps.cut (s := y32) ?_ fun h61 => ?_
    · unfold y32
      exact Keeps.step (busyAdd_keeps _ _ _ _) h60 (by decide)
    clear_value y32
    refine Keeps.cut (s := y33) ?_ fun h62 => ?_
    · unfold y33
      exact Keeps.step (updStrand_keeps _ _ _) h61 (by decide)
    clear_value y33
    refine Keeps.cut (s := y34) ?_ fun h63 => ?_
    · unfold y34
      exact Keeps.step (raiseFault_keeps _ _ _) h62 (by decide)
    clear_value y34
    refine Keeps.ite ?_ ?_
    · exact Keeps.step (abandonTask_keeps _ _) (Keeps.step (updTask_keeps _ _ _) h63 (by decide)) (by decide)
    · exact Keeps.step (readyTask_keeps _ _) (Keeps.step (updTask_keeps _ _ _) h63 (by decide)) (by decide)

end Sys2Proof.Machine
end

