-- ==== Sys2Proof/Laws/TallyCoreFrame.lean ====
section
/-! SUPPORT. What each operation of `Machine/TallyCore.lean` may change, and that it changes nothing else. -/

namespace Sys2Proof.Machine

theorem tallyFollow_keeps (s : State) (k : Nat) :
    Keeps [.flt, .tally] [] s (tallyFollow s k) := by
  unfold tallyFollow
  extract_lets y0 y1 y2 y3 y4
  clear_value y0 y1 y2 y3
  refine Keeps.cut (s := y4) ?_ fun h30 => ?_
  · unfold y4
    refine Keeps.step (B := [.tally]) (bi := []) (s := s)
        (.upd rfl fun g hg => by cases g <;> first | exact absurd hg (by decide) | rfl) ?_ (by decide)
    exact Keeps.refl _
  clear_value y4
  refine Keeps.ite ?_ ?_
  · exact Keeps.step (causeGone_keeps _ _ _) h30 (by decide)
  · exact h30

theorem tallyStale_keeps (s : State) :
    Keeps [.str, .tally, .freeCtr] [P.STR_READY_MAX, P.STR_SLOTS_HIGH, P.STR_TRACE_LOST] s (tallyStale s) := by
  unfold tallyStale
  extract_lets y0 y1 y2
  clear_value y0
  refine Keeps.cut (s := y1) ?_ fun h30 => ?_
  · unfold y1
    refine Keeps.step (B := [.tally]) (bi := []) (s := s)
        (.upd rfl fun g hg => by cases g <;> first | exact absurd hg (by decide) | rfl) ?_ (by decide)
    exact Keeps.refl _
  clear_value y1
  refine Keeps.ite ?_ ?_
  · exact h30
  · exact Keeps.step (createTask_keeps _ _) h30 (by decide)

theorem tallyTouch_keeps (s : State) (id : Nat) :
    Keeps [.str, .tally, .freeCtr] [P.STR_READY_MAX, P.STR_SLOTS_HIGH, P.STR_TRACE_LOST] s (tallyTouch s id) := by
  unfold tallyTouch
  split
  · refine Keeps.ite ?_ ?_
    · exact Keeps.step (tallyStale_keeps _) (Keeps.refl _) (by decide)
    · exact Keeps.refl _
  · exact Keeps.refl _

theorem tallyWatch_keeps (s : State) :
    Keeps [.flt, .tally] [] s (tallyWatch s) := by
  unfold tallyWatch
  refine Keeps.step (tallyFollow_keeps _ _) ?_ (by decide)
  refine Keeps.step (tallyFollow_keeps _ _) ?_ (by decide)
  exact Keeps.step (tallyFollow_keeps _ _) (Keeps.refl _) (by decide)

theorem setDigest_keeps (s : State) (code : Nat) (w : Word) :
    Keeps [.flt, .cells, .lanes, .tally] [P.TALLY_CELL_DIGEST, P.TALLY_HUB_DIGEST] s (setDigest s code w) := by
  unfold setDigest
  extract_lets y0
  refine Keeps.cut (s := y0) ?_ fun h30 => ?_
  · unfold y0
    refine Keeps.ite ?_ ?_
    · refine Keeps.step (updCell_keeps _ _ _) ?_ (by decide)
      exact Keeps.step (putP_keeps _ _ _ _) (Keeps.refl _) (by decide)
    · refine Keeps.step (updLane_keeps _ _ _) ?_ (by decide)
      exact Keeps.step (putP_keeps _ _ _ _) (Keeps.refl _) (by decide)
  clear_value y0
  exact Keeps.step (tallyFollow_keeps _ _) h30 (by decide)

theorem tallyCompute_keeps (s : State) :
    Keeps [.flt, .tally] [P.TALLY_BLOCK, P.TALLY_CONVERTER] s (tallyCompute s) := by
  unfold tallyCompute
  extract_lets y0 y1 y2
  clear_value y2
  refine Keeps.cut (s := y0) ?_ fun h30 => ?_
  · unfold y0
    refine Keeps.foldl ?_ fun x31 a32 h33 => ?_
    · exact Keeps.refl _
    · refine Keeps.ite ?_ ?_
      · exact h33
      · exact Keeps.step (putP_keeps _ _ _ _) h33 (by decide)
  clear_value y0
  refine Keeps.cut (s := y1) ?_ fun h34 => ?_
  · unfold y1
    exact Keeps.step (putP_keeps _ _ _ _) h30 (by decide)
  clear_value y1
  refine Keeps.step (tallyWatch_keeps _) ?_ (by decide)
  refine Keeps.step (B := [.tally]) (bi := []) (s := y1)
      (.upd rfl fun g hg => by cases g <;> first | exact absurd hg (by decide) | rfl) ?_ (by decide)
  exact h34

end Sys2Proof.Machine
end

