-- ==== Sys2Proof/Laws/LaneOpsFrame.lean ====
section
/-! SUPPORT. What each operation of `Machine/LaneOps.lean` may change, and that it changes nothing else. -/

namespace Sys2Proof.Machine

theorem blockLaneCells_keeps (s : State) (l : Nat) :
    Keeps [.arms, .cells] [] s (blockLaneCells s l) := by
  unfold blockLaneCells
  refine Keeps.foldl ?_ fun x30 a31 h32 => ?_
  · exact Keeps.refl _
  · extract_lets y33 y34 y35
    clear_value y33 y34
    refine Keeps.cut (s := y35) ?_ fun h63 => ?_
    · unfold y35
      refine Keeps.ite ?_ ?_
      · exact Keeps.step (updArm_keeps _ _ _) h32 (by decide)
      · exact h32
    clear_value y35
    refine Keeps.ite ?_ ?_
    · exact Keeps.step (updCell_keeps _ _ _) h63 (by decide)
    · exact h32

theorem closeRetry_keeps (s : State) (l : Nat) :
    Keeps [.lanes] [] s (closeRetry s l) := by
  unfold closeRetry
  exact Keeps.step (updLane_keeps _ _ _) (Keeps.refl _) (by decide)

theorem eyeStore_keeps (s : State) (o : LongOp) (l : Nat) (complete : Bool) (pts : List (BitVec 16)) :
    Keeps [.tables] [] s (eyeStore s o l complete pts) := by
  unfold eyeStore
  exact Keeps.step (putTable_keeps _ _ _ _) (Keeps.refl _) (by decide)

theorem ownSettle_keeps (s : State) (l : Nat) :
    Keeps [.lanes] [] s (ownSettle s l) := by
  unfold ownSettle
  extract_lets y0
  clear_value y0
  refine Keeps.ite ?_ ?_
  · exact Keeps.step (updLane_keeps _ _ _) (Keeps.refl _) (by decide)
  · exact Keeps.refl _

theorem queueOwn_keeps (s : State) (l : Nat) :
    Keeps [.lanes] [] s (queueOwn s l) := by
  unfold queueOwn
  extract_lets y0
  clear_value y0
  exact Keeps.step (updLane_keeps _ _ _) (Keeps.refl _) (by decide)

theorem setCfgFail_keeps (s : State) (l : Nat) (port : Nat) :
    Keeps [.cells, .lanes] [] s (setCfgFail s l port) := by
  unfold setCfgFail
  refine Keeps.ite ?_ ?_
  · exact Keeps.step (updLane_keeps _ _ _) (Keeps.refl _) (by decide)
  · exact Keeps.step (updCell_keeps _ _ _) (Keeps.refl _) (by decide)

theorem storeRecord_keeps (s : State) (l : Nat) (port : Nat) (st : RecSt) (ws : List Word) :
    Keeps [.cells, .lanes] [] s (storeRecord s l port st ws) := by
  unfold storeRecord
  refine Keeps.ite ?_ ?_
  · exact Keeps.step (updLane_keeps _ _ _) (Keeps.refl _) (by decide)
  · exact Keeps.step (updCell_keeps _ _ _) (Keeps.refl _) (by decide)

theorem txnDrop_keeps (s : State) (l : Nat) (t : Txn) :
    Keeps [.lanes] [] s (txnDrop s l t) := by
  unfold txnDrop
  exact Keeps.step (updLane_keeps _ _ _) (Keeps.refl _) (by decide)

theorem recordDone_keeps (s : State) (l : Nat) (port : Nat) (src : Nat) (ok : Bool) :
    Keeps [.ops, .cells, .lanes] [] s (recordDone s l port src ok) := by
  unfold recordDone
  extract_lets y0 y1
  clear_value y0
  refine Keeps.cut (s := y1) ?_ fun h30 => ?_
  · unfold y1
    exact Keeps.step (updLane_keeps _ _ _) (Keeps.refl _) (by decide)
  clear_value y1
  refine Keeps.ite ?_ ?_
  · exact Keeps.step (updLane_keeps _ _ _) (Keeps.step (storeRecord_keeps _ _ _ _ _) h30 (by decide)) (by decide)
  · refine Keeps.step (B := [.ops]) (bi := []) (s := y1)
      (.upd rfl fun g hg => by cases g <;> first | exact absurd hg (by decide) | rfl) ?_ (by decide)
    exact h30

theorem applyLaneGroup_keeps (s : State) (l : Nat) :
    Keeps [.params, .staged, .armedG, .str, .tally, .freeCtr] [] s (applyLaneGroup s l) := by
  unfold applyLaneGroup
  extract_lets y0 y1
  clear_value y0
  refine Keeps.cut (s := y1) ?_ fun h30 => ?_
  · unfold y1
    refine Keeps.foldl ?_ fun x61 a62 h63 => ?_
    · exact Keeps.refl _
    · split
      · extract_lets y94
        refine Keeps.cut (s := y94) ?_ fun h124 => ?_
        · unfold y94
          exact Keeps.step (putP_keeps _ _ _ _) h63 (by rfl)
        clear_value y94
        refine Keeps.step (B := [.staged]) (bi := []) (s := y94)
            (.upd rfl fun g hg => by cases g <;> first | exact absurd hg (by decide) | rfl) ?_ (by decide)
        exact h124
      · exact h63
  clear_value y1
  refine Keeps.ite ?_ ?_
  · refine Keeps.step (tallyStale_keeps _) ?_ (by rfl)
    refine Keeps.step (B := [.armedG]) (bi := []) (s := y1)
        (.upd rfl fun g hg => by cases g <;> first | exact absurd hg (by decide) | rfl) ?_ (by decide)
    exact h30
  · exact Keeps.refl _

theorem idReply_keeps (s : State) (l : Nat) (t : Txn) (w : Word) :
    Keeps [.ops, .cells, .lanes] [] s (idReply s l t w) := by
  unfold idReply
  extract_lets y0 y1
  clear_value y0
  refine Keeps.cut (s := y1) ?_ fun h30 => ?_
  · unfold y1
    exact Keeps.step (updLane_keeps _ _ _) (Keeps.refl _) (by decide)
  clear_value y1
  refine Keeps.ite ?_ ?_
  · exact h30
  · refine Keeps.ite ?_ ?_
    · exact Keeps.step (recordDone_keeps _ _ _ _ _) h30 (by decide)
    · refine Keeps.ite ?_ ?_
      · exact Keeps.step (recordDone_keeps _ _ _ _ _) h30 (by decide)
      · exact Keeps.step (updLane_keeps _ _ _) h30 (by decide)

theorem bringupOk_keeps (s : State) (l : Nat) :
    Keeps [.ops, .host] [P.HOST_IRQ_CAUSE] s (bringupOk s l) := by
  unfold bringupOk
  split
  · exact Keeps.step (completeOk_keeps _ _ _) (Keeps.refl _) (by decide)
  · exact Keeps.refl _

theorem endScan_keeps (s : State) (l : Nat) :
    Keeps [.tables, .ops, .host, .freeCtr] [P.HOST_IRQ_CAUSE] s (endScan s l) := by
  unfold endScan
  split
  · extract_lets y30
    refine Keeps.cut (s := y30) ?_ fun h60 => ?_
    · unfold y30
      exact Keeps.step (eyeStore_keeps _ _ _ _ _) (Keeps.refl _) (by decide)
    clear_value y30
    refine Keeps.step (completeErr_keeps _ _ _) ?_ (by decide)
    refine Keeps.step (B := [.freeCtr]) (bi := []) (s := y30)
        (.upd rfl fun g hg => by cases g <;> first | exact absurd hg (by decide) | rfl) ?_ (by decide)
    exact h60
  · exact Keeps.refl _

theorem txnOk_keeps (s : State) (l : Nat) (t : Txn) (w : Word) :
    Keeps [.ops, .flt, .cells, .lanes, .tally] [P.FRM_MSG_RESULT, P.TALLY_CELL_DIGEST,
        P.TALLY_HUB_DIGEST] s (txnOk s l t w) := by
  unfold txnOk
  extract_lets y0 y1 y2 y3
  clear_value y1 y2
  refine Keeps.cut (s := y0) ?_ fun h30 => ?_
  · unfold y0
    exact Keeps.step (causeGone_keeps _ _ _) (Keeps.refl _) (by decide)
  clear_value y0
  refine Keeps.cut (s := y3) ?_ fun h31 => ?_
  · unfold y3
    refine Keeps.ite ?_ ?_
    · exact Keeps.step (setDigest_keeps _ _ _) h30 (by decide)
    · exact h30
  clear_value y3
  refine Keeps.ite ?_ ?_
  · refine Keeps.ite ?_ ?_
    · exact Keeps.step (updCell_keeps _ _ _) h30 (by decide)
    · exact h30
  · refine Keeps.ite ?_ ?_
    · exact Keeps.step (idReply_keeps _ _ _ _) h30 (by decide)
    · refine Keeps.ite ?_ ?_
      · refine Keeps.ite ?_ ?_
        · exact Keeps.step (ownSettle_keeps _ _) h31 (by decide)
        · exact h31
      · refine Keeps.ite ?_ ?_
        · exact Keeps.step (putP_keeps _ _ _ _) h30 (by decide)
        · refine Keeps.ite ?_ ?_
          · exact Keeps.step (ownSettle_keeps _ _) h30 (by decide)
          · exact h30

theorem presenceCheck_keeps (s : State) (l : Nat) :
    Keeps [.host, .flt, .arms, .cells, .lanes, .str, .belay, .reel, .tbus, .freeCtr] [P.FLT_LOST, P.HOST_IRQ_CAUSE,
        P.REEL_LOST, P.REEL_QUEUE_HIGH, P.REEL_TRIG_TICK, P.STR_TRACE_LOST] s (presenceCheck s l) := by
  unfold presenceCheck
  extract_lets y0
  clear_value y0
  refine Keeps.ite ?_ ?_
  · refine Keeps.step (updLane_keeps _ _ _) ?_ (by decide)
    exact Keeps.step (raiseFault_keeps _ _ _) (Keeps.refl _) (by decide)
  · exact Keeps.refl _

theorem txnFail_keeps (s : State) (l : Nat) (t : Txn) :
    Keeps [.ops, .host, .flt, .arms, .cells, .lanes, .str, .belay, .reel, .tbus, .freeCtr] [P.FLT_LOST,
        P.HOST_IRQ_CAUSE, P.REEL_LOST, P.REEL_QUEUE_HIGH, P.REEL_TRIG_TICK, P.STR_TRACE_LOST] s (txnFail s l t) := by
  unfold txnFail
  extract_lets y0
  refine Keeps.cut (s := y0) ?_ fun h30 => ?_
  · unfold y0
    exact Keeps.step (updLane_keeps _ _ _) (Keeps.refl _) (by decide)
  clear_value y0
  refine Keeps.ite ?_ ?_
  · refine Keeps.ite ?_ ?_
    · exact Keeps.step (permFailed_keeps _ _) h30 (by decide)
    · exact h30
  · refine Keeps.ite ?_ ?_
    · refine Keeps.step (recordDone_keeps _ _ _ _ _) ?_ (by decide)
      exact Keeps.step (updLane_keeps _ _ _) (Keeps.refl _) (by decide)
    · refine Keeps.ite ?_ ?_
      · refine Keeps.step (setCfgFail_keeps _ _ _) ?_ (by decide)
        exact Keeps.step (updLane_keeps _ _ _) (Keeps.refl _) (by decide)
      · exact Keeps.refl _

theorem txnLost_keeps (s : State) (l : Nat) (t : Txn) :
    Keeps [.ops, .host, .flt, .arms, .cells, .lanes, .str, .belay, .reel, .tbus, .freeCtr] [P.FLT_LOST,
        P.FRM_MSG_FAIL, P.HOST_IRQ_CAUSE, P.REEL_LOST, P.REEL_QUEUE_HIGH, P.REEL_TRIG_TICK,
        P.STR_TRACE_LOST] s (txnLost s l t) := by
  unfold txnLost
  extract_lets y0 y1 y2
  refine Keeps.cut (s := y0) ?_ fun h30 => ?_
  · unfold y0
    exact Keeps.step (txnDrop_keeps _ _ _) (Keeps.refl _) (by decide)
  clear_value y0
  refine Keeps.cut (s := y1) ?_ fun h31 => ?_
  · unfold y1
    exact Keeps.step (raiseFault_keeps _ _ _) (Keeps.step (incP_keeps _ _ _) h30 (by decide)) (by decide)
  clear_value y1
  refine Keeps.cut (s := y2) ?_ fun h32 => ?_
  · unfold y2
    refine Keeps.ite ?_ ?_
    · exact Keeps.step (updLane_keeps _ _ _) h31 (by decide)
    · exact h31
  clear_value y2
  exact Keeps.step (txnFail_keeps _ _ _) h32 (by decide)

theorem txnMissing_keeps (s : State) (l : Nat) (t : Txn) :
    Keeps [.ops, .host, .flt, .arms, .cells, .lanes, .str, .belay, .reel, .tbus, .freeCtr] [P.FLT_LOST,
        P.FRM_MSG_FAIL, P.HOST_IRQ_CAUSE, P.REEL_LOST, P.REEL_QUEUE_HIGH, P.REEL_TRIG_TICK,
        P.STR_TRACE_LOST] s (txnMissing s l t) := by
  unfold txnMissing
  refine Keeps.ite ?_ ?_
  · exact Keeps.step (updLane_keeps _ _ _) (Keeps.refl _) (by decide)
  · exact Keeps.step (txnLost_keeps _ _ _) (Keeps.refl _) (by decide)

theorem enterActive_keeps (s : State) (l : Nat) (gen : Nat) :
    Keeps [.ops, .host, .flt, .arms, .cells, .lanes, .str, .belay, .reel, .tbus, .freeCtr] [P.FLT_LOST,
        P.HOST_IRQ_CAUSE, P.LANE_ERR_COUNT, P.PER_CHANGE, P.REEL_LOST, P.REEL_QUEUE_HIGH, P.REEL_TRIG_TICK,
        P.STR_TRACE_LOST] s (enterActive s l gen) := by
  unfold enterActive
  extract_lets y0 y1 y2 y3 y4 y5 y6 y7
  clear_value y0 y1
  refine Keeps.cut (s := y2) ?_ fun h30 => ?_
  · unfold y2
    exact Keeps.step (updLane_keeps _ _ _) (Keeps.refl _) (by decide)
  clear_value y2
  refine Keeps.cut (s := y3) ?_ fun h31 => ?_
  · unfold y3
    exact Keeps.step (putN_keeps _ _ _ _) (Keeps.step (closeRetry_keeps _ _) h30 (by decide)) (by decide)
  clear_value y3
  refine Keeps.cut (s := y4) ?_ fun h32 => ?_
  · unfold y4
    exact Keeps.step (causeGone_keeps _ _ _) h31 (by decide)
  clear_value y4
  refine Keeps.cut (s := y5) ?_ fun h33 => ?_
  · unfold y5
    exact Keeps.step (orP_keeps _ _ _ _) h32 (by decide)
  clear_value y5
  refine Keeps.cut (s := y6) ?_ fun h34 => ?_
  · unfold y6
    refine Keeps.foldl ?_ fun x35 a36 h37 => ?_
    · exact h33
    · refine Keeps.ite ?_ ?_
      · exact Keeps.step (updCell_keeps _ _ _) h37 (by decide)
      · exact h37
  clear_value y6
  refine Keeps.cut (s := y7) ?_ fun h38 => ?_
  · unfold y7
    refine Keeps.ite ?_ ?_
    · refine Keeps.step (ledgerWatch_keeps _) ?_ (by decide)
      exact Keeps.step (presenceCheck_keeps _ _) (Keeps.step (queueOwn_keeps _ _) h34 (by decide)) (by decide)
    · exact h32
  clear_value y7
  exact Keeps.step (bringupOk_keeps _ _) h38 (by decide)

theorem failLaneTxns_keeps (s : State) (l : Nat) :
    Keeps [.ops, .host, .flt, .arms, .cells, .lanes, .str, .belay, .reel, .tbus, .freeCtr] [P.FLT_LOST,
        P.HOST_IRQ_CAUSE, P.REEL_LOST, P.REEL_QUEUE_HIGH, P.REEL_TRIG_TICK,
        P.STR_TRACE_LOST] s (failLaneTxns s l) := by
  unfold failLaneTxns
  extract_lets y0 y1 y2
  clear_value y0
  refine Keeps.cut (s := y1) ?_ fun h30 => ?_
  · unfold y1
    exact Keeps.step (updLane_keeps _ _ _) (Keeps.refl _) (by decide)
  clear_value y1
  refine Keeps.cut (s := y2) ?_ fun h31 => ?_
  · unfold y2
    refine Keeps.foldl ?_ fun x32 a33 h34 => ?_
    · exact h30
    · refine Keeps.ite ?_ ?_
      · exact h34
      · exact Keeps.step (txnFail_keeps _ _ _) h34 (by decide)
  clear_value y2
  refine Keeps.ite ?_ ?_
  · refine Keeps.foldl ?_ fun x35 a36 h37 => ?_
    · exact h31
    · exact Keeps.step (storeRecord_keeps _ _ _ _ _) h37 (by decide)
  · exact h31

theorem frameMissing_keeps (s : State) (l : Nat) (k : Nat) :
    Keeps [.ops, .host, .flt, .arms, .cells, .lanes, .str, .belay, .reel, .tbus, .freeCtr] [P.FLT_LOST,
        P.FRM_MSG_FAIL, P.HOST_IRQ_CAUSE, P.REEL_LOST, P.REEL_QUEUE_HIGH, P.REEL_TRIG_TICK,
        P.STR_TRACE_LOST] s (frameMissing s l k) := by
  unfold frameMissing
  split
  · exact Keeps.step (txnMissing_keeps _ _ _) (Keeps.refl _) (by decide)
  · exact Keeps.refl _

theorem leaveActive_keeps (s : State) (l : Nat) :
    Keeps [.tables, .ops, .host, .flt, .arms, .cells, .lanes, .str, .belay, .reel, .tbus, .tally,
        .freeCtr] [P.FLT_LOST, P.HOST_IRQ_CAUSE, P.REEL_LOST, P.REEL_QUEUE_HIGH, P.REEL_TRIG_TICK,
        P.STR_TRACE_LOST] s (leaveActive s l) := by
  unfold leaveActive
  extract_lets y0 y1
  refine Keeps.cut (s := y0) ?_ fun h30 => ?_
  · unfold y0
    exact Keeps.step (updLane_keeps _ _ _) (Keeps.refl _) (by decide)
  clear_value y0
  refine Keeps.cut (s := y1) ?_ fun h31 => ?_
  · unfold y1
    refine Keeps.step (failLaneTxns_keeps _ _) ?_ (by decide)
    exact Keeps.step (blockLaneCells_keeps _ _) h30 (by decide)
  clear_value y1
  refine Keeps.ite ?_ ?_
  · refine Keeps.step (tallyFollow_keeps _ _) ?_ (by decide)
    exact Keeps.step (ledgerWatch_keeps _) (Keeps.step (endScan_keeps _ _) h31 (by decide)) (by decide)
  · exact Keeps.step (endScan_keeps _ _) h30 (by decide)

theorem laneTo_keeps (s : State) (l : Nat) (st : LaneSt) :
    Keeps [.tables, .ops, .host, .flt, .arms, .cells, .lanes, .str, .belay, .reel, .tbus, .tally,
        .freeCtr] [P.FLT_LOST, P.HOST_IRQ_CAUSE, P.REEL_LOST, P.REEL_QUEUE_HIGH, P.REEL_TRIG_TICK,
        P.STR_TRACE_LOST] s (laneTo s l st) := by
  unfold laneTo
  extract_lets y0 y1
  clear_value y0
  refine Keeps.cut (s := y1) ?_ fun h30 => ?_
  · unfold y1
    exact Keeps.step (updLane_keeps _ _ _) (Keeps.refl _) (by decide)
  clear_value y1
  refine Keeps.ite ?_ ?_
  · exact Keeps.step (leaveActive_keeps _ _) h30 (by decide)
  · exact h30

theorem retireLane_keeps (s : State) (l : Nat) :
    Keeps [.tables, .ops, .host, .flt, .arms, .cells, .lanes, .str, .belay, .reel, .tbus, .tally,
        .freeCtr] [P.FLT_LOST, P.HOST_IRQ_CAUSE, P.REEL_LOST, P.REEL_QUEUE_HIGH, P.REEL_TRIG_TICK,
        P.STR_TRACE_LOST] s (retireLane s l) := by
  unfold retireLane
  extract_lets y0 y1
  refine Keeps.cut (s := y0) ?_ fun h30 => ?_
  · unfold y0
    refine Keeps.step (laneTo_keeps _ _ _) ?_ (by decide)
    exact Keeps.step (closeRetry_keeps _ _) (Keeps.refl _) (by decide)
  clear_value y0
  refine Keeps.cut (s := y1) ?_ fun h31 => ?_
  · unfold y1
    exact Keeps.step (updLane_keeps _ _ _) h30 (by decide)
  clear_value y1
  exact Keeps.step (raiseFault_keeps _ _ _) h31 (by decide)

theorem retryFailed_keeps (s : State) (l : Nat) :
    Keeps [.tables, .ops, .host, .flt, .arms, .cells, .lanes, .str, .belay, .reel, .tbus, .tally,
        .freeCtr] [P.FLT_LOST, P.HOST_IRQ_CAUSE, P.REEL_LOST, P.REEL_QUEUE_HIGH, P.REEL_TRIG_TICK,
        P.STR_TRACE_LOST] s (retryFailed s l) := by
  unfold retryFailed
  extract_lets y0 y1 y2
  clear_value y0 y1 y2
  refine Keeps.ite ?_ ?_
  · refine Keeps.step (retireLane_keeps _ _) ?_ (by decide)
    exact Keeps.step (updLane_keeps _ _ _) (Keeps.refl _) (by decide)
  · exact Keeps.step (updLane_keeps _ _ _) (Keeps.refl _) (by decide)

theorem bringupFail_keeps (s : State) (l : Nat) (cause : Nat) (e : LongOp → CmdErr) :
    Keeps [.tables, .ops, .host, .flt, .arms, .cells, .lanes, .str, .belay, .reel, .tbus, .tally,
        .freeCtr] [P.FLT_LOST, P.HOST_IRQ_CAUSE, P.LANE_FAIL, P.REEL_LOST, P.REEL_QUEUE_HIGH, P.REEL_TRIG_TICK,
        P.STR_TRACE_LOST] s (bringupFail s l cause e) := by
  unfold bringupFail
  extract_lets y0 y1 y2
  clear_value y0
  refine Keeps.cut (s := y1) ?_ fun h30 => ?_
  · unfold y1
    exact Keeps.step (putN_keeps _ _ _ _) (Keeps.refl _) (by decide)
  clear_value y1
  refine Keeps.cut (s := y2) ?_ fun h31 => ?_
  · unfold y2
    exact Keeps.step (updLane_keeps _ _ _) h30 (by decide)
  clear_value y2
  refine Keeps.ite ?_ ?_
  · exact Keeps.step (retryFailed_keeps _ _) h30 (by decide)
  · split
    · exact Keeps.step (completeErr_keeps _ _ _) h31 (by decide)
    · exact h31

theorem enterStage_keeps (s : State) (l : Nat) (st : LaneSt) (pass2 : Bool) :
    Keeps [.tables, .ops, .host, .flt, .arms, .cells, .lanes, .str, .belay, .reel, .tbus, .tally,
        .freeCtr] [P.FLT_LOST, P.HOST_IRQ_CAUSE, P.REEL_LOST, P.REEL_QUEUE_HIGH, P.REEL_TRIG_TICK,
        P.STR_TRACE_LOST] s (enterStage s l st pass2) := by
  unfold enterStage
  refine Keeps.step (updLane_keeps _ _ _) ?_ (by decide)
  exact Keeps.step (laneTo_keeps _ _ _) (Keeps.refl _) (by decide)

theorem laneError_keeps (s : State) (l : Nat) :
    Keeps [.tables, .ops, .host, .flt, .arms, .cells, .lanes, .str, .belay, .reel, .tbus, .tally,
        .freeCtr] [P.FLT_LOST, P.HOST_IRQ_CAUSE, P.LANE_ERR_COUNT, P.LANE_ERR_TOTAL, P.REEL_LOST, P.REEL_QUEUE_HIGH,
        P.REEL_TRIG_TICK, P.STR_TRACE_LOST] s (laneError s l) := by
  unfold laneError
  extract_lets y0 y1 y2
  clear_value y0
  refine Keeps.cut (s := y1) ?_ fun h30 => ?_
  · unfold y1
    exact Keeps.step (incP_keeps _ _ _) (Keeps.step (putN_keeps _ _ _ _) (Keeps.refl _) (by decide)) (by decide)
  clear_value y1
  refine Keeps.cut (s := y2) ?_ fun h31 => ?_
  · unfold y2
    refine Keeps.ite ?_ ?_
    · exact Keeps.step (raiseFault_keeps _ _ _) h30 (by decide)
    · exact h30
  clear_value y2
  refine Keeps.ite ?_ ?_
  · exact Keeps.step (retireLane_keeps _ _) h31 (by decide)
  · exact h31

theorem laneErrors_keeps (a : Nat) (a' : State) (a'' : Nat) :
    Keeps [.tables, .ops, .host, .flt, .arms, .cells, .lanes, .str, .belay, .reel, .tbus, .tally,
        .freeCtr] [P.FLT_LOST, P.HOST_IRQ_CAUSE, P.LANE_ERR_COUNT, P.LANE_ERR_TOTAL, P.REEL_LOST, P.REEL_QUEUE_HIGH,
        P.REEL_TRIG_TICK, P.STR_TRACE_LOST] a' (laneErrors a a' a'') := by
  induction a generalizing a' with
  | zero => exact Keeps.refl _
  | succ n ih => exact (ih _).step (laneError_keeps _ _) (by decide)

theorem laneOff_keeps (s : State) (l : Nat) :
    Keeps [.tables, .ops, .host, .flt, .arms, .cells, .lanes, .str, .belay, .reel, .tbus, .tally,
        .freeCtr] [P.FLT_LOST, P.HOST_IRQ_CAUSE, P.REEL_LOST, P.REEL_QUEUE_HIGH, P.REEL_TRIG_TICK,
        P.STR_TRACE_LOST] s (laneOff s l) := by
  unfold laneOff
  extract_lets y0
  refine Keeps.cut (s := y0) ?_ fun h30 => ?_
  · unfold y0
    refine Keeps.step (closeRetry_keeps _ _) ?_ (by decide)
    exact Keeps.step (laneTo_keeps _ _ _) (Keeps.refl _) (by decide)
  clear_value y0
  exact Keeps.step (updLane_keeps _ _ _) h30 (by decide)

theorem startBringup_keeps (s : State) (l : Nat) (auto : Bool) :
    Keeps [.params, .staged, .armedG, .tables, .ops, .host, .flt, .arms, .cells, .lanes, .str, .belay, .reel, .tbus,
        .tally, .freeCtr] [] s (startBringup s l auto) := by
  unfold startBringup
  extract_lets y0 y1
  refine Keeps.cut (s := y0) ?_ fun h30 => ?_
  · unfold y0
    exact Keeps.step (applyLaneGroup_keeps _ _) (Keeps.refl _) (by rfl)
  clear_value y0
  refine Keeps.cut (s := y1) ?_ fun h31 => ?_
  · unfold y1
    exact Keeps.step (enterStage_keeps _ _ _ _) h30 (by rfl)
  clear_value y1
  exact Keeps.step (updLane_keeps _ _ _) h31 (by rfl)

end Sys2Proof.Machine
end

