-- ==== Sys2Proof/Laws/GroupsFrame.lean ====
section
/-! SUPPORT. What each operation of `Machine/Groups.lean` may change, and that it changes nothing else. -/

namespace Sys2Proof.Machine

theorem setArmed_keeps (s : State) (code : Nat) (t : Nat) (b : Bool) :
    Keeps [.armedG] [] s (setArmed s code t b) := by
  unfold setArmed
  refine Keeps.step (B := [.armedG]) (bi := []) (s := s)
      (.upd rfl fun g hg => by cases g <;> first | exact absurd hg (by decide) | rfl) ?_ (by decide)
  exact Keeps.refl _

theorem stageW_keeps (s : State) (id : Nat) (t : Nat) (w : Word) :
    Keeps [.staged] [] s (stageW s id t w) := by
  unfold stageW
  refine Keeps.step (B := [.staged]) (bi := []) (s := s)
      (.upd rfl fun g hg => by cases g <;> first | exact absurd hg (by decide) | rfl) ?_ (by decide)
  exact Keeps.refl _

theorem dropGroup_keeps (s : State) (code : Nat) (t : Nat) :
    Keeps [.staged, .gain, .armedG] [] s (dropGroup s code t) := by
  unfold dropGroup
  extract_lets y0 y1
  refine Keeps.cut (s := y0) ?_ fun h30 => ?_
  · unfold y0
    refine Keeps.step (B := [.staged]) (bi := []) (s := s)
        (.upd rfl fun g hg => by cases g <;> first | exact absurd hg (by decide) | rfl) ?_ (by decide)
    exact Keeps.refl _
  clear_value y0
  refine Keeps.cut (s := y1) ?_ fun h31 => ?_
  · unfold y1
    refine Keeps.ite ?_ ?_
    · refine Keeps.step (B := [.gain]) (bi := []) (s := y0)
        (.upd rfl fun g hg => by cases g <;> first | exact absurd hg (by decide) | rfl) ?_ (by decide)
      exact h30
    · exact h30
  clear_value y1
  exact Keeps.step (setArmed_keeps _ _ _ _) h31 (by decide)

theorem applyGroup_keeps (s : State) (code : Nat) (t : Nat) :
    Keeps [.params, .staged, .gain, .armedG, .str, .tally, .freeCtr] [] s (applyGroup s code t) := by
  unfold applyGroup
  extract_lets y0
  refine Keeps.cut (s := y0) ?_ fun h30 => ?_
  · unfold y0
    refine Keeps.foldl ?_ fun x31 a32 h33 => ?_
    · exact Keeps.refl _
    · split
      · exact Keeps.step (putP_keeps _ _ _ _) h33 (by rfl)
      · exact h33
  clear_value y0
  exact Keeps.step (tallyStale_keeps _) (Keeps.step (dropGroup_keeps _ _ _) h30 (by rfl)) (by rfl)

end Sys2Proof.Machine
end

