-- ==== Sys2Proof/Laws/TrajOpsFrame.lean ====
section
/-! SUPPORT. What each operation of `Machine/TrajOps.lean` may change, and that it changes nothing else. -/

namespace Sys2Proof.Machine

theorem genReport_keeps (s : State) (n : Nat) :
    Keeps [.freeCtr] [P.TRAJ_ACC, P.TRAJ_POS, P.TRAJ_VEL] s (genReport s n) := by
  unfold genReport
  extract_lets y0 y1 y2 y3 y4
  clear_value y0 y1 y2 y3
  refine Keeps.cut (s := y4) ?_ fun h30 => ?_
  · unfold y4
    refine Keeps.step (B := [.freeCtr]) (bi := []) (s := s)
        (.upd rfl fun g hg => by cases g <;> first | exact absurd hg (by decide) | rfl) ?_ (by decide)
    exact Keeps.refl _
  clear_value y4
  refine Keeps.ite ?_ ?_
  · refine Keeps.step (putI_keeps _ _ _ _) ?_ (by decide)
    refine Keeps.step (putI_keeps _ _ _ _) ?_ (by decide)
    exact Keeps.step (putFit_keeps _ _ _ _) (Keeps.refl _) (by decide)
  · refine Keeps.step (putFit_keeps _ _ _ _) ?_ (by decide)
    exact Keeps.step (putFit_keeps _ _ _ _) (Keeps.step (putFit_keeps _ _ _ _) h30 (by decide)) (by decide)

theorem syncGen_keeps (s : State) (n : Nat) :
    Keeps [.loops, .freeCtr] [P.TRAJ_DONE] s (syncGen s n) := by
  unfold syncGen
  extract_lets y0
  clear_value y0
  exact Keeps.step (addP_keeps _ _ _ _) (Keeps.step (updGen_keeps _ _ _) (Keeps.refl _) (by decide)) (by decide)

theorem trajAdvance_keeps (s : State) :
    Keeps [.loops, .freeCtr] [P.TRAJ_ACC, P.TRAJ_DONE, P.TRAJ_POS, P.TRAJ_VEL] s (trajAdvance s) := by
  unfold trajAdvance
  refine Keeps.foldl ?_ fun x30 a31 h32 => ?_
  · exact Keeps.refl _
  · extract_lets y33
    clear_value y33
    refine Keeps.step (genReport_keeps _ _) ?_ (by decide)
    exact Keeps.step (addP_keeps _ _ _ _) (Keeps.step (updGen_keeps _ _ _) h32 (by decide)) (by decide)

theorem trajPresetSet_keeps (s : State) (n : Nat) (x : Int) :
    Keeps [.loops, .freeCtr] [P.TRAJ_ACC, P.TRAJ_DONE, P.TRAJ_POS, P.TRAJ_VEL] s (trajPresetSet s n x) := by
  unfold trajPresetSet
  extract_lets y0 y1
  refine Keeps.cut (s := y0) ?_ fun h30 => ?_
  · unfold y0
    exact Keeps.step (syncGen_keeps _ _) (Keeps.refl _) (by decide)
  clear_value y0
  refine Keeps.cut (s := y1) ?_ fun h31 => ?_
  · unfold y1
    refine Keeps.step (putI_keeps _ _ _ _) ?_ (by decide)
    exact Keeps.step (putI_keeps _ _ _ _) (Keeps.step (putI_keeps _ _ _ _) h30 (by decide)) (by decide)
  clear_value y1
  refine Keeps.ite ?_ ?_
  · exact Keeps.step (updGen_keeps _ _ _) h31 (by decide)
  · exact Keeps.refl _

theorem genFlush_keeps (s : State) (n : Nat) :
    Keeps [.loops, .freeCtr] [P.TRAJ_DONE] s (genFlush s n) := by
  unfold genFlush
  extract_lets y0
  refine Keeps.cut (s := y0) ?_ fun h30 => ?_
  · unfold y0
    exact Keeps.step (syncGen_keeps _ _) (Keeps.refl _) (by decide)
  clear_value y0
  exact Keeps.step (updGen_keeps _ _ _) h30 (by decide)

theorem genReplace_keeps (s : State) (n : Nat) (m : TrajMove) :
    Keeps [.loops, .freeCtr] [P.TRAJ_DONE] s (genReplace s n m) := by
  unfold genReplace
  extract_lets y0
  refine Keeps.cut (s := y0) ?_ fun h30 => ?_
  · unfold y0
    exact Keeps.step (syncGen_keeps _ _) (Keeps.refl _) (by decide)
  clear_value y0
  exact Keeps.step (updGen_keeps _ _ _) h30 (by decide)

theorem genStop_keeps (s : State) (n : Nat) :
    Keeps [.loops, .freeCtr] [P.TRAJ_DONE] s (genStop s n) := by
  unfold genStop
  extract_lets y0 y1
  clear_value y1
  refine Keeps.cut (s := y0) ?_ fun h30 => ?_
  · unfold y0
    exact Keeps.step (syncGen_keeps _ _) (Keeps.refl _) (by decide)
  clear_value y0
  exact Keeps.step (updGen_keeps _ _ _) h30 (by decide)

theorem trajFlushBody_keeps (c : Cmd) (s : State) :
    ResKeeps [.loops, .freeCtr] [P.TRAJ_DONE] s (trajFlushBody c s) := by
  unfold trajFlushBody
  extract_lets y0
  clear_value y0
  refine ResKeeps.check ?_
  refine ResKeeps.done ?_
  refine Keeps.ite ?_ ?_
  · exact Keeps.step (genStop_keeps _ _) (Keeps.refl _) (by decide)
  · exact Keeps.step (genFlush_keeps _ _) (Keeps.refl _) (by decide)

theorem trajQueueBody_keeps (c : Cmd) (s : State) :
    ResKeeps [.loops, .freeCtr] [P.TRAJ_DONE] s (trajQueueBody c s) := by
  unfold trajQueueBody
  extract_lets y0 y1 y2 y3 y4
  clear_value y0 y2 y3 y4
  refine ResKeeps.check ?_
  refine ResKeeps.done ?_
  refine Keeps.ite ?_ ?_
  · exact Keeps.step (genReplace_keeps _ _ _) (Keeps.refl _) (by decide)
  · exact Keeps.step (updGen_keeps _ _ _) (Keeps.step (syncGen_keeps _ _) (Keeps.refl _) (by decide)) (by decide)

theorem execTrajFlush_keeps (c : Cmd) (s : State) :
    OutKeeps [.host, .flt, .reel, .tbus, .loops, .freeCtr] [P.HOST_IRQ_CAUSE, P.REEL_LOST, P.REEL_QUEUE_HIGH,
        P.REEL_TRIG_TICK, P.TRAJ_DONE] s (execTrajFlush c s) := by
  unfold execTrajFlush
  refine OutKeeps.ends reelObserve_keeps (by decide) ?_
  refine Keeps.runCmd goodPacket_keeps answer_keeps (by decide) ?_ fun x0 => ?_
  · exact Keeps.refl _
  · exact ResKeeps.mono (trajFlushBody_keeps _ _) (Keeps.refl _) (by decide)

theorem execTrajQueue_keeps (c : Cmd) (s : State) :
    OutKeeps [.host, .flt, .reel, .tbus, .loops, .freeCtr] [P.HOST_IRQ_CAUSE, P.REEL_LOST, P.REEL_QUEUE_HIGH,
        P.REEL_TRIG_TICK, P.TRAJ_DONE] s (execTrajQueue c s) := by
  unfold execTrajQueue
  refine OutKeeps.ends reelObserve_keeps (by decide) ?_
  refine Keeps.runCmd goodPacket_keeps answer_keeps (by decide) ?_ fun x0 => ?_
  · exact Keeps.refl _
  · exact ResKeeps.mono (trajQueueBody_keeps _ _) (Keeps.refl _) (by decide)

end Sys2Proof.Machine
end

