-- ==== Sys2Proof/Laws/EncoderFrame.lean ====
section
/-! SUPPORT. What each operation of `Machine/Encoder.lean` may change, and that it changes nothing else. -/

namespace Sys2Proof.Machine

theorem encCount_keeps (s : State) (n : Nat) (d : Int) :
    Keeps [.encs, .freeCtr] [P.ENC_POS, P.ENC_RAW] s (encCount s n d) := by
  unfold encCount
  extract_lets y0 y1 y2 y3 y4 y5
  clear_value y0 y1 y2 y3
  refine Keeps.cut (s := y4) ?_ fun h30 => ?_
  · unfold y4
    exact Keeps.step (putFit_keeps _ _ _ _) (Keeps.refl _) (by decide)
  clear_value y4
  refine Keeps.cut (s := y5) ?_ fun h31 => ?_
  · unfold y5
    refine Keeps.ite ?_ ?_
    · exact Keeps.step (putFit_keeps _ _ _ _) h30 (by decide)
    · exact h30
  clear_value y5
  exact Keeps.step (updEnc_keeps _ _ _) h31 (by decide)

theorem encLatch_keeps (s : State) (n : Nat) (ev : Nat) (back : Nat) :
    Keeps [.encs] [P.ENC_LATCH_CFG, P.ENC_LATCH_POS, P.ENC_LATCH_SRC, P.ENC_LATCH_TIME,
        P.ENC_LATCH_TIME + 1] s (encLatch s n ev back) := by
  unfold encLatch
  extract_lets y0 y1 y2 y3 y4 y5
  clear_value y0 y1
  refine Keeps.cut (s := y2) ?_ fun h30 => ?_
  · unfold y2
    exact Keeps.step (putI_keeps _ _ _ _) (Keeps.refl _) (by decide)
  clear_value y2
  refine Keeps.cut (s := y3) ?_ fun h31 => ?_
  · unfold y3
    exact Keeps.step (put64_keeps _ _ _ _ _) h30 (by decide)
  clear_value y3
  refine Keeps.cut (s := y4) ?_ fun h32 => ?_
  · unfold y4
    exact Keeps.step (putN_keeps _ _ _ _) h31 (by decide)
  clear_value y4
  refine Keeps.cut (s := y5) ?_ fun h33 => ?_
  · unfold y5
    exact Keeps.step (putN_keeps _ _ _ _) h32 (by decide)
  clear_value y5
  refine Keeps.ite ?_ ?_
  · exact Keeps.refl _
  · refine Keeps.ite ?_ ?_
    · exact Keeps.step (updEnc_keeps _ _ _) h33 (by decide)
    · refine Keeps.ite ?_ ?_
      · exact Keeps.step (orP_keeps _ _ _ _) (Keeps.refl _) (by decide)
      · exact Keeps.refl _

theorem encMark_keeps (s : State) (n : Nat) :
    Keeps [.encs, .freeCtr] [P.ENC_SPEED] s (encMark s n) := by
  unfold encMark
  extract_lets y0 y1 y2
  clear_value y1 y2
  refine Keeps.cut (s := y0) ?_ fun h30 => ?_
  · unfold y0
    exact Keeps.step (updEnc_keeps _ _ _) (Keeps.refl _) (by decide)
  clear_value y0
  refine Keeps.ite ?_ ?_
  · exact Keeps.step (putFit_keeps _ _ _ _) h30 (by decide)
  · refine Keeps.step (putFit_keeps _ _ _ _) ?_ (by decide)
    refine Keeps.step (B := [.freeCtr]) (bi := []) (s := y0)
        (.upd rfl fun g hg => by cases g <;> first | exact absurd hg (by decide) | rfl) ?_ (by decide)
    exact h30

theorem encShift_keeps (s : State) (n : Nat) (d : Int) :
    Keeps [.encs, .freeCtr] [P.ENC_POS, P.ENC_RAW] s (encShift s n d) := by
  unfold encShift
  extract_lets y0 y1
  clear_value y0
  refine Keeps.cut (s := y1) ?_ fun h30 => ?_
  · unfold y1
    exact Keeps.step (updEnc_keeps _ _ _) (Keeps.refl _) (by decide)
  clear_value y1
  exact Keeps.step (putFit_keeps _ _ _ _) (Keeps.step (putFit_keeps _ _ _ _) h30 (by decide)) (by decide)

theorem encTooth_keeps (s : State) (n : Nat) (a : Bool) (b : Bool) :
    Keeps [.encs, .freeCtr] [P.ENC_POS, P.ENC_RAW] s (encTooth s n a b).1 := by
  unfold encTooth
  extract_lets y0 y1 y2 y3 y4 y5 y6
  clear_value y0 y2 y4 y5 y6
  refine Keeps.cut (s := y1) ?_ fun h30 => ?_
  · unfold y1
    exact Keeps.step (updEnc_keeps _ _ _) (Keeps.refl _) (by decide)
  clear_value y1
  refine Keeps.cut (s := y3) ?_ fun h31 => ?_
  · unfold y3
    exact Keeps.step (updEnc_keeps _ _ _) h30 (by decide)
  clear_value y3
  split
  · dsimp only
    exact h30
  · split
    · dsimp only
      exact h31
    · split
      · dsimp only
        exact Keeps.step (encCount_keeps _ _ _) h31 (by decide)
      · dsimp only
        exact Keeps.step (encCount_keeps _ _ _) h31 (by decide)

theorem homeBack_keeps (s : State) (n : Nat) (u : HomeUndo) :
    Keeps [.loops, .encs] [P.ENC_POS, P.ENC_RAW, P.ENC_STATUS] s (homeBack s n u) := by
  unfold homeBack
  extract_lets y0 y1
  refine Keeps.cut (s := y0) ?_ fun h30 => ?_
  · unfold y0
    refine Keeps.step (putP_keeps _ _ _ _) ?_ (by decide)
    refine Keeps.step (putP_keeps _ _ _ _) ?_ (by decide)
    exact Keeps.step (putP_keeps _ _ _ _) (Keeps.refl _) (by decide)
  clear_value y0
  refine Keeps.cut (s := y1) ?_ fun h31 => ?_
  · unfold y1
    exact Keeps.step (updGen_keeps _ _ _) h30 (by decide)
  clear_value y1
  exact Keeps.step (updEnc_keeps _ _ _) h31 (by decide)

theorem homeLatch_keeps (s : State) (n : Nat) (home : Bool) :
    Keeps [.encs] [P.ENC_LATCH_CFG, P.ENC_LATCH_POS, P.ENC_LATCH_SRC, P.ENC_LATCH_TIME,
        P.ENC_LATCH_TIME + 1] s (homeLatch s n home) := by
  unfold homeLatch
  refine Keeps.ite ?_ ?_
  · exact Keeps.step (encLatch_keeps _ _ _ _) (Keeps.refl _) (by decide)
  · exact Keeps.refl _

theorem homeNote_keeps (s : State) (n : Nat) (home : Bool) :
    Keeps [.loops, .encs, .freeCtr] [P.TRAJ_DONE] s (homeNote s n home) := by
  unfold homeNote
  extract_lets y0 y1
  clear_value y1
  refine Keeps.cut (s := y0) ?_ fun h30 => ?_
  · unfold y0
    exact Keeps.step (syncGen_keeps _ _) (Keeps.refl _) (by decide)
  clear_value y0
  refine Keeps.ite ?_ ?_
  · exact Keeps.refl _
  · exact Keeps.step (updEnc_keeps _ _ _) h30 (by decide)

theorem setEncFlag_keeps (s : State) (n : Nat) (b : Nat) (x : Bool) :
    Keeps [] [P.ENC_STATUS] s (setEncFlag s n b x) := by
  unfold setEncFlag
  refine Keeps.ite ?_ ?_
  · exact Keeps.refl _
  · exact Keeps.step (putN_keeps _ _ _ _) (Keeps.refl _) (by decide)

theorem homeMove_keeps (s : State) (n : Nat) (neg : Bool) :
    Keeps [.loops, .freeCtr] [P.TRAJ_DONE] s (homeMove s n neg) := by
  unfold homeMove
  extract_lets y0 y1 y2
  clear_value y0 y1 y2
  exact Keeps.step (genReplace_keeps _ _ _) (Keeps.refl _) (by decide)

theorem homeStop_keeps (s : State) (n : Nat) (e : HomeEnd) :
    Keeps [.loops, .encs, .freeCtr] [P.TRAJ_DONE] s (homeStop s n e) := by
  unfold homeStop
  exact Keeps.step (updEnc_keeps _ _ _) (Keeps.step (genStop_keeps _ _) (Keeps.refl _) (by decide)) (by decide)

theorem homeAbortBody_keeps (c : Cmd) (s : State) :
    ResKeeps [.loops, .encs, .freeCtr] [P.TRAJ_DONE] s (homeAbortBody c s) := by
  unfold homeAbortBody
  extract_lets y0
  clear_value y0
  refine ResKeeps.check ?_
  refine ResKeeps.done ?_
  refine Keeps.ite ?_ ?_
  · exact Keeps.step (homeStop_keeps _ _ _) (Keeps.refl _) (by decide)
  · exact Keeps.refl _

theorem homeRef_keeps (s : State) (n : Nat) :
    Keeps [.loops, .encs, .freeCtr] [P.ENC_POS, P.ENC_RAW, P.ENC_STATUS, P.TRAJ_DONE] s (homeRef s n) := by
  unfold homeRef
  extract_lets y0 y1 y2 y3
  clear_value y0 y2
  refine Keeps.cut (s := y1) ?_ fun h30 => ?_
  · unfold y1
    refine Keeps.step (setEncFlag_keeps _ _ _ _) ?_ (by decide)
    refine Keeps.step (setEncFlag_keeps _ _ _ _) ?_ (by decide)
    exact Keeps.step (encShift_keeps _ _ _) (Keeps.refl _) (by decide)
  clear_value y1
  refine Keeps.cut (s := y3) ?_ fun h31 => ?_
  · unfold y3
    exact Keeps.step (updGen_keeps _ _ _) (Keeps.step (syncGen_keeps _ _) h30 (by decide)) (by decide)
  clear_value y3
  exact Keeps.step (homeStop_keeps _ _ _) (Keeps.step (updEnc_keeps _ _ _) h31 (by decide)) (by decide)

theorem homeSearchDone_keeps (s : State) (n : Nat) :
    Keeps [.loops, .encs, .freeCtr] [P.TRAJ_DONE] s (homeSearchDone s n) := by
  unfold homeSearchDone
  refine Keeps.ite ?_ ?_
  · exact Keeps.step (homeStop_keeps _ _ _) (Keeps.refl _) (by decide)
  · exact Keeps.refl _

theorem homeStartBody_keeps (c : Cmd) (s : State) :
    ResKeeps [.ops, .flt, .loops, .encs, .freeCtr] [P.TRAJ_DONE] s (homeStartBody c s) := by
  unfold homeStartBody
  extract_lets y0 y1 y2 y3 y4 y5 y6 y7 y8 y9
  clear_value y0 y1 y2 y3 y5 y6 y7 y8 y9
  refine ResKeeps.check ?_
  refine ResKeeps.accepted ?_ fun x90 => ?_
  · exact Keeps.step (startOp_keeps _ _ _ _ _) (Keeps.refl _) (by decide)
  · extract_lets y92 y93 y94
    refine Keeps.cut (s := y92) ?_ fun h122 => ?_
    · unfold y92
      refine Keeps.step (causeGone_keeps _ _ _) ?_ (by decide)
      exact Keeps.step (syncGen_keeps _ _) (Keeps.refl _) (by decide)
    clear_value y92
    refine Keeps.cut (s := y93) ?_ fun h123 => ?_
    · unfold y93
      exact Keeps.step (updGen_keeps _ _ _) h122 (by decide)
    clear_value y93
    refine Keeps.cut (s := y94) ?_ fun h154 => ?_
    · unfold y94
      exact Keeps.step (updEnc_keeps _ _ _) h123 (by decide)
    clear_value y94
    exact Keeps.step (homeMove_keeps _ _ _) h154 (by decide)

theorem limRelease_keeps (s : State) (n : Nat) (neg : Bool) :
    Keeps [.flt] [P.ENC_STATUS] s (limRelease s n neg) := by
  unfold limRelease
  extract_lets y0 y1 y2 y3
  clear_value y0 y1 y2
  refine Keeps.cut (s := y3) ?_ fun h30 => ?_
  · unfold y3
    exact Keeps.step (setEncFlag_keeps _ _ _ _) (Keeps.refl _) (by decide)
  clear_value y3
  refine Keeps.ite ?_ ?_
  · refine Keeps.ite ?_ ?_
    · exact h30
    · exact Keeps.step (causeGone_keeps _ _ _) h30 (by decide)
  · exact Keeps.refl _

theorem limReleases_keeps (s : State) (n : Nat) :
    Keeps [.flt] [P.ENC_STATUS] s (limReleases s n) := by
  unfold limReleases
  refine Keeps.step (limRelease_keeps _ _ _) ?_ (by decide)
  exact Keeps.step (limRelease_keeps _ _ _) (Keeps.refl _) (by decide)

theorem encPresetSet_keeps (s : State) (n : Nat) (x : Int) :
    Keeps [.flt, .encs] [P.ENC_POS, P.ENC_RAW, P.ENC_STATUS] s (encPresetSet s n x) := by
  unfold encPresetSet
  extract_lets y0 y1
  refine Keeps.cut (s := y0) ?_ fun h30 => ?_
  · unfold y0
    refine Keeps.step (putI_keeps _ _ _ _) ?_ (by decide)
    exact Keeps.step (putI_keeps _ _ _ _) (Keeps.refl _) (by decide)
  clear_value y0
  refine Keeps.cut (s := y1) ?_ fun h31 => ?_
  · unfold y1
    exact Keeps.step (updEnc_keeps _ _ _) h30 (by decide)
  clear_value y1
  refine Keeps.step (limReleases_keeps _ _) ?_ (by decide)
  refine Keeps.step (setEncFlag_keeps _ _ _ _) ?_ (by decide)
  exact Keeps.step (setEncFlag_keeps _ _ _ _) h31 (by decide)

theorem homeEdge_keeps (s : State) (n : Nat) :
    Keeps [.loops, .encs, .freeCtr] [P.ENC_POS, P.ENC_RAW, P.ENC_STATUS, P.TRAJ_DONE] s (homeEdge s n) := by
  unfold homeEdge
  refine Keeps.ite ?_ ?_
  · refine Keeps.ite ?_ ?_
    · exact Keeps.step (updEnc_keeps _ _ _) (Keeps.refl _) (by decide)
    · exact Keeps.step (homeRef_keeps _ _) (Keeps.refl _) (by decide)
  · exact Keeps.refl _

theorem homeFinish_keeps (s : State) (n : Nat) :
    Keeps [.ops, .host, .loops, .encs] [P.ENC_STATUS, P.HOST_IRQ_CAUSE] s (homeFinish s n) := by
  unfold homeFinish
  extract_lets y0 y1 y2
  clear_value y0
  refine Keeps.cut (s := y1) ?_ fun h30 => ?_
  · unfold y1
    refine Keeps.step (setEncFlag_keeps _ _ _ _) ?_ (by decide)
    exact Keeps.step (updGen_keeps _ _ _) (Keeps.refl _) (by decide)
  clear_value y1
  refine Keeps.cut (s := y2) ?_ fun h31 => ?_
  · unfold y2
    exact Keeps.step (updEnc_keeps _ _ _) h30 (by decide)
  clear_value y2
  split
  · exact h31
  · split
    · exact Keeps.step (completeOk_keeps _ _ _) h31 (by decide)
    · exact Keeps.step (completeErr_keeps _ _ _) h31 (by decide)
    · exact Keeps.step (completeErr_keeps _ _ _) h31 (by decide)

theorem homeIndex_keeps (s : State) (n : Nat) :
    Keeps [.loops, .encs, .freeCtr] [P.ENC_POS, P.ENC_RAW, P.ENC_STATUS, P.TRAJ_DONE] s (homeIndex s n) := by
  unfold homeIndex
  refine Keeps.ite ?_ ?_
  · exact Keeps.step (homeRef_keeps _ _) (Keeps.refl _) (by decide)
  · exact Keeps.refl _

theorem limInactive_keeps (s : State) (n : Nat) (neg : Bool) :
    Keeps [.flt, .encs] [P.ENC_STATUS] s (limInactive s n neg) := by
  unfold limInactive
  refine Keeps.step (limRelease_keeps _ _ _) ?_ (by decide)
  exact Keeps.step (updEnc_keeps _ _ _) (Keeps.refl _) (by decide)

theorem homeActive_keeps (s : State) (n : Nat) :
    Keeps [.loops, .encs, .freeCtr] [P.ENC_POS, P.ENC_RAW, P.ENC_STATUS, P.TRAJ_DONE] s (homeActive s n) := by
  unfold homeActive
  refine Keeps.step (homeEdge_keeps _ _) ?_ (by decide)
  exact Keeps.step (homeNote_keeps _ _ _) (Keeps.refl _) (by decide)

theorem homeAgain_keeps (s : State) (n : Nat) (u : HomeUndo) :
    Keeps [.loops, .encs, .freeCtr] [P.ENC_POS, P.ENC_RAW, P.ENC_STATUS, P.TRAJ_DONE] s (homeAgain s n u) := by
  unfold homeAgain
  extract_lets y0
  refine Keeps.cut (s := y0) ?_ fun h30 => ?_
  · unfold y0
    refine Keeps.ite ?_ ?_
    · exact Keeps.step (homeEdge_keeps _ _) (Keeps.refl _) (by decide)
    · exact Keeps.refl _
  clear_value y0
  refine Keeps.ite ?_ ?_
  · exact Keeps.step (homeIndex_keeps _ _) h30 (by decide)
  · exact h30

theorem encLevels_keeps (s : State) (n : Nat) (z : Bool) (home : Bool) :
    Keeps [.loops, .encs, .freeCtr] [P.ENC_POS, P.ENC_RAW, P.ENC_STATUS, P.TRAJ_DONE] s (encLevels s n z home) := by
  unfold encLevels
  extract_lets y0 y1
  clear_value y0
  refine Keeps.cut (s := y1) ?_ fun h30 => ?_
  · unfold y1
    exact Keeps.step (updEnc_keeps _ _ _) (Keeps.refl _) (by decide)
  clear_value y1
  refine Keeps.ite ?_ ?_
  · exact Keeps.step (homeActive_keeps _ _) h30 (by decide)
  · exact h30

theorem execEncHomeActive_keeps (axis : Fin 2) (held : Nat) (s : State) :
    OutKeeps [.host, .flt, .reel, .tbus, .loops, .encs, .freeCtr] [P.ENC_LATCH_CFG, P.ENC_LATCH_POS,
        P.ENC_LATCH_SRC, P.ENC_LATCH_TIME, P.ENC_LATCH_TIME + 1, P.ENC_POS, P.ENC_RAW, P.ENC_STATUS,
        P.HOST_IRQ_CAUSE, P.REEL_LOST, P.REEL_QUEUE_HIGH, P.REEL_TRIG_TICK,
        P.TRAJ_DONE] s (execEncHomeActive axis s held) := by
  unfold execEncHomeActive
  extract_lets y0
  clear_value y0
  refine OutKeeps.clocked ?_ ?_
  · exact Keeps.refl _
  · refine OutKeeps.ends reelObserve_keeps (by decide) ?_
    refine Keeps.ite ?_ ?_
    · refine Keeps.step (limReleases_keeps _ _) ?_ (by decide)
      refine Keeps.step (encLevels_keeps _ _ _ _) ?_ (by decide)
      exact Keeps.step (homeLatch_keeps _ _ _) (Keeps.refl _) (by decide)
    · exact Keeps.refl _

theorem execEncIllegalWindowEnd_keeps (axis : Fin 2) (s : State) :
    OutKeeps [.tick, .host, .flt, .time, .str, .reel, .tbus, .encs, .chop, .freeCtr] [P.HOST_IRQ_CAUSE, P.REEL_LOST,
        P.REEL_QUEUE_HIGH, P.REEL_TRIG_TICK] s (execEncIllegalWindowEnd axis s) := by
  unfold execEncIllegalWindowEnd
  extract_lets y0 y1 y2
  clear_value y0
  refine OutKeeps.cut (s := y1) ?_ fun h30 => ?_
  · unfold y1
    exact Keeps.step (advanceTo_keeps _ _) (Keeps.refl _) (by decide)
  clear_value y1
  refine OutKeeps.cut (s := y2) ?_ fun h31 => ?_
  · unfold y2
    refine Keeps.ite ?_ ?_
    · exact Keeps.step (causeGone_keeps _ _ _) h30 (by decide)
    · exact h30
  clear_value y2
  refine OutKeeps.clocked ?_ ?_
  · exact Keeps.refl _
  · refine OutKeeps.ite ?_ ?_
    · exact OutKeeps.ends reelObserve_keeps (by decide) (Keeps.step (updEnc_keeps _ _ _) h31 (by decide))
    · exact OutKeeps.ends reelObserve_keeps (by decide) (Keeps.refl _)

theorem execEncLimitInactive_keeps (axis : Fin 2) (neg : Bool) (held : Nat) (s : State) :
    OutKeeps [.host, .flt, .reel, .tbus, .encs, .freeCtr] [P.ENC_STATUS, P.HOST_IRQ_CAUSE, P.REEL_LOST,
        P.REEL_QUEUE_HIGH, P.REEL_TRIG_TICK] s (execEncLimitInactive axis neg s held) := by
  unfold execEncLimitInactive
  refine OutKeeps.clocked ?_ ?_
  · exact Keeps.refl _
  · refine OutKeeps.ends reelObserve_keeps (by decide) ?_
    refine Keeps.ite ?_ ?_
    · exact Keeps.step (limInactive_keeps _ _ _) (Keeps.refl _) (by decide)
    · exact Keeps.refl _

theorem execHomeAbort_keeps (c : Cmd) (s : State) :
    OutKeeps [.host, .flt, .reel, .tbus, .loops, .encs, .freeCtr] [P.HOST_IRQ_CAUSE, P.REEL_LOST, P.REEL_QUEUE_HIGH,
        P.REEL_TRIG_TICK, P.TRAJ_DONE] s (execHomeAbort c s) := by
  unfold execHomeAbort
  refine OutKeeps.ends reelObserve_keeps (by decide) ?_
  refine Keeps.runCmd goodPacket_keeps answer_keeps (by decide) ?_ fun x0 => ?_
  · exact Keeps.refl _
  · exact ResKeeps.mono (homeAbortBody_keeps _ _) (Keeps.refl _) (by decide)

theorem execHomeStart_keeps (c : Cmd) (s : State) :
    OutKeeps [.ops, .host, .flt, .reel, .tbus, .loops, .encs, .freeCtr] [P.HOST_IRQ_CAUSE, P.REEL_LOST,
        P.REEL_QUEUE_HIGH, P.REEL_TRIG_TICK, P.TRAJ_DONE] s (execHomeStart c s) := by
  unfold execHomeStart
  refine OutKeeps.ends reelObserve_keeps (by decide) ?_
  refine Keeps.runCmd goodPacket_keeps answer_keeps (by decide) ?_ fun x0 => ?_
  · exact Keeps.refl _
  · exact ResKeeps.mono (homeStartBody_keeps _ _) (Keeps.refl _) (by decide)

theorem execHomingDone_keeps (axis : Fin 2) (s : State) :
    OutKeeps [.tick, .ops, .host, .flt, .time, .str, .reel, .tbus, .loops, .encs, .chop, .freeCtr] [P.ENC_STATUS,
        P.HOST_IRQ_CAUSE, P.REEL_LOST, P.REEL_QUEUE_HIGH, P.REEL_TRIG_TICK,
        P.TRAJ_DONE] s (execHomingDone axis s) := by
  unfold execHomingDone
  extract_lets y0 y1 y2 y3
  clear_value y0 y1
  refine OutKeeps.cut (s := y2) ?_ fun h30 => ?_
  · unfold y2
    refine Keeps.ite ?_ ?_
    · exact Keeps.step (advanceTo_keeps _ _) (Keeps.refl _) (by decide)
    · exact Keeps.refl _
  clear_value y2
  refine OutKeeps.cut (s := y3) ?_ fun h31 => ?_
  · unfold y3
    exact Keeps.step (syncGen_keeps _ _) h30 (by decide)
  clear_value y3
  refine OutKeeps.clocked ?_ ?_
  · exact Keeps.refl _
  · refine OutKeeps.ite ?_ ?_
    · refine OutKeeps.ends reelObserve_keeps (by decide) ?_
      refine Keeps.ite ?_ ?_
      · exact Keeps.step (homeFinish_keeps _ _) h31 (by decide)
      · exact h31
    · exact OutKeeps.ends reelObserve_keeps (by decide) (Keeps.refl _)

theorem encIndex_keeps (s : State) (n : Nat) :
    Keeps [.host, .flt, .arms, .cells, .lanes, .str, .belay, .reel, .tbus, .loops, .encs,
        .freeCtr] [P.ENC_INDEX_CORR, P.ENC_POS, P.ENC_RAW, P.ENC_STATUS, P.FLT_LOST, P.HOST_IRQ_CAUSE, P.REEL_LOST,
        P.REEL_QUEUE_HIGH, P.REEL_TRIG_TICK, P.STR_TRACE_LOST, P.TRAJ_DONE] s (encIndex s n) := by
  unfold encIndex
  extract_lets y0 y1 y2 y3
  clear_value y0 y1
  refine Keeps.cut (s := y2) ?_ fun h30 => ?_
  · unfold y2
    refine Keeps.step (setEncFlag_keeps _ _ _ _) ?_ (by decide)
    refine Keeps.step (putI_keeps _ _ _ _) ?_ (by decide)
    exact Keeps.step (encShift_keeps _ _ _) (Keeps.refl _) (by decide)
  clear_value y2
  refine Keeps.cut (s := y3) ?_ fun h31 => ?_
  · unfold y3
    refine Keeps.ite ?_ ?_
    · refine Keeps.ite ?_ ?_
      · exact Keeps.step (causeGone_keeps _ _ _) h30 (by decide)
      · exact Keeps.step (raiseFault_keeps _ _ _) (Keeps.refl _) (by decide)
    · exact Keeps.refl _
  clear_value y3
  refine Keeps.ite ?_ ?_
  · exact Keeps.step (homeIndex_keeps _ _) (Keeps.step (homeNote_keeps _ _ _) h31 (by decide)) (by decide)
  · exact h31

theorem homeLimit_keeps (s : State) (n : Nat) (neg : Bool) :
    Keeps [.host, .flt, .arms, .cells, .lanes, .str, .belay, .reel, .tbus, .loops, .encs, .freeCtr] [P.FLT_LOST,
        P.HOST_IRQ_CAUSE, P.REEL_LOST, P.REEL_QUEUE_HIGH, P.REEL_TRIG_TICK, P.STR_TRACE_LOST,
        P.TRAJ_DONE] s (homeLimit s n neg) := by
  unfold homeLimit
  extract_lets y0 y1
  clear_value y0
  refine Keeps.cut (s := y1) ?_ fun h30 => ?_
  · unfold y1
    exact Keeps.step (updEnc_keeps _ _ _) (Keeps.refl _) (by decide)
  clear_value y1
  refine Keeps.ite ?_ ?_
  · exact Keeps.step (homeMove_keeps _ _ _) h30 (by decide)
  · refine Keeps.step (homeStop_keeps _ _ _) ?_ (by decide)
    exact Keeps.step (raiseFault_keeps _ _ _) (Keeps.refl _) (by decide)

theorem illegalWatch_keeps (s : State) (n : Nat) :
    Keeps [.host, .flt, .arms, .cells, .lanes, .str, .belay, .reel, .tbus, .encs, .freeCtr] [P.ENC_STATUS,
        P.FLT_LOST, P.HOST_IRQ_CAUSE, P.REEL_LOST, P.REEL_QUEUE_HIGH, P.REEL_TRIG_TICK,
        P.STR_TRACE_LOST] s (illegalWatch s n) := by
  unfold illegalWatch
  refine Keeps.ite ?_ ?_
  · refine Keeps.step (setEncFlag_keeps _ _ _ _) ?_ (by decide)
    refine Keeps.step (raiseFault_keeps _ _ _) ?_ (by decide)
    exact Keeps.step (updEnc_keeps _ _ _) (Keeps.refl _) (by decide)
  · exact Keeps.refl _

theorem limTrip_keeps (s : State) (n : Nat) (neg : Bool) :
    Keeps [.host, .flt, .arms, .cells, .lanes, .str, .belay, .reel, .tbus, .loops, .encs, .freeCtr] [P.FLT_LOST,
        P.HOST_IRQ_CAUSE, P.REEL_LOST, P.REEL_QUEUE_HIGH, P.REEL_TRIG_TICK, P.STR_TRACE_LOST,
        P.TRAJ_DONE] s (limTrip s n neg) := by
  unfold limTrip
  refine Keeps.ite ?_ ?_
  · exact Keeps.step (raiseFault_keeps _ _ _) (Keeps.refl _) (by decide)
  · refine Keeps.ite ?_ ?_
    · exact Keeps.step (homeLimit_keeps _ _ _) (Keeps.refl _) (by decide)
    · exact Keeps.refl _

theorem encIllegal_keeps (s : State) (n : Nat) :
    Keeps [.host, .flt, .arms, .cells, .lanes, .str, .belay, .reel, .tbus, .encs, .freeCtr] [P.ENC_ILLEGAL,
        P.ENC_STATUS, P.FLT_LOST, P.HOST_IRQ_CAUSE, P.REEL_LOST, P.REEL_QUEUE_HIGH, P.REEL_TRIG_TICK,
        P.STR_TRACE_LOST] s (encIllegal s n) := by
  unfold encIllegal
  extract_lets y0
  refine Keeps.cut (s := y0) ?_ fun h30 => ?_
  · unfold y0
    exact Keeps.step (incP_keeps _ _ _) (Keeps.refl _) (by decide)
  clear_value y0
  refine Keeps.ite ?_ ?_
  · exact h30
  · exact Keeps.step (illegalWatch_keeps _ _) (Keeps.step (updEnc_keeps _ _ _) h30 (by decide)) (by decide)

theorem encQuad_keeps (s : State) (n : Nat) (a : Bool) (b : Bool) :
    Keeps [.host, .flt, .arms, .cells, .lanes, .str, .belay, .reel, .tbus, .encs, .freeCtr] [P.ENC_ILLEGAL,
        P.ENC_POS, P.ENC_RAW, P.ENC_STATUS, P.FLT_LOST, P.HOST_IRQ_CAUSE, P.REEL_LOST, P.REEL_QUEUE_HIGH,
        P.REEL_TRIG_TICK, P.STR_TRACE_LOST] s (encQuad s n a b).1 := by
  unfold encQuad
  extract_lets y0 y1 y2 y3
  clear_value y0 y2
  refine Keeps.cut (s := y1) ?_ fun h30 => ?_
  · unfold y1
    exact Keeps.step (updEnc_keeps _ _ _) (Keeps.refl _) (by decide)
  clear_value y1
  refine Keeps.cut (s := y3) ?_ fun h31 => ?_
  · unfold y3
    exact Keeps.step (encCount_keeps _ _ _) h30 (by decide)
  clear_value y3
  split
  · dsimp only
    exact h30
  · split
    · dsimp only
      exact Keeps.step (encIllegal_keeps _ _) h30 (by decide)
    · split
      · dsimp only
        exact Keeps.step (updEnc_keeps _ _ _) h31 (by decide)
      · dsimp only
        exact h31

theorem encSample_keeps (s : State) (n : Nat) (a : Bool) (b : Bool) (z : Bool) (home : Bool) :
    Keeps [.host, .flt, .arms, .cells, .lanes, .str, .belay, .reel, .tbus, .loops, .encs, .freeCtr] [P.ENC_ILLEGAL,
        P.ENC_INDEX_CORR, P.ENC_LATCH_CFG, P.ENC_LATCH_POS, P.ENC_LATCH_SRC, P.ENC_LATCH_TIME, P.ENC_LATCH_TIME + 1,
        P.ENC_POS, P.ENC_RAW, P.ENC_STATUS, P.FLT_LOST, P.HOST_IRQ_CAUSE, P.REEL_LOST, P.REEL_QUEUE_HIGH,
        P.REEL_TRIG_TICK, P.STR_TRACE_LOST, P.TRAJ_DONE] s (encSample s n a b z home) := by
  unfold encSample
  extract_lets y0 y1
  refine Keeps.cut (s := y0.1) ?_ fun h30 => ?_
  · unfold y0
    split
    · dsimp only
      exact Keeps.step (updEnc_keeps _ _ _) (Keeps.refl _) (by decide)
    · split
      · exact Keeps.step (encTooth_keeps _ _ _ _) (Keeps.refl _) (by decide)
      · exact Keeps.step (encQuad_keeps _ _ _ _) (Keeps.refl _) (by decide)
  clear_value y0
  refine Keeps.cut (s := y1) ?_ fun h31 => ?_
  · unfold y1
    refine Keeps.step (homeLatch_keeps _ _ _) ?_ (by decide)
    refine Keeps.ite ?_ ?_
    · exact Keeps.step (encLatch_keeps _ _ _ _) h30 (by decide)
    · exact h30
  clear_value y1
  refine Keeps.step (encLevels_keeps _ _ _ _) ?_ (by decide)
  refine Keeps.ite ?_ ?_
  · exact Keeps.step (encIndex_keeps _ _) h31 (by decide)
  · exact h31

theorem execEncTransition_keeps (axis : Fin 2) (a : List Bool) (b : List Bool) (z : List Bool) (home : List Bool) (s : State) :
    OutKeeps [.host, .flt, .arms, .cells, .lanes, .str, .belay, .reel, .tbus, .loops, .encs,
        .freeCtr] [P.ENC_ILLEGAL, P.ENC_INDEX_CORR, P.ENC_LATCH_CFG, P.ENC_LATCH_POS, P.ENC_LATCH_SRC,
        P.ENC_LATCH_TIME, P.ENC_LATCH_TIME + 1, P.ENC_POS, P.ENC_RAW, P.ENC_STATUS, P.FLT_LOST, P.HOST_IRQ_CAUSE,
        P.REEL_LOST, P.REEL_QUEUE_HIGH, P.REEL_TRIG_TICK, P.STR_TRACE_LOST,
        P.TRAJ_DONE] s (execEncTransition axis a b z home s) := by
  unfold execEncTransition
  extract_lets y0 y1 y2 y3 y4
  clear_value y0 y1 y2 y3 y4
  refine OutKeeps.clocked ?_ ?_
  · exact Keeps.refl _
  · refine OutKeeps.ends reelObserve_keeps (by decide) ?_
    refine Keeps.step (limReleases_keeps _ _) ?_ (by decide)
    exact Keeps.step (encSample_keeps _ _ _ _ _ _) (Keeps.refl _) (by decide)

theorem limActive_keeps (s : State) (n : Nat) (neg : Bool) :
    Keeps [.params, .host, .flt, .arms, .cells, .lanes, .str, .belay, .reel, .tbus, .loops, .encs,
        .freeCtr] [] s (limActive s n neg) := by
  unfold limActive
  extract_lets y0 y1 y2 y3
  clear_value y1
  refine Keeps.cut (s := y0) ?_ fun h30 => ?_
  · unfold y0
    exact Keeps.step (updEnc_keeps _ _ _) (Keeps.refl _) (by rfl)
  clear_value y0
  refine Keeps.cut (s := y2) ?_ fun h31 => ?_
  · unfold y2
    exact Keeps.step (encLatch_keeps _ _ _ _) h30 (by rfl)
  clear_value y2
  refine Keeps.cut (s := y3) ?_ fun h32 => ?_
  · unfold y3
    exact Keeps.step (putI_keeps _ _ _ _) h31 (by rfl)
  clear_value y3
  refine Keeps.ite ?_ ?_
  · exact h30
  · split
    · refine Keeps.ite ?_ ?_
      · refine Keeps.step (homeAgain_keeps _ _ _) ?_ (by rfl)
        refine Keeps.step (limTrip_keeps _ _ _) ?_ (by rfl)
        exact Keeps.step (setEncFlag_keeps _ _ _ _) (Keeps.step (homeBack_keeps _ _ _) h32 (by rfl)) (by rfl)
      · exact Keeps.step (limTrip_keeps _ _ _) (Keeps.step (setEncFlag_keeps _ _ _ _) h32 (by rfl)) (by rfl)
    · exact Keeps.step (limTrip_keeps _ _ _) (Keeps.step (setEncFlag_keeps _ _ _ _) h32 (by rfl)) (by rfl)

theorem encModeSet_keeps (s : State) (n : Nat) (old : Nat) :
    Keeps [.params, .host, .flt, .arms, .cells, .lanes, .str, .belay, .reel, .tbus, .loops, .encs,
        .freeCtr] [] s (encModeSet s n old) := by
  unfold encModeSet
  extract_lets y0 y1 y2 y3 y4
  clear_value y0 y1 y2
  refine Keeps.cut (s := y3) ?_ fun h30 => ?_
  · unfold y3
    refine Keeps.step (encLevels_keeps _ _ _ _) ?_ (by rfl)
    exact Keeps.step (homeLatch_keeps _ _ _) (Keeps.refl _) (by rfl)
  clear_value y3
  unfold y4
  refine Keeps.ite ?_ ?_
  · refine Keeps.ite ?_ ?_
    · exact h30
    · refine Keeps.ite ?_ ?_
      · exact Keeps.step (limInactive_keeps _ _ _) h30 (by rfl)
      · exact Keeps.step (limActive_keeps _ _ _) h30 (by rfl)
  · refine Keeps.ite ?_ ?_
    · refine Keeps.step (limInactive_keeps _ _ _) ?_ (by rfl)
      refine Keeps.ite ?_ ?_
      · exact h30
      · refine Keeps.ite ?_ ?_
        · exact Keeps.step (limInactive_keeps _ _ _) h30 (by rfl)
        · exact Keeps.step (limActive_keeps _ _ _) h30 (by rfl)
    · refine Keeps.step (limActive_keeps _ _ _) ?_ (by rfl)
      refine Keeps.ite ?_ ?_
      · exact h30
      · refine Keeps.ite ?_ ?_
        · exact Keeps.step (limInactive_keeps _ _ _) h30 (by rfl)
        · exact Keeps.step (limActive_keeps _ _ _) h30 (by rfl)

theorem execEncLimitTrip_keeps (axis : Fin 2) (neg : Bool) (held : Nat) (s : State) :
    OutKeeps [.params, .host, .flt, .arms, .cells, .lanes, .str, .belay, .reel, .tbus, .loops, .encs,
        .freeCtr] [] s (execEncLimitTrip axis neg s held) := by
  unfold execEncLimitTrip
  refine OutKeeps.clocked ?_ ?_
  · exact Keeps.refl _
  · refine OutKeeps.ends reelObserve_keeps (by decide) ?_
    refine Keeps.ite ?_ ?_
    · refine Keeps.step (limReleases_keeps _ _) ?_ (by rfl)
      exact Keeps.step (limActive_keeps _ _ _) (Keeps.refl _) (by rfl)
    · exact Keeps.refl _

end Sys2Proof.Machine
end

