-- ==== Sys2Proof/Laws/LoopOpsFrame.lean ====
section
/-! SUPPORT. What each operation of `Machine/LoopOps.lean` may change, and that it changes nothing else. -/

namespace Sys2Proof.Machine

theorem armCompose_keeps (s : State) (p : Nat) (a : Nat) :
    Keeps [.arms] [P.ARM_VREF, P.CAP_DX, P.CAP_X0] s (armCompose s p a) := by
  unfold armCompose
  extract_lets y0 y1 y2 y3 y4
  clear_value y0 y1 y2 y3
  refine Keeps.cut (s := y4) ?_ fun h30 => ?_
  · unfold y4
    exact Keeps.step (updArm_keeps _ _ _) (Keeps.refl _) (by decide)
  clear_value y4
  refine Keeps.step (putI_keeps _ _ _ _) ?_ (by decide)
  exact Keeps.step (putI_keeps _ _ _ _) (Keeps.step (putI_keeps _ _ _ _) h30 (by decide)) (by decide)

theorem armNoRefs_keeps (s : State) :
    Keeps [.arms] [P.CAP_DX, P.CAP_X0] s (armNoRefs s) := by
  unfold armNoRefs
  refine Keeps.foldl ?_ fun x30 a31 h32 => ?_
  · exact Keeps.refl _
  · extract_lets y33
    refine Keeps.cut (s := y33) ?_ fun h63 => ?_
    · unfold y33
      exact Keeps.step (updArm_keeps _ _ _) h32 (by decide)
    clear_value y33
    exact Keeps.step (putI_keeps _ _ _ _) (Keeps.step (putI_keeps _ _ _ _) h63 (by decide)) (by decide)

theorem armRefs_keeps (s : State) (p : Nat) :
    Keeps [.arms] [P.ARM_VREF, P.CAP_DX, P.CAP_X0] s (armRefs s p) := by
  unfold armRefs
  refine Keeps.foldl ?_ fun x0 a1 h2 => ?_
  · exact Keeps.refl _
  · exact Keeps.step (armCompose_keeps _ _ _) h2 (by decide)

theorem loopModeBody_keeps (c : Cmd) (s : State) :
    ResKeeps [.loops] [] s (loopModeBody c s) := by
  unfold loopModeBody
  extract_lets y0
  clear_value y0
  exact ResKeeps.check (ResKeeps.done (Keeps.step (updSlot_keeps _ _ _) (Keeps.refl _) (by decide)))

theorem modeEnter_keeps (s : State) (n : Nat) (m : LoopMode) :
    Keeps [.loops] [] s (modeEnter s n m) := by
  unfold modeEnter
  extract_lets y0
  clear_value y0
  exact Keeps.step (updSlot_keeps _ _ _) (Keeps.refl _) (by decide)

theorem pulseMark_keeps (s : State) (i : Nat) (ages : List Nat) :
    Keeps [.loops] [P.TRAJ_PULSE_VAL] s (pulseMark s i ages) := by
  unfold pulseMark
  extract_lets y0 y1 y2 y3 y4 y5
  clear_value y0 y1 y2 y3 y4
  refine Keeps.cut (s := y5) ?_ fun h30 => ?_
  · unfold y5
    refine Keeps.step (B := [.loops]) (bi := []) (s := s)
        (.upd rfl fun g hg => by cases g <;> first | exact absurd hg (by decide) | rfl) ?_ (by decide)
    exact Keeps.refl _
  clear_value y5
  exact Keeps.step (putN_keeps _ _ _ _) h30 (by decide)

theorem loopModes_keeps (s : State) :
    Keeps [.loops] [] s (loopModes s) := by
  unfold loopModes
  extract_lets y0 y1 y2 y3
  clear_value y0 y1 y3
  refine Keeps.cut (s := y2) ?_ fun h30 => ?_
  · unfold y2
    refine Keeps.foldl ?_ fun x31 a32 h33 => ?_
    · exact Keeps.refl _
    · split
      · refine Keeps.ite ?_ ?_
        · exact Keeps.step (modeEnter_keeps _ _ _) h33 (by decide)
        · exact Keeps.step (modeEnter_keeps _ _ _) h33 (by decide)
      · split
        · refine Keeps.ite ?_ ?_
          · exact Keeps.step (modeEnter_keeps _ _ _) h33 (by decide)
          · exact h33
        · refine Keeps.ite ?_ ?_
          · exact Keeps.step (modeEnter_keeps _ _ _) h33 (by decide)
          · exact h33
        · exact h33
  clear_value y2
  refine Keeps.step (B := [.loops]) (bi := []) (s := y2)
      (.upd rfl fun g hg => by cases g <;> first | exact absurd hg (by decide) | rfl) ?_ (by decide)
  exact h30

theorem execLoopMode_keeps (c : Cmd) (s : State) :
    OutKeeps [.host, .flt, .reel, .tbus, .loops, .freeCtr] [P.HOST_IRQ_CAUSE, P.REEL_LOST, P.REEL_QUEUE_HIGH,
        P.REEL_TRIG_TICK] s (execLoopMode c s) := by
  unfold execLoopMode
  refine OutKeeps.ends reelObserve_keeps (by decide) ?_
  refine Keeps.runCmd goodPacket_keeps answer_keeps (by decide) ?_ fun x0 => ?_
  · exact Keeps.refl _
  · exact ResKeeps.mono (loopModeBody_keeps _ _) (Keeps.refl _) (by decide)

theorem feCheck_keeps (s : State) (n : Nat) (e : Int) :
    Keeps [.host, .flt, .arms, .cells, .lanes, .str, .belay, .reel, .tbus, .loops, .freeCtr] [P.FLT_LOST,
        P.HOST_IRQ_CAUSE, P.REEL_LOST, P.REEL_QUEUE_HIGH, P.REEL_TRIG_TICK, P.STR_TRACE_LOST] s (feCheck s n e) := by
  unfold feCheck
  extract_lets y0 y1 y2 y3 y4 y5
  clear_value y0 y1 y3 y4
  refine Keeps.cut (s := y2) ?_ fun h30 => ?_
  · unfold y2
    refine Keeps.ite ?_ ?_
    · exact Keeps.refl _
    · exact Keeps.step (causeGone_keeps _ _ _) (Keeps.refl _) (by decide)
  clear_value y2
  refine Keeps.cut (s := y5) ?_ fun h31 => ?_
  · unfold y5
    exact Keeps.step (updSlot_keeps _ _ _) h30 (by decide)
  clear_value y5
  refine Keeps.ite ?_ ?_
  · exact h30
  · refine Keeps.ite ?_ ?_
    · exact Keeps.step (raiseFault_keeps _ _ _) h31 (by decide)
    · exact h31

theorem loopBoundary_keeps (s : State) (n : Nat) :
    Keeps [.params, .staged, .gain, .armedG, .tables, .host, .flt, .arms, .cells, .lanes, .str, .belay, .reel,
        .tbus, .loops, .tally, .freeCtr] [] s (loopBoundary s n) := by
  unfold loopBoundary
  extract_lets y0 y1 y2 y3 y4
  clear_value y0 y1
  refine Keeps.cut (s := y2) ?_ fun h30 => ?_
  · unfold y2
    refine Keeps.ite ?_ ?_
    · exact Keeps.step (putTable_keeps _ _ _ _) (Keeps.refl _) (by rfl)
    · exact Keeps.refl _
  clear_value y2
  refine Keeps.cut (s := y3) ?_ fun h31 => ?_
  · unfold y3
    exact Keeps.step (applyGroup_keeps _ _ _) h30 (by rfl)
  clear_value y3
  refine Keeps.cut (s := y4) ?_ fun h32 => ?_
  · unfold y4
    refine Keeps.ite ?_ ?_
    · exact Keeps.step (updSlot_keeps _ _ _) h31 (by rfl)
    · exact h31
  clear_value y4
  refine Keeps.ite ?_ ?_
  · exact Keeps.refl _
  · refine Keeps.ite ?_ ?_
    · refine Keeps.step (raiseOnce_keeps _ _ _) ?_ (by rfl)
      exact Keeps.step (dropGroup_keeps _ _ _) (Keeps.refl _) (by rfl)
    · refine Keeps.ite ?_ ?_
      · refine Keeps.step (causeGone_keeps _ _ _) ?_ (by rfl)
        exact Keeps.step (causeGone_keeps _ _ _) (Keeps.step (updSlot_keeps _ _ _) h32 (by rfl)) (by rfl)
      · exact h32

theorem plausCheck_keeps (s : State) (n : Nat) (y : Int) :
    Keeps [.host, .flt, .arms, .cells, .lanes, .str, .belay, .reel, .tbus, .loops, .freeCtr] [P.FLT_LOST,
        P.HOST_IRQ_CAUSE, P.LOOP_RESID, P.REEL_LOST, P.REEL_QUEUE_HIGH, P.REEL_TRIG_TICK,
        P.STR_TRACE_LOST] s (plausCheck s n y) := by
  unfold plausCheck
  extract_lets y0 y1 y2 y3 y4 y5 y6 y7 y8 y9
  clear_value y0 y1 y3 y4 y6 y8
  refine Keeps.cut (s := y2) ?_ fun h30 => ?_
  · unfold y2
    refine Keeps.ite ?_ ?_
    · exact Keeps.step (causeGone_keeps _ _ _) (Keeps.refl _) (by decide)
    · exact Keeps.refl _
  clear_value y2
  refine Keeps.cut (s := y5) ?_ fun h31 => ?_
  · unfold y5
    exact Keeps.step (putI_keeps _ _ _ _) h30 (by decide)
  clear_value y5
  refine Keeps.cut (s := y7) ?_ fun h32 => ?_
  · unfold y7
    refine Keeps.ite ?_ ?_
    · exact h31
    · exact Keeps.step (causeGone_keeps _ _ _) h31 (by decide)
  clear_value y7
  refine Keeps.cut (s := y9) ?_ fun h33 => ?_
  · unfold y9
    exact Keeps.step (updSlot_keeps _ _ _) h32 (by decide)
  clear_value y9
  refine Keeps.ite ?_ ?_
  · exact Keeps.step (updSlot_keeps _ _ _) h30 (by decide)
  · refine Keeps.ite ?_ ?_
    · exact h32
    · refine Keeps.ite ?_ ?_
      · exact Keeps.step (raiseFault_keeps _ _ _) h33 (by decide)
      · exact h33

theorem runSlot_keeps (s : State) (n : Nat) :
    Keeps [.host, .flt, .arms, .cells, .lanes, .str, .belay, .reel, .tbus, .loops, .freeCtr] [P.FLT_LOST,
        P.HOST_IRQ_CAUSE, P.LOOP_ERR, P.LOOP_KP, P.LOOP_OUT, P.LOOP_RESID, P.LOOP_SAT, P.REEL_LOST,
        P.REEL_QUEUE_HIGH, P.REEL_TRIG_TICK, P.STR_TRACE_LOST] s (runSlot s n) := by
  unfold runSlot
  extract_lets y0 y1 y2 y3 y4 y5 y6 y7 y8 y9
  clear_value y0 y1 y2 y3 y4 y5 y6
  refine Keeps.cut (s := y7) ?_ fun h30 => ?_
  · unfold y7
    refine Keeps.step (plausCheck_keeps _ _ _) ?_ (by decide)
    exact Keeps.step (feCheck_keeps _ _ _) (Keeps.refl _) (by decide)
  clear_value y7
  refine Keeps.cut (s := y8) ?_ fun h31 => ?_
  · unfold y8
    exact Keeps.step (updSlot_keeps _ _ _) h30 (by decide)
  clear_value y8
  refine Keeps.cut (s := y9) ?_ fun h32 => ?_
  · unfold y9
    refine Keeps.ite ?_ ?_
    · exact Keeps.step (incP_keeps _ _ _) h31 (by decide)
    · exact h31
  clear_value y9
  refine Keeps.ite ?_ ?_
  · refine Keeps.step (putI_keeps _ _ _ _) ?_ (by decide)
    exact Keeps.step (updSlot_keeps _ _ _) (Keeps.refl _) (by decide)
  · refine Keeps.step (putN_keeps _ _ _ _) ?_ (by decide)
    exact Keeps.step (putI_keeps _ _ _ _) (Keeps.step (putI_keeps _ _ _ _) h32 (by decide)) (by decide)

theorem runSlots_keeps (s : State) :
    Keeps [.host, .flt, .arms, .cells, .lanes, .str, .belay, .reel, .tbus, .loops, .freeCtr] [P.FLT_LOST,
        P.HOST_IRQ_CAUSE, P.LOOP_ERR, P.LOOP_KP, P.LOOP_OUT, P.LOOP_RESID, P.LOOP_SAT, P.REEL_LOST,
        P.REEL_QUEUE_HIGH, P.REEL_TRIG_TICK, P.STR_TRACE_LOST] s (runSlots s) := by
  unfold runSlots
  refine Keeps.foldl ?_ fun x0 a1 h2 => ?_
  · exact Keeps.refl _
  · exact Keeps.step (runSlot_keeps _ _) h2 (by decide)

end Sys2Proof.Machine
end

