-- ==== Sys2Proof/Laws/PlanningFrame.lean ====
section
/-! SUPPORT. What each operation of `Machine/Planning.lean` may change, and that it changes nothing else. -/

namespace Sys2Proof.Machine

theorem armSample_keeps (s : State) (per : Nat) (a : Nat) :
    Keeps [.arms] [P.ARM_I_LAST] s (armSample s per a) := by
  unfold armSample
  extract_lets y0 y1 y2 y3
  clear_value y0 y1 y2 y3
  exact Keeps.step (updArm_keeps _ _ _) (Keeps.step (putI_keeps _ _ _ _) (Keeps.refl _) (by decide)) (by decide)

theorem armSamples_keeps (s : State) (per : Nat) :
    Keeps [.arms] [P.ARM_I_LAST] s (armSamples s per) := by
  unfold armSamples
  refine Keeps.foldl ?_ fun x0 a1 h2 => ?_
  · exact Keeps.refl _
  · exact Keeps.step (armSample_keeps _ _ _) h2 (by decide)

theorem ifcWord_keeps (s : State) (a : Nat) (i : Rat) :
    Keeps [.freeCtr] [] s (ifcWord s a i).1 := by
  unfold ifcWord
  extract_lets y0 y1
  clear_value y0 y1
  split
  · dsimp only
    exact Keeps.refl _
  · dsimp only
    refine Keeps.step (B := [.freeCtr]) (bi := []) (s := s)
        (.upd rfl fun g hg => by cases g <;> first | exact absurd hg (by decide) | rfl) ?_ (by decide)
    exact Keeps.refl _

theorem mtReport_keeps (s : State) (c : Nat) (k : Nat) (v : Rat) :
    Keeps [.cells] [] s (mtReport s c k v) := by
  unfold mtReport
  extract_lets y0 y1
  clear_value y0 y1
  refine Keeps.ite ?_ ?_
  · exact Keeps.step (updCell_keeps _ _ _) (Keeps.refl _) (by decide)
  · exact Keeps.refl _

theorem publishDone_keeps (s : State) (a : Nat) :
    Keeps [.arms] [P.BAL_PASS_TICKS] s (publishDone s a) := by
  unfold publishDone
  split
  · exact Keeps.refl _
  · extract_lets y30
    refine Keeps.cut (s := y30) ?_ fun h60 => ?_
    · unfold y30
      exact Keeps.step (maxP_keeps _ _ _ _) (Keeps.refl _) (by decide)
    clear_value y30
    split
    · extract_lets y91
      clear_value y91
      exact Keeps.step (updArm_keeps _ _ _) h60 (by decide)
    · exact Keeps.refl _

theorem rebase_keeps (s : State) (c : Nat) (m : Nat) :
    Keeps [.cells] [] s (rebase s c m) := by
  unfold rebase
  extract_lets y0 y1
  clear_value y0 y1
  refine Keeps.ite ?_ ?_
  · exact Keeps.step (updCell_keeps _ _ _) (Keeps.refl _) (by decide)
  · exact Keeps.refl _

theorem updMt_keeps (s : State) (f : MtSt → MtSt) :
    Keeps [.disc] [] s (updMt s f) := by
  unfold updMt
  extract_lets y0
  clear_value y0
  refine Keeps.step (B := [.disc]) (bi := []) (s := s)
      (.upd rfl fun g hg => by cases g <;> first | exact absurd hg (by decide) | rfl) ?_ (by decide)
  exact Keeps.refl _

theorem updPass_keeps (s : State) (a : Nat) (f : Pass → Pass) :
    Keeps [.arms] [] s (updPass s a f) := by
  unfold updPass
  exact Keeps.step (updArm_keeps _ _ _) (Keeps.refl _) (by decide)

theorem arbLate_keeps (s : State) :
    Keeps [.arms] [P.BUD_STATUS] s (arbLate s) := by
  unfold arbLate
  refine Keeps.foldl ?_ fun x0 a1 h2 => ?_
  · exact Keeps.refl _
  · split
    · refine Keeps.ite ?_ ?_
      · exact Keeps.step (orP_keeps _ _ _ _) (Keeps.step (updPass_keeps _ _ _) h2 (by decide)) (by decide)
      · exact h2
    · exact h2

theorem mtAbort_keeps (s : State) :
    Keeps [.disc] [] s (mtAbort s) := by
  unfold mtAbort
  refine Keeps.ite ?_ ?_
  · exact Keeps.step (updMt_keeps _ _) (Keeps.refl _) (by decide)
  · exact Keeps.refl _

theorem mtChargeOf_keeps (s : State) (k : Nat) (per : Nat) :
    Keeps [.disc, .freeCtr] [P.DISC_MT_QABS, P.DISC_MT_QPOS] s (mtChargeOf s k per) := by
  unfold mtChargeOf
  extract_lets y0 y1 y2
  clear_value y0 y1
  refine Keeps.cut (s := y2) ?_ fun h30 => ?_
  · unfold y2
    exact Keeps.step (updMt_keeps _ _) (Keeps.refl _) (by decide)
  clear_value y2
  refine Keeps.ite ?_ ?_
  · refine Keeps.foldl ?_ fun x31 a32 h33 => ?_
    · exact h30
    · refine Keeps.step (putCharge_keeps _ _ _ _) ?_ (by decide)
      exact Keeps.step (putCharge_keeps _ _ _ _) h33 (by decide)
  · exact Keeps.refl _

theorem mtStartMark_keeps (s : State) :
    Keeps [.cells, .disc] [P.DISC_MT_QABS, P.DISC_MT_QPOS] s (mtStartMark s) := by
  unfold mtStartMark
  extract_lets y0 y1 y2
  clear_value y0
  refine Keeps.cut (s := y1) ?_ fun h30 => ?_
  · unfold y1
    exact Keeps.step (updMt_keeps _ _) (Keeps.refl _) (by decide)
  clear_value y1
  refine Keeps.cut (s := y2) ?_ fun h31 => ?_
  · unfold y2
    refine Keeps.step (B := [.cells]) (bi := []) (s := y1)
        (.upd rfl fun g hg => by cases g <;> first | exact absurd hg (by decide) | rfl) ?_ (by decide)
    exact h30
  clear_value y2
  refine Keeps.ite ?_ ?_
  · refine Keeps.foldl ?_ fun x62 a63 h64 => ?_
    · exact h31
    · exact Keeps.step (putN_keeps _ _ _ _) (Keeps.step (putN_keeps _ _ _ _) h64 (by decide)) (by decide)
  · exact Keeps.refl _

theorem passStart_keeps (s : State) (a : Nat) :
    Keeps [.arms, .cells, .freeCtr] [] s (passStart s a) := by
  unfold passStart
  extract_lets y0 y1 y2 y3 y4 y5 y6 y7 y8 y9 y10 y11 y12
  clear_value y0 y1 y2 y3 y4 y5 y6 y7 y8 y10 y11
  refine Keeps.cut (s := y9.1) ?_ fun h30 => ?_
  · unfold y9
    exact Keeps.step (ifcWord_keeps _ _ _) (Keeps.refl _) (by decide)
  clear_value y9
  refine Keeps.cut (s := y12) ?_ fun h31 => ?_
  · unfold y12
    exact Keeps.step (updArm_keeps _ _ _) h30 (by decide)
  clear_value y12
  refine Keeps.foldl ?_ fun x62 a63 h64 => ?_
  · exact h31
  · extract_lets y65
    refine Keeps.cut (s := y65) ?_ fun h95 => ?_
    · unfold y65
      exact Keeps.step (rebase_keeps _ _ _) h64 (by decide)
    clear_value y65
    exact Keeps.step (updCell_keeps _ _ _) h95 (by decide)

theorem sortDone_keeps (s : State) (a : Nat) :
    Keeps [.arms] [P.BAL_SPREAD] s (sortDone s a) := by
  unfold sortDone
  split
  · exact Keeps.refl _
  · extract_lets y30
    clear_value y30
    refine Keeps.step (updPass_keeps _ _ _) ?_ (by decide)
    exact Keeps.step (putN_keeps _ _ _ _) (Keeps.refl _) (by decide)

theorem swapDone_keeps (s : State) (a : Nat) :
    Keeps [.arms] [P.BUD_DEMAND] s (swapDone s a) := by
  unfold swapDone
  extract_lets y0
  clear_value y0
  split
  · exact Keeps.refl _
  · split
    · extract_lets y90 y91 y92 y93
      clear_value y91 y92 y93
      refine Keeps.step (updPass_keeps _ _ _) ?_ (by decide)
      exact Keeps.step (putN_keeps _ _ _ _) (Keeps.refl _) (by decide)
    · exact Keeps.refl _

theorem arbDone_keeps (s : State) :
    Keeps [.arms] [P.BUD_GRANT, P.BUD_STATUS, P.BUD_UNGRANTED] s (arbDone s) := by
  unfold arbDone
  extract_lets y0 y1 y2 y3 y4 y5
  clear_value y1 y2
  refine Keeps.cut (s := y0) ?_ fun h30 => ?_
  · unfold y0
    exact Keeps.step (arbLate_keeps _) (Keeps.refl _) (by decide)
  clear_value y0
  refine Keeps.cut (s := y3) ?_ fun h31 => ?_
  · unfold y3
    refine Keeps.foldl ?_ fun x62 a63 h64 => ?_
    · exact h30
    · extract_lets y65
      clear_value y65
      exact Keeps.step (updPass_keeps _ _ _) (Keeps.step (putN_keeps _ _ _ _) h64 (by decide)) (by decide)
  clear_value y3
  refine Keeps.cut (s := y4) ?_ fun h95 => ?_
  · unfold y4
    exact Keeps.step (putN_keeps _ _ _ _) h31 (by decide)
  clear_value y4
  refine Keeps.cut (s := y5) ?_ fun h96 => ?_
  · unfold y5
    refine Keeps.ite ?_ ?_
    · exact Keeps.step (orP_keeps _ _ _ _) h95 (by decide)
    · exact h95
  clear_value y5
  refine Keeps.ite ?_ ?_
  · exact Keeps.step (orP_keeps _ _ _ _) h96 (by decide)
  · exact h96

theorem makeSorts_keeps (s : State) (a : Nat) (n : Nat) (latch : Nat) (arb : Option Nat) (swap : Nat) :
    Keeps [.str, .freeCtr] [P.STR_READY_MAX, P.STR_SLOTS_HIGH,
        P.STR_TRACE_LOST] s (makeSorts s a n latch arb swap) := by
  unfold makeSorts
  extract_lets y0 y1 y2 y3
  clear_value y0 y1
  refine Keeps.cut (s := y2.1) ?_ fun h30 => ?_
  · unfold y2
    exact Keeps.step (createSlot_keeps _ _) (Keeps.refl _) (by decide)
  clear_value y2
  refine Keeps.ite ?_ ?_
  · unfold y3
    exact Keeps.step (createTask_keeps _ _) h30 (by decide)
  · refine Keeps.foldl ?_ fun x91 a92 h93 => ?_
    · exact h30
    · extract_lets y94
      refine Keeps.cut (s := y94.1) ?_ fun h124 => ?_
      · unfold y94
        exact Keeps.step (createSlot_keeps _ _) h93 (by decide)
      clear_value y94
      unfold y3
      exact Keeps.step (createTask_keeps _ _) h124 (by decide)

theorem makeSwap_keeps (s : State) (a : Nat) (latch : Nat) :
    Keeps [.str, .freeCtr] [P.STR_READY_MAX, P.STR_SLOTS_HIGH, P.STR_TRACE_LOST] s (makeSwap s a latch).1 := by
  unfold makeSwap
  extract_lets y0
  refine Keeps.cut (s := y0.1) ?_ fun h30 => ?_
  · unfold y0
    exact Keeps.step (createSlot_keeps _ _) (Keeps.refl _) (by decide)
  clear_value y0
  exact Keeps.step (createSlot_keeps _ _) h30 (by decide)

theorem mtCharge_keeps (s : State) (per : Nat) :
    Keeps [.disc, .freeCtr] [P.DISC_MT_QABS, P.DISC_MT_QPOS] s (mtCharge s per) := by
  unfold mtCharge
  refine Keeps.ite ?_ ?_
  · exact Keeps.step (mtChargeOf_keeps _ _ _) (Keeps.refl _) (by decide)
  · exact Keeps.refl _

theorem notStarved_keeps (s : State) (a : Nat) :
    Keeps [.flt] [P.BUD_STARVE_RUN] s (notStarved s a) := by
  unfold notStarved
  refine Keeps.ite ?_ ?_
  · exact Keeps.refl _
  · refine Keeps.step (causeGone_keeps _ _ _) ?_ (by decide)
    exact Keeps.step (putN_keeps _ _ _ _) (Keeps.refl _) (by decide)

theorem passTasks_keeps (s : State) (arms : List Nat) (latch : Nat) :
    Keeps [.str, .freeCtr] [P.STR_READY_MAX, P.STR_SLOTS_HIGH, P.STR_TRACE_LOST] s (passTasks s arms latch) := by
  unfold passTasks
  extract_lets r parts arb
  have hr : Keeps [.freeCtr, .str] [P.STR_READY_MAX, P.STR_SLOTS_HIGH, P.STR_TRACE_LOST] s r.1 := by
    suffices h : ∀ (l : List Nat) (x : State × List (Nat × Nat)), Keeps [.freeCtr, .str] [P.STR_READY_MAX,
        P.STR_SLOTS_HIGH, P.STR_TRACE_LOST] s x.1 →
        Keeps [.freeCtr, .str] [P.STR_READY_MAX, P.STR_SLOTS_HIGH,
            P.STR_TRACE_LOST] s (l.foldl (fun (x : State × List (Nat × Nat)) a =>
          let y := makeSwap x.1 a latch
          (y.1, x.2 ++ [(a, y.2)])) x).1 from h arms (s, []) (.refl s)
    intro l
    induction l with
    | nil => exact fun x h => h
    | cons a l ih => exact fun x h => ih _ ((makeSwap_keeps _ _ _).step h (by decide))
  clear_value r
  have ha : Keeps [.freeCtr, .str] [P.STR_READY_MAX, P.STR_SLOTS_HIGH,
        P.STR_TRACE_LOST] s arb.1 := (createSlot_keeps _ _).step hr (by decide)
  clear_value arb
  refine Keeps.mono (Keeps.foldl ha fun x p h => ?_) (by decide)
  exact (makeSorts_keeps _ _ _ _ _ _).step h (by decide)

theorem retryEnd_keeps (s : State) (e : Nat) :
    Keeps [.flt, .cleat] [] s (retryEnd s e) := by
  unfold retryEnd
  extract_lets y0
  clear_value y0
  refine Keeps.ite ?_ ?_
  · exact Keeps.step (releaseEntry_keeps _ _ _) (Keeps.refl _) (by decide)
  · exact Keeps.refl _

theorem latchEntry_keeps (s : State) (e : Nat) :
    Keeps [.flt, .cleat] [] s (latchEntry s e) := by
  unfold latchEntry
  extract_lets y0 y1 y2 y3 y4
  clear_value y0 y1 y2 y3
  refine Keeps.cut (s := y4) ?_ fun h30 => ?_
  · unfold y4
    exact Keeps.step (updCleat_keeps _ _ _) (Keeps.refl _) (by decide)
  clear_value y4
  refine Keeps.ite ?_ ?_
  · exact Keeps.refl _
  · refine Keeps.ite ?_ ?_
    · exact Keeps.step (releaseEntry_keeps _ _ _) h30 (by decide)
    · split
      · refine Keeps.ite ?_ ?_
        · exact h30
        · refine Keeps.ite ?_ ?_
          · exact Keeps.step (retryEnd_keeps _ _) h30 (by decide)
          · exact Keeps.step (updCleat_keeps _ _ _) h30 (by decide)
      · exact h30

theorem passStarts_keeps (s : State) :
    Keeps [.per, .arms, .cells, .str, .freeCtr] [P.STR_READY_MAX, P.STR_SLOTS_HIGH,
        P.STR_TRACE_LOST] s (passStarts s) := by
  unfold passStarts
  extract_lets y0 y1 y2 y3 y4 y5
  clear_value y0 y1 y3 y4
  refine Keeps.cut (s := y2) ?_ fun h30 => ?_
  · unfold y2
    refine Keeps.ite ?_ ?_
    · refine Keeps.step (B := [.per]) (bi := []) (s := s)
        (.upd rfl fun g hg => by cases g <;> first | exact absurd hg (by decide) | rfl) ?_ (by decide)
      exact Keeps.refl _
    · exact Keeps.refl _
  clear_value y2
  refine Keeps.cut (s := y5) ?_ fun h31 => ?_
  · unfold y5
    refine Keeps.foldl ?_ fun x32 a33 h34 => ?_
    · exact h30
    · exact Keeps.step (passStart_keeps _ _) h34 (by decide)
  clear_value y5
  refine Keeps.ite ?_ ?_
  · exact h31
  · exact Keeps.step (passTasks_keeps _ _ _) h31 (by decide)

theorem taskEffect_keeps (s : State) (t : Task) :
    Keeps [.flt, .arms, .tally] [P.BAL_IFC, P.BAL_PASS_TICKS, P.BAL_SPREAD, P.BUD_DEMAND, P.BUD_GRANT, P.BUD_STATUS,
        P.BUD_UNGRANTED, P.TALLY_BLOCK, P.TALLY_CONVERTER] s (taskEffect s t) := by
  unfold taskEffect
  split
  · split
    · exact Keeps.step (putI_keeps _ _ _ _) (Keeps.refl _) (by decide)
    · exact Keeps.refl _
  · refine Keeps.ite ?_ ?_
    · exact Keeps.step (sortDone_keeps _ _) (Keeps.refl _) (by decide)
    · exact Keeps.refl _
  · exact Keeps.step (arbDone_keeps _) (Keeps.refl _) (by decide)
  · exact Keeps.step (swapDone_keeps _ _) (Keeps.refl _) (by decide)
  · exact Keeps.step (publishDone_keeps _ _) (Keeps.refl _) (by decide)
  · exact Keeps.step (tallyCompute_keeps _) (Keeps.refl _) (by decide)
  · exact Keeps.refl _

theorem mtEnd_keeps (s : State) :
    Keeps [.host, .flt, .arms, .cells, .lanes, .str, .belay, .reel, .tbus, .disc, .freeCtr] [P.FLT_LOST,
        P.HOST_IRQ_CAUSE, P.REEL_LOST, P.REEL_QUEUE_HIGH, P.REEL_TRIG_TICK, P.STR_TRACE_LOST] s (mtEnd s) := by
  unfold mtEnd
  extract_lets y0
  refine Keeps.cut (s := y0) ?_ fun h30 => ?_
  · unfold y0
    exact Keeps.step (updMt_keeps _ _) (Keeps.refl _) (by decide)
  clear_value y0
  refine Keeps.ite ?_ ?_
  · refine Keeps.foldl ?_ fun x91 a92 h93 => ?_
    · exact h30
    · extract_lets y94 y95
      clear_value y94
      refine Keeps.cut (s := y95) ?_ fun h124 => ?_
      · unfold y95
        exact Keeps.step (updCell_keeps _ _ _) h93 (by decide)
      clear_value y95
      refine Keeps.ite ?_ ?_
      · exact h93
      · refine Keeps.ite ?_ ?_
        · exact Keeps.step (raiseFault_keeps _ _ _) h124 (by decide)
        · exact h124
  · exact Keeps.refl _

theorem sendPair_keeps (s : State) (c : Nat) :
    Keeps [.host, .flt, .arms, .cells, .lanes, .str, .belay, .reel, .tbus, .freeCtr] [P.FLT_LOST, P.HOST_IRQ_CAUSE,
        P.REEL_LOST, P.REEL_QUEUE_HIGH, P.REEL_TRIG_TICK, P.STR_TRACE_LOST] s (sendPair s c) := by
  unfold sendPair
  extract_lets y0 y1 y2 y3
  clear_value y0 y1 y2
  refine Keeps.cut (s := y3) ?_ fun h30 => ?_
  · unfold y3
    exact Keeps.step (updCell_keeps _ _ _) (Keeps.refl _) (by decide)
  clear_value y3
  refine Keeps.ite ?_ ?_
  · exact Keeps.step (updCell_keeps _ _ _) (Keeps.refl _) (by decide)
  · refine Keeps.ite ?_ ?_
    · exact Keeps.step (permFailed_keeps _ _) (Keeps.refl _) (by decide)
    · exact Keeps.step (updLane_keeps _ _ _) h30 (by decide)

theorem starve_keeps (s : State) (a : Nat) (p : Pass) :
    Keeps [.host, .flt, .arms, .cells, .lanes, .str, .belay, .reel, .tbus, .freeCtr] [P.BUD_STARVE_RUN, P.FLT_LOST,
        P.HOST_IRQ_CAUSE, P.REEL_LOST, P.REEL_QUEUE_HIGH, P.REEL_TRIG_TICK, P.STR_TRACE_LOST] s (starve s a p) := by
  unfold starve
  extract_lets y0 y1 y2 y3
  clear_value y0 y1 y2
  refine Keeps.cut (s := y3) ?_ fun h30 => ?_
  · unfold y3
    exact Keeps.step (putN_keeps _ _ _ _) (Keeps.refl _) (by decide)
  clear_value y3
  refine Keeps.ite ?_ ?_
  · exact Keeps.step (causeGone_keeps _ _ _) h30 (by decide)
  · refine Keeps.ite ?_ ?_
    · exact Keeps.step (raiseFault_keeps _ _ _) h30 (by decide)
    · exact h30

theorem latchArm_keeps (s : State) (a : Nat) :
    Keeps [.host, .flt, .arms, .cells, .lanes, .str, .belay, .reel, .tbus, .freeCtr] [P.BAL_PASS_TICKS, P.BAL_STALE,
        P.BUD_STARVE_RUN, P.FLT_LOST, P.HOST_IRQ_CAUSE, P.REEL_LOST, P.REEL_QUEUE_HIGH, P.REEL_TRIG_TICK,
        P.STR_TRACE_LOST] s (latchArm s a) := by
  unfold latchArm
  extract_lets y0 y1
  clear_value y0
  split
  · exact Keeps.refl _
  · extract_lets y60 y61 y62
    refine Keeps.cut (s := y60) ?_ fun h90 => ?_
    · unfold y60
      refine Keeps.ite ?_ ?_
      · exact Keeps.step (starve_keeps _ _ _) (Keeps.refl _) (by decide)
      · exact Keeps.refl _
    clear_value y60
    refine Keeps.cut (s := y61) ?_ fun h91 => ?_
    · unfold y61
      exact Keeps.step (causeGone_keeps _ _ _) h90 (by decide)
    clear_value y61
    refine Keeps.cut (s := y62) ?_ fun h92 => ?_
    · unfold y62
      exact Keeps.step (maxP_keeps _ _ _ _) h90 (by decide)
    clear_value y62
    refine Keeps.ite ?_ ?_
    · exact Keeps.refl _
    · split
      · refine Keeps.ite ?_ ?_
        · exact Keeps.step (causeGone_keeps _ _ _) (Keeps.step (updArm_keeps _ _ _) h91 (by decide)) (by decide)
        · refine Keeps.step (incP_keeps _ _ _) ?_ (by decide)
          refine Keeps.step (raiseFault_keeps _ _ _) ?_ (by decide)
          exact Keeps.step (updArm_keeps _ _ _) h91 (by decide)
      · refine Keeps.step (incP_keeps _ _ _) ?_ (by decide)
        exact Keeps.step (raiseFault_keeps _ _ _) (Keeps.step (updArm_keeps _ _ _) h92 (by decide)) (by decide)

theorem latchRetire_keeps (s : State) (c : Nat) :
    Keeps [.ops, .host, .flt, .arms, .cells, .lanes, .cleat, .str, .belay, .reel, .tbus, .freeCtr] [P.FLT_LOST,
        P.HOST_IRQ_CAUSE, P.REEL_LOST, P.REEL_QUEUE_HIGH, P.REEL_TRIG_TICK,
        P.STR_TRACE_LOST] s (latchRetire s c) := by
  unfold latchRetire
  split
  · exact Keeps.step (retireDone_keeps _ _ _) (Keeps.refl _) (by decide)
  · exact Keeps.step (sendPair_keeps _ _) (Keeps.refl _) (by decide)
  · exact Keeps.refl _

theorem latchActivity_keeps (s : State) (i : Nat) :
    Keeps [.host, .flt, .arms, .cells, .lanes, .cleat, .str, .belay, .reel, .tbus, .freeCtr] [P.FLT_LOST,
        P.HOST_IRQ_CAUSE, P.REEL_LOST, P.REEL_QUEUE_HIGH, P.REEL_TRIG_TICK,
        P.STR_TRACE_LOST] s (latchActivity s i) := by
  unfold latchActivity
  split
  · refine Keeps.ite ?_ ?_
    · exact Keeps.step (freeActivity_keeps _ _) (Keeps.refl _) (by decide)
    · exact Keeps.step (updAct_keeps _ _ _) (Keeps.refl _) (by decide)
  · exact Keeps.refl _

theorem latchMark_keeps (s : State) :
    Keeps [.ops, .host, .flt, .arms, .cells, .lanes, .cleat, .str, .belay, .reel, .tbus,
        .freeCtr] [P.BAL_PASS_TICKS, P.BAL_STALE, P.BUD_STARVE_RUN, P.FLT_LOST, P.HOST_IRQ_CAUSE, P.REEL_LOST,
        P.REEL_QUEUE_HIGH, P.REEL_TRIG_TICK, P.STR_TRACE_LOST] s (latchMark s) := by
  unfold latchMark
  extract_lets y0 y1 y2 y3 y4 y5 y6
  clear_value y0 y1 y4
  refine Keeps.cut (s := y2) ?_ fun h30 => ?_
  · unfold y2
    refine Keeps.foldl ?_ fun x31 a32 h33 => ?_
    · refine Keeps.foldl ?_ fun x34 a35 h36 => ?_
      · exact Keeps.refl _
      · exact Keeps.step (notStarved_keeps _ _) h36 (by decide)
    · exact Keeps.step (latchArm_keeps _ _) h33 (by decide)
  clear_value y2
  refine Keeps.cut (s := y3) ?_ fun h37 => ?_
  · unfold y3
    refine Keeps.ite ?_ ?_
    · exact h30
    · exact Keeps.step (traceEvent_keeps _ _ _ _ _ _ _) h30 (by decide)
  clear_value y3
  refine Keeps.cut (s := y5) ?_ fun h38 => ?_
  · unfold y5
    refine Keeps.foldl ?_ fun x39 a40 h41 => ?_
    · exact h37
    · exact Keeps.step (latchEntry_keeps _ _) h41 (by decide)
  clear_value y5
  refine Keeps.cut (s := y6) ?_ fun h42 => ?_
  · unfold y6
    refine Keeps.foldl ?_ fun x43 a44 h45 => ?_
    · exact h38
    · refine Keeps.ite ?_ ?_
      · exact Keeps.step (latchRetire_keeps _ _) h45 (by decide)
      · exact h45
  clear_value y6
  refine Keeps.foldl ?_ fun x46 a47 h48 => ?_
  · exact h42
  · exact Keeps.step (latchActivity_keeps _ _) h48 (by decide)

end Sys2Proof.Machine
end

