-- ==== Sys2Proof/Laws/BelayFrame.lean ====
section
/-! SUPPORT. What each operation of `Machine/Belay.lean` may change, and that it changes nothing else. -/

namespace Sys2Proof.Machine

theorem belayLogAdd_keeps (s : State) (kind : Nat) (id : Nat) (t : Nat) (old : Nat) (new : Nat) :
    Keeps [.belay] [] s (belayLogAdd s kind id t old new) := by
  unfold belayLogAdd
  extract_lets y0
  clear_value y0
  exact Keeps.step (updBelay_keeps _ _) (Keeps.refl _) (by decide)

theorem gridNext_keeps (s : State) :
    Keeps [.tick, .flt, .time, .str, .belay, .chop] [] s (gridNext s) := by
  unfold gridNext
  extract_lets y0
  refine Keeps.cut (s := y0) ?_ fun h30 => ?_
  · unfold y0
    split
    · exact Keeps.step (advanceTo_keeps _ _) (Keeps.refl _) (by decide)
    · exact Keeps.refl _
  clear_value y0
  exact Keeps.step (updBelay_keeps _ _) h30 (by decide)

theorem hbArrive_keeps (s : State) (p : Nat) :
    Keeps [.belay] [] s (hbArrive s p) := by
  unfold hbArrive
  exact Keeps.step (updBelay_keeps _ _) (Keeps.refl _) (by decide)

theorem internalPass_keeps (s : State) (i : Nat) :
    Keeps [.belay] [] s (internalPass s i) := by
  unfold internalPass
  exact Keeps.step (updBelay_keeps _ _) (Keeps.refl _) (by decide)

theorem safetyLogReadBody_keeps (c : Cmd) (s : State) :
    ResKeeps [] [] s (safetyLogReadBody c s) := by
  unfold safetyLogReadBody
  extract_lets y0 y1
  clear_value y0 y1
  refine ResKeeps.check ?_
  show Keeps _ _ _ _
  exact Keeps.refl _

theorem sessionEnd_keeps (s : State) :
    Keeps [.belay] [] s (sessionEnd s) := by
  unfold sessionEnd
  refine Keeps.ite ?_ ?_
  · refine Keeps.step (updBelay_keeps _ _) ?_ (by decide)
    exact Keeps.step (belayLogAdd_keeps _ _ _ _ _ _) (Keeps.refl _) (by decide)
  · exact Keeps.refl _

theorem siRunEnd_keeps (s : State) (n : Nat) :
    Keeps [.belay, .freeCtr] [P.SAFE_DISC_EVENTS] s (siRunEnd s n) := by
  unfold siRunEnd
  extract_lets y0 y1
  clear_value y0
  refine Keeps.cut (s := y1) ?_ fun h30 => ?_
  · unfold y1
    exact Keeps.step (updSi_keeps _ _ _) (Keeps.refl _) (by decide)
  clear_value y1
  refine Keeps.ite ?_ ?_
  · exact Keeps.step (incP_keeps _ _ _) h30 (by decide)
  · exact h30

theorem unlatch_keeps (s : State) (m : Nat) :
    Keeps [.belay] [] s (unlatch s m) := by
  unfold unlatch
  exact Keeps.step (updBelay_keeps _ _) (Keeps.refl _) (by decide)

theorem safetyLockBody_keeps (a : Cmd) (s : State) :
    ResKeeps [.belay] [] s (safetyLockBody a s) := by
  unfold safetyLockBody
  refine ResKeeps.done ?_
  refine Keeps.ite ?_ ?_
  · exact Keeps.step (updBelay_keeps _ _) (Keeps.step (sessionEnd_keeps _) (Keeps.refl _) (by decide)) (by decide)
  · exact Keeps.refl _

theorem safetyUnlockBody_keeps (c : Cmd) (s : State) :
    ResKeeps [.belay, .freeCtr] [P.SAFE_UNLOCK_FAIL] s (safetyUnlockBody c s) := by
  unfold safetyUnlockBody
  extract_lets y0 y1 y2 y3 y4 y5 y6 y7
  clear_value y0 y2 y4 y5
  refine ResKeeps.cut (s := y3) ?_ fun h30 => ?_
  · unfold y3
    refine Keeps.step (belayLogAdd_keeps _ _ _ _ _ _) ?_ (by decide)
    exact Keeps.step (incP_keeps _ _ _) (Keeps.refl _) (by decide)
  clear_value y3
  refine ResKeeps.cut (s := y6) ?_ fun h31 => ?_
  · unfold y6
    exact Keeps.step (sessionEnd_keeps _) (Keeps.refl _) (by decide)
  clear_value y6
  refine ResKeeps.cut (s := y7) ?_ fun h32 => ?_
  · unfold y7
    exact Keeps.step (updBelay_keeps _ _) h31 (by decide)
  clear_value y7
  refine ResKeeps.ite ?_ ?_
  · unfold y1
    show Keeps _ _ _ _
    exact Keeps.step (incP_keeps _ _ _) (Keeps.refl _) (by decide)
  · refine ResKeeps.ite ?_ ?_
    · unfold y1
      show Keeps _ _ _ _
      exact Keeps.step (updBelay_keeps _ _) h30 (by decide)
    · show Keeps _ _ _ _
      exact Keeps.step (belayLogAdd_keeps _ _ _ _ _ _) h32 (by decide)

theorem relBit_keeps (s : State) (b : Nat) (ok : Bool) (code : Nat) (insts : List Nat) :
    Keeps [.flt, .belay] [] s (relBit s b ok code insts) := by
  unfold relBit
  refine Keeps.ite ?_ ?_
  · refine Keeps.foldl ?_ fun x0 a1 h2 => ?_
    · exact Keeps.step (unlatch_keeps _ _) (Keeps.refl _) (by decide)
    · exact Keeps.step (causeGone_keeps _ _ _) h2 (by decide)
  · exact Keeps.refl _

theorem safetyWriteBody_keeps (c : Cmd) (s : State) :
    ResKeeps [.params, .str, .belay, .tally, .freeCtr] [] s (safetyWriteBody c s) := by
  unfold safetyWriteBody
  extract_lets y0 y1 y2 y3
  clear_value y0 y1 y2
  refine ResKeeps.ite ?_ ?_
  · trivial
  · split
    · trivial
    · refine ResKeeps.ite ?_ ?_
      · refine ResKeeps.check ?_
        refine ResKeeps.done ?_
        unfold y3
        refine Keeps.step (updBelay_keeps _ _) ?_ (by rfl)
        refine Keeps.step (belayLogAdd_keeps _ _ _ _ _ _) ?_ (by rfl)
        exact Keeps.step (clearSet_keeps _ _ _ _) (Keeps.refl _) (by rfl)
      · refine ResKeeps.check ?_
        refine ResKeeps.ite ?_ ?_
        · refine ResKeeps.done ?_
          unfold y3
          refine Keeps.step (updBelay_keeps _ _) ?_ (by rfl)
          refine Keeps.step (belayLogAdd_keeps _ _ _ _ _ _) ?_ (by rfl)
          exact Keeps.step (updBelay_keeps _ _) (Keeps.refl _) (by rfl)
        · refine ResKeeps.ite ?_ ?_
          · refine ResKeeps.done ?_
            unfold y3
            refine Keeps.step (updBelay_keeps _ _) ?_ (by rfl)
            refine Keeps.step (belayLogAdd_keeps _ _ _ _ _ _) ?_ (by rfl)
            exact Keeps.step (updBelay_keeps _ _) (Keeps.refl _) (by rfl)
          · refine ResKeeps.done ?_
            refine Keeps.step (tallyTouch_keeps _ _) ?_ (by rfl)
            unfold y3
            refine Keeps.step (updBelay_keeps _ _) ?_ (by rfl)
            refine Keeps.step (belayLogAdd_keeps _ _ _ _ _ _) ?_ (by rfl)
            exact Keeps.step (putP_keeps _ _ _ _) (Keeps.refl _) (by rfl)

theorem siRelease_keeps (s : State) (n : Nat) :
    Keeps [.flt, .belay] [] s (siRelease s n) := by
  unfold siRelease
  extract_lets y0 y1 y2
  clear_value y0
  refine Keeps.cut (s := y1) ?_ fun h30 => ?_
  · unfold y1
    refine Keeps.ite ?_ ?_
    · refine Keeps.step (causeGone_keeps _ _ _) ?_ (by decide)
      exact Keeps.step (updSi_keeps _ _ _) (Keeps.refl _) (by decide)
    · exact Keeps.refl _
  clear_value y1
  refine Keeps.cut (s := y2) ?_ fun h31 => ?_
  · unfold y2
    refine Keeps.ite ?_ ?_
    · exact Keeps.step (causeGone_keeps _ _ _) (Keeps.step (updSi_keeps _ _ _) h30 (by decide)) (by decide)
    · exact h30
  clear_value y2
  refine Keeps.ite ?_ ?_
  · exact Keeps.step (causeGone_keeps _ _ _) (Keeps.step (updSi_keeps _ _ _) h31 (by decide)) (by decide)
  · exact h31

theorem releaseLatches_keeps (s : State) :
    Keeps [.flt, .belay] [] s (releaseLatches s) := by
  unfold releaseLatches
  extract_lets y0 y1 y2 y3 y4 y5 y6 y7 y8 y9 y10
  refine Keeps.cut (s := y0) ?_ fun h30 => ?_
  · unfold y0
    refine Keeps.ite ?_ ?_
    · exact Keeps.step (unlatch_keeps _ _) (Keeps.refl _) (by decide)
    · exact Keeps.refl _
  clear_value y0
  refine Keeps.cut (s := y1) ?_ fun h31 => ?_
  · unfold y1
    refine Keeps.foldl ?_ fun x32 a33 h34 => ?_
    · exact h30
    · exact Keeps.step (siRelease_keeps _ _) h34 (by decide)
  clear_value y1
  refine Keeps.cut (s := y2) ?_ fun h35 => ?_
  · unfold y2
    refine Keeps.ite ?_ ?_
    · exact h31
    · exact Keeps.step (unlatch_keeps _ _) h31 (by decide)
  clear_value y2
  refine Keeps.cut (s := y3) ?_ fun h36 => ?_
  · unfold y3
    refine Keeps.ite ?_ ?_
    · exact h35
    · exact Keeps.step (unlatch_keeps _ _) h35 (by decide)
  clear_value y3
  refine Keeps.cut (s := y4) ?_ fun h37 => ?_
  · unfold y4
    refine Keeps.ite ?_ ?_
    · exact h36
    · exact Keeps.step (unlatch_keeps _ _) h36 (by decide)
  clear_value y4
  refine Keeps.cut (s := y5) ?_ fun h38 => ?_
  · unfold y5
    exact Keeps.step (relBit_keeps _ _ _ _ _) (Keeps.step (updBelay_keeps _ _) h37 (by decide)) (by decide)
  clear_value y5
  refine Keeps.cut (s := y6) ?_ fun h39 => ?_
  · unfold y6
    exact Keeps.step (relBit_keeps _ _ _ _ _) h38 (by decide)
  clear_value y6
  refine Keeps.cut (s := y7) ?_ fun h40 => ?_
  · unfold y7
    exact Keeps.step (relBit_keeps _ _ _ _ _) h39 (by decide)
  clear_value y7
  refine Keeps.cut (s := y8) ?_ fun h41 => ?_
  · unfold y8
    exact Keeps.step (relBit_keeps _ _ _ _ _) h40 (by decide)
  clear_value y8
  refine Keeps.cut (s := y9) ?_ fun h42 => ?_
  · unfold y9
    exact Keeps.step (relBit_keeps _ _ _ _ _) h41 (by decide)
  clear_value y9
  refine Keeps.cut (s := y10) ?_ fun h43 => ?_
  · unfold y10
    exact Keeps.step (relBit_keeps _ _ _ _ _) h42 (by decide)
  clear_value y10
  refine Keeps.ite ?_ ?_
  · exact h43
  · exact Keeps.step (unlatch_keeps _ _) h43 (by decide)

theorem execBelayResetRelease_keeps (ok : Nat) (rc : Nat) (s : State) :
    OutKeeps [.host, .belay, .reel, .tbus, .freeCtr] [P.HOST_IRQ_CAUSE, P.REEL_LOST, P.REEL_QUEUE_HIGH,
        P.REEL_TRIG_TICK] s (execBelayResetRelease s ok rc) := by
  unfold execBelayResetRelease
  extract_lets y0
  refine OutKeeps.cut (s := y0) ?_ fun h30 => ?_
  · unfold y0
    refine Keeps.step (internalPass_keeps _ _) ?_ (by decide)
    exact Keeps.step (belayLatch_keeps _ _) (Keeps.refl _) (by decide)
  clear_value y0
  refine OutKeeps.ite ?_ ?_
  · exact OutKeeps.ends reelObserve_keeps (by decide) (Keeps.step (updBelay_keeps _ _) h30 (by decide))
  · exact OutKeeps.ends reelObserve_keeps (by decide) (Keeps.refl _)

theorem execSafetyLock_keeps (c : Cmd) (s : State) :
    OutKeeps [.host, .flt, .belay, .reel, .tbus, .freeCtr] [P.HOST_IRQ_CAUSE, P.REEL_LOST, P.REEL_QUEUE_HIGH,
        P.REEL_TRIG_TICK] s (execSafetyLock c s) := by
  unfold execSafetyLock
  refine OutKeeps.ends reelObserve_keeps (by decide) ?_
  refine Keeps.runCmd goodPacket_keeps answer_keeps (by decide) ?_ fun x0 => ?_
  · exact Keeps.refl _
  · exact ResKeeps.mono (safetyLockBody_keeps _ _) (Keeps.refl _) (by decide)

theorem execSafetyLogRead_keeps (c : Cmd) (s : State) :
    OutKeeps [.host, .flt, .reel, .tbus, .freeCtr] [P.HOST_IRQ_CAUSE, P.REEL_LOST, P.REEL_QUEUE_HIGH,
        P.REEL_TRIG_TICK] s (execSafetyLogRead c s) := by
  unfold execSafetyLogRead
  refine OutKeeps.ends reelObserve_keeps (by decide) ?_
  refine Keeps.runCmd goodPacket_keeps answer_keeps (by decide) ?_ fun x0 => ?_
  · exact Keeps.refl _
  · exact ResKeeps.mono (safetyLogReadBody_keeps _ _) (Keeps.refl _) (by decide)

theorem execSafetySessionTimeout_keeps (s : State) :
    OutKeeps [.tick, .host, .flt, .time, .str, .belay, .reel, .tbus, .chop, .freeCtr] [P.HOST_IRQ_CAUSE,
        P.REEL_LOST, P.REEL_QUEUE_HIGH, P.REEL_TRIG_TICK] s (execSafetySessionTimeout s) := by
  unfold execSafetySessionTimeout
  refine OutKeeps.ite ?_ ?_
  · refine OutKeeps.ends reelObserve_keeps (by decide) ?_
    refine Keeps.step (sessionEnd_keeps _) ?_ (by decide)
    exact Keeps.step (advanceTo_keeps _ _) (Keeps.refl _) (by decide)
  · exact OutKeeps.ends reelObserve_keeps (by decide) (Keeps.refl _)

theorem execSafetyUnlock_keeps (c : Cmd) (s : State) :
    OutKeeps [.host, .flt, .belay, .reel, .tbus, .freeCtr] [P.HOST_IRQ_CAUSE, P.REEL_LOST, P.REEL_QUEUE_HIGH,
        P.REEL_TRIG_TICK, P.SAFE_UNLOCK_FAIL] s (execSafetyUnlock c s) := by
  unfold execSafetyUnlock
  refine OutKeeps.ends reelObserve_keeps (by decide) ?_
  refine Keeps.runCmd goodPacket_keeps answer_keeps (by decide) ?_ fun x0 => ?_
  · exact Keeps.refl _
  · exact ResKeeps.mono (safetyUnlockBody_keeps _ _) (Keeps.refl _) (by decide)

theorem execSafetyWrite_keeps (c : Cmd) (s : State) :
    OutKeeps [.params, .host, .flt, .str, .belay, .reel, .tbus, .tally, .freeCtr] [] s (execSafetyWrite c s) := by
  unfold execSafetyWrite
  refine OutKeeps.ends reelObserve_keeps (by decide) ?_
  refine Keeps.runCmd goodPacket_keeps answer_keeps (by decide) ?_ fun x0 => ?_
  · exact Keeps.refl _
  · exact ResKeeps.mono (safetyWriteBody_keeps _ _) (Keeps.refl _) (by decide)

theorem execTestPulseEnd_keeps (output : Fin 4) (s : State) :
    OutKeeps [.tick, .host, .flt, .time, .str, .belay, .reel, .tbus, .chop, .freeCtr] [P.HOST_IRQ_CAUSE,
        P.REEL_LOST, P.REEL_QUEUE_HIGH, P.REEL_TRIG_TICK] s (execTestPulseEnd output s) := by
  unfold execTestPulseEnd
  extract_lets y0 y1 y2
  clear_value y0 y1
  refine OutKeeps.cut (s := y2) ?_ fun h30 => ?_
  · unfold y2
    exact Keeps.step (advanceTo_keeps _ _) (Keeps.refl _) (by decide)
  clear_value y2
  refine OutKeeps.ite ?_ ?_
  · exact OutKeeps.ends reelObserve_keeps (by decide) (Keeps.step (updBelay_keeps _ _) h30 (by decide))
  · exact OutKeeps.ends reelObserve_keeps (by decide) (Keeps.refl _)

theorem execTestPulseStart_keeps (output : Fin 4) (s : State) :
    OutKeeps [.tick, .host, .flt, .time, .str, .belay, .reel, .tbus, .chop, .freeCtr] [P.HOST_IRQ_CAUSE,
        P.REEL_LOST, P.REEL_QUEUE_HIGH, P.REEL_TRIG_TICK] s (execTestPulseStart output s) := by
  unfold execTestPulseStart
  extract_lets y0 y1 y2
  clear_value y0
  refine OutKeeps.cut (s := y1) ?_ fun h30 => ?_
  · unfold y1
    exact Keeps.step (advanceTo_keeps _ _) (Keeps.refl _) (by decide)
  clear_value y1
  refine OutKeeps.cut (s := y2) ?_ fun h31 => ?_
  · unfold y2
    exact Keeps.step (updBelay_keeps _ _) h30 (by decide)
  clear_value y2
  refine OutKeeps.ite ?_ ?_
  · refine OutKeeps.ends reelObserve_keeps (by decide) ?_
    refine Keeps.foldl ?_ fun x122 a123 h124 => ?_
    · exact h31
    · extract_lets y125
      clear_value y125
      exact Keeps.step (updSi_keeps _ _ _) h124 (by decide)
  · exact OutKeeps.ends reelObserve_keeps (by decide) (Keeps.refl _)

theorem execUnlockBackoffEnd_keeps (s : State) :
    OutKeeps [.tick, .host, .flt, .time, .str, .belay, .reel, .tbus, .chop, .freeCtr] [P.HOST_IRQ_CAUSE,
        P.REEL_LOST, P.REEL_QUEUE_HIGH, P.REEL_TRIG_TICK] s (execUnlockBackoffEnd s) := by
  unfold execUnlockBackoffEnd
  split
  · refine OutKeeps.ends reelObserve_keeps (by decide) ?_
    refine Keeps.step (updBelay_keeps _ _) ?_ (by decide)
    exact Keeps.step (advanceTo_keeps _ _) (Keeps.refl _) (by decide)
  · exact OutKeeps.ends reelObserve_keeps (by decide) (Keeps.refl _)

theorem execFdcStaleTimeout_keeps (current : Bool) (s : State) :
    OutKeeps [.tick, .host, .flt, .time, .arms, .cells, .lanes, .str, .belay, .reel, .tbus, .chop,
        .freeCtr] [P.FLT_LOST, P.HOST_IRQ_CAUSE, P.REEL_LOST, P.REEL_QUEUE_HIGH, P.REEL_TRIG_TICK,
        P.STR_TRACE_LOST] s (execFdcStaleTimeout current s) := by
  unfold execFdcStaleTimeout
  extract_lets y0 y1 y2 y3 y4
  clear_value y0 y1 y2 y3
  refine OutKeeps.cut (s := y4) ?_ fun h30 => ?_
  · unfold y4
    exact Keeps.step (advanceTo_keeps _ _) (Keeps.refl _) (by decide)
  clear_value y4
  refine OutKeeps.ite ?_ ?_
  · exact OutKeeps.ends reelObserve_keeps (by decide) (Keeps.step (raiseBelay_keeps _ _ _ _) h30 (by decide))
  · exact OutKeeps.ends reelObserve_keeps (by decide) (Keeps.refl _)

theorem execHeartbeatTimeout_keeps (s : State) :
    OutKeeps [.tick, .host, .flt, .time, .arms, .cells, .lanes, .str, .belay, .reel, .tbus, .chop,
        .freeCtr] [P.FLT_LOST, P.HOST_IRQ_CAUSE, P.REEL_LOST, P.REEL_QUEUE_HIGH, P.REEL_TRIG_TICK,
        P.STR_TRACE_LOST] s (execHeartbeatTimeout s) := by
  unfold execHeartbeatTimeout
  extract_lets y0
  refine OutKeeps.cut (s := y0) ?_ fun h30 => ?_
  · unfold y0
    exact Keeps.step (advanceTo_keeps _ _) (Keeps.refl _) (by decide)
  clear_value y0
  refine OutKeeps.ite ?_ ?_
  · exact OutKeeps.ends reelObserve_keeps (by decide) (Keeps.step (raiseBelay_keeps _ _ _ _) h30 (by decide))
  · exact OutKeeps.ends reelObserve_keeps (by decide) (Keeps.refl _)

theorem fdcResult_keeps (s : State) (tag : Nat) (raw : Nat) :
    Keeps [.host, .flt, .arms, .cells, .lanes, .str, .belay, .reel, .tbus, .freeCtr] [P.FLT_LOST, P.HOST_IRQ_CAUSE,
        P.REEL_LOST, P.REEL_QUEUE_HIGH, P.REEL_TRIG_TICK, P.SAFE_FDC_LAST,
        P.STR_TRACE_LOST] s (fdcResult s tag raw) := by
  unfold fdcResult
  extract_lets y0 y1 y2 y3 y4 y5 y6 y7 y8 y9 y10
  clear_value y0 y1 y2 y4 y7 y9
  refine Keeps.cut (s := y3) ?_ fun h30 => ?_
  · unfold y3
    exact Keeps.step (putN_keeps _ _ _ _) (Keeps.refl _) (by decide)
  clear_value y3
  refine Keeps.cut (s := y5) ?_ fun h31 => ?_
  · unfold y5
    exact Keeps.step (updBelay_keeps _ _) h30 (by decide)
  clear_value y5
  refine Keeps.cut (s := y6) ?_ fun h32 => ?_
  · unfold y6
    refine Keeps.ite ?_ ?_
    · refine Keeps.ite ?_ ?_
      · exact Keeps.step (raiseBelay_keeps _ _ _ _) h31 (by decide)
      · exact h31
    · exact Keeps.refl _
  clear_value y6
  refine Keeps.cut (s := y8) ?_ fun h33 => ?_
  · unfold y8
    exact Keeps.step (putN_keeps _ _ _ _) h32 (by decide)
  clear_value y8
  refine Keeps.cut (s := y10) ?_ fun h34 => ?_
  · unfold y10
    exact Keeps.step (updBelay_keeps _ _) h33 (by decide)
  clear_value y10
  refine Keeps.ite ?_ ?_
  · exact Keeps.refl _
  · refine Keeps.ite ?_ ?_
    · refine Keeps.ite ?_ ?_
      · exact Keeps.step (raiseBelay_keeps _ _ _ _) h34 (by decide)
      · exact h34
    · exact h32

theorem hbCheck_keeps (s : State) :
    Keeps [.host, .flt, .arms, .cells, .lanes, .str, .belay, .reel, .tbus, .freeCtr] [P.FLT_LOST, P.HOST_IRQ_CAUSE,
        P.REEL_LOST, P.REEL_QUEUE_HIGH, P.REEL_TRIG_TICK, P.STR_TRACE_LOST] s (hbCheck s) := by
  unfold hbCheck
  extract_lets y0 y1 y2
  clear_value y0 y1
  refine Keeps.cut (s := y2) ?_ fun h30 => ?_
  · unfold y2
    exact Keeps.step (updBelay_keeps _ _) (Keeps.refl _) (by decide)
  clear_value y2
  refine Keeps.ite ?_ ?_
  · exact Keeps.refl _
  · refine Keeps.ite ?_ ?_
    · exact Keeps.step (raiseBelay_keeps _ _ _ _) h30 (by decide)
    · exact h30

theorem icmFound_keeps (s : State) (a : Nat) :
    Keeps [.host, .flt, .arms, .cells, .lanes, .str, .belay, .reel, .tbus, .freeCtr] [P.FLT_LOST, P.HOST_IRQ_CAUSE,
        P.REEL_LOST, P.REEL_QUEUE_HIGH, P.REEL_TRIG_TICK, P.STR_TRACE_LOST] s (icmFound s a) := by
  unfold icmFound
  refine Keeps.step (raiseBelay_keeps _ _ _ _) ?_ (by decide)
  exact Keeps.step (updBelay_keeps _ _) (Keeps.refl _) (by decide)

theorem icmVerdict_keeps (s : State) (a : Nat) (bad : Bool) :
    Keeps [.host, .flt, .arms, .cells, .lanes, .str, .belay, .reel, .tbus, .freeCtr] [P.FLT_LOST, P.HOST_IRQ_CAUSE,
        P.REEL_LOST, P.REEL_QUEUE_HIGH, P.REEL_TRIG_TICK, P.STR_TRACE_LOST] s (icmVerdict s a bad) := by
  unfold icmVerdict
  extract_lets y0 y1
  clear_value y0
  refine Keeps.cut (s := y1) ?_ fun h30 => ?_
  · unfold y1
    exact Keeps.step (updBelay_keeps _ _) (Keeps.refl _) (by decide)
  clear_value y1
  refine Keeps.ite ?_ ?_
  · exact Keeps.step (icmFound_keeps _ _) h30 (by decide)
  · exact h30

theorem internalFail_keeps (s : State) (i : Nat) :
    Keeps [.host, .flt, .arms, .cells, .lanes, .str, .belay, .reel, .tbus, .freeCtr] [P.FLT_LOST, P.HOST_IRQ_CAUSE,
        P.REEL_LOST, P.REEL_QUEUE_HIGH, P.REEL_TRIG_TICK, P.STR_TRACE_LOST] s (internalFail s i) := by
  unfold internalFail
  refine Keeps.step (raiseBelay_keeps _ _ _ _) ?_ (by decide)
  exact Keeps.step (updBelay_keeps _ _) (Keeps.refl _) (by decide)

theorem resetEdge_keeps (s : State) (readback : Bool) :
    Keeps [.host, .flt, .arms, .cells, .lanes, .str, .belay, .reel, .tbus, .freeCtr] [P.FLT_LOST, P.HOST_IRQ_CAUSE,
        P.REEL_LOST, P.REEL_QUEUE_HIGH, P.REEL_TRIG_TICK, P.SAFE_RESET_COUNT, P.SAFE_RESET_REFUSED,
        P.STR_TRACE_LOST] s (resetEdge s readback) := by
  unfold resetEdge
  extract_lets y0 y1
  refine Keeps.cut (s := y0) ?_ fun h30 => ?_
  · unfold y0
    exact Keeps.step (incP_keeps _ _ _) (Keeps.refl _) (by decide)
  clear_value y0
  refine Keeps.cut (s := y1) ?_ fun h31 => ?_
  · unfold y1
    exact Keeps.step (releaseLatches_keeps _) (Keeps.step (internalPass_keeps _ _) h30 (by decide)) (by decide)
  clear_value y1
  refine Keeps.ite ?_ ?_
  · exact Keeps.step (incP_keeps _ _ _) (Keeps.step (internalFail_keeps _ _) h30 (by decide)) (by decide)
  · refine Keeps.ite ?_ ?_
    · exact Keeps.step (injectLanes_keeps _) (Keeps.step (updBelay_keeps _ _) h31 (by decide)) (by decide)
    · exact Keeps.step (incP_keeps _ _ _) h31 (by decide)

theorem siDemand_keeps (s : State) (n : Nat) :
    Keeps [.host, .flt, .arms, .cells, .lanes, .str, .belay, .reel, .tbus, .freeCtr] [P.FLT_LOST, P.HOST_IRQ_CAUSE,
        P.REEL_LOST, P.REEL_QUEUE_HIGH, P.REEL_TRIG_TICK, P.STR_TRACE_LOST] s (siDemand s n) := by
  unfold siDemand
  extract_lets y0 y1
  refine Keeps.cut (s := y0) ?_ fun h30 => ?_
  · unfold y0
    exact Keeps.step (updSi_keeps _ _ _) (Keeps.refl _) (by decide)
  clear_value y0
  refine Keeps.cut (s := y1) ?_ fun h31 => ?_
  · unfold y1
    refine Keeps.ite ?_ ?_
    · exact h30
    · exact Keeps.step (updSi_keeps _ _ _) h30 (by decide)
  clear_value y1
  exact Keeps.step (raiseBelay_keeps _ _ _ _) h31 (by decide)

theorem siDisagree_keeps (s : State) (n : Nat) :
    Keeps [.host, .flt, .arms, .cells, .lanes, .str, .belay, .reel, .tbus, .freeCtr] [P.FLT_LOST, P.HOST_IRQ_CAUSE,
        P.REEL_LOST, P.REEL_QUEUE_HIGH, P.REEL_TRIG_TICK, P.STR_TRACE_LOST] s (siDisagree s n) := by
  unfold siDisagree
  extract_lets y0
  refine Keeps.cut (s := y0) ?_ fun h30 => ?_
  · unfold y0
    exact Keeps.step (updSi_keeps _ _ _) (Keeps.refl _) (by decide)
  clear_value y0
  refine Keeps.ite ?_ ?_
  · exact Keeps.step (raiseBelay_keeps _ _ _ _) (Keeps.step (updSi_keeps _ _ _) h30 (by decide)) (by decide)
  · exact h30

theorem srstHeld_keeps (s : State) :
    Keeps [.host, .flt, .arms, .cells, .lanes, .str, .belay, .reel, .tbus, .freeCtr] [P.FLT_LOST, P.HOST_IRQ_CAUSE,
        P.REEL_LOST, P.REEL_QUEUE_HIGH, P.REEL_TRIG_TICK, P.STR_TRACE_LOST] s (srstHeld s) := by
  unfold srstHeld
  refine Keeps.step (raiseFault_keeps _ _ _) ?_ (by decide)
  exact Keeps.step (updBelay_keeps _ _) (Keeps.refl _) (by decide)

theorem srstSample_keeps (s : State) (high : Bool) (readback : Bool) :
    Keeps [.host, .flt, .arms, .cells, .lanes, .str, .belay, .reel, .tbus, .freeCtr] [P.FLT_LOST, P.HOST_IRQ_CAUSE,
        P.REEL_LOST, P.REEL_QUEUE_HIGH, P.REEL_TRIG_TICK, P.SAFE_RESET_COUNT, P.SAFE_RESET_REFUSED,
        P.SAFE_RESET_SHORT, P.STR_TRACE_LOST] s (srstSample s high readback) := by
  unfold srstSample
  extract_lets y0 y1 y2 y3 y4 y5
  clear_value y0 y1 y4
  refine Keeps.cut (s := y2) ?_ fun h30 => ?_
  · unfold y2
    exact Keeps.step (updBelay_keeps _ _) (Keeps.refl _) (by decide)
  clear_value y2
  refine Keeps.cut (s := y3) ?_ fun h31 => ?_
  · unfold y3
    refine Keeps.ite ?_ ?_
    · exact Keeps.step (srstHeld_keeps _) h30 (by decide)
    · exact h30
  clear_value y3
  refine Keeps.cut (s := y5) ?_ fun h32 => ?_
  · unfold y5
    exact Keeps.step (updBelay_keeps _ _) h31 (by decide)
  clear_value y5
  refine Keeps.ite ?_ ?_
  · exact h31
  · refine Keeps.ite ?_ ?_
    · exact Keeps.step (updBelay_keeps _ _) h31 (by decide)
    · refine Keeps.ite ?_ ?_
      · refine Keeps.ite ?_ ?_
        · exact Keeps.step (causeGone_keeps _ _ _) h32 (by decide)
        · refine Keeps.ite ?_ ?_
          · exact Keeps.step (incP_keeps _ _ _) h32 (by decide)
          · exact Keeps.step (resetEdge_keeps _ _) h32 (by decide)
      · exact h31

theorem tpCheck_keeps (s : State) (n : Nat) (b : Bool) :
    Keeps [.host, .flt, .arms, .cells, .lanes, .str, .belay, .reel, .tbus, .freeCtr] [P.FLT_LOST, P.HOST_IRQ_CAUSE,
        P.REEL_LOST, P.REEL_QUEUE_HIGH, P.REEL_TRIG_TICK, P.STR_TRACE_LOST] s (tpCheck s n b) := by
  unfold tpCheck
  extract_lets y0 y1 y2 y3 y4 y5 y6
  clear_value y0 y1 y2 y3 y4 y5
  refine Keeps.cut (s := y6) ?_ fun h30 => ?_
  · unfold y6
    exact Keeps.step (updSi_keeps _ _ _) (Keeps.refl _) (by decide)
  clear_value y6
  refine Keeps.ite ?_ ?_
  · refine Keeps.ite ?_ ?_
    · exact Keeps.step (raiseBelay_keeps _ _ _ _) (Keeps.step (updSi_keeps _ _ _) h30 (by decide)) (by decide)
    · exact h30
  · exact Keeps.refl _

theorem tripBack_keeps (s : State) (a : Bool) (b : Bool) :
    Keeps [.host, .flt, .arms, .cells, .lanes, .str, .belay, .reel, .tbus, .freeCtr] [P.FLT_LOST, P.HOST_IRQ_CAUSE,
        P.REEL_LOST, P.REEL_QUEUE_HIGH, P.REEL_TRIG_TICK, P.STR_TRACE_LOST] s (tripBack s a b) := by
  unfold tripBack
  extract_lets y0
  refine Keeps.cut (s := y0) ?_ fun h30 => ?_
  · unfold y0
    exact Keeps.step (updBelay_keeps _ _) (Keeps.refl _) (by decide)
  clear_value y0
  refine Keeps.ite ?_ ?_
  · exact Keeps.step (internalPass_keeps _ _) h30 (by decide)
  · refine Keeps.ite ?_ ?_
    · exact h30
    · exact Keeps.step (internalFail_keeps _ _) h30 (by decide)

theorem execBelayClockCheck_keeps (count : Nat) (s : State) :
    OutKeeps [.host, .flt, .arms, .cells, .lanes, .str, .belay, .reel, .tbus, .freeCtr] [P.FLT_LOST,
        P.HOST_IRQ_CAUSE, P.REEL_LOST, P.REEL_QUEUE_HIGH, P.REEL_TRIG_TICK,
        P.STR_TRACE_LOST] s (execBelayClockCheck count s) := by
  unfold execBelayClockCheck
  extract_lets y0 y1
  clear_value y0
  refine OutKeeps.cut (s := y1) ?_ fun h30 => ?_
  · unfold y1
    exact Keeps.step (updBelay_keeps _ _) (Keeps.refl _) (by decide)
  clear_value y1
  refine OutKeeps.ite ?_ ?_
  · refine OutKeeps.ends reelObserve_keeps (by decide) ?_
    refine Keeps.ite ?_ ?_
    · exact Keeps.step (internalPass_keeps _ _) h30 (by decide)
    · exact Keeps.step (internalFail_keeps _ _) h30 (by decide)
  · exact OutKeeps.ends reelObserve_keeps (by decide) (Keeps.refl _)

theorem execBelayReset_keeps (low : Bool) (rc : Nat) (s : State) :
    OutKeeps [.host, .flt, .arms, .cells, .lanes, .str, .belay, .reel, .tbus, .freeCtr] [P.FLT_LOST,
        P.HOST_IRQ_CAUSE, P.REEL_LOST, P.REEL_QUEUE_HIGH, P.REEL_TRIG_TICK,
        P.STR_TRACE_LOST] s (execBelayReset s low rc) := by
  unfold execBelayReset
  extract_lets y0
  refine OutKeeps.cut (s := y0) ?_ fun h30 => ?_
  · unfold y0
    exact Keeps.step (internalFail_keeps _ _) (Keeps.refl _) (by decide)
  clear_value y0
  refine OutKeeps.ite ?_ ?_
  · exact OutKeeps.ends reelObserve_keeps (by decide) (Keeps.step (updBelay_keeps _ _) h30 (by decide))
  · refine OutKeeps.ite ?_ ?_
    · refine OutKeeps.ends reelObserve_keeps (by decide) ?_
      exact Keeps.step (updBelay_keeps _ _) (Keeps.refl _) (by decide)
    · exact OutKeeps.ends reelObserve_keeps (by decide) (Keeps.refl _)

theorem execBelaySramError_keeps (s : State) :
    OutKeeps [.host, .flt, .arms, .cells, .lanes, .str, .belay, .reel, .tbus, .freeCtr] [P.FLT_LOST,
        P.HOST_IRQ_CAUSE, P.REEL_LOST, P.REEL_QUEUE_HIGH, P.REEL_TRIG_TICK,
        P.STR_TRACE_LOST] s (execBelaySramError s) := by
  unfold execBelaySramError
  refine OutKeeps.ite ?_ ?_
  · refine OutKeeps.ends reelObserve_keeps (by decide) ?_
    exact Keeps.step (internalFail_keeps _ _) (Keeps.refl _) (by decide)
  · exact OutKeeps.ends reelObserve_keeps (by decide) (Keeps.refl _)

theorem execSrstStuck_keeps (s : State) :
    OutKeeps [.tick, .host, .flt, .time, .arms, .cells, .lanes, .str, .belay, .reel, .tbus, .chop,
        .freeCtr] [P.FLT_LOST, P.HOST_IRQ_CAUSE, P.REEL_LOST, P.REEL_QUEUE_HIGH, P.REEL_TRIG_TICK,
        P.STR_TRACE_LOST] s (execSrstStuck s) := by
  unfold execSrstStuck
  split
  · extract_lets y30
    refine OutKeeps.cut (s := y30) ?_ fun h60 => ?_
    · unfold y30
      exact Keeps.step (advanceTo_keeps _ _) (Keeps.refl _) (by decide)
    clear_value y30
    refine OutKeeps.ite ?_ ?_
    · exact OutKeeps.ends reelObserve_keeps (by decide) (Keeps.step (srstHeld_keeps _) h60 (by decide))
    · exact OutKeeps.ends reelObserve_keeps (by decide) (Keeps.refl _)
  · exact OutKeeps.ends reelObserve_keeps (by decide) (Keeps.refl _)

theorem siSample_keeps (s : State) (n : Nat) (a : Bool) (b : Bool) :
    Keeps [.host, .flt, .arms, .cells, .lanes, .str, .belay, .reel, .tbus, .freeCtr] [P.FLT_LOST, P.HOST_IRQ_CAUSE,
        P.REEL_LOST, P.REEL_QUEUE_HIGH, P.REEL_TRIG_TICK, P.SAFE_DISC_EVENTS,
        P.STR_TRACE_LOST] s (siSample s n a b) := by
  unfold siSample
  extract_lets y0 y1 y2 y3 y4 y5
  clear_value y0 y2 y3
  refine Keeps.cut (s := y1) ?_ fun h30 => ?_
  · unfold y1
    exact Keeps.step (updSi_keeps _ _ _) (Keeps.refl _) (by decide)
  clear_value y1
  refine Keeps.cut (s := y4) ?_ fun h31 => ?_
  · unfold y4
    exact Keeps.step (tpCheck_keeps _ _ _) (Keeps.step (tpCheck_keeps _ _ _) h30 (by decide)) (by decide)
  clear_value y4
  refine Keeps.cut (s := y5) ?_ fun h32 => ?_
  · unfold y5
    exact Keeps.step (updSi_keeps _ _ _) h31 (by decide)
  clear_value y5
  refine Keeps.ite ?_ ?_
  · exact h30
  · refine Keeps.ite ?_ ?_
    · exact h31
    · refine Keeps.ite ?_ ?_
      · exact Keeps.step (siDemand_keeps _ _) (Keeps.step (siRunEnd_keeps _ _) h32 (by decide)) (by decide)
      · refine Keeps.ite ?_ ?_
        · exact Keeps.step (siDisagree_keeps _ _) h32 (by decide)
        · exact Keeps.step (siRunEnd_keeps _ _) h32 (by decide)

theorem execBelaySample_keeps (a : BitVec 8) (b : BitVec 8) (srstHigh : Bool) (tripA : Bool) (tripB : Bool)
      (injection : Bool) (s : State) :
    OutKeeps [.tick, .host, .flt, .time, .arms, .cells, .lanes, .str, .belay, .reel, .tbus, .chop,
        .freeCtr] [P.FLT_LOST, P.HOST_IRQ_CAUSE, P.REEL_LOST, P.REEL_QUEUE_HIGH, P.REEL_TRIG_TICK,
        P.SAFE_DISC_EVENTS, P.SAFE_RESET_COUNT, P.SAFE_RESET_REFUSED, P.SAFE_RESET_SHORT,
        P.STR_TRACE_LOST] s (execBelaySample a b srstHigh tripA tripB injection s) := by
  unfold execBelaySample
  extract_lets y0 y1 y2
  refine OutKeeps.cut (s := y0) ?_ fun h30 => ?_
  · unfold y0
    refine Keeps.step (internalPass_keeps _ _) ?_ (by decide)
    refine Keeps.step (tripBack_keeps _ _ _) ?_ (by decide)
    exact Keeps.step (gridNext_keeps _) (Keeps.refl _) (by decide)
  clear_value y0
  refine OutKeeps.cut (s := y1) ?_ fun h31 => ?_
  · unfold y1
    exact Keeps.step (updBelay_keeps _ _) h30 (by decide)
  clear_value y1
  refine OutKeeps.cut (s := y2) ?_ fun h32 => ?_
  · unfold y2
    refine Keeps.foldl ?_ fun x33 a34 h35 => ?_
    · exact h31
    · exact Keeps.step (siSample_keeps _ _ _ _) h35 (by decide)
  clear_value y2
  refine OutKeeps.ite ?_ ?_
  · exact OutKeeps.ends reelObserve_keeps (by decide) (Keeps.step (srstSample_keeps _ _ _) h32 (by decide))
  · exact OutKeeps.ends reelObserve_keeps (by decide) (Keeps.refl _)

end Sys2Proof.Machine
end

