-- ==== Sys2Proof/Laws/CapstanFrame.lean ====
section
/-! SUPPORT. What each operation of `Machine/Capstan.lean` may change, and that it changes nothing else. -/

namespace Sys2Proof.Machine

theorem keepFrames_keeps (s : State) :
    Keeps [.lanes] [] s (keepFrames s) := by
  unfold keepFrames
  refine Keeps.step (B := [.lanes]) (bi := []) (s := s)
      (.upd rfl fun g hg => by cases g <;> first | exact absurd hg (by decide) | rfl) ?_ (by decide)
  exact Keeps.refl _

theorem putWord_keeps (s : State) (p : Nat) (c : Nat) (w : Word) :
    Keeps [.capWords] [] s (putWord s p c w) := by
  unfold putWord
  refine Keeps.step (B := [.capWords]) (bi := []) (s := s)
      (.upd rfl fun g hg => by cases g <;> first | exact absurd hg (by decide) | rfl) ?_ (by decide)
  exact Keeps.refl _

theorem sendFrame_keeps (lat : Nat) (per : Nat) (s : State) (l : Nat) (f : Nat) :
    Keeps [.lanes] [] s (sendFrame lat per s l f) := by
  unfold sendFrame
  extract_lets y0 y1 y2 y3 y4 y5 y6 y7 y8 y9 y10
  clear_value y0 y1 y2 y3 y4 y5 y6 y7 y8 y9 y10
  exact Keeps.step (updLane_keeps _ _ _) (Keeps.refl _) (by decide)

theorem sendFrames_keeps (lat : Nat) (per : Nat) (s : State) :
    Keeps [.cells, .lanes] [] s (sendFrames lat per s) := by
  unfold sendFrames
  extract_lets y0 y1 y2
  clear_value y0
  refine Keeps.cut (s := y1) ?_ fun h30 => ?_
  · unfold y1
    exact Keeps.step (keepFrames_keeps _) (Keeps.refl _) (by decide)
  clear_value y1
  refine Keeps.cut (s := y2) ?_ fun h31 => ?_
  · unfold y2
    refine Keeps.ite ?_ ?_
    · refine Keeps.foldl ?_ fun x32 a33 h34 => ?_
      · exact h30
      · exact Keeps.step (sendFrame_keeps _ _ _ _ _) h34 (by decide)
    · exact h30
  clear_value y2
  refine Keeps.ite ?_ ?_
  · exact h31
  · refine Keeps.foldl ?_ fun x35 a36 h37 => ?_
    · exact h31
    · refine Keeps.ite ?_ ?_
      · exact h37
      · refine Keeps.ite ?_ ?_
        · exact Keeps.step (updCell_keeps _ _ _) h37 (by decide)
        · exact h37

theorem capBlocked_keeps (s : State) (p : Nat) (a : Nat) :
    Keeps [.flt, .capWords, .arms, .cells] [P.CAP_LEVEL, P.CAP_TARGET] s (capBlocked s p a) := by
  unfold capBlocked
  extract_lets y0 y1 y2 y3
  clear_value y0
  refine Keeps.cut (s := y1) ?_ fun h30 => ?_
  · unfold y1
    refine Keeps.foldl ?_ fun x61 a62 h63 => ?_
    · exact Keeps.refl _
    · extract_lets y64 y65
      clear_value y65
      refine Keeps.cut (s := y64) ?_ fun h94 => ?_
      · unfold y64
        exact Keeps.step (putWord_keeps _ _ _ _) h63 (by decide)
      clear_value y64
      refine Keeps.ite ?_ ?_
      · exact h94
      · exact Keeps.step (updCell_keeps _ _ _) h94 (by decide)
  clear_value y1
  refine Keeps.cut (s := y2) ?_ fun h95 => ?_
  · unfold y2
    exact Keeps.step (causeGone_keeps _ _ _) (Keeps.step (causeGone_keeps _ _ _) h30 (by decide)) (by decide)
  clear_value y2
  refine Keeps.cut (s := y3) ?_ fun h96 => ?_
  · unfold y3
    exact Keeps.step (updArm_keeps _ _ _) h95 (by decide)
  clear_value y3
  exact Keeps.step (putI_keeps _ _ _ _) (Keeps.step (putI_keeps _ _ _ _) h96 (by decide)) (by decide)

theorem capNotes_keeps (s : State) (a : Nat) (o : CapOut) :
    Keeps [.host, .flt, .arms, .cells, .lanes, .str, .belay, .reel, .tbus, .freeCtr] [P.CAP_CLAMP, P.FLT_LOST,
        P.HOST_IRQ_CAUSE, P.REEL_LOST, P.REEL_QUEUE_HIGH, P.REEL_TRIG_TICK, P.STR_TRACE_LOST] s (capNotes s a o) := by
  unfold capNotes
  extract_lets y0 y1
  refine Keeps.cut (s := y0) ?_ fun h30 => ?_
  · unfold y0
    exact Keeps.step (incP_keeps _ _ _) (Keeps.refl _) (by decide)
  clear_value y0
  refine Keeps.cut (s := y1) ?_ fun h31 => ?_
  · unfold y1
    refine Keeps.ite ?_ ?_
    · refine Keeps.ite ?_ ?_
      · exact h30
      · exact Keeps.step (raiseFault_keeps _ _ _) (Keeps.step (updArm_keeps _ _ _) h30 (by decide)) (by decide)
    · exact Keeps.step (causeGone_keeps _ _ _) (Keeps.refl _) (by decide)
  clear_value y1
  refine Keeps.ite ?_ ?_
  · refine Keeps.ite ?_ ?_
    · exact h31
    · exact Keeps.step (raiseFault_keeps _ _ _) (Keeps.step (updArm_keeps _ _ _) h31 (by decide)) (by decide)
  · exact Keeps.step (causeGone_keeps _ _ _) h31 (by decide)

theorem icmMark_keeps (s : State) :
    Keeps [.host, .flt, .arms, .cells, .lanes, .str, .belay, .reel, .tbus, .freeCtr] [P.FLT_LOST, P.HOST_IRQ_CAUSE,
        P.REEL_LOST, P.REEL_QUEUE_HIGH, P.REEL_TRIG_TICK, P.STR_TRACE_LOST] s (icmMark s) := by
  unfold icmMark
  extract_lets y0 y1 y2 y3 y4 y5 y6
  clear_value y0 y2 y3 y5
  refine Keeps.cut (s := y4) ?_ fun h30 => ?_
  · unfold y4
    refine Keeps.ite ?_ ?_
    · exact Keeps.refl _
    · exact Keeps.step (updBelay_keeps _ _) (Keeps.refl _) (by decide)
  clear_value y4
  refine Keeps.cut (s := y6) ?_ fun h31 => ?_
  · unfold y6
    refine Keeps.ite ?_ ?_
    · exact h30
    · exact Keeps.step (updBelay_keeps _ _) h30 (by decide)
  clear_value y6
  refine Keeps.ite ?_ ?_
  · exact h31
  · refine Keeps.foldl ?_ fun x92 a93 h94 => ?_
    · exact h31
    · extract_lets y95 y96 y97
      clear_value y95 y96 y97
      exact Keeps.step (icmVerdict_keeps _ _ _) h94 (by decide)

theorem capDeblocked_keeps (s : State) (p : Nat) (a : Nat) (epochStart : Bool) :
    Keeps [.host, .flt, .capWords, .arms, .cells, .lanes, .str, .belay, .reel, .tbus, .freeCtr] [P.CAP_CLAMP,
        P.CAP_DEFER, P.CAP_DEFER_MAX, P.CAP_LEVEL, P.CAP_SHORT, P.CAP_SWAP_LAST, P.CAP_SWAP_NOSLOT, P.CAP_TARGET,
        P.FLT_LOST, P.HOST_IRQ_CAUSE, P.REEL_LOST, P.REEL_QUEUE_HIGH, P.REEL_TRIG_TICK,
        P.STR_TRACE_LOST] s (capDeblocked s p a epochStart) := by
  unfold capDeblocked
  extract_lets y0 y1 y2 y3 y4 y5 y6 y7 y8 y9 y10
  clear_value y0 y1 y2 y3 y4 y5
  refine Keeps.cut (s := y6) ?_ fun h30 => ?_
  · unfold y6
    refine Keeps.foldl ?_ fun x61 a62 h63 => ?_
    · exact Keeps.refl _
    · extract_lets y64 y65
      clear_value y64
      refine Keeps.cut (s := y65) ?_ fun h94 => ?_
      · unfold y65
        exact Keeps.step (putWord_keeps _ _ _ _) h63 (by decide)
      clear_value y65
      exact Keeps.step (updCell_keeps _ _ _) h94 (by decide)
  clear_value y6
  refine Keeps.cut (s := y7) ?_ fun h95 => ?_
  · unfold y7
    exact Keeps.step (updArm_keeps _ _ _) h30 (by decide)
  clear_value y7
  refine Keeps.cut (s := y8) ?_ fun h96 => ?_
  · unfold y8
    exact Keeps.step (putI_keeps _ _ _ _) (Keeps.step (putI_keeps _ _ _ _) h95 (by decide)) (by decide)
  clear_value y8
  refine Keeps.cut (s := y9) ?_ fun h97 => ?_
  · unfold y9
    refine Keeps.ite ?_ ?_
    · exact Keeps.step (addP_keeps _ _ _ _) (Keeps.step (putN_keeps _ _ _ _) h96 (by decide)) (by decide)
    · exact h96
  clear_value y9
  refine Keeps.cut (s := y10) ?_ fun h98 => ?_
  · unfold y10
    exact Keeps.step (maxP_keeps _ _ _ _) (Keeps.step (addP_keeps _ _ _ _) h97 (by decide)) (by decide)
  clear_value y10
  exact Keeps.step (capNotes_keeps _ _ _) (Keeps.step (addP_keeps _ _ _ _) h98 (by decide)) (by decide)

theorem capCompute_keeps (s : State) (p : Nat) :
    Keeps [.host, .flt, .capWords, .arms, .cells, .lanes, .str, .belay, .reel, .tbus, .freeCtr] [P.BUD_SPENT,
        P.CAP_CLAMP, P.CAP_DEFER, P.CAP_DEFER_MAX, P.CAP_END_TICK, P.CAP_LEVEL, P.CAP_SHORT, P.CAP_SWAP_LAST,
        P.CAP_SWAP_NOSLOT, P.CAP_TARGET, P.FLT_LOST, P.HOST_IRQ_CAUSE, P.REEL_LOST, P.REEL_QUEUE_HIGH,
        P.REEL_TRIG_TICK, P.STR_TRACE_LOST] s (capCompute s p) := by
  unfold capCompute
  extract_lets y0 y1 y2 y3 y4
  clear_value y0
  refine Keeps.cut (s := y1) ?_ fun h30 => ?_
  · unfold y1
    refine Keeps.step (B := [.capWords]) (bi := []) (s := s)
        (.upd rfl fun g hg => by cases g <;> first | exact absurd hg (by decide) | rfl) ?_ (by decide)
    exact Keeps.refl _
  clear_value y1
  refine Keeps.cut (s := y2) ?_ fun h31 => ?_
  · unfold y2
    refine Keeps.foldl ?_ fun x62 a63 h64 => ?_
    · exact h30
    · extract_lets y65 y66
      refine Keeps.cut (s := y65) ?_ fun h95 => ?_
      · unfold y65
        refine Keeps.ite ?_ ?_
        · exact Keeps.step (updArm_keeps _ _ _) (Keeps.step (putN_keeps _ _ _ _) h64 (by decide)) (by decide)
        · exact h64
      clear_value y65
      refine Keeps.cut (s := y66) ?_ fun h96 => ?_
      · unfold y66
        exact Keeps.step (updArm_keeps _ _ _) h95 (by decide)
      clear_value y66
      refine Keeps.ite ?_ ?_
      · exact Keeps.step (capDeblocked_keeps _ _ _ _) h96 (by decide)
      · exact Keeps.step (capBlocked_keeps _ _ _) h96 (by decide)
  clear_value y2
  refine Keeps.cut (s := y3) ?_ fun h97 => ?_
  · unfold y3
    refine Keeps.ite ?_ ?_
    · exact Keeps.step (putN_keeps _ _ _ _) h31 (by decide)
    · exact h31
  clear_value y3
  refine Keeps.cut (s := y4) ?_ fun h98 => ?_
  · unfold y4
    exact Keeps.step (putN_keeps _ _ _ _) h97 (by decide)
  clear_value y4
  exact Keeps.step (hbArrive_keeps _ _) h98 (by decide)

end Sys2Proof.Machine
end

