-- ==== Sys2Proof/Laws/DupOpsFrame.lean ====
section
/-! SUPPORT. What each operation of `Machine/DupOps.lean` may change, and that it changes nothing else. -/

namespace Sys2Proof.Machine

theorem applySlots_keeps (s : State) (f : Option PeerData) :
    Keeps [.loops] [] s (applySlots s f) := by
  unfold applySlots
  split
  · extract_lets y30
    refine Keeps.cut (s := y30) ?_ fun h60 => ?_
    · unfold y30
      refine Keeps.foldl ?_ fun x61 a62 h63 => ?_
      · exact Keeps.refl _
      · refine Keeps.ite ?_ ?_
        · exact Keeps.step (updSlot_keeps _ _ _) h63 (by decide)
        · exact h63
    clear_value y30
    refine Keeps.foldl ?_ fun x64 a65 h66 => ?_
    · exact h60
    · refine Keeps.ite ?_ ?_
      · exact Keeps.step (updSlot_keeps _ _ _) h66 (by decide)
      · exact h66
  · exact Keeps.refl _

theorem mirrorAct_keeps (s : State) (i : Nat) (w : Word) :
    Keeps [.cleat] [] s (mirrorAct s i w) := by
  unfold mirrorAct
  extract_lets y0 y1 y2 y3
  clear_value y0 y1 y2 y3
  refine Keeps.ite ?_ ?_
  · exact Keeps.step (updAct_keeps _ _ _) (Keeps.refl _) (by decide)
  · exact Keeps.step (updAct_keeps _ _ _) (Keeps.refl _) (by decide)

theorem mirrorCleat_keeps (s : State) (e : Nat) (w : Word) :
    Keeps [.cleat] [] s (mirrorCleat s e w) := by
  unfold mirrorCleat
  extract_lets y0 y1 y2 y3 y4 y5 y6
  clear_value y0 y1 y2 y3 y4 y5 y6
  refine Keeps.ite ?_ ?_
  · exact Keeps.refl _
  · refine Keeps.ite ?_ ?_
    · exact Keeps.step (updCleat_keeps _ _ _) (Keeps.refl _) (by decide)
    · exact Keeps.step (updCleat_keeps _ _ _) (Keeps.refl _) (by decide)

theorem mirrorExcl_keeps (s : State) (m : Nat) (l : List (BitVec 4)) :
    Keeps [] [P.CLT_EXCLUDE] s (mirrorExcl s m l) := by
  unfold mirrorExcl
  refine Keeps.foldl ?_ fun x30 a31 h32 => ?_
  · exact Keeps.refl _
  · extract_lets y33 y34
    clear_value y33 y34
    exact Keeps.step (putN_keeps _ _ _ _) h32 (by decide)

theorem mirrorGen_keeps (s : State) (n : Nat) (t : PeerTraj) :
    Keeps [.loops] [] s (mirrorGen s n t) := by
  unfold mirrorGen
  extract_lets y0 y1 y2 y3
  clear_value y0 y1 y2 y3
  exact Keeps.step (updGen_keeps _ _ _) (Keeps.refl _) (by decide)

theorem slewMark_keeps (s : State) (f : PeerData) :
    Keeps [.per, .freeCtr] [P.DUP_MARK_SKEW] s (slewMark s f) := by
  unfold slewMark
  extract_lets y0 y1 y2 y3 y4 y5 y6 y7 y8
  clear_value y0 y1 y2 y3 y5 y6 y7 y8
  refine Keeps.cut (s := y4) ?_ fun h30 => ?_
  · unfold y4
    refine Keeps.ite ?_ ?_
    · exact Keeps.refl _
    · refine Keeps.step (B := [.freeCtr]) (bi := []) (s := s)
        (.upd rfl fun g hg => by cases g <;> first | exact absurd hg (by decide) | rfl) ?_ (by decide)
      exact Keeps.refl _
  clear_value y4
  refine Keeps.step (putI_keeps _ _ _ _) ?_ (by decide)
  refine Keeps.step (B := [.per]) (bi := []) (s := y4)
      (.upd rfl fun g hg => by cases g <;> first | exact absurd hg (by decide) | rfl) ?_ (by decide)
  exact h30

theorem takeCount_keeps (s : State) (n : Nat) :
    Keeps [.per, .capWords, .arms, .cells, .lanes, .cleat] [] s (takeCount s n) := by
  unfold takeCount
  extract_lets y0 y1 y2 y3 y4
  clear_value y0
  refine Keeps.cut (s := y1) ?_ fun h30 => ?_
  · unfold y1
    refine Keeps.step (B := [.per]) (bi := []) (s := s)
        (.upd rfl fun g hg => by cases g <;> first | exact absurd hg (by decide) | rfl) ?_ (by decide)
    exact Keeps.refl _
  clear_value y1
  refine Keeps.cut (s := y2) ?_ fun h31 => ?_
  · unfold y2
    refine Keeps.foldl ?_ fun x32 a33 h34 => ?_
    · exact h30
    · exact Keeps.step (updArm_keeps _ _ _) h34 (by decide)
  clear_value y2
  refine Keeps.cut (s := y3) ?_ fun h35 => ?_
  · unfold y3
    refine Keeps.step (B := [.capWords, .cells]) (bi := []) (s := y2)
        (.upd rfl fun g hg => by cases g <;> first | exact absurd hg (by decide) | rfl) ?_ (by decide)
    exact h31
  clear_value y3
  refine Keeps.cut (s := y4) ?_ fun h36 => ?_
  · unfold y4
    refine Keeps.foldl ?_ fun x37 a38 h39 => ?_
    · exact h35
    · refine Keeps.ite ?_ ?_
      · exact Keeps.step (updLane_keeps _ _ _) h39 (by decide)
      · exact h39
  clear_value y4
  refine Keeps.ite ?_ ?_
  · exact Keeps.refl _
  · refine Keeps.foldl ?_ fun x40 a41 h42 => ?_
    · exact h36
    · exact Keeps.step (updCleat_keeps _ _ _) h42 (by decide)

theorem updDup_keeps (s : State) (f : DupSt → DupSt) :
    Keeps [.dup] [] s (updDup s f) := by
  unfold updDup
  refine Keeps.step (B := [.dup]) (bi := []) (s := s)
      (.upd rfl fun g hg => by cases g <;> first | exact absurd hg (by decide) | rfl) ?_ (by decide)
  exact Keeps.refl _

theorem dupPrimary_keeps (s : State) :
    Keeps [.dup] [] s (dupPrimary s) := by
  unfold dupPrimary
  exact Keeps.step (updDup_keeps _ _) (Keeps.refl _) (by decide)

theorem dupSend_keeps (s : State) :
    Keeps [.dup] [] s (dupSend s) := by
  unfold dupSend
  extract_lets y0 y1 y2 y3 y4
  clear_value y0 y1 y2 y3 y4
  refine Keeps.ite ?_ ?_
  · exact Keeps.refl _
  · refine Keeps.ite ?_ ?_
    · exact Keeps.step (updDup_keeps _ _) (Keeps.refl _) (by decide)
    · exact Keeps.step (updDup_keeps _ _) (Keeps.refl _) (by decide)

theorem dupStandby_keeps (s : State) :
    Keeps [.dup] [] s (dupStandby s) := by
  unfold dupStandby
  exact Keeps.step (updDup_keeps _ _) (Keeps.refl _) (by decide)

theorem dupTake_keeps (s : State) (u : Nat) (cause : Nat) :
    Keeps [.cells, .dup, .freeCtr] [P.DUP_TKO_COUNT, P.DUP_TKO_PERIOD] s (dupTake s u cause) := by
  unfold dupTake
  extract_lets y0 y1
  refine Keeps.cut (s := y0) ?_ fun h30 => ?_
  · unfold y0
    exact Keeps.step (incP_keeps _ _ _) (Keeps.step (putN_keeps _ _ _ _) (Keeps.refl _) (by decide)) (by decide)
  clear_value y0
  refine Keeps.cut (s := y1) ?_ fun h31 => ?_
  · unfold y1
    refine Keeps.step (B := [.cells]) (bi := []) (s := y0)
        (.upd rfl fun g hg => by cases g <;> first | exact absurd hg (by decide) | rfl) ?_ (by decide)
    exact h30
  clear_value y1
  exact Keeps.step (updDup_keeps _ _) h31 (by decide)

theorem grantMark_keeps (s : State) :
    Keeps [.dup] [] s (grantMark s) := by
  unfold grantMark
  extract_lets y0 y1
  clear_value y0 y1
  refine Keeps.ite ?_ ?_
  · exact Keeps.step (updDup_keeps _ _) (Keeps.refl _) (by decide)
  · exact Keeps.refl _

theorem mirrorArm_keeps (s : State) (a : Nat) (deb : Bool) :
    Keeps [.arms] [] s (mirrorArm s a deb) := by
  unfold mirrorArm
  extract_lets y0
  clear_value y0
  refine Keeps.ite ?_ ?_
  · exact Keeps.step (updArm_keeps _ _ _) (Keeps.refl _) (by decide)
  · refine Keeps.ite ?_ ?_
    · exact Keeps.step (blockArms_keeps _ _) (Keeps.refl _) (by decide)
    · exact Keeps.refl _

theorem slewCell_keeps (s : State) (f : PeerData) :
    Keeps [.time, .dup] [] s (slewCell s f) := by
  unfold slewCell
  extract_lets y0 y1 y2 y3
  clear_value y0 y1 y2 y3
  refine Keeps.step (updDup_keeps _ _) ?_ (by decide)
  refine Keeps.step (B := [.time]) (bi := []) (s := s)
      (.upd rfl fun g hg => by cases g <;> first | exact absurd hg (by decide) | rfl) ?_ (by decide)
  exact Keeps.refl _

theorem standbyMark_keeps (s : State) :
    Keeps [.cells, .dup, .freeCtr] [P.DUP_TKO_COUNT, P.DUP_TKO_PERIOD] s (standbyMark s) := by
  unfold standbyMark
  extract_lets y0 y1 y2 y3
  clear_value y0 y2 y3
  refine Keeps.cut (s := y1) ?_ fun h30 => ?_
  · unfold y1
    exact Keeps.step (updDup_keeps _ _) (Keeps.refl _) (by decide)
  clear_value y1
  refine Keeps.ite ?_ ?_
  · exact Keeps.step (dupTake_keeps _ _ _) h30 (by decide)
  · refine Keeps.ite ?_ ?_
    · exact Keeps.step (dupTake_keeps _ _ _) h30 (by decide)
    · refine Keeps.ite ?_ ?_
      · exact Keeps.step (dupTake_keeps _ _ _) h30 (by decide)
      · refine Keeps.ite ?_ ?_
        · exact Keeps.step (dupPrimary_keeps _) h30 (by decide)
        · exact h30

theorem dupEnter_keeps (s : State) :
    Keeps [.dup] [] s (dupEnter s) := by
  unfold dupEnter
  extract_lets y0 y1 y2
  clear_value y1 y2
  refine Keeps.cut (s := y0) ?_ fun h30 => ?_
  · unfold y0
    exact Keeps.step (dupStandby_keeps _) (Keeps.refl _) (by decide)
  clear_value y0
  refine Keeps.ite ?_ ?_
  · refine Keeps.step (B := [.dup]) (bi := []) (s := y0)
      (.upd rfl fun g hg => by cases g <;> first | exact absurd hg (by decide) | rfl) ?_ (by decide)
    exact h30
  · refine Keeps.step (B := [.dup]) (bi := []) (s := s)
      (.upd rfl fun g hg => by cases g <;> first | exact absurd hg (by decide) | rfl) ?_ (by decide)
    exact Keeps.refl _

theorem handoverOk_keeps (s : State) :
    Keeps [.ops, .host] [P.HOST_IRQ_CAUSE] s (handoverOk s) := by
  unfold handoverOk
  extract_lets y0
  unfold y0
  split
  · refine Keeps.step (completeOk_keeps _ _ _) ?_ (by decide)
    split
    · exact Keeps.step (completeOk_keeps _ _ _) (Keeps.refl _) (by decide)
    · exact Keeps.refl _
  · split
    · exact Keeps.step (completeOk_keeps _ _ _) (Keeps.refl _) (by decide)
    · exact Keeps.refl _

theorem activeMark_keeps (s : State) :
    Keeps [.ops, .host, .flt, .arms, .cells, .lanes, .str, .belay, .dup, .reel, .tbus, .freeCtr] [P.FLT_LOST,
        P.HOST_IRQ_CAUSE, P.REEL_LOST, P.REEL_QUEUE_HIGH, P.REEL_TRIG_TICK, P.STR_TRACE_LOST] s (activeMark s) := by
  unfold activeMark
  extract_lets y0 y1 y2
  clear_value y0
  refine Keeps.cut (s := y1) ?_ fun h30 => ?_
  · unfold y1
    refine Keeps.ite ?_ ?_
    · exact Keeps.step (causeGone_keeps _ _ _) (Keeps.refl _) (by decide)
    · exact Keeps.refl _
  clear_value y1
  refine Keeps.cut (s := y2) ?_ fun h31 => ?_
  · unfold y2
    refine Keeps.ite ?_ ?_
    · exact Keeps.step (updDup_keeps _ _) h30 (by decide)
    · exact h30
  clear_value y2
  refine Keeps.ite ?_ ?_
  · refine Keeps.ite ?_ ?_
    · exact Keeps.step (handoverOk_keeps _) (Keeps.step (updDup_keeps _ _) h31 (by decide)) (by decide)
    · exact h31
  · refine Keeps.ite ?_ ?_
    · exact Keeps.step (raiseFault_keeps _ _ _) (Keeps.step (dupStandby_keeps _) h31 (by decide)) (by decide)
    · split
      · refine Keeps.ite ?_ ?_
        · exact Keeps.step (dupStandby_keeps _) (Keeps.step (handoverOk_keeps _) h31 (by decide)) (by decide)
        · exact h31
      · exact h31

theorem hbMark_keeps (s : State) :
    Keeps [.host, .flt, .arms, .cells, .lanes, .str, .belay, .dup, .reel, .tbus, .freeCtr] [P.DUP_HB_MISS_TOTAL,
        P.FLT_LOST, P.HOST_IRQ_CAUSE, P.REEL_LOST, P.REEL_QUEUE_HIGH, P.REEL_TRIG_TICK,
        P.STR_TRACE_LOST] s (hbMark s) := by
  unfold hbMark
  extract_lets y0 y1 y2
  refine Keeps.cut (s := y0) ?_ fun h30 => ?_
  · unfold y0
    exact Keeps.step (causeGone_keeps _ _ _) (Keeps.refl _) (by decide)
  clear_value y0
  refine Keeps.cut (s := y1) ?_ fun h31 => ?_
  · unfold y1
    exact Keeps.step (incP_keeps _ _ _) (Keeps.refl _) (by decide)
  clear_value y1
  refine Keeps.cut (s := y2) ?_ fun h32 => ?_
  · unfold y2
    exact Keeps.step (updDup_keeps _ _) h31 (by decide)
  clear_value y2
  split
  · extract_lets y63
    clear_value y63
    exact Keeps.step (updDup_keeps _ _) h30 (by decide)
  · refine Keeps.ite ?_ ?_
    · exact Keeps.step (raiseFault_keeps _ _ _) h32 (by decide)
    · exact h32

theorem dupMark_keeps (s : State) :
    Keeps [.ops, .host, .flt, .arms, .cells, .lanes, .str, .belay, .dup, .reel, .tbus,
        .freeCtr] [P.DUP_HB_MISS_TOTAL, P.DUP_TKO_COUNT, P.DUP_TKO_PERIOD, P.FLT_LOST, P.HOST_IRQ_CAUSE,
        P.REEL_LOST, P.REEL_QUEUE_HIGH, P.REEL_TRIG_TICK, P.STR_TRACE_LOST] s (dupMark s) := by
  unfold dupMark
  extract_lets y0
  refine Keeps.cut (s := y0) ?_ fun h30 => ?_
  · unfold y0
    exact Keeps.step (hbMark_keeps _) (Keeps.refl _) (by decide)
  clear_value y0
  refine Keeps.ite ?_ ?_
  · exact Keeps.refl _
  · refine Keeps.ite ?_ ?_
    · exact Keeps.step (standbyMark_keeps _) h30 (by decide)
    · exact Keeps.step (grantMark_keeps _) (Keeps.step (activeMark_keeps _) h30 (by decide)) (by decide)

theorem applyData_keeps (s : State) :
    Keeps [.host, .flt, .per, .capWords, .arms, .cells, .lanes, .cleat, .str, .belay, .dup, .reel, .tbus, .loops,
        .freeCtr] [P.CLT_EXCLUDE, P.CLT_HIGH_WATER, P.FLT_LOST, P.HOST_IRQ_CAUSE, P.REEL_LOST, P.REEL_QUEUE_HIGH,
        P.REEL_TRIG_TICK, P.STR_TRACE_LOST] s (applyData s) := by
  unfold applyData
  split
  · extract_lets y30 y31 y32 y33 y34 y35 y36
    clear_value y31
    refine Keeps.cut (s := y30) ?_ fun h60 => ?_
    · unfold y30
      exact Keeps.step (updDup_keeps _ _) (Keeps.refl _) (by decide)
    clear_value y30
    refine Keeps.cut (s := y32) ?_ fun h61 => ?_
    · unfold y32
      exact Keeps.step (takeCount_keeps _ _) h60 (by decide)
    clear_value y32
    refine Keeps.cut (s := y33) ?_ fun h62 => ?_
    · unfold y33
      refine Keeps.foldl ?_ fun x63 a64 h65 => ?_
      · exact h61
      · exact Keeps.step (mirrorArm_keeps _ _ _) h65 (by decide)
    clear_value y33
    refine Keeps.cut (s := y34) ?_ fun h66 => ?_
    · unfold y34
      refine Keeps.foldl ?_ fun x67 a68 h69 => ?_
      · exact h62
      · refine Keeps.ite ?_ ?_
        · exact Keeps.step (mirrorGen_keeps _ _ _) h69 (by decide)
        · exact h69
    clear_value y34
    refine Keeps.cut (s := y35) ?_ fun h70 => ?_
    · unfold y35
      refine Keeps.step (ledgerWatch_keeps _) ?_ (by decide)
      refine Keeps.foldl ?_ fun x71 a72 h73 => ?_
      · exact h66
      · refine Keeps.ite ?_ ?_
        · exact Keeps.step (mirrorAct_keeps _ _ _) h73 (by decide)
        · exact h73
    clear_value y35
    refine Keeps.cut (s := y36) ?_ fun h74 => ?_
    · unfold y36
      refine Keeps.foldl ?_ fun x75 a76 h77 => ?_
      · exact h70
      · refine Keeps.ite ?_ ?_
        · exact Keeps.step (mirrorCleat_keeps _ _ _) h77 (by decide)
        · exact h77
    clear_value y36
    refine Keeps.step (mirrorExcl_keeps _ _ _) ?_ (by decide)
    exact Keeps.step (cleatWatch_keeps _) (Keeps.step (servePendings_keeps _ _) h74 (by decide)) (by decide)
  · exact Keeps.refl _

end Sys2Proof.Machine
end

