-- ==== Sys2Proof/Laws/RunOpsFrame.lean ====
section
/-! SUPPORT. What each operation of `Machine/RunOps.lean` may change, and that it changes nothing else. -/

namespace Sys2Proof.Machine

theorem belayOnAt_keeps (s : State) :
    Keeps [.belay] [] s (belayOnAt s) := by
  unfold belayOnAt
  extract_lets y0
  clear_value y0
  exact Keeps.step (updBelay_keeps _ _) (Keeps.refl _) (by decide)

theorem belaySuspend_keeps (s : State) :
    Keeps [.belay] [] s (belaySuspend s) := by
  unfold belaySuspend
  exact Keeps.step (updBelay_keeps _ _) (Keeps.refl _) (by decide)

theorem updPwr_keeps (s : State) (f : PwrSt → PwrSt) :
    Keeps [.pwr] [] s (updPwr s f) := by
  unfold updPwr
  refine Keeps.step (B := [.pwr]) (bi := []) (s := s)
      (.upd rfl fun g hg => by cases g <;> first | exact absurd hg (by decide) | rfl) ?_ (by decide)
  exact Keeps.refl _

theorem domains_keeps (s : State) (on : Nat) (off : Nat) :
    Keeps [.pwr] [] s (domains s on off) := by
  unfold domains
  exact Keeps.step (updPwr_keeps _ _) (Keeps.refl _) (by decide)

theorem heldToSpi_keeps (l : List (List Word)) (s : State) :
    Keeps [.host] [P.HOST_IRQ_CAUSE] s (heldToSpi l s) := by
  unfold heldToSpi
  extract_lets y0
  clear_value y0
  refine Keeps.ite ?_ ?_
  · exact Keeps.refl _
  · exact Keeps.step (irqSet_keeps _ _) (Keeps.step (updHost_keeps _ _) (Keeps.refl _) (by decide)) (by decide)

theorem listenUp_keeps (s : State) :
    Keeps [.pwr, .belay] [] s (listenUp s) := by
  unfold listenUp
  refine Keeps.step (updPwr_keeps _ _) ?_ (by decide)
  exact Keeps.step (belayOnAt_keeps _) (Keeps.step (domains_keeps _ _ _) (Keeps.refl _) (by decide)) (by decide)

theorem toListen_keeps (s : State) :
    Keeps [.params, .staged, .gain, .armedG, .tables, .ops, .host, .pwr, .flt, .time, .per, .capWords, .arms,
        .cells, .lanes, .cleat, .str, .belay, .dup, .reel, .tbus, .loops, .encs, .chop, .meas, .disc,
        .tally] [] s (toListen s) := by
  unfold toListen
  extract_lets y0 y1 y2 y3 y4 y5
  clear_value y0 y3 y4
  refine Keeps.cut (s := y5) ?_ fun h30 => ?_
  · unfold y5
    refine Keeps.step (B := [.params, .staged, .gain, .armedG, .tables, .ops, .host, .pwr, .flt, .time, .per,
        .capWords, .arms, .cells, .lanes, .cleat, .str, .belay, .dup, .reel, .tbus, .loops, .encs, .chop, .meas,
        .disc, .tally]) (bi := []) (s := s)
        (.updAll rfl fun g hg => by cases g <;> first | exact absurd hg (by decide) | rfl) ?_ (by decide)
    exact Keeps.refl _
  clear_value y5
  exact Keeps.step (heldToSpi_keeps _ _) h30 (by rfl)

theorem strandsBOff_keeps (s : State) :
    Keeps [.str, .freeCtr] [P.STR_BUSY, P.STR_READY_MAX, P.STR_SLOTS_HIGH, P.STR_TRACE_LOST] s (strandsBOff s) := by
  unfold strandsBOff
  extract_lets y0
  refine Keeps.cut (s := y0) ?_ fun h30 => ?_
  · unfold y0
    exact Keeps.step (dropTasks_keeps _ _) (Keeps.refl _) (by decide)
  clear_value y0
  refine Keeps.foldl ?_ fun x61 a62 h63 => ?_
  · exact h30
  · split
    · exact h63
    · extract_lets y94
      refine Keeps.cut (s := y94) ?_ fun h124 => ?_
      · unfold y94
        exact Keeps.step (busyAdd_keeps _ _ _ _) h63 (by decide)
      clear_value y94
      exact Keeps.step (readyTask_keeps _ _) (Keeps.step (updStrand_keeps _ _ _) h124 (by decide)) (by decide)

theorem powerDone_keeps (s : State) (w : Nat) :
    Keeps [.ops, .host] [P.HOST_IRQ_CAUSE] s (powerDone s w) := by
  unfold powerDone
  split
  · exact Keeps.step (completeOk_keeps _ _ _) (Keeps.refl _) (by decide)
  · exact Keeps.refl _

theorem powerFail_keeps (s : State) :
    Keeps [.ops, .host, .pwr] [P.HOST_IRQ_CAUSE] s (powerFail s) := by
  unfold powerFail
  extract_lets y0
  refine Keeps.cut (s := y0) ?_ fun h30 => ?_
  · unfold y0
    exact Keeps.step (updPwr_keeps _ _) (Keeps.refl _) (by decide)
  clear_value y0
  split
  · exact Keeps.step (completeErr_keeps _ _ _) h30 (by decide)
  · exact h30

theorem readyUp_keeps (s : State) :
    Keeps [.ops, .host, .pwr] [P.HOST_IRQ_CAUSE] s (readyUp s) := by
  unfold readyUp
  extract_lets y0
  clear_value y0
  refine Keeps.ite ?_ ?_
  · exact Keeps.step (powerFail_keeps _) (Keeps.refl _) (by decide)
  · exact Keeps.step (updPwr_keeps _ _) (Keeps.step (domains_keeps _ _ _) (Keeps.refl _) (by decide)) (by decide)

theorem powerNext_keeps (s : State) :
    Keeps [.params, .staged, .gain, .armedG, .tables, .ops, .host, .pwr, .flt, .time, .per, .capWords, .arms,
        .cells, .lanes, .cleat, .str, .belay, .dup, .reel, .tbus, .loops, .encs, .chop, .meas, .disc,
        .tally] [] s (powerNext s) := by
  unfold powerNext
  extract_lets y0
  refine Keeps.cut (s := y0) ?_ fun h30 => ?_
  · unfold y0
    split
    · exact Keeps.step (toListen_keeps _) (Keeps.refl _) (by rfl)
    · exact Keeps.step (toListen_keeps _) (Keeps.refl _) (by rfl)
    · exact Keeps.refl _
  clear_value y0
  split
  · exact Keeps.step (powerDone_keeps _ _) h30 (by rfl)
  · exact Keeps.step (updPwr_keeps _ _) (Keeps.step (powerDone_keeps _ _) h30 (by rfl)) (by rfl)
  · exact Keeps.step (listenUp_keeps _) h30 (by rfl)
  · exact Keeps.step (powerDone_keeps _ _) h30 (by rfl)
  · exact Keeps.step (readyUp_keeps _) h30 (by rfl)
  · exact Keeps.step (powerDone_keeps _ _) h30 (by rfl)
  · exact Keeps.step (updPwr_keeps _ _) h30 (by rfl)
  · exact h30

theorem dispatchOff_keeps (s : State) :
    Keeps [.params, .host, .flt, .capWords, .arms, .cells, .lanes, .cleat, .str, .belay, .reel, .tbus, .loops,
        .encs, .freeCtr] [] s (dispatchOff s) := by
  unfold dispatchOff
  extract_lets y0 y1 y2 y3
  clear_value y0 y1
  refine Keeps.cut (s := y2) ?_ fun h30 => ?_
  · unfold y2
    refine Keeps.step (B := [.params, .capWords, .cells, .cleat, .loops, .encs]) (bi := []) (s := s)
        (.updAll rfl fun g hg => by cases g <;> first | exact absurd hg (by decide) | rfl) ?_ (by decide)
    exact Keeps.refl _
  clear_value y2
  refine Keeps.cut (s := y3) ?_ fun h31 => ?_
  · unfold y3
    refine Keeps.foldl ?_ fun x32 a33 h34 => ?_
    · exact h30
    · exact Keeps.step (cellCauses_keeps _ _) h34 (by rfl)
  clear_value y3
  refine Keeps.step (ledgerWatch_keeps _) ?_ (by rfl)
  refine Keeps.step (cleatWatch_keeps _) ?_ (by rfl)
  refine Keeps.foldl ?_ fun x35 a36 h37 => ?_
  · exact h31
  · exact Keeps.step (cleatFullGone_keeps _ _) h37 (by rfl)

theorem dropPlacement_keeps (s : State) :
    Keeps [.host, .flt, .arms, .cells, .lanes, .str, .belay, .reel, .tbus, .disc, .tally, .freeCtr] [P.FLT_LOST,
        P.HOST_IRQ_CAUSE, P.REEL_LOST, P.REEL_QUEUE_HIGH, P.REEL_TRIG_TICK, P.STR_READY_MAX, P.STR_SLOTS_HIGH,
        P.STR_TRACE_LOST] s (dropPlacement s) := by
  unfold dropPlacement
  extract_lets y0 y1 y2
  clear_value y0
  refine Keeps.cut (s := y1) ?_ fun h30 => ?_
  · unfold y1
    refine Keeps.step (B := [.cells, .disc]) (bi := []) (s := s)
        (.upd rfl fun g hg => by cases g <;> first | exact absurd hg (by decide) | rfl) ?_ (by decide)
    exact Keeps.refl _
  clear_value y1
  refine Keeps.cut (s := y2) ?_ fun h31 => ?_
  · unfold y2
    refine Keeps.foldl ?_ fun x32 a33 h34 => ?_
    · exact h30
    · exact Keeps.step (updArm_keeps _ _ _) h34 (by decide)
  clear_value y2
  refine Keeps.step (ledgerWatch_keeps _) ?_ (by decide)
  exact Keeps.step (tallyFollow_keeps _ _) (Keeps.step (tallyStale_keeps _) h31 (by decide)) (by decide)

theorem endRunOp_keeps (s : State) (o : LongOp) :
    Keeps [.tables, .ops, .host, .flt, .arms, .cells, .lanes, .str, .belay, .reel, .tbus, .chop, .disc, .tally,
        .freeCtr] [P.FLT_LOST, P.HOST_IRQ_CAUSE, P.REEL_LOST, P.REEL_QUEUE_HIGH, P.REEL_TRIG_TICK, P.STR_READY_MAX,
        P.STR_SLOTS_HIGH, P.STR_TRACE_LOST] s (endRunOp s o) := by
  unfold endRunOp
  extract_lets y0 y1
  refine Keeps.cut (s := y0) ?_ fun h30 => ?_
  · unfold y0
    refine Keeps.ite ?_ ?_
    · exact Keeps.step (dropPlacement_keeps _) (Keeps.refl _) (by decide)
    · exact Keeps.refl _
  clear_value y0
  refine Keeps.cut (s := y1) ?_ fun h31 => ?_
  · unfold y1
    refine Keeps.ite ?_ ?_
    · exact Keeps.step (updLeg_keeps _ _ _) h30 (by decide)
    · exact h30
  clear_value y1
  refine Keeps.ite ?_ ?_
  · exact Keeps.step (endScan_keeps _ _) h31 (by decide)
  · exact Keeps.step (completeErr_keeps _ _ _) h31 (by decide)

theorem endRunOps_keeps (s : State) :
    Keeps [.tables, .ops, .host, .flt, .arms, .cells, .lanes, .str, .belay, .reel, .tbus, .chop, .disc, .tally,
        .freeCtr] [P.FLT_LOST, P.HOST_IRQ_CAUSE, P.REEL_LOST, P.REEL_QUEUE_HIGH, P.REEL_TRIG_TICK, P.STR_READY_MAX,
        P.STR_SLOTS_HIGH, P.STR_TRACE_LOST] s (endRunOps s) := by
  unfold endRunOps
  refine Keeps.foldl ?_ fun x0 a1 h2 => ?_
  · exact Keeps.refl _
  · exact Keeps.step (endRunOp_keeps _ _) h2 (by decide)

theorem leaveRun_keeps (s : State) :
    Keeps [.params, .tables, .ops, .host, .pwr, .flt, .per, .capWords, .arms, .cells, .lanes, .cleat, .str, .belay,
        .dup, .reel, .tbus, .loops, .encs, .chop, .disc, .tally, .freeCtr] [] s (leaveRun s) := by
  unfold leaveRun
  extract_lets y0 y1 y2 y3 y4 y5 y6 y7 y8 y9 y10
  clear_value y1 y9
  refine Keeps.cut (s := y0) ?_ fun h30 => ?_
  · unfold y0
    exact Keeps.step (endRunOps_keeps _) (Keeps.refl _) (by rfl)
  clear_value y0
  refine Keeps.cut (s := y2) ?_ fun h31 => ?_
  · unfold y2
    refine Keeps.step (B := [.cleat]) (bi := []) (s := y0)
        (.upd rfl fun g hg => by cases g <;> first | exact absurd hg (by decide) | rfl) ?_ (by decide)
    exact h30
  clear_value y2
  refine Keeps.cut (s := y3) ?_ fun h32 => ?_
  · unfold y3
    refine Keeps.foldl ?_ fun x33 a34 h35 => ?_
    · exact h31
    · exact Keeps.step (laneOff_keeps _ _) h35 (by rfl)
  clear_value y3
  refine Keeps.cut (s := y4) ?_ fun h36 => ?_
  · unfold y4
    refine Keeps.step (mtAbort_keeps _) ?_ (by rfl)
    exact Keeps.step (reelStop_keeps _ _) (Keeps.step (reelSync_keeps _) h32 (by rfl)) (by rfl)
  clear_value y4
  refine Keeps.cut (s := y5) ?_ fun h37 => ?_
  · unfold y5
    exact Keeps.step (strandsBOff_keeps _) (Keeps.step (dispatchOff_keeps _) h36 (by rfl)) (by rfl)
  clear_value y5
  refine Keeps.cut (s := y6) ?_ fun h38 => ?_
  · unfold y6
    refine Keeps.foldl ?_ fun x39 a40 h41 => ?_
    · exact h37
    · exact Keeps.step (updArm_keeps _ _ _) h41 (by rfl)
  clear_value y6
  refine Keeps.cut (s := y7) ?_ fun h42 => ?_
  · unfold y7
    exact Keeps.step (belaySuspend_keeps _) (Keeps.step (domains_keeps _ _ _) h38 (by rfl)) (by rfl)
  clear_value y7
  refine Keeps.cut (s := y8) ?_ fun h43 => ?_
  · unfold y8
    refine Keeps.ite ?_ ?_
    · exact Keeps.step (dupStandby_keeps _) h42 (by rfl)
    · exact h42
  clear_value y8
  refine Keeps.cut (s := y10) ?_ fun h44 => ?_
  · unfold y10
    refine Keeps.step (B := [.per]) (bi := []) (s := y8)
        (.upd rfl fun g hg => by cases g <;> first | exact absurd hg (by decide) | rfl) ?_ (by decide)
    exact h43
  clear_value y10
  exact Keeps.step (updPwr_keeps _ _) h44 (by rfl)

end Sys2Proof.Machine
end

