-- ==== Sys2Proof/Laws/FramesFrame.lean ====
section
/-! SUPPORT. What each operation of `Machine/Frames.lean` may change, and that it changes nothing else. -/

namespace Sys2Proof.Machine

theorem silenceFail_keeps (s : State) (m : Nat) (c : Nat) :
    Keeps [.cells, .cleat] [] s (silenceFail s m c) := by
  unfold silenceFail
  split
  · refine Keeps.ite ?_ ?_
    · exact Keeps.step (startRetire_keeps _ _ _) (Keeps.refl _) (by decide)
    · exact Keeps.refl _
  · exact Keeps.refl _

theorem takeApplied_keeps (s : State) (c : Nat) (k : Nat) (d : Nat) (r : BitVec 48) :
    Keeps [.cells] [] s (takeApplied s c k d r) := by
  unfold takeApplied
  extract_lets y0
  clear_value y0
  refine Keeps.ite ?_ ?_
  · exact Keeps.step (updCell_keeps _ _ _) (Keeps.refl _) (by decide)
  · exact Keeps.refl _

theorem takePort.updDup_keeps (s : State) (f : DupSt → DupSt) :
    Keeps [.dup] [] s (takePort.updDup s f) := by
  unfold takePort.updDup
  refine Keeps.step (B := [.dup]) (bi := []) (s := s)
      (.upd rfl fun g hg => by cases g <;> first | exact absurd hg (by decide) | rfl) ?_ (by decide)
  exact Keeps.refl _

theorem takePort_keeps (s : State) (l : Nat) (k : Nat) (port : Nat) (hold : Nat) :
    Keeps [.lanes, .dup] [] s (takePort s l k port hold) := by
  unfold takePort
  extract_lets y0
  refine Keeps.cut (s := y0) ?_ fun h30 => ?_
  · unfold y0
    exact Keeps.step (updLane_keeps _ _ _) (Keeps.refl _) (by decide)
  clear_value y0
  refine Keeps.ite ?_ ?_
  · exact Keeps.step (takePort.updDup_keeps _ _) h30 (by decide)
  · exact h30

theorem residWatch_keeps (s : State) (c : Nat) (r : Rat) :
    Keeps [.host, .flt, .arms, .cells, .lanes, .str, .belay, .reel, .tbus, .freeCtr] [P.FLT_LOST, P.HOST_IRQ_CAUSE,
        P.REEL_LOST, P.REEL_QUEUE_HIGH, P.REEL_TRIG_TICK, P.STR_TRACE_LOST] s (residWatch s c r).1 := by
  unfold residWatch
  extract_lets y0 y1 y2 y3 y4 y5 y6
  clear_value y0 y1 y2 y3 y4
  refine Keeps.cut (s := y5) ?_ fun h30 => ?_
  · unfold y5
    refine Keeps.ite ?_ ?_
    · refine Keeps.step (updArm_keeps _ _ _) ?_ (by decide)
      exact Keeps.step (raiseFault_keeps _ _ _) (Keeps.refl _) (by decide)
    · exact Keeps.refl _
  clear_value y5
  refine Keeps.cut (s := y6) ?_ fun h31 => ?_
  · unfold y6
    refine Keeps.ite ?_ ?_
    · exact Keeps.step (updArm_keeps _ _ _) h30 (by decide)
    · exact h30
  clear_value y6
  dsimp only
  exact h31

theorem takeMsg_keeps (s : State) (l : Nat) (k : Nat) (f : UpFrame) :
    Keeps [.ops, .host, .flt, .arms, .cells, .lanes, .str, .belay, .reel, .tbus, .tally, .freeCtr] [P.FLT_LOST,
        P.FRM_MSG_FAIL, P.FRM_MSG_RESULT, P.HOST_IRQ_CAUSE, P.REEL_LOST, P.REEL_QUEUE_HIGH, P.REEL_TRIG_TICK,
        P.STR_TRACE_LOST, P.TALLY_CELL_DIGEST, P.TALLY_HUB_DIGEST] s (takeMsg s l k f) := by
  unfold takeMsg
  split
  · exact Keeps.refl _
  · refine Keeps.ite ?_ ?_
    · exact Keeps.step (txnMissing_keeps _ _ _) (Keeps.refl _) (by decide)
    · refine Keeps.ite ?_ ?_
      · refine Keeps.step (txnOk_keeps _ _ _ _) ?_ (by decide)
        exact Keeps.step (txnDrop_keeps _ _ _) (Keeps.refl _) (by decide)
      · refine Keeps.ite ?_ ?_
        · exact Keeps.step (txnLost_keeps _ _ _) (Keeps.refl _) (by decide)
        · exact Keeps.step (txnMissing_keeps _ _ _) (Keeps.refl _) (by decide)

theorem takeVoltage_keeps (s : State) (c : Nat) (k : Nat) (r : BitVec 48) :
    Keeps [.host, .flt, .arms, .cells, .lanes, .str, .belay, .reel, .tbus, .freeCtr] [P.FLT_LOST, P.HOST_IRQ_CAUSE,
        P.REEL_LOST, P.REEL_QUEUE_HIGH, P.REEL_TRIG_TICK, P.STR_TRACE_LOST] s (takeVoltage s c k r).1 := by
  unfold takeVoltage
  extract_lets y0 y1 y2 y3
  clear_value y0 y1
  refine Keeps.cut (s := y2.1) ?_ fun h30 => ?_
  · unfold y2
    split
    · split
      · exact Keeps.step (residWatch_keeps _ _ _) (Keeps.refl _) (by decide)
      · dsimp only
        exact Keeps.refl _
    · dsimp only
      exact Keeps.refl _
  clear_value y2
  refine Keeps.cut (s := y3) ?_ fun h31 => ?_
  · unfold y3
    exact Keeps.step (updCell_keeps _ _ _) h30 (by decide)
  clear_value y3
  dsimp only
  exact Keeps.step (mtReport_keeps _ _ _ _) h31 (by decide)

theorem takeClosed_keeps (s : State) (c : Nat) :
    Keeps [.ops, .host, .flt, .arms, .cells, .lanes, .cleat, .str, .belay, .reel, .tbus, .freeCtr] [P.FLT_LOST,
        P.HOST_IRQ_CAUSE, P.REEL_LOST, P.REEL_QUEUE_HIGH, P.REEL_TRIG_TICK, P.STR_TRACE_LOST] s (takeClosed s c) := by
  unfold takeClosed
  extract_lets y0
  clear_value y0
  split
  · refine Keeps.ite ?_ ?_
    · exact Keeps.step (retireDone_keeps _ _ _) (Keeps.refl _) (by decide)
    · exact Keeps.refl _
  · refine Keeps.ite ?_ ?_
    · exact Keeps.step (retireDone_keeps _ _ _) (Keeps.refl _) (by decide)
    · exact Keeps.refl _
  · exact Keeps.refl _

theorem takeHold_keeps (s : State) (l : Nat) (k : Nat) (hold : Nat) :
    Keeps [.host, .flt, .arms, .cells, .lanes, .str, .belay, .reel, .tbus, .freeCtr] [P.FLT_LOST, P.FRM_HOLD_EVENTS,
        P.HOST_IRQ_CAUSE, P.REEL_LOST, P.REEL_QUEUE_HIGH, P.REEL_TRIG_TICK,
        P.STR_TRACE_LOST] s (takeHold s l k hold) := by
  unfold takeHold
  extract_lets y0 y1
  clear_value y0 y1
  refine Keeps.step (causeSet_keeps _ _ _ _) ?_ (by decide)
  exact Keeps.step (addP_keeps _ _ _ _) (Keeps.refl _) (by decide)

theorem silenceAt_keeps (s : State) (m : Nat) (c : Nat) :
    Keeps [.host, .flt, .arms, .cells, .lanes, .cleat, .str, .belay, .reel, .tbus, .freeCtr] [P.CLT_HIGH_WATER,
        P.FLT_LOST, P.HOST_IRQ_CAUSE, P.REEL_LOST, P.REEL_QUEUE_HIGH, P.REEL_TRIG_TICK,
        P.STR_TRACE_LOST] s (silenceAt s m c) := by
  unfold silenceAt
  extract_lets y0
  clear_value y0
  refine Keeps.ite ?_ ?_
  · refine Keeps.ite ?_ ?_
    · exact Keeps.step (silenceFail_keeps _ _ _) (Keeps.refl _) (by decide)
    · refine Keeps.step (suspectCell_keeps _ _ _) ?_ (by decide)
      exact Keeps.step (updCell_keeps _ _ _) (Keeps.refl _) (by decide)
  · exact Keeps.refl _

theorem startClosed_keeps (s : State) (c : Nat) :
    Keeps [.host, .flt, .arms, .cells, .lanes, .cleat, .str, .belay, .reel, .tbus, .freeCtr] [P.CLT_HIGH_WATER,
        P.FLT_LOST, P.HOST_IRQ_CAUSE, P.REEL_LOST, P.REEL_QUEUE_HIGH, P.REEL_TRIG_TICK,
        P.STR_TRACE_LOST] s (startClosed s c) := by
  unfold startClosed
  refine Keeps.ite ?_ ?_
  · refine Keeps.step (faultUse_keeps _ _) ?_ (by decide)
    exact Keeps.step (startRetire_keeps _ _ _) (Keeps.refl _) (by decide)
  · exact Keeps.refl _

theorem takeRot_keeps (s : State) (c : Nat) (k : Nat) (d : Nat) (r : BitVec 48) (last : Nat) :
    Keeps [.host, .flt, .arms, .cells, .lanes, .cleat, .str, .belay, .reel, .tbus, .tally,
        .freeCtr] [P.CLT_HIGH_WATER, P.FLT_LOST, P.HOST_IRQ_CAUSE, P.REEL_LOST, P.REEL_QUEUE_HIGH, P.REEL_TRIG_TICK,
        P.STR_TRACE_LOST, P.TALLY_CELL_DIGEST, P.TALLY_HUB_DIGEST] s (takeRot s c k d r last) := by
  unfold takeRot
  extract_lets y0 y1 y2 y3 y4 y5 y6 y7
  clear_value y0 y1 y2 y3 y5
  refine Keeps.cut (s := y4) ?_ fun h30 => ?_
  · unfold y4
    exact Keeps.step (updCell_keeps _ _ _) (Keeps.refl _) (by decide)
  clear_value y4
  refine Keeps.cut (s := y6) ?_ fun h31 => ?_
  · unfold y6
    exact Keeps.step (updCell_keeps _ _ _) (Keeps.refl _) (by decide)
  clear_value y6
  refine Keeps.cut (s := y7) ?_ fun h32 => ?_
  · unfold y7
    exact Keeps.step (updCell_keeps _ _ _) (Keeps.step (raiseFault_keeps _ _ _) h31 (by decide)) (by decide)
  clear_value y7
  refine Keeps.ite ?_ ?_
  · exact Keeps.step (updCell_keeps _ _ _) (Keeps.refl _) (by decide)
  · refine Keeps.ite ?_ ?_
    · refine Keeps.ite ?_ ?_
      · refine Keeps.ite ?_ ?_
        · exact Keeps.step (setDigest_keeps _ _ _) h30 (by decide)
        · exact h30
      · exact Keeps.step (updCell_keeps _ _ _) (Keeps.refl _) (by decide)
    · refine Keeps.ite ?_ ?_
      · refine Keeps.ite ?_ ?_
        · exact Keeps.step (startRetire_keeps _ _ _) (Keeps.step (faultUse_keeps _ _) h32 (by decide)) (by decide)
        · exact h31
      · exact Keeps.refl _

theorem execCellSilenceSuspect_keeps (cell : Fin 3072) (s : State) :
    OutKeeps [.tick, .host, .flt, .time, .arms, .cells, .lanes, .cleat, .str, .belay, .reel, .tbus, .chop,
        .freeCtr] [P.CLT_HIGH_WATER, P.FLT_LOST, P.HOST_IRQ_CAUSE, P.REEL_LOST, P.REEL_QUEUE_HIGH, P.REEL_TRIG_TICK,
        P.STR_TRACE_LOST] s (execCellSilenceSuspect cell s) := by
  unfold execCellSilenceSuspect
  refine OutKeeps.clocked ?_ ?_
  · exact Keeps.refl _
  · refine OutKeeps.ends reelObserve_keeps (by decide) ?_
    refine Keeps.ite ?_ ?_
    · exact Keeps.step (silenceAt_keeps _ _ _) (Keeps.refl _) (by decide)
    · refine Keeps.atMark (by decide) advanceTo_keeps ?_ fun x0 h1 => ?_
      · exact Keeps.refl _
      · exact Keeps.step (silenceAt_keeps _ _ _) h1 (by decide)

theorem takeReport_keeps (s : State) (c : Nat) (k : Nat) (d : Nat) (r : BitVec 48) :
    Keeps [.ops, .host, .flt, .arms, .cells, .lanes, .cleat, .str, .belay, .reel, .tbus, .tally,
        .freeCtr] [P.CLT_HIGH_WATER, P.FLT_LOST, P.HOST_IRQ_CAUSE, P.REEL_LOST, P.REEL_QUEUE_HIGH, P.REEL_TRIG_TICK,
        P.STR_TRACE_LOST, P.TALLY_CELL_DIGEST, P.TALLY_HUB_DIGEST] s (takeReport s c k d r) := by
  unfold takeReport
  extract_lets y0 y1 y2 y3 y4 y5 y6 y7
  clear_value y0 y5
  refine Keeps.cut (s := y1) ?_ fun h30 => ?_
  · unfold y1
    exact Keeps.step (updCell_keeps _ _ _) (Keeps.refl _) (by decide)
  clear_value y1
  refine Keeps.cut (s := y2) ?_ fun h31 => ?_
  · unfold y2
    refine Keeps.ite ?_ ?_
    · exact Keeps.step (startClosed_keeps _ _) h30 (by decide)
    · exact h30
  clear_value y2
  refine Keeps.cut (s := y3.1) ?_ fun h32 => ?_
  · unfold y3
    exact Keeps.step (takeVoltage_keeps _ _ _ _) h31 (by decide)
  clear_value y3
  refine Keeps.cut (s := y4) ?_ fun h33 => ?_
  · unfold y4
    exact Keeps.step (takeApplied_keeps _ _ _ _ _) h32 (by decide)
  clear_value y4
  refine Keeps.cut (s := y6) ?_ fun h34 => ?_
  · unfold y6
    refine Keeps.ite ?_ ?_
    · exact h33
    · refine Keeps.step (faultUse_keeps _ _) ?_ (by decide)
      refine Keeps.foldl ?_ fun x35 a36 h37 => ?_
      · exact h33
      · exact Keeps.step (raiseFault_keeps _ _ _) h37 (by decide)
  clear_value y6
  refine Keeps.cut (s := y7) ?_ fun h38 => ?_
  · unfold y7
    refine Keeps.ite ?_ ?_
    · exact Keeps.step (takeClosed_keeps _ _) h34 (by decide)
    · exact h34
  clear_value y7
  refine Keeps.ite ?_ ?_
  · exact Keeps.refl _
  · refine Keeps.ite ?_ ?_
    · exact h30
    · exact Keeps.step (takeRot_keeps _ _ _ _ _ _) h38 (by decide)

theorem usAccept_keeps (s : State) (l : Nat) (f : UpFrame) :
    Keeps [.tables, .ops, .host, .flt, .arms, .cells, .lanes, .cleat, .str, .belay, .dup, .reel, .tbus, .tally,
        .freeCtr] [P.CLT_HIGH_WATER, P.FLT_LOST, P.FRM_DS_ERR, P.FRM_HOLD_EVENTS, P.FRM_MSG_FAIL, P.FRM_MSG_RESULT,
        P.HOST_IRQ_CAUSE, P.LANE_ERR_COUNT, P.LANE_ERR_TOTAL, P.REEL_LOST, P.REEL_QUEUE_HIGH, P.REEL_TRIG_TICK,
        P.STR_TRACE_LOST, P.TALLY_CELL_DIGEST, P.TALLY_HUB_DIGEST] s (usAccept s l f) := by
  unfold usAccept
  extract_lets y0 y1 y2 y3 y4 y5
  clear_value y0 y1 y2
  refine Keeps.cut (s := y3) ?_ fun h30 => ?_
  · unfold y3
    refine Keeps.step (takePort_keeps _ _ _ _ _) ?_ (by decide)
    exact Keeps.step (takeHold_keeps _ _ _ _) (Keeps.refl _) (by decide)
  clear_value y3
  refine Keeps.cut (s := y4) ?_ fun h31 => ?_
  · unfold y4
    refine Keeps.foldl ?_ fun x32 a33 h34 => ?_
    · exact h30
    · exact Keeps.step (takeReport_keeps _ _ _ _ _) h34 (by decide)
  clear_value y4
  refine Keeps.cut (s := y5) ?_ fun h35 => ?_
  · unfold y5
    exact Keeps.step (takeMsg_keeps _ _ _ _) h31 (by decide)
  clear_value y5
  exact Keeps.step (laneErrors_keeps _ _ _) (Keeps.step (addP_keeps _ _ _ _) h35 (by decide)) (by decide)

theorem usLost_keeps (s : State) (l : Nat) :
    Keeps [.tables, .ops, .host, .flt, .arms, .cells, .lanes, .str, .belay, .reel, .tbus, .tally,
        .freeCtr] [P.FLT_LOST, P.FRM_MSG_FAIL, P.FRM_US_ERR, P.HOST_IRQ_CAUSE, P.LANE_ERR_COUNT, P.LANE_ERR_TOTAL,
        P.REEL_LOST, P.REEL_QUEUE_HIGH, P.REEL_TRIG_TICK, P.STR_TRACE_LOST] s (usLost s l) := by
  unfold usLost
  extract_lets y0 y1 y2
  clear_value y0
  refine Keeps.cut (s := y1) ?_ fun h30 => ?_
  · unfold y1
    exact Keeps.step (incP_keeps _ _ _) (Keeps.refl _) (by decide)
  clear_value y1
  refine Keeps.cut (s := y2) ?_ fun h31 => ?_
  · unfold y2
    refine Keeps.ite ?_ ?_
    · exact Keeps.step (updLane_keeps _ _ _) (Keeps.step (frameMissing_keeps _ _ _) h30 (by decide)) (by decide)
    · exact h30
  clear_value y2
  exact Keeps.step (laneError_keeps _ _) h31 (by decide)

theorem execUpstreamFrame_keeps (frame : UpFrame) (s : State) :
    OutKeeps [.tables, .ops, .host, .flt, .arms, .cells, .lanes, .cleat, .str, .belay, .dup, .reel, .tbus, .tally,
        .freeCtr] [P.CLT_HIGH_WATER, P.FLT_LOST, P.FRM_DS_ERR, P.FRM_HOLD_EVENTS, P.FRM_MSG_FAIL, P.FRM_MSG_RESULT,
        P.FRM_US_ERR, P.HOST_IRQ_CAUSE, P.LANE_ERR_COUNT, P.LANE_ERR_TOTAL, P.REEL_LOST, P.REEL_QUEUE_HIGH,
        P.REEL_TRIG_TICK, P.STR_TRACE_LOST, P.TALLY_CELL_DIGEST,
        P.TALLY_HUB_DIGEST] s (execUpstreamFrame frame s) := by
  unfold execUpstreamFrame
  extract_lets y0 y1
  clear_value y0 y1
  refine OutKeeps.clocked ?_ ?_
  · exact Keeps.refl _
  · refine OutKeeps.ends reelObserve_keeps (by decide) ?_
    refine Keeps.ite ?_ ?_
    · exact Keeps.refl _
    · refine Keeps.ite ?_ ?_
      · exact Keeps.refl _
      · refine Keeps.ite ?_ ?_
        · exact Keeps.step (usAccept_keeps _ _ _) (Keeps.refl _) (by decide)
        · exact Keeps.step (usLost_keeps _ _) (Keeps.refl _) (by decide)

theorem usDeadline_keeps (s : State) (l : Nat) :
    Keeps [.tick, .tables, .ops, .host, .flt, .time, .arms, .cells, .lanes, .str, .belay, .reel, .tbus, .chop,
        .tally, .freeCtr] [P.FLT_LOST, P.FRM_MSG_FAIL, P.FRM_US_ERR, P.HOST_IRQ_CAUSE, P.LANE_ERR_COUNT,
        P.LANE_ERR_TOTAL, P.REEL_LOST, P.REEL_QUEUE_HIGH, P.REEL_TRIG_TICK, P.STR_TRACE_LOST] s (usDeadline s l) := by
  unfold usDeadline
  extract_lets y0 y1
  clear_value y0 y1
  refine Keeps.ite ?_ ?_
  · exact Keeps.refl _
  · refine Keeps.ite ?_ ?_
    · refine Keeps.step (usLost_keeps _ _) ?_ (by decide)
      exact Keeps.step (advanceTo_keeps _ _) (Keeps.refl _) (by decide)
    · exact Keeps.step (usLost_keeps _ _) (Keeps.refl _) (by decide)

theorem execUpstreamFrameDeadline_keeps (lane : Fin 64) (s : State) :
    OutKeeps [.tick, .tables, .ops, .host, .flt, .time, .arms, .cells, .lanes, .str, .belay, .reel, .tbus, .chop,
        .tally, .freeCtr] [P.FLT_LOST, P.FRM_MSG_FAIL, P.FRM_US_ERR, P.HOST_IRQ_CAUSE, P.LANE_ERR_COUNT,
        P.LANE_ERR_TOTAL, P.REEL_LOST, P.REEL_QUEUE_HIGH, P.REEL_TRIG_TICK,
        P.STR_TRACE_LOST] s (execUpstreamFrameDeadline lane s) := by
  unfold execUpstreamFrameDeadline
  refine OutKeeps.clocked ?_ ?_
  · exact Keeps.refl _
  · refine OutKeeps.ends reelObserve_keeps (by decide) ?_
    exact Keeps.step (usDeadline_keeps _ _) (Keeps.refl _) (by decide)

theorem periodEnd_keeps (s : State) :
    Keeps [.tick, .tables, .ops, .host, .flt, .time, .arms, .cells, .lanes, .cleat, .str, .belay, .reel, .tbus,
        .chop, .tally, .freeCtr] [P.CLT_HIGH_WATER, P.FLT_LOST, P.FRM_MSG_FAIL, P.FRM_US_ERR, P.HOST_IRQ_CAUSE,
        P.LANE_ERR_COUNT, P.LANE_ERR_TOTAL, P.REEL_LOST, P.REEL_QUEUE_HIGH, P.REEL_TRIG_TICK,
        P.STR_TRACE_LOST] s (periodEnd s) := by
  unfold periodEnd
  extract_lets y0 y1
  refine Keeps.cut (s := y0) ?_ fun h30 => ?_
  · unfold y0
    refine Keeps.foldl ?_ fun x31 a32 h33 => ?_
    · refine Keeps.foldl ?_ fun x34 a35 h36 => ?_
      · exact Keeps.refl _
      · exact Keeps.step (usDeadline_keeps _ _) h36 (by decide)
    · exact Keeps.step (usDeadline_keeps _ _) h33 (by decide)
  clear_value y0
  refine Keeps.cut (s := y1) ?_ fun h37 => ?_
  · unfold y1
    exact Keeps.step (advanceTo_keeps _ _) h30 (by decide)
  clear_value y1
  refine Keeps.foldl ?_ fun x38 a39 h40 => ?_
  · exact h37
  · exact Keeps.step (silenceAt_keeps _ _ _) h40 (by decide)

end Sys2Proof.Machine
end

