-- ==== Sys2Proof/Laws/MeasFrame.lean ====
section
/-! SUPPORT. What each operation of `Machine/Meas.lean` may change, and that it changes nothing else. -/

namespace Sys2Proof.Machine

theorem convStart_keeps (s : State) (a : Nat) (k : ConvKind) (ch : Nat) :
    Keeps [.meas] [] s (convStart s a k ch) := by
  unfold convStart
  exact Keeps.step (updAdc_keeps _ _ _) (Keeps.refl _) (by decide)

theorem decRestart_keeps (s : State) (n : Nat) (base : Nat) :
    Keeps [.meas] [] s (decRestart s n base) := by
  unfold decRestart
  extract_lets y0
  clear_value y0
  exact Keeps.step (updDec_keeps _ _ _) (Keeps.refl _) (by decide)

theorem pathWake_keeps (s : State) (a : Nat) :
    Keeps [.meas] [] s (pathWake s a) := by
  unfold pathWake
  split
  · refine Keeps.ite ?_ ?_
    · exact Keeps.step (updAdc_keeps _ _ _) (Keeps.refl _) (by decide)
    · exact Keeps.refl _
  · exact Keeps.refl _

theorem regBegin_keeps (s : State) (a : Nat) :
    Keeps [.meas] [] s (regBegin s a) := by
  unfold regBegin
  extract_lets y0 y1
  clear_value y0 y1
  refine Keeps.ite ?_ ?_
  · exact Keeps.refl _
  · split
    · exact Keeps.step (updAdc_keeps _ _ _) (Keeps.refl _) (by decide)
    · refine Keeps.ite ?_ ?_
      · exact Keeps.step (updAdc_keeps _ _ _) (Keeps.refl _) (by decide)
      · exact Keeps.step (updAdc_keeps _ _ _) (Keeps.refl _) (by decide)

theorem trigEvent_keeps (s : State) (code : Nat) (mark : Option Nat) :
    Keeps [.meas] [] s (trigEvent s code mark) := by
  unfold trigEvent
  refine Keeps.foldl ?_ fun x30 a31 h32 => ?_
  · exact Keeps.refl _
  · extract_lets y33
    clear_value y33
    refine Keeps.ite ?_ ?_
    · exact h32
    · exact Keeps.step (updAdc_keeps _ _ _) h32 (by decide)

theorem updInj_keeps (s : State) (a : Nat) (q : Nat) (f : Inj → Inj) :
    Keeps [.meas] [] s (updInj s a q f) := by
  unfold updInj
  exact Keeps.step (updAdc_keeps _ _ _) (Keeps.refl _) (by decide)

theorem updMeas_keeps (s : State) (f : MeasSt → MeasSt) :
    Keeps [.meas] [] s (updMeas s f) := by
  unfold updMeas
  refine Keeps.step (B := [.meas]) (bi := []) (s := s)
      (.upd rfl fun g hg => by cases g <;> first | exact absurd hg (by decide) | rfl) ?_ (by decide)
  exact Keeps.refl _

theorem adcMark_keeps (s : State) (k : Nat) :
    Keeps [.meas] [] s (adcMark s k) := by
  unfold adcMark
  extract_lets y0
  refine Keeps.cut (s := y0) ?_ fun h30 => ?_
  · unfold y0
    exact Keeps.step (trigEvent_keeps _ _ _) (Keeps.refl _) (by decide)
  clear_value y0
  refine Keeps.foldl ?_ fun x31 a32 h33 => ?_
  · exact h30
  · refine Keeps.ite ?_ ?_
    · exact Keeps.step (updAdc_keeps _ _ _) h33 (by decide)
    · exact h33

theorem decCfgSet_keeps (s : State) (n : Nat) :
    Keeps [.meas] [] s (decCfgSet s n) := by
  unfold decCfgSet
  exact Keeps.step (decRestart_keeps _ _ _) (Keeps.refl _) (by decide)

theorem decSyncAt_keeps (s : State) (t : Nat) :
    Keeps [.meas] [] s (decSyncAt s t) := by
  unfold decSyncAt
  refine Keeps.foldl ?_ fun x0 a1 h2 => ?_
  · exact Keeps.step (updMeas_keeps _ _) (Keeps.refl _) (by decide)
  · exact Keeps.step (decRestart_keeps _ _ _) h2 (by decide)

theorem decSyncBody_keeps (a : Cmd) (s : State) :
    ResKeeps [.meas] [] s (decSyncBody a s) := by
  unfold decSyncBody
  exact ResKeeps.done (Keeps.step (updMeas_keeps _ _) (Keeps.refl _) (by decide))

theorem injStart_keeps (s : State) (a : Nat) (q : Nat) :
    Keeps [.meas] [P.ADC_INJ_STATUS] s (injStart s a q) := by
  unfold injStart
  extract_lets y0 y1
  clear_value y0
  refine Keeps.cut (s := y1) ?_ fun h30 => ?_
  · unfold y1
    exact Keeps.step (putN_keeps _ _ _ _) (Keeps.refl _) (by decide)
  clear_value y1
  refine Keeps.ite ?_ ?_
  · exact Keeps.step (updInj_keeps _ _ _ _) h30 (by decide)
  · exact Keeps.refl _

theorem pathConverted_keeps (s : State) (raw : Nat) :
    Keeps [.meas] [] s (pathConverted s raw) := by
  unfold pathConverted
  exact Keeps.step (updMeas_keeps _ _) (Keeps.refl _) (by decide)

theorem plausDecide_keeps (s : State) (k : Nat) :
    Keeps [.meas, .freeCtr] [P.ADC_PLAUS_SKIP] s (plausDecide s k) := by
  unfold plausDecide
  extract_lets y0 y1
  refine Keeps.cut (s := y0) ?_ fun h30 => ?_
  · unfold y0
    refine Keeps.foldl ?_ fun x31 a32 h33 => ?_
    · exact Keeps.refl _
    · refine Keeps.ite ?_ ?_
      · exact Keeps.step (incP_keeps _ _ _) h33 (by decide)
      · exact h33
  clear_value y0
  refine Keeps.cut (s := y1) ?_ fun h34 => ?_
  · unfold y1
    refine Keeps.foldl ?_ fun x35 a36 h37 => ?_
    · exact h30
    · exact Keeps.step (updAdc_keeps _ _ _) h37 (by decide)
  clear_value y1
  exact Keeps.step (updMeas_keeps _ _) h34 (by decide)

theorem plausMark_keeps (s : State) (m : Nat) :
    Keeps [.meas, .freeCtr] [P.ADC_PLAUS_SKIP] s (plausMark s m) := by
  unfold plausMark
  extract_lets y0
  refine Keeps.cut (s := y0) ?_ fun h30 => ?_
  · unfold y0
    refine Keeps.foldl ?_ fun x31 a32 h33 => ?_
    · exact Keeps.refl _
    · refine Keeps.ite ?_ ?_
      · exact h33
      · exact Keeps.step (plausDecide_keeps _ _) h33 (by decide)
  clear_value y0
  exact Keeps.step (updMeas_keeps _ _) h30 (by decide)

theorem ptStart_keeps (s : State) (v : Nat) :
    Keeps [.meas] [P.ADC_PT_RESULT] s (ptStart s v) := by
  unfold ptStart
  extract_lets y0 y1 y2
  clear_value y0 y1
  refine Keeps.cut (s := y2) ?_ fun h30 => ?_
  · unfold y2
    exact Keeps.step (putN_keeps _ _ _ _) (Keeps.refl _) (by decide)
  clear_value y2
  exact Keeps.step (updMeas_keeps _ _) h30 (by decide)

theorem queueResult_keeps (s : State) (rank : Nat) (w : Nat) :
    Keeps [.meas, .freeCtr] [P.ADC_Q_DROP, P.ADC_Q_TAIL] s (queueResult s rank w) := by
  unfold queueResult
  extract_lets y0 y1 y2 y3 y4 y5
  clear_value y0 y1 y2 y3 y4
  refine Keeps.cut (s := y5) ?_ fun h30 => ?_
  · unfold y5
    exact Keeps.step (updMeas_keeps _ _) (Keeps.refl _) (by decide)
  clear_value y5
  refine Keeps.ite ?_ ?_
  · exact Keeps.step (incP_keeps _ _ _) h30 (by decide)
  · exact Keeps.step (putN_keeps _ _ _ _) h30 (by decide)

theorem adcKick_keeps (s : State) (a : Nat) :
    Keeps [.meas] [P.ADC_INJ_STATUS] s (adcKick s a) := by
  unfold adcKick
  extract_lets y0 y1 y2
  clear_value y0 y2
  refine Keeps.cut (s := y1) ?_ fun h30 => ?_
  · unfold y1
    exact Keeps.step (regBegin_keeps _ _) (Keeps.refl _) (by decide)
  clear_value y1
  refine Keeps.ite ?_ ?_
  · exact Keeps.refl _
  · split
    · extract_lets y91 y92
      clear_value y92
      refine Keeps.cut (s := y91) ?_ fun h121 => ?_
      · unfold y91
        exact Keeps.step (injStart_keeps _ _ _) (Keeps.refl _) (by decide)
      clear_value y91
      exact Keeps.step (convStart_keeps _ _ _ _) h121 (by decide)
    · split
      · refine Keeps.ite ?_ ?_
        · refine Keeps.step (convStart_keeps _ _ _ _) ?_ (by decide)
          exact Keeps.step (updAdc_keeps _ _ _) (Keeps.refl _) (by decide)
        · exact Keeps.refl _
      · split
        · refine Keeps.ite ?_ ?_
          · exact Keeps.step (convStart_keeps _ _ _ _) (Keeps.refl _) (by decide)
          · refine Keeps.ite ?_ ?_
            · exact Keeps.step (convStart_keeps _ _ _ _) h30 (by decide)
            · exact h30
        · refine Keeps.ite ?_ ?_
          · exact Keeps.step (convStart_keeps _ _ _ _) h30 (by decide)
          · exact h30

theorem calBegin_keeps (s : State) (a : Nat) (full : Bool) :
    Keeps [.meas] [P.ADC_INJ_STATUS] s (calBegin s a full) := by
  unfold calBegin
  extract_lets y0
  clear_value y0
  exact Keeps.step (adcKick_keeps _ _) (Keeps.step (updAdc_keeps _ _ _) (Keeps.refl _) (by decide)) (by decide)

theorem convWake_keeps (s : State) (a : Nat) :
    Keeps [.tick, .flt, .time, .str, .chop, .meas] [P.ADC_INJ_STATUS] s (convWake s a) := by
  unfold convWake
  split
  · refine Keeps.ite ?_ ?_
    · exact Keeps.refl _
    · refine Keeps.ite ?_ ?_
      · exact Keeps.step (pathWake_keeps _ _) (Keeps.refl _) (by decide)
      · refine Keeps.step (adcKick_keeps _ _) ?_ (by decide)
        exact Keeps.step (advanceTo_keeps _ _) (Keeps.refl _) (by decide)
  · exact Keeps.refl _

theorem injReply_keeps (c : Option Cmd) (lost : Bool) (s : State) :
    Keeps [.host] [P.HOST_IRQ_CAUSE] s (injReply c lost s) := by
  unfold injReply
  split
  · exact Keeps.step (answer_keeps _ _ _ _ _ _) (Keeps.refl _) (by decide)
  · exact Keeps.refl _

theorem injTrigger_keeps (s : State) (a : Nat) (q : Nat) (due : Nat) (mark : Option Nat) :
    Keeps [.meas, .freeCtr] [P.ADC_INJ_LOST, P.ADC_INJ_STATUS] s (injTrigger s a q due mark).1 := by
  unfold injTrigger
  extract_lets y0 y1 y2 y3
  clear_value y1 y2 y3
  refine Keeps.cut (s := y0) ?_ fun h30 => ?_
  · unfold y0
    exact Keeps.step (pathWake_keeps _ _) (Keeps.refl _) (by decide)
  clear_value y0
  split
  · dsimp only
    exact h30
  · split
    · dsimp only
      exact Keeps.step (adcKick_keeps _ _) (Keeps.step (updInj_keeps _ _ _ _) h30 (by decide)) (by decide)
    · dsimp only
      exact Keeps.step (updInj_keeps _ _ _ _) h30 (by decide)
    · dsimp only
      exact Keeps.step (incP_keeps _ _ _) h30 (by decide)

theorem adcCalBody_keeps (op : Nat) (full : Bool) (c : Cmd) (s : State) :
    ResKeeps [.ops, .meas] [P.ADC_INJ_STATUS] s (adcCalBody op full c s) := by
  unfold adcCalBody
  extract_lets y0
  clear_value y0
  refine ResKeeps.check ?_
  refine ResKeeps.accepted ?_ fun x30 => ?_
  · exact Keeps.step (startOp_keeps _ _ _ _ _) (Keeps.refl _) (by decide)
  · exact Keeps.step (calBegin_keeps _ _ _) (Keeps.refl _) (by decide)

theorem adcInjectBody_keeps (c : Cmd) (s : State) :
    ResKeeps [.meas, .freeCtr] [P.ADC_INJ_LOST, P.ADC_INJ_STATUS] s (adcInjectBody c s) := by
  unfold adcInjectBody
  extract_lets y0 y1 y2 y3 y4
  clear_value y0 y1 y2 y3
  refine ResKeeps.cut (s := y4.1) ?_ fun h30 => ?_
  · unfold y4
    exact Keeps.step (injTrigger_keeps _ _ _ _ _) (Keeps.refl _) (by decide)
  clear_value y4
  refine ResKeeps.check ?_
  refine ResKeeps.ite ?_ ?_
  · show Keeps _ _ _ _
    exact h30
  · show Keeps _ _ _ _
    exact Keeps.step (updAdc_keeps _ _ _) (Keeps.refl _) (by decide)

theorem calEnd_keeps (s : State) (a : Nat) (op : Nat) (flag : Nat) (id : Nat) (m : Int) (x : Int) (bad : Option Int) :
    Keeps [.params, .ops, .host, .str, .meas, .tally, .freeCtr] [] s (calEnd s a op flag id m x bad) := by
  unfold calEnd
  extract_lets y0 y1 y2
  refine Keeps.cut (s := y0) ?_ fun h30 => ?_
  · unfold y0
    exact Keeps.step (updAdc_keeps _ _ _) (Keeps.refl _) (by rfl)
  clear_value y0
  refine Keeps.cut (s := y1) ?_ fun h31 => ?_
  · unfold y1
    split
    · exact h30
    · refine Keeps.step (tallyTouch_keeps _ _) ?_ (by rfl)
      exact Keeps.step (orP_keeps _ _ _ _) (Keeps.step (putI_keeps _ _ _ _) h30 (by rfl)) (by rfl)
  clear_value y1
  refine Keeps.cut (s := y2) ?_ fun h32 => ?_
  · unfold y2
    split
    · exact h31
    · split
      · exact Keeps.step (completeErr_keeps _ _ _) h31 (by rfl)
      · exact Keeps.step (completeOk_keeps _ _ _) h31 (by rfl)
  clear_value y2
  exact Keeps.step (adcKick_keeps _ _) h32 (by rfl)

theorem execAdcCalFull_keeps (c : Cmd) (s : State) :
    OutKeeps [.ops, .host, .flt, .reel, .tbus, .meas, .freeCtr] [P.ADC_INJ_STATUS, P.HOST_IRQ_CAUSE, P.REEL_LOST,
        P.REEL_QUEUE_HIGH, P.REEL_TRIG_TICK] s (execAdcCalFull c s) := by
  unfold execAdcCalFull
  refine OutKeeps.ends reelObserve_keeps (by decide) ?_
  refine Keeps.runCmd goodPacket_keeps answer_keeps (by decide) ?_ fun x0 => ?_
  · exact Keeps.refl _
  · exact ResKeeps.mono (adcCalBody_keeps _ _ _ _) (Keeps.refl _) (by decide)

theorem execAdcCalFullDone_keeps (adc : Fin 2) (s : State) :
    OutKeeps [.params, .ops, .host, .str, .reel, .tbus, .meas, .tally, .freeCtr] [] s (execAdcCalFullDone adc s) := by
  unfold execAdcCalFullDone
  extract_lets y0 y1
  clear_value y0 y1
  refine OutKeeps.clocked ?_ ?_
  · exact Keeps.refl _
  · split
    · exact OutKeeps.ends reelObserve_keeps (by decide) (Keeps.refl _)
    · extract_lets y90 y91
      clear_value y90 y91
      refine OutKeeps.ends reelObserve_keeps (by decide) ?_
      exact Keeps.step (calEnd_keeps _ _ _ _ _ _ _ _) (Keeps.refl _) (by rfl)

theorem execAdcCalZero_keeps (c : Cmd) (s : State) :
    OutKeeps [.ops, .host, .flt, .reel, .tbus, .meas, .freeCtr] [P.ADC_INJ_STATUS, P.HOST_IRQ_CAUSE, P.REEL_LOST,
        P.REEL_QUEUE_HIGH, P.REEL_TRIG_TICK] s (execAdcCalZero c s) := by
  unfold execAdcCalZero
  refine OutKeeps.ends reelObserve_keeps (by decide) ?_
  refine Keeps.runCmd goodPacket_keeps answer_keeps (by decide) ?_ fun x0 => ?_
  · exact Keeps.refl _
  · exact ResKeeps.mono (adcCalBody_keeps _ _ _ _) (Keeps.refl _) (by decide)

theorem execAdcCalZeroDone_keeps (adc : Fin 2) (s : State) :
    OutKeeps [.params, .ops, .host, .str, .reel, .tbus, .meas, .tally, .freeCtr] [] s (execAdcCalZeroDone adc s) := by
  unfold execAdcCalZeroDone
  extract_lets y0
  clear_value y0
  refine OutKeeps.clocked ?_ ?_
  · exact Keeps.refl _
  · split
    · exact OutKeeps.ends reelObserve_keeps (by decide) (Keeps.refl _)
    · extract_lets y90
      clear_value y90
      refine OutKeeps.ends reelObserve_keeps (by decide) ?_
      exact Keeps.step (calEnd_keeps _ _ _ _ _ _ _ _) (Keeps.refl _) (by rfl)

theorem execAdcInject_keeps (c : Cmd) (s : State) :
    OutKeeps [.host, .flt, .reel, .tbus, .meas, .freeCtr] [P.ADC_INJ_LOST, P.ADC_INJ_STATUS, P.HOST_IRQ_CAUSE,
        P.REEL_LOST, P.REEL_QUEUE_HIGH, P.REEL_TRIG_TICK] s (execAdcInject c s) := by
  unfold execAdcInject
  refine OutKeeps.ends reelObserve_keeps (by decide) ?_
  refine Keeps.runCmd goodPacket_keeps answer_keeps (by decide) ?_ fun x0 => ?_
  · exact Keeps.refl _
  · exact ResKeeps.mono (adcInjectBody_keeps _ _) (Keeps.refl _) (by decide)

theorem execDecSync_keeps (c : Cmd) (s : State) :
    OutKeeps [.host, .flt, .reel, .tbus, .meas, .freeCtr] [P.HOST_IRQ_CAUSE, P.REEL_LOST, P.REEL_QUEUE_HIGH,
        P.REEL_TRIG_TICK] s (execDecSync c s) := by
  unfold execDecSync
  refine OutKeeps.ends reelObserve_keeps (by decide) ?_
  refine Keeps.runCmd goodPacket_keeps answer_keeps (by decide) ?_ fun x0 => ?_
  · exact Keeps.refl _
  · exact ResKeeps.mono (decSyncBody_keeps _ _) (Keeps.refl _) (by decide)

theorem execDsyncFall_keeps (s : State) :
    OutKeeps [.host, .reel, .tbus, .meas, .freeCtr] [P.DEC_SYNC_COUNT, P.HOST_IRQ_CAUSE, P.REEL_LOST,
        P.REEL_QUEUE_HIGH, P.REEL_TRIG_TICK] s (execDsyncFall s) := by
  unfold execDsyncFall
  extract_lets y0
  clear_value y0
  refine OutKeeps.clocked ?_ ?_
  · exact Keeps.refl _
  · refine OutKeeps.ite ?_ ?_
    · refine OutKeeps.ends reelObserve_keeps (by decide) ?_
      refine Keeps.step (incP_keeps _ _ _) ?_ (by decide)
      exact Keeps.step (decSyncAt_keeps _ _) (Keeps.refl _) (by decide)
    · exact OutKeeps.ends reelObserve_keeps (by decide) (Keeps.refl _)

theorem deliver_keeps (s : State) (r : Result) :
    Keeps [.host, .reel, .tbus, .meas, .freeCtr] [P.ADC_LATEST, P.ADC_Q_DROP, P.ADC_Q_TAIL, P.HOST_IRQ_CAUSE,
        P.REEL_LOST, P.REEL_MASK_VIOL, P.REEL_QUEUE_HIGH, P.REEL_TRIG_TICK] s (deliver s r) := by
  unfold deliver
  extract_lets y0 y1
  refine Keeps.cut (s := y0) ?_ fun h30 => ?_
  · unfold y0
    refine Keeps.ite ?_ ?_
    · exact Keeps.step (putN_keeps _ _ _ _) (Keeps.refl _) (by decide)
    · exact Keeps.refl _
  clear_value y0
  refine Keeps.cut (s := y1) ?_ fun h31 => ?_
  · unfold y1
    refine Keeps.ite ?_ ?_
    · exact Keeps.step (queueResult_keeps _ _ _) h30 (by decide)
    · exact h30
  clear_value y1
  exact Keeps.step (reelResult_keeps _ _ _ _) h31 (by decide)

theorem decMark_keeps (s : State) :
    Keeps [.host, .flt, .arms, .cells, .lanes, .str, .belay, .reel, .tbus, .meas, .freeCtr] [P.DEC_SYNC_COUNT,
        P.FLT_LOST, P.HOST_IRQ_CAUSE, P.REEL_LOST, P.REEL_QUEUE_HIGH, P.REEL_TRIG_TICK,
        P.STR_TRACE_LOST] s (decMark s) := by
  unfold decMark
  extract_lets y0
  refine Keeps.cut (s := y0) ?_ fun h30 => ?_
  · unfold y0
    refine Keeps.foldl ?_ fun x61 a62 h63 => ?_
    · exact Keeps.refl _
    · extract_lets y64 y65 y66 y67
      clear_value y64 y65 y66
      refine Keeps.cut (s := y67) ?_ fun h94 => ?_
      · unfold y67
        exact Keeps.step (updDec_keeps _ _ _) h63 (by decide)
      clear_value y67
      refine Keeps.ite ?_ ?_
      · refine Keeps.ite ?_ ?_
        · exact Keeps.step (causeGone_keeps _ _ _) h94 (by decide)
        · exact Keeps.step (raiseFault_keeps _ _ _) h94 (by decide)
      · exact h63
  clear_value y0
  refine Keeps.ite ?_ ?_
  · refine Keeps.step (incP_keeps _ _ _) ?_ (by decide)
    exact Keeps.step (decSyncAt_keeps _ _) (Keeps.step (updMeas_keeps _ _) h30 (by decide)) (by decide)
  · exact h30

theorem decOutput_keeps (s : State) (n : Nat) (y : Int) (sat : Nat) :
    Keeps [.host, .reel, .tbus, .meas, .freeCtr] [P.ADC_LATEST, P.ADC_Q_DROP, P.ADC_Q_TAIL, P.DEC_SAT,
        P.HOST_IRQ_CAUSE, P.REEL_LOST, P.REEL_MASK_VIOL, P.REEL_QUEUE_HIGH,
        P.REEL_TRIG_TICK] s (decOutput s n y sat) := by
  unfold decOutput
  extract_lets y0 y1 y2 y3 y4 y5 y6 y7 y8 y9
  clear_value y0 y1 y2 y3 y4 y5 y6 y7
  refine Keeps.cut (s := y8) ?_ fun h30 => ?_
  · unfold y8
    exact Keeps.step (updDec_keeps _ _ _) (Keeps.refl _) (by decide)
  clear_value y8
  refine Keeps.cut (s := y9) ?_ fun h31 => ?_
  · unfold y9
    exact Keeps.step (addP_keeps _ _ _ _) h30 (by decide)
  clear_value y9
  exact Keeps.step (deliver_keeps _ _) h31 (by decide)

theorem execPathTestDone_keeps (s : State) :
    OutKeeps [.host, .flt, .arms, .cells, .lanes, .str, .belay, .reel, .tbus, .meas, .freeCtr] [P.ADC_PT_RESULT,
        P.FLT_LOST, P.HOST_IRQ_CAUSE, P.REEL_LOST, P.REEL_QUEUE_HIGH, P.REEL_TRIG_TICK,
        P.STR_TRACE_LOST] s (execPathTestDone s) := by
  unfold execPathTestDone
  extract_lets y0
  refine OutKeeps.cut (s := y0) ?_ fun h30 => ?_
  · unfold y0
    exact Keeps.step (updMeas_keeps _ _) (Keeps.refl _) (by decide)
  clear_value y0
  refine OutKeeps.clocked ?_ ?_
  · exact Keeps.refl _
  · split
    · extract_lets y91 y92 y93
      clear_value y91 y92
      refine OutKeeps.cut (s := y93) ?_ fun h121 => ?_
      · unfold y93
        exact Keeps.step (putN_keeps _ _ _ _) h30 (by decide)
      clear_value y93
      refine OutKeeps.ite ?_ ?_
      · refine OutKeeps.ends reelObserve_keeps (by decide) ?_
        refine Keeps.ite ?_ ?_
        · exact Keeps.step (causeGone_keeps _ _ _) h121 (by decide)
        · exact Keeps.step (raiseFault_keeps _ _ _) h121 (by decide)
      · exact OutKeeps.ends reelObserve_keeps (by decide) (Keeps.refl _)
    · exact OutKeeps.ends reelObserve_keeps (by decide) (Keeps.refl _)

theorem plausCompare_keeps (s : State) (p : Nat) (k : Nat) (d : Int) :
    Keeps [.host, .flt, .arms, .cells, .lanes, .str, .belay, .reel, .tbus, .meas, .freeCtr] [P.ADC_PLAUS_DIFF,
        P.FLT_LOST, P.HOST_IRQ_CAUSE, P.REEL_LOST, P.REEL_QUEUE_HIGH, P.REEL_TRIG_TICK,
        P.STR_TRACE_LOST] s (plausCompare s p k d) := by
  unfold plausCompare
  extract_lets y0 y1 y2 y3
  clear_value y1 y2
  refine Keeps.cut (s := y0) ?_ fun h30 => ?_
  · unfold y0
    exact Keeps.step (putI_keeps _ _ _ _) (Keeps.refl _) (by decide)
  clear_value y0
  refine Keeps.cut (s := y3) ?_ fun h31 => ?_
  · unfold y3
    exact Keeps.step (updMeas_keeps _ _) h30 (by decide)
  clear_value y3
  refine Keeps.ite ?_ ?_
  · exact Keeps.step (causeGone_keeps _ _ _) h31 (by decide)
  · refine Keeps.ite ?_ ?_
    · exact Keeps.step (raiseFault_keeps _ _ _) h31 (by decide)
    · exact h31

theorem plausResult_keeps (s : State) (a : Nat) (ch : Nat) (k : Nat) (code : Nat) :
    Keeps [.host, .flt, .arms, .cells, .lanes, .str, .belay, .reel, .tbus, .meas, .freeCtr] [P.ADC_PLAUS_DIFF,
        P.FLT_LOST, P.HOST_IRQ_CAUSE, P.REEL_LOST, P.REEL_QUEUE_HIGH, P.REEL_TRIG_TICK,
        P.STR_TRACE_LOST] s (plausResult s a ch k code) := by
  unfold plausResult
  extract_lets y0 y1 y2
  clear_value y1 y2
  refine Keeps.cut (s := y0) ?_ fun h30 => ?_
  · unfold y0
    exact Keeps.step (updAdc_keeps _ _ _) (Keeps.refl _) (by decide)
  clear_value y0
  refine Keeps.ite ?_ ?_
  · exact h30
  · refine Keeps.foldl ?_ fun x31 a32 h33 => ?_
    · exact h30
    · refine Keeps.ite ?_ ?_
      · exact Keeps.step (plausCompare_keeps _ _ _ _) h33 (by decide)
      · exact h33

theorem regTrigger_keeps (s : State) (a : Nat) (mark : Option Nat) :
    Keeps [.host, .flt, .arms, .cells, .lanes, .str, .belay, .reel, .tbus, .meas, .freeCtr] [P.ADC_INJ_STATUS,
        P.ADC_OVERRUN, P.ADC_REG_SKIP, P.FLT_LOST, P.HOST_IRQ_CAUSE, P.REEL_LOST, P.REEL_QUEUE_HIGH,
        P.REEL_TRIG_TICK, P.STR_TRACE_LOST] s (regTrigger s a mark) := by
  unfold regTrigger
  extract_lets y0 y1 y2
  clear_value y1 y2
  refine Keeps.cut (s := y0) ?_ fun h30 => ?_
  · unfold y0
    exact Keeps.step (pathWake_keeps _ _) (Keeps.refl _) (by decide)
  clear_value y0
  refine Keeps.ite ?_ ?_
  · exact h30
  · refine Keeps.ite ?_ ?_
    · exact Keeps.step (incP_keeps _ _ _) h30 (by decide)
    · refine Keeps.ite ?_ ?_
      · refine Keeps.step (raiseFault_keeps _ _ _) ?_ (by decide)
        exact Keeps.step (incP_keeps _ _ _) (Keeps.step (updAdc_keeps _ _ _) h30 (by decide)) (by decide)
      · exact Keeps.step (adcKick_keeps _ _) (Keeps.step (updAdc_keeps _ _ _) h30 (by decide)) (by decide)

theorem stuckCheck_keeps (s : State) (n : Nat) (run : Nat) :
    Keeps [.host, .flt, .arms, .cells, .lanes, .str, .belay, .reel, .tbus, .meas, .freeCtr] [P.FLT_LOST,
        P.HOST_IRQ_CAUSE, P.REEL_LOST, P.REEL_QUEUE_HIGH, P.REEL_TRIG_TICK,
        P.STR_TRACE_LOST] s (stuckCheck s n run) := by
  unfold stuckCheck
  extract_lets y0
  clear_value y0
  refine Keeps.ite ?_ ?_
  · refine Keeps.step (raiseFault_keeps _ _ _) ?_ (by decide)
    exact Keeps.step (updDec_keeps _ _ _) (Keeps.refl _) (by decide)
  · exact Keeps.refl _

theorem adcResult_keeps (s : State) (a : Nat) (ch : Nat) (raw : Nat) (count : Nat) (mark : Option Nat) (inj : Bool)
      (delayed : Bool) :
    Keeps [.host, .flt, .arms, .cells, .lanes, .str, .belay, .reel, .tbus, .meas, .freeCtr] [P.ADC_LATEST,
        P.ADC_PLAUS_DIFF, P.ADC_Q_DROP, P.ADC_Q_TAIL, P.FLT_LOST, P.HOST_IRQ_CAUSE, P.REEL_LOST, P.REEL_MASK_VIOL,
        P.REEL_QUEUE_HIGH, P.REEL_TRIG_TICK, P.STR_TRACE_LOST] s (adcResult s a ch raw count mark inj delayed) := by
  unfold adcResult
  extract_lets y0 y1 y2 y3
  clear_value y0 y1 y2
  refine Keeps.cut (s := y3) ?_ fun h30 => ?_
  · unfold y3
    exact Keeps.step (deliver_keeps _ _) (Keeps.refl _) (by decide)
  clear_value y3
  split
  · refine Keeps.ite ?_ ?_
    · exact h30
    · exact Keeps.step (plausResult_keeps _ _ _ _ _) h30 (by decide)
  · exact h30

theorem decBit_keeps (s : State) (n : Nat) (b : Bool) :
    Keeps [.host, .flt, .reel, .tbus, .meas, .freeCtr] [P.ADC_LATEST, P.ADC_Q_DROP, P.ADC_Q_TAIL, P.DEC_SAT,
        P.HOST_IRQ_CAUSE, P.REEL_LOST, P.REEL_MASK_VIOL, P.REEL_QUEUE_HIGH, P.REEL_TRIG_TICK] s (decBit s n b) := by
  unfold decBit
  extract_lets y0 y1 y2 y3 y4 y5 y6
  clear_value y0 y1 y4 y5
  refine Keeps.cut (s := y2) ?_ fun h30 => ?_
  · unfold y2
    exact Keeps.step (updDec_keeps _ _ _) (Keeps.refl _) (by decide)
  clear_value y2
  refine Keeps.cut (s := y3) ?_ fun h31 => ?_
  · unfold y3
    refine Keeps.ite ?_ ?_
    · exact Keeps.step (causeGone_keeps _ _ _) (Keeps.step (updDec_keeps _ _ _) h30 (by decide)) (by decide)
    · exact h30
  clear_value y3
  refine Keeps.cut (s := y6) ?_ fun h32 => ?_
  · unfold y6
    exact Keeps.step (updDec_keeps _ _ _) h31 (by decide)
  clear_value y6
  split
  · exact Keeps.step (decOutput_keeps _ _ _ _) h32 (by decide)
  · refine Keeps.step (addP_keeps _ _ _ _) ?_ (by decide)
    refine Keeps.ite ?_ ?_
    · exact h32
    · exact Keeps.step (updDec_keeps _ _ _) h32 (by decide)

theorem execAdcSequenceTrigger_keeps (adc : Fin 2) (seq : Fin 9) (s : State) :
    OutKeeps [.tick, .host, .flt, .time, .arms, .cells, .lanes, .str, .belay, .reel, .tbus, .chop, .meas,
        .freeCtr] [P.ADC_INJ_LOST, P.ADC_INJ_STATUS, P.ADC_OVERRUN, P.ADC_REG_SKIP, P.FLT_LOST, P.HOST_IRQ_CAUSE,
        P.REEL_LOST, P.REEL_QUEUE_HIGH, P.REEL_TRIG_TICK, P.STR_TRACE_LOST] s (execAdcSequenceTrigger adc seq s) := by
  unfold execAdcSequenceTrigger
  extract_lets y0
  clear_value y0
  refine OutKeeps.clocked ?_ ?_
  · exact Keeps.refl _
  · split
    · exact OutKeeps.ends reelObserve_keeps (by decide) (Keeps.refl _)
    · extract_lets y90 y91
      refine OutKeeps.cut (s := y90) ?_ fun h120 => ?_
      · unfold y90
        exact Keeps.step (advanceTo_keeps _ _) (Keeps.refl _) (by decide)
      clear_value y90
      refine OutKeeps.cut (s := y91) ?_ fun h121 => ?_
      · unfold y91
        exact Keeps.step (updAdc_keeps _ _ _) h120 (by decide)
      clear_value y91
      refine OutKeeps.ends reelObserve_keeps (by decide) ?_
      refine Keeps.ite ?_ ?_
      · refine Keeps.step (injReply_keeps _ _ _) ?_ (by decide)
        exact Keeps.step (injTrigger_keeps _ _ _ _ _) h121 (by decide)
      · exact Keeps.step (regTrigger_keeps _ _ _) h121 (by decide)

theorem execDecSlot_keeps (channel : Fin 16) (bits : List Bool) (s : State) :
    OutKeeps [.tick, .host, .flt, .time, .arms, .cells, .lanes, .str, .belay, .reel, .tbus, .chop, .meas,
        .freeCtr] [P.ADC_LATEST, P.ADC_Q_DROP, P.ADC_Q_TAIL, P.DEC_SAT, P.FLT_LOST, P.HOST_IRQ_CAUSE, P.REEL_LOST,
        P.REEL_MASK_VIOL, P.REEL_QUEUE_HIGH, P.REEL_TRIG_TICK, P.STR_TRACE_LOST] s (execDecSlot channel bits s) := by
  unfold execDecSlot
  extract_lets y0 y1 y2
  clear_value y0 y1
  refine OutKeeps.cut (s := y2) ?_ fun h30 => ?_
  · unfold y2
    exact Keeps.step (advanceTo_keeps _ _) (Keeps.refl _) (by decide)
  clear_value y2
  refine OutKeeps.clocked ?_ ?_
  · exact Keeps.refl _
  · refine OutKeeps.ite ?_ ?_
    · refine OutKeeps.ends reelObserve_keeps (by decide) ?_
      refine Keeps.foldl ?_ fun x151 a152 h153 => ?_
      · exact h30
      · extract_lets y154
        refine Keeps.cut (s := y154) ?_ fun h184 => ?_
        · unfold y154
          exact Keeps.step (decBit_keeps _ _ _) h153 (by decide)
        clear_value y154
        exact Keeps.step (stuckCheck_keeps _ _ _) h184 (by decide)
    · exact OutKeeps.ends reelObserve_keeps (by decide) (Keeps.refl _)

theorem execDecStuck_keeps (channel : Fin 16) (s : State) :
    OutKeeps [.host, .flt, .arms, .cells, .lanes, .str, .belay, .reel, .tbus, .meas, .freeCtr] [P.FLT_LOST,
        P.HOST_IRQ_CAUSE, P.REEL_LOST, P.REEL_QUEUE_HIGH, P.REEL_TRIG_TICK,
        P.STR_TRACE_LOST] s (execDecStuck channel s) := by
  unfold execDecStuck
  extract_lets y0
  clear_value y0
  refine OutKeeps.clocked ?_ ?_
  · exact Keeps.refl _
  · refine OutKeeps.ends reelObserve_keeps (by decide) ?_
    refine Keeps.ite ?_ ?_
    · exact Keeps.step (stuckCheck_keeps _ _ _) (Keeps.refl _) (by decide)
    · exact Keeps.refl _

theorem injConverted_keeps (s : State) (a : Nat) (q : Nat) (ch : Nat) (raw : Nat) :
    Keeps [.host, .flt, .arms, .cells, .lanes, .str, .belay, .reel, .tbus, .meas, .freeCtr] [P.ADC_LATEST,
        P.ADC_PLAUS_DIFF, P.ADC_Q_DROP, P.ADC_Q_TAIL, P.FLT_LOST, P.HOST_IRQ_CAUSE, P.REEL_LOST, P.REEL_MASK_VIOL,
        P.REEL_QUEUE_HIGH, P.REEL_TRIG_TICK, P.STR_TRACE_LOST] s (injConverted s a q ch raw) := by
  unfold injConverted
  extract_lets y0 y1 y2 y3
  clear_value y0 y3
  refine Keeps.cut (s := y1) ?_ fun h30 => ?_
  · unfold y1
    exact Keeps.step (adcResult_keeps _ _ _ _ _ _ _ _) (Keeps.refl _) (by decide)
  clear_value y1
  refine Keeps.cut (s := y2) ?_ fun h31 => ?_
  · unfold y2
    exact Keeps.step (updAdc_keeps _ _ _) h30 (by decide)
  clear_value y2
  refine Keeps.ite ?_ ?_
  · exact Keeps.step (updInj_keeps _ _ _ _) h30 (by decide)
  · split
    · exact Keeps.step (updInj_keeps _ _ _ _) h31 (by decide)
    · exact Keeps.step (updInj_keeps _ _ _ _) h31 (by decide)

theorem regConverted_keeps (s : State) (a : Nat) (ch : Nat) (raw : Nat) :
    Keeps [.host, .flt, .arms, .cells, .lanes, .str, .belay, .reel, .tbus, .meas, .freeCtr] [P.ADC_LATEST,
        P.ADC_PLAUS_DIFF, P.ADC_Q_DROP, P.ADC_Q_TAIL, P.FLT_LOST, P.HOST_IRQ_CAUSE, P.REEL_LOST, P.REEL_MASK_VIOL,
        P.REEL_QUEUE_HIGH, P.REEL_TRIG_TICK, P.STR_TRACE_LOST] s (regConverted s a ch raw) := by
  unfold regConverted
  extract_lets y0 y1 y2
  clear_value y0
  refine Keeps.cut (s := y1) ?_ fun h30 => ?_
  · unfold y1
    exact Keeps.step (adcResult_keeps _ _ _ _ _ _ _ _) (Keeps.refl _) (by decide)
  clear_value y1
  refine Keeps.cut (s := y2) ?_ fun h31 => ?_
  · unfold y2
    exact Keeps.step (updAdc_keeps _ _ _) h30 (by decide)
  clear_value y2
  refine Keeps.ite ?_ ?_
  · exact h30
  · refine Keeps.ite ?_ ?_
    · exact Keeps.step (updAdc_keeps _ _ _) h30 (by decide)
    · refine Keeps.ite ?_ ?_
      · exact Keeps.step (causeGone_keeps _ _ _) h31 (by decide)
      · exact h31

theorem execAdcConversionEnd_keeps (adc : Fin 2) (raw : BitVec 16) (s : State) :
    OutKeeps [.tick, .host, .flt, .time, .arms, .cells, .lanes, .str, .belay, .reel, .tbus, .chop, .meas,
        .freeCtr] [P.ADC_INJ_STATUS, P.ADC_LATEST, P.ADC_PLAUS_DIFF, P.ADC_Q_DROP, P.ADC_Q_TAIL, P.FLT_LOST,
        P.HOST_IRQ_CAUSE, P.REEL_LOST, P.REEL_MASK_VIOL, P.REEL_QUEUE_HIGH, P.REEL_TRIG_TICK, P.SAFE_FDC_LAST,
        P.STR_TRACE_LOST] s (execAdcConversionEnd adc raw s) := by
  unfold execAdcConversionEnd
  extract_lets y0 y1 y2
  clear_value y0 y1
  refine OutKeeps.cut (s := y2) ?_ fun h30 => ?_
  · unfold y2
    exact Keeps.step (convWake_keeps _ _) (Keeps.refl _) (by decide)
  clear_value y2
  refine OutKeeps.clocked ?_ ?_
  · exact Keeps.refl _
  · split
    · exact OutKeeps.ends reelObserve_keeps (by decide) h30
    · extract_lets y91 y92 y93 y94
      refine OutKeeps.cut (s := y91) ?_ fun h121 => ?_
      · unfold y91
        exact Keeps.step (advanceTo_keeps _ _) h30 (by decide)
      clear_value y91
      refine OutKeeps.cut (s := y92) ?_ fun h122 => ?_
      · unfold y92
        exact Keeps.step (updAdc_keeps _ _ _) h121 (by decide)
      clear_value y92
      refine OutKeeps.cut (s := y93) ?_ fun h123 => ?_
      · unfold y93
        split
        · exact h122
        · refine Keeps.ite ?_ ?_
          · exact Keeps.step (fdcResult_keeps _ _ _) h122 (by decide)
          · exact h122
      clear_value y93
      refine OutKeeps.cut (s := y94) ?_ fun h124 => ?_
      · unfold y94
        split
        · exact Keeps.step (regConverted_keeps _ _ _ _) h123 (by decide)
        · exact Keeps.step (injConverted_keeps _ _ _ _ _) h123 (by decide)
        · exact Keeps.step (updAdc_keeps _ _ _) h123 (by decide)
        · exact Keeps.step (pathConverted_keeps _ _) h123 (by decide)
      clear_value y94
      exact OutKeeps.ends reelObserve_keeps (by decide) (Keeps.step (adcKick_keeps _ _) h124 (by decide))

end Sys2Proof.Machine
end

