-- ==== Sys2Proof/Laws/ChopperFrame.lean ====
section
/-! SUPPORT. What each operation of `Machine/Chopper.lean` may change, and that it changes nothing else. -/

namespace Sys2Proof.Machine

theorem chopCleared_keeps (s : State) (code : Nat) (inst : Nat) :
    Keeps [.chop] [P.CHOP_TRIP_RUN] s (chopCleared s code inst) := by
  unfold chopCleared
  extract_lets y0
  refine Keeps.ite ?_ ?_
  · unfold y0
    extract_lets y30 y31 y32
    clear_value y30 y31
    refine Keeps.cut (s := y32) ?_ fun h60 => ?_
    · unfold y32
      exact Keeps.step (updLeg_keeps _ _ _) (Keeps.refl _) (by decide)
    clear_value y32
    refine Keeps.ite ?_ ?_
    · exact Keeps.step (putN_keeps _ _ _ _) h60 (by decide)
    · exact h60
  · refine Keeps.ite ?_ ?_
    · unfold y0
      extract_lets y61 y62 y63
      clear_value y61 y62
      refine Keeps.cut (s := y63) ?_ fun h91 => ?_
      · unfold y63
        exact Keeps.step (updLeg_keeps _ _ _) (Keeps.refl _) (by decide)
      clear_value y63
      refine Keeps.ite ?_ ?_
      · exact Keeps.step (putN_keeps _ _ _ _) h91 (by decide)
      · exact h91
    · refine Keeps.ite ?_ ?_
      · refine Keeps.foldl ?_ fun x92 a93 h94 => ?_
        · exact Keeps.refl _
        · refine Keeps.ite ?_ ?_
          · unfold y0
            extract_lets y95 y96 y97
            clear_value y95 y96
            refine Keeps.cut (s := y97) ?_ fun h125 => ?_
            · unfold y97
              exact Keeps.step (updLeg_keeps _ _ _) h94 (by decide)
            clear_value y97
            refine Keeps.ite ?_ ?_
            · exact Keeps.step (putN_keeps _ _ _ _) h125 (by decide)
            · exact h125
          · exact h94
      · exact Keeps.refl _

theorem chopForceSet_keeps (s : State) (n : Nat) :
    Keeps [.chop] [] s (chopForceSet s n) := by
  unfold chopForceSet
  exact Keeps.step (updLeg_keeps _ _ _) (Keeps.refl _) (by decide)

theorem chopMark_keeps (s : State) :
    Keeps [.chop] [] s (chopMark s) := by
  unfold chopMark
  refine Keeps.foldl ?_ fun x0 a1 h2 => ?_
  · exact Keeps.refl _
  · refine Keeps.ite ?_ ?_
    · exact Keeps.step (updLeg_keeps _ _ _) h2 (by decide)
    · exact h2

theorem chopModeSet_keeps (s : State) (n : Nat) :
    Keeps [.chop] [] s (chopModeSet s n) := by
  unfold chopModeSet
  extract_lets y0 y1
  clear_value y0
  refine Keeps.cut (s := y1) ?_ fun h30 => ?_
  · unfold y1
    exact Keeps.step (updLeg_keeps _ _ _) (Keeps.refl _) (by decide)
  clear_value y1
  refine Keeps.ite ?_ ?_
  · exact Keeps.step (updLeg_keeps _ _ _) h30 (by decide)
  · exact Keeps.step (updLeg_keeps _ _ _) h30 (by decide)

theorem cmpSelftestBody_keeps (c : Cmd) (s : State) :
    ResKeeps [.ops, .chop] [] s (cmpSelftestBody c s) := by
  unfold cmpSelftestBody
  extract_lets y0 y1
  clear_value y0 y1
  refine ResKeeps.check ?_
  refine ResKeeps.accepted ?_ fun x30 => ?_
  · refine Keeps.step (updLeg_keeps _ _ _) ?_ (by decide)
    exact Keeps.step (startOp_keeps _ _ _ _ _) (Keeps.refl _) (by decide)
  · dsimp only [id]
    exact Keeps.refl _

theorem ghTurnOff_keeps (s : State) (n : Nat) :
    Keeps [.chop] [] s (ghTurnOff s n) := by
  unfold ghTurnOff
  exact Keeps.step (updLeg_keeps _ _ _) (Keeps.refl _) (by decide)

theorem glTurnOff_keeps (s : State) (n : Nat) :
    Keeps [.chop] [] s (glTurnOff s n) := by
  unfold glTurnOff
  exact Keeps.step (updLeg_keeps _ _ _) (Keeps.refl _) (by decide)

theorem scOpen_keeps (s : State) (leg : Nat) (e : Nat) :
    Keeps [.chop] [] s (scOpen s leg e) := by
  unfold scOpen
  extract_lets y0
  clear_value y0
  refine Keeps.step (B := [.chop]) (bi := []) (s := s)
      (.upd rfl fun g hg => by cases g <;> first | exact absurd hg (by decide) | rfl) ?_ (by decide)
  exact Keeps.refl _

theorem chopCommit_keeps (s : State) (n : Nat) :
    Keeps [.params, .staged, .armedG, .str, .tally, .freeCtr] [] s (chopCommit s n) := by
  unfold chopCommit
  extract_lets y0
  refine Keeps.cut (s := y0) ?_ fun h30 => ?_
  · unfold y0
    refine Keeps.foldl ?_ fun x61 a62 h63 => ?_
    · exact Keeps.refl _
    · split
      · extract_lets y94
        refine Keeps.cut (s := y94) ?_ fun h124 => ?_
        · unfold y94
          exact Keeps.step (putP_keeps _ _ _ _) h63 (by rfl)
        clear_value y94
        refine Keeps.step (B := [.staged]) (bi := []) (s := y94)
            (.upd rfl fun g hg => by cases g <;> first | exact absurd hg (by decide) | rfl) ?_ (by decide)
        exact h124
      · exact h63
  clear_value y0
  refine Keeps.ite ?_ ?_
  · refine Keeps.step (tallyStale_keeps _) ?_ (by rfl)
    refine Keeps.step (B := [.armedG]) (bi := []) (s := y0)
        (.upd rfl fun g hg => by cases g <;> first | exact absurd hg (by decide) | rfl) ?_ (by decide)
    exact h30
  · exact Keeps.refl _

theorem undoOn_keeps (s : State) (n : Nat) :
    Keeps [.flt, .chop] [P.CHOP_IL_COUNT] s (undoOn s n) := by
  unfold undoOn
  split
  · exact Keeps.refl _
  · extract_lets y30
    refine Keeps.cut (s := y30) ?_ fun h60 => ?_
    · unfold y30
      exact Keeps.step (updLeg_keeps _ _ _) (Keeps.refl _) (by decide)
    clear_value y30
    refine Keeps.ite ?_ ?_
    · exact Keeps.refl _
    · refine Keeps.ite ?_ ?_
      · exact h60
      · exact Keeps.step (causeGone_keeps _ _ _) (Keeps.step (putN_keeps _ _ _ _) h60 (by decide)) (by decide)

theorem legOff_keeps (s : State) (n : Nat) :
    Keeps [.flt, .chop] [P.CHOP_IL_COUNT] s (legOff s n) := by
  unfold legOff
  exact Keeps.step (updLeg_keeps _ _ _) (Keeps.step (undoOn_keeps _ _) (Keeps.refl _) (by decide)) (by decide)

theorem legLatch_keeps (s : State) (n : Nat) (f : Leg → Leg) :
    Keeps [.flt, .chop] [P.CHOP_IL_COUNT] s (legLatch s n f) := by
  unfold legLatch
  exact Keeps.step (updLeg_keeps _ _ _) (Keeps.step (legOff_keeps _ _) (Keeps.refl _) (by decide)) (by decide)

theorem dclinkLatch_keeps (s : State) :
    Keeps [.flt, .chop] [P.CHOP_IL_COUNT] s (dclinkLatch s) := by
  unfold dclinkLatch
  refine Keeps.foldl ?_ fun x0 a1 h2 => ?_
  · exact Keeps.refl _
  · refine Keeps.ite ?_ ?_
    · exact h2
    · exact Keeps.step (legLatch_keeps _ _ _) h2 (by decide)

theorem execChopTripReleased_keeps (leg : Fin 4) (s : State) :
    OutKeeps [.host, .flt, .reel, .tbus, .chop, .freeCtr] [P.HOST_IRQ_CAUSE, P.REEL_LOST, P.REEL_QUEUE_HIGH,
        P.REEL_TRIG_TICK] s (execChopTripReleased leg s) := by
  unfold execChopTripReleased
  extract_lets y0
  clear_value y0
  refine OutKeeps.clocked ?_ ?_
  · exact Keeps.refl _
  · refine OutKeeps.ends reelObserve_keeps (by decide) ?_
    refine Keeps.step (causeGone_keeps _ _ _) ?_ (by decide)
    exact Keeps.step (updLeg_keeps _ _ _) (Keeps.refl _) (by decide)

theorem execCmpSelftest_keeps (c : Cmd) (s : State) :
    OutKeeps [.ops, .host, .flt, .reel, .tbus, .chop, .freeCtr] [P.HOST_IRQ_CAUSE, P.REEL_LOST, P.REEL_QUEUE_HIGH,
        P.REEL_TRIG_TICK] s (execCmpSelftest c s) := by
  unfold execCmpSelftest
  refine OutKeeps.ends reelObserve_keeps (by decide) ?_
  refine Keeps.runCmd goodPacket_keeps answer_keeps (by decide) ?_ fun x0 => ?_
  · exact Keeps.refl _
  · exact ResKeeps.mono (cmpSelftestBody_keeps _ _) (Keeps.refl _) (by decide)

theorem execCmpSelftestDone_keeps (leg : Fin 4) (steps : BitVec 3) (s : State) :
    OutKeeps [.tick, .ops, .host, .flt, .time, .str, .reel, .tbus, .chop, .freeCtr] [P.HOST_IRQ_CAUSE, P.REEL_LOST,
        P.REEL_QUEUE_HIGH, P.REEL_TRIG_TICK] s (execCmpSelftestDone leg steps s) := by
  unfold execCmpSelftestDone
  extract_lets y0 y1
  clear_value y0 y1
  refine OutKeeps.clocked ?_ ?_
  · exact Keeps.refl _
  · split
    · exact OutKeeps.ends reelObserve_keeps (by decide) (Keeps.refl _)
    · extract_lets y90 y91
      refine OutKeeps.cut (s := y90) ?_ fun h120 => ?_
      · unfold y90
        exact Keeps.step (advanceTo_keeps _ _) (Keeps.refl _) (by decide)
      clear_value y90
      refine OutKeeps.cut (s := y91) ?_ fun h121 => ?_
      · unfold y91
        exact Keeps.step (updLeg_keeps _ _ _) h120 (by decide)
      clear_value y91
      exact OutKeeps.ends reelObserve_keeps (by decide) (Keeps.step (completeOk_keeps _ _ _) h121 (by decide))

theorem execGateSupplyOk_keeps (leg : Fin 4) (low : Bool) (s : State) :
    OutKeeps [.host, .flt, .reel, .tbus, .chop, .freeCtr] [P.HOST_IRQ_CAUSE, P.REEL_LOST, P.REEL_QUEUE_HIGH,
        P.REEL_TRIG_TICK] s (execGateSupplyOk leg low s) := by
  unfold execGateSupplyOk
  extract_lets y0 y1
  clear_value y0
  refine OutKeeps.cut (s := y1) ?_ fun h30 => ?_
  · unfold y1
    exact Keeps.step (updLeg_keeps _ _ _) (Keeps.refl _) (by decide)
  clear_value y1
  refine OutKeeps.clocked ?_ ?_
  · exact Keeps.refl _
  · refine OutKeeps.ends reelObserve_keeps (by decide) ?_
    refine Keeps.ite ?_ ?_
    · exact Keeps.step (causeGone_keeps _ _ _) h30 (by decide)
    · exact h30

theorem gsAct_keeps (s : State) (n : Nat) :
    Keeps [.host, .flt, .arms, .cells, .lanes, .str, .belay, .reel, .tbus, .chop, .freeCtr] [P.CHOP_IL_COUNT,
        P.FLT_LOST, P.HOST_IRQ_CAUSE, P.REEL_LOST, P.REEL_QUEUE_HIGH, P.REEL_TRIG_TICK,
        P.STR_TRACE_LOST] s (gsAct s n) := by
  unfold gsAct
  extract_lets y0 y1
  clear_value y0
  refine Keeps.cut (s := y1) ?_ fun h30 => ?_
  · unfold y1
    refine Keeps.ite ?_ ?_
    · exact Keeps.step (updLeg_keeps _ _ _) (Keeps.step (legOff_keeps _ _) (Keeps.refl _) (by decide)) (by decide)
    · exact Keeps.refl _
  clear_value y1
  refine Keeps.ite ?_ ?_
  · exact Keeps.refl _
  · exact Keeps.step (raiseFault_keeps _ _ _) h30 (by decide)

theorem hystCycle_keeps (s : State) (n : Nat) :
    Keeps [.host, .flt, .arms, .cells, .lanes, .str, .belay, .reel, .tbus, .chop, .freeCtr] [P.CHOP_VDC_TRACK,
        P.FLT_LOST, P.HOST_IRQ_CAUSE, P.REEL_LOST, P.REEL_QUEUE_HIGH, P.REEL_TRIG_TICK,
        P.STR_TRACE_LOST] s (hystCycle s n).1 := by
  unfold hystCycle
  extract_lets y0 y1 y2 y3 y4 y5 y6 y7 y8 y9 y10 y11 y12
  clear_value y0 y1 y3 y4 y5 y6 y7 y9 y10
  refine Keeps.cut (s := y2) ?_ fun h30 => ?_
  · unfold y2
    refine Keeps.ite ?_ ?_
    · refine Keeps.step (updLeg_keeps _ _ _) ?_ (by decide)
      exact Keeps.step (putI_keeps _ _ _ _) (Keeps.refl _) (by decide)
    · exact Keeps.refl _
  clear_value y2
  refine Keeps.cut (s := y8) ?_ fun h31 => ?_
  · unfold y8
    refine Keeps.ite ?_ ?_
    · exact Keeps.step (putI_keeps _ _ _ _) h30 (by decide)
    · exact h30
  clear_value y8
  refine Keeps.cut (s := y11) ?_ fun h32 => ?_
  · unfold y11
    exact Keeps.step (updLeg_keeps _ _ _) h31 (by decide)
  clear_value y11
  refine Keeps.cut (s := y12) ?_ fun h33 => ?_
  · unfold y12
    refine Keeps.ite ?_ ?_
    · exact Keeps.step (causeGone_keeps _ _ _) h32 (by decide)
    · refine Keeps.ite ?_ ?_
      · exact Keeps.step (raiseFault_keeps _ _ _) h32 (by decide)
      · exact h32
  clear_value y12
  split
  · dsimp only
    exact Keeps.refl _
  · dsimp only
    exact h33

theorem interlock_keeps (s : State) (n : Nat) :
    Keeps [.host, .flt, .arms, .cells, .lanes, .str, .belay, .reel, .tbus, .chop, .freeCtr] [P.CHOP_IL_COUNT,
        P.FLT_LOST, P.HOST_IRQ_CAUSE, P.REEL_LOST, P.REEL_QUEUE_HIGH, P.REEL_TRIG_TICK,
        P.STR_TRACE_LOST] s (interlock s n) := by
  unfold interlock
  extract_lets y0 y1 y2 y3 y4 y5 y6
  clear_value y0 y1 y2 y3 y4 y5
  refine Keeps.cut (s := y6) ?_ fun h30 => ?_
  · unfold y6
    refine Keeps.step (updLeg_keeps _ _ _) ?_ (by decide)
    exact Keeps.step (addP_keeps _ _ _ _) (Keeps.refl _) (by decide)
  clear_value y6
  refine Keeps.ite ?_ ?_
  · exact Keeps.step (raiseFault_keeps _ _ _) h30 (by decide)
  · exact Keeps.refl _

theorem scClose_keeps (s : State) :
    Keeps [.host, .flt, .arms, .cells, .lanes, .str, .belay, .reel, .tbus, .chop, .freeCtr] [P.FLT_LOST,
        P.HOST_IRQ_CAUSE, P.REEL_LOST, P.REEL_QUEUE_HIGH, P.REEL_TRIG_TICK, P.STR_TRACE_LOST] s (scClose s) := by
  unfold scClose
  extract_lets y0 y1
  clear_value y0
  refine Keeps.cut (s := y1) ?_ fun h30 => ?_
  · unfold y1
    refine Keeps.step (B := [.chop]) (bi := []) (s := s)
        (.upd rfl fun g hg => by cases g <;> first | exact absurd hg (by decide) | rfl) ?_ (by decide)
    exact Keeps.refl _
  clear_value y1
  split
  · exact Keeps.refl _
  · extract_lets y61
    refine Keeps.cut (s := y61) ?_ fun h91 => ?_
    · unfold y61
      exact Keeps.step (raiseFault_keeps _ _ _) h30 (by decide)
    clear_value y61
    refine Keeps.ite ?_ ?_
    · refine Keeps.ite ?_ ?_
      · exact h91
      · exact Keeps.step (causeGone_keeps _ _ _) h91 (by decide)
    · exact h30

theorem scConfirm_keeps (s : State) (n : Nat) :
    Keeps [.host, .flt, .arms, .cells, .lanes, .str, .belay, .reel, .tbus, .chop, .freeCtr] [P.CHOP_IL_COUNT,
        P.FLT_LOST, P.HOST_IRQ_CAUSE, P.REEL_LOST, P.REEL_QUEUE_HIGH, P.REEL_TRIG_TICK,
        P.STR_TRACE_LOST] s (scConfirm s n) := by
  unfold scConfirm
  extract_lets y0
  refine Keeps.cut (s := y0) ?_ fun h30 => ?_
  · unfold y0
    refine Keeps.ite ?_ ?_
    · exact Keeps.step (scClose_keeps _) (Keeps.refl _) (by decide)
    · exact Keeps.refl _
  clear_value y0
  split
  · exact Keeps.step (scOpen_keeps _ _ _) (Keeps.step (legLatch_keeps _ _ _) h30 (by decide)) (by decide)
  · refine Keeps.ite ?_ ?_
    · exact h30
    · refine Keeps.step (raiseFault_keeps _ _ _) ?_ (by decide)
      refine Keeps.step (scOpen_keeps _ _ _) ?_ (by decide)
      exact Keeps.step (dclinkLatch_keeps _) (Keeps.step (legLatch_keeps _ _ _) h30 (by decide)) (by decide)

theorem tripAct_keeps (s : State) (n : Nat) :
    Keeps [.host, .flt, .arms, .cells, .lanes, .str, .belay, .reel, .tbus, .chop, .freeCtr] [P.CHOP_IL_COUNT,
        P.CHOP_TRIP_RUN, P.CHOP_TRIP_TOTAL, P.FLT_LOST, P.HOST_IRQ_CAUSE, P.REEL_LOST, P.REEL_QUEUE_HIGH,
        P.REEL_TRIG_TICK, P.STR_TRACE_LOST] s (tripAct s n) := by
  unfold tripAct
  extract_lets y0 y1 y2 y3
  clear_value y0
  refine Keeps.cut (s := y1) ?_ fun h30 => ?_
  · unfold y1
    exact Keeps.step (legOff_keeps _ _) (Keeps.refl _) (by decide)
  clear_value y1
  refine Keeps.cut (s := y2) ?_ fun h31 => ?_
  · unfold y2
    exact Keeps.step (updLeg_keeps _ _ _) h30 (by decide)
  clear_value y2
  refine Keeps.cut (s := y3) ?_ fun h32 => ?_
  · unfold y3
    exact Keeps.step (incP_keeps _ _ _) (Keeps.step (putN_keeps _ _ _ _) h31 (by decide)) (by decide)
  clear_value y3
  refine Keeps.ite ?_ ?_
  · exact Keeps.refl _
  · refine Keeps.ite ?_ ?_
    · exact h30
    · refine Keeps.ite ?_ ?_
      · exact Keeps.step (raiseFault_keeps _ _ _) (Keeps.step (legLatch_keeps _ _ _) h32 (by decide)) (by decide)
      · exact h32

theorem turnOn_keeps (s : State) (n : Nat) (out : Nat) (f : Leg → Leg) :
    Keeps [.host, .flt, .arms, .cells, .lanes, .str, .belay, .reel, .tbus, .chop, .freeCtr] [P.CHOP_IL_COUNT,
        P.FLT_LOST, P.HOST_IRQ_CAUSE, P.REEL_LOST, P.REEL_QUEUE_HIGH, P.REEL_TRIG_TICK,
        P.STR_TRACE_LOST] s (turnOn s n out f) := by
  unfold turnOn
  extract_lets y0 y1 y2
  clear_value y0 y1
  refine Keeps.cut (s := y2) ?_ fun h30 => ?_
  · unfold y2
    refine Keeps.step (interlock_keeps _ _) ?_ (by decide)
    exact Keeps.step (updLeg_keeps _ _ _) (Keeps.refl _) (by decide)
  clear_value y2
  exact Keeps.step (updLeg_keeps _ _ _) h30 (by decide)

theorem cmpCauses_keeps (s : State) :
    Keeps [.host, .flt, .arms, .cells, .lanes, .str, .belay, .reel, .tbus, .freeCtr] [P.FLT_LOST, P.HOST_IRQ_CAUSE,
        P.REEL_LOST, P.REEL_QUEUE_HIGH, P.REEL_TRIG_TICK, P.STR_TRACE_LOST] s (cmpCauses s) := by
  unfold cmpCauses
  extract_lets y0
  refine Keeps.cut (s := y0) ?_ fun h30 => ?_
  · unfold y0
    refine Keeps.foldl ?_ fun x31 a32 h33 => ?_
    · exact Keeps.refl _
    · refine Keeps.ite ?_ ?_
      · exact h33
      · exact Keeps.step (causeSet_keeps _ _ _ _) h33 (by decide)
  clear_value y0
  refine Keeps.ite ?_ ?_
  · exact h30
  · exact Keeps.step (causeSet_keeps _ _ _ _) h30 (by decide)

theorem cmpLevels_keeps (s : State) (v : BitVec 4) :
    Keeps [.host, .flt, .arms, .cells, .lanes, .str, .belay, .reel, .tbus, .chop, .freeCtr] [P.FLT_LOST,
        P.HOST_IRQ_CAUSE, P.REEL_LOST, P.REEL_QUEUE_HIGH, P.REEL_TRIG_TICK, P.STR_TRACE_LOST] s (cmpLevels s v) := by
  unfold cmpLevels
  refine Keeps.step (cmpCauses_keeps _) ?_ (by decide)
  refine Keeps.foldl ?_ fun x0 a1 h2 => ?_
  · exact Keeps.refl _
  · exact Keeps.step (updLeg_keeps _ _ _) h2 (by decide)

theorem cycleDuty_keeps (s : State) (n : Nat) :
    Keeps [.host, .flt, .arms, .cells, .lanes, .str, .belay, .reel, .tbus, .chop, .freeCtr] [P.CHOP_VDC_TRACK,
        P.FLT_LOST, P.HOST_IRQ_CAUSE, P.REEL_LOST, P.REEL_QUEUE_HIGH, P.REEL_TRIG_TICK,
        P.STR_TRACE_LOST] s (cycleDuty s n) := by
  unfold cycleDuty
  extract_lets y0 y1 y2 y3 y4 y5
  clear_value y2 y3 y4
  refine Keeps.cut (s := y0.1) ?_ fun h30 => ?_
  · unfold y0
    split
    · exact Keeps.step (hystCycle_keeps _ _) (Keeps.refl _) (by decide)
    · dsimp only
      exact Keeps.refl _
    · dsimp only
      exact Keeps.refl _
    · dsimp only
      exact Keeps.refl _
  clear_value y0
  refine Keeps.cut (s := y1) ?_ fun h31 => ?_
  · unfold y1
    exact h30
  clear_value y1
  refine Keeps.cut (s := y5) ?_ fun h32 => ?_
  · unfold y5
    exact Keeps.step (updLeg_keeps _ _ _) h31 (by decide)
  clear_value y5
  refine Keeps.ite ?_ ?_
  · exact Keeps.step (raiseFault_keeps _ _ _) h32 (by decide)
  · exact Keeps.step (causeGone_keeps _ _ _) h32 (by decide)

theorem execChopBlankingEnd_keeps (leg : Fin 4) (s : State) :
    OutKeeps [.tick, .host, .flt, .time, .arms, .cells, .lanes, .str, .belay, .reel, .tbus, .chop,
        .freeCtr] [P.CHOP_IL_COUNT, P.CHOP_TRIP_RUN, P.CHOP_TRIP_TOTAL, P.FLT_LOST, P.HOST_IRQ_CAUSE, P.REEL_LOST,
        P.REEL_QUEUE_HIGH, P.REEL_TRIG_TICK, P.STR_TRACE_LOST] s (execChopBlankingEnd leg s) := by
  unfold execChopBlankingEnd
  extract_lets y0 y1 y2
  clear_value y0 y1
  refine OutKeeps.cut (s := y2) ?_ fun h30 => ?_
  · unfold y2
    refine Keeps.ite ?_ ?_
    · exact Keeps.refl _
    · exact Keeps.step (advanceTo_keeps _ _) (Keeps.refl _) (by decide)
  clear_value y2
  refine OutKeeps.clocked ?_ ?_
  · exact Keeps.refl _
  · refine OutKeeps.ends reelObserve_keeps (by decide) ?_
    refine Keeps.ite ?_ ?_
    · exact h30
    · exact Keeps.step (tripAct_keeps _ _) h30 (by decide)

theorem execChopScConfirm_keeps (leg : Fin 4) (held : Nat) (s : State) :
    OutKeeps [.host, .flt, .arms, .cells, .lanes, .str, .belay, .reel, .tbus, .chop, .freeCtr] [P.CHOP_IL_COUNT,
        P.FLT_LOST, P.HOST_IRQ_CAUSE, P.REEL_LOST, P.REEL_QUEUE_HIGH, P.REEL_TRIG_TICK,
        P.STR_TRACE_LOST] s (execChopScConfirm leg s held) := by
  unfold execChopScConfirm
  extract_lets y0 y1 y2
  clear_value y0 y1
  refine OutKeeps.cut (s := y2) ?_ fun h30 => ?_
  · unfold y2
    exact Keeps.step (updLeg_keeps _ _ _) (Keeps.refl _) (by decide)
  clear_value y2
  refine OutKeeps.clocked ?_ ?_
  · exact Keeps.refl _
  · refine OutKeeps.ite ?_ ?_
    · exact OutKeeps.ends reelObserve_keeps (by decide) (Keeps.refl _)
    · refine OutKeeps.ends reelObserve_keeps (by decide) ?_
      refine Keeps.ite ?_ ?_
      · exact Keeps.step (scConfirm_keeps _ _) h30 (by decide)
      · exact h30

theorem execChopScWindowEnd_keeps (cmp : BitVec 4) (s : State) :
    OutKeeps [.tick, .host, .flt, .time, .arms, .cells, .lanes, .str, .belay, .reel, .tbus, .chop,
        .freeCtr] [P.FLT_LOST, P.HOST_IRQ_CAUSE, P.REEL_LOST, P.REEL_QUEUE_HIGH, P.REEL_TRIG_TICK,
        P.STR_TRACE_LOST] s (execChopScWindowEnd s cmp) := by
  unfold execChopScWindowEnd
  refine OutKeeps.clocked ?_ ?_
  · exact Keeps.refl _
  · split
    · refine OutKeeps.ends reelObserve_keeps (by decide) ?_
      exact Keeps.step (cmpLevels_keeps _ _) (Keeps.refl _) (by decide)
    · refine OutKeeps.ends reelObserve_keeps (by decide) ?_
      refine Keeps.step (cmpLevels_keeps _ _) ?_ (by decide)
      refine Keeps.step (scClose_keeps _) ?_ (by decide)
      exact Keeps.step (advanceTo_keeps _ _) (Keeps.refl _) (by decide)

theorem execChopTripRecognised_keeps (leg : Fin 4) (s : State) :
    OutKeeps [.host, .flt, .arms, .cells, .lanes, .str, .belay, .reel, .tbus, .chop, .freeCtr] [P.CHOP_IL_COUNT,
        P.CHOP_TRIP_RUN, P.CHOP_TRIP_TOTAL, P.FLT_LOST, P.HOST_IRQ_CAUSE, P.REEL_LOST, P.REEL_QUEUE_HIGH,
        P.REEL_TRIG_TICK, P.STR_TRACE_LOST] s (execChopTripRecognised leg s) := by
  unfold execChopTripRecognised
  extract_lets y0 y1
  clear_value y0
  refine OutKeeps.cut (s := y1) ?_ fun h30 => ?_
  · unfold y1
    exact Keeps.step (updLeg_keeps _ _ _) (Keeps.refl _) (by decide)
  clear_value y1
  refine OutKeeps.clocked ?_ ?_
  · exact Keeps.refl _
  · refine OutKeeps.ends reelObserve_keeps (by decide) ?_
    refine Keeps.ite ?_ ?_
    · exact h30
    · exact Keeps.step (tripAct_keeps _ _) h30 (by decide)

theorem execGateSupplyNotOk_keeps (leg : Fin 4) (low : Bool) (s : State) :
    OutKeeps [.host, .flt, .arms, .cells, .lanes, .str, .belay, .reel, .tbus, .chop, .freeCtr] [P.CHOP_IL_COUNT,
        P.FLT_LOST, P.HOST_IRQ_CAUSE, P.REEL_LOST, P.REEL_QUEUE_HIGH, P.REEL_TRIG_TICK,
        P.STR_TRACE_LOST] s (execGateSupplyNotOk leg low s) := by
  unfold execGateSupplyNotOk
  extract_lets y0 y1
  clear_value y0
  refine OutKeeps.cut (s := y1) ?_ fun h30 => ?_
  · unfold y1
    exact Keeps.step (updLeg_keeps _ _ _) (Keeps.refl _) (by decide)
  clear_value y1
  refine OutKeeps.clocked ?_ ?_
  · exact Keeps.refl _
  · refine OutKeeps.ends reelObserve_keeps (by decide) ?_
    refine Keeps.ite ?_ ?_
    · exact Keeps.step (gsAct_keeps _ _) h30 (by decide)
    · exact h30

theorem ghTurnOn_keeps (s : State) (n : Nat) :
    Keeps [.host, .flt, .arms, .cells, .lanes, .str, .belay, .reel, .tbus, .chop, .freeCtr] [P.CHOP_IL_COUNT,
        P.FLT_LOST, P.HOST_IRQ_CAUSE, P.REEL_LOST, P.REEL_QUEUE_HIGH, P.REEL_TRIG_TICK,
        P.STR_TRACE_LOST] s (ghTurnOn s n) := by
  unfold ghTurnOn
  extract_lets y0
  clear_value y0
  refine Keeps.ite ?_ ?_
  · exact Keeps.step (updLeg_keeps _ _ _) (Keeps.refl _) (by decide)
  · exact Keeps.step (turnOn_keeps _ _ _ _) (Keeps.refl _) (by decide)

theorem glTurnOn_keeps (s : State) (n : Nat) :
    Keeps [.host, .flt, .arms, .cells, .lanes, .str, .belay, .reel, .tbus, .chop, .freeCtr] [P.CHOP_IL_COUNT,
        P.FLT_LOST, P.HOST_IRQ_CAUSE, P.REEL_LOST, P.REEL_QUEUE_HIGH, P.REEL_TRIG_TICK,
        P.STR_TRACE_LOST] s (glTurnOn s n) := by
  unfold glTurnOn
  extract_lets y0
  clear_value y0
  refine Keeps.ite ?_ ?_
  · exact Keeps.refl _
  · exact Keeps.step (turnOn_keeps _ _ _ _) (Keeps.refl _) (by decide)

theorem forceOn_keeps (s : State) (n : Nat) :
    Keeps [.host, .flt, .arms, .cells, .lanes, .str, .belay, .reel, .tbus, .chop, .freeCtr] [P.CHOP_IL_COUNT,
        P.FLT_LOST, P.HOST_IRQ_CAUSE, P.REEL_LOST, P.REEL_QUEUE_HIGH, P.REEL_TRIG_TICK,
        P.STR_TRACE_LOST] s (forceOn s n) := by
  unfold forceOn
  extract_lets y0 y1
  clear_value y0
  refine Keeps.cut (s := y1) ?_ fun h30 => ?_
  · unfold y1
    exact Keeps.step (updLeg_keeps _ _ _) (Keeps.refl _) (by decide)
  clear_value y1
  split
  · exact Keeps.refl _
  · refine Keeps.ite ?_ ?_
    · exact Keeps.refl _
    · refine Keeps.ite ?_ ?_
      · exact h30
      · refine Keeps.ite ?_ ?_
        · exact Keeps.step (ghTurnOn_keeps _ _) h30 (by decide)
        · exact Keeps.step (glTurnOn_keeps _ _) h30 (by decide)

theorem edgeAct_keeps (s : State) (n : Nat) (e : Nat) :
    Keeps [.host, .flt, .arms, .cells, .lanes, .str, .belay, .reel, .tbus, .chop, .freeCtr] [P.CHOP_IL_COUNT,
        P.FLT_LOST, P.HOST_IRQ_CAUSE, P.REEL_LOST, P.REEL_QUEUE_HIGH, P.REEL_TRIG_TICK,
        P.STR_TRACE_LOST] s (edgeAct s n e) := by
  unfold edgeAct
  extract_lets y0 y1
  clear_value y0 y1
  refine Keeps.ite ?_ ?_
  · exact Keeps.refl _
  · refine Keeps.ite ?_ ?_
    · split
      · refine Keeps.ite ?_ ?_
        · exact Keeps.step (forceOn_keeps _ _) (Keeps.refl _) (by decide)
        · exact Keeps.refl _
      · exact Keeps.refl _
    · split
      · exact Keeps.step (glTurnOff_keeps _ _) (Keeps.refl _) (by decide)
      · refine Keeps.ite ?_ ?_
        · exact Keeps.step (ghTurnOn_keeps _ _) (Keeps.refl _) (by decide)
        · exact Keeps.refl _
      · exact Keeps.step (ghTurnOff_keeps _ _) (Keeps.refl _) (by decide)
      · refine Keeps.ite ?_ ?_
        · exact Keeps.step (glTurnOn_keeps _ _) (Keeps.refl _) (by decide)
        · exact Keeps.refl _

theorem execChopGateEdge_keeps (leg : Fin 4) (edge : Fin 4) (cmp : BitVec 4) (s : State) :
    OutKeeps [.tick, .host, .flt, .time, .arms, .cells, .lanes, .str, .belay, .reel, .tbus, .chop,
        .freeCtr] [P.CHOP_IL_COUNT, P.FLT_LOST, P.HOST_IRQ_CAUSE, P.REEL_LOST, P.REEL_QUEUE_HIGH, P.REEL_TRIG_TICK,
        P.STR_TRACE_LOST] s (execChopGateEdge leg edge s cmp) := by
  unfold execChopGateEdge
  extract_lets y0
  refine OutKeeps.cut (s := y0) ?_ fun h30 => ?_
  · unfold y0
    exact Keeps.step (advanceTo_keeps _ _) (Keeps.refl _) (by decide)
  clear_value y0
  refine OutKeeps.clocked ?_ ?_
  · exact Keeps.refl _
  · refine OutKeeps.ends reelObserve_keeps (by decide) ?_
    exact Keeps.step (cmpLevels_keeps _ _) (Keeps.step (edgeAct_keeps _ _ _) h30 (by decide)) (by decide)

theorem forceApply_keeps (s : State) (n : Nat) :
    Keeps [.host, .flt, .arms, .cells, .lanes, .str, .belay, .reel, .tbus, .chop, .freeCtr] [P.CHOP_IL_COUNT,
        P.FLT_LOST, P.HOST_IRQ_CAUSE, P.REEL_LOST, P.REEL_QUEUE_HIGH, P.REEL_TRIG_TICK,
        P.STR_TRACE_LOST] s (forceApply s n) := by
  unfold forceApply
  refine Keeps.ite ?_ ?_
  · exact Keeps.step (forceOn_keeps _ _) (Keeps.step (updLeg_keeps _ _ _) (Keeps.refl _) (by decide)) (by decide)
  · exact Keeps.step (updLeg_keeps _ _ _) (Keeps.refl _) (by decide)

theorem cycleStart_keeps (s : State) (n : Nat) :
    Keeps [.params, .staged, .armedG, .host, .flt, .arms, .cells, .lanes, .str, .belay, .reel, .tbus, .chop, .meas,
        .tally, .freeCtr] [] s (cycleStart s n) := by
  unfold cycleStart
  extract_lets y0 y1 y2 y3 y4 y5 y6 y7 y8 y9 y10 y11 y12
  clear_value y1 y4 y6
  refine Keeps.cut (s := y0) ?_ fun h30 => ?_
  · unfold y0
    exact Keeps.step (chopCommit_keeps _ _) (Keeps.refl _) (by rfl)
  clear_value y0
  refine Keeps.cut (s := y2) ?_ fun h31 => ?_
  · unfold y2
    refine Keeps.ite ?_ ?_
    · exact h30
    · exact Keeps.step (putN_keeps _ _ _ _) h30 (by rfl)
  clear_value y2
  refine Keeps.cut (s := y3) ?_ fun h32 => ?_
  · unfold y3
    refine Keeps.ite ?_ ?_
    · exact Keeps.step (causeGone_keeps _ _ _) h31 (by rfl)
    · exact h31
  clear_value y3
  refine Keeps.cut (s := y5) ?_ fun h33 => ?_
  · unfold y5
    exact Keeps.step (updLeg_keeps _ _ _) h32 (by rfl)
  clear_value y5
  refine Keeps.cut (s := y7) ?_ fun h34 => ?_
  · unfold y7
    exact Keeps.step (updLeg_keeps _ _ _) h33 (by rfl)
  clear_value y7
  refine Keeps.cut (s := y8) ?_ fun h35 => ?_
  · unfold y8
    exact Keeps.step (cycleDuty_keeps _ _) h34 (by rfl)
  clear_value y8
  refine Keeps.cut (s := y9) ?_ fun h36 => ?_
  · unfold y9
    refine Keeps.ite ?_ ?_
    · exact Keeps.step (legOff_keeps _ _) h35 (by rfl)
    · exact h35
  clear_value y9
  refine Keeps.cut (s := y10) ?_ fun h37 => ?_
  · unfold y10
    refine Keeps.ite ?_ ?_
    · exact Keeps.step (gsAct_keeps _ _) h36 (by rfl)
    · exact h36
  clear_value y10
  refine Keeps.cut (s := y11) ?_ fun h38 => ?_
  · unfold y11
    refine Keeps.ite ?_ ?_
    · exact Keeps.step (causeGone_keeps _ _ _) h37 (by rfl)
    · exact h37
  clear_value y11
  refine Keeps.cut (s := y12) ?_ fun h39 => ?_
  · unfold y12
    exact Keeps.step (forceApply_keeps _ _) (Keeps.step (tripAct_keeps _ _) h38 (by rfl)) (by rfl)
  clear_value y12
  refine Keeps.ite ?_ ?_
  · refine Keeps.step (cmpCauses_keeps _) ?_ (by rfl)
    exact Keeps.step (updLeg_keeps _ _ _) (Keeps.step (undoOn_keeps _ _) h34 (by rfl)) (by rfl)
  · exact Keeps.step (reelRef_keeps _ _ _) (Keeps.step (trigEvent_keeps _ _ _) h39 (by rfl)) (by rfl)

theorem execChopCycleStart_keeps (leg : Fin 4) (cmp : BitVec 4) (s : State) :
    OutKeeps [.tick, .params, .staged, .armedG, .host, .flt, .time, .arms, .cells, .lanes, .str, .belay, .reel,
        .tbus, .chop, .meas, .tally, .freeCtr] [] s (execChopCycleStart leg cmp s) := by
  unfold execChopCycleStart
  extract_lets y0 y1 y2 y3
  clear_value y0 y3
  refine OutKeeps.cut (s := y1) ?_ fun h30 => ?_
  · unfold y1
    exact Keeps.step (advanceTo_keeps _ _) (Keeps.refl _) (by rfl)
  clear_value y1
  refine OutKeeps.cut (s := y2) ?_ fun h31 => ?_
  · unfold y2
    exact Keeps.step (cmpLevels_keeps _ _) (Keeps.step (cycleStart_keeps _ _) h30 (by rfl)) (by rfl)
  clear_value y2
  refine OutKeeps.clocked ?_ ?_
  · exact Keeps.refl _
  · refine OutKeeps.ite ?_ ?_
    · refine OutKeeps.ends reelObserve_keeps (by decide) ?_
      refine Keeps.ite ?_ ?_
      · exact Keeps.step (cycleStart_keeps _ _) h31 (by rfl)
      · exact h31
    · exact OutKeeps.ends reelObserve_keeps (by decide) (Keeps.step (cmpLevels_keeps _ _) h30 (by rfl))

end Sys2Proof.Machine
end

