-- ==== Sys2Proof/Laws/PeriodMarkFrame.lean ====
section
/-! SUPPORT. What each operation of `Machine/PeriodMark.lean` may change, and that it changes nothing else. -/

namespace Sys2Proof.Machine

theorem countMark_keeps (s : State) :
    Keeps [.per] [] s (countMark s) := by
  unfold countMark
  extract_lets y0
  clear_value y0
  refine Keeps.step (B := [.per]) (bi := []) (s := s)
      (.upd rfl fun g hg => by cases g <;> first | exact absurd hg (by decide) | rfl) ?_ (by decide)
  exact Keeps.refl _

theorem loopFrame_keeps (s : State) (l : Nat) :
    Keeps [.lanes] [] s (loopFrame s l) := by
  unfold loopFrame
  extract_lets y0 y1
  clear_value y0 y1
  split
  · extract_lets y60
    clear_value y60
    refine Keeps.ite ?_ ?_
    · exact Keeps.step (updLane_keeps _ _ _) (Keeps.refl _) (by decide)
    · exact Keeps.refl _
  · exact Keeps.refl _

theorem resumeAt_keeps (s : State) (m : Nat) :
    Keeps [.arms, .dup] [] s (resumeAt s m) := by
  unfold resumeAt
  extract_lets y0 y1 y2
  clear_value y0 y1
  refine Keeps.cut (s := y2) ?_ fun h30 => ?_
  · unfold y2
    refine Keeps.foldl ?_ fun x61 a62 h63 => ?_
    · exact Keeps.refl _
    · extract_lets y64 y65
      clear_value y64 y65
      exact Keeps.step (updArm_keeps _ _ _) h63 (by decide)
  clear_value y2
  exact Keeps.step (updDup_keeps _ _) h30 (by decide)

theorem setDiv_keeps (s : State) (l : Nat) :
    Keeps [.lanes] [P.PER_CHANGE] s (setDiv s l) := by
  unfold setDiv
  extract_lets y0 y1 y2
  clear_value y0 y1
  refine Keeps.cut (s := y2) ?_ fun h30 => ?_
  · unfold y2
    exact Keeps.step (updLane_keeps _ _ _) (Keeps.refl _) (by decide)
  clear_value y2
  refine Keeps.ite ?_ ?_
  · exact Keeps.refl _
  · exact Keeps.step (orP_keeps _ _ _ _) h30 (by decide)

theorem setLatency_keeps (s : State) :
    Keeps [.per] [P.PER_CHANGE] s (setLatency s) := by
  unfold setLatency
  extract_lets y0 y1
  clear_value y0 y1
  refine Keeps.ite ?_ ?_
  · exact Keeps.refl _
  · refine Keeps.step (orP_keeps _ _ _ _) ?_ (by decide)
    refine Keeps.step (B := [.per]) (bi := []) (s := s)
        (.upd rfl fun g hg => by cases g <;> first | exact absurd hg (by decide) | rfl) ?_ (by decide)
    exact Keeps.refl _

theorem tasksRelease_keeps (s : State) :
    Keeps [.arms, .str, .freeCtr] [P.BUD_STATUS, P.STR_READY_MAX, P.STR_TRACE_LOST] s (tasksRelease s) := by
  unfold tasksRelease
  extract_lets y0 y1 y2
  clear_value y0 y1
  refine Keeps.cut (s := y2) ?_ fun h30 => ?_
  · unfold y2
    refine Keeps.ite ?_ ?_
    · exact Keeps.step (arbLate_keeps _) (Keeps.refl _) (by decide)
    · exact Keeps.refl _
  clear_value y2
  refine Keeps.foldl ?_ fun x31 a32 h33 => ?_
  · exact h30
  · exact Keeps.step (readyTask_keeps _ _) h33 (by decide)

theorem groupAt_keeps (code : Nat) (t : Nat) (s : State) :
    Keeps [.params, .staged, .gain, .armedG, .str, .tally, .freeCtr] [] s (groupAt code t s) := by
  unfold groupAt
  refine Keeps.ite ?_ ?_
  · exact Keeps.step (applyGroup_keeps _ _ _) (Keeps.refl _) (by rfl)
  · exact Keeps.refl _

theorem intakeTasks_keeps (s : State) :
    Keeps [.str, .freeCtr] [P.STR_READY_MAX, P.STR_SLOTS_HIGH, P.STR_TRACE_LOST] s (intakeTasks s) := by
  unfold intakeTasks
  refine Keeps.foldl ?_ fun x30 a31 h32 => ?_
  · exact Keeps.refl _
  · extract_lets y33
    clear_value y33
    split
    · exact Keeps.step (createTask_keeps _ _) h32 (by decide)
    · exact h32

theorem residPublish_keeps (s : State) (a : Nat) :
    Keeps [.flt, .arms] [P.BAL_RESID_CELL, P.BAL_RESID_MAX] s (residPublish s a) := by
  unfold residPublish
  extract_lets y0 y1 y2
  clear_value y0
  refine Keeps.cut (s := y1) ?_ fun h30 => ?_
  · unfold y1
    refine Keeps.step (putN_keeps _ _ _ _) ?_ (by decide)
    exact Keeps.step (putN_keeps _ _ _ _) (Keeps.refl _) (by decide)
  clear_value y1
  refine Keeps.cut (s := y2) ?_ fun h31 => ?_
  · unfold y2
    refine Keeps.ite ?_ ?_
    · exact h30
    · exact Keeps.step (causeGone_keeps _ _ _) h30 (by decide)
  clear_value y2
  exact Keeps.step (updArm_keeps _ _ _) h31 (by decide)

theorem runReset_keeps (s : State) :
    Keeps [.flt, .time, .per, .arms, .cells, .str, .loops, .encs, .chop, .meas] [P.ADC_CAL_STATE, P.ADC_LATEST,
        P.BAL_PASS_TICKS] s (runReset s) := by
  unfold runReset
  extract_lets y0 y1 y2 y3 y4 y5 y6 y7 y8 y9 y10
  clear_value y0 y1
  refine Keeps.cut (s := y2) ?_ fun h30 => ?_
  · unfold y2
    refine Keeps.step (B := [.time, .per, .cells, .loops]) (bi := []) (s := s)
        (.upd rfl fun g hg => by cases g <;> first | exact absurd hg (by decide) | rfl) ?_ (by decide)
    exact Keeps.refl _
  clear_value y2
  refine Keeps.cut (s := y3) ?_ fun h31 => ?_
  · unfold y3
    refine Keeps.foldl ?_ fun x32 a33 h34 => ?_
    · exact h30
    · exact Keeps.step (updArm_keeps _ _ _) h34 (by decide)
  clear_value y3
  refine Keeps.cut (s := y4) ?_ fun h35 => ?_
  · unfold y4
    refine Keeps.foldl ?_ fun x36 a37 h38 => ?_
    · exact h31
    · exact Keeps.step (updEnc_keeps _ _ _) h38 (by decide)
  clear_value y4
  refine Keeps.cut (s := y5) ?_ fun h39 => ?_
  · unfold y5
    refine Keeps.foldl ?_ fun x40 a41 h42 => ?_
    · exact h35
    · exact Keeps.step (causeGone_keeps _ _ _) (Keeps.step (updStrand_keeps _ _ _) h42 (by decide)) (by decide)
  clear_value y5
  refine Keeps.cut (s := y6) ?_ fun h43 => ?_
  · unfold y6
    refine Keeps.foldl ?_ fun x44 a45 h46 => ?_
    · exact h39
    · exact Keeps.step (putN_keeps _ _ _ _) h46 (by decide)
  clear_value y6
  refine Keeps.cut (s := y7) ?_ fun h47 => ?_
  · unfold y7
    exact Keeps.step (putN_keeps _ _ _ _) (Keeps.step (putN_keeps _ _ _ _) h43 (by decide)) (by decide)
  clear_value y7
  refine Keeps.cut (s := y8) ?_ fun h48 => ?_
  · unfold y8
    exact Keeps.step (updMeas_keeps _ _) h47 (by decide)
  clear_value y8
  refine Keeps.cut (s := y9) ?_ fun h49 => ?_
  · unfold y9
    refine Keeps.foldl ?_ fun x50 a51 h52 => ?_
    · exact h48
    · exact Keeps.step (updAdc_keeps _ _ _) h52 (by decide)
  clear_value y9
  refine Keeps.cut (s := y10) ?_ fun h53 => ?_
  · unfold y10
    refine Keeps.foldl ?_ fun x54 a55 h56 => ?_
    · exact h49
    · exact Keeps.step (updLeg_keeps _ _ _) h56 (by decide)
  clear_value y10
  refine Keeps.foldl ?_ fun x57 a58 h59 => ?_
  · exact h53
  · exact Keeps.step (putN_keeps _ _ _ _) h59 (by decide)

theorem handoverLate_keeps (s : State) :
    Keeps [.ops, .host] [P.HOST_IRQ_CAUSE] s (handoverLate s) := by
  unfold handoverLate
  refine Keeps.foldl ?_ fun x0 a1 h2 => ?_
  · exact Keeps.refl _
  · split
    · exact Keeps.step (completeErr_keeps _ _ _) h2 (by decide)
    · exact h2

theorem tasksLate_keeps (s : State) :
    Keeps [.str, .freeCtr] [P.STR_BUSY, P.STR_DEADLINE_MISS, P.STR_READY_MAX, P.STR_SLOTS_HIGH,
        P.STR_TRACE_LOST] s (tasksLate s) := by
  unfold tasksLate
  extract_lets y0 y1 y2 y3 y4 y5 y6
  refine Keeps.cut (s := y4) ?_ fun h30 => ?_
  · unfold y4
    refine Keeps.step (B := [.str]) (bi := []) (s := s)
        (.upd rfl fun g hg => by cases g <;> first | exact absurd hg (by decide) | rfl) ?_ (by decide)
    exact Keeps.refl _
  clear_value y4
  refine Keeps.cut (s := y5) ?_ fun h31 => ?_
  · unfold y5
    refine Keeps.foldl ?_ fun x32 a33 h34 => ?_
    · exact h30
    · exact Keeps.step (cancelSucc_keeps _ _ _) (Keeps.step (incP_keeps _ _ _) h34 (by decide)) (by decide)
  clear_value y5
  refine Keeps.foldl ?_ fun x35 a36 h37 => ?_
  · exact h31
  · refine Keeps.ite ?_ ?_
    · exact Keeps.step (abandonTask_keeps _ _) h37 (by decide)
    · exact h37

theorem reelMark_keeps (s : State) :
    Keeps [.host, .reel, .tbus, .freeCtr] [P.HOST_IRQ_CAUSE, P.REEL_LOST, P.REEL_MASK_VIOL, P.REEL_QUEUE_HIGH,
        P.REEL_TRIG_TICK] s (reelMark s) := by
  unfold reelMark
  extract_lets y0 y1
  refine Keeps.cut (s := y0) ?_ fun h30 => ?_
  · unfold y0
    refine Keeps.ite ?_ ?_
    · refine Keeps.step (reelForm_keeps _ _) ?_ (by decide)
      exact Keeps.step (updReel_keeps _ _) (Keeps.refl _) (by decide)
    · exact Keeps.refl _
  clear_value y0
  refine Keeps.cut (s := y1) ?_ fun h31 => ?_
  · unfold y1
    refine Keeps.ite ?_ ?_
    · exact Keeps.step (updReel_keeps _ _) h30 (by decide)
    · exact h30
  clear_value y1
  refine Keeps.ite ?_ ?_
  · exact Keeps.refl _
  · refine Keeps.foldl ?_ fun x92 a93 h94 => ?_
    · exact Keeps.step (reelRef_keeps _ _ _) h31 (by decide)
    · extract_lets y95 y96
      clear_value y95 y96
      refine Keeps.ite ?_ ?_
      · exact h94
      · exact Keeps.step (reelSample_keeps _ _ _ _ _) h94 (by decide)

theorem loopMark_keeps (s : State) (f : Option PeerData) :
    Keeps [.params, .staged, .gain, .armedG, .tables, .host, .flt, .arms, .cells, .lanes, .str, .belay, .reel,
        .tbus, .loops, .tally, .freeCtr] [] s (loopMark s f) := by
  unfold loopMark
  extract_lets y0
  refine Keeps.cut (s := y0) ?_ fun h30 => ?_
  · unfold y0
    refine Keeps.foldl ?_ fun x31 a32 h33 => ?_
    · exact Keeps.refl _
    · exact Keeps.step (loopBoundary_keeps _ _) h33 (by rfl)
  clear_value y0
  refine Keeps.step (runSlots_keeps _) ?_ (by rfl)
  exact Keeps.step (applySlots_keeps _ _) (Keeps.step (loopModes_keeps _) h30 (by rfl)) (by rfl)

theorem resumeLate_keeps (s : State) :
    Keeps [.host, .flt, .arms, .cells, .lanes, .str, .belay, .dup, .reel, .tbus, .freeCtr] [P.FLT_LOST,
        P.HOST_IRQ_CAUSE, P.REEL_LOST, P.REEL_QUEUE_HIGH, P.REEL_TRIG_TICK, P.STR_TRACE_LOST] s (resumeLate s) := by
  unfold resumeLate
  extract_lets y0
  clear_value y0
  refine Keeps.ite ?_ ?_
  · refine Keeps.step (raiseFault_keeps _ _ _) ?_ (by decide)
    exact Keeps.step (updDup_keeps _ _) (Keeps.refl _) (by decide)
  · exact Keeps.refl _

theorem senseMark_keeps (s : State) (p0 : List Nat) (p1 : List Nat) :
    Keeps [.host, .flt, .arms, .cells, .lanes, .str, .belay, .reel, .tbus, .loops, .encs, .chop, .meas,
        .freeCtr] [P.ADC_PLAUS_SKIP, P.DEC_SYNC_COUNT, P.ENC_SPEED, P.FLT_LOST, P.HOST_IRQ_CAUSE, P.REEL_LOST,
        P.REEL_QUEUE_HIGH, P.REEL_TRIG_TICK, P.STR_TRACE_LOST, P.TRAJ_ACC, P.TRAJ_DONE, P.TRAJ_POS,
        P.TRAJ_PULSE_VAL, P.TRAJ_VEL] s (senseMark s p0 p1) := by
  unfold senseMark
  extract_lets y0 y1 y2 y3 y4 y5
  clear_value y0
  refine Keeps.cut (s := y1) ?_ fun h30 => ?_
  · unfold y1
    exact Keeps.step (adcMark_keeps _ _) (Keeps.refl _) (by decide)
  clear_value y1
  refine Keeps.cut (s := y2) ?_ fun h31 => ?_
  · unfold y2
    exact Keeps.step (decMark_keeps _) (Keeps.step (plausMark_keeps _ _) h30 (by decide)) (by decide)
  clear_value y2
  refine Keeps.cut (s := y3) ?_ fun h32 => ?_
  · unfold y3
    exact Keeps.step (encMark_keeps _ _) (Keeps.step (encMark_keeps _ _) h31 (by decide)) (by decide)
  clear_value y3
  refine Keeps.cut (s := y4) ?_ fun h33 => ?_
  · unfold y4
    exact Keeps.step (trajAdvance_keeps _) (Keeps.step (chopMark_keeps _) h32 (by decide)) (by decide)
  clear_value y4
  refine Keeps.cut (s := y5) ?_ fun h34 => ?_
  · unfold y5
    refine Keeps.step (homeSearchDone_keeps _ _) ?_ (by decide)
    exact Keeps.step (homeSearchDone_keeps _ _) h33 (by decide)
  clear_value y5
  exact Keeps.step (pulseMark_keeps _ _ _) (Keeps.step (pulseMark_keeps _ _ _) h34 (by decide)) (by decide)

theorem windowEnd_keeps (s : State) :
    Keeps [.ops, .host, .flt, .arms, .cells, .lanes, .str, .belay, .dup, .reel, .tbus, .freeCtr] [P.FLT_LOST,
        P.HOST_IRQ_CAUSE, P.REEL_LOST, P.REEL_QUEUE_HIGH, P.REEL_TRIG_TICK, P.STR_TRACE_LOST] s (windowEnd s) := by
  unfold windowEnd
  extract_lets y0 y1
  clear_value y0
  refine Keeps.cut (s := y1) ?_ fun h30 => ?_
  · unfold y1
    exact Keeps.step (handoverLate_keeps _) (Keeps.refl _) (by decide)
  clear_value y1
  refine Keeps.ite ?_ ?_
  · refine Keeps.ite ?_ ?_
    · exact Keeps.step (raiseFault_keeps _ _ _) (Keeps.step (updDup_keeps _ _) h30 (by decide)) (by decide)
    · exact Keeps.step (dupStandby_keeps _) h30 (by decide)
  · split
    · refine Keeps.ite ?_ ?_
      · refine Keeps.step (handoverLate_keeps _) ?_ (by decide)
        exact Keeps.step (updDup_keeps _ _) (Keeps.refl _) (by decide)
      · exact Keeps.refl _
    · exact Keeps.refl _

theorem dupMarks_keeps (s : State) :
    Keeps [.ops, .host, .flt, .arms, .cells, .lanes, .str, .belay, .dup, .reel, .tbus,
        .freeCtr] [P.DUP_HB_MISS_TOTAL, P.DUP_TKO_COUNT, P.DUP_TKO_PERIOD, P.FLT_LOST, P.HOST_IRQ_CAUSE,
        P.REEL_LOST, P.REEL_QUEUE_HIGH, P.REEL_TRIG_TICK, P.STR_TRACE_LOST] s (dupMarks s) := by
  unfold dupMarks
  extract_lets y0 y1
  refine Keeps.cut (s := y0) ?_ fun h30 => ?_
  · unfold y0
    exact Keeps.step (dupMark_keeps _) (Keeps.refl _) (by decide)
  clear_value y0
  refine Keeps.cut (s := y1) ?_ fun h31 => ?_
  · unfold y1
    refine Keeps.ite ?_ ?_
    · exact Keeps.step (resumeAt_keeps _ _) h30 (by decide)
    · exact h30
  clear_value y1
  refine Keeps.ite ?_ ?_
  · exact Keeps.refl _
  · exact Keeps.step (windowEnd_keeps _) (Keeps.step (resumeLate_keeps _) h31 (by decide)) (by decide)

theorem setEff_keeps (s : State) :
    Keeps [.host, .flt, .per, .arms, .cells, .lanes, .str, .belay, .reel, .tbus, .freeCtr] [P.FLT_LOST,
        P.HOST_IRQ_CAUSE, P.PER_CHANGE, P.REEL_LOST, P.REEL_QUEUE_HIGH, P.REEL_TRIG_TICK,
        P.STR_TRACE_LOST] s (setEff s) := by
  unfold setEff
  extract_lets y0 y1 y2 y3 y4 y5
  clear_value y0 y1 y2 y3
  refine Keeps.cut (s := y4) ?_ fun h30 => ?_
  · unfold y4
    refine Keeps.step (B := [.per]) (bi := []) (s := s)
        (.upd rfl fun g hg => by cases g <;> first | exact absurd hg (by decide) | rfl) ?_ (by decide)
    exact Keeps.refl _
  clear_value y4
  refine Keeps.cut (s := y5) ?_ fun h31 => ?_
  · unfold y5
    refine Keeps.ite ?_ ?_
    · exact Keeps.step (orP_keeps _ _ _ _) h30 (by decide)
    · exact h30
  clear_value y5
  exact Keeps.step (causeSet_keeps _ _ _ _) h31 (by decide)

theorem latencyChange_keeps (s : State) (old : Nat) :
    Keeps [.host, .flt, .capWords, .arms, .cells, .lanes, .str, .belay, .reel, .tbus, .freeCtr] [P.BUD_SPENT,
        P.CAP_CLAMP, P.CAP_DEFER, P.CAP_DEFER_MAX, P.CAP_DX, P.CAP_END_TICK, P.CAP_LEVEL, P.CAP_SHORT,
        P.CAP_SWAP_LAST, P.CAP_SWAP_NOSLOT, P.CAP_TARGET, P.CAP_X0, P.FLT_LOST, P.HOST_IRQ_CAUSE, P.REEL_LOST,
        P.REEL_QUEUE_HIGH, P.REEL_TRIG_TICK, P.STR_TRACE_LOST] s (latencyChange s old) := by
  unfold latencyChange
  refine Keeps.ite ?_ ?_
  · exact Keeps.refl _
  · refine Keeps.ite ?_ ?_
    · refine Keeps.step (capCompute_keeps _ _) ?_ (by decide)
      exact Keeps.step (armNoRefs_keeps _) (Keeps.refl _) (by decide)
    · refine Keeps.foldl ?_ fun x0 a1 h2 => ?_
      · exact Keeps.refl _
      · exact Keeps.step (updArm_keeps _ _ _) h2 (by decide)

theorem planMark_keeps (s : State) (per : Nat) :
    Keeps [.ops, .host, .flt, .per, .arms, .cells, .lanes, .cleat, .str, .belay, .reel, .tbus, .disc,
        .freeCtr] [P.ARM_I_LAST, P.BAL_PASS_TICKS, P.BAL_STALE, P.BUD_STARVE_RUN, P.BUD_STATUS, P.DISC_MT_QABS,
        P.DISC_MT_QPOS, P.FLT_LOST, P.HOST_IRQ_CAUSE, P.REEL_LOST, P.REEL_QUEUE_HIGH, P.REEL_TRIG_TICK,
        P.STR_READY_MAX, P.STR_SLOTS_HIGH, P.STR_TRACE_LOST] s (planMark s per) := by
  unfold planMark
  extract_lets y0 y1 y2 y3 y4
  refine Keeps.cut (s := y0) ?_ fun h30 => ?_
  · unfold y0
    refine Keeps.step (mtStartMark_keeps _) ?_ (by decide)
    refine Keeps.step (mtCharge_keeps _ _) ?_ (by decide)
    exact Keeps.step (armSamples_keeps _ _) (Keeps.refl _) (by decide)
  clear_value y0
  refine Keeps.cut (s := y1) ?_ fun h31 => ?_
  · unfold y1
    refine Keeps.ite ?_ ?_
    · exact Keeps.step (mtEnd_keeps _) h30 (by decide)
    · exact h30
  clear_value y1
  refine Keeps.cut (s := y2) ?_ fun h32 => ?_
  · unfold y2
    exact Keeps.step (tasksRelease_keeps _) h31 (by decide)
  clear_value y2
  refine Keeps.cut (s := y3) ?_ fun h33 => ?_
  · unfold y3
    exact Keeps.step (latchMark_keeps _) h32 (by decide)
  clear_value y3
  refine Keeps.cut (s := y4) ?_ fun h34 => ?_
  · unfold y4
    refine Keeps.ite ?_ ?_
    · exact Keeps.step (passStarts_keeps _) (Keeps.step (updBelay_keeps _ _) h33 (by decide)) (by decide)
    · exact h32
  clear_value y4
  exact Keeps.step (intakeTasks_keeps _) h34 (by decide)

theorem recompute_keeps (s : State) :
    Keeps [.host, .flt, .per, .arms, .cells, .lanes, .str, .belay, .reel, .tbus, .freeCtr] [P.FLT_LOST,
        P.HOST_IRQ_CAUSE, P.PER_CHANGE, P.REEL_LOST, P.REEL_QUEUE_HIGH, P.REEL_TRIG_TICK,
        P.STR_TRACE_LOST] s (recompute s) := by
  unfold recompute
  refine Keeps.foldl ?_ fun x0 a1 h2 => ?_
  · exact Keeps.step (setLatency_keeps _) (Keeps.step (setEff_keeps _) (Keeps.refl _) (by decide)) (by decide)
  · exact Keeps.step (setDiv_keeps _ _) h2 (by decide)

theorem cleatDue_keeps (s : State) :
    Keeps [.ops, .host, .flt, .arms, .cells, .lanes, .cleat, .str, .belay, .reel, .tbus,
        .freeCtr] [P.CLT_HIGH_WATER, P.FLT_LOST, P.HOST_IRQ_CAUSE, P.REEL_LOST, P.REEL_QUEUE_HIGH, P.REEL_TRIG_TICK,
        P.STR_TRACE_LOST] s (cleatDue s) := by
  unfold cleatDue
  refine Keeps.ite ?_ ?_
  · exact Keeps.step (freeCleats_keeps _ _) (Keeps.refl _) (by decide)
  · exact Keeps.refl _

theorem laneEntry_keeps (s : State) (l : Nat) :
    Keeps [.tables, .ops, .host, .flt, .arms, .cells, .lanes, .str, .belay, .reel, .tbus, .tally,
        .freeCtr] [P.FLT_LOST, P.HOST_IRQ_CAUSE, P.LANE_ERR_COUNT, P.LANE_FAIL, P.PER_CHANGE, P.REEL_LOST,
        P.REEL_QUEUE_HIGH, P.REEL_TRIG_TICK, P.STR_TRACE_LOST] s (laneEntry s l) := by
  unfold laneEntry
  extract_lets y0
  clear_value y0
  refine Keeps.ite ?_ ?_
  · exact Keeps.refl _
  · refine Keeps.ite ?_ ?_
    · exact Keeps.step (enterActive_keeps _ _ _) (Keeps.refl _) (by decide)
    · exact Keeps.step (bringupFail_keeps _ _ _ _) (Keeps.refl _) (by decide)

theorem laneMarks_keeps (s : State) :
    Keeps [.tables, .ops, .host, .flt, .arms, .cells, .lanes, .str, .belay, .reel, .tbus, .tally,
        .freeCtr] [P.FLT_LOST, P.HOST_IRQ_CAUSE, P.LANE_ERR_COUNT, P.LANE_FAIL, P.PER_CHANGE, P.REEL_LOST,
        P.REEL_QUEUE_HIGH, P.REEL_TRIG_TICK, P.STR_TRACE_LOST] s (laneMarks s) := by
  unfold laneMarks
  extract_lets y0 y1
  refine Keeps.cut (s := y0) ?_ fun h30 => ?_
  · unfold y0
    refine Keeps.foldl ?_ fun x31 a32 h33 => ?_
    · exact Keeps.refl _
    · exact Keeps.step (loopFrame_keeps _ _) h33 (by decide)
  clear_value y0
  refine Keeps.cut (s := y1) ?_ fun h34 => ?_
  · unfold y1
    refine Keeps.foldl ?_ fun x35 a36 h37 => ?_
    · exact h30
    · refine Keeps.ite ?_ ?_
      · exact Keeps.step (retireLane_keeps _ _) h37 (by decide)
      · exact h37
  clear_value y1
  refine Keeps.foldl ?_ fun x38 a39 h40 => ?_
  · exact h34
  · exact Keeps.step (laneEntry_keeps _ _) h40 (by decide)

theorem periodBoundary_keeps (s : State) :
    Keeps [.params, .staged, .gain, .armedG, .host, .flt, .per, .arms, .cells, .lanes, .str, .belay, .reel, .tbus,
        .tally, .freeCtr] [] s (periodBoundary s) := by
  unfold periodBoundary
  extract_lets y0 y1
  clear_value y1
  refine Keeps.cut (s := y0) ?_ fun h30 => ?_
  · unfold y0
    exact Keeps.step (applyGroup_keeps _ _ _) (Keeps.refl _) (by rfl)
  clear_value y0
  refine Keeps.ite ?_ ?_
  · refine Keeps.step (recompute_keeps _) ?_ (by rfl)
    refine Keeps.step (orP_keeps _ _ _ _) ?_ (by rfl)
    refine Keeps.step (B := [.per]) (bi := []) (s := y0)
        (.upd rfl fun g hg => by cases g <;> first | exact absurd hg (by decide) | rfl) ?_ (by decide)
    exact h30
  · exact Keeps.refl _

theorem epochMark_keeps (s : State) :
    Keeps [.params, .staged, .gain, .armedG, .host, .flt, .per, .arms, .cells, .lanes, .str, .belay, .reel, .tbus,
        .tally, .freeCtr] [] s (epochMark s) := by
  unfold epochMark
  extract_lets y0 y1 y2 y3 y4
  clear_value y0 y1
  refine Keeps.cut (s := y2) ?_ fun h30 => ?_
  · unfold y2
    refine Keeps.step (B := [.per]) (bi := []) (s := s)
        (.upd rfl fun g hg => by cases g <;> first | exact absurd hg (by decide) | rfl) ?_ (by decide)
    exact Keeps.refl _
  clear_value y2
  refine Keeps.cut (s := y3) ?_ fun h31 => ?_
  · unfold y3
    refine Keeps.foldl ?_ fun x32 a33 h34 => ?_
    · exact h30
    · exact Keeps.step (residPublish_keeps _ _) h34 (by rfl)
  clear_value y3
  refine Keeps.cut (s := y4) ?_ fun h35 => ?_
  · unfold y4
    split
    · refine Keeps.ite ?_ ?_
      · exact Keeps.step (periodBoundary_keeps _) h31 (by rfl)
      · exact h31
    · exact h31
  clear_value y4
  refine Keeps.ite ?_ ?_
  · exact Keeps.refl _
  · exact Keeps.step (groupAt_keeps _ _ _) h35 (by rfl)

theorem markWork_keeps (s : State) (per : Nat) (p0 : List Nat) (p1 : List Nat) :
    Keeps [.params, .staged, .gain, .armedG, .tables, .ops, .host, .flt, .per, .capWords, .arms, .cells, .lanes,
        .cleat, .str, .belay, .dup, .reel, .tbus, .loops, .encs, .chop, .meas, .disc, .tally,
        .freeCtr] [] s (markWork s per p0 p1) := by
  unfold markWork
  extract_lets y0 y1 y2 y3 y4 y5 y6 y7 y8 y9 y10 y11 y12 y13 y14
  clear_value y0 y3 y5 y12
  refine Keeps.cut (s := y1) ?_ fun h30 => ?_
  · unfold y1
    exact Keeps.step (applyData_keeps _) (Keeps.refl _) (by rfl)
  clear_value y1
  refine Keeps.cut (s := y2) ?_ fun h31 => ?_
  · unfold y2
    exact Keeps.step (cleatDue_keeps _) (Keeps.step (tasksLate_keeps _) h30 (by rfl)) (by rfl)
  clear_value y2
  refine Keeps.cut (s := y4) ?_ fun h32 => ?_
  · unfold y4
    refine Keeps.step (groupAt_keeps _ _ _) ?_ (by rfl)
    exact Keeps.step (groupAt_keeps _ _ _) (Keeps.step (epochMark_keeps _) h31 (by rfl)) (by rfl)
  clear_value y4
  refine Keeps.cut (s := y6) ?_ fun h33 => ?_
  · unfold y6
    refine Keeps.step (B := [.per]) (bi := []) (s := y4)
        (.upd rfl fun g hg => by cases g <;> first | exact absurd hg (by decide) | rfl) ?_ (by decide)
    exact h32
  clear_value y6
  refine Keeps.cut (s := y7) ?_ fun h34 => ?_
  · unfold y7
    exact Keeps.step (traceEvent_keeps _ _ _ _ _ _ _) h33 (by rfl)
  clear_value y7
  refine Keeps.cut (s := y8) ?_ fun h35 => ?_
  · unfold y8
    exact Keeps.step (laneMarks_keeps _) (Keeps.step (dupMarks_keeps _) h34 (by rfl)) (by rfl)
  clear_value y8
  refine Keeps.cut (s := y9) ?_ fun h36 => ?_
  · unfold y9
    exact Keeps.step (hbCheck_keeps _) h35 (by rfl)
  clear_value y9
  refine Keeps.cut (s := y10) ?_ fun h37 => ?_
  · unfold y10
    exact Keeps.step (planMark_keeps _ _) (Keeps.step (senseMark_keeps _ _ _) h36 (by rfl)) (by rfl)
  clear_value y10
  refine Keeps.cut (s := y11) ?_ fun h38 => ?_
  · unfold y11
    exact Keeps.step (loopMark_keeps _ _) (Keeps.step (reelMark_keeps _) h37 (by rfl)) (by rfl)
  clear_value y11
  refine Keeps.cut (s := y13) ?_ fun h39 => ?_
  · unfold y13
    exact Keeps.step (capCompute_keeps _ _) (Keeps.step (armRefs_keeps _ _) h38 (by rfl)) (by rfl)
  clear_value y13
  refine Keeps.cut (s := y14) ?_ fun h40 => ?_
  · unfold y14
    exact Keeps.step (icmMark_keeps _) (Keeps.step (sendFrames_keeps _ _ _) h39 (by rfl)) (by rfl)
  clear_value y14
  exact Keeps.step (dupSend_keeps _) (Keeps.step (latencyChange_keeps _ _) h40 (by rfl)) (by rfl)

theorem enterRun_keeps (s : State) :
    Keeps [.params, .staged, .gain, .armedG, .tables, .ops, .host, .pwr, .flt, .time, .per, .capWords, .arms,
        .cells, .lanes, .cleat, .str, .belay, .dup, .reel, .tbus, .loops, .encs, .chop, .meas, .disc, .tally,
        .freeCtr] [] s (enterRun s) := by
  unfold enterRun
  extract_lets y0 y1 y2 y3
  refine Keeps.cut (s := y0) ?_ fun h30 => ?_
  · unfold y0
    exact Keeps.step (updPwr_keeps _ _) (Keeps.refl _) (by rfl)
  clear_value y0
  refine Keeps.cut (s := y1) ?_ fun h31 => ?_
  · unfold y1
    exact Keeps.step (periodBoundary_keeps _) (Keeps.step (runReset_keeps _) h30 (by rfl)) (by rfl)
  clear_value y1
  refine Keeps.cut (s := y2) ?_ fun h32 => ?_
  · unfold y2
    exact Keeps.step (decSyncAt_keeps _ _) (Keeps.step (groupAt_keeps _ _ _) h31 (by rfl)) (by rfl)
  clear_value y2
  refine Keeps.cut (s := y3) ?_ fun h33 => ?_
  · unfold y3
    exact Keeps.step (markWork_keeps _ _ _ _) (Keeps.step (dupEnter_keeps _) h32 (by rfl)) (by rfl)
  clear_value y3
  exact Keeps.step (powerNext_keeps _) h33 (by rfl)

theorem nextMark_keeps (s : State) (p0 : List Nat) (p1 : List Nat) :
    Keeps [.tick, .params, .staged, .gain, .armedG, .tables, .ops, .host, .pwr, .flt, .time, .per, .capWords, .arms,
        .cells, .lanes, .cleat, .str, .belay, .dup, .reel, .tbus, .loops, .encs, .chop, .meas, .disc, .tally,
        .freeCtr] [] s (nextMark s p0 p1) := by
  unfold nextMark
  extract_lets y0 y1
  clear_value y0
  refine Keeps.cut (s := y1) ?_ fun h30 => ?_
  · unfold y1
    exact Keeps.step (countMark_keeps _) (Keeps.step (periodEnd_keeps _) (Keeps.refl _) (by rfl)) (by rfl)
  clear_value y1
  refine Keeps.ite ?_ ?_
  · exact Keeps.step (powerNext_keeps _) (Keeps.step (leaveRun_keeps _) h30 (by rfl)) (by rfl)
  · exact Keeps.step (markWork_keeps _ _ _ _) h30 (by rfl)

theorem execPeriodMark_keeps (pulse0 : List Nat) (pulse1 : List Nat) (s : State) :
    OutKeeps [.tick, .params, .staged, .gain, .armedG, .tables, .ops, .host, .pwr, .flt, .time, .per, .capWords,
        .arms, .cells, .lanes, .cleat, .str, .belay, .dup, .reel, .tbus, .loops, .encs, .chop, .meas, .disc, .tally,
        .freeCtr] [] s (execPeriodMark pulse0 pulse1 s) := by
  unfold execPeriodMark
  refine OutKeeps.clocked ?_ ?_
  · exact Keeps.refl _
  · refine OutKeeps.ends reelObserve_keeps (by decide) ?_
    refine Keeps.ite ?_ ?_
    · exact Keeps.step (nextMark_keeps _ _ _) (Keeps.refl _) (by rfl)
    · exact Keeps.refl _

end Sys2Proof.Machine
end

