-- ==== Sys2Proof/Laws/DuplexFrame.lean ====
section
/-! SUPPORT. What each operation of `Machine/Duplex.lean` may change, and that it changes nothing else. -/

namespace Sys2Proof.Machine

theorem switchbackBody_keeps (c : Cmd) (s : State) :
    ResKeeps [.ops] [] s (switchbackBody c s) := by
  unfold switchbackBody
  refine ResKeeps.check ?_
  refine ResKeeps.accepted ?_ fun x0 => ?_
  · exact Keeps.step (startOp_keeps _ _ _ _ _) (Keeps.refl _) (by decide)
  · dsimp only [id]
    exact Keeps.refl _

theorem takeoverBody_keeps (c : Cmd) (s : State) :
    ResKeeps [.ops, .dup] [] s (takeoverBody c s) := by
  unfold takeoverBody
  refine ResKeeps.check ?_
  refine ResKeeps.accepted ?_ fun x0 => ?_
  · exact Keeps.step (startOp_keeps _ _ _ _ _) (Keeps.refl _) (by decide)
  · refine Keeps.ite ?_ ?_
    · exact Keeps.step (updDup_keeps _ _) (Keeps.refl _) (by decide)
    · exact Keeps.step (updDup_keeps _ _) (Keeps.refl _) (by decide)

theorem peerDigests_keeps (s : State) (f : PeerData) :
    Keeps [.flt, .tally] [] s (peerDigests s f) := by
  unfold peerDigests
  extract_lets y0
  clear_value y0
  split
  · exact Keeps.refl _
  · refine Keeps.step (tallyFollow_keeps _ _) ?_ (by decide)
    refine Keeps.step (B := [.tally]) (bi := []) (s := s)
        (.upd rfl fun g hg => by cases g <;> first | exact absurd hg (by decide) | rfl) ?_ (by decide)
    exact Keeps.refl _

theorem execDispatchResume_keeps (s : State) :
    OutKeeps [.host, .per, .arms, .dup, .reel, .tbus, .freeCtr] [P.HOST_IRQ_CAUSE, P.REEL_LOST, P.REEL_QUEUE_HIGH,
        P.REEL_TRIG_TICK] s (execDispatchResume s) := by
  unfold execDispatchResume
  extract_lets y0 y1
  clear_value y0
  refine OutKeeps.cut (s := y1) ?_ fun h30 => ?_
  · unfold y1
    refine Keeps.step (B := [.per]) (bi := []) (s := s)
        (.upd rfl fun g hg => by cases g <;> first | exact absurd hg (by decide) | rfl) ?_ (by decide)
    exact Keeps.refl _
  clear_value y1
  refine OutKeeps.clocked ?_ ?_
  · exact Keeps.refl _
  · refine OutKeeps.ite ?_ ?_
    · refine OutKeeps.ends reelObserve_keeps (by decide) ?_
      exact Keeps.step (resumeAt_keeps _ _) (Keeps.refl _) (by decide)
    · exact OutKeeps.ends reelObserve_keeps (by decide) (Keeps.refl _)

theorem execSwitchback_keeps (c : Cmd) (s : State) :
    OutKeeps [.ops, .host, .flt, .reel, .tbus, .freeCtr] [P.HOST_IRQ_CAUSE, P.REEL_LOST, P.REEL_QUEUE_HIGH,
        P.REEL_TRIG_TICK] s (execSwitchback c s) := by
  unfold execSwitchback
  refine OutKeeps.ends reelObserve_keeps (by decide) ?_
  refine Keeps.runCmd goodPacket_keeps answer_keeps (by decide) ?_ fun x0 => ?_
  · exact Keeps.refl _
  · exact ResKeeps.mono (switchbackBody_keeps _ _) (Keeps.refl _) (by decide)

theorem execTakeover_keeps (c : Cmd) (s : State) :
    OutKeeps [.ops, .host, .flt, .dup, .reel, .tbus, .freeCtr] [P.HOST_IRQ_CAUSE, P.REEL_LOST, P.REEL_QUEUE_HIGH,
        P.REEL_TRIG_TICK] s (execTakeover c s) := by
  unfold execTakeover
  refine OutKeeps.ends reelObserve_keeps (by decide) ?_
  refine Keeps.runCmd goodPacket_keeps answer_keeps (by decide) ?_ fun x0 => ?_
  · exact Keeps.refl _
  · exact ResKeeps.mono (takeoverBody_keeps _ _) (Keeps.refl _) (by decide)

theorem execResumeTimeout_keeps (s : State) :
    OutKeeps [.tick, .host, .flt, .time, .arms, .cells, .lanes, .str, .belay, .dup, .reel, .tbus, .chop,
        .freeCtr] [P.FLT_LOST, P.HOST_IRQ_CAUSE, P.REEL_LOST, P.REEL_QUEUE_HIGH, P.REEL_TRIG_TICK,
        P.STR_TRACE_LOST] s (execResumeTimeout s) := by
  unfold execResumeTimeout
  refine OutKeeps.clocked ?_ ?_
  · exact Keeps.refl _
  · refine OutKeeps.ite ?_ ?_
    · refine OutKeeps.ends reelObserve_keeps (by decide) ?_
      refine Keeps.atMark (by decide) advanceTo_keeps ?_ fun x0 h1 => ?_
      · exact Keeps.refl _
      · refine Keeps.ite ?_ ?_
        · exact h1
        · exact Keeps.step (raiseFault_keeps _ _ _) (Keeps.step (updDup_keeps _ _) h1 (by decide)) (by decide)
    · exact OutKeeps.ends reelObserve_keeps (by decide) (Keeps.refl _)

theorem windowEndAt_keeps (s : State) (m : Nat) :
    Keeps [.ops, .host, .flt, .per, .arms, .cells, .lanes, .str, .belay, .dup, .reel, .tbus, .freeCtr] [P.FLT_LOST,
        P.HOST_IRQ_CAUSE, P.REEL_LOST, P.REEL_QUEUE_HIGH, P.REEL_TRIG_TICK,
        P.STR_TRACE_LOST] s (windowEndAt s m) := by
  unfold windowEndAt
  extract_lets y0 y1 y2 y3
  clear_value y0 y1 y3
  refine Keeps.cut (s := y2) ?_ fun h30 => ?_
  · unfold y2
    refine Keeps.step (windowEnd_keeps _) ?_ (by decide)
    refine Keeps.step (B := [.per]) (bi := []) (s := s)
        (.upd rfl fun g hg => by cases g <;> first | exact absurd hg (by decide) | rfl) ?_ (by decide)
    exact Keeps.refl _
  clear_value y2
  refine Keeps.step (B := [.per]) (bi := []) (s := y2)
      (.upd rfl fun g hg => by cases g <;> first | exact absurd hg (by decide) | rfl) ?_ (by decide)
  exact h30

theorem execTakeoverWindowEnd_keeps (s : State) :
    OutKeeps [.tick, .ops, .host, .flt, .time, .per, .arms, .cells, .lanes, .str, .belay, .dup, .reel, .tbus, .chop,
        .freeCtr] [P.FLT_LOST, P.HOST_IRQ_CAUSE, P.REEL_LOST, P.REEL_QUEUE_HIGH, P.REEL_TRIG_TICK,
        P.STR_TRACE_LOST] s (execTakeoverWindowEnd s) := by
  unfold execTakeoverWindowEnd
  extract_lets y0
  clear_value y0
  refine OutKeeps.clocked ?_ ?_
  · exact Keeps.refl _
  · refine OutKeeps.ite ?_ ?_
    · split
      · refine OutKeeps.ends reelObserve_keeps (by decide) ?_
        refine Keeps.atMark (by decide) advanceTo_keeps ?_ fun x30 h31 => ?_
        · exact Keeps.refl _
        · exact Keeps.step (windowEndAt_keeps _ _) h31 (by decide)
      · refine OutKeeps.ends reelObserve_keeps (by decide) ?_
        refine Keeps.atMark (by decide) advanceTo_keeps ?_ fun x32 h33 => ?_
        · exact Keeps.refl _
        · exact Keeps.step (windowEndAt_keeps _ _) h33 (by decide)
      · exact OutKeeps.ends reelObserve_keeps (by decide) (Keeps.refl _)
    · exact OutKeeps.ends reelObserve_keeps (by decide) (Keeps.refl _)

theorem execPeerDataFrame_keeps (frame : PeerData) (s : State) :
    OutKeeps [.tables, .ops, .host, .flt, .time, .per, .arms, .cells, .lanes, .str, .belay, .dup, .reel, .tbus,
        .tally, .freeCtr] [P.DUP_MARK_SKEW, P.FLT_LOST, P.HOST_IRQ_CAUSE, P.LANE_ERR_COUNT, P.LANE_ERR_TOTAL,
        P.REEL_LOST, P.REEL_QUEUE_HIGH, P.REEL_TRIG_TICK, P.STR_TRACE_LOST] s (execPeerDataFrame frame s) := by
  unfold execPeerDataFrame
  extract_lets y0 y1 y2 y3
  clear_value y0
  refine OutKeeps.cut (s := y1) ?_ fun h30 => ?_
  · unfold y1
    exact Keeps.step (slewCell_keeps _ _) (Keeps.refl _) (by decide)
  clear_value y1
  refine OutKeeps.cut (s := y2) ?_ fun h31 => ?_
  · unfold y2
    refine Keeps.ite ?_ ?_
    · exact Keeps.step (slewMark_keeps _ _) h30 (by decide)
    · exact h30
  clear_value y2
  refine OutKeeps.cut (s := y3) ?_ fun h32 => ?_
  · unfold y3
    refine Keeps.ite ?_ ?_
    · exact Keeps.step (updDup_keeps _ _) h31 (by decide)
    · exact Keeps.refl _
  clear_value y3
  refine OutKeeps.clocked ?_ ?_
  · exact Keeps.refl _
  · refine OutKeeps.ite ?_ ?_
    · exact OutKeeps.ends reelObserve_keeps (by decide) (Keeps.refl _)
    · refine OutKeeps.ite ?_ ?_
      · refine OutKeeps.ends reelObserve_keeps (by decide) ?_
        exact Keeps.step (laneError_keeps _ _) (Keeps.refl _) (by decide)
      · refine OutKeeps.ite ?_ ?_
        · exact OutKeeps.ends reelObserve_keeps (by decide) (Keeps.refl _)
        · exact OutKeeps.ends reelObserve_keeps (by decide) (Keeps.step (peerDigests_keeps _ _) h32 (by decide))

theorem execPeerHeartbeat_keeps (header : PeerHeader) (crc : Word) (s : State) :
    OutKeeps [.tables, .ops, .host, .flt, .arms, .cells, .lanes, .str, .belay, .dup, .reel, .tbus, .tally,
        .freeCtr] [P.FLT_LOST, P.HOST_IRQ_CAUSE, P.LANE_ERR_COUNT, P.LANE_ERR_TOTAL, P.REEL_LOST, P.REEL_QUEUE_HIGH,
        P.REEL_TRIG_TICK, P.STR_TRACE_LOST] s (execPeerHeartbeat header s crc) := by
  unfold execPeerHeartbeat
  extract_lets y0 y1
  clear_value y0 y1
  refine OutKeeps.clocked ?_ ?_
  · exact Keeps.refl _
  · refine OutKeeps.ite ?_ ?_
    · exact OutKeeps.ends reelObserve_keeps (by decide) (Keeps.refl _)
    · refine OutKeeps.ite ?_ ?_
      · refine OutKeeps.ends reelObserve_keeps (by decide) ?_
        exact Keeps.step (laneError_keeps _ _) (Keeps.refl _) (by decide)
      · refine OutKeeps.ite ?_ ?_
        · exact OutKeeps.ends reelObserve_keeps (by decide) (Keeps.refl _)
        · refine OutKeeps.ite ?_ ?_
          · refine OutKeeps.ends reelObserve_keeps (by decide) ?_
            exact Keeps.step (updDup_keeps _ _) (Keeps.refl _) (by decide)
          · refine OutKeeps.ends reelObserve_keeps (by decide) ?_
            exact Keeps.step (updDup_keeps _ _) (Keeps.refl _) (by decide)

end Sys2Proof.Machine
end

