-- ==== Sys2Proof/Laws/FairleadFrame.lean ====
section
/-! SUPPORT. What each operation of `Machine/Fairlead.lean` may change, and that it changes nothing else. -/

namespace Sys2Proof.Machine

theorem traceCtrl_keeps (s : State) (old : Nat) (new : Nat) :
    Keeps [.str, .freeCtr] [P.STR_TRACE_CTRL, P.STR_TRACE_LOST] s (traceCtrl s old new) := by
  unfold traceCtrl
  extract_lets y0
  clear_value y0
  refine Keeps.ite ?_ ?_
  · refine Keeps.step (B := [.str]) (bi := []) (s := s)
      (.upd rfl fun g hg => by cases g <;> first | exact absurd hg (by decide) | rfl) ?_ (by decide)
    exact Keeps.refl _
  · refine Keeps.ite ?_ ?_
    · refine Keeps.step (putN_keeps _ _ _ _) ?_ (by decide)
      refine Keeps.step (traceFreeze_keeps _) ?_ (by decide)
      exact Keeps.step (putN_keeps _ _ _ _) (Keeps.refl _) (by decide)
    · exact Keeps.refl _

theorem traceReadBody_keeps (c : Cmd) (s : State) :
    ResKeeps [] [] s (traceReadBody c s) := by
  unfold traceReadBody
  refine ResKeeps.check ?_
  show Keeps _ _ _ _
  exact Keeps.refl _

theorem patchStore_keeps (s : State) (off : Nat) (ws : List Word) :
    Keeps [.str, .tally, .freeCtr] [P.STR_PATCH_LEVEL, P.STR_PATCH_STATE, P.STR_READY_MAX, P.STR_SLOTS_HIGH,
        P.STR_TRACE_LOST] s (patchStore s off ws) := by
  unfold patchStore
  extract_lets y0 y1 y2 y3
  clear_value y0 y1
  refine Keeps.cut (s := y2) ?_ fun h30 => ?_
  · unfold y2
    refine Keeps.step (B := [.str]) (bi := []) (s := s)
        (.upd rfl fun g hg => by cases g <;> first | exact absurd hg (by decide) | rfl) ?_ (by decide)
    exact Keeps.refl _
  clear_value y2
  refine Keeps.cut (s := y3) ?_ fun h31 => ?_
  · unfold y3
    exact Keeps.step (putN_keeps _ _ _ _) (Keeps.step (putN_keeps _ _ _ _) h30 (by decide)) (by decide)
  clear_value y3
  refine Keeps.ite ?_ ?_
  · exact Keeps.step (tallyStale_keeps _) h31 (by decide)
  · exact h31

theorem fwPatchBody_keeps (c : Cmd) (s : State) :
    ResKeeps [.ops, .str, .tally, .freeCtr] [P.STR_PATCH_LEVEL, P.STR_PATCH_STATE, P.STR_READY_MAX,
        P.STR_SLOTS_HIGH, P.STR_TRACE_LOST] s (fwPatchBody c s) := by
  unfold fwPatchBody
  extract_lets y0 y1
  clear_value y0
  refine ResKeeps.cut (s := y1) ?_ fun h30 => ?_
  · unfold y1
    exact Keeps.step (patchStore_keeps _ _ _) (Keeps.refl _) (by decide)
  clear_value y1
  refine ResKeeps.check ?_
  refine ResKeeps.ite ?_ ?_
  · refine ResKeeps.accepted ?_ fun x31 => ?_
    · exact Keeps.step (startOp_keeps _ _ _ _ _) h30 (by decide)
    · dsimp only [id]
      exact Keeps.refl _
  · exact ResKeeps.done h30

theorem patchEnd_keeps (s : State) (o : LongOp) :
    Keeps [.ops, .host, .str, .tally, .freeCtr] [P.HOST_IRQ_CAUSE, P.STR_PATCH_LEVEL, P.STR_PATCH_STATE,
        P.STR_READY_MAX, P.STR_SLOTS_HIGH, P.STR_TRACE_LOST] s (patchEnd s o) := by
  unfold patchEnd
  extract_lets y0 y1 y2
  clear_value y0
  refine Keeps.cut (s := y1) ?_ fun h30 => ?_
  · unfold y1
    refine Keeps.step (B := [.str]) (bi := []) (s := s)
        (.upd rfl fun g hg => by cases g <;> first | exact absurd hg (by decide) | rfl) ?_ (by decide)
    exact Keeps.refl _
  clear_value y1
  refine Keeps.cut (s := y2) ?_ fun h31 => ?_
  · unfold y2
    exact Keeps.step (putP_keeps _ _ _ _) (Keeps.step (putN_keeps _ _ _ _) h30 (by decide)) (by decide)
  clear_value y2
  split
  · exact Keeps.step (completeErr_keeps _ _ _) (Keeps.step (putN_keeps _ _ _ _) h30 (by decide)) (by decide)
  · exact Keeps.step (completeOk_keeps _ _ _) (Keeps.step (tallyStale_keeps _) h31 (by decide)) (by decide)

theorem taskDone_keeps (s : State) (n : Nat) (i : Nat) (t : Task) :
    Keeps [.flt, .arms, .str, .tally, .freeCtr] [P.BAL_IFC, P.BAL_PASS_TICKS, P.BAL_SPREAD, P.BUD_DEMAND,
        P.BUD_GRANT, P.BUD_STATUS, P.BUD_UNGRANTED, P.STR_BUSY, P.STR_READY_MAX, P.STR_SLOTS_HIGH, P.STR_TRACE_LOST,
        P.TALLY_BLOCK, P.TALLY_CONVERTER] s (taskDone s n i t) := by
  unfold taskDone
  extract_lets y0 y1 y2 y3 y4
  refine Keeps.cut (s := y0) ?_ fun h30 => ?_
  · unfold y0
    exact Keeps.step (traceTask_keeps _ _ _ _ _) (Keeps.refl _) (by decide)
  clear_value y0
  refine Keeps.cut (s := y1) ?_ fun h31 => ?_
  · unfold y1
    exact Keeps.step (busyAdd_keeps _ _ _ _) h30 (by decide)
  clear_value y1
  refine Keeps.cut (s := y2) ?_ fun h32 => ?_
  · unfold y2
    exact Keeps.step (taskEffect_keeps _ _) h31 (by decide)
  clear_value y2
  refine Keeps.cut (s := y3) ?_ fun h33 => ?_
  · unfold y3
    exact Keeps.step (freeTask_keeps _ _) h32 (by decide)
  clear_value y3
  refine Keeps.cut (s := y4) ?_ fun h34 => ?_
  · unfold y4
    refine Keeps.foldl ?_ fun x35 a36 h37 => ?_
    · exact h33
    · exact Keeps.step (decTask_keeps _ _) h37 (by decide)
  clear_value y4
  exact Keeps.step (releaseStrand_keeps _ _) h34 (by decide)

theorem taskCompleteAt_keeps (s : State) (n : Nat) :
    Keeps [.tick, .flt, .time, .arms, .str, .chop, .tally, .freeCtr] [P.BAL_IFC, P.BAL_PASS_TICKS, P.BAL_SPREAD,
        P.BUD_DEMAND, P.BUD_GRANT, P.BUD_STATUS, P.BUD_UNGRANTED, P.STR_BUSY, P.STR_DEADLINE_MISS, P.STR_READY_MAX,
        P.STR_SLOTS_HIGH, P.STR_TRACE_LOST, P.TALLY_BLOCK, P.TALLY_CONVERTER] s (taskCompleteAt s n) := by
  unfold taskCompleteAt
  split
  · exact Keeps.refl _
  · extract_lets y30 y31
    clear_value y30
    refine Keeps.cut (s := y31) ?_ fun h60 => ?_
    · unfold y31
      exact Keeps.step (advanceTo_keeps _ _) (Keeps.refl _) (by decide)
    clear_value y31
    refine Keeps.ite ?_ ?_
    · exact Keeps.step (abandonTask_keeps _ _) h60 (by decide)
    · exact Keeps.step (taskDone_keeps _ _ _ _) h60 (by decide)

theorem execFwPatch_keeps (c : Cmd) (s : State) :
    OutKeeps [.ops, .host, .flt, .str, .reel, .tbus, .tally, .freeCtr] [P.HOST_IRQ_CAUSE, P.REEL_LOST,
        P.REEL_QUEUE_HIGH, P.REEL_TRIG_TICK, P.STR_PATCH_LEVEL, P.STR_PATCH_STATE, P.STR_READY_MAX,
        P.STR_SLOTS_HIGH, P.STR_TRACE_LOST] s (execFwPatch c s) := by
  unfold execFwPatch
  refine OutKeeps.ends reelObserve_keeps (by decide) ?_
  refine Keeps.runCmd goodPacket_keeps answer_keeps (by decide) ?_ fun x0 => ?_
  · exact Keeps.refl _
  · exact ResKeeps.mono (fwPatchBody_keeps _ _) (Keeps.refl _) (by decide)

theorem execFwPatchDone_keeps (s : State) :
    OutKeeps [.ops, .host, .str, .reel, .tbus, .tally, .freeCtr] [P.HOST_IRQ_CAUSE, P.REEL_LOST, P.REEL_QUEUE_HIGH,
        P.REEL_TRIG_TICK, P.STR_PATCH_LEVEL, P.STR_PATCH_STATE, P.STR_READY_MAX, P.STR_SLOTS_HIGH,
        P.STR_TRACE_LOST] s (execFwPatchDone s) := by
  unfold execFwPatchDone
  refine OutKeeps.clocked ?_ ?_
  · exact Keeps.refl _
  · refine OutKeeps.ends reelObserve_keeps (by decide) ?_
    split
    · exact Keeps.refl _
    · exact Keeps.step (patchEnd_keeps _ _) (Keeps.refl _) (by decide)

theorem execTaskComplete_keeps (strand : Fin 8) (s : State) :
    OutKeeps [.tick, .host, .flt, .time, .arms, .str, .reel, .tbus, .chop, .tally, .freeCtr] [P.BAL_IFC,
        P.BAL_PASS_TICKS, P.BAL_SPREAD, P.BUD_DEMAND, P.BUD_GRANT, P.BUD_STATUS, P.BUD_UNGRANTED, P.HOST_IRQ_CAUSE,
        P.REEL_LOST, P.REEL_QUEUE_HIGH, P.REEL_TRIG_TICK, P.STR_BUSY, P.STR_DEADLINE_MISS, P.STR_READY_MAX,
        P.STR_SLOTS_HIGH, P.STR_TRACE_LOST, P.TALLY_BLOCK, P.TALLY_CONVERTER] s (execTaskComplete strand s) := by
  unfold execTaskComplete
  refine OutKeeps.clocked ?_ ?_
  · exact Keeps.refl _
  · refine OutKeeps.ends reelObserve_keeps (by decide) ?_
    exact Keeps.step (taskCompleteAt_keeps _ _) (Keeps.refl _) (by decide)

theorem execTaskDeadline_keeps (slot : Fin 256) (s : State) :
    OutKeeps [.tick, .host, .flt, .time, .str, .reel, .tbus, .chop, .freeCtr] [P.HOST_IRQ_CAUSE, P.REEL_LOST,
        P.REEL_QUEUE_HIGH, P.REEL_TRIG_TICK, P.STR_BUSY, P.STR_DEADLINE_MISS, P.STR_READY_MAX, P.STR_SLOTS_HIGH,
        P.STR_TRACE_LOST] s (execTaskDeadline slot s) := by
  unfold execTaskDeadline
  refine OutKeeps.clocked ?_ ?_
  · exact Keeps.refl _
  · refine OutKeeps.ends reelObserve_keeps (by decide) ?_
    split
    · exact Keeps.refl _
    · refine Keeps.atMark (by decide) advanceTo_keeps ?_ fun x0 h1 => ?_
      · exact Keeps.refl _
      · exact Keeps.step (abandonTask_keeps _ _) h1 (by decide)

theorem execTaskPlace_keeps (s : State) :
    OutKeeps [.host, .str, .reel, .tbus, .freeCtr] [P.HOST_IRQ_CAUSE, P.REEL_LOST, P.REEL_QUEUE_HIGH,
        P.REEL_TRIG_TICK, P.STR_TRACE_LOST, P.STR_WAIT_MAX] s (execTaskPlace s) := by
  unfold execTaskPlace
  refine OutKeeps.clocked ?_ ?_
  · exact Keeps.refl _
  · exact OutKeeps.ends reelObserve_keeps (by decide) (Keeps.step (placeTasks_keeps _) (Keeps.refl _) (by decide))

theorem execTraceRead_keeps (c : Cmd) (s : State) :
    OutKeeps [.host, .flt, .reel, .tbus, .freeCtr] [P.HOST_IRQ_CAUSE, P.REEL_LOST, P.REEL_QUEUE_HIGH,
        P.REEL_TRIG_TICK] s (execTraceRead c s) := by
  unfold execTraceRead
  refine OutKeeps.ends reelObserve_keeps (by decide) ?_
  refine Keeps.runCmd goodPacket_keeps answer_keeps (by decide) ?_ fun x0 => ?_
  · exact Keeps.refl _
  · exact ResKeeps.mono (traceReadBody_keeps _ _) (Keeps.refl _) (by decide)

theorem execStrandSramError_keeps (strand : Fin 8) (corrected : Bool) (s : State) :
    OutKeeps [.host, .flt, .arms, .cells, .lanes, .str, .belay, .reel, .tbus, .freeCtr] [P.FLT_LOST,
        P.HOST_IRQ_CAUSE, P.REEL_LOST, P.REEL_QUEUE_HIGH, P.REEL_TRIG_TICK, P.STR_BUSY, P.STR_DEADLINE_MISS,
        P.STR_READY_MAX, P.STR_SLOTS_HIGH, P.STR_SRAM_CORR, P.STR_TRACE_LOST] s (execStrandSramError strand s corrected) := by
  unfold execStrandSramError
  refine OutKeeps.clocked ?_ ?_
  · exact Keeps.refl _
  · refine OutKeeps.ends reelObserve_keeps (by decide) ?_
    refine Keeps.ite ?_ ?_
    · exact Keeps.step (incP_keeps _ _ _) (Keeps.refl _) (by decide)
    · exact Keeps.step (stopTask_keeps _ _ _) (Keeps.refl _) (by decide)

theorem execTaskWatchdog_keeps (strand : Fin 8) (s : State) :
    OutKeeps [.tick, .host, .flt, .time, .arms, .cells, .lanes, .str, .belay, .reel, .tbus, .chop,
        .freeCtr] [P.FLT_LOST, P.HOST_IRQ_CAUSE, P.REEL_LOST, P.REEL_QUEUE_HIGH, P.REEL_TRIG_TICK, P.STR_BUSY,
        P.STR_DEADLINE_MISS, P.STR_READY_MAX, P.STR_SLOTS_HIGH, P.STR_TRACE_LOST] s (execTaskWatchdog strand s) := by
  unfold execTaskWatchdog
  refine OutKeeps.clocked ?_ ?_
  · exact Keeps.refl _
  · refine OutKeeps.ends reelObserve_keeps (by decide) ?_
    split
    · exact Keeps.refl _
    · refine Keeps.step (stopTask_keeps _ _ _) ?_ (by decide)
      exact Keeps.step (advanceTo_keeps _ _) (Keeps.refl _) (by decide)

end Sys2Proof.Machine
end

