-- ==== Sys2Proof/Laws/ArmsFrame.lean ====
section
/-! SUPPORT. What each operation of `Machine/Arms.lean` may change, and that it changes nothing else. -/

namespace Sys2Proof.Machine

theorem armEnableBody_keeps (c : Cmd) (s : State) :
    ResKeeps [] [] s (armEnableBody c s) := by
  unfold armEnableBody
  exact ResKeeps.check (ResKeeps.done (Keeps.refl _))

theorem blockBody_keeps (c : Cmd) (s : State) :
    ResKeeps [.arms] [] s (blockBody c s) := by
  unfold blockBody
  exact ResKeeps.done (Keeps.step (blockArms_keeps _ _) (Keeps.refl _) (by decide))

theorem deblockArms_keeps (s : State) (m : Nat) :
    Keeps [.arms, .disc] [] s (deblockArms s m) := by
  unfold deblockArms
  extract_lets y0
  refine Keeps.cut (s := y0) ?_ fun h30 => ?_
  · unfold y0
    refine Keeps.foldl ?_ fun x31 a32 h33 => ?_
    · exact Keeps.refl _
    · refine Keeps.ite ?_ ?_
      · exact h33
      · exact Keeps.step (updArm_keeps _ _ _) h33 (by decide)
  clear_value y0
  exact Keeps.step (mtAbort_keeps _) h30 (by decide)

theorem deblockBody_keeps (c : Cmd) (s : State) :
    ResKeeps [.host, .flt, .arms, .cells, .lanes, .str, .belay, .reel, .tbus, .disc, .freeCtr] [P.HOST_IRQ_CAUSE,
        P.REEL_LOST, P.REEL_QUEUE_HIGH, P.REEL_TRIG_TICK, P.STR_TRACE_LOST] s (deblockBody c s) := by
  unfold deblockBody
  exact ResKeeps.check (ResKeeps.done (Keeps.step (deblockArms_keeps _ _) (Keeps.refl _) (by decide)))

theorem execArmEnable_keeps (c : Cmd) (s : State) :
    OutKeeps [.host, .flt, .reel, .tbus, .freeCtr] [P.HOST_IRQ_CAUSE, P.REEL_LOST, P.REEL_QUEUE_HIGH,
        P.REEL_TRIG_TICK] s (execArmEnable c s) := by
  unfold execArmEnable
  refine OutKeeps.ends reelObserve_keeps (by decide) ?_
  refine Keeps.runCmd goodPacket_keeps answer_keeps (by decide) ?_ fun x0 => ?_
  · exact Keeps.refl _
  · exact ResKeeps.mono (armEnableBody_keeps _ _) (Keeps.refl _) (by decide)

theorem execBlock_keeps (c : Cmd) (s : State) :
    OutKeeps [.host, .flt, .arms, .reel, .tbus, .freeCtr] [P.HOST_IRQ_CAUSE, P.REEL_LOST, P.REEL_QUEUE_HIGH,
        P.REEL_TRIG_TICK] s (execBlock c s) := by
  unfold execBlock
  refine OutKeeps.ends reelObserve_keeps (by decide) ?_
  refine Keeps.runCmd goodPacket_keeps answer_keeps (by decide) ?_ fun x0 => ?_
  · exact Keeps.refl _
  · exact ResKeeps.mono (blockBody_keeps _ _) (Keeps.refl _) (by decide)

theorem execDeblock_keeps (c : Cmd) (s : State) :
    OutKeeps [.host, .flt, .arms, .cells, .lanes, .str, .belay, .reel, .tbus, .disc, .freeCtr] [P.HOST_IRQ_CAUSE,
        P.REEL_LOST, P.REEL_QUEUE_HIGH, P.REEL_TRIG_TICK, P.STR_TRACE_LOST] s (execDeblock c s) := by
  unfold execDeblock
  refine OutKeeps.ends reelObserve_keeps (by decide) ?_
  refine Keeps.runCmd goodPacket_keeps answer_keeps (by decide) ?_ fun x0 => ?_
  · exact Keeps.refl _
  · exact ResKeeps.mono (deblockBody_keeps _ _) (Keeps.refl _) (by decide)

end Sys2Proof.Machine
end

