-- ==== Sys2Proof/Laws/LanesFrame.lean ====
section
/-! SUPPORT. What each operation of `Machine/Lanes.lean` may change, and that it changes nothing else. -/

namespace Sys2Proof.Machine

theorem awaitEntry_keeps (s : State) (l : Nat) :
    Keeps [.lanes] [] s (awaitEntry s l) := by
  unfold awaitEntry
  exact Keeps.step (updLane_keeps _ _ _) (Keeps.refl _) (by decide)

theorem eyeScanBody_keeps (c : Cmd) (s : State) :
    ResKeeps [.tables, .ops] [] s (eyeScanBody c s) := by
  unfold eyeScanBody
  extract_lets y0 y1 y2
  clear_value y0 y1
  refine ResKeeps.cut (s := y2) ?_ fun h30 => ?_
  · unfold y2
    exact Keeps.step (startOp_keeps _ _ _ _ _) (Keeps.refl _) (by decide)
  clear_value y2
  refine ResKeeps.check ?_
  refine ResKeeps.accepted ?_ fun x31 => ?_
  · exact h30
  · exact Keeps.step (putTable_keeps _ _ _ _) (Keeps.refl _) (by decide)

theorem laneRetireBody_keeps (c : Cmd) (s : State) :
    ResKeeps [.lanes] [] s (laneRetireBody c s) := by
  unfold laneRetireBody
  extract_lets y0
  clear_value y0
  refine ResKeeps.ite ?_ ?_
  · exact ResKeeps.done (Keeps.refl _)
  · exact ResKeeps.check (ResKeeps.done (Keeps.step (updLane_keeps _ _ _) (Keeps.refl _) (by decide)))

theorem loopEndNow_keeps (s : State) (l : Nat) :
    ResKeeps [.lanes] [] s (loopEndNow s l) := by
  unfold loopEndNow
  refine ResKeeps.ite ?_ ?_
  · exact ResKeeps.done (Keeps.step (updLane_keeps _ _ _) (Keeps.refl _) (by decide))
  · trivial

theorem loopStage_keeps (s : State) (l : Nat) (st : LaneSt) (pass2 : Bool) :
    Keeps [.lanes] [] s (loopStage s l st pass2) := by
  unfold loopStage
  exact Keeps.step (updLane_keeps _ _ _) (Keeps.refl _) (by decide)

theorem loopCaps_keeps (s : State) (l : Nat) (hub : Nat) (mask : Nat) (low : Nat) (selectOk : Bool) :
    Keeps [.lanes] [] s (loopCaps s l hub mask low selectOk) := by
  unfold loopCaps
  split
  · exact Keeps.refl _
  · extract_lets y30
    refine Keeps.cut (s := y30) ?_ fun h60 => ?_
    · unfold y30
      exact Keeps.step (updLane_keeps _ _ _) (Keeps.refl _) (by decide)
    clear_value y30
    refine Keeps.ite ?_ ?_
    · exact h60
    · refine Keeps.ite ?_ ?_
      · exact Keeps.step (loopStage_keeps _ _ _ _) h60 (by decide)
      · exact Keeps.step (loopStage_keeps _ _ _ _) h60 (by decide)

theorem endLaneOp_keeps (s : State) (op : Nat) (l : Nat) :
    Keeps [.ops, .host] [P.HOST_IRQ_CAUSE] s (endLaneOp s op l) := by
  unfold endLaneOp
  split
  · exact Keeps.step (completeErr_keeps _ _ _) (Keeps.refl _) (by decide)
  · exact Keeps.refl _

theorem scanLost_keeps (s : State) (l : Nat) (pts : List (BitVec 16)) :
    Keeps [.tables, .ops, .host] [P.HOST_IRQ_CAUSE] s (scanLost s l pts) := by
  unfold scanLost
  split
  · refine Keeps.step (completeErr_keeps _ _ _) ?_ (by decide)
    exact Keeps.step (eyeStore_keeps _ _ _ _ _) (Keeps.refl _) (by decide)
  · exact Keeps.refl _

theorem execEyeScan_keeps (c : Cmd) (s : State) :
    OutKeeps [.tables, .ops, .host, .flt, .reel, .tbus, .freeCtr] [P.HOST_IRQ_CAUSE, P.REEL_LOST, P.REEL_QUEUE_HIGH,
        P.REEL_TRIG_TICK] s (execEyeScan c s) := by
  unfold execEyeScan
  refine OutKeeps.ends reelObserve_keeps (by decide) ?_
  refine Keeps.runCmd goodPacket_keeps answer_keeps (by decide) ?_ fun x0 => ?_
  · exact Keeps.refl _
  · exact ResKeeps.mono (eyeScanBody_keeps _ _) (Keeps.refl _) (by decide)

theorem execEyeScanDone_keeps (points : List (BitVec 16)) (s : State) :
    OutKeeps [.tick, .tables, .ops, .host, .flt, .time, .str, .reel, .tbus, .chop, .freeCtr] [P.HOST_IRQ_CAUSE,
        P.REEL_LOST, P.REEL_QUEUE_HIGH, P.REEL_TRIG_TICK] s (execEyeScanDone points s) := by
  unfold execEyeScanDone
  refine OutKeeps.clocked ?_ ?_
  · exact Keeps.refl _
  · split
    · exact OutKeeps.ends reelObserve_keeps (by decide) (Keeps.refl _)
    · extract_lets y60 y61
      refine OutKeeps.cut (s := y60) ?_ fun h90 => ?_
      · unfold y60
        exact Keeps.step (advanceTo_keeps _ _) (Keeps.refl _) (by decide)
      clear_value y60
      refine OutKeeps.cut (s := y61) ?_ fun h91 => ?_
      · unfold y61
        exact Keeps.step (eyeStore_keeps _ _ _ _ _) h90 (by decide)
      clear_value y61
      exact OutKeeps.ends reelObserve_keeps (by decide) (Keeps.step (completeOk_keeps _ _ _) h91 (by decide))

theorem execLaneErrorWindowEnd_keeps (lane : Fin 66) (s : State) :
    OutKeeps [.tick, .host, .flt, .time, .lanes, .str, .reel, .tbus, .chop, .freeCtr] [P.HOST_IRQ_CAUSE,
        P.LANE_ERR_COUNT, P.REEL_LOST, P.REEL_QUEUE_HIGH, P.REEL_TRIG_TICK] s (execLaneErrorWindowEnd lane s) := by
  unfold execLaneErrorWindowEnd
  extract_lets y0 y1 y2 y3
  clear_value y0
  refine OutKeeps.cut (s := y1) ?_ fun h30 => ?_
  · unfold y1
    exact Keeps.step (advanceTo_keeps _ _) (Keeps.refl _) (by decide)
  clear_value y1
  refine OutKeeps.cut (s := y2) ?_ fun h31 => ?_
  · unfold y2
    refine Keeps.ite ?_ ?_
    · exact Keeps.step (causeGone_keeps _ _ _) h30 (by decide)
    · exact h30
  clear_value y2
  refine OutKeeps.cut (s := y3) ?_ fun h32 => ?_
  · unfold y3
    exact Keeps.step (putN_keeps _ _ _ _) h31 (by decide)
  clear_value y3
  refine OutKeeps.clocked ?_ ?_
  · exact Keeps.refl _
  · refine OutKeeps.ite ?_ ?_
    · exact OutKeeps.ends reelObserve_keeps (by decide) (Keeps.step (updLane_keeps _ _ _) h32 (by decide))
    · exact OutKeeps.ends reelObserve_keeps (by decide) (Keeps.refl _)

theorem execLaneLoopEnd_keeps (lane : Fin 66) (received : Word) (crcBad : Word) (bitErrs : Word) (losses : Word) (s : State) :
    OutKeeps [.tick, .ops, .host, .flt, .time, .lanes, .str, .reel, .tbus, .chop, .freeCtr] [P.HOST_IRQ_CAUSE,
        P.REEL_LOST, P.REEL_QUEUE_HIGH, P.REEL_TRIG_TICK] s (execLaneLoopEnd lane received crcBad bitErrs losses s) := by
  unfold execLaneLoopEnd
  refine OutKeeps.clocked ?_ ?_
  · exact Keeps.refl _
  · split
    · extract_lets y60 y61
      refine OutKeeps.cut (s := y60) ?_ fun h90 => ?_
      · unfold y60
        exact Keeps.step (advanceTo_keeps _ _) (Keeps.refl _) (by decide)
      clear_value y60
      refine OutKeeps.cut (s := y61) ?_ fun h91 => ?_
      · unfold y61
        exact Keeps.step (updLane_keeps _ _ _) h90 (by decide)
      clear_value y61
      exact OutKeeps.ends reelObserve_keeps (by decide) (Keeps.step (completeOk_keeps _ _ _) h91 (by decide))
    · exact OutKeeps.ends reelObserve_keeps (by decide) (Keeps.refl _)

theorem execLaneRetire_keeps (c : Cmd) (s : State) :
    OutKeeps [.host, .flt, .lanes, .reel, .tbus, .freeCtr] [P.HOST_IRQ_CAUSE, P.REEL_LOST, P.REEL_QUEUE_HIGH,
        P.REEL_TRIG_TICK] s (execLaneRetire c s) := by
  unfold execLaneRetire
  refine OutKeeps.ends reelObserve_keeps (by decide) ?_
  refine Keeps.runCmd goodPacket_keeps answer_keeps (by decide) ?_ fun x0 => ?_
  · exact Keeps.refl _
  · exact ResKeeps.mono (laneRetireBody_keeps _ _) (Keeps.refl _) (by decide)

theorem execRetryWindowEnd_keeps (lane : Fin 66) (s : State) :
    OutKeeps [.tick, .host, .flt, .time, .lanes, .str, .reel, .tbus, .chop, .freeCtr] [P.HOST_IRQ_CAUSE,
        P.REEL_LOST, P.REEL_QUEUE_HIGH, P.REEL_TRIG_TICK] s (execRetryWindowEnd lane s) := by
  unfold execRetryWindowEnd
  refine OutKeeps.clocked ?_ ?_
  · exact Keeps.refl _
  · split
    · exact OutKeeps.ends reelObserve_keeps (by decide) (Keeps.refl _)
    · refine OutKeeps.ends reelObserve_keeps (by decide) ?_
      refine Keeps.step (updLane_keeps _ _ _) ?_ (by decide)
      exact Keeps.step (advanceTo_keeps _ _) (Keeps.refl _) (by decide)

theorem laneLoopBody_keeps (c : Cmd) (s : State) :
    ResKeeps [.tables, .ops, .host, .flt, .arms, .cells, .lanes, .str, .belay, .reel, .tbus, .tally,
        .freeCtr] [P.FLT_LOST, P.HOST_IRQ_CAUSE, P.REEL_LOST, P.REEL_QUEUE_HIGH, P.REEL_TRIG_TICK,
        P.STR_TRACE_LOST] s (laneLoopBody c s) := by
  unfold laneLoopBody
  extract_lets y0 y1 y2
  clear_value y0 y1 y2
  refine ResKeeps.ite ?_ ?_
  · exact ResKeeps.check (ResKeeps.mono (loopEndNow_keeps _ _) (Keeps.refl _) (by decide))
  · refine ResKeeps.check ?_
    refine ResKeeps.accepted ?_ fun x120 => ?_
    · exact Keeps.step (startOp_keeps _ _ _ _ _) (Keeps.refl _) (by decide)
    · extract_lets y122
      refine Keeps.cut (s := y122) ?_ fun h152 => ?_
      · unfold y122
        refine Keeps.step (closeRetry_keeps _ _) ?_ (by decide)
        exact Keeps.step (laneTo_keeps _ _ _) (Keeps.refl _) (by decide)
      clear_value y122
      exact Keeps.step (updLane_keeps _ _ _) h152 (by decide)

theorem capsDone_keeps (s : State) (l : Nat) (hub : Nat) (mask : Nat) (low : Nat) (selectOk : Bool) (port : Nat) :
    Keeps [.tables, .ops, .host, .flt, .arms, .cells, .lanes, .str, .belay, .reel, .tbus, .tally,
        .freeCtr] [P.FLT_LOST, P.HOST_IRQ_CAUSE, P.LANE_FAIL, P.REEL_LOST, P.REEL_QUEUE_HIGH, P.REEL_TRIG_TICK,
        P.STR_TRACE_LOST] s (capsDone s l hub mask low selectOk port) := by
  unfold capsDone
  extract_lets y0 y1 y2
  clear_value y0
  refine Keeps.cut (s := y1) ?_ fun h30 => ?_
  · unfold y1
    exact Keeps.step (updLane_keeps _ _ _) (Keeps.refl _) (by decide)
  clear_value y1
  refine Keeps.cut (s := y2) ?_ fun h31 => ?_
  · unfold y2
    exact Keeps.step (updLane_keeps _ _ _) h30 (by decide)
  clear_value y2
  refine Keeps.ite ?_ ?_
  · exact Keeps.step (bringupFail_keeps _ _ _ _) h30 (by decide)
  · refine Keeps.ite ?_ ?_
    · exact Keeps.step (bringupFail_keeps _ _ _ _) h30 (by decide)
    · refine Keeps.ite ?_ ?_
      · exact Keeps.step (awaitEntry_keeps _ _) h31 (by decide)
      · exact Keeps.step (enterStage_keeps _ _ _ _) h31 (by decide)

theorem execBringupStageTimeout_keeps (lane : Fin 66) (s : State) :
    OutKeeps [.tick, .tables, .ops, .host, .flt, .time, .arms, .cells, .lanes, .str, .belay, .reel, .tbus, .chop,
        .tally, .freeCtr] [P.FLT_LOST, P.HOST_IRQ_CAUSE, P.LANE_FAIL, P.REEL_LOST, P.REEL_QUEUE_HIGH,
        P.REEL_TRIG_TICK, P.STR_TRACE_LOST] s (execBringupStageTimeout lane s) := by
  unfold execBringupStageTimeout
  extract_lets y0 y1
  clear_value y0
  refine OutKeeps.cut (s := y1) ?_ fun h30 => ?_
  · unfold y1
    exact Keeps.step (advanceTo_keeps _ _) (Keeps.refl _) (by decide)
  clear_value y1
  refine OutKeeps.clocked ?_ ?_
  · exact Keeps.refl _
  · refine OutKeeps.ite ?_ ?_
    · exact OutKeeps.ends reelObserve_keeps (by decide) (Keeps.step (bringupFail_keeps _ _ _ _) h30 (by decide))
    · exact OutKeeps.ends reelObserve_keeps (by decide) (Keeps.refl _)

theorem execCapsDone_keeps (lane : Fin 66) (hubGen : BitVec 2) (mask : BitVec 48) (cellGens : List (BitVec 2))
      (selectOk : Bool) (activePort : BitVec 2) (s : State) :
    OutKeeps [.tables, .ops, .host, .flt, .arms, .cells, .lanes, .str, .belay, .reel, .tbus, .tally,
        .freeCtr] [P.FLT_LOST, P.HOST_IRQ_CAUSE, P.LANE_FAIL, P.REEL_LOST, P.REEL_QUEUE_HIGH, P.REEL_TRIG_TICK,
        P.STR_TRACE_LOST] s (execCapsDone lane hubGen mask cellGens selectOk activePort s) := by
  unfold execCapsDone
  extract_lets y0 y1 y2 y3
  clear_value y0 y1 y2 y3
  refine OutKeeps.clocked ?_ ?_
  · exact Keeps.refl _
  · refine OutKeeps.ite ?_ ?_
    · refine OutKeeps.ends reelObserve_keeps (by decide) ?_
      exact Keeps.step (loopCaps_keeps _ _ _ _ _ _) (Keeps.refl _) (by decide)
    · refine OutKeeps.ite ?_ ?_
      · refine OutKeeps.ends reelObserve_keeps (by decide) ?_
        exact Keeps.step (capsDone_keeps _ _ _ _ _ _ _) (Keeps.refl _) (by decide)
      · exact OutKeeps.ends reelObserve_keeps (by decide) (Keeps.refl _)

theorem execLaneLoop_keeps (c : Cmd) (s : State) :
    OutKeeps [.tables, .ops, .host, .flt, .arms, .cells, .lanes, .str, .belay, .reel, .tbus, .tally,
        .freeCtr] [P.FLT_LOST, P.HOST_IRQ_CAUSE, P.REEL_LOST, P.REEL_QUEUE_HIGH, P.REEL_TRIG_TICK,
        P.STR_TRACE_LOST] s (execLaneLoop c s) := by
  unfold execLaneLoop
  refine OutKeeps.ends reelObserve_keeps (by decide) ?_
  refine Keeps.runCmd goodPacket_keeps answer_keeps (by decide) ?_ fun x0 => ?_
  · exact Keeps.refl _
  · exact ResKeeps.mono (laneLoopBody_keeps _ _) (Keeps.refl _) (by decide)

theorem execLaneLoopEndMode0_keeps (c : Cmd) (s : State) :
    OutKeeps [.tables, .ops, .host, .flt, .arms, .cells, .lanes, .str, .belay, .reel, .tbus, .tally,
        .freeCtr] [P.FLT_LOST, P.HOST_IRQ_CAUSE, P.REEL_LOST, P.REEL_QUEUE_HIGH, P.REEL_TRIG_TICK,
        P.STR_TRACE_LOST] s (execLaneLoopEndMode0 c s) := by
  unfold execLaneLoopEndMode0
  refine OutKeeps.ends reelObserve_keeps (by decide) ?_
  refine Keeps.runCmd goodPacket_keeps answer_keeps (by decide) ?_ fun x0 => ?_
  · exact Keeps.refl _
  · exact ResKeeps.mono (laneLoopBody_keeps _ _) (Keeps.refl _) (by decide)

theorem execRebringupRetry_keeps (lane : Fin 66) (s : State) :
    OutKeeps [.tick, .params, .staged, .armedG, .tables, .ops, .host, .flt, .time, .arms, .cells, .lanes, .str,
        .belay, .reel, .tbus, .chop, .tally, .freeCtr] [] s (execRebringupRetry lane s) := by
  unfold execRebringupRetry
  refine OutKeeps.clocked ?_ ?_
  · exact Keeps.refl _
  · split
    · exact OutKeeps.ends reelObserve_keeps (by decide) (Keeps.refl _)
    · refine OutKeeps.ends reelObserve_keeps (by decide) ?_
      refine Keeps.ite ?_ ?_
      · refine Keeps.step (startBringup_keeps _ _ _) ?_ (by rfl)
        exact Keeps.step (advanceTo_keeps _ _) (Keeps.refl _) (by rfl)
      · exact Keeps.refl _

theorem laneBringupBody_keeps (c : Cmd) (s : State) :
    ResKeeps [.params, .staged, .armedG, .tables, .ops, .host, .flt, .arms, .cells, .lanes, .str, .belay, .reel,
        .tbus, .tally, .freeCtr] [] s (laneBringupBody c s) := by
  unfold laneBringupBody
  extract_lets y0
  clear_value y0
  refine ResKeeps.check ?_
  refine ResKeeps.accepted ?_ fun x30 => ?_
  · exact Keeps.step (startOp_keeps _ _ _ _ _) (Keeps.refl _) (by rfl)
  · refine Keeps.step (startBringup_keeps _ _ _) ?_ (by rfl)
    exact Keeps.step (updLane_keeps _ _ _) (Keeps.step (closeRetry_keeps _ _) (Keeps.refl _) (by rfl)) (by rfl)

theorem laneDomainOff_keeps (s : State) (l : Nat) :
    Keeps [.tables, .ops, .host, .flt, .arms, .cells, .lanes, .str, .belay, .reel, .tbus, .tally,
        .freeCtr] [P.FLT_LOST, P.HOST_IRQ_CAUSE, P.REEL_LOST, P.REEL_QUEUE_HIGH, P.REEL_TRIG_TICK,
        P.STR_TRACE_LOST] s (laneDomainOff s l) := by
  unfold laneDomainOff
  refine Keeps.step (endLaneOp_keeps _ _ _) ?_ (by decide)
  refine Keeps.step (endLaneOp_keeps _ _ _) ?_ (by decide)
  exact Keeps.step (laneOff_keeps _ _) (Keeps.refl _) (by decide)

theorem laneEnSet_keeps (s : State) :
    Keeps [.tables, .ops, .host, .pwr, .flt, .arms, .cells, .lanes, .str, .belay, .reel, .tbus, .tally,
        .freeCtr] [P.FLT_LOST, P.HOST_IRQ_CAUSE, P.REEL_LOST, P.REEL_QUEUE_HIGH, P.REEL_TRIG_TICK,
        P.STR_TRACE_LOST] s (laneEnSet s) := by
  unfold laneEnSet
  refine Keeps.ite ?_ ?_
  · refine Keeps.foldl ?_ fun x60 a61 h62 => ?_
    · exact Keeps.refl _
    · extract_lets y63 y64 y65
      clear_value y63 y64
      refine Keeps.cut (s := y65) ?_ fun h93 => ?_
      · unfold y65
        refine Keeps.foldl ?_ fun x94 a95 h96 => ?_
        · exact Keeps.step (domains_keeps _ _ _) h62 (by decide)
        · exact Keeps.step (laneDomainOff_keeps _ _) h96 (by decide)
      clear_value y65
      refine Keeps.ite ?_ ?_
      · exact h62
      · refine Keeps.ite ?_ ?_
        · exact Keeps.step (domains_keeps _ _ _) h62 (by decide)
        · exact Keeps.step (updPwr_keeps _ _) h93 (by decide)
  · exact Keeps.refl _

theorem lockLost_keeps (s : State) (l : Nat) (pts : List (BitVec 16)) :
    Keeps [.params, .staged, .armedG, .tables, .ops, .host, .flt, .arms, .cells, .lanes, .str, .belay, .reel, .tbus,
        .tally, .freeCtr] [] s (lockLost s l pts) := by
  unfold lockLost
  extract_lets y0 y1 y2
  clear_value y1
  refine Keeps.cut (s := y0) ?_ fun h30 => ?_
  · unfold y0
    exact Keeps.step (laneError_keeps _ _) (Keeps.step (scanLost_keeps _ _ _) (Keeps.refl _) (by rfl)) (by rfl)
  clear_value y0
  refine Keeps.cut (s := y2) ?_ fun h31 => ?_
  · unfold y2
    refine Keeps.ite ?_ ?_
    · exact h30
    · exact Keeps.step (updLane_keeps _ _ _) h30 (by rfl)
  clear_value y2
  refine Keeps.ite ?_ ?_
  · exact h30
  · exact Keeps.step (updLane_keeps _ _ _) (Keeps.step (startBringup_keeps _ _ _) h31 (by rfl)) (by rfl)

theorem toStage_keeps (s : State) (l : Nat) (st : LaneSt) (pass2 : Bool) :
    Keeps [.tables, .ops, .host, .flt, .arms, .cells, .lanes, .str, .belay, .reel, .tbus, .tally,
        .freeCtr] [P.FLT_LOST, P.HOST_IRQ_CAUSE, P.REEL_LOST, P.REEL_QUEUE_HIGH, P.REEL_TRIG_TICK,
        P.STR_TRACE_LOST] s (toStage s l st pass2) := by
  unfold toStage
  refine Keeps.ite ?_ ?_
  · exact Keeps.step (loopStage_keeps _ _ _ _) (Keeps.refl _) (by decide)
  · exact Keeps.step (enterStage_keeps _ _ _ _) (Keeps.refl _) (by decide)

theorem execDetectDone_keeps (lane : Fin 66) (rx : Rx) (s : State) :
    OutKeeps [.tables, .ops, .host, .flt, .arms, .cells, .lanes, .str, .belay, .reel, .tbus, .tally,
        .freeCtr] [P.FLT_LOST, P.HOST_IRQ_CAUSE, P.REEL_LOST, P.REEL_QUEUE_HIGH, P.REEL_TRIG_TICK,
        P.STR_TRACE_LOST] s (execDetectDone lane s rx) := by
  unfold execDetectDone
  extract_lets y0
  clear_value y0
  refine OutKeeps.clocked ?_ ?_
  · exact Keeps.refl _
  · refine OutKeeps.ends reelObserve_keeps (by decide) ?_
    refine Keeps.ite ?_ ?_
    · exact Keeps.step (toStage_keeps _ _ _ _) (Keeps.refl _) (by decide)
    · exact Keeps.refl _

theorem execLaneBringup_keeps (c : Cmd) (s : State) :
    OutKeeps [.params, .staged, .armedG, .tables, .ops, .host, .flt, .arms, .cells, .lanes, .str, .belay, .reel,
        .tbus, .tally, .freeCtr] [] s (execLaneBringup c s) := by
  unfold execLaneBringup
  refine OutKeeps.ends reelObserve_keeps (by decide) ?_
  refine Keeps.runCmd goodPacket_keeps answer_keeps (by decide) ?_ fun x0 => ?_
  · exact Keeps.refl _
  · exact ResKeeps.mono (laneBringupBody_keeps _ _) (Keeps.refl _) (by decide)

theorem execLockDone_keeps (lane : Fin 66) (rx : Rx) (s : State) :
    OutKeeps [.tables, .ops, .host, .flt, .arms, .cells, .lanes, .str, .belay, .reel, .tbus, .tally,
        .freeCtr] [P.FLT_LOST, P.HOST_IRQ_CAUSE, P.REEL_LOST, P.REEL_QUEUE_HIGH, P.REEL_TRIG_TICK,
        P.STR_TRACE_LOST] s (execLockDone lane s rx) := by
  unfold execLockDone
  extract_lets y0
  clear_value y0
  refine OutKeeps.clocked ?_ ?_
  · exact Keeps.refl _
  · refine OutKeeps.ite ?_ ?_
    · refine OutKeeps.ends reelObserve_keeps (by decide) ?_
      refine Keeps.ite ?_ ?_
      · exact Keeps.step (toStage_keeps _ _ _ _) (Keeps.refl _) (by decide)
      · refine Keeps.ite ?_ ?_
        · exact Keeps.step (loopStage_keeps _ _ _ _) (Keeps.refl _) (by decide)
        · exact Keeps.step (awaitEntry_keeps _ _) (Keeps.refl _) (by decide)
    · exact OutKeeps.ends reelObserve_keeps (by decide) (Keeps.refl _)

theorem execTrainDone_keeps (lane : Fin 66) (eq : BitVec 4) (clean : Nat) (s : State) :
    OutKeeps [.tables, .ops, .host, .flt, .arms, .cells, .lanes, .str, .belay, .reel, .tbus, .tally,
        .freeCtr] [P.FLT_LOST, P.HOST_IRQ_CAUSE, P.LANE_EQ_RESULT, P.REEL_LOST, P.REEL_QUEUE_HIGH, P.REEL_TRIG_TICK,
        P.STR_TRACE_LOST] s (execTrainDone lane eq s clean) := by
  unfold execTrainDone
  extract_lets y0 y1 y2
  clear_value y0 y1
  refine OutKeeps.cut (s := y2) ?_ fun h30 => ?_
  · unfold y2
    exact Keeps.step (putN_keeps _ _ _ _) (Keeps.refl _) (by decide)
  clear_value y2
  refine OutKeeps.clocked ?_ ?_
  · exact Keeps.refl _
  · refine OutKeeps.ite ?_ ?_
    · exact OutKeeps.ends reelObserve_keeps (by decide) (Keeps.step (toStage_keeps _ _ _ _) h30 (by decide))
    · exact OutKeeps.ends reelObserve_keeps (by decide) (Keeps.refl _)

theorem lockGone_keeps (s : State) (l : Nat) (pts : List (BitVec 16)) :
    Keeps [.params, .staged, .armedG, .tables, .ops, .host, .flt, .arms, .cells, .lanes, .str, .belay, .reel, .tbus,
        .tally, .freeCtr] [] s (lockGone s l pts) := by
  unfold lockGone
  split
  · exact Keeps.step (lockLost_keeps _ _ _) (Keeps.step (incP_keeps _ _ _) (Keeps.refl _) (by rfl)) (by rfl)
  · exact Keeps.step (bringupFail_keeps _ _ _ _) (Keeps.step (incP_keeps _ _ _) (Keeps.refl _) (by rfl)) (by rfl)
  · exact Keeps.step (bringupFail_keeps _ _ _ _) (Keeps.step (incP_keeps _ _ _) (Keeps.refl _) (by rfl)) (by rfl)
  · exact Keeps.step (updLane_keeps _ _ _) (Keeps.step (incP_keeps _ _ _) (Keeps.refl _) (by rfl)) (by rfl)
  · exact Keeps.refl _

theorem execLossOfLock_keeps (lane : Fin 66) (rx : Rx) (scanned : List (BitVec 16)) (s : State) :
    OutKeeps [.params, .staged, .armedG, .tables, .ops, .host, .flt, .arms, .cells, .lanes, .str, .belay, .reel,
        .tbus, .tally, .freeCtr] [] s (execLossOfLock lane scanned s rx) := by
  unfold execLossOfLock
  refine OutKeeps.clocked ?_ ?_
  · exact Keeps.refl _
  · refine OutKeeps.ends reelObserve_keeps (by decide) ?_
    refine Keeps.ite ?_ ?_
    · exact Keeps.step (lockGone_keeps _ _ _) (Keeps.refl _) (by rfl)
    · exact Keeps.refl _

end Sys2Proof.Machine
end

