-- ==== Sys2Proof/Laws/DiscoveryFrame.lean ====
section
/-! SUPPORT. What each operation of `Machine/Discovery.lean` may change, and that it changes nothing else. -/

namespace Sys2Proof.Machine

theorem cfgStart_keeps (es : List Word) (s : State) (p : Nat × Nat) :
    Keeps [.cells, .lanes] [] s (cfgStart es s p) := by
  unfold cfgStart
  extract_lets y0
  refine Keeps.cut (s := y0) ?_ fun h30 => ?_
  · unfold y0
    refine Keeps.ite ?_ ?_
    · exact Keeps.step (updLane_keeps _ _ _) (Keeps.refl _) (by decide)
    · exact Keeps.step (updCell_keeps _ _ _) (Keeps.refl _) (by decide)
  clear_value y0
  refine Keeps.ite ?_ ?_
  · exact Keeps.step (updLane_keeps _ _ _) h30 (by decide)
  · exact Keeps.step (setCfgFail_keeps _ _ _) h30 (by decide)

theorem discoverLane_keeps (s : State) (l : Nat) :
    Keeps [.cells, .lanes] [P.DISC_LANE_CHECK] s (discoverLane s l) := by
  unfold discoverLane
  extract_lets y0 y1 y2
  clear_value y1
  refine Keeps.cut (s := y0) ?_ fun h30 => ?_
  · unfold y0
    refine Keeps.foldl ?_ fun x31 a32 h33 => ?_
    · exact Keeps.refl _
    · exact Keeps.step (storeRecord_keeps _ _ _ _ _) h33 (by decide)
  clear_value y0
  refine Keeps.cut (s := y2) ?_ fun h34 => ?_
  · unfold y2
    exact Keeps.step (putN_keeps _ _ _ _) h30 (by decide)
  clear_value y2
  refine Keeps.ite ?_ ?_
  · exact Keeps.step (updLane_keeps _ _ _) h34 (by decide)
  · exact h34

theorem placeArm_keeps (s : State) (a : Nat) :
    Keeps [.arms] [] s (placeArm s a) := by
  unfold placeArm
  exact Keeps.step (updArm_keeps _ _ _) (Keeps.refl _) (by decide)

theorem placeBody_keeps (c : Cmd) (s : State) :
    ResKeeps [.ops, .per] [P.DISC_FAIL] s (placeBody c s) := by
  unfold placeBody
  extract_lets y0
  clear_value y0
  split
  · show Keeps _ _ _ _
    exact Keeps.step (putN_keeps _ _ _ _) (Keeps.refl _) (by decide)
  · refine ResKeeps.accepted ?_ fun x30 => ?_
    · refine Keeps.step (startOp_keeps _ _ _ _ _) ?_ (by decide)
      exact Keeps.step (putN_keeps _ _ _ _) (Keeps.refl _) (by decide)
    · exact Keeps.refl _

theorem placeCell_keeps (s : State) (c : Nat) (a : Nat) :
    Keeps [.cells] [] s (placeCell s c a) := by
  unfold placeCell
  extract_lets y0
  clear_value y0
  exact Keeps.step (updCell_keeps _ _ _) (Keeps.refl _) (by decide)

theorem placeLane_keeps (t : List Word) (s : State) (l : Nat) :
    Keeps [.lanes] [] s (placeLane t s l) := by
  unfold placeLane
  exact Keeps.step (updLane_keeps _ _ _) (Keeps.refl _) (by decide)

theorem putBoards_keeps (s : State) (boards : List (Option (List Byte))) (again : List (Option (List Byte))) :
    Keeps [.disc] [] s (putBoards s boards again) := by
  unfold putBoards
  extract_lets y0
  clear_value y0
  refine Keeps.step (B := [.disc]) (bi := []) (s := s)
      (.upd rfl fun g hg => by cases g <;> first | exact absurd hg (by decide) | rfl) ?_ (by decide)
  exact Keeps.refl _

theorem readIdentityBody_keeps (c : Cmd) (s : State) :
    ResKeeps [.ops, .lanes] [] s (readIdentityBody c s) := by
  unfold readIdentityBody
  extract_lets y0 y1 y2 y3 y4
  clear_value y0 y1 y2 y3 y4
  refine ResKeeps.ite ?_ ?_
  · refine ResKeeps.check ?_
    refine ResKeeps.accepted ?_ fun x60 => ?_
    · exact Keeps.step (startOp_keeps _ _ _ _ _) (Keeps.refl _) (by decide)
    · exact Keeps.refl _
  · refine ResKeeps.check ?_
    refine ResKeeps.accepted ?_ fun x122 => ?_
    · exact Keeps.step (startOp_keeps _ _ _ _ _) (Keeps.refl _) (by decide)
    · exact Keeps.step (updLane_keeps _ _ _) (Keeps.refl _) (by decide)

theorem tallyReportBody_keeps (c : Cmd) (s : State) :
    ResKeeps [] [] s (tallyReportBody c s) := by
  unfold tallyReportBody
  split
  · show Keeps _ _ _ _
    exact Keeps.refl _
  · show Keeps _ _ _ _
    exact Keeps.refl _
  · show Keeps _ _ _ _
    exact Keeps.refl _

theorem cellConfigBody_keeps (c : Cmd) (s : State) :
    ResKeeps [.ops, .cells, .lanes] [] s (cellConfigBody c s) := by
  unfold cellConfigBody
  extract_lets y0 y1
  clear_value y0 y1
  refine ResKeeps.check ?_
  refine ResKeeps.accepted ?_ fun x30 => ?_
  · exact Keeps.step (startOp_keeps _ _ _ _ _) (Keeps.refl _) (by decide)
  · refine Keeps.foldl ?_ fun x32 a33 h34 => ?_
    · exact Keeps.refl _
    · exact Keeps.step (cfgStart_keeps _ _ _) h34 (by decide)

theorem discoverBody_keeps (c : Cmd) (s : State) :
    ResKeeps [.ops, .cells, .lanes] [P.DISC_LANE_CHECK] s (discoverBody c s) := by
  unfold discoverBody
  extract_lets y0 y1
  clear_value y0 y1
  refine ResKeeps.check ?_
  refine ResKeeps.accepted ?_ fun x30 => ?_
  · exact Keeps.step (startOp_keeps _ _ _ _ _) (Keeps.refl _) (by decide)
  · refine Keeps.foldl ?_ fun x32 a33 h34 => ?_
    · exact Keeps.refl _
    · exact Keeps.step (discoverLane_keeps _ _) h34 (by decide)

theorem placeCauses_keeps (s : State) :
    Keeps [.flt] [] s (placeCauses s) := by
  unfold placeCauses
  extract_lets y0
  clear_value y0
  refine Keeps.foldl ?_ fun x30 a31 h32 => ?_
  · exact Keeps.refl _
  · exact Keeps.step (causeGone_keeps _ _ _) h32 (by decide)

theorem endRetires_keeps (s : State) :
    Keeps [.ops, .host] [P.HOST_IRQ_CAUSE] s (endRetires s) := by
  unfold endRetires
  refine Keeps.foldl ?_ fun x0 a1 h2 => ?_
  · exact Keeps.refl _
  · exact Keeps.step (completeErr_keeps _ _ _) h2 (by decide)

theorem idBoardDone_keeps (s : State) (o : LongOp) (board : Option (List Byte)) (again : Option (List Byte)) :
    Keeps [.ops, .host] [P.HOST_IRQ_CAUSE] s (idBoardDone s o board again) := by
  unfold idBoardDone
  extract_lets y0
  clear_value y0
  refine Keeps.ite ?_ ?_
  · exact Keeps.step (completeOk_keeps _ _ _) (Keeps.refl _) (by decide)
  · exact Keeps.step (completeErr_keeps _ _ _) (Keeps.refl _) (by decide)

theorem idLaneDone_keeps (s : State) (o : LongOp) :
    Keeps [.ops, .host, .lanes] [P.HOST_IRQ_CAUSE] s (idLaneDone s o) := by
  unfold idLaneDone
  extract_lets y0 y1 y2 y3
  clear_value y0 y1 y2
  refine Keeps.cut (s := y3) ?_ fun h30 => ?_
  · unfold y3
    exact Keeps.step (updLane_keeps _ _ _) (Keeps.refl _) (by decide)
  clear_value y3
  refine Keeps.ite ?_ ?_
  · exact Keeps.step (completeOk_keeps _ _ _) h30 (by decide)
  · exact Keeps.step (completeErr_keeps _ _ _) h30 (by decide)

theorem placeCleat_keeps (s : State) :
    Keeps [.params, .ops, .host, .flt, .cleat] [] s (placeCleat s) := by
  unfold placeCleat
  extract_lets y0
  refine Keeps.cut (s := y0) ?_ fun h30 => ?_
  · unfold y0
    refine Keeps.step (B := [.params, .cleat]) (bi := []) (s := s)
        (.updAll rfl fun g hg => by cases g <;> first | exact absurd hg (by decide) | rfl) ?_ (by decide)
    exact Keeps.refl _
  clear_value y0
  exact Keeps.step (placeCauses_keeps _) (Keeps.step (endRetires_keeps _) h30 (by rfl)) (by rfl)

theorem execCellConfig_keeps (c : Cmd) (s : State) :
    OutKeeps [.ops, .host, .flt, .cells, .lanes, .reel, .tbus, .freeCtr] [P.HOST_IRQ_CAUSE, P.REEL_LOST,
        P.REEL_QUEUE_HIGH, P.REEL_TRIG_TICK] s (execCellConfig c s) := by
  unfold execCellConfig
  refine OutKeeps.ends reelObserve_keeps (by decide) ?_
  refine Keeps.runCmd goodPacket_keeps answer_keeps (by decide) ?_ fun x0 => ?_
  · exact Keeps.refl _
  · exact ResKeeps.mono (cellConfigBody_keeps _ _) (Keeps.refl _) (by decide)

theorem execCellConfigDone_keeps (s : State) :
    OutKeeps [.ops, .host, .reel, .tbus, .freeCtr] [P.HOST_IRQ_CAUSE, P.REEL_LOST, P.REEL_QUEUE_HIGH,
        P.REEL_TRIG_TICK] s (execCellConfigDone s) := by
  unfold execCellConfigDone
  refine OutKeeps.clocked ?_ ?_
  · exact Keeps.refl _
  · refine OutKeeps.ends reelObserve_keeps (by decide) ?_
    split
    · exact Keeps.refl _
    · extract_lets y90 y91
      clear_value y90 y91
      exact Keeps.step (completeOk_keeps _ _ _) (Keeps.refl _) (by decide)

theorem execDiscover_keeps (c : Cmd) (s : State) :
    OutKeeps [.ops, .host, .flt, .cells, .lanes, .reel, .tbus, .freeCtr] [P.DISC_LANE_CHECK, P.HOST_IRQ_CAUSE,
        P.REEL_LOST, P.REEL_QUEUE_HIGH, P.REEL_TRIG_TICK] s (execDiscover c s) := by
  unfold execDiscover
  refine OutKeeps.ends reelObserve_keeps (by decide) ?_
  refine Keeps.runCmd goodPacket_keeps answer_keeps (by decide) ?_ fun x0 => ?_
  · exact Keeps.refl _
  · exact ResKeeps.mono (discoverBody_keeps _ _) (Keeps.refl _) (by decide)

theorem execDiscoverDone_keeps (boards : List (Option (List Byte))) (again : List (Option (List Byte))) (s : State) :
    OutKeeps [.ops, .host, .reel, .tbus, .disc, .freeCtr] [P.HOST_IRQ_CAUSE, P.REEL_LOST, P.REEL_QUEUE_HIGH,
        P.REEL_TRIG_TICK] s (execDiscoverDone boards s again) := by
  unfold execDiscoverDone
  extract_lets y0
  refine OutKeeps.cut (s := y0) ?_ fun h30 => ?_
  · unfold y0
    exact Keeps.step (putBoards_keeps _ _ _) (Keeps.refl _) (by decide)
  clear_value y0
  refine OutKeeps.clocked ?_ ?_
  · exact Keeps.refl _
  · refine OutKeeps.ends reelObserve_keeps (by decide) ?_
    split
    · exact Keeps.refl _
    · exact Keeps.step (completeOk_keeps _ _ _) h30 (by decide)

theorem execPlace_keeps (c : Cmd) (s : State) :
    OutKeeps [.ops, .host, .flt, .per, .reel, .tbus, .freeCtr] [P.DISC_FAIL, P.HOST_IRQ_CAUSE, P.REEL_LOST,
        P.REEL_QUEUE_HIGH, P.REEL_TRIG_TICK] s (execPlace c s) := by
  unfold execPlace
  refine OutKeeps.ends reelObserve_keeps (by decide) ?_
  refine Keeps.runCmd goodPacket_keeps answer_keeps (by decide) ?_ fun x0 => ?_
  · exact Keeps.refl _
  · exact ResKeeps.mono (placeBody_keeps _ _) (Keeps.refl _) (by decide)

theorem execReadIdentity_keeps (c : Cmd) (s : State) :
    OutKeeps [.ops, .host, .flt, .lanes, .reel, .tbus, .freeCtr] [P.HOST_IRQ_CAUSE, P.REEL_LOST, P.REEL_QUEUE_HIGH,
        P.REEL_TRIG_TICK] s (execReadIdentity c s) := by
  unfold execReadIdentity
  refine OutKeeps.ends reelObserve_keeps (by decide) ?_
  refine Keeps.runCmd goodPacket_keeps answer_keeps (by decide) ?_ fun x0 => ?_
  · exact Keeps.refl _
  · exact ResKeeps.mono (readIdentityBody_keeps _ _) (Keeps.refl _) (by decide)

theorem execReadIdentityDone_keeps (board : Option (List Byte)) (again : Option (List Byte)) (s : State) :
    OutKeeps [.ops, .host, .lanes, .reel, .tbus, .freeCtr] [P.HOST_IRQ_CAUSE, P.REEL_LOST, P.REEL_QUEUE_HIGH,
        P.REEL_TRIG_TICK] s (execReadIdentityDone board s again) := by
  unfold execReadIdentityDone
  extract_lets y0 y1
  clear_value y0 y1
  refine OutKeeps.clocked ?_ ?_
  · exact Keeps.refl _
  · refine OutKeeps.ends reelObserve_keeps (by decide) ?_
    split
    · exact Keeps.step (idLaneDone_keeps _ _) (Keeps.refl _) (by decide)
    · refine Keeps.ite ?_ ?_
      · exact Keeps.step (idBoardDone_keeps _ _ _ _) (Keeps.refl _) (by decide)
      · exact Keeps.step (idLaneDone_keeps _ _) (Keeps.refl _) (by decide)
    · exact Keeps.step (idBoardDone_keeps _ _ _ _) (Keeps.refl _) (by decide)
    · exact Keeps.refl _

theorem execTallyReport_keeps (c : Cmd) (s : State) :
    OutKeeps [.host, .flt, .reel, .tbus, .freeCtr] [P.HOST_IRQ_CAUSE, P.REEL_LOST, P.REEL_QUEUE_HIGH,
        P.REEL_TRIG_TICK] s (execTallyReport c s) := by
  unfold execTallyReport
  refine OutKeeps.ends reelObserve_keeps (by decide) ?_
  refine Keeps.runCmd goodPacket_keeps answer_keeps (by decide) ?_ fun x0 => ?_
  · exact Keeps.refl _
  · exact ResKeeps.mono (tallyReportBody_keeps _ _) (Keeps.refl _) (by decide)

theorem execMtWindowEnd_keeps (s : State) :
    OutKeeps [.tick, .host, .flt, .time, .arms, .cells, .lanes, .str, .belay, .reel, .tbus, .chop, .disc,
        .freeCtr] [P.DISC_MT_QABS, P.DISC_MT_QPOS, P.FLT_LOST, P.HOST_IRQ_CAUSE, P.REEL_LOST, P.REEL_QUEUE_HIGH,
        P.REEL_TRIG_TICK, P.STR_TRACE_LOST] s (execMtWindowEnd s) := by
  unfold execMtWindowEnd
  extract_lets y0
  clear_value y0
  refine OutKeeps.clocked ?_ ?_
  · exact Keeps.refl _
  · refine OutKeeps.ends reelObserve_keeps (by decide) ?_
    refine Keeps.ite ?_ ?_
    · refine Keeps.atMark (by decide) advanceTo_keeps ?_ fun x30 h31 => ?_
      · exact Keeps.refl _
      · refine Keeps.step (mtEnd_keeps _) ?_ (by decide)
        refine Keeps.ite ?_ ?_
        · exact Keeps.step (mtChargeOf_keeps _ _ _) h31 (by decide)
        · exact h31
    · exact Keeps.refl _

theorem execTallyPersistExpiry_keeps (kind : Fin 3) (s : State) :
    OutKeeps [.tick, .host, .flt, .time, .arms, .cells, .lanes, .str, .belay, .reel, .tbus, .chop, .tally,
        .freeCtr] [P.FLT_LOST, P.HOST_IRQ_CAUSE, P.REEL_LOST, P.REEL_QUEUE_HIGH, P.REEL_TRIG_TICK,
        P.STR_TRACE_LOST] s (execTallyPersistExpiry kind s) := by
  unfold execTallyPersistExpiry
  extract_lets y0
  refine OutKeeps.cut (s := y0) ?_ fun h30 => ?_
  · unfold y0
    exact Keeps.step (tallyFollow_keeps _ _) (Keeps.refl _) (by decide)
  clear_value y0
  refine OutKeeps.clocked ?_ ?_
  · exact Keeps.refl _
  · refine OutKeeps.ends reelObserve_keeps (by decide) ?_
    split
    · exact h30
    · extract_lets y121
      refine Keeps.cut (s := y121) ?_ fun h151 => ?_
      · unfold y121
        exact Keeps.step (advanceTo_keeps _ _) h30 (by decide)
      clear_value y121
      refine Keeps.ite ?_ ?_
      · exact h151
      · exact Keeps.step (raiseFault_keeps _ _ _) h151 (by decide)

theorem placeWatch_keeps (s : State) :
    Keeps [.host, .flt, .arms, .cells, .lanes, .str, .belay, .reel, .tbus, .tally, .freeCtr] [P.CLT_HIGH_WATER,
        P.FLT_LOST, P.HOST_IRQ_CAUSE, P.REEL_LOST, P.REEL_QUEUE_HIGH, P.REEL_TRIG_TICK, P.STR_READY_MAX,
        P.STR_SLOTS_HIGH, P.STR_TRACE_LOST] s (placeWatch s) := by
  unfold placeWatch
  refine Keeps.step (ledgerWatch_keeps _) ?_ (by decide)
  refine Keeps.step (cleatWatch_keeps _) ?_ (by decide)
  refine Keeps.step (tallyFollow_keeps _ _) ?_ (by decide)
  exact Keeps.step (tallyStale_keeps _) (Keeps.refl _) (by decide)

theorem placeDo_keeps (s : State) (t : List Word) :
    Keeps [.params, .ops, .host, .flt, .per, .capWords, .arms, .cells, .lanes, .cleat, .str, .belay, .reel, .tbus,
        .disc, .freeCtr] [] s (placeDo s t) := by
  unfold placeDo
  extract_lets y0 y1 y2 y3 y4 y5 y6 y7 y8 y9 y10 y11
  clear_value y0 y1 y2 y3 y8 y9 y10
  refine Keeps.cut (s := y4) ?_ fun h30 => ?_
  · unfold y4
    refine Keeps.step (dropTasks_keeps _ _) ?_ (by rfl)
    exact Keeps.step (mtAbort_keeps _) (Keeps.step (placeCleat_keeps _) (Keeps.refl _) (by rfl)) (by rfl)
  clear_value y4
  refine Keeps.cut (s := y5) ?_ fun h31 => ?_
  · unfold y5
    refine Keeps.step (B := [.cells]) (bi := []) (s := y4)
        (.upd rfl fun g hg => by cases g <;> first | exact absurd hg (by decide) | rfl) ?_ (by decide)
    exact h30
  clear_value y5
  refine Keeps.cut (s := y6) ?_ fun h32 => ?_
  · unfold y6
    refine Keeps.foldl ?_ fun x33 a34 h35 => ?_
    · exact h31
    · exact Keeps.step (placeCell_keeps _ _ _) h35 (by rfl)
  clear_value y6
  refine Keeps.cut (s := y7) ?_ fun h36 => ?_
  · unfold y7
    refine Keeps.foldl ?_ fun x37 a38 h39 => ?_
    · refine Keeps.foldl ?_ fun x40 a41 h42 => ?_
      · exact h32
      · exact Keeps.step (placeLane_keeps _ _ _) h42 (by rfl)
    · exact Keeps.step (placeArm_keeps _ _) h39 (by rfl)
  clear_value y7
  refine Keeps.cut (s := y11) ?_ fun h43 => ?_
  · unfold y11
    refine Keeps.step (B := [.per, .belay, .disc]) (bi := []) (s := y7)
        (.upd rfl fun g hg => by cases g <;> first | exact absurd hg (by decide) | rfl) ?_ (by decide)
    exact h36
  clear_value y11
  exact Keeps.step (latencyChange_keeps _ _) (Keeps.step (recompute_keeps _) h43 (by rfl)) (by rfl)

theorem execPlaceDone_keeps (s : State) :
    OutKeeps [.params, .ops, .host, .flt, .per, .capWords, .arms, .cells, .lanes, .cleat, .str, .belay, .reel,
        .tbus, .disc, .tally, .freeCtr] [] s (execPlaceDone s) := by
  unfold execPlaceDone
  refine OutKeeps.clocked ?_ ?_
  · exact Keeps.refl _
  · refine OutKeeps.ends reelObserve_keeps (by decide) ?_
    split
    · exact Keeps.refl _
    · extract_lets y90
      refine Keeps.cut (s := y90) ?_ fun h120 => ?_
      · unfold y90
        exact Keeps.step (placeWatch_keeps _) (Keeps.step (placeDo_keeps _ _) (Keeps.refl _) (by rfl)) (by rfl)
      clear_value y90
      exact Keeps.step (completeOk_keeps _ _ _) h120 (by rfl)

end Sys2Proof.Machine
end

