-- ==== Sys2Proof/Laws/FaultsFrame.lean ====
section
/-! SUPPORT. What each operation of `Machine/Faults.lean` may change, and that it changes nothing else. -/

namespace Sys2Proof.Machine

theorem factoryUnlockBody_keeps (c : Cmd) (s : State) :
    ResKeeps [.flt] [] s (factoryUnlockBody c s) := by
  unfold factoryUnlockBody
  extract_lets y0 y1
  clear_value y0 y1
  refine ResKeeps.check ?_
  refine ResKeeps.done ?_
  refine Keeps.step (B := [.flt]) (bi := []) (s := s)
      (.upd rfl fun g hg => by cases g <;> first | exact absurd hg (by decide) | rfl) ?_ (by decide)
  exact Keeps.refl _

theorem faultReadBody_keeps (c : Cmd) (s : State) :
    ResKeeps [] [] s (faultReadBody c s) := by
  unfold faultReadBody
  extract_lets y0
  clear_value y0
  refine ResKeeps.check ?_
  show Keeps _ _ _ _
  exact Keeps.refl _

theorem execErrPulseEnd_keeps (s : State) :
    OutKeeps [.tick, .host, .flt, .time, .str, .reel, .tbus, .chop, .freeCtr] [P.HOST_IRQ_CAUSE, P.REEL_LOST,
        P.REEL_QUEUE_HIGH, P.REEL_TRIG_TICK] s (execErrPulseEnd s) := by
  unfold execErrPulseEnd
  refine OutKeeps.clocked ?_ ?_
  · exact Keeps.refl _
  · refine OutKeeps.ends reelObserve_keeps (by decide) ?_
    split
    · extract_lets y90 y91
      clear_value y91
      refine Keeps.cut (s := y90) ?_ fun h120 => ?_
      · unfold y90
        exact Keeps.step (advanceTo_keeps _ _) (Keeps.refl _) (by decide)
      clear_value y90
      refine Keeps.step (B := [.flt]) (bi := []) (s := y90)
          (.upd rfl fun g hg => by cases g <;> first | exact absurd hg (by decide) | rfl) ?_ (by decide)
      exact h120
    · exact Keeps.refl _

theorem execFactoryUnlock_keeps (c : Cmd) (s : State) :
    OutKeeps [.host, .flt, .reel, .tbus, .freeCtr] [P.HOST_IRQ_CAUSE, P.REEL_LOST, P.REEL_QUEUE_HIGH,
        P.REEL_TRIG_TICK] s (execFactoryUnlock c s) := by
  unfold execFactoryUnlock
  refine OutKeeps.ends reelObserve_keeps (by decide) ?_
  refine Keeps.runCmd goodPacket_keeps answer_keeps (by decide) ?_ fun x0 => ?_
  · exact Keeps.refl _
  · exact ResKeeps.mono (factoryUnlockBody_keeps _ _) (Keeps.refl _) (by decide)

theorem execFaultRead_keeps (c : Cmd) (s : State) :
    OutKeeps [.host, .flt, .reel, .tbus, .freeCtr] [P.HOST_IRQ_CAUSE, P.REEL_LOST, P.REEL_QUEUE_HIGH,
        P.REEL_TRIG_TICK] s (execFaultRead c s) := by
  unfold execFaultRead
  refine OutKeeps.ends reelObserve_keeps (by decide) ?_
  refine Keeps.runCmd goodPacket_keeps answer_keeps (by decide) ?_ fun x0 => ?_
  · exact Keeps.refl _
  · exact ResKeeps.mono (faultReadBody_keeps _ _) (Keeps.refl _) (by decide)

theorem execGraceExpiry_keeps (entry : Fin 256) (s : State) :
    OutKeeps [.tick, .host, .flt, .time, .arms, .cells, .lanes, .str, .belay, .reel, .tbus, .chop,
        .freeCtr] [P.HOST_IRQ_CAUSE, P.REEL_LOST, P.REEL_QUEUE_HIGH, P.REEL_TRIG_TICK,
        P.STR_TRACE_LOST] s (execGraceExpiry entry s) := by
  unfold execGraceExpiry
  extract_lets y0
  clear_value y0
  refine OutKeeps.clocked ?_ ?_
  · exact Keeps.refl _
  · refine OutKeeps.ends reelObserve_keeps (by decide) ?_
    refine Keeps.ite ?_ ?_
    · refine Keeps.step (graceExpire_keeps _ _) ?_ (by decide)
      exact Keeps.step (advanceTo_keeps _ _) (Keeps.refl _) (by decide)
    · exact Keeps.refl _

theorem faultAckBody_keeps (c : Cmd) (s : State) :
    ResKeeps [.host, .flt, .arms, .cells, .lanes, .str, .belay, .reel, .tbus, .freeCtr] [P.HOST_IRQ_CAUSE,
        P.REEL_LOST, P.REEL_QUEUE_HIGH, P.REEL_TRIG_TICK, P.STR_TRACE_LOST] s (faultAckBody c s) := by
  unfold faultAckBody
  extract_lets y0 y1
  clear_value y1
  refine ResKeeps.cut (s := y0) ?_ fun h30 => ?_
  · unfold y0
    exact Keeps.step (gracesDue_keeps _) (Keeps.refl _) (by decide)
  clear_value y0
  split
  · trivial
  · exact ResKeeps.done (Keeps.step (setFlt_keeps _ _ _) h30 (by decide))

theorem faultClearBody_keeps (c : Cmd) (s : State) :
    ResKeeps [.host, .flt, .arms, .cells, .lanes, .str, .belay, .reel, .tbus, .chop, .freeCtr] [P.CHOP_TRIP_RUN,
        P.HOST_IRQ_CAUSE, P.REEL_LOST, P.REEL_QUEUE_HIGH, P.REEL_TRIG_TICK,
        P.STR_TRACE_LOST] s (faultClearBody c s) := by
  unfold faultClearBody
  extract_lets y0 y1
  clear_value y1
  refine ResKeeps.cut (s := y0) ?_ fun h30 => ?_
  · unfold y0
    exact Keeps.step (gracesDue_keeps _) (Keeps.refl _) (by decide)
  clear_value y0
  split
  · trivial
  · refine ResKeeps.ite ?_ ?_
    · trivial
    · refine ResKeeps.done ?_
      exact Keeps.step (chopCleared_keeps _ _ _) (Keeps.step (freeEntry_keeps _ _) h30 (by decide)) (by decide)

theorem execFaultAck_keeps (c : Cmd) (s : State) :
    OutKeeps [.host, .flt, .arms, .cells, .lanes, .str, .belay, .reel, .tbus, .freeCtr] [P.HOST_IRQ_CAUSE,
        P.REEL_LOST, P.REEL_QUEUE_HIGH, P.REEL_TRIG_TICK, P.STR_TRACE_LOST] s (execFaultAck c s) := by
  unfold execFaultAck
  refine OutKeeps.ends reelObserve_keeps (by decide) ?_
  refine Keeps.runCmd goodPacket_keeps answer_keeps (by decide) ?_ fun x0 => ?_
  · exact Keeps.refl _
  · exact ResKeeps.mono (faultAckBody_keeps _ _) (Keeps.refl _) (by decide)

theorem execFaultClear_keeps (c : Cmd) (s : State) :
    OutKeeps [.host, .flt, .arms, .cells, .lanes, .str, .belay, .reel, .tbus, .chop, .freeCtr] [P.CHOP_TRIP_RUN,
        P.HOST_IRQ_CAUSE, P.REEL_LOST, P.REEL_QUEUE_HIGH, P.REEL_TRIG_TICK,
        P.STR_TRACE_LOST] s (execFaultClear c s) := by
  unfold execFaultClear
  refine OutKeeps.ends reelObserve_keeps (by decide) ?_
  refine Keeps.runCmd goodPacket_keeps answer_keeps (by decide) ?_ fun x0 => ?_
  · exact Keeps.refl _
  · exact ResKeeps.mono (faultClearBody_keeps _ _) (Keeps.refl _) (by decide)

theorem injectFault_keeps (s : State) (code : Nat) (inst : Nat) :
    Keeps [.host, .flt, .arms, .cells, .lanes, .str, .belay, .reel, .tbus, .freeCtr] [P.FLT_LOST, P.HOST_IRQ_CAUSE,
        P.REEL_LOST, P.REEL_QUEUE_HIGH, P.REEL_TRIG_TICK, P.STR_TRACE_LOST] s (injectFault s code inst) := by
  unfold injectFault
  extract_lets y0 y1 y2 y3 y4
  clear_value y0 y2 y3 y4
  refine Keeps.cut (s := y1) ?_ fun h30 => ?_
  · unfold y1
    refine Keeps.ite ?_ ?_
    · exact Keeps.refl _
    · refine Keeps.step (belayLatch_keeps _ _) ?_ (by decide)
      exact Keeps.step (belayReact_keeps _ _) (Keeps.refl _) (by decide)
  clear_value y1
  refine Keeps.ite ?_ ?_
  · exact Keeps.step (raiseWith_keeps _ _ _ _ _ _ _) h30 (by decide)
  · refine Keeps.ite ?_ ?_
    · refine Keeps.ite ?_ ?_
      · refine Keeps.step (fltRecord_keeps _ _ _ _) ?_ (by decide)
        exact Keeps.step (setFlt_keeps _ _ _) (Keeps.refl _) (by decide)
      · exact Keeps.step (reRaise_keeps _ _ _ _ _ _) (Keeps.refl _) (by decide)
    · exact Keeps.step (raiseWith_keeps _ _ _ _ _ _ _) (Keeps.refl _) (by decide)

theorem faultInjectBody_keeps (c : Cmd) (s : State) :
    ResKeeps [.host, .flt, .arms, .cells, .lanes, .str, .belay, .reel, .tbus, .freeCtr] [P.FLT_LOST,
        P.HOST_IRQ_CAUSE, P.REEL_LOST, P.REEL_QUEUE_HIGH, P.REEL_TRIG_TICK,
        P.STR_TRACE_LOST] s (faultInjectBody c s) := by
  unfold faultInjectBody
  extract_lets y0 y1
  clear_value y0 y1
  exact ResKeeps.check (ResKeeps.done (Keeps.step (injectFault_keeps _ _ _) (Keeps.refl _) (by decide)))

theorem execFaultInject_keeps (c : Cmd) (s : State) :
    OutKeeps [.host, .flt, .arms, .cells, .lanes, .str, .belay, .reel, .tbus, .freeCtr] [P.FLT_LOST,
        P.HOST_IRQ_CAUSE, P.REEL_LOST, P.REEL_QUEUE_HIGH, P.REEL_TRIG_TICK,
        P.STR_TRACE_LOST] s (execFaultInject c s) := by
  unfold execFaultInject
  refine OutKeeps.ends reelObserve_keeps (by decide) ?_
  refine Keeps.runCmd goodPacket_keeps answer_keeps (by decide) ?_ fun x0 => ?_
  · exact Keeps.refl _
  · exact ResKeeps.mono (faultInjectBody_keeps _ _) (Keeps.refl _) (by decide)

end Sys2Proof.Machine
end

