-- ==== Sys2Proof/Laws/MaintFrame.lean ====
section
/-! SUPPORT. What each operation of `Machine/Maint.lean` may change, and that it changes nothing else. -/

namespace Sys2Proof.Machine

theorem maintEndBody_keeps (c : Cmd) (s : State) :
    ResKeeps [.params, .cleat] [] s (maintEndBody c s) := by
  unfold maintEndBody
  extract_lets y0
  clear_value y0
  split
  · refine ResKeeps.check ?_
    trivial
  · refine ResKeeps.check ?_
    refine ResKeeps.done ?_
    exact Keeps.step (updAct_keeps _ _ _) (Keeps.step (clearExcl_keeps _ _) (Keeps.refl _) (by rfl)) (by rfl)

theorem cleatReleaseBody_keeps (c : Cmd) (s : State) :
    ResKeeps [.flt, .cleat] [] s (cleatReleaseBody c s) := by
  unfold cleatReleaseBody
  extract_lets y0
  clear_value y0
  exact ResKeeps.check (ResKeeps.done (Keeps.step (releaseEntry_keeps _ _ _) (Keeps.refl _) (by decide)))

theorem execCellRetireTimeout_keeps (cell : Fin 3072) (s : State) :
    OutKeeps [.tick, .ops, .host, .flt, .time, .str, .reel, .tbus, .chop, .freeCtr] [P.HOST_IRQ_CAUSE, P.REEL_LOST,
        P.REEL_QUEUE_HIGH, P.REEL_TRIG_TICK] s (execCellRetireTimeout cell s) := by
  unfold execCellRetireTimeout
  refine OutKeeps.clocked ?_ ?_
  · exact Keeps.refl _
  · refine OutKeeps.ends reelObserve_keeps (by decide) ?_
    split
    · extract_lets y90
      refine Keeps.cut (s := y90) ?_ fun h120 => ?_
      · unfold y90
        exact Keeps.step (advanceTo_keeps _ _) (Keeps.refl _) (by decide)
      clear_value y90
      refine Keeps.ite ?_ ?_
      · exact Keeps.step (completeErr_keeps _ _ _) h120 (by decide)
      · exact Keeps.refl _
    · exact Keeps.refl _

theorem execCleatRelease_keeps (c : Cmd) (s : State) :
    OutKeeps [.host, .flt, .cleat, .reel, .tbus, .freeCtr] [P.HOST_IRQ_CAUSE, P.REEL_LOST, P.REEL_QUEUE_HIGH,
        P.REEL_TRIG_TICK] s (execCleatRelease c s) := by
  unfold execCleatRelease
  refine OutKeeps.ends reelObserve_keeps (by decide) ?_
  refine Keeps.runCmd goodPacket_keeps answer_keeps (by decide) ?_ fun x0 => ?_
  · exact Keeps.refl _
  · exact ResKeeps.mono (cleatReleaseBody_keeps _ _) (Keeps.refl _) (by decide)

theorem execCleatRetryWindowEnd_keeps (entry : Fin 32) (s : State) :
    OutKeeps [.tick, .host, .flt, .time, .cleat, .str, .reel, .tbus, .chop, .freeCtr] [P.HOST_IRQ_CAUSE,
        P.REEL_LOST, P.REEL_QUEUE_HIGH, P.REEL_TRIG_TICK] s (execCleatRetryWindowEnd entry s) := by
  unfold execCleatRetryWindowEnd
  extract_lets y0
  clear_value y0
  refine OutKeeps.clocked ?_ ?_
  · exact Keeps.refl _
  · refine OutKeeps.ends reelObserve_keeps (by decide) ?_
    split
    · refine Keeps.ite ?_ ?_
      · refine Keeps.step (releaseEntry_keeps _ _ _) ?_ (by decide)
        exact Keeps.step (advanceTo_keeps _ _) (Keeps.refl _) (by decide)
      · exact Keeps.refl _
    · exact Keeps.refl _

theorem execMaintEnd_keeps (c : Cmd) (s : State) :
    OutKeeps [.params, .host, .flt, .cleat, .reel, .tbus, .freeCtr] [] s (execMaintEnd c s) := by
  unfold execMaintEnd
  refine OutKeeps.ends reelObserve_keeps (by decide) ?_
  refine Keeps.runCmd goodPacket_keeps answer_keeps (by decide) ?_ fun x0 => ?_
  · exact Keeps.refl _
  · exact ResKeeps.mono (maintEndBody_keeps _ _) (Keeps.refl _) (by decide)

theorem execPermBypassRetry_keeps (cell : Fin 3072) (s : State) :
    OutKeeps [.tick, .host, .flt, .time, .arms, .cells, .lanes, .str, .belay, .reel, .tbus, .chop,
        .freeCtr] [P.FLT_LOST, P.HOST_IRQ_CAUSE, P.REEL_LOST, P.REEL_QUEUE_HIGH, P.REEL_TRIG_TICK,
        P.STR_TRACE_LOST] s (execPermBypassRetry cell s) := by
  unfold execPermBypassRetry
  refine OutKeeps.clocked ?_ ?_
  · exact Keeps.refl _
  · refine OutKeeps.ends reelObserve_keeps (by decide) ?_
    split
    · refine Keeps.step (sendPair_keeps _ _) ?_ (by decide)
      exact Keeps.step (advanceTo_keeps _ _) (Keeps.refl _) (by decide)
    · exact Keeps.refl _

theorem execPermConfirmTimeout_keeps (cell : Fin 3072) (s : State) :
    OutKeeps [.tick, .host, .flt, .time, .arms, .cells, .lanes, .str, .belay, .reel, .tbus, .chop,
        .freeCtr] [P.FLT_LOST, P.HOST_IRQ_CAUSE, P.REEL_LOST, P.REEL_QUEUE_HIGH, P.REEL_TRIG_TICK,
        P.STR_TRACE_LOST] s (execPermConfirmTimeout cell s) := by
  unfold execPermConfirmTimeout
  refine OutKeeps.clocked ?_ ?_
  · exact Keeps.refl _
  · refine OutKeeps.ends reelObserve_keeps (by decide) ?_
    split
    · refine Keeps.step (permFailed_keeps _ _) ?_ (by decide)
      exact Keeps.step (advanceTo_keeps _ _) (Keeps.refl _) (by decide)
    · exact Keeps.refl _

theorem cleatAddBody_keeps (c : Cmd) (s : State) :
    ResKeeps [.host, .flt, .arms, .cells, .lanes, .cleat, .str, .belay, .reel, .tbus, .freeCtr] [P.CLT_HIGH_WATER,
        P.FLT_LOST, P.HOST_IRQ_CAUSE, P.REEL_LOST, P.REEL_QUEUE_HIGH, P.REEL_TRIG_TICK,
        P.STR_TRACE_LOST] s (cleatAddBody c s) := by
  unfold cleatAddBody
  extract_lets y0 y1 y2 y3
  clear_value y0 y1 y2 y3
  refine ResKeeps.check ?_
  show Keeps _ _ _ _
  refine Keeps.step (cleatWatch_keeps _) ?_ (by decide)
  exact Keeps.step (updCleat_keeps _ _ _) (Keeps.refl _) (by decide)

theorem execCleatAdd_keeps (c : Cmd) (s : State) :
    OutKeeps [.host, .flt, .arms, .cells, .lanes, .cleat, .str, .belay, .reel, .tbus, .freeCtr] [P.CLT_HIGH_WATER,
        P.FLT_LOST, P.HOST_IRQ_CAUSE, P.REEL_LOST, P.REEL_QUEUE_HIGH, P.REEL_TRIG_TICK,
        P.STR_TRACE_LOST] s (execCleatAdd c s) := by
  unfold execCleatAdd
  refine OutKeeps.ends reelObserve_keeps (by decide) ?_
  refine Keeps.runCmd goodPacket_keeps answer_keeps (by decide) ?_ fun x0 => ?_
  · exact Keeps.refl _
  · exact ResKeeps.mono (cleatAddBody_keeps _ _) (Keeps.refl _) (by decide)

theorem maintAdmitBody_keeps (c : Cmd) (s : State) :
    ResKeeps [.host, .flt, .arms, .cells, .lanes, .cleat, .str, .belay, .reel, .tbus, .freeCtr] [P.FLT_LOST,
        P.HOST_IRQ_CAUSE, P.REEL_LOST, P.REEL_QUEUE_HIGH, P.REEL_TRIG_TICK,
        P.STR_TRACE_LOST] s (maintAdmitBody c s) := by
  unfold maintAdmitBody
  refine ResKeeps.check ?_
  refine ResKeeps.done ?_
  refine Keeps.step (ledgerWatch_keeps _) ?_ (by decide)
  exact Keeps.step (updAct_keeps _ _ _) (Keeps.refl _) (by decide)

theorem cellRetireBody_keeps (c : Cmd) (s : State) :
    ResKeeps [.ops, .host, .flt, .arms, .cells, .lanes, .cleat, .str, .belay, .reel, .tbus,
        .freeCtr] [P.CLT_HIGH_WATER, P.FLT_LOST, P.HOST_IRQ_CAUSE, P.REEL_LOST, P.REEL_QUEUE_HIGH, P.REEL_TRIG_TICK,
        P.STR_TRACE_LOST] s (cellRetireBody c s) := by
  unfold cellRetireBody
  extract_lets y0 y1
  clear_value y0 y1
  refine ResKeeps.check ?_
  refine ResKeeps.accepted ?_ fun x30 => ?_
  · exact Keeps.step (startOp_keeps _ _ _ _ _) (Keeps.refl _) (by decide)
  · exact Keeps.step (serveRetire_keeps _ _) (Keeps.refl _) (by decide)

theorem execActivityFree_keeps (slot : Fin 16) (s : State) :
    OutKeeps [.tick, .host, .flt, .time, .arms, .cells, .lanes, .cleat, .str, .belay, .reel, .tbus, .chop,
        .freeCtr] [P.FLT_LOST, P.HOST_IRQ_CAUSE, P.REEL_LOST, P.REEL_QUEUE_HIGH, P.REEL_TRIG_TICK,
        P.STR_TRACE_LOST] s (execActivityFree slot s) := by
  unfold execActivityFree
  refine OutKeeps.clocked ?_ ?_
  · exact Keeps.refl _
  · refine OutKeeps.ends reelObserve_keeps (by decide) ?_
    split
    · refine Keeps.ite ?_ ?_
      · refine Keeps.step (freeActivity_keeps _ _) ?_ (by decide)
        exact Keeps.step (advanceTo_keeps _ _) (Keeps.refl _) (by decide)
      · exact Keeps.refl _
    · exact Keeps.refl _

theorem execCellRetire_keeps (c : Cmd) (s : State) :
    OutKeeps [.ops, .host, .flt, .arms, .cells, .lanes, .cleat, .str, .belay, .reel, .tbus,
        .freeCtr] [P.CLT_HIGH_WATER, P.FLT_LOST, P.HOST_IRQ_CAUSE, P.REEL_LOST, P.REEL_QUEUE_HIGH, P.REEL_TRIG_TICK,
        P.STR_TRACE_LOST] s (execCellRetire c s) := by
  unfold execCellRetire
  refine OutKeeps.ends reelObserve_keeps (by decide) ?_
  refine Keeps.runCmd goodPacket_keeps answer_keeps (by decide) ?_ fun x0 => ?_
  · exact Keeps.refl _
  · exact ResKeeps.mono (cellRetireBody_keeps _ _) (Keeps.refl _) (by decide)

theorem execMaintAdmit_keeps (c : Cmd) (s : State) :
    OutKeeps [.host, .flt, .arms, .cells, .lanes, .cleat, .str, .belay, .reel, .tbus, .freeCtr] [P.FLT_LOST,
        P.HOST_IRQ_CAUSE, P.REEL_LOST, P.REEL_QUEUE_HIGH, P.REEL_TRIG_TICK,
        P.STR_TRACE_LOST] s (execMaintAdmit c s) := by
  unfold execMaintAdmit
  refine OutKeeps.ends reelObserve_keeps (by decide) ?_
  refine Keeps.runCmd goodPacket_keeps answer_keeps (by decide) ?_ fun x0 => ?_
  · exact Keeps.refl _
  · exact ResKeeps.mono (maintAdmitBody_keeps _ _) (Keeps.refl _) (by decide)

theorem execCleatEntryFree_keeps (entry : Fin 32) (s : State) :
    OutKeeps [.tick, .ops, .host, .flt, .time, .arms, .cells, .lanes, .cleat, .str, .belay, .reel, .tbus, .chop,
        .freeCtr] [P.CLT_HIGH_WATER, P.FLT_LOST, P.HOST_IRQ_CAUSE, P.REEL_LOST, P.REEL_QUEUE_HIGH, P.REEL_TRIG_TICK,
        P.STR_TRACE_LOST] s (execCleatEntryFree entry s) := by
  unfold execCleatEntryFree
  refine OutKeeps.clocked ?_ ?_
  · exact Keeps.refl _
  · refine OutKeeps.ends reelObserve_keeps (by decide) ?_
    refine Keeps.ite ?_ ?_
    · refine Keeps.atMark (by decide) advanceTo_keeps ?_ fun x0 h1 => ?_
      · exact Keeps.refl _
      · exact Keeps.step (freeCleat_keeps _ _) h1 (by decide)
    · exact Keeps.refl _

end Sys2Proof.Machine
end

