-- ==== Sys2Proof/Laws/ParamsFrame.lean ====
section
/-! SUPPORT. What each operation of `Machine/Params.lean` may change, and that it changes nothing else. -/

namespace Sys2Proof.Machine

theorem commitArm_keeps (c : Cmd) (s : State) :
    ResKeeps [.armedG] [] s (commitArm c s) := by
  unfold commitArm
  extract_lets y0 y1 y2
  clear_value y0 y1 y2
  refine ResKeeps.ite ?_ ?_
  · show Keeps _ _ _ _
    exact Keeps.refl _
  · refine ResKeeps.ite ?_ ?_
    · show Keeps _ _ _ _
      exact Keeps.refl _
    · refine ResKeeps.check ?_
      show Keeps _ _ _ _
      exact Keeps.step (setArmed_keeps _ _ _ _) (Keeps.refl _) (by decide)

theorem setShadow_keeps (s : State) (p : Port) (x : Shadow) :
    Keeps [.host] [] s (setShadow s p x) := by
  unfold setShadow
  exact Keeps.step (updHost_keeps _ _) (Keeps.refl _) (by decide)

theorem strandRead_keeps (s : State) (n : Nat) (id : Nat) (t : Nat) :
    Keeps [.host] [] s (strandRead s n id t).2 := by
  unfold strandRead
  extract_lets y0
  clear_value y0
  dsimp only
  exact Keeps.step (updHost_keeps _ _) (Keeps.refl _) (by decide)

theorem tableWrite_keeps (s : State) (num : Nat) (i : Nat) (ws : List Word) :
    Keeps [.gain, .tables] [] s (tableWrite s num i ws) := by
  unfold tableWrite
  refine Keeps.ite ?_ ?_
  · refine Keeps.step (B := [.gain]) (bi := []) (s := s)
      (.upd rfl fun g hg => by cases g <;> first | exact absurd hg (by decide) | rfl) ?_ (by decide)
    exact Keeps.refl _
  · exact Keeps.step (putTable_keeps _ _ _ _) (Keeps.refl _) (by decide)

theorem commitDrop_keeps (c : Cmd) (s : State) :
    ResKeeps [.staged, .gain, .armedG, .per] [] s (commitDrop c s) := by
  unfold commitDrop
  extract_lets y0 y1 y2 y3 y4
  clear_value y0 y1 y3
  refine ResKeeps.cut (s := y2) ?_ fun h30 => ?_
  · unfold y2
    exact Keeps.step (dropGroup_keeps _ _ _) (Keeps.refl _) (by decide)
  clear_value y2
  refine ResKeeps.cut (s := y4) ?_ fun h31 => ?_
  · unfold y4
    refine Keeps.ite ?_ ?_
    · refine Keeps.step (B := [.per]) (bi := []) (s := y2)
        (.upd rfl fun g hg => by cases g <;> first | exact absurd hg (by decide) | rfl) ?_ (by decide)
      exact h30
    · exact h30
  clear_value y4
  show Keeps _ _ _ _
  exact h31

theorem commitGroupBody_keeps (c : Cmd) (s : State) :
    ResKeeps [.staged, .gain, .armedG, .per] [] s (commitGroupBody c s) := by
  unfold commitGroupBody
  refine ResKeeps.ite ?_ ?_
  · trivial
  · refine ResKeeps.ite ?_ ?_
    · exact ResKeeps.mono (commitDrop_keeps _ _) (Keeps.refl _) (by decide)
    · exact ResKeeps.mono (commitArm_keeps _ _) (Keeps.refl _) (by decide)

theorem readAs_keeps (s : State) (p : Port) (id : Nat) (t : Nat) :
    Keeps [.host] [] s (readAs s p id t).2 := by
  unfold readAs
  extract_lets y0
  clear_value y0
  dsimp only
  exact Keeps.step (setShadow_keeps _ _ _) (Keeps.refl _) (by decide)

theorem readRun_keeps (p : Port) (t : Nat) (a : List Nat) (a' : State) :
    Keeps [.host] [] a' (readRun p t a a').2 := by
  induction a generalizing a' with
  | nil => exact Keeps.refl _
  | cons id l ih => exact (ih _).step (readAs_keeps _ _ _ _) (by decide)

theorem expectAct_keeps (s : State) (num : Nat) :
    Keeps [.flt, .tally] [] s (expectAct s num) := by
  unfold expectAct
  extract_lets y0 y1
  clear_value y0 y1
  refine Keeps.step (tallyWatch_keeps _) ?_ (by decide)
  refine Keeps.step (B := [.tally]) (bi := []) (s := s)
      (.upd rfl fun g hg => by cases g <;> first | exact absurd hg (by decide) | rfl) ?_ (by decide)
  exact Keeps.refl _

theorem getBlockBody_keeps (c : Cmd) (s : State) :
    ResKeeps [.host] [] s (getBlockBody c s) := by
  unfold getBlockBody
  extract_lets y0
  refine ResKeeps.cut (s := y0.2) ?_ fun h30 => ?_
  · unfold y0
    exact Keeps.step (readRun_keeps _ _ _ _) (Keeps.refl _) (by decide)
  clear_value y0
  refine ResKeeps.ite ?_ ?_
  · show Keeps _ _ _ _
    exact Keeps.refl _
  · show Keeps _ _ _ _
    exact h30

theorem getParamBody_keeps (c : Cmd) (s : State) :
    ResKeeps [.host] [] s (getParamBody c s) := by
  unfold getParamBody
  extract_lets y0 y1 y2
  clear_value y0 y1
  refine ResKeeps.cut (s := y2.2) ?_ fun h30 => ?_
  · unfold y2
    exact Keeps.step (readAs_keeps _ _ _ _) (Keeps.refl _) (by decide)
  clear_value y2
  split
  · trivial
  · refine ResKeeps.ite ?_ ?_
    · show Keeps _ _ _ _
      exact h30
    · split
      · show Keeps _ _ _ _
        exact h30
      · show Keeps _ _ _ _
        exact h30

theorem oldClear_keeps (s : State) :
    Keeps [.flt, .tally] [] s (oldClear s) := by
  unfold oldClear
  extract_lets y0
  clear_value y0
  refine Keeps.step (tallyWatch_keeps _) ?_ (by decide)
  refine Keeps.step (B := [.tally]) (bi := []) (s := s)
      (.upd rfl fun g hg => by cases g <;> first | exact absurd hg (by decide) | rfl) ?_ (by decide)
  exact Keeps.refl _

theorem writeAct_keeps (s : State) (id : Nat) (t : Nat) (w : Word) :
    Keeps [.flt, .tbus, .loops, .encs, .meas, .disc, .tally, .freeCtr] [P.ADC_PT_RESULT, P.ENC_POS, P.ENC_RAW,
        P.ENC_STATUS, P.TRAJ_ACC, P.TRAJ_DONE, P.TRAJ_POS, P.TRAJ_VEL] s (writeAct s id t w) := by
  unfold writeAct
  refine Keeps.ite ?_ ?_
  · exact Keeps.step (trajPresetSet_keeps _ _ _) (Keeps.refl _) (by decide)
  · refine Keeps.ite ?_ ?_
    · exact Keeps.step (encPresetSet_keeps _ _ _) (Keeps.refl _) (by decide)
    · refine Keeps.ite ?_ ?_
      · exact Keeps.step (ptStart_keeps _ _) (Keeps.refl _) (by decide)
      · refine Keeps.ite ?_ ?_
        · refine Keeps.ite ?_ ?_
          · exact Keeps.step (updMt_keeps _ _) (Keeps.refl _) (by decide)
          · exact Keeps.step (mtAbort_keeps _) (Keeps.refl _) (by decide)
        · refine Keeps.ite ?_ ?_
          · exact Keeps.step (expectAct_keeps _ _) (Keeps.refl _) (by decide)
          · refine Keeps.ite ?_ ?_
            · exact Keeps.step (oldClear_keeps _) (Keeps.refl _) (by decide)
            · refine Keeps.ite ?_ ?_
              · refine Keeps.foldl ?_ fun x0 a1 h2 => ?_
                · exact Keeps.refl _
                · refine Keeps.ite ?_ ?_
                  · exact Keeps.step (tbusDrive_keeps _ _) h2 (by decide)
                  · exact h2
              · exact Keeps.refl _

theorem execCommitGroup_keeps (c : Cmd) (s : State) :
    OutKeeps [.staged, .gain, .armedG, .host, .flt, .per, .reel, .tbus, .freeCtr] [P.HOST_IRQ_CAUSE, P.REEL_LOST,
        P.REEL_QUEUE_HIGH, P.REEL_TRIG_TICK] s (execCommitGroup c s) := by
  unfold execCommitGroup
  refine OutKeeps.ends reelObserve_keeps (by decide) ?_
  refine Keeps.runCmd goodPacket_keeps answer_keeps (by decide) ?_ fun x0 => ?_
  · exact Keeps.refl _
  · exact ResKeeps.mono (commitGroupBody_keeps _ _) (Keeps.refl _) (by decide)

theorem execCommitGroupDiscard_keeps (c : Cmd) (s : State) :
    OutKeeps [.staged, .gain, .armedG, .host, .flt, .per, .reel, .tbus, .freeCtr] [P.HOST_IRQ_CAUSE, P.REEL_LOST,
        P.REEL_QUEUE_HIGH, P.REEL_TRIG_TICK] s (execCommitGroupDiscard c s) := by
  unfold execCommitGroupDiscard
  extract_lets y0
  clear_value y0
  refine OutKeeps.ends reelObserve_keeps (by decide) ?_
  refine Keeps.runCmd goodPacket_keeps answer_keeps (by decide) ?_ fun x30 => ?_
  · exact Keeps.refl _
  · exact ResKeeps.mono (commitGroupBody_keeps _ _) (Keeps.refl _) (by decide)

theorem execGetBlock_keeps (c : Cmd) (s : State) :
    OutKeeps [.host, .flt, .reel, .tbus, .freeCtr] [P.HOST_IRQ_CAUSE, P.REEL_LOST, P.REEL_QUEUE_HIGH,
        P.REEL_TRIG_TICK] s (execGetBlock c s) := by
  unfold execGetBlock
  refine OutKeeps.ends reelObserve_keeps (by decide) ?_
  refine Keeps.runCmd goodPacket_keeps answer_keeps (by decide) ?_ fun x0 => ?_
  · exact Keeps.refl _
  · exact ResKeeps.mono (getBlockBody_keeps _ _) (Keeps.refl _) (by decide)

theorem execGetParam_keeps (c : Cmd) (s : State) :
    OutKeeps [.host, .flt, .reel, .tbus, .freeCtr] [P.HOST_IRQ_CAUSE, P.REEL_LOST, P.REEL_QUEUE_HIGH,
        P.REEL_TRIG_TICK] s (execGetParam c s) := by
  unfold execGetParam
  refine OutKeeps.ends reelObserve_keeps (by decide) ?_
  refine Keeps.runCmd goodPacket_keeps answer_keeps (by decide) ?_ fun x0 => ?_
  · exact Keeps.refl _
  · exact ResKeeps.mono (getParamBody_keeps _ _) (Keeps.refl _) (by decide)

theorem afterSet_keeps (s : State) (id : Nat) (t : Nat) (old : Word) :
    Keeps [.params, .tables, .ops, .host, .pwr, .flt, .arms, .cells, .lanes, .str, .belay, .dup, .reel, .tbus,
        .loops, .encs, .chop, .meas, .tally, .freeCtr] [] s (afterSet s id t old) := by
  unfold afterSet
  refine Keeps.ite ?_ ?_
  · exact Keeps.step (chopForceSet_keeps _ _) (Keeps.refl _) (by rfl)
  · refine Keeps.ite ?_ ?_
    · exact Keeps.step (chopModeSet_keeps _ _) (Keeps.refl _) (by rfl)
    · refine Keeps.ite ?_ ?_
      · exact Keeps.step (updLine_keeps _ _ _) (Keeps.refl _) (by rfl)
      · refine Keeps.ite ?_ ?_
        · exact Keeps.step (adcKick_keeps _ _) (Keeps.refl _) (by rfl)
        · refine Keeps.ite ?_ ?_
          · exact Keeps.step (adcKick_keeps _ _) (Keeps.refl _) (by rfl)
          · refine Keeps.ite ?_ ?_
            · exact Keeps.step (encModeSet_keeps _ _ _) (Keeps.refl _) (by rfl)
            · refine Keeps.ite ?_ ?_
              · exact Keeps.step (limReleases_keeps _ _) (Keeps.refl _) (by rfl)
              · refine Keeps.ite ?_ ?_
                · exact Keeps.step (illegalWatch_keeps _ _) (Keeps.refl _) (by rfl)
                · refine Keeps.ite ?_ ?_
                  · refine Keeps.ite ?_ ?_
                    · exact Keeps.step (updEnc_keeps _ _ _) (Keeps.refl _) (by rfl)
                    · exact Keeps.refl _
                  · refine Keeps.ite ?_ ?_
                    · exact Keeps.step (decCfgSet_keeps _ _) (Keeps.refl _) (by rfl)
                    · refine Keeps.ite ?_ ?_
                      · exact Keeps.step (cleatWatch_keeps _) (Keeps.refl _) (by rfl)
                      · refine Keeps.ite ?_ ?_
                        · exact Keeps.step (cleatWatch_keeps _) (Keeps.refl _) (by rfl)
                        · refine Keeps.ite ?_ ?_
                          · exact Keeps.step (ledgerWatch_keeps _) (Keeps.refl _) (by rfl)
                          · refine Keeps.ite ?_ ?_
                            · refine Keeps.foldl ?_ fun x0 a1 h2 => ?_
                              · exact Keeps.refl _
                              · refine Keeps.ite ?_ ?_
                                · exact Keeps.step (queueOwn_keeps _ _) h2 (by rfl)
                                · exact h2
                            · refine Keeps.ite ?_ ?_
                              · exact Keeps.step (traceCtrl_keeps _ _ _) (Keeps.refl _) (by rfl)
                              · refine Keeps.ite ?_ ?_
                                · exact Keeps.step (tallyWatch_keeps _) (Keeps.refl _) (by rfl)
                                · refine Keeps.ite ?_ ?_
                                  · refine Keeps.ite ?_ ?_
                                    · exact Keeps.step (dupEnter_keeps _) (Keeps.refl _) (by rfl)
                                    · exact Keeps.refl _
                                  · refine Keeps.ite ?_ ?_
                                    · exact Keeps.step (laneEnSet_keeps _) (Keeps.refl _) (by rfl)
                                    · exact Keeps.refl _

theorem setWord_keeps (s : State) (id : Nat) (t : Nat) (w : Word) :
    Keeps [.params, .staged, .tables, .ops, .host, .pwr, .flt, .arms, .cells, .lanes, .str, .belay, .dup, .reel,
        .tbus, .loops, .encs, .chop, .meas, .disc, .tally, .freeCtr] [] s (setWord s id t w) := by
  unfold setWord
  split
  · exact Keeps.refl _
  · split
    · exact Keeps.step (clearSet_keeps _ _ _ _) (Keeps.refl _) (by rfl)
    · exact Keeps.step (writeAct_keeps _ _ _ _) (Keeps.refl _) (by rfl)
    · refine Keeps.ite ?_ ?_
      · exact Keeps.step (stageW_keeps _ _ _ _) (Keeps.refl _) (by rfl)
      · refine Keeps.step (tallyTouch_keeps _ _) ?_ (by rfl)
        refine Keeps.step (afterSet_keeps _ _ _ _) ?_ (by rfl)
        exact Keeps.step (putP_keeps _ _ _ _) (Keeps.refl _) (by rfl)
    · exact Keeps.refl _

theorem setParamBody_keeps (c : Cmd) (s : State) :
    ResKeeps [.params, .staged, .tables, .ops, .host, .pwr, .flt, .arms, .cells, .lanes, .str, .belay, .dup, .reel,
        .tbus, .loops, .encs, .chop, .meas, .disc, .tally, .freeCtr] [] s (setParamBody c s) := by
  unfold setParamBody
  extract_lets y0 y1
  clear_value y0 y1
  exact ResKeeps.check (ResKeeps.done (Keeps.step (setWord_keeps _ _ _ _) (Keeps.refl _) (by rfl)))

theorem setRun_keeps (t : Nat) (a : List (Nat × Word)) (a' : State) :
    SumKeeps [.params, .staged, .tables, .ops, .host, .pwr, .flt, .arms, .cells, .lanes, .str, .belay, .dup, .reel,
        .tbus, .loops, .encs, .chop, .meas, .disc, .tally, .freeCtr] [] a' (setRun t a a') := by
  induction a generalizing a' with
  | nil => exact SumKeeps.inr (.refl a')
  | cons x l ih =>
    unfold setRun
    split
    · trivial
    · exact SumKeeps.mono (ih _) (setWord_keeps _ _ _ _) (by decide)

theorem setBlockBody_keeps (c : Cmd) (s : State) :
    ResKeeps [.params, .staged, .gain, .tables, .ops, .host, .pwr, .flt, .arms, .cells, .lanes, .str, .belay, .dup,
        .reel, .tbus, .loops, .encs, .chop, .meas, .disc, .tally, .freeCtr] [] s (setBlockBody c s) := by
  unfold setBlockBody
  extract_lets num data
  refine ResKeeps.ite ?_ ?_
  · exact ResKeeps.ite trivial (ResKeeps.ite trivial ((tableWrite_keeps _ _ _ _).step (.refl s) (by rfl)))
  · have h := setRun_keeps (tgt c) ((runIds c).zip data) s
    revert h
    cases setRun (tgt c) ((runIds c).zip data) s with
    | inl e => exact fun _ => trivial
    | inr t => exact fun h => Keeps.step h (.refl s) (by rfl)

theorem setParam_keeps (c : Cmd) (s : State) :
    Keeps [.params, .staged, .tables, .ops, .host, .pwr, .flt, .arms, .cells, .lanes, .str, .belay, .dup, .reel,
        .tbus, .loops, .encs, .chop, .meas, .disc, .tally, .freeCtr] [] s (setParam c s) := by
  unfold setParam
  refine Keeps.runCmd goodPacket_keeps answer_keeps (by decide) ?_ fun x0 => ?_
  · exact Keeps.refl _
  · exact ResKeeps.mono (setParamBody_keeps _ _) (Keeps.refl _) (by decide)

theorem execAdcPtStart_keeps (c : Cmd) (s : State) :
    OutKeeps [.params, .staged, .tables, .ops, .host, .pwr, .flt, .arms, .cells, .lanes, .str, .belay, .dup, .reel,
        .tbus, .loops, .encs, .chop, .meas, .disc, .tally, .freeCtr] [] s (execAdcPtStart c s) := by
  unfold execAdcPtStart
  exact OutKeeps.ends reelObserve_keeps (by decide) (Keeps.step (setParam_keeps _ _) (Keeps.refl _) (by rfl))

theorem execChopForce_keeps (c : Cmd) (s : State) :
    OutKeeps [.params, .staged, .tables, .ops, .host, .pwr, .flt, .arms, .cells, .lanes, .str, .belay, .dup, .reel,
        .tbus, .loops, .encs, .chop, .meas, .disc, .tally, .freeCtr] [] s (execChopForce c s) := by
  unfold execChopForce
  exact OutKeeps.ends reelObserve_keeps (by decide) (Keeps.step (setParam_keeps _ _) (Keeps.refl _) (by rfl))

theorem execChopMode_keeps (c : Cmd) (s : State) :
    OutKeeps [.params, .staged, .tables, .ops, .host, .pwr, .flt, .arms, .cells, .lanes, .str, .belay, .dup, .reel,
        .tbus, .loops, .encs, .chop, .meas, .disc, .tally, .freeCtr] [] s (execChopMode c s) := by
  unfold execChopMode
  exact OutKeeps.ends reelObserve_keeps (by decide) (Keeps.step (setParam_keeps _ _) (Keeps.refl _) (by rfl))

theorem execCltExclude_keeps (c : Cmd) (s : State) :
    OutKeeps [.params, .staged, .tables, .ops, .host, .pwr, .flt, .arms, .cells, .lanes, .str, .belay, .dup, .reel,
        .tbus, .loops, .encs, .chop, .meas, .disc, .tally, .freeCtr] [] s (execCltExclude c s) := by
  unfold execCltExclude
  exact OutKeeps.ends reelObserve_keeps (by decide) (Keeps.step (setParam_keeps _ _) (Keeps.refl _) (by rfl))

theorem execDecCfg_keeps (c : Cmd) (s : State) :
    OutKeeps [.params, .staged, .tables, .ops, .host, .pwr, .flt, .arms, .cells, .lanes, .str, .belay, .dup, .reel,
        .tbus, .loops, .encs, .chop, .meas, .disc, .tally, .freeCtr] [] s (execDecCfg c s) := by
  unfold execDecCfg
  exact OutKeeps.ends reelObserve_keeps (by decide) (Keeps.step (setParam_keeps _ _) (Keeps.refl _) (by rfl))

theorem execDiscMtAbort_keeps (c : Cmd) (s : State) :
    OutKeeps [.params, .staged, .tables, .ops, .host, .pwr, .flt, .arms, .cells, .lanes, .str, .belay, .dup, .reel,
        .tbus, .loops, .encs, .chop, .meas, .disc, .tally, .freeCtr] [] s (execDiscMtAbort c s) := by
  unfold execDiscMtAbort
  exact OutKeeps.ends reelObserve_keeps (by decide) (Keeps.step (setParam_keeps _ _) (Keeps.refl _) (by rfl))

theorem execDiscMtStart_keeps (c : Cmd) (s : State) :
    OutKeeps [.params, .staged, .tables, .ops, .host, .pwr, .flt, .arms, .cells, .lanes, .str, .belay, .dup, .reel,
        .tbus, .loops, .encs, .chop, .meas, .disc, .tally, .freeCtr] [] s (execDiscMtStart c s) := by
  unfold execDiscMtStart
  exact OutKeeps.ends reelObserve_keeps (by decide) (Keeps.step (setParam_keeps _ _) (Keeps.refl _) (by rfl))

theorem execEncLatchCfg_keeps (c : Cmd) (s : State) :
    OutKeeps [.params, .staged, .tables, .ops, .host, .pwr, .flt, .arms, .cells, .lanes, .str, .belay, .dup, .reel,
        .tbus, .loops, .encs, .chop, .meas, .disc, .tally, .freeCtr] [] s (execEncLatchCfg c s) := by
  unfold execEncLatchCfg
  exact OutKeeps.ends reelObserve_keeps (by decide) (Keeps.step (setParam_keeps _ _) (Keeps.refl _) (by rfl))

theorem execEncPreset_keeps (c : Cmd) (s : State) :
    OutKeeps [.params, .staged, .tables, .ops, .host, .pwr, .flt, .arms, .cells, .lanes, .str, .belay, .dup, .reel,
        .tbus, .loops, .encs, .chop, .meas, .disc, .tally, .freeCtr] [] s (execEncPreset c s) := by
  unfold execEncPreset
  exact OutKeeps.ends reelObserve_keeps (by decide) (Keeps.step (setParam_keeps _ _) (Keeps.refl _) (by rfl))

theorem execFltErrHold_keeps (c : Cmd) (s : State) :
    OutKeeps [.params, .staged, .tables, .ops, .host, .pwr, .flt, .arms, .cells, .lanes, .str, .belay, .dup, .reel,
        .tbus, .loops, .encs, .chop, .meas, .disc, .tally, .freeCtr] [] s (execFltErrHold c s) := by
  unfold execFltErrHold
  exact OutKeeps.ends reelObserve_keeps (by decide) (Keeps.step (setParam_keeps _ _) (Keeps.refl _) (by rfl))

theorem execFrmHubHoldMax_keeps (c : Cmd) (s : State) :
    OutKeeps [.params, .staged, .tables, .ops, .host, .pwr, .flt, .arms, .cells, .lanes, .str, .belay, .dup, .reel,
        .tbus, .loops, .encs, .chop, .meas, .disc, .tally, .freeCtr] [] s (execFrmHubHoldMax c s) := by
  unfold execFrmHubHoldMax
  exact OutKeeps.ends reelObserve_keeps (by decide) (Keeps.step (setParam_keeps _ _) (Keeps.refl _) (by rfl))

theorem execPwrLaneEn_keeps (c : Cmd) (s : State) :
    OutKeeps [.params, .staged, .tables, .ops, .host, .pwr, .flt, .arms, .cells, .lanes, .str, .belay, .dup, .reel,
        .tbus, .loops, .encs, .chop, .meas, .disc, .tally, .freeCtr] [] s (execPwrLaneEn c s) := by
  unfold execPwrLaneEn
  exact OutKeeps.ends reelObserve_keeps (by decide) (Keeps.step (setParam_keeps _ _) (Keeps.refl _) (by rfl))

theorem execSetBlock_keeps (c : Cmd) (s : State) :
    OutKeeps [.params, .staged, .gain, .tables, .ops, .host, .pwr, .flt, .arms, .cells, .lanes, .str, .belay, .dup,
        .reel, .tbus, .loops, .encs, .chop, .meas, .disc, .tally, .freeCtr] [] s (execSetBlock c s) := by
  unfold execSetBlock
  refine OutKeeps.ends reelObserve_keeps (by decide) ?_
  refine Keeps.runCmd goodPacket_keeps answer_keeps (by decide) ?_ fun x0 => ?_
  · exact Keeps.refl _
  · exact ResKeeps.mono (setBlockBody_keeps _ _) (Keeps.refl _) (by decide)

theorem execSetParam_keeps (c : Cmd) (s : State) :
    OutKeeps [.params, .staged, .tables, .ops, .host, .pwr, .flt, .arms, .cells, .lanes, .str, .belay, .dup, .reel,
        .tbus, .loops, .encs, .chop, .meas, .disc, .tally, .freeCtr] [] s (execSetParam c s) := by
  unfold execSetParam
  exact OutKeeps.ends reelObserve_keeps (by decide) (Keeps.step (setParam_keeps _ _) (Keeps.refl _) (by rfl))

theorem execStrTraceCtrl_keeps (c : Cmd) (s : State) :
    OutKeeps [.params, .staged, .tables, .ops, .host, .pwr, .flt, .arms, .cells, .lanes, .str, .belay, .dup, .reel,
        .tbus, .loops, .encs, .chop, .meas, .disc, .tally, .freeCtr] [] s (execStrTraceCtrl c s) := by
  unfold execStrTraceCtrl
  exact OutKeeps.ends reelObserve_keeps (by decide) (Keeps.step (setParam_keeps _ _) (Keeps.refl _) (by rfl))

theorem execTallyExpectAct_keeps (c : Cmd) (s : State) :
    OutKeeps [.params, .staged, .tables, .ops, .host, .pwr, .flt, .arms, .cells, .lanes, .str, .belay, .dup, .reel,
        .tbus, .loops, .encs, .chop, .meas, .disc, .tally, .freeCtr] [] s (execTallyExpectAct c s) := by
  unfold execTallyExpectAct
  exact OutKeeps.ends reelObserve_keeps (by decide) (Keeps.step (setParam_keeps _ _) (Keeps.refl _) (by rfl))

theorem execTallyOldClear_keeps (c : Cmd) (s : State) :
    OutKeeps [.params, .staged, .tables, .ops, .host, .pwr, .flt, .arms, .cells, .lanes, .str, .belay, .dup, .reel,
        .tbus, .loops, .encs, .chop, .meas, .disc, .tally, .freeCtr] [] s (execTallyOldClear c s) := by
  unfold execTallyOldClear
  exact OutKeeps.ends reelObserve_keeps (by decide) (Keeps.step (setParam_keeps _ _) (Keeps.refl _) (by rfl))

theorem execTbusForce_keeps (c : Cmd) (s : State) :
    OutKeeps [.params, .staged, .tables, .ops, .host, .pwr, .flt, .arms, .cells, .lanes, .str, .belay, .dup, .reel,
        .tbus, .loops, .encs, .chop, .meas, .disc, .tally, .freeCtr] [] s (execTbusForce c s) := by
  unfold execTbusForce
  exact OutKeeps.ends reelObserve_keeps (by decide) (Keeps.step (setParam_keeps _ _) (Keeps.refl _) (by rfl))

theorem execTrajPreset_keeps (c : Cmd) (s : State) :
    OutKeeps [.params, .staged, .tables, .ops, .host, .pwr, .flt, .arms, .cells, .lanes, .str, .belay, .dup, .reel,
        .tbus, .loops, .encs, .chop, .meas, .disc, .tally, .freeCtr] [] s (execTrajPreset c s) := by
  unfold execTrajPreset
  exact OutKeeps.ends reelObserve_keeps (by decide) (Keeps.step (setParam_keeps _ _) (Keeps.refl _) (by rfl))

end Sys2Proof.Machine
end

