-- ==== Sys2Proof/Laws/PowerFrame.lean ====
section
/-! SUPPORT. What each operation of `Machine/Power.lean` may change, and that it changes nothing else. -/

namespace Sys2Proof.Machine

theorem wake_keeps (s : State) :
    Keeps [.params, .staged, .gain, .armedG, .tables, .ops, .host, .pwr, .flt, .time, .per, .capWords, .arms,
        .cells, .lanes, .cleat, .str, .belay, .dup, .reel, .tbus, .loops, .encs, .chop, .meas, .disc,
        .tally] [] s (wake s) := by
  unfold wake
  extract_lets y0 y1 y2 y3
  clear_value y0 y3
  refine Keeps.cut (s := y2) ?_ fun h30 => ?_
  · unfold y2
    refine Keeps.step (putN_keeps _ _ _ _) ?_ (by rfl)
    refine Keeps.step (B := [.params, .staged, .gain, .armedG, .tables, .ops, .host, .pwr, .flt, .time, .per,
        .capWords, .arms, .cells, .lanes, .cleat, .str, .belay, .dup, .reel, .tbus, .loops, .encs, .chop, .meas,
        .disc, .tally]) (bi := []) (s := s)
        (.updAll rfl fun g hg => by cases g <;> first | exact absurd hg (by decide) | rfl) ?_ (by decide)
    exact Keeps.refl _
  clear_value y2
  refine Keeps.step (B := [.pwr]) (bi := []) (s := y2)
      (.upd rfl fun g hg => by cases g <;> first | exact absurd hg (by decide) | rfl) ?_ (by decide)
  exact h30

theorem execDormantEntry_keeps (s : State) :
    OutKeeps [.tick, .params, .staged, .gain, .armedG, .tables, .ops, .host, .pwr, .flt, .time, .per, .capWords,
        .arms, .cells, .lanes, .cleat, .str, .belay, .dup, .reel, .tbus, .loops, .encs, .chop, .meas, .disc, .tally,
        .freeCtr] [] s (execDormantEntry s) := by
  unfold execDormantEntry
  extract_lets y0
  refine OutKeeps.ends reelObserve_keeps (by decide) ?_
  split
  · extract_lets y90 y91 y92
    clear_value y91
    refine Keeps.cut (s := y90) ?_ fun h120 => ?_
    · unfold y90
      exact Keeps.step (advanceTo_keeps _ _) (Keeps.refl _) (by rfl)
    clear_value y90
    refine Keeps.cut (s := y92) ?_ fun h121 => ?_
    · unfold y92
      refine Keeps.step (B := [.params, .staged, .gain, .armedG, .tables, .ops, .host, .pwr, .flt, .time, .per,
          .capWords, .arms, .cells, .lanes, .cleat, .str, .belay, .dup, .reel, .tbus, .loops, .encs, .chop, .meas,
          .disc, .tally]) (bi := []) (s := y90)
          (.updAll rfl fun g hg => by cases g <;> first | exact absurd hg (by decide) | rfl) ?_ (by decide)
      exact h120
    clear_value y92
    refine Keeps.ite ?_ ?_
    · exact Keeps.step (wake_keeps _) h121 (by rfl)
    · exact h121
  · exact Keeps.refl _

theorem execPorstAssert_keeps (supervisor : Bool) (s : State) :
    OutKeeps [.params, .staged, .gain, .armedG, .tables, .ops, .host, .pwr, .flt, .time, .per, .capWords, .arms,
        .cells, .lanes, .cleat, .str, .belay, .dup, .reel, .tbus, .loops, .encs, .chop, .meas, .disc, .tally,
        .freeCtr] [] s (execPorstAssert supervisor s) := by
  unfold execPorstAssert
  extract_lets y0
  refine OutKeeps.ends reelObserve_keeps (by decide) ?_
  refine Keeps.step (putN_keeps _ _ _ _) ?_ (by rfl)
  refine Keeps.step (B := [.params, .staged, .gain, .armedG, .tables, .ops, .host, .pwr, .flt, .time, .per,
        .capWords, .arms, .cells, .lanes, .cleat, .str, .belay, .dup, .reel, .tbus, .loops, .encs, .chop, .meas,
        .disc, .tally]) (bi := []) (s := s)
      (.updAll rfl fun g hg => by cases g <;> first | exact absurd hg (by decide) | rfl) ?_ (by decide)
  exact Keeps.refl _

theorem execPorstRelease_keeps (testmode : Bool) (s : State) :
    OutKeeps [.host, .pwr, .reel, .tbus, .freeCtr] [P.HOST_IRQ_CAUSE, P.PWR_RESET_CAUSE, P.REEL_LOST,
        P.REEL_QUEUE_HIGH, P.REEL_TRIG_TICK] s (execPorstRelease testmode s) := by
  unfold execPorstRelease
  extract_lets y0 y1
  clear_value y0
  refine OutKeeps.cut (s := y1) ?_ fun h30 => ?_
  · unfold y1
    exact Keeps.step (putN_keeps _ _ _ _) (Keeps.refl _) (by decide)
  clear_value y1
  refine OutKeeps.ends reelObserve_keeps (by decide) ?_
  refine Keeps.ite ?_ ?_
  · exact Keeps.step (updPwr_keeps _ _) h30 (by decide)
  · exact Keeps.refl _

theorem execWakeNLow_keeps (testmode : Bool) (s : State) :
    OutKeeps [.params, .staged, .gain, .armedG, .tables, .ops, .host, .pwr, .flt, .time, .per, .capWords, .arms,
        .cells, .lanes, .cleat, .str, .belay, .dup, .reel, .tbus, .loops, .encs, .chop, .meas, .disc, .tally,
        .freeCtr] [] s (execWakeNLow testmode s) := by
  unfold execWakeNLow
  refine OutKeeps.ends reelObserve_keeps (by decide) ?_
  split
  · exact Keeps.step (wake_keeps _) (Keeps.step (updPwr_keeps _ _) (Keeps.refl _) (by rfl)) (by rfl)
  · exact Keeps.step (updPwr_keeps _ _) (Keeps.refl _) (by rfl)
  · exact Keeps.refl _

theorem execXtalFail_keeps (s : State) :
    OutKeeps [.host, .pwr, .reel, .tbus, .freeCtr] [P.HOST_IRQ_CAUSE, P.PWR_EVENT, P.REEL_LOST, P.REEL_QUEUE_HIGH,
        P.REEL_TRIG_TICK] s (execXtalFail s) := by
  unfold execXtalFail
  refine OutKeeps.ends reelObserve_keeps (by decide) ?_
  refine Keeps.ite ?_ ?_
  · exact Keeps.step (orP_keeps _ _ _ _) (Keeps.step (updPwr_keeps _ _) (Keeps.refl _) (by decide)) (by decide)
  · exact Keeps.refl _

theorem execXtalSwitch_keeps (s : State) :
    OutKeeps [.host, .pwr, .reel, .tbus, .freeCtr] [P.HOST_IRQ_CAUSE, P.REEL_LOST, P.REEL_QUEUE_HIGH,
        P.REEL_TRIG_TICK] s (execXtalSwitch s) := by
  unfold execXtalSwitch
  refine OutKeeps.ends reelObserve_keeps (by decide) ?_
  refine Keeps.ite ?_ ?_
  · exact Keeps.refl _
  · exact Keeps.step (updPwr_keeps _ _) (Keeps.refl _) (by decide)

theorem execCorePllLoss_keeps (s : State) :
    OutKeeps [.host, .pwr, .flt, .arms, .cells, .lanes, .str, .belay, .reel, .tbus, .freeCtr] [P.FLT_LOST,
        P.HOST_IRQ_CAUSE, P.PWR_EVENT, P.REEL_LOST, P.REEL_QUEUE_HIGH, P.REEL_TRIG_TICK,
        P.STR_TRACE_LOST] s (execCorePllLoss s) := by
  unfold execCorePllLoss
  extract_lets y0 y1
  refine OutKeeps.cut (s := y0) ?_ fun h30 => ?_
  · unfold y0
    exact Keeps.step (orP_keeps _ _ _ _) (Keeps.step (updPwr_keeps _ _) (Keeps.refl _) (by decide)) (by decide)
  clear_value y0
  refine OutKeeps.cut (s := y1) ?_ fun h31 => ?_
  · unfold y1
    exact Keeps.step (internalFail_keeps _ _) (Keeps.step (updBelay_keeps _ _) h30 (by decide)) (by decide)
  clear_value y1
  refine OutKeeps.ends reelObserve_keeps (by decide) ?_
  refine Keeps.ite ?_ ?_
  · exact Keeps.refl _
  · split
    · exact Keeps.step (updPwr_keeps _ _) h31 (by decide)
    · exact Keeps.step (updPwr_keeps _ _) h31 (by decide)

theorem endPllOps_keeps (s : State) :
    Keeps [.tables, .ops, .host, .flt, .arms, .cells, .lanes, .str, .belay, .reel, .tbus, .chop, .disc, .tally,
        .freeCtr] [P.FLT_LOST, P.HOST_IRQ_CAUSE, P.REEL_LOST, P.REEL_QUEUE_HIGH, P.REEL_TRIG_TICK, P.STR_READY_MAX,
        P.STR_SLOTS_HIGH, P.STR_TRACE_LOST] s (endPllOps s) := by
  unfold endPllOps
  refine Keeps.foldl ?_ fun x0 a1 h2 => ?_
  · exact Keeps.refl _
  · exact Keeps.step (endRunOp_keeps _ _) h2 (by decide)

theorem lanePllLost_keeps (s : State) (l : Nat) :
    Keeps [.params, .staged, .armedG, .tables, .ops, .host, .flt, .arms, .cells, .lanes, .str, .belay, .reel, .tbus,
        .tally, .freeCtr] [] s (lanePllLost s l) := by
  unfold lanePllLost
  split
  · split
    · refine Keeps.step (lockLost_keeps _ _ _) ?_ (by rfl)
      refine Keeps.step (B := [.freeCtr]) (bi := []) (s := s)
          (.upd rfl fun g hg => by cases g <;> first | exact absurd hg (by decide) | rfl) ?_ (by decide)
      exact Keeps.refl _
    · exact Keeps.step (lockLost_keeps _ _ _) (Keeps.refl _) (by rfl)
  · exact Keeps.step (bringupFail_keeps _ _ _ _) (Keeps.refl _) (by rfl)
  · exact Keeps.step (bringupFail_keeps _ _ _ _) (Keeps.refl _) (by rfl)
  · exact Keeps.refl _

theorem execLanePllLoss_keeps (quad : Fin 4) (s : State) :
    OutKeeps [.params, .staged, .armedG, .tables, .ops, .host, .pwr, .flt, .arms, .cells, .lanes, .str, .belay,
        .reel, .tbus, .tally, .freeCtr] [] s (execLanePllLoss quad s) := by
  unfold execLanePllLoss
  extract_lets y0
  refine OutKeeps.cut (s := y0) ?_ fun h30 => ?_
  · unfold y0
    exact Keeps.step (updPwr_keeps _ _) (Keeps.refl _) (by rfl)
  clear_value y0
  refine OutKeeps.clocked ?_ ?_
  · exact Keeps.refl _
  · refine OutKeeps.ends reelObserve_keeps (by decide) ?_
    refine Keeps.ite ?_ ?_
    · refine Keeps.foldl ?_ fun x31 a32 h33 => ?_
      · exact Keeps.step (orP_keeps _ _ _ _) h30 (by rfl)
      · exact Keeps.step (lanePllLost_keeps _ _) h33 (by rfl)
    · exact Keeps.refl _

theorem execDispatchTestDone_keeps (pass : Bool) (strandsBad : BitVec 4) (s : State) :
    OutKeeps [.tick, .params, .staged, .gain, .armedG, .tables, .ops, .host, .pwr, .flt, .time, .per, .capWords,
        .arms, .cells, .lanes, .cleat, .str, .belay, .dup, .reel, .tbus, .loops, .encs, .chop, .meas, .disc, .tally,
        .freeCtr] [] s (execDispatchTestDone pass strandsBad s) := by
  unfold execDispatchTestDone
  refine OutKeeps.clocked ?_ ?_
  · exact Keeps.refl _
  · refine OutKeeps.ends reelObserve_keeps (by decide) ?_
    split
    · extract_lets y90 y91
      refine Keeps.cut (s := y90) ?_ fun h120 => ?_
      · unfold y90
        exact Keeps.step (advanceTo_keeps _ _) (Keeps.refl _) (by rfl)
      clear_value y90
      refine Keeps.cut (s := y91) ?_ fun h121 => ?_
      · unfold y91
        exact Keeps.step (orP_keeps _ _ _ _) h120 (by rfl)
      clear_value y91
      refine Keeps.ite ?_ ?_
      · exact Keeps.step (enterRun_keeps _) h121 (by rfl)
      · refine Keeps.step (powerFail_keeps _) ?_ (by rfl)
        exact Keeps.step (updPwr_keeps _ _) (Keeps.step (domains_keeps _ _ _) h121 (by rfl)) (by rfl)
    · exact Keeps.refl _

theorem execRunToReady_keeps (s : State) :
    OutKeeps [.tick, .params, .staged, .gain, .armedG, .tables, .ops, .host, .pwr, .flt, .time, .per, .capWords,
        .arms, .cells, .lanes, .cleat, .str, .belay, .dup, .reel, .tbus, .loops, .encs, .chop, .meas, .disc, .tally,
        .freeCtr] [] s (execRunToReady s) := by
  unfold execRunToReady
  refine OutKeeps.clocked ?_ ?_
  · exact Keeps.refl _
  · refine OutKeeps.ends reelObserve_keeps (by decide) ?_
    split
    · exact Keeps.step (nextMark_keeps _ _ _) (Keeps.refl _) (by rfl)
    · exact Keeps.refl _

theorem runReady_keeps (s : State) :
    Keeps [.params, .staged, .gain, .armedG, .tables, .ops, .host, .pwr, .flt, .time, .per, .capWords, .arms,
        .cells, .lanes, .cleat, .str, .belay, .dup, .reel, .tbus, .loops, .encs, .chop, .meas, .disc, .tally,
        .freeCtr] [] s (runReady s) := by
  unfold runReady
  refine Keeps.ite ?_ ?_
  · refine Keeps.ite ?_ ?_
    · exact Keeps.step (enterRun_keeps _) (Keeps.refl _) (by rfl)
    · exact Keeps.step (updPwr_keeps _ _) (Keeps.refl _) (by rfl)
  · exact Keeps.refl _

theorem execLanePllLock_keeps (quad : Fin 4) (s : State) :
    OutKeeps [.params, .staged, .gain, .armedG, .tables, .ops, .host, .pwr, .flt, .time, .per, .capWords, .arms,
        .cells, .lanes, .cleat, .str, .belay, .dup, .reel, .tbus, .loops, .encs, .chop, .meas, .disc, .tally,
        .freeCtr] [] s (execLanePllLock quad s) := by
  unfold execLanePllLock
  refine OutKeeps.ends reelObserve_keeps (by decide) ?_
  refine Keeps.ite ?_ ?_
  · exact Keeps.step (runReady_keeps _) (Keeps.step (updPwr_keeps _ _) (Keeps.refl _) (by rfl)) (by rfl)
  · exact Keeps.refl _

theorem powerGo_keeps (s : State) :
    Keeps [.params, .staged, .gain, .armedG, .tables, .ops, .host, .pwr, .flt, .time, .per, .capWords, .arms,
        .cells, .lanes, .cleat, .str, .belay, .dup, .reel, .tbus, .loops, .encs, .chop, .meas, .disc, .tally,
        .freeCtr] [] s (powerGo s) := by
  unfold powerGo
  exact Keeps.step (runReady_keeps _) (Keeps.step (powerNext_keeps _) (Keeps.refl _) (by rfl)) (by rfl)

theorem powerStateBody_keeps (c : Cmd) (s : State) :
    ResKeeps [.params, .staged, .gain, .armedG, .tables, .ops, .host, .pwr, .flt, .time, .per, .capWords, .arms,
        .cells, .lanes, .cleat, .str, .belay, .dup, .reel, .tbus, .loops, .encs, .chop, .meas, .disc, .tally,
        .freeCtr] [] s (powerStateBody c s) := by
  unfold powerStateBody
  extract_lets y0
  clear_value y0
  refine ResKeeps.check ?_
  refine ResKeeps.accepted ?_ fun x90 => ?_
  · exact Keeps.step (startOp_keeps _ _ _ _ _) (Keeps.refl _) (by rfl)
  · extract_lets y92
    refine Keeps.cut (s := y92) ?_ fun h122 => ?_
    · unfold y92
      exact Keeps.step (updPwr_keeps _ _) (Keeps.refl _) (by rfl)
    clear_value y92
    refine Keeps.ite ?_ ?_
    · exact h122
    · exact Keeps.step (powerGo_keeps _) (Keeps.step (updPwr_keeps _ _) h122 (by rfl)) (by rfl)

theorem relock_keeps (s : State) :
    Keeps [.params, .staged, .gain, .armedG, .tables, .ops, .host, .pwr, .flt, .time, .per, .capWords, .arms,
        .cells, .lanes, .cleat, .str, .belay, .dup, .reel, .tbus, .loops, .encs, .chop, .meas, .disc, .tally,
        .freeCtr] [] s (relock s) := by
  unfold relock
  extract_lets y0 y1 y2
  refine Keeps.cut (s := y0) ?_ fun h30 => ?_
  · unfold y0
    exact Keeps.step (updPwr_keeps _ _) (Keeps.refl _) (by rfl)
  clear_value y0
  refine Keeps.cut (s := y1) ?_ fun h31 => ?_
  · unfold y1
    exact Keeps.step (endPllOps_keeps _) h30 (by rfl)
  clear_value y1
  refine Keeps.cut (s := y2) ?_ fun h32 => ?_
  · unfold y2
    refine Keeps.ite ?_ ?_
    · exact Keeps.step (leaveRun_keeps _) h31 (by rfl)
    · exact Keeps.step (updPwr_keeps _ _) (Keeps.step (domains_keeps _ _ _) h31 (by rfl)) (by rfl)
  clear_value y2
  split
  · exact Keeps.step (updPwr_keeps _ _) h32 (by rfl)
  · refine Keeps.ite ?_ ?_
    · exact Keeps.step (completeErr_keeps _ _ _) (Keeps.step (updPwr_keeps _ _) h32 (by rfl)) (by rfl)
    · exact Keeps.step (powerGo_keeps _) h32 (by rfl)

theorem execBistDone_keeps (sram : Bool) (rom : Bool) (belayClock : Bool) (tripBack : Bool) (strandsBad : BitVec 4)
      (s : State) :
    OutKeeps [.tick, .params, .staged, .gain, .armedG, .tables, .ops, .host, .pwr, .flt, .time, .per, .capWords,
        .arms, .cells, .lanes, .cleat, .str, .belay, .dup, .reel, .tbus, .loops, .encs, .chop, .meas, .disc, .tally,
        .freeCtr] [] s (execBistDone sram rom belayClock tripBack strandsBad s) := by
  unfold execBistDone
  refine OutKeeps.ends reelObserve_keeps (by decide) ?_
  split
  · extract_lets y60 y61 y62 y63 y64
    clear_value y64
    refine Keeps.cut (s := y60) ?_ fun h90 => ?_
    · unfold y60
      exact Keeps.step (advanceTo_keeps _ _) (Keeps.refl _) (by rfl)
    clear_value y60
    refine Keeps.cut (s := y61) ?_ fun h91 => ?_
    · unfold y61
      exact Keeps.step (putN_keeps _ _ _ _) h90 (by rfl)
    clear_value y61
    refine Keeps.cut (s := y62) ?_ fun h92 => ?_
    · unfold y62
      refine Keeps.foldl ?_ fun x93 a94 h95 => ?_
      · exact h91
      · exact Keeps.step (updStrand_keeps _ _ _) h95 (by rfl)
    clear_value y62
    refine Keeps.cut (s := y63) ?_ fun h96 => ?_
    · unfold y63
      exact Keeps.step (updPwr_keeps _ _) h92 (by rfl)
    clear_value y63
    refine Keeps.step (powerGo_keeps _) ?_ (by rfl)
    refine Keeps.step (B := [.host]) (bi := []) (s := y63)
        (.upd rfl fun g hg => by cases g <;> first | exact absurd hg (by decide) | rfl) ?_ (by decide)
    exact h96
  · exact Keeps.refl _

theorem execCorePllLock_keeps (s : State) :
    OutKeeps [.params, .staged, .gain, .armedG, .tables, .ops, .host, .pwr, .flt, .time, .per, .capWords, .arms,
        .cells, .lanes, .cleat, .str, .belay, .dup, .reel, .tbus, .loops, .encs, .chop, .meas, .disc, .tally,
        .freeCtr] [] s (execCorePllLock s) := by
  unfold execCorePllLock
  refine OutKeeps.ends reelObserve_keeps (by decide) ?_
  split
  · exact Keeps.step (updPwr_keeps _ _) (Keeps.refl _) (by rfl)
  · exact Keeps.step (relock_keeps _) (Keeps.refl _) (by rfl)
  · exact Keeps.refl _

theorem execListenEntry_keeps (wakeLow : Bool) (s : State) :
    OutKeeps [.tick, .params, .staged, .gain, .armedG, .tables, .ops, .host, .pwr, .flt, .time, .per, .capWords,
        .arms, .cells, .lanes, .cleat, .str, .belay, .dup, .reel, .tbus, .loops, .encs, .chop, .meas, .disc, .tally,
        .freeCtr] [] s (execListenEntry wakeLow s) := by
  unfold execListenEntry
  refine OutKeeps.ends reelObserve_keeps (by decide) ?_
  split
  · extract_lets y60 y61
    refine Keeps.cut (s := y60) ?_ fun h90 => ?_
    · unfold y60
      exact Keeps.step (advanceTo_keeps _ _) (Keeps.refl _) (by rfl)
    clear_value y60
    refine Keeps.cut (s := y61) ?_ fun h91 => ?_
    · unfold y61
      exact Keeps.step (updPwr_keeps _ _) h90 (by rfl)
    clear_value y61
    refine Keeps.ite ?_ ?_
    · exact Keeps.step (powerGo_keeps _) (Keeps.step (updPwr_keeps _ _) h91 (by rfl)) (by rfl)
    · exact h91
  · exact Keeps.refl _

theorem execPowerState_keeps (c : Cmd) (s : State) :
    OutKeeps [.params, .staged, .gain, .armedG, .tables, .ops, .host, .pwr, .flt, .time, .per, .capWords, .arms,
        .cells, .lanes, .cleat, .str, .belay, .dup, .reel, .tbus, .loops, .encs, .chop, .meas, .disc, .tally,
        .freeCtr] [] s (execPowerState c s) := by
  unfold execPowerState
  refine OutKeeps.ends reelObserve_keeps (by decide) ?_
  refine Keeps.runCmd goodPacket_keeps answer_keeps (by decide) ?_ fun x0 => ?_
  · exact Keeps.refl _
  · exact ResKeeps.mono (powerStateBody_keeps _ _) (Keeps.refl _) (by decide)

end Sys2Proof.Machine
end

