-- ==== Sys2Proof/Laws/ReelFrame.lean ====
section
/-! SUPPORT. What each operation of `Machine/Reel.lean` may change, and that it changes nothing else. -/

namespace Sys2Proof.Machine

theorem reelReadBody_keeps (c : Cmd) (s : State) :
    ResKeeps [] [] s (reelReadBody c s) := by
  unfold reelReadBody
  extract_lets y0 y1
  clear_value y0 y1
  refine ResKeeps.check ?_
  show Keeps _ _ _ _
  exact Keeps.refl _

theorem reelStart_keeps (s : State) (num : Nat) :
    Keeps [.reel] [P.REEL_TRIG_TICK] s (reelStart s num) := by
  unfold reelStart
  extract_lets y0 y1 y2 y3
  clear_value y0 y1 y2
  refine Keeps.cut (s := y3) ?_ fun h30 => ?_
  · unfold y3
    refine Keeps.step (putN_keeps _ _ _ _) ?_ (by decide)
    refine Keeps.step (B := [.reel]) (bi := []) (s := s)
        (.upd rfl fun g hg => by cases g <;> first | exact absurd hg (by decide) | rfl) ?_ (by decide)
    exact Keeps.refl _
  clear_value y3
  refine Keeps.ite ?_ ?_
  · exact h30
  · exact Keeps.step (reelForm_keeps _ _) h30 (by decide)

theorem tbusFallen_keeps (s : State) (n : Nat) :
    Keeps [.reel, .tbus, .encs, .meas] [P.ENC_LATCH_CFG, P.ENC_LATCH_POS, P.ENC_LATCH_SRC, P.ENC_LATCH_TIME,
        P.ENC_LATCH_TIME + 1, P.TBUS_LAST_FALL, P.TBUS_LAST_FALL + 1, P.TBUS_LOOP_TICKS] s (tbusFallen s n) := by
  unfold tbusFallen
  extract_lets y0 y1 y2 y3
  refine Keeps.cut (s := y0) ?_ fun h30 => ?_
  · unfold y0
    split
    · exact Keeps.step (putN_keeps _ _ _ _) (Keeps.refl _) (by decide)
    · exact Keeps.refl _
  clear_value y0
  refine Keeps.cut (s := y1) ?_ fun h31 => ?_
  · unfold y1
    exact Keeps.step (updLine_keeps _ _ _) h30 (by decide)
  clear_value y1
  refine Keeps.cut (s := y2) ?_ fun h32 => ?_
  · unfold y2
    exact Keeps.step (put64_keeps _ _ _ _ _) h31 (by decide)
  clear_value y2
  refine Keeps.cut (s := y3) ?_ fun h33 => ?_
  · unfold y3
    exact Keeps.step (reelRef_keeps _ _ _) (Keeps.step (trigEvent_keeps _ _ _) h32 (by decide)) (by decide)
  clear_value y3
  refine Keeps.foldl ?_ fun x34 a35 h36 => ?_
  · exact h33
  · refine Keeps.ite ?_ ?_
    · exact Keeps.step (encLatch_keeps _ _ _ _) h36 (by decide)
    · exact h36

theorem reelArmBody_keeps (c : Cmd) (s : State) :
    ResKeeps [.reel] [P.REEL_TRIG_TICK] s (reelArmBody c s) := by
  unfold reelArmBody
  exact ResKeeps.check (ResKeeps.done (Keeps.step (reelStart_keeps _ _) (Keeps.refl _) (by decide)))

theorem tbusTrigger_keeps (n : Nat) (s : State) :
    Keeps [.host, .reel, .tbus, .freeCtr] [P.HOST_IRQ_CAUSE, P.REEL_LOST, P.REEL_QUEUE_HIGH,
        P.REEL_TRIG_TICK] s (tbusTrigger n s) := by
  unfold tbusTrigger
  split
  · refine Keeps.ite ?_ ?_
    · exact Keeps.step (reelTrigger_keeps _ _ _) (Keeps.refl _) (by decide)
    · exact Keeps.refl _
  · exact Keeps.refl _

theorem reelStopBody_keeps (a : Cmd) (s : State) :
    ResKeeps [.host, .reel, .freeCtr] [P.HOST_IRQ_CAUSE, P.REEL_LOST, P.REEL_QUEUE_HIGH] s (reelStopBody a s) := by
  unfold reelStopBody
  refine ResKeeps.ite ?_ ?_
  · refine ResKeeps.done ?_
    exact Keeps.step (reelStop_keeps _ _) (Keeps.step (reelSync_keeps _) (Keeps.refl _) (by decide)) (by decide)
  · show Keeps _ _ _ _
    exact Keeps.refl _

theorem execReelArm_keeps (c : Cmd) (s : State) :
    OutKeeps [.host, .flt, .reel, .tbus, .freeCtr] [P.HOST_IRQ_CAUSE, P.REEL_LOST, P.REEL_QUEUE_HIGH,
        P.REEL_TRIG_TICK] s (execReelArm c s) := by
  unfold execReelArm
  refine OutKeeps.ends reelObserve_keeps (by decide) ?_
  refine Keeps.runCmd goodPacket_keeps answer_keeps (by decide) ?_ fun x0 => ?_
  · exact Keeps.refl _
  · exact ResKeeps.mono (reelArmBody_keeps _ _) (Keeps.refl _) (by decide)

theorem execReelPostEnd_keeps (s : State) :
    OutKeeps [.tick, .host, .flt, .time, .str, .reel, .tbus, .chop, .freeCtr] [P.HOST_IRQ_CAUSE, P.REEL_LOST,
        P.REEL_QUEUE_HIGH, P.REEL_TRIG_TICK] s (execReelPostEnd s) := by
  unfold execReelPostEnd
  refine OutKeeps.clocked ?_ ?_
  · exact Keeps.refl _
  · refine OutKeeps.ends reelObserve_keeps (by decide) ?_
    split
    · refine Keeps.ite ?_ ?_
      · exact Keeps.refl _
      · refine Keeps.ite ?_ ?_
        · refine Keeps.step (reelStop_keeps _ _) ?_ (by decide)
          refine Keeps.step (reelSync_keeps _) ?_ (by decide)
          exact Keeps.step (advanceTo_keeps _ _) (Keeps.refl _) (by decide)
        · refine Keeps.ite ?_ ?_
          · exact Keeps.step (reelStop_keeps _ _) (Keeps.refl _) (by decide)
          · exact Keeps.refl _
    · exact Keeps.refl _

theorem execReelRead_keeps (c : Cmd) (s : State) :
    OutKeeps [.host, .flt, .reel, .tbus, .freeCtr] [P.HOST_IRQ_CAUSE, P.REEL_LOST, P.REEL_QUEUE_HIGH,
        P.REEL_TRIG_TICK] s (execReelRead c s) := by
  unfold execReelRead
  refine OutKeeps.ends reelObserve_keeps (by decide) ?_
  refine Keeps.runCmd goodPacket_keeps answer_keeps (by decide) ?_ fun x0 => ?_
  · exact Keeps.refl _
  · exact ResKeeps.mono (reelReadBody_keeps _ _) (Keeps.refl _) (by decide)

theorem execReelStop_keeps (c : Cmd) (s : State) :
    OutKeeps [.host, .flt, .reel, .tbus, .freeCtr] [P.HOST_IRQ_CAUSE, P.REEL_LOST, P.REEL_QUEUE_HIGH,
        P.REEL_TRIG_TICK] s (execReelStop c s) := by
  unfold execReelStop
  refine OutKeeps.ends reelObserve_keeps (by decide) ?_
  refine Keeps.runCmd goodPacket_keeps answer_keeps (by decide) ?_ fun x0 => ?_
  · exact Keeps.refl _
  · exact ResKeeps.mono (reelStopBody_keeps _ _) (Keeps.refl _) (by decide)

theorem execTbusFall_keeps (line : Fin 4) (s : State) :
    OutKeeps [.tick, .host, .flt, .time, .str, .reel, .tbus, .encs, .chop, .meas, .freeCtr] [P.ENC_LATCH_CFG,
        P.ENC_LATCH_POS, P.ENC_LATCH_SRC, P.ENC_LATCH_TIME, P.ENC_LATCH_TIME + 1, P.HOST_IRQ_CAUSE, P.REEL_LOST,
        P.REEL_QUEUE_HIGH, P.REEL_TRIG_TICK, P.TBUS_LAST_FALL, P.TBUS_LAST_FALL + 1,
        P.TBUS_LOOP_TICKS] s (execTbusFall line s) := by
  unfold execTbusFall
  extract_lets y0
  refine OutKeeps.cut (s := y0) ?_ fun h30 => ?_
  · unfold y0
    split
    · exact Keeps.step (advanceTo_keeps _ _) (Keeps.refl _) (by decide)
    · exact Keeps.refl _
  clear_value y0
  refine OutKeeps.clocked ?_ ?_
  · exact Keeps.refl _
  · refine OutKeeps.ends reelObserve_keeps (by decide) ?_
    refine Keeps.ite ?_ ?_
    · exact Keeps.refl _
    · refine Keeps.reelObserveWith reelSync_keeps reelBefore_keeps linesSeen_keeps linesDone_keeps (by decide) ?_ fun
        x31 h32 => ?_
      · exact Keeps.step (tbusFallen_keeps _ _) h30 (by decide)
      · exact Keeps.step (tbusTrigger_keeps _ _) h32 (by decide)

theorem execTbusPulseEnd_keeps (line : Fin 4) (s : State) :
    OutKeeps [.tick, .host, .flt, .time, .str, .reel, .tbus, .chop, .freeCtr] [P.HOST_IRQ_CAUSE, P.REEL_LOST,
        P.REEL_QUEUE_HIGH, P.REEL_TRIG_TICK] s (execTbusPulseEnd line s) := by
  unfold execTbusPulseEnd
  refine OutKeeps.clocked ?_ ?_
  · exact Keeps.refl _
  · refine OutKeeps.ends reelObserve_keeps (by decide) ?_
    split
    · refine Keeps.step (updLine_keeps _ _ _) ?_ (by decide)
      exact Keeps.step (advanceTo_keeps _ _) (Keeps.refl _) (by decide)
    · exact Keeps.refl _

theorem execTbusRisingEdge_keeps (line : Fin 4) (s : State) :
    OutKeeps [.tick, .host, .flt, .time, .str, .reel, .tbus, .chop, .freeCtr] [P.HOST_IRQ_CAUSE, P.REEL_LOST,
        P.REEL_QUEUE_HIGH, P.REEL_TRIG_TICK] s (execTbusRisingEdge line s) := by
  unfold execTbusRisingEdge
  extract_lets y0
  refine OutKeeps.cut (s := y0) ?_ fun h30 => ?_
  · unfold y0
    split
    · exact Keeps.step (advanceTo_keeps _ _) (Keeps.refl _) (by decide)
    · exact Keeps.refl _
  clear_value y0
  refine OutKeeps.clocked ?_ ?_
  · exact Keeps.refl _
  · refine OutKeeps.ends reelObserve_keeps (by decide) ?_
    refine Keeps.ite ?_ ?_
    · exact Keeps.step (updLine_keeps _ _ _) h30 (by decide)
    · exact Keeps.refl _

theorem execTickWrap_keeps (s : State) :
    OutKeeps [.tick, .host, .flt, .time, .str, .reel, .tbus, .chop, .freeCtr] [P.HOST_IRQ_CAUSE, P.REEL_LOST,
        P.REEL_QUEUE_HIGH, P.REEL_TRIG_TICK] s (execTickWrap s) := by
  unfold execTickWrap
  extract_lets y0
  clear_value y0
  refine OutKeeps.clocked ?_ ?_
  · exact Keeps.refl _
  · refine OutKeeps.ends reelObserve_keeps (by decide) ?_
    split
    · extract_lets y120
      refine Keeps.cut (s := y120) ?_ fun h150 => ?_
      · unfold y120
        refine Keeps.step (reelSync_keeps _) ?_ (by decide)
        exact Keeps.step (advanceTo_keeps _ _) (Keeps.refl _) (by decide)
      clear_value y120
      exact Keeps.step (reelForm_keeps _ _) (Keeps.step (updReel_keeps _ _) h150 (by decide)) (by decide)
    · exact Keeps.refl _

theorem execTriggerUnitTimeout_keeps (unit : Fin 4) (s : State) :
    OutKeeps [.tick, .host, .flt, .time, .str, .reel, .tbus, .chop, .freeCtr] [P.HOST_IRQ_CAUSE, P.REEL_LOST,
        P.REEL_QUEUE_HIGH, P.REEL_TRIG_TICK] s (execTriggerUnitTimeout unit s) := by
  unfold execTriggerUnitTimeout
  extract_lets y0 y1 y2
  clear_value y0 y1 y2
  refine OutKeeps.clocked ?_ ?_
  · exact Keeps.refl _
  · refine OutKeeps.ends reelObserve_keeps (by decide) ?_
    split
    · extract_lets y120
      refine Keeps.cut (s := y120) ?_ fun h150 => ?_
      · unfold y120
        refine Keeps.step (reelSync_keeps _) ?_ (by decide)
        exact Keeps.step (advanceTo_keeps _ _) (Keeps.refl _) (by decide)
      clear_value y120
      refine Keeps.ite ?_ ?_
      · exact Keeps.step (reelTrigger_keeps _ _ _) h150 (by decide)
      · exact Keeps.refl _
    · exact Keeps.refl _

end Sys2Proof.Machine
end

