-- ==== Sys2Proof/Laws/TimeFrame.lean ====
section
/-! SUPPORT. What each operation of `Machine/Time.lean` may change, and that it changes nothing else. -/

namespace Sys2Proof.Machine

theorem timeReadBody_keeps (a : Cmd) (s : State) :
    ResKeeps [] [] s (timeReadBody a s) := by
  unfold timeReadBody
  show Keeps _ _ _ _
  exact Keeps.refl _

theorem updTime_keeps (s : State) (f : TimeSt → TimeSt) :
    Keeps [.time] [] s (updTime s f) := by
  unfold updTime
  refine Keeps.step (B := [.time]) (bi := []) (s := s)
      (.upd rfl fun g hg => by cases g <;> first | exact absurd hg (by decide) | rfl) ?_ (by decide)
  exact Keeps.refl _

theorem servoUpdate_keeps (s : State) (o : Int) :
    Keeps [.host, .time] [P.HOST_IRQ_CAUSE, P.TIME_EVENT] s (servoUpdate s o) := by
  unfold servoUpdate
  extract_lets y0 y1 y2 y3 y4 y5
  clear_value y0 y1 y2 y3 y4
  refine Keeps.cut (s := y5) ?_ fun h30 => ?_
  · unfold y5
    exact Keeps.step (updTime_keeps _ _) (Keeps.refl _) (by decide)
  clear_value y5
  refine Keeps.ite ?_ ?_
  · exact h30
  · exact Keeps.step (timeEvent_keeps _ _) h30 (by decide)

theorem servoLock_keeps (s : State) :
    Keeps [.host, .flt, .time] [P.HOST_IRQ_CAUSE, P.TIME_EVENT] s (servoLock s) := by
  unfold servoLock
  refine Keeps.ite ?_ ?_
  · refine Keeps.step (causeGone_keeps _ _ _) ?_ (by decide)
    refine Keeps.step (timeEvent_keeps _ _) ?_ (by decide)
    exact Keeps.step (updTime_keeps _ _) (Keeps.refl _) (by decide)
  · exact Keeps.refl _

theorem execTimeRead_keeps (c : Cmd) (s : State) :
    OutKeeps [.host, .flt, .reel, .tbus, .freeCtr] [P.HOST_IRQ_CAUSE, P.REEL_LOST, P.REEL_QUEUE_HIGH,
        P.REEL_TRIG_TICK] s (execTimeRead c s) := by
  unfold execTimeRead
  refine OutKeeps.ends reelObserve_keeps (by decide) ?_
  refine Keeps.runCmd goodPacket_keeps answer_keeps (by decide) ?_ fun x0 => ?_
  · exact Keeps.refl _
  · exact ResKeeps.mono (timeReadBody_keeps _ _) (Keeps.refl _) (by decide)

theorem servoUnlock_keeps (s : State) (st : Servo) :
    Keeps [.host, .flt, .time, .arms, .cells, .lanes, .str, .belay, .reel, .tbus, .freeCtr] [P.FLT_LOST,
        P.HOST_IRQ_CAUSE, P.REEL_LOST, P.REEL_QUEUE_HIGH, P.REEL_TRIG_TICK, P.STR_TRACE_LOST,
        P.TIME_EVENT] s (servoUnlock s st) := by
  unfold servoUnlock
  extract_lets y0 y1
  clear_value y0
  refine Keeps.cut (s := y1) ?_ fun h30 => ?_
  · unfold y1
    exact Keeps.step (updTime_keeps _ _) (Keeps.refl _) (by decide)
  clear_value y1
  refine Keeps.ite ?_ ?_
  · exact Keeps.step (raiseFault_keeps _ _ _) (Keeps.step (timeEvent_keeps _ _) h30 (by decide)) (by decide)
  · exact h30

theorem timeSet_keeps (s : State) :
    Keeps [.host, .flt, .time, .arms, .cells, .lanes, .str, .belay, .reel, .tbus, .freeCtr] [P.FLT_LOST,
        P.HOST_IRQ_CAUSE, P.REEL_LOST, P.REEL_QUEUE_HIGH, P.REEL_TRIG_TICK, P.STR_TRACE_LOST,
        P.TIME_EVENT] s (timeSet s) := by
  unfold timeSet
  extract_lets y0
  refine Keeps.cut (s := y0) ?_ fun h30 => ?_
  · unfold y0
    refine Keeps.step (servoUnlock_keeps _ _) ?_ (by decide)
    exact Keeps.step (timeEvent_keeps _ _) (Keeps.refl _) (by decide)
  clear_value y0
  exact Keeps.step (reelStep_keeps _) (Keeps.step (updTime_keeps _ _) h30 (by decide)) (by decide)

theorem execTimeHoldoverExpiry_keeps (s : State) :
    OutKeeps [.tick, .host, .flt, .time, .arms, .cells, .lanes, .str, .belay, .reel, .tbus, .chop,
        .freeCtr] [P.FLT_LOST, P.HOST_IRQ_CAUSE, P.REEL_LOST, P.REEL_QUEUE_HIGH, P.REEL_TRIG_TICK, P.STR_TRACE_LOST,
        P.TIME_EVENT] s (execTimeHoldoverExpiry s) := by
  unfold execTimeHoldoverExpiry
  refine OutKeeps.clocked ?_ ?_
  · exact Keeps.refl _
  · split
    · exact OutKeeps.ends reelObserve_keeps (by decide) (Keeps.refl _)
    · extract_lets y60
      refine OutKeeps.cut (s := y60) ?_ fun h90 => ?_
      · unfold y60
        refine Keeps.step (servoUnlock_keeps _ _) ?_ (by decide)
        exact Keeps.step (advanceTo_keeps _ _) (Keeps.refl _) (by decide)
      clear_value y60
      exact OutKeeps.ends reelObserve_keeps (by decide) (Keeps.step (updTime_keeps _ _) h90 (by decide))

theorem servoFollow_keeps (s : State) (o : Int) :
    Keeps [.host, .flt, .time, .arms, .cells, .lanes, .str, .belay, .reel, .tbus, .freeCtr] [P.FLT_LOST,
        P.HOST_IRQ_CAUSE, P.REEL_LOST, P.REEL_QUEUE_HIGH, P.REEL_TRIG_TICK, P.STR_TRACE_LOST,
        P.TIME_EVENT] s (servoFollow s o) := by
  unfold servoFollow
  extract_lets y0 y1 y2 y3 y4
  clear_value y0 y1 y4
  refine Keeps.cut (s := y2) ?_ fun h30 => ?_
  · unfold y2
    exact Keeps.step (updTime_keeps _ _) (Keeps.refl _) (by decide)
  clear_value y2
  refine Keeps.cut (s := y3) ?_ fun h31 => ?_
  · unfold y3
    refine Keeps.ite ?_ ?_
    · exact h30
    · exact Keeps.step (servoLock_keeps _) (Keeps.step (servoUnlock_keeps _ _) h30 (by decide)) (by decide)
  clear_value y3
  exact Keeps.step (updTime_keeps _ _) h31 (by decide)

theorem stepBy_keeps (s : State) (d : Int) :
    Keeps [.host, .flt, .time, .arms, .cells, .lanes, .str, .belay, .reel, .tbus, .freeCtr] [P.FLT_LOST,
        P.HOST_IRQ_CAUSE, P.REEL_LOST, P.REEL_QUEUE_HIGH, P.REEL_TRIG_TICK, P.STR_TRACE_LOST,
        P.TIME_EVENT] s (stepBy s d) := by
  unfold stepBy
  extract_lets y0
  clear_value y0
  refine Keeps.step (timeSet_keeps _) ?_ (by decide)
  refine Keeps.step (B := [.time, .freeCtr]) (bi := []) (s := s)
      (.upd rfl fun g hg => by cases g <;> first | exact absurd hg (by decide) | rfl) ?_ (by decide)
  exact Keeps.refl _

theorem stepTo_keeps (s : State) (d : Nat) :
    Keeps [.host, .flt, .time, .arms, .cells, .lanes, .str, .belay, .reel, .tbus, .freeCtr] [P.FLT_LOST,
        P.HOST_IRQ_CAUSE, P.REEL_LOST, P.REEL_QUEUE_HIGH, P.REEL_TRIG_TICK, P.STR_TRACE_LOST,
        P.TIME_EVENT] s (stepTo s d) := by
  unfold stepTo
  exact Keeps.step (timeSet_keeps _) (Keeps.step (updTime_keeps _ _) (Keeps.refl _) (by decide)) (by decide)

theorem timeOffsetBody_keeps (c : Cmd) (s : State) :
    ResKeeps [.host, .flt, .time, .arms, .cells, .lanes, .str, .belay, .reel, .tbus, .freeCtr] [P.FLT_LOST,
        P.HOST_IRQ_CAUSE, P.REEL_LOST, P.REEL_QUEUE_HIGH, P.REEL_TRIG_TICK, P.STR_TRACE_LOST, P.TIME_EVENT,
        P.TIME_LAST_OFFSET, P.TIME_LAST_OFFSET + 1] s (timeOffsetBody c s) := by
  unfold timeOffsetBody
  extract_lets y0 y1 y2
  clear_value y0 y2
  refine ResKeeps.cut (s := y1) ?_ fun h30 => ?_
  · unfold y1
    refine Keeps.step (updTime_keeps _ _) ?_ (by decide)
    exact Keeps.step (put64_keeps _ _ _ _ _) (Keeps.refl _) (by decide)
  clear_value y1
  refine ResKeeps.ite ?_ ?_
  · exact ResKeeps.done (Keeps.step (stepBy_keeps _ _) h30 (by decide))
  · refine ResKeeps.done ?_
    exact Keeps.step (servoFollow_keeps _ _) (Keeps.step (servoUpdate_keeps _ _) h30 (by decide)) (by decide)

theorem timeStepBody_keeps (c : Cmd) (s : State) :
    ResKeeps [.host, .flt, .time, .arms, .cells, .lanes, .str, .belay, .reel, .tbus, .freeCtr] [P.FLT_LOST,
        P.HOST_IRQ_CAUSE, P.REEL_LOST, P.REEL_QUEUE_HIGH, P.REEL_TRIG_TICK, P.STR_TRACE_LOST,
        P.TIME_EVENT] s (timeStepBody c s) := by
  unfold timeStepBody
  exact ResKeeps.check (ResKeeps.done (Keeps.step (stepTo_keeps _ _) (Keeps.refl _) (by decide)))

theorem execTimeOffset_keeps (c : Cmd) (s : State) :
    OutKeeps [.host, .flt, .time, .arms, .cells, .lanes, .str, .belay, .reel, .tbus, .freeCtr] [P.FLT_LOST,
        P.HOST_IRQ_CAUSE, P.REEL_LOST, P.REEL_QUEUE_HIGH, P.REEL_TRIG_TICK, P.STR_TRACE_LOST, P.TIME_EVENT,
        P.TIME_LAST_OFFSET, P.TIME_LAST_OFFSET + 1] s (execTimeOffset c s) := by
  unfold execTimeOffset
  refine OutKeeps.ends reelObserve_keeps (by decide) ?_
  refine Keeps.runCmd goodPacket_keeps answer_keeps (by decide) ?_ fun x0 => ?_
  · exact Keeps.refl _
  · exact ResKeeps.mono (timeOffsetBody_keeps _ _) (Keeps.refl _) (by decide)

theorem execTimeStep_keeps (c : Cmd) (s : State) :
    OutKeeps [.host, .flt, .time, .arms, .cells, .lanes, .str, .belay, .reel, .tbus, .freeCtr] [P.FLT_LOST,
        P.HOST_IRQ_CAUSE, P.REEL_LOST, P.REEL_QUEUE_HIGH, P.REEL_TRIG_TICK, P.STR_TRACE_LOST,
        P.TIME_EVENT] s (execTimeStep c s) := by
  unfold execTimeStep
  refine OutKeeps.ends reelObserve_keeps (by decide) ?_
  refine Keeps.runCmd goodPacket_keeps answer_keeps (by decide) ?_ fun x0 => ?_
  · exact Keeps.refl _
  · exact ResKeeps.mono (timeStepBody_keeps _ _) (Keeps.refl _) (by decide)

end Sys2Proof.Machine
end

