-- ==== Sys2Proof/Laws/TransportFrame.lean ====
section
/-! SUPPORT. What each operation of `Machine/Transport.lean` may change, and that it changes nothing else. -/

namespace Sys2Proof.Machine

theorem busPut_keeps (s : State) (ws : List Word) :
    Keeps [.host] [] s (busPut s ws) := by
  unfold busPut
  exact Keeps.step (updHost_keeps _ _) (Keeps.refl _) (by decide)

theorem consume_keeps (s : State) (p : Port) (n : Nat) :
    Keeps [.host] [] s (consume s p n) := by
  unfold consume
  exact Keeps.step (updHost_keeps _ _) (Keeps.refl _) (by decide)

theorem dropWrite_keeps (s : State) :
    Keeps [.freeCtr] [P.HOST_BAR0_WR_DROP] s (dropWrite s) := by
  unfold dropWrite
  exact Keeps.step (incP_keeps _ _ _) (Keeps.refl _) (by decide)

theorem pingBody_keeps (c : Cmd) (s : State) :
    ResKeeps [] [] s (pingBody c s) := by
  unfold pingBody
  show Keeps _ _ _ _
  exact Keeps.refl _

theorem readReply_keeps (s : State) (words : Nat) :
    Keeps [.host, .freeCtr] [] s (readReply s words) := by
  unfold readReply
  extract_lets y0
  clear_value y0
  split
  · exact Keeps.step (busPut_keeps _ _) (Keeps.refl _) (by decide)
  · extract_lets y60
    refine Keeps.cut (s := y60) ?_ fun h90 => ?_
    · unfold y60
      refine Keeps.step (busPut_keeps _ _) ?_ (by decide)
      refine Keeps.step (B := [.freeCtr]) (bi := []) (s := s)
          (.upd rfl fun g hg => by cases g <;> first | exact absurd hg (by decide) | rfl) ?_ (by decide)
      exact Keeps.refl _
    clear_value y60
    refine Keeps.ite ?_ ?_
    · exact Keeps.step (updHost_keeps _ _) h90 (by decide)
    · exact h90

theorem tailWrite_keeps (s : State) (v : Word) :
    Keeps [.host, .freeCtr] [P.HOST_BAR0_WR_DROP] s (tailWrite s v) := by
  unfold tailWrite
  refine Keeps.ite ?_ ?_
  · exact Keeps.step (updHost_keeps _ _) (Keeps.refl _) (by decide)
  · exact Keeps.step (dropWrite_keeps _) (Keeps.refl _) (by decide)

theorem writePacket_keeps (s : State) (words : List Word) :
    Keeps [.host, .freeCtr] [P.HOST_SPI_FRAMING] s (writePacket s words) := by
  unfold writePacket
  refine Keeps.ite ?_ ?_
  · exact Keeps.step (updHost_keeps _ _) (Keeps.refl _) (by decide)
  · exact Keeps.step (incP_keeps _ _ _) (Keeps.refl _) (by decide)

theorem headWrite_keeps (s : State) (v : Word) :
    Keeps [.host, .freeCtr] [P.HOST_BAR0_WR_DROP, P.HOST_IRQ_CAUSE] s (headWrite s v) := by
  unfold headWrite
  extract_lets y0 y1 y2
  clear_value y0 y1
  refine Keeps.cut (s := y2) ?_ fun h30 => ?_
  · unfold y2
    exact Keeps.step (updHost_keeps _ _) (Keeps.refl _) (by decide)
  clear_value y2
  refine Keeps.ite ?_ ?_
  · exact Keeps.step (flushHeld_keeps _ _) h30 (by decide)
  · exact Keeps.step (dropWrite_keeps _) (Keeps.refl _) (by decide)

theorem mirrorRead_keeps (s : State) (id : Nat) :
    Keeps [.host] [] s (mirrorRead s id).2 := by
  unfold mirrorRead
  extract_lets y0
  clear_value y0
  split
  · exact Keeps.step (readAs_keeps _ _ _ _) (Keeps.refl _) (by decide)
  · dsimp only
    exact Keeps.step (setShadow_keeps _ _ _) (Keeps.refl _) (by decide)

theorem mirrorWide.mirrorTwo_keeps (s : State) (id : Nat) :
    Keeps [.host] [] s (mirrorWide.mirrorTwo s id).2 := by
  unfold mirrorWide.mirrorTwo
  extract_lets y0 y1
  refine Keeps.cut (s := y0.2) ?_ fun h30 => ?_
  · unfold y0
    exact Keeps.step (mirrorRead_keeps _ _) (Keeps.refl _) (by decide)
  clear_value y0
  refine Keeps.cut (s := y1.2) ?_ fun h31 => ?_
  · unfold y1
    exact Keeps.step (mirrorRead_keeps _ _) h30 (by decide)
  clear_value y1
  dsimp only
  exact h31

theorem refusePkt_keeps (s : State) (ws : List Word) (p : Port) (e : CmdErr) :
    Keeps [.host] [P.HOST_IRQ_CAUSE] s (refusePkt s ws p e) := by
  unfold refusePkt
  extract_lets y0
  clear_value y0
  exact Keeps.step (sendReply_keeps _ _ _ _) (Keeps.refl _) (by decide)

theorem spiTransaction_keeps (s : State) (a : List Nat) :
    Keeps [.host, .freeCtr] [P.HOST_SPI_FRAMING] s (spiTransaction s a) := by
  unfold spiTransaction
  split
  · exact Keeps.refl _
  · split
    · refine Keeps.ite ?_ ?_
      · exact Keeps.step (writePacket_keeps _ _) (Keeps.refl _) (by decide)
      · exact Keeps.step (incP_keeps _ _ _) (Keeps.refl _) (by decide)
    · exact Keeps.step (readReply_keeps _ _) (Keeps.refl _) (by decide)
    · exact Keeps.step (busPut_keeps _ _) (Keeps.refl _) (by decide)
    · exact Keeps.refl _

theorem bar2Write_keeps (s : State) (o : Nat) (v : Word) :
    Keeps [.host, .freeCtr] [P.HOST_BAR0_WR_DROP, P.HOST_IRQ_CAUSE, P.HOST_MSI_ENABLE] s (bar2Write s o v) := by
  unfold bar2Write
  refine Keeps.ite ?_ ?_
  · exact Keeps.step (updHost_keeps _ _) (Keeps.refl _) (by decide)
  · refine Keeps.ite ?_ ?_
    · exact Keeps.step (tailWrite_keeps _ _) (Keeps.refl _) (by decide)
    · refine Keeps.ite ?_ ?_
      · exact Keeps.step (headWrite_keeps _ _) (Keeps.refl _) (by decide)
      · refine Keeps.ite ?_ ?_
        · exact Keeps.step (clearSet_keeps _ _ _ _) (Keeps.refl _) (by decide)
        · refine Keeps.ite ?_ ?_
          · exact Keeps.step (putP_keeps _ _ _ _) (Keeps.refl _) (by decide)
          · refine Keeps.ite ?_ ?_
            · exact Keeps.step (updHost_keeps _ _) (Keeps.refl _) (by decide)
            · exact Keeps.step (dropWrite_keeps _) (Keeps.refl _) (by decide)

theorem mirrorWide_keeps (s : State) (id : Nat) :
    Keeps [.host] [] s (mirrorWide s id).2 := by
  unfold mirrorWide
  extract_lets y0
  clear_value y0
  split
  · split
    · dsimp only
      exact Keeps.step (setShadow_keeps _ _ _) (Keeps.refl _) (by decide)
    · exact Keeps.step (mirrorWide.mirrorTwo_keeps _ _) (Keeps.refl _) (by decide)
  · exact Keeps.step (mirrorWide.mirrorTwo_keeps _ _) (Keeps.refl _) (by decide)

theorem overLong_keeps (s : State) (ws : List Word) (p : Port) :
    Keeps [.host] [P.HOST_IRQ_CAUSE] s (overLong s ws p) := by
  unfold overLong
  extract_lets y0
  refine Keeps.cut (s := y0) ?_ fun h30 => ?_
  · unfold y0
    exact Keeps.step (updHost_keeps _ _) (Keeps.refl _) (by decide)
  clear_value y0
  exact Keeps.step (refusePkt_keeps _ _ _ _) h30 (by decide)

theorem execBar0Read_keeps (offset : BitVec 18) (wide : Bool) (s : State) :
    OutKeeps [.host, .reel, .tbus, .freeCtr] [P.HOST_IRQ_CAUSE, P.REEL_LOST, P.REEL_QUEUE_HIGH,
        P.REEL_TRIG_TICK] s (execBar0Read offset wide s) := by
  unfold execBar0Read
  extract_lets y0 y1 y2 y3
  clear_value y0
  refine OutKeeps.cut (s := y1.2) ?_ fun h30 => ?_
  · unfold y1
    exact Keeps.step (mirrorRead_keeps _ _) (Keeps.refl _) (by decide)
  clear_value y1
  refine OutKeeps.cut (s := y2.2) ?_ fun h31 => ?_
  · unfold y2
    exact Keeps.step (mirrorWide_keeps _ _) (Keeps.refl _) (by decide)
  clear_value y2
  refine OutKeeps.cut (s := y3.2) ?_ fun h32 => ?_
  · unfold y3
    exact Keeps.step (mirrorRead_keeps _ _) h30 (by decide)
  clear_value y3
  refine OutKeeps.ends reelObserve_keeps (by decide) ?_
  refine Keeps.ite ?_ ?_
  · exact Keeps.refl _
  · refine Keeps.ite ?_ ?_
    · exact Keeps.step (busPut_keeps _ _) h30 (by decide)
    · refine Keeps.ite ?_ ?_
      · exact Keeps.step (busPut_keeps _ _) h31 (by decide)
      · exact Keeps.step (busPut_keeps _ _) h32 (by decide)

theorem execBar0Write_keeps (offset : BitVec 18) (value : Word) (s : State) :
    OutKeeps [.host, .reel, .tbus, .freeCtr] [P.HOST_BAR0_WR_DROP, P.HOST_IRQ_CAUSE, P.REEL_LOST, P.REEL_QUEUE_HIGH,
        P.REEL_TRIG_TICK] s (execBar0Write offset value s) := by
  unfold execBar0Write
  refine OutKeeps.ends reelObserve_keeps (by decide) ?_
  refine Keeps.ite ?_ ?_
  · exact Keeps.step (dropWrite_keeps _) (Keeps.refl _) (by decide)
  · exact Keeps.refl _

theorem execBar2RoWrite_keeps (offset : BitVec 14) (value : Word) (s : State) :
    OutKeeps [.host, .reel, .tbus, .freeCtr] [P.HOST_BAR0_WR_DROP, P.HOST_IRQ_CAUSE, P.HOST_MSI_ENABLE, P.REEL_LOST,
        P.REEL_QUEUE_HIGH, P.REEL_TRIG_TICK] s (execBar2RoWrite offset value s) := by
  unfold execBar2RoWrite
  refine OutKeeps.ends reelObserve_keeps (by decide) ?_
  refine Keeps.ite ?_ ?_
  · exact Keeps.step (bar2Write_keeps _ _ _) (Keeps.refl _) (by decide)
  · exact Keeps.refl _

theorem execCmdTailWrite_keeps (words : List Word) (value : Word) (s : State) :
    OutKeeps [.host, .reel, .tbus, .freeCtr] [P.HOST_BAR0_WR_DROP, P.HOST_IRQ_CAUSE, P.REEL_LOST, P.REEL_QUEUE_HIGH,
        P.REEL_TRIG_TICK] s (execCmdTailWrite words value s) := by
  unfold execCmdTailWrite
  refine OutKeeps.ends reelObserve_keeps (by decide) ?_
  refine Keeps.ite ?_ ?_
  · exact Keeps.step (tailWrite_keeps _ _) (Keeps.step (updHost_keeps _ _) (Keeps.refl _) (by decide)) (by decide)
  · exact Keeps.refl _

theorem execIrqCauseWrite_keeps (value : Word) (s : State) :
    OutKeeps [.host, .reel, .tbus, .freeCtr] [P.HOST_IRQ_CAUSE, P.REEL_LOST, P.REEL_QUEUE_HIGH,
        P.REEL_TRIG_TICK] s (execIrqCauseWrite value s) := by
  unfold execIrqCauseWrite
  refine OutKeeps.ends reelObserve_keeps (by decide) ?_
  refine Keeps.ite ?_ ?_
  · exact Keeps.step (clearSet_keeps _ _ _ _) (Keeps.refl _) (by decide)
  · exact Keeps.refl _

theorem execMsiEnableWrite_keeps (value : Word) (s : State) :
    OutKeeps [.host, .reel, .tbus, .freeCtr] [P.HOST_IRQ_CAUSE, P.HOST_MSI_ENABLE, P.REEL_LOST, P.REEL_QUEUE_HIGH,
        P.REEL_TRIG_TICK] s (execMsiEnableWrite value s) := by
  unfold execMsiEnableWrite
  refine OutKeeps.ends reelObserve_keeps (by decide) ?_
  refine Keeps.ite ?_ ?_
  · exact Keeps.step (putP_keeps _ _ _ _) (Keeps.refl _) (by decide)
  · exact Keeps.refl _

theorem execPcieLinkDown_keeps (s : State) :
    OutKeeps [.host, .reel, .tbus, .freeCtr] [P.HOST_IRQ_CAUSE, P.REEL_LOST, P.REEL_QUEUE_HIGH,
        P.REEL_TRIG_TICK] s (execPcieLinkDown s) := by
  unfold execPcieLinkDown
  exact OutKeeps.ends reelObserve_keeps (by decide) (Keeps.step (updHost_keeps _ _) (Keeps.refl _) (by decide))

theorem execPcieReset_keeps (s : State) :
    OutKeeps [.host, .reel, .tbus, .freeCtr] [P.HOST_IRQ_CAUSE, P.REEL_LOST, P.REEL_QUEUE_HIGH,
        P.REEL_TRIG_TICK] s (execPcieReset s) := by
  unfold execPcieReset
  refine OutKeeps.ends reelObserve_keeps (by decide) ?_
  refine Keeps.ite ?_ ?_
  · exact Keeps.step (updHost_keeps _ _) (Keeps.refl _) (by decide)
  · exact Keeps.refl _

theorem execPing_keeps (c : Cmd) (s : State) :
    OutKeeps [.host, .flt, .reel, .tbus, .freeCtr] [P.HOST_IRQ_CAUSE, P.REEL_LOST, P.REEL_QUEUE_HIGH,
        P.REEL_TRIG_TICK] s (execPing c s) := by
  unfold execPing
  refine OutKeeps.ends reelObserve_keeps (by decide) ?_
  refine Keeps.runCmd goodPacket_keeps answer_keeps (by decide) ?_ fun x0 => ?_
  · exact Keeps.refl _
  · exact ResKeeps.mono (pingBody_keeps _ _) (Keeps.refl _) (by decide)

theorem execRplHeadWrite_keeps (value : Word) (s : State) :
    OutKeeps [.host, .reel, .tbus, .freeCtr] [P.HOST_BAR0_WR_DROP, P.HOST_IRQ_CAUSE, P.REEL_LOST, P.REEL_QUEUE_HIGH,
        P.REEL_TRIG_TICK] s (execRplHeadWrite value s) := by
  unfold execRplHeadWrite
  refine OutKeeps.ends reelObserve_keeps (by decide) ?_
  refine Keeps.ite ?_ ?_
  · exact Keeps.step (headWrite_keeps _ _) (Keeps.refl _) (by decide)
  · exact Keeps.refl _

theorem spiRun_keeps (s : State) (bytes : List Nat) :
    OutKeeps [.host, .reel, .tbus, .freeCtr] [P.HOST_IRQ_CAUSE, P.HOST_SPI_FRAMING, P.REEL_LOST, P.REEL_QUEUE_HIGH,
        P.REEL_TRIG_TICK] s (spiRun s bytes) := by
  unfold spiRun
  refine OutKeeps.ends reelObserve_keeps (by decide) ?_
  refine Keeps.ite ?_ ?_
  · exact Keeps.step (spiTransaction_keeps _ _) (Keeps.refl _) (by decide)
  · exact Keeps.refl _

theorem execReadReply_keeps (words : Nat) (s : State) :
    OutKeeps [.host, .reel, .tbus, .freeCtr] [P.HOST_IRQ_CAUSE, P.HOST_SPI_FRAMING, P.REEL_LOST, P.REEL_QUEUE_HIGH,
        P.REEL_TRIG_TICK] s (execReadReply words s) := by
  unfold execReadReply
  exact OutKeeps.mono (spiRun_keeps _ _) (Keeps.refl _) (by decide)

theorem execReadStatus_keeps (s : State) :
    OutKeeps [.host, .reel, .tbus, .freeCtr] [P.HOST_IRQ_CAUSE, P.HOST_SPI_FRAMING, P.REEL_LOST, P.REEL_QUEUE_HIGH,
        P.REEL_TRIG_TICK] s (execReadStatus s) := by
  unfold execReadStatus
  exact OutKeeps.mono (spiRun_keeps _ _) (Keeps.refl _) (by decide)

theorem execWritePacket_keeps (words : List Word) (s : State) :
    OutKeeps [.host, .reel, .tbus, .freeCtr] [P.HOST_IRQ_CAUSE, P.HOST_SPI_FRAMING, P.REEL_LOST, P.REEL_QUEUE_HIGH,
        P.REEL_TRIG_TICK] s (execWritePacket words s) := by
  unfold execWritePacket
  exact OutKeeps.mono (spiRun_keeps _ _) (Keeps.refl _) (by decide)

theorem execHostSilent_keeps (s : State) :
    OutKeeps [.tick, .host, .flt, .time, .arms, .cells, .lanes, .str, .belay, .reel, .tbus, .chop,
        .freeCtr] [P.FLT_LOST, P.HOST_IRQ_CAUSE, P.REEL_LOST, P.REEL_QUEUE_HIGH, P.REEL_TRIG_TICK,
        P.STR_TRACE_LOST] s (execHostSilent s) := by
  unfold execHostSilent
  extract_lets y0
  refine OutKeeps.cut (s := y0) ?_ fun h30 => ?_
  · unfold y0
    exact Keeps.step (advanceTo_keeps _ _) (Keeps.refl _) (by decide)
  clear_value y0
  refine OutKeeps.clocked ?_ ?_
  · exact Keeps.refl _
  · refine OutKeeps.ends reelObserve_keeps (by decide) ?_
    refine Keeps.ite ?_ ?_
    · refine Keeps.ite ?_ ?_
      · exact h30
      · exact Keeps.step (raiseFault_keeps _ _ _) h30 (by decide)
    · exact Keeps.refl _

theorem rowA_keeps (c : Cmd) (op : Nat) (r : CmdRow) (h : rowA c op = some r) (s : State) :
    ResKeeps [.params, .staged, .gain, .armedG, .tables, .ops, .host, .pwr, .flt, .time, .per, .capWords, .arms,
        .cells, .lanes, .cleat, .str, .belay, .dup, .reel, .tbus, .loops, .encs, .chop, .meas, .disc, .tally,
        .freeCtr] [] s (r.body c s) := by
  unfold rowA at h
  split at h
  · exact Option.some.inj h ▸ ResKeeps.mono (pingBody_keeps c s) (.refl s) (by rfl)
  · exact Option.some.inj h ▸ ResKeeps.mono (getParamBody_keeps c s) (.refl s) (by rfl)
  · exact Option.some.inj h ▸ ResKeeps.mono (setParamBody_keeps c s) (.refl s) (by rfl)
  · exact Option.some.inj h ▸ ResKeeps.mono (commitGroupBody_keeps c s) (.refl s) (by rfl)
  · exact Option.some.inj h ▸ ResKeeps.mono (getBlockBody_keeps c s) (.refl s) (by rfl)
  · exact Option.some.inj h ▸ ResKeeps.mono (setBlockBody_keeps c s) (.refl s) (by rfl)
  · exact Option.some.inj h ▸ ResKeeps.mono (discoverBody_keeps c s) (.refl s) (by rfl)
  · exact Option.some.inj h ▸ ResKeeps.mono (readIdentityBody_keeps c s) (.refl s) (by rfl)
  · exact Option.some.inj h ▸ ResKeeps.mono (placeBody_keeps c s) (.refl s) (by rfl)
  · exact Option.some.inj h ▸ ResKeeps.mono (cellConfigBody_keeps c s) (.refl s) (by rfl)
  · exact Option.some.inj h ▸ ResKeeps.mono (tallyReportBody_keeps c s) (.refl s) (by rfl)
  · exact absurd h (by simp)

theorem rowB_keeps (c : Cmd) (op : Nat) (r : CmdRow) (h : rowB op = some r) (s : State) :
    ResKeeps [.params, .staged, .gain, .armedG, .tables, .ops, .host, .pwr, .flt, .time, .per, .capWords, .arms,
        .cells, .lanes, .cleat, .str, .belay, .dup, .reel, .tbus, .loops, .encs, .chop, .meas, .disc, .tally,
        .freeCtr] [] s (r.body c s) := by
  unfold rowB at h
  split at h
  · exact Option.some.inj h ▸ ResKeeps.mono (laneBringupBody_keeps c s) (.refl s) (by rfl)
  · exact Option.some.inj h ▸ ResKeeps.mono (laneRetireBody_keeps c s) (.refl s) (by rfl)
  · exact Option.some.inj h ▸ ResKeeps.mono (laneLoopBody_keeps c s) (.refl s) (by rfl)
  · exact Option.some.inj h ▸ ResKeeps.mono (eyeScanBody_keeps c s) (.refl s) (by rfl)
  · exact Option.some.inj h ▸ ResKeeps.mono (armEnableBody_keeps c s) (.refl s) (by rfl)
  · exact Option.some.inj h ▸ ResKeeps.mono (deblockBody_keeps c s) (.refl s) (by rfl)
  · exact Option.some.inj h ▸ ResKeeps.mono (blockBody_keeps c s) (.refl s) (by rfl)
  · exact Option.some.inj h ▸ ResKeeps.mono (cleatAddBody_keeps c s) (.refl s) (by rfl)
  · exact Option.some.inj h ▸ ResKeeps.mono (cleatReleaseBody_keeps c s) (.refl s) (by rfl)
  · exact Option.some.inj h ▸ ResKeeps.mono (maintAdmitBody_keeps c s) (.refl s) (by rfl)
  · exact Option.some.inj h ▸ ResKeeps.mono (maintEndBody_keeps c s) (.refl s) (by rfl)
  · exact Option.some.inj h ▸ ResKeeps.mono (cellRetireBody_keeps c s) (.refl s) (by rfl)
  · exact Option.some.inj h ▸ ResKeeps.mono (loopModeBody_keeps c s) (.refl s) (by rfl)
  · exact Option.some.inj h ▸ ResKeeps.mono (trajQueueBody_keeps c s) (.refl s) (by rfl)
  · exact Option.some.inj h ▸ ResKeeps.mono (trajFlushBody_keeps c s) (.refl s) (by rfl)
  · exact absurd h (by simp)

theorem rowC_keeps (c : Cmd) (op : Nat) (r : CmdRow) (h : rowC c op = some r) (s : State) :
    ResKeeps [.params, .staged, .gain, .armedG, .tables, .ops, .host, .pwr, .flt, .time, .per, .capWords, .arms,
        .cells, .lanes, .cleat, .str, .belay, .dup, .reel, .tbus, .loops, .encs, .chop, .meas, .disc, .tally,
        .freeCtr] [] s (r.body c s) := by
  unfold rowC at h
  split at h
  · exact Option.some.inj h ▸ ResKeeps.mono (adcCalBody_keeps _ _ c s) (.refl s) (by rfl)
  · exact Option.some.inj h ▸ ResKeeps.mono (adcCalBody_keeps _ _ c s) (.refl s) (by rfl)
  · exact Option.some.inj h ▸ ResKeeps.mono (adcInjectBody_keeps c s) (.refl s) (by rfl)
  · exact Option.some.inj h ▸ ResKeeps.mono (decSyncBody_keeps c s) (.refl s) (by rfl)
  · exact Option.some.inj h ▸ ResKeeps.mono (homeStartBody_keeps c s) (.refl s) (by rfl)
  · exact Option.some.inj h ▸ ResKeeps.mono (homeAbortBody_keeps c s) (.refl s) (by rfl)
  · exact Option.some.inj h ▸ ResKeeps.mono (cmpSelftestBody_keeps c s) (.refl s) (by rfl)
  · exact Option.some.inj h ▸ ResKeeps.mono (faultReadBody_keeps c s) (.refl s) (by rfl)
  · exact Option.some.inj h ▸ ResKeeps.mono (faultClearBody_keeps c s) (.refl s) (by rfl)
  · exact Option.some.inj h ▸ ResKeeps.mono (faultAckBody_keeps c s) (.refl s) (by rfl)
  · exact Option.some.inj h ▸ ResKeeps.mono (faultInjectBody_keeps c s) (.refl s) (by rfl)
  · exact Option.some.inj h ▸ ResKeeps.mono (safetyUnlockBody_keeps c s) (.refl s) (by rfl)
  · exact Option.some.inj h ▸ ResKeeps.mono (safetyWriteBody_keeps c s) (.refl s) (by rfl)
  · exact Option.some.inj h ▸ ResKeeps.mono (safetyLogReadBody_keeps c s) (.refl s) (by rfl)
  · exact Option.some.inj h ▸ ResKeeps.mono (safetyLockBody_keeps c s) (.refl s) (by rfl)
  · exact absurd h (by simp)

theorem rowD_keeps (c : Cmd) (op : Nat) (r : CmdRow) (h : rowD op = some r) (s : State) :
    ResKeeps [.params, .staged, .gain, .armedG, .tables, .ops, .host, .pwr, .flt, .time, .per, .capWords, .arms,
        .cells, .lanes, .cleat, .str, .belay, .dup, .reel, .tbus, .loops, .encs, .chop, .meas, .disc, .tally,
        .freeCtr] [] s (r.body c s) := by
  unfold rowD at h
  split at h
  · exact Option.some.inj h ▸ ResKeeps.mono (takeoverBody_keeps c s) (.refl s) (by rfl)
  · exact Option.some.inj h ▸ ResKeeps.mono (switchbackBody_keeps c s) (.refl s) (by rfl)
  · exact Option.some.inj h ▸ ResKeeps.mono (reelArmBody_keeps c s) (.refl s) (by rfl)
  · exact Option.some.inj h ▸ ResKeeps.mono (reelReadBody_keeps c s) (.refl s) (by rfl)
  · exact Option.some.inj h ▸ ResKeeps.mono (reelStopBody_keeps c s) (.refl s) (by rfl)
  · exact Option.some.inj h ▸ ResKeeps.mono (timeOffsetBody_keeps c s) (.refl s) (by rfl)
  · exact Option.some.inj h ▸ ResKeeps.mono (timeStepBody_keeps c s) (.refl s) (by rfl)
  · exact Option.some.inj h ▸ ResKeeps.mono (timeReadBody_keeps c s) (.refl s) (by rfl)
  · exact Option.some.inj h ▸ ResKeeps.mono (powerStateBody_keeps c s) (.refl s) (by rfl)
  · exact Option.some.inj h ▸ ResKeeps.mono (traceReadBody_keeps c s) (.refl s) (by rfl)
  · exact Option.some.inj h ▸ ResKeeps.mono (fwPatchBody_keeps c s) (.refl s) (by rfl)
  · exact Option.some.inj h ▸ ResKeeps.mono (factoryUnlockBody_keeps c s) (.refl s) (by rfl)
  · exact absurd h (by simp)

theorem cmdRow?_keeps (c : Cmd) (op : Nat) (r : CmdRow) (h : cmdRow? op c = some r) (s : State) :
    ResKeeps [.params, .staged, .gain, .armedG, .tables, .ops, .host, .pwr, .flt, .time, .per, .capWords, .arms,
        .cells, .lanes, .cleat, .str, .belay, .dup, .reel, .tbus, .loops, .encs, .chop, .meas, .disc, .tally,
        .freeCtr] [] s (r.body c s) := by
  unfold cmdRow? at h
  cases h1 : rowA c op with
  | some x => exact rowA_keeps c op r (by rw [h1] at h; exact h1.trans (by simpa using h)) s
  | none =>
    cases h2 : rowB op with
    | some x => exact rowB_keeps c op r (by rw [h1, h2] at h; exact h2.trans (by simpa using h)) s
    | none =>
      cases h3 : rowC c op with
      | some x => exact rowC_keeps c op r (by rw [h1, h2, h3] at h; exact h3.trans (by simpa using h)) s
      | none => exact rowD_keeps c op r (by rw [h1, h2, h3] at h; simpa using h) s

theorem execPkt_keeps (s : State) (ws : List Word) (c : Cmd) :
    Keeps [.params, .staged, .gain, .armedG, .tables, .ops, .host, .pwr, .flt, .time, .per, .capWords, .arms,
        .cells, .lanes, .cleat, .str, .belay, .dup, .reel, .tbus, .loops, .encs, .chop, .meas, .disc, .tally,
        .freeCtr] [] s (execPkt s ws c) := by
  unfold execPkt
  dsimp only
  split
  · exact (answer_keeps _ _ _ _ _ _).step ((goodPacket_keeps _ _ _).step (.refl s) (by rfl)) (by rfl)
  · rename_i r _ hr
    exact Keeps.interpret goodPacket_keeps answer_keeps (by rfl) (.refl s) fun x => cmdRow?_keeps _ _ r hr x
  · exact .refl s

theorem checkPkt_keeps (s : State) (ws : List Word) (p : Port) :
    Keeps [.params, .staged, .gain, .armedG, .tables, .ops, .host, .pwr, .flt, .time, .per, .capWords, .arms,
        .cells, .lanes, .cleat, .str, .belay, .dup, .reel, .tbus, .loops, .encs, .chop, .meas, .disc, .tally,
        .freeCtr] [] s (checkPkt s ws p) := by
  unfold checkPkt
  extract_lets y0 y1
  clear_value y0 y1
  refine Keeps.ite ?_ ?_
  · exact Keeps.step (refusePkt_keeps _ _ _ _) (Keeps.step (incP_keeps _ _ _) (Keeps.refl _) (by rfl)) (by rfl)
  · split
    · exact Keeps.step (execPkt_keeps _ _ _) (Keeps.refl _) (by rfl)
    · refine Keeps.ite ?_ ?_
      · exact Keeps.step (execPkt_keeps _ _ _) (Keeps.refl _) (by rfl)
      · refine Keeps.ite ?_ ?_
        · refine Keeps.step (sendReply_keeps _ _ _ _) ?_ (by rfl)
          exact Keeps.step (goodPacket_keeps _ _ _) (Keeps.refl _) (by rfl)
        · refine Keeps.step (refusePkt_keeps _ _ _ _) ?_ (by rfl)
          exact Keeps.step (incP_keeps _ _ _) (Keeps.refl _) (by rfl)

theorem takePacket_keeps (s : State) (p : Port) :
    Keeps [.params, .staged, .gain, .armedG, .tables, .ops, .host, .pwr, .flt, .time, .per, .capWords, .arms,
        .cells, .lanes, .cleat, .str, .belay, .dup, .reel, .tbus, .loops, .encs, .chop, .meas, .disc, .tally,
        .freeCtr] [] s (takePacket s p) := by
  unfold takePacket
  extract_lets y0 y1
  clear_value y0 y1
  refine Keeps.ite ?_ ?_
  · exact Keeps.refl _
  · refine Keeps.ite ?_ ?_
    · exact Keeps.step (overLong_keeps _ _ _) (Keeps.refl _) (by rfl)
    · refine Keeps.ite ?_ ?_
      · exact Keeps.refl _
      · refine Keeps.step (checkPkt_keeps _ _ _) ?_ (by rfl)
        exact Keeps.step (consume_keeps _ _ _) (Keeps.refl _) (by rfl)

theorem execPacketTake_keeps (port : Port) (s : State) :
    OutKeeps [.params, .staged, .gain, .armedG, .tables, .ops, .host, .pwr, .flt, .time, .per, .capWords, .arms,
        .cells, .lanes, .cleat, .str, .belay, .dup, .reel, .tbus, .loops, .encs, .chop, .meas, .disc, .tally,
        .freeCtr] [] s (execPacketTake port s) := by
  unfold execPacketTake
  exact OutKeeps.ends reelObserve_keeps (by decide) (Keeps.step (takePacket_keeps _ _) (Keeps.refl _) (by rfl))

end Sys2Proof.Machine
end

