-- ==== Sys2Proof/Laws/DispatchFrame.lean ====
section
/-! SUPPORT. What each operation of `Machine/Dispatch.lean` may change, and that it changes nothing else. -/

namespace Sys2Proof.Machine

theorem exec_keeps (i : Instr) (s : State) :
    OutKeeps [.tick, .params, .staged, .gain, .armedG, .tables, .ops, .host, .pwr, .flt, .time, .per, .capWords,
        .arms, .cells, .lanes, .cleat, .str, .belay, .dup, .reel, .tbus, .loops, .encs, .chop, .meas, .disc, .tally,
        .freeCtr] [] s (exec i s) := by
  unfold exec
  split
  · exact OutKeeps.mono (execPing_keeps _ _) (Keeps.refl _) (by decide)
  · exact OutKeeps.mono (execGetParam_keeps _ _) (Keeps.refl _) (by decide)
  · exact OutKeeps.mono (execSetParam_keeps _ _) (Keeps.refl _) (by decide)
  · exact OutKeeps.mono (execCommitGroup_keeps _ _) (Keeps.refl _) (by decide)
  · exact OutKeeps.mono (execCommitGroupDiscard_keeps _ _) (Keeps.refl _) (by decide)
  · exact OutKeeps.mono (execGetBlock_keeps _ _) (Keeps.refl _) (by decide)
  · exact OutKeeps.mono (execSetBlock_keeps _ _) (Keeps.refl _) (by decide)
  · exact OutKeeps.mono (execDiscover_keeps _ _) (Keeps.refl _) (by decide)
  · exact OutKeeps.mono (execDiscoverDone_keeps _ _ _) (Keeps.refl _) (by decide)
  · exact OutKeeps.mono (execReadIdentity_keeps _ _) (Keeps.refl _) (by decide)
  · exact OutKeeps.mono (execReadIdentityDone_keeps _ _ _) (Keeps.refl _) (by decide)
  · exact OutKeeps.mono (execPlace_keeps _ _) (Keeps.refl _) (by decide)
  · exact OutKeeps.mono (execPlaceDone_keeps _) (Keeps.refl _) (by decide)
  · exact OutKeeps.mono (execCellConfig_keeps _ _) (Keeps.refl _) (by decide)
  · exact OutKeeps.mono (execCellConfigDone_keeps _) (Keeps.refl _) (by decide)
  · exact OutKeeps.mono (execTallyReport_keeps _ _) (Keeps.refl _) (by decide)
  · exact OutKeeps.mono (execLaneBringup_keeps _ _) (Keeps.refl _) (by decide)
  · exact OutKeeps.mono (execLaneRetire_keeps _ _) (Keeps.refl _) (by decide)
  · exact OutKeeps.mono (execLaneLoop_keeps _ _) (Keeps.refl _) (by decide)
  · exact OutKeeps.mono (execLaneLoopEndMode0_keeps _ _) (Keeps.refl _) (by decide)
  · exact OutKeeps.mono (execLaneLoopEnd_keeps _ _ _ _ _ _) (Keeps.refl _) (by decide)
  · exact OutKeeps.mono (execEyeScan_keeps _ _) (Keeps.refl _) (by decide)
  · exact OutKeeps.mono (execEyeScanDone_keeps _ _) (Keeps.refl _) (by decide)
  · exact OutKeeps.mono (execArmEnable_keeps _ _) (Keeps.refl _) (by decide)
  · exact OutKeeps.mono (execDeblock_keeps _ _) (Keeps.refl _) (by decide)
  · exact OutKeeps.mono (execBlock_keeps _ _) (Keeps.refl _) (by decide)
  · exact OutKeeps.mono (execCleatAdd_keeps _ _) (Keeps.refl _) (by decide)
  · exact OutKeeps.mono (execCleatRelease_keeps _ _) (Keeps.refl _) (by decide)
  · exact OutKeeps.mono (execMaintAdmit_keeps _ _) (Keeps.refl _) (by decide)
  · exact OutKeeps.mono (execMaintEnd_keeps _ _) (Keeps.refl _) (by decide)
  · exact OutKeeps.mono (execCellRetire_keeps _ _) (Keeps.refl _) (by decide)
  · exact OutKeeps.mono (execCellRetireTimeout_keeps _ _) (Keeps.refl _) (by decide)
  · exact OutKeeps.mono (execLoopMode_keeps _ _) (Keeps.refl _) (by decide)
  · exact OutKeeps.mono (execTrajQueue_keeps _ _) (Keeps.refl _) (by decide)
  · exact OutKeeps.mono (execTrajFlush_keeps _ _) (Keeps.refl _) (by decide)
  · exact OutKeeps.mono (execAdcCalZero_keeps _ _) (Keeps.refl _) (by decide)
  · exact OutKeeps.mono (execAdcCalFull_keeps _ _) (Keeps.refl _) (by decide)
  · exact OutKeeps.mono (execAdcCalZeroDone_keeps _ _) (Keeps.refl _) (by decide)
  · exact OutKeeps.mono (execAdcCalFullDone_keeps _ _) (Keeps.refl _) (by decide)
  · exact OutKeeps.mono (execAdcInject_keeps _ _) (Keeps.refl _) (by decide)
  · exact OutKeeps.mono (execDecSync_keeps _ _) (Keeps.refl _) (by decide)
  · exact OutKeeps.mono (execHomeStart_keeps _ _) (Keeps.refl _) (by decide)
  · exact OutKeeps.mono (execHomeAbort_keeps _ _) (Keeps.refl _) (by decide)
  · exact OutKeeps.mono (execHomingDone_keeps _ _) (Keeps.refl _) (by decide)
  · exact OutKeeps.mono (execCmpSelftest_keeps _ _) (Keeps.refl _) (by decide)
  · exact OutKeeps.mono (execCmpSelftestDone_keeps _ _ _) (Keeps.refl _) (by decide)
  · exact OutKeeps.mono (execFaultRead_keeps _ _) (Keeps.refl _) (by decide)
  · exact OutKeeps.mono (execFaultClear_keeps _ _) (Keeps.refl _) (by decide)
  · exact OutKeeps.mono (execFaultAck_keeps _ _) (Keeps.refl _) (by decide)
  · exact OutKeeps.mono (execFaultInject_keeps _ _) (Keeps.refl _) (by decide)
  · exact OutKeeps.mono (execSafetyUnlock_keeps _ _) (Keeps.refl _) (by decide)
  · exact OutKeeps.mono (execSafetyWrite_keeps _ _) (Keeps.refl _) (by decide)
  · exact OutKeeps.mono (execSafetyLogRead_keeps _ _) (Keeps.refl _) (by decide)
  · exact OutKeeps.mono (execSafetyLock_keeps _ _) (Keeps.refl _) (by decide)
  · exact OutKeeps.mono (execTakeover_keeps _ _) (Keeps.refl _) (by decide)
  · exact OutKeeps.mono (execSwitchback_keeps _ _) (Keeps.refl _) (by decide)
  · exact OutKeeps.mono (execReelArm_keeps _ _) (Keeps.refl _) (by decide)
  · exact OutKeeps.mono (execReelRead_keeps _ _) (Keeps.refl _) (by decide)
  · exact OutKeeps.mono (execReelStop_keeps _ _) (Keeps.refl _) (by decide)
  · exact OutKeeps.mono (execTimeOffset_keeps _ _) (Keeps.refl _) (by decide)
  · exact OutKeeps.mono (execTimeStep_keeps _ _) (Keeps.refl _) (by decide)
  · exact OutKeeps.mono (execTimeRead_keeps _ _) (Keeps.refl _) (by decide)
  · exact OutKeeps.mono (execPowerState_keeps _ _) (Keeps.refl _) (by decide)
  · exact OutKeeps.mono (execTraceRead_keeps _ _) (Keeps.refl _) (by decide)
  · exact OutKeeps.mono (execFwPatch_keeps _ _) (Keeps.refl _) (by decide)
  · exact OutKeeps.mono (execFwPatchDone_keeps _) (Keeps.refl _) (by decide)
  · exact OutKeeps.mono (execFactoryUnlock_keeps _ _) (Keeps.refl _) (by decide)
  · exact OutKeeps.mono (execPacketTake_keeps _ _) (Keeps.refl _) (by decide)
  · exact OutKeeps.mono (execWritePacket_keeps _ _) (Keeps.refl _) (by decide)
  · exact OutKeeps.mono (execReadReply_keeps _ _) (Keeps.refl _) (by decide)
  · exact OutKeeps.mono (execReadStatus_keeps _) (Keeps.refl _) (by decide)
  · exact OutKeeps.mono (execCmdTailWrite_keeps _ _ _) (Keeps.refl _) (by decide)
  · exact OutKeeps.mono (execRplHeadWrite_keeps _ _) (Keeps.refl _) (by decide)
  · exact OutKeeps.mono (execIrqCauseWrite_keeps _ _) (Keeps.refl _) (by decide)
  · exact OutKeeps.mono (execMsiEnableWrite_keeps _ _) (Keeps.refl _) (by decide)
  · exact OutKeeps.mono (execBar0Write_keeps _ _ _) (Keeps.refl _) (by decide)
  · exact OutKeeps.mono (execBar2RoWrite_keeps _ _ _) (Keeps.refl _) (by decide)
  · exact OutKeeps.mono (execPcieReset_keeps _) (Keeps.refl _) (by decide)
  · exact OutKeeps.mono (execPcieLinkDown_keeps _) (Keeps.refl _) (by decide)
  · exact OutKeeps.mono (execHostSilent_keeps _) (Keeps.refl _) (by decide)
  · exact OutKeeps.mono (execTrajPreset_keeps _ _) (Keeps.refl _) (by decide)
  · exact OutKeeps.mono (execEncPreset_keeps _ _) (Keeps.refl _) (by decide)
  · exact OutKeeps.mono (execEncLatchCfg_keeps _ _) (Keeps.refl _) (by decide)
  · exact OutKeeps.mono (execDiscMtStart_keeps _ _) (Keeps.refl _) (by decide)
  · exact OutKeeps.mono (execDiscMtAbort_keeps _ _) (Keeps.refl _) (by decide)
  · exact OutKeeps.mono (execMtWindowEnd_keeps _) (Keeps.refl _) (by decide)
  · exact OutKeeps.mono (execTallyExpectAct_keeps _ _) (Keeps.refl _) (by decide)
  · exact OutKeeps.mono (execTallyOldClear_keeps _ _) (Keeps.refl _) (by decide)
  · exact OutKeeps.mono (execTallyPersistExpiry_keeps _ _) (Keeps.refl _) (by decide)
  · exact OutKeeps.mono (execCltExclude_keeps _ _) (Keeps.refl _) (by decide)
  · exact OutKeeps.mono (execAdcPtStart_keeps _ _) (Keeps.refl _) (by decide)
  · exact OutKeeps.mono (execPathTestDone_keeps _) (Keeps.refl _) (by decide)
  · exact OutKeeps.mono (execDecCfg_keeps _ _) (Keeps.refl _) (by decide)
  · exact OutKeeps.mono (execTbusForce_keeps _ _) (Keeps.refl _) (by decide)
  · exact OutKeeps.mono (execChopMode_keeps _ _) (Keeps.refl _) (by decide)
  · exact OutKeeps.mono (execChopForce_keeps _ _) (Keeps.refl _) (by decide)
  · exact OutKeeps.mono (execPwrLaneEn_keeps _ _) (Keeps.refl _) (by decide)
  · exact OutKeeps.mono (execFrmHubHoldMax_keeps _ _) (Keeps.refl _) (by decide)
  · exact OutKeeps.mono (execStrTraceCtrl_keeps _ _) (Keeps.refl _) (by decide)
  · exact OutKeeps.mono (execFltErrHold_keeps _ _) (Keeps.refl _) (by decide)
  · exact OutKeeps.mono (execPeriodMark_keeps _ _ _) (Keeps.refl _) (by decide)
  · exact OutKeeps.mono (execDispatchResume_keeps _) (Keeps.refl _) (by decide)
  · exact OutKeeps.mono (execResumeTimeout_keeps _) (Keeps.refl _) (by decide)
  · exact OutKeeps.mono (execTakeoverWindowEnd_keeps _) (Keeps.refl _) (by decide)
  · exact OutKeeps.mono (execPeerHeartbeat_keeps _ _ _) (Keeps.refl _) (by decide)
  · exact OutKeeps.mono (execPeerDataFrame_keeps _ _) (Keeps.refl _) (by decide)
  · exact OutKeeps.mono (execUpstreamFrame_keeps _ _) (Keeps.refl _) (by decide)
  · exact OutKeeps.mono (execUpstreamFrameDeadline_keeps _ _) (Keeps.refl _) (by decide)
  · exact OutKeeps.mono (execCellSilenceSuspect_keeps _ _) (Keeps.refl _) (by decide)
  · exact OutKeeps.mono (execCleatRetryWindowEnd_keeps _ _) (Keeps.refl _) (by decide)
  · exact OutKeeps.mono (execCleatEntryFree_keeps _ _) (Keeps.refl _) (by decide)
  · exact OutKeeps.mono (execActivityFree_keeps _ _) (Keeps.refl _) (by decide)
  · exact OutKeeps.mono (execPermConfirmTimeout_keeps _ _) (Keeps.refl _) (by decide)
  · exact OutKeeps.mono (execPermBypassRetry_keeps _ _) (Keeps.refl _) (by decide)
  · exact OutKeeps.mono (execTaskPlace_keeps _) (Keeps.refl _) (by decide)
  · exact OutKeeps.mono (execTaskComplete_keeps _ _) (Keeps.refl _) (by decide)
  · exact OutKeeps.mono (execTaskDeadline_keeps _ _) (Keeps.refl _) (by decide)
  · exact OutKeeps.mono (execTaskWatchdog_keeps _ _) (Keeps.refl _) (by decide)
  · exact OutKeeps.mono (execStrandSramError_keeps _ _ _) (Keeps.refl _) (by decide)
  · exact OutKeeps.mono (execDetectDone_keeps _ _ _) (Keeps.refl _) (by decide)
  · exact OutKeeps.mono (execTrainDone_keeps _ _ _ _) (Keeps.refl _) (by decide)
  · exact OutKeeps.mono (execLockDone_keeps _ _ _) (Keeps.refl _) (by decide)
  · exact OutKeeps.mono (execCapsDone_keeps _ _ _ _ _ _ _) (Keeps.refl _) (by decide)
  · exact OutKeeps.mono (execBringupStageTimeout_keeps _ _) (Keeps.refl _) (by decide)
  · exact OutKeeps.mono (execLossOfLock_keeps _ _ _ _) (Keeps.refl _) (by decide)
  · exact OutKeeps.mono (execRebringupRetry_keeps _ _) (Keeps.refl _) (by decide)
  · exact OutKeeps.mono (execRetryWindowEnd_keeps _ _) (Keeps.refl _) (by decide)
  · exact OutKeeps.mono (execLaneErrorWindowEnd_keeps _ _) (Keeps.refl _) (by decide)
  · exact OutKeeps.mono (execGraceExpiry_keeps _ _) (Keeps.refl _) (by decide)
  · exact OutKeeps.mono (execErrPulseEnd_keeps _) (Keeps.refl _) (by decide)
  · exact OutKeeps.mono (execBelaySample_keeps _ _ _ _ _ _ _) (Keeps.refl _) (by decide)
  · exact OutKeeps.mono (execTestPulseStart_keeps _ _) (Keeps.refl _) (by decide)
  · exact OutKeeps.mono (execTestPulseEnd_keeps _ _) (Keeps.refl _) (by decide)
  · exact OutKeeps.mono (execSrstStuck_keeps _) (Keeps.refl _) (by decide)
  · exact OutKeeps.mono (execHeartbeatTimeout_keeps _) (Keeps.refl _) (by decide)
  · exact OutKeeps.mono (execFdcStaleTimeout_keeps _ _) (Keeps.refl _) (by decide)
  · exact OutKeeps.mono (execBelayClockCheck_keeps _ _) (Keeps.refl _) (by decide)
  · exact OutKeeps.mono (execBelayReset_keeps _ _ _) (Keeps.refl _) (by decide)
  · exact OutKeeps.mono (execBelayResetRelease_keeps _ _ _) (Keeps.refl _) (by decide)
  · exact OutKeeps.mono (execSafetySessionTimeout_keeps _) (Keeps.refl _) (by decide)
  · exact OutKeeps.mono (execUnlockBackoffEnd_keeps _) (Keeps.refl _) (by decide)
  · exact OutKeeps.mono (execChopCycleStart_keeps _ _ _) (Keeps.refl _) (by decide)
  · exact OutKeeps.mono (execChopGateEdge_keeps _ _ _ _) (Keeps.refl _) (by decide)
  · exact OutKeeps.mono (execChopTripRecognised_keeps _ _) (Keeps.refl _) (by decide)
  · exact OutKeeps.mono (execChopTripReleased_keeps _ _) (Keeps.refl _) (by decide)
  · exact OutKeeps.mono (execChopBlankingEnd_keeps _ _) (Keeps.refl _) (by decide)
  · exact OutKeeps.mono (execChopScConfirm_keeps _ _ _) (Keeps.refl _) (by decide)
  · exact OutKeeps.mono (execChopScWindowEnd_keeps _ _) (Keeps.refl _) (by decide)
  · exact OutKeeps.mono (execGateSupplyNotOk_keeps _ _ _) (Keeps.refl _) (by decide)
  · exact OutKeeps.mono (execGateSupplyOk_keeps _ _ _) (Keeps.refl _) (by decide)
  · exact OutKeeps.mono (execAdcSequenceTrigger_keeps _ _ _) (Keeps.refl _) (by decide)
  · exact OutKeeps.mono (execAdcConversionEnd_keeps _ _ _) (Keeps.refl _) (by decide)
  · exact OutKeeps.mono (execDecSlot_keeps _ _ _) (Keeps.refl _) (by decide)
  · exact OutKeeps.mono (execDecStuck_keeps _ _) (Keeps.refl _) (by decide)
  · exact OutKeeps.mono (execDsyncFall_keeps _) (Keeps.refl _) (by decide)
  · exact OutKeeps.mono (execEncTransition_keeps _ _ _ _ _ _) (Keeps.refl _) (by decide)
  · exact OutKeeps.mono (execEncIllegalWindowEnd_keeps _ _) (Keeps.refl _) (by decide)
  · exact OutKeeps.mono (execEncLimitTrip_keeps _ _ _ _) (Keeps.refl _) (by decide)
  · exact OutKeeps.mono (execEncHomeActive_keeps _ _ _) (Keeps.refl _) (by decide)
  · exact OutKeeps.mono (execTimeHoldoverExpiry_keeps _) (Keeps.refl _) (by decide)
  · exact OutKeeps.mono (execTbusFall_keeps _ _) (Keeps.refl _) (by decide)
  · exact OutKeeps.mono (execTbusPulseEnd_keeps _ _) (Keeps.refl _) (by decide)
  · exact OutKeeps.mono (execReelPostEnd_keeps _) (Keeps.refl _) (by decide)
  · exact OutKeeps.mono (execPorstRelease_keeps _ _) (Keeps.refl _) (by decide)
  · exact OutKeeps.mono (execPorstAssert_keeps _ _) (Keeps.refl _) (by decide)
  · exact OutKeeps.mono (execListenEntry_keeps _ _) (Keeps.refl _) (by decide)
  · exact OutKeeps.mono (execWakeNLow_keeps _ _) (Keeps.refl _) (by decide)
  · exact OutKeeps.mono (execDormantEntry_keeps _) (Keeps.refl _) (by decide)
  · exact OutKeeps.mono (execXtalSwitch_keeps _) (Keeps.refl _) (by decide)
  · exact OutKeeps.mono (execXtalFail_keeps _) (Keeps.refl _) (by decide)
  · exact OutKeeps.mono (execCorePllLock_keeps _) (Keeps.refl _) (by decide)
  · exact OutKeeps.mono (execBistDone_keeps _ _ _ _ _ _) (Keeps.refl _) (by decide)
  · exact OutKeeps.mono (execLanePllLock_keeps _ _) (Keeps.refl _) (by decide)
  · exact OutKeeps.mono (execDispatchTestDone_keeps _ _ _) (Keeps.refl _) (by decide)
  · exact OutKeeps.mono (execRunToReady_keeps _) (Keeps.refl _) (by decide)
  · exact OutKeeps.mono (execCorePllLoss_keeps _) (Keeps.refl _) (by decide)
  · exact OutKeeps.mono (execLanePllLoss_keeps _ _) (Keeps.refl _) (by decide)
  · exact OutKeeps.mono (execEncLimitInactive_keeps _ _ _ _) (Keeps.refl _) (by decide)
  · exact OutKeeps.mono (execTbusRisingEdge_keeps _ _) (Keeps.refl _) (by decide)
  · exact OutKeeps.mono (execTriggerUnitTimeout_keeps _ _) (Keeps.refl _) (by decide)
  · exact OutKeeps.mono (execTickWrap_keeps _) (Keeps.refl _) (by decide)
  · exact OutKeeps.mono (execBar0Read_keeps _ _ _) (Keeps.refl _) (by decide)
  · exact OutKeeps.mono (execBelaySramError_keeps _) (Keeps.refl _) (by decide)

end Sys2Proof.Machine
end

