-- ==== Sys2Proof/Laws/Inv.lean ====
section
/-! SUPPORT. How a composed operation keeps a property of the state: the rules by which the lemmas `<operation>_win`,
`<operation>_par`, `<operation>_tick` and `<operation>_blk` of the files beside this one are proved. -/

namespace Sys2Proof.Machine

/-- A command's own checks and effect keep a property. -/
def ResInv (Q : State → Prop) : Res → Prop
  | .err _ => True
  | .fail _ s => Q s
  | .ok _ _ s => Q s
  | .later s => Q s
  | .accepted s after => Q s ∧ ∀ x, Q x → Q (after x)

/-- A meaning keeps a property. -/
def OutInv (Q : State → Prop) (o : Host.Outcome State Fault Refusal) : Prop := ∀ t, o = .next t → Q t

/-- A run of writes keeps a property. -/
def SumInv (Q : State → Prop) : CmdErr ⊕ State → Prop
  | .inl _ => True
  | .inr s => Q s

theorem Inv.cut {Q : State → Prop} {p : Prop} {s : State} (h : Q s) (k : Q s → p) : p := k h

theorem Inv.ite {Q : State → Prop} {p : Prop} [Decidable p] {s t : State} (h : Q s) (k : Q t) :
    Q (if p then s else t) := by
  split
  · exact h
  · exact k

theorem Inv.foldl {Q : State → Prop} {α : Type} {s : State} {f : State → α → State} {l : List α} (h : Q s)
    (hf : ∀ x a, Q x → Q (f x a)) : Q (l.foldl f s) := by
  induction l generalizing s with
  | nil => exact h
  | cons a l ih => exact ih (hf s a h)

theorem Inv.atMark {Q : State → Prop} {s : State} {m : Nat} {f : State → State} (ht : ∀ x n, Q x → Q (advanceTo x n))
    (h : Q s) (hf : ∀ x, Q x → Q (f x)) : Q (Machine.atMark s m f) := by
  unfold Machine.atMark
  split
  · exact h
  · split
    · exact hf _ h
    · split
      · exact hf _ (ht _ _ h)
      · exact h

theorem Inv.reelUnits {Q : State → Prop} {s : State} {now : Nat} {f : State → Nat → State × Bool}
    (ht : ∀ x n m, Q x → Q (reelTrigger x n m)) (h : Q s) (hf : ∀ x k, Q x → Q (f x k).1) :
    Q (Machine.reelUnits s now f) := by
  unfold Machine.reelUnits
  refine Inv.foldl h fun x k hx => ?_
  dsimp only
  split
  · exact ht _ _ _ (hf x k hx)
  · exact hf x k hx

theorem Inv.reelObserveWith {Q : State → Prop} {s : State} {f : State → State} (hs : ∀ x, Q x → Q (reelSync x))
    (hb : ∀ x, Q x → Q (reelBefore x)) (hn : ∀ n l x, Q x → Q (linesSeen n l x))
    (hd : ∀ n l x, Q x → Q (linesDone n l x)) (h : Q s) (hf : ∀ x, Q x → Q (f x)) :
    Q (Machine.reelObserveWith f s) := by
  unfold Machine.reelObserveWith
  split
  · exact h
  · dsimp only
    split
    · exact Inv.ite (hb _ (hs s h)) (hs s h)
    · exact Inv.ite (hs s h) (hd _ _ _ (hf _ (hn _ _ _ (hs s h))))

theorem ResInv.check {Q : State → Prop} {e : Option CmdErr} {x : Res} (h : ResInv Q x) : ResInv Q (Res.check e x) := by
  cases e with
  | none => exact h
  | some e => trivial

theorem ResInv.ite {Q : State → Prop} {p : Prop} [Decidable p] {x y : Res} (h : ResInv Q x) (k : ResInv Q y) :
    ResInv Q (if p then x else y) := by
  split
  · exact h
  · exact k

theorem ResInv.done {Q : State → Prop} {s : State} (h : Q s) : ResInv Q (Res.done s) := h

theorem ResInv.ok {Q : State → Prop} {s : State} {d : Nat} {p : List Word} (h : Q s) : ResInv Q (.ok d p s) := h

theorem ResInv.later {Q : State → Prop} {s : State} (h : Q s) : ResInv Q (.later s) := h

theorem ResInv.fail {Q : State → Prop} {s : State} {e : CmdErr} (h : Q s) : ResInv Q (.fail e s) := h

theorem ResInv.accepted {Q : State → Prop} {s : State} {f : State → State} (h : Q s) (k : ∀ x, Q x → Q (f x)) :
    ResInv Q (.accepted s f) :=
  ⟨h, k⟩

theorem OutInv.next {Q : State → Prop} {s : State} (h : Q s) : OutInv Q (.next s) := by
  intro t e
  injection e with e
  exact e ▸ h

theorem OutInv.ite {Q : State → Prop} {p : Prop} [Decidable p] {x y : Host.Outcome State Fault Refusal}
    (h : OutInv Q x) (k : OutInv Q y) : OutInv Q (if p then x else y) := by
  split
  · exact h
  · exact k

theorem OutInv.clocked {Q : State → Prop} {s : State} {o : Host.Outcome State Fault Refusal} (h : Q s)
    (k : OutInv Q o) : OutInv Q (whenClocked s o) := by
  unfold whenClocked
  split
  · exact k
  · exact .next h

theorem OutInv.ends {Q : State → Prop} {s : State} (ho : ∀ x, Q x → Q (reelObserve x)) (h : Q s) :
    OutInv Q (Machine.ends s) :=
  .next (ho s h)

/-- A command keeps a property that its body, under the checks of R44, keeps. -/
theorem Inv.interpret {Q : State → Prop} {s : State} {sp : CmdSpec} {own : Option CmdErr} {body : Cmd → State → Res}
    {c : Cmd} (hg : ∀ x p q, Q x → Q (goodPacket x p q)) (ha : ∀ x o d n m l, Q x → Q (answer x o d n m l)) (h : Q s)
    (hb : ∀ x, commonErr sp own c x = none → Q x → ResInv Q (body c x)) : Q (Machine.interpret sp own body c s) := by
  have hg' := hg s c.port c.seq h
  unfold Machine.interpret
  dsimp only
  cases hc : commonErr sp own c (goodPacket s c.port c.seq) with
  | some e => exact ha _ _ _ _ _ _ hg'
  | none =>
    have hb := hb _ hc hg'
    simp only [Res.check, finish]
    generalize goodPacket s c.port c.seq = x at hb hg'
    revert hb
    cases body c x with
    | err e => exact fun _ => ha _ _ _ _ _ _ hg'
    | fail e y =>
      intro hb
      exact ha _ _ _ _ _ _ (Inv.ite hg' hb)
    | ok d p y =>
      intro hb
      exact ha _ _ _ _ _ _ (Inv.ite hg' hb)
    | accepted y f =>
      intro hb
      exact Inv.ite (ha _ _ _ _ _ _ hg') (hb.2 _ (ha _ _ _ _ _ _ hb.1))
    | later y =>
      intro hb
      exact Inv.ite (ha _ _ _ _ _ _ hg') hb

theorem Inv.runCmd {Q : State → Prop} {s : State} {sp : CmdSpec} {own : Option CmdErr} {body : Cmd → State → Res}
    {c : Cmd} (hg : ∀ x p q, Q x → Q (goodPacket x p q)) (ha : ∀ x o d n m l, Q x → Q (answer x o d n m l)) (h : Q s)
    (hb : ∀ x, commonErr sp own c x = none → Q x → ResInv Q (body c x)) : Q (Machine.runCmd sp own body c s) := by
  unfold Machine.runCmd
  exact Inv.ite (Inv.interpret hg ha h hb) h

/-! ### The host windows (R33) -/

theorem windowsOk.eq {s t : State} (e : t.host = s.host) (h : windowsOk s) : windowsOk t := by
  unfold windowsOk
  rw [e]
  exact h

theorem windowsOk.same {s t : State} (a : t.host.cmdTail = s.host.cmdTail) (b : t.host.cmdHead = s.host.cmdHead)
    (c : t.host.rplTail = s.host.rplTail) (d : t.host.rplHead = s.host.rplHead) (h : windowsOk s) : windowsOk t := by
  unfold windowsOk cmdWords rplWords
  rw [a, b, c, d]
  exact h

theorem windowsOk.zero {t : State} (a : t.host.cmdTail = 0) (b : t.host.cmdHead = 0) (c : t.host.rplTail = 0)
    (d : t.host.rplHead = 0) : windowsOk t := by
  unfold windowsOk cmdWords rplWords
  rw [a, b, c, d]
  decide

theorem windowsOk.keep {fs : List Fld} {ids : List Nat} {s t : State} (k : Keeps fs ids s t)
    (hf : fs.contains .host = false) (h : windowsOk s) : windowsOk t :=
  .eq (k.host hf) h

theorem windowsOk.res {fs : List Fld} {ids : List Nat} {s : State} {x : Res} (k : ResKeeps fs ids s x)
    (hf : fs.contains .host = false) (h : windowsOk s) : ResInv windowsOk x := by
  cases x with
  | err e => trivial
  | fail e t => exact windowsOk.keep k hf h
  | ok d p t => exact windowsOk.keep k hf h
  | later t => exact windowsOk.keep k hf h
  | accepted t f => exact ⟨windowsOk.keep k.1 hf h, fun y hy => windowsOk.keep (k.2 y) hf hy⟩

theorem windowsOk.upd {s : State} {f : HostSt → HostSt}
    (hf : ∀ h, (f h).cmdTail = h.cmdTail ∧ (f h).cmdHead = h.cmdHead ∧ (f h).rplTail = h.rplTail
      ∧ (f h).rplHead = h.rplHead) (h : windowsOk s) : windowsOk (updHost s f) := by
  obtain ⟨a, b, c, d⟩ := hf s.host
  unfold windowsOk cmdWords rplWords updHost
  dsimp only
  rw [a, b, c, d]
  exact h

theorem advanceTo_win (s : State) (t : Nat) (h : windowsOk s) : windowsOk (advanceTo s t) :=
  .keep (advanceTo_keeps s t) rfl h

theorem updReel_win (s : State) (f : ReelSt → ReelSt) (h : windowsOk s) : windowsOk (updReel s f) :=
  .keep (updReel_keeps s f) rfl h

theorem reelBefore_win (s : State) (h : windowsOk s) : windowsOk (reelBefore s) := .keep (reelBefore_keeps s) rfl h

theorem unitLine_win (s : State) (k line now : Nat) (high : Bool) (h : windowsOk s) :
    windowsOk (unitLine s k line now high).1 :=
  .keep (unitLine_keeps s k line now high) rfl h

theorem linesDone_win (now : Nat) (new : List Nat) (s : State) (h : windowsOk s) : windowsOk (linesDone now new s) :=
  .keep (linesDone_keeps now new s) rfl h

/-- A message leaves both windows as they are. -/
theorem msiVector_same (h : HostSt) (v : Nat) : (msiVector h v).cmdTail = h.cmdTail
    ∧ (msiVector h v).cmdHead = h.cmdHead ∧ (msiVector h v).rplTail = h.rplTail ∧ (msiVector h v).rplHead = h.rplHead := by
  unfold msiVector
  split <;> exact ⟨rfl, rfl, rfl, rfl⟩

/-- A write to the MSI-X table leaves both windows as they are. -/
theorem msixPut_same (h : HostSt) (i : Nat) (w : Word) : (msixPut h i w).cmdTail = h.cmdTail
    ∧ (msixPut h i w).cmdHead = h.cmdHead ∧ (msixPut h i w).rplTail = h.rplTail ∧ (msixPut h i w).rplHead = h.rplHead := by
  have k : ∀ (f : HostSt → Nat → HostSt), (∀ g v, (f g v).cmdTail = g.cmdTail ∧ (f g v).cmdHead = g.cmdHead
      ∧ (f g v).rplTail = g.rplTail ∧ (f g v).rplHead = g.rplHead) → ∀ (l : List Nat) (g : HostSt),
      (l.foldl f g).cmdTail = g.cmdTail ∧ (l.foldl f g).cmdHead = g.cmdHead ∧ (l.foldl f g).rplTail = g.rplTail
        ∧ (l.foldl f g).rplHead = g.rplHead := by
    intro f hf l
    induction l with
    | nil => exact fun g => ⟨rfl, rfl, rfl, rfl⟩
    | cons v l ih =>
      intro g
      have a := ih (f g v)
      have b := hf g v
      exact ⟨a.1.trans b.1, a.2.1.trans b.2.1, a.2.2.1.trans b.2.2.1, a.2.2.2.trans b.2.2.2⟩
  exact k _ (fun g v => by split <;> exact ⟨rfl, rfl, rfl, rfl⟩) _ _

/-- A whole packet leaves its window or buffer. -/
theorem consume_win (s : State) (p : Port) (n : Nat) (hn : p = .pcie → n ≤ cmdWords s.host) (h : windowsOk s) :
    windowsOk (consume s p n) := by
  cases p with
  | spi => exact windowsOk.upd (fun _ => ⟨rfl, rfl, rfl, rfl⟩) h
  | pcie =>
    have hn := hn rfl
    refine ⟨?_, h.2⟩
    have h1 := h.1
    unfold cmdWords at *
    simp only [consume, updHost]
    have : s.host.cmdTail - (s.host.cmdHead + BitVec.ofNat 11 n)
        = (s.host.cmdTail - s.host.cmdHead) - BitVec.ofNat 11 n := by
      bv_omega
    have hm : n % 2 ^ 11 = n := Nat.mod_eq_of_lt (by omega)
    rw [this, BitVec.toNat_sub, BitVec.toNat_ofNat, hm]
    omega

/-- A reply that fits leaves the reply window within its 1,024 words. -/
theorem rplPut_win (s : State) (ws : List Word) (hl : ws.length ≤ rplFree s.host) (h : windowsOk s) :
    windowsOk (updHost s (fun h => rplPut h ws)) := by
  obtain ⟨h1, h2⟩ := h
  refine ⟨h1, ?_⟩
  unfold rplFree at hl
  unfold rplWords at *
  simp only [updHost, rplPut]
  have : s.host.rplTail + BitVec.ofNat 11 ws.length - s.host.rplHead
      = (s.host.rplTail - s.host.rplHead) + BitVec.ofNat 11 ws.length := by
    bv_omega
  rw [this, BitVec.toNat_add, BitVec.toNat_ofNat]
  have : ws.length % 2 ^ 11 = ws.length := Nat.mod_eq_of_lt (by omega)
  rw [this]
  refine Nat.le_trans (Nat.mod_le _ _) ?_
  omega

/-! ### Time does not run back -/

theorem tick_le_advanceTo (s : State) (t : Nat) : s.tick ≤ (advanceTo s t).tick := by
  unfold advanceTo
  split
  · exact Nat.le_refl _
  · dsimp only
    omega

theorem timeFrom.eq {n : Nat} {s t : State} (e : t.tick = s.tick) (h : timeFrom n s) : timeFrom n t := by
  unfold timeFrom
  rw [e]
  exact h

theorem timeFrom.keep {n : Nat} {fs : List Fld} {ids : List Nat} {s t : State} (k : Keeps fs ids s t)
    (hf : fs.contains .tick = false) (h : timeFrom n s) : timeFrom n t :=
  .eq (k.tick hf) h

theorem timeFrom.res {n : Nat} {fs : List Fld} {ids : List Nat} {s : State} {x : Res} (k : ResKeeps fs ids s x)
    (hf : fs.contains .tick = false) (h : timeFrom n s) : ResInv (timeFrom n) x := by
  cases x with
  | err e => trivial
  | fail e t => exact timeFrom.keep k hf h
  | ok d p t => exact timeFrom.keep k hf h
  | later t => exact timeFrom.keep k hf h
  | accepted t f => exact ⟨timeFrom.keep k.1 hf h, fun y hy => timeFrom.keep (k.2 y) hf hy⟩

theorem advanceTo_tick {tk : Nat} (s : State) (t : Nat) (h : timeFrom tk s) : timeFrom tk (advanceTo s t) :=
  Nat.le_trans h (tick_le_advanceTo s t)

theorem reelObserve_tick {tk : Nat} (s : State) (h : timeFrom tk s) : timeFrom tk (reelObserve s) :=
  .keep (reelObserve_keeps s) rfl h

theorem goodPacket_tick {tk : Nat} (s : State) (p : Port) (seq : Word) (h : timeFrom tk s) :
    timeFrom tk (goodPacket s p seq) :=
  .keep (goodPacket_keeps s p seq) rfl h

theorem answer_tick {tk : Nat} (s : State) (op : Nat) (c : Cmd) (status detail : Nat) (payload : List Word)
    (h : timeFrom tk s) : timeFrom tk (answer s op c status detail payload) :=
  .keep (answer_keeps s op c status detail payload) rfl h

theorem reelSync_tick {tk : Nat} (s : State) (h : timeFrom tk s) : timeFrom tk (reelSync s) :=
  .keep (reelSync_keeps s) rfl h

theorem reelBefore_tick {tk : Nat} (s : State) (h : timeFrom tk s) : timeFrom tk (reelBefore s) :=
  .keep (reelBefore_keeps s) rfl h

theorem linesSeen_tick {tk : Nat} (now : Nat) (new : List Nat) (s : State) (h : timeFrom tk s) :
    timeFrom tk (linesSeen now new s) :=
  .keep (linesSeen_keeps now new s) rfl h

theorem linesDone_tick {tk : Nat} (now : Nat) (new : List Nat) (s : State) (h : timeFrom tk s) :
    timeFrom tk (linesDone now new s) :=
  .keep (linesDone_keeps now new s) rfl h

theorem unitLine_tick {tk : Nat} (s : State) (k line now : Nat) (high : Bool) (h : timeFrom tk s) :
    timeFrom tk (unitLine s k line now high).1 :=
  .keep (unitLine_keeps s k line now high) rfl h

theorem updReel_tick {tk : Nat} (s : State) (f : ReelSt → ReelSt) (h : timeFrom tk s) : timeFrom tk (updReel s f) :=
  .keep (updReel_keeps s f) rfl h

/-! ### The parameter table -/

theorem tabIns_mem {α : Type} {t : Tab α} {i : Nat} {x : α} {p : Nat × α} (h : p ∈ tabIns t i x) :
    p = (i, x) ∨ p ∈ t := by
  induction t with
  | nil => simpa [tabIns] using h
  | cons q t ih =>
    obtain ⟨k, v⟩ := q
    simp only [tabIns] at h
    split at h
    · simp at h ⊢
      grind
    · split at h
      · simp at h ⊢
        grind
      · simp at h ⊢
        grind

theorem tabDel_mem {α : Type} {t : Tab α} {i : Nat} {p : Nat × α} (h : p ∈ tabDel t i) : p ∈ t := by
  induction t with
  | nil => simp [tabDel] at h
  | cons q t ih =>
    obtain ⟨k, v⟩ := q
    simp only [tabDel] at h
    split at h
    · exact List.mem_cons_of_mem _ (ih h)
    · simp at h ⊢
      grind

theorem tabFilter_mem {α : Type} {f : Nat → α → Bool} {t : Tab α} {p : Nat × α} (h : p ∈ tabFilter f t) : p ∈ t := by
  induction t with
  | nil => simp [tabFilter] at h
  | cons q t ih =>
    obtain ⟨k, v⟩ := q
    simp only [tabFilter] at h
    split at h
    · simp at h ⊢
      grind
    · exact List.mem_cons_of_mem _ (ih h)

theorem tabDel_rising {α : Type} {t : Tab α} {i : Nat} (h : t.Pairwise (fun a b => a.1 < b.1)) :
    (tabDel t i).Pairwise (fun a b => a.1 < b.1) := by
  induction t with
  | nil => exact h
  | cons q t ih =>
    obtain ⟨k, v⟩ := q
    rw [List.pairwise_cons] at h
    simp only [tabDel]
    split
    · exact ih h.2
    · exact List.pairwise_cons.mpr ⟨fun p hp => h.1 p (tabDel_mem hp), ih h.2⟩

theorem tabFilter_rising {α : Type} {f : Nat → α → Bool} {t : Tab α} (h : t.Pairwise (fun a b => a.1 < b.1)) :
    (tabFilter f t).Pairwise (fun a b => a.1 < b.1) := by
  induction t with
  | nil => exact h
  | cons q t ih =>
    obtain ⟨k, v⟩ := q
    rw [List.pairwise_cons] at h
    simp only [tabFilter]
    split
    · exact List.pairwise_cons.mpr ⟨fun p hp => h.1 p (tabFilter_mem hp), ih h.2⟩
    · exact ih h.2

theorem tabIns_rising {α : Type} {t : Tab α} {i : Nat} {x : α} (h : t.Pairwise (fun a b => a.1 < b.1)) :
    (tabIns t i x).Pairwise (fun a b => a.1 < b.1) := by
  induction t with
  | nil => simp [tabIns]
  | cons q t ih =>
    obtain ⟨k, v⟩ := q
    have h' := h
    rw [List.pairwise_cons] at h
    simp only [tabIns]
    split
    · rename_i e
      subst e
      exact List.pairwise_cons.mpr ⟨fun p hp => h.1 p hp, h.2⟩
    · split
      · rename_i e
        refine List.pairwise_cons.mpr ⟨fun p hp => ?_, h'⟩
        rcases List.mem_cons.mp hp with rfl | hp
        · exact e
        · exact Nat.lt_trans e (h.1 p hp)
      · refine List.pairwise_cons.mpr ⟨fun p hp => ?_, ih h.2⟩
        rcases tabIns_mem hp with rfl | hp
        · simp only
          omega
        · exact h.1 p hp

theorem paramsWf.eq {s t : State} (e : t.params = s.params) (h : paramsWf s) : paramsWf t := by
  unfold paramsWf
  rw [e]
  exact h

theorem paramsWf.keep {fs : List Fld} {s t : State} (k : Keeps fs [] s t) (hf : fs.contains .params = false)
    (h : paramsWf s) : paramsWf t :=
  .eq (k.params hf) h

theorem paramsWf.res {fs : List Fld} {s : State} {x : Res} (k : ResKeeps fs [] s x)
    (hf : fs.contains .params = false) (h : paramsWf s) : ResInv paramsWf x := by
  cases x with
  | err e => trivial
  | fail e t => exact paramsWf.keep k hf h
  | ok d p t => exact paramsWf.keep k hf h
  | later t => exact paramsWf.keep k hf h
  | accepted t f => exact ⟨paramsWf.keep k.1 hf h, fun y hy => paramsWf.keep (k.2 y) hf hy⟩

theorem paramsWf.filter {s t : State} {f : Nat → Word → Bool} (e : t.params = tabFilter f s.params)
    (h : paramsWf s) : paramsWf t := by
  unfold paramsWf
  rw [e]
  exact ⟨tabFilter_rising h.1, fun p hp => h.2 p (tabFilter_mem hp)⟩

theorem putP_par (s : State) (id t : Nat) (w : Word) (h : paramsWf s) : paramsWf (putP s id t w) := by
  unfold paramsWf putP tabSet
  dsimp only
  split
  · exact ⟨tabDel_rising h.1, fun p hp => h.2 p (tabDel_mem hp)⟩
  · rename_i hw
    refine ⟨tabIns_rising h.1, fun p hp => ?_⟩
    rcases tabIns_mem hp with rfl | hp
    · exact hw
    · exact h.2 p hp

theorem paramsWf.nil {t : State} (e : t.params = []) : paramsWf t := by
  unfold paramsWf
  rw [e]
  exact ⟨List.Pairwise.nil, fun p hp => by simp at hp⟩

theorem putN_par (s : State) (id t n : Nat) (h : paramsWf s) : paramsWf (putN s id t n) := putP_par _ _ _ _ h

theorem putI_par (s : State) (id t : Nat) (x : Int) (h : paramsWf s) : paramsWf (putI s id t x) := putP_par _ _ _ _ h

theorem orP_par (s : State) (id t m : Nat) (h : paramsWf s) : paramsWf (orP s id t m) := putP_par _ _ _ _ h

theorem put64_par (s : State) (id t : Nat) (lo hi : Word) (h : paramsWf s) : paramsWf (put64 s id t lo hi) :=
  putP_par _ _ _ _ (putP_par _ _ _ _ h)

theorem addP_par (s : State) (id t n : Nat) (h : paramsWf s) : paramsWf (addP s id t n) :=
  Inv.ite (Q := paramsWf) (putP_par _ _ _ _ h) (putP_par _ _ _ _ (.eq (s := s) rfl h))

theorem incP_par (s : State) (id t : Nat) (h : paramsWf s) : paramsWf (incP s id t) := addP_par _ _ _ _ h

theorem maxP_par (s : State) (id t n : Nat) (h : paramsWf s) : paramsWf (maxP s id t n) :=
  Inv.ite (Q := paramsWf) (putP_par _ _ _ _ h) h

theorem putFit_par (s : State) (id t : Nat) (x : Int) (h : paramsWf s) : paramsWf (putFit s id t x) :=
  Inv.ite (Q := paramsWf) (putP_par _ _ _ _ h) (putP_par _ _ _ _ (.eq (s := s) rfl h))

theorem putCharge_par (s : State) (id a : Nat) (q : Int) (h : paramsWf s) : paramsWf (putCharge s id a q) :=
  Inv.ite (Q := paramsWf) (putP_par _ _ _ _ h) (putP_par _ _ _ _ (.eq (s := s) rfl h))

theorem clearSet_par (s : State) (id t : Nat) (w : Word) (h : paramsWf s) : paramsWf (clearSet s id t w) := by
  unfold clearSet
  split
  · exact putP_par _ _ _ _ h
  · exact Inv.ite (Q := paramsWf) (putP_par _ _ _ _ h) h

theorem advanceTo_par (s : State) (t : Nat) (h : paramsWf s) : paramsWf (advanceTo s t) :=
  .keep (advanceTo_keeps s t) rfl h

theorem updReel_par (s : State) (f : ReelSt → ReelSt) (h : paramsWf s) : paramsWf (updReel s f) :=
  .keep (updReel_keeps s f) rfl h

theorem reelBefore_par (s : State) (h : paramsWf s) : paramsWf (reelBefore s) := .keep (reelBefore_keeps s) rfl h

theorem linesDone_par (now : Nat) (new : List Nat) (s : State) (h : paramsWf s) : paramsWf (linesDone now new s) :=
  .keep (linesDone_keeps now new s) rfl h

theorem unitLine_par (s : State) (k line now : Nat) (high : Bool) (h : paramsWf s) :
    paramsWf (unitLine s k line now high).1 :=
  .keep (unitLine_keeps s k line now high) rfl h

theorem goodPacket_par (s : State) (p : Port) (seq : Word) (h : paramsWf s) : paramsWf (goodPacket s p seq) :=
  .keep (goodPacket_keeps s p seq) rfl h

end Sys2Proof.Machine
end

