-- ==== Sys2Proof/Laws/Params.lean ====
section
/-! SUPPORT. Every operation keeps the canonical form of the parameter table. -/

namespace Sys2Proof.Machine

/-! ### Machine/Ops.lean -/

theorem irqSet_par (s : State) (b : Nat) (h : paramsWf s) :
    paramsWf (irqSet s b) := by
  unfold irqSet
  extract_lets y0
  refine Inv.cut (Q := paramsWf) (s := y0) ?_ fun h30 => ?_
  · unfold y0
    exact orP_par _ _ _ _ h
  clear_value y0
  refine Inv.ite (Q := paramsWf) ?_ ?_
  · exact h
  · refine Inv.ite (Q := paramsWf) ?_ ?_
    · exact paramsWf.keep (msiSend_keeps _ _) (by rfl) h30
    · exact h30

theorem resetBlock_par (s : State) (keep : Nat → Bool) (h : paramsWf s) :
    paramsWf (resetBlock s keep) := by
  exact paramsWf.filter (s := s) rfl h

theorem timeEvent_par (s : State) (b : Nat) (h : paramsWf s) :
    paramsWf (timeEvent s b) := by
  unfold timeEvent
  exact irqSet_par _ _ (orP_par _ _ _ _ h)

/-! ### Machine/ReelCore.lean -/

theorem reelOverflow_par (s : State) (now : Nat) (h : paramsWf s) :
    paramsWf (reelOverflow s now) := by
  unfold reelOverflow
  refine Inv.ite (Q := paramsWf) ?_ ?_
  · exact maxP_par _ _ _ _ (paramsWf.keep (updReel_keeps _ _) (by rfl) h)
  · exact h

theorem reelPush_par (s : State) (r : ReelRec) (h : paramsWf s) :
    paramsWf (reelPush s r) := by
  unfold reelPush
  refine Inv.ite (Q := paramsWf) ?_ ?_
  · exact maxP_par _ _ _ _ (paramsWf.keep (updReel_keeps _ _) (by rfl) h)
  · exact incP_par _ _ _ (paramsWf.keep (updReel_keeps _ _) (by rfl) h)

theorem trigSet_par (s : State) (src : Nat) (now : Nat) (tt : Int) (h : paramsWf s) :
    paramsWf (trigSet s src now tt) := by
  unfold trigSet
  extract_lets y0 y1 y2 y3 y4
  clear_value y0 y1 y2 y3
  refine Inv.cut (Q := paramsWf) (s := y4) ?_ fun h30 => ?_
  · unfold y4
    exact paramsWf.keep (updReel_keeps _ _) (by rfl) h
  clear_value y4
  exact paramsWf.keep (reelRef_keeps _ _ _) (by rfl) (putN_par _ _ _ _ h30)

theorem reelFire_par (s : State) (src : Nat) (now : Nat) (tt : Int) (h : paramsWf s) :
    paramsWf (reelFire s src now tt) := by
  unfold reelFire
  extract_lets y0 y1 y2
  refine Inv.cut (Q := paramsWf) (s := y0) ?_ fun h30 => ?_
  · unfold y0
    exact paramsWf.keep (updReel_keeps _ _) (by rfl) (trigSet_par _ _ _ _ h)
  clear_value y0
  refine Inv.cut (Q := paramsWf) (s := y1) ?_ fun h31 => ?_
  · unfold y1
    exact paramsWf.keep (reelForm_keeps _ _) (by rfl) h30
  clear_value y1
  refine Inv.cut (Q := paramsWf) (s := y2) ?_ fun h32 => ?_
  · unfold y2
    refine Inv.foldl (Q := paramsWf) ?_ fun x33 a34 h35 => ?_
    · exact h31
    · refine Inv.ite (Q := paramsWf) ?_ ?_
      · exact paramsWf.keep (tbusDrive_keeps _ _) (by rfl) h35
      · exact h35
  clear_value y2
  exact irqSet_par _ _ h32

theorem reelFlush_par (s : State) (now : Nat) (l : List ReelRec) (h : paramsWf s) :
    paramsWf (reelFlush s now l) := by
  unfold reelFlush
  refine reelOverflow_par _ _ ?_
  refine Inv.foldl (Q := paramsWf) ?_ fun x0 a1 h2 => ?_
  · exact h
  · exact reelPush_par _ _ h2

theorem reelEnd_par (s : State) (cause : Nat) (u : Nat) (h : paramsWf s) :
    paramsWf (reelEnd s cause u) := by
  unfold reelEnd
  extract_lets y0 y1 y2 y3
  clear_value y0
  refine Inv.cut (Q := paramsWf) (s := y1) ?_ fun h30 => ?_
  · unfold y1
    exact reelFlush_par _ _ _ (paramsWf.keep (updReel_keeps _ _) (by rfl) h)
  clear_value y1
  refine Inv.cut (Q := paramsWf) (s := y2) ?_ fun h31 => ?_
  · unfold y2
    refine Inv.foldl (Q := paramsWf) ?_ fun x32 a33 h34 => ?_
    · exact paramsWf.keep (updReel_keeps _ _) (by rfl) h30
    · exact paramsWf.keep (ringWrite_keeps _ _) (by rfl) h34
  clear_value y2
  refine Inv.cut (Q := paramsWf) (s := y3) ?_ fun h35 => ?_
  · unfold y3
    exact paramsWf.keep (updReel_keeps _ _) (by rfl) h31
  clear_value y3
  exact irqSet_par _ _ h35

theorem reelStop_par (s : State) (cause : Nat) (h : paramsWf s) :
    paramsWf (reelStop s cause) := by
  unfold reelStop
  refine Inv.ite (Q := paramsWf) ?_ ?_
  · exact reelEnd_par _ _ _ h
  · refine Inv.ite (Q := paramsWf) ?_ ?_
    · exact paramsWf.keep (reelRecause_keeps _ _) (by rfl) h
    · exact h

theorem reelTake_par (a : Nat) (a' : Nat) (a'' : State) (h : paramsWf a'') :
    paramsWf (reelTake a a' a'') := by
  induction a generalizing a'' with
  | zero => exact h
  | succ n ih =>
    unfold reelTake
    split
    · exact h
    · split
      · exact (reelEnd_par _ _ _ (paramsWf.keep (updReel_keeps _ _) (by rfl) h))
      · exact ih _ (paramsWf.keep (ringWrite_keeps _ _) (by rfl) (paramsWf.keep (updReel_keeps _ _) (by rfl) h))

theorem reelTrigger_par (s : State) (src : Nat) (tt : Int) (h : paramsWf s) :
    paramsWf (reelTrigger s src tt) := by
  unfold reelTrigger
  split
  · exact h
  · extract_lets y30
    refine Inv.cut (Q := paramsWf) (s := y30) ?_ fun h60 => ?_
    · unfold y30
      exact reelFire_par _ _ _ _ h
    clear_value y30
    refine Inv.ite (Q := paramsWf) ?_ ?_
    · refine Inv.ite (Q := paramsWf) ?_ ?_
      · exact reelStop_par _ _ h60
      · exact h60
    · refine Inv.ite (Q := paramsWf) ?_ ?_
      · exact paramsWf.keep (updReel_keeps _ _) (by rfl) (trigSet_par _ _ _ _ h)
      · exact h

theorem linesSeen_par (now : Nat) (new : List Nat) (s : State) (h : paramsWf s) :
    paramsWf (linesSeen now new s) := by
  unfold linesSeen
  extract_lets y0 y1
  clear_value y1
  refine Inv.cut (Q := paramsWf) (s := y0) ?_ fun h30 => ?_
  · unfold y0
    exact paramsWf.keep (updReel_keeps _ _) (by rfl) h
  clear_value y0
  refine Inv.ite (Q := paramsWf) ?_ ?_
  · refine Inv.foldl (Q := paramsWf) ?_ fun x31 a32 h33 => ?_
    · exact h30
    · refine Inv.reelUnits (Q := paramsWf) reelTrigger_par ?_ fun x34 a35 h36 => ?_
      · exact h33
      · exact paramsWf.keep (unitLine_keeps _ _ _ _ _) (by rfl) h36
  · exact h30

theorem reelMasks_par (s : State) (ch : Nat) (now : Nat) (lv : Nat → Int) (v : Int) (h : paramsWf s) :
    paramsWf (reelMasks s ch now lv v) := by
  unfold reelMasks
  refine Inv.foldl (Q := paramsWf) ?_ fun x30 a31 h32 => ?_
  · exact h
  · extract_lets y33 y34 y35 y36 y37 y38 y39 y40
    clear_value y33 y34 y35 y38
    refine Inv.cut (Q := paramsWf) (s := y36) ?_ fun h63 => ?_
    · unfold y36
      exact incP_par _ _ _ h32
    clear_value y36
    refine Inv.cut (Q := paramsWf) (s := y37) ?_ fun h64 => ?_
    · unfold y37
      exact paramsWf.keep (updReel_keeps _ _) (by rfl) h63
    clear_value y37
    refine Inv.cut (Q := paramsWf) (s := y39) ?_ fun h65 => ?_
    · unfold y39
      refine Inv.ite (Q := paramsWf) ?_ ?_
      · exact reelTrigger_par _ _ _ h64
      · exact h64
    clear_value y39
    refine Inv.cut (Q := paramsWf) (s := y40) ?_ fun h66 => ?_
    · unfold y40
      exact paramsWf.keep (reelForm_keeps _ _) (by rfl) h65
    clear_value y40
    split
    · exact h32
    · extract_lets y97 y98
      clear_value y97 y98
      refine Inv.ite (Q := paramsWf) ?_ ?_
      · exact h32
      · split
        · exact h32
        · extract_lets y187
          clear_value y187
          refine Inv.ite (Q := paramsWf) ?_ ?_
          · exact h32
          · refine Inv.ite (Q := paramsWf) ?_ ?_
            · exact incP_par _ _ _ h32
            · refine Inv.ite (Q := paramsWf) ?_ ?_
              · exact paramsWf.keep (updReel_keeps _ _) (by rfl) h66
              · exact h66

theorem reelRound_par (u : Nat) (s : State) (h : paramsWf s) :
    paramsWf (reelRound u s) := by
  unfold reelRound
  split
  · exact h
  · extract_lets y30 y31
    clear_value y30
    refine Inv.cut (Q := paramsWf) (s := y31) ?_ fun h60 => ?_
    · unfold y31
      exact paramsWf.keep (updReel_keeps _ _) (by rfl) h
    clear_value y31
    refine Inv.ite (Q := paramsWf) ?_ ?_
    · exact reelEnd_par _ _ _ (paramsWf.keep (updReel_keeps _ _) (by rfl) h)
    · exact reelTake_par _ _ _ (reelFlush_par _ _ _ h60)

theorem reelRounds_par (a : Nat) (a' : Nat) (a'' : State) (h : paramsWf a'') :
    paramsWf (reelRounds a a' a'') := by
  induction a generalizing a' a'' with
  | zero => exact h
  | succ n ih =>
    unfold reelRounds
    exact Inv.ite (Q := paramsWf) (ih _ _ (reelRound_par _ _ h)) h

theorem reelSync_par (s : State) (h : paramsWf s) :
    paramsWf (reelSync s) := by
  unfold reelSync
  refine Inv.ite (Q := paramsWf) ?_ ?_
  · exact reelRounds_par _ _ _ (paramsWf.keep (updReel_keeps _ _) (by rfl) h)
  · exact h

theorem reelFault_par (s : State) (code : Nat) (event : Nat) (h : paramsWf s) :
    paramsWf (reelFault s code event) := by
  unfold reelFault
  extract_lets y0
  refine Inv.cut (Q := paramsWf) (s := y0) ?_ fun h30 => ?_
  · unfold y0
    exact reelSync_par _ h
  clear_value y0
  split
  · refine Inv.reelUnits (Q := paramsWf) reelTrigger_par ?_ fun x91 a92 h93 => ?_
    · exact h30
    · extract_lets y94 y95
      clear_value y94 y95
      dsimp only
      exact h93
  · exact h30

theorem reelObserve_par (s : State) (h : paramsWf s) :
    paramsWf (reelObserve s) := by
  unfold reelObserve
  refine Inv.reelObserveWith (Q := paramsWf) reelSync_par reelBefore_par linesSeen_par linesDone_par ?_ fun x0 h1 =>
        ?_
  · exact h
  · exact h1

theorem reelSample_par (s : State) (ch : Nat) (unsigned : Bool) (v : Int) (flags : Nat) (h : paramsWf s) :
    paramsWf (reelSample s ch unsigned v flags) := by
  unfold reelSample
  extract_lets y0 y1 y2
  clear_value y2
  refine Inv.cut (Q := paramsWf) (s := y1) ?_ fun h30 => ?_
  · unfold y1
    exact reelSync_par _ h
  clear_value y1
  refine Inv.ite (Q := paramsWf) ?_ ?_
  · exact h
  · split
    · exact h
    · extract_lets y91 y92 y93 y94 y95 y96
      clear_value y92 y93 y94
      refine Inv.cut (Q := paramsWf) (s := y91) ?_ fun h121 => ?_
      · unfold y91
        refine Inv.ite (Q := paramsWf) ?_ ?_
        · refine Inv.reelUnits (Q := paramsWf) reelTrigger_par ?_ fun x122 a123 h124 => ?_
          · exact h30
          · exact paramsWf.keep (unitSample_keeps _ _ _ _ _ _ _) (by rfl) h124
        · exact h30
      clear_value y91
      refine Inv.cut (Q := paramsWf) (s := y95) ?_ fun h125 => ?_
      · unfold y95
        exact paramsWf.keep (updReel_keeps _ _) (by rfl) h121
      clear_value y95
      refine Inv.cut (Q := paramsWf) (s := y96) ?_ fun h126 => ?_
      · unfold y96
        refine Inv.ite (Q := paramsWf) ?_ ?_
        · exact paramsWf.keep (reelForm_keeps _ _) (by rfl) h125
        · exact h125
      clear_value y96
      exact reelMasks_par _ _ _ _ _ h126

theorem reelStep_par (s : State) (h : paramsWf s) :
    paramsWf (reelStep s) := by
  unfold reelStep
  extract_lets y0
  clear_value y0
  split
  · extract_lets y60
    refine Inv.cut (Q := paramsWf) (s := y60) ?_ fun h90 => ?_
    · unfold y60
      exact paramsWf.keep (reelForm_keeps _ _) (by rfl) (reelSync_par _ h)
    clear_value y60
    refine Inv.ite (Q := paramsWf) ?_ ?_
    · exact paramsWf.keep (reelForm_keeps _ _) (by rfl) h90
    · exact h
  · exact h

theorem reelResult_par (s : State) (tag : Nat) (raw : Nat) (flags : Nat) (h : paramsWf s) :
    paramsWf (reelResult s tag raw flags) := by
  unfold reelResult
  refine Inv.ite (Q := paramsWf) ?_ ?_
  · refine Inv.foldl (Q := paramsWf) ?_ fun x60 a61 h62 => ?_
    · exact h
    · extract_lets y63 y64
      clear_value y63 y64
      exact reelSample_par _ _ _ _ _ h62
  · exact h

/-! ### Machine/FaultOps.lean -/

theorem traceEvent_par (s : State) (code : Nat) (slot : Nat) (cls : Nat) (strand : Nat) (prio : Nat) (info : Nat) (h
      : paramsWf s) :
    paramsWf (traceEvent s code slot cls strand prio info) := by
  unfold traceEvent
  extract_lets y0 y1 y2 y3 y4 y5 y6 y7 y8
  clear_value y0 y1 y2 y3 y4 y5 y6
  refine Inv.cut (Q := paramsWf) (s := y7) ?_ fun h30 => ?_
  · unfold y7
    refine Inv.ite (Q := paramsWf) ?_ ?_
    · exact incP_par _ _ _ h
    · exact h
  clear_value y7
  refine Inv.ite (Q := paramsWf) ?_ ?_
  · exact h
  · exact paramsWf.eq (s := y7) rfl h30

theorem traceFreeze_par (s : State) (h : paramsWf s) :
    paramsWf (traceFreeze s) := by
  unfold traceFreeze
  extract_lets y0 y1
  refine Inv.cut (Q := paramsWf) (s := y0) ?_ fun h30 => ?_
  · unfold y0
    exact traceEvent_par _ _ _ _ _ _ _ h
  clear_value y0
  refine Inv.ite (Q := paramsWf) ?_ ?_
  · exact h
  · exact paramsWf.eq (s := y0) rfl h30

theorem traceLater_par (s : State) (code : Nat) (at_ : Nat) (slot : Nat) (cls : Nat) (strand : Nat) (prio : Nat)
      (info : Nat) (h : paramsWf s) :
    paramsWf (traceLater s code at_ slot cls strand prio info) := by
  unfold traceLater
  extract_lets y0
  refine Inv.ite (Q := paramsWf) ?_ ?_
  · exact h
  · refine Inv.ite (Q := paramsWf) ?_ ?_
    · exact incP_par _ _ _ h
    · exact paramsWf.eq (s := s) rfl h

theorem traceOnFault_par (s : State) (code : Nat) (h : paramsWf s) :
    paramsWf (traceOnFault s code) := by
  unfold traceOnFault
  extract_lets y0 y1
  clear_value y0 y1
  refine Inv.ite (Q := paramsWf) ?_ ?_
  · exact traceFreeze_par _ h
  · exact h

theorem fltRecord_par (s : State) (e : FltEntry) (event : Nat) (react : React) (h : paramsWf s) :
    paramsWf (fltRecord s e event react) := by
  unfold fltRecord
  extract_lets y0 y1 y2 y3
  clear_value y0 y1
  refine Inv.cut (Q := paramsWf) (s := y2) ?_ fun h30 => ?_
  · unfold y2
    exact paramsWf.eq (s := s) rfl h
  clear_value y2
  refine Inv.cut (Q := paramsWf) (s := y3) ?_ fun h31 => ?_
  · unfold y3
    exact irqSet_par _ _ h30
  clear_value y3
  exact reelFault_par _ _ _ (traceOnFault_par _ _ h31)

theorem graceExpire_par (s : State) (i : Nat) (h : paramsWf s) :
    paramsWf (graceExpire s i) := by
  unfold graceExpire
  extract_lets y0
  clear_value y0
  split
  · extract_lets y60 y61 y62
    clear_value y60 y62
    refine Inv.cut (Q := paramsWf) (s := y61) ?_ fun h90 => ?_
    · unfold y61
      exact paramsWf.keep (reactEffect_keeps _ _ _) (by rfl) h
    clear_value y61
    exact fltRecord_par _ _ _ _ (paramsWf.keep (setFlt_keeps _ _ _) (by rfl) h90)
  · exact h

theorem gracesDue_par (s : State) (h : paramsWf s) :
    paramsWf (gracesDue s) := by
  unfold gracesDue
  refine Inv.foldl (Q := paramsWf) ?_ fun x0 a1 h2 => ?_
  · exact h
  · exact graceExpire_par _ _ h2

theorem reRaise_par (s : State) (i : Nat) (e : FltEntry) (mask : Nat) (grace : Nat) (m : RaiseMode) (h : paramsWf s) :
    paramsWf (reRaise s i e mask grace m) := by
  unfold reRaise
  extract_lets y0 y1 y2 y3 y4
  clear_value y1 y2 y3
  refine Inv.cut (Q := paramsWf) (s := y4) ?_ fun h30 => ?_
  · unfold y4
    refine Inv.ite (Q := paramsWf) ?_ ?_
    · exact paramsWf.keep (reactEffect_keeps _ _ _) (by rfl) h
    · exact h
  clear_value y4
  refine Inv.ite (Q := paramsWf) ?_ ?_
  · exact paramsWf.keep (setFlt_keeps _ _ _) (by rfl) h
  · split
    · unfold y0
      exact fltRecord_par _ _ _ _ (paramsWf.keep (setFlt_keeps _ _ _) (by rfl) h)
    · unfold y0
      exact fltRecord_par _ _ _ _ (paramsWf.keep (setFlt_keeps _ _ _) (by rfl) h30)
    · unfold y0
      exact fltRecord_par _ _ _ _ (paramsWf.keep (setFlt_keeps _ _ _) (by rfl) h)

theorem raiseOverflow_par (s : State) (h : paramsWf s) :
    paramsWf (raiseOverflow s) := by
  unfold raiseOverflow
  extract_lets y0 y1 y2
  clear_value y1 y2
  refine Inv.cut (Q := paramsWf) (s := y0) ?_ fun h30 => ?_
  · unfold y0
    exact incP_par _ _ _ h
  clear_value y0
  refine Inv.ite (Q := paramsWf) ?_ ?_
  · exact fltRecord_par _ _ _ _ (paramsWf.keep (setFlt_keeps _ _ _) (by rfl) h30)
  · exact reRaise_par _ _ _ _ _ _ h30

theorem raiseWith_par (s : State) (code : Nat) (inst : Nat) (cls : FltClass) (react : React) (grace : Nat) (m :
      RaiseMode) (h : paramsWf s) :
    paramsWf (raiseWith s code inst cls react grace m) := by
  unfold raiseWith
  split
  · exact h
  · extract_lets y30 y31 y32 y33
    clear_value y30 y31 y32
    refine Inv.cut (Q := paramsWf) (s := y33) ?_ fun h60 => ?_
    · unfold y33
      refine Inv.ite (Q := paramsWf) ?_ ?_
      · exact h
      · exact paramsWf.keep (reactEffect_keeps _ _ _) (by rfl) h
    clear_value y33
    split
    · exact reRaise_par _ _ _ _ _ _ h
    · split
      · refine raiseOverflow_par _ ?_
        refine Inv.ite (Q := paramsWf) ?_ ?_
        · exact h
        · exact paramsWf.keep (reactEffect_keeps _ _ _) (by rfl) h
      · split
        · exact fltRecord_par _ _ _ _ (paramsWf.keep (takeEntry_keeps _ _ _) (by rfl) h60)
        · exact fltRecord_par _ _ _ _ (paramsWf.keep (takeEntry_keeps _ _ _) (by rfl) h)

theorem raiseBelay_par (s : State) (code : Nat) (inst : Nat) (latch : Nat) (h : paramsWf s) :
    paramsWf (raiseBelay s code inst latch) := by
  unfold raiseBelay
  extract_lets y0 y1 y2
  clear_value y0
  refine Inv.cut (Q := paramsWf) (s := y1) ?_ fun h30 => ?_
  · unfold y1
    refine Inv.ite (Q := paramsWf) ?_ ?_
    · exact h
    · exact paramsWf.keep (belayLatch_keeps _ _) (by rfl) h
  clear_value y1
  refine Inv.cut (Q := paramsWf) (s := y2) ?_ fun h31 => ?_
  · unfold y2
    exact paramsWf.keep (belayReact_keeps _ _) (by rfl) h30
  clear_value y2
  exact raiseWith_par _ _ _ _ _ _ _ h31

theorem raiseFault_par (s : State) (code : Nat) (inst : Nat) (h : paramsWf s) :
    paramsWf (raiseFault s code inst) := by
  unfold raiseFault
  extract_lets y0
  clear_value y0
  exact raiseWith_par _ _ _ _ _ _ _ h

theorem raiseOnce_par (s : State) (code : Nat) (inst : Nat) (h : paramsWf s) :
    paramsWf (raiseOnce s code inst) := by
  unfold raiseOnce
  extract_lets y0
  clear_value y0
  exact raiseWith_par _ _ _ _ _ _ _ h

theorem causeSet_par (s : State) (code : Nat) (inst : Nat) (present : Bool) (h : paramsWf s) :
    paramsWf (causeSet s code inst present) := by
  unfold causeSet
  refine Inv.ite (Q := paramsWf) ?_ ?_
  · refine Inv.ite (Q := paramsWf) ?_ ?_
    · exact h
    · exact raiseFault_par _ _ _ h
  · refine Inv.ite (Q := paramsWf) ?_ ?_
    · exact paramsWf.keep (causeGone_keeps _ _ _) (by rfl) h
    · exact h

/-! ### Machine/Operands.lean -/

theorem flushHeld_par (a : List (List Word)) (a' : State) (h : paramsWf a') :
    paramsWf (flushHeld a a') := by
  induction a generalizing a' with
  | nil => exact (paramsWf.keep (updHost_keeps _ _) (by rfl) h)
  | cons x l ih =>
    cases x with
    | nil => exact ih a' h
    | cons m ws =>
      unfold flushHeld
      split
      · rename_i hl
        refine ih _ (Inv.ite (Q := paramsWf) ?_ ?_)
        · exact (irqSet_par _ _ (paramsWf.keep (updHost_keeps _ _) (by rfl) h))
        · exact (paramsWf.keep (updHost_keeps _ _) (by rfl) h)
      · exact (paramsWf.keep (updHost_keeps _ _) (by rfl) h)

theorem sendReply_par (s : State) (port : Port) (irq : Bool) (ws : List Word) (h : paramsWf s) :
    paramsWf (sendReply s port irq ws) := by
  unfold sendReply
  extract_lets y0
  refine Inv.cut (Q := paramsWf) (s := y0) ?_ fun h30 => ?_
  · unfold y0
    exact paramsWf.keep (updHost_keeps _ _) (by rfl) h
  clear_value y0
  refine Inv.ite (Q := paramsWf) ?_ ?_
  · refine Inv.ite (Q := paramsWf) ?_ ?_
    · refine Inv.ite (Q := paramsWf) ?_ ?_
      · exact irqSet_par _ _ h30
      · exact h30
    · exact paramsWf.keep (updHost_keeps _ _) (by rfl) h
  · refine Inv.ite (Q := paramsWf) ?_ ?_
    · exact irqSet_par _ _ (paramsWf.keep (updHost_keeps _ _) (by rfl) h)
    · exact h

theorem answer_par (s : State) (op : Nat) (c : Cmd) (status : Nat) (detail : Nat) (payload : List Word) (h : paramsWf
      s) :
    paramsWf (answer s op c status detail payload) := by
  unfold answer
  extract_lets y0 y1
  clear_value y0
  refine Inv.cut (Q := paramsWf) (s := y1) ?_ fun h30 => ?_
  · unfold y1
    exact paramsWf.keep (updHost_keeps _ _) (by rfl) h
  clear_value y1
  exact sendReply_par _ _ _ _ h30

theorem completeOp_par (s : State) (o : LongOp) (status : Nat) (detail : Nat) (payload : List Word) (h : paramsWf s) :
    paramsWf (completeOp s o status detail payload) := by
  unfold completeOp
  extract_lets y0 y1
  refine Inv.cut (Q := paramsWf) (s := y0) ?_ fun h30 => ?_
  · unfold y0
    exact paramsWf.keep (dropOp_keeps _ _ _) (by rfl) h
  clear_value y0
  refine Inv.cut (Q := paramsWf) (s := y1) ?_ fun h31 => ?_
  · unfold y1
    exact sendReply_par _ _ _ _ h30
  clear_value y1
  refine Inv.ite (Q := paramsWf) ?_ ?_
  · exact h31
  · exact irqSet_par _ _ h31

theorem completeErr_par (s : State) (o : LongOp) (e : CmdErr) (h : paramsWf s) :
    paramsWf (completeErr s o e) := by
  unfold completeErr
  exact completeOp_par _ _ _ _ _ h

theorem completeOk_par (s : State) (o : LongOp) (payload : List Word) (h : paramsWf s) :
    paramsWf (completeOk s o payload) := by
  unfold completeOk
  exact completeOp_par _ _ _ _ _ h

/-! ### Machine/CleatOps.lean -/

theorem clearExcl_par (s : State) (id : Nat) (h : paramsWf s) :
    paramsWf (clearExcl s id) := by
  exact paramsWf.filter (s := s) rfl h

theorem permFailed_par (s : State) (c : Nat) (h : paramsWf s) :
    paramsWf (permFailed s c) := by
  unfold permFailed
  extract_lets y0
  refine Inv.cut (Q := paramsWf) (s := y0) ?_ fun h30 => ?_
  · unfold y0
    exact raiseFault_par _ _ _ h
  clear_value y0
  exact paramsWf.keep (updCell_keeps _ _ _) (by rfl) h30

theorem cleatWatch_par (s : State) (h : paramsWf s) :
    paramsWf (cleatWatch s) := by
  unfold cleatWatch
  extract_lets y0 y1
  clear_value y1
  refine Inv.cut (Q := paramsWf) (s := y0) ?_ fun h30 => ?_
  · unfold y0
    exact maxP_par _ _ _ _ h
  clear_value y0
  exact causeSet_par _ _ _ _ h30

theorem ledgerWatch_par (s : State) (h : paramsWf s) :
    paramsWf (ledgerWatch s) := by
  unfold ledgerWatch
  refine Inv.foldl (Q := paramsWf) ?_ fun x0 a1 h2 => ?_
  · exact h
  · refine Inv.ite (Q := paramsWf) ?_ ?_
    · exact causeSet_par _ _ _ _ h2
    · exact h2

theorem retireDone_par (s : State) (c : Nat) (m : Nat) (h : paramsWf s) :
    paramsWf (retireDone s c m) := by
  unfold retireDone
  extract_lets y0 y1 y2 y3 y4
  refine Inv.cut (Q := paramsWf) (s := y0) ?_ fun h30 => ?_
  · unfold y0
    exact paramsWf.keep (updCell_keeps _ _ _) (by rfl) h
  clear_value y0
  refine Inv.cut (Q := paramsWf) (s := y1) ?_ fun h31 => ?_
  · unfold y1
    exact paramsWf.keep (causeGone_keeps _ _ _) (by rfl) (raiseFault_par _ _ _ h30)
  clear_value y1
  refine Inv.cut (Q := paramsWf) (s := y2) ?_ fun h32 => ?_
  · unfold y2
    exact paramsWf.keep (causeGone_keeps _ _ _) (by rfl) h31
  clear_value y2
  refine Inv.cut (Q := paramsWf) (s := y3) ?_ fun h33 => ?_
  · unfold y3
    split
    · exact paramsWf.keep (releaseEntry_keeps _ _ _) (by rfl) h32
    · exact h32
  clear_value y3
  refine Inv.cut (Q := paramsWf) (s := y4) ?_ fun h34 => ?_
  · unfold y4
    exact ledgerWatch_par _ h33
  clear_value y4
  split
  · exact completeOk_par _ _ _ h34
  · exact h34

theorem takeFault_par (s : State) (m : Nat) (e : Nat) (c : Nat) (h : paramsWf s) :
    paramsWf (takeFault s m e c) := by
  unfold takeFault
  exact cleatWatch_par _ (paramsWf.keep (updCleat_keeps _ _ _) (by rfl) h)

theorem faultUse_par (s : State) (c : Nat) (h : paramsWf s) :
    paramsWf (faultUse s c) := by
  unfold faultUse
  extract_lets y0 y1 y2
  clear_value y2
  refine Inv.cut (Q := paramsWf) (s := y1) ?_ fun h30 => ?_
  · unfold y1
    exact paramsWf.eq (s := s) rfl h
  clear_value y1
  split
  · refine Inv.ite (Q := paramsWf) ?_ ?_
    · refine Inv.ite (Q := paramsWf) ?_ ?_
      · exact paramsWf.keep (startRetire_keeps _ _ _) (by rfl) h
      · exact h
    · exact cleatWatch_par _ (paramsWf.keep (toFault_keeps _ _ _) (by rfl) h)
  · refine Inv.ite (Q := paramsWf) ?_ ?_
    · exact h
    · split
      · exact takeFault_par _ _ _ _ h
      · refine Inv.ite (Q := paramsWf) ?_ ?_
        · exact raiseFault_par _ _ _ h30
        · exact h30

theorem freeActivity_par (s : State) (i : Nat) (h : paramsWf s) :
    paramsWf (freeActivity s i) := by
  unfold freeActivity
  exact ledgerWatch_par _ (paramsWf.keep (updAct_keeps _ _ _) (by rfl) h)

theorem retireEntry_par (s : State) (m : Nat) (c : Nat) (h : paramsWf s) :
    paramsWf (retireEntry s m c) := by
  unfold retireEntry
  split
  · refine Inv.ite (Q := paramsWf) ?_ ?_
    · exact h
    · exact cleatWatch_par _ (paramsWf.keep (toFault_keeps _ _ _) (by rfl) h)
  · split
    · exact takeFault_par _ _ _ _ h
    · exact h

theorem servePending_par (m : Nat) (s : State) (h : paramsWf s) :
    paramsWf (servePending m s) := by
  unfold servePending
  extract_lets y0
  split
  · exact h
  · extract_lets y60
    refine Inv.cut (Q := paramsWf) (s := y60) ?_ fun h90 => ?_
    · unfold y60
      exact paramsWf.eq (s := s) rfl h
    clear_value y60
    refine Inv.ite (Q := paramsWf) ?_ ?_
    · exact h
    · exact paramsWf.keep (cleatFullGone_keeps _ _) (by rfl) (retireEntry_par _ _ _ h90)

theorem servePendings_par (m : Nat) (s : State) (h : paramsWf s) :
    paramsWf (servePendings m s) := by
  unfold servePendings
  refine Inv.foldl (Q := paramsWf) ?_ fun x0 a1 h2 => ?_
  · exact h
  · exact servePending_par _ _ h2

theorem serveRetire_par (m : Nat) (s : State) (h : paramsWf s) :
    paramsWf (serveRetire m s) := by
  unfold serveRetire
  refine Inv.foldl (Q := paramsWf) ?_ fun x30 a31 h32 => ?_
  · exact h
  · extract_lets y33
    refine Inv.cut (Q := paramsWf) (s := y33) ?_ fun h63 => ?_
    · unfold y33
      exact retireEntry_par _ _ _ h32
    clear_value y33
    refine Inv.ite (Q := paramsWf) ?_ ?_
    · exact paramsWf.keep (startRetire_keeps _ _ _) (by rfl) (paramsWf.keep (updOp_keeps _ _ _ _) (by rfl) h63)
    · exact h63

theorem suspectCell_par (s : State) (c : Nat) (code : Nat) (h : paramsWf s) :
    paramsWf (suspectCell s c code) := by
  unfold suspectCell
  refine Inv.ite (Q := paramsWf) ?_ ?_
  · exact h
  · exact faultUse_par _ _ (raiseFault_par _ _ _ h)

theorem freeCleats_par (s : State) (m : Nat) (h : paramsWf s) :
    paramsWf (freeCleats s m) := by
  unfold freeCleats
  extract_lets y0 y1
  clear_value y0
  refine Inv.cut (Q := paramsWf) (s := y1) ?_ fun h30 => ?_
  · unfold y1
    refine Inv.foldl (Q := paramsWf) ?_ fun x31 a32 h33 => ?_
    · exact h
    · exact paramsWf.keep (updCleat_keeps _ _ _) (by rfl) h33
  clear_value y1
  exact cleatWatch_par _ (serveRetire_par _ _ (servePendings_par _ _ h30))

theorem freeCleat_par (s : State) (e : Nat) (h : paramsWf s) :
    paramsWf (freeCleat s e) := by
  unfold freeCleat
  refine Inv.ite (Q := paramsWf) ?_ ?_
  · exact freeCleats_par _ _ h
  · exact h

/-! ### Machine/StrOps.lean -/

theorem busyAdd_par (s : State) (n : Nat) (a : Nat) (b : Nat) (h : paramsWf s) :
    paramsWf (busyAdd s n a b) := by
  unfold busyAdd
  extract_lets y0 y1 y2 y3 y4 y5 y6
  clear_value y0 y1 y2 y3 y5
  refine Inv.cut (Q := paramsWf) (s := y4) ?_ fun h30 => ?_
  · unfold y4
    refine Inv.ite (Q := paramsWf) ?_ ?_
    · exact putN_par _ _ _ _ h
    · exact h
  clear_value y4
  refine Inv.cut (Q := paramsWf) (s := y6) ?_ fun h31 => ?_
  · unfold y6
    exact putN_par _ _ _ _ h30
  clear_value y6
  refine Inv.ite (Q := paramsWf) ?_ ?_
  · exact paramsWf.keep (updStrand_keeps _ _ _) (by rfl) h30
  · exact paramsWf.keep (updStrand_keeps _ _ _) (by rfl) h31

theorem releaseStrand_par (s : State) (n : Nat) (h : paramsWf s) :
    paramsWf (releaseStrand s n) := by
  unfold releaseStrand
  exact traceLater_par _ _ _ _ _ _ _ _ (paramsWf.keep (updStrand_keeps _ _ _) (by rfl) h)

theorem traceTask_par (s : State) (code : Nat) (slot : Nat) (t : Task) (strand : Nat) (h : paramsWf s) :
    paramsWf (traceTask s code slot t strand) := by
  unfold traceTask
  exact traceEvent_par _ _ _ _ _ _ _ h

theorem unseat_par (s : State) (i : Nat) (h : paramsWf s) :
    paramsWf (unseat s i) := by
  unfold unseat
  extract_lets y0
  clear_value y0
  refine Inv.ite (Q := paramsWf) ?_ ?_
  · exact releaseStrand_par _ _ (busyAdd_par _ _ _ _ h)
  · exact h

theorem placeOn_par (s : State) (i : Nat) (n : Nat) (h : paramsWf s) :
    paramsWf (placeOn s i n) := by
  unfold placeOn
  extract_lets y0 y1 y2 y3 y4 y5 y6
  clear_value y0 y1 y3
  refine Inv.cut (Q := paramsWf) (s := y2) ?_ fun h30 => ?_
  · unfold y2
    refine Inv.ite (Q := paramsWf) ?_ ?_
    · exact traceEvent_par _ _ _ _ _ _ _ h
    · exact paramsWf.keep (gateDrop_keeps _ _) (by rfl) h
  clear_value y2
  refine Inv.cut (Q := paramsWf) (s := y4) ?_ fun h31 => ?_
  · unfold y4
    exact paramsWf.keep (updTask_keeps _ _ _) (by rfl) h30
  clear_value y4
  refine Inv.cut (Q := paramsWf) (s := y5) ?_ fun h32 => ?_
  · unfold y5
    exact paramsWf.keep (updStrand_keeps _ _ _) (by rfl) (paramsWf.eq (s := y4) rfl h31)
  clear_value y5
  refine Inv.cut (Q := paramsWf) (s := y6) ?_ fun h33 => ?_
  · unfold y6
    exact maxP_par _ _ _ _ h32
  clear_value y6
  refine Inv.ite (Q := paramsWf) ?_ ?_
  · exact traceLater_par _ _ _ _ _ _ _ _ h33
  · exact traceTask_par _ _ _ _ _ h33

theorem placeTasks_par (s : State) (h : paramsWf s) :
    paramsWf (placeTasks s) := by
  unfold placeTasks
  refine Inv.foldl (Q := paramsWf) ?_ fun x0 a1 h2 => ?_
  · exact h
  · exact placeOn_par _ _ _ h2

theorem readyTask_par (s : State) (i : Nat) (h : paramsWf s) :
    paramsWf (readyTask s i) := by
  unfold readyTask
  extract_lets y0 y1
  refine Inv.cut (Q := paramsWf) (s := y0) ?_ fun h30 => ?_
  · unfold y0
    exact paramsWf.keep (updTask_keeps _ _ _) (by rfl) h
  clear_value y0
  refine Inv.cut (Q := paramsWf) (s := y1) ?_ fun h31 => ?_
  · unfold y1
    exact traceTask_par _ _ _ _ _ h30
  clear_value y1
  exact maxP_par _ _ _ _ h31

theorem seatTask_par (s : State) (i : Nat) (t : Task) (h : paramsWf s) :
    paramsWf (seatTask s i t) := by
  unfold seatTask
  extract_lets y0 y1
  refine Inv.cut (Q := paramsWf) (s := y0) ?_ fun h30 => ?_
  · unfold y0
    exact paramsWf.keep (updTask_keeps _ _ _) (by rfl) h
  clear_value y0
  refine Inv.cut (Q := paramsWf) (s := y1) ?_ fun h31 => ?_
  · unfold y1
    exact maxP_par _ _ _ _ h30
  clear_value y1
  refine Inv.ite (Q := paramsWf) ?_ ?_
  · exact readyTask_par _ _ h31
  · exact h31

theorem seatWaiting_par (s : State) (h : paramsWf s) :
    paramsWf (seatWaiting s) := by
  unfold seatWaiting
  extract_lets y0
  split
  · exact h
  · split
    · exact h
    · exact seatTask_par _ _ _ (paramsWf.eq (s := s) rfl h)

theorem createSlot_par (s : State) (t : Task) (h : paramsWf s) :
    paramsWf (createSlot s t).1 := by
  unfold createSlot
  extract_lets y0
  split
  · dsimp only
    exact seatTask_par _ _ _ h
  · dsimp only
    exact paramsWf.eq (s := s) rfl h

theorem createTask_par (s : State) (t : Task) (h : paramsWf s) :
    paramsWf (createTask s t) := by
  unfold createTask
  exact createSlot_par _ _ h

theorem decTask_par (s : State) (i : Nat) (h : paramsWf s) :
    paramsWf (decTask s i) := by
  unfold decTask
  extract_lets y0 y1 y2
  clear_value y0
  refine Inv.cut (Q := paramsWf) (s := y2) ?_ fun h30 => ?_
  · unfold y2
    exact paramsWf.keep (updTask_keeps _ _ _) (by rfl) h
  clear_value y2
  refine Inv.ite (Q := paramsWf) ?_ ?_
  · exact paramsWf.eq (s := s) rfl h
  · refine Inv.ite (Q := paramsWf) ?_ ?_
    · refine Inv.ite (Q := paramsWf) ?_ ?_
      · exact readyTask_par _ _ h30
      · exact h30
    · exact h

theorem dropTasks_par (s : State) (p : Task → Bool) (h : paramsWf s) :
    paramsWf (dropTasks s p) := by
  unfold dropTasks
  extract_lets y0 y1 y2 y3
  clear_value y0
  refine Inv.cut (Q := paramsWf) (s := y2) ?_ fun h30 => ?_
  · unfold y2
    exact paramsWf.eq (s := s) rfl h
  clear_value y2
  refine Inv.cut (Q := paramsWf) (s := y3) ?_ fun h31 => ?_
  · unfold y3
    refine Inv.foldl (Q := paramsWf) ?_ fun x32 a33 h34 => ?_
    · exact h30
    · exact paramsWf.keep (updTask_keeps _ _ _) (by rfl) (unseat_par _ _ h34)
  clear_value y3
  refine Inv.foldl (Q := paramsWf) ?_ fun x35 a36 h37 => ?_
  · exact h31
  · exact seatWaiting_par _ h37

theorem freeTask_par (s : State) (i : Nat) (h : paramsWf s) :
    paramsWf (freeTask s i) := by
  unfold freeTask
  exact seatWaiting_par _ (paramsWf.keep (updTask_keeps _ _ _) (by rfl) h)

theorem cancelSucc_par (a : Nat) (a' : State) (a'' : List (Nat × Bool)) (h : paramsWf a') :
    paramsWf (cancelSucc a a' a'') := by
  induction a generalizing a' a'' with
  | zero => exact h
  | succ n ih =>
    unfold cancelSucc
    refine Inv.foldl (Q := paramsWf) h fun x p h => ?_
    dsimp only
    split
    · exact (decTask_par _ _ h)
    · split
      · exact ih _ _ (paramsWf.eq (s := x) rfl h)
      · split
        · exact ih _ _ (freeTask_par _ _ (traceTask_par _ _ _ _ _ h))
        · exact h

theorem abandonTask_par (s : State) (i : Nat) (h : paramsWf s) :
    paramsWf (abandonTask s i) := by
  unfold abandonTask
  extract_lets y0 y1 y2 y3 y4
  clear_value y0
  refine Inv.cut (Q := paramsWf) (s := y1) ?_ fun h30 => ?_
  · unfold y1
    exact traceTask_par _ _ _ _ _ h
  clear_value y1
  refine Inv.cut (Q := paramsWf) (s := y2) ?_ fun h31 => ?_
  · unfold y2
    exact unseat_par _ _ h30
  clear_value y2
  refine Inv.cut (Q := paramsWf) (s := y3) ?_ fun h32 => ?_
  · unfold y3
    exact freeTask_par _ _ h31
  clear_value y3
  refine Inv.cut (Q := paramsWf) (s := y4) ?_ fun h33 => ?_
  · unfold y4
    exact incP_par _ _ _ h32
  clear_value y4
  refine Inv.ite (Q := paramsWf) ?_ ?_
  · exact h
  · exact cancelSucc_par _ _ _ h33

theorem stopTask_par (s : State) (n : Nat) (info : Nat) (h : paramsWf s) :
    paramsWf (stopTask s n info) := by
  unfold stopTask
  split
  · exact h
  · extract_lets y30 y31 y32 y33 y34
    clear_value y30
    refine Inv.cut (Q := paramsWf) (s := y31) ?_ fun h60 => ?_
    · unfold y31
      exact traceEvent_par _ _ _ _ _ _ _ h
    clear_value y31
    refine Inv.cut (Q := paramsWf) (s := y32) ?_ fun h61 => ?_
    · unfold y32
      exact busyAdd_par _ _ _ _ h60
    clear_value y32
    refine Inv.cut (Q := paramsWf) (s := y33) ?_ fun h62 => ?_
    · unfold y33
      exact paramsWf.keep (updStrand_keeps _ _ _) (by rfl) h61
    clear_value y33
    refine Inv.cut (Q := paramsWf) (s := y34) ?_ fun h63 => ?_
    · unfold y34
      exact raiseFault_par _ _ _ h62
    clear_value y34
    refine Inv.ite (Q := paramsWf) ?_ ?_
    · exact abandonTask_par _ _ (paramsWf.keep (updTask_keeps _ _ _) (by rfl) h63)
    · exact readyTask_par _ _ (paramsWf.keep (updTask_keeps _ _ _) (by rfl) h63)

/-! ### Machine/TallyCore.lean -/

theorem setDigest_par (s : State) (code : Nat) (w : Word) (h : paramsWf s) :
    paramsWf (setDigest s code w) := by
  unfold setDigest
  extract_lets y0
  refine Inv.cut (Q := paramsWf) (s := y0) ?_ fun h30 => ?_
  · unfold y0
    refine Inv.ite (Q := paramsWf) ?_ ?_
    · exact paramsWf.keep (updCell_keeps _ _ _) (by rfl) (putP_par _ _ _ _ h)
    · exact paramsWf.keep (updLane_keeps _ _ _) (by rfl) (putP_par _ _ _ _ h)
  clear_value y0
  exact paramsWf.keep (tallyFollow_keeps _ _) (by rfl) h30

theorem tallyCompute_par (s : State) (h : paramsWf s) :
    paramsWf (tallyCompute s) := by
  have k : ∀ x : State, paramsWf x → paramsWf (putP x P.TALLY_CONVERTER 0 (crcWords (tallyIndices.map (fun b => getP
        x P.TALLY_BLOCK b)))) :=
    fun x hx => putP_par _ _ _ _ hx
  have w : ∀ x : State, paramsWf x → paramsWf (tallyWatch { x with tally := { x.tally with stale := false } }) :=
    fun x hx => paramsWf.keep (tallyWatch_keeps _) (by rfl) (paramsWf.eq (s := x) rfl hx)
  refine w _ (k _ (Inv.foldl (Q := paramsWf) h fun x p hx => ?_))
  exact Inv.ite (Q := paramsWf) hx (putP_par _ _ _ _ hx)

theorem tallyStale_par (s : State) (h : paramsWf s) :
    paramsWf (tallyStale s) := by
  unfold tallyStale
  extract_lets y0 y1 y2
  refine Inv.cut (Q := paramsWf) (s := y1) ?_ fun h30 => ?_
  · unfold y1
    exact paramsWf.eq (s := s) rfl h
  clear_value y1
  refine Inv.ite (Q := paramsWf) ?_ ?_
  · exact h30
  · exact createTask_par _ _ h30

theorem tallyTouch_par (s : State) (id : Nat) (h : paramsWf s) :
    paramsWf (tallyTouch s id) := by
  unfold tallyTouch
  split
  · refine Inv.ite (Q := paramsWf) ?_ ?_
    · exact tallyStale_par _ h
    · exact h
  · exact h

/-! ### Machine/LaneOps.lean -/

theorem txnOk_par (s : State) (l : Nat) (t : Txn) (w : Word) (h : paramsWf s) :
    paramsWf (txnOk s l t w) := by
  unfold txnOk
  extract_lets y0 y1 y2 y3
  clear_value y1 y2
  refine Inv.cut (Q := paramsWf) (s := y0) ?_ fun h30 => ?_
  · unfold y0
    exact paramsWf.keep (causeGone_keeps _ _ _) (by rfl) h
  clear_value y0
  refine Inv.cut (Q := paramsWf) (s := y3) ?_ fun h31 => ?_
  · unfold y3
    refine Inv.ite (Q := paramsWf) ?_ ?_
    · exact setDigest_par _ _ _ h30
    · exact h30
  clear_value y3
  refine Inv.ite (Q := paramsWf) ?_ ?_
  · refine Inv.ite (Q := paramsWf) ?_ ?_
    · exact paramsWf.keep (updCell_keeps _ _ _) (by rfl) h30
    · exact h30
  · refine Inv.ite (Q := paramsWf) ?_ ?_
    · exact paramsWf.keep (idReply_keeps _ _ _ _) (by rfl) h30
    · refine Inv.ite (Q := paramsWf) ?_ ?_
      · refine Inv.ite (Q := paramsWf) ?_ ?_
        · exact paramsWf.keep (ownSettle_keeps _ _) (by rfl) h31
        · exact h31
      · refine Inv.ite (Q := paramsWf) ?_ ?_
        · exact putP_par _ _ _ _ h30
        · refine Inv.ite (Q := paramsWf) ?_ ?_
          · exact paramsWf.keep (ownSettle_keeps _ _) (by rfl) h30
          · exact h30

theorem applyLaneGroup_par (s : State) (l : Nat) (h : paramsWf s) :
    paramsWf (applyLaneGroup s l) := by
  unfold applyLaneGroup
  extract_lets y0 y1
  clear_value y0
  refine Inv.cut (Q := paramsWf) (s := y1) ?_ fun h30 => ?_
  · unfold y1
    refine Inv.foldl (Q := paramsWf) ?_ fun x61 a62 h63 => ?_
    · exact h
    · split
      · extract_lets y94
        refine Inv.cut (Q := paramsWf) (s := y94) ?_ fun h124 => ?_
        · unfold y94
          exact putP_par _ _ _ _ h63
        clear_value y94
        exact paramsWf.eq (s := y94) rfl h124
      · exact h63
  clear_value y1
  refine Inv.ite (Q := paramsWf) ?_ ?_
  · exact tallyStale_par _ (paramsWf.eq (s := y1) rfl h30)
  · exact h

theorem bringupOk_par (s : State) (l : Nat) (h : paramsWf s) :
    paramsWf (bringupOk s l) := by
  unfold bringupOk
  split
  · exact completeOk_par _ _ _ h
  · exact h

theorem endScan_par (s : State) (l : Nat) (h : paramsWf s) :
    paramsWf (endScan s l) := by
  unfold endScan
  split
  · extract_lets y30
    refine Inv.cut (Q := paramsWf) (s := y30) ?_ fun h60 => ?_
    · unfold y30
      exact paramsWf.keep (eyeStore_keeps _ _ _ _ _) (by rfl) h
    clear_value y30
    exact completeErr_par _ _ _ (paramsWf.eq (s := y30) rfl h60)
  · exact h

theorem presenceCheck_par (s : State) (l : Nat) (h : paramsWf s) :
    paramsWf (presenceCheck s l) := by
  unfold presenceCheck
  extract_lets y0
  clear_value y0
  refine Inv.ite (Q := paramsWf) ?_ ?_
  · exact paramsWf.keep (updLane_keeps _ _ _) (by rfl) (raiseFault_par _ _ _ h)
  · exact h

theorem txnFail_par (s : State) (l : Nat) (t : Txn) (h : paramsWf s) :
    paramsWf (txnFail s l t) := by
  unfold txnFail
  extract_lets y0
  refine Inv.cut (Q := paramsWf) (s := y0) ?_ fun h30 => ?_
  · unfold y0
    exact paramsWf.keep (updLane_keeps _ _ _) (by rfl) h
  clear_value y0
  refine Inv.ite (Q := paramsWf) ?_ ?_
  · refine Inv.ite (Q := paramsWf) ?_ ?_
    · exact permFailed_par _ _ h30
    · exact h30
  · refine Inv.ite (Q := paramsWf) ?_ ?_
    · exact paramsWf.keep (recordDone_keeps _ _ _ _ _) (by rfl) (paramsWf.keep (updLane_keeps _ _ _) (by rfl) h)
    · refine Inv.ite (Q := paramsWf) ?_ ?_
      · exact paramsWf.keep (setCfgFail_keeps _ _ _) (by rfl) (paramsWf.keep (updLane_keeps _ _ _) (by rfl) h)
      · exact h

theorem txnLost_par (s : State) (l : Nat) (t : Txn) (h : paramsWf s) :
    paramsWf (txnLost s l t) := by
  unfold txnLost
  extract_lets y0 y1 y2
  refine Inv.cut (Q := paramsWf) (s := y0) ?_ fun h30 => ?_
  · unfold y0
    exact paramsWf.keep (txnDrop_keeps _ _ _) (by rfl) h
  clear_value y0
  refine Inv.cut (Q := paramsWf) (s := y1) ?_ fun h31 => ?_
  · unfold y1
    exact raiseFault_par _ _ _ (incP_par _ _ _ h30)
  clear_value y1
  refine Inv.cut (Q := paramsWf) (s := y2) ?_ fun h32 => ?_
  · unfold y2
    refine Inv.ite (Q := paramsWf) ?_ ?_
    · exact paramsWf.keep (updLane_keeps _ _ _) (by rfl) h31
    · exact h31
  clear_value y2
  exact txnFail_par _ _ _ h32

theorem txnMissing_par (s : State) (l : Nat) (t : Txn) (h : paramsWf s) :
    paramsWf (txnMissing s l t) := by
  unfold txnMissing
  refine Inv.ite (Q := paramsWf) ?_ ?_
  · exact paramsWf.keep (updLane_keeps _ _ _) (by rfl) h
  · exact txnLost_par _ _ _ h

theorem enterActive_par (s : State) (l : Nat) (gen : Nat) (h : paramsWf s) :
    paramsWf (enterActive s l gen) := by
  unfold enterActive
  extract_lets y0 y1 y2 y3 y4 y5 y6 y7
  clear_value y0 y1
  refine Inv.cut (Q := paramsWf) (s := y2) ?_ fun h30 => ?_
  · unfold y2
    exact paramsWf.keep (updLane_keeps _ _ _) (by rfl) h
  clear_value y2
  refine Inv.cut (Q := paramsWf) (s := y3) ?_ fun h31 => ?_
  · unfold y3
    exact putN_par _ _ _ _ (paramsWf.keep (closeRetry_keeps _ _) (by rfl) h30)
  clear_value y3
  refine Inv.cut (Q := paramsWf) (s := y4) ?_ fun h32 => ?_
  · unfold y4
    exact paramsWf.keep (causeGone_keeps _ _ _) (by rfl) h31
  clear_value y4
  refine Inv.cut (Q := paramsWf) (s := y5) ?_ fun h33 => ?_
  · unfold y5
    exact orP_par _ _ _ _ h32
  clear_value y5
  refine Inv.cut (Q := paramsWf) (s := y6) ?_ fun h34 => ?_
  · unfold y6
    refine Inv.foldl (Q := paramsWf) ?_ fun x35 a36 h37 => ?_
    · exact h33
    · refine Inv.ite (Q := paramsWf) ?_ ?_
      · exact paramsWf.keep (updCell_keeps _ _ _) (by rfl) h37
      · exact h37
  clear_value y6
  refine Inv.cut (Q := paramsWf) (s := y7) ?_ fun h38 => ?_
  · unfold y7
    refine Inv.ite (Q := paramsWf) ?_ ?_
    · exact ledgerWatch_par _ (presenceCheck_par _ _ (paramsWf.keep (queueOwn_keeps _ _) (by rfl) h34))
    · exact h32
  clear_value y7
  exact bringupOk_par _ _ h38

theorem failLaneTxns_par (s : State) (l : Nat) (h : paramsWf s) :
    paramsWf (failLaneTxns s l) := by
  unfold failLaneTxns
  extract_lets y0 y1 y2
  clear_value y0
  refine Inv.cut (Q := paramsWf) (s := y1) ?_ fun h30 => ?_
  · unfold y1
    exact paramsWf.keep (updLane_keeps _ _ _) (by rfl) h
  clear_value y1
  refine Inv.cut (Q := paramsWf) (s := y2) ?_ fun h31 => ?_
  · unfold y2
    refine Inv.foldl (Q := paramsWf) ?_ fun x32 a33 h34 => ?_
    · exact h30
    · refine Inv.ite (Q := paramsWf) ?_ ?_
      · exact h34
      · exact txnFail_par _ _ _ h34
  clear_value y2
  refine Inv.ite (Q := paramsWf) ?_ ?_
  · refine Inv.foldl (Q := paramsWf) ?_ fun x35 a36 h37 => ?_
    · exact h31
    · exact paramsWf.keep (storeRecord_keeps _ _ _ _ _) (by rfl) h37
  · exact h31

theorem frameMissing_par (s : State) (l : Nat) (k : Nat) (h : paramsWf s) :
    paramsWf (frameMissing s l k) := by
  unfold frameMissing
  split
  · exact txnMissing_par _ _ _ h
  · exact h

theorem leaveActive_par (s : State) (l : Nat) (h : paramsWf s) :
    paramsWf (leaveActive s l) := by
  unfold leaveActive
  extract_lets y0 y1
  refine Inv.cut (Q := paramsWf) (s := y0) ?_ fun h30 => ?_
  · unfold y0
    exact paramsWf.keep (updLane_keeps _ _ _) (by rfl) h
  clear_value y0
  refine Inv.cut (Q := paramsWf) (s := y1) ?_ fun h31 => ?_
  · unfold y1
    exact failLaneTxns_par _ _ (paramsWf.keep (blockLaneCells_keeps _ _) (by rfl) h30)
  clear_value y1
  refine Inv.ite (Q := paramsWf) ?_ ?_
  · exact paramsWf.keep (tallyFollow_keeps _ _) (by rfl) (ledgerWatch_par _ (endScan_par _ _ h31))
  · exact endScan_par _ _ h30

theorem laneTo_par (s : State) (l : Nat) (st : LaneSt) (h : paramsWf s) :
    paramsWf (laneTo s l st) := by
  unfold laneTo
  extract_lets y0 y1
  clear_value y0
  refine Inv.cut (Q := paramsWf) (s := y1) ?_ fun h30 => ?_
  · unfold y1
    exact paramsWf.keep (updLane_keeps _ _ _) (by rfl) h
  clear_value y1
  refine Inv.ite (Q := paramsWf) ?_ ?_
  · exact leaveActive_par _ _ h30
  · exact h30

theorem retireLane_par (s : State) (l : Nat) (h : paramsWf s) :
    paramsWf (retireLane s l) := by
  unfold retireLane
  extract_lets y0 y1
  refine Inv.cut (Q := paramsWf) (s := y0) ?_ fun h30 => ?_
  · unfold y0
    exact laneTo_par _ _ _ (paramsWf.keep (closeRetry_keeps _ _) (by rfl) h)
  clear_value y0
  refine Inv.cut (Q := paramsWf) (s := y1) ?_ fun h31 => ?_
  · unfold y1
    exact paramsWf.keep (updLane_keeps _ _ _) (by rfl) h30
  clear_value y1
  exact raiseFault_par _ _ _ h31

theorem retryFailed_par (s : State) (l : Nat) (h : paramsWf s) :
    paramsWf (retryFailed s l) := by
  unfold retryFailed
  extract_lets y0 y1 y2
  clear_value y0 y1 y2
  refine Inv.ite (Q := paramsWf) ?_ ?_
  · exact retireLane_par _ _ (paramsWf.keep (updLane_keeps _ _ _) (by rfl) h)
  · exact paramsWf.keep (updLane_keeps _ _ _) (by rfl) h

theorem bringupFail_par (s : State) (l : Nat) (cause : Nat) (e : LongOp → CmdErr) (h : paramsWf s) :
    paramsWf (bringupFail s l cause e) := by
  unfold bringupFail
  extract_lets y0 y1 y2
  clear_value y0
  refine Inv.cut (Q := paramsWf) (s := y1) ?_ fun h30 => ?_
  · unfold y1
    exact putN_par _ _ _ _ h
  clear_value y1
  refine Inv.cut (Q := paramsWf) (s := y2) ?_ fun h31 => ?_
  · unfold y2
    exact paramsWf.keep (updLane_keeps _ _ _) (by rfl) h30
  clear_value y2
  refine Inv.ite (Q := paramsWf) ?_ ?_
  · exact retryFailed_par _ _ h30
  · split
    · exact completeErr_par _ _ _ h31
    · exact h31

theorem enterStage_par (s : State) (l : Nat) (st : LaneSt) (pass2 : Bool) (h : paramsWf s) :
    paramsWf (enterStage s l st pass2) := by
  unfold enterStage
  exact paramsWf.keep (updLane_keeps _ _ _) (by rfl) (laneTo_par _ _ _ h)

theorem laneError_par (s : State) (l : Nat) (h : paramsWf s) :
    paramsWf (laneError s l) := by
  unfold laneError
  extract_lets y0 y1 y2
  clear_value y0
  refine Inv.cut (Q := paramsWf) (s := y1) ?_ fun h30 => ?_
  · unfold y1
    exact incP_par _ _ _ (putN_par _ _ _ _ h)
  clear_value y1
  refine Inv.cut (Q := paramsWf) (s := y2) ?_ fun h31 => ?_
  · unfold y2
    refine Inv.ite (Q := paramsWf) ?_ ?_
    · exact raiseFault_par _ _ _ h30
    · exact h30
  clear_value y2
  refine Inv.ite (Q := paramsWf) ?_ ?_
  · exact retireLane_par _ _ h31
  · exact h31

theorem laneErrors_par (a : Nat) (a' : State) (a'' : Nat) (h : paramsWf a') :
    paramsWf (laneErrors a a' a'') := by
  induction a generalizing a' with
  | zero => exact h
  | succ n ih => exact ih _ (laneError_par _ _ h)

theorem laneOff_par (s : State) (l : Nat) (h : paramsWf s) :
    paramsWf (laneOff s l) := by
  unfold laneOff
  extract_lets y0
  refine Inv.cut (Q := paramsWf) (s := y0) ?_ fun h30 => ?_
  · unfold y0
    exact paramsWf.keep (closeRetry_keeps _ _) (by rfl) (laneTo_par _ _ _ h)
  clear_value y0
  exact paramsWf.keep (updLane_keeps _ _ _) (by rfl) h30

theorem startBringup_par (s : State) (l : Nat) (auto : Bool) (h : paramsWf s) :
    paramsWf (startBringup s l auto) := by
  unfold startBringup
  extract_lets y0 y1
  refine Inv.cut (Q := paramsWf) (s := y0) ?_ fun h30 => ?_
  · unfold y0
    exact applyLaneGroup_par _ _ h
  clear_value y0
  refine Inv.cut (Q := paramsWf) (s := y1) ?_ fun h31 => ?_
  · unfold y1
    exact enterStage_par _ _ _ _ h30
  clear_value y1
  exact paramsWf.keep (updLane_keeps _ _ _) (by rfl) h31

/-! ### Machine/Groups.lean -/

theorem applyGroup_par (s : State) (code : Nat) (t : Nat) (h : paramsWf s) :
    paramsWf (applyGroup s code t) := by
  unfold applyGroup
  extract_lets y0
  refine Inv.cut (Q := paramsWf) (s := y0) ?_ fun h30 => ?_
  · unfold y0
    refine Inv.foldl (Q := paramsWf) ?_ fun x31 a32 h33 => ?_
    · exact h
    · split
      · exact putP_par _ _ _ _ h33
      · exact h33
  clear_value y0
  exact tallyStale_par _ (paramsWf.keep (dropGroup_keeps _ _ _) (by rfl) h30)

/-! ### Machine/TrajOps.lean -/

theorem genReport_par (s : State) (n : Nat) (h : paramsWf s) :
    paramsWf (genReport s n) := by
  unfold genReport
  extract_lets y0 y1 y2 y3 y4
  clear_value y0 y1 y2 y3
  refine Inv.cut (Q := paramsWf) (s := y4) ?_ fun h30 => ?_
  · unfold y4
    exact paramsWf.eq (s := s) rfl h
  clear_value y4
  refine Inv.ite (Q := paramsWf) ?_ ?_
  · exact putI_par _ _ _ _ (putI_par _ _ _ _ (putFit_par _ _ _ _ h))
  · exact putFit_par _ _ _ _ (putFit_par _ _ _ _ (putFit_par _ _ _ _ h30))

theorem syncGen_par (s : State) (n : Nat) (h : paramsWf s) :
    paramsWf (syncGen s n) := by
  unfold syncGen
  extract_lets y0
  clear_value y0
  exact addP_par _ _ _ _ (paramsWf.keep (updGen_keeps _ _ _) (by rfl) h)

theorem trajAdvance_par (s : State) (h : paramsWf s) :
    paramsWf (trajAdvance s) := by
  unfold trajAdvance
  refine Inv.foldl (Q := paramsWf) ?_ fun x30 a31 h32 => ?_
  · exact h
  · extract_lets y33
    clear_value y33
    exact genReport_par _ _ (addP_par _ _ _ _ (paramsWf.keep (updGen_keeps _ _ _) (by rfl) h32))

theorem trajPresetSet_par (s : State) (n : Nat) (x : Int) (h : paramsWf s) :
    paramsWf (trajPresetSet s n x) := by
  unfold trajPresetSet
  extract_lets y0 y1
  refine Inv.cut (Q := paramsWf) (s := y0) ?_ fun h30 => ?_
  · unfold y0
    exact syncGen_par _ _ h
  clear_value y0
  refine Inv.cut (Q := paramsWf) (s := y1) ?_ fun h31 => ?_
  · unfold y1
    exact putI_par _ _ _ _ (putI_par _ _ _ _ (putI_par _ _ _ _ h30))
  clear_value y1
  refine Inv.ite (Q := paramsWf) ?_ ?_
  · exact paramsWf.keep (updGen_keeps _ _ _) (by rfl) h31
  · exact h

theorem genFlush_par (s : State) (n : Nat) (h : paramsWf s) :
    paramsWf (genFlush s n) := by
  unfold genFlush
  extract_lets y0
  refine Inv.cut (Q := paramsWf) (s := y0) ?_ fun h30 => ?_
  · unfold y0
    exact syncGen_par _ _ h
  clear_value y0
  exact paramsWf.keep (updGen_keeps _ _ _) (by rfl) h30

theorem genReplace_par (s : State) (n : Nat) (m : TrajMove) (h : paramsWf s) :
    paramsWf (genReplace s n m) := by
  unfold genReplace
  extract_lets y0
  refine Inv.cut (Q := paramsWf) (s := y0) ?_ fun h30 => ?_
  · unfold y0
    exact syncGen_par _ _ h
  clear_value y0
  exact paramsWf.keep (updGen_keeps _ _ _) (by rfl) h30

theorem genStop_par (s : State) (n : Nat) (h : paramsWf s) :
    paramsWf (genStop s n) := by
  unfold genStop
  extract_lets y0 y1
  clear_value y1
  refine Inv.cut (Q := paramsWf) (s := y0) ?_ fun h30 => ?_
  · unfold y0
    exact syncGen_par _ _ h
  clear_value y0
  exact paramsWf.keep (updGen_keeps _ _ _) (by rfl) h30

theorem trajFlushBody_par (c : Cmd) (s : State) (h : paramsWf s) :
    ResInv paramsWf (trajFlushBody c s) := by
  unfold trajFlushBody
  extract_lets y0
  clear_value y0
  refine ResInv.check ?_
  refine ResInv.done ?_
  refine Inv.ite (Q := paramsWf) ?_ ?_
  · exact genStop_par _ _ h
  · exact genFlush_par _ _ h

theorem trajQueueBody_par (c : Cmd) (s : State) (h : paramsWf s) :
    ResInv paramsWf (trajQueueBody c s) := by
  unfold trajQueueBody
  extract_lets y0 y1 y2 y3 y4
  clear_value y0 y2 y3 y4
  refine ResInv.check ?_
  refine ResInv.done ?_
  refine Inv.ite (Q := paramsWf) ?_ ?_
  · exact genReplace_par _ _ _ h
  · exact paramsWf.keep (updGen_keeps _ _ _) (by rfl) (syncGen_par _ _ h)

theorem execTrajFlush_par (c : Cmd) (s : State) (h : paramsWf s) :
    OutInv paramsWf (execTrajFlush c s) := by
  unfold execTrajFlush
  refine OutInv.ends reelObserve_par ?_
  refine Inv.runCmd (Q := paramsWf) goodPacket_par answer_par ?_ fun x0 _ h1 => ?_
  · exact h
  · exact trajFlushBody_par _ _ h1

theorem execTrajQueue_par (c : Cmd) (s : State) (h : paramsWf s) :
    OutInv paramsWf (execTrajQueue c s) := by
  unfold execTrajQueue
  refine OutInv.ends reelObserve_par ?_
  refine Inv.runCmd (Q := paramsWf) goodPacket_par answer_par ?_ fun x0 _ h1 => ?_
  · exact h
  · exact trajQueueBody_par _ _ h1

/-! ### Machine/Encoder.lean -/

theorem encCount_par (s : State) (n : Nat) (d : Int) (h : paramsWf s) :
    paramsWf (encCount s n d) := by
  unfold encCount
  extract_lets y0 y1 y2 y3 y4 y5
  clear_value y0 y1 y2 y3
  refine Inv.cut (Q := paramsWf) (s := y4) ?_ fun h30 => ?_
  · unfold y4
    exact putFit_par _ _ _ _ h
  clear_value y4
  refine Inv.cut (Q := paramsWf) (s := y5) ?_ fun h31 => ?_
  · unfold y5
    refine Inv.ite (Q := paramsWf) ?_ ?_
    · exact putFit_par _ _ _ _ h30
    · exact h30
  clear_value y5
  exact paramsWf.keep (updEnc_keeps _ _ _) (by rfl) h31

theorem encLatch_par (s : State) (n : Nat) (ev : Nat) (back : Nat) (h : paramsWf s) :
    paramsWf (encLatch s n ev back) := by
  unfold encLatch
  extract_lets y0 y1 y2 y3 y4 y5
  clear_value y0 y1
  refine Inv.cut (Q := paramsWf) (s := y2) ?_ fun h30 => ?_
  · unfold y2
    exact putI_par _ _ _ _ h
  clear_value y2
  refine Inv.cut (Q := paramsWf) (s := y3) ?_ fun h31 => ?_
  · unfold y3
    exact put64_par _ _ _ _ _ h30
  clear_value y3
  refine Inv.cut (Q := paramsWf) (s := y4) ?_ fun h32 => ?_
  · unfold y4
    exact putN_par _ _ _ _ h31
  clear_value y4
  refine Inv.cut (Q := paramsWf) (s := y5) ?_ fun h33 => ?_
  · unfold y5
    exact putN_par _ _ _ _ h32
  clear_value y5
  refine Inv.ite (Q := paramsWf) ?_ ?_
  · exact h
  · refine Inv.ite (Q := paramsWf) ?_ ?_
    · exact paramsWf.keep (updEnc_keeps _ _ _) (by rfl) h33
    · refine Inv.ite (Q := paramsWf) ?_ ?_
      · exact orP_par _ _ _ _ h
      · exact h

theorem encMark_par (s : State) (n : Nat) (h : paramsWf s) :
    paramsWf (encMark s n) := by
  unfold encMark
  extract_lets y0 y1 y2
  clear_value y1 y2
  refine Inv.cut (Q := paramsWf) (s := y0) ?_ fun h30 => ?_
  · unfold y0
    exact paramsWf.keep (updEnc_keeps _ _ _) (by rfl) h
  clear_value y0
  refine Inv.ite (Q := paramsWf) ?_ ?_
  · exact putFit_par _ _ _ _ h30
  · exact putFit_par _ _ _ _ (paramsWf.eq (s := y0) rfl h30)

theorem encShift_par (s : State) (n : Nat) (d : Int) (h : paramsWf s) :
    paramsWf (encShift s n d) := by
  unfold encShift
  extract_lets y0 y1
  clear_value y0
  refine Inv.cut (Q := paramsWf) (s := y1) ?_ fun h30 => ?_
  · unfold y1
    exact paramsWf.keep (updEnc_keeps _ _ _) (by rfl) h
  clear_value y1
  exact putFit_par _ _ _ _ (putFit_par _ _ _ _ h30)

theorem encTooth_par (s : State) (n : Nat) (a : Bool) (b : Bool) (h : paramsWf s) :
    paramsWf (encTooth s n a b).1 := by
  unfold encTooth
  extract_lets y0 y1 y2 y3 y4 y5 y6
  clear_value y0 y2 y4 y5 y6
  refine Inv.cut (Q := paramsWf) (s := y1) ?_ fun h30 => ?_
  · unfold y1
    exact paramsWf.keep (updEnc_keeps _ _ _) (by rfl) h
  clear_value y1
  refine Inv.cut (Q := paramsWf) (s := y3) ?_ fun h31 => ?_
  · unfold y3
    exact paramsWf.keep (updEnc_keeps _ _ _) (by rfl) h30
  clear_value y3
  split
  · dsimp only
    exact h30
  · split
    · dsimp only
      exact h31
    · split
      · dsimp only
        exact encCount_par _ _ _ h31
      · dsimp only
        exact encCount_par _ _ _ h31

theorem homeBack_par (s : State) (n : Nat) (u : HomeUndo) (h : paramsWf s) :
    paramsWf (homeBack s n u) := by
  unfold homeBack
  extract_lets y0 y1
  refine Inv.cut (Q := paramsWf) (s := y0) ?_ fun h30 => ?_
  · unfold y0
    exact putP_par _ _ _ _ (putP_par _ _ _ _ (putP_par _ _ _ _ h))
  clear_value y0
  refine Inv.cut (Q := paramsWf) (s := y1) ?_ fun h31 => ?_
  · unfold y1
    exact paramsWf.keep (updGen_keeps _ _ _) (by rfl) h30
  clear_value y1
  exact paramsWf.keep (updEnc_keeps _ _ _) (by rfl) h31

theorem homeLatch_par (s : State) (n : Nat) (home : Bool) (h : paramsWf s) :
    paramsWf (homeLatch s n home) := by
  unfold homeLatch
  refine Inv.ite (Q := paramsWf) ?_ ?_
  · exact encLatch_par _ _ _ _ h
  · exact h

theorem homeNote_par (s : State) (n : Nat) (home : Bool) (h : paramsWf s) :
    paramsWf (homeNote s n home) := by
  unfold homeNote
  extract_lets y0 y1
  clear_value y1
  refine Inv.cut (Q := paramsWf) (s := y0) ?_ fun h30 => ?_
  · unfold y0
    exact syncGen_par _ _ h
  clear_value y0
  refine Inv.ite (Q := paramsWf) ?_ ?_
  · exact h
  · exact paramsWf.keep (updEnc_keeps _ _ _) (by rfl) h30

theorem setEncFlag_par (s : State) (n : Nat) (b : Nat) (x : Bool) (h : paramsWf s) :
    paramsWf (setEncFlag s n b x) := by
  unfold setEncFlag
  refine Inv.ite (Q := paramsWf) ?_ ?_
  · exact h
  · exact putN_par _ _ _ _ h

theorem homeMove_par (s : State) (n : Nat) (neg : Bool) (h : paramsWf s) :
    paramsWf (homeMove s n neg) := by
  unfold homeMove
  extract_lets y0 y1 y2
  clear_value y0 y1 y2
  exact genReplace_par _ _ _ h

theorem homeStartBody_par (c : Cmd) (s : State) (h : paramsWf s) :
    ResInv paramsWf (homeStartBody c s) := by
  unfold homeStartBody
  extract_lets y0 y1 y2 y3 y4 y5 y6 y7 y8 y9
  clear_value y0 y1 y2 y3 y5 y6 y7 y8 y9
  refine ResInv.check ?_
  refine ResInv.accepted ?_ fun x90 h91 => ?_
  · exact paramsWf.keep (startOp_keeps _ _ _ _ _) (by rfl) h
  · extract_lets y92 y93 y94
    refine Inv.cut (Q := paramsWf) (s := y92) ?_ fun h122 => ?_
    · unfold y92
      exact paramsWf.keep (causeGone_keeps _ _ _) (by rfl) (syncGen_par _ _ h91)
    clear_value y92
    refine Inv.cut (Q := paramsWf) (s := y93) ?_ fun h123 => ?_
    · unfold y93
      exact paramsWf.keep (updGen_keeps _ _ _) (by rfl) h122
    clear_value y93
    refine Inv.cut (Q := paramsWf) (s := y94) ?_ fun h154 => ?_
    · unfold y94
      exact paramsWf.keep (updEnc_keeps _ _ _) (by rfl) h123
    clear_value y94
    exact homeMove_par _ _ _ h154

theorem homeStop_par (s : State) (n : Nat) (e : HomeEnd) (h : paramsWf s) :
    paramsWf (homeStop s n e) := by
  unfold homeStop
  exact paramsWf.keep (updEnc_keeps _ _ _) (by rfl) (genStop_par _ _ h)

theorem limRelease_par (s : State) (n : Nat) (neg : Bool) (h : paramsWf s) :
    paramsWf (limRelease s n neg) := by
  unfold limRelease
  extract_lets y0 y1 y2 y3
  clear_value y0 y1 y2
  refine Inv.cut (Q := paramsWf) (s := y3) ?_ fun h30 => ?_
  · unfold y3
    exact setEncFlag_par _ _ _ _ h
  clear_value y3
  refine Inv.ite (Q := paramsWf) ?_ ?_
  · refine Inv.ite (Q := paramsWf) ?_ ?_
    · exact h30
    · exact paramsWf.keep (causeGone_keeps _ _ _) (by rfl) h30
  · exact h

theorem limReleases_par (s : State) (n : Nat) (h : paramsWf s) :
    paramsWf (limReleases s n) := by
  unfold limReleases
  exact limRelease_par _ _ _ (limRelease_par _ _ _ h)

theorem encPresetSet_par (s : State) (n : Nat) (x : Int) (h : paramsWf s) :
    paramsWf (encPresetSet s n x) := by
  unfold encPresetSet
  extract_lets y0 y1
  refine Inv.cut (Q := paramsWf) (s := y0) ?_ fun h30 => ?_
  · unfold y0
    exact putI_par _ _ _ _ (putI_par _ _ _ _ h)
  clear_value y0
  refine Inv.cut (Q := paramsWf) (s := y1) ?_ fun h31 => ?_
  · unfold y1
    exact paramsWf.keep (updEnc_keeps _ _ _) (by rfl) h30
  clear_value y1
  exact limReleases_par _ _ (setEncFlag_par _ _ _ _ (setEncFlag_par _ _ _ _ h31))

theorem homeAbortBody_par (c : Cmd) (s : State) (h : paramsWf s) :
    ResInv paramsWf (homeAbortBody c s) := by
  unfold homeAbortBody
  extract_lets y0
  clear_value y0
  refine ResInv.check ?_
  refine ResInv.done ?_
  refine Inv.ite (Q := paramsWf) ?_ ?_
  · exact homeStop_par _ _ _ h
  · exact h

theorem homeFinish_par (s : State) (n : Nat) (h : paramsWf s) :
    paramsWf (homeFinish s n) := by
  unfold homeFinish
  extract_lets y0 y1 y2
  clear_value y0
  refine Inv.cut (Q := paramsWf) (s := y1) ?_ fun h30 => ?_
  · unfold y1
    exact setEncFlag_par _ _ _ _ (paramsWf.keep (updGen_keeps _ _ _) (by rfl) h)
  clear_value y1
  refine Inv.cut (Q := paramsWf) (s := y2) ?_ fun h31 => ?_
  · unfold y2
    exact paramsWf.keep (updEnc_keeps _ _ _) (by rfl) h30
  clear_value y2
  split
  · exact h31
  · split
    · exact completeOk_par _ _ _ h31
    · exact completeErr_par _ _ _ h31
    · exact completeErr_par _ _ _ h31

theorem homeRef_par (s : State) (n : Nat) (h : paramsWf s) :
    paramsWf (homeRef s n) := by
  unfold homeRef
  extract_lets y0 y1 y2 y3
  clear_value y0 y2
  refine Inv.cut (Q := paramsWf) (s := y1) ?_ fun h30 => ?_
  · unfold y1
    exact setEncFlag_par _ _ _ _ (setEncFlag_par _ _ _ _ (encShift_par _ _ _ h))
  clear_value y1
  refine Inv.cut (Q := paramsWf) (s := y3) ?_ fun h31 => ?_
  · unfold y3
    exact paramsWf.keep (updGen_keeps _ _ _) (by rfl) (syncGen_par _ _ h30)
  clear_value y3
  exact homeStop_par _ _ _ (paramsWf.keep (updEnc_keeps _ _ _) (by rfl) h31)

theorem homeSearchDone_par (s : State) (n : Nat) (h : paramsWf s) :
    paramsWf (homeSearchDone s n) := by
  unfold homeSearchDone
  refine Inv.ite (Q := paramsWf) ?_ ?_
  · exact homeStop_par _ _ _ h
  · exact h

theorem limInactive_par (s : State) (n : Nat) (neg : Bool) (h : paramsWf s) :
    paramsWf (limInactive s n neg) := by
  unfold limInactive
  exact limRelease_par _ _ _ (paramsWf.keep (updEnc_keeps _ _ _) (by rfl) h)

theorem homeEdge_par (s : State) (n : Nat) (h : paramsWf s) :
    paramsWf (homeEdge s n) := by
  unfold homeEdge
  refine Inv.ite (Q := paramsWf) ?_ ?_
  · refine Inv.ite (Q := paramsWf) ?_ ?_
    · exact paramsWf.keep (updEnc_keeps _ _ _) (by rfl) h
    · exact homeRef_par _ _ h
  · exact h

theorem homeIndex_par (s : State) (n : Nat) (h : paramsWf s) :
    paramsWf (homeIndex s n) := by
  unfold homeIndex
  refine Inv.ite (Q := paramsWf) ?_ ?_
  · exact homeRef_par _ _ h
  · exact h

theorem execEncIllegalWindowEnd_par (axis : Fin 2) (s : State) (h : paramsWf s) :
    OutInv paramsWf (execEncIllegalWindowEnd axis s) := by
  unfold execEncIllegalWindowEnd
  extract_lets y0 y1 y2
  clear_value y0
  refine Inv.cut (Q := paramsWf) (s := y1) ?_ fun h30 => ?_
  · unfold y1
    exact paramsWf.keep (advanceTo_keeps _ _) (by rfl) h
  clear_value y1
  refine Inv.cut (Q := paramsWf) (s := y2) ?_ fun h31 => ?_
  · unfold y2
    refine Inv.ite (Q := paramsWf) ?_ ?_
    · exact paramsWf.keep (causeGone_keeps _ _ _) (by rfl) h30
    · exact h30
  clear_value y2
  refine OutInv.clocked ?_ ?_
  · exact h
  · refine OutInv.ite ?_ ?_
    · exact OutInv.ends reelObserve_par (paramsWf.keep (updEnc_keeps _ _ _) (by rfl) h31)
    · exact OutInv.ends reelObserve_par h

theorem execEncLimitInactive_par (axis : Fin 2) (neg : Bool) (held : Nat) (s : State) (h : paramsWf s) :
    OutInv paramsWf (execEncLimitInactive axis neg s held) := by
  unfold execEncLimitInactive
  refine OutInv.clocked ?_ ?_
  · exact h
  · refine OutInv.ends reelObserve_par ?_
    refine Inv.ite (Q := paramsWf) ?_ ?_
    · exact limInactive_par _ _ _ h
    · exact h

theorem execHomeAbort_par (c : Cmd) (s : State) (h : paramsWf s) :
    OutInv paramsWf (execHomeAbort c s) := by
  unfold execHomeAbort
  refine OutInv.ends reelObserve_par ?_
  refine Inv.runCmd (Q := paramsWf) goodPacket_par answer_par ?_ fun x0 _ h1 => ?_
  · exact h
  · exact homeAbortBody_par _ _ h1

theorem execHomeStart_par (c : Cmd) (s : State) (h : paramsWf s) :
    OutInv paramsWf (execHomeStart c s) := by
  unfold execHomeStart
  refine OutInv.ends reelObserve_par ?_
  refine Inv.runCmd (Q := paramsWf) goodPacket_par answer_par ?_ fun x0 _ h1 => ?_
  · exact h
  · exact homeStartBody_par _ _ h1

theorem execHomingDone_par (axis : Fin 2) (s : State) (h : paramsWf s) :
    OutInv paramsWf (execHomingDone axis s) := by
  unfold execHomingDone
  extract_lets y0 y1 y2 y3
  clear_value y0 y1
  refine Inv.cut (Q := paramsWf) (s := y2) ?_ fun h30 => ?_
  · unfold y2
    refine Inv.ite (Q := paramsWf) ?_ ?_
    · exact paramsWf.keep (advanceTo_keeps _ _) (by rfl) h
    · exact h
  clear_value y2
  refine Inv.cut (Q := paramsWf) (s := y3) ?_ fun h31 => ?_
  · unfold y3
    exact syncGen_par _ _ h30
  clear_value y3
  refine OutInv.clocked ?_ ?_
  · exact h
  · refine OutInv.ite ?_ ?_
    · refine OutInv.ends reelObserve_par ?_
      refine Inv.ite (Q := paramsWf) ?_ ?_
      · exact homeFinish_par _ _ h31
      · exact h31
    · exact OutInv.ends reelObserve_par h

theorem homeActive_par (s : State) (n : Nat) (h : paramsWf s) :
    paramsWf (homeActive s n) := by
  unfold homeActive
  exact homeEdge_par _ _ (homeNote_par _ _ _ h)

theorem homeAgain_par (s : State) (n : Nat) (u : HomeUndo) (h : paramsWf s) :
    paramsWf (homeAgain s n u) := by
  unfold homeAgain
  extract_lets y0
  refine Inv.cut (Q := paramsWf) (s := y0) ?_ fun h30 => ?_
  · unfold y0
    refine Inv.ite (Q := paramsWf) ?_ ?_
    · exact homeEdge_par _ _ h
    · exact h
  clear_value y0
  refine Inv.ite (Q := paramsWf) ?_ ?_
  · exact homeIndex_par _ _ h30
  · exact h30

theorem encLevels_par (s : State) (n : Nat) (z : Bool) (home : Bool) (h : paramsWf s) :
    paramsWf (encLevels s n z home) := by
  unfold encLevels
  extract_lets y0 y1
  clear_value y0
  refine Inv.cut (Q := paramsWf) (s := y1) ?_ fun h30 => ?_
  · unfold y1
    exact paramsWf.keep (updEnc_keeps _ _ _) (by rfl) h
  clear_value y1
  refine Inv.ite (Q := paramsWf) ?_ ?_
  · exact homeActive_par _ _ h30
  · exact h30

theorem execEncHomeActive_par (axis : Fin 2) (held : Nat) (s : State) (h : paramsWf s) :
    OutInv paramsWf (execEncHomeActive axis s held) := by
  unfold execEncHomeActive
  extract_lets y0
  clear_value y0
  refine OutInv.clocked ?_ ?_
  · exact h
  · refine OutInv.ends reelObserve_par ?_
    refine Inv.ite (Q := paramsWf) ?_ ?_
    · exact limReleases_par _ _ (encLevels_par _ _ _ _ (homeLatch_par _ _ _ h))
    · exact h

theorem encIndex_par (s : State) (n : Nat) (h : paramsWf s) :
    paramsWf (encIndex s n) := by
  unfold encIndex
  extract_lets y0 y1 y2 y3
  clear_value y0 y1
  refine Inv.cut (Q := paramsWf) (s := y2) ?_ fun h30 => ?_
  · unfold y2
    exact setEncFlag_par _ _ _ _ (putI_par _ _ _ _ (encShift_par _ _ _ h))
  clear_value y2
  refine Inv.cut (Q := paramsWf) (s := y3) ?_ fun h31 => ?_
  · unfold y3
    refine Inv.ite (Q := paramsWf) ?_ ?_
    · refine Inv.ite (Q := paramsWf) ?_ ?_
      · exact paramsWf.keep (causeGone_keeps _ _ _) (by rfl) h30
      · exact raiseFault_par _ _ _ h
    · exact h
  clear_value y3
  refine Inv.ite (Q := paramsWf) ?_ ?_
  · exact homeIndex_par _ _ (homeNote_par _ _ _ h31)
  · exact h31

theorem homeLimit_par (s : State) (n : Nat) (neg : Bool) (h : paramsWf s) :
    paramsWf (homeLimit s n neg) := by
  unfold homeLimit
  extract_lets y0 y1
  clear_value y0
  refine Inv.cut (Q := paramsWf) (s := y1) ?_ fun h30 => ?_
  · unfold y1
    exact paramsWf.keep (updEnc_keeps _ _ _) (by rfl) h
  clear_value y1
  refine Inv.ite (Q := paramsWf) ?_ ?_
  · exact homeMove_par _ _ _ h30
  · exact homeStop_par _ _ _ (raiseFault_par _ _ _ h)

theorem illegalWatch_par (s : State) (n : Nat) (h : paramsWf s) :
    paramsWf (illegalWatch s n) := by
  unfold illegalWatch
  refine Inv.ite (Q := paramsWf) ?_ ?_
  · exact setEncFlag_par _ _ _ _ (raiseFault_par _ _ _ (paramsWf.keep (updEnc_keeps _ _ _) (by rfl) h))
  · exact h

theorem limTrip_par (s : State) (n : Nat) (neg : Bool) (h : paramsWf s) :
    paramsWf (limTrip s n neg) := by
  unfold limTrip
  refine Inv.ite (Q := paramsWf) ?_ ?_
  · exact raiseFault_par _ _ _ h
  · refine Inv.ite (Q := paramsWf) ?_ ?_
    · exact homeLimit_par _ _ _ h
    · exact h

theorem encIllegal_par (s : State) (n : Nat) (h : paramsWf s) :
    paramsWf (encIllegal s n) := by
  unfold encIllegal
  extract_lets y0
  refine Inv.cut (Q := paramsWf) (s := y0) ?_ fun h30 => ?_
  · unfold y0
    exact incP_par _ _ _ h
  clear_value y0
  refine Inv.ite (Q := paramsWf) ?_ ?_
  · exact h30
  · exact illegalWatch_par _ _ (paramsWf.keep (updEnc_keeps _ _ _) (by rfl) h30)

theorem encQuad_par (s : State) (n : Nat) (a : Bool) (b : Bool) (h : paramsWf s) :
    paramsWf (encQuad s n a b).1 := by
  unfold encQuad
  extract_lets y0 y1 y2 y3
  clear_value y0 y2
  refine Inv.cut (Q := paramsWf) (s := y1) ?_ fun h30 => ?_
  · unfold y1
    exact paramsWf.keep (updEnc_keeps _ _ _) (by rfl) h
  clear_value y1
  refine Inv.cut (Q := paramsWf) (s := y3) ?_ fun h31 => ?_
  · unfold y3
    exact encCount_par _ _ _ h30
  clear_value y3
  split
  · dsimp only
    exact h30
  · split
    · dsimp only
      exact encIllegal_par _ _ h30
    · split
      · dsimp only
        exact paramsWf.keep (updEnc_keeps _ _ _) (by rfl) h31
      · dsimp only
        exact h31

theorem encSample_par (s : State) (n : Nat) (a : Bool) (b : Bool) (z : Bool) (home : Bool) (h : paramsWf s) :
    paramsWf (encSample s n a b z home) := by
  unfold encSample
  extract_lets y0 y1
  refine Inv.cut (Q := paramsWf) (s := y0.1) ?_ fun h30 => ?_
  · unfold y0
    split
    · dsimp only
      exact paramsWf.keep (updEnc_keeps _ _ _) (by rfl) h
    · split
      · exact encTooth_par _ _ _ _ h
      · exact encQuad_par _ _ _ _ h
  clear_value y0
  refine Inv.cut (Q := paramsWf) (s := y1) ?_ fun h31 => ?_
  · unfold y1
    refine homeLatch_par _ _ _ ?_
    refine Inv.ite (Q := paramsWf) ?_ ?_
    · exact encLatch_par _ _ _ _ h30
    · exact h30
  clear_value y1
  refine encLevels_par _ _ _ _ ?_
  refine Inv.ite (Q := paramsWf) ?_ ?_
  · exact encIndex_par _ _ h31
  · exact h31

theorem execEncTransition_par (axis : Fin 2) (a : List Bool) (b : List Bool) (z : List Bool) (home : List Bool) (s : State) (h : paramsWf s) :
    OutInv paramsWf (execEncTransition axis a b z home s) := by
  unfold execEncTransition
  extract_lets y0 y1 y2 y3 y4
  clear_value y0 y1 y2 y3 y4
  refine OutInv.clocked ?_ ?_
  · exact h
  · exact OutInv.ends reelObserve_par (limReleases_par _ _ (encSample_par _ _ _ _ _ _ h))

theorem limActive_par (s : State) (n : Nat) (neg : Bool) (h : paramsWf s) :
    paramsWf (limActive s n neg) := by
  unfold limActive
  extract_lets y0 y1 y2 y3
  clear_value y1
  refine Inv.cut (Q := paramsWf) (s := y0) ?_ fun h30 => ?_
  · unfold y0
    exact paramsWf.keep (updEnc_keeps _ _ _) (by rfl) h
  clear_value y0
  refine Inv.cut (Q := paramsWf) (s := y2) ?_ fun h31 => ?_
  · unfold y2
    exact encLatch_par _ _ _ _ h30
  clear_value y2
  refine Inv.cut (Q := paramsWf) (s := y3) ?_ fun h32 => ?_
  · unfold y3
    exact putI_par _ _ _ _ h31
  clear_value y3
  refine Inv.ite (Q := paramsWf) ?_ ?_
  · exact h30
  · split
    · refine Inv.ite (Q := paramsWf) ?_ ?_
      · exact homeAgain_par _ _ _ (limTrip_par _ _ _ (setEncFlag_par _ _ _ _ (homeBack_par _ _ _ h32)))
      · exact limTrip_par _ _ _ (setEncFlag_par _ _ _ _ h32)
    · exact limTrip_par _ _ _ (setEncFlag_par _ _ _ _ h32)

theorem encModeSet_par (s : State) (n : Nat) (old : Nat) (h : paramsWf s) :
    paramsWf (encModeSet s n old) := by
  unfold encModeSet
  extract_lets y0 y1 y2 y3 y4
  clear_value y0 y1 y2
  refine Inv.cut (Q := paramsWf) (s := y3) ?_ fun h30 => ?_
  · unfold y3
    exact encLevels_par _ _ _ _ (homeLatch_par _ _ _ h)
  clear_value y3
  unfold y4
  refine Inv.ite (Q := paramsWf) ?_ ?_
  · refine Inv.ite (Q := paramsWf) ?_ ?_
    · exact h30
    · refine Inv.ite (Q := paramsWf) ?_ ?_
      · exact limInactive_par _ _ _ h30
      · exact limActive_par _ _ _ h30
  · refine Inv.ite (Q := paramsWf) ?_ ?_
    · refine limInactive_par _ _ _ ?_
      refine Inv.ite (Q := paramsWf) ?_ ?_
      · exact h30
      · refine Inv.ite (Q := paramsWf) ?_ ?_
        · exact limInactive_par _ _ _ h30
        · exact limActive_par _ _ _ h30
    · refine limActive_par _ _ _ ?_
      refine Inv.ite (Q := paramsWf) ?_ ?_
      · exact h30
      · refine Inv.ite (Q := paramsWf) ?_ ?_
        · exact limInactive_par _ _ _ h30
        · exact limActive_par _ _ _ h30

theorem execEncLimitTrip_par (axis : Fin 2) (neg : Bool) (held : Nat) (s : State) (h : paramsWf s) :
    OutInv paramsWf (execEncLimitTrip axis neg s held) := by
  unfold execEncLimitTrip
  refine OutInv.clocked ?_ ?_
  · exact h
  · refine OutInv.ends reelObserve_par ?_
    refine Inv.ite (Q := paramsWf) ?_ ?_
    · exact limReleases_par _ _ (limActive_par _ _ _ h)
    · exact h

/-! ### Machine/LoopOps.lean -/

theorem armCompose_par (s : State) (p : Nat) (a : Nat) (h : paramsWf s) :
    paramsWf (armCompose s p a) := by
  unfold armCompose
  extract_lets y0 y1 y2 y3 y4
  clear_value y0 y1 y2 y3
  refine Inv.cut (Q := paramsWf) (s := y4) ?_ fun h30 => ?_
  · unfold y4
    exact paramsWf.keep (updArm_keeps _ _ _) (by rfl) h
  clear_value y4
  exact putI_par _ _ _ _ (putI_par _ _ _ _ (putI_par _ _ _ _ h30))

theorem armNoRefs_par (s : State) (h : paramsWf s) :
    paramsWf (armNoRefs s) := by
  unfold armNoRefs
  refine Inv.foldl (Q := paramsWf) ?_ fun x30 a31 h32 => ?_
  · exact h
  · extract_lets y33
    refine Inv.cut (Q := paramsWf) (s := y33) ?_ fun h63 => ?_
    · unfold y33
      exact paramsWf.keep (updArm_keeps _ _ _) (by rfl) h32
    clear_value y33
    exact putI_par _ _ _ _ (putI_par _ _ _ _ h63)

theorem armRefs_par (s : State) (p : Nat) (h : paramsWf s) :
    paramsWf (armRefs s p) := by
  unfold armRefs
  refine Inv.foldl (Q := paramsWf) ?_ fun x0 a1 h2 => ?_
  · exact h
  · exact armCompose_par _ _ _ h2

theorem loopModeBody_par (c : Cmd) (s : State) (h : paramsWf s) :
    ResInv paramsWf (loopModeBody c s) := by
  exact paramsWf.res (loopModeBody_keeps _ _) (by rfl) h

theorem pulseMark_par (s : State) (i : Nat) (ages : List Nat) (h : paramsWf s) :
    paramsWf (pulseMark s i ages) := by
  unfold pulseMark
  extract_lets y0 y1 y2 y3 y4 y5
  clear_value y0 y1 y2 y3
  refine Inv.cut (Q := paramsWf) (s := y5) ?_ fun h30 => ?_
  · unfold y5
    exact paramsWf.eq (s := s) rfl h
  clear_value y5
  exact putN_par _ _ _ _ h30

theorem execLoopMode_par (c : Cmd) (s : State) (h : paramsWf s) :
    OutInv paramsWf (execLoopMode c s) := by
  unfold execLoopMode
  refine OutInv.ends reelObserve_par ?_
  refine Inv.runCmd (Q := paramsWf) goodPacket_par answer_par ?_ fun x0 _ h1 => ?_
  · exact h
  · exact loopModeBody_par _ _ h1

theorem feCheck_par (s : State) (n : Nat) (e : Int) (h : paramsWf s) :
    paramsWf (feCheck s n e) := by
  unfold feCheck
  extract_lets y0 y1 y2 y3 y4 y5
  clear_value y0 y1 y3 y4
  refine Inv.cut (Q := paramsWf) (s := y2) ?_ fun h30 => ?_
  · unfold y2
    refine Inv.ite (Q := paramsWf) ?_ ?_
    · exact h
    · exact paramsWf.keep (causeGone_keeps _ _ _) (by rfl) h
  clear_value y2
  refine Inv.cut (Q := paramsWf) (s := y5) ?_ fun h31 => ?_
  · unfold y5
    exact paramsWf.keep (updSlot_keeps _ _ _) (by rfl) h30
  clear_value y5
  refine Inv.ite (Q := paramsWf) ?_ ?_
  · exact h30
  · refine Inv.ite (Q := paramsWf) ?_ ?_
    · exact raiseFault_par _ _ _ h31
    · exact h31

theorem loopBoundary_par (s : State) (n : Nat) (h : paramsWf s) :
    paramsWf (loopBoundary s n) := by
  unfold loopBoundary
  extract_lets y0 y1 y2 y3 y4
  clear_value y0 y1
  refine Inv.cut (Q := paramsWf) (s := y2) ?_ fun h30 => ?_
  · unfold y2
    refine Inv.ite (Q := paramsWf) ?_ ?_
    · exact paramsWf.keep (putTable_keeps _ _ _ _) (by rfl) h
    · exact h
  clear_value y2
  refine Inv.cut (Q := paramsWf) (s := y3) ?_ fun h31 => ?_
  · unfold y3
    exact applyGroup_par _ _ _ h30
  clear_value y3
  refine Inv.cut (Q := paramsWf) (s := y4) ?_ fun h32 => ?_
  · unfold y4
    refine Inv.ite (Q := paramsWf) ?_ ?_
    · exact paramsWf.keep (updSlot_keeps _ _ _) (by rfl) h31
    · exact h31
  clear_value y4
  refine Inv.ite (Q := paramsWf) ?_ ?_
  · exact h
  · refine Inv.ite (Q := paramsWf) ?_ ?_
    · exact raiseOnce_par _ _ _ (paramsWf.keep (dropGroup_keeps _ _ _) (by rfl) h)
    · refine Inv.ite (Q := paramsWf) ?_ ?_
      · refine paramsWf.keep (causeGone_keeps _ _ _) (by rfl) ?_
        exact paramsWf.keep (causeGone_keeps _ _ _) (by rfl) (paramsWf.keep (updSlot_keeps _ _ _) (by rfl) h32)
      · exact h32

theorem plausCheck_par (s : State) (n : Nat) (y : Int) (h : paramsWf s) :
    paramsWf (plausCheck s n y) := by
  unfold plausCheck
  extract_lets y0 y1 y2 y3 y4 y5 y6 y7 y8 y9
  clear_value y0 y1 y3 y4 y6 y8
  refine Inv.cut (Q := paramsWf) (s := y2) ?_ fun h30 => ?_
  · unfold y2
    refine Inv.ite (Q := paramsWf) ?_ ?_
    · exact paramsWf.keep (causeGone_keeps _ _ _) (by rfl) h
    · exact h
  clear_value y2
  refine Inv.cut (Q := paramsWf) (s := y5) ?_ fun h31 => ?_
  · unfold y5
    exact putI_par _ _ _ _ h30
  clear_value y5
  refine Inv.cut (Q := paramsWf) (s := y7) ?_ fun h32 => ?_
  · unfold y7
    refine Inv.ite (Q := paramsWf) ?_ ?_
    · exact h31
    · exact paramsWf.keep (causeGone_keeps _ _ _) (by rfl) h31
  clear_value y7
  refine Inv.cut (Q := paramsWf) (s := y9) ?_ fun h33 => ?_
  · unfold y9
    exact paramsWf.keep (updSlot_keeps _ _ _) (by rfl) h32
  clear_value y9
  refine Inv.ite (Q := paramsWf) ?_ ?_
  · exact paramsWf.keep (updSlot_keeps _ _ _) (by rfl) h30
  · refine Inv.ite (Q := paramsWf) ?_ ?_
    · exact h32
    · refine Inv.ite (Q := paramsWf) ?_ ?_
      · exact raiseFault_par _ _ _ h33
      · exact h33

theorem runSlot_par (s : State) (n : Nat) (h : paramsWf s) :
    paramsWf (runSlot s n) := by
  unfold runSlot
  extract_lets y0 y1 y2 y3 y4 y5 y6 y7 y8 y9
  clear_value y0 y1 y2 y3 y4 y5 y6
  refine Inv.cut (Q := paramsWf) (s := y7) ?_ fun h30 => ?_
  · unfold y7
    exact plausCheck_par _ _ _ (feCheck_par _ _ _ h)
  clear_value y7
  refine Inv.cut (Q := paramsWf) (s := y8) ?_ fun h31 => ?_
  · unfold y8
    exact paramsWf.keep (updSlot_keeps _ _ _) (by rfl) h30
  clear_value y8
  refine Inv.cut (Q := paramsWf) (s := y9) ?_ fun h32 => ?_
  · unfold y9
    refine Inv.ite (Q := paramsWf) ?_ ?_
    · exact incP_par _ _ _ h31
    · exact h31
  clear_value y9
  refine Inv.ite (Q := paramsWf) ?_ ?_
  · exact putI_par _ _ _ _ (paramsWf.keep (updSlot_keeps _ _ _) (by rfl) h)
  · exact putN_par _ _ _ _ (putI_par _ _ _ _ (putI_par _ _ _ _ h32))

theorem runSlots_par (s : State) (h : paramsWf s) :
    paramsWf (runSlots s) := by
  unfold runSlots
  refine Inv.foldl (Q := paramsWf) ?_ fun x0 a1 h2 => ?_
  · exact h
  · exact runSlot_par _ _ h2

/-! ### Machine/Planning.lean -/

theorem arbLate_par (s : State) (h : paramsWf s) :
    paramsWf (arbLate s) := by
  unfold arbLate
  refine Inv.foldl (Q := paramsWf) ?_ fun x0 a1 h2 => ?_
  · exact h
  · split
    · refine Inv.ite (Q := paramsWf) ?_ ?_
      · exact orP_par _ _ _ _ (paramsWf.keep (updPass_keeps _ _ _) (by rfl) h2)
      · exact h2
    · exact h2

theorem armSample_par (s : State) (per : Nat) (a : Nat) (h : paramsWf s) :
    paramsWf (armSample s per a) := by
  unfold armSample
  extract_lets y0 y1 y2 y3
  clear_value y0 y1 y2 y3
  exact paramsWf.keep (updArm_keeps _ _ _) (by rfl) (putI_par _ _ _ _ h)

theorem armSamples_par (s : State) (per : Nat) (h : paramsWf s) :
    paramsWf (armSamples s per) := by
  unfold armSamples
  refine Inv.foldl (Q := paramsWf) ?_ fun x0 a1 h2 => ?_
  · exact h
  · exact armSample_par _ _ _ h2

theorem mtChargeOf_par (s : State) (k : Nat) (per : Nat) (h : paramsWf s) :
    paramsWf (mtChargeOf s k per) := by
  unfold mtChargeOf
  extract_lets y0 y1 y2
  clear_value y0 y1
  refine Inv.cut (Q := paramsWf) (s := y2) ?_ fun h30 => ?_
  · unfold y2
    exact paramsWf.keep (updMt_keeps _ _) (by rfl) h
  clear_value y2
  refine Inv.ite (Q := paramsWf) ?_ ?_
  · refine Inv.foldl (Q := paramsWf) ?_ fun x31 a32 h33 => ?_
    · exact h30
    · exact putCharge_par _ _ _ _ (putCharge_par _ _ _ _ h33)
  · exact h

theorem mtStartMark_par (s : State) (h : paramsWf s) :
    paramsWf (mtStartMark s) := by
  unfold mtStartMark
  extract_lets y0 y1 y2
  clear_value y0
  refine Inv.cut (Q := paramsWf) (s := y1) ?_ fun h30 => ?_
  · unfold y1
    exact paramsWf.keep (updMt_keeps _ _) (by rfl) h
  clear_value y1
  refine Inv.cut (Q := paramsWf) (s := y2) ?_ fun h31 => ?_
  · unfold y2
    exact paramsWf.eq (s := y1) rfl h30
  clear_value y2
  refine Inv.ite (Q := paramsWf) ?_ ?_
  · refine Inv.foldl (Q := paramsWf) ?_ fun x62 a63 h64 => ?_
    · exact h31
    · exact putN_par _ _ _ _ (putN_par _ _ _ _ h64)
  · exact h

theorem notStarved_par (s : State) (a : Nat) (h : paramsWf s) :
    paramsWf (notStarved s a) := by
  unfold notStarved
  refine Inv.ite (Q := paramsWf) ?_ ?_
  · exact h
  · exact paramsWf.keep (causeGone_keeps _ _ _) (by rfl) (putN_par _ _ _ _ h)

theorem publishDone_par (s : State) (a : Nat) (h : paramsWf s) :
    paramsWf (publishDone s a) := by
  unfold publishDone
  split
  · exact h
  · extract_lets y30
    refine Inv.cut (Q := paramsWf) (s := y30) ?_ fun h60 => ?_
    · unfold y30
      exact maxP_par _ _ _ _ h
    clear_value y30
    split
    · extract_lets y91
      clear_value y91
      exact paramsWf.keep (updArm_keeps _ _ _) (by rfl) h60
    · exact h

theorem sortDone_par (s : State) (a : Nat) (h : paramsWf s) :
    paramsWf (sortDone s a) := by
  unfold sortDone
  split
  · exact h
  · extract_lets y30
    clear_value y30
    exact paramsWf.keep (updPass_keeps _ _ _) (by rfl) (putN_par _ _ _ _ h)

theorem swapDone_par (s : State) (a : Nat) (h : paramsWf s) :
    paramsWf (swapDone s a) := by
  unfold swapDone
  extract_lets y0
  clear_value y0
  split
  · exact h
  · split
    · extract_lets y90 y91 y92 y93
      clear_value y91 y92 y93
      exact paramsWf.keep (updPass_keeps _ _ _) (by rfl) (putN_par _ _ _ _ h)
    · exact h

theorem arbDone_par (s : State) (h : paramsWf s) :
    paramsWf (arbDone s) := by
  unfold arbDone
  extract_lets y0 y1 y2 y3 y4 y5
  clear_value y1 y2
  refine Inv.cut (Q := paramsWf) (s := y0) ?_ fun h30 => ?_
  · unfold y0
    exact arbLate_par _ h
  clear_value y0
  refine Inv.cut (Q := paramsWf) (s := y3) ?_ fun h31 => ?_
  · unfold y3
    refine Inv.foldl (Q := paramsWf) ?_ fun x62 a63 h64 => ?_
    · exact h30
    · extract_lets y65
      clear_value y65
      exact paramsWf.keep (updPass_keeps _ _ _) (by rfl) (putN_par _ _ _ _ h64)
  clear_value y3
  refine Inv.cut (Q := paramsWf) (s := y4) ?_ fun h95 => ?_
  · unfold y4
    exact putN_par _ _ _ _ h31
  clear_value y4
  refine Inv.cut (Q := paramsWf) (s := y5) ?_ fun h96 => ?_
  · unfold y5
    refine Inv.ite (Q := paramsWf) ?_ ?_
    · exact orP_par _ _ _ _ h95
    · exact h95
  clear_value y5
  refine Inv.ite (Q := paramsWf) ?_ ?_
  · exact orP_par _ _ _ _ h96
  · exact h96

theorem mtCharge_par (s : State) (per : Nat) (h : paramsWf s) :
    paramsWf (mtCharge s per) := by
  unfold mtCharge
  refine Inv.ite (Q := paramsWf) ?_ ?_
  · exact mtChargeOf_par _ _ _ h
  · exact h

theorem taskEffect_par (s : State) (t : Task) (h : paramsWf s) :
    paramsWf (taskEffect s t) := by
  unfold taskEffect
  split
  · split
    · exact putI_par _ _ _ _ h
    · exact h
  · refine Inv.ite (Q := paramsWf) ?_ ?_
    · exact sortDone_par _ _ h
    · exact h
  · exact arbDone_par _ h
  · exact swapDone_par _ _ h
  · exact publishDone_par _ _ h
  · exact tallyCompute_par _ h
  · exact h

theorem makeSorts_par (s : State) (a : Nat) (n : Nat) (latch : Nat) (arb : Option Nat) (swap : Nat) (h : paramsWf s) :
    paramsWf (makeSorts s a n latch arb swap) := by
  unfold makeSorts
  extract_lets y0 y1 y2 y3
  clear_value y0 y1
  refine Inv.cut (Q := paramsWf) (s := y2.1) ?_ fun h30 => ?_
  · unfold y2
    exact createSlot_par _ _ h
  clear_value y2
  refine Inv.ite (Q := paramsWf) ?_ ?_
  · unfold y3
    exact createTask_par _ _ h30
  · refine Inv.foldl (Q := paramsWf) ?_ fun x91 a92 h93 => ?_
    · exact h30
    · extract_lets y94
      refine Inv.cut (Q := paramsWf) (s := y94.1) ?_ fun h124 => ?_
      · unfold y94
        exact createSlot_par _ _ h93
      clear_value y94
      unfold y3
      exact createTask_par _ _ h124

theorem makeSwap_par (s : State) (a : Nat) (latch : Nat) (h : paramsWf s) :
    paramsWf (makeSwap s a latch).1 := by
  unfold makeSwap
  extract_lets y0
  refine Inv.cut (Q := paramsWf) (s := y0.1) ?_ fun h30 => ?_
  · unfold y0
    exact createSlot_par _ _ h
  clear_value y0
  exact createSlot_par _ _ h30

theorem passTasks_par (s : State) (arms : List Nat) (latch : Nat) (h : paramsWf s) :
    paramsWf (passTasks s arms latch) := by
  unfold passTasks
  extract_lets r parts arb
  have hr : paramsWf r.1 := by
    suffices k : ∀ (l : List Nat) (x : State × List (Nat × Nat)), paramsWf x.1 →
        paramsWf (l.foldl (fun (x : State × List (Nat × Nat)) a =>
          let y := makeSwap x.1 a latch
          (y.1, x.2 ++ [(a, y.2)])) x).1 from k arms (s, []) h
    intro l
    induction l with
    | nil => exact fun x h => h
    | cons a l ih => exact fun x h => ih _ (makeSwap_par _ _ _ h)
  clear_value r
  have ha : paramsWf arb.1 := (createSlot_par _ _ hr)
  clear_value arb
  refine Inv.foldl (Q := paramsWf) ha fun x p h => ?_
  exact (makeSorts_par _ _ _ _ _ _ h)

theorem passStarts_par (s : State) (h : paramsWf s) :
    paramsWf (passStarts s) := by
  unfold passStarts
  extract_lets y0 y1 y2 y3 y4 y5
  clear_value y0 y3 y4
  refine Inv.cut (Q := paramsWf) (s := y2) ?_ fun h30 => ?_
  · unfold y2
    refine Inv.ite (Q := paramsWf) ?_ ?_
    · exact paramsWf.eq (s := s) rfl h
    · exact h
  clear_value y2
  refine Inv.cut (Q := paramsWf) (s := y5) ?_ fun h31 => ?_
  · unfold y5
    refine Inv.foldl (Q := paramsWf) ?_ fun x32 a33 h34 => ?_
    · exact h30
    · exact paramsWf.keep (passStart_keeps _ _) (by rfl) h34
  clear_value y5
  refine Inv.ite (Q := paramsWf) ?_ ?_
  · exact h31
  · exact passTasks_par _ _ _ h31

theorem mtEnd_par (s : State) (h : paramsWf s) :
    paramsWf (mtEnd s) := by
  unfold mtEnd
  extract_lets y0
  refine Inv.cut (Q := paramsWf) (s := y0) ?_ fun h30 => ?_
  · unfold y0
    exact paramsWf.keep (updMt_keeps _ _) (by rfl) h
  clear_value y0
  refine Inv.ite (Q := paramsWf) ?_ ?_
  · refine Inv.foldl (Q := paramsWf) ?_ fun x91 a92 h93 => ?_
    · exact h30
    · extract_lets y94 y95
      clear_value y94
      refine Inv.cut (Q := paramsWf) (s := y95) ?_ fun h124 => ?_
      · unfold y95
        exact paramsWf.keep (updCell_keeps _ _ _) (by rfl) h93
      clear_value y95
      refine Inv.ite (Q := paramsWf) ?_ ?_
      · exact h93
      · refine Inv.ite (Q := paramsWf) ?_ ?_
        · exact raiseFault_par _ _ _ h124
        · exact h124
  · exact h

theorem sendPair_par (s : State) (c : Nat) (h : paramsWf s) :
    paramsWf (sendPair s c) := by
  unfold sendPair
  extract_lets y0 y1 y2 y3
  clear_value y0 y1 y2
  refine Inv.cut (Q := paramsWf) (s := y3) ?_ fun h30 => ?_
  · unfold y3
    exact paramsWf.keep (updCell_keeps _ _ _) (by rfl) h
  clear_value y3
  refine Inv.ite (Q := paramsWf) ?_ ?_
  · exact paramsWf.keep (updCell_keeps _ _ _) (by rfl) h
  · refine Inv.ite (Q := paramsWf) ?_ ?_
    · exact permFailed_par _ _ h
    · exact paramsWf.keep (updLane_keeps _ _ _) (by rfl) h30

theorem starve_par (s : State) (a : Nat) (p : Pass) (h : paramsWf s) :
    paramsWf (starve s a p) := by
  unfold starve
  extract_lets y0 y1 y2 y3
  clear_value y0 y1 y2
  refine Inv.cut (Q := paramsWf) (s := y3) ?_ fun h30 => ?_
  · unfold y3
    exact putN_par _ _ _ _ h
  clear_value y3
  refine Inv.ite (Q := paramsWf) ?_ ?_
  · exact paramsWf.keep (causeGone_keeps _ _ _) (by rfl) h30
  · refine Inv.ite (Q := paramsWf) ?_ ?_
    · exact raiseFault_par _ _ _ h30
    · exact h30

theorem latchArm_par (s : State) (a : Nat) (h : paramsWf s) :
    paramsWf (latchArm s a) := by
  unfold latchArm
  extract_lets y0 y1
  clear_value y0
  split
  · exact h
  · extract_lets y60 y61 y62
    refine Inv.cut (Q := paramsWf) (s := y60) ?_ fun h90 => ?_
    · unfold y60
      refine Inv.ite (Q := paramsWf) ?_ ?_
      · exact starve_par _ _ _ h
      · exact h
    clear_value y60
    refine Inv.cut (Q := paramsWf) (s := y61) ?_ fun h91 => ?_
    · unfold y61
      exact paramsWf.keep (causeGone_keeps _ _ _) (by rfl) h90
    clear_value y61
    refine Inv.cut (Q := paramsWf) (s := y62) ?_ fun h92 => ?_
    · unfold y62
      exact maxP_par _ _ _ _ h90
    clear_value y62
    refine Inv.ite (Q := paramsWf) ?_ ?_
    · exact h
    · split
      · refine Inv.ite (Q := paramsWf) ?_ ?_
        · exact paramsWf.keep (causeGone_keeps _ _ _) (by rfl) (paramsWf.keep (updArm_keeps _ _ _) (by rfl) h91)
        · exact incP_par _ _ _ (raiseFault_par _ _ _ (paramsWf.keep (updArm_keeps _ _ _) (by rfl) h91))
      · exact incP_par _ _ _ (raiseFault_par _ _ _ (paramsWf.keep (updArm_keeps _ _ _) (by rfl) h92))

theorem latchRetire_par (s : State) (c : Nat) (h : paramsWf s) :
    paramsWf (latchRetire s c) := by
  unfold latchRetire
  split
  · exact retireDone_par _ _ _ h
  · exact sendPair_par _ _ h
  · exact h

theorem latchActivity_par (s : State) (i : Nat) (h : paramsWf s) :
    paramsWf (latchActivity s i) := by
  unfold latchActivity
  split
  · refine Inv.ite (Q := paramsWf) ?_ ?_
    · exact freeActivity_par _ _ h
    · exact paramsWf.keep (updAct_keeps _ _ _) (by rfl) h
  · exact h

theorem latchMark_par (s : State) (h : paramsWf s) :
    paramsWf (latchMark s) := by
  unfold latchMark
  extract_lets y0 y1 y2 y3 y4 y5 y6
  clear_value y0 y1 y4
  refine Inv.cut (Q := paramsWf) (s := y2) ?_ fun h30 => ?_
  · unfold y2
    refine Inv.foldl (Q := paramsWf) ?_ fun x31 a32 h33 => ?_
    · refine Inv.foldl (Q := paramsWf) ?_ fun x34 a35 h36 => ?_
      · exact h
      · exact notStarved_par _ _ h36
    · exact latchArm_par _ _ h33
  clear_value y2
  refine Inv.cut (Q := paramsWf) (s := y3) ?_ fun h37 => ?_
  · unfold y3
    refine Inv.ite (Q := paramsWf) ?_ ?_
    · exact h30
    · exact traceEvent_par _ _ _ _ _ _ _ h30
  clear_value y3
  refine Inv.cut (Q := paramsWf) (s := y5) ?_ fun h38 => ?_
  · unfold y5
    refine Inv.foldl (Q := paramsWf) ?_ fun x39 a40 h41 => ?_
    · exact h37
    · exact paramsWf.keep (latchEntry_keeps _ _) (by rfl) h41
  clear_value y5
  refine Inv.cut (Q := paramsWf) (s := y6) ?_ fun h42 => ?_
  · unfold y6
    refine Inv.foldl (Q := paramsWf) ?_ fun x43 a44 h45 => ?_
    · exact h38
    · refine Inv.ite (Q := paramsWf) ?_ ?_
      · exact latchRetire_par _ _ h45
      · exact h45
  clear_value y6
  refine Inv.foldl (Q := paramsWf) ?_ fun x46 a47 h48 => ?_
  · exact h42
  · exact latchActivity_par _ _ h48

/-! ### Machine/Belay.lean -/

theorem safetyLockBody_par (a : Cmd) (s : State) (h : paramsWf s) :
    ResInv paramsWf (safetyLockBody a s) := by
  exact paramsWf.res (safetyLockBody_keeps _ _) (by rfl) h

theorem safetyLogReadBody_par (c : Cmd) (s : State) (h : paramsWf s) :
    ResInv paramsWf (safetyLogReadBody c s) := by
  exact paramsWf.res (safetyLogReadBody_keeps _ _) (by rfl) h

theorem safetyUnlockBody_par (c : Cmd) (s : State) (h : paramsWf s) :
    ResInv paramsWf (safetyUnlockBody c s) := by
  unfold safetyUnlockBody
  extract_lets y0 y1 y2 y3 y4 y5 y6 y7
  clear_value y0 y2 y4 y5
  refine Inv.cut (Q := paramsWf) (s := y3) ?_ fun h30 => ?_
  · unfold y3
    exact paramsWf.keep (belayLogAdd_keeps _ _ _ _ _ _) (by rfl) (incP_par _ _ _ h)
  clear_value y3
  refine Inv.cut (Q := paramsWf) (s := y6) ?_ fun h31 => ?_
  · unfold y6
    exact paramsWf.keep (sessionEnd_keeps _) (by rfl) h
  clear_value y6
  refine Inv.cut (Q := paramsWf) (s := y7) ?_ fun h32 => ?_
  · unfold y7
    exact paramsWf.keep (updBelay_keeps _ _) (by rfl) h31
  clear_value y7
  refine ResInv.ite ?_ ?_
  · unfold y1
    exact ResInv.fail (incP_par _ _ _ h)
  · refine ResInv.ite ?_ ?_
    · unfold y1
      exact ResInv.fail (paramsWf.keep (updBelay_keeps _ _) (by rfl) h30)
    · exact ResInv.ok (paramsWf.keep (belayLogAdd_keeps _ _ _ _ _ _) (by rfl) h32)

theorem siRunEnd_par (s : State) (n : Nat) (h : paramsWf s) :
    paramsWf (siRunEnd s n) := by
  unfold siRunEnd
  extract_lets y0 y1
  clear_value y0
  refine Inv.cut (Q := paramsWf) (s := y1) ?_ fun h30 => ?_
  · unfold y1
    exact paramsWf.keep (updSi_keeps _ _ _) (by rfl) h
  clear_value y1
  refine Inv.ite (Q := paramsWf) ?_ ?_
  · exact incP_par _ _ _ h30
  · exact h30

theorem safetyWriteBody_par (c : Cmd) (s : State) (h : paramsWf s) :
    ResInv paramsWf (safetyWriteBody c s) := by
  unfold safetyWriteBody
  extract_lets y0 y1 y2 y3
  clear_value y0 y1 y2
  refine ResInv.ite ?_ ?_
  · trivial
  · split
    · trivial
    · refine ResInv.ite ?_ ?_
      · refine ResInv.check ?_
        refine ResInv.done ?_
        unfold y3
        refine paramsWf.keep (updBelay_keeps _ _) (by rfl) ?_
        exact paramsWf.keep (belayLogAdd_keeps _ _ _ _ _ _) (by rfl) (clearSet_par _ _ _ _ h)
      · refine ResInv.check ?_
        refine ResInv.ite ?_ ?_
        · refine ResInv.done ?_
          unfold y3
          refine paramsWf.keep (updBelay_keeps _ _) (by rfl) ?_
          refine paramsWf.keep (belayLogAdd_keeps _ _ _ _ _ _) (by rfl) ?_
          exact paramsWf.keep (updBelay_keeps _ _) (by rfl) h
        · refine ResInv.ite ?_ ?_
          · refine ResInv.done ?_
            unfold y3
            refine paramsWf.keep (updBelay_keeps _ _) (by rfl) ?_
            refine paramsWf.keep (belayLogAdd_keeps _ _ _ _ _ _) (by rfl) ?_
            exact paramsWf.keep (updBelay_keeps _ _) (by rfl) h
          · refine ResInv.done ?_
            refine tallyTouch_par _ _ ?_
            unfold y3
            refine paramsWf.keep (updBelay_keeps _ _) (by rfl) ?_
            exact paramsWf.keep (belayLogAdd_keeps _ _ _ _ _ _) (by rfl) (putP_par _ _ _ _ h)

theorem execBelayResetRelease_par (ok : Nat) (rc : Nat) (s : State) (h : paramsWf s) :
    OutInv paramsWf (execBelayResetRelease s ok rc) := by
  unfold execBelayResetRelease
  extract_lets y0
  refine Inv.cut (Q := paramsWf) (s := y0) ?_ fun h30 => ?_
  · unfold y0
    exact paramsWf.keep (internalPass_keeps _ _) (by rfl) (paramsWf.keep (belayLatch_keeps _ _) (by rfl) h)
  clear_value y0
  refine OutInv.ite ?_ ?_
  · exact OutInv.ends reelObserve_par (paramsWf.keep (updBelay_keeps _ _) (by rfl) h30)
  · exact OutInv.ends reelObserve_par h

theorem execSafetyLock_par (c : Cmd) (s : State) (h : paramsWf s) :
    OutInv paramsWf (execSafetyLock c s) := by
  unfold execSafetyLock
  refine OutInv.ends reelObserve_par ?_
  refine Inv.runCmd (Q := paramsWf) goodPacket_par answer_par ?_ fun x0 _ h1 => ?_
  · exact h
  · exact safetyLockBody_par _ _ h1

theorem execSafetyLogRead_par (c : Cmd) (s : State) (h : paramsWf s) :
    OutInv paramsWf (execSafetyLogRead c s) := by
  unfold execSafetyLogRead
  refine OutInv.ends reelObserve_par ?_
  refine Inv.runCmd (Q := paramsWf) goodPacket_par answer_par ?_ fun x0 _ h1 => ?_
  · exact h
  · exact safetyLogReadBody_par _ _ h1

theorem execSafetySessionTimeout_par (s : State) (h : paramsWf s) :
    OutInv paramsWf (execSafetySessionTimeout s) := by
  unfold execSafetySessionTimeout
  refine OutInv.ite ?_ ?_
  · refine OutInv.ends reelObserve_par ?_
    exact paramsWf.keep (sessionEnd_keeps _) (by rfl) (paramsWf.keep (advanceTo_keeps _ _) (by rfl) h)
  · exact OutInv.ends reelObserve_par h

theorem execSafetyUnlock_par (c : Cmd) (s : State) (h : paramsWf s) :
    OutInv paramsWf (execSafetyUnlock c s) := by
  unfold execSafetyUnlock
  refine OutInv.ends reelObserve_par ?_
  refine Inv.runCmd (Q := paramsWf) goodPacket_par answer_par ?_ fun x0 _ h1 => ?_
  · exact h
  · exact safetyUnlockBody_par _ _ h1

theorem execSafetyWrite_par (c : Cmd) (s : State) (h : paramsWf s) :
    OutInv paramsWf (execSafetyWrite c s) := by
  unfold execSafetyWrite
  refine OutInv.ends reelObserve_par ?_
  refine Inv.runCmd (Q := paramsWf) goodPacket_par answer_par ?_ fun x0 _ h1 => ?_
  · exact h
  · exact safetyWriteBody_par _ _ h1

theorem execTestPulseEnd_par (output : Fin 4) (s : State) (h : paramsWf s) :
    OutInv paramsWf (execTestPulseEnd output s) := by
  unfold execTestPulseEnd
  extract_lets y0 y1 y2
  clear_value y0 y1
  refine Inv.cut (Q := paramsWf) (s := y2) ?_ fun h30 => ?_
  · unfold y2
    exact paramsWf.keep (advanceTo_keeps _ _) (by rfl) h
  clear_value y2
  refine OutInv.ite ?_ ?_
  · exact OutInv.ends reelObserve_par (paramsWf.keep (updBelay_keeps _ _) (by rfl) h30)
  · exact OutInv.ends reelObserve_par h

theorem execTestPulseStart_par (output : Fin 4) (s : State) (h : paramsWf s) :
    OutInv paramsWf (execTestPulseStart output s) := by
  unfold execTestPulseStart
  extract_lets y0 y1 y2
  clear_value y0
  refine Inv.cut (Q := paramsWf) (s := y1) ?_ fun h30 => ?_
  · unfold y1
    exact paramsWf.keep (advanceTo_keeps _ _) (by rfl) h
  clear_value y1
  refine Inv.cut (Q := paramsWf) (s := y2) ?_ fun h31 => ?_
  · unfold y2
    exact paramsWf.keep (updBelay_keeps _ _) (by rfl) h30
  clear_value y2
  refine OutInv.ite ?_ ?_
  · refine OutInv.ends reelObserve_par ?_
    refine Inv.foldl (Q := paramsWf) ?_ fun x122 a123 h124 => ?_
    · exact h31
    · extract_lets y125
      clear_value y125
      exact paramsWf.keep (updSi_keeps _ _ _) (by rfl) h124
  · exact OutInv.ends reelObserve_par h

theorem execUnlockBackoffEnd_par (s : State) (h : paramsWf s) :
    OutInv paramsWf (execUnlockBackoffEnd s) := by
  unfold execUnlockBackoffEnd
  split
  · refine OutInv.ends reelObserve_par ?_
    exact paramsWf.keep (updBelay_keeps _ _) (by rfl) (paramsWf.keep (advanceTo_keeps _ _) (by rfl) h)
  · exact OutInv.ends reelObserve_par h

theorem execFdcStaleTimeout_par (current : Bool) (s : State) (h : paramsWf s) :
    OutInv paramsWf (execFdcStaleTimeout current s) := by
  unfold execFdcStaleTimeout
  extract_lets y0 y1 y2 y3 y4
  clear_value y0 y1 y3
  refine Inv.cut (Q := paramsWf) (s := y4) ?_ fun h30 => ?_
  · unfold y4
    exact paramsWf.keep (advanceTo_keeps _ _) (by rfl) h
  clear_value y4
  refine OutInv.ite ?_ ?_
  · exact OutInv.ends reelObserve_par (raiseBelay_par _ _ _ _ h30)
  · exact OutInv.ends reelObserve_par h

theorem execHeartbeatTimeout_par (s : State) (h : paramsWf s) :
    OutInv paramsWf (execHeartbeatTimeout s) := by
  unfold execHeartbeatTimeout
  extract_lets y0
  refine Inv.cut (Q := paramsWf) (s := y0) ?_ fun h30 => ?_
  · unfold y0
    exact paramsWf.keep (advanceTo_keeps _ _) (by rfl) h
  clear_value y0
  refine OutInv.ite ?_ ?_
  · exact OutInv.ends reelObserve_par (raiseBelay_par _ _ _ _ h30)
  · exact OutInv.ends reelObserve_par h

theorem fdcResult_par (s : State) (tag : Nat) (raw : Nat) (h : paramsWf s) :
    paramsWf (fdcResult s tag raw) := by
  unfold fdcResult
  extract_lets y0 y1 y2 y3 y4 y5 y6 y7 y8 y9 y10
  clear_value y0 y1 y2 y4 y7 y9
  refine Inv.cut (Q := paramsWf) (s := y3) ?_ fun h30 => ?_
  · unfold y3
    exact putN_par _ _ _ _ h
  clear_value y3
  refine Inv.cut (Q := paramsWf) (s := y5) ?_ fun h31 => ?_
  · unfold y5
    exact paramsWf.keep (updBelay_keeps _ _) (by rfl) h30
  clear_value y5
  refine Inv.cut (Q := paramsWf) (s := y6) ?_ fun h32 => ?_
  · unfold y6
    refine Inv.ite (Q := paramsWf) ?_ ?_
    · refine Inv.ite (Q := paramsWf) ?_ ?_
      · exact raiseBelay_par _ _ _ _ h31
      · exact h31
    · exact h
  clear_value y6
  refine Inv.cut (Q := paramsWf) (s := y8) ?_ fun h33 => ?_
  · unfold y8
    exact putN_par _ _ _ _ h32
  clear_value y8
  refine Inv.cut (Q := paramsWf) (s := y10) ?_ fun h34 => ?_
  · unfold y10
    exact paramsWf.keep (updBelay_keeps _ _) (by rfl) h33
  clear_value y10
  refine Inv.ite (Q := paramsWf) ?_ ?_
  · exact h
  · refine Inv.ite (Q := paramsWf) ?_ ?_
    · refine Inv.ite (Q := paramsWf) ?_ ?_
      · exact raiseBelay_par _ _ _ _ h34
      · exact h34
    · exact h32

theorem hbCheck_par (s : State) (h : paramsWf s) :
    paramsWf (hbCheck s) := by
  unfold hbCheck
  extract_lets y0 y1 y2
  clear_value y0 y1
  refine Inv.cut (Q := paramsWf) (s := y2) ?_ fun h30 => ?_
  · unfold y2
    exact paramsWf.keep (updBelay_keeps _ _) (by rfl) h
  clear_value y2
  refine Inv.ite (Q := paramsWf) ?_ ?_
  · exact h
  · refine Inv.ite (Q := paramsWf) ?_ ?_
    · exact raiseBelay_par _ _ _ _ h30
    · exact h30

theorem icmFound_par (s : State) (a : Nat) (h : paramsWf s) :
    paramsWf (icmFound s a) := by
  unfold icmFound
  exact raiseBelay_par _ _ _ _ (paramsWf.keep (updBelay_keeps _ _) (by rfl) h)

theorem icmVerdict_par (s : State) (a : Nat) (bad : Bool) (h : paramsWf s) :
    paramsWf (icmVerdict s a bad) := by
  unfold icmVerdict
  extract_lets y0 y1
  clear_value y0
  refine Inv.cut (Q := paramsWf) (s := y1) ?_ fun h30 => ?_
  · unfold y1
    exact paramsWf.keep (updBelay_keeps _ _) (by rfl) h
  clear_value y1
  refine Inv.ite (Q := paramsWf) ?_ ?_
  · exact icmFound_par _ _ h30
  · exact h30

theorem internalFail_par (s : State) (i : Nat) (h : paramsWf s) :
    paramsWf (internalFail s i) := by
  unfold internalFail
  exact raiseBelay_par _ _ _ _ (paramsWf.keep (updBelay_keeps _ _) (by rfl) h)

theorem resetEdge_par (s : State) (readback : Bool) (h : paramsWf s) :
    paramsWf (resetEdge s readback) := by
  unfold resetEdge
  extract_lets y0 y1
  refine Inv.cut (Q := paramsWf) (s := y0) ?_ fun h30 => ?_
  · unfold y0
    exact incP_par _ _ _ h
  clear_value y0
  refine Inv.cut (Q := paramsWf) (s := y1) ?_ fun h31 => ?_
  · unfold y1
    exact paramsWf.keep (releaseLatches_keeps _) (by rfl) (paramsWf.keep (internalPass_keeps _ _) (by rfl) h30)
  clear_value y1
  refine Inv.ite (Q := paramsWf) ?_ ?_
  · exact incP_par _ _ _ (internalFail_par _ _ h30)
  · refine Inv.ite (Q := paramsWf) ?_ ?_
    · exact paramsWf.keep (injectLanes_keeps _) (by rfl) (paramsWf.keep (updBelay_keeps _ _) (by rfl) h31)
    · exact incP_par _ _ _ h31

theorem siDemand_par (s : State) (n : Nat) (h : paramsWf s) :
    paramsWf (siDemand s n) := by
  unfold siDemand
  extract_lets y0 y1
  refine Inv.cut (Q := paramsWf) (s := y0) ?_ fun h30 => ?_
  · unfold y0
    exact paramsWf.keep (updSi_keeps _ _ _) (by rfl) h
  clear_value y0
  refine Inv.cut (Q := paramsWf) (s := y1) ?_ fun h31 => ?_
  · unfold y1
    refine Inv.ite (Q := paramsWf) ?_ ?_
    · exact h30
    · exact paramsWf.keep (updSi_keeps _ _ _) (by rfl) h30
  clear_value y1
  exact raiseBelay_par _ _ _ _ h31

theorem siDisagree_par (s : State) (n : Nat) (h : paramsWf s) :
    paramsWf (siDisagree s n) := by
  unfold siDisagree
  extract_lets y0
  refine Inv.cut (Q := paramsWf) (s := y0) ?_ fun h30 => ?_
  · unfold y0
    exact paramsWf.keep (updSi_keeps _ _ _) (by rfl) h
  clear_value y0
  refine Inv.ite (Q := paramsWf) ?_ ?_
  · exact raiseBelay_par _ _ _ _ (paramsWf.keep (updSi_keeps _ _ _) (by rfl) h30)
  · exact h30

theorem srstHeld_par (s : State) (h : paramsWf s) :
    paramsWf (srstHeld s) := by
  unfold srstHeld
  exact raiseFault_par _ _ _ (paramsWf.keep (updBelay_keeps _ _) (by rfl) h)

theorem srstSample_par (s : State) (high : Bool) (readback : Bool) (h : paramsWf s) :
    paramsWf (srstSample s high readback) := by
  unfold srstSample
  extract_lets y0 y1 y2 y3 y4 y5
  clear_value y1 y4
  refine Inv.cut (Q := paramsWf) (s := y2) ?_ fun h30 => ?_
  · unfold y2
    exact paramsWf.keep (updBelay_keeps _ _) (by rfl) h
  clear_value y2
  refine Inv.cut (Q := paramsWf) (s := y3) ?_ fun h31 => ?_
  · unfold y3
    refine Inv.ite (Q := paramsWf) ?_ ?_
    · exact srstHeld_par _ h30
    · exact h30
  clear_value y3
  refine Inv.cut (Q := paramsWf) (s := y5) ?_ fun h32 => ?_
  · unfold y5
    exact paramsWf.keep (updBelay_keeps _ _) (by rfl) h31
  clear_value y5
  refine Inv.ite (Q := paramsWf) ?_ ?_
  · exact h31
  · refine Inv.ite (Q := paramsWf) ?_ ?_
    · exact paramsWf.keep (updBelay_keeps _ _) (by rfl) h31
    · refine Inv.ite (Q := paramsWf) ?_ ?_
      · refine Inv.ite (Q := paramsWf) ?_ ?_
        · exact paramsWf.keep (causeGone_keeps _ _ _) (by rfl) h32
        · refine Inv.ite (Q := paramsWf) ?_ ?_
          · exact incP_par _ _ _ h32
          · exact resetEdge_par _ _ h32
      · exact h31

theorem tpCheck_par (s : State) (n : Nat) (b : Bool) (h : paramsWf s) :
    paramsWf (tpCheck s n b) := by
  unfold tpCheck
  extract_lets y0 y1 y2 y3 y4 y5 y6
  clear_value y0 y1 y2 y3 y4 y5
  refine Inv.cut (Q := paramsWf) (s := y6) ?_ fun h30 => ?_
  · unfold y6
    exact paramsWf.keep (updSi_keeps _ _ _) (by rfl) h
  clear_value y6
  refine Inv.ite (Q := paramsWf) ?_ ?_
  · refine Inv.ite (Q := paramsWf) ?_ ?_
    · exact raiseBelay_par _ _ _ _ (paramsWf.keep (updSi_keeps _ _ _) (by rfl) h30)
    · exact h30
  · exact h

theorem tripBack_par (s : State) (a : Bool) (b : Bool) (h : paramsWf s) :
    paramsWf (tripBack s a b) := by
  unfold tripBack
  extract_lets y0
  refine Inv.cut (Q := paramsWf) (s := y0) ?_ fun h30 => ?_
  · unfold y0
    exact paramsWf.keep (updBelay_keeps _ _) (by rfl) h
  clear_value y0
  refine Inv.ite (Q := paramsWf) ?_ ?_
  · exact paramsWf.keep (internalPass_keeps _ _) (by rfl) h30
  · refine Inv.ite (Q := paramsWf) ?_ ?_
    · exact h30
    · exact internalFail_par _ _ h30

theorem execBelayClockCheck_par (count : Nat) (s : State) (h : paramsWf s) :
    OutInv paramsWf (execBelayClockCheck count s) := by
  unfold execBelayClockCheck
  extract_lets y0 y1
  clear_value y0
  refine Inv.cut (Q := paramsWf) (s := y1) ?_ fun h30 => ?_
  · unfold y1
    exact paramsWf.keep (updBelay_keeps _ _) (by rfl) h
  clear_value y1
  refine OutInv.ite ?_ ?_
  · refine OutInv.ends reelObserve_par ?_
    refine Inv.ite (Q := paramsWf) ?_ ?_
    · exact paramsWf.keep (internalPass_keeps _ _) (by rfl) h30
    · exact internalFail_par _ _ h30
  · exact OutInv.ends reelObserve_par h

theorem execBelayReset_par (low : Bool) (rc : Nat) (s : State) (h : paramsWf s) :
    OutInv paramsWf (execBelayReset s low rc) := by
  unfold execBelayReset
  extract_lets y0
  refine Inv.cut (Q := paramsWf) (s := y0) ?_ fun h30 => ?_
  · unfold y0
    exact internalFail_par _ _ h
  clear_value y0
  refine OutInv.ite ?_ ?_
  · exact OutInv.ends reelObserve_par (paramsWf.keep (updBelay_keeps _ _) (by rfl) h30)
  · refine OutInv.ite ?_ ?_
    · exact OutInv.ends reelObserve_par (paramsWf.keep (updBelay_keeps _ _) (by rfl) h)
    · exact OutInv.ends reelObserve_par h

theorem execBelaySramError_par (s : State) (h : paramsWf s) :
    OutInv paramsWf (execBelaySramError s) := by
  unfold execBelaySramError
  refine OutInv.ite ?_ ?_
  · exact OutInv.ends reelObserve_par (internalFail_par _ _ h)
  · exact OutInv.ends reelObserve_par h

theorem execSrstStuck_par (s : State) (h : paramsWf s) :
    OutInv paramsWf (execSrstStuck s) := by
  unfold execSrstStuck
  split
  · extract_lets y30
    refine Inv.cut (Q := paramsWf) (s := y30) ?_ fun h60 => ?_
    · unfold y30
      exact paramsWf.keep (advanceTo_keeps _ _) (by rfl) h
    clear_value y30
    refine OutInv.ite ?_ ?_
    · exact OutInv.ends reelObserve_par (srstHeld_par _ h60)
    · exact OutInv.ends reelObserve_par h
  · exact OutInv.ends reelObserve_par h

theorem siSample_par (s : State) (n : Nat) (a : Bool) (b : Bool) (h : paramsWf s) :
    paramsWf (siSample s n a b) := by
  unfold siSample
  extract_lets y0 y1 y2 y3 y4 y5
  clear_value y0 y2 y3
  refine Inv.cut (Q := paramsWf) (s := y1) ?_ fun h30 => ?_
  · unfold y1
    exact paramsWf.keep (updSi_keeps _ _ _) (by rfl) h
  clear_value y1
  refine Inv.cut (Q := paramsWf) (s := y4) ?_ fun h31 => ?_
  · unfold y4
    exact tpCheck_par _ _ _ (tpCheck_par _ _ _ h30)
  clear_value y4
  refine Inv.cut (Q := paramsWf) (s := y5) ?_ fun h32 => ?_
  · unfold y5
    exact paramsWf.keep (updSi_keeps _ _ _) (by rfl) h31
  clear_value y5
  refine Inv.ite (Q := paramsWf) ?_ ?_
  · exact h30
  · refine Inv.ite (Q := paramsWf) ?_ ?_
    · exact h31
    · refine Inv.ite (Q := paramsWf) ?_ ?_
      · exact siDemand_par _ _ (siRunEnd_par _ _ h32)
      · refine Inv.ite (Q := paramsWf) ?_ ?_
        · exact siDisagree_par _ _ h32
        · exact siRunEnd_par _ _ h32

theorem execBelaySample_par (a : BitVec 8) (b : BitVec 8) (srstHigh : Bool) (tripA : Bool) (tripB : Bool) (injection
      : Bool) (s : State) (h : paramsWf s) :
    OutInv paramsWf (execBelaySample a b srstHigh tripA tripB injection s) := by
  unfold execBelaySample
  extract_lets y0 y1 y2
  refine Inv.cut (Q := paramsWf) (s := y0) ?_ fun h30 => ?_
  · unfold y0
    refine paramsWf.keep (internalPass_keeps _ _) (by rfl) ?_
    exact tripBack_par _ _ _ (paramsWf.keep (gridNext_keeps _) (by rfl) h)
  clear_value y0
  refine Inv.cut (Q := paramsWf) (s := y1) ?_ fun h31 => ?_
  · unfold y1
    exact paramsWf.keep (updBelay_keeps _ _) (by rfl) h30
  clear_value y1
  refine Inv.cut (Q := paramsWf) (s := y2) ?_ fun h32 => ?_
  · unfold y2
    refine Inv.foldl (Q := paramsWf) ?_ fun x33 a34 h35 => ?_
    · exact h31
    · exact siSample_par _ _ _ _ h35
  clear_value y2
  refine OutInv.ite ?_ ?_
  · exact OutInv.ends reelObserve_par (srstSample_par _ _ _ h32)
  · exact OutInv.ends reelObserve_par h

/-! ### Machine/Capstan.lean -/

theorem capBlocked_par (s : State) (p : Nat) (a : Nat) (h : paramsWf s) :
    paramsWf (capBlocked s p a) := by
  unfold capBlocked
  extract_lets y0 y1 y2 y3
  clear_value y0
  refine Inv.cut (Q := paramsWf) (s := y1) ?_ fun h30 => ?_
  · unfold y1
    refine Inv.foldl (Q := paramsWf) ?_ fun x61 a62 h63 => ?_
    · exact h
    · extract_lets y64 y65
      clear_value y65
      refine Inv.cut (Q := paramsWf) (s := y64) ?_ fun h94 => ?_
      · unfold y64
        exact paramsWf.keep (putWord_keeps _ _ _ _) (by rfl) h63
      clear_value y64
      refine Inv.ite (Q := paramsWf) ?_ ?_
      · exact h94
      · exact paramsWf.keep (updCell_keeps _ _ _) (by rfl) h94
  clear_value y1
  refine Inv.cut (Q := paramsWf) (s := y2) ?_ fun h95 => ?_
  · unfold y2
    exact paramsWf.keep (causeGone_keeps _ _ _) (by rfl) (paramsWf.keep (causeGone_keeps _ _ _) (by rfl) h30)
  clear_value y2
  refine Inv.cut (Q := paramsWf) (s := y3) ?_ fun h96 => ?_
  · unfold y3
    exact paramsWf.keep (updArm_keeps _ _ _) (by rfl) h95
  clear_value y3
  exact putI_par _ _ _ _ (putI_par _ _ _ _ h96)

theorem capNotes_par (s : State) (a : Nat) (o : CapOut) (h : paramsWf s) :
    paramsWf (capNotes s a o) := by
  unfold capNotes
  extract_lets y0 y1
  refine Inv.cut (Q := paramsWf) (s := y0) ?_ fun h30 => ?_
  · unfold y0
    exact incP_par _ _ _ h
  clear_value y0
  refine Inv.cut (Q := paramsWf) (s := y1) ?_ fun h31 => ?_
  · unfold y1
    refine Inv.ite (Q := paramsWf) ?_ ?_
    · refine Inv.ite (Q := paramsWf) ?_ ?_
      · exact h30
      · exact raiseFault_par _ _ _ (paramsWf.keep (updArm_keeps _ _ _) (by rfl) h30)
    · exact paramsWf.keep (causeGone_keeps _ _ _) (by rfl) h
  clear_value y1
  refine Inv.ite (Q := paramsWf) ?_ ?_
  · refine Inv.ite (Q := paramsWf) ?_ ?_
    · exact h31
    · exact raiseFault_par _ _ _ (paramsWf.keep (updArm_keeps _ _ _) (by rfl) h31)
  · exact paramsWf.keep (causeGone_keeps _ _ _) (by rfl) h31

theorem icmMark_par (s : State) (h : paramsWf s) :
    paramsWf (icmMark s) := by
  unfold icmMark
  extract_lets y0 y1 y2 y3 y4 y5 y6
  clear_value y0 y2 y3 y5
  refine Inv.cut (Q := paramsWf) (s := y4) ?_ fun h30 => ?_
  · unfold y4
    refine Inv.ite (Q := paramsWf) ?_ ?_
    · exact h
    · exact paramsWf.keep (updBelay_keeps _ _) (by rfl) h
  clear_value y4
  refine Inv.cut (Q := paramsWf) (s := y6) ?_ fun h31 => ?_
  · unfold y6
    refine Inv.ite (Q := paramsWf) ?_ ?_
    · exact h30
    · exact paramsWf.keep (updBelay_keeps _ _) (by rfl) h30
  clear_value y6
  refine Inv.ite (Q := paramsWf) ?_ ?_
  · exact h31
  · refine Inv.foldl (Q := paramsWf) ?_ fun x92 a93 h94 => ?_
    · exact h31
    · extract_lets y95 y96 y97
      clear_value y95 y96 y97
      exact icmVerdict_par _ _ _ h94

theorem capDeblocked_par (s : State) (p : Nat) (a : Nat) (epochStart : Bool) (h : paramsWf s) :
    paramsWf (capDeblocked s p a epochStart) := by
  unfold capDeblocked
  extract_lets y0 y1 y2 y3 y4 y5 y6 y7 y8 y9 y10
  clear_value y0 y1 y2 y3 y4 y5
  refine Inv.cut (Q := paramsWf) (s := y6) ?_ fun h30 => ?_
  · unfold y6
    refine Inv.foldl (Q := paramsWf) ?_ fun x61 a62 h63 => ?_
    · exact h
    · extract_lets y64 y65
      clear_value y64
      refine Inv.cut (Q := paramsWf) (s := y65) ?_ fun h94 => ?_
      · unfold y65
        exact paramsWf.keep (putWord_keeps _ _ _ _) (by rfl) h63
      clear_value y65
      exact paramsWf.keep (updCell_keeps _ _ _) (by rfl) h94
  clear_value y6
  refine Inv.cut (Q := paramsWf) (s := y7) ?_ fun h95 => ?_
  · unfold y7
    exact paramsWf.keep (updArm_keeps _ _ _) (by rfl) h30
  clear_value y7
  refine Inv.cut (Q := paramsWf) (s := y8) ?_ fun h96 => ?_
  · unfold y8
    exact putI_par _ _ _ _ (putI_par _ _ _ _ h95)
  clear_value y8
  refine Inv.cut (Q := paramsWf) (s := y9) ?_ fun h97 => ?_
  · unfold y9
    refine Inv.ite (Q := paramsWf) ?_ ?_
    · exact addP_par _ _ _ _ (putN_par _ _ _ _ h96)
    · exact h96
  clear_value y9
  refine Inv.cut (Q := paramsWf) (s := y10) ?_ fun h98 => ?_
  · unfold y10
    exact maxP_par _ _ _ _ (addP_par _ _ _ _ h97)
  clear_value y10
  exact capNotes_par _ _ _ (addP_par _ _ _ _ h98)

theorem capCompute_par (s : State) (p : Nat) (h : paramsWf s) :
    paramsWf (capCompute s p) := by
  unfold capCompute
  extract_lets y0 y1 y2 y3 y4
  clear_value y0
  refine Inv.cut (Q := paramsWf) (s := y1) ?_ fun h30 => ?_
  · unfold y1
    exact paramsWf.eq (s := s) rfl h
  clear_value y1
  refine Inv.cut (Q := paramsWf) (s := y2) ?_ fun h31 => ?_
  · unfold y2
    refine Inv.foldl (Q := paramsWf) ?_ fun x62 a63 h64 => ?_
    · exact h30
    · extract_lets y65 y66
      refine Inv.cut (Q := paramsWf) (s := y65) ?_ fun h95 => ?_
      · unfold y65
        refine Inv.ite (Q := paramsWf) ?_ ?_
        · exact paramsWf.keep (updArm_keeps _ _ _) (by rfl) (putN_par _ _ _ _ h64)
        · exact h64
      clear_value y65
      refine Inv.cut (Q := paramsWf) (s := y66) ?_ fun h96 => ?_
      · unfold y66
        exact paramsWf.keep (updArm_keeps _ _ _) (by rfl) h95
      clear_value y66
      refine Inv.ite (Q := paramsWf) ?_ ?_
      · exact capDeblocked_par _ _ _ _ h96
      · exact capBlocked_par _ _ _ h96
  clear_value y2
  refine Inv.cut (Q := paramsWf) (s := y3) ?_ fun h97 => ?_
  · unfold y3
    refine Inv.ite (Q := paramsWf) ?_ ?_
    · exact putN_par _ _ _ _ h31
    · exact h31
  clear_value y3
  refine Inv.cut (Q := paramsWf) (s := y4) ?_ fun h98 => ?_
  · unfold y4
    exact putN_par _ _ _ _ h97
  clear_value y4
  exact paramsWf.keep (hbArrive_keeps _ _) (by rfl) h98

/-! ### Machine/DupOps.lean -/

theorem dupTake_par (s : State) (u : Nat) (cause : Nat) (h : paramsWf s) :
    paramsWf (dupTake s u cause) := by
  unfold dupTake
  extract_lets y0 y1
  refine Inv.cut (Q := paramsWf) (s := y0) ?_ fun h30 => ?_
  · unfold y0
    exact incP_par _ _ _ (putN_par _ _ _ _ h)
  clear_value y0
  refine Inv.cut (Q := paramsWf) (s := y1) ?_ fun h31 => ?_
  · unfold y1
    exact paramsWf.eq (s := y0) rfl h30
  clear_value y1
  exact paramsWf.keep (updDup_keeps _ _) (by rfl) h31

theorem mirrorExcl_par (s : State) (m : Nat) (l : List (BitVec 4)) (h : paramsWf s) :
    paramsWf (mirrorExcl s m l) := by
  unfold mirrorExcl
  refine Inv.foldl (Q := paramsWf) ?_ fun x30 a31 h32 => ?_
  · exact h
  · extract_lets y33 y34
    clear_value y33 y34
    exact putN_par _ _ _ _ h32

theorem slewMark_par (s : State) (f : PeerData) (h : paramsWf s) :
    paramsWf (slewMark s f) := by
  unfold slewMark
  extract_lets y0 y1 y2 y3 y4 y5 y6 y7 y8
  clear_value y0 y1 y2 y3 y5 y6 y7
  refine Inv.cut (Q := paramsWf) (s := y4) ?_ fun h30 => ?_
  · unfold y4
    refine Inv.ite (Q := paramsWf) ?_ ?_
    · exact h
    · exact paramsWf.eq (s := s) rfl h
  clear_value y4
  exact putI_par _ _ _ _ (paramsWf.eq (s := y4) rfl h30)

theorem standbyMark_par (s : State) (h : paramsWf s) :
    paramsWf (standbyMark s) := by
  unfold standbyMark
  extract_lets y0 y1 y2 y3
  clear_value y0 y2 y3
  refine Inv.cut (Q := paramsWf) (s := y1) ?_ fun h30 => ?_
  · unfold y1
    exact paramsWf.keep (updDup_keeps _ _) (by rfl) h
  clear_value y1
  refine Inv.ite (Q := paramsWf) ?_ ?_
  · exact dupTake_par _ _ _ h30
  · refine Inv.ite (Q := paramsWf) ?_ ?_
    · exact dupTake_par _ _ _ h30
    · refine Inv.ite (Q := paramsWf) ?_ ?_
      · exact dupTake_par _ _ _ h30
      · refine Inv.ite (Q := paramsWf) ?_ ?_
        · exact paramsWf.keep (dupPrimary_keeps _) (by rfl) h30
        · exact h30

theorem handoverOk_par (s : State) (h : paramsWf s) :
    paramsWf (handoverOk s) := by
  unfold handoverOk
  extract_lets y0
  unfold y0
  split
  · refine completeOk_par _ _ _ ?_
    split
    · exact completeOk_par _ _ _ h
    · exact h
  · split
    · exact completeOk_par _ _ _ h
    · exact h

theorem activeMark_par (s : State) (h : paramsWf s) :
    paramsWf (activeMark s) := by
  unfold activeMark
  extract_lets y0 y1 y2
  clear_value y0
  refine Inv.cut (Q := paramsWf) (s := y1) ?_ fun h30 => ?_
  · unfold y1
    refine Inv.ite (Q := paramsWf) ?_ ?_
    · exact paramsWf.keep (causeGone_keeps _ _ _) (by rfl) h
    · exact h
  clear_value y1
  refine Inv.cut (Q := paramsWf) (s := y2) ?_ fun h31 => ?_
  · unfold y2
    refine Inv.ite (Q := paramsWf) ?_ ?_
    · exact paramsWf.keep (updDup_keeps _ _) (by rfl) h30
    · exact h30
  clear_value y2
  refine Inv.ite (Q := paramsWf) ?_ ?_
  · refine Inv.ite (Q := paramsWf) ?_ ?_
    · exact handoverOk_par _ (paramsWf.keep (updDup_keeps _ _) (by rfl) h31)
    · exact h31
  · refine Inv.ite (Q := paramsWf) ?_ ?_
    · exact raiseFault_par _ _ _ (paramsWf.keep (dupStandby_keeps _) (by rfl) h31)
    · split
      · refine Inv.ite (Q := paramsWf) ?_ ?_
        · exact paramsWf.keep (dupStandby_keeps _) (by rfl) (handoverOk_par _ h31)
        · exact h31
      · exact h31

theorem hbMark_par (s : State) (h : paramsWf s) :
    paramsWf (hbMark s) := by
  unfold hbMark
  extract_lets y0 y1 y2
  refine Inv.cut (Q := paramsWf) (s := y0) ?_ fun h30 => ?_
  · unfold y0
    exact paramsWf.keep (causeGone_keeps _ _ _) (by rfl) h
  clear_value y0
  refine Inv.cut (Q := paramsWf) (s := y1) ?_ fun h31 => ?_
  · unfold y1
    exact incP_par _ _ _ h
  clear_value y1
  refine Inv.cut (Q := paramsWf) (s := y2) ?_ fun h32 => ?_
  · unfold y2
    exact paramsWf.keep (updDup_keeps _ _) (by rfl) h31
  clear_value y2
  split
  · extract_lets y63
    clear_value y63
    exact paramsWf.keep (updDup_keeps _ _) (by rfl) h30
  · refine Inv.ite (Q := paramsWf) ?_ ?_
    · exact raiseFault_par _ _ _ h32
    · exact h32

theorem dupMark_par (s : State) (h : paramsWf s) :
    paramsWf (dupMark s) := by
  unfold dupMark
  extract_lets y0
  refine Inv.cut (Q := paramsWf) (s := y0) ?_ fun h30 => ?_
  · unfold y0
    exact hbMark_par _ h
  clear_value y0
  refine Inv.ite (Q := paramsWf) ?_ ?_
  · exact h
  · refine Inv.ite (Q := paramsWf) ?_ ?_
    · exact standbyMark_par _ h30
    · exact paramsWf.keep (grantMark_keeps _) (by rfl) (activeMark_par _ h30)

theorem applyData_par (s : State) (h : paramsWf s) :
    paramsWf (applyData s) := by
  unfold applyData
  split
  · extract_lets y30 y31 y32 y33 y34 y35 y36
    clear_value y31
    refine Inv.cut (Q := paramsWf) (s := y30) ?_ fun h60 => ?_
    · unfold y30
      exact paramsWf.keep (updDup_keeps _ _) (by rfl) h
    clear_value y30
    refine Inv.cut (Q := paramsWf) (s := y32) ?_ fun h61 => ?_
    · unfold y32
      exact paramsWf.keep (takeCount_keeps _ _) (by rfl) h60
    clear_value y32
    refine Inv.cut (Q := paramsWf) (s := y33) ?_ fun h62 => ?_
    · unfold y33
      refine Inv.foldl (Q := paramsWf) ?_ fun x63 a64 h65 => ?_
      · exact h61
      · exact paramsWf.keep (mirrorArm_keeps _ _ _) (by rfl) h65
    clear_value y33
    refine Inv.cut (Q := paramsWf) (s := y34) ?_ fun h66 => ?_
    · unfold y34
      refine Inv.foldl (Q := paramsWf) ?_ fun x67 a68 h69 => ?_
      · exact h62
      · refine Inv.ite (Q := paramsWf) ?_ ?_
        · exact paramsWf.keep (mirrorGen_keeps _ _ _) (by rfl) h69
        · exact h69
    clear_value y34
    refine Inv.cut (Q := paramsWf) (s := y35) ?_ fun h70 => ?_
    · unfold y35
      refine ledgerWatch_par _ ?_
      refine Inv.foldl (Q := paramsWf) ?_ fun x71 a72 h73 => ?_
      · exact h66
      · refine Inv.ite (Q := paramsWf) ?_ ?_
        · exact paramsWf.keep (mirrorAct_keeps _ _ _) (by rfl) h73
        · exact h73
    clear_value y35
    refine Inv.cut (Q := paramsWf) (s := y36) ?_ fun h74 => ?_
    · unfold y36
      refine Inv.foldl (Q := paramsWf) ?_ fun x75 a76 h77 => ?_
      · exact h70
      · refine Inv.ite (Q := paramsWf) ?_ ?_
        · exact paramsWf.keep (mirrorCleat_keeps _ _ _) (by rfl) h77
        · exact h77
    clear_value y36
    exact mirrorExcl_par _ _ _ (cleatWatch_par _ (servePendings_par _ _ h74))
  · exact h

/-! ### Machine/RunOps.lean -/

theorem heldToSpi_par (l : List (List Word)) (s : State) (h : paramsWf s) :
    paramsWf (heldToSpi l s) := by
  unfold heldToSpi
  extract_lets y0
  clear_value y0
  refine Inv.ite (Q := paramsWf) ?_ ?_
  · exact h
  · exact irqSet_par _ _ (paramsWf.keep (updHost_keeps _ _) (by rfl) h)

theorem toListen_par (s : State) (h : paramsWf s) :
    paramsWf (toListen s) := by
  unfold toListen
  dsimp only
  exact heldToSpi_par _ _ (paramsWf.filter (s := s) rfl h)

theorem powerDone_par (s : State) (w : Nat) (h : paramsWf s) :
    paramsWf (powerDone s w) := by
  unfold powerDone
  split
  · exact completeOk_par _ _ _ h
  · exact h

theorem powerFail_par (s : State) (h : paramsWf s) :
    paramsWf (powerFail s) := by
  unfold powerFail
  extract_lets y0
  refine Inv.cut (Q := paramsWf) (s := y0) ?_ fun h30 => ?_
  · unfold y0
    exact paramsWf.keep (updPwr_keeps _ _) (by rfl) h
  clear_value y0
  split
  · exact completeErr_par _ _ _ h30
  · exact h30

theorem readyUp_par (s : State) (h : paramsWf s) :
    paramsWf (readyUp s) := by
  unfold readyUp
  extract_lets y0
  clear_value y0
  refine Inv.ite (Q := paramsWf) ?_ ?_
  · exact powerFail_par _ h
  · exact paramsWf.keep (updPwr_keeps _ _) (by rfl) (paramsWf.keep (domains_keeps _ _ _) (by rfl) h)

theorem strandsBOff_par (s : State) (h : paramsWf s) :
    paramsWf (strandsBOff s) := by
  unfold strandsBOff
  extract_lets y0
  refine Inv.cut (Q := paramsWf) (s := y0) ?_ fun h30 => ?_
  · unfold y0
    exact dropTasks_par _ _ h
  clear_value y0
  refine Inv.foldl (Q := paramsWf) ?_ fun x61 a62 h63 => ?_
  · exact h30
  · split
    · exact h63
    · extract_lets y94
      refine Inv.cut (Q := paramsWf) (s := y94) ?_ fun h124 => ?_
      · unfold y94
        exact busyAdd_par _ _ _ _ h63
      clear_value y94
      exact readyTask_par _ _ (paramsWf.keep (updStrand_keeps _ _ _) (by rfl) h124)

theorem powerNext_par (s : State) (h : paramsWf s) :
    paramsWf (powerNext s) := by
  unfold powerNext
  extract_lets y0
  refine Inv.cut (Q := paramsWf) (s := y0) ?_ fun h30 => ?_
  · unfold y0
    split
    · exact toListen_par _ h
    · exact toListen_par _ h
    · exact h
  clear_value y0
  split
  · exact powerDone_par _ _ h30
  · exact paramsWf.keep (updPwr_keeps _ _) (by rfl) (powerDone_par _ _ h30)
  · exact paramsWf.keep (listenUp_keeps _) (by rfl) h30
  · exact powerDone_par _ _ h30
  · exact readyUp_par _ h30
  · exact powerDone_par _ _ h30
  · exact paramsWf.keep (updPwr_keeps _ _) (by rfl) h30
  · exact h30

theorem dispatchOff_par (s : State) (h : paramsWf s) :
    paramsWf (dispatchOff s) := by
  unfold dispatchOff
  extract_lets y0 y1 y2 y3
  clear_value y0 y1
  refine Inv.cut (Q := paramsWf) (s := y2) ?_ fun h30 => ?_
  · unfold y2
    exact paramsWf.filter (s := s) rfl h
  clear_value y2
  refine Inv.cut (Q := paramsWf) (s := y3) ?_ fun h31 => ?_
  · unfold y3
    refine Inv.foldl (Q := paramsWf) ?_ fun x32 a33 h34 => ?_
    · exact h30
    · exact paramsWf.keep (cellCauses_keeps _ _) (by rfl) h34
  clear_value y3
  refine ledgerWatch_par _ ?_
  refine cleatWatch_par _ ?_
  refine Inv.foldl (Q := paramsWf) ?_ fun x35 a36 h37 => ?_
  · exact h31
  · exact paramsWf.keep (cleatFullGone_keeps _ _) (by rfl) h37

theorem dropPlacement_par (s : State) (h : paramsWf s) :
    paramsWf (dropPlacement s) := by
  unfold dropPlacement
  extract_lets y0 y1 y2
  refine Inv.cut (Q := paramsWf) (s := y1) ?_ fun h30 => ?_
  · unfold y1
    exact paramsWf.eq (s := s) rfl h
  clear_value y1
  refine Inv.cut (Q := paramsWf) (s := y2) ?_ fun h31 => ?_
  · unfold y2
    refine Inv.foldl (Q := paramsWf) ?_ fun x32 a33 h34 => ?_
    · exact h30
    · exact paramsWf.keep (updArm_keeps _ _ _) (by rfl) h34
  clear_value y2
  exact ledgerWatch_par _ (paramsWf.keep (tallyFollow_keeps _ _) (by rfl) (tallyStale_par _ h31))

theorem endRunOp_par (s : State) (o : LongOp) (h : paramsWf s) :
    paramsWf (endRunOp s o) := by
  unfold endRunOp
  extract_lets y0 y1
  refine Inv.cut (Q := paramsWf) (s := y0) ?_ fun h30 => ?_
  · unfold y0
    refine Inv.ite (Q := paramsWf) ?_ ?_
    · exact dropPlacement_par _ h
    · exact h
  clear_value y0
  refine Inv.cut (Q := paramsWf) (s := y1) ?_ fun h31 => ?_
  · unfold y1
    refine Inv.ite (Q := paramsWf) ?_ ?_
    · exact paramsWf.keep (updLeg_keeps _ _ _) (by rfl) h30
    · exact h30
  clear_value y1
  refine Inv.ite (Q := paramsWf) ?_ ?_
  · exact endScan_par _ _ h31
  · exact completeErr_par _ _ _ h31

theorem endRunOps_par (s : State) (h : paramsWf s) :
    paramsWf (endRunOps s) := by
  unfold endRunOps
  refine Inv.foldl (Q := paramsWf) ?_ fun x0 a1 h2 => ?_
  · exact h
  · exact endRunOp_par _ _ h2

theorem leaveRun_par (s : State) (h : paramsWf s) :
    paramsWf (leaveRun s) := by
  unfold leaveRun
  extract_lets y0 y1 y2 y3 y4 y5 y6 y7 y8 y9 y10
  refine Inv.cut (Q := paramsWf) (s := y0) ?_ fun h30 => ?_
  · unfold y0
    exact endRunOps_par _ h
  clear_value y0
  refine Inv.cut (Q := paramsWf) (s := y2) ?_ fun h31 => ?_
  · unfold y2
    exact paramsWf.eq (s := y0) rfl h30
  clear_value y2
  refine Inv.cut (Q := paramsWf) (s := y3) ?_ fun h32 => ?_
  · unfold y3
    refine Inv.foldl (Q := paramsWf) ?_ fun x33 a34 h35 => ?_
    · exact h31
    · exact laneOff_par _ _ h35
  clear_value y3
  refine Inv.cut (Q := paramsWf) (s := y4) ?_ fun h36 => ?_
  · unfold y4
    exact paramsWf.keep (mtAbort_keeps _) (by rfl) (reelStop_par _ _ (reelSync_par _ h32))
  clear_value y4
  refine Inv.cut (Q := paramsWf) (s := y5) ?_ fun h37 => ?_
  · unfold y5
    exact strandsBOff_par _ (dispatchOff_par _ h36)
  clear_value y5
  refine Inv.cut (Q := paramsWf) (s := y6) ?_ fun h38 => ?_
  · unfold y6
    refine Inv.foldl (Q := paramsWf) ?_ fun x39 a40 h41 => ?_
    · exact h37
    · exact paramsWf.keep (updArm_keeps _ _ _) (by rfl) h41
  clear_value y6
  refine Inv.cut (Q := paramsWf) (s := y7) ?_ fun h42 => ?_
  · unfold y7
    exact paramsWf.keep (belaySuspend_keeps _) (by rfl) (paramsWf.keep (domains_keeps _ _ _) (by rfl) h38)
  clear_value y7
  refine Inv.cut (Q := paramsWf) (s := y8) ?_ fun h43 => ?_
  · unfold y8
    refine Inv.ite (Q := paramsWf) ?_ ?_
    · exact paramsWf.keep (dupStandby_keeps _) (by rfl) h42
    · exact h42
  clear_value y8
  refine Inv.cut (Q := paramsWf) (s := y10) ?_ fun h44 => ?_
  · unfold y10
    exact paramsWf.eq (s := y8) rfl h43
  clear_value y10
  exact paramsWf.keep (updPwr_keeps _ _) (by rfl) h44

/-! ### Machine/Frames.lean -/

theorem residWatch_par (s : State) (c : Nat) (r : Rat) (h : paramsWf s) :
    paramsWf (residWatch s c r).1 := by
  unfold residWatch
  extract_lets y0 y1 y2 y3 y4 y5 y6
  clear_value y0 y1 y2 y3 y4
  refine Inv.cut (Q := paramsWf) (s := y5) ?_ fun h30 => ?_
  · unfold y5
    refine Inv.ite (Q := paramsWf) ?_ ?_
    · exact paramsWf.keep (updArm_keeps _ _ _) (by rfl) (raiseFault_par _ _ _ h)
    · exact h
  clear_value y5
  refine Inv.cut (Q := paramsWf) (s := y6) ?_ fun h31 => ?_
  · unfold y6
    refine Inv.ite (Q := paramsWf) ?_ ?_
    · exact paramsWf.keep (updArm_keeps _ _ _) (by rfl) h30
    · exact h30
  clear_value y6
  dsimp only
  exact h31

theorem takeMsg_par (s : State) (l : Nat) (k : Nat) (f : UpFrame) (h : paramsWf s) :
    paramsWf (takeMsg s l k f) := by
  unfold takeMsg
  split
  · exact h
  · refine Inv.ite (Q := paramsWf) ?_ ?_
    · exact txnMissing_par _ _ _ h
    · refine Inv.ite (Q := paramsWf) ?_ ?_
      · exact txnOk_par _ _ _ _ (paramsWf.keep (txnDrop_keeps _ _ _) (by rfl) h)
      · refine Inv.ite (Q := paramsWf) ?_ ?_
        · exact txnLost_par _ _ _ h
        · exact txnMissing_par _ _ _ h

theorem takeVoltage_par (s : State) (c : Nat) (k : Nat) (r : BitVec 48) (h : paramsWf s) :
    paramsWf (takeVoltage s c k r).1 := by
  unfold takeVoltage
  extract_lets y0 y1 y2 y3
  clear_value y0 y1
  refine Inv.cut (Q := paramsWf) (s := y2.1) ?_ fun h30 => ?_
  · unfold y2
    split
    · split
      · exact residWatch_par _ _ _ h
      · dsimp only
        exact h
    · dsimp only
      exact h
  clear_value y2
  refine Inv.cut (Q := paramsWf) (s := y3) ?_ fun h31 => ?_
  · unfold y3
    exact paramsWf.keep (updCell_keeps _ _ _) (by rfl) h30
  clear_value y3
  dsimp only
  exact paramsWf.keep (mtReport_keeps _ _ _ _) (by rfl) h31

theorem takeClosed_par (s : State) (c : Nat) (h : paramsWf s) :
    paramsWf (takeClosed s c) := by
  unfold takeClosed
  extract_lets y0
  clear_value y0
  split
  · refine Inv.ite (Q := paramsWf) ?_ ?_
    · exact retireDone_par _ _ _ h
    · exact h
  · refine Inv.ite (Q := paramsWf) ?_ ?_
    · exact retireDone_par _ _ _ h
    · exact h
  · exact h

theorem takeHold_par (s : State) (l : Nat) (k : Nat) (hold : Nat) (h : paramsWf s) :
    paramsWf (takeHold s l k hold) := by
  unfold takeHold
  extract_lets y0 y1
  clear_value y0 y1
  exact causeSet_par _ _ _ _ (addP_par _ _ _ _ h)

theorem silenceAt_par (s : State) (m : Nat) (c : Nat) (h : paramsWf s) :
    paramsWf (silenceAt s m c) := by
  unfold silenceAt
  extract_lets y0
  clear_value y0
  refine Inv.ite (Q := paramsWf) ?_ ?_
  · refine Inv.ite (Q := paramsWf) ?_ ?_
    · exact paramsWf.keep (silenceFail_keeps _ _ _) (by rfl) h
    · exact suspectCell_par _ _ _ (paramsWf.keep (updCell_keeps _ _ _) (by rfl) h)
  · exact h

theorem startClosed_par (s : State) (c : Nat) (h : paramsWf s) :
    paramsWf (startClosed s c) := by
  unfold startClosed
  refine Inv.ite (Q := paramsWf) ?_ ?_
  · exact faultUse_par _ _ (paramsWf.keep (startRetire_keeps _ _ _) (by rfl) h)
  · exact h

theorem takeRot_par (s : State) (c : Nat) (k : Nat) (d : Nat) (r : BitVec 48) (last : Nat) (h : paramsWf s) :
    paramsWf (takeRot s c k d r last) := by
  unfold takeRot
  extract_lets y0 y1 y2 y3 y4 y5 y6 y7
  clear_value y0 y1 y2 y3 y5
  refine Inv.cut (Q := paramsWf) (s := y4) ?_ fun h30 => ?_
  · unfold y4
    exact paramsWf.keep (updCell_keeps _ _ _) (by rfl) h
  clear_value y4
  refine Inv.cut (Q := paramsWf) (s := y6) ?_ fun h31 => ?_
  · unfold y6
    exact paramsWf.keep (updCell_keeps _ _ _) (by rfl) h
  clear_value y6
  refine Inv.cut (Q := paramsWf) (s := y7) ?_ fun h32 => ?_
  · unfold y7
    exact paramsWf.keep (updCell_keeps _ _ _) (by rfl) (raiseFault_par _ _ _ h31)
  clear_value y7
  refine Inv.ite (Q := paramsWf) ?_ ?_
  · exact paramsWf.keep (updCell_keeps _ _ _) (by rfl) h
  · refine Inv.ite (Q := paramsWf) ?_ ?_
    · refine Inv.ite (Q := paramsWf) ?_ ?_
      · refine Inv.ite (Q := paramsWf) ?_ ?_
        · exact setDigest_par _ _ _ h30
        · exact h30
      · exact paramsWf.keep (updCell_keeps _ _ _) (by rfl) h
    · refine Inv.ite (Q := paramsWf) ?_ ?_
      · refine Inv.ite (Q := paramsWf) ?_ ?_
        · exact paramsWf.keep (startRetire_keeps _ _ _) (by rfl) (faultUse_par _ _ h32)
        · exact h31
      · exact h

theorem execCellSilenceSuspect_par (cell : Fin 3072) (s : State) (h : paramsWf s) :
    OutInv paramsWf (execCellSilenceSuspect cell s) := by
  unfold execCellSilenceSuspect
  refine OutInv.clocked ?_ ?_
  · exact h
  · refine OutInv.ends reelObserve_par ?_
    refine Inv.ite (Q := paramsWf) ?_ ?_
    · exact silenceAt_par _ _ _ h
    · refine Inv.atMark (Q := paramsWf) advanceTo_par ?_ fun x0 h1 => ?_
      · exact h
      · exact silenceAt_par _ _ _ h1

theorem takeReport_par (s : State) (c : Nat) (k : Nat) (d : Nat) (r : BitVec 48) (h : paramsWf s) :
    paramsWf (takeReport s c k d r) := by
  unfold takeReport
  extract_lets y0 y1 y2 y3 y4 y5 y6 y7
  clear_value y0 y5
  refine Inv.cut (Q := paramsWf) (s := y1) ?_ fun h30 => ?_
  · unfold y1
    exact paramsWf.keep (updCell_keeps _ _ _) (by rfl) h
  clear_value y1
  refine Inv.cut (Q := paramsWf) (s := y2) ?_ fun h31 => ?_
  · unfold y2
    refine Inv.ite (Q := paramsWf) ?_ ?_
    · exact startClosed_par _ _ h30
    · exact h30
  clear_value y2
  refine Inv.cut (Q := paramsWf) (s := y3.1) ?_ fun h32 => ?_
  · unfold y3
    exact takeVoltage_par _ _ _ _ h31
  clear_value y3
  refine Inv.cut (Q := paramsWf) (s := y4) ?_ fun h33 => ?_
  · unfold y4
    exact paramsWf.keep (takeApplied_keeps _ _ _ _ _) (by rfl) h32
  clear_value y4
  refine Inv.cut (Q := paramsWf) (s := y6) ?_ fun h34 => ?_
  · unfold y6
    refine Inv.ite (Q := paramsWf) ?_ ?_
    · exact h33
    · refine faultUse_par _ _ ?_
      refine Inv.foldl (Q := paramsWf) ?_ fun x35 a36 h37 => ?_
      · exact h33
      · exact raiseFault_par _ _ _ h37
  clear_value y6
  refine Inv.cut (Q := paramsWf) (s := y7) ?_ fun h38 => ?_
  · unfold y7
    refine Inv.ite (Q := paramsWf) ?_ ?_
    · exact takeClosed_par _ _ h34
    · exact h34
  clear_value y7
  refine Inv.ite (Q := paramsWf) ?_ ?_
  · exact h
  · refine Inv.ite (Q := paramsWf) ?_ ?_
    · exact h30
    · exact takeRot_par _ _ _ _ _ _ h38

theorem usAccept_par (s : State) (l : Nat) (f : UpFrame) (h : paramsWf s) :
    paramsWf (usAccept s l f) := by
  unfold usAccept
  extract_lets y0 y1 y2 y3 y4 y5
  clear_value y0 y1 y2
  refine Inv.cut (Q := paramsWf) (s := y3) ?_ fun h30 => ?_
  · unfold y3
    exact paramsWf.keep (takePort_keeps _ _ _ _ _) (by rfl) (takeHold_par _ _ _ _ h)
  clear_value y3
  refine Inv.cut (Q := paramsWf) (s := y4) ?_ fun h31 => ?_
  · unfold y4
    refine Inv.foldl (Q := paramsWf) ?_ fun x32 a33 h34 => ?_
    · exact h30
    · exact takeReport_par _ _ _ _ _ h34
  clear_value y4
  refine Inv.cut (Q := paramsWf) (s := y5) ?_ fun h35 => ?_
  · unfold y5
    exact takeMsg_par _ _ _ _ h31
  clear_value y5
  exact laneErrors_par _ _ _ (addP_par _ _ _ _ h35)

theorem usLost_par (s : State) (l : Nat) (h : paramsWf s) :
    paramsWf (usLost s l) := by
  unfold usLost
  extract_lets y0 y1 y2
  clear_value y0
  refine Inv.cut (Q := paramsWf) (s := y1) ?_ fun h30 => ?_
  · unfold y1
    exact incP_par _ _ _ h
  clear_value y1
  refine Inv.cut (Q := paramsWf) (s := y2) ?_ fun h31 => ?_
  · unfold y2
    refine Inv.ite (Q := paramsWf) ?_ ?_
    · exact paramsWf.keep (updLane_keeps _ _ _) (by rfl) (frameMissing_par _ _ _ h30)
    · exact h30
  clear_value y2
  exact laneError_par _ _ h31

theorem execUpstreamFrame_par (frame : UpFrame) (s : State) (h : paramsWf s) :
    OutInv paramsWf (execUpstreamFrame frame s) := by
  unfold execUpstreamFrame
  extract_lets y0 y1
  clear_value y0 y1
  refine OutInv.clocked ?_ ?_
  · exact h
  · refine OutInv.ends reelObserve_par ?_
    refine Inv.ite (Q := paramsWf) ?_ ?_
    · exact h
    · refine Inv.ite (Q := paramsWf) ?_ ?_
      · exact h
      · refine Inv.ite (Q := paramsWf) ?_ ?_
        · exact usAccept_par _ _ _ h
        · exact usLost_par _ _ h

theorem usDeadline_par (s : State) (l : Nat) (h : paramsWf s) :
    paramsWf (usDeadline s l) := by
  unfold usDeadline
  extract_lets y0 y1
  clear_value y0 y1
  refine Inv.ite (Q := paramsWf) ?_ ?_
  · exact h
  · refine Inv.ite (Q := paramsWf) ?_ ?_
    · exact usLost_par _ _ (paramsWf.keep (advanceTo_keeps _ _) (by rfl) h)
    · exact usLost_par _ _ h

theorem execUpstreamFrameDeadline_par (lane : Fin 64) (s : State) (h : paramsWf s) :
    OutInv paramsWf (execUpstreamFrameDeadline lane s) := by
  unfold execUpstreamFrameDeadline
  refine OutInv.clocked ?_ ?_
  · exact h
  · exact OutInv.ends reelObserve_par (usDeadline_par _ _ h)

theorem periodEnd_par (s : State) (h : paramsWf s) :
    paramsWf (periodEnd s) := by
  unfold periodEnd
  extract_lets y0 y1
  refine Inv.cut (Q := paramsWf) (s := y0) ?_ fun h30 => ?_
  · unfold y0
    refine Inv.foldl (Q := paramsWf) ?_ fun x31 a32 h33 => ?_
    · refine Inv.foldl (Q := paramsWf) ?_ fun x34 a35 h36 => ?_
      · exact h
      · exact usDeadline_par _ _ h36
    · exact usDeadline_par _ _ h33
  clear_value y0
  refine Inv.cut (Q := paramsWf) (s := y1) ?_ fun h37 => ?_
  · unfold y1
    exact paramsWf.keep (advanceTo_keeps _ _) (by rfl) h30
  clear_value y1
  refine Inv.foldl (Q := paramsWf) ?_ fun x38 a39 h40 => ?_
  · exact h37
  · exact silenceAt_par _ _ _ h40

/-! ### Machine/Meas.lean -/

theorem decSyncBody_par (a : Cmd) (s : State) (h : paramsWf s) :
    ResInv paramsWf (decSyncBody a s) := by
  exact paramsWf.res (decSyncBody_keeps _ _) (by rfl) h

theorem injStart_par (s : State) (a : Nat) (q : Nat) (h : paramsWf s) :
    paramsWf (injStart s a q) := by
  unfold injStart
  extract_lets y0 y1
  clear_value y0
  refine Inv.cut (Q := paramsWf) (s := y1) ?_ fun h30 => ?_
  · unfold y1
    exact putN_par _ _ _ _ h
  clear_value y1
  refine Inv.ite (Q := paramsWf) ?_ ?_
  · exact paramsWf.keep (updInj_keeps _ _ _ _) (by rfl) h30
  · exact h

theorem plausDecide_par (s : State) (k : Nat) (h : paramsWf s) :
    paramsWf (plausDecide s k) := by
  unfold plausDecide
  extract_lets y0 y1
  refine Inv.cut (Q := paramsWf) (s := y0) ?_ fun h30 => ?_
  · unfold y0
    refine Inv.foldl (Q := paramsWf) ?_ fun x31 a32 h33 => ?_
    · exact h
    · refine Inv.ite (Q := paramsWf) ?_ ?_
      · exact incP_par _ _ _ h33
      · exact h33
  clear_value y0
  refine Inv.cut (Q := paramsWf) (s := y1) ?_ fun h34 => ?_
  · unfold y1
    refine Inv.foldl (Q := paramsWf) ?_ fun x35 a36 h37 => ?_
    · exact h30
    · exact paramsWf.keep (updAdc_keeps _ _ _) (by rfl) h37
  clear_value y1
  exact paramsWf.keep (updMeas_keeps _ _) (by rfl) h34

theorem plausMark_par (s : State) (m : Nat) (h : paramsWf s) :
    paramsWf (plausMark s m) := by
  unfold plausMark
  extract_lets y0
  refine Inv.cut (Q := paramsWf) (s := y0) ?_ fun h30 => ?_
  · unfold y0
    refine Inv.foldl (Q := paramsWf) ?_ fun x31 a32 h33 => ?_
    · exact h
    · refine Inv.ite (Q := paramsWf) ?_ ?_
      · exact h33
      · exact plausDecide_par _ _ h33
  clear_value y0
  exact paramsWf.keep (updMeas_keeps _ _) (by rfl) h30

theorem ptStart_par (s : State) (v : Nat) (h : paramsWf s) :
    paramsWf (ptStart s v) := by
  unfold ptStart
  extract_lets y0 y1 y2
  clear_value y0 y1
  refine Inv.cut (Q := paramsWf) (s := y2) ?_ fun h30 => ?_
  · unfold y2
    exact putN_par _ _ _ _ h
  clear_value y2
  exact paramsWf.keep (updMeas_keeps _ _) (by rfl) h30

theorem queueResult_par (s : State) (rank : Nat) (w : Nat) (h : paramsWf s) :
    paramsWf (queueResult s rank w) := by
  unfold queueResult
  extract_lets y0 y1 y2 y3 y4 y5
  clear_value y0 y1 y2 y3 y4
  refine Inv.cut (Q := paramsWf) (s := y5) ?_ fun h30 => ?_
  · unfold y5
    exact paramsWf.keep (updMeas_keeps _ _) (by rfl) h
  clear_value y5
  refine Inv.ite (Q := paramsWf) ?_ ?_
  · exact incP_par _ _ _ h30
  · exact putN_par _ _ _ _ h30

theorem adcKick_par (s : State) (a : Nat) (h : paramsWf s) :
    paramsWf (adcKick s a) := by
  unfold adcKick
  extract_lets y0 y1 y2
  clear_value y0 y2
  refine Inv.cut (Q := paramsWf) (s := y1) ?_ fun h30 => ?_
  · unfold y1
    exact paramsWf.keep (regBegin_keeps _ _) (by rfl) h
  clear_value y1
  refine Inv.ite (Q := paramsWf) ?_ ?_
  · exact h
  · split
    · extract_lets y91 y92
      clear_value y92
      refine Inv.cut (Q := paramsWf) (s := y91) ?_ fun h121 => ?_
      · unfold y91
        exact injStart_par _ _ _ h
      clear_value y91
      exact paramsWf.keep (convStart_keeps _ _ _ _) (by rfl) h121
    · split
      · refine Inv.ite (Q := paramsWf) ?_ ?_
        · exact paramsWf.keep (convStart_keeps _ _ _ _) (by rfl) (paramsWf.keep (updAdc_keeps _ _ _) (by rfl) h)
        · exact h
      · split
        · refine Inv.ite (Q := paramsWf) ?_ ?_
          · exact paramsWf.keep (convStart_keeps _ _ _ _) (by rfl) h
          · refine Inv.ite (Q := paramsWf) ?_ ?_
            · exact paramsWf.keep (convStart_keeps _ _ _ _) (by rfl) h30
            · exact h30
        · refine Inv.ite (Q := paramsWf) ?_ ?_
          · exact paramsWf.keep (convStart_keeps _ _ _ _) (by rfl) h30
          · exact h30

theorem calBegin_par (s : State) (a : Nat) (full : Bool) (h : paramsWf s) :
    paramsWf (calBegin s a full) := by
  unfold calBegin
  extract_lets y0
  clear_value y0
  exact adcKick_par _ _ (paramsWf.keep (updAdc_keeps _ _ _) (by rfl) h)

theorem convWake_par (s : State) (a : Nat) (h : paramsWf s) :
    paramsWf (convWake s a) := by
  unfold convWake
  split
  · refine Inv.ite (Q := paramsWf) ?_ ?_
    · exact h
    · refine Inv.ite (Q := paramsWf) ?_ ?_
      · exact paramsWf.keep (pathWake_keeps _ _) (by rfl) h
      · exact adcKick_par _ _ (paramsWf.keep (advanceTo_keeps _ _) (by rfl) h)
  · exact h

theorem injReply_par (c : Option Cmd) (lost : Bool) (s : State) (h : paramsWf s) :
    paramsWf (injReply c lost s) := by
  unfold injReply
  split
  · exact answer_par _ _ _ _ _ _ h
  · exact h

theorem injTrigger_par (s : State) (a : Nat) (q : Nat) (due : Nat) (mark : Option Nat) (h : paramsWf s) :
    paramsWf (injTrigger s a q due mark).1 := by
  unfold injTrigger
  extract_lets y0 y1 y2 y3
  clear_value y1 y2 y3
  refine Inv.cut (Q := paramsWf) (s := y0) ?_ fun h30 => ?_
  · unfold y0
    exact paramsWf.keep (pathWake_keeps _ _) (by rfl) h
  clear_value y0
  split
  · dsimp only
    exact h30
  · split
    · dsimp only
      exact adcKick_par _ _ (paramsWf.keep (updInj_keeps _ _ _ _) (by rfl) h30)
    · dsimp only
      exact paramsWf.keep (updInj_keeps _ _ _ _) (by rfl) h30
    · dsimp only
      exact incP_par _ _ _ h30

theorem adcCalBody_par (op : Nat) (full : Bool) (c : Cmd) (s : State) (h : paramsWf s) :
    ResInv paramsWf (adcCalBody op full c s) := by
  unfold adcCalBody
  extract_lets y0
  clear_value y0
  refine ResInv.check ?_
  refine ResInv.accepted ?_ fun x30 h31 => ?_
  · exact paramsWf.keep (startOp_keeps _ _ _ _ _) (by rfl) h
  · exact calBegin_par _ _ _ h31

theorem adcInjectBody_par (c : Cmd) (s : State) (h : paramsWf s) :
    ResInv paramsWf (adcInjectBody c s) := by
  unfold adcInjectBody
  extract_lets y0 y1 y2 y3 y4
  clear_value y0 y1 y2 y3
  refine Inv.cut (Q := paramsWf) (s := y4.1) ?_ fun h30 => ?_
  · unfold y4
    exact injTrigger_par _ _ _ _ _ h
  clear_value y4
  refine ResInv.check ?_
  refine ResInv.ite ?_ ?_
  · exact ResInv.ok h30
  · exact ResInv.later (paramsWf.keep (updAdc_keeps _ _ _) (by rfl) h)

theorem calEnd_par (s : State) (a : Nat) (op : Nat) (flag : Nat) (id : Nat) (m : Int) (x : Int) (bad : Option Int) (h
      : paramsWf s) :
    paramsWf (calEnd s a op flag id m x bad) := by
  unfold calEnd
  extract_lets y0 y1 y2
  refine Inv.cut (Q := paramsWf) (s := y0) ?_ fun h30 => ?_
  · unfold y0
    exact paramsWf.keep (updAdc_keeps _ _ _) (by rfl) h
  clear_value y0
  refine Inv.cut (Q := paramsWf) (s := y1) ?_ fun h31 => ?_
  · unfold y1
    split
    · exact h30
    · exact tallyTouch_par _ _ (orP_par _ _ _ _ (putI_par _ _ _ _ h30))
  clear_value y1
  refine Inv.cut (Q := paramsWf) (s := y2) ?_ fun h32 => ?_
  · unfold y2
    split
    · exact h31
    · split
      · exact completeErr_par _ _ _ h31
      · exact completeOk_par _ _ _ h31
  clear_value y2
  exact adcKick_par _ _ h32

theorem execAdcCalFull_par (c : Cmd) (s : State) (h : paramsWf s) :
    OutInv paramsWf (execAdcCalFull c s) := by
  unfold execAdcCalFull
  refine OutInv.ends reelObserve_par ?_
  refine Inv.runCmd (Q := paramsWf) goodPacket_par answer_par ?_ fun x0 _ h1 => ?_
  · exact h
  · exact adcCalBody_par _ _ _ _ h1

theorem execAdcCalFullDone_par (adc : Fin 2) (s : State) (h : paramsWf s) :
    OutInv paramsWf (execAdcCalFullDone adc s) := by
  unfold execAdcCalFullDone
  extract_lets y0 y1
  clear_value y0 y1
  refine OutInv.clocked ?_ ?_
  · exact h
  · split
    · exact OutInv.ends reelObserve_par h
    · extract_lets y90 y91
      clear_value y90 y91
      exact OutInv.ends reelObserve_par (calEnd_par _ _ _ _ _ _ _ _ h)

theorem execAdcCalZero_par (c : Cmd) (s : State) (h : paramsWf s) :
    OutInv paramsWf (execAdcCalZero c s) := by
  unfold execAdcCalZero
  refine OutInv.ends reelObserve_par ?_
  refine Inv.runCmd (Q := paramsWf) goodPacket_par answer_par ?_ fun x0 _ h1 => ?_
  · exact h
  · exact adcCalBody_par _ _ _ _ h1

theorem execAdcCalZeroDone_par (adc : Fin 2) (s : State) (h : paramsWf s) :
    OutInv paramsWf (execAdcCalZeroDone adc s) := by
  unfold execAdcCalZeroDone
  extract_lets y0
  clear_value y0
  refine OutInv.clocked ?_ ?_
  · exact h
  · split
    · exact OutInv.ends reelObserve_par h
    · extract_lets y90
      clear_value y90
      exact OutInv.ends reelObserve_par (calEnd_par _ _ _ _ _ _ _ _ h)

theorem execAdcInject_par (c : Cmd) (s : State) (h : paramsWf s) :
    OutInv paramsWf (execAdcInject c s) := by
  unfold execAdcInject
  refine OutInv.ends reelObserve_par ?_
  refine Inv.runCmd (Q := paramsWf) goodPacket_par answer_par ?_ fun x0 _ h1 => ?_
  · exact h
  · exact adcInjectBody_par _ _ h1

theorem execDecSync_par (c : Cmd) (s : State) (h : paramsWf s) :
    OutInv paramsWf (execDecSync c s) := by
  unfold execDecSync
  refine OutInv.ends reelObserve_par ?_
  refine Inv.runCmd (Q := paramsWf) goodPacket_par answer_par ?_ fun x0 _ h1 => ?_
  · exact h
  · exact decSyncBody_par _ _ h1

theorem execDsyncFall_par (s : State) (h : paramsWf s) :
    OutInv paramsWf (execDsyncFall s) := by
  unfold execDsyncFall
  extract_lets y0
  clear_value y0
  refine OutInv.clocked ?_ ?_
  · exact h
  · refine OutInv.ite ?_ ?_
    · exact OutInv.ends reelObserve_par (incP_par _ _ _ (paramsWf.keep (decSyncAt_keeps _ _) (by rfl) h))
    · exact OutInv.ends reelObserve_par h

theorem deliver_par (s : State) (r : Result) (h : paramsWf s) :
    paramsWf (deliver s r) := by
  unfold deliver
  extract_lets y0 y1
  refine Inv.cut (Q := paramsWf) (s := y0) ?_ fun h30 => ?_
  · unfold y0
    refine Inv.ite (Q := paramsWf) ?_ ?_
    · exact putN_par _ _ _ _ h
    · exact h
  clear_value y0
  refine Inv.cut (Q := paramsWf) (s := y1) ?_ fun h31 => ?_
  · unfold y1
    refine Inv.ite (Q := paramsWf) ?_ ?_
    · exact queueResult_par _ _ _ h30
    · exact h30
  clear_value y1
  exact reelResult_par _ _ _ _ h31

theorem decMark_par (s : State) (h : paramsWf s) :
    paramsWf (decMark s) := by
  unfold decMark
  extract_lets y0
  refine Inv.cut (Q := paramsWf) (s := y0) ?_ fun h30 => ?_
  · unfold y0
    refine Inv.foldl (Q := paramsWf) ?_ fun x61 a62 h63 => ?_
    · exact h
    · extract_lets y64 y65 y66 y67
      clear_value y64 y65 y66
      refine Inv.cut (Q := paramsWf) (s := y67) ?_ fun h94 => ?_
      · unfold y67
        exact paramsWf.keep (updDec_keeps _ _ _) (by rfl) h63
      clear_value y67
      refine Inv.ite (Q := paramsWf) ?_ ?_
      · refine Inv.ite (Q := paramsWf) ?_ ?_
        · exact paramsWf.keep (causeGone_keeps _ _ _) (by rfl) h94
        · exact raiseFault_par _ _ _ h94
      · exact h63
  clear_value y0
  refine Inv.ite (Q := paramsWf) ?_ ?_
  · refine incP_par _ _ _ ?_
    exact paramsWf.keep (decSyncAt_keeps _ _) (by rfl) (paramsWf.keep (updMeas_keeps _ _) (by rfl) h30)
  · exact h30

theorem decOutput_par (s : State) (n : Nat) (y : Int) (sat : Nat) (h : paramsWf s) :
    paramsWf (decOutput s n y sat) := by
  unfold decOutput
  extract_lets y0 y1 y2 y3 y4 y5 y6 y7 y8 y9
  clear_value y0 y1 y2 y3 y4 y5 y6 y7
  refine Inv.cut (Q := paramsWf) (s := y8) ?_ fun h30 => ?_
  · unfold y8
    exact paramsWf.keep (updDec_keeps _ _ _) (by rfl) h
  clear_value y8
  refine Inv.cut (Q := paramsWf) (s := y9) ?_ fun h31 => ?_
  · unfold y9
    exact addP_par _ _ _ _ h30
  clear_value y9
  exact deliver_par _ _ h31

theorem execPathTestDone_par (s : State) (h : paramsWf s) :
    OutInv paramsWf (execPathTestDone s) := by
  unfold execPathTestDone
  extract_lets y0
  refine Inv.cut (Q := paramsWf) (s := y0) ?_ fun h30 => ?_
  · unfold y0
    exact paramsWf.keep (updMeas_keeps _ _) (by rfl) h
  clear_value y0
  refine OutInv.clocked ?_ ?_
  · exact h
  · split
    · extract_lets y91 y92 y93
      clear_value y91 y92
      refine Inv.cut (Q := paramsWf) (s := y93) ?_ fun h121 => ?_
      · unfold y93
        exact putN_par _ _ _ _ h30
      clear_value y93
      refine OutInv.ite ?_ ?_
      · refine OutInv.ends reelObserve_par ?_
        refine Inv.ite (Q := paramsWf) ?_ ?_
        · exact paramsWf.keep (causeGone_keeps _ _ _) (by rfl) h121
        · exact raiseFault_par _ _ _ h121
      · exact OutInv.ends reelObserve_par h
    · exact OutInv.ends reelObserve_par h

theorem plausCompare_par (s : State) (p : Nat) (k : Nat) (d : Int) (h : paramsWf s) :
    paramsWf (plausCompare s p k d) := by
  unfold plausCompare
  extract_lets y0 y1 y2 y3
  clear_value y1 y2
  refine Inv.cut (Q := paramsWf) (s := y0) ?_ fun h30 => ?_
  · unfold y0
    exact putI_par _ _ _ _ h
  clear_value y0
  refine Inv.cut (Q := paramsWf) (s := y3) ?_ fun h31 => ?_
  · unfold y3
    exact paramsWf.keep (updMeas_keeps _ _) (by rfl) h30
  clear_value y3
  refine Inv.ite (Q := paramsWf) ?_ ?_
  · exact paramsWf.keep (causeGone_keeps _ _ _) (by rfl) h31
  · refine Inv.ite (Q := paramsWf) ?_ ?_
    · exact raiseFault_par _ _ _ h31
    · exact h31

theorem plausResult_par (s : State) (a : Nat) (ch : Nat) (k : Nat) (code : Nat) (h : paramsWf s) :
    paramsWf (plausResult s a ch k code) := by
  unfold plausResult
  extract_lets y0 y1 y2
  clear_value y1 y2
  refine Inv.cut (Q := paramsWf) (s := y0) ?_ fun h30 => ?_
  · unfold y0
    exact paramsWf.keep (updAdc_keeps _ _ _) (by rfl) h
  clear_value y0
  refine Inv.ite (Q := paramsWf) ?_ ?_
  · exact h30
  · refine Inv.foldl (Q := paramsWf) ?_ fun x31 a32 h33 => ?_
    · exact h30
    · refine Inv.ite (Q := paramsWf) ?_ ?_
      · exact plausCompare_par _ _ _ _ h33
      · exact h33

theorem regTrigger_par (s : State) (a : Nat) (mark : Option Nat) (h : paramsWf s) :
    paramsWf (regTrigger s a mark) := by
  unfold regTrigger
  extract_lets y0 y1 y2
  clear_value y1 y2
  refine Inv.cut (Q := paramsWf) (s := y0) ?_ fun h30 => ?_
  · unfold y0
    exact paramsWf.keep (pathWake_keeps _ _) (by rfl) h
  clear_value y0
  refine Inv.ite (Q := paramsWf) ?_ ?_
  · exact h30
  · refine Inv.ite (Q := paramsWf) ?_ ?_
    · exact incP_par _ _ _ h30
    · refine Inv.ite (Q := paramsWf) ?_ ?_
      · exact raiseFault_par _ _ _ (incP_par _ _ _ (paramsWf.keep (updAdc_keeps _ _ _) (by rfl) h30))
      · exact adcKick_par _ _ (paramsWf.keep (updAdc_keeps _ _ _) (by rfl) h30)

theorem stuckCheck_par (s : State) (n : Nat) (run : Nat) (h : paramsWf s) :
    paramsWf (stuckCheck s n run) := by
  unfold stuckCheck
  extract_lets y0
  clear_value y0
  refine Inv.ite (Q := paramsWf) ?_ ?_
  · exact raiseFault_par _ _ _ (paramsWf.keep (updDec_keeps _ _ _) (by rfl) h)
  · exact h

theorem adcResult_par (s : State) (a : Nat) (ch : Nat) (raw : Nat) (count : Nat) (mark : Option Nat) (inj : Bool)
      (delayed : Bool) (h : paramsWf s) :
    paramsWf (adcResult s a ch raw count mark inj delayed) := by
  unfold adcResult
  extract_lets y0 y1 y2 y3
  clear_value y0 y1 y2
  refine Inv.cut (Q := paramsWf) (s := y3) ?_ fun h30 => ?_
  · unfold y3
    exact deliver_par _ _ h
  clear_value y3
  split
  · refine Inv.ite (Q := paramsWf) ?_ ?_
    · exact h30
    · exact plausResult_par _ _ _ _ _ h30
  · exact h30

theorem decBit_par (s : State) (n : Nat) (b : Bool) (h : paramsWf s) :
    paramsWf (decBit s n b) := by
  unfold decBit
  extract_lets y0 y1 y2 y3 y4 y5 y6
  clear_value y0 y1 y4 y5
  refine Inv.cut (Q := paramsWf) (s := y2) ?_ fun h30 => ?_
  · unfold y2
    exact paramsWf.keep (updDec_keeps _ _ _) (by rfl) h
  clear_value y2
  refine Inv.cut (Q := paramsWf) (s := y3) ?_ fun h31 => ?_
  · unfold y3
    refine Inv.ite (Q := paramsWf) ?_ ?_
    · exact paramsWf.keep (causeGone_keeps _ _ _) (by rfl) (paramsWf.keep (updDec_keeps _ _ _) (by rfl) h30)
    · exact h30
  clear_value y3
  refine Inv.cut (Q := paramsWf) (s := y6) ?_ fun h32 => ?_
  · unfold y6
    exact paramsWf.keep (updDec_keeps _ _ _) (by rfl) h31
  clear_value y6
  split
  · exact decOutput_par _ _ _ _ h32
  · refine addP_par _ _ _ _ ?_
    refine Inv.ite (Q := paramsWf) ?_ ?_
    · exact h32
    · exact paramsWf.keep (updDec_keeps _ _ _) (by rfl) h32

theorem execAdcSequenceTrigger_par (adc : Fin 2) (seq : Fin 9) (s : State) (h : paramsWf s) :
    OutInv paramsWf (execAdcSequenceTrigger adc seq s) := by
  unfold execAdcSequenceTrigger
  extract_lets y0
  clear_value y0
  refine OutInv.clocked ?_ ?_
  · exact h
  · split
    · exact OutInv.ends reelObserve_par h
    · extract_lets y90 y91
      refine Inv.cut (Q := paramsWf) (s := y90) ?_ fun h120 => ?_
      · unfold y90
        exact paramsWf.keep (advanceTo_keeps _ _) (by rfl) h
      clear_value y90
      refine Inv.cut (Q := paramsWf) (s := y91) ?_ fun h121 => ?_
      · unfold y91
        exact paramsWf.keep (updAdc_keeps _ _ _) (by rfl) h120
      clear_value y91
      refine OutInv.ends reelObserve_par ?_
      refine Inv.ite (Q := paramsWf) ?_ ?_
      · exact injReply_par _ _ _ (injTrigger_par _ _ _ _ _ h121)
      · exact regTrigger_par _ _ _ h121

theorem execDecSlot_par (channel : Fin 16) (bits : List Bool) (s : State) (h : paramsWf s) :
    OutInv paramsWf (execDecSlot channel bits s) := by
  unfold execDecSlot
  extract_lets y0 y1 y2
  clear_value y0 y1
  refine Inv.cut (Q := paramsWf) (s := y2) ?_ fun h30 => ?_
  · unfold y2
    exact paramsWf.keep (advanceTo_keeps _ _) (by rfl) h
  clear_value y2
  refine OutInv.clocked ?_ ?_
  · exact h
  · refine OutInv.ite ?_ ?_
    · refine OutInv.ends reelObserve_par ?_
      refine Inv.foldl (Q := paramsWf) ?_ fun x151 a152 h153 => ?_
      · exact h30
      · extract_lets y154
        refine Inv.cut (Q := paramsWf) (s := y154) ?_ fun h184 => ?_
        · unfold y154
          exact decBit_par _ _ _ h153
        clear_value y154
        exact stuckCheck_par _ _ _ h184
    · exact OutInv.ends reelObserve_par h

theorem execDecStuck_par (channel : Fin 16) (s : State) (h : paramsWf s) :
    OutInv paramsWf (execDecStuck channel s) := by
  unfold execDecStuck
  extract_lets y0
  clear_value y0
  refine OutInv.clocked ?_ ?_
  · exact h
  · refine OutInv.ends reelObserve_par ?_
    refine Inv.ite (Q := paramsWf) ?_ ?_
    · exact stuckCheck_par _ _ _ h
    · exact h

theorem injConverted_par (s : State) (a : Nat) (q : Nat) (ch : Nat) (raw : Nat) (h : paramsWf s) :
    paramsWf (injConverted s a q ch raw) := by
  unfold injConverted
  extract_lets y0 y1 y2 y3
  clear_value y0 y3
  refine Inv.cut (Q := paramsWf) (s := y1) ?_ fun h30 => ?_
  · unfold y1
    exact adcResult_par _ _ _ _ _ _ _ _ h
  clear_value y1
  refine Inv.cut (Q := paramsWf) (s := y2) ?_ fun h31 => ?_
  · unfold y2
    exact paramsWf.keep (updAdc_keeps _ _ _) (by rfl) h30
  clear_value y2
  refine Inv.ite (Q := paramsWf) ?_ ?_
  · exact paramsWf.keep (updInj_keeps _ _ _ _) (by rfl) h30
  · split
    · exact paramsWf.keep (updInj_keeps _ _ _ _) (by rfl) h31
    · exact paramsWf.keep (updInj_keeps _ _ _ _) (by rfl) h31

theorem regConverted_par (s : State) (a : Nat) (ch : Nat) (raw : Nat) (h : paramsWf s) :
    paramsWf (regConverted s a ch raw) := by
  unfold regConverted
  extract_lets y0 y1 y2
  clear_value y0
  refine Inv.cut (Q := paramsWf) (s := y1) ?_ fun h30 => ?_
  · unfold y1
    exact adcResult_par _ _ _ _ _ _ _ _ h
  clear_value y1
  refine Inv.cut (Q := paramsWf) (s := y2) ?_ fun h31 => ?_
  · unfold y2
    exact paramsWf.keep (updAdc_keeps _ _ _) (by rfl) h30
  clear_value y2
  refine Inv.ite (Q := paramsWf) ?_ ?_
  · exact h30
  · refine Inv.ite (Q := paramsWf) ?_ ?_
    · exact paramsWf.keep (updAdc_keeps _ _ _) (by rfl) h30
    · refine Inv.ite (Q := paramsWf) ?_ ?_
      · exact paramsWf.keep (causeGone_keeps _ _ _) (by rfl) h31
      · exact h31

theorem execAdcConversionEnd_par (adc : Fin 2) (raw : BitVec 16) (s : State) (h : paramsWf s) :
    OutInv paramsWf (execAdcConversionEnd adc raw s) := by
  unfold execAdcConversionEnd
  extract_lets y0 y1 y2
  clear_value y0 y1
  refine Inv.cut (Q := paramsWf) (s := y2) ?_ fun h30 => ?_
  · unfold y2
    exact convWake_par _ _ h
  clear_value y2
  refine OutInv.clocked ?_ ?_
  · exact h
  · split
    · exact OutInv.ends reelObserve_par h30
    · extract_lets y91 y92 y93 y94
      refine Inv.cut (Q := paramsWf) (s := y91) ?_ fun h121 => ?_
      · unfold y91
        exact paramsWf.keep (advanceTo_keeps _ _) (by rfl) h30
      clear_value y91
      refine Inv.cut (Q := paramsWf) (s := y92) ?_ fun h122 => ?_
      · unfold y92
        exact paramsWf.keep (updAdc_keeps _ _ _) (by rfl) h121
      clear_value y92
      refine Inv.cut (Q := paramsWf) (s := y93) ?_ fun h123 => ?_
      · unfold y93
        split
        · exact h122
        · refine Inv.ite (Q := paramsWf) ?_ ?_
          · exact fdcResult_par _ _ _ h122
          · exact h122
      clear_value y93
      refine Inv.cut (Q := paramsWf) (s := y94) ?_ fun h124 => ?_
      · unfold y94
        split
        · exact regConverted_par _ _ _ _ h123
        · exact injConverted_par _ _ _ _ _ h123
        · exact paramsWf.keep (updAdc_keeps _ _ _) (by rfl) h123
        · exact paramsWf.keep (pathConverted_keeps _ _) (by rfl) h123
      clear_value y94
      exact OutInv.ends reelObserve_par (adcKick_par _ _ h124)

/-! ### Machine/Chopper.lean -/

theorem chopCleared_par (s : State) (code : Nat) (inst : Nat) (h : paramsWf s) :
    paramsWf (chopCleared s code inst) := by
  unfold chopCleared
  extract_lets y0
  refine Inv.ite (Q := paramsWf) ?_ ?_
  · unfold y0
    extract_lets y30 y31 y32
    clear_value y30 y31
    refine Inv.cut (Q := paramsWf) (s := y32) ?_ fun h60 => ?_
    · unfold y32
      exact paramsWf.keep (updLeg_keeps _ _ _) (by rfl) h
    clear_value y32
    refine Inv.ite (Q := paramsWf) ?_ ?_
    · exact putN_par _ _ _ _ h60
    · exact h60
  · refine Inv.ite (Q := paramsWf) ?_ ?_
    · unfold y0
      extract_lets y61 y62 y63
      clear_value y61 y62
      refine Inv.cut (Q := paramsWf) (s := y63) ?_ fun h91 => ?_
      · unfold y63
        exact paramsWf.keep (updLeg_keeps _ _ _) (by rfl) h
      clear_value y63
      refine Inv.ite (Q := paramsWf) ?_ ?_
      · exact putN_par _ _ _ _ h91
      · exact h91
    · refine Inv.ite (Q := paramsWf) ?_ ?_
      · refine Inv.foldl (Q := paramsWf) ?_ fun x92 a93 h94 => ?_
        · exact h
        · refine Inv.ite (Q := paramsWf) ?_ ?_
          · unfold y0
            extract_lets y95 y96 y97
            clear_value y95 y96
            refine Inv.cut (Q := paramsWf) (s := y97) ?_ fun h125 => ?_
            · unfold y97
              exact paramsWf.keep (updLeg_keeps _ _ _) (by rfl) h94
            clear_value y97
            refine Inv.ite (Q := paramsWf) ?_ ?_
            · exact putN_par _ _ _ _ h125
            · exact h125
          · exact h94
      · exact h

theorem cmpSelftestBody_par (c : Cmd) (s : State) (h : paramsWf s) :
    ResInv paramsWf (cmpSelftestBody c s) := by
  exact paramsWf.res (cmpSelftestBody_keeps _ _) (by rfl) h

theorem undoOn_par (s : State) (n : Nat) (h : paramsWf s) :
    paramsWf (undoOn s n) := by
  unfold undoOn
  split
  · exact h
  · extract_lets y30
    refine Inv.cut (Q := paramsWf) (s := y30) ?_ fun h60 => ?_
    · unfold y30
      exact paramsWf.keep (updLeg_keeps _ _ _) (by rfl) h
    clear_value y30
    refine Inv.ite (Q := paramsWf) ?_ ?_
    · exact h
    · refine Inv.ite (Q := paramsWf) ?_ ?_
      · exact h60
      · exact paramsWf.keep (causeGone_keeps _ _ _) (by rfl) (putN_par _ _ _ _ h60)

theorem legOff_par (s : State) (n : Nat) (h : paramsWf s) :
    paramsWf (legOff s n) := by
  unfold legOff
  exact paramsWf.keep (updLeg_keeps _ _ _) (by rfl) (undoOn_par _ _ h)

theorem chopCommit_par (s : State) (n : Nat) (h : paramsWf s) :
    paramsWf (chopCommit s n) := by
  unfold chopCommit
  extract_lets y0
  refine Inv.cut (Q := paramsWf) (s := y0) ?_ fun h30 => ?_
  · unfold y0
    refine Inv.foldl (Q := paramsWf) ?_ fun x61 a62 h63 => ?_
    · exact h
    · split
      · extract_lets y94
        refine Inv.cut (Q := paramsWf) (s := y94) ?_ fun h124 => ?_
        · unfold y94
          exact putP_par _ _ _ _ h63
        clear_value y94
        exact paramsWf.eq (s := y94) rfl h124
      · exact h63
  clear_value y0
  refine Inv.ite (Q := paramsWf) ?_ ?_
  · exact tallyStale_par _ (paramsWf.eq (s := y0) rfl h30)
  · exact h

theorem legLatch_par (s : State) (n : Nat) (f : Leg → Leg) (h : paramsWf s) :
    paramsWf (legLatch s n f) := by
  unfold legLatch
  exact paramsWf.keep (updLeg_keeps _ _ _) (by rfl) (legOff_par _ _ h)

theorem dclinkLatch_par (s : State) (h : paramsWf s) :
    paramsWf (dclinkLatch s) := by
  unfold dclinkLatch
  refine Inv.foldl (Q := paramsWf) ?_ fun x0 a1 h2 => ?_
  · exact h
  · refine Inv.ite (Q := paramsWf) ?_ ?_
    · exact h2
    · exact legLatch_par _ _ _ h2

theorem execChopTripReleased_par (leg : Fin 4) (s : State) (h : paramsWf s) :
    OutInv paramsWf (execChopTripReleased leg s) := by
  unfold execChopTripReleased
  extract_lets y0
  clear_value y0
  refine OutInv.clocked ?_ ?_
  · exact h
  · refine OutInv.ends reelObserve_par ?_
    exact paramsWf.keep (causeGone_keeps _ _ _) (by rfl) (paramsWf.keep (updLeg_keeps _ _ _) (by rfl) h)

theorem execCmpSelftest_par (c : Cmd) (s : State) (h : paramsWf s) :
    OutInv paramsWf (execCmpSelftest c s) := by
  unfold execCmpSelftest
  refine OutInv.ends reelObserve_par ?_
  refine Inv.runCmd (Q := paramsWf) goodPacket_par answer_par ?_ fun x0 _ h1 => ?_
  · exact h
  · exact cmpSelftestBody_par _ _ h1

theorem execCmpSelftestDone_par (leg : Fin 4) (steps : BitVec 3) (s : State) (h : paramsWf s) :
    OutInv paramsWf (execCmpSelftestDone leg steps s) := by
  unfold execCmpSelftestDone
  extract_lets y0 y1
  clear_value y0 y1
  refine OutInv.clocked ?_ ?_
  · exact h
  · split
    · exact OutInv.ends reelObserve_par h
    · extract_lets y90 y91
      refine Inv.cut (Q := paramsWf) (s := y90) ?_ fun h120 => ?_
      · unfold y90
        exact paramsWf.keep (advanceTo_keeps _ _) (by rfl) h
      clear_value y90
      refine Inv.cut (Q := paramsWf) (s := y91) ?_ fun h121 => ?_
      · unfold y91
        exact paramsWf.keep (updLeg_keeps _ _ _) (by rfl) h120
      clear_value y91
      exact OutInv.ends reelObserve_par (completeOk_par _ _ _ h121)

theorem execGateSupplyOk_par (leg : Fin 4) (low : Bool) (s : State) (h : paramsWf s) :
    OutInv paramsWf (execGateSupplyOk leg low s) := by
  unfold execGateSupplyOk
  extract_lets y0 y1
  clear_value y0
  refine Inv.cut (Q := paramsWf) (s := y1) ?_ fun h30 => ?_
  · unfold y1
    exact paramsWf.keep (updLeg_keeps _ _ _) (by rfl) h
  clear_value y1
  refine OutInv.clocked ?_ ?_
  · exact h
  · refine OutInv.ends reelObserve_par ?_
    refine Inv.ite (Q := paramsWf) ?_ ?_
    · exact paramsWf.keep (causeGone_keeps _ _ _) (by rfl) h30
    · exact h30

theorem gsAct_par (s : State) (n : Nat) (h : paramsWf s) :
    paramsWf (gsAct s n) := by
  unfold gsAct
  extract_lets y0 y1
  clear_value y0
  refine Inv.cut (Q := paramsWf) (s := y1) ?_ fun h30 => ?_
  · unfold y1
    refine Inv.ite (Q := paramsWf) ?_ ?_
    · exact paramsWf.keep (updLeg_keeps _ _ _) (by rfl) (legOff_par _ _ h)
    · exact h
  clear_value y1
  refine Inv.ite (Q := paramsWf) ?_ ?_
  · exact h
  · exact raiseFault_par _ _ _ h30

theorem hystCycle_par (s : State) (n : Nat) (h : paramsWf s) :
    paramsWf (hystCycle s n).1 := by
  unfold hystCycle
  extract_lets y0 y1 y2 y3 y4 y5 y6 y7 y8 y9 y10 y11 y12
  clear_value y0 y1 y3 y4 y5 y6 y7 y9 y10
  refine Inv.cut (Q := paramsWf) (s := y2) ?_ fun h30 => ?_
  · unfold y2
    refine Inv.ite (Q := paramsWf) ?_ ?_
    · exact paramsWf.keep (updLeg_keeps _ _ _) (by rfl) (putI_par _ _ _ _ h)
    · exact h
  clear_value y2
  refine Inv.cut (Q := paramsWf) (s := y8) ?_ fun h31 => ?_
  · unfold y8
    refine Inv.ite (Q := paramsWf) ?_ ?_
    · exact putI_par _ _ _ _ h30
    · exact h30
  clear_value y8
  refine Inv.cut (Q := paramsWf) (s := y11) ?_ fun h32 => ?_
  · unfold y11
    exact paramsWf.keep (updLeg_keeps _ _ _) (by rfl) h31
  clear_value y11
  refine Inv.cut (Q := paramsWf) (s := y12) ?_ fun h33 => ?_
  · unfold y12
    refine Inv.ite (Q := paramsWf) ?_ ?_
    · exact paramsWf.keep (causeGone_keeps _ _ _) (by rfl) h32
    · refine Inv.ite (Q := paramsWf) ?_ ?_
      · exact raiseFault_par _ _ _ h32
      · exact h32
  clear_value y12
  split
  · dsimp only
    exact h
  · dsimp only
    exact h33

theorem interlock_par (s : State) (n : Nat) (h : paramsWf s) :
    paramsWf (interlock s n) := by
  unfold interlock
  extract_lets y0 y1 y2 y3 y4 y5 y6
  clear_value y0 y1 y2 y3 y4 y5
  refine Inv.cut (Q := paramsWf) (s := y6) ?_ fun h30 => ?_
  · unfold y6
    exact paramsWf.keep (updLeg_keeps _ _ _) (by rfl) (addP_par _ _ _ _ h)
  clear_value y6
  refine Inv.ite (Q := paramsWf) ?_ ?_
  · exact raiseFault_par _ _ _ h30
  · exact h

theorem scClose_par (s : State) (h : paramsWf s) :
    paramsWf (scClose s) := by
  unfold scClose
  extract_lets y0 y1
  refine Inv.cut (Q := paramsWf) (s := y1) ?_ fun h30 => ?_
  · unfold y1
    exact paramsWf.eq (s := s) rfl h
  clear_value y1
  split
  · exact h
  · extract_lets y61
    refine Inv.cut (Q := paramsWf) (s := y61) ?_ fun h91 => ?_
    · unfold y61
      exact raiseFault_par _ _ _ h30
    clear_value y61
    refine Inv.ite (Q := paramsWf) ?_ ?_
    · refine Inv.ite (Q := paramsWf) ?_ ?_
      · exact h91
      · exact paramsWf.keep (causeGone_keeps _ _ _) (by rfl) h91
    · exact h30

theorem scConfirm_par (s : State) (n : Nat) (h : paramsWf s) :
    paramsWf (scConfirm s n) := by
  unfold scConfirm
  extract_lets y0
  refine Inv.cut (Q := paramsWf) (s := y0) ?_ fun h30 => ?_
  · unfold y0
    refine Inv.ite (Q := paramsWf) ?_ ?_
    · exact scClose_par _ h
    · exact h
  clear_value y0
  split
  · exact paramsWf.keep (scOpen_keeps _ _ _) (by rfl) (legLatch_par _ _ _ h30)
  · refine Inv.ite (Q := paramsWf) ?_ ?_
    · exact h30
    · refine raiseFault_par _ _ _ ?_
      exact paramsWf.keep (scOpen_keeps _ _ _) (by rfl) (dclinkLatch_par _ (legLatch_par _ _ _ h30))

theorem tripAct_par (s : State) (n : Nat) (h : paramsWf s) :
    paramsWf (tripAct s n) := by
  unfold tripAct
  extract_lets y0 y1 y2 y3
  clear_value y0
  refine Inv.cut (Q := paramsWf) (s := y1) ?_ fun h30 => ?_
  · unfold y1
    exact legOff_par _ _ h
  clear_value y1
  refine Inv.cut (Q := paramsWf) (s := y2) ?_ fun h31 => ?_
  · unfold y2
    exact paramsWf.keep (updLeg_keeps _ _ _) (by rfl) h30
  clear_value y2
  refine Inv.cut (Q := paramsWf) (s := y3) ?_ fun h32 => ?_
  · unfold y3
    exact incP_par _ _ _ (putN_par _ _ _ _ h31)
  clear_value y3
  refine Inv.ite (Q := paramsWf) ?_ ?_
  · exact h
  · refine Inv.ite (Q := paramsWf) ?_ ?_
    · exact h30
    · refine Inv.ite (Q := paramsWf) ?_ ?_
      · exact raiseFault_par _ _ _ (legLatch_par _ _ _ h32)
      · exact h32

theorem turnOn_par (s : State) (n : Nat) (out : Nat) (f : Leg → Leg) (h : paramsWf s) :
    paramsWf (turnOn s n out f) := by
  unfold turnOn
  extract_lets y0 y1 y2
  clear_value y0 y1
  refine Inv.cut (Q := paramsWf) (s := y2) ?_ fun h30 => ?_
  · unfold y2
    exact interlock_par _ _ (paramsWf.keep (updLeg_keeps _ _ _) (by rfl) h)
  clear_value y2
  exact paramsWf.keep (updLeg_keeps _ _ _) (by rfl) h30

theorem cmpCauses_par (s : State) (h : paramsWf s) :
    paramsWf (cmpCauses s) := by
  unfold cmpCauses
  extract_lets y0
  refine Inv.cut (Q := paramsWf) (s := y0) ?_ fun h30 => ?_
  · unfold y0
    refine Inv.foldl (Q := paramsWf) ?_ fun x31 a32 h33 => ?_
    · exact h
    · refine Inv.ite (Q := paramsWf) ?_ ?_
      · exact h33
      · exact causeSet_par _ _ _ _ h33
  clear_value y0
  refine Inv.ite (Q := paramsWf) ?_ ?_
  · exact h30
  · exact causeSet_par _ _ _ _ h30

theorem cmpLevels_par (s : State) (v : BitVec 4) (h : paramsWf s) :
    paramsWf (cmpLevels s v) := by
  unfold cmpLevels
  refine cmpCauses_par _ ?_
  refine Inv.foldl (Q := paramsWf) ?_ fun x0 a1 h2 => ?_
  · exact h
  · exact paramsWf.keep (updLeg_keeps _ _ _) (by rfl) h2

theorem cycleDuty_par (s : State) (n : Nat) (h : paramsWf s) :
    paramsWf (cycleDuty s n) := by
  unfold cycleDuty
  extract_lets y0 y1 y2 y3 y4 y5
  clear_value y2 y3 y4
  refine Inv.cut (Q := paramsWf) (s := y0.1) ?_ fun h30 => ?_
  · unfold y0
    split
    · exact hystCycle_par _ _ h
    · dsimp only
      exact h
    · dsimp only
      exact h
    · dsimp only
      exact h
  clear_value y0
  refine Inv.cut (Q := paramsWf) (s := y1) ?_ fun h31 => ?_
  · unfold y1
    exact h30
  clear_value y1
  refine Inv.cut (Q := paramsWf) (s := y5) ?_ fun h32 => ?_
  · unfold y5
    exact paramsWf.keep (updLeg_keeps _ _ _) (by rfl) h31
  clear_value y5
  refine Inv.ite (Q := paramsWf) ?_ ?_
  · exact raiseFault_par _ _ _ h32
  · exact paramsWf.keep (causeGone_keeps _ _ _) (by rfl) h32

theorem execChopBlankingEnd_par (leg : Fin 4) (s : State) (h : paramsWf s) :
    OutInv paramsWf (execChopBlankingEnd leg s) := by
  unfold execChopBlankingEnd
  extract_lets y0 y1 y2
  clear_value y0 y1
  refine Inv.cut (Q := paramsWf) (s := y2) ?_ fun h30 => ?_
  · unfold y2
    refine Inv.ite (Q := paramsWf) ?_ ?_
    · exact h
    · exact paramsWf.keep (advanceTo_keeps _ _) (by rfl) h
  clear_value y2
  refine OutInv.clocked ?_ ?_
  · exact h
  · refine OutInv.ends reelObserve_par ?_
    refine Inv.ite (Q := paramsWf) ?_ ?_
    · exact h30
    · exact tripAct_par _ _ h30

theorem execChopScConfirm_par (leg : Fin 4) (held : Nat) (s : State) (h : paramsWf s) :
    OutInv paramsWf (execChopScConfirm leg s held) := by
  unfold execChopScConfirm
  extract_lets y0 y1 y2
  clear_value y0 y1
  refine Inv.cut (Q := paramsWf) (s := y2) ?_ fun h30 => ?_
  · unfold y2
    exact paramsWf.keep (updLeg_keeps _ _ _) (by rfl) h
  clear_value y2
  refine OutInv.clocked ?_ ?_
  · exact h
  · refine OutInv.ite ?_ ?_
    · exact OutInv.ends reelObserve_par h
    · refine OutInv.ends reelObserve_par ?_
      refine Inv.ite (Q := paramsWf) ?_ ?_
      · exact scConfirm_par _ _ h30
      · exact h30

theorem execChopScWindowEnd_par (cmp : BitVec 4) (s : State) (h : paramsWf s) :
    OutInv paramsWf (execChopScWindowEnd s cmp) := by
  unfold execChopScWindowEnd
  refine OutInv.clocked ?_ ?_
  · exact h
  · split
    · exact OutInv.ends reelObserve_par (cmpLevels_par _ _ h)
    · refine OutInv.ends reelObserve_par ?_
      exact cmpLevels_par _ _ (scClose_par _ (paramsWf.keep (advanceTo_keeps _ _) (by rfl) h))

theorem execChopTripRecognised_par (leg : Fin 4) (s : State) (h : paramsWf s) :
    OutInv paramsWf (execChopTripRecognised leg s) := by
  unfold execChopTripRecognised
  extract_lets y0 y1
  clear_value y0
  refine Inv.cut (Q := paramsWf) (s := y1) ?_ fun h30 => ?_
  · unfold y1
    exact paramsWf.keep (updLeg_keeps _ _ _) (by rfl) h
  clear_value y1
  refine OutInv.clocked ?_ ?_
  · exact h
  · refine OutInv.ends reelObserve_par ?_
    refine Inv.ite (Q := paramsWf) ?_ ?_
    · exact h30
    · exact tripAct_par _ _ h30

theorem execGateSupplyNotOk_par (leg : Fin 4) (low : Bool) (s : State) (h : paramsWf s) :
    OutInv paramsWf (execGateSupplyNotOk leg low s) := by
  unfold execGateSupplyNotOk
  extract_lets y0 y1
  clear_value y0
  refine Inv.cut (Q := paramsWf) (s := y1) ?_ fun h30 => ?_
  · unfold y1
    exact paramsWf.keep (updLeg_keeps _ _ _) (by rfl) h
  clear_value y1
  refine OutInv.clocked ?_ ?_
  · exact h
  · refine OutInv.ends reelObserve_par ?_
    refine Inv.ite (Q := paramsWf) ?_ ?_
    · exact gsAct_par _ _ h30
    · exact h30

theorem ghTurnOn_par (s : State) (n : Nat) (h : paramsWf s) :
    paramsWf (ghTurnOn s n) := by
  unfold ghTurnOn
  extract_lets y0
  clear_value y0
  refine Inv.ite (Q := paramsWf) ?_ ?_
  · exact paramsWf.keep (updLeg_keeps _ _ _) (by rfl) h
  · exact turnOn_par _ _ _ _ h

theorem glTurnOn_par (s : State) (n : Nat) (h : paramsWf s) :
    paramsWf (glTurnOn s n) := by
  unfold glTurnOn
  extract_lets y0
  clear_value y0
  refine Inv.ite (Q := paramsWf) ?_ ?_
  · exact h
  · exact turnOn_par _ _ _ _ h

theorem forceOn_par (s : State) (n : Nat) (h : paramsWf s) :
    paramsWf (forceOn s n) := by
  unfold forceOn
  extract_lets y0 y1
  clear_value y0
  refine Inv.cut (Q := paramsWf) (s := y1) ?_ fun h30 => ?_
  · unfold y1
    exact paramsWf.keep (updLeg_keeps _ _ _) (by rfl) h
  clear_value y1
  split
  · exact h
  · refine Inv.ite (Q := paramsWf) ?_ ?_
    · exact h
    · refine Inv.ite (Q := paramsWf) ?_ ?_
      · exact h30
      · refine Inv.ite (Q := paramsWf) ?_ ?_
        · exact ghTurnOn_par _ _ h30
        · exact glTurnOn_par _ _ h30

theorem edgeAct_par (s : State) (n : Nat) (e : Nat) (h : paramsWf s) :
    paramsWf (edgeAct s n e) := by
  unfold edgeAct
  extract_lets y0 y1
  clear_value y0 y1
  refine Inv.ite (Q := paramsWf) ?_ ?_
  · exact h
  · refine Inv.ite (Q := paramsWf) ?_ ?_
    · split
      · refine Inv.ite (Q := paramsWf) ?_ ?_
        · exact forceOn_par _ _ h
        · exact h
      · exact h
    · split
      · exact paramsWf.keep (glTurnOff_keeps _ _) (by rfl) h
      · refine Inv.ite (Q := paramsWf) ?_ ?_
        · exact ghTurnOn_par _ _ h
        · exact h
      · exact paramsWf.keep (ghTurnOff_keeps _ _) (by rfl) h
      · refine Inv.ite (Q := paramsWf) ?_ ?_
        · exact glTurnOn_par _ _ h
        · exact h

theorem execChopGateEdge_par (leg : Fin 4) (edge : Fin 4) (cmp : BitVec 4) (s : State) (h : paramsWf s) :
    OutInv paramsWf (execChopGateEdge leg edge s cmp) := by
  unfold execChopGateEdge
  extract_lets y0
  refine Inv.cut (Q := paramsWf) (s := y0) ?_ fun h30 => ?_
  · unfold y0
    exact paramsWf.keep (advanceTo_keeps _ _) (by rfl) h
  clear_value y0
  refine OutInv.clocked ?_ ?_
  · exact h
  · exact OutInv.ends reelObserve_par (cmpLevels_par _ _ (edgeAct_par _ _ _ h30))

theorem forceApply_par (s : State) (n : Nat) (h : paramsWf s) :
    paramsWf (forceApply s n) := by
  unfold forceApply
  refine Inv.ite (Q := paramsWf) ?_ ?_
  · exact forceOn_par _ _ (paramsWf.keep (updLeg_keeps _ _ _) (by rfl) h)
  · exact paramsWf.keep (updLeg_keeps _ _ _) (by rfl) h

theorem cycleStart_par (s : State) (n : Nat) (h : paramsWf s) :
    paramsWf (cycleStart s n) := by
  unfold cycleStart
  extract_lets y0 y1 y2 y3 y4 y5 y6 y7 y8 y9 y10 y11 y12
  clear_value y1 y4 y6
  refine Inv.cut (Q := paramsWf) (s := y0) ?_ fun h30 => ?_
  · unfold y0
    exact chopCommit_par _ _ h
  clear_value y0
  refine Inv.cut (Q := paramsWf) (s := y2) ?_ fun h31 => ?_
  · unfold y2
    refine Inv.ite (Q := paramsWf) ?_ ?_
    · exact h30
    · exact putN_par _ _ _ _ h30
  clear_value y2
  refine Inv.cut (Q := paramsWf) (s := y3) ?_ fun h32 => ?_
  · unfold y3
    refine Inv.ite (Q := paramsWf) ?_ ?_
    · exact paramsWf.keep (causeGone_keeps _ _ _) (by rfl) h31
    · exact h31
  clear_value y3
  refine Inv.cut (Q := paramsWf) (s := y5) ?_ fun h33 => ?_
  · unfold y5
    exact paramsWf.keep (updLeg_keeps _ _ _) (by rfl) h32
  clear_value y5
  refine Inv.cut (Q := paramsWf) (s := y7) ?_ fun h34 => ?_
  · unfold y7
    exact paramsWf.keep (updLeg_keeps _ _ _) (by rfl) h33
  clear_value y7
  refine Inv.cut (Q := paramsWf) (s := y8) ?_ fun h35 => ?_
  · unfold y8
    exact cycleDuty_par _ _ h34
  clear_value y8
  refine Inv.cut (Q := paramsWf) (s := y9) ?_ fun h36 => ?_
  · unfold y9
    refine Inv.ite (Q := paramsWf) ?_ ?_
    · exact legOff_par _ _ h35
    · exact h35
  clear_value y9
  refine Inv.cut (Q := paramsWf) (s := y10) ?_ fun h37 => ?_
  · unfold y10
    refine Inv.ite (Q := paramsWf) ?_ ?_
    · exact gsAct_par _ _ h36
    · exact h36
  clear_value y10
  refine Inv.cut (Q := paramsWf) (s := y11) ?_ fun h38 => ?_
  · unfold y11
    refine Inv.ite (Q := paramsWf) ?_ ?_
    · exact paramsWf.keep (causeGone_keeps _ _ _) (by rfl) h37
    · exact h37
  clear_value y11
  refine Inv.cut (Q := paramsWf) (s := y12) ?_ fun h39 => ?_
  · unfold y12
    exact forceApply_par _ _ (tripAct_par _ _ h38)
  clear_value y12
  refine Inv.ite (Q := paramsWf) ?_ ?_
  · exact cmpCauses_par _ (paramsWf.keep (updLeg_keeps _ _ _) (by rfl) (undoOn_par _ _ h34))
  · exact paramsWf.keep (reelRef_keeps _ _ _) (by rfl) (paramsWf.keep (trigEvent_keeps _ _ _) (by rfl) h39)

theorem execChopCycleStart_par (leg : Fin 4) (cmp : BitVec 4) (s : State) (h : paramsWf s) :
    OutInv paramsWf (execChopCycleStart leg cmp s) := by
  unfold execChopCycleStart
  extract_lets y0 y1 y2 y3
  clear_value y0 y3
  refine Inv.cut (Q := paramsWf) (s := y1) ?_ fun h30 => ?_
  · unfold y1
    exact paramsWf.keep (advanceTo_keeps _ _) (by rfl) h
  clear_value y1
  refine Inv.cut (Q := paramsWf) (s := y2) ?_ fun h31 => ?_
  · unfold y2
    exact cmpLevels_par _ _ (cycleStart_par _ _ h30)
  clear_value y2
  refine OutInv.clocked ?_ ?_
  · exact h
  · refine OutInv.ite ?_ ?_
    · refine OutInv.ends reelObserve_par ?_
      refine Inv.ite (Q := paramsWf) ?_ ?_
      · exact cycleStart_par _ _ h31
      · exact h31
    · exact OutInv.ends reelObserve_par (cmpLevels_par _ _ h30)

/-! ### Machine/PeriodMark.lean -/

theorem residPublish_par (s : State) (a : Nat) (h : paramsWf s) :
    paramsWf (residPublish s a) := by
  unfold residPublish
  extract_lets y0 y1 y2
  clear_value y0
  refine Inv.cut (Q := paramsWf) (s := y1) ?_ fun h30 => ?_
  · unfold y1
    exact putN_par _ _ _ _ (putN_par _ _ _ _ h)
  clear_value y1
  refine Inv.cut (Q := paramsWf) (s := y2) ?_ fun h31 => ?_
  · unfold y2
    refine Inv.ite (Q := paramsWf) ?_ ?_
    · exact h30
    · exact paramsWf.keep (causeGone_keeps _ _ _) (by rfl) h30
  clear_value y2
  exact paramsWf.keep (updArm_keeps _ _ _) (by rfl) h31

theorem runReset_par (s : State) (h : paramsWf s) :
    paramsWf (runReset s) := by
  unfold runReset
  extract_lets y0 y1 y2 y3 y4 y5 y6 y7 y8 y9 y10
  refine Inv.cut (Q := paramsWf) (s := y2) ?_ fun h30 => ?_
  · unfold y2
    exact paramsWf.eq (s := s) rfl h
  clear_value y2
  refine Inv.cut (Q := paramsWf) (s := y3) ?_ fun h31 => ?_
  · unfold y3
    refine Inv.foldl (Q := paramsWf) ?_ fun x32 a33 h34 => ?_
    · exact h30
    · exact paramsWf.keep (updArm_keeps _ _ _) (by rfl) h34
  clear_value y3
  refine Inv.cut (Q := paramsWf) (s := y4) ?_ fun h35 => ?_
  · unfold y4
    refine Inv.foldl (Q := paramsWf) ?_ fun x36 a37 h38 => ?_
    · exact h31
    · exact paramsWf.keep (updEnc_keeps _ _ _) (by rfl) h38
  clear_value y4
  refine Inv.cut (Q := paramsWf) (s := y5) ?_ fun h39 => ?_
  · unfold y5
    refine Inv.foldl (Q := paramsWf) ?_ fun x40 a41 h42 => ?_
    · exact h35
    · exact paramsWf.keep (causeGone_keeps _ _ _) (by rfl) (paramsWf.keep (updStrand_keeps _ _ _) (by rfl) h42)
  clear_value y5
  refine Inv.cut (Q := paramsWf) (s := y6) ?_ fun h43 => ?_
  · unfold y6
    refine Inv.foldl (Q := paramsWf) ?_ fun x44 a45 h46 => ?_
    · exact h39
    · exact putN_par _ _ _ _ h46
  clear_value y6
  refine Inv.cut (Q := paramsWf) (s := y7) ?_ fun h47 => ?_
  · unfold y7
    exact putN_par _ _ _ _ (putN_par _ _ _ _ h43)
  clear_value y7
  refine Inv.cut (Q := paramsWf) (s := y8) ?_ fun h48 => ?_
  · unfold y8
    exact paramsWf.keep (updMeas_keeps _ _) (by rfl) h47
  clear_value y8
  refine Inv.cut (Q := paramsWf) (s := y9) ?_ fun h49 => ?_
  · unfold y9
    refine Inv.foldl (Q := paramsWf) ?_ fun x50 a51 h52 => ?_
    · exact h48
    · exact paramsWf.keep (updAdc_keeps _ _ _) (by rfl) h52
  clear_value y9
  refine Inv.cut (Q := paramsWf) (s := y10) ?_ fun h53 => ?_
  · unfold y10
    refine Inv.foldl (Q := paramsWf) ?_ fun x54 a55 h56 => ?_
    · exact h49
    · exact paramsWf.keep (updLeg_keeps _ _ _) (by rfl) h56
  clear_value y10
  refine Inv.foldl (Q := paramsWf) ?_ fun x57 a58 h59 => ?_
  · exact h53
  · exact putN_par _ _ _ _ h59

theorem setDiv_par (s : State) (l : Nat) (h : paramsWf s) :
    paramsWf (setDiv s l) := by
  unfold setDiv
  extract_lets y0 y1 y2
  clear_value y0 y1
  refine Inv.cut (Q := paramsWf) (s := y2) ?_ fun h30 => ?_
  · unfold y2
    exact paramsWf.keep (updLane_keeps _ _ _) (by rfl) h
  clear_value y2
  refine Inv.ite (Q := paramsWf) ?_ ?_
  · exact h
  · exact orP_par _ _ _ _ h30

theorem setLatency_par (s : State) (h : paramsWf s) :
    paramsWf (setLatency s) := by
  unfold setLatency
  extract_lets y0 y1
  clear_value y0
  refine Inv.ite (Q := paramsWf) ?_ ?_
  · exact h
  · exact orP_par _ _ _ _ (paramsWf.eq (s := s) rfl h)

theorem tasksRelease_par (s : State) (h : paramsWf s) :
    paramsWf (tasksRelease s) := by
  unfold tasksRelease
  extract_lets y0 y1 y2
  clear_value y0 y1
  refine Inv.cut (Q := paramsWf) (s := y2) ?_ fun h30 => ?_
  · unfold y2
    refine Inv.ite (Q := paramsWf) ?_ ?_
    · exact arbLate_par _ h
    · exact h
  clear_value y2
  refine Inv.foldl (Q := paramsWf) ?_ fun x31 a32 h33 => ?_
  · exact h30
  · exact readyTask_par _ _ h33

theorem groupAt_par (code : Nat) (t : Nat) (s : State) (h : paramsWf s) :
    paramsWf (groupAt code t s) := by
  unfold groupAt
  refine Inv.ite (Q := paramsWf) ?_ ?_
  · exact applyGroup_par _ _ _ h
  · exact h

theorem handoverLate_par (s : State) (h : paramsWf s) :
    paramsWf (handoverLate s) := by
  unfold handoverLate
  refine Inv.foldl (Q := paramsWf) ?_ fun x0 a1 h2 => ?_
  · exact h
  · split
    · exact completeErr_par _ _ _ h2
    · exact h2

theorem intakeTasks_par (s : State) (h : paramsWf s) :
    paramsWf (intakeTasks s) := by
  unfold intakeTasks
  refine Inv.foldl (Q := paramsWf) ?_ fun x30 a31 h32 => ?_
  · exact h
  · extract_lets y33
    clear_value y33
    split
    · exact createTask_par _ _ h32
    · exact h32

theorem reelMark_par (s : State) (h : paramsWf s) :
    paramsWf (reelMark s) := by
  unfold reelMark
  extract_lets y0 y1
  refine Inv.cut (Q := paramsWf) (s := y0) ?_ fun h30 => ?_
  · unfold y0
    refine Inv.ite (Q := paramsWf) ?_ ?_
    · exact paramsWf.keep (reelForm_keeps _ _) (by rfl) (paramsWf.keep (updReel_keeps _ _) (by rfl) h)
    · exact h
  clear_value y0
  refine Inv.cut (Q := paramsWf) (s := y1) ?_ fun h31 => ?_
  · unfold y1
    refine Inv.ite (Q := paramsWf) ?_ ?_
    · exact paramsWf.keep (updReel_keeps _ _) (by rfl) h30
    · exact h30
  clear_value y1
  refine Inv.ite (Q := paramsWf) ?_ ?_
  · exact h
  · refine Inv.foldl (Q := paramsWf) ?_ fun x92 a93 h94 => ?_
    · exact paramsWf.keep (reelRef_keeps _ _ _) (by rfl) h31
    · extract_lets y95 y96
      clear_value y95 y96
      refine Inv.ite (Q := paramsWf) ?_ ?_
      · exact h94
      · exact reelSample_par _ _ _ _ _ h94

theorem tasksLate_par (s : State) (h : paramsWf s) :
    paramsWf (tasksLate s) := by
  unfold tasksLate
  extract_lets y0 y1 y2 y3 y4 y5 y6
  refine Inv.cut (Q := paramsWf) (s := y4) ?_ fun h30 => ?_
  · unfold y4
    exact paramsWf.eq (s := s) rfl h
  clear_value y4
  refine Inv.cut (Q := paramsWf) (s := y5) ?_ fun h31 => ?_
  · unfold y5
    refine Inv.foldl (Q := paramsWf) ?_ fun x32 a33 h34 => ?_
    · exact h30
    · exact cancelSucc_par _ _ _ (incP_par _ _ _ h34)
  clear_value y5
  refine Inv.foldl (Q := paramsWf) ?_ fun x35 a36 h37 => ?_
  · exact h31
  · refine Inv.ite (Q := paramsWf) ?_ ?_
    · exact abandonTask_par _ _ h37
    · exact h37

theorem loopMark_par (s : State) (f : Option PeerData) (h : paramsWf s) :
    paramsWf (loopMark s f) := by
  unfold loopMark
  extract_lets y0
  refine Inv.cut (Q := paramsWf) (s := y0) ?_ fun h30 => ?_
  · unfold y0
    refine Inv.foldl (Q := paramsWf) ?_ fun x31 a32 h33 => ?_
    · exact h
    · exact loopBoundary_par _ _ h33
  clear_value y0
  refine runSlots_par _ ?_
  exact paramsWf.keep (applySlots_keeps _ _) (by rfl) (paramsWf.keep (loopModes_keeps _) (by rfl) h30)

theorem resumeLate_par (s : State) (h : paramsWf s) :
    paramsWf (resumeLate s) := by
  unfold resumeLate
  extract_lets y0
  refine Inv.ite (Q := paramsWf) ?_ ?_
  · exact raiseFault_par _ _ _ (paramsWf.keep (updDup_keeps _ _) (by rfl) h)
  · exact h

theorem senseMark_par (s : State) (p0 : List Nat) (p1 : List Nat) (h : paramsWf s) :
    paramsWf (senseMark s p0 p1) := by
  unfold senseMark
  extract_lets y0 y1 y2 y3 y4 y5
  clear_value y0
  refine Inv.cut (Q := paramsWf) (s := y1) ?_ fun h30 => ?_
  · unfold y1
    exact paramsWf.keep (adcMark_keeps _ _) (by rfl) h
  clear_value y1
  refine Inv.cut (Q := paramsWf) (s := y2) ?_ fun h31 => ?_
  · unfold y2
    exact decMark_par _ (plausMark_par _ _ h30)
  clear_value y2
  refine Inv.cut (Q := paramsWf) (s := y3) ?_ fun h32 => ?_
  · unfold y3
    exact encMark_par _ _ (encMark_par _ _ h31)
  clear_value y3
  refine Inv.cut (Q := paramsWf) (s := y4) ?_ fun h33 => ?_
  · unfold y4
    exact trajAdvance_par _ (paramsWf.keep (chopMark_keeps _) (by rfl) h32)
  clear_value y4
  refine Inv.cut (Q := paramsWf) (s := y5) ?_ fun h34 => ?_
  · unfold y5
    exact homeSearchDone_par _ _ (homeSearchDone_par _ _ h33)
  clear_value y5
  exact pulseMark_par _ _ _ (pulseMark_par _ _ _ h34)

theorem windowEnd_par (s : State) (h : paramsWf s) :
    paramsWf (windowEnd s) := by
  unfold windowEnd
  extract_lets y0 y1
  clear_value y0
  refine Inv.cut (Q := paramsWf) (s := y1) ?_ fun h30 => ?_
  · unfold y1
    exact handoverLate_par _ h
  clear_value y1
  refine Inv.ite (Q := paramsWf) ?_ ?_
  · refine Inv.ite (Q := paramsWf) ?_ ?_
    · exact raiseFault_par _ _ _ (paramsWf.keep (updDup_keeps _ _) (by rfl) h30)
    · exact paramsWf.keep (dupStandby_keeps _) (by rfl) h30
  · split
    · refine Inv.ite (Q := paramsWf) ?_ ?_
      · exact handoverLate_par _ (paramsWf.keep (updDup_keeps _ _) (by rfl) h)
      · exact h
    · exact h

theorem dupMarks_par (s : State) (h : paramsWf s) :
    paramsWf (dupMarks s) := by
  unfold dupMarks
  extract_lets y0 y1
  refine Inv.cut (Q := paramsWf) (s := y0) ?_ fun h30 => ?_
  · unfold y0
    exact dupMark_par _ h
  clear_value y0
  refine Inv.cut (Q := paramsWf) (s := y1) ?_ fun h31 => ?_
  · unfold y1
    refine Inv.ite (Q := paramsWf) ?_ ?_
    · exact paramsWf.keep (resumeAt_keeps _ _) (by rfl) h30
    · exact h30
  clear_value y1
  refine Inv.ite (Q := paramsWf) ?_ ?_
  · exact h
  · exact windowEnd_par _ (resumeLate_par _ h31)

theorem setEff_par (s : State) (h : paramsWf s) :
    paramsWf (setEff s) := by
  unfold setEff
  extract_lets y0 y1 y2 y3 y4 y5
  clear_value y0 y1 y2
  refine Inv.cut (Q := paramsWf) (s := y4) ?_ fun h30 => ?_
  · unfold y4
    exact paramsWf.eq (s := s) rfl h
  clear_value y4
  refine Inv.cut (Q := paramsWf) (s := y5) ?_ fun h31 => ?_
  · unfold y5
    refine Inv.ite (Q := paramsWf) ?_ ?_
    · exact orP_par _ _ _ _ h30
    · exact h30
  clear_value y5
  exact causeSet_par _ _ _ _ h31

theorem latencyChange_par (s : State) (old : Nat) (h : paramsWf s) :
    paramsWf (latencyChange s old) := by
  unfold latencyChange
  refine Inv.ite (Q := paramsWf) ?_ ?_
  · exact h
  · refine Inv.ite (Q := paramsWf) ?_ ?_
    · exact capCompute_par _ _ (armNoRefs_par _ h)
    · refine Inv.foldl (Q := paramsWf) ?_ fun x0 a1 h2 => ?_
      · exact h
      · exact paramsWf.keep (updArm_keeps _ _ _) (by rfl) h2

theorem planMark_par (s : State) (per : Nat) (h : paramsWf s) :
    paramsWf (planMark s per) := by
  unfold planMark
  extract_lets y0 y1 y2 y3 y4
  refine Inv.cut (Q := paramsWf) (s := y0) ?_ fun h30 => ?_
  · unfold y0
    exact mtStartMark_par _ (mtCharge_par _ _ (armSamples_par _ _ h))
  clear_value y0
  refine Inv.cut (Q := paramsWf) (s := y1) ?_ fun h31 => ?_
  · unfold y1
    refine Inv.ite (Q := paramsWf) ?_ ?_
    · exact mtEnd_par _ h30
    · exact h30
  clear_value y1
  refine Inv.cut (Q := paramsWf) (s := y2) ?_ fun h32 => ?_
  · unfold y2
    exact tasksRelease_par _ h31
  clear_value y2
  refine Inv.cut (Q := paramsWf) (s := y3) ?_ fun h33 => ?_
  · unfold y3
    exact latchMark_par _ h32
  clear_value y3
  refine Inv.cut (Q := paramsWf) (s := y4) ?_ fun h34 => ?_
  · unfold y4
    refine Inv.ite (Q := paramsWf) ?_ ?_
    · exact passStarts_par _ (paramsWf.keep (updBelay_keeps _ _) (by rfl) h33)
    · exact h32
  clear_value y4
  exact intakeTasks_par _ h34

theorem recompute_par (s : State) (h : paramsWf s) :
    paramsWf (recompute s) := by
  unfold recompute
  refine Inv.foldl (Q := paramsWf) ?_ fun x0 a1 h2 => ?_
  · exact setLatency_par _ (setEff_par _ h)
  · exact setDiv_par _ _ h2

theorem cleatDue_par (s : State) (h : paramsWf s) :
    paramsWf (cleatDue s) := by
  unfold cleatDue
  refine Inv.ite (Q := paramsWf) ?_ ?_
  · exact freeCleats_par _ _ h
  · exact h

theorem laneEntry_par (s : State) (l : Nat) (h : paramsWf s) :
    paramsWf (laneEntry s l) := by
  unfold laneEntry
  extract_lets y0
  clear_value y0
  refine Inv.ite (Q := paramsWf) ?_ ?_
  · exact h
  · refine Inv.ite (Q := paramsWf) ?_ ?_
    · exact enterActive_par _ _ _ h
    · exact bringupFail_par _ _ _ _ h

theorem laneMarks_par (s : State) (h : paramsWf s) :
    paramsWf (laneMarks s) := by
  unfold laneMarks
  extract_lets y0 y1
  refine Inv.cut (Q := paramsWf) (s := y0) ?_ fun h30 => ?_
  · unfold y0
    refine Inv.foldl (Q := paramsWf) ?_ fun x31 a32 h33 => ?_
    · exact h
    · exact paramsWf.keep (loopFrame_keeps _ _) (by rfl) h33
  clear_value y0
  refine Inv.cut (Q := paramsWf) (s := y1) ?_ fun h34 => ?_
  · unfold y1
    refine Inv.foldl (Q := paramsWf) ?_ fun x35 a36 h37 => ?_
    · exact h30
    · refine Inv.ite (Q := paramsWf) ?_ ?_
      · exact retireLane_par _ _ h37
      · exact h37
  clear_value y1
  refine Inv.foldl (Q := paramsWf) ?_ fun x38 a39 h40 => ?_
  · exact h34
  · exact laneEntry_par _ _ h40

theorem periodBoundary_par (s : State) (h : paramsWf s) :
    paramsWf (periodBoundary s) := by
  unfold periodBoundary
  extract_lets y0 y1
  refine Inv.cut (Q := paramsWf) (s := y0) ?_ fun h30 => ?_
  · unfold y0
    exact applyGroup_par _ _ _ h
  clear_value y0
  refine Inv.ite (Q := paramsWf) ?_ ?_
  · exact recompute_par _ (orP_par _ _ _ _ (paramsWf.eq (s := y0) rfl h30))
  · exact h

theorem epochMark_par (s : State) (h : paramsWf s) :
    paramsWf (epochMark s) := by
  unfold epochMark
  extract_lets y0 y1 y2 y3 y4
  clear_value y0
  refine Inv.cut (Q := paramsWf) (s := y2) ?_ fun h30 => ?_
  · unfold y2
    exact paramsWf.eq (s := s) rfl h
  clear_value y2
  refine Inv.cut (Q := paramsWf) (s := y3) ?_ fun h31 => ?_
  · unfold y3
    refine Inv.foldl (Q := paramsWf) ?_ fun x32 a33 h34 => ?_
    · exact h30
    · exact residPublish_par _ _ h34
  clear_value y3
  refine Inv.cut (Q := paramsWf) (s := y4) ?_ fun h35 => ?_
  · unfold y4
    split
    · refine Inv.ite (Q := paramsWf) ?_ ?_
      · exact periodBoundary_par _ h31
      · exact h31
    · exact h31
  clear_value y4
  refine Inv.ite (Q := paramsWf) ?_ ?_
  · exact h
  · exact groupAt_par _ _ _ h35

theorem markWork_par (s : State) (per : Nat) (p0 : List Nat) (p1 : List Nat) (h : paramsWf s) :
    paramsWf (markWork s per p0 p1) := by
  unfold markWork
  extract_lets y0 y1 y2 y3 y4 y5 y6 y7 y8 y9 y10 y11 y12 y13 y14
  clear_value y0 y3 y12
  refine Inv.cut (Q := paramsWf) (s := y1) ?_ fun h30 => ?_
  · unfold y1
    exact applyData_par _ h
  clear_value y1
  refine Inv.cut (Q := paramsWf) (s := y2) ?_ fun h31 => ?_
  · unfold y2
    exact cleatDue_par _ (tasksLate_par _ h30)
  clear_value y2
  refine Inv.cut (Q := paramsWf) (s := y4) ?_ fun h32 => ?_
  · unfold y4
    exact groupAt_par _ _ _ (groupAt_par _ _ _ (epochMark_par _ h31))
  clear_value y4
  refine Inv.cut (Q := paramsWf) (s := y6) ?_ fun h33 => ?_
  · unfold y6
    exact paramsWf.eq (s := y4) rfl h32
  clear_value y6
  refine Inv.cut (Q := paramsWf) (s := y7) ?_ fun h34 => ?_
  · unfold y7
    exact traceEvent_par _ _ _ _ _ _ _ h33
  clear_value y7
  refine Inv.cut (Q := paramsWf) (s := y8) ?_ fun h35 => ?_
  · unfold y8
    exact laneMarks_par _ (dupMarks_par _ h34)
  clear_value y8
  refine Inv.cut (Q := paramsWf) (s := y9) ?_ fun h36 => ?_
  · unfold y9
    exact hbCheck_par _ h35
  clear_value y9
  refine Inv.cut (Q := paramsWf) (s := y10) ?_ fun h37 => ?_
  · unfold y10
    exact planMark_par _ _ (senseMark_par _ _ _ h36)
  clear_value y10
  refine Inv.cut (Q := paramsWf) (s := y11) ?_ fun h38 => ?_
  · unfold y11
    exact loopMark_par _ _ (reelMark_par _ h37)
  clear_value y11
  refine Inv.cut (Q := paramsWf) (s := y13) ?_ fun h39 => ?_
  · unfold y13
    exact capCompute_par _ _ (armRefs_par _ _ h38)
  clear_value y13
  refine Inv.cut (Q := paramsWf) (s := y14) ?_ fun h40 => ?_
  · unfold y14
    exact icmMark_par _ (paramsWf.keep (sendFrames_keeps _ _ _) (by rfl) h39)
  clear_value y14
  exact paramsWf.keep (dupSend_keeps _) (by rfl) (latencyChange_par _ _ h40)

theorem enterRun_par (s : State) (h : paramsWf s) :
    paramsWf (enterRun s) := by
  unfold enterRun
  extract_lets y0 y1 y2 y3
  refine Inv.cut (Q := paramsWf) (s := y0) ?_ fun h30 => ?_
  · unfold y0
    exact paramsWf.keep (updPwr_keeps _ _) (by rfl) h
  clear_value y0
  refine Inv.cut (Q := paramsWf) (s := y1) ?_ fun h31 => ?_
  · unfold y1
    exact periodBoundary_par _ (runReset_par _ h30)
  clear_value y1
  refine Inv.cut (Q := paramsWf) (s := y2) ?_ fun h32 => ?_
  · unfold y2
    exact paramsWf.keep (decSyncAt_keeps _ _) (by rfl) (groupAt_par _ _ _ h31)
  clear_value y2
  refine Inv.cut (Q := paramsWf) (s := y3) ?_ fun h33 => ?_
  · unfold y3
    exact markWork_par _ _ _ _ (paramsWf.keep (dupEnter_keeps _) (by rfl) h32)
  clear_value y3
  exact powerNext_par _ h33

theorem nextMark_par (s : State) (p0 : List Nat) (p1 : List Nat) (h : paramsWf s) :
    paramsWf (nextMark s p0 p1) := by
  unfold nextMark
  extract_lets y0 y1
  clear_value y0
  refine Inv.cut (Q := paramsWf) (s := y1) ?_ fun h30 => ?_
  · unfold y1
    exact paramsWf.keep (countMark_keeps _) (by rfl) (periodEnd_par _ h)
  clear_value y1
  refine Inv.ite (Q := paramsWf) ?_ ?_
  · exact powerNext_par _ (leaveRun_par _ h30)
  · exact markWork_par _ _ _ _ h30

theorem execPeriodMark_par (pulse0 : List Nat) (pulse1 : List Nat) (s : State) (h : paramsWf s) :
    OutInv paramsWf (execPeriodMark pulse0 pulse1 s) := by
  unfold execPeriodMark
  refine OutInv.clocked ?_ ?_
  · exact h
  · refine OutInv.ends reelObserve_par ?_
    refine Inv.ite (Q := paramsWf) ?_ ?_
    · exact nextMark_par _ _ _ h
    · exact h

/-! ### Machine/Duplex.lean -/

theorem switchbackBody_par (c : Cmd) (s : State) (h : paramsWf s) :
    ResInv paramsWf (switchbackBody c s) := by
  exact paramsWf.res (switchbackBody_keeps _ _) (by rfl) h

theorem takeoverBody_par (c : Cmd) (s : State) (h : paramsWf s) :
    ResInv paramsWf (takeoverBody c s) := by
  exact paramsWf.res (takeoverBody_keeps _ _) (by rfl) h

theorem execDispatchResume_par (s : State) (h : paramsWf s) :
    OutInv paramsWf (execDispatchResume s) := by
  unfold execDispatchResume
  extract_lets y0 y1
  refine Inv.cut (Q := paramsWf) (s := y1) ?_ fun h30 => ?_
  · unfold y1
    exact paramsWf.eq (s := s) rfl h
  clear_value y1
  refine OutInv.clocked ?_ ?_
  · exact h
  · refine OutInv.ite ?_ ?_
    · exact OutInv.ends reelObserve_par (paramsWf.keep (resumeAt_keeps _ _) (by rfl) h)
    · exact OutInv.ends reelObserve_par h

theorem execSwitchback_par (c : Cmd) (s : State) (h : paramsWf s) :
    OutInv paramsWf (execSwitchback c s) := by
  unfold execSwitchback
  refine OutInv.ends reelObserve_par ?_
  refine Inv.runCmd (Q := paramsWf) goodPacket_par answer_par ?_ fun x0 _ h1 => ?_
  · exact h
  · exact switchbackBody_par _ _ h1

theorem execTakeover_par (c : Cmd) (s : State) (h : paramsWf s) :
    OutInv paramsWf (execTakeover c s) := by
  unfold execTakeover
  refine OutInv.ends reelObserve_par ?_
  refine Inv.runCmd (Q := paramsWf) goodPacket_par answer_par ?_ fun x0 _ h1 => ?_
  · exact h
  · exact takeoverBody_par _ _ h1

theorem execResumeTimeout_par (s : State) (h : paramsWf s) :
    OutInv paramsWf (execResumeTimeout s) := by
  unfold execResumeTimeout
  refine OutInv.clocked ?_ ?_
  · exact h
  · refine OutInv.ite ?_ ?_
    · refine OutInv.ends reelObserve_par ?_
      refine Inv.atMark (Q := paramsWf) advanceTo_par ?_ fun x0 h1 => ?_
      · exact h
      · refine Inv.ite (Q := paramsWf) ?_ ?_
        · exact h1
        · exact raiseFault_par _ _ _ (paramsWf.keep (updDup_keeps _ _) (by rfl) h1)
    · exact OutInv.ends reelObserve_par h

theorem windowEndAt_par (s : State) (m : Nat) (h : paramsWf s) :
    paramsWf (windowEndAt s m) := by
  unfold windowEndAt
  extract_lets y0 y1 y2 y3
  clear_value y0
  refine Inv.cut (Q := paramsWf) (s := y2) ?_ fun h30 => ?_
  · unfold y2
    exact windowEnd_par _ (paramsWf.eq (s := s) rfl h)
  clear_value y2
  exact paramsWf.eq (s := y2) rfl h30

theorem execTakeoverWindowEnd_par (s : State) (h : paramsWf s) :
    OutInv paramsWf (execTakeoverWindowEnd s) := by
  unfold execTakeoverWindowEnd
  extract_lets y0
  clear_value y0
  refine OutInv.clocked ?_ ?_
  · exact h
  · refine OutInv.ite ?_ ?_
    · split
      · refine OutInv.ends reelObserve_par ?_
        refine Inv.atMark (Q := paramsWf) advanceTo_par ?_ fun x30 h31 => ?_
        · exact h
        · exact windowEndAt_par _ _ h31
      · refine OutInv.ends reelObserve_par ?_
        refine Inv.atMark (Q := paramsWf) advanceTo_par ?_ fun x32 h33 => ?_
        · exact h
        · exact windowEndAt_par _ _ h33
      · exact OutInv.ends reelObserve_par h
    · exact OutInv.ends reelObserve_par h

theorem execPeerDataFrame_par (frame : PeerData) (s : State) (h : paramsWf s) :
    OutInv paramsWf (execPeerDataFrame frame s) := by
  unfold execPeerDataFrame
  extract_lets y0 y1 y2 y3
  clear_value y0
  refine Inv.cut (Q := paramsWf) (s := y1) ?_ fun h30 => ?_
  · unfold y1
    exact paramsWf.keep (slewCell_keeps _ _) (by rfl) h
  clear_value y1
  refine Inv.cut (Q := paramsWf) (s := y2) ?_ fun h31 => ?_
  · unfold y2
    refine Inv.ite (Q := paramsWf) ?_ ?_
    · exact slewMark_par _ _ h30
    · exact h30
  clear_value y2
  refine Inv.cut (Q := paramsWf) (s := y3) ?_ fun h32 => ?_
  · unfold y3
    refine Inv.ite (Q := paramsWf) ?_ ?_
    · exact paramsWf.keep (updDup_keeps _ _) (by rfl) h31
    · exact h
  clear_value y3
  refine OutInv.clocked ?_ ?_
  · exact h
  · refine OutInv.ite ?_ ?_
    · exact OutInv.ends reelObserve_par h
    · refine OutInv.ite ?_ ?_
      · exact OutInv.ends reelObserve_par (laneError_par _ _ h)
      · refine OutInv.ite ?_ ?_
        · exact OutInv.ends reelObserve_par h
        · exact OutInv.ends reelObserve_par (paramsWf.keep (peerDigests_keeps _ _) (by rfl) h32)

theorem execPeerHeartbeat_par (header : PeerHeader) (crc : Word) (s : State) (h : paramsWf s) :
    OutInv paramsWf (execPeerHeartbeat header s crc) := by
  unfold execPeerHeartbeat
  extract_lets y0 y1
  clear_value y0 y1
  refine OutInv.clocked ?_ ?_
  · exact h
  · refine OutInv.ite ?_ ?_
    · exact OutInv.ends reelObserve_par h
    · refine OutInv.ite ?_ ?_
      · exact OutInv.ends reelObserve_par (laneError_par _ _ h)
      · refine OutInv.ite ?_ ?_
        · exact OutInv.ends reelObserve_par h
        · refine OutInv.ite ?_ ?_
          · exact OutInv.ends reelObserve_par (paramsWf.keep (updDup_keeps _ _) (by rfl) h)
          · exact OutInv.ends reelObserve_par (paramsWf.keep (updDup_keeps _ _) (by rfl) h)

/-! ### Machine/Fairlead.lean -/

theorem traceCtrl_par (s : State) (old : Nat) (new : Nat) (h : paramsWf s) :
    paramsWf (traceCtrl s old new) := by
  unfold traceCtrl
  extract_lets y0
  refine Inv.ite (Q := paramsWf) ?_ ?_
  · exact paramsWf.eq (s := s) rfl h
  · refine Inv.ite (Q := paramsWf) ?_ ?_
    · exact putN_par _ _ _ _ (traceFreeze_par _ (putN_par _ _ _ _ h))
    · exact h

theorem traceReadBody_par (c : Cmd) (s : State) (h : paramsWf s) :
    ResInv paramsWf (traceReadBody c s) := by
  exact paramsWf.res (traceReadBody_keeps _ _) (by rfl) h

theorem patchEnd_par (s : State) (o : LongOp) (h : paramsWf s) :
    paramsWf (patchEnd s o) := by
  unfold patchEnd
  extract_lets y0 y1 y2
  refine Inv.cut (Q := paramsWf) (s := y1) ?_ fun h30 => ?_
  · unfold y1
    exact paramsWf.eq (s := s) rfl h
  clear_value y1
  refine Inv.cut (Q := paramsWf) (s := y2) ?_ fun h31 => ?_
  · unfold y2
    exact putP_par _ _ _ _ (putN_par _ _ _ _ h30)
  clear_value y2
  split
  · exact completeErr_par _ _ _ (putN_par _ _ _ _ h30)
  · exact completeOk_par _ _ _ (tallyStale_par _ h31)

theorem patchStore_par (s : State) (off : Nat) (ws : List Word) (h : paramsWf s) :
    paramsWf (patchStore s off ws) := by
  unfold patchStore
  extract_lets y0 y1 y2 y3
  clear_value y0
  refine Inv.cut (Q := paramsWf) (s := y2) ?_ fun h30 => ?_
  · unfold y2
    exact paramsWf.eq (s := s) rfl h
  clear_value y2
  refine Inv.cut (Q := paramsWf) (s := y3) ?_ fun h31 => ?_
  · unfold y3
    exact putN_par _ _ _ _ (putN_par _ _ _ _ h30)
  clear_value y3
  refine Inv.ite (Q := paramsWf) ?_ ?_
  · exact tallyStale_par _ h31
  · exact h31

theorem taskDone_par (s : State) (n : Nat) (i : Nat) (t : Task) (h : paramsWf s) :
    paramsWf (taskDone s n i t) := by
  unfold taskDone
  extract_lets y0 y1 y2 y3 y4
  refine Inv.cut (Q := paramsWf) (s := y0) ?_ fun h30 => ?_
  · unfold y0
    exact traceTask_par _ _ _ _ _ h
  clear_value y0
  refine Inv.cut (Q := paramsWf) (s := y1) ?_ fun h31 => ?_
  · unfold y1
    exact busyAdd_par _ _ _ _ h30
  clear_value y1
  refine Inv.cut (Q := paramsWf) (s := y2) ?_ fun h32 => ?_
  · unfold y2
    exact taskEffect_par _ _ h31
  clear_value y2
  refine Inv.cut (Q := paramsWf) (s := y3) ?_ fun h33 => ?_
  · unfold y3
    exact freeTask_par _ _ h32
  clear_value y3
  refine Inv.cut (Q := paramsWf) (s := y4) ?_ fun h34 => ?_
  · unfold y4
    refine Inv.foldl (Q := paramsWf) ?_ fun x35 a36 h37 => ?_
    · exact h33
    · exact decTask_par _ _ h37
  clear_value y4
  exact releaseStrand_par _ _ h34

theorem fwPatchBody_par (c : Cmd) (s : State) (h : paramsWf s) :
    ResInv paramsWf (fwPatchBody c s) := by
  unfold fwPatchBody
  extract_lets y0 y1
  clear_value y0
  refine Inv.cut (Q := paramsWf) (s := y1) ?_ fun h30 => ?_
  · unfold y1
    exact patchStore_par _ _ _ h
  clear_value y1
  refine ResInv.check ?_
  refine ResInv.ite ?_ ?_
  · refine ResInv.accepted ?_ fun x31 h32 => ?_
    · exact paramsWf.keep (startOp_keeps _ _ _ _ _) (by rfl) h30
    · dsimp only [id]
      exact h32
  · exact ResInv.done h30

theorem execFwPatch_par (c : Cmd) (s : State) (h : paramsWf s) :
    OutInv paramsWf (execFwPatch c s) := by
  unfold execFwPatch
  refine OutInv.ends reelObserve_par ?_
  refine Inv.runCmd (Q := paramsWf) goodPacket_par answer_par ?_ fun x0 _ h1 => ?_
  · exact h
  · exact fwPatchBody_par _ _ h1

theorem execFwPatchDone_par (s : State) (h : paramsWf s) :
    OutInv paramsWf (execFwPatchDone s) := by
  unfold execFwPatchDone
  refine OutInv.clocked ?_ ?_
  · exact h
  · refine OutInv.ends reelObserve_par ?_
    split
    · exact h
    · exact patchEnd_par _ _ h

theorem execTaskDeadline_par (slot : Fin 256) (s : State) (h : paramsWf s) :
    OutInv paramsWf (execTaskDeadline slot s) := by
  unfold execTaskDeadline
  refine OutInv.clocked ?_ ?_
  · exact h
  · refine OutInv.ends reelObserve_par ?_
    split
    · exact h
    · refine Inv.atMark (Q := paramsWf) advanceTo_par ?_ fun x0 h1 => ?_
      · exact h
      · exact abandonTask_par _ _ h1

theorem execTaskPlace_par (s : State) (h : paramsWf s) :
    OutInv paramsWf (execTaskPlace s) := by
  unfold execTaskPlace
  refine OutInv.clocked ?_ ?_
  · exact h
  · exact OutInv.ends reelObserve_par (placeTasks_par _ h)

theorem execTraceRead_par (c : Cmd) (s : State) (h : paramsWf s) :
    OutInv paramsWf (execTraceRead c s) := by
  unfold execTraceRead
  refine OutInv.ends reelObserve_par ?_
  refine Inv.runCmd (Q := paramsWf) goodPacket_par answer_par ?_ fun x0 _ h1 => ?_
  · exact h
  · exact traceReadBody_par _ _ h1

theorem taskCompleteAt_par (s : State) (n : Nat) (h : paramsWf s) :
    paramsWf (taskCompleteAt s n) := by
  unfold taskCompleteAt
  split
  · exact h
  · extract_lets y30 y31
    clear_value y30
    refine Inv.cut (Q := paramsWf) (s := y31) ?_ fun h60 => ?_
    · unfold y31
      exact paramsWf.keep (advanceTo_keeps _ _) (by rfl) h
    clear_value y31
    refine Inv.ite (Q := paramsWf) ?_ ?_
    · exact abandonTask_par _ _ h60
    · exact taskDone_par _ _ _ _ h60

theorem execTaskComplete_par (strand : Fin 8) (s : State) (h : paramsWf s) :
    OutInv paramsWf (execTaskComplete strand s) := by
  unfold execTaskComplete
  refine OutInv.clocked ?_ ?_
  · exact h
  · exact OutInv.ends reelObserve_par (taskCompleteAt_par _ _ h)

theorem execStrandSramError_par (strand : Fin 8) (corrected : Bool) (s : State) (h : paramsWf s) :
    OutInv paramsWf (execStrandSramError strand s corrected) := by
  unfold execStrandSramError
  refine OutInv.clocked ?_ ?_
  · exact h
  · refine OutInv.ends reelObserve_par ?_
    refine Inv.ite (Q := paramsWf) ?_ ?_
    · exact incP_par _ _ _ h
    · exact stopTask_par _ _ _ h

theorem execTaskWatchdog_par (strand : Fin 8) (s : State) (h : paramsWf s) :
    OutInv paramsWf (execTaskWatchdog strand s) := by
  unfold execTaskWatchdog
  refine OutInv.clocked ?_ ?_
  · exact h
  · refine OutInv.ends reelObserve_par ?_
    split
    · exact h
    · exact stopTask_par _ _ _ (paramsWf.keep (advanceTo_keeps _ _) (by rfl) h)

/-! ### Machine/Arms.lean -/

theorem armEnableBody_par (c : Cmd) (s : State) (h : paramsWf s) :
    ResInv paramsWf (armEnableBody c s) := by
  exact paramsWf.res (armEnableBody_keeps _ _) (by rfl) h

theorem blockBody_par (c : Cmd) (s : State) (h : paramsWf s) :
    ResInv paramsWf (blockBody c s) := by
  exact paramsWf.res (blockBody_keeps _ _) (by rfl) h

theorem deblockBody_par (c : Cmd) (s : State) (h : paramsWf s) :
    ResInv paramsWf (deblockBody c s) := by
  unfold deblockBody
  exact ResInv.check (ResInv.done (paramsWf.keep (deblockArms_keeps _ _) (by rfl) h))

theorem execArmEnable_par (c : Cmd) (s : State) (h : paramsWf s) :
    OutInv paramsWf (execArmEnable c s) := by
  unfold execArmEnable
  refine OutInv.ends reelObserve_par ?_
  refine Inv.runCmd (Q := paramsWf) goodPacket_par answer_par ?_ fun x0 _ h1 => ?_
  · exact h
  · exact armEnableBody_par _ _ h1

theorem execBlock_par (c : Cmd) (s : State) (h : paramsWf s) :
    OutInv paramsWf (execBlock c s) := by
  unfold execBlock
  refine OutInv.ends reelObserve_par ?_
  refine Inv.runCmd (Q := paramsWf) goodPacket_par answer_par ?_ fun x0 _ h1 => ?_
  · exact h
  · exact blockBody_par _ _ h1

theorem execDeblock_par (c : Cmd) (s : State) (h : paramsWf s) :
    OutInv paramsWf (execDeblock c s) := by
  unfold execDeblock
  refine OutInv.ends reelObserve_par ?_
  refine Inv.runCmd (Q := paramsWf) goodPacket_par answer_par ?_ fun x0 _ h1 => ?_
  · exact h
  · exact deblockBody_par _ _ h1

/-! ### Machine/Lanes.lean -/

theorem eyeScanBody_par (c : Cmd) (s : State) (h : paramsWf s) :
    ResInv paramsWf (eyeScanBody c s) := by
  exact paramsWf.res (eyeScanBody_keeps _ _) (by rfl) h

theorem laneRetireBody_par (c : Cmd) (s : State) (h : paramsWf s) :
    ResInv paramsWf (laneRetireBody c s) := by
  exact paramsWf.res (laneRetireBody_keeps _ _) (by rfl) h

theorem loopEndNow_par (s : State) (l : Nat) (h : paramsWf s) :
    ResInv paramsWf (loopEndNow s l) := by
  exact paramsWf.res (loopEndNow_keeps _ _) (by rfl) h

theorem endLaneOp_par (s : State) (op : Nat) (l : Nat) (h : paramsWf s) :
    paramsWf (endLaneOp s op l) := by
  unfold endLaneOp
  split
  · exact completeErr_par _ _ _ h
  · exact h

theorem scanLost_par (s : State) (l : Nat) (pts : List (BitVec 16)) (h : paramsWf s) :
    paramsWf (scanLost s l pts) := by
  unfold scanLost
  split
  · exact completeErr_par _ _ _ (paramsWf.keep (eyeStore_keeps _ _ _ _ _) (by rfl) h)
  · exact h

theorem execEyeScan_par (c : Cmd) (s : State) (h : paramsWf s) :
    OutInv paramsWf (execEyeScan c s) := by
  unfold execEyeScan
  refine OutInv.ends reelObserve_par ?_
  refine Inv.runCmd (Q := paramsWf) goodPacket_par answer_par ?_ fun x0 _ h1 => ?_
  · exact h
  · exact eyeScanBody_par _ _ h1

theorem execEyeScanDone_par (points : List (BitVec 16)) (s : State) (h : paramsWf s) :
    OutInv paramsWf (execEyeScanDone points s) := by
  unfold execEyeScanDone
  refine OutInv.clocked ?_ ?_
  · exact h
  · split
    · exact OutInv.ends reelObserve_par h
    · extract_lets y60 y61
      refine Inv.cut (Q := paramsWf) (s := y60) ?_ fun h90 => ?_
      · unfold y60
        exact paramsWf.keep (advanceTo_keeps _ _) (by rfl) h
      clear_value y60
      refine Inv.cut (Q := paramsWf) (s := y61) ?_ fun h91 => ?_
      · unfold y61
        exact paramsWf.keep (eyeStore_keeps _ _ _ _ _) (by rfl) h90
      clear_value y61
      exact OutInv.ends reelObserve_par (completeOk_par _ _ _ h91)

theorem execLaneErrorWindowEnd_par (lane : Fin 66) (s : State) (h : paramsWf s) :
    OutInv paramsWf (execLaneErrorWindowEnd lane s) := by
  unfold execLaneErrorWindowEnd
  extract_lets y0 y1 y2 y3
  clear_value y0
  refine Inv.cut (Q := paramsWf) (s := y1) ?_ fun h30 => ?_
  · unfold y1
    exact paramsWf.keep (advanceTo_keeps _ _) (by rfl) h
  clear_value y1
  refine Inv.cut (Q := paramsWf) (s := y2) ?_ fun h31 => ?_
  · unfold y2
    refine Inv.ite (Q := paramsWf) ?_ ?_
    · exact paramsWf.keep (causeGone_keeps _ _ _) (by rfl) h30
    · exact h30
  clear_value y2
  refine Inv.cut (Q := paramsWf) (s := y3) ?_ fun h32 => ?_
  · unfold y3
    exact putN_par _ _ _ _ h31
  clear_value y3
  refine OutInv.clocked ?_ ?_
  · exact h
  · refine OutInv.ite ?_ ?_
    · exact OutInv.ends reelObserve_par (paramsWf.keep (updLane_keeps _ _ _) (by rfl) h32)
    · exact OutInv.ends reelObserve_par h

theorem execLaneLoopEnd_par (lane : Fin 66) (received : Word) (crcBad : Word) (bitErrs : Word) (losses : Word) (s : State) (h :
      paramsWf s) :
    OutInv paramsWf (execLaneLoopEnd lane received crcBad bitErrs losses s) := by
  unfold execLaneLoopEnd
  refine OutInv.clocked ?_ ?_
  · exact h
  · split
    · extract_lets y60 y61
      refine Inv.cut (Q := paramsWf) (s := y60) ?_ fun h90 => ?_
      · unfold y60
        exact paramsWf.keep (advanceTo_keeps _ _) (by rfl) h
      clear_value y60
      refine Inv.cut (Q := paramsWf) (s := y61) ?_ fun h91 => ?_
      · unfold y61
        exact paramsWf.keep (updLane_keeps _ _ _) (by rfl) h90
      clear_value y61
      exact OutInv.ends reelObserve_par (completeOk_par _ _ _ h91)
    · exact OutInv.ends reelObserve_par h

theorem execLaneRetire_par (c : Cmd) (s : State) (h : paramsWf s) :
    OutInv paramsWf (execLaneRetire c s) := by
  unfold execLaneRetire
  refine OutInv.ends reelObserve_par ?_
  refine Inv.runCmd (Q := paramsWf) goodPacket_par answer_par ?_ fun x0 _ h1 => ?_
  · exact h
  · exact laneRetireBody_par _ _ h1

theorem execRetryWindowEnd_par (lane : Fin 66) (s : State) (h : paramsWf s) :
    OutInv paramsWf (execRetryWindowEnd lane s) := by
  unfold execRetryWindowEnd
  refine OutInv.clocked ?_ ?_
  · exact h
  · split
    · exact OutInv.ends reelObserve_par h
    · refine OutInv.ends reelObserve_par ?_
      exact paramsWf.keep (updLane_keeps _ _ _) (by rfl) (paramsWf.keep (advanceTo_keeps _ _) (by rfl) h)

theorem laneLoopBody_par (c : Cmd) (s : State) (h : paramsWf s) :
    ResInv paramsWf (laneLoopBody c s) := by
  unfold laneLoopBody
  extract_lets y0 y1 y2
  clear_value y0 y1 y2
  refine ResInv.ite ?_ ?_
  · exact ResInv.check (loopEndNow_par _ _ h)
  · refine ResInv.check ?_
    refine ResInv.accepted ?_ fun x120 h121 => ?_
    · exact paramsWf.keep (startOp_keeps _ _ _ _ _) (by rfl) h
    · extract_lets y122
      refine Inv.cut (Q := paramsWf) (s := y122) ?_ fun h152 => ?_
      · unfold y122
        exact paramsWf.keep (closeRetry_keeps _ _) (by rfl) (laneTo_par _ _ _ h121)
      clear_value y122
      exact paramsWf.keep (updLane_keeps _ _ _) (by rfl) h152

theorem capsDone_par (s : State) (l : Nat) (hub : Nat) (mask : Nat) (low : Nat) (selectOk : Bool) (port : Nat) (h :
      paramsWf s) :
    paramsWf (capsDone s l hub mask low selectOk port) := by
  unfold capsDone
  extract_lets y0 y1 y2
  clear_value y0
  refine Inv.cut (Q := paramsWf) (s := y1) ?_ fun h30 => ?_
  · unfold y1
    exact paramsWf.keep (updLane_keeps _ _ _) (by rfl) h
  clear_value y1
  refine Inv.cut (Q := paramsWf) (s := y2) ?_ fun h31 => ?_
  · unfold y2
    exact paramsWf.keep (updLane_keeps _ _ _) (by rfl) h30
  clear_value y2
  refine Inv.ite (Q := paramsWf) ?_ ?_
  · exact bringupFail_par _ _ _ _ h30
  · refine Inv.ite (Q := paramsWf) ?_ ?_
    · exact bringupFail_par _ _ _ _ h30
    · refine Inv.ite (Q := paramsWf) ?_ ?_
      · exact paramsWf.keep (awaitEntry_keeps _ _) (by rfl) h31
      · exact enterStage_par _ _ _ _ h31

theorem execBringupStageTimeout_par (lane : Fin 66) (s : State) (h : paramsWf s) :
    OutInv paramsWf (execBringupStageTimeout lane s) := by
  unfold execBringupStageTimeout
  extract_lets y0 y1
  clear_value y0
  refine Inv.cut (Q := paramsWf) (s := y1) ?_ fun h30 => ?_
  · unfold y1
    exact paramsWf.keep (advanceTo_keeps _ _) (by rfl) h
  clear_value y1
  refine OutInv.clocked ?_ ?_
  · exact h
  · refine OutInv.ite ?_ ?_
    · exact OutInv.ends reelObserve_par (bringupFail_par _ _ _ _ h30)
    · exact OutInv.ends reelObserve_par h

theorem execCapsDone_par (lane : Fin 66) (hubGen : BitVec 2) (mask : BitVec 48) (cellGens : List (BitVec 2))
      (selectOk : Bool) (activePort : BitVec 2) (s : State) (h : paramsWf s) :
    OutInv paramsWf (execCapsDone lane hubGen mask cellGens selectOk activePort s) := by
  unfold execCapsDone
  extract_lets y0 y1 y2 y3
  clear_value y0 y1 y2 y3
  refine OutInv.clocked ?_ ?_
  · exact h
  · refine OutInv.ite ?_ ?_
    · exact OutInv.ends reelObserve_par (paramsWf.keep (loopCaps_keeps _ _ _ _ _ _) (by rfl) h)
    · refine OutInv.ite ?_ ?_
      · exact OutInv.ends reelObserve_par (capsDone_par _ _ _ _ _ _ _ h)
      · exact OutInv.ends reelObserve_par h

theorem execLaneLoop_par (c : Cmd) (s : State) (h : paramsWf s) :
    OutInv paramsWf (execLaneLoop c s) := by
  unfold execLaneLoop
  refine OutInv.ends reelObserve_par ?_
  refine Inv.runCmd (Q := paramsWf) goodPacket_par answer_par ?_ fun x0 _ h1 => ?_
  · exact h
  · exact laneLoopBody_par _ _ h1

theorem execLaneLoopEndMode0_par (c : Cmd) (s : State) (h : paramsWf s) :
    OutInv paramsWf (execLaneLoopEndMode0 c s) := by
  unfold execLaneLoopEndMode0
  refine OutInv.ends reelObserve_par ?_
  refine Inv.runCmd (Q := paramsWf) goodPacket_par answer_par ?_ fun x0 _ h1 => ?_
  · exact h
  · exact laneLoopBody_par _ _ h1

theorem execRebringupRetry_par (lane : Fin 66) (s : State) (h : paramsWf s) :
    OutInv paramsWf (execRebringupRetry lane s) := by
  unfold execRebringupRetry
  refine OutInv.clocked ?_ ?_
  · exact h
  · split
    · exact OutInv.ends reelObserve_par h
    · refine OutInv.ends reelObserve_par ?_
      refine Inv.ite (Q := paramsWf) ?_ ?_
      · exact startBringup_par _ _ _ (paramsWf.keep (advanceTo_keeps _ _) (by rfl) h)
      · exact h

theorem laneBringupBody_par (c : Cmd) (s : State) (h : paramsWf s) :
    ResInv paramsWf (laneBringupBody c s) := by
  unfold laneBringupBody
  extract_lets y0
  clear_value y0
  refine ResInv.check ?_
  refine ResInv.accepted ?_ fun x30 h31 => ?_
  · exact paramsWf.keep (startOp_keeps _ _ _ _ _) (by rfl) h
  · refine startBringup_par _ _ _ ?_
    exact paramsWf.keep (updLane_keeps _ _ _) (by rfl) (paramsWf.keep (closeRetry_keeps _ _) (by rfl) h31)

theorem laneDomainOff_par (s : State) (l : Nat) (h : paramsWf s) :
    paramsWf (laneDomainOff s l) := by
  unfold laneDomainOff
  exact endLaneOp_par _ _ _ (endLaneOp_par _ _ _ (laneOff_par _ _ h))

theorem laneEnSet_par (s : State) (h : paramsWf s) :
    paramsWf (laneEnSet s) := by
  unfold laneEnSet
  refine Inv.ite (Q := paramsWf) ?_ ?_
  · refine Inv.foldl (Q := paramsWf) ?_ fun x60 a61 h62 => ?_
    · exact h
    · extract_lets y63 y64 y65
      clear_value y63 y64
      refine Inv.cut (Q := paramsWf) (s := y65) ?_ fun h93 => ?_
      · unfold y65
        refine Inv.foldl (Q := paramsWf) ?_ fun x94 a95 h96 => ?_
        · exact paramsWf.keep (domains_keeps _ _ _) (by rfl) h62
        · exact laneDomainOff_par _ _ h96
      clear_value y65
      refine Inv.ite (Q := paramsWf) ?_ ?_
      · exact h62
      · refine Inv.ite (Q := paramsWf) ?_ ?_
        · exact paramsWf.keep (domains_keeps _ _ _) (by rfl) h62
        · exact paramsWf.keep (updPwr_keeps _ _) (by rfl) h93
  · exact h

theorem lockLost_par (s : State) (l : Nat) (pts : List (BitVec 16)) (h : paramsWf s) :
    paramsWf (lockLost s l pts) := by
  unfold lockLost
  extract_lets y0 y1 y2
  clear_value y1
  refine Inv.cut (Q := paramsWf) (s := y0) ?_ fun h30 => ?_
  · unfold y0
    exact laneError_par _ _ (scanLost_par _ _ _ h)
  clear_value y0
  refine Inv.cut (Q := paramsWf) (s := y2) ?_ fun h31 => ?_
  · unfold y2
    refine Inv.ite (Q := paramsWf) ?_ ?_
    · exact h30
    · exact paramsWf.keep (updLane_keeps _ _ _) (by rfl) h30
  clear_value y2
  refine Inv.ite (Q := paramsWf) ?_ ?_
  · exact h30
  · exact paramsWf.keep (updLane_keeps _ _ _) (by rfl) (startBringup_par _ _ _ h31)

theorem toStage_par (s : State) (l : Nat) (st : LaneSt) (pass2 : Bool) (h : paramsWf s) :
    paramsWf (toStage s l st pass2) := by
  unfold toStage
  refine Inv.ite (Q := paramsWf) ?_ ?_
  · exact paramsWf.keep (loopStage_keeps _ _ _ _) (by rfl) h
  · exact enterStage_par _ _ _ _ h

theorem execDetectDone_par (lane : Fin 66) (rx : Rx) (s : State) (h : paramsWf s) :
    OutInv paramsWf (execDetectDone lane s rx) := by
  unfold execDetectDone
  extract_lets y0
  clear_value y0
  refine OutInv.clocked ?_ ?_
  · exact h
  · refine OutInv.ends reelObserve_par ?_
    refine Inv.ite (Q := paramsWf) ?_ ?_
    · exact toStage_par _ _ _ _ h
    · exact h

theorem execLaneBringup_par (c : Cmd) (s : State) (h : paramsWf s) :
    OutInv paramsWf (execLaneBringup c s) := by
  unfold execLaneBringup
  refine OutInv.ends reelObserve_par ?_
  refine Inv.runCmd (Q := paramsWf) goodPacket_par answer_par ?_ fun x0 _ h1 => ?_
  · exact h
  · exact laneBringupBody_par _ _ h1

theorem execLockDone_par (lane : Fin 66) (rx : Rx) (s : State) (h : paramsWf s) :
    OutInv paramsWf (execLockDone lane s rx) := by
  unfold execLockDone
  extract_lets y0
  clear_value y0
  refine OutInv.clocked ?_ ?_
  · exact h
  · refine OutInv.ite ?_ ?_
    · refine OutInv.ends reelObserve_par ?_
      refine Inv.ite (Q := paramsWf) ?_ ?_
      · exact toStage_par _ _ _ _ h
      · refine Inv.ite (Q := paramsWf) ?_ ?_
        · exact paramsWf.keep (loopStage_keeps _ _ _ _) (by rfl) h
        · exact paramsWf.keep (awaitEntry_keeps _ _) (by rfl) h
    · exact OutInv.ends reelObserve_par h

theorem execTrainDone_par (lane : Fin 66) (eq : BitVec 4) (clean : Nat) (s : State) (h : paramsWf s) :
    OutInv paramsWf (execTrainDone lane eq s clean) := by
  unfold execTrainDone
  extract_lets y0 y1 y2
  clear_value y0 y1
  refine Inv.cut (Q := paramsWf) (s := y2) ?_ fun h30 => ?_
  · unfold y2
    exact putN_par _ _ _ _ h
  clear_value y2
  refine OutInv.clocked ?_ ?_
  · exact h
  · refine OutInv.ite ?_ ?_
    · exact OutInv.ends reelObserve_par (toStage_par _ _ _ _ h30)
    · exact OutInv.ends reelObserve_par h

theorem lockGone_par (s : State) (l : Nat) (pts : List (BitVec 16)) (h : paramsWf s) :
    paramsWf (lockGone s l pts) := by
  unfold lockGone
  split
  · exact lockLost_par _ _ _ (incP_par _ _ _ h)
  · exact bringupFail_par _ _ _ _ (incP_par _ _ _ h)
  · exact bringupFail_par _ _ _ _ (incP_par _ _ _ h)
  · exact paramsWf.keep (updLane_keeps _ _ _) (by rfl) (incP_par _ _ _ h)
  · exact h

theorem execLossOfLock_par (lane : Fin 66) (rx : Rx) (scanned : List (BitVec 16)) (s : State) (h : paramsWf s) :
    OutInv paramsWf (execLossOfLock lane scanned s rx) := by
  unfold execLossOfLock
  refine OutInv.clocked ?_ ?_
  · exact h
  · refine OutInv.ends reelObserve_par ?_
    refine Inv.ite (Q := paramsWf) ?_ ?_
    · exact lockGone_par _ _ _ h
    · exact h

/-! ### Machine/Discovery.lean -/

theorem cellConfigBody_par (c : Cmd) (s : State) (h : paramsWf s) :
    ResInv paramsWf (cellConfigBody c s) := by
  exact paramsWf.res (cellConfigBody_keeps _ _) (by rfl) h

theorem discoverLane_par (s : State) (l : Nat) (h : paramsWf s) :
    paramsWf (discoverLane s l) := by
  unfold discoverLane
  extract_lets y0 y1 y2
  clear_value y1
  refine Inv.cut (Q := paramsWf) (s := y0) ?_ fun h30 => ?_
  · unfold y0
    refine Inv.foldl (Q := paramsWf) ?_ fun x31 a32 h33 => ?_
    · exact h
    · exact paramsWf.keep (storeRecord_keeps _ _ _ _ _) (by rfl) h33
  clear_value y0
  refine Inv.cut (Q := paramsWf) (s := y2) ?_ fun h34 => ?_
  · unfold y2
    exact putN_par _ _ _ _ h30
  clear_value y2
  refine Inv.ite (Q := paramsWf) ?_ ?_
  · exact paramsWf.keep (updLane_keeps _ _ _) (by rfl) h34
  · exact h34

theorem placeBody_par (c : Cmd) (s : State) (h : paramsWf s) :
    ResInv paramsWf (placeBody c s) := by
  unfold placeBody
  extract_lets y0
  clear_value y0
  split
  · exact ResInv.fail (putN_par _ _ _ _ h)
  · refine ResInv.accepted ?_ fun x30 h31 => ?_
    · exact paramsWf.keep (startOp_keeps _ _ _ _ _) (by rfl) (putN_par _ _ _ _ h)
    · exact h31

theorem readIdentityBody_par (c : Cmd) (s : State) (h : paramsWf s) :
    ResInv paramsWf (readIdentityBody c s) := by
  exact paramsWf.res (readIdentityBody_keeps _ _) (by rfl) h

theorem tallyReportBody_par (c : Cmd) (s : State) (h : paramsWf s) :
    ResInv paramsWf (tallyReportBody c s) := by
  exact paramsWf.res (tallyReportBody_keeps _ _) (by rfl) h

theorem discoverBody_par (c : Cmd) (s : State) (h : paramsWf s) :
    ResInv paramsWf (discoverBody c s) := by
  unfold discoverBody
  extract_lets y0 y1
  clear_value y0 y1
  refine ResInv.check ?_
  refine ResInv.accepted ?_ fun x30 h31 => ?_
  · exact paramsWf.keep (startOp_keeps _ _ _ _ _) (by rfl) h
  · refine Inv.foldl (Q := paramsWf) ?_ fun x32 a33 h34 => ?_
    · exact h31
    · exact discoverLane_par _ _ h34

theorem endRetires_par (s : State) (h : paramsWf s) :
    paramsWf (endRetires s) := by
  unfold endRetires
  refine Inv.foldl (Q := paramsWf) ?_ fun x0 a1 h2 => ?_
  · exact h
  · exact completeErr_par _ _ _ h2

theorem idBoardDone_par (s : State) (o : LongOp) (board : Option (List Byte)) (again : Option (List Byte)) (h :
      paramsWf s) :
    paramsWf (idBoardDone s o board again) := by
  unfold idBoardDone
  extract_lets y0
  clear_value y0
  refine Inv.ite (Q := paramsWf) ?_ ?_
  · exact completeOk_par _ _ _ h
  · exact completeErr_par _ _ _ h

theorem idLaneDone_par (s : State) (o : LongOp) (h : paramsWf s) :
    paramsWf (idLaneDone s o) := by
  unfold idLaneDone
  extract_lets y0 y1 y2 y3
  clear_value y0 y1 y2
  refine Inv.cut (Q := paramsWf) (s := y3) ?_ fun h30 => ?_
  · unfold y3
    exact paramsWf.keep (updLane_keeps _ _ _) (by rfl) h
  clear_value y3
  refine Inv.ite (Q := paramsWf) ?_ ?_
  · exact completeOk_par _ _ _ h30
  · exact completeErr_par _ _ _ h30

theorem placeCleat_par (s : State) (h : paramsWf s) :
    paramsWf (placeCleat s) := by
  unfold placeCleat
  extract_lets y0
  refine Inv.cut (Q := paramsWf) (s := y0) ?_ fun h30 => ?_
  · unfold y0
    exact paramsWf.filter (s := s) rfl h
  clear_value y0
  exact paramsWf.keep (placeCauses_keeps _) (by rfl) (endRetires_par _ h30)

theorem execCellConfig_par (c : Cmd) (s : State) (h : paramsWf s) :
    OutInv paramsWf (execCellConfig c s) := by
  unfold execCellConfig
  refine OutInv.ends reelObserve_par ?_
  refine Inv.runCmd (Q := paramsWf) goodPacket_par answer_par ?_ fun x0 _ h1 => ?_
  · exact h
  · exact cellConfigBody_par _ _ h1

theorem execCellConfigDone_par (s : State) (h : paramsWf s) :
    OutInv paramsWf (execCellConfigDone s) := by
  unfold execCellConfigDone
  refine OutInv.clocked ?_ ?_
  · exact h
  · refine OutInv.ends reelObserve_par ?_
    split
    · exact h
    · extract_lets y90 y91
      clear_value y90 y91
      exact completeOk_par _ _ _ h

theorem execDiscover_par (c : Cmd) (s : State) (h : paramsWf s) :
    OutInv paramsWf (execDiscover c s) := by
  unfold execDiscover
  refine OutInv.ends reelObserve_par ?_
  refine Inv.runCmd (Q := paramsWf) goodPacket_par answer_par ?_ fun x0 _ h1 => ?_
  · exact h
  · exact discoverBody_par _ _ h1

theorem execDiscoverDone_par (boards : List (Option (List Byte))) (again : List (Option (List Byte))) (s : State) (h
      : paramsWf s) :
    OutInv paramsWf (execDiscoverDone boards s again) := by
  unfold execDiscoverDone
  extract_lets y0
  refine Inv.cut (Q := paramsWf) (s := y0) ?_ fun h30 => ?_
  · unfold y0
    exact paramsWf.keep (putBoards_keeps _ _ _) (by rfl) h
  clear_value y0
  refine OutInv.clocked ?_ ?_
  · exact h
  · refine OutInv.ends reelObserve_par ?_
    split
    · exact h
    · exact completeOk_par _ _ _ h30

theorem execPlace_par (c : Cmd) (s : State) (h : paramsWf s) :
    OutInv paramsWf (execPlace c s) := by
  unfold execPlace
  refine OutInv.ends reelObserve_par ?_
  refine Inv.runCmd (Q := paramsWf) goodPacket_par answer_par ?_ fun x0 _ h1 => ?_
  · exact h
  · exact placeBody_par _ _ h1

theorem execReadIdentity_par (c : Cmd) (s : State) (h : paramsWf s) :
    OutInv paramsWf (execReadIdentity c s) := by
  unfold execReadIdentity
  refine OutInv.ends reelObserve_par ?_
  refine Inv.runCmd (Q := paramsWf) goodPacket_par answer_par ?_ fun x0 _ h1 => ?_
  · exact h
  · exact readIdentityBody_par _ _ h1

theorem execReadIdentityDone_par (board : Option (List Byte)) (again : Option (List Byte)) (s : State) (h : paramsWf
      s) :
    OutInv paramsWf (execReadIdentityDone board s again) := by
  unfold execReadIdentityDone
  extract_lets y0 y1
  clear_value y0 y1
  refine OutInv.clocked ?_ ?_
  · exact h
  · refine OutInv.ends reelObserve_par ?_
    split
    · exact idLaneDone_par _ _ h
    · refine Inv.ite (Q := paramsWf) ?_ ?_
      · exact idBoardDone_par _ _ _ _ h
      · exact idLaneDone_par _ _ h
    · exact idBoardDone_par _ _ _ _ h
    · exact h

theorem execTallyReport_par (c : Cmd) (s : State) (h : paramsWf s) :
    OutInv paramsWf (execTallyReport c s) := by
  unfold execTallyReport
  refine OutInv.ends reelObserve_par ?_
  refine Inv.runCmd (Q := paramsWf) goodPacket_par answer_par ?_ fun x0 _ h1 => ?_
  · exact h
  · exact tallyReportBody_par _ _ h1

theorem execMtWindowEnd_par (s : State) (h : paramsWf s) :
    OutInv paramsWf (execMtWindowEnd s) := by
  unfold execMtWindowEnd
  extract_lets y0
  clear_value y0
  refine OutInv.clocked ?_ ?_
  · exact h
  · refine OutInv.ends reelObserve_par ?_
    refine Inv.ite (Q := paramsWf) ?_ ?_
    · refine Inv.atMark (Q := paramsWf) advanceTo_par ?_ fun x30 h31 => ?_
      · exact h
      · refine mtEnd_par _ ?_
        refine Inv.ite (Q := paramsWf) ?_ ?_
        · exact mtChargeOf_par _ _ _ h31
        · exact h31
    · exact h

theorem execTallyPersistExpiry_par (kind : Fin 3) (s : State) (h : paramsWf s) :
    OutInv paramsWf (execTallyPersistExpiry kind s) := by
  unfold execTallyPersistExpiry
  extract_lets y0
  refine Inv.cut (Q := paramsWf) (s := y0) ?_ fun h30 => ?_
  · unfold y0
    exact paramsWf.keep (tallyFollow_keeps _ _) (by rfl) h
  clear_value y0
  refine OutInv.clocked ?_ ?_
  · exact h
  · refine OutInv.ends reelObserve_par ?_
    split
    · exact h30
    · extract_lets y121
      refine Inv.cut (Q := paramsWf) (s := y121) ?_ fun h151 => ?_
      · unfold y121
        exact paramsWf.keep (advanceTo_keeps _ _) (by rfl) h30
      clear_value y121
      refine Inv.ite (Q := paramsWf) ?_ ?_
      · exact h151
      · exact raiseFault_par _ _ _ h151

theorem placeWatch_par (s : State) (h : paramsWf s) :
    paramsWf (placeWatch s) := by
  unfold placeWatch
  refine ledgerWatch_par _ ?_
  exact cleatWatch_par _ (paramsWf.keep (tallyFollow_keeps _ _) (by rfl) (tallyStale_par _ h))

theorem placeDo_par (s : State) (t : List Word) (h : paramsWf s) :
    paramsWf (placeDo s t) := by
  unfold placeDo
  extract_lets y0 y1 y2 y3 y4 y5 y6 y7 y8 y9 y10 y11
  clear_value y0 y1 y2 y3
  refine Inv.cut (Q := paramsWf) (s := y4) ?_ fun h30 => ?_
  · unfold y4
    exact dropTasks_par _ _ (paramsWf.keep (mtAbort_keeps _) (by rfl) (placeCleat_par _ h))
  clear_value y4
  refine Inv.cut (Q := paramsWf) (s := y5) ?_ fun h31 => ?_
  · unfold y5
    exact paramsWf.eq (s := y4) rfl h30
  clear_value y5
  refine Inv.cut (Q := paramsWf) (s := y6) ?_ fun h32 => ?_
  · unfold y6
    refine Inv.foldl (Q := paramsWf) ?_ fun x33 a34 h35 => ?_
    · exact h31
    · exact paramsWf.keep (placeCell_keeps _ _ _) (by rfl) h35
  clear_value y6
  refine Inv.cut (Q := paramsWf) (s := y7) ?_ fun h36 => ?_
  · unfold y7
    refine Inv.foldl (Q := paramsWf) ?_ fun x37 a38 h39 => ?_
    · refine Inv.foldl (Q := paramsWf) ?_ fun x40 a41 h42 => ?_
      · exact h32
      · exact paramsWf.keep (placeLane_keeps _ _ _) (by rfl) h42
    · exact paramsWf.keep (placeArm_keeps _ _) (by rfl) h39
  clear_value y7
  refine Inv.cut (Q := paramsWf) (s := y11) ?_ fun h43 => ?_
  · unfold y11
    exact paramsWf.eq (s := y7) rfl h36
  clear_value y11
  exact latencyChange_par _ _ (recompute_par _ h43)

theorem execPlaceDone_par (s : State) (h : paramsWf s) :
    OutInv paramsWf (execPlaceDone s) := by
  unfold execPlaceDone
  refine OutInv.clocked ?_ ?_
  · exact h
  · refine OutInv.ends reelObserve_par ?_
    split
    · exact h
    · extract_lets y90
      refine Inv.cut (Q := paramsWf) (s := y90) ?_ fun h120 => ?_
      · unfold y90
        exact placeWatch_par _ (placeDo_par _ _ h)
      clear_value y90
      exact completeOk_par _ _ _ h120

/-! ### Machine/Faults.lean -/

theorem factoryUnlockBody_par (c : Cmd) (s : State) (h : paramsWf s) :
    ResInv paramsWf (factoryUnlockBody c s) := by
  exact paramsWf.res (factoryUnlockBody_keeps _ _) (by rfl) h

theorem faultReadBody_par (c : Cmd) (s : State) (h : paramsWf s) :
    ResInv paramsWf (faultReadBody c s) := by
  exact paramsWf.res (faultReadBody_keeps _ _) (by rfl) h

theorem execErrPulseEnd_par (s : State) (h : paramsWf s) :
    OutInv paramsWf (execErrPulseEnd s) := by
  unfold execErrPulseEnd
  refine OutInv.clocked ?_ ?_
  · exact h
  · refine OutInv.ends reelObserve_par ?_
    split
    · extract_lets y90 y91
      refine Inv.cut (Q := paramsWf) (s := y90) ?_ fun h120 => ?_
      · unfold y90
        exact paramsWf.keep (advanceTo_keeps _ _) (by rfl) h
      clear_value y90
      exact paramsWf.eq (s := y90) rfl h120
    · exact h

theorem execFactoryUnlock_par (c : Cmd) (s : State) (h : paramsWf s) :
    OutInv paramsWf (execFactoryUnlock c s) := by
  unfold execFactoryUnlock
  refine OutInv.ends reelObserve_par ?_
  refine Inv.runCmd (Q := paramsWf) goodPacket_par answer_par ?_ fun x0 _ h1 => ?_
  · exact h
  · exact factoryUnlockBody_par _ _ h1

theorem execFaultRead_par (c : Cmd) (s : State) (h : paramsWf s) :
    OutInv paramsWf (execFaultRead c s) := by
  unfold execFaultRead
  refine OutInv.ends reelObserve_par ?_
  refine Inv.runCmd (Q := paramsWf) goodPacket_par answer_par ?_ fun x0 _ h1 => ?_
  · exact h
  · exact faultReadBody_par _ _ h1

theorem execGraceExpiry_par (entry : Fin 256) (s : State) (h : paramsWf s) :
    OutInv paramsWf (execGraceExpiry entry s) := by
  unfold execGraceExpiry
  extract_lets y0
  clear_value y0
  refine OutInv.clocked ?_ ?_
  · exact h
  · refine OutInv.ends reelObserve_par ?_
    refine Inv.ite (Q := paramsWf) ?_ ?_
    · exact graceExpire_par _ _ (paramsWf.keep (advanceTo_keeps _ _) (by rfl) h)
    · exact h

theorem faultAckBody_par (c : Cmd) (s : State) (h : paramsWf s) :
    ResInv paramsWf (faultAckBody c s) := by
  unfold faultAckBody
  extract_lets y0 y1
  clear_value y1
  refine Inv.cut (Q := paramsWf) (s := y0) ?_ fun h30 => ?_
  · unfold y0
    exact gracesDue_par _ h
  clear_value y0
  split
  · trivial
  · exact ResInv.done (paramsWf.keep (setFlt_keeps _ _ _) (by rfl) h30)

theorem faultClearBody_par (c : Cmd) (s : State) (h : paramsWf s) :
    ResInv paramsWf (faultClearBody c s) := by
  unfold faultClearBody
  extract_lets y0 y1
  clear_value y1
  refine Inv.cut (Q := paramsWf) (s := y0) ?_ fun h30 => ?_
  · unfold y0
    exact gracesDue_par _ h
  clear_value y0
  split
  · trivial
  · refine ResInv.ite ?_ ?_
    · trivial
    · exact ResInv.done (chopCleared_par _ _ _ (paramsWf.keep (freeEntry_keeps _ _) (by rfl) h30))

theorem execFaultAck_par (c : Cmd) (s : State) (h : paramsWf s) :
    OutInv paramsWf (execFaultAck c s) := by
  unfold execFaultAck
  refine OutInv.ends reelObserve_par ?_
  refine Inv.runCmd (Q := paramsWf) goodPacket_par answer_par ?_ fun x0 _ h1 => ?_
  · exact h
  · exact faultAckBody_par _ _ h1

theorem execFaultClear_par (c : Cmd) (s : State) (h : paramsWf s) :
    OutInv paramsWf (execFaultClear c s) := by
  unfold execFaultClear
  refine OutInv.ends reelObserve_par ?_
  refine Inv.runCmd (Q := paramsWf) goodPacket_par answer_par ?_ fun x0 _ h1 => ?_
  · exact h
  · exact faultClearBody_par _ _ h1

theorem injectFault_par (s : State) (code : Nat) (inst : Nat) (h : paramsWf s) :
    paramsWf (injectFault s code inst) := by
  unfold injectFault
  extract_lets y0 y1 y2 y3 y4
  clear_value y0 y2 y3 y4
  refine Inv.cut (Q := paramsWf) (s := y1) ?_ fun h30 => ?_
  · unfold y1
    refine Inv.ite (Q := paramsWf) ?_ ?_
    · exact h
    · exact paramsWf.keep (belayLatch_keeps _ _) (by rfl) (paramsWf.keep (belayReact_keeps _ _) (by rfl) h)
  clear_value y1
  refine Inv.ite (Q := paramsWf) ?_ ?_
  · exact raiseWith_par _ _ _ _ _ _ _ h30
  · refine Inv.ite (Q := paramsWf) ?_ ?_
    · refine Inv.ite (Q := paramsWf) ?_ ?_
      · exact fltRecord_par _ _ _ _ (paramsWf.keep (setFlt_keeps _ _ _) (by rfl) h)
      · exact reRaise_par _ _ _ _ _ _ h
    · exact raiseWith_par _ _ _ _ _ _ _ h

theorem faultInjectBody_par (c : Cmd) (s : State) (h : paramsWf s) :
    ResInv paramsWf (faultInjectBody c s) := by
  unfold faultInjectBody
  extract_lets y0 y1
  clear_value y0 y1
  exact ResInv.check (ResInv.done (injectFault_par _ _ _ h))

theorem execFaultInject_par (c : Cmd) (s : State) (h : paramsWf s) :
    OutInv paramsWf (execFaultInject c s) := by
  unfold execFaultInject
  refine OutInv.ends reelObserve_par ?_
  refine Inv.runCmd (Q := paramsWf) goodPacket_par answer_par ?_ fun x0 _ h1 => ?_
  · exact h
  · exact faultInjectBody_par _ _ h1

/-! ### Machine/Maint.lean -/

theorem cleatReleaseBody_par (c : Cmd) (s : State) (h : paramsWf s) :
    ResInv paramsWf (cleatReleaseBody c s) := by
  exact paramsWf.res (cleatReleaseBody_keeps _ _) (by rfl) h

theorem maintEndBody_par (c : Cmd) (s : State) (h : paramsWf s) :
    ResInv paramsWf (maintEndBody c s) := by
  unfold maintEndBody
  extract_lets y0
  clear_value y0
  split
  · refine ResInv.check ?_
    trivial
  · exact ResInv.check (ResInv.done (paramsWf.keep (updAct_keeps _ _ _) (by rfl) (clearExcl_par _ _ h)))

theorem execCellRetireTimeout_par (cell : Fin 3072) (s : State) (h : paramsWf s) :
    OutInv paramsWf (execCellRetireTimeout cell s) := by
  unfold execCellRetireTimeout
  refine OutInv.clocked ?_ ?_
  · exact h
  · refine OutInv.ends reelObserve_par ?_
    split
    · extract_lets y90
      refine Inv.cut (Q := paramsWf) (s := y90) ?_ fun h120 => ?_
      · unfold y90
        exact paramsWf.keep (advanceTo_keeps _ _) (by rfl) h
      clear_value y90
      refine Inv.ite (Q := paramsWf) ?_ ?_
      · exact completeErr_par _ _ _ h120
      · exact h
    · exact h

theorem execCleatRelease_par (c : Cmd) (s : State) (h : paramsWf s) :
    OutInv paramsWf (execCleatRelease c s) := by
  unfold execCleatRelease
  refine OutInv.ends reelObserve_par ?_
  refine Inv.runCmd (Q := paramsWf) goodPacket_par answer_par ?_ fun x0 _ h1 => ?_
  · exact h
  · exact cleatReleaseBody_par _ _ h1

theorem execCleatRetryWindowEnd_par (entry : Fin 32) (s : State) (h : paramsWf s) :
    OutInv paramsWf (execCleatRetryWindowEnd entry s) := by
  unfold execCleatRetryWindowEnd
  extract_lets y0
  clear_value y0
  refine OutInv.clocked ?_ ?_
  · exact h
  · refine OutInv.ends reelObserve_par ?_
    split
    · refine Inv.ite (Q := paramsWf) ?_ ?_
      · exact paramsWf.keep (releaseEntry_keeps _ _ _) (by rfl) (paramsWf.keep (advanceTo_keeps _ _) (by rfl) h)
      · exact h
    · exact h

theorem execMaintEnd_par (c : Cmd) (s : State) (h : paramsWf s) :
    OutInv paramsWf (execMaintEnd c s) := by
  unfold execMaintEnd
  refine OutInv.ends reelObserve_par ?_
  refine Inv.runCmd (Q := paramsWf) goodPacket_par answer_par ?_ fun x0 _ h1 => ?_
  · exact h
  · exact maintEndBody_par _ _ h1

theorem execPermBypassRetry_par (cell : Fin 3072) (s : State) (h : paramsWf s) :
    OutInv paramsWf (execPermBypassRetry cell s) := by
  unfold execPermBypassRetry
  refine OutInv.clocked ?_ ?_
  · exact h
  · refine OutInv.ends reelObserve_par ?_
    split
    · exact sendPair_par _ _ (paramsWf.keep (advanceTo_keeps _ _) (by rfl) h)
    · exact h

theorem execPermConfirmTimeout_par (cell : Fin 3072) (s : State) (h : paramsWf s) :
    OutInv paramsWf (execPermConfirmTimeout cell s) := by
  unfold execPermConfirmTimeout
  refine OutInv.clocked ?_ ?_
  · exact h
  · refine OutInv.ends reelObserve_par ?_
    split
    · exact permFailed_par _ _ (paramsWf.keep (advanceTo_keeps _ _) (by rfl) h)
    · exact h

theorem cleatAddBody_par (c : Cmd) (s : State) (h : paramsWf s) :
    ResInv paramsWf (cleatAddBody c s) := by
  unfold cleatAddBody
  extract_lets y0 y1 y2 y3
  clear_value y0 y1 y2 y3
  exact ResInv.check (ResInv.ok (cleatWatch_par _ (paramsWf.keep (updCleat_keeps _ _ _) (by rfl) h)))

theorem execCleatAdd_par (c : Cmd) (s : State) (h : paramsWf s) :
    OutInv paramsWf (execCleatAdd c s) := by
  unfold execCleatAdd
  refine OutInv.ends reelObserve_par ?_
  refine Inv.runCmd (Q := paramsWf) goodPacket_par answer_par ?_ fun x0 _ h1 => ?_
  · exact h
  · exact cleatAddBody_par _ _ h1

theorem maintAdmitBody_par (c : Cmd) (s : State) (h : paramsWf s) :
    ResInv paramsWf (maintAdmitBody c s) := by
  unfold maintAdmitBody
  exact ResInv.check (ResInv.done (ledgerWatch_par _ (paramsWf.keep (updAct_keeps _ _ _) (by rfl) h)))

theorem cellRetireBody_par (c : Cmd) (s : State) (h : paramsWf s) :
    ResInv paramsWf (cellRetireBody c s) := by
  unfold cellRetireBody
  extract_lets y0 y1
  clear_value y0 y1
  refine ResInv.check ?_
  refine ResInv.accepted ?_ fun x30 h31 => ?_
  · exact paramsWf.keep (startOp_keeps _ _ _ _ _) (by rfl) h
  · exact serveRetire_par _ _ h31

theorem execActivityFree_par (slot : Fin 16) (s : State) (h : paramsWf s) :
    OutInv paramsWf (execActivityFree slot s) := by
  unfold execActivityFree
  refine OutInv.clocked ?_ ?_
  · exact h
  · refine OutInv.ends reelObserve_par ?_
    split
    · refine Inv.ite (Q := paramsWf) ?_ ?_
      · exact freeActivity_par _ _ (paramsWf.keep (advanceTo_keeps _ _) (by rfl) h)
      · exact h
    · exact h

theorem execCellRetire_par (c : Cmd) (s : State) (h : paramsWf s) :
    OutInv paramsWf (execCellRetire c s) := by
  unfold execCellRetire
  refine OutInv.ends reelObserve_par ?_
  refine Inv.runCmd (Q := paramsWf) goodPacket_par answer_par ?_ fun x0 _ h1 => ?_
  · exact h
  · exact cellRetireBody_par _ _ h1

theorem execMaintAdmit_par (c : Cmd) (s : State) (h : paramsWf s) :
    OutInv paramsWf (execMaintAdmit c s) := by
  unfold execMaintAdmit
  refine OutInv.ends reelObserve_par ?_
  refine Inv.runCmd (Q := paramsWf) goodPacket_par answer_par ?_ fun x0 _ h1 => ?_
  · exact h
  · exact maintAdmitBody_par _ _ h1

theorem execCleatEntryFree_par (entry : Fin 32) (s : State) (h : paramsWf s) :
    OutInv paramsWf (execCleatEntryFree entry s) := by
  unfold execCleatEntryFree
  refine OutInv.clocked ?_ ?_
  · exact h
  · refine OutInv.ends reelObserve_par ?_
    refine Inv.ite (Q := paramsWf) ?_ ?_
    · refine Inv.atMark (Q := paramsWf) advanceTo_par ?_ fun x0 h1 => ?_
      · exact h
      · exact freeCleat_par _ _ h1
    · exact h

/-! ### Machine/Params.lean -/

theorem commitArm_par (c : Cmd) (s : State) (h : paramsWf s) :
    ResInv paramsWf (commitArm c s) := by
  exact paramsWf.res (commitArm_keeps _ _) (by rfl) h

theorem commitDrop_par (c : Cmd) (s : State) (h : paramsWf s) :
    ResInv paramsWf (commitDrop c s) := by
  exact paramsWf.res (commitDrop_keeps _ _) (by rfl) h

theorem commitGroupBody_par (c : Cmd) (s : State) (h : paramsWf s) :
    ResInv paramsWf (commitGroupBody c s) := by
  exact paramsWf.res (commitGroupBody_keeps _ _) (by rfl) h

theorem getBlockBody_par (c : Cmd) (s : State) (h : paramsWf s) :
    ResInv paramsWf (getBlockBody c s) := by
  exact paramsWf.res (getBlockBody_keeps _ _) (by rfl) h

theorem getParamBody_par (c : Cmd) (s : State) (h : paramsWf s) :
    ResInv paramsWf (getParamBody c s) := by
  exact paramsWf.res (getParamBody_keeps _ _) (by rfl) h

theorem writeAct_par (s : State) (id : Nat) (t : Nat) (w : Word) (h : paramsWf s) :
    paramsWf (writeAct s id t w) := by
  unfold writeAct
  refine Inv.ite (Q := paramsWf) ?_ ?_
  · exact trajPresetSet_par _ _ _ h
  · refine Inv.ite (Q := paramsWf) ?_ ?_
    · exact encPresetSet_par _ _ _ h
    · refine Inv.ite (Q := paramsWf) ?_ ?_
      · exact ptStart_par _ _ h
      · refine Inv.ite (Q := paramsWf) ?_ ?_
        · refine Inv.ite (Q := paramsWf) ?_ ?_
          · exact paramsWf.keep (updMt_keeps _ _) (by rfl) h
          · exact paramsWf.keep (mtAbort_keeps _) (by rfl) h
        · refine Inv.ite (Q := paramsWf) ?_ ?_
          · exact paramsWf.keep (expectAct_keeps _ _) (by rfl) h
          · refine Inv.ite (Q := paramsWf) ?_ ?_
            · exact paramsWf.keep (oldClear_keeps _) (by rfl) h
            · refine Inv.ite (Q := paramsWf) ?_ ?_
              · refine Inv.foldl (Q := paramsWf) ?_ fun x0 a1 h2 => ?_
                · exact h
                · refine Inv.ite (Q := paramsWf) ?_ ?_
                  · exact paramsWf.keep (tbusDrive_keeps _ _) (by rfl) h2
                  · exact h2
              · exact h

theorem execCommitGroup_par (c : Cmd) (s : State) (h : paramsWf s) :
    OutInv paramsWf (execCommitGroup c s) := by
  unfold execCommitGroup
  refine OutInv.ends reelObserve_par ?_
  refine Inv.runCmd (Q := paramsWf) goodPacket_par answer_par ?_ fun x0 _ h1 => ?_
  · exact h
  · exact commitGroupBody_par _ _ h1

theorem execCommitGroupDiscard_par (c : Cmd) (s : State) (h : paramsWf s) :
    OutInv paramsWf (execCommitGroupDiscard c s) := by
  unfold execCommitGroupDiscard
  extract_lets y0
  clear_value y0
  refine OutInv.ends reelObserve_par ?_
  refine Inv.runCmd (Q := paramsWf) goodPacket_par answer_par ?_ fun x30 _ h31 => ?_
  · exact h
  · exact commitGroupBody_par _ _ h31

theorem execGetBlock_par (c : Cmd) (s : State) (h : paramsWf s) :
    OutInv paramsWf (execGetBlock c s) := by
  unfold execGetBlock
  refine OutInv.ends reelObserve_par ?_
  refine Inv.runCmd (Q := paramsWf) goodPacket_par answer_par ?_ fun x0 _ h1 => ?_
  · exact h
  · exact getBlockBody_par _ _ h1

theorem execGetParam_par (c : Cmd) (s : State) (h : paramsWf s) :
    OutInv paramsWf (execGetParam c s) := by
  unfold execGetParam
  refine OutInv.ends reelObserve_par ?_
  refine Inv.runCmd (Q := paramsWf) goodPacket_par answer_par ?_ fun x0 _ h1 => ?_
  · exact h
  · exact getParamBody_par _ _ h1

theorem afterSet_par (s : State) (id : Nat) (t : Nat) (old : Word) (h : paramsWf s) :
    paramsWf (afterSet s id t old) := by
  unfold afterSet
  refine Inv.ite (Q := paramsWf) ?_ ?_
  · exact paramsWf.keep (chopForceSet_keeps _ _) (by rfl) h
  · refine Inv.ite (Q := paramsWf) ?_ ?_
    · exact paramsWf.keep (chopModeSet_keeps _ _) (by rfl) h
    · refine Inv.ite (Q := paramsWf) ?_ ?_
      · exact paramsWf.keep (updLine_keeps _ _ _) (by rfl) h
      · refine Inv.ite (Q := paramsWf) ?_ ?_
        · exact adcKick_par _ _ h
        · refine Inv.ite (Q := paramsWf) ?_ ?_
          · exact adcKick_par _ _ h
          · refine Inv.ite (Q := paramsWf) ?_ ?_
            · exact encModeSet_par _ _ _ h
            · refine Inv.ite (Q := paramsWf) ?_ ?_
              · exact limReleases_par _ _ h
              · refine Inv.ite (Q := paramsWf) ?_ ?_
                · exact illegalWatch_par _ _ h
                · refine Inv.ite (Q := paramsWf) ?_ ?_
                  · refine Inv.ite (Q := paramsWf) ?_ ?_
                    · exact paramsWf.keep (updEnc_keeps _ _ _) (by rfl) h
                    · exact h
                  · refine Inv.ite (Q := paramsWf) ?_ ?_
                    · exact paramsWf.keep (decCfgSet_keeps _ _) (by rfl) h
                    · refine Inv.ite (Q := paramsWf) ?_ ?_
                      · exact cleatWatch_par _ h
                      · refine Inv.ite (Q := paramsWf) ?_ ?_
                        · exact cleatWatch_par _ h
                        · refine Inv.ite (Q := paramsWf) ?_ ?_
                          · exact ledgerWatch_par _ h
                          · refine Inv.ite (Q := paramsWf) ?_ ?_
                            · refine Inv.foldl (Q := paramsWf) ?_ fun x0 a1 h2 => ?_
                              · exact h
                              · refine Inv.ite (Q := paramsWf) ?_ ?_
                                · exact paramsWf.keep (queueOwn_keeps _ _) (by rfl) h2
                                · exact h2
                            · refine Inv.ite (Q := paramsWf) ?_ ?_
                              · exact traceCtrl_par _ _ _ h
                              · refine Inv.ite (Q := paramsWf) ?_ ?_
                                · exact paramsWf.keep (tallyWatch_keeps _) (by rfl) h
                                · refine Inv.ite (Q := paramsWf) ?_ ?_
                                  · refine Inv.ite (Q := paramsWf) ?_ ?_
                                    · exact paramsWf.keep (dupEnter_keeps _) (by rfl) h
                                    · exact h
                                  · refine Inv.ite (Q := paramsWf) ?_ ?_
                                    · exact laneEnSet_par _ h
                                    · exact h

theorem setWord_par (s : State) (id : Nat) (t : Nat) (w : Word) (h : paramsWf s) :
    paramsWf (setWord s id t w) := by
  unfold setWord
  split
  · exact h
  · split
    · exact clearSet_par _ _ _ _ h
    · exact writeAct_par _ _ _ _ h
    · refine Inv.ite (Q := paramsWf) ?_ ?_
      · exact paramsWf.keep (stageW_keeps _ _ _ _) (by rfl) h
      · exact tallyTouch_par _ _ (afterSet_par _ _ _ _ (putP_par _ _ _ _ h))
    · exact h

theorem setParamBody_par (c : Cmd) (s : State) (h : paramsWf s) :
    ResInv paramsWf (setParamBody c s) := by
  unfold setParamBody
  extract_lets y0 y1
  clear_value y0 y1
  exact ResInv.check (ResInv.done (setWord_par _ _ _ _ h))

theorem setRun_par (t : Nat) (a : List (Nat × Word)) (a' : State) (h : paramsWf a') :
    SumInv paramsWf (setRun t a a') := by
  induction a generalizing a' with
  | nil => exact h
  | cons x l ih =>
    unfold setRun
    split
    · trivial
    · exact ih _ (setWord_par _ _ _ _ h)

theorem setBlockBody_par (c : Cmd) (s : State) (h : paramsWf s) :
    ResInv paramsWf (setBlockBody c s) := by
  unfold setBlockBody
  extract_lets num data
  refine ResInv.ite ?_ ?_
  · exact ResInv.ite trivial (ResInv.ite trivial ((paramsWf.keep (tableWrite_keeps _ _ _ _) (by rfl) h)))
  · have k := setRun_par (tgt c) ((runIds c).zip data) s h
    revert k
    cases setRun (tgt c) ((runIds c).zip data) s with
    | inl e => exact fun _ => trivial
    | inr t => exact fun k => k

theorem setParam_par (c : Cmd) (s : State) (h : paramsWf s) :
    paramsWf (setParam c s) := by
  unfold setParam
  refine Inv.runCmd (Q := paramsWf) goodPacket_par answer_par ?_ fun x0 _ h1 => ?_
  · exact h
  · exact setParamBody_par _ _ h1

theorem execAdcPtStart_par (c : Cmd) (s : State) (h : paramsWf s) :
    OutInv paramsWf (execAdcPtStart c s) := by
  unfold execAdcPtStart
  exact OutInv.ends reelObserve_par (setParam_par _ _ h)

theorem execChopForce_par (c : Cmd) (s : State) (h : paramsWf s) :
    OutInv paramsWf (execChopForce c s) := by
  unfold execChopForce
  exact OutInv.ends reelObserve_par (setParam_par _ _ h)

theorem execChopMode_par (c : Cmd) (s : State) (h : paramsWf s) :
    OutInv paramsWf (execChopMode c s) := by
  unfold execChopMode
  exact OutInv.ends reelObserve_par (setParam_par _ _ h)

theorem execCltExclude_par (c : Cmd) (s : State) (h : paramsWf s) :
    OutInv paramsWf (execCltExclude c s) := by
  unfold execCltExclude
  exact OutInv.ends reelObserve_par (setParam_par _ _ h)

theorem execDecCfg_par (c : Cmd) (s : State) (h : paramsWf s) :
    OutInv paramsWf (execDecCfg c s) := by
  unfold execDecCfg
  exact OutInv.ends reelObserve_par (setParam_par _ _ h)

theorem execDiscMtAbort_par (c : Cmd) (s : State) (h : paramsWf s) :
    OutInv paramsWf (execDiscMtAbort c s) := by
  unfold execDiscMtAbort
  exact OutInv.ends reelObserve_par (setParam_par _ _ h)

theorem execDiscMtStart_par (c : Cmd) (s : State) (h : paramsWf s) :
    OutInv paramsWf (execDiscMtStart c s) := by
  unfold execDiscMtStart
  exact OutInv.ends reelObserve_par (setParam_par _ _ h)

theorem execEncLatchCfg_par (c : Cmd) (s : State) (h : paramsWf s) :
    OutInv paramsWf (execEncLatchCfg c s) := by
  unfold execEncLatchCfg
  exact OutInv.ends reelObserve_par (setParam_par _ _ h)

theorem execEncPreset_par (c : Cmd) (s : State) (h : paramsWf s) :
    OutInv paramsWf (execEncPreset c s) := by
  unfold execEncPreset
  exact OutInv.ends reelObserve_par (setParam_par _ _ h)

theorem execFltErrHold_par (c : Cmd) (s : State) (h : paramsWf s) :
    OutInv paramsWf (execFltErrHold c s) := by
  unfold execFltErrHold
  exact OutInv.ends reelObserve_par (setParam_par _ _ h)

theorem execFrmHubHoldMax_par (c : Cmd) (s : State) (h : paramsWf s) :
    OutInv paramsWf (execFrmHubHoldMax c s) := by
  unfold execFrmHubHoldMax
  exact OutInv.ends reelObserve_par (setParam_par _ _ h)

theorem execPwrLaneEn_par (c : Cmd) (s : State) (h : paramsWf s) :
    OutInv paramsWf (execPwrLaneEn c s) := by
  unfold execPwrLaneEn
  exact OutInv.ends reelObserve_par (setParam_par _ _ h)

theorem execSetBlock_par (c : Cmd) (s : State) (h : paramsWf s) :
    OutInv paramsWf (execSetBlock c s) := by
  unfold execSetBlock
  refine OutInv.ends reelObserve_par ?_
  refine Inv.runCmd (Q := paramsWf) goodPacket_par answer_par ?_ fun x0 _ h1 => ?_
  · exact h
  · exact setBlockBody_par _ _ h1

theorem execSetParam_par (c : Cmd) (s : State) (h : paramsWf s) :
    OutInv paramsWf (execSetParam c s) := by
  unfold execSetParam
  exact OutInv.ends reelObserve_par (setParam_par _ _ h)

theorem execStrTraceCtrl_par (c : Cmd) (s : State) (h : paramsWf s) :
    OutInv paramsWf (execStrTraceCtrl c s) := by
  unfold execStrTraceCtrl
  exact OutInv.ends reelObserve_par (setParam_par _ _ h)

theorem execTallyExpectAct_par (c : Cmd) (s : State) (h : paramsWf s) :
    OutInv paramsWf (execTallyExpectAct c s) := by
  unfold execTallyExpectAct
  exact OutInv.ends reelObserve_par (setParam_par _ _ h)

theorem execTallyOldClear_par (c : Cmd) (s : State) (h : paramsWf s) :
    OutInv paramsWf (execTallyOldClear c s) := by
  unfold execTallyOldClear
  exact OutInv.ends reelObserve_par (setParam_par _ _ h)

theorem execTbusForce_par (c : Cmd) (s : State) (h : paramsWf s) :
    OutInv paramsWf (execTbusForce c s) := by
  unfold execTbusForce
  exact OutInv.ends reelObserve_par (setParam_par _ _ h)

theorem execTrajPreset_par (c : Cmd) (s : State) (h : paramsWf s) :
    OutInv paramsWf (execTrajPreset c s) := by
  unfold execTrajPreset
  exact OutInv.ends reelObserve_par (setParam_par _ _ h)

/-! ### Machine/Power.lean -/

theorem wake_par (s : State) (h : paramsWf s) :
    paramsWf (wake s) := by
  unfold wake
  dsimp only
  exact paramsWf.eq rfl (putN_par _ _ _ _ (paramsWf.nil rfl))

theorem execDormantEntry_par (s : State) (h : paramsWf s) :
    OutInv paramsWf (execDormantEntry s) := by
  unfold execDormantEntry
  refine OutInv.ends reelObserve_par ?_
  split
  · dsimp only
    refine Inv.ite (Q := paramsWf) (wake_par _ ?_) ?_ <;> exact paramsWf.filter (s := s) (by rw [← (advanceTo_keeps s
        _).params]) h
  · exact h

theorem execPorstAssert_par (supervisor : Bool) (s : State) (h : paramsWf s) :
    OutInv paramsWf (execPorstAssert supervisor s) := by
  unfold execPorstAssert
  exact OutInv.ends reelObserve_par (putN_par _ _ _ _ (paramsWf.nil rfl))

theorem execPorstRelease_par (testmode : Bool) (s : State) (h : paramsWf s) :
    OutInv paramsWf (execPorstRelease testmode s) := by
  unfold execPorstRelease
  extract_lets y0 y1
  clear_value y0
  refine Inv.cut (Q := paramsWf) (s := y1) ?_ fun h30 => ?_
  · unfold y1
    exact putN_par _ _ _ _ h
  clear_value y1
  refine OutInv.ends reelObserve_par ?_
  refine Inv.ite (Q := paramsWf) ?_ ?_
  · exact paramsWf.keep (updPwr_keeps _ _) (by rfl) h30
  · exact h

theorem execWakeNLow_par (testmode : Bool) (s : State) (h : paramsWf s) :
    OutInv paramsWf (execWakeNLow testmode s) := by
  unfold execWakeNLow
  refine OutInv.ends reelObserve_par ?_
  split
  · exact wake_par _ (paramsWf.keep (updPwr_keeps _ _) (by rfl) h)
  · exact paramsWf.keep (updPwr_keeps _ _) (by rfl) h
  · exact h

theorem execXtalFail_par (s : State) (h : paramsWf s) :
    OutInv paramsWf (execXtalFail s) := by
  unfold execXtalFail
  refine OutInv.ends reelObserve_par ?_
  refine Inv.ite (Q := paramsWf) ?_ ?_
  · exact orP_par _ _ _ _ (paramsWf.keep (updPwr_keeps _ _) (by rfl) h)
  · exact h

theorem execXtalSwitch_par (s : State) (h : paramsWf s) :
    OutInv paramsWf (execXtalSwitch s) := by
  unfold execXtalSwitch
  refine OutInv.ends reelObserve_par ?_
  refine Inv.ite (Q := paramsWf) ?_ ?_
  · exact h
  · exact paramsWf.keep (updPwr_keeps _ _) (by rfl) h

theorem execCorePllLoss_par (s : State) (h : paramsWf s) :
    OutInv paramsWf (execCorePllLoss s) := by
  unfold execCorePllLoss
  extract_lets y0 y1
  refine Inv.cut (Q := paramsWf) (s := y0) ?_ fun h30 => ?_
  · unfold y0
    exact orP_par _ _ _ _ (paramsWf.keep (updPwr_keeps _ _) (by rfl) h)
  clear_value y0
  refine Inv.cut (Q := paramsWf) (s := y1) ?_ fun h31 => ?_
  · unfold y1
    exact internalFail_par _ _ (paramsWf.keep (updBelay_keeps _ _) (by rfl) h30)
  clear_value y1
  refine OutInv.ends reelObserve_par ?_
  refine Inv.ite (Q := paramsWf) ?_ ?_
  · exact h
  · split
    · exact paramsWf.keep (updPwr_keeps _ _) (by rfl) h31
    · exact paramsWf.keep (updPwr_keeps _ _) (by rfl) h31

theorem endPllOps_par (s : State) (h : paramsWf s) :
    paramsWf (endPllOps s) := by
  unfold endPllOps
  refine Inv.foldl (Q := paramsWf) ?_ fun x0 a1 h2 => ?_
  · exact h
  · exact endRunOp_par _ _ h2

theorem lanePllLost_par (s : State) (l : Nat) (h : paramsWf s) :
    paramsWf (lanePllLost s l) := by
  unfold lanePllLost
  split
  · split
    · exact lockLost_par _ _ _ (paramsWf.eq (s := s) rfl h)
    · exact lockLost_par _ _ _ h
  · exact bringupFail_par _ _ _ _ h
  · exact bringupFail_par _ _ _ _ h
  · exact h

theorem execLanePllLoss_par (quad : Fin 4) (s : State) (h : paramsWf s) :
    OutInv paramsWf (execLanePllLoss quad s) := by
  unfold execLanePllLoss
  extract_lets y0
  refine Inv.cut (Q := paramsWf) (s := y0) ?_ fun h30 => ?_
  · unfold y0
    exact paramsWf.keep (updPwr_keeps _ _) (by rfl) h
  clear_value y0
  refine OutInv.clocked ?_ ?_
  · exact h
  · refine OutInv.ends reelObserve_par ?_
    refine Inv.ite (Q := paramsWf) ?_ ?_
    · refine Inv.foldl (Q := paramsWf) ?_ fun x31 a32 h33 => ?_
      · exact orP_par _ _ _ _ h30
      · exact lanePllLost_par _ _ h33
    · exact h

theorem execDispatchTestDone_par (pass : Bool) (strandsBad : BitVec 4) (s : State) (h : paramsWf s) :
    OutInv paramsWf (execDispatchTestDone pass strandsBad s) := by
  unfold execDispatchTestDone
  refine OutInv.clocked ?_ ?_
  · exact h
  · refine OutInv.ends reelObserve_par ?_
    split
    · extract_lets y90 y91
      refine Inv.cut (Q := paramsWf) (s := y90) ?_ fun h120 => ?_
      · unfold y90
        exact paramsWf.keep (advanceTo_keeps _ _) (by rfl) h
      clear_value y90
      refine Inv.cut (Q := paramsWf) (s := y91) ?_ fun h121 => ?_
      · unfold y91
        exact orP_par _ _ _ _ h120
      clear_value y91
      refine Inv.ite (Q := paramsWf) ?_ ?_
      · exact enterRun_par _ h121
      · refine powerFail_par _ ?_
        exact paramsWf.keep (updPwr_keeps _ _) (by rfl) (paramsWf.keep (domains_keeps _ _ _) (by rfl) h121)
    · exact h

theorem execRunToReady_par (s : State) (h : paramsWf s) :
    OutInv paramsWf (execRunToReady s) := by
  unfold execRunToReady
  refine OutInv.clocked ?_ ?_
  · exact h
  · refine OutInv.ends reelObserve_par ?_
    split
    · exact nextMark_par _ _ _ h
    · exact h

theorem runReady_par (s : State) (h : paramsWf s) :
    paramsWf (runReady s) := by
  unfold runReady
  refine Inv.ite (Q := paramsWf) ?_ ?_
  · refine Inv.ite (Q := paramsWf) ?_ ?_
    · exact enterRun_par _ h
    · exact paramsWf.keep (updPwr_keeps _ _) (by rfl) h
  · exact h

theorem execLanePllLock_par (quad : Fin 4) (s : State) (h : paramsWf s) :
    OutInv paramsWf (execLanePllLock quad s) := by
  unfold execLanePllLock
  refine OutInv.ends reelObserve_par ?_
  refine Inv.ite (Q := paramsWf) ?_ ?_
  · exact runReady_par _ (paramsWf.keep (updPwr_keeps _ _) (by rfl) h)
  · exact h

theorem powerGo_par (s : State) (h : paramsWf s) :
    paramsWf (powerGo s) := by
  unfold powerGo
  exact runReady_par _ (powerNext_par _ h)

theorem powerStateBody_par (c : Cmd) (s : State) (h : paramsWf s) :
    ResInv paramsWf (powerStateBody c s) := by
  unfold powerStateBody
  extract_lets y0
  clear_value y0
  refine ResInv.check ?_
  refine ResInv.accepted ?_ fun x90 h91 => ?_
  · exact paramsWf.keep (startOp_keeps _ _ _ _ _) (by rfl) h
  · extract_lets y92
    refine Inv.cut (Q := paramsWf) (s := y92) ?_ fun h122 => ?_
    · unfold y92
      exact paramsWf.keep (updPwr_keeps _ _) (by rfl) h91
    clear_value y92
    refine Inv.ite (Q := paramsWf) ?_ ?_
    · exact h122
    · exact powerGo_par _ (paramsWf.keep (updPwr_keeps _ _) (by rfl) h122)

theorem relock_par (s : State) (h : paramsWf s) :
    paramsWf (relock s) := by
  unfold relock
  extract_lets y0 y1 y2
  refine Inv.cut (Q := paramsWf) (s := y0) ?_ fun h30 => ?_
  · unfold y0
    exact paramsWf.keep (updPwr_keeps _ _) (by rfl) h
  clear_value y0
  refine Inv.cut (Q := paramsWf) (s := y1) ?_ fun h31 => ?_
  · unfold y1
    exact endPllOps_par _ h30
  clear_value y1
  refine Inv.cut (Q := paramsWf) (s := y2) ?_ fun h32 => ?_
  · unfold y2
    refine Inv.ite (Q := paramsWf) ?_ ?_
    · exact leaveRun_par _ h31
    · exact paramsWf.keep (updPwr_keeps _ _) (by rfl) (paramsWf.keep (domains_keeps _ _ _) (by rfl) h31)
  clear_value y2
  split
  · exact paramsWf.keep (updPwr_keeps _ _) (by rfl) h32
  · refine Inv.ite (Q := paramsWf) ?_ ?_
    · exact completeErr_par _ _ _ (paramsWf.keep (updPwr_keeps _ _) (by rfl) h32)
    · exact powerGo_par _ h32

theorem execBistDone_par (sram : Bool) (rom : Bool) (belayClock : Bool) (tripBack : Bool) (strandsBad : BitVec 4) (s
      : State) (h : paramsWf s) :
    OutInv paramsWf (execBistDone sram rom belayClock tripBack strandsBad s) := by
  unfold execBistDone
  refine OutInv.ends reelObserve_par ?_
  split
  · extract_lets y60 y61 y62 y63 y64
    refine Inv.cut (Q := paramsWf) (s := y60) ?_ fun h90 => ?_
    · unfold y60
      exact paramsWf.keep (advanceTo_keeps _ _) (by rfl) h
    clear_value y60
    refine Inv.cut (Q := paramsWf) (s := y61) ?_ fun h91 => ?_
    · unfold y61
      exact putN_par _ _ _ _ h90
    clear_value y61
    refine Inv.cut (Q := paramsWf) (s := y62) ?_ fun h92 => ?_
    · unfold y62
      refine Inv.foldl (Q := paramsWf) ?_ fun x93 a94 h95 => ?_
      · exact h91
      · exact paramsWf.keep (updStrand_keeps _ _ _) (by rfl) h95
    clear_value y62
    refine Inv.cut (Q := paramsWf) (s := y63) ?_ fun h96 => ?_
    · unfold y63
      exact paramsWf.keep (updPwr_keeps _ _) (by rfl) h92
    clear_value y63
    exact powerGo_par _ (paramsWf.eq (s := y63) rfl h96)
  · exact h

theorem execCorePllLock_par (s : State) (h : paramsWf s) :
    OutInv paramsWf (execCorePllLock s) := by
  unfold execCorePllLock
  refine OutInv.ends reelObserve_par ?_
  split
  · exact paramsWf.keep (updPwr_keeps _ _) (by rfl) h
  · exact relock_par _ h
  · exact h

theorem execListenEntry_par (wakeLow : Bool) (s : State) (h : paramsWf s) :
    OutInv paramsWf (execListenEntry wakeLow s) := by
  unfold execListenEntry
  refine OutInv.ends reelObserve_par ?_
  split
  · extract_lets y60 y61
    refine Inv.cut (Q := paramsWf) (s := y60) ?_ fun h90 => ?_
    · unfold y60
      exact paramsWf.keep (advanceTo_keeps _ _) (by rfl) h
    clear_value y60
    refine Inv.cut (Q := paramsWf) (s := y61) ?_ fun h91 => ?_
    · unfold y61
      exact paramsWf.keep (updPwr_keeps _ _) (by rfl) h90
    clear_value y61
    refine Inv.ite (Q := paramsWf) ?_ ?_
    · exact powerGo_par _ (paramsWf.keep (updPwr_keeps _ _) (by rfl) h91)
    · exact h91
  · exact h

theorem execPowerState_par (c : Cmd) (s : State) (h : paramsWf s) :
    OutInv paramsWf (execPowerState c s) := by
  unfold execPowerState
  refine OutInv.ends reelObserve_par ?_
  refine Inv.runCmd (Q := paramsWf) goodPacket_par answer_par ?_ fun x0 _ h1 => ?_
  · exact h
  · exact powerStateBody_par _ _ h1

/-! ### Machine/Reel.lean -/

theorem reelReadBody_par (c : Cmd) (s : State) (h : paramsWf s) :
    ResInv paramsWf (reelReadBody c s) := by
  exact paramsWf.res (reelReadBody_keeps _ _) (by rfl) h

theorem reelStart_par (s : State) (num : Nat) (h : paramsWf s) :
    paramsWf (reelStart s num) := by
  unfold reelStart
  extract_lets y0 y1 y2 y3
  clear_value y0 y1 y2
  refine Inv.cut (Q := paramsWf) (s := y3) ?_ fun h30 => ?_
  · unfold y3
    exact putN_par _ _ _ _ (paramsWf.eq (s := s) rfl h)
  clear_value y3
  refine Inv.ite (Q := paramsWf) ?_ ?_
  · exact h30
  · exact paramsWf.keep (reelForm_keeps _ _) (by rfl) h30

theorem tbusFallen_par (s : State) (n : Nat) (h : paramsWf s) :
    paramsWf (tbusFallen s n) := by
  unfold tbusFallen
  extract_lets y0 y1 y2 y3
  refine Inv.cut (Q := paramsWf) (s := y0) ?_ fun h30 => ?_
  · unfold y0
    split
    · exact putN_par _ _ _ _ h
    · exact h
  clear_value y0
  refine Inv.cut (Q := paramsWf) (s := y1) ?_ fun h31 => ?_
  · unfold y1
    exact paramsWf.keep (updLine_keeps _ _ _) (by rfl) h30
  clear_value y1
  refine Inv.cut (Q := paramsWf) (s := y2) ?_ fun h32 => ?_
  · unfold y2
    exact put64_par _ _ _ _ _ h31
  clear_value y2
  refine Inv.cut (Q := paramsWf) (s := y3) ?_ fun h33 => ?_
  · unfold y3
    exact paramsWf.keep (reelRef_keeps _ _ _) (by rfl) (paramsWf.keep (trigEvent_keeps _ _ _) (by rfl) h32)
  clear_value y3
  refine Inv.foldl (Q := paramsWf) ?_ fun x34 a35 h36 => ?_
  · exact h33
  · refine Inv.ite (Q := paramsWf) ?_ ?_
    · exact encLatch_par _ _ _ _ h36
    · exact h36

theorem reelArmBody_par (c : Cmd) (s : State) (h : paramsWf s) :
    ResInv paramsWf (reelArmBody c s) := by
  unfold reelArmBody
  exact ResInv.check (ResInv.done (reelStart_par _ _ h))

theorem tbusTrigger_par (n : Nat) (s : State) (h : paramsWf s) :
    paramsWf (tbusTrigger n s) := by
  unfold tbusTrigger
  split
  · refine Inv.ite (Q := paramsWf) ?_ ?_
    · exact reelTrigger_par _ _ _ h
    · exact h
  · exact h

theorem reelStopBody_par (a : Cmd) (s : State) (h : paramsWf s) :
    ResInv paramsWf (reelStopBody a s) := by
  unfold reelStopBody
  refine ResInv.ite ?_ ?_
  · exact ResInv.done (reelStop_par _ _ (reelSync_par _ h))
  · exact ResInv.ok h

theorem execReelArm_par (c : Cmd) (s : State) (h : paramsWf s) :
    OutInv paramsWf (execReelArm c s) := by
  unfold execReelArm
  refine OutInv.ends reelObserve_par ?_
  refine Inv.runCmd (Q := paramsWf) goodPacket_par answer_par ?_ fun x0 _ h1 => ?_
  · exact h
  · exact reelArmBody_par _ _ h1

theorem execReelPostEnd_par (s : State) (h : paramsWf s) :
    OutInv paramsWf (execReelPostEnd s) := by
  unfold execReelPostEnd
  refine OutInv.clocked ?_ ?_
  · exact h
  · refine OutInv.ends reelObserve_par ?_
    split
    · refine Inv.ite (Q := paramsWf) ?_ ?_
      · exact h
      · refine Inv.ite (Q := paramsWf) ?_ ?_
        · exact reelStop_par _ _ (reelSync_par _ (paramsWf.keep (advanceTo_keeps _ _) (by rfl) h))
        · refine Inv.ite (Q := paramsWf) ?_ ?_
          · exact reelStop_par _ _ h
          · exact h
    · exact h

theorem execReelRead_par (c : Cmd) (s : State) (h : paramsWf s) :
    OutInv paramsWf (execReelRead c s) := by
  unfold execReelRead
  refine OutInv.ends reelObserve_par ?_
  refine Inv.runCmd (Q := paramsWf) goodPacket_par answer_par ?_ fun x0 _ h1 => ?_
  · exact h
  · exact reelReadBody_par _ _ h1

theorem execReelStop_par (c : Cmd) (s : State) (h : paramsWf s) :
    OutInv paramsWf (execReelStop c s) := by
  unfold execReelStop
  refine OutInv.ends reelObserve_par ?_
  refine Inv.runCmd (Q := paramsWf) goodPacket_par answer_par ?_ fun x0 _ h1 => ?_
  · exact h
  · exact reelStopBody_par _ _ h1

theorem execTbusFall_par (line : Fin 4) (s : State) (h : paramsWf s) :
    OutInv paramsWf (execTbusFall line s) := by
  unfold execTbusFall
  extract_lets y0
  refine Inv.cut (Q := paramsWf) (s := y0) ?_ fun h30 => ?_
  · unfold y0
    split
    · exact paramsWf.keep (advanceTo_keeps _ _) (by rfl) h
    · exact h
  clear_value y0
  refine OutInv.clocked ?_ ?_
  · exact h
  · refine OutInv.ends reelObserve_par ?_
    refine Inv.ite (Q := paramsWf) ?_ ?_
    · exact h
    · refine Inv.reelObserveWith (Q := paramsWf) reelSync_par reelBefore_par linesSeen_par linesDone_par ?_ fun x31
        h32 => ?_
      · exact tbusFallen_par _ _ h30
      · exact tbusTrigger_par _ _ h32

theorem execTbusPulseEnd_par (line : Fin 4) (s : State) (h : paramsWf s) :
    OutInv paramsWf (execTbusPulseEnd line s) := by
  unfold execTbusPulseEnd
  refine OutInv.clocked ?_ ?_
  · exact h
  · refine OutInv.ends reelObserve_par ?_
    split
    · exact paramsWf.keep (updLine_keeps _ _ _) (by rfl) (paramsWf.keep (advanceTo_keeps _ _) (by rfl) h)
    · exact h

theorem execTbusRisingEdge_par (line : Fin 4) (s : State) (h : paramsWf s) :
    OutInv paramsWf (execTbusRisingEdge line s) := by
  unfold execTbusRisingEdge
  extract_lets y0
  refine Inv.cut (Q := paramsWf) (s := y0) ?_ fun h30 => ?_
  · unfold y0
    split
    · exact paramsWf.keep (advanceTo_keeps _ _) (by rfl) h
    · exact h
  clear_value y0
  refine OutInv.clocked ?_ ?_
  · exact h
  · refine OutInv.ends reelObserve_par ?_
    refine Inv.ite (Q := paramsWf) ?_ ?_
    · exact paramsWf.keep (updLine_keeps _ _ _) (by rfl) h30
    · exact h

theorem execTickWrap_par (s : State) (h : paramsWf s) :
    OutInv paramsWf (execTickWrap s) := by
  unfold execTickWrap
  extract_lets y0
  clear_value y0
  refine OutInv.clocked ?_ ?_
  · exact h
  · refine OutInv.ends reelObserve_par ?_
    split
    · extract_lets y120
      refine Inv.cut (Q := paramsWf) (s := y120) ?_ fun h150 => ?_
      · unfold y120
        exact reelSync_par _ (paramsWf.keep (advanceTo_keeps _ _) (by rfl) h)
      clear_value y120
      exact paramsWf.keep (reelForm_keeps _ _) (by rfl) (paramsWf.keep (updReel_keeps _ _) (by rfl) h150)
    · exact h

theorem execTriggerUnitTimeout_par (unit : Fin 4) (s : State) (h : paramsWf s) :
    OutInv paramsWf (execTriggerUnitTimeout unit s) := by
  unfold execTriggerUnitTimeout
  extract_lets y0 y1 y2
  clear_value y0 y1 y2
  refine OutInv.clocked ?_ ?_
  · exact h
  · refine OutInv.ends reelObserve_par ?_
    split
    · extract_lets y120
      refine Inv.cut (Q := paramsWf) (s := y120) ?_ fun h150 => ?_
      · unfold y120
        exact reelSync_par _ (paramsWf.keep (advanceTo_keeps _ _) (by rfl) h)
      clear_value y120
      refine Inv.ite (Q := paramsWf) ?_ ?_
      · exact reelTrigger_par _ _ _ h150
      · exact h
    · exact h

/-! ### Machine/Time.lean -/

theorem servoLock_par (s : State) (h : paramsWf s) :
    paramsWf (servoLock s) := by
  unfold servoLock
  refine Inv.ite (Q := paramsWf) ?_ ?_
  · refine paramsWf.keep (causeGone_keeps _ _ _) (by rfl) ?_
    exact timeEvent_par _ _ (paramsWf.keep (updTime_keeps _ _) (by rfl) h)
  · exact h

theorem servoUpdate_par (s : State) (o : Int) (h : paramsWf s) :
    paramsWf (servoUpdate s o) := by
  unfold servoUpdate
  extract_lets y0 y1 y2 y3 y4 y5
  clear_value y0 y1 y2 y3 y4
  refine Inv.cut (Q := paramsWf) (s := y5) ?_ fun h30 => ?_
  · unfold y5
    exact paramsWf.keep (updTime_keeps _ _) (by rfl) h
  clear_value y5
  refine Inv.ite (Q := paramsWf) ?_ ?_
  · exact h30
  · exact timeEvent_par _ _ h30

theorem timeReadBody_par (a : Cmd) (s : State) (h : paramsWf s) :
    ResInv paramsWf (timeReadBody a s) := by
  exact paramsWf.res (timeReadBody_keeps _ _) (by rfl) h

theorem execTimeRead_par (c : Cmd) (s : State) (h : paramsWf s) :
    OutInv paramsWf (execTimeRead c s) := by
  unfold execTimeRead
  refine OutInv.ends reelObserve_par ?_
  refine Inv.runCmd (Q := paramsWf) goodPacket_par answer_par ?_ fun x0 _ h1 => ?_
  · exact h
  · exact timeReadBody_par _ _ h1

theorem servoUnlock_par (s : State) (st : Servo) (h : paramsWf s) :
    paramsWf (servoUnlock s st) := by
  unfold servoUnlock
  extract_lets y0 y1
  clear_value y0
  refine Inv.cut (Q := paramsWf) (s := y1) ?_ fun h30 => ?_
  · unfold y1
    exact paramsWf.keep (updTime_keeps _ _) (by rfl) h
  clear_value y1
  refine Inv.ite (Q := paramsWf) ?_ ?_
  · exact raiseFault_par _ _ _ (timeEvent_par _ _ h30)
  · exact h30

theorem timeSet_par (s : State) (h : paramsWf s) :
    paramsWf (timeSet s) := by
  unfold timeSet
  extract_lets y0
  refine Inv.cut (Q := paramsWf) (s := y0) ?_ fun h30 => ?_
  · unfold y0
    exact servoUnlock_par _ _ (timeEvent_par _ _ h)
  clear_value y0
  exact reelStep_par _ (paramsWf.keep (updTime_keeps _ _) (by rfl) h30)

theorem execTimeHoldoverExpiry_par (s : State) (h : paramsWf s) :
    OutInv paramsWf (execTimeHoldoverExpiry s) := by
  unfold execTimeHoldoverExpiry
  refine OutInv.clocked ?_ ?_
  · exact h
  · split
    · exact OutInv.ends reelObserve_par h
    · extract_lets y60
      refine Inv.cut (Q := paramsWf) (s := y60) ?_ fun h90 => ?_
      · unfold y60
        exact servoUnlock_par _ _ (paramsWf.keep (advanceTo_keeps _ _) (by rfl) h)
      clear_value y60
      exact OutInv.ends reelObserve_par (paramsWf.keep (updTime_keeps _ _) (by rfl) h90)

theorem servoFollow_par (s : State) (o : Int) (h : paramsWf s) :
    paramsWf (servoFollow s o) := by
  unfold servoFollow
  extract_lets y0 y1 y2 y3 y4
  clear_value y0 y1 y4
  refine Inv.cut (Q := paramsWf) (s := y2) ?_ fun h30 => ?_
  · unfold y2
    exact paramsWf.keep (updTime_keeps _ _) (by rfl) h
  clear_value y2
  refine Inv.cut (Q := paramsWf) (s := y3) ?_ fun h31 => ?_
  · unfold y3
    refine Inv.ite (Q := paramsWf) ?_ ?_
    · exact h30
    · exact servoLock_par _ (servoUnlock_par _ _ h30)
  clear_value y3
  exact paramsWf.keep (updTime_keeps _ _) (by rfl) h31

theorem stepBy_par (s : State) (d : Int) (h : paramsWf s) :
    paramsWf (stepBy s d) := by
  unfold stepBy
  extract_lets y0
  exact timeSet_par _ (paramsWf.eq (s := s) rfl h)

theorem stepTo_par (s : State) (d : Nat) (h : paramsWf s) :
    paramsWf (stepTo s d) := by
  unfold stepTo
  exact timeSet_par _ (paramsWf.keep (updTime_keeps _ _) (by rfl) h)

theorem timeOffsetBody_par (c : Cmd) (s : State) (h : paramsWf s) :
    ResInv paramsWf (timeOffsetBody c s) := by
  unfold timeOffsetBody
  extract_lets y0 y1 y2
  clear_value y0 y2
  refine Inv.cut (Q := paramsWf) (s := y1) ?_ fun h30 => ?_
  · unfold y1
    exact paramsWf.keep (updTime_keeps _ _) (by rfl) (put64_par _ _ _ _ _ h)
  clear_value y1
  refine ResInv.ite ?_ ?_
  · exact ResInv.done (stepBy_par _ _ h30)
  · exact ResInv.done (servoFollow_par _ _ (servoUpdate_par _ _ h30))

theorem timeStepBody_par (c : Cmd) (s : State) (h : paramsWf s) :
    ResInv paramsWf (timeStepBody c s) := by
  unfold timeStepBody
  exact ResInv.check (ResInv.done (stepTo_par _ _ h))

theorem execTimeOffset_par (c : Cmd) (s : State) (h : paramsWf s) :
    OutInv paramsWf (execTimeOffset c s) := by
  unfold execTimeOffset
  refine OutInv.ends reelObserve_par ?_
  refine Inv.runCmd (Q := paramsWf) goodPacket_par answer_par ?_ fun x0 _ h1 => ?_
  · exact h
  · exact timeOffsetBody_par _ _ h1

theorem execTimeStep_par (c : Cmd) (s : State) (h : paramsWf s) :
    OutInv paramsWf (execTimeStep c s) := by
  unfold execTimeStep
  refine OutInv.ends reelObserve_par ?_
  refine Inv.runCmd (Q := paramsWf) goodPacket_par answer_par ?_ fun x0 _ h1 => ?_
  · exact h
  · exact timeStepBody_par _ _ h1

/-! ### Machine/Transport.lean -/

theorem dropWrite_par (s : State) (h : paramsWf s) :
    paramsWf (dropWrite s) := by
  unfold dropWrite
  exact incP_par _ _ _ h

theorem headWrite_par (s : State) (v : Word) (h : paramsWf s) :
    paramsWf (headWrite s v) := by
  unfold headWrite
  extract_lets y0 y1 y2
  clear_value y0
  refine Inv.cut (Q := paramsWf) (s := y2) ?_ fun h30 => ?_
  · unfold y2
    exact paramsWf.keep (updHost_keeps _ _) (by rfl) h
  clear_value y2
  refine Inv.ite (Q := paramsWf) ?_ ?_
  · exact flushHeld_par _ _ h30
  · exact dropWrite_par _ h

theorem pingBody_par (c : Cmd) (s : State) (h : paramsWf s) :
    ResInv paramsWf (pingBody c s) := by
  exact paramsWf.res (pingBody_keeps _ _) (by rfl) h

theorem refusePkt_par (s : State) (ws : List Word) (p : Port) (e : CmdErr) (h : paramsWf s) :
    paramsWf (refusePkt s ws p e) := by
  unfold refusePkt
  extract_lets y0
  clear_value y0
  exact sendReply_par _ _ _ _ h

theorem tailWrite_par (s : State) (v : Word) (h : paramsWf s) :
    paramsWf (tailWrite s v) := by
  unfold tailWrite
  refine Inv.ite (Q := paramsWf) ?_ ?_
  · exact paramsWf.keep (updHost_keeps _ _) (by rfl) h
  · exact dropWrite_par _ h

theorem writePacket_par (s : State) (words : List Word) (h : paramsWf s) :
    paramsWf (writePacket s words) := by
  unfold writePacket
  refine Inv.ite (Q := paramsWf) ?_ ?_
  · exact paramsWf.keep (updHost_keeps _ _) (by rfl) h
  · exact incP_par _ _ _ h

theorem bar2Write_par (s : State) (o : Nat) (v : Word) (h : paramsWf s) :
    paramsWf (bar2Write s o v) := by
  unfold bar2Write
  refine Inv.ite (Q := paramsWf) ?_ ?_
  · exact paramsWf.keep (updHost_keeps _ _) (by rfl) h
  · refine Inv.ite (Q := paramsWf) ?_ ?_
    · exact tailWrite_par _ _ h
    · refine Inv.ite (Q := paramsWf) ?_ ?_
      · exact headWrite_par _ _ h
      · refine Inv.ite (Q := paramsWf) ?_ ?_
        · exact clearSet_par _ _ _ _ h
        · refine Inv.ite (Q := paramsWf) ?_ ?_
          · exact putP_par _ _ _ _ h
          · refine Inv.ite (Q := paramsWf) ?_ ?_
            · exact paramsWf.keep (updHost_keeps _ _) (by rfl) h
            · exact dropWrite_par _ h

theorem overLong_par (s : State) (ws : List Word) (p : Port) (h : paramsWf s) :
    paramsWf (overLong s ws p) := by
  unfold overLong
  extract_lets y0
  refine Inv.cut (Q := paramsWf) (s := y0) ?_ fun h30 => ?_
  · unfold y0
    exact paramsWf.keep (updHost_keeps _ _) (by rfl) h
  clear_value y0
  exact refusePkt_par _ _ _ _ h30

theorem spiTransaction_par (s : State) (a : List Nat) (h : paramsWf s) :
    paramsWf (spiTransaction s a) := by
  unfold spiTransaction
  split
  · exact h
  · split
    · refine Inv.ite (Q := paramsWf) ?_ ?_
      · exact writePacket_par _ _ h
      · exact incP_par _ _ _ h
    · exact paramsWf.keep (readReply_keeps _ _) (by rfl) h
    · exact paramsWf.keep (busPut_keeps _ _) (by rfl) h
    · exact h

theorem execBar0Read_par (offset : BitVec 18) (wide : Bool) (s : State) (h : paramsWf s) :
    OutInv paramsWf (execBar0Read offset wide s) := by
  unfold execBar0Read
  extract_lets y0 y1 y2 y3
  clear_value y0
  refine Inv.cut (Q := paramsWf) (s := y1.2) ?_ fun h30 => ?_
  · unfold y1
    exact paramsWf.keep (mirrorRead_keeps _ _) (by rfl) h
  clear_value y1
  refine Inv.cut (Q := paramsWf) (s := y2.2) ?_ fun h31 => ?_
  · unfold y2
    exact paramsWf.keep (mirrorWide_keeps _ _) (by rfl) h
  clear_value y2
  refine Inv.cut (Q := paramsWf) (s := y3.2) ?_ fun h32 => ?_
  · unfold y3
    exact paramsWf.keep (mirrorRead_keeps _ _) (by rfl) h30
  clear_value y3
  refine OutInv.ends reelObserve_par ?_
  refine Inv.ite (Q := paramsWf) ?_ ?_
  · exact h
  · refine Inv.ite (Q := paramsWf) ?_ ?_
    · exact paramsWf.keep (busPut_keeps _ _) (by rfl) h30
    · refine Inv.ite (Q := paramsWf) ?_ ?_
      · exact paramsWf.keep (busPut_keeps _ _) (by rfl) h31
      · exact paramsWf.keep (busPut_keeps _ _) (by rfl) h32

theorem execBar0Write_par (offset : BitVec 18) (value : Word) (s : State) (h : paramsWf s) :
    OutInv paramsWf (execBar0Write offset value s) := by
  unfold execBar0Write
  refine OutInv.ends reelObserve_par ?_
  refine Inv.ite (Q := paramsWf) ?_ ?_
  · exact dropWrite_par _ h
  · exact h

theorem execBar2RoWrite_par (offset : BitVec 14) (value : Word) (s : State) (h : paramsWf s) :
    OutInv paramsWf (execBar2RoWrite offset value s) := by
  unfold execBar2RoWrite
  refine OutInv.ends reelObserve_par ?_
  refine Inv.ite (Q := paramsWf) ?_ ?_
  · exact bar2Write_par _ _ _ h
  · exact h

theorem execCmdTailWrite_par (words : List Word) (value : Word) (s : State) (h : paramsWf s) :
    OutInv paramsWf (execCmdTailWrite words value s) := by
  unfold execCmdTailWrite
  refine OutInv.ends reelObserve_par ?_
  refine Inv.ite (Q := paramsWf) ?_ ?_
  · exact tailWrite_par _ _ (paramsWf.keep (updHost_keeps _ _) (by rfl) h)
  · exact h

theorem execIrqCauseWrite_par (value : Word) (s : State) (h : paramsWf s) :
    OutInv paramsWf (execIrqCauseWrite value s) := by
  unfold execIrqCauseWrite
  refine OutInv.ends reelObserve_par ?_
  refine Inv.ite (Q := paramsWf) ?_ ?_
  · exact clearSet_par _ _ _ _ h
  · exact h

theorem execMsiEnableWrite_par (value : Word) (s : State) (h : paramsWf s) :
    OutInv paramsWf (execMsiEnableWrite value s) := by
  unfold execMsiEnableWrite
  refine OutInv.ends reelObserve_par ?_
  refine Inv.ite (Q := paramsWf) ?_ ?_
  · exact putP_par _ _ _ _ h
  · exact h

theorem execPcieLinkDown_par (s : State) (h : paramsWf s) :
    OutInv paramsWf (execPcieLinkDown s) := by
  unfold execPcieLinkDown
  exact OutInv.ends reelObserve_par (paramsWf.keep (updHost_keeps _ _) (by rfl) h)

theorem execPcieReset_par (s : State) (h : paramsWf s) :
    OutInv paramsWf (execPcieReset s) := by
  unfold execPcieReset
  refine OutInv.ends reelObserve_par ?_
  refine Inv.ite (Q := paramsWf) ?_ ?_
  · exact paramsWf.keep (updHost_keeps _ _) (by rfl) h
  · exact h

theorem execPing_par (c : Cmd) (s : State) (h : paramsWf s) :
    OutInv paramsWf (execPing c s) := by
  unfold execPing
  refine OutInv.ends reelObserve_par ?_
  refine Inv.runCmd (Q := paramsWf) goodPacket_par answer_par ?_ fun x0 _ h1 => ?_
  · exact h
  · exact pingBody_par _ _ h1

theorem execRplHeadWrite_par (value : Word) (s : State) (h : paramsWf s) :
    OutInv paramsWf (execRplHeadWrite value s) := by
  unfold execRplHeadWrite
  refine OutInv.ends reelObserve_par ?_
  refine Inv.ite (Q := paramsWf) ?_ ?_
  · exact headWrite_par _ _ h
  · exact h

theorem spiRun_par (s : State) (bytes : List Nat) (h : paramsWf s) :
    OutInv paramsWf (spiRun s bytes) := by
  unfold spiRun
  refine OutInv.ends reelObserve_par ?_
  refine Inv.ite (Q := paramsWf) ?_ ?_
  · exact spiTransaction_par _ _ h
  · exact h

theorem execReadReply_par (words : Nat) (s : State) (h : paramsWf s) :
    OutInv paramsWf (execReadReply words s) := by
  unfold execReadReply
  exact spiRun_par _ _ h

theorem execReadStatus_par (s : State) (h : paramsWf s) :
    OutInv paramsWf (execReadStatus s) := by
  unfold execReadStatus
  exact spiRun_par _ _ h

theorem execWritePacket_par (words : List Word) (s : State) (h : paramsWf s) :
    OutInv paramsWf (execWritePacket words s) := by
  unfold execWritePacket
  exact spiRun_par _ _ h

theorem execHostSilent_par (s : State) (h : paramsWf s) :
    OutInv paramsWf (execHostSilent s) := by
  unfold execHostSilent
  extract_lets y0
  refine Inv.cut (Q := paramsWf) (s := y0) ?_ fun h30 => ?_
  · unfold y0
    exact paramsWf.keep (advanceTo_keeps _ _) (by rfl) h
  clear_value y0
  refine OutInv.clocked ?_ ?_
  · exact h
  · refine OutInv.ends reelObserve_par ?_
    refine Inv.ite (Q := paramsWf) ?_ ?_
    · refine Inv.ite (Q := paramsWf) ?_ ?_
      · exact h30
      · exact raiseFault_par _ _ _ h30
    · exact h

theorem rowA_par (c : Cmd) (op : Nat) (r : CmdRow) (h : rowA c op = some r) (s : State)
    (_hc : commonErr r.sp r.own c s = none) (q : paramsWf s) : ResInv paramsWf (r.body c s) := by
  unfold rowA at h
  split at h
  · exact Option.some.inj h ▸ pingBody_par c s q
  · exact Option.some.inj h ▸ getParamBody_par c s q
  · exact Option.some.inj h ▸ setParamBody_par c s q
  · exact Option.some.inj h ▸ commitGroupBody_par c s q
  · exact Option.some.inj h ▸ getBlockBody_par c s q
  · exact Option.some.inj h ▸ setBlockBody_par c s q
  · exact Option.some.inj h ▸ discoverBody_par c s q
  · exact Option.some.inj h ▸ readIdentityBody_par c s q
  · exact Option.some.inj h ▸ placeBody_par c s q
  · exact Option.some.inj h ▸ cellConfigBody_par c s q
  · exact Option.some.inj h ▸ tallyReportBody_par c s q
  · exact absurd h (by simp)

theorem rowB_par (c : Cmd) (op : Nat) (r : CmdRow) (h : rowB op = some r) (s : State)
    (_hc : commonErr r.sp r.own c s = none) (q : paramsWf s) : ResInv paramsWf (r.body c s) := by
  unfold rowB at h
  split at h
  · exact Option.some.inj h ▸ laneBringupBody_par c s q
  · exact Option.some.inj h ▸ laneRetireBody_par c s q
  · exact Option.some.inj h ▸ laneLoopBody_par c s q
  · exact Option.some.inj h ▸ eyeScanBody_par c s q
  · exact Option.some.inj h ▸ armEnableBody_par c s q
  · exact Option.some.inj h ▸ deblockBody_par c s q
  · exact Option.some.inj h ▸ blockBody_par c s q
  · exact Option.some.inj h ▸ cleatAddBody_par c s q
  · exact Option.some.inj h ▸ cleatReleaseBody_par c s q
  · exact Option.some.inj h ▸ maintAdmitBody_par c s q
  · exact Option.some.inj h ▸ maintEndBody_par c s q
  · exact Option.some.inj h ▸ cellRetireBody_par c s q
  · exact Option.some.inj h ▸ loopModeBody_par c s q
  · exact Option.some.inj h ▸ trajQueueBody_par c s q
  · exact Option.some.inj h ▸ trajFlushBody_par c s q
  · exact absurd h (by simp)

theorem rowC_par (c : Cmd) (op : Nat) (r : CmdRow) (h : rowC c op = some r) (s : State)
    (_hc : commonErr r.sp r.own c s = none) (q : paramsWf s) : ResInv paramsWf (r.body c s) := by
  unfold rowC at h
  split at h
  · exact Option.some.inj h ▸ adcCalBody_par _ _ c s q
  · exact Option.some.inj h ▸ adcCalBody_par _ _ c s q
  · exact Option.some.inj h ▸ adcInjectBody_par c s q
  · exact Option.some.inj h ▸ decSyncBody_par c s q
  · exact Option.some.inj h ▸ homeStartBody_par c s q
  · exact Option.some.inj h ▸ homeAbortBody_par c s q
  · exact Option.some.inj h ▸ cmpSelftestBody_par c s q
  · exact Option.some.inj h ▸ faultReadBody_par c s q
  · exact Option.some.inj h ▸ faultClearBody_par c s q
  · exact Option.some.inj h ▸ faultAckBody_par c s q
  · exact Option.some.inj h ▸ faultInjectBody_par c s q
  · exact Option.some.inj h ▸ safetyUnlockBody_par c s q
  · exact Option.some.inj h ▸ safetyWriteBody_par c s q
  · exact Option.some.inj h ▸ safetyLogReadBody_par c s q
  · exact Option.some.inj h ▸ safetyLockBody_par c s q
  · exact absurd h (by simp)

theorem rowD_par (c : Cmd) (op : Nat) (r : CmdRow) (h : rowD op = some r) (s : State)
    (_hc : commonErr r.sp r.own c s = none) (q : paramsWf s) : ResInv paramsWf (r.body c s) := by
  unfold rowD at h
  split at h
  · exact Option.some.inj h ▸ takeoverBody_par c s q
  · exact Option.some.inj h ▸ switchbackBody_par c s q
  · exact Option.some.inj h ▸ reelArmBody_par c s q
  · exact Option.some.inj h ▸ reelReadBody_par c s q
  · exact Option.some.inj h ▸ reelStopBody_par c s q
  · exact Option.some.inj h ▸ timeOffsetBody_par c s q
  · exact Option.some.inj h ▸ timeStepBody_par c s q
  · exact Option.some.inj h ▸ timeReadBody_par c s q
  · exact Option.some.inj h ▸ powerStateBody_par c s q
  · exact Option.some.inj h ▸ traceReadBody_par c s q
  · exact Option.some.inj h ▸ fwPatchBody_par c s q
  · exact Option.some.inj h ▸ factoryUnlockBody_par c s q
  · exact absurd h (by simp)

theorem cmdRow?_par (c : Cmd) (op : Nat) (r : CmdRow) (h : cmdRow? op c = some r) (s : State)
    (hc : commonErr r.sp r.own c s = none) (q : paramsWf s) : ResInv paramsWf (r.body c s) := by
  unfold cmdRow? at h
  cases h1 : rowA c op with
  | some x => exact rowA_par c op r (by rw [h1] at h; exact h1.trans (by simpa using h)) s hc q
  | none =>
    cases h2 : rowB op with
    | some x => exact rowB_par c op r (by rw [h1, h2] at h; exact h2.trans (by simpa using h)) s hc q
    | none =>
      cases h3 : rowC c op with
      | some x => exact rowC_par c op r (by rw [h1, h2, h3] at h; exact h3.trans (by simpa using h)) s hc q
      | none => exact rowD_par c op r (by rw [h1, h2, h3] at h; simpa using h) s hc q

theorem execPkt_par (s : State) (ws : List Word) (c : Cmd) (h : paramsWf s) :
    paramsWf (execPkt s ws c) := by
  unfold execPkt
  dsimp only
  split
  · exact (answer_par _ _ _ _ _ _ (paramsWf.keep (goodPacket_keeps _ _ _) (by rfl) h))
  · rename_i r _ hr
    exact Inv.interpret (Q := paramsWf) goodPacket_par answer_par h fun x hc q => cmdRow?_par _ _ r hr x hc q
  · exact h

theorem checkPkt_par (s : State) (ws : List Word) (p : Port) (h : paramsWf s) :
    paramsWf (checkPkt s ws p) := by
  unfold checkPkt
  extract_lets y0 y1
  clear_value y0 y1
  refine Inv.ite (Q := paramsWf) ?_ ?_
  · exact refusePkt_par _ _ _ _ (incP_par _ _ _ h)
  · split
    · exact execPkt_par _ _ _ h
    · refine Inv.ite (Q := paramsWf) ?_ ?_
      · exact execPkt_par _ _ _ h
      · refine Inv.ite (Q := paramsWf) ?_ ?_
        · exact sendReply_par _ _ _ _ (paramsWf.keep (goodPacket_keeps _ _ _) (by rfl) h)
        · exact refusePkt_par _ _ _ _ (incP_par _ _ _ h)

theorem takePacket_par (s : State) (p : Port) (h : paramsWf s) :
    paramsWf (takePacket s p) := by
  unfold takePacket
  extract_lets y0 y1
  clear_value y0 y1
  refine Inv.ite (Q := paramsWf) ?_ ?_
  · exact h
  · refine Inv.ite (Q := paramsWf) ?_ ?_
    · exact overLong_par _ _ _ h
    · refine Inv.ite (Q := paramsWf) ?_ ?_
      · exact h
      · exact checkPkt_par _ _ _ (paramsWf.keep (consume_keeps _ _ _) (by rfl) h)

theorem execPacketTake_par (port : Port) (s : State) (h : paramsWf s) :
    OutInv paramsWf (execPacketTake port s) := by
  unfold execPacketTake
  exact OutInv.ends reelObserve_par (takePacket_par _ _ h)

/-! ### Machine/Dispatch.lean -/

theorem exec_par (i : Instr) (s : State) (h : paramsWf s) :
    OutInv paramsWf (exec i s) := by
  unfold exec
  split
  · exact execPing_par _ _ h
  · exact execGetParam_par _ _ h
  · exact execSetParam_par _ _ h
  · exact execCommitGroup_par _ _ h
  · exact execCommitGroupDiscard_par _ _ h
  · exact execGetBlock_par _ _ h
  · exact execSetBlock_par _ _ h
  · exact execDiscover_par _ _ h
  · exact execDiscoverDone_par _ _ _ h
  · exact execReadIdentity_par _ _ h
  · exact execReadIdentityDone_par _ _ _ h
  · exact execPlace_par _ _ h
  · exact execPlaceDone_par _ h
  · exact execCellConfig_par _ _ h
  · exact execCellConfigDone_par _ h
  · exact execTallyReport_par _ _ h
  · exact execLaneBringup_par _ _ h
  · exact execLaneRetire_par _ _ h
  · exact execLaneLoop_par _ _ h
  · exact execLaneLoopEndMode0_par _ _ h
  · exact execLaneLoopEnd_par _ _ _ _ _ _ h
  · exact execEyeScan_par _ _ h
  · exact execEyeScanDone_par _ _ h
  · exact execArmEnable_par _ _ h
  · exact execDeblock_par _ _ h
  · exact execBlock_par _ _ h
  · exact execCleatAdd_par _ _ h
  · exact execCleatRelease_par _ _ h
  · exact execMaintAdmit_par _ _ h
  · exact execMaintEnd_par _ _ h
  · exact execCellRetire_par _ _ h
  · exact execCellRetireTimeout_par _ _ h
  · exact execLoopMode_par _ _ h
  · exact execTrajQueue_par _ _ h
  · exact execTrajFlush_par _ _ h
  · exact execAdcCalZero_par _ _ h
  · exact execAdcCalFull_par _ _ h
  · exact execAdcCalZeroDone_par _ _ h
  · exact execAdcCalFullDone_par _ _ h
  · exact execAdcInject_par _ _ h
  · exact execDecSync_par _ _ h
  · exact execHomeStart_par _ _ h
  · exact execHomeAbort_par _ _ h
  · exact execHomingDone_par _ _ h
  · exact execCmpSelftest_par _ _ h
  · exact execCmpSelftestDone_par _ _ _ h
  · exact execFaultRead_par _ _ h
  · exact execFaultClear_par _ _ h
  · exact execFaultAck_par _ _ h
  · exact execFaultInject_par _ _ h
  · exact execSafetyUnlock_par _ _ h
  · exact execSafetyWrite_par _ _ h
  · exact execSafetyLogRead_par _ _ h
  · exact execSafetyLock_par _ _ h
  · exact execTakeover_par _ _ h
  · exact execSwitchback_par _ _ h
  · exact execReelArm_par _ _ h
  · exact execReelRead_par _ _ h
  · exact execReelStop_par _ _ h
  · exact execTimeOffset_par _ _ h
  · exact execTimeStep_par _ _ h
  · exact execTimeRead_par _ _ h
  · exact execPowerState_par _ _ h
  · exact execTraceRead_par _ _ h
  · exact execFwPatch_par _ _ h
  · exact execFwPatchDone_par _ h
  · exact execFactoryUnlock_par _ _ h
  · exact execPacketTake_par _ _ h
  · exact execWritePacket_par _ _ h
  · exact execReadReply_par _ _ h
  · exact execReadStatus_par _ h
  · exact execCmdTailWrite_par _ _ _ h
  · exact execRplHeadWrite_par _ _ h
  · exact execIrqCauseWrite_par _ _ h
  · exact execMsiEnableWrite_par _ _ h
  · exact execBar0Write_par _ _ _ h
  · exact execBar2RoWrite_par _ _ _ h
  · exact execPcieReset_par _ h
  · exact execPcieLinkDown_par _ h
  · exact execHostSilent_par _ h
  · exact execTrajPreset_par _ _ h
  · exact execEncPreset_par _ _ h
  · exact execEncLatchCfg_par _ _ h
  · exact execDiscMtStart_par _ _ h
  · exact execDiscMtAbort_par _ _ h
  · exact execMtWindowEnd_par _ h
  · exact execTallyExpectAct_par _ _ h
  · exact execTallyOldClear_par _ _ h
  · exact execTallyPersistExpiry_par _ _ h
  · exact execCltExclude_par _ _ h
  · exact execAdcPtStart_par _ _ h
  · exact execPathTestDone_par _ h
  · exact execDecCfg_par _ _ h
  · exact execTbusForce_par _ _ h
  · exact execChopMode_par _ _ h
  · exact execChopForce_par _ _ h
  · exact execPwrLaneEn_par _ _ h
  · exact execFrmHubHoldMax_par _ _ h
  · exact execStrTraceCtrl_par _ _ h
  · exact execFltErrHold_par _ _ h
  · exact execPeriodMark_par _ _ _ h
  · exact execDispatchResume_par _ h
  · exact execResumeTimeout_par _ h
  · exact execTakeoverWindowEnd_par _ h
  · exact execPeerHeartbeat_par _ _ _ h
  · exact execPeerDataFrame_par _ _ h
  · exact execUpstreamFrame_par _ _ h
  · exact execUpstreamFrameDeadline_par _ _ h
  · exact execCellSilenceSuspect_par _ _ h
  · exact execCleatRetryWindowEnd_par _ _ h
  · exact execCleatEntryFree_par _ _ h
  · exact execActivityFree_par _ _ h
  · exact execPermConfirmTimeout_par _ _ h
  · exact execPermBypassRetry_par _ _ h
  · exact execTaskPlace_par _ h
  · exact execTaskComplete_par _ _ h
  · exact execTaskDeadline_par _ _ h
  · exact execTaskWatchdog_par _ _ h
  · exact execStrandSramError_par _ _ _ h
  · exact execDetectDone_par _ _ _ h
  · exact execTrainDone_par _ _ _ _ h
  · exact execLockDone_par _ _ _ h
  · exact execCapsDone_par _ _ _ _ _ _ _ h
  · exact execBringupStageTimeout_par _ _ h
  · exact execLossOfLock_par _ _ _ _ h
  · exact execRebringupRetry_par _ _ h
  · exact execRetryWindowEnd_par _ _ h
  · exact execLaneErrorWindowEnd_par _ _ h
  · exact execGraceExpiry_par _ _ h
  · exact execErrPulseEnd_par _ h
  · exact execBelaySample_par _ _ _ _ _ _ _ h
  · exact execTestPulseStart_par _ _ h
  · exact execTestPulseEnd_par _ _ h
  · exact execSrstStuck_par _ h
  · exact execHeartbeatTimeout_par _ h
  · exact execFdcStaleTimeout_par _ _ h
  · exact execBelayClockCheck_par _ _ h
  · exact execBelayReset_par _ _ _ h
  · exact execBelayResetRelease_par _ _ _ h
  · exact execSafetySessionTimeout_par _ h
  · exact execUnlockBackoffEnd_par _ h
  · exact execChopCycleStart_par _ _ _ h
  · exact execChopGateEdge_par _ _ _ _ h
  · exact execChopTripRecognised_par _ _ h
  · exact execChopTripReleased_par _ _ h
  · exact execChopBlankingEnd_par _ _ h
  · exact execChopScConfirm_par _ _ _ h
  · exact execChopScWindowEnd_par _ _ h
  · exact execGateSupplyNotOk_par _ _ _ h
  · exact execGateSupplyOk_par _ _ _ h
  · exact execAdcSequenceTrigger_par _ _ _ h
  · exact execAdcConversionEnd_par _ _ _ h
  · exact execDecSlot_par _ _ _ h
  · exact execDecStuck_par _ _ h
  · exact execDsyncFall_par _ h
  · exact execEncTransition_par _ _ _ _ _ _ h
  · exact execEncIllegalWindowEnd_par _ _ h
  · exact execEncLimitTrip_par _ _ _ _ h
  · exact execEncHomeActive_par _ _ _ h
  · exact execTimeHoldoverExpiry_par _ h
  · exact execTbusFall_par _ _ h
  · exact execTbusPulseEnd_par _ _ h
  · exact execReelPostEnd_par _ h
  · exact execPorstRelease_par _ _ h
  · exact execPorstAssert_par _ _ h
  · exact execListenEntry_par _ _ h
  · exact execWakeNLow_par _ _ h
  · exact execDormantEntry_par _ h
  · exact execXtalSwitch_par _ h
  · exact execXtalFail_par _ h
  · exact execCorePllLock_par _ h
  · exact execBistDone_par _ _ _ _ _ _ h
  · exact execLanePllLock_par _ _ h
  · exact execDispatchTestDone_par _ _ _ h
  · exact execRunToReady_par _ h
  · exact execCorePllLoss_par _ h
  · exact execLanePllLoss_par _ _ h
  · exact execEncLimitInactive_par _ _ _ _ h
  · exact execTbusRisingEdge_par _ _ h
  · exact execTriggerUnitTimeout_par _ _ h
  · exact execTickWrap_par _ h
  · exact execBar0Read_par _ _ _ h
  · exact execBelaySramError_par _ h

end Sys2Proof.Machine
end

