-- ==== Sys2Proof/Laws/Reply.lean ====
section
/-! SUPPORT. The command layer as the statements see it: an admitted command whose checks pass gives its reply, and
beside its own effect only what goes with a reply happens. -/

namespace Sys2Proof.Machine

/-! ### The host block -/

/-- A reply and the causes change these parts of the host block only. -/
def HostReply (h k : HostSt) : Prop :=
  k = { h with
    rplWin := k.rplWin, rplTail := k.rplTail, held := k.held, spiOut := k.spiOut
    pcie := { h.pcie with reply := k.pcie.reply }, spi := { h.spi with reply := k.spi.reply }, msiSent := k.msiSent
    pba := k.pba }

theorem HostReply.refl (h : HostSt) : HostReply h h := rfl

theorem HostReply.trans {h k l : HostSt} (a : HostReply h k) (b : HostReply k l) : HostReply h l := by
  unfold HostReply at *
  rw [b, a]

/-- The causes change the messages sent only. -/
def HostMsi (h k : HostSt) : Prop := k = { h with msiSent := k.msiSent, pba := k.pba }

theorem HostMsi.refl (h : HostSt) : HostMsi h h := rfl

theorem HostMsi.trans {h k l : HostSt} (a : HostMsi h k) (b : HostMsi k l) : HostMsi h l := by
  unfold HostMsi at *
  rw [b, a]

theorem HostMsi.reply {h k : HostSt} (a : HostMsi h k) : HostReply h k := by
  unfold HostMsi HostReply at *
  rw [a]

theorem HostMsi.last {h k : HostSt} (a : HostMsi h k) (p : Port) : lastReply k p = lastReply h p := by
  unfold HostMsi at a
  rw [a]
  rfl

theorem irqSet_msi (s : State) (b : Nat) : HostMsi s.host (irqSet s b).host := by
  have v : ∀ (h : HostSt) (n : Nat), HostMsi h (msiVector h n) := fun h n => by
    unfold msiVector
    split <;> rfl
  have h : ∀ s : State, HostMsi s.host (msiSend s b).host := fun s => v _ _
  unfold irqSet
  split
  · rfl
  · dsimp only
    split
    · exact h _
    · rfl

/-- What an operation that keeps the host block leaves there. -/
theorem Keeps.msi {fs : List Fld} {ids : List Nat} {s t : State} (k : Keeps fs ids s t)
    (hg : fs.contains .host = false := by decide) : HostMsi s.host t.host := by
  rw [k.host hg]
  rfl

/-! ### The reel's look at the lines -/

/-- The host block as the reel leaves it, as a property the rules of Laws/Inv.lean carry through. -/
def msiFrom (h : HostSt) (s : State) : Prop := HostMsi h s.host

theorem msiFrom.keep {h : HostSt} {fs : List Fld} {ids : List Nat} {s t : State} (k : Keeps fs ids s t)
    (hg : fs.contains .host = false) (q : msiFrom h s) : msiFrom h t := by
  unfold msiFrom at *
  rw [k.host hg]
  exact q

theorem irqSet_msiFrom {h : HostSt} (s : State) (b : Nat) (q : msiFrom h s) : msiFrom h (irqSet s b) :=
  HostMsi.trans q (irqSet_msi s b)

theorem reelEnd_msiFrom {h : HostSt} (s : State) (cause u : Nat) (q : msiFrom h s) : msiFrom h (reelEnd s cause u) := by
  unfold reelEnd
  dsimp only
  refine irqSet_msiFrom _ _ (.keep (updReel_keeps _ _) rfl (Inv.foldl (Q := msiFrom h) ?_ fun x a hx => ?_))
  · exact .keep (updReel_keeps _ _) rfl (.keep (reelFlush_keeps _ _ _) rfl (.keep (updReel_keeps _ _) rfl q))
  · exact .keep (ringWrite_keeps _ _) rfl hx

theorem reelStop_msiFrom {h : HostSt} (s : State) (cause : Nat) (q : msiFrom h s) : msiFrom h (reelStop s cause) := by
  unfold reelStop
  exact Inv.ite (Q := msiFrom h) (reelEnd_msiFrom _ _ _ q)
    (Inv.ite (Q := msiFrom h) (.keep (reelRecause_keeps _ _) rfl q) q)

theorem reelTake_msiFrom {h : HostSt} (n u : Nat) (s : State) (q : msiFrom h s) : msiFrom h (reelTake n u s) := by
  induction n generalizing s with
  | zero => exact q
  | succ n ih =>
    unfold reelTake
    split
    · exact q
    · split
      · exact reelEnd_msiFrom _ _ _ (.keep (updReel_keeps _ _) rfl q)
      · exact ih _ (.keep (ringWrite_keeps _ _) rfl (.keep (updReel_keeps _ _) rfl q))

theorem reelRound_msiFrom {h : HostSt} (u : Nat) (s : State) (q : msiFrom h s) : msiFrom h (reelRound u s) := by
  unfold reelRound
  split
  · exact q
  · dsimp only
    split
    · exact reelEnd_msiFrom _ _ _ (.keep (updReel_keeps _ _) rfl q)
    · exact reelTake_msiFrom _ _ _ (.keep (reelFlush_keeps _ _ _) rfl (.keep (updReel_keeps _ _) rfl q))

theorem reelRounds_msiFrom {h : HostSt} (n u : Nat) (s : State) (q : msiFrom h s) : msiFrom h (reelRounds n u s) := by
  induction n generalizing u s with
  | zero => exact q
  | succ n ih =>
    unfold reelRounds
    exact Inv.ite (Q := msiFrom h) (ih _ _ (reelRound_msiFrom _ _ q)) q

theorem reelSync_msiFrom {h : HostSt} (s : State) (q : msiFrom h s) : msiFrom h (reelSync s) := by
  unfold reelSync
  exact Inv.ite (Q := msiFrom h) (reelRounds_msiFrom _ _ _ (.keep (updReel_keeps _ _) rfl q)) q

theorem reelFire_msiFrom {h : HostSt} (s : State) (src now : Nat) (tt : Int) (q : msiFrom h s) :
    msiFrom h (reelFire s src now tt) := by
  unfold reelFire
  dsimp only
  refine irqSet_msiFrom _ _ (Inv.foldl (Q := msiFrom h) ?_ fun x n hx =>
    Inv.ite (Q := msiFrom h) (.keep (tbusDrive_keeps _ _) rfl hx) hx)
  exact .keep (reelForm_keeps _ _) rfl (.keep (updReel_keeps _ _) rfl (.keep (trigSet_keeps _ _ _ _) rfl q))

theorem reelTrigger_msiFrom {h : HostSt} (s : State) (src : Nat) (tt : Int) (q : msiFrom h s) :
    msiFrom h (reelTrigger s src tt) := by
  unfold reelTrigger
  split
  · exact q
  · rename_i now _
    have k := reelFire_msiFrom s src now tt q
    exact Inv.ite (Q := msiFrom h) (Inv.ite (Q := msiFrom h) (reelStop_msiFrom _ _ k) k)
      (Inv.ite (Q := msiFrom h) (.keep (updReel_keeps _ _) rfl (.keep (trigSet_keeps _ _ _ _) rfl q)) q)

theorem linesSeen_msiFrom {h : HostSt} (now : Nat) (new : List Nat) (s : State) (q : msiFrom h s) :
    msiFrom h (linesSeen now new s) := by
  unfold linesSeen
  dsimp only
  have k : msiFrom h (updReel s (fun x => if x.baseAt = s.tick then x else { x with base := x.lines, baseAt := s.tick })) :=
    .keep (updReel_keeps _ _) rfl q
  exact Inv.ite (Q := msiFrom h) (Inv.foldl (Q := msiFrom h) k fun x c hx =>
    Inv.reelUnits (Q := msiFrom h) reelTrigger_msiFrom hx fun y i hy => .keep (unitLine_keeps _ _ _ _ _) rfl hy) k

theorem reelObserve_msi (s : State) : HostMsi s.host (reelObserve s).host :=
  Inv.reelObserveWith (Q := msiFrom s.host) reelSync_msiFrom (fun x q => .keep (reelBefore_keeps x) rfl q)
    linesSeen_msiFrom (fun n l x q => .keep (linesDone_keeps n l x) rfl q) (HostMsi.refl _) fun _ q => q

/-- While no capture runs the reel sees nothing. -/
theorem reelObserve_idle (s : State) (h : reelRuns s = false) : reelObserve s = s := by
  unfold reelObserve reelObserveWith
  simp [h]

theorem reelObserve_seen (s : State) : Seen s (reelObserve s) :=
  ⟨(reelObserve_keeps s).mono (by decide), reelObserve_msi s, fun h => reelObserve_idle s h⟩

/-! ### Replies -/

theorem sendReply_host (s : State) (p : Port) (irq : Bool) (ws : List Word) :
    HostReply s.host (sendReply s p irq ws).host ∧ ∀ q, lastReply (sendReply s p irq ws).host q = lastReply s.host q := by
  unfold sendReply
  split
  · split
    · dsimp only
      split
      · have k := irqSet_msi (updHost s (fun h => rplPut h ws)) 0
        exact ⟨HostReply.trans (by rfl) k.reply, fun q => (k.last q).trans (by cases q <;> rfl)⟩
      · exact ⟨rfl, fun q => by cases q <;> rfl⟩
    · exact ⟨rfl, fun q => by cases q <;> rfl⟩
  · split
    · have k := irqSet_msi (updHost s (fun h => { h with spiOut := h.spiOut ++ [ws] })) 4
      exact ⟨HostReply.trans (by rfl) k.reply, fun q => (k.last q).trans (by cases q <;> rfl)⟩
    · exact ⟨rfl, fun q => rfl⟩

theorem answer_host (s : State) (op : Nat) (c : Cmd) (status detail : Nat) (payload : List Word) :
    HostReply s.host (answer s op c status detail payload).host
      ∧ lastReply (answer s op c status detail payload).host c.port
        = replyWords op status c.tag.toNat detail c.seq payload := by
  unfold answer
  dsimp only
  have k := sendReply_host (updHost s (fun h => match c.port with
    | .pcie => { h with pcie := { h.pcie with reply := replyWords op status c.tag.toNat detail c.seq payload } }
    | .spi => { h with spi := { h.spi with reply := replyWords op status c.tag.toNat detail c.seq payload } }))
    c.port c.irq (replyWords op status c.tag.toNat detail c.seq payload)
  refine ⟨HostReply.trans ?_ k.1, (k.2 c.port).trans ?_⟩
  · cases c.port <;> rfl
  · cases c.port <;> rfl

theorem reelRuns_keep {fs : List Fld} {ids : List Nat} {s t : State} (k : Keeps fs ids s t)
    (hg : fs.contains .reel = false := by decide) : reelRuns t = reelRuns s := by
  unfold reelRuns
  rw [k.reel hg]

/-- A reply, then the reel's look at the lines. -/
theorem aside_of {u v : State} (k : Keeps [.host] [P.HOST_IRQ_CAUSE] u v) (h : HostReply u.host v.host) :
    Aside u (reelObserve v) := by
  refine ⟨(reelObserve_keeps v).step (k.mono (by decide)) (by decide), h.trans (reelObserve_msi v).reply, fun hr => ?_⟩
  rw [reelObserve_idle v (by rw [reelRuns_keep k]; exact hr)]
  exact k

theorem answer_replied (u : State) (op : Nat) (c : Cmd) (status detail : Nat) (payload : List Word) :
    Replied op status detail payload c u (reelObserve (answer u op c status detail payload)) := by
  have h := answer_host u op c status detail payload
  exact ⟨((reelObserve_msi _).last _).trans h.2, aside_of (answer_keeps u op c status detail payload) h.1⟩

/-! ### Commands -/

theorem goodPacket_pwr (s : State) (p : Port) (q : Word) : (goodPacket s p q).pwr = s.pwr :=
  (goodPacket_keeps s p q).pwr

theorem commonErr_arrived (sp : CmdSpec) (own : Option CmdErr) (c : Cmd) (s : State) :
    commonErr sp own c (arrived s c) = commonErr sp own c s := by
  unfold commonErr powerErr arrived
  rw [goodPacket_pwr]

theorem runCmd_admitted {sp : CmdSpec} {own : Option CmdErr} {body : Cmd → State → Res} {c : Cmd} {s : State}
    (h : Admitted sp own c s) : runCmd sp own body c s = finish sp.op c (body c (arrived s c)) (arrived s c) := by
  obtain ⟨h1, _, h3⟩ := h
  have k := commonErr_arrived sp own c s
  unfold runCmd interpret
  rw [if_pos h1]
  dsimp only
  unfold arrived at *
  rw [k, h3]
  rfl

/-- A short command whose checks pass: its reply is OK with its detail and payload, its effect is the body's. -/
theorem exec_ok {sp : CmdSpec} {own : Option CmdErr} {body : Cmd → State → Res} {c : Cmd} {s u : State} {d : Nat}
    {p : List Word} (h : Admitted sp own c s) (hb : body c (arrived s c) = .ok d p u) :
    ∃ t, ends (runCmd sp own body c s) = .next t ∧ Replied sp.op St.ok d p c u t := by
  refine ⟨_, rfl, ?_⟩
  rw [runCmd_admitted h, hb]
  simp only [finish, h.2.1]
  exact answer_replied u sp.op c St.ok d p

/-- A command whose checks pass and whose reply is written later (R339): its effect is the body's. -/
theorem exec_later {sp : CmdSpec} {own : Option CmdErr} {body : Cmd → State → Res} {c : Cmd} {s u : State}
    (h : Admitted sp own c s) (hb : body c (arrived s c) = .later u) :
    ∃ t, ends (runCmd sp own body c s) = .next t ∧ Seen u t := by
  refine ⟨_, rfl, ?_⟩
  rw [runCmd_admitted h, hb]
  simp only [finish, h.2.1]
  exact reelObserve_seen u

/-- A long command whose checks pass: the ACCEPTED reply, then what follows in the same tick (R51). -/
theorem exec_accepted {sp : CmdSpec} {own : Option CmdErr} {body : Cmd → State → Res} {c : Cmd} {s u : State}
    {f : State → State} (h : Admitted sp own c s) (hb : body c (arrived s c) = .accepted u f) :
    ends (runCmd sp own body c s) = .next (reelObserve (f (answer u sp.op c St.accepted 0 []))) := by
  rw [runCmd_admitted h, hb]
  simp only [finish, h.2.1]
  rfl

/-- The same as the statements say it. -/
theorem exec_started {sp : CmdSpec} {own : Option CmdErr} {body : Cmd → State → Res} {c : Cmd} {s u : State}
    {f : State → State} (h : Admitted sp own c s) (hb : body c (arrived s c) = .accepted u f) :
    ∃ t, ends (runCmd sp own body c s) = .next t ∧ Accepted sp.op c u f t :=
  ⟨_, exec_accepted h hb, _, (answer_host u sp.op c St.accepted 0 []).2, answer_keeps u sp.op c St.accepted 0 [],
    reelObserve_seen _⟩

/-- What an accepted command leaves in the fields its follow-up does not change. -/
theorem Accepted.ops {op : Nat} {c : Cmd} {u t : State} {f : State → State} (h : Accepted op c u f t)
    (hf : ∀ v, (f v).ops = v.ops) : t.ops = u.ops := by
  obtain ⟨v, _, k, w⟩ := h
  rw [w.1.ops, hf, k.ops]

/-- The checks of a parameter's own write row: the packet names the parameter, its value follows. -/
theorem paramCmd_id (id : Nat) (c : Cmd) (h : id < 65536) : pw (paramCmd id c) 0 % 65536 = id := by
  show (BitVec.ofNat 32 id).toNat % 65536 = id
  rw [BitVec.toNat_ofNat]
  omega

/-- A parameter write whose checks pass. -/
theorem param_row {id : Nat} {c : Cmd} {s u : State} (hid : id < 65536)
    (h : Admitted (spSetParam (paramCmd id c)) (paramOwn (paramCmd id c)) (paramCmd id c) s)
    (he : setErr (arrived s (paramCmd id c)) id (tgt c) (c.payload.getD 0 0) = none)
    (hw : setWord (arrived s (paramCmd id c)) id (tgt c) (c.payload.getD 0 0) = u) :
    ∃ t, ends (setParam (paramCmd id c) s) = .next t ∧ Replied 0x03 St.ok 0 [] (paramCmd id c) u t := by
  refine exec_ok (d := 0) (p := []) h (body := setParamBody) ?_
  have e : (paramCmd id c).payload.getD 1 0 = c.payload.getD 0 0 := by
    unfold paramCmd
    exact List.getD_cons_succ
  unfold setParamBody
  dsimp only
  rw [paramCmd_id id c hid, e]
  show Res.check (setErr _ id (tgt c) _) (Res.done (setWord _ id (tgt c) _)) = _
  rw [he, hw]
  rfl

/-- A refusal: the error reply with its detail and DIAG, no effect (R44, R47). -/
theorem exec_err {sp : CmdSpec} {own : Option CmdErr} {body : Cmd → State → Res} {c : Cmd} {s : State} {e : CmdErr}
    (h : Admitted sp own c s) (hb : body c (arrived s c) = .err e) :
    ∃ t, ends (runCmd sp own body c s) = .next t
      ∧ Replied sp.op e.status e.detail [BitVec.ofNat 32 e.diag] c (arrived s c) t := by
  refine ⟨_, rfl, ?_⟩
  rw [runCmd_admitted h, hb]
  simp only [finish]
  exact answer_replied _ _ _ _ _ _

/-- A command that fails a check of R44 steps 5 to 7. -/
theorem exec_common {sp : CmdSpec} {own : Option CmdErr} {body : Cmd → State → Res} {c : Cmd} {s : State} {e : CmdErr}
    (h1 : takeable s c.port = true) (h2 : commonErr sp own c s = some e) :
    ∃ t, ends (runCmd sp own body c s) = .next t
      ∧ Replied sp.op e.status e.detail [BitVec.ofNat 32 e.diag] c (arrived s c) t := by
  refine ⟨_, rfl, ?_⟩
  have k := commonErr_arrived sp own c s
  unfold runCmd interpret
  rw [if_pos h1]
  dsimp only
  unfold arrived at *
  rw [k, h2]
  exact answer_replied _ _ _ _ _ _

/-- A command no port can take is not interpreted. -/
theorem exec_untaken {sp : CmdSpec} {own : Option CmdErr} {body : Cmd → State → Res} {c : Cmd} {s : State}
    (h : takeable s c.port = false) : ends (runCmd sp own body c s) = .next (reelObserve s) := by
  unfold runCmd
  rw [if_neg (by simp [h])]
  rfl

theorem ends_seen (u : State) : ∃ t, ends u = .next t ∧ Seen u t := ⟨_, rfl, reelObserve_seen u⟩

theorem whenClocked_on {s : State} {o : Host.Outcome State Fault Refusal} (h : clockOn s = true) :
    whenClocked s o = o := by
  unfold whenClocked
  rw [if_pos h]

end Sys2Proof.Machine
end

