-- ==== Sys2Proof/Laws/SafetyFrame.lean ====
section
/-! SUPPORT. What each operation of `Machine/Safety.lean` may change, and that it changes nothing else. -/

namespace Sys2Proof.Machine

theorem arrived_keeps (s : State) (c : Cmd) :
    Keeps [.host, .flt] [] s (arrived s c) := by
  unfold arrived
  exact Keeps.step (goodPacket_keeps _ _ _) (Keeps.refl _) (by decide)

theorem rowFrom_keeps (id : Nat) (c : Cmd) (s : State) :
    Keeps [.host, .flt] [] s (rowFrom id c s) := by
  unfold rowFrom
  exact Keeps.step (arrived_keeps _ _) (Keeps.refl _) (by decide)

end Sys2Proof.Machine
end

