-- ==== Sys2Proof/Laws/Ticks.lean ====
section
/-! SUPPORT. No operation lets time run back. -/

namespace Sys2Proof.Machine

/-! ### Machine/TrajOps.lean -/

theorem trajFlushBody_tick {tk : Nat} (c : Cmd) (s : State) (h : timeFrom tk s) :
    ResInv (timeFrom tk) (trajFlushBody c s) := by
  exact timeFrom.res (trajFlushBody_keeps _ _) (by rfl) h

theorem trajQueueBody_tick {tk : Nat} (c : Cmd) (s : State) (h : timeFrom tk s) :
    ResInv (timeFrom tk) (trajQueueBody c s) := by
  exact timeFrom.res (trajQueueBody_keeps _ _) (by rfl) h

theorem execTrajFlush_tick {tk : Nat} (c : Cmd) (s : State) (h : timeFrom tk s) :
    OutInv (timeFrom tk) (execTrajFlush c s) := by
  unfold execTrajFlush
  refine OutInv.ends reelObserve_tick ?_
  refine Inv.runCmd (Q := timeFrom tk) goodPacket_tick answer_tick ?_ fun x0 _ h1 => ?_
  · exact h
  · exact trajFlushBody_tick _ _ h1

theorem execTrajQueue_tick {tk : Nat} (c : Cmd) (s : State) (h : timeFrom tk s) :
    OutInv (timeFrom tk) (execTrajQueue c s) := by
  unfold execTrajQueue
  refine OutInv.ends reelObserve_tick ?_
  refine Inv.runCmd (Q := timeFrom tk) goodPacket_tick answer_tick ?_ fun x0 _ h1 => ?_
  · exact h
  · exact trajQueueBody_tick _ _ h1

/-! ### Machine/Encoder.lean -/

theorem execEncHomeActive_tick {tk : Nat} (axis : Fin 2) (held : Nat) (s : State) (h : timeFrom tk s) :
    OutInv (timeFrom tk) (execEncHomeActive axis s held) := by
  unfold execEncHomeActive
  extract_lets y0
  clear_value y0
  refine OutInv.clocked ?_ ?_
  · exact h
  · refine OutInv.ends reelObserve_tick ?_
    refine Inv.ite (Q := timeFrom tk) ?_ ?_
    · refine timeFrom.keep (limReleases_keeps _ _) (by rfl) ?_
      exact timeFrom.keep (encLevels_keeps _ _ _ _) (by rfl) (timeFrom.keep (homeLatch_keeps _ _ _) (by rfl) h)
    · exact h

theorem execEncIllegalWindowEnd_tick {tk : Nat} (axis : Fin 2) (s : State) (h : timeFrom tk s) :
    OutInv (timeFrom tk) (execEncIllegalWindowEnd axis s) := by
  unfold execEncIllegalWindowEnd
  extract_lets y0 y1 y2
  clear_value y0
  refine Inv.cut (Q := timeFrom tk) (s := y1) ?_ fun h30 => ?_
  · unfold y1
    exact advanceTo_tick _ _ h
  clear_value y1
  refine Inv.cut (Q := timeFrom tk) (s := y2) ?_ fun h31 => ?_
  · unfold y2
    refine Inv.ite (Q := timeFrom tk) ?_ ?_
    · exact timeFrom.keep (causeGone_keeps _ _ _) (by rfl) h30
    · exact h30
  clear_value y2
  refine OutInv.clocked ?_ ?_
  · exact h
  · refine OutInv.ite ?_ ?_
    · exact OutInv.ends reelObserve_tick (timeFrom.keep (updEnc_keeps _ _ _) (by rfl) h31)
    · exact OutInv.ends reelObserve_tick h

theorem execEncLimitInactive_tick {tk : Nat} (axis : Fin 2) (neg : Bool) (held : Nat) (s : State) (h : timeFrom tk s)
      :
    OutInv (timeFrom tk) (execEncLimitInactive axis neg s held) := by
  unfold execEncLimitInactive
  refine OutInv.clocked ?_ ?_
  · exact h
  · refine OutInv.ends reelObserve_tick ?_
    refine Inv.ite (Q := timeFrom tk) ?_ ?_
    · exact timeFrom.keep (limInactive_keeps _ _ _) (by rfl) h
    · exact h

theorem execEncLimitTrip_tick {tk : Nat} (axis : Fin 2) (neg : Bool) (held : Nat) (s : State) (h : timeFrom tk s) :
    OutInv (timeFrom tk) (execEncLimitTrip axis neg s held) := by
  unfold execEncLimitTrip
  refine OutInv.clocked ?_ ?_
  · exact h
  · refine OutInv.ends reelObserve_tick ?_
    refine Inv.ite (Q := timeFrom tk) ?_ ?_
    · exact timeFrom.keep (limReleases_keeps _ _) (by rfl) (timeFrom.keep (limActive_keeps _ _ _) (by rfl) h)
    · exact h

theorem execEncTransition_tick {tk : Nat} (axis : Fin 2) (a : List Bool) (b : List Bool) (z : List Bool) (home : List Bool) (s : State) (h : timeFrom tk s) :
    OutInv (timeFrom tk) (execEncTransition axis a b z home s) := by
  unfold execEncTransition
  extract_lets y0 y1 y2 y3 y4
  clear_value y0 y1 y2 y3 y4
  refine OutInv.clocked ?_ ?_
  · exact h
  · refine OutInv.ends reelObserve_tick ?_
    refine timeFrom.keep (limReleases_keeps _ _) (by rfl) ?_
    exact timeFrom.keep (encSample_keeps _ _ _ _ _ _) (by rfl) h

theorem execHomingDone_tick {tk : Nat} (axis : Fin 2) (s : State) (h : timeFrom tk s) :
    OutInv (timeFrom tk) (execHomingDone axis s) := by
  unfold execHomingDone
  extract_lets y0 y1 y2 y3
  clear_value y0 y1
  refine Inv.cut (Q := timeFrom tk) (s := y2) ?_ fun h30 => ?_
  · unfold y2
    refine Inv.ite (Q := timeFrom tk) ?_ ?_
    · exact advanceTo_tick _ _ h
    · exact h
  clear_value y2
  refine Inv.cut (Q := timeFrom tk) (s := y3) ?_ fun h31 => ?_
  · unfold y3
    exact timeFrom.keep (syncGen_keeps _ _) (by rfl) h30
  clear_value y3
  refine OutInv.clocked ?_ ?_
  · exact h
  · refine OutInv.ite ?_ ?_
    · refine OutInv.ends reelObserve_tick ?_
      refine Inv.ite (Q := timeFrom tk) ?_ ?_
      · exact timeFrom.keep (homeFinish_keeps _ _) (by rfl) h31
      · exact h31
    · exact OutInv.ends reelObserve_tick h

theorem homeAbortBody_tick {tk : Nat} (c : Cmd) (s : State) (h : timeFrom tk s) :
    ResInv (timeFrom tk) (homeAbortBody c s) := by
  exact timeFrom.res (homeAbortBody_keeps _ _) (by rfl) h

theorem homeStartBody_tick {tk : Nat} (c : Cmd) (s : State) (h : timeFrom tk s) :
    ResInv (timeFrom tk) (homeStartBody c s) := by
  exact timeFrom.res (homeStartBody_keeps _ _) (by rfl) h

theorem execHomeAbort_tick {tk : Nat} (c : Cmd) (s : State) (h : timeFrom tk s) :
    OutInv (timeFrom tk) (execHomeAbort c s) := by
  unfold execHomeAbort
  refine OutInv.ends reelObserve_tick ?_
  refine Inv.runCmd (Q := timeFrom tk) goodPacket_tick answer_tick ?_ fun x0 _ h1 => ?_
  · exact h
  · exact homeAbortBody_tick _ _ h1

theorem execHomeStart_tick {tk : Nat} (c : Cmd) (s : State) (h : timeFrom tk s) :
    OutInv (timeFrom tk) (execHomeStart c s) := by
  unfold execHomeStart
  refine OutInv.ends reelObserve_tick ?_
  refine Inv.runCmd (Q := timeFrom tk) goodPacket_tick answer_tick ?_ fun x0 _ h1 => ?_
  · exact h
  · exact homeStartBody_tick _ _ h1

/-! ### Machine/LoopOps.lean -/

theorem loopModeBody_tick {tk : Nat} (c : Cmd) (s : State) (h : timeFrom tk s) :
    ResInv (timeFrom tk) (loopModeBody c s) := by
  exact timeFrom.res (loopModeBody_keeps _ _) (by rfl) h

theorem execLoopMode_tick {tk : Nat} (c : Cmd) (s : State) (h : timeFrom tk s) :
    OutInv (timeFrom tk) (execLoopMode c s) := by
  unfold execLoopMode
  refine OutInv.ends reelObserve_tick ?_
  refine Inv.runCmd (Q := timeFrom tk) goodPacket_tick answer_tick ?_ fun x0 _ h1 => ?_
  · exact h
  · exact loopModeBody_tick _ _ h1

/-! ### Machine/Belay.lean -/

theorem execBelayClockCheck_tick {tk : Nat} (count : Nat) (s : State) (h : timeFrom tk s) :
    OutInv (timeFrom tk) (execBelayClockCheck count s) := by
  unfold execBelayClockCheck
  extract_lets y0 y1
  clear_value y0
  refine Inv.cut (Q := timeFrom tk) (s := y1) ?_ fun h30 => ?_
  · unfold y1
    exact timeFrom.keep (updBelay_keeps _ _) (by rfl) h
  clear_value y1
  refine OutInv.ite ?_ ?_
  · refine OutInv.ends reelObserve_tick ?_
    refine Inv.ite (Q := timeFrom tk) ?_ ?_
    · exact timeFrom.keep (internalPass_keeps _ _) (by rfl) h30
    · exact timeFrom.keep (internalFail_keeps _ _) (by rfl) h30
  · exact OutInv.ends reelObserve_tick h

theorem execBelayReset_tick {tk : Nat} (low : Bool) (rc : Nat) (s : State) (h : timeFrom tk s) :
    OutInv (timeFrom tk) (execBelayReset s low rc) := by
  unfold execBelayReset
  extract_lets y0
  refine Inv.cut (Q := timeFrom tk) (s := y0) ?_ fun h30 => ?_
  · unfold y0
    exact timeFrom.keep (internalFail_keeps _ _) (by rfl) h
  clear_value y0
  refine OutInv.ite ?_ ?_
  · exact OutInv.ends reelObserve_tick (timeFrom.keep (updBelay_keeps _ _) (by rfl) h30)
  · refine OutInv.ite ?_ ?_
    · exact OutInv.ends reelObserve_tick (timeFrom.keep (updBelay_keeps _ _) (by rfl) h)
    · exact OutInv.ends reelObserve_tick h

theorem execBelayResetRelease_tick {tk : Nat} (ok : Nat) (rc : Nat) (s : State) (h : timeFrom tk s) :
    OutInv (timeFrom tk) (execBelayResetRelease s ok rc) := by
  unfold execBelayResetRelease
  extract_lets y0
  refine Inv.cut (Q := timeFrom tk) (s := y0) ?_ fun h30 => ?_
  · unfold y0
    exact timeFrom.keep (internalPass_keeps _ _) (by rfl) (timeFrom.keep (belayLatch_keeps _ _) (by rfl) h)
  clear_value y0
  refine OutInv.ite ?_ ?_
  · exact OutInv.ends reelObserve_tick (timeFrom.keep (updBelay_keeps _ _) (by rfl) h30)
  · exact OutInv.ends reelObserve_tick h

theorem execBelaySramError_tick {tk : Nat} (s : State) (h : timeFrom tk s) :
    OutInv (timeFrom tk) (execBelaySramError s) := by
  unfold execBelaySramError
  refine OutInv.ite ?_ ?_
  · exact OutInv.ends reelObserve_tick (timeFrom.keep (internalFail_keeps _ _) (by rfl) h)
  · exact OutInv.ends reelObserve_tick h

theorem execFdcStaleTimeout_tick {tk : Nat} (current : Bool) (s : State) (h : timeFrom tk s) :
    OutInv (timeFrom tk) (execFdcStaleTimeout current s) := by
  unfold execFdcStaleTimeout
  extract_lets y0 y1 y2 y3 y4
  clear_value y0 y1 y3
  refine Inv.cut (Q := timeFrom tk) (s := y4) ?_ fun h30 => ?_
  · unfold y4
    exact advanceTo_tick _ _ h
  clear_value y4
  refine OutInv.ite ?_ ?_
  · exact OutInv.ends reelObserve_tick (timeFrom.keep (raiseBelay_keeps _ _ _ _) (by rfl) h30)
  · exact OutInv.ends reelObserve_tick h

theorem execHeartbeatTimeout_tick {tk : Nat} (s : State) (h : timeFrom tk s) :
    OutInv (timeFrom tk) (execHeartbeatTimeout s) := by
  unfold execHeartbeatTimeout
  extract_lets y0
  refine Inv.cut (Q := timeFrom tk) (s := y0) ?_ fun h30 => ?_
  · unfold y0
    exact advanceTo_tick _ _ h
  clear_value y0
  refine OutInv.ite ?_ ?_
  · exact OutInv.ends reelObserve_tick (timeFrom.keep (raiseBelay_keeps _ _ _ _) (by rfl) h30)
  · exact OutInv.ends reelObserve_tick h

theorem execSafetySessionTimeout_tick {tk : Nat} (s : State) (h : timeFrom tk s) :
    OutInv (timeFrom tk) (execSafetySessionTimeout s) := by
  unfold execSafetySessionTimeout
  refine OutInv.ite ?_ ?_
  · exact OutInv.ends reelObserve_tick (timeFrom.keep (sessionEnd_keeps _) (by rfl) (advanceTo_tick _ _ h))
  · exact OutInv.ends reelObserve_tick h

theorem execSrstStuck_tick {tk : Nat} (s : State) (h : timeFrom tk s) :
    OutInv (timeFrom tk) (execSrstStuck s) := by
  unfold execSrstStuck
  split
  · extract_lets y30
    refine Inv.cut (Q := timeFrom tk) (s := y30) ?_ fun h60 => ?_
    · unfold y30
      exact advanceTo_tick _ _ h
    clear_value y30
    refine OutInv.ite ?_ ?_
    · exact OutInv.ends reelObserve_tick (timeFrom.keep (srstHeld_keeps _) (by rfl) h60)
    · exact OutInv.ends reelObserve_tick h
  · exact OutInv.ends reelObserve_tick h

theorem execTestPulseEnd_tick {tk : Nat} (output : Fin 4) (s : State) (h : timeFrom tk s) :
    OutInv (timeFrom tk) (execTestPulseEnd output s) := by
  unfold execTestPulseEnd
  extract_lets y0 y1 y2
  clear_value y0 y1
  refine Inv.cut (Q := timeFrom tk) (s := y2) ?_ fun h30 => ?_
  · unfold y2
    exact advanceTo_tick _ _ h
  clear_value y2
  refine OutInv.ite ?_ ?_
  · exact OutInv.ends reelObserve_tick (timeFrom.keep (updBelay_keeps _ _) (by rfl) h30)
  · exact OutInv.ends reelObserve_tick h

theorem execTestPulseStart_tick {tk : Nat} (output : Fin 4) (s : State) (h : timeFrom tk s) :
    OutInv (timeFrom tk) (execTestPulseStart output s) := by
  unfold execTestPulseStart
  extract_lets y0 y1 y2
  clear_value y0
  refine Inv.cut (Q := timeFrom tk) (s := y1) ?_ fun h30 => ?_
  · unfold y1
    exact advanceTo_tick _ _ h
  clear_value y1
  refine Inv.cut (Q := timeFrom tk) (s := y2) ?_ fun h31 => ?_
  · unfold y2
    exact timeFrom.keep (updBelay_keeps _ _) (by rfl) h30
  clear_value y2
  refine OutInv.ite ?_ ?_
  · refine OutInv.ends reelObserve_tick ?_
    refine Inv.foldl (Q := timeFrom tk) ?_ fun x122 a123 h124 => ?_
    · exact h31
    · extract_lets y125
      clear_value y125
      exact timeFrom.keep (updSi_keeps _ _ _) (by rfl) h124
  · exact OutInv.ends reelObserve_tick h

theorem execUnlockBackoffEnd_tick {tk : Nat} (s : State) (h : timeFrom tk s) :
    OutInv (timeFrom tk) (execUnlockBackoffEnd s) := by
  unfold execUnlockBackoffEnd
  split
  · exact OutInv.ends reelObserve_tick (timeFrom.keep (updBelay_keeps _ _) (by rfl) (advanceTo_tick _ _ h))
  · exact OutInv.ends reelObserve_tick h

theorem gridNext_tick {tk : Nat} (s : State) (h : timeFrom tk s) :
    timeFrom tk (gridNext s) := by
  unfold gridNext
  extract_lets y0
  refine Inv.cut (Q := timeFrom tk) (s := y0) ?_ fun h30 => ?_
  · unfold y0
    split
    · exact advanceTo_tick _ _ h
    · exact h
  clear_value y0
  exact timeFrom.keep (updBelay_keeps _ _) (by rfl) h30

theorem safetyLockBody_tick {tk : Nat} (a : Cmd) (s : State) (h : timeFrom tk s) :
    ResInv (timeFrom tk) (safetyLockBody a s) := by
  exact timeFrom.res (safetyLockBody_keeps _ _) (by rfl) h

theorem safetyLogReadBody_tick {tk : Nat} (c : Cmd) (s : State) (h : timeFrom tk s) :
    ResInv (timeFrom tk) (safetyLogReadBody c s) := by
  exact timeFrom.res (safetyLogReadBody_keeps _ _) (by rfl) h

theorem safetyUnlockBody_tick {tk : Nat} (c : Cmd) (s : State) (h : timeFrom tk s) :
    ResInv (timeFrom tk) (safetyUnlockBody c s) := by
  exact timeFrom.res (safetyUnlockBody_keeps _ _) (by rfl) h

theorem safetyWriteBody_tick {tk : Nat} (c : Cmd) (s : State) (h : timeFrom tk s) :
    ResInv (timeFrom tk) (safetyWriteBody c s) := by
  exact timeFrom.res (safetyWriteBody_keeps _ _) (by rfl) h

theorem execBelaySample_tick {tk : Nat} (a : BitVec 8) (b : BitVec 8) (srstHigh : Bool) (tripA : Bool) (tripB : Bool)
      (injection : Bool) (s : State) (h : timeFrom tk s) :
    OutInv (timeFrom tk) (execBelaySample a b srstHigh tripA tripB injection s) := by
  unfold execBelaySample
  extract_lets y0 y1 y2
  refine Inv.cut (Q := timeFrom tk) (s := y0) ?_ fun h30 => ?_
  · unfold y0
    refine timeFrom.keep (internalPass_keeps _ _) (by rfl) ?_
    exact timeFrom.keep (tripBack_keeps _ _ _) (by rfl) (gridNext_tick _ h)
  clear_value y0
  refine Inv.cut (Q := timeFrom tk) (s := y1) ?_ fun h31 => ?_
  · unfold y1
    exact timeFrom.keep (updBelay_keeps _ _) (by rfl) h30
  clear_value y1
  refine Inv.cut (Q := timeFrom tk) (s := y2) ?_ fun h32 => ?_
  · unfold y2
    refine Inv.foldl (Q := timeFrom tk) ?_ fun x33 a34 h35 => ?_
    · exact h31
    · exact timeFrom.keep (siSample_keeps _ _ _ _) (by rfl) h35
  clear_value y2
  refine OutInv.ite ?_ ?_
  · exact OutInv.ends reelObserve_tick (timeFrom.keep (srstSample_keeps _ _ _) (by rfl) h32)
  · exact OutInv.ends reelObserve_tick h

theorem execSafetyLock_tick {tk : Nat} (c : Cmd) (s : State) (h : timeFrom tk s) :
    OutInv (timeFrom tk) (execSafetyLock c s) := by
  unfold execSafetyLock
  refine OutInv.ends reelObserve_tick ?_
  refine Inv.runCmd (Q := timeFrom tk) goodPacket_tick answer_tick ?_ fun x0 _ h1 => ?_
  · exact h
  · exact safetyLockBody_tick _ _ h1

theorem execSafetyLogRead_tick {tk : Nat} (c : Cmd) (s : State) (h : timeFrom tk s) :
    OutInv (timeFrom tk) (execSafetyLogRead c s) := by
  unfold execSafetyLogRead
  refine OutInv.ends reelObserve_tick ?_
  refine Inv.runCmd (Q := timeFrom tk) goodPacket_tick answer_tick ?_ fun x0 _ h1 => ?_
  · exact h
  · exact safetyLogReadBody_tick _ _ h1

theorem execSafetyUnlock_tick {tk : Nat} (c : Cmd) (s : State) (h : timeFrom tk s) :
    OutInv (timeFrom tk) (execSafetyUnlock c s) := by
  unfold execSafetyUnlock
  refine OutInv.ends reelObserve_tick ?_
  refine Inv.runCmd (Q := timeFrom tk) goodPacket_tick answer_tick ?_ fun x0 _ h1 => ?_
  · exact h
  · exact safetyUnlockBody_tick _ _ h1

theorem execSafetyWrite_tick {tk : Nat} (c : Cmd) (s : State) (h : timeFrom tk s) :
    OutInv (timeFrom tk) (execSafetyWrite c s) := by
  unfold execSafetyWrite
  refine OutInv.ends reelObserve_tick ?_
  refine Inv.runCmd (Q := timeFrom tk) goodPacket_tick answer_tick ?_ fun x0 _ h1 => ?_
  · exact h
  · exact safetyWriteBody_tick _ _ h1

/-! ### Machine/Frames.lean -/

theorem execCellSilenceSuspect_tick {tk : Nat} (cell : Fin 3072) (s : State) (h : timeFrom tk s) :
    OutInv (timeFrom tk) (execCellSilenceSuspect cell s) := by
  unfold execCellSilenceSuspect
  refine OutInv.clocked ?_ ?_
  · exact h
  · refine OutInv.ends reelObserve_tick ?_
    refine Inv.ite (Q := timeFrom tk) ?_ ?_
    · exact timeFrom.keep (silenceAt_keeps _ _ _) (by rfl) h
    · refine Inv.atMark (Q := timeFrom tk) advanceTo_tick ?_ fun x0 h1 => ?_
      · exact h
      · exact timeFrom.keep (silenceAt_keeps _ _ _) (by rfl) h1

theorem execUpstreamFrame_tick {tk : Nat} (frame : UpFrame) (s : State) (h : timeFrom tk s) :
    OutInv (timeFrom tk) (execUpstreamFrame frame s) := by
  unfold execUpstreamFrame
  extract_lets y0 y1
  clear_value y0 y1
  refine OutInv.clocked ?_ ?_
  · exact h
  · refine OutInv.ends reelObserve_tick ?_
    refine Inv.ite (Q := timeFrom tk) ?_ ?_
    · exact h
    · refine Inv.ite (Q := timeFrom tk) ?_ ?_
      · exact h
      · refine Inv.ite (Q := timeFrom tk) ?_ ?_
        · exact timeFrom.keep (usAccept_keeps _ _ _) (by rfl) h
        · exact timeFrom.keep (usLost_keeps _ _) (by rfl) h

theorem usDeadline_tick {tk : Nat} (s : State) (l : Nat) (h : timeFrom tk s) :
    timeFrom tk (usDeadline s l) := by
  unfold usDeadline
  extract_lets y0 y1
  clear_value y0 y1
  refine Inv.ite (Q := timeFrom tk) ?_ ?_
  · exact h
  · refine Inv.ite (Q := timeFrom tk) ?_ ?_
    · exact timeFrom.keep (usLost_keeps _ _) (by rfl) (advanceTo_tick _ _ h)
    · exact timeFrom.keep (usLost_keeps _ _) (by rfl) h

theorem execUpstreamFrameDeadline_tick {tk : Nat} (lane : Fin 64) (s : State) (h : timeFrom tk s) :
    OutInv (timeFrom tk) (execUpstreamFrameDeadline lane s) := by
  unfold execUpstreamFrameDeadline
  refine OutInv.clocked ?_ ?_
  · exact h
  · exact OutInv.ends reelObserve_tick (usDeadline_tick _ _ h)

theorem periodEnd_tick {tk : Nat} (s : State) (h : timeFrom tk s) :
    timeFrom tk (periodEnd s) := by
  unfold periodEnd
  extract_lets y0 y1
  refine Inv.cut (Q := timeFrom tk) (s := y0) ?_ fun h30 => ?_
  · unfold y0
    refine Inv.foldl (Q := timeFrom tk) ?_ fun x31 a32 h33 => ?_
    · refine Inv.foldl (Q := timeFrom tk) ?_ fun x34 a35 h36 => ?_
      · exact h
      · exact usDeadline_tick _ _ h36
    · exact usDeadline_tick _ _ h33
  clear_value y0
  refine Inv.cut (Q := timeFrom tk) (s := y1) ?_ fun h37 => ?_
  · unfold y1
    exact advanceTo_tick _ _ h30
  clear_value y1
  refine Inv.foldl (Q := timeFrom tk) ?_ fun x38 a39 h40 => ?_
  · exact h37
  · exact timeFrom.keep (silenceAt_keeps _ _ _) (by rfl) h40

/-! ### Machine/Meas.lean -/

theorem adcCalBody_tick {tk : Nat} (op : Nat) (full : Bool) (c : Cmd) (s : State) (h : timeFrom tk s) :
    ResInv (timeFrom tk) (adcCalBody op full c s) := by
  exact timeFrom.res (adcCalBody_keeps _ _ _ _) (by rfl) h

theorem adcInjectBody_tick {tk : Nat} (c : Cmd) (s : State) (h : timeFrom tk s) :
    ResInv (timeFrom tk) (adcInjectBody c s) := by
  exact timeFrom.res (adcInjectBody_keeps _ _) (by rfl) h

theorem convWake_tick {tk : Nat} (s : State) (a : Nat) (h : timeFrom tk s) :
    timeFrom tk (convWake s a) := by
  unfold convWake
  split
  · refine Inv.ite (Q := timeFrom tk) ?_ ?_
    · exact h
    · refine Inv.ite (Q := timeFrom tk) ?_ ?_
      · exact timeFrom.keep (pathWake_keeps _ _) (by rfl) h
      · exact timeFrom.keep (adcKick_keeps _ _) (by rfl) (advanceTo_tick _ _ h)
  · exact h

theorem decSyncBody_tick {tk : Nat} (a : Cmd) (s : State) (h : timeFrom tk s) :
    ResInv (timeFrom tk) (decSyncBody a s) := by
  exact timeFrom.res (decSyncBody_keeps _ _) (by rfl) h

theorem execAdcCalFull_tick {tk : Nat} (c : Cmd) (s : State) (h : timeFrom tk s) :
    OutInv (timeFrom tk) (execAdcCalFull c s) := by
  unfold execAdcCalFull
  refine OutInv.ends reelObserve_tick ?_
  refine Inv.runCmd (Q := timeFrom tk) goodPacket_tick answer_tick ?_ fun x0 _ h1 => ?_
  · exact h
  · exact adcCalBody_tick _ _ _ _ h1

theorem execAdcCalFullDone_tick {tk : Nat} (adc : Fin 2) (s : State) (h : timeFrom tk s) :
    OutInv (timeFrom tk) (execAdcCalFullDone adc s) := by
  unfold execAdcCalFullDone
  extract_lets y0 y1
  clear_value y0 y1
  refine OutInv.clocked ?_ ?_
  · exact h
  · split
    · exact OutInv.ends reelObserve_tick h
    · extract_lets y90 y91
      clear_value y90 y91
      exact OutInv.ends reelObserve_tick (timeFrom.keep (calEnd_keeps _ _ _ _ _ _ _ _) (by rfl) h)

theorem execAdcCalZero_tick {tk : Nat} (c : Cmd) (s : State) (h : timeFrom tk s) :
    OutInv (timeFrom tk) (execAdcCalZero c s) := by
  unfold execAdcCalZero
  refine OutInv.ends reelObserve_tick ?_
  refine Inv.runCmd (Q := timeFrom tk) goodPacket_tick answer_tick ?_ fun x0 _ h1 => ?_
  · exact h
  · exact adcCalBody_tick _ _ _ _ h1

theorem execAdcCalZeroDone_tick {tk : Nat} (adc : Fin 2) (s : State) (h : timeFrom tk s) :
    OutInv (timeFrom tk) (execAdcCalZeroDone adc s) := by
  unfold execAdcCalZeroDone
  extract_lets y0
  clear_value y0
  refine OutInv.clocked ?_ ?_
  · exact h
  · split
    · exact OutInv.ends reelObserve_tick h
    · extract_lets y90
      clear_value y90
      exact OutInv.ends reelObserve_tick (timeFrom.keep (calEnd_keeps _ _ _ _ _ _ _ _) (by rfl) h)

theorem execAdcConversionEnd_tick {tk : Nat} (adc : Fin 2) (raw : BitVec 16) (s : State) (h : timeFrom tk s) :
    OutInv (timeFrom tk) (execAdcConversionEnd adc raw s) := by
  unfold execAdcConversionEnd
  extract_lets y0 y1 y2
  clear_value y0 y1
  refine Inv.cut (Q := timeFrom tk) (s := y2) ?_ fun h30 => ?_
  · unfold y2
    exact convWake_tick _ _ h
  clear_value y2
  refine OutInv.clocked ?_ ?_
  · exact h
  · split
    · exact OutInv.ends reelObserve_tick h30
    · extract_lets y91 y92 y93 y94
      refine Inv.cut (Q := timeFrom tk) (s := y91) ?_ fun h121 => ?_
      · unfold y91
        exact advanceTo_tick _ _ h30
      clear_value y91
      refine Inv.cut (Q := timeFrom tk) (s := y92) ?_ fun h122 => ?_
      · unfold y92
        exact timeFrom.keep (updAdc_keeps _ _ _) (by rfl) h121
      clear_value y92
      refine Inv.cut (Q := timeFrom tk) (s := y93) ?_ fun h123 => ?_
      · unfold y93
        split
        · exact h122
        · refine Inv.ite (Q := timeFrom tk) ?_ ?_
          · exact timeFrom.keep (fdcResult_keeps _ _ _) (by rfl) h122
          · exact h122
      clear_value y93
      refine Inv.cut (Q := timeFrom tk) (s := y94) ?_ fun h124 => ?_
      · unfold y94
        split
        · exact timeFrom.keep (regConverted_keeps _ _ _ _) (by rfl) h123
        · exact timeFrom.keep (injConverted_keeps _ _ _ _ _) (by rfl) h123
        · exact timeFrom.keep (updAdc_keeps _ _ _) (by rfl) h123
        · exact timeFrom.keep (pathConverted_keeps _ _) (by rfl) h123
      clear_value y94
      exact OutInv.ends reelObserve_tick (timeFrom.keep (adcKick_keeps _ _) (by rfl) h124)

theorem execAdcInject_tick {tk : Nat} (c : Cmd) (s : State) (h : timeFrom tk s) :
    OutInv (timeFrom tk) (execAdcInject c s) := by
  unfold execAdcInject
  refine OutInv.ends reelObserve_tick ?_
  refine Inv.runCmd (Q := timeFrom tk) goodPacket_tick answer_tick ?_ fun x0 _ h1 => ?_
  · exact h
  · exact adcInjectBody_tick _ _ h1

theorem execAdcSequenceTrigger_tick {tk : Nat} (adc : Fin 2) (seq : Fin 9) (s : State) (h : timeFrom tk s) :
    OutInv (timeFrom tk) (execAdcSequenceTrigger adc seq s) := by
  unfold execAdcSequenceTrigger
  extract_lets y0
  clear_value y0
  refine OutInv.clocked ?_ ?_
  · exact h
  · split
    · exact OutInv.ends reelObserve_tick h
    · extract_lets y90 y91
      refine Inv.cut (Q := timeFrom tk) (s := y90) ?_ fun h120 => ?_
      · unfold y90
        exact advanceTo_tick _ _ h
      clear_value y90
      refine Inv.cut (Q := timeFrom tk) (s := y91) ?_ fun h121 => ?_
      · unfold y91
        exact timeFrom.keep (updAdc_keeps _ _ _) (by rfl) h120
      clear_value y91
      refine OutInv.ends reelObserve_tick ?_
      refine Inv.ite (Q := timeFrom tk) ?_ ?_
      · refine timeFrom.keep (injReply_keeps _ _ _) (by rfl) ?_
        exact timeFrom.keep (injTrigger_keeps _ _ _ _ _) (by rfl) h121
      · exact timeFrom.keep (regTrigger_keeps _ _ _) (by rfl) h121

theorem execDecSlot_tick {tk : Nat} (channel : Fin 16) (bits : List Bool) (s : State) (h : timeFrom tk s) :
    OutInv (timeFrom tk) (execDecSlot channel bits s) := by
  unfold execDecSlot
  extract_lets y0 y1 y2
  clear_value y0 y1
  refine Inv.cut (Q := timeFrom tk) (s := y2) ?_ fun h30 => ?_
  · unfold y2
    exact advanceTo_tick _ _ h
  clear_value y2
  refine OutInv.clocked ?_ ?_
  · exact h
  · refine OutInv.ite ?_ ?_
    · refine OutInv.ends reelObserve_tick ?_
      refine Inv.foldl (Q := timeFrom tk) ?_ fun x151 a152 h153 => ?_
      · exact h30
      · extract_lets y154
        refine Inv.cut (Q := timeFrom tk) (s := y154) ?_ fun h184 => ?_
        · unfold y154
          exact timeFrom.keep (decBit_keeps _ _ _) (by rfl) h153
        clear_value y154
        exact timeFrom.keep (stuckCheck_keeps _ _ _) (by rfl) h184
    · exact OutInv.ends reelObserve_tick h

theorem execDecStuck_tick {tk : Nat} (channel : Fin 16) (s : State) (h : timeFrom tk s) :
    OutInv (timeFrom tk) (execDecStuck channel s) := by
  unfold execDecStuck
  extract_lets y0
  clear_value y0
  refine OutInv.clocked ?_ ?_
  · exact h
  · refine OutInv.ends reelObserve_tick ?_
    refine Inv.ite (Q := timeFrom tk) ?_ ?_
    · exact timeFrom.keep (stuckCheck_keeps _ _ _) (by rfl) h
    · exact h

theorem execDecSync_tick {tk : Nat} (c : Cmd) (s : State) (h : timeFrom tk s) :
    OutInv (timeFrom tk) (execDecSync c s) := by
  unfold execDecSync
  refine OutInv.ends reelObserve_tick ?_
  refine Inv.runCmd (Q := timeFrom tk) goodPacket_tick answer_tick ?_ fun x0 _ h1 => ?_
  · exact h
  · exact decSyncBody_tick _ _ h1

theorem execDsyncFall_tick {tk : Nat} (s : State) (h : timeFrom tk s) :
    OutInv (timeFrom tk) (execDsyncFall s) := by
  unfold execDsyncFall
  extract_lets y0
  clear_value y0
  refine OutInv.clocked ?_ ?_
  · exact h
  · refine OutInv.ite ?_ ?_
    · refine OutInv.ends reelObserve_tick ?_
      exact timeFrom.keep (incP_keeps _ _ _) (by rfl) (timeFrom.keep (decSyncAt_keeps _ _) (by rfl) h)
    · exact OutInv.ends reelObserve_tick h

theorem execPathTestDone_tick {tk : Nat} (s : State) (h : timeFrom tk s) :
    OutInv (timeFrom tk) (execPathTestDone s) := by
  unfold execPathTestDone
  extract_lets y0
  refine Inv.cut (Q := timeFrom tk) (s := y0) ?_ fun h30 => ?_
  · unfold y0
    exact timeFrom.keep (updMeas_keeps _ _) (by rfl) h
  clear_value y0
  refine OutInv.clocked ?_ ?_
  · exact h
  · split
    · extract_lets y91 y92 y93
      clear_value y91 y92
      refine Inv.cut (Q := timeFrom tk) (s := y93) ?_ fun h121 => ?_
      · unfold y93
        exact timeFrom.keep (putN_keeps _ _ _ _) (by rfl) h30
      clear_value y93
      refine OutInv.ite ?_ ?_
      · refine OutInv.ends reelObserve_tick ?_
        refine Inv.ite (Q := timeFrom tk) ?_ ?_
        · exact timeFrom.keep (causeGone_keeps _ _ _) (by rfl) h121
        · exact timeFrom.keep (raiseFault_keeps _ _ _) (by rfl) h121
      · exact OutInv.ends reelObserve_tick h
    · exact OutInv.ends reelObserve_tick h

/-! ### Machine/Chopper.lean -/

theorem cmpSelftestBody_tick {tk : Nat} (c : Cmd) (s : State) (h : timeFrom tk s) :
    ResInv (timeFrom tk) (cmpSelftestBody c s) := by
  exact timeFrom.res (cmpSelftestBody_keeps _ _) (by rfl) h

theorem execChopBlankingEnd_tick {tk : Nat} (leg : Fin 4) (s : State) (h : timeFrom tk s) :
    OutInv (timeFrom tk) (execChopBlankingEnd leg s) := by
  unfold execChopBlankingEnd
  extract_lets y0 y1 y2
  clear_value y0 y1
  refine Inv.cut (Q := timeFrom tk) (s := y2) ?_ fun h30 => ?_
  · unfold y2
    refine Inv.ite (Q := timeFrom tk) ?_ ?_
    · exact h
    · exact advanceTo_tick _ _ h
  clear_value y2
  refine OutInv.clocked ?_ ?_
  · exact h
  · refine OutInv.ends reelObserve_tick ?_
    refine Inv.ite (Q := timeFrom tk) ?_ ?_
    · exact h30
    · exact timeFrom.keep (tripAct_keeps _ _) (by rfl) h30

theorem execChopCycleStart_tick {tk : Nat} (leg : Fin 4) (cmp : BitVec 4) (s : State) (h : timeFrom tk s) :
    OutInv (timeFrom tk) (execChopCycleStart leg cmp s) := by
  unfold execChopCycleStart
  extract_lets y0 y1 y2 y3
  clear_value y0 y3
  refine Inv.cut (Q := timeFrom tk) (s := y1) ?_ fun h30 => ?_
  · unfold y1
    exact advanceTo_tick _ _ h
  clear_value y1
  refine Inv.cut (Q := timeFrom tk) (s := y2) ?_ fun h31 => ?_
  · unfold y2
    exact timeFrom.keep (cmpLevels_keeps _ _) (by rfl) (timeFrom.keep (cycleStart_keeps _ _) (by rfl) h30)
  clear_value y2
  refine OutInv.clocked ?_ ?_
  · exact h
  · refine OutInv.ite ?_ ?_
    · refine OutInv.ends reelObserve_tick ?_
      refine Inv.ite (Q := timeFrom tk) ?_ ?_
      · exact timeFrom.keep (cycleStart_keeps _ _) (by rfl) h31
      · exact h31
    · exact OutInv.ends reelObserve_tick (timeFrom.keep (cmpLevels_keeps _ _) (by rfl) h30)

theorem execChopGateEdge_tick {tk : Nat} (leg : Fin 4) (edge : Fin 4) (cmp : BitVec 4) (s : State) (h : timeFrom tk
      s) :
    OutInv (timeFrom tk) (execChopGateEdge leg edge s cmp) := by
  unfold execChopGateEdge
  extract_lets y0
  refine Inv.cut (Q := timeFrom tk) (s := y0) ?_ fun h30 => ?_
  · unfold y0
    exact advanceTo_tick _ _ h
  clear_value y0
  refine OutInv.clocked ?_ ?_
  · exact h
  · refine OutInv.ends reelObserve_tick ?_
    exact timeFrom.keep (cmpLevels_keeps _ _) (by rfl) (timeFrom.keep (edgeAct_keeps _ _ _) (by rfl) h30)

theorem execChopScConfirm_tick {tk : Nat} (leg : Fin 4) (held : Nat) (s : State) (h : timeFrom tk s) :
    OutInv (timeFrom tk) (execChopScConfirm leg s held) := by
  unfold execChopScConfirm
  extract_lets y0 y1 y2
  clear_value y0 y1
  refine Inv.cut (Q := timeFrom tk) (s := y2) ?_ fun h30 => ?_
  · unfold y2
    exact timeFrom.keep (updLeg_keeps _ _ _) (by rfl) h
  clear_value y2
  refine OutInv.clocked ?_ ?_
  · exact h
  · refine OutInv.ite ?_ ?_
    · exact OutInv.ends reelObserve_tick h
    · refine OutInv.ends reelObserve_tick ?_
      refine Inv.ite (Q := timeFrom tk) ?_ ?_
      · exact timeFrom.keep (scConfirm_keeps _ _) (by rfl) h30
      · exact h30

theorem execChopScWindowEnd_tick {tk : Nat} (cmp : BitVec 4) (s : State) (h : timeFrom tk s) :
    OutInv (timeFrom tk) (execChopScWindowEnd s cmp) := by
  unfold execChopScWindowEnd
  refine OutInv.clocked ?_ ?_
  · exact h
  · split
    · exact OutInv.ends reelObserve_tick (timeFrom.keep (cmpLevels_keeps _ _) (by rfl) h)
    · refine OutInv.ends reelObserve_tick ?_
      refine timeFrom.keep (cmpLevels_keeps _ _) (by rfl) ?_
      exact timeFrom.keep (scClose_keeps _) (by rfl) (advanceTo_tick _ _ h)

theorem execChopTripRecognised_tick {tk : Nat} (leg : Fin 4) (s : State) (h : timeFrom tk s) :
    OutInv (timeFrom tk) (execChopTripRecognised leg s) := by
  unfold execChopTripRecognised
  extract_lets y0 y1
  clear_value y0
  refine Inv.cut (Q := timeFrom tk) (s := y1) ?_ fun h30 => ?_
  · unfold y1
    exact timeFrom.keep (updLeg_keeps _ _ _) (by rfl) h
  clear_value y1
  refine OutInv.clocked ?_ ?_
  · exact h
  · refine OutInv.ends reelObserve_tick ?_
    refine Inv.ite (Q := timeFrom tk) ?_ ?_
    · exact h30
    · exact timeFrom.keep (tripAct_keeps _ _) (by rfl) h30

theorem execChopTripReleased_tick {tk : Nat} (leg : Fin 4) (s : State) (h : timeFrom tk s) :
    OutInv (timeFrom tk) (execChopTripReleased leg s) := by
  unfold execChopTripReleased
  extract_lets y0
  clear_value y0
  refine OutInv.clocked ?_ ?_
  · exact h
  · refine OutInv.ends reelObserve_tick ?_
    exact timeFrom.keep (causeGone_keeps _ _ _) (by rfl) (timeFrom.keep (updLeg_keeps _ _ _) (by rfl) h)

theorem execCmpSelftest_tick {tk : Nat} (c : Cmd) (s : State) (h : timeFrom tk s) :
    OutInv (timeFrom tk) (execCmpSelftest c s) := by
  unfold execCmpSelftest
  refine OutInv.ends reelObserve_tick ?_
  refine Inv.runCmd (Q := timeFrom tk) goodPacket_tick answer_tick ?_ fun x0 _ h1 => ?_
  · exact h
  · exact cmpSelftestBody_tick _ _ h1

theorem execCmpSelftestDone_tick {tk : Nat} (leg : Fin 4) (steps : BitVec 3) (s : State) (h : timeFrom tk s) :
    OutInv (timeFrom tk) (execCmpSelftestDone leg steps s) := by
  unfold execCmpSelftestDone
  extract_lets y0 y1
  clear_value y0 y1
  refine OutInv.clocked ?_ ?_
  · exact h
  · split
    · exact OutInv.ends reelObserve_tick h
    · extract_lets y90 y91
      refine Inv.cut (Q := timeFrom tk) (s := y90) ?_ fun h120 => ?_
      · unfold y90
        exact advanceTo_tick _ _ h
      clear_value y90
      refine Inv.cut (Q := timeFrom tk) (s := y91) ?_ fun h121 => ?_
      · unfold y91
        exact timeFrom.keep (updLeg_keeps _ _ _) (by rfl) h120
      clear_value y91
      exact OutInv.ends reelObserve_tick (timeFrom.keep (completeOk_keeps _ _ _) (by rfl) h121)

theorem execGateSupplyNotOk_tick {tk : Nat} (leg : Fin 4) (low : Bool) (s : State) (h : timeFrom tk s) :
    OutInv (timeFrom tk) (execGateSupplyNotOk leg low s) := by
  unfold execGateSupplyNotOk
  extract_lets y0 y1
  clear_value y0
  refine Inv.cut (Q := timeFrom tk) (s := y1) ?_ fun h30 => ?_
  · unfold y1
    exact timeFrom.keep (updLeg_keeps _ _ _) (by rfl) h
  clear_value y1
  refine OutInv.clocked ?_ ?_
  · exact h
  · refine OutInv.ends reelObserve_tick ?_
    refine Inv.ite (Q := timeFrom tk) ?_ ?_
    · exact timeFrom.keep (gsAct_keeps _ _) (by rfl) h30
    · exact h30

theorem execGateSupplyOk_tick {tk : Nat} (leg : Fin 4) (low : Bool) (s : State) (h : timeFrom tk s) :
    OutInv (timeFrom tk) (execGateSupplyOk leg low s) := by
  unfold execGateSupplyOk
  extract_lets y0 y1
  clear_value y0
  refine Inv.cut (Q := timeFrom tk) (s := y1) ?_ fun h30 => ?_
  · unfold y1
    exact timeFrom.keep (updLeg_keeps _ _ _) (by rfl) h
  clear_value y1
  refine OutInv.clocked ?_ ?_
  · exact h
  · refine OutInv.ends reelObserve_tick ?_
    refine Inv.ite (Q := timeFrom tk) ?_ ?_
    · exact timeFrom.keep (causeGone_keeps _ _ _) (by rfl) h30
    · exact h30

/-! ### Machine/PeriodMark.lean -/

theorem nextMark_tick {tk : Nat} (s : State) (p0 : List Nat) (p1 : List Nat) (h : timeFrom tk s) :
    timeFrom tk (nextMark s p0 p1) := by
  unfold nextMark
  extract_lets y0 y1
  clear_value y0
  refine Inv.cut (Q := timeFrom tk) (s := y1) ?_ fun h30 => ?_
  · unfold y1
    exact timeFrom.keep (countMark_keeps _) (by rfl) (periodEnd_tick _ h)
  clear_value y1
  refine Inv.ite (Q := timeFrom tk) ?_ ?_
  · exact timeFrom.keep (powerNext_keeps _) (by rfl) (timeFrom.keep (leaveRun_keeps _) (by rfl) h30)
  · exact timeFrom.keep (markWork_keeps _ _ _ _) (by rfl) h30

theorem execPeriodMark_tick {tk : Nat} (pulse0 : List Nat) (pulse1 : List Nat) (s : State) (h : timeFrom tk s) :
    OutInv (timeFrom tk) (execPeriodMark pulse0 pulse1 s) := by
  unfold execPeriodMark
  refine OutInv.clocked ?_ ?_
  · exact h
  · refine OutInv.ends reelObserve_tick ?_
    refine Inv.ite (Q := timeFrom tk) ?_ ?_
    · exact nextMark_tick _ _ _ h
    · exact h

/-! ### Machine/Duplex.lean -/

theorem execDispatchResume_tick {tk : Nat} (s : State) (h : timeFrom tk s) :
    OutInv (timeFrom tk) (execDispatchResume s) := by
  unfold execDispatchResume
  extract_lets y0 y1
  refine Inv.cut (Q := timeFrom tk) (s := y1) ?_ fun h30 => ?_
  · unfold y1
    exact timeFrom.eq (s := s) rfl h
  clear_value y1
  refine OutInv.clocked ?_ ?_
  · exact h
  · refine OutInv.ite ?_ ?_
    · exact OutInv.ends reelObserve_tick (timeFrom.keep (resumeAt_keeps _ _) (by rfl) h)
    · exact OutInv.ends reelObserve_tick h

theorem execPeerDataFrame_tick {tk : Nat} (frame : PeerData) (s : State) (h : timeFrom tk s) :
    OutInv (timeFrom tk) (execPeerDataFrame frame s) := by
  unfold execPeerDataFrame
  extract_lets y0 y1 y2 y3
  clear_value y0
  refine Inv.cut (Q := timeFrom tk) (s := y1) ?_ fun h30 => ?_
  · unfold y1
    exact timeFrom.keep (slewCell_keeps _ _) (by rfl) h
  clear_value y1
  refine Inv.cut (Q := timeFrom tk) (s := y2) ?_ fun h31 => ?_
  · unfold y2
    refine Inv.ite (Q := timeFrom tk) ?_ ?_
    · exact timeFrom.keep (slewMark_keeps _ _) (by rfl) h30
    · exact h30
  clear_value y2
  refine Inv.cut (Q := timeFrom tk) (s := y3) ?_ fun h32 => ?_
  · unfold y3
    refine Inv.ite (Q := timeFrom tk) ?_ ?_
    · exact timeFrom.keep (updDup_keeps _ _) (by rfl) h31
    · exact h
  clear_value y3
  refine OutInv.clocked ?_ ?_
  · exact h
  · refine OutInv.ite ?_ ?_
    · exact OutInv.ends reelObserve_tick h
    · refine OutInv.ite ?_ ?_
      · exact OutInv.ends reelObserve_tick (timeFrom.keep (laneError_keeps _ _) (by rfl) h)
      · refine OutInv.ite ?_ ?_
        · exact OutInv.ends reelObserve_tick h
        · exact OutInv.ends reelObserve_tick (timeFrom.keep (peerDigests_keeps _ _) (by rfl) h32)

theorem execPeerHeartbeat_tick {tk : Nat} (header : PeerHeader) (crc : Word) (s : State) (h : timeFrom tk s) :
    OutInv (timeFrom tk) (execPeerHeartbeat header s crc) := by
  unfold execPeerHeartbeat
  extract_lets y0 y1
  clear_value y0 y1
  refine OutInv.clocked ?_ ?_
  · exact h
  · refine OutInv.ite ?_ ?_
    · exact OutInv.ends reelObserve_tick h
    · refine OutInv.ite ?_ ?_
      · exact OutInv.ends reelObserve_tick (timeFrom.keep (laneError_keeps _ _) (by rfl) h)
      · refine OutInv.ite ?_ ?_
        · exact OutInv.ends reelObserve_tick h
        · refine OutInv.ite ?_ ?_
          · exact OutInv.ends reelObserve_tick (timeFrom.keep (updDup_keeps _ _) (by rfl) h)
          · exact OutInv.ends reelObserve_tick (timeFrom.keep (updDup_keeps _ _) (by rfl) h)

theorem execResumeTimeout_tick {tk : Nat} (s : State) (h : timeFrom tk s) :
    OutInv (timeFrom tk) (execResumeTimeout s) := by
  unfold execResumeTimeout
  refine OutInv.clocked ?_ ?_
  · exact h
  · refine OutInv.ite ?_ ?_
    · refine OutInv.ends reelObserve_tick ?_
      refine Inv.atMark (Q := timeFrom tk) advanceTo_tick ?_ fun x0 h1 => ?_
      · exact h
      · refine Inv.ite (Q := timeFrom tk) ?_ ?_
        · exact h1
        · exact timeFrom.keep (raiseFault_keeps _ _ _) (by rfl) (timeFrom.keep (updDup_keeps _ _) (by rfl) h1)
    · exact OutInv.ends reelObserve_tick h

theorem execTakeoverWindowEnd_tick {tk : Nat} (s : State) (h : timeFrom tk s) :
    OutInv (timeFrom tk) (execTakeoverWindowEnd s) := by
  unfold execTakeoverWindowEnd
  extract_lets y0
  clear_value y0
  refine OutInv.clocked ?_ ?_
  · exact h
  · refine OutInv.ite ?_ ?_
    · split
      · refine OutInv.ends reelObserve_tick ?_
        refine Inv.atMark (Q := timeFrom tk) advanceTo_tick ?_ fun x30 h31 => ?_
        · exact h
        · exact timeFrom.keep (windowEndAt_keeps _ _) (by rfl) h31
      · refine OutInv.ends reelObserve_tick ?_
        refine Inv.atMark (Q := timeFrom tk) advanceTo_tick ?_ fun x32 h33 => ?_
        · exact h
        · exact timeFrom.keep (windowEndAt_keeps _ _) (by rfl) h33
      · exact OutInv.ends reelObserve_tick h
    · exact OutInv.ends reelObserve_tick h

theorem switchbackBody_tick {tk : Nat} (c : Cmd) (s : State) (h : timeFrom tk s) :
    ResInv (timeFrom tk) (switchbackBody c s) := by
  exact timeFrom.res (switchbackBody_keeps _ _) (by rfl) h

theorem takeoverBody_tick {tk : Nat} (c : Cmd) (s : State) (h : timeFrom tk s) :
    ResInv (timeFrom tk) (takeoverBody c s) := by
  exact timeFrom.res (takeoverBody_keeps _ _) (by rfl) h

theorem execSwitchback_tick {tk : Nat} (c : Cmd) (s : State) (h : timeFrom tk s) :
    OutInv (timeFrom tk) (execSwitchback c s) := by
  unfold execSwitchback
  refine OutInv.ends reelObserve_tick ?_
  refine Inv.runCmd (Q := timeFrom tk) goodPacket_tick answer_tick ?_ fun x0 _ h1 => ?_
  · exact h
  · exact switchbackBody_tick _ _ h1

theorem execTakeover_tick {tk : Nat} (c : Cmd) (s : State) (h : timeFrom tk s) :
    OutInv (timeFrom tk) (execTakeover c s) := by
  unfold execTakeover
  refine OutInv.ends reelObserve_tick ?_
  refine Inv.runCmd (Q := timeFrom tk) goodPacket_tick answer_tick ?_ fun x0 _ h1 => ?_
  · exact h
  · exact takeoverBody_tick _ _ h1

/-! ### Machine/Fairlead.lean -/

theorem execFwPatchDone_tick {tk : Nat} (s : State) (h : timeFrom tk s) :
    OutInv (timeFrom tk) (execFwPatchDone s) := by
  unfold execFwPatchDone
  refine OutInv.clocked ?_ ?_
  · exact h
  · refine OutInv.ends reelObserve_tick ?_
    split
    · exact h
    · exact timeFrom.keep (patchEnd_keeps _ _) (by rfl) h

theorem execStrandSramError_tick {tk : Nat} (strand : Fin 8) (corrected : Bool) (s : State) (h : timeFrom tk s) :
    OutInv (timeFrom tk) (execStrandSramError strand s corrected) := by
  unfold execStrandSramError
  refine OutInv.clocked ?_ ?_
  · exact h
  · refine OutInv.ends reelObserve_tick ?_
    refine Inv.ite (Q := timeFrom tk) ?_ ?_
    · exact timeFrom.keep (incP_keeps _ _ _) (by rfl) h
    · exact timeFrom.keep (stopTask_keeps _ _ _) (by rfl) h

theorem execTaskDeadline_tick {tk : Nat} (slot : Fin 256) (s : State) (h : timeFrom tk s) :
    OutInv (timeFrom tk) (execTaskDeadline slot s) := by
  unfold execTaskDeadline
  refine OutInv.clocked ?_ ?_
  · exact h
  · refine OutInv.ends reelObserve_tick ?_
    split
    · exact h
    · refine Inv.atMark (Q := timeFrom tk) advanceTo_tick ?_ fun x0 h1 => ?_
      · exact h
      · exact timeFrom.keep (abandonTask_keeps _ _) (by rfl) h1

theorem execTaskPlace_tick {tk : Nat} (s : State) (h : timeFrom tk s) :
    OutInv (timeFrom tk) (execTaskPlace s) := by
  unfold execTaskPlace
  refine OutInv.clocked ?_ ?_
  · exact h
  · exact OutInv.ends reelObserve_tick (timeFrom.keep (placeTasks_keeps _) (by rfl) h)

theorem execTaskWatchdog_tick {tk : Nat} (strand : Fin 8) (s : State) (h : timeFrom tk s) :
    OutInv (timeFrom tk) (execTaskWatchdog strand s) := by
  unfold execTaskWatchdog
  refine OutInv.clocked ?_ ?_
  · exact h
  · refine OutInv.ends reelObserve_tick ?_
    split
    · exact h
    · exact timeFrom.keep (stopTask_keeps _ _ _) (by rfl) (advanceTo_tick _ _ h)

theorem fwPatchBody_tick {tk : Nat} (c : Cmd) (s : State) (h : timeFrom tk s) :
    ResInv (timeFrom tk) (fwPatchBody c s) := by
  exact timeFrom.res (fwPatchBody_keeps _ _) (by rfl) h

theorem taskCompleteAt_tick {tk : Nat} (s : State) (n : Nat) (h : timeFrom tk s) :
    timeFrom tk (taskCompleteAt s n) := by
  unfold taskCompleteAt
  split
  · exact h
  · extract_lets y30 y31
    clear_value y30
    refine Inv.cut (Q := timeFrom tk) (s := y31) ?_ fun h60 => ?_
    · unfold y31
      exact advanceTo_tick _ _ h
    clear_value y31
    refine Inv.ite (Q := timeFrom tk) ?_ ?_
    · exact timeFrom.keep (abandonTask_keeps _ _) (by rfl) h60
    · exact timeFrom.keep (taskDone_keeps _ _ _ _) (by rfl) h60

theorem traceReadBody_tick {tk : Nat} (c : Cmd) (s : State) (h : timeFrom tk s) :
    ResInv (timeFrom tk) (traceReadBody c s) := by
  exact timeFrom.res (traceReadBody_keeps _ _) (by rfl) h

theorem execFwPatch_tick {tk : Nat} (c : Cmd) (s : State) (h : timeFrom tk s) :
    OutInv (timeFrom tk) (execFwPatch c s) := by
  unfold execFwPatch
  refine OutInv.ends reelObserve_tick ?_
  refine Inv.runCmd (Q := timeFrom tk) goodPacket_tick answer_tick ?_ fun x0 _ h1 => ?_
  · exact h
  · exact fwPatchBody_tick _ _ h1

theorem execTaskComplete_tick {tk : Nat} (strand : Fin 8) (s : State) (h : timeFrom tk s) :
    OutInv (timeFrom tk) (execTaskComplete strand s) := by
  unfold execTaskComplete
  refine OutInv.clocked ?_ ?_
  · exact h
  · exact OutInv.ends reelObserve_tick (taskCompleteAt_tick _ _ h)

theorem execTraceRead_tick {tk : Nat} (c : Cmd) (s : State) (h : timeFrom tk s) :
    OutInv (timeFrom tk) (execTraceRead c s) := by
  unfold execTraceRead
  refine OutInv.ends reelObserve_tick ?_
  refine Inv.runCmd (Q := timeFrom tk) goodPacket_tick answer_tick ?_ fun x0 _ h1 => ?_
  · exact h
  · exact traceReadBody_tick _ _ h1

/-! ### Machine/Arms.lean -/

theorem armEnableBody_tick {tk : Nat} (c : Cmd) (s : State) (h : timeFrom tk s) :
    ResInv (timeFrom tk) (armEnableBody c s) := by
  exact timeFrom.res (armEnableBody_keeps _ _) (by rfl) h

theorem blockBody_tick {tk : Nat} (c : Cmd) (s : State) (h : timeFrom tk s) :
    ResInv (timeFrom tk) (blockBody c s) := by
  exact timeFrom.res (blockBody_keeps _ _) (by rfl) h

theorem deblockBody_tick {tk : Nat} (c : Cmd) (s : State) (h : timeFrom tk s) :
    ResInv (timeFrom tk) (deblockBody c s) := by
  exact timeFrom.res (deblockBody_keeps _ _) (by rfl) h

theorem execArmEnable_tick {tk : Nat} (c : Cmd) (s : State) (h : timeFrom tk s) :
    OutInv (timeFrom tk) (execArmEnable c s) := by
  unfold execArmEnable
  refine OutInv.ends reelObserve_tick ?_
  refine Inv.runCmd (Q := timeFrom tk) goodPacket_tick answer_tick ?_ fun x0 _ h1 => ?_
  · exact h
  · exact armEnableBody_tick _ _ h1

theorem execBlock_tick {tk : Nat} (c : Cmd) (s : State) (h : timeFrom tk s) :
    OutInv (timeFrom tk) (execBlock c s) := by
  unfold execBlock
  refine OutInv.ends reelObserve_tick ?_
  refine Inv.runCmd (Q := timeFrom tk) goodPacket_tick answer_tick ?_ fun x0 _ h1 => ?_
  · exact h
  · exact blockBody_tick _ _ h1

theorem execDeblock_tick {tk : Nat} (c : Cmd) (s : State) (h : timeFrom tk s) :
    OutInv (timeFrom tk) (execDeblock c s) := by
  unfold execDeblock
  refine OutInv.ends reelObserve_tick ?_
  refine Inv.runCmd (Q := timeFrom tk) goodPacket_tick answer_tick ?_ fun x0 _ h1 => ?_
  · exact h
  · exact deblockBody_tick _ _ h1

/-! ### Machine/Lanes.lean -/

theorem execBringupStageTimeout_tick {tk : Nat} (lane : Fin 66) (s : State) (h : timeFrom tk s) :
    OutInv (timeFrom tk) (execBringupStageTimeout lane s) := by
  unfold execBringupStageTimeout
  extract_lets y0 y1
  clear_value y0
  refine Inv.cut (Q := timeFrom tk) (s := y1) ?_ fun h30 => ?_
  · unfold y1
    exact advanceTo_tick _ _ h
  clear_value y1
  refine OutInv.clocked ?_ ?_
  · exact h
  · refine OutInv.ite ?_ ?_
    · exact OutInv.ends reelObserve_tick (timeFrom.keep (bringupFail_keeps _ _ _ _) (by rfl) h30)
    · exact OutInv.ends reelObserve_tick h

theorem execCapsDone_tick {tk : Nat} (lane : Fin 66) (hubGen : BitVec 2) (mask : BitVec 48) (cellGens : List (BitVec
      2)) (selectOk : Bool) (activePort : BitVec 2) (s : State) (h : timeFrom tk s) :
    OutInv (timeFrom tk) (execCapsDone lane hubGen mask cellGens selectOk activePort s) := by
  unfold execCapsDone
  extract_lets y0 y1 y2 y3
  clear_value y0 y1 y2 y3
  refine OutInv.clocked ?_ ?_
  · exact h
  · refine OutInv.ite ?_ ?_
    · exact OutInv.ends reelObserve_tick (timeFrom.keep (loopCaps_keeps _ _ _ _ _ _) (by rfl) h)
    · refine OutInv.ite ?_ ?_
      · exact OutInv.ends reelObserve_tick (timeFrom.keep (capsDone_keeps _ _ _ _ _ _ _) (by rfl) h)
      · exact OutInv.ends reelObserve_tick h

theorem execDetectDone_tick {tk : Nat} (lane : Fin 66) (rx : Rx) (s : State) (h : timeFrom tk s) :
    OutInv (timeFrom tk) (execDetectDone lane s rx) := by
  unfold execDetectDone
  extract_lets y0
  clear_value y0
  refine OutInv.clocked ?_ ?_
  · exact h
  · refine OutInv.ends reelObserve_tick ?_
    refine Inv.ite (Q := timeFrom tk) ?_ ?_
    · exact timeFrom.keep (toStage_keeps _ _ _ _) (by rfl) h
    · exact h

theorem execEyeScanDone_tick {tk : Nat} (points : List (BitVec 16)) (s : State) (h : timeFrom tk s) :
    OutInv (timeFrom tk) (execEyeScanDone points s) := by
  unfold execEyeScanDone
  refine OutInv.clocked ?_ ?_
  · exact h
  · split
    · exact OutInv.ends reelObserve_tick h
    · extract_lets y60 y61
      refine Inv.cut (Q := timeFrom tk) (s := y60) ?_ fun h90 => ?_
      · unfold y60
        exact advanceTo_tick _ _ h
      clear_value y60
      refine Inv.cut (Q := timeFrom tk) (s := y61) ?_ fun h91 => ?_
      · unfold y61
        exact timeFrom.keep (eyeStore_keeps _ _ _ _ _) (by rfl) h90
      clear_value y61
      exact OutInv.ends reelObserve_tick (timeFrom.keep (completeOk_keeps _ _ _) (by rfl) h91)

theorem execLaneErrorWindowEnd_tick {tk : Nat} (lane : Fin 66) (s : State) (h : timeFrom tk s) :
    OutInv (timeFrom tk) (execLaneErrorWindowEnd lane s) := by
  unfold execLaneErrorWindowEnd
  extract_lets y0 y1 y2 y3
  clear_value y0
  refine Inv.cut (Q := timeFrom tk) (s := y1) ?_ fun h30 => ?_
  · unfold y1
    exact advanceTo_tick _ _ h
  clear_value y1
  refine Inv.cut (Q := timeFrom tk) (s := y2) ?_ fun h31 => ?_
  · unfold y2
    refine Inv.ite (Q := timeFrom tk) ?_ ?_
    · exact timeFrom.keep (causeGone_keeps _ _ _) (by rfl) h30
    · exact h30
  clear_value y2
  refine Inv.cut (Q := timeFrom tk) (s := y3) ?_ fun h32 => ?_
  · unfold y3
    exact timeFrom.keep (putN_keeps _ _ _ _) (by rfl) h31
  clear_value y3
  refine OutInv.clocked ?_ ?_
  · exact h
  · refine OutInv.ite ?_ ?_
    · exact OutInv.ends reelObserve_tick (timeFrom.keep (updLane_keeps _ _ _) (by rfl) h32)
    · exact OutInv.ends reelObserve_tick h

theorem execLaneLoopEnd_tick {tk : Nat} (lane : Fin 66) (received : Word) (crcBad : Word) (bitErrs : Word) (losses : Word) (s :
      State) (h : timeFrom tk s) :
    OutInv (timeFrom tk) (execLaneLoopEnd lane received crcBad bitErrs losses s) := by
  unfold execLaneLoopEnd
  refine OutInv.clocked ?_ ?_
  · exact h
  · split
    · extract_lets y60 y61
      refine Inv.cut (Q := timeFrom tk) (s := y60) ?_ fun h90 => ?_
      · unfold y60
        exact advanceTo_tick _ _ h
      clear_value y60
      refine Inv.cut (Q := timeFrom tk) (s := y61) ?_ fun h91 => ?_
      · unfold y61
        exact timeFrom.keep (updLane_keeps _ _ _) (by rfl) h90
      clear_value y61
      exact OutInv.ends reelObserve_tick (timeFrom.keep (completeOk_keeps _ _ _) (by rfl) h91)
    · exact OutInv.ends reelObserve_tick h

theorem execLockDone_tick {tk : Nat} (lane : Fin 66) (rx : Rx) (s : State) (h : timeFrom tk s) :
    OutInv (timeFrom tk) (execLockDone lane s rx) := by
  unfold execLockDone
  extract_lets y0
  clear_value y0
  refine OutInv.clocked ?_ ?_
  · exact h
  · refine OutInv.ite ?_ ?_
    · refine OutInv.ends reelObserve_tick ?_
      refine Inv.ite (Q := timeFrom tk) ?_ ?_
      · exact timeFrom.keep (toStage_keeps _ _ _ _) (by rfl) h
      · refine Inv.ite (Q := timeFrom tk) ?_ ?_
        · exact timeFrom.keep (loopStage_keeps _ _ _ _) (by rfl) h
        · exact timeFrom.keep (awaitEntry_keeps _ _) (by rfl) h
    · exact OutInv.ends reelObserve_tick h

theorem execLossOfLock_tick {tk : Nat} (lane : Fin 66) (rx : Rx) (scanned : List (BitVec 16)) (s : State) (h :
      timeFrom tk s) :
    OutInv (timeFrom tk) (execLossOfLock lane scanned s rx) := by
  unfold execLossOfLock
  refine OutInv.clocked ?_ ?_
  · exact h
  · refine OutInv.ends reelObserve_tick ?_
    refine Inv.ite (Q := timeFrom tk) ?_ ?_
    · exact timeFrom.keep (lockGone_keeps _ _ _) (by rfl) h
    · exact h

theorem execRebringupRetry_tick {tk : Nat} (lane : Fin 66) (s : State) (h : timeFrom tk s) :
    OutInv (timeFrom tk) (execRebringupRetry lane s) := by
  unfold execRebringupRetry
  refine OutInv.clocked ?_ ?_
  · exact h
  · split
    · exact OutInv.ends reelObserve_tick h
    · refine OutInv.ends reelObserve_tick ?_
      refine Inv.ite (Q := timeFrom tk) ?_ ?_
      · exact timeFrom.keep (startBringup_keeps _ _ _) (by rfl) (advanceTo_tick _ _ h)
      · exact h

theorem execRetryWindowEnd_tick {tk : Nat} (lane : Fin 66) (s : State) (h : timeFrom tk s) :
    OutInv (timeFrom tk) (execRetryWindowEnd lane s) := by
  unfold execRetryWindowEnd
  refine OutInv.clocked ?_ ?_
  · exact h
  · split
    · exact OutInv.ends reelObserve_tick h
    · exact OutInv.ends reelObserve_tick (timeFrom.keep (updLane_keeps _ _ _) (by rfl) (advanceTo_tick _ _ h))

theorem execTrainDone_tick {tk : Nat} (lane : Fin 66) (eq : BitVec 4) (clean : Nat) (s : State) (h : timeFrom tk s) :
    OutInv (timeFrom tk) (execTrainDone lane eq s clean) := by
  unfold execTrainDone
  extract_lets y0 y1 y2
  clear_value y0 y1
  refine Inv.cut (Q := timeFrom tk) (s := y2) ?_ fun h30 => ?_
  · unfold y2
    exact timeFrom.keep (putN_keeps _ _ _ _) (by rfl) h
  clear_value y2
  refine OutInv.clocked ?_ ?_
  · exact h
  · refine OutInv.ite ?_ ?_
    · exact OutInv.ends reelObserve_tick (timeFrom.keep (toStage_keeps _ _ _ _) (by rfl) h30)
    · exact OutInv.ends reelObserve_tick h

theorem eyeScanBody_tick {tk : Nat} (c : Cmd) (s : State) (h : timeFrom tk s) :
    ResInv (timeFrom tk) (eyeScanBody c s) := by
  exact timeFrom.res (eyeScanBody_keeps _ _) (by rfl) h

theorem laneBringupBody_tick {tk : Nat} (c : Cmd) (s : State) (h : timeFrom tk s) :
    ResInv (timeFrom tk) (laneBringupBody c s) := by
  exact timeFrom.res (laneBringupBody_keeps _ _) (by rfl) h

theorem laneRetireBody_tick {tk : Nat} (c : Cmd) (s : State) (h : timeFrom tk s) :
    ResInv (timeFrom tk) (laneRetireBody c s) := by
  exact timeFrom.res (laneRetireBody_keeps _ _) (by rfl) h

theorem loopEndNow_tick {tk : Nat} (s : State) (l : Nat) (h : timeFrom tk s) :
    ResInv (timeFrom tk) (loopEndNow s l) := by
  exact timeFrom.res (loopEndNow_keeps _ _) (by rfl) h

theorem execEyeScan_tick {tk : Nat} (c : Cmd) (s : State) (h : timeFrom tk s) :
    OutInv (timeFrom tk) (execEyeScan c s) := by
  unfold execEyeScan
  refine OutInv.ends reelObserve_tick ?_
  refine Inv.runCmd (Q := timeFrom tk) goodPacket_tick answer_tick ?_ fun x0 _ h1 => ?_
  · exact h
  · exact eyeScanBody_tick _ _ h1

theorem execLaneBringup_tick {tk : Nat} (c : Cmd) (s : State) (h : timeFrom tk s) :
    OutInv (timeFrom tk) (execLaneBringup c s) := by
  unfold execLaneBringup
  refine OutInv.ends reelObserve_tick ?_
  refine Inv.runCmd (Q := timeFrom tk) goodPacket_tick answer_tick ?_ fun x0 _ h1 => ?_
  · exact h
  · exact laneBringupBody_tick _ _ h1

theorem execLaneRetire_tick {tk : Nat} (c : Cmd) (s : State) (h : timeFrom tk s) :
    OutInv (timeFrom tk) (execLaneRetire c s) := by
  unfold execLaneRetire
  refine OutInv.ends reelObserve_tick ?_
  refine Inv.runCmd (Q := timeFrom tk) goodPacket_tick answer_tick ?_ fun x0 _ h1 => ?_
  · exact h
  · exact laneRetireBody_tick _ _ h1

theorem laneLoopBody_tick {tk : Nat} (c : Cmd) (s : State) (h : timeFrom tk s) :
    ResInv (timeFrom tk) (laneLoopBody c s) := by
  exact timeFrom.res (laneLoopBody_keeps _ _) (by rfl) h

theorem execLaneLoop_tick {tk : Nat} (c : Cmd) (s : State) (h : timeFrom tk s) :
    OutInv (timeFrom tk) (execLaneLoop c s) := by
  unfold execLaneLoop
  refine OutInv.ends reelObserve_tick ?_
  refine Inv.runCmd (Q := timeFrom tk) goodPacket_tick answer_tick ?_ fun x0 _ h1 => ?_
  · exact h
  · exact laneLoopBody_tick _ _ h1

theorem execLaneLoopEndMode0_tick {tk : Nat} (c : Cmd) (s : State) (h : timeFrom tk s) :
    OutInv (timeFrom tk) (execLaneLoopEndMode0 c s) := by
  unfold execLaneLoopEndMode0
  refine OutInv.ends reelObserve_tick ?_
  refine Inv.runCmd (Q := timeFrom tk) goodPacket_tick answer_tick ?_ fun x0 _ h1 => ?_
  · exact h
  · exact laneLoopBody_tick _ _ h1

/-! ### Machine/Discovery.lean -/

theorem cellConfigBody_tick {tk : Nat} (c : Cmd) (s : State) (h : timeFrom tk s) :
    ResInv (timeFrom tk) (cellConfigBody c s) := by
  exact timeFrom.res (cellConfigBody_keeps _ _) (by rfl) h

theorem discoverBody_tick {tk : Nat} (c : Cmd) (s : State) (h : timeFrom tk s) :
    ResInv (timeFrom tk) (discoverBody c s) := by
  exact timeFrom.res (discoverBody_keeps _ _) (by rfl) h

theorem execCellConfig_tick {tk : Nat} (c : Cmd) (s : State) (h : timeFrom tk s) :
    OutInv (timeFrom tk) (execCellConfig c s) := by
  unfold execCellConfig
  refine OutInv.ends reelObserve_tick ?_
  refine Inv.runCmd (Q := timeFrom tk) goodPacket_tick answer_tick ?_ fun x0 _ h1 => ?_
  · exact h
  · exact cellConfigBody_tick _ _ h1

theorem execCellConfigDone_tick {tk : Nat} (s : State) (h : timeFrom tk s) :
    OutInv (timeFrom tk) (execCellConfigDone s) := by
  unfold execCellConfigDone
  refine OutInv.clocked ?_ ?_
  · exact h
  · refine OutInv.ends reelObserve_tick ?_
    split
    · exact h
    · extract_lets y90 y91
      clear_value y90 y91
      exact timeFrom.keep (completeOk_keeps _ _ _) (by rfl) h

theorem execDiscover_tick {tk : Nat} (c : Cmd) (s : State) (h : timeFrom tk s) :
    OutInv (timeFrom tk) (execDiscover c s) := by
  unfold execDiscover
  refine OutInv.ends reelObserve_tick ?_
  refine Inv.runCmd (Q := timeFrom tk) goodPacket_tick answer_tick ?_ fun x0 _ h1 => ?_
  · exact h
  · exact discoverBody_tick _ _ h1

theorem execDiscoverDone_tick {tk : Nat} (boards : List (Option (List Byte))) (again : List (Option (List Byte))) (s
      : State) (h : timeFrom tk s) :
    OutInv (timeFrom tk) (execDiscoverDone boards s again) := by
  unfold execDiscoverDone
  extract_lets y0
  refine Inv.cut (Q := timeFrom tk) (s := y0) ?_ fun h30 => ?_
  · unfold y0
    exact timeFrom.keep (putBoards_keeps _ _ _) (by rfl) h
  clear_value y0
  refine OutInv.clocked ?_ ?_
  · exact h
  · refine OutInv.ends reelObserve_tick ?_
    split
    · exact h
    · exact timeFrom.keep (completeOk_keeps _ _ _) (by rfl) h30

theorem execMtWindowEnd_tick {tk : Nat} (s : State) (h : timeFrom tk s) :
    OutInv (timeFrom tk) (execMtWindowEnd s) := by
  unfold execMtWindowEnd
  extract_lets y0
  clear_value y0
  refine OutInv.clocked ?_ ?_
  · exact h
  · refine OutInv.ends reelObserve_tick ?_
    refine Inv.ite (Q := timeFrom tk) ?_ ?_
    · refine Inv.atMark (Q := timeFrom tk) advanceTo_tick ?_ fun x30 h31 => ?_
      · exact h
      · refine timeFrom.keep (mtEnd_keeps _) (by rfl) ?_
        refine Inv.ite (Q := timeFrom tk) ?_ ?_
        · exact timeFrom.keep (mtChargeOf_keeps _ _ _) (by rfl) h31
        · exact h31
    · exact h

theorem execPlaceDone_tick {tk : Nat} (s : State) (h : timeFrom tk s) :
    OutInv (timeFrom tk) (execPlaceDone s) := by
  unfold execPlaceDone
  refine OutInv.clocked ?_ ?_
  · exact h
  · refine OutInv.ends reelObserve_tick ?_
    split
    · exact h
    · extract_lets y90
      refine Inv.cut (Q := timeFrom tk) (s := y90) ?_ fun h120 => ?_
      · unfold y90
        exact timeFrom.keep (placeWatch_keeps _) (by rfl) (timeFrom.keep (placeDo_keeps _ _) (by rfl) h)
      clear_value y90
      exact timeFrom.keep (completeOk_keeps _ _ _) (by rfl) h120

theorem execReadIdentityDone_tick {tk : Nat} (board : Option (List Byte)) (again : Option (List Byte)) (s : State) (h
      : timeFrom tk s) :
    OutInv (timeFrom tk) (execReadIdentityDone board s again) := by
  unfold execReadIdentityDone
  extract_lets y0 y1
  clear_value y0 y1
  refine OutInv.clocked ?_ ?_
  · exact h
  · refine OutInv.ends reelObserve_tick ?_
    split
    · exact timeFrom.keep (idLaneDone_keeps _ _) (by rfl) h
    · refine Inv.ite (Q := timeFrom tk) ?_ ?_
      · exact timeFrom.keep (idBoardDone_keeps _ _ _ _) (by rfl) h
      · exact timeFrom.keep (idLaneDone_keeps _ _) (by rfl) h
    · exact timeFrom.keep (idBoardDone_keeps _ _ _ _) (by rfl) h
    · exact h

theorem execTallyPersistExpiry_tick {tk : Nat} (kind : Fin 3) (s : State) (h : timeFrom tk s) :
    OutInv (timeFrom tk) (execTallyPersistExpiry kind s) := by
  unfold execTallyPersistExpiry
  extract_lets y0
  refine Inv.cut (Q := timeFrom tk) (s := y0) ?_ fun h30 => ?_
  · unfold y0
    exact timeFrom.keep (tallyFollow_keeps _ _) (by rfl) h
  clear_value y0
  refine OutInv.clocked ?_ ?_
  · exact h
  · refine OutInv.ends reelObserve_tick ?_
    split
    · exact h30
    · extract_lets y121
      refine Inv.cut (Q := timeFrom tk) (s := y121) ?_ fun h151 => ?_
      · unfold y121
        exact advanceTo_tick _ _ h30
      clear_value y121
      refine Inv.ite (Q := timeFrom tk) ?_ ?_
      · exact h151
      · exact timeFrom.keep (raiseFault_keeps _ _ _) (by rfl) h151

theorem placeBody_tick {tk : Nat} (c : Cmd) (s : State) (h : timeFrom tk s) :
    ResInv (timeFrom tk) (placeBody c s) := by
  exact timeFrom.res (placeBody_keeps _ _) (by rfl) h

theorem readIdentityBody_tick {tk : Nat} (c : Cmd) (s : State) (h : timeFrom tk s) :
    ResInv (timeFrom tk) (readIdentityBody c s) := by
  exact timeFrom.res (readIdentityBody_keeps _ _) (by rfl) h

theorem tallyReportBody_tick {tk : Nat} (c : Cmd) (s : State) (h : timeFrom tk s) :
    ResInv (timeFrom tk) (tallyReportBody c s) := by
  exact timeFrom.res (tallyReportBody_keeps _ _) (by rfl) h

theorem execPlace_tick {tk : Nat} (c : Cmd) (s : State) (h : timeFrom tk s) :
    OutInv (timeFrom tk) (execPlace c s) := by
  unfold execPlace
  refine OutInv.ends reelObserve_tick ?_
  refine Inv.runCmd (Q := timeFrom tk) goodPacket_tick answer_tick ?_ fun x0 _ h1 => ?_
  · exact h
  · exact placeBody_tick _ _ h1

theorem execReadIdentity_tick {tk : Nat} (c : Cmd) (s : State) (h : timeFrom tk s) :
    OutInv (timeFrom tk) (execReadIdentity c s) := by
  unfold execReadIdentity
  refine OutInv.ends reelObserve_tick ?_
  refine Inv.runCmd (Q := timeFrom tk) goodPacket_tick answer_tick ?_ fun x0 _ h1 => ?_
  · exact h
  · exact readIdentityBody_tick _ _ h1

theorem execTallyReport_tick {tk : Nat} (c : Cmd) (s : State) (h : timeFrom tk s) :
    OutInv (timeFrom tk) (execTallyReport c s) := by
  unfold execTallyReport
  refine OutInv.ends reelObserve_tick ?_
  refine Inv.runCmd (Q := timeFrom tk) goodPacket_tick answer_tick ?_ fun x0 _ h1 => ?_
  · exact h
  · exact tallyReportBody_tick _ _ h1

/-! ### Machine/Faults.lean -/

theorem execErrPulseEnd_tick {tk : Nat} (s : State) (h : timeFrom tk s) :
    OutInv (timeFrom tk) (execErrPulseEnd s) := by
  unfold execErrPulseEnd
  refine OutInv.clocked ?_ ?_
  · exact h
  · refine OutInv.ends reelObserve_tick ?_
    split
    · extract_lets y90 y91
      refine Inv.cut (Q := timeFrom tk) (s := y90) ?_ fun h120 => ?_
      · unfold y90
        exact advanceTo_tick _ _ h
      clear_value y90
      exact timeFrom.eq (s := y90) rfl h120
    · exact h

theorem execGraceExpiry_tick {tk : Nat} (entry : Fin 256) (s : State) (h : timeFrom tk s) :
    OutInv (timeFrom tk) (execGraceExpiry entry s) := by
  unfold execGraceExpiry
  extract_lets y0
  clear_value y0
  refine OutInv.clocked ?_ ?_
  · exact h
  · refine OutInv.ends reelObserve_tick ?_
    refine Inv.ite (Q := timeFrom tk) ?_ ?_
    · exact timeFrom.keep (graceExpire_keeps _ _) (by rfl) (advanceTo_tick _ _ h)
    · exact h

theorem factoryUnlockBody_tick {tk : Nat} (c : Cmd) (s : State) (h : timeFrom tk s) :
    ResInv (timeFrom tk) (factoryUnlockBody c s) := by
  exact timeFrom.res (factoryUnlockBody_keeps _ _) (by rfl) h

theorem faultAckBody_tick {tk : Nat} (c : Cmd) (s : State) (h : timeFrom tk s) :
    ResInv (timeFrom tk) (faultAckBody c s) := by
  exact timeFrom.res (faultAckBody_keeps _ _) (by rfl) h

theorem faultClearBody_tick {tk : Nat} (c : Cmd) (s : State) (h : timeFrom tk s) :
    ResInv (timeFrom tk) (faultClearBody c s) := by
  exact timeFrom.res (faultClearBody_keeps _ _) (by rfl) h

theorem faultInjectBody_tick {tk : Nat} (c : Cmd) (s : State) (h : timeFrom tk s) :
    ResInv (timeFrom tk) (faultInjectBody c s) := by
  exact timeFrom.res (faultInjectBody_keeps _ _) (by rfl) h

theorem faultReadBody_tick {tk : Nat} (c : Cmd) (s : State) (h : timeFrom tk s) :
    ResInv (timeFrom tk) (faultReadBody c s) := by
  exact timeFrom.res (faultReadBody_keeps _ _) (by rfl) h

theorem execFactoryUnlock_tick {tk : Nat} (c : Cmd) (s : State) (h : timeFrom tk s) :
    OutInv (timeFrom tk) (execFactoryUnlock c s) := by
  unfold execFactoryUnlock
  refine OutInv.ends reelObserve_tick ?_
  refine Inv.runCmd (Q := timeFrom tk) goodPacket_tick answer_tick ?_ fun x0 _ h1 => ?_
  · exact h
  · exact factoryUnlockBody_tick _ _ h1

theorem execFaultAck_tick {tk : Nat} (c : Cmd) (s : State) (h : timeFrom tk s) :
    OutInv (timeFrom tk) (execFaultAck c s) := by
  unfold execFaultAck
  refine OutInv.ends reelObserve_tick ?_
  refine Inv.runCmd (Q := timeFrom tk) goodPacket_tick answer_tick ?_ fun x0 _ h1 => ?_
  · exact h
  · exact faultAckBody_tick _ _ h1

theorem execFaultClear_tick {tk : Nat} (c : Cmd) (s : State) (h : timeFrom tk s) :
    OutInv (timeFrom tk) (execFaultClear c s) := by
  unfold execFaultClear
  refine OutInv.ends reelObserve_tick ?_
  refine Inv.runCmd (Q := timeFrom tk) goodPacket_tick answer_tick ?_ fun x0 _ h1 => ?_
  · exact h
  · exact faultClearBody_tick _ _ h1

theorem execFaultInject_tick {tk : Nat} (c : Cmd) (s : State) (h : timeFrom tk s) :
    OutInv (timeFrom tk) (execFaultInject c s) := by
  unfold execFaultInject
  refine OutInv.ends reelObserve_tick ?_
  refine Inv.runCmd (Q := timeFrom tk) goodPacket_tick answer_tick ?_ fun x0 _ h1 => ?_
  · exact h
  · exact faultInjectBody_tick _ _ h1

theorem execFaultRead_tick {tk : Nat} (c : Cmd) (s : State) (h : timeFrom tk s) :
    OutInv (timeFrom tk) (execFaultRead c s) := by
  unfold execFaultRead
  refine OutInv.ends reelObserve_tick ?_
  refine Inv.runCmd (Q := timeFrom tk) goodPacket_tick answer_tick ?_ fun x0 _ h1 => ?_
  · exact h
  · exact faultReadBody_tick _ _ h1

/-! ### Machine/Maint.lean -/

theorem cellRetireBody_tick {tk : Nat} (c : Cmd) (s : State) (h : timeFrom tk s) :
    ResInv (timeFrom tk) (cellRetireBody c s) := by
  exact timeFrom.res (cellRetireBody_keeps _ _) (by rfl) h

theorem cleatAddBody_tick {tk : Nat} (c : Cmd) (s : State) (h : timeFrom tk s) :
    ResInv (timeFrom tk) (cleatAddBody c s) := by
  exact timeFrom.res (cleatAddBody_keeps _ _) (by rfl) h

theorem cleatReleaseBody_tick {tk : Nat} (c : Cmd) (s : State) (h : timeFrom tk s) :
    ResInv (timeFrom tk) (cleatReleaseBody c s) := by
  exact timeFrom.res (cleatReleaseBody_keeps _ _) (by rfl) h

theorem execActivityFree_tick {tk : Nat} (slot : Fin 16) (s : State) (h : timeFrom tk s) :
    OutInv (timeFrom tk) (execActivityFree slot s) := by
  unfold execActivityFree
  refine OutInv.clocked ?_ ?_
  · exact h
  · refine OutInv.ends reelObserve_tick ?_
    split
    · refine Inv.ite (Q := timeFrom tk) ?_ ?_
      · exact timeFrom.keep (freeActivity_keeps _ _) (by rfl) (advanceTo_tick _ _ h)
      · exact h
    · exact h

theorem execCellRetire_tick {tk : Nat} (c : Cmd) (s : State) (h : timeFrom tk s) :
    OutInv (timeFrom tk) (execCellRetire c s) := by
  unfold execCellRetire
  refine OutInv.ends reelObserve_tick ?_
  refine Inv.runCmd (Q := timeFrom tk) goodPacket_tick answer_tick ?_ fun x0 _ h1 => ?_
  · exact h
  · exact cellRetireBody_tick _ _ h1

theorem execCellRetireTimeout_tick {tk : Nat} (cell : Fin 3072) (s : State) (h : timeFrom tk s) :
    OutInv (timeFrom tk) (execCellRetireTimeout cell s) := by
  unfold execCellRetireTimeout
  refine OutInv.clocked ?_ ?_
  · exact h
  · refine OutInv.ends reelObserve_tick ?_
    split
    · extract_lets y90
      refine Inv.cut (Q := timeFrom tk) (s := y90) ?_ fun h120 => ?_
      · unfold y90
        exact advanceTo_tick _ _ h
      clear_value y90
      refine Inv.ite (Q := timeFrom tk) ?_ ?_
      · exact timeFrom.keep (completeErr_keeps _ _ _) (by rfl) h120
      · exact h
    · exact h

theorem execCleatAdd_tick {tk : Nat} (c : Cmd) (s : State) (h : timeFrom tk s) :
    OutInv (timeFrom tk) (execCleatAdd c s) := by
  unfold execCleatAdd
  refine OutInv.ends reelObserve_tick ?_
  refine Inv.runCmd (Q := timeFrom tk) goodPacket_tick answer_tick ?_ fun x0 _ h1 => ?_
  · exact h
  · exact cleatAddBody_tick _ _ h1

theorem execCleatEntryFree_tick {tk : Nat} (entry : Fin 32) (s : State) (h : timeFrom tk s) :
    OutInv (timeFrom tk) (execCleatEntryFree entry s) := by
  unfold execCleatEntryFree
  refine OutInv.clocked ?_ ?_
  · exact h
  · refine OutInv.ends reelObserve_tick ?_
    refine Inv.ite (Q := timeFrom tk) ?_ ?_
    · refine Inv.atMark (Q := timeFrom tk) advanceTo_tick ?_ fun x0 h1 => ?_
      · exact h
      · exact timeFrom.keep (freeCleat_keeps _ _) (by rfl) h1
    · exact h

theorem execCleatRelease_tick {tk : Nat} (c : Cmd) (s : State) (h : timeFrom tk s) :
    OutInv (timeFrom tk) (execCleatRelease c s) := by
  unfold execCleatRelease
  refine OutInv.ends reelObserve_tick ?_
  refine Inv.runCmd (Q := timeFrom tk) goodPacket_tick answer_tick ?_ fun x0 _ h1 => ?_
  · exact h
  · exact cleatReleaseBody_tick _ _ h1

theorem execCleatRetryWindowEnd_tick {tk : Nat} (entry : Fin 32) (s : State) (h : timeFrom tk s) :
    OutInv (timeFrom tk) (execCleatRetryWindowEnd entry s) := by
  unfold execCleatRetryWindowEnd
  extract_lets y0
  clear_value y0
  refine OutInv.clocked ?_ ?_
  · exact h
  · refine OutInv.ends reelObserve_tick ?_
    split
    · refine Inv.ite (Q := timeFrom tk) ?_ ?_
      · exact timeFrom.keep (releaseEntry_keeps _ _ _) (by rfl) (advanceTo_tick _ _ h)
      · exact h
    · exact h

theorem execPermBypassRetry_tick {tk : Nat} (cell : Fin 3072) (s : State) (h : timeFrom tk s) :
    OutInv (timeFrom tk) (execPermBypassRetry cell s) := by
  unfold execPermBypassRetry
  refine OutInv.clocked ?_ ?_
  · exact h
  · refine OutInv.ends reelObserve_tick ?_
    split
    · exact timeFrom.keep (sendPair_keeps _ _) (by rfl) (advanceTo_tick _ _ h)
    · exact h

theorem execPermConfirmTimeout_tick {tk : Nat} (cell : Fin 3072) (s : State) (h : timeFrom tk s) :
    OutInv (timeFrom tk) (execPermConfirmTimeout cell s) := by
  unfold execPermConfirmTimeout
  refine OutInv.clocked ?_ ?_
  · exact h
  · refine OutInv.ends reelObserve_tick ?_
    split
    · exact timeFrom.keep (permFailed_keeps _ _) (by rfl) (advanceTo_tick _ _ h)
    · exact h

theorem maintAdmitBody_tick {tk : Nat} (c : Cmd) (s : State) (h : timeFrom tk s) :
    ResInv (timeFrom tk) (maintAdmitBody c s) := by
  exact timeFrom.res (maintAdmitBody_keeps _ _) (by rfl) h

theorem maintEndBody_tick {tk : Nat} (c : Cmd) (s : State) (h : timeFrom tk s) :
    ResInv (timeFrom tk) (maintEndBody c s) := by
  exact timeFrom.res (maintEndBody_keeps _ _) (by rfl) h

theorem execMaintAdmit_tick {tk : Nat} (c : Cmd) (s : State) (h : timeFrom tk s) :
    OutInv (timeFrom tk) (execMaintAdmit c s) := by
  unfold execMaintAdmit
  refine OutInv.ends reelObserve_tick ?_
  refine Inv.runCmd (Q := timeFrom tk) goodPacket_tick answer_tick ?_ fun x0 _ h1 => ?_
  · exact h
  · exact maintAdmitBody_tick _ _ h1

theorem execMaintEnd_tick {tk : Nat} (c : Cmd) (s : State) (h : timeFrom tk s) :
    OutInv (timeFrom tk) (execMaintEnd c s) := by
  unfold execMaintEnd
  refine OutInv.ends reelObserve_tick ?_
  refine Inv.runCmd (Q := timeFrom tk) goodPacket_tick answer_tick ?_ fun x0 _ h1 => ?_
  · exact h
  · exact maintEndBody_tick _ _ h1

/-! ### Machine/Params.lean -/

theorem commitArm_tick {tk : Nat} (c : Cmd) (s : State) (h : timeFrom tk s) :
    ResInv (timeFrom tk) (commitArm c s) := by
  exact timeFrom.res (commitArm_keeps _ _) (by rfl) h

theorem commitDrop_tick {tk : Nat} (c : Cmd) (s : State) (h : timeFrom tk s) :
    ResInv (timeFrom tk) (commitDrop c s) := by
  exact timeFrom.res (commitDrop_keeps _ _) (by rfl) h

theorem commitGroupBody_tick {tk : Nat} (c : Cmd) (s : State) (h : timeFrom tk s) :
    ResInv (timeFrom tk) (commitGroupBody c s) := by
  exact timeFrom.res (commitGroupBody_keeps _ _) (by rfl) h

theorem execAdcPtStart_tick {tk : Nat} (c : Cmd) (s : State) (h : timeFrom tk s) :
    OutInv (timeFrom tk) (execAdcPtStart c s) := by
  unfold execAdcPtStart
  exact OutInv.ends reelObserve_tick (timeFrom.keep (setParam_keeps _ _) (by rfl) h)

theorem execChopForce_tick {tk : Nat} (c : Cmd) (s : State) (h : timeFrom tk s) :
    OutInv (timeFrom tk) (execChopForce c s) := by
  unfold execChopForce
  exact OutInv.ends reelObserve_tick (timeFrom.keep (setParam_keeps _ _) (by rfl) h)

theorem execChopMode_tick {tk : Nat} (c : Cmd) (s : State) (h : timeFrom tk s) :
    OutInv (timeFrom tk) (execChopMode c s) := by
  unfold execChopMode
  exact OutInv.ends reelObserve_tick (timeFrom.keep (setParam_keeps _ _) (by rfl) h)

theorem execCltExclude_tick {tk : Nat} (c : Cmd) (s : State) (h : timeFrom tk s) :
    OutInv (timeFrom tk) (execCltExclude c s) := by
  unfold execCltExclude
  exact OutInv.ends reelObserve_tick (timeFrom.keep (setParam_keeps _ _) (by rfl) h)

theorem execCommitGroup_tick {tk : Nat} (c : Cmd) (s : State) (h : timeFrom tk s) :
    OutInv (timeFrom tk) (execCommitGroup c s) := by
  unfold execCommitGroup
  refine OutInv.ends reelObserve_tick ?_
  refine Inv.runCmd (Q := timeFrom tk) goodPacket_tick answer_tick ?_ fun x0 _ h1 => ?_
  · exact h
  · exact commitGroupBody_tick _ _ h1

theorem execCommitGroupDiscard_tick {tk : Nat} (c : Cmd) (s : State) (h : timeFrom tk s) :
    OutInv (timeFrom tk) (execCommitGroupDiscard c s) := by
  unfold execCommitGroupDiscard
  extract_lets y0
  clear_value y0
  refine OutInv.ends reelObserve_tick ?_
  refine Inv.runCmd (Q := timeFrom tk) goodPacket_tick answer_tick ?_ fun x30 _ h31 => ?_
  · exact h
  · exact commitGroupBody_tick _ _ h31

theorem execDecCfg_tick {tk : Nat} (c : Cmd) (s : State) (h : timeFrom tk s) :
    OutInv (timeFrom tk) (execDecCfg c s) := by
  unfold execDecCfg
  exact OutInv.ends reelObserve_tick (timeFrom.keep (setParam_keeps _ _) (by rfl) h)

theorem execDiscMtAbort_tick {tk : Nat} (c : Cmd) (s : State) (h : timeFrom tk s) :
    OutInv (timeFrom tk) (execDiscMtAbort c s) := by
  unfold execDiscMtAbort
  exact OutInv.ends reelObserve_tick (timeFrom.keep (setParam_keeps _ _) (by rfl) h)

theorem execDiscMtStart_tick {tk : Nat} (c : Cmd) (s : State) (h : timeFrom tk s) :
    OutInv (timeFrom tk) (execDiscMtStart c s) := by
  unfold execDiscMtStart
  exact OutInv.ends reelObserve_tick (timeFrom.keep (setParam_keeps _ _) (by rfl) h)

theorem execEncLatchCfg_tick {tk : Nat} (c : Cmd) (s : State) (h : timeFrom tk s) :
    OutInv (timeFrom tk) (execEncLatchCfg c s) := by
  unfold execEncLatchCfg
  exact OutInv.ends reelObserve_tick (timeFrom.keep (setParam_keeps _ _) (by rfl) h)

theorem execEncPreset_tick {tk : Nat} (c : Cmd) (s : State) (h : timeFrom tk s) :
    OutInv (timeFrom tk) (execEncPreset c s) := by
  unfold execEncPreset
  exact OutInv.ends reelObserve_tick (timeFrom.keep (setParam_keeps _ _) (by rfl) h)

theorem execFltErrHold_tick {tk : Nat} (c : Cmd) (s : State) (h : timeFrom tk s) :
    OutInv (timeFrom tk) (execFltErrHold c s) := by
  unfold execFltErrHold
  exact OutInv.ends reelObserve_tick (timeFrom.keep (setParam_keeps _ _) (by rfl) h)

theorem execFrmHubHoldMax_tick {tk : Nat} (c : Cmd) (s : State) (h : timeFrom tk s) :
    OutInv (timeFrom tk) (execFrmHubHoldMax c s) := by
  unfold execFrmHubHoldMax
  exact OutInv.ends reelObserve_tick (timeFrom.keep (setParam_keeps _ _) (by rfl) h)

theorem execPwrLaneEn_tick {tk : Nat} (c : Cmd) (s : State) (h : timeFrom tk s) :
    OutInv (timeFrom tk) (execPwrLaneEn c s) := by
  unfold execPwrLaneEn
  exact OutInv.ends reelObserve_tick (timeFrom.keep (setParam_keeps _ _) (by rfl) h)

theorem execSetParam_tick {tk : Nat} (c : Cmd) (s : State) (h : timeFrom tk s) :
    OutInv (timeFrom tk) (execSetParam c s) := by
  unfold execSetParam
  exact OutInv.ends reelObserve_tick (timeFrom.keep (setParam_keeps _ _) (by rfl) h)

theorem execStrTraceCtrl_tick {tk : Nat} (c : Cmd) (s : State) (h : timeFrom tk s) :
    OutInv (timeFrom tk) (execStrTraceCtrl c s) := by
  unfold execStrTraceCtrl
  exact OutInv.ends reelObserve_tick (timeFrom.keep (setParam_keeps _ _) (by rfl) h)

theorem execTallyExpectAct_tick {tk : Nat} (c : Cmd) (s : State) (h : timeFrom tk s) :
    OutInv (timeFrom tk) (execTallyExpectAct c s) := by
  unfold execTallyExpectAct
  exact OutInv.ends reelObserve_tick (timeFrom.keep (setParam_keeps _ _) (by rfl) h)

theorem execTallyOldClear_tick {tk : Nat} (c : Cmd) (s : State) (h : timeFrom tk s) :
    OutInv (timeFrom tk) (execTallyOldClear c s) := by
  unfold execTallyOldClear
  exact OutInv.ends reelObserve_tick (timeFrom.keep (setParam_keeps _ _) (by rfl) h)

theorem execTbusForce_tick {tk : Nat} (c : Cmd) (s : State) (h : timeFrom tk s) :
    OutInv (timeFrom tk) (execTbusForce c s) := by
  unfold execTbusForce
  exact OutInv.ends reelObserve_tick (timeFrom.keep (setParam_keeps _ _) (by rfl) h)

theorem execTrajPreset_tick {tk : Nat} (c : Cmd) (s : State) (h : timeFrom tk s) :
    OutInv (timeFrom tk) (execTrajPreset c s) := by
  unfold execTrajPreset
  exact OutInv.ends reelObserve_tick (timeFrom.keep (setParam_keeps _ _) (by rfl) h)

theorem getBlockBody_tick {tk : Nat} (c : Cmd) (s : State) (h : timeFrom tk s) :
    ResInv (timeFrom tk) (getBlockBody c s) := by
  exact timeFrom.res (getBlockBody_keeps _ _) (by rfl) h

theorem getParamBody_tick {tk : Nat} (c : Cmd) (s : State) (h : timeFrom tk s) :
    ResInv (timeFrom tk) (getParamBody c s) := by
  exact timeFrom.res (getParamBody_keeps _ _) (by rfl) h

theorem setBlockBody_tick {tk : Nat} (c : Cmd) (s : State) (h : timeFrom tk s) :
    ResInv (timeFrom tk) (setBlockBody c s) := by
  exact timeFrom.res (setBlockBody_keeps _ _) (by rfl) h

theorem setParamBody_tick {tk : Nat} (c : Cmd) (s : State) (h : timeFrom tk s) :
    ResInv (timeFrom tk) (setParamBody c s) := by
  exact timeFrom.res (setParamBody_keeps _ _) (by rfl) h

theorem execGetBlock_tick {tk : Nat} (c : Cmd) (s : State) (h : timeFrom tk s) :
    OutInv (timeFrom tk) (execGetBlock c s) := by
  unfold execGetBlock
  refine OutInv.ends reelObserve_tick ?_
  refine Inv.runCmd (Q := timeFrom tk) goodPacket_tick answer_tick ?_ fun x0 _ h1 => ?_
  · exact h
  · exact getBlockBody_tick _ _ h1

theorem execGetParam_tick {tk : Nat} (c : Cmd) (s : State) (h : timeFrom tk s) :
    OutInv (timeFrom tk) (execGetParam c s) := by
  unfold execGetParam
  refine OutInv.ends reelObserve_tick ?_
  refine Inv.runCmd (Q := timeFrom tk) goodPacket_tick answer_tick ?_ fun x0 _ h1 => ?_
  · exact h
  · exact getParamBody_tick _ _ h1

theorem execSetBlock_tick {tk : Nat} (c : Cmd) (s : State) (h : timeFrom tk s) :
    OutInv (timeFrom tk) (execSetBlock c s) := by
  unfold execSetBlock
  refine OutInv.ends reelObserve_tick ?_
  refine Inv.runCmd (Q := timeFrom tk) goodPacket_tick answer_tick ?_ fun x0 _ h1 => ?_
  · exact h
  · exact setBlockBody_tick _ _ h1

/-! ### Machine/Power.lean -/

theorem execBistDone_tick {tk : Nat} (sram : Bool) (rom : Bool) (belayClock : Bool) (tripBack : Bool) (strandsBad :
      BitVec 4) (s : State) (h : timeFrom tk s) :
    OutInv (timeFrom tk) (execBistDone sram rom belayClock tripBack strandsBad s) := by
  unfold execBistDone
  refine OutInv.ends reelObserve_tick ?_
  split
  · extract_lets y60 y61 y62 y63 y64
    refine Inv.cut (Q := timeFrom tk) (s := y60) ?_ fun h90 => ?_
    · unfold y60
      exact advanceTo_tick _ _ h
    clear_value y60
    refine Inv.cut (Q := timeFrom tk) (s := y61) ?_ fun h91 => ?_
    · unfold y61
      exact timeFrom.keep (putN_keeps _ _ _ _) (by rfl) h90
    clear_value y61
    refine Inv.cut (Q := timeFrom tk) (s := y62) ?_ fun h92 => ?_
    · unfold y62
      refine Inv.foldl (Q := timeFrom tk) ?_ fun x93 a94 h95 => ?_
      · exact h91
      · exact timeFrom.keep (updStrand_keeps _ _ _) (by rfl) h95
    clear_value y62
    refine Inv.cut (Q := timeFrom tk) (s := y63) ?_ fun h96 => ?_
    · unfold y63
      exact timeFrom.keep (updPwr_keeps _ _) (by rfl) h92
    clear_value y63
    exact timeFrom.keep (powerGo_keeps _) (by rfl) (timeFrom.eq (s := y63) rfl h96)
  · exact h

theorem execCorePllLock_tick {tk : Nat} (s : State) (h : timeFrom tk s) :
    OutInv (timeFrom tk) (execCorePllLock s) := by
  unfold execCorePllLock
  refine OutInv.ends reelObserve_tick ?_
  split
  · exact timeFrom.keep (updPwr_keeps _ _) (by rfl) h
  · exact timeFrom.keep (relock_keeps _) (by rfl) h
  · exact h

theorem execCorePllLoss_tick {tk : Nat} (s : State) (h : timeFrom tk s) :
    OutInv (timeFrom tk) (execCorePllLoss s) := by
  unfold execCorePllLoss
  extract_lets y0 y1
  refine Inv.cut (Q := timeFrom tk) (s := y0) ?_ fun h30 => ?_
  · unfold y0
    exact timeFrom.keep (orP_keeps _ _ _ _) (by rfl) (timeFrom.keep (updPwr_keeps _ _) (by rfl) h)
  clear_value y0
  refine Inv.cut (Q := timeFrom tk) (s := y1) ?_ fun h31 => ?_
  · unfold y1
    exact timeFrom.keep (internalFail_keeps _ _) (by rfl) (timeFrom.keep (updBelay_keeps _ _) (by rfl) h30)
  clear_value y1
  refine OutInv.ends reelObserve_tick ?_
  refine Inv.ite (Q := timeFrom tk) ?_ ?_
  · exact h
  · split
    · exact timeFrom.keep (updPwr_keeps _ _) (by rfl) h31
    · exact timeFrom.keep (updPwr_keeps _ _) (by rfl) h31

theorem execDispatchTestDone_tick {tk : Nat} (pass : Bool) (strandsBad : BitVec 4) (s : State) (h : timeFrom tk s) :
    OutInv (timeFrom tk) (execDispatchTestDone pass strandsBad s) := by
  unfold execDispatchTestDone
  refine OutInv.clocked ?_ ?_
  · exact h
  · refine OutInv.ends reelObserve_tick ?_
    split
    · extract_lets y90 y91
      refine Inv.cut (Q := timeFrom tk) (s := y90) ?_ fun h120 => ?_
      · unfold y90
        exact advanceTo_tick _ _ h
      clear_value y90
      refine Inv.cut (Q := timeFrom tk) (s := y91) ?_ fun h121 => ?_
      · unfold y91
        exact timeFrom.keep (orP_keeps _ _ _ _) (by rfl) h120
      clear_value y91
      refine Inv.ite (Q := timeFrom tk) ?_ ?_
      · exact timeFrom.keep (enterRun_keeps _) (by rfl) h121
      · refine timeFrom.keep (powerFail_keeps _) (by rfl) ?_
        exact timeFrom.keep (updPwr_keeps _ _) (by rfl) (timeFrom.keep (domains_keeps _ _ _) (by rfl) h121)
    · exact h

theorem execDormantEntry_tick {tk : Nat} (s : State) (h : timeFrom tk s) :
    OutInv (timeFrom tk) (execDormantEntry s) := by
  unfold execDormantEntry
  refine OutInv.ends reelObserve_tick ?_
  split
  · rename_i due _
    have k := advanceTo_tick s due h
    dsimp only
    refine Inv.ite (Q := timeFrom tk) (timeFrom.keep (wake_keeps _) (by rfl) k) k
  · exact h

theorem execLanePllLock_tick {tk : Nat} (quad : Fin 4) (s : State) (h : timeFrom tk s) :
    OutInv (timeFrom tk) (execLanePllLock quad s) := by
  unfold execLanePllLock
  refine OutInv.ends reelObserve_tick ?_
  refine Inv.ite (Q := timeFrom tk) ?_ ?_
  · exact timeFrom.keep (runReady_keeps _) (by rfl) (timeFrom.keep (updPwr_keeps _ _) (by rfl) h)
  · exact h

theorem execLanePllLoss_tick {tk : Nat} (quad : Fin 4) (s : State) (h : timeFrom tk s) :
    OutInv (timeFrom tk) (execLanePllLoss quad s) := by
  unfold execLanePllLoss
  extract_lets y0
  refine Inv.cut (Q := timeFrom tk) (s := y0) ?_ fun h30 => ?_
  · unfold y0
    exact timeFrom.keep (updPwr_keeps _ _) (by rfl) h
  clear_value y0
  refine OutInv.clocked ?_ ?_
  · exact h
  · refine OutInv.ends reelObserve_tick ?_
    refine Inv.ite (Q := timeFrom tk) ?_ ?_
    · refine Inv.foldl (Q := timeFrom tk) ?_ fun x31 a32 h33 => ?_
      · exact timeFrom.keep (orP_keeps _ _ _ _) (by rfl) h30
      · exact timeFrom.keep (lanePllLost_keeps _ _) (by rfl) h33
    · exact h

theorem execListenEntry_tick {tk : Nat} (wakeLow : Bool) (s : State) (h : timeFrom tk s) :
    OutInv (timeFrom tk) (execListenEntry wakeLow s) := by
  unfold execListenEntry
  refine OutInv.ends reelObserve_tick ?_
  split
  · extract_lets y60 y61
    refine Inv.cut (Q := timeFrom tk) (s := y60) ?_ fun h90 => ?_
    · unfold y60
      exact advanceTo_tick _ _ h
    clear_value y60
    refine Inv.cut (Q := timeFrom tk) (s := y61) ?_ fun h91 => ?_
    · unfold y61
      exact timeFrom.keep (updPwr_keeps _ _) (by rfl) h90
    clear_value y61
    refine Inv.ite (Q := timeFrom tk) ?_ ?_
    · exact timeFrom.keep (powerGo_keeps _) (by rfl) (timeFrom.keep (updPwr_keeps _ _) (by rfl) h91)
    · exact h91
  · exact h

theorem execPorstAssert_tick {tk : Nat} (supervisor : Bool) (s : State) (h : timeFrom tk s) :
    OutInv (timeFrom tk) (execPorstAssert supervisor s) := by
  unfold execPorstAssert
  exact OutInv.ends reelObserve_tick (timeFrom.keep (putN_keeps _ _ _ _) (by rfl) h)

theorem execPorstRelease_tick {tk : Nat} (testmode : Bool) (s : State) (h : timeFrom tk s) :
    OutInv (timeFrom tk) (execPorstRelease testmode s) := by
  unfold execPorstRelease
  extract_lets y0 y1
  clear_value y0
  refine Inv.cut (Q := timeFrom tk) (s := y1) ?_ fun h30 => ?_
  · unfold y1
    exact timeFrom.keep (putN_keeps _ _ _ _) (by rfl) h
  clear_value y1
  refine OutInv.ends reelObserve_tick ?_
  refine Inv.ite (Q := timeFrom tk) ?_ ?_
  · exact timeFrom.keep (updPwr_keeps _ _) (by rfl) h30
  · exact h

theorem execWakeNLow_tick {tk : Nat} (testmode : Bool) (s : State) (h : timeFrom tk s) :
    OutInv (timeFrom tk) (execWakeNLow testmode s) := by
  unfold execWakeNLow
  refine OutInv.ends reelObserve_tick ?_
  split
  · exact timeFrom.keep (wake_keeps _) (by rfl) (timeFrom.keep (updPwr_keeps _ _) (by rfl) h)
  · exact timeFrom.keep (updPwr_keeps _ _) (by rfl) h
  · exact h

theorem execXtalFail_tick {tk : Nat} (s : State) (h : timeFrom tk s) :
    OutInv (timeFrom tk) (execXtalFail s) := by
  unfold execXtalFail
  refine OutInv.ends reelObserve_tick ?_
  refine Inv.ite (Q := timeFrom tk) ?_ ?_
  · exact timeFrom.keep (orP_keeps _ _ _ _) (by rfl) (timeFrom.keep (updPwr_keeps _ _) (by rfl) h)
  · exact h

theorem execXtalSwitch_tick {tk : Nat} (s : State) (h : timeFrom tk s) :
    OutInv (timeFrom tk) (execXtalSwitch s) := by
  unfold execXtalSwitch
  refine OutInv.ends reelObserve_tick ?_
  refine Inv.ite (Q := timeFrom tk) ?_ ?_
  · exact h
  · exact timeFrom.keep (updPwr_keeps _ _) (by rfl) h

theorem powerStateBody_tick {tk : Nat} (c : Cmd) (s : State) (h : timeFrom tk s) :
    ResInv (timeFrom tk) (powerStateBody c s) := by
  exact timeFrom.res (powerStateBody_keeps _ _) (by rfl) h

theorem execPowerState_tick {tk : Nat} (c : Cmd) (s : State) (h : timeFrom tk s) :
    OutInv (timeFrom tk) (execPowerState c s) := by
  unfold execPowerState
  refine OutInv.ends reelObserve_tick ?_
  refine Inv.runCmd (Q := timeFrom tk) goodPacket_tick answer_tick ?_ fun x0 _ h1 => ?_
  · exact h
  · exact powerStateBody_tick _ _ h1

theorem execRunToReady_tick {tk : Nat} (s : State) (h : timeFrom tk s) :
    OutInv (timeFrom tk) (execRunToReady s) := by
  unfold execRunToReady
  refine OutInv.clocked ?_ ?_
  · exact h
  · refine OutInv.ends reelObserve_tick ?_
    split
    · exact nextMark_tick _ _ _ h
    · exact h

/-! ### Machine/Reel.lean -/

theorem execReelPostEnd_tick {tk : Nat} (s : State) (h : timeFrom tk s) :
    OutInv (timeFrom tk) (execReelPostEnd s) := by
  unfold execReelPostEnd
  refine OutInv.clocked ?_ ?_
  · exact h
  · refine OutInv.ends reelObserve_tick ?_
    split
    · refine Inv.ite (Q := timeFrom tk) ?_ ?_
      · exact h
      · refine Inv.ite (Q := timeFrom tk) ?_ ?_
        · refine timeFrom.keep (reelStop_keeps _ _) (by rfl) ?_
          exact timeFrom.keep (reelSync_keeps _) (by rfl) (advanceTo_tick _ _ h)
        · refine Inv.ite (Q := timeFrom tk) ?_ ?_
          · exact timeFrom.keep (reelStop_keeps _ _) (by rfl) h
          · exact h
    · exact h

theorem execTbusFall_tick {tk : Nat} (line : Fin 4) (s : State) (h : timeFrom tk s) :
    OutInv (timeFrom tk) (execTbusFall line s) := by
  unfold execTbusFall
  extract_lets y0
  refine Inv.cut (Q := timeFrom tk) (s := y0) ?_ fun h30 => ?_
  · unfold y0
    split
    · exact advanceTo_tick _ _ h
    · exact h
  clear_value y0
  refine OutInv.clocked ?_ ?_
  · exact h
  · refine OutInv.ends reelObserve_tick ?_
    refine Inv.ite (Q := timeFrom tk) ?_ ?_
    · exact h
    · refine Inv.reelObserveWith (Q := timeFrom tk) reelSync_tick reelBefore_tick linesSeen_tick linesDone_tick ?_
        fun x31 h32 => ?_
      · exact timeFrom.keep (tbusFallen_keeps _ _) (by rfl) h30
      · exact timeFrom.keep (tbusTrigger_keeps _ _) (by rfl) h32

theorem execTbusPulseEnd_tick {tk : Nat} (line : Fin 4) (s : State) (h : timeFrom tk s) :
    OutInv (timeFrom tk) (execTbusPulseEnd line s) := by
  unfold execTbusPulseEnd
  refine OutInv.clocked ?_ ?_
  · exact h
  · refine OutInv.ends reelObserve_tick ?_
    split
    · exact timeFrom.keep (updLine_keeps _ _ _) (by rfl) (advanceTo_tick _ _ h)
    · exact h

theorem execTbusRisingEdge_tick {tk : Nat} (line : Fin 4) (s : State) (h : timeFrom tk s) :
    OutInv (timeFrom tk) (execTbusRisingEdge line s) := by
  unfold execTbusRisingEdge
  extract_lets y0
  refine Inv.cut (Q := timeFrom tk) (s := y0) ?_ fun h30 => ?_
  · unfold y0
    split
    · exact advanceTo_tick _ _ h
    · exact h
  clear_value y0
  refine OutInv.clocked ?_ ?_
  · exact h
  · refine OutInv.ends reelObserve_tick ?_
    refine Inv.ite (Q := timeFrom tk) ?_ ?_
    · exact timeFrom.keep (updLine_keeps _ _ _) (by rfl) h30
    · exact h

theorem execTickWrap_tick {tk : Nat} (s : State) (h : timeFrom tk s) :
    OutInv (timeFrom tk) (execTickWrap s) := by
  unfold execTickWrap
  extract_lets y0
  clear_value y0
  refine OutInv.clocked ?_ ?_
  · exact h
  · refine OutInv.ends reelObserve_tick ?_
    split
    · extract_lets y120
      refine Inv.cut (Q := timeFrom tk) (s := y120) ?_ fun h150 => ?_
      · unfold y120
        exact timeFrom.keep (reelSync_keeps _) (by rfl) (advanceTo_tick _ _ h)
      clear_value y120
      exact timeFrom.keep (reelForm_keeps _ _) (by rfl) (timeFrom.keep (updReel_keeps _ _) (by rfl) h150)
    · exact h

theorem execTriggerUnitTimeout_tick {tk : Nat} (unit : Fin 4) (s : State) (h : timeFrom tk s) :
    OutInv (timeFrom tk) (execTriggerUnitTimeout unit s) := by
  unfold execTriggerUnitTimeout
  extract_lets y0 y1 y2
  clear_value y0 y1 y2
  refine OutInv.clocked ?_ ?_
  · exact h
  · refine OutInv.ends reelObserve_tick ?_
    split
    · extract_lets y120
      refine Inv.cut (Q := timeFrom tk) (s := y120) ?_ fun h150 => ?_
      · unfold y120
        exact timeFrom.keep (reelSync_keeps _) (by rfl) (advanceTo_tick _ _ h)
      clear_value y120
      refine Inv.ite (Q := timeFrom tk) ?_ ?_
      · exact timeFrom.keep (reelTrigger_keeps _ _ _) (by rfl) h150
      · exact h
    · exact h

theorem reelArmBody_tick {tk : Nat} (c : Cmd) (s : State) (h : timeFrom tk s) :
    ResInv (timeFrom tk) (reelArmBody c s) := by
  exact timeFrom.res (reelArmBody_keeps _ _) (by rfl) h

theorem reelReadBody_tick {tk : Nat} (c : Cmd) (s : State) (h : timeFrom tk s) :
    ResInv (timeFrom tk) (reelReadBody c s) := by
  exact timeFrom.res (reelReadBody_keeps _ _) (by rfl) h

theorem reelStopBody_tick {tk : Nat} (a : Cmd) (s : State) (h : timeFrom tk s) :
    ResInv (timeFrom tk) (reelStopBody a s) := by
  exact timeFrom.res (reelStopBody_keeps _ _) (by rfl) h

theorem execReelArm_tick {tk : Nat} (c : Cmd) (s : State) (h : timeFrom tk s) :
    OutInv (timeFrom tk) (execReelArm c s) := by
  unfold execReelArm
  refine OutInv.ends reelObserve_tick ?_
  refine Inv.runCmd (Q := timeFrom tk) goodPacket_tick answer_tick ?_ fun x0 _ h1 => ?_
  · exact h
  · exact reelArmBody_tick _ _ h1

theorem execReelRead_tick {tk : Nat} (c : Cmd) (s : State) (h : timeFrom tk s) :
    OutInv (timeFrom tk) (execReelRead c s) := by
  unfold execReelRead
  refine OutInv.ends reelObserve_tick ?_
  refine Inv.runCmd (Q := timeFrom tk) goodPacket_tick answer_tick ?_ fun x0 _ h1 => ?_
  · exact h
  · exact reelReadBody_tick _ _ h1

theorem execReelStop_tick {tk : Nat} (c : Cmd) (s : State) (h : timeFrom tk s) :
    OutInv (timeFrom tk) (execReelStop c s) := by
  unfold execReelStop
  refine OutInv.ends reelObserve_tick ?_
  refine Inv.runCmd (Q := timeFrom tk) goodPacket_tick answer_tick ?_ fun x0 _ h1 => ?_
  · exact h
  · exact reelStopBody_tick _ _ h1

/-! ### Machine/Time.lean -/

theorem execTimeHoldoverExpiry_tick {tk : Nat} (s : State) (h : timeFrom tk s) :
    OutInv (timeFrom tk) (execTimeHoldoverExpiry s) := by
  unfold execTimeHoldoverExpiry
  refine OutInv.clocked ?_ ?_
  · exact h
  · split
    · exact OutInv.ends reelObserve_tick h
    · extract_lets y60
      refine Inv.cut (Q := timeFrom tk) (s := y60) ?_ fun h90 => ?_
      · unfold y60
        exact timeFrom.keep (servoUnlock_keeps _ _) (by rfl) (advanceTo_tick _ _ h)
      clear_value y60
      exact OutInv.ends reelObserve_tick (timeFrom.keep (updTime_keeps _ _) (by rfl) h90)

theorem timeOffsetBody_tick {tk : Nat} (c : Cmd) (s : State) (h : timeFrom tk s) :
    ResInv (timeFrom tk) (timeOffsetBody c s) := by
  exact timeFrom.res (timeOffsetBody_keeps _ _) (by rfl) h

theorem timeReadBody_tick {tk : Nat} (a : Cmd) (s : State) (h : timeFrom tk s) :
    ResInv (timeFrom tk) (timeReadBody a s) := by
  exact timeFrom.res (timeReadBody_keeps _ _) (by rfl) h

theorem timeStepBody_tick {tk : Nat} (c : Cmd) (s : State) (h : timeFrom tk s) :
    ResInv (timeFrom tk) (timeStepBody c s) := by
  exact timeFrom.res (timeStepBody_keeps _ _) (by rfl) h

theorem execTimeOffset_tick {tk : Nat} (c : Cmd) (s : State) (h : timeFrom tk s) :
    OutInv (timeFrom tk) (execTimeOffset c s) := by
  unfold execTimeOffset
  refine OutInv.ends reelObserve_tick ?_
  refine Inv.runCmd (Q := timeFrom tk) goodPacket_tick answer_tick ?_ fun x0 _ h1 => ?_
  · exact h
  · exact timeOffsetBody_tick _ _ h1

theorem execTimeRead_tick {tk : Nat} (c : Cmd) (s : State) (h : timeFrom tk s) :
    OutInv (timeFrom tk) (execTimeRead c s) := by
  unfold execTimeRead
  refine OutInv.ends reelObserve_tick ?_
  refine Inv.runCmd (Q := timeFrom tk) goodPacket_tick answer_tick ?_ fun x0 _ h1 => ?_
  · exact h
  · exact timeReadBody_tick _ _ h1

theorem execTimeStep_tick {tk : Nat} (c : Cmd) (s : State) (h : timeFrom tk s) :
    OutInv (timeFrom tk) (execTimeStep c s) := by
  unfold execTimeStep
  refine OutInv.ends reelObserve_tick ?_
  refine Inv.runCmd (Q := timeFrom tk) goodPacket_tick answer_tick ?_ fun x0 _ h1 => ?_
  · exact h
  · exact timeStepBody_tick _ _ h1

/-! ### Machine/Transport.lean -/

theorem execBar0Read_tick {tk : Nat} (offset : BitVec 18) (wide : Bool) (s : State) (h : timeFrom tk s) :
    OutInv (timeFrom tk) (execBar0Read offset wide s) := by
  unfold execBar0Read
  extract_lets y0 y1 y2 y3
  clear_value y0
  refine Inv.cut (Q := timeFrom tk) (s := y1.2) ?_ fun h30 => ?_
  · unfold y1
    exact timeFrom.keep (mirrorRead_keeps _ _) (by rfl) h
  clear_value y1
  refine Inv.cut (Q := timeFrom tk) (s := y2.2) ?_ fun h31 => ?_
  · unfold y2
    exact timeFrom.keep (mirrorWide_keeps _ _) (by rfl) h
  clear_value y2
  refine Inv.cut (Q := timeFrom tk) (s := y3.2) ?_ fun h32 => ?_
  · unfold y3
    exact timeFrom.keep (mirrorRead_keeps _ _) (by rfl) h30
  clear_value y3
  refine OutInv.ends reelObserve_tick ?_
  refine Inv.ite (Q := timeFrom tk) ?_ ?_
  · exact h
  · refine Inv.ite (Q := timeFrom tk) ?_ ?_
    · exact timeFrom.keep (busPut_keeps _ _) (by rfl) h30
    · refine Inv.ite (Q := timeFrom tk) ?_ ?_
      · exact timeFrom.keep (busPut_keeps _ _) (by rfl) h31
      · exact timeFrom.keep (busPut_keeps _ _) (by rfl) h32

theorem execBar0Write_tick {tk : Nat} (offset : BitVec 18) (value : Word) (s : State) (h : timeFrom tk s) :
    OutInv (timeFrom tk) (execBar0Write offset value s) := by
  unfold execBar0Write
  refine OutInv.ends reelObserve_tick ?_
  refine Inv.ite (Q := timeFrom tk) ?_ ?_
  · exact timeFrom.keep (dropWrite_keeps _) (by rfl) h
  · exact h

theorem execBar2RoWrite_tick {tk : Nat} (offset : BitVec 14) (value : Word) (s : State) (h : timeFrom tk s) :
    OutInv (timeFrom tk) (execBar2RoWrite offset value s) := by
  unfold execBar2RoWrite
  refine OutInv.ends reelObserve_tick ?_
  refine Inv.ite (Q := timeFrom tk) ?_ ?_
  · exact timeFrom.keep (bar2Write_keeps _ _ _) (by rfl) h
  · exact h

theorem execCmdTailWrite_tick {tk : Nat} (words : List Word) (value : Word) (s : State) (h : timeFrom tk s) :
    OutInv (timeFrom tk) (execCmdTailWrite words value s) := by
  unfold execCmdTailWrite
  refine OutInv.ends reelObserve_tick ?_
  refine Inv.ite (Q := timeFrom tk) ?_ ?_
  · exact timeFrom.keep (tailWrite_keeps _ _) (by rfl) (timeFrom.keep (updHost_keeps _ _) (by rfl) h)
  · exact h

theorem execHostSilent_tick {tk : Nat} (s : State) (h : timeFrom tk s) :
    OutInv (timeFrom tk) (execHostSilent s) := by
  unfold execHostSilent
  extract_lets y0
  refine Inv.cut (Q := timeFrom tk) (s := y0) ?_ fun h30 => ?_
  · unfold y0
    exact advanceTo_tick _ _ h
  clear_value y0
  refine OutInv.clocked ?_ ?_
  · exact h
  · refine OutInv.ends reelObserve_tick ?_
    refine Inv.ite (Q := timeFrom tk) ?_ ?_
    · refine Inv.ite (Q := timeFrom tk) ?_ ?_
      · exact h30
      · exact timeFrom.keep (raiseFault_keeps _ _ _) (by rfl) h30
    · exact h

theorem execIrqCauseWrite_tick {tk : Nat} (value : Word) (s : State) (h : timeFrom tk s) :
    OutInv (timeFrom tk) (execIrqCauseWrite value s) := by
  unfold execIrqCauseWrite
  refine OutInv.ends reelObserve_tick ?_
  refine Inv.ite (Q := timeFrom tk) ?_ ?_
  · exact timeFrom.keep (clearSet_keeps _ _ _ _) (by rfl) h
  · exact h

theorem execMsiEnableWrite_tick {tk : Nat} (value : Word) (s : State) (h : timeFrom tk s) :
    OutInv (timeFrom tk) (execMsiEnableWrite value s) := by
  unfold execMsiEnableWrite
  refine OutInv.ends reelObserve_tick ?_
  refine Inv.ite (Q := timeFrom tk) ?_ ?_
  · exact timeFrom.keep (putP_keeps _ _ _ _) (by rfl) h
  · exact h

theorem execPacketTake_tick {tk : Nat} (port : Port) (s : State) (h : timeFrom tk s) :
    OutInv (timeFrom tk) (execPacketTake port s) := by
  unfold execPacketTake
  exact OutInv.ends reelObserve_tick (timeFrom.keep (takePacket_keeps _ _) (by rfl) h)

theorem execPcieLinkDown_tick {tk : Nat} (s : State) (h : timeFrom tk s) :
    OutInv (timeFrom tk) (execPcieLinkDown s) := by
  unfold execPcieLinkDown
  exact OutInv.ends reelObserve_tick (timeFrom.keep (updHost_keeps _ _) (by rfl) h)

theorem execPcieReset_tick {tk : Nat} (s : State) (h : timeFrom tk s) :
    OutInv (timeFrom tk) (execPcieReset s) := by
  unfold execPcieReset
  refine OutInv.ends reelObserve_tick ?_
  refine Inv.ite (Q := timeFrom tk) ?_ ?_
  · exact timeFrom.keep (updHost_keeps _ _) (by rfl) h
  · exact h

theorem execRplHeadWrite_tick {tk : Nat} (value : Word) (s : State) (h : timeFrom tk s) :
    OutInv (timeFrom tk) (execRplHeadWrite value s) := by
  unfold execRplHeadWrite
  refine OutInv.ends reelObserve_tick ?_
  refine Inv.ite (Q := timeFrom tk) ?_ ?_
  · exact timeFrom.keep (headWrite_keeps _ _) (by rfl) h
  · exact h

theorem pingBody_tick {tk : Nat} (c : Cmd) (s : State) (h : timeFrom tk s) :
    ResInv (timeFrom tk) (pingBody c s) := by
  exact timeFrom.res (pingBody_keeps _ _) (by rfl) h

theorem spiRun_tick {tk : Nat} (s : State) (bytes : List Nat) (h : timeFrom tk s) :
    OutInv (timeFrom tk) (spiRun s bytes) := by
  unfold spiRun
  refine OutInv.ends reelObserve_tick ?_
  refine Inv.ite (Q := timeFrom tk) ?_ ?_
  · exact timeFrom.keep (spiTransaction_keeps _ _) (by rfl) h
  · exact h

theorem execPing_tick {tk : Nat} (c : Cmd) (s : State) (h : timeFrom tk s) :
    OutInv (timeFrom tk) (execPing c s) := by
  unfold execPing
  refine OutInv.ends reelObserve_tick ?_
  refine Inv.runCmd (Q := timeFrom tk) goodPacket_tick answer_tick ?_ fun x0 _ h1 => ?_
  · exact h
  · exact pingBody_tick _ _ h1

theorem execReadReply_tick {tk : Nat} (words : Nat) (s : State) (h : timeFrom tk s) :
    OutInv (timeFrom tk) (execReadReply words s) := by
  unfold execReadReply
  exact spiRun_tick _ _ h

theorem execReadStatus_tick {tk : Nat} (s : State) (h : timeFrom tk s) :
    OutInv (timeFrom tk) (execReadStatus s) := by
  unfold execReadStatus
  exact spiRun_tick _ _ h

theorem execWritePacket_tick {tk : Nat} (words : List Word) (s : State) (h : timeFrom tk s) :
    OutInv (timeFrom tk) (execWritePacket words s) := by
  unfold execWritePacket
  exact spiRun_tick _ _ h

/-! ### Machine/Dispatch.lean -/

theorem exec_tick {tk : Nat} (i : Instr) (s : State) (h : timeFrom tk s) :
    OutInv (timeFrom tk) (exec i s) := by
  unfold exec
  split
  · exact execPing_tick _ _ h
  · exact execGetParam_tick _ _ h
  · exact execSetParam_tick _ _ h
  · exact execCommitGroup_tick _ _ h
  · exact execCommitGroupDiscard_tick _ _ h
  · exact execGetBlock_tick _ _ h
  · exact execSetBlock_tick _ _ h
  · exact execDiscover_tick _ _ h
  · exact execDiscoverDone_tick _ _ _ h
  · exact execReadIdentity_tick _ _ h
  · exact execReadIdentityDone_tick _ _ _ h
  · exact execPlace_tick _ _ h
  · exact execPlaceDone_tick _ h
  · exact execCellConfig_tick _ _ h
  · exact execCellConfigDone_tick _ h
  · exact execTallyReport_tick _ _ h
  · exact execLaneBringup_tick _ _ h
  · exact execLaneRetire_tick _ _ h
  · exact execLaneLoop_tick _ _ h
  · exact execLaneLoopEndMode0_tick _ _ h
  · exact execLaneLoopEnd_tick _ _ _ _ _ _ h
  · exact execEyeScan_tick _ _ h
  · exact execEyeScanDone_tick _ _ h
  · exact execArmEnable_tick _ _ h
  · exact execDeblock_tick _ _ h
  · exact execBlock_tick _ _ h
  · exact execCleatAdd_tick _ _ h
  · exact execCleatRelease_tick _ _ h
  · exact execMaintAdmit_tick _ _ h
  · exact execMaintEnd_tick _ _ h
  · exact execCellRetire_tick _ _ h
  · exact execCellRetireTimeout_tick _ _ h
  · exact execLoopMode_tick _ _ h
  · exact execTrajQueue_tick _ _ h
  · exact execTrajFlush_tick _ _ h
  · exact execAdcCalZero_tick _ _ h
  · exact execAdcCalFull_tick _ _ h
  · exact execAdcCalZeroDone_tick _ _ h
  · exact execAdcCalFullDone_tick _ _ h
  · exact execAdcInject_tick _ _ h
  · exact execDecSync_tick _ _ h
  · exact execHomeStart_tick _ _ h
  · exact execHomeAbort_tick _ _ h
  · exact execHomingDone_tick _ _ h
  · exact execCmpSelftest_tick _ _ h
  · exact execCmpSelftestDone_tick _ _ _ h
  · exact execFaultRead_tick _ _ h
  · exact execFaultClear_tick _ _ h
  · exact execFaultAck_tick _ _ h
  · exact execFaultInject_tick _ _ h
  · exact execSafetyUnlock_tick _ _ h
  · exact execSafetyWrite_tick _ _ h
  · exact execSafetyLogRead_tick _ _ h
  · exact execSafetyLock_tick _ _ h
  · exact execTakeover_tick _ _ h
  · exact execSwitchback_tick _ _ h
  · exact execReelArm_tick _ _ h
  · exact execReelRead_tick _ _ h
  · exact execReelStop_tick _ _ h
  · exact execTimeOffset_tick _ _ h
  · exact execTimeStep_tick _ _ h
  · exact execTimeRead_tick _ _ h
  · exact execPowerState_tick _ _ h
  · exact execTraceRead_tick _ _ h
  · exact execFwPatch_tick _ _ h
  · exact execFwPatchDone_tick _ h
  · exact execFactoryUnlock_tick _ _ h
  · exact execPacketTake_tick _ _ h
  · exact execWritePacket_tick _ _ h
  · exact execReadReply_tick _ _ h
  · exact execReadStatus_tick _ h
  · exact execCmdTailWrite_tick _ _ _ h
  · exact execRplHeadWrite_tick _ _ h
  · exact execIrqCauseWrite_tick _ _ h
  · exact execMsiEnableWrite_tick _ _ h
  · exact execBar0Write_tick _ _ _ h
  · exact execBar2RoWrite_tick _ _ _ h
  · exact execPcieReset_tick _ h
  · exact execPcieLinkDown_tick _ h
  · exact execHostSilent_tick _ h
  · exact execTrajPreset_tick _ _ h
  · exact execEncPreset_tick _ _ h
  · exact execEncLatchCfg_tick _ _ h
  · exact execDiscMtStart_tick _ _ h
  · exact execDiscMtAbort_tick _ _ h
  · exact execMtWindowEnd_tick _ h
  · exact execTallyExpectAct_tick _ _ h
  · exact execTallyOldClear_tick _ _ h
  · exact execTallyPersistExpiry_tick _ _ h
  · exact execCltExclude_tick _ _ h
  · exact execAdcPtStart_tick _ _ h
  · exact execPathTestDone_tick _ h
  · exact execDecCfg_tick _ _ h
  · exact execTbusForce_tick _ _ h
  · exact execChopMode_tick _ _ h
  · exact execChopForce_tick _ _ h
  · exact execPwrLaneEn_tick _ _ h
  · exact execFrmHubHoldMax_tick _ _ h
  · exact execStrTraceCtrl_tick _ _ h
  · exact execFltErrHold_tick _ _ h
  · exact execPeriodMark_tick _ _ _ h
  · exact execDispatchResume_tick _ h
  · exact execResumeTimeout_tick _ h
  · exact execTakeoverWindowEnd_tick _ h
  · exact execPeerHeartbeat_tick _ _ _ h
  · exact execPeerDataFrame_tick _ _ h
  · exact execUpstreamFrame_tick _ _ h
  · exact execUpstreamFrameDeadline_tick _ _ h
  · exact execCellSilenceSuspect_tick _ _ h
  · exact execCleatRetryWindowEnd_tick _ _ h
  · exact execCleatEntryFree_tick _ _ h
  · exact execActivityFree_tick _ _ h
  · exact execPermConfirmTimeout_tick _ _ h
  · exact execPermBypassRetry_tick _ _ h
  · exact execTaskPlace_tick _ h
  · exact execTaskComplete_tick _ _ h
  · exact execTaskDeadline_tick _ _ h
  · exact execTaskWatchdog_tick _ _ h
  · exact execStrandSramError_tick _ _ _ h
  · exact execDetectDone_tick _ _ _ h
  · exact execTrainDone_tick _ _ _ _ h
  · exact execLockDone_tick _ _ _ h
  · exact execCapsDone_tick _ _ _ _ _ _ _ h
  · exact execBringupStageTimeout_tick _ _ h
  · exact execLossOfLock_tick _ _ _ _ h
  · exact execRebringupRetry_tick _ _ h
  · exact execRetryWindowEnd_tick _ _ h
  · exact execLaneErrorWindowEnd_tick _ _ h
  · exact execGraceExpiry_tick _ _ h
  · exact execErrPulseEnd_tick _ h
  · exact execBelaySample_tick _ _ _ _ _ _ _ h
  · exact execTestPulseStart_tick _ _ h
  · exact execTestPulseEnd_tick _ _ h
  · exact execSrstStuck_tick _ h
  · exact execHeartbeatTimeout_tick _ h
  · exact execFdcStaleTimeout_tick _ _ h
  · exact execBelayClockCheck_tick _ _ h
  · exact execBelayReset_tick _ _ _ h
  · exact execBelayResetRelease_tick _ _ _ h
  · exact execSafetySessionTimeout_tick _ h
  · exact execUnlockBackoffEnd_tick _ h
  · exact execChopCycleStart_tick _ _ _ h
  · exact execChopGateEdge_tick _ _ _ _ h
  · exact execChopTripRecognised_tick _ _ h
  · exact execChopTripReleased_tick _ _ h
  · exact execChopBlankingEnd_tick _ _ h
  · exact execChopScConfirm_tick _ _ _ h
  · exact execChopScWindowEnd_tick _ _ h
  · exact execGateSupplyNotOk_tick _ _ _ h
  · exact execGateSupplyOk_tick _ _ _ h
  · exact execAdcSequenceTrigger_tick _ _ _ h
  · exact execAdcConversionEnd_tick _ _ _ h
  · exact execDecSlot_tick _ _ _ h
  · exact execDecStuck_tick _ _ h
  · exact execDsyncFall_tick _ h
  · exact execEncTransition_tick _ _ _ _ _ _ h
  · exact execEncIllegalWindowEnd_tick _ _ h
  · exact execEncLimitTrip_tick _ _ _ _ h
  · exact execEncHomeActive_tick _ _ _ h
  · exact execTimeHoldoverExpiry_tick _ h
  · exact execTbusFall_tick _ _ h
  · exact execTbusPulseEnd_tick _ _ h
  · exact execReelPostEnd_tick _ h
  · exact execPorstRelease_tick _ _ h
  · exact execPorstAssert_tick _ _ h
  · exact execListenEntry_tick _ _ h
  · exact execWakeNLow_tick _ _ h
  · exact execDormantEntry_tick _ h
  · exact execXtalSwitch_tick _ h
  · exact execXtalFail_tick _ h
  · exact execCorePllLock_tick _ h
  · exact execBistDone_tick _ _ _ _ _ _ h
  · exact execLanePllLock_tick _ _ h
  · exact execDispatchTestDone_tick _ _ _ h
  · exact execRunToReady_tick _ h
  · exact execCorePllLoss_tick _ h
  · exact execLanePllLoss_tick _ _ h
  · exact execEncLimitInactive_tick _ _ _ _ h
  · exact execTbusRisingEdge_tick _ _ h
  · exact execTriggerUnitTimeout_tick _ _ h
  · exact execTickWrap_tick _ h
  · exact execBar0Read_tick _ _ _ h
  · exact execBelaySramError_tick _ h

end Sys2Proof.Machine
end

