-- ==== Sys2Proof/Laws/Total.lean ====
section
/-! SUPPORT. Every command and every event answers a next state. -/

namespace Sys2Proof.Machine

/-- An outcome that is a next state. -/
def Nexts (o : Host.Outcome State Fault Refusal) : Prop := ∃ t, o = .next t

theorem Nexts.ends (s : State) : Nexts (ends s) := ⟨_, rfl⟩

theorem Nexts.clocked {s : State} {o : Host.Outcome State Fault Refusal} (h : Nexts o) : Nexts (whenClocked s o) := by
  unfold whenClocked
  split
  · exact h
  · exact ⟨s, rfl⟩

theorem exec_next (i : Instr) (s : State) : Nexts (exec i s) := by
  cases i
  case ping => unfold exec execPing; (try dsimp only); (repeat' split) <;> exact .ends _
  case getParam => unfold exec execGetParam; (try dsimp only); (repeat' split) <;> exact .ends _
  case setParam => unfold exec execSetParam; (try dsimp only); (repeat' split) <;> exact .ends _
  case commitGroup => unfold exec execCommitGroup; (try dsimp only); (repeat' split) <;> exact .ends _
  case commitGroupDiscard => unfold exec execCommitGroupDiscard; (try dsimp only); (repeat' split) <;> exact .ends _
  case getBlock => unfold exec execGetBlock; (try dsimp only); (repeat' split) <;> exact .ends _
  case setBlock => unfold exec execSetBlock; (try dsimp only); (repeat' split) <;> exact .ends _
  case discover => unfold exec execDiscover; (try dsimp only); (repeat' split) <;> exact .ends _
  case discoverDone => unfold exec execDiscoverDone; refine Nexts.clocked ?_; (try dsimp only); (repeat' split) <;> exact .ends _
  case readIdentity => unfold exec execReadIdentity; (try dsimp only); (repeat' split) <;> exact .ends _
  case readIdentityDone => unfold exec execReadIdentityDone; refine Nexts.clocked ?_; (try dsimp only); (repeat' split) <;> exact .ends _
  case place => unfold exec execPlace; (try dsimp only); (repeat' split) <;> exact .ends _
  case placeDone => unfold exec execPlaceDone; refine Nexts.clocked ?_; (try dsimp only); (repeat' split) <;> exact .ends _
  case cellConfig => unfold exec execCellConfig; (try dsimp only); (repeat' split) <;> exact .ends _
  case cellConfigDone => unfold exec execCellConfigDone; refine Nexts.clocked ?_; (try dsimp only); (repeat' split) <;> exact .ends _
  case tallyReport => unfold exec execTallyReport; (try dsimp only); (repeat' split) <;> exact .ends _
  case laneBringup => unfold exec execLaneBringup; (try dsimp only); (repeat' split) <;> exact .ends _
  case laneRetire => unfold exec execLaneRetire; (try dsimp only); (repeat' split) <;> exact .ends _
  case laneLoop => unfold exec execLaneLoop; (try dsimp only); (repeat' split) <;> exact .ends _
  case laneLoopEndMode0 => unfold exec execLaneLoopEndMode0; (try dsimp only); (repeat' split) <;> exact .ends _
  case laneLoopEnd => unfold exec execLaneLoopEnd; refine Nexts.clocked ?_; (try dsimp only); (repeat' split) <;> exact .ends _
  case eyeScan => unfold exec execEyeScan; (try dsimp only); (repeat' split) <;> exact .ends _
  case eyeScanDone => unfold exec execEyeScanDone; refine Nexts.clocked ?_; (try dsimp only); (repeat' split) <;> exact .ends _
  case armEnable => unfold exec execArmEnable; (try dsimp only); (repeat' split) <;> exact .ends _
  case deblock => unfold exec execDeblock; (try dsimp only); (repeat' split) <;> exact .ends _
  case block => unfold exec execBlock; (try dsimp only); (repeat' split) <;> exact .ends _
  case cleatAdd => unfold exec execCleatAdd; (try dsimp only); (repeat' split) <;> exact .ends _
  case cleatRelease => unfold exec execCleatRelease; (try dsimp only); (repeat' split) <;> exact .ends _
  case maintAdmit => unfold exec execMaintAdmit; (try dsimp only); (repeat' split) <;> exact .ends _
  case maintEnd => unfold exec execMaintEnd; (try dsimp only); (repeat' split) <;> exact .ends _
  case cellRetire => unfold exec execCellRetire; (try dsimp only); (repeat' split) <;> exact .ends _
  case cellRetireTimeout => unfold exec execCellRetireTimeout; refine Nexts.clocked ?_; (try dsimp only); (repeat' split) <;> exact .ends _
  case loopMode => unfold exec execLoopMode; (try dsimp only); (repeat' split) <;> exact .ends _
  case trajQueue => unfold exec execTrajQueue; (try dsimp only); (repeat' split) <;> exact .ends _
  case trajFlush => unfold exec execTrajFlush; (try dsimp only); (repeat' split) <;> exact .ends _
  case adcCalZero => unfold exec execAdcCalZero; (try dsimp only); (repeat' split) <;> exact .ends _
  case adcCalFull => unfold exec execAdcCalFull; (try dsimp only); (repeat' split) <;> exact .ends _
  case adcCalZeroDone => unfold exec execAdcCalZeroDone; refine Nexts.clocked ?_; (try dsimp only); (repeat' split) <;> exact .ends _
  case adcCalFullDone => unfold exec execAdcCalFullDone; refine Nexts.clocked ?_; (try dsimp only); (repeat' split) <;> exact .ends _
  case adcInject => unfold exec execAdcInject; (try dsimp only); (repeat' split) <;> exact .ends _
  case decSync => unfold exec execDecSync; (try dsimp only); (repeat' split) <;> exact .ends _
  case homeStart => unfold exec execHomeStart; (try dsimp only); (repeat' split) <;> exact .ends _
  case homeAbort => unfold exec execHomeAbort; (try dsimp only); (repeat' split) <;> exact .ends _
  case homingDone => unfold exec execHomingDone; refine Nexts.clocked ?_; (try dsimp only); (repeat' split) <;> exact .ends _
  case cmpSelftest => unfold exec execCmpSelftest; (try dsimp only); (repeat' split) <;> exact .ends _
  case cmpSelftestDone => unfold exec execCmpSelftestDone; refine Nexts.clocked ?_; (try dsimp only); (repeat' split) <;> exact .ends _
  case faultRead => unfold exec execFaultRead; (try dsimp only); (repeat' split) <;> exact .ends _
  case faultClear => unfold exec execFaultClear; (try dsimp only); (repeat' split) <;> exact .ends _
  case faultAck => unfold exec execFaultAck; (try dsimp only); (repeat' split) <;> exact .ends _
  case faultInject => unfold exec execFaultInject; (try dsimp only); (repeat' split) <;> exact .ends _
  case safetyUnlock => unfold exec execSafetyUnlock; (try dsimp only); (repeat' split) <;> exact .ends _
  case safetyWrite => unfold exec execSafetyWrite; (try dsimp only); (repeat' split) <;> exact .ends _
  case safetyLogRead => unfold exec execSafetyLogRead; (try dsimp only); (repeat' split) <;> exact .ends _
  case safetyLock => unfold exec execSafetyLock; (try dsimp only); (repeat' split) <;> exact .ends _
  case takeover => unfold exec execTakeover; (try dsimp only); (repeat' split) <;> exact .ends _
  case switchback => unfold exec execSwitchback; (try dsimp only); (repeat' split) <;> exact .ends _
  case reelArm => unfold exec execReelArm; (try dsimp only); (repeat' split) <;> exact .ends _
  case reelRead => unfold exec execReelRead; (try dsimp only); (repeat' split) <;> exact .ends _
  case reelStop => unfold exec execReelStop; (try dsimp only); (repeat' split) <;> exact .ends _
  case timeOffset => unfold exec execTimeOffset; (try dsimp only); (repeat' split) <;> exact .ends _
  case timeStep => unfold exec execTimeStep; (try dsimp only); (repeat' split) <;> exact .ends _
  case timeRead => unfold exec execTimeRead; (try dsimp only); (repeat' split) <;> exact .ends _
  case powerState => unfold exec execPowerState; (try dsimp only); (repeat' split) <;> exact .ends _
  case traceRead => unfold exec execTraceRead; (try dsimp only); (repeat' split) <;> exact .ends _
  case fwPatch => unfold exec execFwPatch; (try dsimp only); (repeat' split) <;> exact .ends _
  case fwPatchDone => unfold exec execFwPatchDone; refine Nexts.clocked ?_; (try dsimp only); (repeat' split) <;> exact .ends _
  case factoryUnlock => unfold exec execFactoryUnlock; (try dsimp only); (repeat' split) <;> exact .ends _
  case packetTake => unfold exec execPacketTake; (try dsimp only); (repeat' split) <;> exact .ends _
  case writePacket => unfold exec execWritePacket; (try dsimp only); (repeat' split) <;> exact .ends _
  case readReply => unfold exec execReadReply; (try dsimp only); (repeat' split) <;> exact .ends _
  case readStatus => unfold exec execReadStatus; (try dsimp only); (repeat' split) <;> exact .ends _
  case cmdTailWrite => unfold exec execCmdTailWrite; (try dsimp only); (repeat' split) <;> exact .ends _
  case rplHeadWrite => unfold exec execRplHeadWrite; (try dsimp only); (repeat' split) <;> exact .ends _
  case irqCauseWrite => unfold exec execIrqCauseWrite; (try dsimp only); (repeat' split) <;> exact .ends _
  case msiEnableWrite => unfold exec execMsiEnableWrite; (try dsimp only); (repeat' split) <;> exact .ends _
  case bar0Write => unfold exec execBar0Write; (try dsimp only); (repeat' split) <;> exact .ends _
  case bar2RoWrite => unfold exec execBar2RoWrite; (try dsimp only); (repeat' split) <;> exact .ends _
  case pcieReset => unfold exec execPcieReset; (try dsimp only); (repeat' split) <;> exact .ends _
  case pcieLinkDown => unfold exec execPcieLinkDown; (try dsimp only); (repeat' split) <;> exact .ends _
  case hostSilent => unfold exec execHostSilent; refine Nexts.clocked ?_; (try dsimp only); (repeat' split) <;> exact .ends _
  case trajPreset => unfold exec execTrajPreset; (try dsimp only); (repeat' split) <;> exact .ends _
  case encPreset => unfold exec execEncPreset; (try dsimp only); (repeat' split) <;> exact .ends _
  case encLatchCfg => unfold exec execEncLatchCfg; (try dsimp only); (repeat' split) <;> exact .ends _
  case discMtStart => unfold exec execDiscMtStart; (try dsimp only); (repeat' split) <;> exact .ends _
  case discMtAbort => unfold exec execDiscMtAbort; (try dsimp only); (repeat' split) <;> exact .ends _
  case mtWindowEnd => unfold exec execMtWindowEnd; refine Nexts.clocked ?_; (try dsimp only); (repeat' split) <;> exact .ends _
  case tallyExpectAct => unfold exec execTallyExpectAct; (try dsimp only); (repeat' split) <;> exact .ends _
  case tallyOldClear => unfold exec execTallyOldClear; (try dsimp only); (repeat' split) <;> exact .ends _
  case tallyPersistExpiry => unfold exec execTallyPersistExpiry; refine Nexts.clocked ?_; (try dsimp only); (repeat' split) <;> exact .ends _
  case cltExclude => unfold exec execCltExclude; (try dsimp only); (repeat' split) <;> exact .ends _
  case adcPtStart => unfold exec execAdcPtStart; (try dsimp only); (repeat' split) <;> exact .ends _
  case pathTestDone => unfold exec execPathTestDone; refine Nexts.clocked ?_; (try dsimp only); (repeat' split) <;> exact .ends _
  case decCfg => unfold exec execDecCfg; (try dsimp only); (repeat' split) <;> exact .ends _
  case tbusForce => unfold exec execTbusForce; (try dsimp only); (repeat' split) <;> exact .ends _
  case chopMode => unfold exec execChopMode; (try dsimp only); (repeat' split) <;> exact .ends _
  case chopForce => unfold exec execChopForce; (try dsimp only); (repeat' split) <;> exact .ends _
  case pwrLaneEn => unfold exec execPwrLaneEn; (try dsimp only); (repeat' split) <;> exact .ends _
  case frmHubHoldMax => unfold exec execFrmHubHoldMax; (try dsimp only); (repeat' split) <;> exact .ends _
  case strTraceCtrl => unfold exec execStrTraceCtrl; (try dsimp only); (repeat' split) <;> exact .ends _
  case fltErrHold => unfold exec execFltErrHold; (try dsimp only); (repeat' split) <;> exact .ends _
  case periodMark => unfold exec execPeriodMark; refine Nexts.clocked ?_; (try dsimp only); (repeat' split) <;> exact .ends _
  case dispatchResume => unfold exec execDispatchResume; refine Nexts.clocked ?_; (try dsimp only); (repeat' split) <;> exact .ends _
  case resumeTimeout => unfold exec execResumeTimeout; refine Nexts.clocked ?_; (try dsimp only); (repeat' split) <;> exact .ends _
  case takeoverWindowEnd => unfold exec execTakeoverWindowEnd; refine Nexts.clocked ?_; (try dsimp only); (repeat' split) <;> exact .ends _
  case peerHeartbeat => unfold exec execPeerHeartbeat; refine Nexts.clocked ?_; (try dsimp only); (repeat' split) <;> exact .ends _
  case peerDataFrame => unfold exec execPeerDataFrame; refine Nexts.clocked ?_; (try dsimp only); (repeat' split) <;> exact .ends _
  case upstreamFrame => unfold exec execUpstreamFrame; refine Nexts.clocked ?_; (try dsimp only); (repeat' split) <;> exact .ends _
  case upstreamFrameDeadline => unfold exec execUpstreamFrameDeadline; refine Nexts.clocked ?_; (try dsimp only); (repeat' split) <;> exact .ends _
  case cellSilenceSuspect => unfold exec execCellSilenceSuspect; refine Nexts.clocked ?_; (try dsimp only); (repeat' split) <;> exact .ends _
  case cleatRetryWindowEnd => unfold exec execCleatRetryWindowEnd; refine Nexts.clocked ?_; (try dsimp only); (repeat' split) <;> exact .ends _
  case cleatEntryFree => unfold exec execCleatEntryFree; refine Nexts.clocked ?_; (try dsimp only); (repeat' split) <;> exact .ends _
  case activityFree => unfold exec execActivityFree; refine Nexts.clocked ?_; (try dsimp only); (repeat' split) <;> exact .ends _
  case permConfirmTimeout => unfold exec execPermConfirmTimeout; refine Nexts.clocked ?_; (try dsimp only); (repeat' split) <;> exact .ends _
  case permBypassRetry => unfold exec execPermBypassRetry; refine Nexts.clocked ?_; (try dsimp only); (repeat' split) <;> exact .ends _
  case taskPlace => unfold exec execTaskPlace; refine Nexts.clocked ?_; (try dsimp only); (repeat' split) <;> exact .ends _
  case taskComplete => unfold exec execTaskComplete; refine Nexts.clocked ?_; (try dsimp only); (repeat' split) <;> exact .ends _
  case taskDeadline => unfold exec execTaskDeadline; refine Nexts.clocked ?_; (try dsimp only); (repeat' split) <;> exact .ends _
  case taskWatchdog => unfold exec execTaskWatchdog; refine Nexts.clocked ?_; (try dsimp only); (repeat' split) <;> exact .ends _
  case strandSramError => unfold exec execStrandSramError; refine Nexts.clocked ?_; (try dsimp only); (repeat' split) <;> exact .ends _
  case detectDone => unfold exec execDetectDone; refine Nexts.clocked ?_; (try dsimp only); (repeat' split) <;> exact .ends _
  case trainDone => unfold exec execTrainDone; refine Nexts.clocked ?_; (try dsimp only); (repeat' split) <;> exact .ends _
  case lockDone => unfold exec execLockDone; refine Nexts.clocked ?_; (try dsimp only); (repeat' split) <;> exact .ends _
  case capsDone => unfold exec execCapsDone; refine Nexts.clocked ?_; (try dsimp only); (repeat' split) <;> exact .ends _
  case bringupStageTimeout => unfold exec execBringupStageTimeout; refine Nexts.clocked ?_; (try dsimp only); (repeat' split) <;> exact .ends _
  case lossOfLock => unfold exec execLossOfLock; refine Nexts.clocked ?_; (try dsimp only); (repeat' split) <;> exact .ends _
  case rebringupRetry => unfold exec execRebringupRetry; refine Nexts.clocked ?_; (try dsimp only); (repeat' split) <;> exact .ends _
  case retryWindowEnd => unfold exec execRetryWindowEnd; refine Nexts.clocked ?_; (try dsimp only); (repeat' split) <;> exact .ends _
  case laneErrorWindowEnd => unfold exec execLaneErrorWindowEnd; refine Nexts.clocked ?_; (try dsimp only); (repeat' split) <;> exact .ends _
  case graceExpiry => unfold exec execGraceExpiry; refine Nexts.clocked ?_; (try dsimp only); (repeat' split) <;> exact .ends _
  case errPulseEnd => unfold exec execErrPulseEnd; refine Nexts.clocked ?_; (try dsimp only); (repeat' split) <;> exact .ends _
  case belaySample => unfold exec execBelaySample; (try dsimp only); (repeat' split) <;> exact .ends _
  case testPulseStart => unfold exec execTestPulseStart; (try dsimp only); (repeat' split) <;> exact .ends _
  case testPulseEnd => unfold exec execTestPulseEnd; (try dsimp only); (repeat' split) <;> exact .ends _
  case srstStuck => unfold exec execSrstStuck; (try dsimp only); (repeat' split) <;> exact .ends _
  case heartbeatTimeout => unfold exec execHeartbeatTimeout; (try dsimp only); (repeat' split) <;> exact .ends _
  case fdcStaleTimeout => unfold exec execFdcStaleTimeout; (try dsimp only); (repeat' split) <;> exact .ends _
  case belayClockCheck => unfold exec execBelayClockCheck; (try dsimp only); (repeat' split) <;> exact .ends _
  case belayReset => unfold exec execBelayReset; (try dsimp only); (repeat' split) <;> exact .ends _
  case belayResetRelease => unfold exec execBelayResetRelease; (try dsimp only); (repeat' split) <;> exact .ends _
  case safetySessionTimeout => unfold exec execSafetySessionTimeout; (try dsimp only); (repeat' split) <;> exact .ends _
  case unlockBackoffEnd => unfold exec execUnlockBackoffEnd; (try dsimp only); (repeat' split) <;> exact .ends _
  case chopCycleStart => unfold exec execChopCycleStart; refine Nexts.clocked ?_; (try dsimp only); (repeat' split) <;> exact .ends _
  case chopGateEdge => unfold exec execChopGateEdge; refine Nexts.clocked ?_; (try dsimp only); (repeat' split) <;> exact .ends _
  case chopTripRecognised => unfold exec execChopTripRecognised; refine Nexts.clocked ?_; (try dsimp only); (repeat' split) <;> exact .ends _
  case chopTripReleased => unfold exec execChopTripReleased; refine Nexts.clocked ?_; (try dsimp only); (repeat' split) <;> exact .ends _
  case chopBlankingEnd => unfold exec execChopBlankingEnd; refine Nexts.clocked ?_; (try dsimp only); (repeat' split) <;> exact .ends _
  case chopScConfirm => unfold exec execChopScConfirm; refine Nexts.clocked ?_; (try dsimp only); (repeat' split) <;> exact .ends _
  case chopScWindowEnd => unfold exec execChopScWindowEnd; refine Nexts.clocked ?_; (try dsimp only); (repeat' split) <;> exact .ends _
  case gateSupplyNotOk => unfold exec execGateSupplyNotOk; refine Nexts.clocked ?_; (try dsimp only); (repeat' split) <;> exact .ends _
  case gateSupplyOk => unfold exec execGateSupplyOk; refine Nexts.clocked ?_; (try dsimp only); (repeat' split) <;> exact .ends _
  case adcSequenceTrigger => unfold exec execAdcSequenceTrigger; refine Nexts.clocked ?_; (try dsimp only); (repeat' split) <;> exact .ends _
  case adcConversionEnd => unfold exec execAdcConversionEnd; refine Nexts.clocked ?_; (try dsimp only); (repeat' split) <;> exact .ends _
  case decSlot => unfold exec execDecSlot; refine Nexts.clocked ?_; (try dsimp only); (repeat' split) <;> exact .ends _
  case decStuck => unfold exec execDecStuck; refine Nexts.clocked ?_; (try dsimp only); (repeat' split) <;> exact .ends _
  case dsyncFall => unfold exec execDsyncFall; refine Nexts.clocked ?_; (try dsimp only); (repeat' split) <;> exact .ends _
  case encTransition => unfold exec execEncTransition; refine Nexts.clocked ?_; (try dsimp only); (repeat' split) <;> exact .ends _
  case encIllegalWindowEnd => unfold exec execEncIllegalWindowEnd; refine Nexts.clocked ?_; (try dsimp only); (repeat' split) <;> exact .ends _
  case encLimitTrip => unfold exec execEncLimitTrip; refine Nexts.clocked ?_; (try dsimp only); (repeat' split) <;> exact .ends _
  case encHomeActive => unfold exec execEncHomeActive; refine Nexts.clocked ?_; (try dsimp only); (repeat' split) <;> exact .ends _
  case timeHoldoverExpiry => unfold exec execTimeHoldoverExpiry; refine Nexts.clocked ?_; (try dsimp only); (repeat' split) <;> exact .ends _
  case tbusFall => unfold exec execTbusFall; refine Nexts.clocked ?_; (try dsimp only); (repeat' split) <;> exact .ends _
  case tbusPulseEnd => unfold exec execTbusPulseEnd; refine Nexts.clocked ?_; (try dsimp only); (repeat' split) <;> exact .ends _
  case reelPostEnd => unfold exec execReelPostEnd; refine Nexts.clocked ?_; (try dsimp only); (repeat' split) <;> exact .ends _
  case porstRelease => unfold exec execPorstRelease; (try dsimp only); (repeat' split) <;> exact .ends _
  case porstAssert => unfold exec execPorstAssert; (try dsimp only); (repeat' split) <;> exact .ends _
  case listenEntry => unfold exec execListenEntry; (try dsimp only); (repeat' split) <;> exact .ends _
  case wakeNLow => unfold exec execWakeNLow; (try dsimp only); (repeat' split) <;> exact .ends _
  case dormantEntry => unfold exec execDormantEntry; (try dsimp only); (repeat' split) <;> exact .ends _
  case xtalSwitch => unfold exec execXtalSwitch; (try dsimp only); (repeat' split) <;> exact .ends _
  case xtalFail => unfold exec execXtalFail; (try dsimp only); (repeat' split) <;> exact .ends _
  case corePllLock => unfold exec execCorePllLock; (try dsimp only); (repeat' split) <;> exact .ends _
  case bistDone => unfold exec execBistDone; (try dsimp only); (repeat' split) <;> exact .ends _
  case lanePllLock => unfold exec execLanePllLock; (try dsimp only); (repeat' split) <;> exact .ends _
  case dispatchTestDone => unfold exec execDispatchTestDone; refine Nexts.clocked ?_; (try dsimp only); (repeat' split) <;> exact .ends _
  case runToReady => unfold exec execRunToReady; refine Nexts.clocked ?_; (try dsimp only); (repeat' split) <;> exact .ends _
  case corePllLoss => unfold exec execCorePllLoss; (try dsimp only); (repeat' split) <;> exact .ends _
  case lanePllLoss => unfold exec execLanePllLoss; refine Nexts.clocked ?_; (try dsimp only); (repeat' split) <;> exact .ends _
  case encLimitInactive => unfold exec execEncLimitInactive; refine Nexts.clocked ?_; (try dsimp only); (repeat' split) <;> exact .ends _
  case tbusRisingEdge => unfold exec execTbusRisingEdge; refine Nexts.clocked ?_; (try dsimp only); (repeat' split) <;> exact .ends _
  case triggerUnitTimeout => unfold exec execTriggerUnitTimeout; refine Nexts.clocked ?_; (try dsimp only); (repeat' split) <;> exact .ends _
  case tickWrap => unfold exec execTickWrap; refine Nexts.clocked ?_; (try dsimp only); (repeat' split) <;> exact .ends _
  case bar0Read => unfold exec execBar0Read; (try dsimp only); (repeat' split) <;> exact .ends _
  case belaySramError => unfold exec execBelaySramError; (try dsimp only); (repeat' split) <;> exact .ends _

end Sys2Proof.Machine
end

