-- ==== Sys2Proof/Laws/Transaction.lean ====
section
/-! SUPPORT. What a transaction of the SPI port does, in words: its bytes are the words they were made of (R37). -/

namespace Sys2Proof.Machine

/-- Four bytes for each word. -/
theorem wordBytes_length (ws : List Word) : (ws.flatMap wordBytes).length = 4 * ws.length := by
  induction ws with
  | nil => rfl
  | cons w l ih => rw [List.flatMap_cons, List.length_append, ih, List.length_cons]; simp only [wordBytes, List.length_cons, List.length_nil]; omega

/-- Words read back from their bytes. -/
theorem bytesWords_wordBytes (ws : List Word) : bytesWords (ws.flatMap wordBytes) = ws := by
  induction ws with
  | nil => rfl
  | cons w l ih =>
    have h := w.isLt
    rw [List.flatMap_cons]
    simp only [wordBytes, List.cons_append, List.nil_append, bytesWords, ih]
    congr 1
    apply BitVec.eq_of_toNat_eq
    rw [BitVec.toNat_ofNat]
    omega

/-- A WRITE_PACKET transaction (R39). -/
theorem spiTransaction_write (s : State) (ws : List Word) :
    spiTransaction s (0x02 :: ws.flatMap wordBytes) = writePacket s ws := by
  show (if (ws.flatMap wordBytes).length % 4 = 0 then writePacket s (bytesWords (ws.flatMap wordBytes)) else _) = _
  rw [wordBytes_length, if_pos (by omega), bytesWords_wordBytes]

/-- A READ_REPLY transaction (R40). -/
theorem spiTransaction_read (s : State) (n : Nat) :
    spiTransaction s (0x03 :: 0 :: List.replicate (4 * n) 0) = readReply s n := by
  show readReply s ((List.length (0 :: List.replicate (4 * n) 0) - 1) / 4) = _
  rw [List.length_cons, List.length_replicate, Nat.add_sub_cancel, Nat.mul_div_cancel_left n (by omega)]

/-- A READ_STATUS transaction (R38). -/
theorem spiTransaction_status (s : State) : spiTransaction s [0x05, 0, 0] = busPut s [wN (spiStatus s)] := rfl

end Sys2Proof.Machine
end

