-- ==== Sys2Proof/Laws/Updates.lean ====
section
/-! SUPPORT. What the named updates of `State` leave in each field, so that no proof unfolds a record update. -/

namespace Sys2Proof.Machine

/-! ### `updArm` -/

@[simp] theorem armOf_updArm (s : State) (n : Nat) (f : Arm → Arm) : armOf (updArm s n f) n = f (armOf s n) :=
  tabGet_tabUpd_same _ _ _ _
theorem armOf_updArm_ne (s : State) (n m : Nat) (f : Arm → Arm) (h : n ≠ m) : armOf (updArm s n f) m = armOf s m :=
  tabGet_tabUpd_ne _ _ _ _ _ h
@[simp] theorem updArm_tick (s : State) (n : Nat) (f : Arm → Arm) : (updArm s n f).tick = s.tick := rfl
@[simp] theorem updArm_params (s : State) (n : Nat) (f : Arm → Arm) : (updArm s n f).params = s.params := rfl

/-! ### `updCell` -/

@[simp] theorem cellOf_updCell (s : State) (n : Nat) (f : Cell → Cell) : cellOf (updCell s n f) n = f (cellOf s n) :=
  tabGet_tabUpd_same _ _ _ _
theorem cellOf_updCell_ne (s : State) (n m : Nat) (f : Cell → Cell) (h : n ≠ m) : cellOf (updCell s n f) m = cellOf s m :=
  tabGet_tabUpd_ne _ _ _ _ _ h
@[simp] theorem updCell_tick (s : State) (n : Nat) (f : Cell → Cell) : (updCell s n f).tick = s.tick := rfl
@[simp] theorem updCell_params (s : State) (n : Nat) (f : Cell → Cell) : (updCell s n f).params = s.params := rfl

/-! ### `updLane` -/

@[simp] theorem laneOf_updLane (s : State) (n : Nat) (f : Lane → Lane) : laneOf (updLane s n f) n = f (laneOf s n) :=
  tabGet_tabUpd_same _ _ _ _
theorem laneOf_updLane_ne (s : State) (n m : Nat) (f : Lane → Lane) (h : n ≠ m) : laneOf (updLane s n f) m = laneOf s m :=
  tabGet_tabUpd_ne _ _ _ _ _ h
@[simp] theorem updLane_tick (s : State) (n : Nat) (f : Lane → Lane) : (updLane s n f).tick = s.tick := rfl
@[simp] theorem updLane_params (s : State) (n : Nat) (f : Lane → Lane) : (updLane s n f).params = s.params := rfl

/-! ### `updCleat` -/

@[simp] theorem cleatOf_updCleat (s : State) (n : Nat) (f : CleatEntry → CleatEntry) : cleatOf (updCleat s n f) n = f (cleatOf s n) :=
  tabGet_tabUpd_same _ _ _ _
theorem cleatOf_updCleat_ne (s : State) (n m : Nat) (f : CleatEntry → CleatEntry) (h : n ≠ m) : cleatOf (updCleat s n f) m = cleatOf s m :=
  tabGet_tabUpd_ne _ _ _ _ _ h
@[simp] theorem updCleat_tick (s : State) (n : Nat) (f : CleatEntry → CleatEntry) : (updCleat s n f).tick = s.tick := rfl
@[simp] theorem updCleat_params (s : State) (n : Nat) (f : CleatEntry → CleatEntry) : (updCleat s n f).params = s.params := rfl

/-! ### `updSlot` -/

@[simp] theorem slotOf_updSlot (s : State) (n : Nat) (f : LoopSlot → LoopSlot) : slotOf (updSlot s n f) n = f (slotOf s n) :=
  tabGet_tabUpd_same _ _ _ _
theorem slotOf_updSlot_ne (s : State) (n m : Nat) (f : LoopSlot → LoopSlot) (h : n ≠ m) : slotOf (updSlot s n f) m = slotOf s m :=
  tabGet_tabUpd_ne _ _ _ _ _ h
@[simp] theorem updSlot_tick (s : State) (n : Nat) (f : LoopSlot → LoopSlot) : (updSlot s n f).tick = s.tick := rfl
@[simp] theorem updSlot_params (s : State) (n : Nat) (f : LoopSlot → LoopSlot) : (updSlot s n f).params = s.params := rfl

/-! ### `updGen` -/

@[simp] theorem genOf_updGen (s : State) (n : Nat) (f : TrajGen → TrajGen) : genOf (updGen s n f) n = f (genOf s n) :=
  tabGet_tabUpd_same _ _ _ _
theorem genOf_updGen_ne (s : State) (n m : Nat) (f : TrajGen → TrajGen) (h : n ≠ m) : genOf (updGen s n f) m = genOf s m :=
  tabGet_tabUpd_ne _ _ _ _ _ h
@[simp] theorem updGen_tick (s : State) (n : Nat) (f : TrajGen → TrajGen) : (updGen s n f).tick = s.tick := rfl
@[simp] theorem updGen_params (s : State) (n : Nat) (f : TrajGen → TrajGen) : (updGen s n f).params = s.params := rfl

/-! ### `updEnc` -/

@[simp] theorem encOf_updEnc (s : State) (n : Nat) (f : EncAxis → EncAxis) : encOf (updEnc s n f) n = f (encOf s n) :=
  tabGet_tabUpd_same _ _ _ _
theorem encOf_updEnc_ne (s : State) (n m : Nat) (f : EncAxis → EncAxis) (h : n ≠ m) : encOf (updEnc s n f) m = encOf s m :=
  tabGet_tabUpd_ne _ _ _ _ _ h
@[simp] theorem updEnc_tick (s : State) (n : Nat) (f : EncAxis → EncAxis) : (updEnc s n f).tick = s.tick := rfl
@[simp] theorem updEnc_params (s : State) (n : Nat) (f : EncAxis → EncAxis) : (updEnc s n f).params = s.params := rfl

/-! ### `updLeg` -/

@[simp] theorem legOf_updLeg (s : State) (n : Nat) (f : Leg → Leg) : legOf (updLeg s n f) n = f (legOf s n) :=
  tabGet_tabUpd_same _ _ _ _
theorem legOf_updLeg_ne (s : State) (n m : Nat) (f : Leg → Leg) (h : n ≠ m) : legOf (updLeg s n f) m = legOf s m :=
  tabGet_tabUpd_ne _ _ _ _ _ h
@[simp] theorem updLeg_tick (s : State) (n : Nat) (f : Leg → Leg) : (updLeg s n f).tick = s.tick := rfl
@[simp] theorem updLeg_params (s : State) (n : Nat) (f : Leg → Leg) : (updLeg s n f).params = s.params := rfl

/-! ### `updAdc` -/

@[simp] theorem adcOf_updAdc (s : State) (n : Nat) (f : Adc → Adc) : adcOf (updAdc s n f) n = f (adcOf s n) :=
  tabGet_tabUpd_same _ _ _ _
theorem adcOf_updAdc_ne (s : State) (n m : Nat) (f : Adc → Adc) (h : n ≠ m) : adcOf (updAdc s n f) m = adcOf s m :=
  tabGet_tabUpd_ne _ _ _ _ _ h
@[simp] theorem updAdc_tick (s : State) (n : Nat) (f : Adc → Adc) : (updAdc s n f).tick = s.tick := rfl
@[simp] theorem updAdc_params (s : State) (n : Nat) (f : Adc → Adc) : (updAdc s n f).params = s.params := rfl

/-! ### `updDec` -/

@[simp] theorem decOf_updDec (s : State) (n : Nat) (f : DecChan → DecChan) : decOf (updDec s n f) n = f (decOf s n) :=
  tabGet_tabUpd_same _ _ _ _
theorem decOf_updDec_ne (s : State) (n m : Nat) (f : DecChan → DecChan) (h : n ≠ m) : decOf (updDec s n f) m = decOf s m :=
  tabGet_tabUpd_ne _ _ _ _ _ h
@[simp] theorem updDec_tick (s : State) (n : Nat) (f : DecChan → DecChan) : (updDec s n f).tick = s.tick := rfl
@[simp] theorem updDec_params (s : State) (n : Nat) (f : DecChan → DecChan) : (updDec s n f).params = s.params := rfl

/-! ### `updSi` -/

@[simp] theorem siOf_updSi (s : State) (n : Nat) (f : SafetyInput → SafetyInput) : siOf (updSi s n f) n = f (siOf s n) :=
  tabGet_tabUpd_same _ _ _ _
theorem siOf_updSi_ne (s : State) (n m : Nat) (f : SafetyInput → SafetyInput) (h : n ≠ m) : siOf (updSi s n f) m = siOf s m :=
  tabGet_tabUpd_ne _ _ _ _ _ h
@[simp] theorem updSi_tick (s : State) (n : Nat) (f : SafetyInput → SafetyInput) : (updSi s n f).tick = s.tick := rfl
@[simp] theorem updSi_params (s : State) (n : Nat) (f : SafetyInput → SafetyInput) : (updSi s n f).params = s.params := rfl

/-! ### `updLine` -/

@[simp] theorem lineOf_updLine (s : State) (n : Nat) (f : TbusLine → TbusLine) : lineOf (updLine s n f) n = f (lineOf s n) :=
  tabGet_tabUpd_same _ _ _ _
theorem lineOf_updLine_ne (s : State) (n m : Nat) (f : TbusLine → TbusLine) (h : n ≠ m) : lineOf (updLine s n f) m = lineOf s m :=
  tabGet_tabUpd_ne _ _ _ _ _ h
@[simp] theorem updLine_tick (s : State) (n : Nat) (f : TbusLine → TbusLine) : (updLine s n f).tick = s.tick := rfl
@[simp] theorem updLine_params (s : State) (n : Nat) (f : TbusLine → TbusLine) : (updLine s n f).params = s.params := rfl

/-! ### `updStrand` -/

@[simp] theorem strandOf_updStrand (s : State) (n : Nat) (f : Strand → Strand) : strandOf (updStrand s n f) n = f (strandOf s n) :=
  tabGet_tabUpd_same _ _ _ _
theorem strandOf_updStrand_ne (s : State) (n m : Nat) (f : Strand → Strand) (h : n ≠ m) : strandOf (updStrand s n f) m = strandOf s m :=
  tabGet_tabUpd_ne _ _ _ _ _ h
@[simp] theorem updStrand_tick (s : State) (n : Nat) (f : Strand → Strand) : (updStrand s n f).tick = s.tick := rfl
@[simp] theorem updStrand_params (s : State) (n : Nat) (f : Strand → Strand) : (updStrand s n f).params = s.params := rfl

/-! ### `updTask` -/

@[simp] theorem taskOf_updTask (s : State) (n : Nat) (f : Task → Task) : taskOf (updTask s n f) n = f (taskOf s n) :=
  tabGet_tabUpd_same _ _ _ _
theorem taskOf_updTask_ne (s : State) (n m : Nat) (f : Task → Task) (h : n ≠ m) : taskOf (updTask s n f) m = taskOf s m :=
  tabGet_tabUpd_ne _ _ _ _ _ h
@[simp] theorem updTask_tick (s : State) (n : Nat) (f : Task → Task) : (updTask s n f).tick = s.tick := rfl
@[simp] theorem updTask_params (s : State) (n : Nat) (f : Task → Task) : (updTask s n f).params = s.params := rfl

/-! ### `updHost` -/

@[simp] theorem updHost_tick (s : State) (f : HostSt → HostSt) : (updHost s f).tick = s.tick := rfl
@[simp] theorem updHost_params (s : State) (f : HostSt → HostSt) : (updHost s f).params = s.params := rfl
@[simp] theorem updHost_host (s : State) (f : HostSt → HostSt) : (updHost s f).host = f s.host := rfl

/-! ### `updPwr` -/

@[simp] theorem updPwr_tick (s : State) (f : PwrSt → PwrSt) : (updPwr s f).tick = s.tick := rfl
@[simp] theorem updPwr_params (s : State) (f : PwrSt → PwrSt) : (updPwr s f).params = s.params := rfl
@[simp] theorem updPwr_pwr (s : State) (f : PwrSt → PwrSt) : (updPwr s f).pwr = f s.pwr := rfl

/-! ### `updTime` -/

@[simp] theorem updTime_tick (s : State) (f : TimeSt → TimeSt) : (updTime s f).tick = s.tick := rfl
@[simp] theorem updTime_params (s : State) (f : TimeSt → TimeSt) : (updTime s f).params = s.params := rfl
@[simp] theorem updTime_time (s : State) (f : TimeSt → TimeSt) : (updTime s f).time = f s.time := rfl

/-! ### `updBelay` -/

@[simp] theorem updBelay_tick (s : State) (f : BelaySt → BelaySt) : (updBelay s f).tick = s.tick := rfl
@[simp] theorem updBelay_params (s : State) (f : BelaySt → BelaySt) : (updBelay s f).params = s.params := rfl
@[simp] theorem updBelay_belay (s : State) (f : BelaySt → BelaySt) : (updBelay s f).belay = f s.belay := rfl

/-! ### `updDup` -/

@[simp] theorem updDup_tick (s : State) (f : DupSt → DupSt) : (updDup s f).tick = s.tick := rfl
@[simp] theorem updDup_params (s : State) (f : DupSt → DupSt) : (updDup s f).params = s.params := rfl
@[simp] theorem updDup_dup (s : State) (f : DupSt → DupSt) : (updDup s f).dup = f s.dup := rfl

/-! ### `updReel` -/

@[simp] theorem updReel_params (s : State) (f : ReelSt → ReelSt) : (updReel s f).params = s.params := rfl
@[simp] theorem updReel_reel (s : State) (f : ReelSt → ReelSt) : (updReel s f).reel = f s.reel := rfl

/-! ### `updMeas` -/

@[simp] theorem updMeas_tick (s : State) (f : MeasSt → MeasSt) : (updMeas s f).tick = s.tick := rfl
@[simp] theorem updMeas_params (s : State) (f : MeasSt → MeasSt) : (updMeas s f).params = s.params := rfl
@[simp] theorem updMeas_meas (s : State) (f : MeasSt → MeasSt) : (updMeas s f).meas = f s.meas := rfl

/-! ### `putP` -/

@[simp] theorem putP_tick (s : State) (id t : Nat) (w : Word) : (putP s id t w).tick = s.tick := rfl

end Sys2Proof.Machine
end

