-- ==== Sys2Proof/Laws/Windows.lean ====
section
/-! SUPPORT. Every operation keeps both host windows within their 1,024 words (R33). -/

namespace Sys2Proof.Machine

/-! ### Machine/Ops.lean -/

theorem msiSend_win (s : State) (b : Nat) (h : windowsOk s) :
    windowsOk (msiSend s b) := by
  have k := msiVector_same s.host (if s.host.msixOn then b else b % s.host.msiVecs)
  exact windowsOk.same (s := s) k.1 k.2.1 k.2.2.1 k.2.2.2 h

theorem irqSet_win (s : State) (b : Nat) (h : windowsOk s) :
    windowsOk (irqSet s b) := by
  unfold irqSet
  extract_lets y0
  refine Inv.cut (Q := windowsOk) (s := y0) ?_ fun h30 => ?_
  · unfold y0
    exact windowsOk.keep (orP_keeps _ _ _ _) (by rfl) h
  clear_value y0
  refine Inv.ite (Q := windowsOk) ?_ ?_
  · exact h
  · refine Inv.ite (Q := windowsOk) ?_ ?_
    · exact msiSend_win _ _ h30
    · exact h30

theorem timeEvent_win (s : State) (b : Nat) (h : windowsOk s) :
    windowsOk (timeEvent s b) := by
  unfold timeEvent
  exact irqSet_win _ _ (windowsOk.keep (orP_keeps _ _ _ _) (by rfl) h)

/-! ### Machine/ReelCore.lean -/

theorem reelEnd_win (s : State) (cause : Nat) (u : Nat) (h : windowsOk s) :
    windowsOk (reelEnd s cause u) := by
  unfold reelEnd
  extract_lets y0 y1 y2 y3
  clear_value y0
  refine Inv.cut (Q := windowsOk) (s := y1) ?_ fun h30 => ?_
  · unfold y1
    exact windowsOk.keep (reelFlush_keeps _ _ _) (by rfl) (windowsOk.keep (updReel_keeps _ _) (by rfl) h)
  clear_value y1
  refine Inv.cut (Q := windowsOk) (s := y2) ?_ fun h31 => ?_
  · unfold y2
    refine Inv.foldl (Q := windowsOk) ?_ fun x32 a33 h34 => ?_
    · exact windowsOk.keep (updReel_keeps _ _) (by rfl) h30
    · exact windowsOk.keep (ringWrite_keeps _ _) (by rfl) h34
  clear_value y2
  refine Inv.cut (Q := windowsOk) (s := y3) ?_ fun h35 => ?_
  · unfold y3
    exact windowsOk.keep (updReel_keeps _ _) (by rfl) h31
  clear_value y3
  exact irqSet_win _ _ h35

theorem reelFire_win (s : State) (src : Nat) (now : Nat) (tt : Int) (h : windowsOk s) :
    windowsOk (reelFire s src now tt) := by
  unfold reelFire
  extract_lets y0 y1 y2
  refine Inv.cut (Q := windowsOk) (s := y0) ?_ fun h30 => ?_
  · unfold y0
    exact windowsOk.keep (updReel_keeps _ _) (by rfl) (windowsOk.keep (trigSet_keeps _ _ _ _) (by rfl) h)
  clear_value y0
  refine Inv.cut (Q := windowsOk) (s := y1) ?_ fun h31 => ?_
  · unfold y1
    exact windowsOk.keep (reelForm_keeps _ _) (by rfl) h30
  clear_value y1
  refine Inv.cut (Q := windowsOk) (s := y2) ?_ fun h32 => ?_
  · unfold y2
    refine Inv.foldl (Q := windowsOk) ?_ fun x33 a34 h35 => ?_
    · exact h31
    · refine Inv.ite (Q := windowsOk) ?_ ?_
      · exact windowsOk.keep (tbusDrive_keeps _ _) (by rfl) h35
      · exact h35
  clear_value y2
  exact irqSet_win _ _ h32

theorem reelStop_win (s : State) (cause : Nat) (h : windowsOk s) :
    windowsOk (reelStop s cause) := by
  unfold reelStop
  refine Inv.ite (Q := windowsOk) ?_ ?_
  · exact reelEnd_win _ _ _ h
  · refine Inv.ite (Q := windowsOk) ?_ ?_
    · exact windowsOk.keep (reelRecause_keeps _ _) (by rfl) h
    · exact h

theorem reelTake_win (a : Nat) (a' : Nat) (a'' : State) (h : windowsOk a'') :
    windowsOk (reelTake a a' a'') := by
  induction a generalizing a'' with
  | zero => exact h
  | succ n ih =>
    unfold reelTake
    split
    · exact h
    · split
      · exact (reelEnd_win _ _ _ (windowsOk.keep (updReel_keeps _ _) (by rfl) h))
      · exact ih _ (windowsOk.keep (ringWrite_keeps _ _) (by rfl) (windowsOk.keep (updReel_keeps _ _) (by rfl) h))

theorem reelTrigger_win (s : State) (src : Nat) (tt : Int) (h : windowsOk s) :
    windowsOk (reelTrigger s src tt) := by
  unfold reelTrigger
  split
  · exact h
  · extract_lets y30
    refine Inv.cut (Q := windowsOk) (s := y30) ?_ fun h60 => ?_
    · unfold y30
      exact reelFire_win _ _ _ _ h
    clear_value y30
    refine Inv.ite (Q := windowsOk) ?_ ?_
    · refine Inv.ite (Q := windowsOk) ?_ ?_
      · exact reelStop_win _ _ h60
      · exact h60
    · refine Inv.ite (Q := windowsOk) ?_ ?_
      · exact windowsOk.keep (updReel_keeps _ _) (by rfl) (windowsOk.keep (trigSet_keeps _ _ _ _) (by rfl) h)
      · exact h

theorem linesSeen_win (now : Nat) (new : List Nat) (s : State) (h : windowsOk s) :
    windowsOk (linesSeen now new s) := by
  unfold linesSeen
  extract_lets y0 y1
  clear_value y1
  refine Inv.cut (Q := windowsOk) (s := y0) ?_ fun h30 => ?_
  · unfold y0
    exact windowsOk.keep (updReel_keeps _ _) (by rfl) h
  clear_value y0
  refine Inv.ite (Q := windowsOk) ?_ ?_
  · refine Inv.foldl (Q := windowsOk) ?_ fun x31 a32 h33 => ?_
    · exact h30
    · refine Inv.reelUnits (Q := windowsOk) reelTrigger_win ?_ fun x34 a35 h36 => ?_
      · exact h33
      · exact windowsOk.keep (unitLine_keeps _ _ _ _ _) (by rfl) h36
  · exact h30

theorem reelMasks_win (s : State) (ch : Nat) (now : Nat) (lv : Nat → Int) (v : Int) (h : windowsOk s) :
    windowsOk (reelMasks s ch now lv v) := by
  unfold reelMasks
  refine Inv.foldl (Q := windowsOk) ?_ fun x30 a31 h32 => ?_
  · exact h
  · extract_lets y33 y34 y35 y36 y37 y38 y39 y40
    clear_value y33 y34 y35 y38
    refine Inv.cut (Q := windowsOk) (s := y36) ?_ fun h63 => ?_
    · unfold y36
      exact windowsOk.keep (incP_keeps _ _ _) (by rfl) h32
    clear_value y36
    refine Inv.cut (Q := windowsOk) (s := y37) ?_ fun h64 => ?_
    · unfold y37
      exact windowsOk.keep (updReel_keeps _ _) (by rfl) h63
    clear_value y37
    refine Inv.cut (Q := windowsOk) (s := y39) ?_ fun h65 => ?_
    · unfold y39
      refine Inv.ite (Q := windowsOk) ?_ ?_
      · exact reelTrigger_win _ _ _ h64
      · exact h64
    clear_value y39
    refine Inv.cut (Q := windowsOk) (s := y40) ?_ fun h66 => ?_
    · unfold y40
      exact windowsOk.keep (reelForm_keeps _ _) (by rfl) h65
    clear_value y40
    split
    · exact h32
    · extract_lets y97 y98
      clear_value y97 y98
      refine Inv.ite (Q := windowsOk) ?_ ?_
      · exact h32
      · split
        · exact h32
        · extract_lets y187
          clear_value y187
          refine Inv.ite (Q := windowsOk) ?_ ?_
          · exact h32
          · refine Inv.ite (Q := windowsOk) ?_ ?_
            · exact windowsOk.keep (incP_keeps _ _ _) (by rfl) h32
            · refine Inv.ite (Q := windowsOk) ?_ ?_
              · exact windowsOk.keep (updReel_keeps _ _) (by rfl) h66
              · exact h66

theorem reelRound_win (u : Nat) (s : State) (h : windowsOk s) :
    windowsOk (reelRound u s) := by
  unfold reelRound
  split
  · exact h
  · extract_lets y30 y31
    clear_value y30
    refine Inv.cut (Q := windowsOk) (s := y31) ?_ fun h60 => ?_
    · unfold y31
      exact windowsOk.keep (updReel_keeps _ _) (by rfl) h
    clear_value y31
    refine Inv.ite (Q := windowsOk) ?_ ?_
    · exact reelEnd_win _ _ _ (windowsOk.keep (updReel_keeps _ _) (by rfl) h)
    · exact reelTake_win _ _ _ (windowsOk.keep (reelFlush_keeps _ _ _) (by rfl) h60)

theorem reelRounds_win (a : Nat) (a' : Nat) (a'' : State) (h : windowsOk a'') :
    windowsOk (reelRounds a a' a'') := by
  induction a generalizing a' a'' with
  | zero => exact h
  | succ n ih =>
    unfold reelRounds
    exact Inv.ite (Q := windowsOk) (ih _ _ (reelRound_win _ _ h)) h

theorem reelSync_win (s : State) (h : windowsOk s) :
    windowsOk (reelSync s) := by
  unfold reelSync
  refine Inv.ite (Q := windowsOk) ?_ ?_
  · exact reelRounds_win _ _ _ (windowsOk.keep (updReel_keeps _ _) (by rfl) h)
  · exact h

theorem reelFault_win (s : State) (code : Nat) (event : Nat) (h : windowsOk s) :
    windowsOk (reelFault s code event) := by
  unfold reelFault
  extract_lets y0
  refine Inv.cut (Q := windowsOk) (s := y0) ?_ fun h30 => ?_
  · unfold y0
    exact reelSync_win _ h
  clear_value y0
  split
  · refine Inv.reelUnits (Q := windowsOk) reelTrigger_win ?_ fun x91 a92 h93 => ?_
    · exact h30
    · extract_lets y94 y95
      clear_value y94 y95
      dsimp only
      exact h93
  · exact h30

theorem reelObserve_win (s : State) (h : windowsOk s) :
    windowsOk (reelObserve s) := by
  unfold reelObserve
  refine Inv.reelObserveWith (Q := windowsOk) reelSync_win reelBefore_win linesSeen_win linesDone_win ?_ fun x0 h1 =>
        ?_
  · exact h
  · exact h1

theorem reelSample_win (s : State) (ch : Nat) (unsigned : Bool) (v : Int) (flags : Nat) (h : windowsOk s) :
    windowsOk (reelSample s ch unsigned v flags) := by
  unfold reelSample
  extract_lets y0 y1 y2
  clear_value y2
  refine Inv.cut (Q := windowsOk) (s := y1) ?_ fun h30 => ?_
  · unfold y1
    exact reelSync_win _ h
  clear_value y1
  refine Inv.ite (Q := windowsOk) ?_ ?_
  · exact h
  · split
    · exact h
    · extract_lets y91 y92 y93 y94 y95 y96
      clear_value y92 y93 y94
      refine Inv.cut (Q := windowsOk) (s := y91) ?_ fun h121 => ?_
      · unfold y91
        refine Inv.ite (Q := windowsOk) ?_ ?_
        · refine Inv.reelUnits (Q := windowsOk) reelTrigger_win ?_ fun x122 a123 h124 => ?_
          · exact h30
          · exact windowsOk.keep (unitSample_keeps _ _ _ _ _ _ _) (by rfl) h124
        · exact h30
      clear_value y91
      refine Inv.cut (Q := windowsOk) (s := y95) ?_ fun h125 => ?_
      · unfold y95
        exact windowsOk.keep (updReel_keeps _ _) (by rfl) h121
      clear_value y95
      refine Inv.cut (Q := windowsOk) (s := y96) ?_ fun h126 => ?_
      · unfold y96
        refine Inv.ite (Q := windowsOk) ?_ ?_
        · exact windowsOk.keep (reelForm_keeps _ _) (by rfl) h125
        · exact h125
      clear_value y96
      exact reelMasks_win _ _ _ _ _ h126

theorem reelStep_win (s : State) (h : windowsOk s) :
    windowsOk (reelStep s) := by
  unfold reelStep
  extract_lets y0
  clear_value y0
  split
  · extract_lets y60
    refine Inv.cut (Q := windowsOk) (s := y60) ?_ fun h90 => ?_
    · unfold y60
      exact windowsOk.keep (reelForm_keeps _ _) (by rfl) (reelSync_win _ h)
    clear_value y60
    refine Inv.ite (Q := windowsOk) ?_ ?_
    · exact windowsOk.keep (reelForm_keeps _ _) (by rfl) h90
    · exact h
  · exact h

theorem reelResult_win (s : State) (tag : Nat) (raw : Nat) (flags : Nat) (h : windowsOk s) :
    windowsOk (reelResult s tag raw flags) := by
  unfold reelResult
  refine Inv.ite (Q := windowsOk) ?_ ?_
  · refine Inv.foldl (Q := windowsOk) ?_ fun x60 a61 h62 => ?_
    · exact h
    · extract_lets y63 y64
      clear_value y63 y64
      exact reelSample_win _ _ _ _ _ h62
  · exact h

/-! ### Machine/FaultOps.lean -/

theorem fltRecord_win (s : State) (e : FltEntry) (event : Nat) (react : React) (h : windowsOk s) :
    windowsOk (fltRecord s e event react) := by
  unfold fltRecord
  extract_lets y0 y1 y2 y3
  clear_value y0 y1
  refine Inv.cut (Q := windowsOk) (s := y2) ?_ fun h30 => ?_
  · unfold y2
    exact windowsOk.same (s := s) rfl rfl rfl rfl h
  clear_value y2
  refine Inv.cut (Q := windowsOk) (s := y3) ?_ fun h31 => ?_
  · unfold y3
    exact irqSet_win _ _ h30
  clear_value y3
  exact reelFault_win _ _ _ (windowsOk.keep (traceOnFault_keeps _ _) (by rfl) h31)

theorem graceExpire_win (s : State) (i : Nat) (h : windowsOk s) :
    windowsOk (graceExpire s i) := by
  unfold graceExpire
  extract_lets y0
  clear_value y0
  split
  · extract_lets y60 y61 y62
    clear_value y60 y62
    refine Inv.cut (Q := windowsOk) (s := y61) ?_ fun h90 => ?_
    · unfold y61
      exact windowsOk.keep (reactEffect_keeps _ _ _) (by rfl) h
    clear_value y61
    exact fltRecord_win _ _ _ _ (windowsOk.keep (setFlt_keeps _ _ _) (by rfl) h90)
  · exact h

theorem gracesDue_win (s : State) (h : windowsOk s) :
    windowsOk (gracesDue s) := by
  unfold gracesDue
  refine Inv.foldl (Q := windowsOk) ?_ fun x0 a1 h2 => ?_
  · exact h
  · exact graceExpire_win _ _ h2

theorem reRaise_win (s : State) (i : Nat) (e : FltEntry) (mask : Nat) (grace : Nat) (m : RaiseMode) (h : windowsOk s)
      :
    windowsOk (reRaise s i e mask grace m) := by
  unfold reRaise
  extract_lets y0 y1 y2 y3 y4
  clear_value y1 y2 y3
  refine Inv.cut (Q := windowsOk) (s := y4) ?_ fun h30 => ?_
  · unfold y4
    refine Inv.ite (Q := windowsOk) ?_ ?_
    · exact windowsOk.keep (reactEffect_keeps _ _ _) (by rfl) h
    · exact h
  clear_value y4
  refine Inv.ite (Q := windowsOk) ?_ ?_
  · exact windowsOk.keep (setFlt_keeps _ _ _) (by rfl) h
  · split
    · unfold y0
      exact fltRecord_win _ _ _ _ (windowsOk.keep (setFlt_keeps _ _ _) (by rfl) h)
    · unfold y0
      exact fltRecord_win _ _ _ _ (windowsOk.keep (setFlt_keeps _ _ _) (by rfl) h30)
    · unfold y0
      exact fltRecord_win _ _ _ _ (windowsOk.keep (setFlt_keeps _ _ _) (by rfl) h)

theorem raiseOverflow_win (s : State) (h : windowsOk s) :
    windowsOk (raiseOverflow s) := by
  unfold raiseOverflow
  extract_lets y0 y1 y2
  clear_value y1 y2
  refine Inv.cut (Q := windowsOk) (s := y0) ?_ fun h30 => ?_
  · unfold y0
    exact windowsOk.keep (incP_keeps _ _ _) (by rfl) h
  clear_value y0
  refine Inv.ite (Q := windowsOk) ?_ ?_
  · exact fltRecord_win _ _ _ _ (windowsOk.keep (setFlt_keeps _ _ _) (by rfl) h30)
  · exact reRaise_win _ _ _ _ _ _ h30

theorem raiseWith_win (s : State) (code : Nat) (inst : Nat) (cls : FltClass) (react : React) (grace : Nat) (m :
      RaiseMode) (h : windowsOk s) :
    windowsOk (raiseWith s code inst cls react grace m) := by
  unfold raiseWith
  split
  · exact h
  · extract_lets y30 y31 y32 y33
    clear_value y30 y31 y32
    refine Inv.cut (Q := windowsOk) (s := y33) ?_ fun h60 => ?_
    · unfold y33
      refine Inv.ite (Q := windowsOk) ?_ ?_
      · exact h
      · exact windowsOk.keep (reactEffect_keeps _ _ _) (by rfl) h
    clear_value y33
    split
    · exact reRaise_win _ _ _ _ _ _ h
    · split
      · refine raiseOverflow_win _ ?_
        refine Inv.ite (Q := windowsOk) ?_ ?_
        · exact h
        · exact windowsOk.keep (reactEffect_keeps _ _ _) (by rfl) h
      · split
        · exact fltRecord_win _ _ _ _ (windowsOk.keep (takeEntry_keeps _ _ _) (by rfl) h60)
        · exact fltRecord_win _ _ _ _ (windowsOk.keep (takeEntry_keeps _ _ _) (by rfl) h)

theorem raiseBelay_win (s : State) (code : Nat) (inst : Nat) (latch : Nat) (h : windowsOk s) :
    windowsOk (raiseBelay s code inst latch) := by
  unfold raiseBelay
  extract_lets y0 y1 y2
  clear_value y0
  refine Inv.cut (Q := windowsOk) (s := y1) ?_ fun h30 => ?_
  · unfold y1
    refine Inv.ite (Q := windowsOk) ?_ ?_
    · exact h
    · exact windowsOk.keep (belayLatch_keeps _ _) (by rfl) h
  clear_value y1
  refine Inv.cut (Q := windowsOk) (s := y2) ?_ fun h31 => ?_
  · unfold y2
    exact windowsOk.keep (belayReact_keeps _ _) (by rfl) h30
  clear_value y2
  exact raiseWith_win _ _ _ _ _ _ _ h31

theorem raiseFault_win (s : State) (code : Nat) (inst : Nat) (h : windowsOk s) :
    windowsOk (raiseFault s code inst) := by
  unfold raiseFault
  extract_lets y0
  clear_value y0
  exact raiseWith_win _ _ _ _ _ _ _ h

theorem raiseOnce_win (s : State) (code : Nat) (inst : Nat) (h : windowsOk s) :
    windowsOk (raiseOnce s code inst) := by
  unfold raiseOnce
  extract_lets y0
  clear_value y0
  exact raiseWith_win _ _ _ _ _ _ _ h

theorem causeSet_win (s : State) (code : Nat) (inst : Nat) (present : Bool) (h : windowsOk s) :
    windowsOk (causeSet s code inst present) := by
  unfold causeSet
  refine Inv.ite (Q := windowsOk) ?_ ?_
  · refine Inv.ite (Q := windowsOk) ?_ ?_
    · exact h
    · exact raiseFault_win _ _ _ h
  · refine Inv.ite (Q := windowsOk) ?_ ?_
    · exact windowsOk.keep (causeGone_keeps _ _ _) (by rfl) h
    · exact h

/-! ### Machine/Operands.lean -/

theorem goodPacket_win (s : State) (p : Port) (seq : Word) (h : windowsOk s) :
    windowsOk (goodPacket s p seq) := by
  unfold goodPacket
  extract_lets y0
  refine Inv.cut (Q := windowsOk) (s := y0) ?_ fun h30 => ?_
  · unfold y0
    refine windowsOk.upd (fun _ => by split <;> exact ⟨rfl, rfl, rfl, rfl⟩) ?_
    exact h
  clear_value y0
  exact windowsOk.keep (causeGone_keeps _ _ _) (by rfl) h30

theorem flushHeld_win (a : List (List Word)) (a' : State) (h : windowsOk a') :
    windowsOk (flushHeld a a') := by
  induction a generalizing a' with
  | nil => exact (windowsOk.upd (fun _ => ⟨rfl, rfl, rfl, rfl⟩) h)
  | cons x l ih =>
    cases x with
    | nil => exact ih a' h
    | cons m ws =>
      unfold flushHeld
      split
      · rename_i hl
        refine ih _ (Inv.ite (Q := windowsOk) ?_ ?_)
        · exact (irqSet_win _ _ (rplPut_win _ _ hl h))
        · exact (rplPut_win _ _ hl h)
      · exact (windowsOk.upd (fun _ => ⟨rfl, rfl, rfl, rfl⟩) h)

theorem sendReply_win (s : State) (port : Port) (irq : Bool) (ws : List Word) (h : windowsOk s) :
    windowsOk (sendReply s port irq ws) := by
  unfold sendReply
  refine Inv.ite (Q := windowsOk) ?_ ?_
  · split
    · rename_i hl
      simp only [Bool.and_eq_true, decide_eq_true_eq] at hl
      have k := rplPut_win s ws hl.2 h
      exact Inv.ite (Q := windowsOk) (irqSet_win _ _ k) k
    · exact windowsOk.upd (fun _ => ⟨rfl, rfl, rfl, rfl⟩) h
  · exact Inv.ite (Q := windowsOk) (irqSet_win _ _ (windowsOk.upd (fun _ => ⟨rfl, rfl, rfl, rfl⟩) h)) h

theorem answer_win (s : State) (op : Nat) (c : Cmd) (status : Nat) (detail : Nat) (payload : List Word) (h :
      windowsOk s) :
    windowsOk (answer s op c status detail payload) := by
  unfold answer
  extract_lets y0 y1
  clear_value y0
  refine Inv.cut (Q := windowsOk) (s := y1) ?_ fun h30 => ?_
  · unfold y1
    refine windowsOk.upd (fun _ => by split <;> exact ⟨rfl, rfl, rfl, rfl⟩) ?_
    exact h
  clear_value y1
  exact sendReply_win _ _ _ _ h30

theorem completeOp_win (s : State) (o : LongOp) (status : Nat) (detail : Nat) (payload : List Word) (h : windowsOk s)
      :
    windowsOk (completeOp s o status detail payload) := by
  unfold completeOp
  extract_lets y0 y1
  refine Inv.cut (Q := windowsOk) (s := y0) ?_ fun h30 => ?_
  · unfold y0
    exact windowsOk.keep (dropOp_keeps _ _ _) (by rfl) h
  clear_value y0
  refine Inv.cut (Q := windowsOk) (s := y1) ?_ fun h31 => ?_
  · unfold y1
    exact sendReply_win _ _ _ _ h30
  clear_value y1
  refine Inv.ite (Q := windowsOk) ?_ ?_
  · exact h31
  · exact irqSet_win _ _ h31

theorem completeErr_win (s : State) (o : LongOp) (e : CmdErr) (h : windowsOk s) :
    windowsOk (completeErr s o e) := by
  unfold completeErr
  exact completeOp_win _ _ _ _ _ h

theorem completeOk_win (s : State) (o : LongOp) (payload : List Word) (h : windowsOk s) :
    windowsOk (completeOk s o payload) := by
  unfold completeOk
  exact completeOp_win _ _ _ _ _ h

/-! ### Machine/CleatOps.lean -/

theorem permFailed_win (s : State) (c : Nat) (h : windowsOk s) :
    windowsOk (permFailed s c) := by
  unfold permFailed
  extract_lets y0
  refine Inv.cut (Q := windowsOk) (s := y0) ?_ fun h30 => ?_
  · unfold y0
    exact raiseFault_win _ _ _ h
  clear_value y0
  exact windowsOk.keep (updCell_keeps _ _ _) (by rfl) h30

theorem cleatWatch_win (s : State) (h : windowsOk s) :
    windowsOk (cleatWatch s) := by
  unfold cleatWatch
  extract_lets y0 y1
  clear_value y1
  refine Inv.cut (Q := windowsOk) (s := y0) ?_ fun h30 => ?_
  · unfold y0
    exact windowsOk.keep (maxP_keeps _ _ _ _) (by rfl) h
  clear_value y0
  exact causeSet_win _ _ _ _ h30

theorem ledgerWatch_win (s : State) (h : windowsOk s) :
    windowsOk (ledgerWatch s) := by
  unfold ledgerWatch
  refine Inv.foldl (Q := windowsOk) ?_ fun x0 a1 h2 => ?_
  · exact h
  · refine Inv.ite (Q := windowsOk) ?_ ?_
    · exact causeSet_win _ _ _ _ h2
    · exact h2

theorem retireDone_win (s : State) (c : Nat) (m : Nat) (h : windowsOk s) :
    windowsOk (retireDone s c m) := by
  unfold retireDone
  extract_lets y0 y1 y2 y3 y4
  refine Inv.cut (Q := windowsOk) (s := y0) ?_ fun h30 => ?_
  · unfold y0
    exact windowsOk.keep (updCell_keeps _ _ _) (by rfl) h
  clear_value y0
  refine Inv.cut (Q := windowsOk) (s := y1) ?_ fun h31 => ?_
  · unfold y1
    exact windowsOk.keep (causeGone_keeps _ _ _) (by rfl) (raiseFault_win _ _ _ h30)
  clear_value y1
  refine Inv.cut (Q := windowsOk) (s := y2) ?_ fun h32 => ?_
  · unfold y2
    exact windowsOk.keep (causeGone_keeps _ _ _) (by rfl) h31
  clear_value y2
  refine Inv.cut (Q := windowsOk) (s := y3) ?_ fun h33 => ?_
  · unfold y3
    split
    · exact windowsOk.keep (releaseEntry_keeps _ _ _) (by rfl) h32
    · exact h32
  clear_value y3
  refine Inv.cut (Q := windowsOk) (s := y4) ?_ fun h34 => ?_
  · unfold y4
    exact ledgerWatch_win _ h33
  clear_value y4
  split
  · exact completeOk_win _ _ _ h34
  · exact h34

theorem takeFault_win (s : State) (m : Nat) (e : Nat) (c : Nat) (h : windowsOk s) :
    windowsOk (takeFault s m e c) := by
  unfold takeFault
  exact cleatWatch_win _ (windowsOk.keep (updCleat_keeps _ _ _) (by rfl) h)

theorem faultUse_win (s : State) (c : Nat) (h : windowsOk s) :
    windowsOk (faultUse s c) := by
  unfold faultUse
  extract_lets y0 y1 y2
  clear_value y2
  refine Inv.cut (Q := windowsOk) (s := y1) ?_ fun h30 => ?_
  · unfold y1
    exact windowsOk.same (s := s) rfl rfl rfl rfl h
  clear_value y1
  split
  · refine Inv.ite (Q := windowsOk) ?_ ?_
    · refine Inv.ite (Q := windowsOk) ?_ ?_
      · exact windowsOk.keep (startRetire_keeps _ _ _) (by rfl) h
      · exact h
    · exact cleatWatch_win _ (windowsOk.keep (toFault_keeps _ _ _) (by rfl) h)
  · refine Inv.ite (Q := windowsOk) ?_ ?_
    · exact h
    · split
      · exact takeFault_win _ _ _ _ h
      · refine Inv.ite (Q := windowsOk) ?_ ?_
        · exact raiseFault_win _ _ _ h30
        · exact h30

theorem freeActivity_win (s : State) (i : Nat) (h : windowsOk s) :
    windowsOk (freeActivity s i) := by
  unfold freeActivity
  exact ledgerWatch_win _ (windowsOk.keep (updAct_keeps _ _ _) (by rfl) h)

theorem retireEntry_win (s : State) (m : Nat) (c : Nat) (h : windowsOk s) :
    windowsOk (retireEntry s m c) := by
  unfold retireEntry
  split
  · refine Inv.ite (Q := windowsOk) ?_ ?_
    · exact h
    · exact cleatWatch_win _ (windowsOk.keep (toFault_keeps _ _ _) (by rfl) h)
  · split
    · exact takeFault_win _ _ _ _ h
    · exact h

theorem servePending_win (m : Nat) (s : State) (h : windowsOk s) :
    windowsOk (servePending m s) := by
  unfold servePending
  extract_lets y0
  split
  · exact h
  · extract_lets y60
    refine Inv.cut (Q := windowsOk) (s := y60) ?_ fun h90 => ?_
    · unfold y60
      exact windowsOk.same (s := s) rfl rfl rfl rfl h
    clear_value y60
    refine Inv.ite (Q := windowsOk) ?_ ?_
    · exact h
    · exact windowsOk.keep (cleatFullGone_keeps _ _) (by rfl) (retireEntry_win _ _ _ h90)

theorem servePendings_win (m : Nat) (s : State) (h : windowsOk s) :
    windowsOk (servePendings m s) := by
  unfold servePendings
  refine Inv.foldl (Q := windowsOk) ?_ fun x0 a1 h2 => ?_
  · exact h
  · exact servePending_win _ _ h2

theorem serveRetire_win (m : Nat) (s : State) (h : windowsOk s) :
    windowsOk (serveRetire m s) := by
  unfold serveRetire
  refine Inv.foldl (Q := windowsOk) ?_ fun x30 a31 h32 => ?_
  · exact h
  · extract_lets y33
    refine Inv.cut (Q := windowsOk) (s := y33) ?_ fun h63 => ?_
    · unfold y33
      exact retireEntry_win _ _ _ h32
    clear_value y33
    refine Inv.ite (Q := windowsOk) ?_ ?_
    · exact windowsOk.keep (startRetire_keeps _ _ _) (by rfl) (windowsOk.keep (updOp_keeps _ _ _ _) (by rfl) h63)
    · exact h63

theorem suspectCell_win (s : State) (c : Nat) (code : Nat) (h : windowsOk s) :
    windowsOk (suspectCell s c code) := by
  unfold suspectCell
  refine Inv.ite (Q := windowsOk) ?_ ?_
  · exact h
  · exact faultUse_win _ _ (raiseFault_win _ _ _ h)

theorem freeCleats_win (s : State) (m : Nat) (h : windowsOk s) :
    windowsOk (freeCleats s m) := by
  unfold freeCleats
  extract_lets y0 y1
  clear_value y0
  refine Inv.cut (Q := windowsOk) (s := y1) ?_ fun h30 => ?_
  · unfold y1
    refine Inv.foldl (Q := windowsOk) ?_ fun x31 a32 h33 => ?_
    · exact h
    · exact windowsOk.keep (updCleat_keeps _ _ _) (by rfl) h33
  clear_value y1
  exact cleatWatch_win _ (serveRetire_win _ _ (servePendings_win _ _ h30))

theorem freeCleat_win (s : State) (e : Nat) (h : windowsOk s) :
    windowsOk (freeCleat s e) := by
  unfold freeCleat
  refine Inv.ite (Q := windowsOk) ?_ ?_
  · exact freeCleats_win _ _ h
  · exact h

/-! ### Machine/StrOps.lean -/

theorem stopTask_win (s : State) (n : Nat) (info : Nat) (h : windowsOk s) :
    windowsOk (stopTask s n info) := by
  unfold stopTask
  split
  · exact h
  · extract_lets y30 y31 y32 y33 y34
    clear_value y30
    refine Inv.cut (Q := windowsOk) (s := y31) ?_ fun h60 => ?_
    · unfold y31
      exact windowsOk.keep (traceEvent_keeps _ _ _ _ _ _ _) (by rfl) h
    clear_value y31
    refine Inv.cut (Q := windowsOk) (s := y32) ?_ fun h61 => ?_
    · unfold y32
      exact windowsOk.keep (busyAdd_keeps _ _ _ _) (by rfl) h60
    clear_value y32
    refine Inv.cut (Q := windowsOk) (s := y33) ?_ fun h62 => ?_
    · unfold y33
      exact windowsOk.keep (updStrand_keeps _ _ _) (by rfl) h61
    clear_value y33
    refine Inv.cut (Q := windowsOk) (s := y34) ?_ fun h63 => ?_
    · unfold y34
      exact raiseFault_win _ _ _ h62
    clear_value y34
    refine Inv.ite (Q := windowsOk) ?_ ?_
    · exact windowsOk.keep (abandonTask_keeps _ _) (by rfl) (windowsOk.keep (updTask_keeps _ _ _) (by rfl) h63)
    · exact windowsOk.keep (readyTask_keeps _ _) (by rfl) (windowsOk.keep (updTask_keeps _ _ _) (by rfl) h63)

/-! ### Machine/LaneOps.lean -/

theorem bringupOk_win (s : State) (l : Nat) (h : windowsOk s) :
    windowsOk (bringupOk s l) := by
  unfold bringupOk
  split
  · exact completeOk_win _ _ _ h
  · exact h

theorem endScan_win (s : State) (l : Nat) (h : windowsOk s) :
    windowsOk (endScan s l) := by
  unfold endScan
  split
  · extract_lets y30
    refine Inv.cut (Q := windowsOk) (s := y30) ?_ fun h60 => ?_
    · unfold y30
      exact windowsOk.keep (eyeStore_keeps _ _ _ _ _) (by rfl) h
    clear_value y30
    exact completeErr_win _ _ _ (windowsOk.same (s := y30) rfl rfl rfl rfl h60)
  · exact h

theorem presenceCheck_win (s : State) (l : Nat) (h : windowsOk s) :
    windowsOk (presenceCheck s l) := by
  unfold presenceCheck
  extract_lets y0
  clear_value y0
  refine Inv.ite (Q := windowsOk) ?_ ?_
  · exact windowsOk.keep (updLane_keeps _ _ _) (by rfl) (raiseFault_win _ _ _ h)
  · exact h

theorem txnFail_win (s : State) (l : Nat) (t : Txn) (h : windowsOk s) :
    windowsOk (txnFail s l t) := by
  unfold txnFail
  extract_lets y0
  refine Inv.cut (Q := windowsOk) (s := y0) ?_ fun h30 => ?_
  · unfold y0
    exact windowsOk.keep (updLane_keeps _ _ _) (by rfl) h
  clear_value y0
  refine Inv.ite (Q := windowsOk) ?_ ?_
  · refine Inv.ite (Q := windowsOk) ?_ ?_
    · exact permFailed_win _ _ h30
    · exact h30
  · refine Inv.ite (Q := windowsOk) ?_ ?_
    · exact windowsOk.keep (recordDone_keeps _ _ _ _ _) (by rfl) (windowsOk.keep (updLane_keeps _ _ _) (by rfl) h)
    · refine Inv.ite (Q := windowsOk) ?_ ?_
      · exact windowsOk.keep (setCfgFail_keeps _ _ _) (by rfl) (windowsOk.keep (updLane_keeps _ _ _) (by rfl) h)
      · exact h

theorem txnLost_win (s : State) (l : Nat) (t : Txn) (h : windowsOk s) :
    windowsOk (txnLost s l t) := by
  unfold txnLost
  extract_lets y0 y1 y2
  refine Inv.cut (Q := windowsOk) (s := y0) ?_ fun h30 => ?_
  · unfold y0
    exact windowsOk.keep (txnDrop_keeps _ _ _) (by rfl) h
  clear_value y0
  refine Inv.cut (Q := windowsOk) (s := y1) ?_ fun h31 => ?_
  · unfold y1
    exact raiseFault_win _ _ _ (windowsOk.keep (incP_keeps _ _ _) (by rfl) h30)
  clear_value y1
  refine Inv.cut (Q := windowsOk) (s := y2) ?_ fun h32 => ?_
  · unfold y2
    refine Inv.ite (Q := windowsOk) ?_ ?_
    · exact windowsOk.keep (updLane_keeps _ _ _) (by rfl) h31
    · exact h31
  clear_value y2
  exact txnFail_win _ _ _ h32

theorem txnMissing_win (s : State) (l : Nat) (t : Txn) (h : windowsOk s) :
    windowsOk (txnMissing s l t) := by
  unfold txnMissing
  refine Inv.ite (Q := windowsOk) ?_ ?_
  · exact windowsOk.keep (updLane_keeps _ _ _) (by rfl) h
  · exact txnLost_win _ _ _ h

theorem enterActive_win (s : State) (l : Nat) (gen : Nat) (h : windowsOk s) :
    windowsOk (enterActive s l gen) := by
  unfold enterActive
  extract_lets y0 y1 y2 y3 y4 y5 y6 y7
  clear_value y0 y1
  refine Inv.cut (Q := windowsOk) (s := y2) ?_ fun h30 => ?_
  · unfold y2
    exact windowsOk.keep (updLane_keeps _ _ _) (by rfl) h
  clear_value y2
  refine Inv.cut (Q := windowsOk) (s := y3) ?_ fun h31 => ?_
  · unfold y3
    exact windowsOk.keep (putN_keeps _ _ _ _) (by rfl) (windowsOk.keep (closeRetry_keeps _ _) (by rfl) h30)
  clear_value y3
  refine Inv.cut (Q := windowsOk) (s := y4) ?_ fun h32 => ?_
  · unfold y4
    exact windowsOk.keep (causeGone_keeps _ _ _) (by rfl) h31
  clear_value y4
  refine Inv.cut (Q := windowsOk) (s := y5) ?_ fun h33 => ?_
  · unfold y5
    exact windowsOk.keep (orP_keeps _ _ _ _) (by rfl) h32
  clear_value y5
  refine Inv.cut (Q := windowsOk) (s := y6) ?_ fun h34 => ?_
  · unfold y6
    refine Inv.foldl (Q := windowsOk) ?_ fun x35 a36 h37 => ?_
    · exact h33
    · refine Inv.ite (Q := windowsOk) ?_ ?_
      · exact windowsOk.keep (updCell_keeps _ _ _) (by rfl) h37
      · exact h37
  clear_value y6
  refine Inv.cut (Q := windowsOk) (s := y7) ?_ fun h38 => ?_
  · unfold y7
    refine Inv.ite (Q := windowsOk) ?_ ?_
    · exact ledgerWatch_win _ (presenceCheck_win _ _ (windowsOk.keep (queueOwn_keeps _ _) (by rfl) h34))
    · exact h32
  clear_value y7
  exact bringupOk_win _ _ h38

theorem failLaneTxns_win (s : State) (l : Nat) (h : windowsOk s) :
    windowsOk (failLaneTxns s l) := by
  unfold failLaneTxns
  extract_lets y0 y1 y2
  clear_value y0
  refine Inv.cut (Q := windowsOk) (s := y1) ?_ fun h30 => ?_
  · unfold y1
    exact windowsOk.keep (updLane_keeps _ _ _) (by rfl) h
  clear_value y1
  refine Inv.cut (Q := windowsOk) (s := y2) ?_ fun h31 => ?_
  · unfold y2
    refine Inv.foldl (Q := windowsOk) ?_ fun x32 a33 h34 => ?_
    · exact h30
    · refine Inv.ite (Q := windowsOk) ?_ ?_
      · exact h34
      · exact txnFail_win _ _ _ h34
  clear_value y2
  refine Inv.ite (Q := windowsOk) ?_ ?_
  · refine Inv.foldl (Q := windowsOk) ?_ fun x35 a36 h37 => ?_
    · exact h31
    · exact windowsOk.keep (storeRecord_keeps _ _ _ _ _) (by rfl) h37
  · exact h31

theorem frameMissing_win (s : State) (l : Nat) (k : Nat) (h : windowsOk s) :
    windowsOk (frameMissing s l k) := by
  unfold frameMissing
  split
  · exact txnMissing_win _ _ _ h
  · exact h

theorem leaveActive_win (s : State) (l : Nat) (h : windowsOk s) :
    windowsOk (leaveActive s l) := by
  unfold leaveActive
  extract_lets y0 y1
  refine Inv.cut (Q := windowsOk) (s := y0) ?_ fun h30 => ?_
  · unfold y0
    exact windowsOk.keep (updLane_keeps _ _ _) (by rfl) h
  clear_value y0
  refine Inv.cut (Q := windowsOk) (s := y1) ?_ fun h31 => ?_
  · unfold y1
    exact failLaneTxns_win _ _ (windowsOk.keep (blockLaneCells_keeps _ _) (by rfl) h30)
  clear_value y1
  refine Inv.ite (Q := windowsOk) ?_ ?_
  · exact windowsOk.keep (tallyFollow_keeps _ _) (by rfl) (ledgerWatch_win _ (endScan_win _ _ h31))
  · exact endScan_win _ _ h30

theorem laneTo_win (s : State) (l : Nat) (st : LaneSt) (h : windowsOk s) :
    windowsOk (laneTo s l st) := by
  unfold laneTo
  extract_lets y0 y1
  clear_value y0
  refine Inv.cut (Q := windowsOk) (s := y1) ?_ fun h30 => ?_
  · unfold y1
    exact windowsOk.keep (updLane_keeps _ _ _) (by rfl) h
  clear_value y1
  refine Inv.ite (Q := windowsOk) ?_ ?_
  · exact leaveActive_win _ _ h30
  · exact h30

theorem retireLane_win (s : State) (l : Nat) (h : windowsOk s) :
    windowsOk (retireLane s l) := by
  unfold retireLane
  extract_lets y0 y1
  refine Inv.cut (Q := windowsOk) (s := y0) ?_ fun h30 => ?_
  · unfold y0
    exact laneTo_win _ _ _ (windowsOk.keep (closeRetry_keeps _ _) (by rfl) h)
  clear_value y0
  refine Inv.cut (Q := windowsOk) (s := y1) ?_ fun h31 => ?_
  · unfold y1
    exact windowsOk.keep (updLane_keeps _ _ _) (by rfl) h30
  clear_value y1
  exact raiseFault_win _ _ _ h31

theorem retryFailed_win (s : State) (l : Nat) (h : windowsOk s) :
    windowsOk (retryFailed s l) := by
  unfold retryFailed
  extract_lets y0 y1 y2
  clear_value y0 y1 y2
  refine Inv.ite (Q := windowsOk) ?_ ?_
  · exact retireLane_win _ _ (windowsOk.keep (updLane_keeps _ _ _) (by rfl) h)
  · exact windowsOk.keep (updLane_keeps _ _ _) (by rfl) h

theorem bringupFail_win (s : State) (l : Nat) (cause : Nat) (e : LongOp → CmdErr) (h : windowsOk s) :
    windowsOk (bringupFail s l cause e) := by
  unfold bringupFail
  extract_lets y0 y1 y2
  clear_value y0
  refine Inv.cut (Q := windowsOk) (s := y1) ?_ fun h30 => ?_
  · unfold y1
    exact windowsOk.keep (putN_keeps _ _ _ _) (by rfl) h
  clear_value y1
  refine Inv.cut (Q := windowsOk) (s := y2) ?_ fun h31 => ?_
  · unfold y2
    exact windowsOk.keep (updLane_keeps _ _ _) (by rfl) h30
  clear_value y2
  refine Inv.ite (Q := windowsOk) ?_ ?_
  · exact retryFailed_win _ _ h30
  · split
    · exact completeErr_win _ _ _ h31
    · exact h31

theorem enterStage_win (s : State) (l : Nat) (st : LaneSt) (pass2 : Bool) (h : windowsOk s) :
    windowsOk (enterStage s l st pass2) := by
  unfold enterStage
  exact windowsOk.keep (updLane_keeps _ _ _) (by rfl) (laneTo_win _ _ _ h)

theorem laneError_win (s : State) (l : Nat) (h : windowsOk s) :
    windowsOk (laneError s l) := by
  unfold laneError
  extract_lets y0 y1 y2
  clear_value y0
  refine Inv.cut (Q := windowsOk) (s := y1) ?_ fun h30 => ?_
  · unfold y1
    exact windowsOk.keep (incP_keeps _ _ _) (by rfl) (windowsOk.keep (putN_keeps _ _ _ _) (by rfl) h)
  clear_value y1
  refine Inv.cut (Q := windowsOk) (s := y2) ?_ fun h31 => ?_
  · unfold y2
    refine Inv.ite (Q := windowsOk) ?_ ?_
    · exact raiseFault_win _ _ _ h30
    · exact h30
  clear_value y2
  refine Inv.ite (Q := windowsOk) ?_ ?_
  · exact retireLane_win _ _ h31
  · exact h31

theorem laneErrors_win (a : Nat) (a' : State) (a'' : Nat) (h : windowsOk a') :
    windowsOk (laneErrors a a' a'') := by
  induction a generalizing a' with
  | zero => exact h
  | succ n ih => exact ih _ (laneError_win _ _ h)

theorem laneOff_win (s : State) (l : Nat) (h : windowsOk s) :
    windowsOk (laneOff s l) := by
  unfold laneOff
  extract_lets y0
  refine Inv.cut (Q := windowsOk) (s := y0) ?_ fun h30 => ?_
  · unfold y0
    exact windowsOk.keep (closeRetry_keeps _ _) (by rfl) (laneTo_win _ _ _ h)
  clear_value y0
  exact windowsOk.keep (updLane_keeps _ _ _) (by rfl) h30

theorem startBringup_win (s : State) (l : Nat) (auto : Bool) (h : windowsOk s) :
    windowsOk (startBringup s l auto) := by
  unfold startBringup
  extract_lets y0 y1
  refine Inv.cut (Q := windowsOk) (s := y0) ?_ fun h30 => ?_
  · unfold y0
    exact windowsOk.keep (applyLaneGroup_keeps _ _) (by rfl) h
  clear_value y0
  refine Inv.cut (Q := windowsOk) (s := y1) ?_ fun h31 => ?_
  · unfold y1
    exact enterStage_win _ _ _ _ h30
  clear_value y1
  exact windowsOk.keep (updLane_keeps _ _ _) (by rfl) h31

/-! ### Machine/TrajOps.lean -/

theorem trajFlushBody_win (c : Cmd) (s : State) (h : windowsOk s) :
    ResInv windowsOk (trajFlushBody c s) := by
  exact windowsOk.res (trajFlushBody_keeps _ _) (by rfl) h

theorem trajQueueBody_win (c : Cmd) (s : State) (h : windowsOk s) :
    ResInv windowsOk (trajQueueBody c s) := by
  exact windowsOk.res (trajQueueBody_keeps _ _) (by rfl) h

theorem execTrajFlush_win (c : Cmd) (s : State) (h : windowsOk s) :
    OutInv windowsOk (execTrajFlush c s) := by
  unfold execTrajFlush
  refine OutInv.ends reelObserve_win ?_
  refine Inv.runCmd (Q := windowsOk) goodPacket_win answer_win ?_ fun x0 _ h1 => ?_
  · exact h
  · exact trajFlushBody_win _ _ h1

theorem execTrajQueue_win (c : Cmd) (s : State) (h : windowsOk s) :
    OutInv windowsOk (execTrajQueue c s) := by
  unfold execTrajQueue
  refine OutInv.ends reelObserve_win ?_
  refine Inv.runCmd (Q := windowsOk) goodPacket_win answer_win ?_ fun x0 _ h1 => ?_
  · exact h
  · exact trajQueueBody_win _ _ h1

/-! ### Machine/Encoder.lean -/

theorem homeAbortBody_win (c : Cmd) (s : State) (h : windowsOk s) :
    ResInv windowsOk (homeAbortBody c s) := by
  exact windowsOk.res (homeAbortBody_keeps _ _) (by rfl) h

theorem homeStartBody_win (c : Cmd) (s : State) (h : windowsOk s) :
    ResInv windowsOk (homeStartBody c s) := by
  exact windowsOk.res (homeStartBody_keeps _ _) (by rfl) h

theorem execEncHomeActive_win (axis : Fin 2) (held : Nat) (s : State) (h : windowsOk s) :
    OutInv windowsOk (execEncHomeActive axis s held) := by
  unfold execEncHomeActive
  extract_lets y0
  clear_value y0
  refine OutInv.clocked ?_ ?_
  · exact h
  · refine OutInv.ends reelObserve_win ?_
    refine Inv.ite (Q := windowsOk) ?_ ?_
    · refine windowsOk.keep (limReleases_keeps _ _) (by rfl) ?_
      refine windowsOk.keep (encLevels_keeps _ _ _ _) (by rfl) ?_
      exact windowsOk.keep (homeLatch_keeps _ _ _) (by rfl) h
    · exact h

theorem execEncIllegalWindowEnd_win (axis : Fin 2) (s : State) (h : windowsOk s) :
    OutInv windowsOk (execEncIllegalWindowEnd axis s) := by
  unfold execEncIllegalWindowEnd
  extract_lets y0 y1 y2
  clear_value y0
  refine Inv.cut (Q := windowsOk) (s := y1) ?_ fun h30 => ?_
  · unfold y1
    exact windowsOk.keep (advanceTo_keeps _ _) (by rfl) h
  clear_value y1
  refine Inv.cut (Q := windowsOk) (s := y2) ?_ fun h31 => ?_
  · unfold y2
    refine Inv.ite (Q := windowsOk) ?_ ?_
    · exact windowsOk.keep (causeGone_keeps _ _ _) (by rfl) h30
    · exact h30
  clear_value y2
  refine OutInv.clocked ?_ ?_
  · exact h
  · refine OutInv.ite ?_ ?_
    · exact OutInv.ends reelObserve_win (windowsOk.keep (updEnc_keeps _ _ _) (by rfl) h31)
    · exact OutInv.ends reelObserve_win h

theorem execEncLimitInactive_win (axis : Fin 2) (neg : Bool) (held : Nat) (s : State) (h : windowsOk s) :
    OutInv windowsOk (execEncLimitInactive axis neg s held) := by
  unfold execEncLimitInactive
  refine OutInv.clocked ?_ ?_
  · exact h
  · refine OutInv.ends reelObserve_win ?_
    refine Inv.ite (Q := windowsOk) ?_ ?_
    · exact windowsOk.keep (limInactive_keeps _ _ _) (by rfl) h
    · exact h

theorem execHomeAbort_win (c : Cmd) (s : State) (h : windowsOk s) :
    OutInv windowsOk (execHomeAbort c s) := by
  unfold execHomeAbort
  refine OutInv.ends reelObserve_win ?_
  refine Inv.runCmd (Q := windowsOk) goodPacket_win answer_win ?_ fun x0 _ h1 => ?_
  · exact h
  · exact homeAbortBody_win _ _ h1

theorem execHomeStart_win (c : Cmd) (s : State) (h : windowsOk s) :
    OutInv windowsOk (execHomeStart c s) := by
  unfold execHomeStart
  refine OutInv.ends reelObserve_win ?_
  refine Inv.runCmd (Q := windowsOk) goodPacket_win answer_win ?_ fun x0 _ h1 => ?_
  · exact h
  · exact homeStartBody_win _ _ h1

theorem homeFinish_win (s : State) (n : Nat) (h : windowsOk s) :
    windowsOk (homeFinish s n) := by
  unfold homeFinish
  extract_lets y0 y1 y2
  clear_value y0
  refine Inv.cut (Q := windowsOk) (s := y1) ?_ fun h30 => ?_
  · unfold y1
    exact windowsOk.keep (setEncFlag_keeps _ _ _ _) (by rfl) (windowsOk.keep (updGen_keeps _ _ _) (by rfl) h)
  clear_value y1
  refine Inv.cut (Q := windowsOk) (s := y2) ?_ fun h31 => ?_
  · unfold y2
    exact windowsOk.keep (updEnc_keeps _ _ _) (by rfl) h30
  clear_value y2
  split
  · exact h31
  · split
    · exact completeOk_win _ _ _ h31
    · exact completeErr_win _ _ _ h31
    · exact completeErr_win _ _ _ h31

theorem execHomingDone_win (axis : Fin 2) (s : State) (h : windowsOk s) :
    OutInv windowsOk (execHomingDone axis s) := by
  unfold execHomingDone
  extract_lets y0 y1 y2 y3
  clear_value y0 y1
  refine Inv.cut (Q := windowsOk) (s := y2) ?_ fun h30 => ?_
  · unfold y2
    refine Inv.ite (Q := windowsOk) ?_ ?_
    · exact windowsOk.keep (advanceTo_keeps _ _) (by rfl) h
    · exact h
  clear_value y2
  refine Inv.cut (Q := windowsOk) (s := y3) ?_ fun h31 => ?_
  · unfold y3
    exact windowsOk.keep (syncGen_keeps _ _) (by rfl) h30
  clear_value y3
  refine OutInv.clocked ?_ ?_
  · exact h
  · refine OutInv.ite ?_ ?_
    · refine OutInv.ends reelObserve_win ?_
      refine Inv.ite (Q := windowsOk) ?_ ?_
      · exact homeFinish_win _ _ h31
      · exact h31
    · exact OutInv.ends reelObserve_win h

theorem encIndex_win (s : State) (n : Nat) (h : windowsOk s) :
    windowsOk (encIndex s n) := by
  unfold encIndex
  extract_lets y0 y1 y2 y3
  clear_value y0 y1
  refine Inv.cut (Q := windowsOk) (s := y2) ?_ fun h30 => ?_
  · unfold y2
    refine windowsOk.keep (setEncFlag_keeps _ _ _ _) (by rfl) ?_
    exact windowsOk.keep (putI_keeps _ _ _ _) (by rfl) (windowsOk.keep (encShift_keeps _ _ _) (by rfl) h)
  clear_value y2
  refine Inv.cut (Q := windowsOk) (s := y3) ?_ fun h31 => ?_
  · unfold y3
    refine Inv.ite (Q := windowsOk) ?_ ?_
    · refine Inv.ite (Q := windowsOk) ?_ ?_
      · exact windowsOk.keep (causeGone_keeps _ _ _) (by rfl) h30
      · exact raiseFault_win _ _ _ h
    · exact h
  clear_value y3
  refine Inv.ite (Q := windowsOk) ?_ ?_
  · exact windowsOk.keep (homeIndex_keeps _ _) (by rfl) (windowsOk.keep (homeNote_keeps _ _ _) (by rfl) h31)
  · exact h31

theorem homeLimit_win (s : State) (n : Nat) (neg : Bool) (h : windowsOk s) :
    windowsOk (homeLimit s n neg) := by
  unfold homeLimit
  extract_lets y0 y1
  clear_value y0
  refine Inv.cut (Q := windowsOk) (s := y1) ?_ fun h30 => ?_
  · unfold y1
    exact windowsOk.keep (updEnc_keeps _ _ _) (by rfl) h
  clear_value y1
  refine Inv.ite (Q := windowsOk) ?_ ?_
  · exact windowsOk.keep (homeMove_keeps _ _ _) (by rfl) h30
  · exact windowsOk.keep (homeStop_keeps _ _ _) (by rfl) (raiseFault_win _ _ _ h)

theorem illegalWatch_win (s : State) (n : Nat) (h : windowsOk s) :
    windowsOk (illegalWatch s n) := by
  unfold illegalWatch
  refine Inv.ite (Q := windowsOk) ?_ ?_
  · refine windowsOk.keep (setEncFlag_keeps _ _ _ _) (by rfl) ?_
    exact raiseFault_win _ _ _ (windowsOk.keep (updEnc_keeps _ _ _) (by rfl) h)
  · exact h

theorem limTrip_win (s : State) (n : Nat) (neg : Bool) (h : windowsOk s) :
    windowsOk (limTrip s n neg) := by
  unfold limTrip
  refine Inv.ite (Q := windowsOk) ?_ ?_
  · exact raiseFault_win _ _ _ h
  · refine Inv.ite (Q := windowsOk) ?_ ?_
    · exact homeLimit_win _ _ _ h
    · exact h

theorem encIllegal_win (s : State) (n : Nat) (h : windowsOk s) :
    windowsOk (encIllegal s n) := by
  unfold encIllegal
  extract_lets y0
  refine Inv.cut (Q := windowsOk) (s := y0) ?_ fun h30 => ?_
  · unfold y0
    exact windowsOk.keep (incP_keeps _ _ _) (by rfl) h
  clear_value y0
  refine Inv.ite (Q := windowsOk) ?_ ?_
  · exact h30
  · exact illegalWatch_win _ _ (windowsOk.keep (updEnc_keeps _ _ _) (by rfl) h30)

theorem encQuad_win (s : State) (n : Nat) (a : Bool) (b : Bool) (h : windowsOk s) :
    windowsOk (encQuad s n a b).1 := by
  unfold encQuad
  extract_lets y0 y1 y2 y3
  clear_value y0 y2
  refine Inv.cut (Q := windowsOk) (s := y1) ?_ fun h30 => ?_
  · unfold y1
    exact windowsOk.keep (updEnc_keeps _ _ _) (by rfl) h
  clear_value y1
  refine Inv.cut (Q := windowsOk) (s := y3) ?_ fun h31 => ?_
  · unfold y3
    exact windowsOk.keep (encCount_keeps _ _ _) (by rfl) h30
  clear_value y3
  split
  · dsimp only
    exact h30
  · split
    · dsimp only
      exact encIllegal_win _ _ h30
    · split
      · dsimp only
        exact windowsOk.keep (updEnc_keeps _ _ _) (by rfl) h31
      · dsimp only
        exact h31

theorem encSample_win (s : State) (n : Nat) (a : Bool) (b : Bool) (z : Bool) (home : Bool) (h : windowsOk s) :
    windowsOk (encSample s n a b z home) := by
  unfold encSample
  extract_lets y0 y1
  refine Inv.cut (Q := windowsOk) (s := y0.1) ?_ fun h30 => ?_
  · unfold y0
    split
    · dsimp only
      exact windowsOk.keep (updEnc_keeps _ _ _) (by rfl) h
    · split
      · exact windowsOk.keep (encTooth_keeps _ _ _ _) (by rfl) h
      · exact encQuad_win _ _ _ _ h
  clear_value y0
  refine Inv.cut (Q := windowsOk) (s := y1) ?_ fun h31 => ?_
  · unfold y1
    refine windowsOk.keep (homeLatch_keeps _ _ _) (by rfl) ?_
    refine Inv.ite (Q := windowsOk) ?_ ?_
    · exact windowsOk.keep (encLatch_keeps _ _ _ _) (by rfl) h30
    · exact h30
  clear_value y1
  refine windowsOk.keep (encLevels_keeps _ _ _ _) (by rfl) ?_
  refine Inv.ite (Q := windowsOk) ?_ ?_
  · exact encIndex_win _ _ h31
  · exact h31

theorem execEncTransition_win (axis : Fin 2) (a : List Bool) (b : List Bool) (z : List Bool) (home : List Bool) (s : State) (h : windowsOk s) :
    OutInv windowsOk (execEncTransition axis a b z home s) := by
  unfold execEncTransition
  extract_lets y0 y1 y2 y3 y4
  clear_value y0 y1 y2 y3 y4
  refine OutInv.clocked ?_ ?_
  · exact h
  · refine OutInv.ends reelObserve_win ?_
    exact windowsOk.keep (limReleases_keeps _ _) (by rfl) (encSample_win _ _ _ _ _ _ h)

theorem limActive_win (s : State) (n : Nat) (neg : Bool) (h : windowsOk s) :
    windowsOk (limActive s n neg) := by
  unfold limActive
  extract_lets y0 y1 y2 y3
  clear_value y1
  refine Inv.cut (Q := windowsOk) (s := y0) ?_ fun h30 => ?_
  · unfold y0
    exact windowsOk.keep (updEnc_keeps _ _ _) (by rfl) h
  clear_value y0
  refine Inv.cut (Q := windowsOk) (s := y2) ?_ fun h31 => ?_
  · unfold y2
    exact windowsOk.keep (encLatch_keeps _ _ _ _) (by rfl) h30
  clear_value y2
  refine Inv.cut (Q := windowsOk) (s := y3) ?_ fun h32 => ?_
  · unfold y3
    exact windowsOk.keep (putI_keeps _ _ _ _) (by rfl) h31
  clear_value y3
  refine Inv.ite (Q := windowsOk) ?_ ?_
  · exact h30
  · split
    · refine Inv.ite (Q := windowsOk) ?_ ?_
      · refine windowsOk.keep (homeAgain_keeps _ _ _) (by rfl) ?_
        refine limTrip_win _ _ _ ?_
        refine windowsOk.keep (setEncFlag_keeps _ _ _ _) (by rfl) ?_
        exact windowsOk.keep (homeBack_keeps _ _ _) (by rfl) h32
      · exact limTrip_win _ _ _ (windowsOk.keep (setEncFlag_keeps _ _ _ _) (by rfl) h32)
    · exact limTrip_win _ _ _ (windowsOk.keep (setEncFlag_keeps _ _ _ _) (by rfl) h32)

theorem encModeSet_win (s : State) (n : Nat) (old : Nat) (h : windowsOk s) :
    windowsOk (encModeSet s n old) := by
  unfold encModeSet
  extract_lets y0 y1 y2 y3 y4
  clear_value y0 y1 y2
  refine Inv.cut (Q := windowsOk) (s := y3) ?_ fun h30 => ?_
  · unfold y3
    exact windowsOk.keep (encLevels_keeps _ _ _ _) (by rfl) (windowsOk.keep (homeLatch_keeps _ _ _) (by rfl) h)
  clear_value y3
  unfold y4
  refine Inv.ite (Q := windowsOk) ?_ ?_
  · refine Inv.ite (Q := windowsOk) ?_ ?_
    · exact h30
    · refine Inv.ite (Q := windowsOk) ?_ ?_
      · exact windowsOk.keep (limInactive_keeps _ _ _) (by rfl) h30
      · exact limActive_win _ _ _ h30
  · refine Inv.ite (Q := windowsOk) ?_ ?_
    · refine windowsOk.keep (limInactive_keeps _ _ _) (by rfl) ?_
      refine Inv.ite (Q := windowsOk) ?_ ?_
      · exact h30
      · refine Inv.ite (Q := windowsOk) ?_ ?_
        · exact windowsOk.keep (limInactive_keeps _ _ _) (by rfl) h30
        · exact limActive_win _ _ _ h30
    · refine limActive_win _ _ _ ?_
      refine Inv.ite (Q := windowsOk) ?_ ?_
      · exact h30
      · refine Inv.ite (Q := windowsOk) ?_ ?_
        · exact windowsOk.keep (limInactive_keeps _ _ _) (by rfl) h30
        · exact limActive_win _ _ _ h30

theorem execEncLimitTrip_win (axis : Fin 2) (neg : Bool) (held : Nat) (s : State) (h : windowsOk s) :
    OutInv windowsOk (execEncLimitTrip axis neg s held) := by
  unfold execEncLimitTrip
  refine OutInv.clocked ?_ ?_
  · exact h
  · refine OutInv.ends reelObserve_win ?_
    refine Inv.ite (Q := windowsOk) ?_ ?_
    · exact windowsOk.keep (limReleases_keeps _ _) (by rfl) (limActive_win _ _ _ h)
    · exact h

/-! ### Machine/LoopOps.lean -/

theorem loopModeBody_win (c : Cmd) (s : State) (h : windowsOk s) :
    ResInv windowsOk (loopModeBody c s) := by
  exact windowsOk.res (loopModeBody_keeps _ _) (by rfl) h

theorem execLoopMode_win (c : Cmd) (s : State) (h : windowsOk s) :
    OutInv windowsOk (execLoopMode c s) := by
  unfold execLoopMode
  refine OutInv.ends reelObserve_win ?_
  refine Inv.runCmd (Q := windowsOk) goodPacket_win answer_win ?_ fun x0 _ h1 => ?_
  · exact h
  · exact loopModeBody_win _ _ h1

theorem feCheck_win (s : State) (n : Nat) (e : Int) (h : windowsOk s) :
    windowsOk (feCheck s n e) := by
  unfold feCheck
  extract_lets y0 y1 y2 y3 y4 y5
  clear_value y0 y1 y3 y4
  refine Inv.cut (Q := windowsOk) (s := y2) ?_ fun h30 => ?_
  · unfold y2
    refine Inv.ite (Q := windowsOk) ?_ ?_
    · exact h
    · exact windowsOk.keep (causeGone_keeps _ _ _) (by rfl) h
  clear_value y2
  refine Inv.cut (Q := windowsOk) (s := y5) ?_ fun h31 => ?_
  · unfold y5
    exact windowsOk.keep (updSlot_keeps _ _ _) (by rfl) h30
  clear_value y5
  refine Inv.ite (Q := windowsOk) ?_ ?_
  · exact h30
  · refine Inv.ite (Q := windowsOk) ?_ ?_
    · exact raiseFault_win _ _ _ h31
    · exact h31

theorem loopBoundary_win (s : State) (n : Nat) (h : windowsOk s) :
    windowsOk (loopBoundary s n) := by
  unfold loopBoundary
  extract_lets y0 y1 y2 y3 y4
  clear_value y0 y1
  refine Inv.cut (Q := windowsOk) (s := y2) ?_ fun h30 => ?_
  · unfold y2
    refine Inv.ite (Q := windowsOk) ?_ ?_
    · exact windowsOk.keep (putTable_keeps _ _ _ _) (by rfl) h
    · exact h
  clear_value y2
  refine Inv.cut (Q := windowsOk) (s := y3) ?_ fun h31 => ?_
  · unfold y3
    exact windowsOk.keep (applyGroup_keeps _ _ _) (by rfl) h30
  clear_value y3
  refine Inv.cut (Q := windowsOk) (s := y4) ?_ fun h32 => ?_
  · unfold y4
    refine Inv.ite (Q := windowsOk) ?_ ?_
    · exact windowsOk.keep (updSlot_keeps _ _ _) (by rfl) h31
    · exact h31
  clear_value y4
  refine Inv.ite (Q := windowsOk) ?_ ?_
  · exact h
  · refine Inv.ite (Q := windowsOk) ?_ ?_
    · exact raiseOnce_win _ _ _ (windowsOk.keep (dropGroup_keeps _ _ _) (by rfl) h)
    · refine Inv.ite (Q := windowsOk) ?_ ?_
      · refine windowsOk.keep (causeGone_keeps _ _ _) (by rfl) ?_
        refine windowsOk.keep (causeGone_keeps _ _ _) (by rfl) ?_
        exact windowsOk.keep (updSlot_keeps _ _ _) (by rfl) h32
      · exact h32

theorem plausCheck_win (s : State) (n : Nat) (y : Int) (h : windowsOk s) :
    windowsOk (plausCheck s n y) := by
  unfold plausCheck
  extract_lets y0 y1 y2 y3 y4 y5 y6 y7 y8 y9
  clear_value y0 y1 y3 y4 y6 y8
  refine Inv.cut (Q := windowsOk) (s := y2) ?_ fun h30 => ?_
  · unfold y2
    refine Inv.ite (Q := windowsOk) ?_ ?_
    · exact windowsOk.keep (causeGone_keeps _ _ _) (by rfl) h
    · exact h
  clear_value y2
  refine Inv.cut (Q := windowsOk) (s := y5) ?_ fun h31 => ?_
  · unfold y5
    exact windowsOk.keep (putI_keeps _ _ _ _) (by rfl) h30
  clear_value y5
  refine Inv.cut (Q := windowsOk) (s := y7) ?_ fun h32 => ?_
  · unfold y7
    refine Inv.ite (Q := windowsOk) ?_ ?_
    · exact h31
    · exact windowsOk.keep (causeGone_keeps _ _ _) (by rfl) h31
  clear_value y7
  refine Inv.cut (Q := windowsOk) (s := y9) ?_ fun h33 => ?_
  · unfold y9
    exact windowsOk.keep (updSlot_keeps _ _ _) (by rfl) h32
  clear_value y9
  refine Inv.ite (Q := windowsOk) ?_ ?_
  · exact windowsOk.keep (updSlot_keeps _ _ _) (by rfl) h30
  · refine Inv.ite (Q := windowsOk) ?_ ?_
    · exact h32
    · refine Inv.ite (Q := windowsOk) ?_ ?_
      · exact raiseFault_win _ _ _ h33
      · exact h33

theorem runSlot_win (s : State) (n : Nat) (h : windowsOk s) :
    windowsOk (runSlot s n) := by
  unfold runSlot
  extract_lets y0 y1 y2 y3 y4 y5 y6 y7 y8 y9
  clear_value y0 y1 y2 y3 y4 y5 y6
  refine Inv.cut (Q := windowsOk) (s := y7) ?_ fun h30 => ?_
  · unfold y7
    exact plausCheck_win _ _ _ (feCheck_win _ _ _ h)
  clear_value y7
  refine Inv.cut (Q := windowsOk) (s := y8) ?_ fun h31 => ?_
  · unfold y8
    exact windowsOk.keep (updSlot_keeps _ _ _) (by rfl) h30
  clear_value y8
  refine Inv.cut (Q := windowsOk) (s := y9) ?_ fun h32 => ?_
  · unfold y9
    refine Inv.ite (Q := windowsOk) ?_ ?_
    · exact windowsOk.keep (incP_keeps _ _ _) (by rfl) h31
    · exact h31
  clear_value y9
  refine Inv.ite (Q := windowsOk) ?_ ?_
  · exact windowsOk.keep (putI_keeps _ _ _ _) (by rfl) (windowsOk.keep (updSlot_keeps _ _ _) (by rfl) h)
  · refine windowsOk.keep (putN_keeps _ _ _ _) (by rfl) ?_
    exact windowsOk.keep (putI_keeps _ _ _ _) (by rfl) (windowsOk.keep (putI_keeps _ _ _ _) (by rfl) h32)

theorem runSlots_win (s : State) (h : windowsOk s) :
    windowsOk (runSlots s) := by
  unfold runSlots
  refine Inv.foldl (Q := windowsOk) ?_ fun x0 a1 h2 => ?_
  · exact h
  · exact runSlot_win _ _ h2

/-! ### Machine/Planning.lean -/

theorem mtEnd_win (s : State) (h : windowsOk s) :
    windowsOk (mtEnd s) := by
  unfold mtEnd
  extract_lets y0
  refine Inv.cut (Q := windowsOk) (s := y0) ?_ fun h30 => ?_
  · unfold y0
    exact windowsOk.keep (updMt_keeps _ _) (by rfl) h
  clear_value y0
  refine Inv.ite (Q := windowsOk) ?_ ?_
  · refine Inv.foldl (Q := windowsOk) ?_ fun x91 a92 h93 => ?_
    · exact h30
    · extract_lets y94 y95
      clear_value y94
      refine Inv.cut (Q := windowsOk) (s := y95) ?_ fun h124 => ?_
      · unfold y95
        exact windowsOk.keep (updCell_keeps _ _ _) (by rfl) h93
      clear_value y95
      refine Inv.ite (Q := windowsOk) ?_ ?_
      · exact h93
      · refine Inv.ite (Q := windowsOk) ?_ ?_
        · exact raiseFault_win _ _ _ h124
        · exact h124
  · exact h

theorem sendPair_win (s : State) (c : Nat) (h : windowsOk s) :
    windowsOk (sendPair s c) := by
  unfold sendPair
  extract_lets y0 y1 y2 y3
  clear_value y0 y1 y2
  refine Inv.cut (Q := windowsOk) (s := y3) ?_ fun h30 => ?_
  · unfold y3
    exact windowsOk.keep (updCell_keeps _ _ _) (by rfl) h
  clear_value y3
  refine Inv.ite (Q := windowsOk) ?_ ?_
  · exact windowsOk.keep (updCell_keeps _ _ _) (by rfl) h
  · refine Inv.ite (Q := windowsOk) ?_ ?_
    · exact permFailed_win _ _ h
    · exact windowsOk.keep (updLane_keeps _ _ _) (by rfl) h30

theorem starve_win (s : State) (a : Nat) (p : Pass) (h : windowsOk s) :
    windowsOk (starve s a p) := by
  unfold starve
  extract_lets y0 y1 y2 y3
  clear_value y0 y1 y2
  refine Inv.cut (Q := windowsOk) (s := y3) ?_ fun h30 => ?_
  · unfold y3
    exact windowsOk.keep (putN_keeps _ _ _ _) (by rfl) h
  clear_value y3
  refine Inv.ite (Q := windowsOk) ?_ ?_
  · exact windowsOk.keep (causeGone_keeps _ _ _) (by rfl) h30
  · refine Inv.ite (Q := windowsOk) ?_ ?_
    · exact raiseFault_win _ _ _ h30
    · exact h30

theorem latchArm_win (s : State) (a : Nat) (h : windowsOk s) :
    windowsOk (latchArm s a) := by
  unfold latchArm
  extract_lets y0 y1
  clear_value y0
  split
  · exact h
  · extract_lets y60 y61 y62
    refine Inv.cut (Q := windowsOk) (s := y60) ?_ fun h90 => ?_
    · unfold y60
      refine Inv.ite (Q := windowsOk) ?_ ?_
      · exact starve_win _ _ _ h
      · exact h
    clear_value y60
    refine Inv.cut (Q := windowsOk) (s := y61) ?_ fun h91 => ?_
    · unfold y61
      exact windowsOk.keep (causeGone_keeps _ _ _) (by rfl) h90
    clear_value y61
    refine Inv.cut (Q := windowsOk) (s := y62) ?_ fun h92 => ?_
    · unfold y62
      exact windowsOk.keep (maxP_keeps _ _ _ _) (by rfl) h90
    clear_value y62
    refine Inv.ite (Q := windowsOk) ?_ ?_
    · exact h
    · split
      · refine Inv.ite (Q := windowsOk) ?_ ?_
        · exact windowsOk.keep (causeGone_keeps _ _ _) (by rfl) (windowsOk.keep (updArm_keeps _ _ _) (by rfl) h91)
        · refine windowsOk.keep (incP_keeps _ _ _) (by rfl) ?_
          exact raiseFault_win _ _ _ (windowsOk.keep (updArm_keeps _ _ _) (by rfl) h91)
      · refine windowsOk.keep (incP_keeps _ _ _) (by rfl) ?_
        exact raiseFault_win _ _ _ (windowsOk.keep (updArm_keeps _ _ _) (by rfl) h92)

theorem latchRetire_win (s : State) (c : Nat) (h : windowsOk s) :
    windowsOk (latchRetire s c) := by
  unfold latchRetire
  split
  · exact retireDone_win _ _ _ h
  · exact sendPair_win _ _ h
  · exact h

theorem latchActivity_win (s : State) (i : Nat) (h : windowsOk s) :
    windowsOk (latchActivity s i) := by
  unfold latchActivity
  split
  · refine Inv.ite (Q := windowsOk) ?_ ?_
    · exact freeActivity_win _ _ h
    · exact windowsOk.keep (updAct_keeps _ _ _) (by rfl) h
  · exact h

theorem latchMark_win (s : State) (h : windowsOk s) :
    windowsOk (latchMark s) := by
  unfold latchMark
  extract_lets y0 y1 y2 y3 y4 y5 y6
  clear_value y0 y1 y4
  refine Inv.cut (Q := windowsOk) (s := y2) ?_ fun h30 => ?_
  · unfold y2
    refine Inv.foldl (Q := windowsOk) ?_ fun x31 a32 h33 => ?_
    · refine Inv.foldl (Q := windowsOk) ?_ fun x34 a35 h36 => ?_
      · exact h
      · exact windowsOk.keep (notStarved_keeps _ _) (by rfl) h36
    · exact latchArm_win _ _ h33
  clear_value y2
  refine Inv.cut (Q := windowsOk) (s := y3) ?_ fun h37 => ?_
  · unfold y3
    refine Inv.ite (Q := windowsOk) ?_ ?_
    · exact h30
    · exact windowsOk.keep (traceEvent_keeps _ _ _ _ _ _ _) (by rfl) h30
  clear_value y3
  refine Inv.cut (Q := windowsOk) (s := y5) ?_ fun h38 => ?_
  · unfold y5
    refine Inv.foldl (Q := windowsOk) ?_ fun x39 a40 h41 => ?_
    · exact h37
    · exact windowsOk.keep (latchEntry_keeps _ _) (by rfl) h41
  clear_value y5
  refine Inv.cut (Q := windowsOk) (s := y6) ?_ fun h42 => ?_
  · unfold y6
    refine Inv.foldl (Q := windowsOk) ?_ fun x43 a44 h45 => ?_
    · exact h38
    · refine Inv.ite (Q := windowsOk) ?_ ?_
      · exact latchRetire_win _ _ h45
      · exact h45
  clear_value y6
  refine Inv.foldl (Q := windowsOk) ?_ fun x46 a47 h48 => ?_
  · exact h42
  · exact latchActivity_win _ _ h48

/-! ### Machine/Belay.lean -/

theorem safetyLockBody_win (a : Cmd) (s : State) (h : windowsOk s) :
    ResInv windowsOk (safetyLockBody a s) := by
  exact windowsOk.res (safetyLockBody_keeps _ _) (by rfl) h

theorem safetyLogReadBody_win (c : Cmd) (s : State) (h : windowsOk s) :
    ResInv windowsOk (safetyLogReadBody c s) := by
  exact windowsOk.res (safetyLogReadBody_keeps _ _) (by rfl) h

theorem safetyUnlockBody_win (c : Cmd) (s : State) (h : windowsOk s) :
    ResInv windowsOk (safetyUnlockBody c s) := by
  exact windowsOk.res (safetyUnlockBody_keeps _ _) (by rfl) h

theorem safetyWriteBody_win (c : Cmd) (s : State) (h : windowsOk s) :
    ResInv windowsOk (safetyWriteBody c s) := by
  exact windowsOk.res (safetyWriteBody_keeps _ _) (by rfl) h

theorem execBelayResetRelease_win (ok : Nat) (rc : Nat) (s : State) (h : windowsOk s) :
    OutInv windowsOk (execBelayResetRelease s ok rc) := by
  unfold execBelayResetRelease
  extract_lets y0
  refine Inv.cut (Q := windowsOk) (s := y0) ?_ fun h30 => ?_
  · unfold y0
    exact windowsOk.keep (internalPass_keeps _ _) (by rfl) (windowsOk.keep (belayLatch_keeps _ _) (by rfl) h)
  clear_value y0
  refine OutInv.ite ?_ ?_
  · exact OutInv.ends reelObserve_win (windowsOk.keep (updBelay_keeps _ _) (by rfl) h30)
  · exact OutInv.ends reelObserve_win h

theorem execSafetyLock_win (c : Cmd) (s : State) (h : windowsOk s) :
    OutInv windowsOk (execSafetyLock c s) := by
  unfold execSafetyLock
  refine OutInv.ends reelObserve_win ?_
  refine Inv.runCmd (Q := windowsOk) goodPacket_win answer_win ?_ fun x0 _ h1 => ?_
  · exact h
  · exact safetyLockBody_win _ _ h1

theorem execSafetyLogRead_win (c : Cmd) (s : State) (h : windowsOk s) :
    OutInv windowsOk (execSafetyLogRead c s) := by
  unfold execSafetyLogRead
  refine OutInv.ends reelObserve_win ?_
  refine Inv.runCmd (Q := windowsOk) goodPacket_win answer_win ?_ fun x0 _ h1 => ?_
  · exact h
  · exact safetyLogReadBody_win _ _ h1

theorem execSafetySessionTimeout_win (s : State) (h : windowsOk s) :
    OutInv windowsOk (execSafetySessionTimeout s) := by
  unfold execSafetySessionTimeout
  refine OutInv.ite ?_ ?_
  · refine OutInv.ends reelObserve_win ?_
    exact windowsOk.keep (sessionEnd_keeps _) (by rfl) (windowsOk.keep (advanceTo_keeps _ _) (by rfl) h)
  · exact OutInv.ends reelObserve_win h

theorem execSafetyUnlock_win (c : Cmd) (s : State) (h : windowsOk s) :
    OutInv windowsOk (execSafetyUnlock c s) := by
  unfold execSafetyUnlock
  refine OutInv.ends reelObserve_win ?_
  refine Inv.runCmd (Q := windowsOk) goodPacket_win answer_win ?_ fun x0 _ h1 => ?_
  · exact h
  · exact safetyUnlockBody_win _ _ h1

theorem execSafetyWrite_win (c : Cmd) (s : State) (h : windowsOk s) :
    OutInv windowsOk (execSafetyWrite c s) := by
  unfold execSafetyWrite
  refine OutInv.ends reelObserve_win ?_
  refine Inv.runCmd (Q := windowsOk) goodPacket_win answer_win ?_ fun x0 _ h1 => ?_
  · exact h
  · exact safetyWriteBody_win _ _ h1

theorem execTestPulseEnd_win (output : Fin 4) (s : State) (h : windowsOk s) :
    OutInv windowsOk (execTestPulseEnd output s) := by
  unfold execTestPulseEnd
  extract_lets y0 y1 y2
  clear_value y0 y1
  refine Inv.cut (Q := windowsOk) (s := y2) ?_ fun h30 => ?_
  · unfold y2
    exact windowsOk.keep (advanceTo_keeps _ _) (by rfl) h
  clear_value y2
  refine OutInv.ite ?_ ?_
  · exact OutInv.ends reelObserve_win (windowsOk.keep (updBelay_keeps _ _) (by rfl) h30)
  · exact OutInv.ends reelObserve_win h

theorem execTestPulseStart_win (output : Fin 4) (s : State) (h : windowsOk s) :
    OutInv windowsOk (execTestPulseStart output s) := by
  unfold execTestPulseStart
  extract_lets y0 y1 y2
  clear_value y0
  refine Inv.cut (Q := windowsOk) (s := y1) ?_ fun h30 => ?_
  · unfold y1
    exact windowsOk.keep (advanceTo_keeps _ _) (by rfl) h
  clear_value y1
  refine Inv.cut (Q := windowsOk) (s := y2) ?_ fun h31 => ?_
  · unfold y2
    exact windowsOk.keep (updBelay_keeps _ _) (by rfl) h30
  clear_value y2
  refine OutInv.ite ?_ ?_
  · refine OutInv.ends reelObserve_win ?_
    refine Inv.foldl (Q := windowsOk) ?_ fun x122 a123 h124 => ?_
    · exact h31
    · extract_lets y125
      clear_value y125
      exact windowsOk.keep (updSi_keeps _ _ _) (by rfl) h124
  · exact OutInv.ends reelObserve_win h

theorem execUnlockBackoffEnd_win (s : State) (h : windowsOk s) :
    OutInv windowsOk (execUnlockBackoffEnd s) := by
  unfold execUnlockBackoffEnd
  split
  · refine OutInv.ends reelObserve_win ?_
    exact windowsOk.keep (updBelay_keeps _ _) (by rfl) (windowsOk.keep (advanceTo_keeps _ _) (by rfl) h)
  · exact OutInv.ends reelObserve_win h

theorem execFdcStaleTimeout_win (current : Bool) (s : State) (h : windowsOk s) :
    OutInv windowsOk (execFdcStaleTimeout current s) := by
  unfold execFdcStaleTimeout
  extract_lets y0 y1 y2 y3 y4
  clear_value y0 y1 y3
  refine Inv.cut (Q := windowsOk) (s := y4) ?_ fun h30 => ?_
  · unfold y4
    exact windowsOk.keep (advanceTo_keeps _ _) (by rfl) h
  clear_value y4
  refine OutInv.ite ?_ ?_
  · exact OutInv.ends reelObserve_win (raiseBelay_win _ _ _ _ h30)
  · exact OutInv.ends reelObserve_win h

theorem execHeartbeatTimeout_win (s : State) (h : windowsOk s) :
    OutInv windowsOk (execHeartbeatTimeout s) := by
  unfold execHeartbeatTimeout
  extract_lets y0
  refine Inv.cut (Q := windowsOk) (s := y0) ?_ fun h30 => ?_
  · unfold y0
    exact windowsOk.keep (advanceTo_keeps _ _) (by rfl) h
  clear_value y0
  refine OutInv.ite ?_ ?_
  · exact OutInv.ends reelObserve_win (raiseBelay_win _ _ _ _ h30)
  · exact OutInv.ends reelObserve_win h

theorem fdcResult_win (s : State) (tag : Nat) (raw : Nat) (h : windowsOk s) :
    windowsOk (fdcResult s tag raw) := by
  unfold fdcResult
  extract_lets y0 y1 y2 y3 y4 y5 y6 y7 y8 y9 y10
  clear_value y0 y1 y2 y4 y7 y9
  refine Inv.cut (Q := windowsOk) (s := y3) ?_ fun h30 => ?_
  · unfold y3
    exact windowsOk.keep (putN_keeps _ _ _ _) (by rfl) h
  clear_value y3
  refine Inv.cut (Q := windowsOk) (s := y5) ?_ fun h31 => ?_
  · unfold y5
    exact windowsOk.keep (updBelay_keeps _ _) (by rfl) h30
  clear_value y5
  refine Inv.cut (Q := windowsOk) (s := y6) ?_ fun h32 => ?_
  · unfold y6
    refine Inv.ite (Q := windowsOk) ?_ ?_
    · refine Inv.ite (Q := windowsOk) ?_ ?_
      · exact raiseBelay_win _ _ _ _ h31
      · exact h31
    · exact h
  clear_value y6
  refine Inv.cut (Q := windowsOk) (s := y8) ?_ fun h33 => ?_
  · unfold y8
    exact windowsOk.keep (putN_keeps _ _ _ _) (by rfl) h32
  clear_value y8
  refine Inv.cut (Q := windowsOk) (s := y10) ?_ fun h34 => ?_
  · unfold y10
    exact windowsOk.keep (updBelay_keeps _ _) (by rfl) h33
  clear_value y10
  refine Inv.ite (Q := windowsOk) ?_ ?_
  · exact h
  · refine Inv.ite (Q := windowsOk) ?_ ?_
    · refine Inv.ite (Q := windowsOk) ?_ ?_
      · exact raiseBelay_win _ _ _ _ h34
      · exact h34
    · exact h32

theorem hbCheck_win (s : State) (h : windowsOk s) :
    windowsOk (hbCheck s) := by
  unfold hbCheck
  extract_lets y0 y1 y2
  clear_value y0 y1
  refine Inv.cut (Q := windowsOk) (s := y2) ?_ fun h30 => ?_
  · unfold y2
    exact windowsOk.keep (updBelay_keeps _ _) (by rfl) h
  clear_value y2
  refine Inv.ite (Q := windowsOk) ?_ ?_
  · exact h
  · refine Inv.ite (Q := windowsOk) ?_ ?_
    · exact raiseBelay_win _ _ _ _ h30
    · exact h30

theorem icmFound_win (s : State) (a : Nat) (h : windowsOk s) :
    windowsOk (icmFound s a) := by
  unfold icmFound
  exact raiseBelay_win _ _ _ _ (windowsOk.keep (updBelay_keeps _ _) (by rfl) h)

theorem icmVerdict_win (s : State) (a : Nat) (bad : Bool) (h : windowsOk s) :
    windowsOk (icmVerdict s a bad) := by
  unfold icmVerdict
  extract_lets y0 y1
  clear_value y0
  refine Inv.cut (Q := windowsOk) (s := y1) ?_ fun h30 => ?_
  · unfold y1
    exact windowsOk.keep (updBelay_keeps _ _) (by rfl) h
  clear_value y1
  refine Inv.ite (Q := windowsOk) ?_ ?_
  · exact icmFound_win _ _ h30
  · exact h30

theorem internalFail_win (s : State) (i : Nat) (h : windowsOk s) :
    windowsOk (internalFail s i) := by
  unfold internalFail
  exact raiseBelay_win _ _ _ _ (windowsOk.keep (updBelay_keeps _ _) (by rfl) h)

theorem resetEdge_win (s : State) (readback : Bool) (h : windowsOk s) :
    windowsOk (resetEdge s readback) := by
  unfold resetEdge
  extract_lets y0 y1
  refine Inv.cut (Q := windowsOk) (s := y0) ?_ fun h30 => ?_
  · unfold y0
    exact windowsOk.keep (incP_keeps _ _ _) (by rfl) h
  clear_value y0
  refine Inv.cut (Q := windowsOk) (s := y1) ?_ fun h31 => ?_
  · unfold y1
    refine windowsOk.keep (releaseLatches_keeps _) (by rfl) ?_
    exact windowsOk.keep (internalPass_keeps _ _) (by rfl) h30
  clear_value y1
  refine Inv.ite (Q := windowsOk) ?_ ?_
  · exact windowsOk.keep (incP_keeps _ _ _) (by rfl) (internalFail_win _ _ h30)
  · refine Inv.ite (Q := windowsOk) ?_ ?_
    · exact windowsOk.keep (injectLanes_keeps _) (by rfl) (windowsOk.keep (updBelay_keeps _ _) (by rfl) h31)
    · exact windowsOk.keep (incP_keeps _ _ _) (by rfl) h31

theorem siDemand_win (s : State) (n : Nat) (h : windowsOk s) :
    windowsOk (siDemand s n) := by
  unfold siDemand
  extract_lets y0 y1
  refine Inv.cut (Q := windowsOk) (s := y0) ?_ fun h30 => ?_
  · unfold y0
    exact windowsOk.keep (updSi_keeps _ _ _) (by rfl) h
  clear_value y0
  refine Inv.cut (Q := windowsOk) (s := y1) ?_ fun h31 => ?_
  · unfold y1
    refine Inv.ite (Q := windowsOk) ?_ ?_
    · exact h30
    · exact windowsOk.keep (updSi_keeps _ _ _) (by rfl) h30
  clear_value y1
  exact raiseBelay_win _ _ _ _ h31

theorem siDisagree_win (s : State) (n : Nat) (h : windowsOk s) :
    windowsOk (siDisagree s n) := by
  unfold siDisagree
  extract_lets y0
  refine Inv.cut (Q := windowsOk) (s := y0) ?_ fun h30 => ?_
  · unfold y0
    exact windowsOk.keep (updSi_keeps _ _ _) (by rfl) h
  clear_value y0
  refine Inv.ite (Q := windowsOk) ?_ ?_
  · exact raiseBelay_win _ _ _ _ (windowsOk.keep (updSi_keeps _ _ _) (by rfl) h30)
  · exact h30

theorem srstHeld_win (s : State) (h : windowsOk s) :
    windowsOk (srstHeld s) := by
  unfold srstHeld
  exact raiseFault_win _ _ _ (windowsOk.keep (updBelay_keeps _ _) (by rfl) h)

theorem srstSample_win (s : State) (high : Bool) (readback : Bool) (h : windowsOk s) :
    windowsOk (srstSample s high readback) := by
  unfold srstSample
  extract_lets y0 y1 y2 y3 y4 y5
  clear_value y1 y4
  refine Inv.cut (Q := windowsOk) (s := y2) ?_ fun h30 => ?_
  · unfold y2
    exact windowsOk.keep (updBelay_keeps _ _) (by rfl) h
  clear_value y2
  refine Inv.cut (Q := windowsOk) (s := y3) ?_ fun h31 => ?_
  · unfold y3
    refine Inv.ite (Q := windowsOk) ?_ ?_
    · exact srstHeld_win _ h30
    · exact h30
  clear_value y3
  refine Inv.cut (Q := windowsOk) (s := y5) ?_ fun h32 => ?_
  · unfold y5
    exact windowsOk.keep (updBelay_keeps _ _) (by rfl) h31
  clear_value y5
  refine Inv.ite (Q := windowsOk) ?_ ?_
  · exact h31
  · refine Inv.ite (Q := windowsOk) ?_ ?_
    · exact windowsOk.keep (updBelay_keeps _ _) (by rfl) h31
    · refine Inv.ite (Q := windowsOk) ?_ ?_
      · refine Inv.ite (Q := windowsOk) ?_ ?_
        · exact windowsOk.keep (causeGone_keeps _ _ _) (by rfl) h32
        · refine Inv.ite (Q := windowsOk) ?_ ?_
          · exact windowsOk.keep (incP_keeps _ _ _) (by rfl) h32
          · exact resetEdge_win _ _ h32
      · exact h31

theorem tpCheck_win (s : State) (n : Nat) (b : Bool) (h : windowsOk s) :
    windowsOk (tpCheck s n b) := by
  unfold tpCheck
  extract_lets y0 y1 y2 y3 y4 y5 y6
  clear_value y0 y1 y2 y3 y4 y5
  refine Inv.cut (Q := windowsOk) (s := y6) ?_ fun h30 => ?_
  · unfold y6
    exact windowsOk.keep (updSi_keeps _ _ _) (by rfl) h
  clear_value y6
  refine Inv.ite (Q := windowsOk) ?_ ?_
  · refine Inv.ite (Q := windowsOk) ?_ ?_
    · exact raiseBelay_win _ _ _ _ (windowsOk.keep (updSi_keeps _ _ _) (by rfl) h30)
    · exact h30
  · exact h

theorem tripBack_win (s : State) (a : Bool) (b : Bool) (h : windowsOk s) :
    windowsOk (tripBack s a b) := by
  unfold tripBack
  extract_lets y0
  refine Inv.cut (Q := windowsOk) (s := y0) ?_ fun h30 => ?_
  · unfold y0
    exact windowsOk.keep (updBelay_keeps _ _) (by rfl) h
  clear_value y0
  refine Inv.ite (Q := windowsOk) ?_ ?_
  · exact windowsOk.keep (internalPass_keeps _ _) (by rfl) h30
  · refine Inv.ite (Q := windowsOk) ?_ ?_
    · exact h30
    · exact internalFail_win _ _ h30

theorem execBelayClockCheck_win (count : Nat) (s : State) (h : windowsOk s) :
    OutInv windowsOk (execBelayClockCheck count s) := by
  unfold execBelayClockCheck
  extract_lets y0 y1
  clear_value y0
  refine Inv.cut (Q := windowsOk) (s := y1) ?_ fun h30 => ?_
  · unfold y1
    exact windowsOk.keep (updBelay_keeps _ _) (by rfl) h
  clear_value y1
  refine OutInv.ite ?_ ?_
  · refine OutInv.ends reelObserve_win ?_
    refine Inv.ite (Q := windowsOk) ?_ ?_
    · exact windowsOk.keep (internalPass_keeps _ _) (by rfl) h30
    · exact internalFail_win _ _ h30
  · exact OutInv.ends reelObserve_win h

theorem execBelayReset_win (low : Bool) (rc : Nat) (s : State) (h : windowsOk s) :
    OutInv windowsOk (execBelayReset s low rc) := by
  unfold execBelayReset
  extract_lets y0
  refine Inv.cut (Q := windowsOk) (s := y0) ?_ fun h30 => ?_
  · unfold y0
    exact internalFail_win _ _ h
  clear_value y0
  refine OutInv.ite ?_ ?_
  · exact OutInv.ends reelObserve_win (windowsOk.keep (updBelay_keeps _ _) (by rfl) h30)
  · refine OutInv.ite ?_ ?_
    · exact OutInv.ends reelObserve_win (windowsOk.keep (updBelay_keeps _ _) (by rfl) h)
    · exact OutInv.ends reelObserve_win h

theorem execBelaySramError_win (s : State) (h : windowsOk s) :
    OutInv windowsOk (execBelaySramError s) := by
  unfold execBelaySramError
  refine OutInv.ite ?_ ?_
  · exact OutInv.ends reelObserve_win (internalFail_win _ _ h)
  · exact OutInv.ends reelObserve_win h

theorem execSrstStuck_win (s : State) (h : windowsOk s) :
    OutInv windowsOk (execSrstStuck s) := by
  unfold execSrstStuck
  split
  · extract_lets y30
    refine Inv.cut (Q := windowsOk) (s := y30) ?_ fun h60 => ?_
    · unfold y30
      exact windowsOk.keep (advanceTo_keeps _ _) (by rfl) h
    clear_value y30
    refine OutInv.ite ?_ ?_
    · exact OutInv.ends reelObserve_win (srstHeld_win _ h60)
    · exact OutInv.ends reelObserve_win h
  · exact OutInv.ends reelObserve_win h

theorem siSample_win (s : State) (n : Nat) (a : Bool) (b : Bool) (h : windowsOk s) :
    windowsOk (siSample s n a b) := by
  unfold siSample
  extract_lets y0 y1 y2 y3 y4 y5
  clear_value y0 y2 y3
  refine Inv.cut (Q := windowsOk) (s := y1) ?_ fun h30 => ?_
  · unfold y1
    exact windowsOk.keep (updSi_keeps _ _ _) (by rfl) h
  clear_value y1
  refine Inv.cut (Q := windowsOk) (s := y4) ?_ fun h31 => ?_
  · unfold y4
    exact tpCheck_win _ _ _ (tpCheck_win _ _ _ h30)
  clear_value y4
  refine Inv.cut (Q := windowsOk) (s := y5) ?_ fun h32 => ?_
  · unfold y5
    exact windowsOk.keep (updSi_keeps _ _ _) (by rfl) h31
  clear_value y5
  refine Inv.ite (Q := windowsOk) ?_ ?_
  · exact h30
  · refine Inv.ite (Q := windowsOk) ?_ ?_
    · exact h31
    · refine Inv.ite (Q := windowsOk) ?_ ?_
      · exact siDemand_win _ _ (windowsOk.keep (siRunEnd_keeps _ _) (by rfl) h32)
      · refine Inv.ite (Q := windowsOk) ?_ ?_
        · exact siDisagree_win _ _ h32
        · exact windowsOk.keep (siRunEnd_keeps _ _) (by rfl) h32

theorem execBelaySample_win (a : BitVec 8) (b : BitVec 8) (srstHigh : Bool) (tripA : Bool) (tripB : Bool) (injection
      : Bool) (s : State) (h : windowsOk s) :
    OutInv windowsOk (execBelaySample a b srstHigh tripA tripB injection s) := by
  unfold execBelaySample
  extract_lets y0 y1 y2
  refine Inv.cut (Q := windowsOk) (s := y0) ?_ fun h30 => ?_
  · unfold y0
    refine windowsOk.keep (internalPass_keeps _ _) (by rfl) ?_
    exact tripBack_win _ _ _ (windowsOk.keep (gridNext_keeps _) (by rfl) h)
  clear_value y0
  refine Inv.cut (Q := windowsOk) (s := y1) ?_ fun h31 => ?_
  · unfold y1
    exact windowsOk.keep (updBelay_keeps _ _) (by rfl) h30
  clear_value y1
  refine Inv.cut (Q := windowsOk) (s := y2) ?_ fun h32 => ?_
  · unfold y2
    refine Inv.foldl (Q := windowsOk) ?_ fun x33 a34 h35 => ?_
    · exact h31
    · exact siSample_win _ _ _ _ h35
  clear_value y2
  refine OutInv.ite ?_ ?_
  · exact OutInv.ends reelObserve_win (srstSample_win _ _ _ h32)
  · exact OutInv.ends reelObserve_win h

/-! ### Machine/Capstan.lean -/

theorem capNotes_win (s : State) (a : Nat) (o : CapOut) (h : windowsOk s) :
    windowsOk (capNotes s a o) := by
  unfold capNotes
  extract_lets y0 y1
  refine Inv.cut (Q := windowsOk) (s := y0) ?_ fun h30 => ?_
  · unfold y0
    exact windowsOk.keep (incP_keeps _ _ _) (by rfl) h
  clear_value y0
  refine Inv.cut (Q := windowsOk) (s := y1) ?_ fun h31 => ?_
  · unfold y1
    refine Inv.ite (Q := windowsOk) ?_ ?_
    · refine Inv.ite (Q := windowsOk) ?_ ?_
      · exact h30
      · exact raiseFault_win _ _ _ (windowsOk.keep (updArm_keeps _ _ _) (by rfl) h30)
    · exact windowsOk.keep (causeGone_keeps _ _ _) (by rfl) h
  clear_value y1
  refine Inv.ite (Q := windowsOk) ?_ ?_
  · refine Inv.ite (Q := windowsOk) ?_ ?_
    · exact h31
    · exact raiseFault_win _ _ _ (windowsOk.keep (updArm_keeps _ _ _) (by rfl) h31)
  · exact windowsOk.keep (causeGone_keeps _ _ _) (by rfl) h31

theorem icmMark_win (s : State) (h : windowsOk s) :
    windowsOk (icmMark s) := by
  unfold icmMark
  extract_lets y0 y1 y2 y3 y4 y5 y6
  clear_value y0 y2 y3 y5
  refine Inv.cut (Q := windowsOk) (s := y4) ?_ fun h30 => ?_
  · unfold y4
    refine Inv.ite (Q := windowsOk) ?_ ?_
    · exact h
    · exact windowsOk.keep (updBelay_keeps _ _) (by rfl) h
  clear_value y4
  refine Inv.cut (Q := windowsOk) (s := y6) ?_ fun h31 => ?_
  · unfold y6
    refine Inv.ite (Q := windowsOk) ?_ ?_
    · exact h30
    · exact windowsOk.keep (updBelay_keeps _ _) (by rfl) h30
  clear_value y6
  refine Inv.ite (Q := windowsOk) ?_ ?_
  · exact h31
  · refine Inv.foldl (Q := windowsOk) ?_ fun x92 a93 h94 => ?_
    · exact h31
    · extract_lets y95 y96 y97
      clear_value y95 y96 y97
      exact icmVerdict_win _ _ _ h94

theorem capDeblocked_win (s : State) (p : Nat) (a : Nat) (epochStart : Bool) (h : windowsOk s) :
    windowsOk (capDeblocked s p a epochStart) := by
  unfold capDeblocked
  extract_lets y0 y1 y2 y3 y4 y5 y6 y7 y8 y9 y10
  clear_value y0 y1 y2 y3 y4 y5
  refine Inv.cut (Q := windowsOk) (s := y6) ?_ fun h30 => ?_
  · unfold y6
    refine Inv.foldl (Q := windowsOk) ?_ fun x61 a62 h63 => ?_
    · exact h
    · extract_lets y64 y65
      clear_value y64
      refine Inv.cut (Q := windowsOk) (s := y65) ?_ fun h94 => ?_
      · unfold y65
        exact windowsOk.keep (putWord_keeps _ _ _ _) (by rfl) h63
      clear_value y65
      exact windowsOk.keep (updCell_keeps _ _ _) (by rfl) h94
  clear_value y6
  refine Inv.cut (Q := windowsOk) (s := y7) ?_ fun h95 => ?_
  · unfold y7
    exact windowsOk.keep (updArm_keeps _ _ _) (by rfl) h30
  clear_value y7
  refine Inv.cut (Q := windowsOk) (s := y8) ?_ fun h96 => ?_
  · unfold y8
    exact windowsOk.keep (putI_keeps _ _ _ _) (by rfl) (windowsOk.keep (putI_keeps _ _ _ _) (by rfl) h95)
  clear_value y8
  refine Inv.cut (Q := windowsOk) (s := y9) ?_ fun h97 => ?_
  · unfold y9
    refine Inv.ite (Q := windowsOk) ?_ ?_
    · exact windowsOk.keep (addP_keeps _ _ _ _) (by rfl) (windowsOk.keep (putN_keeps _ _ _ _) (by rfl) h96)
    · exact h96
  clear_value y9
  refine Inv.cut (Q := windowsOk) (s := y10) ?_ fun h98 => ?_
  · unfold y10
    exact windowsOk.keep (maxP_keeps _ _ _ _) (by rfl) (windowsOk.keep (addP_keeps _ _ _ _) (by rfl) h97)
  clear_value y10
  exact capNotes_win _ _ _ (windowsOk.keep (addP_keeps _ _ _ _) (by rfl) h98)

theorem capCompute_win (s : State) (p : Nat) (h : windowsOk s) :
    windowsOk (capCompute s p) := by
  unfold capCompute
  extract_lets y0 y1 y2 y3 y4
  clear_value y0
  refine Inv.cut (Q := windowsOk) (s := y1) ?_ fun h30 => ?_
  · unfold y1
    exact windowsOk.same (s := s) rfl rfl rfl rfl h
  clear_value y1
  refine Inv.cut (Q := windowsOk) (s := y2) ?_ fun h31 => ?_
  · unfold y2
    refine Inv.foldl (Q := windowsOk) ?_ fun x62 a63 h64 => ?_
    · exact h30
    · extract_lets y65 y66
      refine Inv.cut (Q := windowsOk) (s := y65) ?_ fun h95 => ?_
      · unfold y65
        refine Inv.ite (Q := windowsOk) ?_ ?_
        · exact windowsOk.keep (updArm_keeps _ _ _) (by rfl) (windowsOk.keep (putN_keeps _ _ _ _) (by rfl) h64)
        · exact h64
      clear_value y65
      refine Inv.cut (Q := windowsOk) (s := y66) ?_ fun h96 => ?_
      · unfold y66
        exact windowsOk.keep (updArm_keeps _ _ _) (by rfl) h95
      clear_value y66
      refine Inv.ite (Q := windowsOk) ?_ ?_
      · exact capDeblocked_win _ _ _ _ h96
      · exact windowsOk.keep (capBlocked_keeps _ _ _) (by rfl) h96
  clear_value y2
  refine Inv.cut (Q := windowsOk) (s := y3) ?_ fun h97 => ?_
  · unfold y3
    refine Inv.ite (Q := windowsOk) ?_ ?_
    · exact windowsOk.keep (putN_keeps _ _ _ _) (by rfl) h31
    · exact h31
  clear_value y3
  refine Inv.cut (Q := windowsOk) (s := y4) ?_ fun h98 => ?_
  · unfold y4
    exact windowsOk.keep (putN_keeps _ _ _ _) (by rfl) h97
  clear_value y4
  exact windowsOk.keep (hbArrive_keeps _ _) (by rfl) h98

/-! ### Machine/DupOps.lean -/

theorem handoverOk_win (s : State) (h : windowsOk s) :
    windowsOk (handoverOk s) := by
  unfold handoverOk
  extract_lets y0
  unfold y0
  split
  · refine completeOk_win _ _ _ ?_
    split
    · exact completeOk_win _ _ _ h
    · exact h
  · split
    · exact completeOk_win _ _ _ h
    · exact h

theorem activeMark_win (s : State) (h : windowsOk s) :
    windowsOk (activeMark s) := by
  unfold activeMark
  extract_lets y0 y1 y2
  clear_value y0
  refine Inv.cut (Q := windowsOk) (s := y1) ?_ fun h30 => ?_
  · unfold y1
    refine Inv.ite (Q := windowsOk) ?_ ?_
    · exact windowsOk.keep (causeGone_keeps _ _ _) (by rfl) h
    · exact h
  clear_value y1
  refine Inv.cut (Q := windowsOk) (s := y2) ?_ fun h31 => ?_
  · unfold y2
    refine Inv.ite (Q := windowsOk) ?_ ?_
    · exact windowsOk.keep (updDup_keeps _ _) (by rfl) h30
    · exact h30
  clear_value y2
  refine Inv.ite (Q := windowsOk) ?_ ?_
  · refine Inv.ite (Q := windowsOk) ?_ ?_
    · exact handoverOk_win _ (windowsOk.keep (updDup_keeps _ _) (by rfl) h31)
    · exact h31
  · refine Inv.ite (Q := windowsOk) ?_ ?_
    · exact raiseFault_win _ _ _ (windowsOk.keep (dupStandby_keeps _) (by rfl) h31)
    · split
      · refine Inv.ite (Q := windowsOk) ?_ ?_
        · exact windowsOk.keep (dupStandby_keeps _) (by rfl) (handoverOk_win _ h31)
        · exact h31
      · exact h31

theorem hbMark_win (s : State) (h : windowsOk s) :
    windowsOk (hbMark s) := by
  unfold hbMark
  extract_lets y0 y1 y2
  refine Inv.cut (Q := windowsOk) (s := y0) ?_ fun h30 => ?_
  · unfold y0
    exact windowsOk.keep (causeGone_keeps _ _ _) (by rfl) h
  clear_value y0
  refine Inv.cut (Q := windowsOk) (s := y1) ?_ fun h31 => ?_
  · unfold y1
    exact windowsOk.keep (incP_keeps _ _ _) (by rfl) h
  clear_value y1
  refine Inv.cut (Q := windowsOk) (s := y2) ?_ fun h32 => ?_
  · unfold y2
    exact windowsOk.keep (updDup_keeps _ _) (by rfl) h31
  clear_value y2
  split
  · extract_lets y63
    clear_value y63
    exact windowsOk.keep (updDup_keeps _ _) (by rfl) h30
  · refine Inv.ite (Q := windowsOk) ?_ ?_
    · exact raiseFault_win _ _ _ h32
    · exact h32

theorem dupMark_win (s : State) (h : windowsOk s) :
    windowsOk (dupMark s) := by
  unfold dupMark
  extract_lets y0
  refine Inv.cut (Q := windowsOk) (s := y0) ?_ fun h30 => ?_
  · unfold y0
    exact hbMark_win _ h
  clear_value y0
  refine Inv.ite (Q := windowsOk) ?_ ?_
  · exact h
  · refine Inv.ite (Q := windowsOk) ?_ ?_
    · exact windowsOk.keep (standbyMark_keeps _) (by rfl) h30
    · exact windowsOk.keep (grantMark_keeps _) (by rfl) (activeMark_win _ h30)

theorem applyData_win (s : State) (h : windowsOk s) :
    windowsOk (applyData s) := by
  unfold applyData
  split
  · extract_lets y30 y31 y32 y33 y34 y35 y36
    clear_value y31
    refine Inv.cut (Q := windowsOk) (s := y30) ?_ fun h60 => ?_
    · unfold y30
      exact windowsOk.keep (updDup_keeps _ _) (by rfl) h
    clear_value y30
    refine Inv.cut (Q := windowsOk) (s := y32) ?_ fun h61 => ?_
    · unfold y32
      exact windowsOk.keep (takeCount_keeps _ _) (by rfl) h60
    clear_value y32
    refine Inv.cut (Q := windowsOk) (s := y33) ?_ fun h62 => ?_
    · unfold y33
      refine Inv.foldl (Q := windowsOk) ?_ fun x63 a64 h65 => ?_
      · exact h61
      · exact windowsOk.keep (mirrorArm_keeps _ _ _) (by rfl) h65
    clear_value y33
    refine Inv.cut (Q := windowsOk) (s := y34) ?_ fun h66 => ?_
    · unfold y34
      refine Inv.foldl (Q := windowsOk) ?_ fun x67 a68 h69 => ?_
      · exact h62
      · refine Inv.ite (Q := windowsOk) ?_ ?_
        · exact windowsOk.keep (mirrorGen_keeps _ _ _) (by rfl) h69
        · exact h69
    clear_value y34
    refine Inv.cut (Q := windowsOk) (s := y35) ?_ fun h70 => ?_
    · unfold y35
      refine ledgerWatch_win _ ?_
      refine Inv.foldl (Q := windowsOk) ?_ fun x71 a72 h73 => ?_
      · exact h66
      · refine Inv.ite (Q := windowsOk) ?_ ?_
        · exact windowsOk.keep (mirrorAct_keeps _ _ _) (by rfl) h73
        · exact h73
    clear_value y35
    refine Inv.cut (Q := windowsOk) (s := y36) ?_ fun h74 => ?_
    · unfold y36
      refine Inv.foldl (Q := windowsOk) ?_ fun x75 a76 h77 => ?_
      · exact h70
      · refine Inv.ite (Q := windowsOk) ?_ ?_
        · exact windowsOk.keep (mirrorCleat_keeps _ _ _) (by rfl) h77
        · exact h77
    clear_value y36
    exact windowsOk.keep (mirrorExcl_keeps _ _ _) (by rfl) (cleatWatch_win _ (servePendings_win _ _ h74))
  · exact h

/-! ### Machine/RunOps.lean -/

theorem heldToSpi_win (l : List (List Word)) (s : State) (h : windowsOk s) :
    windowsOk (heldToSpi l s) := by
  unfold heldToSpi
  extract_lets y0
  clear_value y0
  refine Inv.ite (Q := windowsOk) ?_ ?_
  · exact h
  · refine irqSet_win _ _ ?_
    refine windowsOk.upd (fun _ => ⟨rfl, rfl, rfl, rfl⟩) ?_
    exact h

theorem toListen_win (s : State) (h : windowsOk s) :
    windowsOk (toListen s) := by
  unfold toListen
  dsimp only
  exact heldToSpi_win _ _ (windowsOk.zero rfl rfl rfl rfl)

theorem powerDone_win (s : State) (w : Nat) (h : windowsOk s) :
    windowsOk (powerDone s w) := by
  unfold powerDone
  split
  · exact completeOk_win _ _ _ h
  · exact h

theorem powerFail_win (s : State) (h : windowsOk s) :
    windowsOk (powerFail s) := by
  unfold powerFail
  extract_lets y0
  refine Inv.cut (Q := windowsOk) (s := y0) ?_ fun h30 => ?_
  · unfold y0
    exact windowsOk.keep (updPwr_keeps _ _) (by rfl) h
  clear_value y0
  split
  · exact completeErr_win _ _ _ h30
  · exact h30

theorem readyUp_win (s : State) (h : windowsOk s) :
    windowsOk (readyUp s) := by
  unfold readyUp
  extract_lets y0
  clear_value y0
  refine Inv.ite (Q := windowsOk) ?_ ?_
  · exact powerFail_win _ h
  · exact windowsOk.keep (updPwr_keeps _ _) (by rfl) (windowsOk.keep (domains_keeps _ _ _) (by rfl) h)

theorem powerNext_win (s : State) (h : windowsOk s) :
    windowsOk (powerNext s) := by
  unfold powerNext
  extract_lets y0
  refine Inv.cut (Q := windowsOk) (s := y0) ?_ fun h30 => ?_
  · unfold y0
    split
    · exact toListen_win _ h
    · exact toListen_win _ h
    · exact h
  clear_value y0
  split
  · exact powerDone_win _ _ h30
  · exact windowsOk.keep (updPwr_keeps _ _) (by rfl) (powerDone_win _ _ h30)
  · exact windowsOk.keep (listenUp_keeps _) (by rfl) h30
  · exact powerDone_win _ _ h30
  · exact readyUp_win _ h30
  · exact powerDone_win _ _ h30
  · exact windowsOk.keep (updPwr_keeps _ _) (by rfl) h30
  · exact h30

theorem dispatchOff_win (s : State) (h : windowsOk s) :
    windowsOk (dispatchOff s) := by
  unfold dispatchOff
  extract_lets y0 y1 y2 y3
  clear_value y0 y1
  refine Inv.cut (Q := windowsOk) (s := y2) ?_ fun h30 => ?_
  · unfold y2
    exact windowsOk.same (s := s) rfl rfl rfl rfl h
  clear_value y2
  refine Inv.cut (Q := windowsOk) (s := y3) ?_ fun h31 => ?_
  · unfold y3
    refine Inv.foldl (Q := windowsOk) ?_ fun x32 a33 h34 => ?_
    · exact h30
    · exact windowsOk.keep (cellCauses_keeps _ _) (by rfl) h34
  clear_value y3
  refine ledgerWatch_win _ ?_
  refine cleatWatch_win _ ?_
  refine Inv.foldl (Q := windowsOk) ?_ fun x35 a36 h37 => ?_
  · exact h31
  · exact windowsOk.keep (cleatFullGone_keeps _ _) (by rfl) h37

theorem dropPlacement_win (s : State) (h : windowsOk s) :
    windowsOk (dropPlacement s) := by
  unfold dropPlacement
  extract_lets y0 y1 y2
  refine Inv.cut (Q := windowsOk) (s := y1) ?_ fun h30 => ?_
  · unfold y1
    exact windowsOk.same (s := s) rfl rfl rfl rfl h
  clear_value y1
  refine Inv.cut (Q := windowsOk) (s := y2) ?_ fun h31 => ?_
  · unfold y2
    refine Inv.foldl (Q := windowsOk) ?_ fun x32 a33 h34 => ?_
    · exact h30
    · exact windowsOk.keep (updArm_keeps _ _ _) (by rfl) h34
  clear_value y2
  refine ledgerWatch_win _ ?_
  exact windowsOk.keep (tallyFollow_keeps _ _) (by rfl) (windowsOk.keep (tallyStale_keeps _) (by rfl) h31)

theorem endRunOp_win (s : State) (o : LongOp) (h : windowsOk s) :
    windowsOk (endRunOp s o) := by
  unfold endRunOp
  extract_lets y0 y1
  refine Inv.cut (Q := windowsOk) (s := y0) ?_ fun h30 => ?_
  · unfold y0
    refine Inv.ite (Q := windowsOk) ?_ ?_
    · exact dropPlacement_win _ h
    · exact h
  clear_value y0
  refine Inv.cut (Q := windowsOk) (s := y1) ?_ fun h31 => ?_
  · unfold y1
    refine Inv.ite (Q := windowsOk) ?_ ?_
    · exact windowsOk.keep (updLeg_keeps _ _ _) (by rfl) h30
    · exact h30
  clear_value y1
  refine Inv.ite (Q := windowsOk) ?_ ?_
  · exact endScan_win _ _ h31
  · exact completeErr_win _ _ _ h31

theorem endRunOps_win (s : State) (h : windowsOk s) :
    windowsOk (endRunOps s) := by
  unfold endRunOps
  refine Inv.foldl (Q := windowsOk) ?_ fun x0 a1 h2 => ?_
  · exact h
  · exact endRunOp_win _ _ h2

theorem leaveRun_win (s : State) (h : windowsOk s) :
    windowsOk (leaveRun s) := by
  unfold leaveRun
  extract_lets y0 y1 y2 y3 y4 y5 y6 y7 y8 y9 y10
  refine Inv.cut (Q := windowsOk) (s := y0) ?_ fun h30 => ?_
  · unfold y0
    exact endRunOps_win _ h
  clear_value y0
  refine Inv.cut (Q := windowsOk) (s := y2) ?_ fun h31 => ?_
  · unfold y2
    exact windowsOk.same (s := y0) rfl rfl rfl rfl h30
  clear_value y2
  refine Inv.cut (Q := windowsOk) (s := y3) ?_ fun h32 => ?_
  · unfold y3
    refine Inv.foldl (Q := windowsOk) ?_ fun x33 a34 h35 => ?_
    · exact h31
    · exact laneOff_win _ _ h35
  clear_value y3
  refine Inv.cut (Q := windowsOk) (s := y4) ?_ fun h36 => ?_
  · unfold y4
    exact windowsOk.keep (mtAbort_keeps _) (by rfl) (reelStop_win _ _ (reelSync_win _ h32))
  clear_value y4
  refine Inv.cut (Q := windowsOk) (s := y5) ?_ fun h37 => ?_
  · unfold y5
    exact windowsOk.keep (strandsBOff_keeps _) (by rfl) (dispatchOff_win _ h36)
  clear_value y5
  refine Inv.cut (Q := windowsOk) (s := y6) ?_ fun h38 => ?_
  · unfold y6
    refine Inv.foldl (Q := windowsOk) ?_ fun x39 a40 h41 => ?_
    · exact h37
    · exact windowsOk.keep (updArm_keeps _ _ _) (by rfl) h41
  clear_value y6
  refine Inv.cut (Q := windowsOk) (s := y7) ?_ fun h42 => ?_
  · unfold y7
    exact windowsOk.keep (belaySuspend_keeps _) (by rfl) (windowsOk.keep (domains_keeps _ _ _) (by rfl) h38)
  clear_value y7
  refine Inv.cut (Q := windowsOk) (s := y8) ?_ fun h43 => ?_
  · unfold y8
    refine Inv.ite (Q := windowsOk) ?_ ?_
    · exact windowsOk.keep (dupStandby_keeps _) (by rfl) h42
    · exact h42
  clear_value y8
  refine Inv.cut (Q := windowsOk) (s := y10) ?_ fun h44 => ?_
  · unfold y10
    exact windowsOk.same (s := y8) rfl rfl rfl rfl h43
  clear_value y10
  exact windowsOk.keep (updPwr_keeps _ _) (by rfl) h44

/-! ### Machine/Frames.lean -/

theorem residWatch_win (s : State) (c : Nat) (r : Rat) (h : windowsOk s) :
    windowsOk (residWatch s c r).1 := by
  unfold residWatch
  extract_lets y0 y1 y2 y3 y4 y5 y6
  clear_value y0 y1 y2 y3 y4
  refine Inv.cut (Q := windowsOk) (s := y5) ?_ fun h30 => ?_
  · unfold y5
    refine Inv.ite (Q := windowsOk) ?_ ?_
    · exact windowsOk.keep (updArm_keeps _ _ _) (by rfl) (raiseFault_win _ _ _ h)
    · exact h
  clear_value y5
  refine Inv.cut (Q := windowsOk) (s := y6) ?_ fun h31 => ?_
  · unfold y6
    refine Inv.ite (Q := windowsOk) ?_ ?_
    · exact windowsOk.keep (updArm_keeps _ _ _) (by rfl) h30
    · exact h30
  clear_value y6
  dsimp only
  exact h31

theorem takeMsg_win (s : State) (l : Nat) (k : Nat) (f : UpFrame) (h : windowsOk s) :
    windowsOk (takeMsg s l k f) := by
  unfold takeMsg
  split
  · exact h
  · refine Inv.ite (Q := windowsOk) ?_ ?_
    · exact txnMissing_win _ _ _ h
    · refine Inv.ite (Q := windowsOk) ?_ ?_
      · exact windowsOk.keep (txnOk_keeps _ _ _ _) (by rfl) (windowsOk.keep (txnDrop_keeps _ _ _) (by rfl) h)
      · refine Inv.ite (Q := windowsOk) ?_ ?_
        · exact txnLost_win _ _ _ h
        · exact txnMissing_win _ _ _ h

theorem takeVoltage_win (s : State) (c : Nat) (k : Nat) (r : BitVec 48) (h : windowsOk s) :
    windowsOk (takeVoltage s c k r).1 := by
  unfold takeVoltage
  extract_lets y0 y1 y2 y3
  clear_value y0 y1
  refine Inv.cut (Q := windowsOk) (s := y2.1) ?_ fun h30 => ?_
  · unfold y2
    split
    · split
      · exact residWatch_win _ _ _ h
      · dsimp only
        exact h
    · dsimp only
      exact h
  clear_value y2
  refine Inv.cut (Q := windowsOk) (s := y3) ?_ fun h31 => ?_
  · unfold y3
    exact windowsOk.keep (updCell_keeps _ _ _) (by rfl) h30
  clear_value y3
  dsimp only
  exact windowsOk.keep (mtReport_keeps _ _ _ _) (by rfl) h31

theorem takeClosed_win (s : State) (c : Nat) (h : windowsOk s) :
    windowsOk (takeClosed s c) := by
  unfold takeClosed
  extract_lets y0
  clear_value y0
  split
  · refine Inv.ite (Q := windowsOk) ?_ ?_
    · exact retireDone_win _ _ _ h
    · exact h
  · refine Inv.ite (Q := windowsOk) ?_ ?_
    · exact retireDone_win _ _ _ h
    · exact h
  · exact h

theorem takeHold_win (s : State) (l : Nat) (k : Nat) (hold : Nat) (h : windowsOk s) :
    windowsOk (takeHold s l k hold) := by
  unfold takeHold
  extract_lets y0 y1
  clear_value y0 y1
  exact causeSet_win _ _ _ _ (windowsOk.keep (addP_keeps _ _ _ _) (by rfl) h)

theorem silenceAt_win (s : State) (m : Nat) (c : Nat) (h : windowsOk s) :
    windowsOk (silenceAt s m c) := by
  unfold silenceAt
  extract_lets y0
  clear_value y0
  refine Inv.ite (Q := windowsOk) ?_ ?_
  · refine Inv.ite (Q := windowsOk) ?_ ?_
    · exact windowsOk.keep (silenceFail_keeps _ _ _) (by rfl) h
    · exact suspectCell_win _ _ _ (windowsOk.keep (updCell_keeps _ _ _) (by rfl) h)
  · exact h

theorem startClosed_win (s : State) (c : Nat) (h : windowsOk s) :
    windowsOk (startClosed s c) := by
  unfold startClosed
  refine Inv.ite (Q := windowsOk) ?_ ?_
  · exact faultUse_win _ _ (windowsOk.keep (startRetire_keeps _ _ _) (by rfl) h)
  · exact h

theorem takeRot_win (s : State) (c : Nat) (k : Nat) (d : Nat) (r : BitVec 48) (last : Nat) (h : windowsOk s) :
    windowsOk (takeRot s c k d r last) := by
  unfold takeRot
  extract_lets y0 y1 y2 y3 y4 y5 y6 y7
  clear_value y0 y1 y2 y3 y5
  refine Inv.cut (Q := windowsOk) (s := y4) ?_ fun h30 => ?_
  · unfold y4
    exact windowsOk.keep (updCell_keeps _ _ _) (by rfl) h
  clear_value y4
  refine Inv.cut (Q := windowsOk) (s := y6) ?_ fun h31 => ?_
  · unfold y6
    exact windowsOk.keep (updCell_keeps _ _ _) (by rfl) h
  clear_value y6
  refine Inv.cut (Q := windowsOk) (s := y7) ?_ fun h32 => ?_
  · unfold y7
    exact windowsOk.keep (updCell_keeps _ _ _) (by rfl) (raiseFault_win _ _ _ h31)
  clear_value y7
  refine Inv.ite (Q := windowsOk) ?_ ?_
  · exact windowsOk.keep (updCell_keeps _ _ _) (by rfl) h
  · refine Inv.ite (Q := windowsOk) ?_ ?_
    · refine Inv.ite (Q := windowsOk) ?_ ?_
      · refine Inv.ite (Q := windowsOk) ?_ ?_
        · exact windowsOk.keep (setDigest_keeps _ _ _) (by rfl) h30
        · exact h30
      · exact windowsOk.keep (updCell_keeps _ _ _) (by rfl) h
    · refine Inv.ite (Q := windowsOk) ?_ ?_
      · refine Inv.ite (Q := windowsOk) ?_ ?_
        · exact windowsOk.keep (startRetire_keeps _ _ _) (by rfl) (faultUse_win _ _ h32)
        · exact h31
      · exact h

theorem execCellSilenceSuspect_win (cell : Fin 3072) (s : State) (h : windowsOk s) :
    OutInv windowsOk (execCellSilenceSuspect cell s) := by
  unfold execCellSilenceSuspect
  refine OutInv.clocked ?_ ?_
  · exact h
  · refine OutInv.ends reelObserve_win ?_
    refine Inv.ite (Q := windowsOk) ?_ ?_
    · exact silenceAt_win _ _ _ h
    · refine Inv.atMark (Q := windowsOk) advanceTo_win ?_ fun x0 h1 => ?_
      · exact h
      · exact silenceAt_win _ _ _ h1

theorem takeReport_win (s : State) (c : Nat) (k : Nat) (d : Nat) (r : BitVec 48) (h : windowsOk s) :
    windowsOk (takeReport s c k d r) := by
  unfold takeReport
  extract_lets y0 y1 y2 y3 y4 y5 y6 y7
  clear_value y0 y5
  refine Inv.cut (Q := windowsOk) (s := y1) ?_ fun h30 => ?_
  · unfold y1
    exact windowsOk.keep (updCell_keeps _ _ _) (by rfl) h
  clear_value y1
  refine Inv.cut (Q := windowsOk) (s := y2) ?_ fun h31 => ?_
  · unfold y2
    refine Inv.ite (Q := windowsOk) ?_ ?_
    · exact startClosed_win _ _ h30
    · exact h30
  clear_value y2
  refine Inv.cut (Q := windowsOk) (s := y3.1) ?_ fun h32 => ?_
  · unfold y3
    exact takeVoltage_win _ _ _ _ h31
  clear_value y3
  refine Inv.cut (Q := windowsOk) (s := y4) ?_ fun h33 => ?_
  · unfold y4
    exact windowsOk.keep (takeApplied_keeps _ _ _ _ _) (by rfl) h32
  clear_value y4
  refine Inv.cut (Q := windowsOk) (s := y6) ?_ fun h34 => ?_
  · unfold y6
    refine Inv.ite (Q := windowsOk) ?_ ?_
    · exact h33
    · refine faultUse_win _ _ ?_
      refine Inv.foldl (Q := windowsOk) ?_ fun x35 a36 h37 => ?_
      · exact h33
      · exact raiseFault_win _ _ _ h37
  clear_value y6
  refine Inv.cut (Q := windowsOk) (s := y7) ?_ fun h38 => ?_
  · unfold y7
    refine Inv.ite (Q := windowsOk) ?_ ?_
    · exact takeClosed_win _ _ h34
    · exact h34
  clear_value y7
  refine Inv.ite (Q := windowsOk) ?_ ?_
  · exact h
  · refine Inv.ite (Q := windowsOk) ?_ ?_
    · exact h30
    · exact takeRot_win _ _ _ _ _ _ h38

theorem usAccept_win (s : State) (l : Nat) (f : UpFrame) (h : windowsOk s) :
    windowsOk (usAccept s l f) := by
  unfold usAccept
  extract_lets y0 y1 y2 y3 y4 y5
  clear_value y0 y1 y2
  refine Inv.cut (Q := windowsOk) (s := y3) ?_ fun h30 => ?_
  · unfold y3
    exact windowsOk.keep (takePort_keeps _ _ _ _ _) (by rfl) (takeHold_win _ _ _ _ h)
  clear_value y3
  refine Inv.cut (Q := windowsOk) (s := y4) ?_ fun h31 => ?_
  · unfold y4
    refine Inv.foldl (Q := windowsOk) ?_ fun x32 a33 h34 => ?_
    · exact h30
    · exact takeReport_win _ _ _ _ _ h34
  clear_value y4
  refine Inv.cut (Q := windowsOk) (s := y5) ?_ fun h35 => ?_
  · unfold y5
    exact takeMsg_win _ _ _ _ h31
  clear_value y5
  exact laneErrors_win _ _ _ (windowsOk.keep (addP_keeps _ _ _ _) (by rfl) h35)

theorem usLost_win (s : State) (l : Nat) (h : windowsOk s) :
    windowsOk (usLost s l) := by
  unfold usLost
  extract_lets y0 y1 y2
  clear_value y0
  refine Inv.cut (Q := windowsOk) (s := y1) ?_ fun h30 => ?_
  · unfold y1
    exact windowsOk.keep (incP_keeps _ _ _) (by rfl) h
  clear_value y1
  refine Inv.cut (Q := windowsOk) (s := y2) ?_ fun h31 => ?_
  · unfold y2
    refine Inv.ite (Q := windowsOk) ?_ ?_
    · exact windowsOk.keep (updLane_keeps _ _ _) (by rfl) (frameMissing_win _ _ _ h30)
    · exact h30
  clear_value y2
  exact laneError_win _ _ h31

theorem execUpstreamFrame_win (frame : UpFrame) (s : State) (h : windowsOk s) :
    OutInv windowsOk (execUpstreamFrame frame s) := by
  unfold execUpstreamFrame
  extract_lets y0 y1
  clear_value y0 y1
  refine OutInv.clocked ?_ ?_
  · exact h
  · refine OutInv.ends reelObserve_win ?_
    refine Inv.ite (Q := windowsOk) ?_ ?_
    · exact h
    · refine Inv.ite (Q := windowsOk) ?_ ?_
      · exact h
      · refine Inv.ite (Q := windowsOk) ?_ ?_
        · exact usAccept_win _ _ _ h
        · exact usLost_win _ _ h

theorem usDeadline_win (s : State) (l : Nat) (h : windowsOk s) :
    windowsOk (usDeadline s l) := by
  unfold usDeadline
  extract_lets y0 y1
  clear_value y0 y1
  refine Inv.ite (Q := windowsOk) ?_ ?_
  · exact h
  · refine Inv.ite (Q := windowsOk) ?_ ?_
    · exact usLost_win _ _ (windowsOk.keep (advanceTo_keeps _ _) (by rfl) h)
    · exact usLost_win _ _ h

theorem execUpstreamFrameDeadline_win (lane : Fin 64) (s : State) (h : windowsOk s) :
    OutInv windowsOk (execUpstreamFrameDeadline lane s) := by
  unfold execUpstreamFrameDeadline
  refine OutInv.clocked ?_ ?_
  · exact h
  · exact OutInv.ends reelObserve_win (usDeadline_win _ _ h)

theorem periodEnd_win (s : State) (h : windowsOk s) :
    windowsOk (periodEnd s) := by
  unfold periodEnd
  extract_lets y0 y1
  refine Inv.cut (Q := windowsOk) (s := y0) ?_ fun h30 => ?_
  · unfold y0
    refine Inv.foldl (Q := windowsOk) ?_ fun x31 a32 h33 => ?_
    · refine Inv.foldl (Q := windowsOk) ?_ fun x34 a35 h36 => ?_
      · exact h
      · exact usDeadline_win _ _ h36
    · exact usDeadline_win _ _ h33
  clear_value y0
  refine Inv.cut (Q := windowsOk) (s := y1) ?_ fun h37 => ?_
  · unfold y1
    exact windowsOk.keep (advanceTo_keeps _ _) (by rfl) h30
  clear_value y1
  refine Inv.foldl (Q := windowsOk) ?_ fun x38 a39 h40 => ?_
  · exact h37
  · exact silenceAt_win _ _ _ h40

/-! ### Machine/Meas.lean -/

theorem adcCalBody_win (op : Nat) (full : Bool) (c : Cmd) (s : State) (h : windowsOk s) :
    ResInv windowsOk (adcCalBody op full c s) := by
  exact windowsOk.res (adcCalBody_keeps _ _ _ _) (by rfl) h

theorem adcInjectBody_win (c : Cmd) (s : State) (h : windowsOk s) :
    ResInv windowsOk (adcInjectBody c s) := by
  exact windowsOk.res (adcInjectBody_keeps _ _) (by rfl) h

theorem decSyncBody_win (a : Cmd) (s : State) (h : windowsOk s) :
    ResInv windowsOk (decSyncBody a s) := by
  exact windowsOk.res (decSyncBody_keeps _ _) (by rfl) h

theorem injReply_win (c : Option Cmd) (lost : Bool) (s : State) (h : windowsOk s) :
    windowsOk (injReply c lost s) := by
  unfold injReply
  split
  · exact answer_win _ _ _ _ _ _ h
  · exact h

theorem calEnd_win (s : State) (a : Nat) (op : Nat) (flag : Nat) (id : Nat) (m : Int) (x : Int) (bad : Option Int) (h
      : windowsOk s) :
    windowsOk (calEnd s a op flag id m x bad) := by
  unfold calEnd
  extract_lets y0 y1 y2
  refine Inv.cut (Q := windowsOk) (s := y0) ?_ fun h30 => ?_
  · unfold y0
    exact windowsOk.keep (updAdc_keeps _ _ _) (by rfl) h
  clear_value y0
  refine Inv.cut (Q := windowsOk) (s := y1) ?_ fun h31 => ?_
  · unfold y1
    split
    · exact h30
    · refine windowsOk.keep (tallyTouch_keeps _ _) (by rfl) ?_
      exact windowsOk.keep (orP_keeps _ _ _ _) (by rfl) (windowsOk.keep (putI_keeps _ _ _ _) (by rfl) h30)
  clear_value y1
  refine Inv.cut (Q := windowsOk) (s := y2) ?_ fun h32 => ?_
  · unfold y2
    split
    · exact h31
    · split
      · exact completeErr_win _ _ _ h31
      · exact completeOk_win _ _ _ h31
  clear_value y2
  exact windowsOk.keep (adcKick_keeps _ _) (by rfl) h32

theorem execAdcCalFull_win (c : Cmd) (s : State) (h : windowsOk s) :
    OutInv windowsOk (execAdcCalFull c s) := by
  unfold execAdcCalFull
  refine OutInv.ends reelObserve_win ?_
  refine Inv.runCmd (Q := windowsOk) goodPacket_win answer_win ?_ fun x0 _ h1 => ?_
  · exact h
  · exact adcCalBody_win _ _ _ _ h1

theorem execAdcCalFullDone_win (adc : Fin 2) (s : State) (h : windowsOk s) :
    OutInv windowsOk (execAdcCalFullDone adc s) := by
  unfold execAdcCalFullDone
  extract_lets y0 y1
  clear_value y0 y1
  refine OutInv.clocked ?_ ?_
  · exact h
  · split
    · exact OutInv.ends reelObserve_win h
    · extract_lets y90 y91
      clear_value y90 y91
      exact OutInv.ends reelObserve_win (calEnd_win _ _ _ _ _ _ _ _ h)

theorem execAdcCalZero_win (c : Cmd) (s : State) (h : windowsOk s) :
    OutInv windowsOk (execAdcCalZero c s) := by
  unfold execAdcCalZero
  refine OutInv.ends reelObserve_win ?_
  refine Inv.runCmd (Q := windowsOk) goodPacket_win answer_win ?_ fun x0 _ h1 => ?_
  · exact h
  · exact adcCalBody_win _ _ _ _ h1

theorem execAdcCalZeroDone_win (adc : Fin 2) (s : State) (h : windowsOk s) :
    OutInv windowsOk (execAdcCalZeroDone adc s) := by
  unfold execAdcCalZeroDone
  extract_lets y0
  clear_value y0
  refine OutInv.clocked ?_ ?_
  · exact h
  · split
    · exact OutInv.ends reelObserve_win h
    · extract_lets y90
      clear_value y90
      exact OutInv.ends reelObserve_win (calEnd_win _ _ _ _ _ _ _ _ h)

theorem execAdcInject_win (c : Cmd) (s : State) (h : windowsOk s) :
    OutInv windowsOk (execAdcInject c s) := by
  unfold execAdcInject
  refine OutInv.ends reelObserve_win ?_
  refine Inv.runCmd (Q := windowsOk) goodPacket_win answer_win ?_ fun x0 _ h1 => ?_
  · exact h
  · exact adcInjectBody_win _ _ h1

theorem execDecSync_win (c : Cmd) (s : State) (h : windowsOk s) :
    OutInv windowsOk (execDecSync c s) := by
  unfold execDecSync
  refine OutInv.ends reelObserve_win ?_
  refine Inv.runCmd (Q := windowsOk) goodPacket_win answer_win ?_ fun x0 _ h1 => ?_
  · exact h
  · exact decSyncBody_win _ _ h1

theorem execDsyncFall_win (s : State) (h : windowsOk s) :
    OutInv windowsOk (execDsyncFall s) := by
  unfold execDsyncFall
  extract_lets y0
  clear_value y0
  refine OutInv.clocked ?_ ?_
  · exact h
  · refine OutInv.ite ?_ ?_
    · refine OutInv.ends reelObserve_win ?_
      exact windowsOk.keep (incP_keeps _ _ _) (by rfl) (windowsOk.keep (decSyncAt_keeps _ _) (by rfl) h)
    · exact OutInv.ends reelObserve_win h

theorem deliver_win (s : State) (r : Result) (h : windowsOk s) :
    windowsOk (deliver s r) := by
  unfold deliver
  extract_lets y0 y1
  refine Inv.cut (Q := windowsOk) (s := y0) ?_ fun h30 => ?_
  · unfold y0
    refine Inv.ite (Q := windowsOk) ?_ ?_
    · exact windowsOk.keep (putN_keeps _ _ _ _) (by rfl) h
    · exact h
  clear_value y0
  refine Inv.cut (Q := windowsOk) (s := y1) ?_ fun h31 => ?_
  · unfold y1
    refine Inv.ite (Q := windowsOk) ?_ ?_
    · exact windowsOk.keep (queueResult_keeps _ _ _) (by rfl) h30
    · exact h30
  clear_value y1
  exact reelResult_win _ _ _ _ h31

theorem decMark_win (s : State) (h : windowsOk s) :
    windowsOk (decMark s) := by
  unfold decMark
  extract_lets y0
  refine Inv.cut (Q := windowsOk) (s := y0) ?_ fun h30 => ?_
  · unfold y0
    refine Inv.foldl (Q := windowsOk) ?_ fun x61 a62 h63 => ?_
    · exact h
    · extract_lets y64 y65 y66 y67
      clear_value y64 y65 y66
      refine Inv.cut (Q := windowsOk) (s := y67) ?_ fun h94 => ?_
      · unfold y67
        exact windowsOk.keep (updDec_keeps _ _ _) (by rfl) h63
      clear_value y67
      refine Inv.ite (Q := windowsOk) ?_ ?_
      · refine Inv.ite (Q := windowsOk) ?_ ?_
        · exact windowsOk.keep (causeGone_keeps _ _ _) (by rfl) h94
        · exact raiseFault_win _ _ _ h94
      · exact h63
  clear_value y0
  refine Inv.ite (Q := windowsOk) ?_ ?_
  · refine windowsOk.keep (incP_keeps _ _ _) (by rfl) ?_
    exact windowsOk.keep (decSyncAt_keeps _ _) (by rfl) (windowsOk.keep (updMeas_keeps _ _) (by rfl) h30)
  · exact h30

theorem decOutput_win (s : State) (n : Nat) (y : Int) (sat : Nat) (h : windowsOk s) :
    windowsOk (decOutput s n y sat) := by
  unfold decOutput
  extract_lets y0 y1 y2 y3 y4 y5 y6 y7 y8 y9
  clear_value y0 y1 y2 y3 y4 y5 y6 y7
  refine Inv.cut (Q := windowsOk) (s := y8) ?_ fun h30 => ?_
  · unfold y8
    exact windowsOk.keep (updDec_keeps _ _ _) (by rfl) h
  clear_value y8
  refine Inv.cut (Q := windowsOk) (s := y9) ?_ fun h31 => ?_
  · unfold y9
    exact windowsOk.keep (addP_keeps _ _ _ _) (by rfl) h30
  clear_value y9
  exact deliver_win _ _ h31

theorem execPathTestDone_win (s : State) (h : windowsOk s) :
    OutInv windowsOk (execPathTestDone s) := by
  unfold execPathTestDone
  extract_lets y0
  refine Inv.cut (Q := windowsOk) (s := y0) ?_ fun h30 => ?_
  · unfold y0
    exact windowsOk.keep (updMeas_keeps _ _) (by rfl) h
  clear_value y0
  refine OutInv.clocked ?_ ?_
  · exact h
  · split
    · extract_lets y91 y92 y93
      clear_value y91 y92
      refine Inv.cut (Q := windowsOk) (s := y93) ?_ fun h121 => ?_
      · unfold y93
        exact windowsOk.keep (putN_keeps _ _ _ _) (by rfl) h30
      clear_value y93
      refine OutInv.ite ?_ ?_
      · refine OutInv.ends reelObserve_win ?_
        refine Inv.ite (Q := windowsOk) ?_ ?_
        · exact windowsOk.keep (causeGone_keeps _ _ _) (by rfl) h121
        · exact raiseFault_win _ _ _ h121
      · exact OutInv.ends reelObserve_win h
    · exact OutInv.ends reelObserve_win h

theorem plausCompare_win (s : State) (p : Nat) (k : Nat) (d : Int) (h : windowsOk s) :
    windowsOk (plausCompare s p k d) := by
  unfold plausCompare
  extract_lets y0 y1 y2 y3
  clear_value y1 y2
  refine Inv.cut (Q := windowsOk) (s := y0) ?_ fun h30 => ?_
  · unfold y0
    exact windowsOk.keep (putI_keeps _ _ _ _) (by rfl) h
  clear_value y0
  refine Inv.cut (Q := windowsOk) (s := y3) ?_ fun h31 => ?_
  · unfold y3
    exact windowsOk.keep (updMeas_keeps _ _) (by rfl) h30
  clear_value y3
  refine Inv.ite (Q := windowsOk) ?_ ?_
  · exact windowsOk.keep (causeGone_keeps _ _ _) (by rfl) h31
  · refine Inv.ite (Q := windowsOk) ?_ ?_
    · exact raiseFault_win _ _ _ h31
    · exact h31

theorem plausResult_win (s : State) (a : Nat) (ch : Nat) (k : Nat) (code : Nat) (h : windowsOk s) :
    windowsOk (plausResult s a ch k code) := by
  unfold plausResult
  extract_lets y0 y1 y2
  clear_value y1 y2
  refine Inv.cut (Q := windowsOk) (s := y0) ?_ fun h30 => ?_
  · unfold y0
    exact windowsOk.keep (updAdc_keeps _ _ _) (by rfl) h
  clear_value y0
  refine Inv.ite (Q := windowsOk) ?_ ?_
  · exact h30
  · refine Inv.foldl (Q := windowsOk) ?_ fun x31 a32 h33 => ?_
    · exact h30
    · refine Inv.ite (Q := windowsOk) ?_ ?_
      · exact plausCompare_win _ _ _ _ h33
      · exact h33

theorem regTrigger_win (s : State) (a : Nat) (mark : Option Nat) (h : windowsOk s) :
    windowsOk (regTrigger s a mark) := by
  unfold regTrigger
  extract_lets y0 y1 y2
  clear_value y1 y2
  refine Inv.cut (Q := windowsOk) (s := y0) ?_ fun h30 => ?_
  · unfold y0
    exact windowsOk.keep (pathWake_keeps _ _) (by rfl) h
  clear_value y0
  refine Inv.ite (Q := windowsOk) ?_ ?_
  · exact h30
  · refine Inv.ite (Q := windowsOk) ?_ ?_
    · exact windowsOk.keep (incP_keeps _ _ _) (by rfl) h30
    · refine Inv.ite (Q := windowsOk) ?_ ?_
      · refine raiseFault_win _ _ _ ?_
        exact windowsOk.keep (incP_keeps _ _ _) (by rfl) (windowsOk.keep (updAdc_keeps _ _ _) (by rfl) h30)
      · exact windowsOk.keep (adcKick_keeps _ _) (by rfl) (windowsOk.keep (updAdc_keeps _ _ _) (by rfl) h30)

theorem stuckCheck_win (s : State) (n : Nat) (run : Nat) (h : windowsOk s) :
    windowsOk (stuckCheck s n run) := by
  unfold stuckCheck
  extract_lets y0
  clear_value y0
  refine Inv.ite (Q := windowsOk) ?_ ?_
  · exact raiseFault_win _ _ _ (windowsOk.keep (updDec_keeps _ _ _) (by rfl) h)
  · exact h

theorem adcResult_win (s : State) (a : Nat) (ch : Nat) (raw : Nat) (count : Nat) (mark : Option Nat) (inj : Bool)
      (delayed : Bool) (h : windowsOk s) :
    windowsOk (adcResult s a ch raw count mark inj delayed) := by
  unfold adcResult
  extract_lets y0 y1 y2 y3
  clear_value y0 y1 y2
  refine Inv.cut (Q := windowsOk) (s := y3) ?_ fun h30 => ?_
  · unfold y3
    exact deliver_win _ _ h
  clear_value y3
  split
  · refine Inv.ite (Q := windowsOk) ?_ ?_
    · exact h30
    · exact plausResult_win _ _ _ _ _ h30
  · exact h30

theorem decBit_win (s : State) (n : Nat) (b : Bool) (h : windowsOk s) :
    windowsOk (decBit s n b) := by
  unfold decBit
  extract_lets y0 y1 y2 y3 y4 y5 y6
  clear_value y0 y1 y4 y5
  refine Inv.cut (Q := windowsOk) (s := y2) ?_ fun h30 => ?_
  · unfold y2
    exact windowsOk.keep (updDec_keeps _ _ _) (by rfl) h
  clear_value y2
  refine Inv.cut (Q := windowsOk) (s := y3) ?_ fun h31 => ?_
  · unfold y3
    refine Inv.ite (Q := windowsOk) ?_ ?_
    · exact windowsOk.keep (causeGone_keeps _ _ _) (by rfl) (windowsOk.keep (updDec_keeps _ _ _) (by rfl) h30)
    · exact h30
  clear_value y3
  refine Inv.cut (Q := windowsOk) (s := y6) ?_ fun h32 => ?_
  · unfold y6
    exact windowsOk.keep (updDec_keeps _ _ _) (by rfl) h31
  clear_value y6
  split
  · exact decOutput_win _ _ _ _ h32
  · refine windowsOk.keep (addP_keeps _ _ _ _) (by rfl) ?_
    refine Inv.ite (Q := windowsOk) ?_ ?_
    · exact h32
    · exact windowsOk.keep (updDec_keeps _ _ _) (by rfl) h32

theorem execAdcSequenceTrigger_win (adc : Fin 2) (seq : Fin 9) (s : State) (h : windowsOk s) :
    OutInv windowsOk (execAdcSequenceTrigger adc seq s) := by
  unfold execAdcSequenceTrigger
  extract_lets y0
  clear_value y0
  refine OutInv.clocked ?_ ?_
  · exact h
  · split
    · exact OutInv.ends reelObserve_win h
    · extract_lets y90 y91
      refine Inv.cut (Q := windowsOk) (s := y90) ?_ fun h120 => ?_
      · unfold y90
        exact windowsOk.keep (advanceTo_keeps _ _) (by rfl) h
      clear_value y90
      refine Inv.cut (Q := windowsOk) (s := y91) ?_ fun h121 => ?_
      · unfold y91
        exact windowsOk.keep (updAdc_keeps _ _ _) (by rfl) h120
      clear_value y91
      refine OutInv.ends reelObserve_win ?_
      refine Inv.ite (Q := windowsOk) ?_ ?_
      · exact injReply_win _ _ _ (windowsOk.keep (injTrigger_keeps _ _ _ _ _) (by rfl) h121)
      · exact regTrigger_win _ _ _ h121

theorem execDecSlot_win (channel : Fin 16) (bits : List Bool) (s : State) (h : windowsOk s) :
    OutInv windowsOk (execDecSlot channel bits s) := by
  unfold execDecSlot
  extract_lets y0 y1 y2
  clear_value y0 y1
  refine Inv.cut (Q := windowsOk) (s := y2) ?_ fun h30 => ?_
  · unfold y2
    exact windowsOk.keep (advanceTo_keeps _ _) (by rfl) h
  clear_value y2
  refine OutInv.clocked ?_ ?_
  · exact h
  · refine OutInv.ite ?_ ?_
    · refine OutInv.ends reelObserve_win ?_
      refine Inv.foldl (Q := windowsOk) ?_ fun x151 a152 h153 => ?_
      · exact h30
      · extract_lets y154
        refine Inv.cut (Q := windowsOk) (s := y154) ?_ fun h184 => ?_
        · unfold y154
          exact decBit_win _ _ _ h153
        clear_value y154
        exact stuckCheck_win _ _ _ h184
    · exact OutInv.ends reelObserve_win h

theorem execDecStuck_win (channel : Fin 16) (s : State) (h : windowsOk s) :
    OutInv windowsOk (execDecStuck channel s) := by
  unfold execDecStuck
  extract_lets y0
  clear_value y0
  refine OutInv.clocked ?_ ?_
  · exact h
  · refine OutInv.ends reelObserve_win ?_
    refine Inv.ite (Q := windowsOk) ?_ ?_
    · exact stuckCheck_win _ _ _ h
    · exact h

theorem injConverted_win (s : State) (a : Nat) (q : Nat) (ch : Nat) (raw : Nat) (h : windowsOk s) :
    windowsOk (injConverted s a q ch raw) := by
  unfold injConverted
  extract_lets y0 y1 y2 y3
  clear_value y0 y3
  refine Inv.cut (Q := windowsOk) (s := y1) ?_ fun h30 => ?_
  · unfold y1
    exact adcResult_win _ _ _ _ _ _ _ _ h
  clear_value y1
  refine Inv.cut (Q := windowsOk) (s := y2) ?_ fun h31 => ?_
  · unfold y2
    exact windowsOk.keep (updAdc_keeps _ _ _) (by rfl) h30
  clear_value y2
  refine Inv.ite (Q := windowsOk) ?_ ?_
  · exact windowsOk.keep (updInj_keeps _ _ _ _) (by rfl) h30
  · split
    · exact windowsOk.keep (updInj_keeps _ _ _ _) (by rfl) h31
    · exact windowsOk.keep (updInj_keeps _ _ _ _) (by rfl) h31

theorem regConverted_win (s : State) (a : Nat) (ch : Nat) (raw : Nat) (h : windowsOk s) :
    windowsOk (regConverted s a ch raw) := by
  unfold regConverted
  extract_lets y0 y1 y2
  clear_value y0
  refine Inv.cut (Q := windowsOk) (s := y1) ?_ fun h30 => ?_
  · unfold y1
    exact adcResult_win _ _ _ _ _ _ _ _ h
  clear_value y1
  refine Inv.cut (Q := windowsOk) (s := y2) ?_ fun h31 => ?_
  · unfold y2
    exact windowsOk.keep (updAdc_keeps _ _ _) (by rfl) h30
  clear_value y2
  refine Inv.ite (Q := windowsOk) ?_ ?_
  · exact h30
  · refine Inv.ite (Q := windowsOk) ?_ ?_
    · exact windowsOk.keep (updAdc_keeps _ _ _) (by rfl) h30
    · refine Inv.ite (Q := windowsOk) ?_ ?_
      · exact windowsOk.keep (causeGone_keeps _ _ _) (by rfl) h31
      · exact h31

theorem execAdcConversionEnd_win (adc : Fin 2) (raw : BitVec 16) (s : State) (h : windowsOk s) :
    OutInv windowsOk (execAdcConversionEnd adc raw s) := by
  unfold execAdcConversionEnd
  extract_lets y0 y1 y2
  clear_value y0 y1
  refine Inv.cut (Q := windowsOk) (s := y2) ?_ fun h30 => ?_
  · unfold y2
    exact windowsOk.keep (convWake_keeps _ _) (by rfl) h
  clear_value y2
  refine OutInv.clocked ?_ ?_
  · exact h
  · split
    · exact OutInv.ends reelObserve_win h30
    · extract_lets y91 y92 y93 y94
      refine Inv.cut (Q := windowsOk) (s := y91) ?_ fun h121 => ?_
      · unfold y91
        exact windowsOk.keep (advanceTo_keeps _ _) (by rfl) h30
      clear_value y91
      refine Inv.cut (Q := windowsOk) (s := y92) ?_ fun h122 => ?_
      · unfold y92
        exact windowsOk.keep (updAdc_keeps _ _ _) (by rfl) h121
      clear_value y92
      refine Inv.cut (Q := windowsOk) (s := y93) ?_ fun h123 => ?_
      · unfold y93
        split
        · exact h122
        · refine Inv.ite (Q := windowsOk) ?_ ?_
          · exact fdcResult_win _ _ _ h122
          · exact h122
      clear_value y93
      refine Inv.cut (Q := windowsOk) (s := y94) ?_ fun h124 => ?_
      · unfold y94
        split
        · exact regConverted_win _ _ _ _ h123
        · exact injConverted_win _ _ _ _ _ h123
        · exact windowsOk.keep (updAdc_keeps _ _ _) (by rfl) h123
        · exact windowsOk.keep (pathConverted_keeps _ _) (by rfl) h123
      clear_value y94
      exact OutInv.ends reelObserve_win (windowsOk.keep (adcKick_keeps _ _) (by rfl) h124)

/-! ### Machine/Chopper.lean -/

theorem cmpSelftestBody_win (c : Cmd) (s : State) (h : windowsOk s) :
    ResInv windowsOk (cmpSelftestBody c s) := by
  exact windowsOk.res (cmpSelftestBody_keeps _ _) (by rfl) h

theorem execChopTripReleased_win (leg : Fin 4) (s : State) (h : windowsOk s) :
    OutInv windowsOk (execChopTripReleased leg s) := by
  unfold execChopTripReleased
  extract_lets y0
  clear_value y0
  refine OutInv.clocked ?_ ?_
  · exact h
  · refine OutInv.ends reelObserve_win ?_
    exact windowsOk.keep (causeGone_keeps _ _ _) (by rfl) (windowsOk.keep (updLeg_keeps _ _ _) (by rfl) h)

theorem execCmpSelftest_win (c : Cmd) (s : State) (h : windowsOk s) :
    OutInv windowsOk (execCmpSelftest c s) := by
  unfold execCmpSelftest
  refine OutInv.ends reelObserve_win ?_
  refine Inv.runCmd (Q := windowsOk) goodPacket_win answer_win ?_ fun x0 _ h1 => ?_
  · exact h
  · exact cmpSelftestBody_win _ _ h1

theorem execCmpSelftestDone_win (leg : Fin 4) (steps : BitVec 3) (s : State) (h : windowsOk s) :
    OutInv windowsOk (execCmpSelftestDone leg steps s) := by
  unfold execCmpSelftestDone
  extract_lets y0 y1
  clear_value y0 y1
  refine OutInv.clocked ?_ ?_
  · exact h
  · split
    · exact OutInv.ends reelObserve_win h
    · extract_lets y90 y91
      refine Inv.cut (Q := windowsOk) (s := y90) ?_ fun h120 => ?_
      · unfold y90
        exact windowsOk.keep (advanceTo_keeps _ _) (by rfl) h
      clear_value y90
      refine Inv.cut (Q := windowsOk) (s := y91) ?_ fun h121 => ?_
      · unfold y91
        exact windowsOk.keep (updLeg_keeps _ _ _) (by rfl) h120
      clear_value y91
      exact OutInv.ends reelObserve_win (completeOk_win _ _ _ h121)

theorem execGateSupplyOk_win (leg : Fin 4) (low : Bool) (s : State) (h : windowsOk s) :
    OutInv windowsOk (execGateSupplyOk leg low s) := by
  unfold execGateSupplyOk
  extract_lets y0 y1
  clear_value y0
  refine Inv.cut (Q := windowsOk) (s := y1) ?_ fun h30 => ?_
  · unfold y1
    exact windowsOk.keep (updLeg_keeps _ _ _) (by rfl) h
  clear_value y1
  refine OutInv.clocked ?_ ?_
  · exact h
  · refine OutInv.ends reelObserve_win ?_
    refine Inv.ite (Q := windowsOk) ?_ ?_
    · exact windowsOk.keep (causeGone_keeps _ _ _) (by rfl) h30
    · exact h30

theorem gsAct_win (s : State) (n : Nat) (h : windowsOk s) :
    windowsOk (gsAct s n) := by
  unfold gsAct
  extract_lets y0 y1
  clear_value y0
  refine Inv.cut (Q := windowsOk) (s := y1) ?_ fun h30 => ?_
  · unfold y1
    refine Inv.ite (Q := windowsOk) ?_ ?_
    · exact windowsOk.keep (updLeg_keeps _ _ _) (by rfl) (windowsOk.keep (legOff_keeps _ _) (by rfl) h)
    · exact h
  clear_value y1
  refine Inv.ite (Q := windowsOk) ?_ ?_
  · exact h
  · exact raiseFault_win _ _ _ h30

theorem hystCycle_win (s : State) (n : Nat) (h : windowsOk s) :
    windowsOk (hystCycle s n).1 := by
  unfold hystCycle
  extract_lets y0 y1 y2 y3 y4 y5 y6 y7 y8 y9 y10 y11 y12
  clear_value y0 y1 y3 y4 y5 y6 y7 y9 y10
  refine Inv.cut (Q := windowsOk) (s := y2) ?_ fun h30 => ?_
  · unfold y2
    refine Inv.ite (Q := windowsOk) ?_ ?_
    · exact windowsOk.keep (updLeg_keeps _ _ _) (by rfl) (windowsOk.keep (putI_keeps _ _ _ _) (by rfl) h)
    · exact h
  clear_value y2
  refine Inv.cut (Q := windowsOk) (s := y8) ?_ fun h31 => ?_
  · unfold y8
    refine Inv.ite (Q := windowsOk) ?_ ?_
    · exact windowsOk.keep (putI_keeps _ _ _ _) (by rfl) h30
    · exact h30
  clear_value y8
  refine Inv.cut (Q := windowsOk) (s := y11) ?_ fun h32 => ?_
  · unfold y11
    exact windowsOk.keep (updLeg_keeps _ _ _) (by rfl) h31
  clear_value y11
  refine Inv.cut (Q := windowsOk) (s := y12) ?_ fun h33 => ?_
  · unfold y12
    refine Inv.ite (Q := windowsOk) ?_ ?_
    · exact windowsOk.keep (causeGone_keeps _ _ _) (by rfl) h32
    · refine Inv.ite (Q := windowsOk) ?_ ?_
      · exact raiseFault_win _ _ _ h32
      · exact h32
  clear_value y12
  split
  · dsimp only
    exact h
  · dsimp only
    exact h33

theorem interlock_win (s : State) (n : Nat) (h : windowsOk s) :
    windowsOk (interlock s n) := by
  unfold interlock
  extract_lets y0 y1 y2 y3 y4 y5 y6
  clear_value y0 y1 y2 y3 y4 y5
  refine Inv.cut (Q := windowsOk) (s := y6) ?_ fun h30 => ?_
  · unfold y6
    exact windowsOk.keep (updLeg_keeps _ _ _) (by rfl) (windowsOk.keep (addP_keeps _ _ _ _) (by rfl) h)
  clear_value y6
  refine Inv.ite (Q := windowsOk) ?_ ?_
  · exact raiseFault_win _ _ _ h30
  · exact h

theorem scClose_win (s : State) (h : windowsOk s) :
    windowsOk (scClose s) := by
  unfold scClose
  extract_lets y0 y1
  refine Inv.cut (Q := windowsOk) (s := y1) ?_ fun h30 => ?_
  · unfold y1
    exact windowsOk.same (s := s) rfl rfl rfl rfl h
  clear_value y1
  split
  · exact h
  · extract_lets y61
    refine Inv.cut (Q := windowsOk) (s := y61) ?_ fun h91 => ?_
    · unfold y61
      exact raiseFault_win _ _ _ h30
    clear_value y61
    refine Inv.ite (Q := windowsOk) ?_ ?_
    · refine Inv.ite (Q := windowsOk) ?_ ?_
      · exact h91
      · exact windowsOk.keep (causeGone_keeps _ _ _) (by rfl) h91
    · exact h30

theorem scConfirm_win (s : State) (n : Nat) (h : windowsOk s) :
    windowsOk (scConfirm s n) := by
  unfold scConfirm
  extract_lets y0
  refine Inv.cut (Q := windowsOk) (s := y0) ?_ fun h30 => ?_
  · unfold y0
    refine Inv.ite (Q := windowsOk) ?_ ?_
    · exact scClose_win _ h
    · exact h
  clear_value y0
  split
  · exact windowsOk.keep (scOpen_keeps _ _ _) (by rfl) (windowsOk.keep (legLatch_keeps _ _ _) (by rfl) h30)
  · refine Inv.ite (Q := windowsOk) ?_ ?_
    · exact h30
    · refine raiseFault_win _ _ _ ?_
      refine windowsOk.keep (scOpen_keeps _ _ _) (by rfl) ?_
      exact windowsOk.keep (dclinkLatch_keeps _) (by rfl) (windowsOk.keep (legLatch_keeps _ _ _) (by rfl) h30)

theorem tripAct_win (s : State) (n : Nat) (h : windowsOk s) :
    windowsOk (tripAct s n) := by
  unfold tripAct
  extract_lets y0 y1 y2 y3
  clear_value y0
  refine Inv.cut (Q := windowsOk) (s := y1) ?_ fun h30 => ?_
  · unfold y1
    exact windowsOk.keep (legOff_keeps _ _) (by rfl) h
  clear_value y1
  refine Inv.cut (Q := windowsOk) (s := y2) ?_ fun h31 => ?_
  · unfold y2
    exact windowsOk.keep (updLeg_keeps _ _ _) (by rfl) h30
  clear_value y2
  refine Inv.cut (Q := windowsOk) (s := y3) ?_ fun h32 => ?_
  · unfold y3
    exact windowsOk.keep (incP_keeps _ _ _) (by rfl) (windowsOk.keep (putN_keeps _ _ _ _) (by rfl) h31)
  clear_value y3
  refine Inv.ite (Q := windowsOk) ?_ ?_
  · exact h
  · refine Inv.ite (Q := windowsOk) ?_ ?_
    · exact h30
    · refine Inv.ite (Q := windowsOk) ?_ ?_
      · exact raiseFault_win _ _ _ (windowsOk.keep (legLatch_keeps _ _ _) (by rfl) h32)
      · exact h32

theorem turnOn_win (s : State) (n : Nat) (out : Nat) (f : Leg → Leg) (h : windowsOk s) :
    windowsOk (turnOn s n out f) := by
  unfold turnOn
  extract_lets y0 y1 y2
  clear_value y0 y1
  refine Inv.cut (Q := windowsOk) (s := y2) ?_ fun h30 => ?_
  · unfold y2
    exact interlock_win _ _ (windowsOk.keep (updLeg_keeps _ _ _) (by rfl) h)
  clear_value y2
  exact windowsOk.keep (updLeg_keeps _ _ _) (by rfl) h30

theorem cmpCauses_win (s : State) (h : windowsOk s) :
    windowsOk (cmpCauses s) := by
  unfold cmpCauses
  extract_lets y0
  refine Inv.cut (Q := windowsOk) (s := y0) ?_ fun h30 => ?_
  · unfold y0
    refine Inv.foldl (Q := windowsOk) ?_ fun x31 a32 h33 => ?_
    · exact h
    · refine Inv.ite (Q := windowsOk) ?_ ?_
      · exact h33
      · exact causeSet_win _ _ _ _ h33
  clear_value y0
  refine Inv.ite (Q := windowsOk) ?_ ?_
  · exact h30
  · exact causeSet_win _ _ _ _ h30

theorem cmpLevels_win (s : State) (v : BitVec 4) (h : windowsOk s) :
    windowsOk (cmpLevels s v) := by
  unfold cmpLevels
  refine cmpCauses_win _ ?_
  refine Inv.foldl (Q := windowsOk) ?_ fun x0 a1 h2 => ?_
  · exact h
  · exact windowsOk.keep (updLeg_keeps _ _ _) (by rfl) h2

theorem cycleDuty_win (s : State) (n : Nat) (h : windowsOk s) :
    windowsOk (cycleDuty s n) := by
  unfold cycleDuty
  extract_lets y0 y1 y2 y3 y4 y5
  clear_value y2 y3 y4
  refine Inv.cut (Q := windowsOk) (s := y0.1) ?_ fun h30 => ?_
  · unfold y0
    split
    · exact hystCycle_win _ _ h
    · dsimp only
      exact h
    · dsimp only
      exact h
    · dsimp only
      exact h
  clear_value y0
  refine Inv.cut (Q := windowsOk) (s := y1) ?_ fun h31 => ?_
  · unfold y1
    exact h30
  clear_value y1
  refine Inv.cut (Q := windowsOk) (s := y5) ?_ fun h32 => ?_
  · unfold y5
    exact windowsOk.keep (updLeg_keeps _ _ _) (by rfl) h31
  clear_value y5
  refine Inv.ite (Q := windowsOk) ?_ ?_
  · exact raiseFault_win _ _ _ h32
  · exact windowsOk.keep (causeGone_keeps _ _ _) (by rfl) h32

theorem execChopBlankingEnd_win (leg : Fin 4) (s : State) (h : windowsOk s) :
    OutInv windowsOk (execChopBlankingEnd leg s) := by
  unfold execChopBlankingEnd
  extract_lets y0 y1 y2
  clear_value y0 y1
  refine Inv.cut (Q := windowsOk) (s := y2) ?_ fun h30 => ?_
  · unfold y2
    refine Inv.ite (Q := windowsOk) ?_ ?_
    · exact h
    · exact windowsOk.keep (advanceTo_keeps _ _) (by rfl) h
  clear_value y2
  refine OutInv.clocked ?_ ?_
  · exact h
  · refine OutInv.ends reelObserve_win ?_
    refine Inv.ite (Q := windowsOk) ?_ ?_
    · exact h30
    · exact tripAct_win _ _ h30

theorem execChopScConfirm_win (leg : Fin 4) (held : Nat) (s : State) (h : windowsOk s) :
    OutInv windowsOk (execChopScConfirm leg s held) := by
  unfold execChopScConfirm
  extract_lets y0 y1 y2
  clear_value y0 y1
  refine Inv.cut (Q := windowsOk) (s := y2) ?_ fun h30 => ?_
  · unfold y2
    exact windowsOk.keep (updLeg_keeps _ _ _) (by rfl) h
  clear_value y2
  refine OutInv.clocked ?_ ?_
  · exact h
  · refine OutInv.ite ?_ ?_
    · exact OutInv.ends reelObserve_win h
    · refine OutInv.ends reelObserve_win ?_
      refine Inv.ite (Q := windowsOk) ?_ ?_
      · exact scConfirm_win _ _ h30
      · exact h30

theorem execChopScWindowEnd_win (cmp : BitVec 4) (s : State) (h : windowsOk s) :
    OutInv windowsOk (execChopScWindowEnd s cmp) := by
  unfold execChopScWindowEnd
  refine OutInv.clocked ?_ ?_
  · exact h
  · split
    · exact OutInv.ends reelObserve_win (cmpLevels_win _ _ h)
    · refine OutInv.ends reelObserve_win ?_
      exact cmpLevels_win _ _ (scClose_win _ (windowsOk.keep (advanceTo_keeps _ _) (by rfl) h))

theorem execChopTripRecognised_win (leg : Fin 4) (s : State) (h : windowsOk s) :
    OutInv windowsOk (execChopTripRecognised leg s) := by
  unfold execChopTripRecognised
  extract_lets y0 y1
  clear_value y0
  refine Inv.cut (Q := windowsOk) (s := y1) ?_ fun h30 => ?_
  · unfold y1
    exact windowsOk.keep (updLeg_keeps _ _ _) (by rfl) h
  clear_value y1
  refine OutInv.clocked ?_ ?_
  · exact h
  · refine OutInv.ends reelObserve_win ?_
    refine Inv.ite (Q := windowsOk) ?_ ?_
    · exact h30
    · exact tripAct_win _ _ h30

theorem execGateSupplyNotOk_win (leg : Fin 4) (low : Bool) (s : State) (h : windowsOk s) :
    OutInv windowsOk (execGateSupplyNotOk leg low s) := by
  unfold execGateSupplyNotOk
  extract_lets y0 y1
  clear_value y0
  refine Inv.cut (Q := windowsOk) (s := y1) ?_ fun h30 => ?_
  · unfold y1
    exact windowsOk.keep (updLeg_keeps _ _ _) (by rfl) h
  clear_value y1
  refine OutInv.clocked ?_ ?_
  · exact h
  · refine OutInv.ends reelObserve_win ?_
    refine Inv.ite (Q := windowsOk) ?_ ?_
    · exact gsAct_win _ _ h30
    · exact h30

theorem ghTurnOn_win (s : State) (n : Nat) (h : windowsOk s) :
    windowsOk (ghTurnOn s n) := by
  unfold ghTurnOn
  extract_lets y0
  clear_value y0
  refine Inv.ite (Q := windowsOk) ?_ ?_
  · exact windowsOk.keep (updLeg_keeps _ _ _) (by rfl) h
  · exact turnOn_win _ _ _ _ h

theorem glTurnOn_win (s : State) (n : Nat) (h : windowsOk s) :
    windowsOk (glTurnOn s n) := by
  unfold glTurnOn
  extract_lets y0
  clear_value y0
  refine Inv.ite (Q := windowsOk) ?_ ?_
  · exact h
  · exact turnOn_win _ _ _ _ h

theorem forceOn_win (s : State) (n : Nat) (h : windowsOk s) :
    windowsOk (forceOn s n) := by
  unfold forceOn
  extract_lets y0 y1
  clear_value y0
  refine Inv.cut (Q := windowsOk) (s := y1) ?_ fun h30 => ?_
  · unfold y1
    exact windowsOk.keep (updLeg_keeps _ _ _) (by rfl) h
  clear_value y1
  split
  · exact h
  · refine Inv.ite (Q := windowsOk) ?_ ?_
    · exact h
    · refine Inv.ite (Q := windowsOk) ?_ ?_
      · exact h30
      · refine Inv.ite (Q := windowsOk) ?_ ?_
        · exact ghTurnOn_win _ _ h30
        · exact glTurnOn_win _ _ h30

theorem edgeAct_win (s : State) (n : Nat) (e : Nat) (h : windowsOk s) :
    windowsOk (edgeAct s n e) := by
  unfold edgeAct
  extract_lets y0 y1
  clear_value y0 y1
  refine Inv.ite (Q := windowsOk) ?_ ?_
  · exact h
  · refine Inv.ite (Q := windowsOk) ?_ ?_
    · split
      · refine Inv.ite (Q := windowsOk) ?_ ?_
        · exact forceOn_win _ _ h
        · exact h
      · exact h
    · split
      · exact windowsOk.keep (glTurnOff_keeps _ _) (by rfl) h
      · refine Inv.ite (Q := windowsOk) ?_ ?_
        · exact ghTurnOn_win _ _ h
        · exact h
      · exact windowsOk.keep (ghTurnOff_keeps _ _) (by rfl) h
      · refine Inv.ite (Q := windowsOk) ?_ ?_
        · exact glTurnOn_win _ _ h
        · exact h

theorem execChopGateEdge_win (leg : Fin 4) (edge : Fin 4) (cmp : BitVec 4) (s : State) (h : windowsOk s) :
    OutInv windowsOk (execChopGateEdge leg edge s cmp) := by
  unfold execChopGateEdge
  extract_lets y0
  refine Inv.cut (Q := windowsOk) (s := y0) ?_ fun h30 => ?_
  · unfold y0
    exact windowsOk.keep (advanceTo_keeps _ _) (by rfl) h
  clear_value y0
  refine OutInv.clocked ?_ ?_
  · exact h
  · exact OutInv.ends reelObserve_win (cmpLevels_win _ _ (edgeAct_win _ _ _ h30))

theorem forceApply_win (s : State) (n : Nat) (h : windowsOk s) :
    windowsOk (forceApply s n) := by
  unfold forceApply
  refine Inv.ite (Q := windowsOk) ?_ ?_
  · exact forceOn_win _ _ (windowsOk.keep (updLeg_keeps _ _ _) (by rfl) h)
  · exact windowsOk.keep (updLeg_keeps _ _ _) (by rfl) h

theorem cycleStart_win (s : State) (n : Nat) (h : windowsOk s) :
    windowsOk (cycleStart s n) := by
  unfold cycleStart
  extract_lets y0 y1 y2 y3 y4 y5 y6 y7 y8 y9 y10 y11 y12
  clear_value y1 y4 y6
  refine Inv.cut (Q := windowsOk) (s := y0) ?_ fun h30 => ?_
  · unfold y0
    exact windowsOk.keep (chopCommit_keeps _ _) (by rfl) h
  clear_value y0
  refine Inv.cut (Q := windowsOk) (s := y2) ?_ fun h31 => ?_
  · unfold y2
    refine Inv.ite (Q := windowsOk) ?_ ?_
    · exact h30
    · exact windowsOk.keep (putN_keeps _ _ _ _) (by rfl) h30
  clear_value y2
  refine Inv.cut (Q := windowsOk) (s := y3) ?_ fun h32 => ?_
  · unfold y3
    refine Inv.ite (Q := windowsOk) ?_ ?_
    · exact windowsOk.keep (causeGone_keeps _ _ _) (by rfl) h31
    · exact h31
  clear_value y3
  refine Inv.cut (Q := windowsOk) (s := y5) ?_ fun h33 => ?_
  · unfold y5
    exact windowsOk.keep (updLeg_keeps _ _ _) (by rfl) h32
  clear_value y5
  refine Inv.cut (Q := windowsOk) (s := y7) ?_ fun h34 => ?_
  · unfold y7
    exact windowsOk.keep (updLeg_keeps _ _ _) (by rfl) h33
  clear_value y7
  refine Inv.cut (Q := windowsOk) (s := y8) ?_ fun h35 => ?_
  · unfold y8
    exact cycleDuty_win _ _ h34
  clear_value y8
  refine Inv.cut (Q := windowsOk) (s := y9) ?_ fun h36 => ?_
  · unfold y9
    refine Inv.ite (Q := windowsOk) ?_ ?_
    · exact windowsOk.keep (legOff_keeps _ _) (by rfl) h35
    · exact h35
  clear_value y9
  refine Inv.cut (Q := windowsOk) (s := y10) ?_ fun h37 => ?_
  · unfold y10
    refine Inv.ite (Q := windowsOk) ?_ ?_
    · exact gsAct_win _ _ h36
    · exact h36
  clear_value y10
  refine Inv.cut (Q := windowsOk) (s := y11) ?_ fun h38 => ?_
  · unfold y11
    refine Inv.ite (Q := windowsOk) ?_ ?_
    · exact windowsOk.keep (causeGone_keeps _ _ _) (by rfl) h37
    · exact h37
  clear_value y11
  refine Inv.cut (Q := windowsOk) (s := y12) ?_ fun h39 => ?_
  · unfold y12
    exact forceApply_win _ _ (tripAct_win _ _ h38)
  clear_value y12
  refine Inv.ite (Q := windowsOk) ?_ ?_
  · refine cmpCauses_win _ ?_
    exact windowsOk.keep (updLeg_keeps _ _ _) (by rfl) (windowsOk.keep (undoOn_keeps _ _) (by rfl) h34)
  · exact windowsOk.keep (reelRef_keeps _ _ _) (by rfl) (windowsOk.keep (trigEvent_keeps _ _ _) (by rfl) h39)

theorem execChopCycleStart_win (leg : Fin 4) (cmp : BitVec 4) (s : State) (h : windowsOk s) :
    OutInv windowsOk (execChopCycleStart leg cmp s) := by
  unfold execChopCycleStart
  extract_lets y0 y1 y2 y3
  clear_value y0 y3
  refine Inv.cut (Q := windowsOk) (s := y1) ?_ fun h30 => ?_
  · unfold y1
    exact windowsOk.keep (advanceTo_keeps _ _) (by rfl) h
  clear_value y1
  refine Inv.cut (Q := windowsOk) (s := y2) ?_ fun h31 => ?_
  · unfold y2
    exact cmpLevels_win _ _ (cycleStart_win _ _ h30)
  clear_value y2
  refine OutInv.clocked ?_ ?_
  · exact h
  · refine OutInv.ite ?_ ?_
    · refine OutInv.ends reelObserve_win ?_
      refine Inv.ite (Q := windowsOk) ?_ ?_
      · exact cycleStart_win _ _ h31
      · exact h31
    · exact OutInv.ends reelObserve_win (cmpLevels_win _ _ h30)

/-! ### Machine/PeriodMark.lean -/

theorem handoverLate_win (s : State) (h : windowsOk s) :
    windowsOk (handoverLate s) := by
  unfold handoverLate
  refine Inv.foldl (Q := windowsOk) ?_ fun x0 a1 h2 => ?_
  · exact h
  · split
    · exact completeErr_win _ _ _ h2
    · exact h2

theorem reelMark_win (s : State) (h : windowsOk s) :
    windowsOk (reelMark s) := by
  unfold reelMark
  extract_lets y0 y1
  refine Inv.cut (Q := windowsOk) (s := y0) ?_ fun h30 => ?_
  · unfold y0
    refine Inv.ite (Q := windowsOk) ?_ ?_
    · exact windowsOk.keep (reelForm_keeps _ _) (by rfl) (windowsOk.keep (updReel_keeps _ _) (by rfl) h)
    · exact h
  clear_value y0
  refine Inv.cut (Q := windowsOk) (s := y1) ?_ fun h31 => ?_
  · unfold y1
    refine Inv.ite (Q := windowsOk) ?_ ?_
    · exact windowsOk.keep (updReel_keeps _ _) (by rfl) h30
    · exact h30
  clear_value y1
  refine Inv.ite (Q := windowsOk) ?_ ?_
  · exact h
  · refine Inv.foldl (Q := windowsOk) ?_ fun x92 a93 h94 => ?_
    · exact windowsOk.keep (reelRef_keeps _ _ _) (by rfl) h31
    · extract_lets y95 y96
      clear_value y95 y96
      refine Inv.ite (Q := windowsOk) ?_ ?_
      · exact h94
      · exact reelSample_win _ _ _ _ _ h94

theorem loopMark_win (s : State) (f : Option PeerData) (h : windowsOk s) :
    windowsOk (loopMark s f) := by
  unfold loopMark
  extract_lets y0
  refine Inv.cut (Q := windowsOk) (s := y0) ?_ fun h30 => ?_
  · unfold y0
    refine Inv.foldl (Q := windowsOk) ?_ fun x31 a32 h33 => ?_
    · exact h
    · exact loopBoundary_win _ _ h33
  clear_value y0
  refine runSlots_win _ ?_
  exact windowsOk.keep (applySlots_keeps _ _) (by rfl) (windowsOk.keep (loopModes_keeps _) (by rfl) h30)

theorem resumeLate_win (s : State) (h : windowsOk s) :
    windowsOk (resumeLate s) := by
  unfold resumeLate
  extract_lets y0
  refine Inv.ite (Q := windowsOk) ?_ ?_
  · exact raiseFault_win _ _ _ (windowsOk.keep (updDup_keeps _ _) (by rfl) h)
  · exact h

theorem senseMark_win (s : State) (p0 : List Nat) (p1 : List Nat) (h : windowsOk s) :
    windowsOk (senseMark s p0 p1) := by
  unfold senseMark
  extract_lets y0 y1 y2 y3 y4 y5
  clear_value y0
  refine Inv.cut (Q := windowsOk) (s := y1) ?_ fun h30 => ?_
  · unfold y1
    exact windowsOk.keep (adcMark_keeps _ _) (by rfl) h
  clear_value y1
  refine Inv.cut (Q := windowsOk) (s := y2) ?_ fun h31 => ?_
  · unfold y2
    exact decMark_win _ (windowsOk.keep (plausMark_keeps _ _) (by rfl) h30)
  clear_value y2
  refine Inv.cut (Q := windowsOk) (s := y3) ?_ fun h32 => ?_
  · unfold y3
    exact windowsOk.keep (encMark_keeps _ _) (by rfl) (windowsOk.keep (encMark_keeps _ _) (by rfl) h31)
  clear_value y3
  refine Inv.cut (Q := windowsOk) (s := y4) ?_ fun h33 => ?_
  · unfold y4
    exact windowsOk.keep (trajAdvance_keeps _) (by rfl) (windowsOk.keep (chopMark_keeps _) (by rfl) h32)
  clear_value y4
  refine Inv.cut (Q := windowsOk) (s := y5) ?_ fun h34 => ?_
  · unfold y5
    refine windowsOk.keep (homeSearchDone_keeps _ _) (by rfl) ?_
    exact windowsOk.keep (homeSearchDone_keeps _ _) (by rfl) h33
  clear_value y5
  exact windowsOk.keep (pulseMark_keeps _ _ _) (by rfl) (windowsOk.keep (pulseMark_keeps _ _ _) (by rfl) h34)

theorem windowEnd_win (s : State) (h : windowsOk s) :
    windowsOk (windowEnd s) := by
  unfold windowEnd
  extract_lets y0 y1
  clear_value y0
  refine Inv.cut (Q := windowsOk) (s := y1) ?_ fun h30 => ?_
  · unfold y1
    exact handoverLate_win _ h
  clear_value y1
  refine Inv.ite (Q := windowsOk) ?_ ?_
  · refine Inv.ite (Q := windowsOk) ?_ ?_
    · exact raiseFault_win _ _ _ (windowsOk.keep (updDup_keeps _ _) (by rfl) h30)
    · exact windowsOk.keep (dupStandby_keeps _) (by rfl) h30
  · split
    · refine Inv.ite (Q := windowsOk) ?_ ?_
      · exact handoverLate_win _ (windowsOk.keep (updDup_keeps _ _) (by rfl) h)
      · exact h
    · exact h

theorem dupMarks_win (s : State) (h : windowsOk s) :
    windowsOk (dupMarks s) := by
  unfold dupMarks
  extract_lets y0 y1
  refine Inv.cut (Q := windowsOk) (s := y0) ?_ fun h30 => ?_
  · unfold y0
    exact dupMark_win _ h
  clear_value y0
  refine Inv.cut (Q := windowsOk) (s := y1) ?_ fun h31 => ?_
  · unfold y1
    refine Inv.ite (Q := windowsOk) ?_ ?_
    · exact windowsOk.keep (resumeAt_keeps _ _) (by rfl) h30
    · exact h30
  clear_value y1
  refine Inv.ite (Q := windowsOk) ?_ ?_
  · exact h
  · exact windowEnd_win _ (resumeLate_win _ h31)

theorem setEff_win (s : State) (h : windowsOk s) :
    windowsOk (setEff s) := by
  unfold setEff
  extract_lets y0 y1 y2 y3 y4 y5
  clear_value y0 y1 y2
  refine Inv.cut (Q := windowsOk) (s := y4) ?_ fun h30 => ?_
  · unfold y4
    exact windowsOk.same (s := s) rfl rfl rfl rfl h
  clear_value y4
  refine Inv.cut (Q := windowsOk) (s := y5) ?_ fun h31 => ?_
  · unfold y5
    refine Inv.ite (Q := windowsOk) ?_ ?_
    · exact windowsOk.keep (orP_keeps _ _ _ _) (by rfl) h30
    · exact h30
  clear_value y5
  exact causeSet_win _ _ _ _ h31

theorem latencyChange_win (s : State) (old : Nat) (h : windowsOk s) :
    windowsOk (latencyChange s old) := by
  unfold latencyChange
  refine Inv.ite (Q := windowsOk) ?_ ?_
  · exact h
  · refine Inv.ite (Q := windowsOk) ?_ ?_
    · exact capCompute_win _ _ (windowsOk.keep (armNoRefs_keeps _) (by rfl) h)
    · refine Inv.foldl (Q := windowsOk) ?_ fun x0 a1 h2 => ?_
      · exact h
      · exact windowsOk.keep (updArm_keeps _ _ _) (by rfl) h2

theorem planMark_win (s : State) (per : Nat) (h : windowsOk s) :
    windowsOk (planMark s per) := by
  unfold planMark
  extract_lets y0 y1 y2 y3 y4
  refine Inv.cut (Q := windowsOk) (s := y0) ?_ fun h30 => ?_
  · unfold y0
    refine windowsOk.keep (mtStartMark_keeps _) (by rfl) ?_
    exact windowsOk.keep (mtCharge_keeps _ _) (by rfl) (windowsOk.keep (armSamples_keeps _ _) (by rfl) h)
  clear_value y0
  refine Inv.cut (Q := windowsOk) (s := y1) ?_ fun h31 => ?_
  · unfold y1
    refine Inv.ite (Q := windowsOk) ?_ ?_
    · exact mtEnd_win _ h30
    · exact h30
  clear_value y1
  refine Inv.cut (Q := windowsOk) (s := y2) ?_ fun h32 => ?_
  · unfold y2
    exact windowsOk.keep (tasksRelease_keeps _) (by rfl) h31
  clear_value y2
  refine Inv.cut (Q := windowsOk) (s := y3) ?_ fun h33 => ?_
  · unfold y3
    exact latchMark_win _ h32
  clear_value y3
  refine Inv.cut (Q := windowsOk) (s := y4) ?_ fun h34 => ?_
  · unfold y4
    refine Inv.ite (Q := windowsOk) ?_ ?_
    · exact windowsOk.keep (passStarts_keeps _) (by rfl) (windowsOk.keep (updBelay_keeps _ _) (by rfl) h33)
    · exact h32
  clear_value y4
  exact windowsOk.keep (intakeTasks_keeps _) (by rfl) h34

theorem recompute_win (s : State) (h : windowsOk s) :
    windowsOk (recompute s) := by
  unfold recompute
  refine Inv.foldl (Q := windowsOk) ?_ fun x0 a1 h2 => ?_
  · exact windowsOk.keep (setLatency_keeps _) (by rfl) (setEff_win _ h)
  · exact windowsOk.keep (setDiv_keeps _ _) (by rfl) h2

theorem cleatDue_win (s : State) (h : windowsOk s) :
    windowsOk (cleatDue s) := by
  unfold cleatDue
  refine Inv.ite (Q := windowsOk) ?_ ?_
  · exact freeCleats_win _ _ h
  · exact h

theorem laneEntry_win (s : State) (l : Nat) (h : windowsOk s) :
    windowsOk (laneEntry s l) := by
  unfold laneEntry
  extract_lets y0
  clear_value y0
  refine Inv.ite (Q := windowsOk) ?_ ?_
  · exact h
  · refine Inv.ite (Q := windowsOk) ?_ ?_
    · exact enterActive_win _ _ _ h
    · exact bringupFail_win _ _ _ _ h

theorem laneMarks_win (s : State) (h : windowsOk s) :
    windowsOk (laneMarks s) := by
  unfold laneMarks
  extract_lets y0 y1
  refine Inv.cut (Q := windowsOk) (s := y0) ?_ fun h30 => ?_
  · unfold y0
    refine Inv.foldl (Q := windowsOk) ?_ fun x31 a32 h33 => ?_
    · exact h
    · exact windowsOk.keep (loopFrame_keeps _ _) (by rfl) h33
  clear_value y0
  refine Inv.cut (Q := windowsOk) (s := y1) ?_ fun h34 => ?_
  · unfold y1
    refine Inv.foldl (Q := windowsOk) ?_ fun x35 a36 h37 => ?_
    · exact h30
    · refine Inv.ite (Q := windowsOk) ?_ ?_
      · exact retireLane_win _ _ h37
      · exact h37
  clear_value y1
  refine Inv.foldl (Q := windowsOk) ?_ fun x38 a39 h40 => ?_
  · exact h34
  · exact laneEntry_win _ _ h40

theorem periodBoundary_win (s : State) (h : windowsOk s) :
    windowsOk (periodBoundary s) := by
  unfold periodBoundary
  extract_lets y0 y1
  refine Inv.cut (Q := windowsOk) (s := y0) ?_ fun h30 => ?_
  · unfold y0
    exact windowsOk.keep (applyGroup_keeps _ _ _) (by rfl) h
  clear_value y0
  refine Inv.ite (Q := windowsOk) ?_ ?_
  · refine recompute_win _ ?_
    exact windowsOk.keep (orP_keeps _ _ _ _) (by rfl) (windowsOk.same (s := y0) rfl rfl rfl rfl h30)
  · exact h

theorem epochMark_win (s : State) (h : windowsOk s) :
    windowsOk (epochMark s) := by
  unfold epochMark
  extract_lets y0 y1 y2 y3 y4
  clear_value y0
  refine Inv.cut (Q := windowsOk) (s := y2) ?_ fun h30 => ?_
  · unfold y2
    exact windowsOk.same (s := s) rfl rfl rfl rfl h
  clear_value y2
  refine Inv.cut (Q := windowsOk) (s := y3) ?_ fun h31 => ?_
  · unfold y3
    refine Inv.foldl (Q := windowsOk) ?_ fun x32 a33 h34 => ?_
    · exact h30
    · exact windowsOk.keep (residPublish_keeps _ _) (by rfl) h34
  clear_value y3
  refine Inv.cut (Q := windowsOk) (s := y4) ?_ fun h35 => ?_
  · unfold y4
    split
    · refine Inv.ite (Q := windowsOk) ?_ ?_
      · exact periodBoundary_win _ h31
      · exact h31
    · exact h31
  clear_value y4
  refine Inv.ite (Q := windowsOk) ?_ ?_
  · exact h
  · exact windowsOk.keep (groupAt_keeps _ _ _) (by rfl) h35

theorem markWork_win (s : State) (per : Nat) (p0 : List Nat) (p1 : List Nat) (h : windowsOk s) :
    windowsOk (markWork s per p0 p1) := by
  unfold markWork
  extract_lets y0 y1 y2 y3 y4 y5 y6 y7 y8 y9 y10 y11 y12 y13 y14
  clear_value y0 y3 y12
  refine Inv.cut (Q := windowsOk) (s := y1) ?_ fun h30 => ?_
  · unfold y1
    exact applyData_win _ h
  clear_value y1
  refine Inv.cut (Q := windowsOk) (s := y2) ?_ fun h31 => ?_
  · unfold y2
    exact cleatDue_win _ (windowsOk.keep (tasksLate_keeps _) (by rfl) h30)
  clear_value y2
  refine Inv.cut (Q := windowsOk) (s := y4) ?_ fun h32 => ?_
  · unfold y4
    refine windowsOk.keep (groupAt_keeps _ _ _) (by rfl) ?_
    exact windowsOk.keep (groupAt_keeps _ _ _) (by rfl) (epochMark_win _ h31)
  clear_value y4
  refine Inv.cut (Q := windowsOk) (s := y6) ?_ fun h33 => ?_
  · unfold y6
    exact windowsOk.same (s := y4) rfl rfl rfl rfl h32
  clear_value y6
  refine Inv.cut (Q := windowsOk) (s := y7) ?_ fun h34 => ?_
  · unfold y7
    exact windowsOk.keep (traceEvent_keeps _ _ _ _ _ _ _) (by rfl) h33
  clear_value y7
  refine Inv.cut (Q := windowsOk) (s := y8) ?_ fun h35 => ?_
  · unfold y8
    exact laneMarks_win _ (dupMarks_win _ h34)
  clear_value y8
  refine Inv.cut (Q := windowsOk) (s := y9) ?_ fun h36 => ?_
  · unfold y9
    exact hbCheck_win _ h35
  clear_value y9
  refine Inv.cut (Q := windowsOk) (s := y10) ?_ fun h37 => ?_
  · unfold y10
    exact planMark_win _ _ (senseMark_win _ _ _ h36)
  clear_value y10
  refine Inv.cut (Q := windowsOk) (s := y11) ?_ fun h38 => ?_
  · unfold y11
    exact loopMark_win _ _ (reelMark_win _ h37)
  clear_value y11
  refine Inv.cut (Q := windowsOk) (s := y13) ?_ fun h39 => ?_
  · unfold y13
    exact capCompute_win _ _ (windowsOk.keep (armRefs_keeps _ _) (by rfl) h38)
  clear_value y13
  refine Inv.cut (Q := windowsOk) (s := y14) ?_ fun h40 => ?_
  · unfold y14
    exact icmMark_win _ (windowsOk.keep (sendFrames_keeps _ _ _) (by rfl) h39)
  clear_value y14
  exact windowsOk.keep (dupSend_keeps _) (by rfl) (latencyChange_win _ _ h40)

theorem enterRun_win (s : State) (h : windowsOk s) :
    windowsOk (enterRun s) := by
  unfold enterRun
  extract_lets y0 y1 y2 y3
  refine Inv.cut (Q := windowsOk) (s := y0) ?_ fun h30 => ?_
  · unfold y0
    exact windowsOk.keep (updPwr_keeps _ _) (by rfl) h
  clear_value y0
  refine Inv.cut (Q := windowsOk) (s := y1) ?_ fun h31 => ?_
  · unfold y1
    exact periodBoundary_win _ (windowsOk.keep (runReset_keeps _) (by rfl) h30)
  clear_value y1
  refine Inv.cut (Q := windowsOk) (s := y2) ?_ fun h32 => ?_
  · unfold y2
    exact windowsOk.keep (decSyncAt_keeps _ _) (by rfl) (windowsOk.keep (groupAt_keeps _ _ _) (by rfl) h31)
  clear_value y2
  refine Inv.cut (Q := windowsOk) (s := y3) ?_ fun h33 => ?_
  · unfold y3
    exact markWork_win _ _ _ _ (windowsOk.keep (dupEnter_keeps _) (by rfl) h32)
  clear_value y3
  exact powerNext_win _ h33

theorem nextMark_win (s : State) (p0 : List Nat) (p1 : List Nat) (h : windowsOk s) :
    windowsOk (nextMark s p0 p1) := by
  unfold nextMark
  extract_lets y0 y1
  clear_value y0
  refine Inv.cut (Q := windowsOk) (s := y1) ?_ fun h30 => ?_
  · unfold y1
    exact windowsOk.keep (countMark_keeps _) (by rfl) (periodEnd_win _ h)
  clear_value y1
  refine Inv.ite (Q := windowsOk) ?_ ?_
  · exact powerNext_win _ (leaveRun_win _ h30)
  · exact markWork_win _ _ _ _ h30

theorem execPeriodMark_win (pulse0 : List Nat) (pulse1 : List Nat) (s : State) (h : windowsOk s) :
    OutInv windowsOk (execPeriodMark pulse0 pulse1 s) := by
  unfold execPeriodMark
  refine OutInv.clocked ?_ ?_
  · exact h
  · refine OutInv.ends reelObserve_win ?_
    refine Inv.ite (Q := windowsOk) ?_ ?_
    · exact nextMark_win _ _ _ h
    · exact h

/-! ### Machine/Duplex.lean -/

theorem switchbackBody_win (c : Cmd) (s : State) (h : windowsOk s) :
    ResInv windowsOk (switchbackBody c s) := by
  exact windowsOk.res (switchbackBody_keeps _ _) (by rfl) h

theorem takeoverBody_win (c : Cmd) (s : State) (h : windowsOk s) :
    ResInv windowsOk (takeoverBody c s) := by
  exact windowsOk.res (takeoverBody_keeps _ _) (by rfl) h

theorem execDispatchResume_win (s : State) (h : windowsOk s) :
    OutInv windowsOk (execDispatchResume s) := by
  unfold execDispatchResume
  extract_lets y0 y1
  refine Inv.cut (Q := windowsOk) (s := y1) ?_ fun h30 => ?_
  · unfold y1
    exact windowsOk.same (s := s) rfl rfl rfl rfl h
  clear_value y1
  refine OutInv.clocked ?_ ?_
  · exact h
  · refine OutInv.ite ?_ ?_
    · exact OutInv.ends reelObserve_win (windowsOk.keep (resumeAt_keeps _ _) (by rfl) h)
    · exact OutInv.ends reelObserve_win h

theorem execSwitchback_win (c : Cmd) (s : State) (h : windowsOk s) :
    OutInv windowsOk (execSwitchback c s) := by
  unfold execSwitchback
  refine OutInv.ends reelObserve_win ?_
  refine Inv.runCmd (Q := windowsOk) goodPacket_win answer_win ?_ fun x0 _ h1 => ?_
  · exact h
  · exact switchbackBody_win _ _ h1

theorem execTakeover_win (c : Cmd) (s : State) (h : windowsOk s) :
    OutInv windowsOk (execTakeover c s) := by
  unfold execTakeover
  refine OutInv.ends reelObserve_win ?_
  refine Inv.runCmd (Q := windowsOk) goodPacket_win answer_win ?_ fun x0 _ h1 => ?_
  · exact h
  · exact takeoverBody_win _ _ h1

theorem execResumeTimeout_win (s : State) (h : windowsOk s) :
    OutInv windowsOk (execResumeTimeout s) := by
  unfold execResumeTimeout
  refine OutInv.clocked ?_ ?_
  · exact h
  · refine OutInv.ite ?_ ?_
    · refine OutInv.ends reelObserve_win ?_
      refine Inv.atMark (Q := windowsOk) advanceTo_win ?_ fun x0 h1 => ?_
      · exact h
      · refine Inv.ite (Q := windowsOk) ?_ ?_
        · exact h1
        · exact raiseFault_win _ _ _ (windowsOk.keep (updDup_keeps _ _) (by rfl) h1)
    · exact OutInv.ends reelObserve_win h

theorem windowEndAt_win (s : State) (m : Nat) (h : windowsOk s) :
    windowsOk (windowEndAt s m) := by
  unfold windowEndAt
  extract_lets y0 y1 y2 y3
  clear_value y0
  refine Inv.cut (Q := windowsOk) (s := y2) ?_ fun h30 => ?_
  · unfold y2
    exact windowEnd_win _ (windowsOk.same (s := s) rfl rfl rfl rfl h)
  clear_value y2
  exact windowsOk.same (s := y2) rfl rfl rfl rfl h30

theorem execTakeoverWindowEnd_win (s : State) (h : windowsOk s) :
    OutInv windowsOk (execTakeoverWindowEnd s) := by
  unfold execTakeoverWindowEnd
  extract_lets y0
  clear_value y0
  refine OutInv.clocked ?_ ?_
  · exact h
  · refine OutInv.ite ?_ ?_
    · split
      · refine OutInv.ends reelObserve_win ?_
        refine Inv.atMark (Q := windowsOk) advanceTo_win ?_ fun x30 h31 => ?_
        · exact h
        · exact windowEndAt_win _ _ h31
      · refine OutInv.ends reelObserve_win ?_
        refine Inv.atMark (Q := windowsOk) advanceTo_win ?_ fun x32 h33 => ?_
        · exact h
        · exact windowEndAt_win _ _ h33
      · exact OutInv.ends reelObserve_win h
    · exact OutInv.ends reelObserve_win h

theorem execPeerDataFrame_win (frame : PeerData) (s : State) (h : windowsOk s) :
    OutInv windowsOk (execPeerDataFrame frame s) := by
  unfold execPeerDataFrame
  extract_lets y0 y1 y2 y3
  clear_value y0
  refine Inv.cut (Q := windowsOk) (s := y1) ?_ fun h30 => ?_
  · unfold y1
    exact windowsOk.keep (slewCell_keeps _ _) (by rfl) h
  clear_value y1
  refine Inv.cut (Q := windowsOk) (s := y2) ?_ fun h31 => ?_
  · unfold y2
    refine Inv.ite (Q := windowsOk) ?_ ?_
    · exact windowsOk.keep (slewMark_keeps _ _) (by rfl) h30
    · exact h30
  clear_value y2
  refine Inv.cut (Q := windowsOk) (s := y3) ?_ fun h32 => ?_
  · unfold y3
    refine Inv.ite (Q := windowsOk) ?_ ?_
    · exact windowsOk.keep (updDup_keeps _ _) (by rfl) h31
    · exact h
  clear_value y3
  refine OutInv.clocked ?_ ?_
  · exact h
  · refine OutInv.ite ?_ ?_
    · exact OutInv.ends reelObserve_win h
    · refine OutInv.ite ?_ ?_
      · exact OutInv.ends reelObserve_win (laneError_win _ _ h)
      · refine OutInv.ite ?_ ?_
        · exact OutInv.ends reelObserve_win h
        · exact OutInv.ends reelObserve_win (windowsOk.keep (peerDigests_keeps _ _) (by rfl) h32)

theorem execPeerHeartbeat_win (header : PeerHeader) (crc : Word) (s : State) (h : windowsOk s) :
    OutInv windowsOk (execPeerHeartbeat header s crc) := by
  unfold execPeerHeartbeat
  extract_lets y0 y1
  clear_value y0 y1
  refine OutInv.clocked ?_ ?_
  · exact h
  · refine OutInv.ite ?_ ?_
    · exact OutInv.ends reelObserve_win h
    · refine OutInv.ite ?_ ?_
      · exact OutInv.ends reelObserve_win (laneError_win _ _ h)
      · refine OutInv.ite ?_ ?_
        · exact OutInv.ends reelObserve_win h
        · refine OutInv.ite ?_ ?_
          · exact OutInv.ends reelObserve_win (windowsOk.keep (updDup_keeps _ _) (by rfl) h)
          · exact OutInv.ends reelObserve_win (windowsOk.keep (updDup_keeps _ _) (by rfl) h)

/-! ### Machine/Fairlead.lean -/

theorem fwPatchBody_win (c : Cmd) (s : State) (h : windowsOk s) :
    ResInv windowsOk (fwPatchBody c s) := by
  exact windowsOk.res (fwPatchBody_keeps _ _) (by rfl) h

theorem traceReadBody_win (c : Cmd) (s : State) (h : windowsOk s) :
    ResInv windowsOk (traceReadBody c s) := by
  exact windowsOk.res (traceReadBody_keeps _ _) (by rfl) h

theorem execFwPatch_win (c : Cmd) (s : State) (h : windowsOk s) :
    OutInv windowsOk (execFwPatch c s) := by
  unfold execFwPatch
  refine OutInv.ends reelObserve_win ?_
  refine Inv.runCmd (Q := windowsOk) goodPacket_win answer_win ?_ fun x0 _ h1 => ?_
  · exact h
  · exact fwPatchBody_win _ _ h1

theorem execTaskComplete_win (strand : Fin 8) (s : State) (h : windowsOk s) :
    OutInv windowsOk (execTaskComplete strand s) := by
  unfold execTaskComplete
  refine OutInv.clocked ?_ ?_
  · exact h
  · exact OutInv.ends reelObserve_win (windowsOk.keep (taskCompleteAt_keeps _ _) (by rfl) h)

theorem execTaskDeadline_win (slot : Fin 256) (s : State) (h : windowsOk s) :
    OutInv windowsOk (execTaskDeadline slot s) := by
  unfold execTaskDeadline
  refine OutInv.clocked ?_ ?_
  · exact h
  · refine OutInv.ends reelObserve_win ?_
    split
    · exact h
    · refine Inv.atMark (Q := windowsOk) advanceTo_win ?_ fun x0 h1 => ?_
      · exact h
      · exact windowsOk.keep (abandonTask_keeps _ _) (by rfl) h1

theorem execTaskPlace_win (s : State) (h : windowsOk s) :
    OutInv windowsOk (execTaskPlace s) := by
  unfold execTaskPlace
  refine OutInv.clocked ?_ ?_
  · exact h
  · exact OutInv.ends reelObserve_win (windowsOk.keep (placeTasks_keeps _) (by rfl) h)

theorem execTraceRead_win (c : Cmd) (s : State) (h : windowsOk s) :
    OutInv windowsOk (execTraceRead c s) := by
  unfold execTraceRead
  refine OutInv.ends reelObserve_win ?_
  refine Inv.runCmd (Q := windowsOk) goodPacket_win answer_win ?_ fun x0 _ h1 => ?_
  · exact h
  · exact traceReadBody_win _ _ h1

theorem patchEnd_win (s : State) (o : LongOp) (h : windowsOk s) :
    windowsOk (patchEnd s o) := by
  unfold patchEnd
  extract_lets y0 y1 y2
  refine Inv.cut (Q := windowsOk) (s := y1) ?_ fun h30 => ?_
  · unfold y1
    exact windowsOk.same (s := s) rfl rfl rfl rfl h
  clear_value y1
  refine Inv.cut (Q := windowsOk) (s := y2) ?_ fun h31 => ?_
  · unfold y2
    exact windowsOk.keep (putP_keeps _ _ _ _) (by rfl) (windowsOk.keep (putN_keeps _ _ _ _) (by rfl) h30)
  clear_value y2
  split
  · exact completeErr_win _ _ _ (windowsOk.keep (putN_keeps _ _ _ _) (by rfl) h30)
  · exact completeOk_win _ _ _ (windowsOk.keep (tallyStale_keeps _) (by rfl) h31)

theorem execFwPatchDone_win (s : State) (h : windowsOk s) :
    OutInv windowsOk (execFwPatchDone s) := by
  unfold execFwPatchDone
  refine OutInv.clocked ?_ ?_
  · exact h
  · refine OutInv.ends reelObserve_win ?_
    split
    · exact h
    · exact patchEnd_win _ _ h

theorem execStrandSramError_win (strand : Fin 8) (corrected : Bool) (s : State) (h : windowsOk s) :
    OutInv windowsOk (execStrandSramError strand s corrected) := by
  unfold execStrandSramError
  refine OutInv.clocked ?_ ?_
  · exact h
  · refine OutInv.ends reelObserve_win ?_
    refine Inv.ite (Q := windowsOk) ?_ ?_
    · exact windowsOk.keep (incP_keeps _ _ _) (by rfl) h
    · exact stopTask_win _ _ _ h

theorem execTaskWatchdog_win (strand : Fin 8) (s : State) (h : windowsOk s) :
    OutInv windowsOk (execTaskWatchdog strand s) := by
  unfold execTaskWatchdog
  refine OutInv.clocked ?_ ?_
  · exact h
  · refine OutInv.ends reelObserve_win ?_
    split
    · exact h
    · exact stopTask_win _ _ _ (windowsOk.keep (advanceTo_keeps _ _) (by rfl) h)

/-! ### Machine/Arms.lean -/

theorem armEnableBody_win (c : Cmd) (s : State) (h : windowsOk s) :
    ResInv windowsOk (armEnableBody c s) := by
  exact windowsOk.res (armEnableBody_keeps _ _) (by rfl) h

theorem blockBody_win (c : Cmd) (s : State) (h : windowsOk s) :
    ResInv windowsOk (blockBody c s) := by
  exact windowsOk.res (blockBody_keeps _ _) (by rfl) h

theorem deblockBody_win (c : Cmd) (s : State) (h : windowsOk s) :
    ResInv windowsOk (deblockBody c s) := by
  unfold deblockBody
  exact ResInv.check (ResInv.done (windowsOk.keep (deblockArms_keeps _ _) (by rfl) h))

theorem execArmEnable_win (c : Cmd) (s : State) (h : windowsOk s) :
    OutInv windowsOk (execArmEnable c s) := by
  unfold execArmEnable
  refine OutInv.ends reelObserve_win ?_
  refine Inv.runCmd (Q := windowsOk) goodPacket_win answer_win ?_ fun x0 _ h1 => ?_
  · exact h
  · exact armEnableBody_win _ _ h1

theorem execBlock_win (c : Cmd) (s : State) (h : windowsOk s) :
    OutInv windowsOk (execBlock c s) := by
  unfold execBlock
  refine OutInv.ends reelObserve_win ?_
  refine Inv.runCmd (Q := windowsOk) goodPacket_win answer_win ?_ fun x0 _ h1 => ?_
  · exact h
  · exact blockBody_win _ _ h1

theorem execDeblock_win (c : Cmd) (s : State) (h : windowsOk s) :
    OutInv windowsOk (execDeblock c s) := by
  unfold execDeblock
  refine OutInv.ends reelObserve_win ?_
  refine Inv.runCmd (Q := windowsOk) goodPacket_win answer_win ?_ fun x0 _ h1 => ?_
  · exact h
  · exact deblockBody_win _ _ h1

/-! ### Machine/Lanes.lean -/

theorem eyeScanBody_win (c : Cmd) (s : State) (h : windowsOk s) :
    ResInv windowsOk (eyeScanBody c s) := by
  exact windowsOk.res (eyeScanBody_keeps _ _) (by rfl) h

theorem laneRetireBody_win (c : Cmd) (s : State) (h : windowsOk s) :
    ResInv windowsOk (laneRetireBody c s) := by
  exact windowsOk.res (laneRetireBody_keeps _ _) (by rfl) h

theorem loopEndNow_win (s : State) (l : Nat) (h : windowsOk s) :
    ResInv windowsOk (loopEndNow s l) := by
  exact windowsOk.res (loopEndNow_keeps _ _) (by rfl) h

theorem endLaneOp_win (s : State) (op : Nat) (l : Nat) (h : windowsOk s) :
    windowsOk (endLaneOp s op l) := by
  unfold endLaneOp
  split
  · exact completeErr_win _ _ _ h
  · exact h

theorem execEyeScan_win (c : Cmd) (s : State) (h : windowsOk s) :
    OutInv windowsOk (execEyeScan c s) := by
  unfold execEyeScan
  refine OutInv.ends reelObserve_win ?_
  refine Inv.runCmd (Q := windowsOk) goodPacket_win answer_win ?_ fun x0 _ h1 => ?_
  · exact h
  · exact eyeScanBody_win _ _ h1

theorem execEyeScanDone_win (points : List (BitVec 16)) (s : State) (h : windowsOk s) :
    OutInv windowsOk (execEyeScanDone points s) := by
  unfold execEyeScanDone
  refine OutInv.clocked ?_ ?_
  · exact h
  · split
    · exact OutInv.ends reelObserve_win h
    · extract_lets y60 y61
      refine Inv.cut (Q := windowsOk) (s := y60) ?_ fun h90 => ?_
      · unfold y60
        exact windowsOk.keep (advanceTo_keeps _ _) (by rfl) h
      clear_value y60
      refine Inv.cut (Q := windowsOk) (s := y61) ?_ fun h91 => ?_
      · unfold y61
        exact windowsOk.keep (eyeStore_keeps _ _ _ _ _) (by rfl) h90
      clear_value y61
      exact OutInv.ends reelObserve_win (completeOk_win _ _ _ h91)

theorem execLaneErrorWindowEnd_win (lane : Fin 66) (s : State) (h : windowsOk s) :
    OutInv windowsOk (execLaneErrorWindowEnd lane s) := by
  unfold execLaneErrorWindowEnd
  extract_lets y0 y1 y2 y3
  clear_value y0
  refine Inv.cut (Q := windowsOk) (s := y1) ?_ fun h30 => ?_
  · unfold y1
    exact windowsOk.keep (advanceTo_keeps _ _) (by rfl) h
  clear_value y1
  refine Inv.cut (Q := windowsOk) (s := y2) ?_ fun h31 => ?_
  · unfold y2
    refine Inv.ite (Q := windowsOk) ?_ ?_
    · exact windowsOk.keep (causeGone_keeps _ _ _) (by rfl) h30
    · exact h30
  clear_value y2
  refine Inv.cut (Q := windowsOk) (s := y3) ?_ fun h32 => ?_
  · unfold y3
    exact windowsOk.keep (putN_keeps _ _ _ _) (by rfl) h31
  clear_value y3
  refine OutInv.clocked ?_ ?_
  · exact h
  · refine OutInv.ite ?_ ?_
    · exact OutInv.ends reelObserve_win (windowsOk.keep (updLane_keeps _ _ _) (by rfl) h32)
    · exact OutInv.ends reelObserve_win h

theorem execLaneLoopEnd_win (lane : Fin 66) (received : Word) (crcBad : Word) (bitErrs : Word) (losses : Word) (s : State) (h :
      windowsOk s) :
    OutInv windowsOk (execLaneLoopEnd lane received crcBad bitErrs losses s) := by
  unfold execLaneLoopEnd
  refine OutInv.clocked ?_ ?_
  · exact h
  · split
    · extract_lets y60 y61
      refine Inv.cut (Q := windowsOk) (s := y60) ?_ fun h90 => ?_
      · unfold y60
        exact windowsOk.keep (advanceTo_keeps _ _) (by rfl) h
      clear_value y60
      refine Inv.cut (Q := windowsOk) (s := y61) ?_ fun h91 => ?_
      · unfold y61
        exact windowsOk.keep (updLane_keeps _ _ _) (by rfl) h90
      clear_value y61
      exact OutInv.ends reelObserve_win (completeOk_win _ _ _ h91)
    · exact OutInv.ends reelObserve_win h

theorem execLaneRetire_win (c : Cmd) (s : State) (h : windowsOk s) :
    OutInv windowsOk (execLaneRetire c s) := by
  unfold execLaneRetire
  refine OutInv.ends reelObserve_win ?_
  refine Inv.runCmd (Q := windowsOk) goodPacket_win answer_win ?_ fun x0 _ h1 => ?_
  · exact h
  · exact laneRetireBody_win _ _ h1

theorem execRetryWindowEnd_win (lane : Fin 66) (s : State) (h : windowsOk s) :
    OutInv windowsOk (execRetryWindowEnd lane s) := by
  unfold execRetryWindowEnd
  refine OutInv.clocked ?_ ?_
  · exact h
  · split
    · exact OutInv.ends reelObserve_win h
    · refine OutInv.ends reelObserve_win ?_
      exact windowsOk.keep (updLane_keeps _ _ _) (by rfl) (windowsOk.keep (advanceTo_keeps _ _) (by rfl) h)

theorem scanLost_win (s : State) (l : Nat) (pts : List (BitVec 16)) (h : windowsOk s) :
    windowsOk (scanLost s l pts) := by
  unfold scanLost
  split
  · exact completeErr_win _ _ _ (windowsOk.keep (eyeStore_keeps _ _ _ _ _) (by rfl) h)
  · exact h

theorem laneLoopBody_win (c : Cmd) (s : State) (h : windowsOk s) :
    ResInv windowsOk (laneLoopBody c s) := by
  unfold laneLoopBody
  extract_lets y0 y1 y2
  clear_value y0 y1 y2
  refine ResInv.ite ?_ ?_
  · exact ResInv.check (loopEndNow_win _ _ h)
  · refine ResInv.check ?_
    refine ResInv.accepted ?_ fun x120 h121 => ?_
    · exact windowsOk.keep (startOp_keeps _ _ _ _ _) (by rfl) h
    · extract_lets y122
      refine Inv.cut (Q := windowsOk) (s := y122) ?_ fun h152 => ?_
      · unfold y122
        exact windowsOk.keep (closeRetry_keeps _ _) (by rfl) (laneTo_win _ _ _ h121)
      clear_value y122
      exact windowsOk.keep (updLane_keeps _ _ _) (by rfl) h152

theorem capsDone_win (s : State) (l : Nat) (hub : Nat) (mask : Nat) (low : Nat) (selectOk : Bool) (port : Nat) (h :
      windowsOk s) :
    windowsOk (capsDone s l hub mask low selectOk port) := by
  unfold capsDone
  extract_lets y0 y1 y2
  clear_value y0
  refine Inv.cut (Q := windowsOk) (s := y1) ?_ fun h30 => ?_
  · unfold y1
    exact windowsOk.keep (updLane_keeps _ _ _) (by rfl) h
  clear_value y1
  refine Inv.cut (Q := windowsOk) (s := y2) ?_ fun h31 => ?_
  · unfold y2
    exact windowsOk.keep (updLane_keeps _ _ _) (by rfl) h30
  clear_value y2
  refine Inv.ite (Q := windowsOk) ?_ ?_
  · exact bringupFail_win _ _ _ _ h30
  · refine Inv.ite (Q := windowsOk) ?_ ?_
    · exact bringupFail_win _ _ _ _ h30
    · refine Inv.ite (Q := windowsOk) ?_ ?_
      · exact windowsOk.keep (awaitEntry_keeps _ _) (by rfl) h31
      · exact enterStage_win _ _ _ _ h31

theorem execBringupStageTimeout_win (lane : Fin 66) (s : State) (h : windowsOk s) :
    OutInv windowsOk (execBringupStageTimeout lane s) := by
  unfold execBringupStageTimeout
  extract_lets y0 y1
  clear_value y0
  refine Inv.cut (Q := windowsOk) (s := y1) ?_ fun h30 => ?_
  · unfold y1
    exact windowsOk.keep (advanceTo_keeps _ _) (by rfl) h
  clear_value y1
  refine OutInv.clocked ?_ ?_
  · exact h
  · refine OutInv.ite ?_ ?_
    · exact OutInv.ends reelObserve_win (bringupFail_win _ _ _ _ h30)
    · exact OutInv.ends reelObserve_win h

theorem execCapsDone_win (lane : Fin 66) (hubGen : BitVec 2) (mask : BitVec 48) (cellGens : List (BitVec 2))
      (selectOk : Bool) (activePort : BitVec 2) (s : State) (h : windowsOk s) :
    OutInv windowsOk (execCapsDone lane hubGen mask cellGens selectOk activePort s) := by
  unfold execCapsDone
  extract_lets y0 y1 y2 y3
  clear_value y0 y1 y2 y3
  refine OutInv.clocked ?_ ?_
  · exact h
  · refine OutInv.ite ?_ ?_
    · exact OutInv.ends reelObserve_win (windowsOk.keep (loopCaps_keeps _ _ _ _ _ _) (by rfl) h)
    · refine OutInv.ite ?_ ?_
      · exact OutInv.ends reelObserve_win (capsDone_win _ _ _ _ _ _ _ h)
      · exact OutInv.ends reelObserve_win h

theorem execLaneLoop_win (c : Cmd) (s : State) (h : windowsOk s) :
    OutInv windowsOk (execLaneLoop c s) := by
  unfold execLaneLoop
  refine OutInv.ends reelObserve_win ?_
  refine Inv.runCmd (Q := windowsOk) goodPacket_win answer_win ?_ fun x0 _ h1 => ?_
  · exact h
  · exact laneLoopBody_win _ _ h1

theorem execLaneLoopEndMode0_win (c : Cmd) (s : State) (h : windowsOk s) :
    OutInv windowsOk (execLaneLoopEndMode0 c s) := by
  unfold execLaneLoopEndMode0
  refine OutInv.ends reelObserve_win ?_
  refine Inv.runCmd (Q := windowsOk) goodPacket_win answer_win ?_ fun x0 _ h1 => ?_
  · exact h
  · exact laneLoopBody_win _ _ h1

theorem execRebringupRetry_win (lane : Fin 66) (s : State) (h : windowsOk s) :
    OutInv windowsOk (execRebringupRetry lane s) := by
  unfold execRebringupRetry
  refine OutInv.clocked ?_ ?_
  · exact h
  · split
    · exact OutInv.ends reelObserve_win h
    · refine OutInv.ends reelObserve_win ?_
      refine Inv.ite (Q := windowsOk) ?_ ?_
      · exact startBringup_win _ _ _ (windowsOk.keep (advanceTo_keeps _ _) (by rfl) h)
      · exact h

theorem laneBringupBody_win (c : Cmd) (s : State) (h : windowsOk s) :
    ResInv windowsOk (laneBringupBody c s) := by
  unfold laneBringupBody
  extract_lets y0
  clear_value y0
  refine ResInv.check ?_
  refine ResInv.accepted ?_ fun x30 h31 => ?_
  · exact windowsOk.keep (startOp_keeps _ _ _ _ _) (by rfl) h
  · refine startBringup_win _ _ _ ?_
    exact windowsOk.keep (updLane_keeps _ _ _) (by rfl) (windowsOk.keep (closeRetry_keeps _ _) (by rfl) h31)

theorem laneDomainOff_win (s : State) (l : Nat) (h : windowsOk s) :
    windowsOk (laneDomainOff s l) := by
  unfold laneDomainOff
  exact endLaneOp_win _ _ _ (endLaneOp_win _ _ _ (laneOff_win _ _ h))

theorem laneEnSet_win (s : State) (h : windowsOk s) :
    windowsOk (laneEnSet s) := by
  unfold laneEnSet
  refine Inv.ite (Q := windowsOk) ?_ ?_
  · refine Inv.foldl (Q := windowsOk) ?_ fun x60 a61 h62 => ?_
    · exact h
    · extract_lets y63 y64 y65
      clear_value y63 y64
      refine Inv.cut (Q := windowsOk) (s := y65) ?_ fun h93 => ?_
      · unfold y65
        refine Inv.foldl (Q := windowsOk) ?_ fun x94 a95 h96 => ?_
        · exact windowsOk.keep (domains_keeps _ _ _) (by rfl) h62
        · exact laneDomainOff_win _ _ h96
      clear_value y65
      refine Inv.ite (Q := windowsOk) ?_ ?_
      · exact h62
      · refine Inv.ite (Q := windowsOk) ?_ ?_
        · exact windowsOk.keep (domains_keeps _ _ _) (by rfl) h62
        · exact windowsOk.keep (updPwr_keeps _ _) (by rfl) h93
  · exact h

theorem lockLost_win (s : State) (l : Nat) (pts : List (BitVec 16)) (h : windowsOk s) :
    windowsOk (lockLost s l pts) := by
  unfold lockLost
  extract_lets y0 y1 y2
  clear_value y1
  refine Inv.cut (Q := windowsOk) (s := y0) ?_ fun h30 => ?_
  · unfold y0
    exact laneError_win _ _ (scanLost_win _ _ _ h)
  clear_value y0
  refine Inv.cut (Q := windowsOk) (s := y2) ?_ fun h31 => ?_
  · unfold y2
    refine Inv.ite (Q := windowsOk) ?_ ?_
    · exact h30
    · exact windowsOk.keep (updLane_keeps _ _ _) (by rfl) h30
  clear_value y2
  refine Inv.ite (Q := windowsOk) ?_ ?_
  · exact h30
  · exact windowsOk.keep (updLane_keeps _ _ _) (by rfl) (startBringup_win _ _ _ h31)

theorem toStage_win (s : State) (l : Nat) (st : LaneSt) (pass2 : Bool) (h : windowsOk s) :
    windowsOk (toStage s l st pass2) := by
  unfold toStage
  refine Inv.ite (Q := windowsOk) ?_ ?_
  · exact windowsOk.keep (loopStage_keeps _ _ _ _) (by rfl) h
  · exact enterStage_win _ _ _ _ h

theorem execDetectDone_win (lane : Fin 66) (rx : Rx) (s : State) (h : windowsOk s) :
    OutInv windowsOk (execDetectDone lane s rx) := by
  unfold execDetectDone
  extract_lets y0
  clear_value y0
  refine OutInv.clocked ?_ ?_
  · exact h
  · refine OutInv.ends reelObserve_win ?_
    refine Inv.ite (Q := windowsOk) ?_ ?_
    · exact toStage_win _ _ _ _ h
    · exact h

theorem execLaneBringup_win (c : Cmd) (s : State) (h : windowsOk s) :
    OutInv windowsOk (execLaneBringup c s) := by
  unfold execLaneBringup
  refine OutInv.ends reelObserve_win ?_
  refine Inv.runCmd (Q := windowsOk) goodPacket_win answer_win ?_ fun x0 _ h1 => ?_
  · exact h
  · exact laneBringupBody_win _ _ h1

theorem execLockDone_win (lane : Fin 66) (rx : Rx) (s : State) (h : windowsOk s) :
    OutInv windowsOk (execLockDone lane s rx) := by
  unfold execLockDone
  extract_lets y0
  clear_value y0
  refine OutInv.clocked ?_ ?_
  · exact h
  · refine OutInv.ite ?_ ?_
    · refine OutInv.ends reelObserve_win ?_
      refine Inv.ite (Q := windowsOk) ?_ ?_
      · exact toStage_win _ _ _ _ h
      · refine Inv.ite (Q := windowsOk) ?_ ?_
        · exact windowsOk.keep (loopStage_keeps _ _ _ _) (by rfl) h
        · exact windowsOk.keep (awaitEntry_keeps _ _) (by rfl) h
    · exact OutInv.ends reelObserve_win h

theorem execTrainDone_win (lane : Fin 66) (eq : BitVec 4) (clean : Nat) (s : State) (h : windowsOk s) :
    OutInv windowsOk (execTrainDone lane eq s clean) := by
  unfold execTrainDone
  extract_lets y0 y1 y2
  clear_value y0 y1
  refine Inv.cut (Q := windowsOk) (s := y2) ?_ fun h30 => ?_
  · unfold y2
    exact windowsOk.keep (putN_keeps _ _ _ _) (by rfl) h
  clear_value y2
  refine OutInv.clocked ?_ ?_
  · exact h
  · refine OutInv.ite ?_ ?_
    · exact OutInv.ends reelObserve_win (toStage_win _ _ _ _ h30)
    · exact OutInv.ends reelObserve_win h

theorem lockGone_win (s : State) (l : Nat) (pts : List (BitVec 16)) (h : windowsOk s) :
    windowsOk (lockGone s l pts) := by
  unfold lockGone
  split
  · exact lockLost_win _ _ _ (windowsOk.keep (incP_keeps _ _ _) (by rfl) h)
  · exact bringupFail_win _ _ _ _ (windowsOk.keep (incP_keeps _ _ _) (by rfl) h)
  · exact bringupFail_win _ _ _ _ (windowsOk.keep (incP_keeps _ _ _) (by rfl) h)
  · exact windowsOk.keep (updLane_keeps _ _ _) (by rfl) (windowsOk.keep (incP_keeps _ _ _) (by rfl) h)
  · exact h

theorem execLossOfLock_win (lane : Fin 66) (rx : Rx) (scanned : List (BitVec 16)) (s : State) (h : windowsOk s) :
    OutInv windowsOk (execLossOfLock lane scanned s rx) := by
  unfold execLossOfLock
  refine OutInv.clocked ?_ ?_
  · exact h
  · refine OutInv.ends reelObserve_win ?_
    refine Inv.ite (Q := windowsOk) ?_ ?_
    · exact lockGone_win _ _ _ h
    · exact h

/-! ### Machine/Discovery.lean -/

theorem cellConfigBody_win (c : Cmd) (s : State) (h : windowsOk s) :
    ResInv windowsOk (cellConfigBody c s) := by
  exact windowsOk.res (cellConfigBody_keeps _ _) (by rfl) h

theorem discoverBody_win (c : Cmd) (s : State) (h : windowsOk s) :
    ResInv windowsOk (discoverBody c s) := by
  exact windowsOk.res (discoverBody_keeps _ _) (by rfl) h

theorem placeBody_win (c : Cmd) (s : State) (h : windowsOk s) :
    ResInv windowsOk (placeBody c s) := by
  exact windowsOk.res (placeBody_keeps _ _) (by rfl) h

theorem readIdentityBody_win (c : Cmd) (s : State) (h : windowsOk s) :
    ResInv windowsOk (readIdentityBody c s) := by
  exact windowsOk.res (readIdentityBody_keeps _ _) (by rfl) h

theorem tallyReportBody_win (c : Cmd) (s : State) (h : windowsOk s) :
    ResInv windowsOk (tallyReportBody c s) := by
  exact windowsOk.res (tallyReportBody_keeps _ _) (by rfl) h

theorem endRetires_win (s : State) (h : windowsOk s) :
    windowsOk (endRetires s) := by
  unfold endRetires
  refine Inv.foldl (Q := windowsOk) ?_ fun x0 a1 h2 => ?_
  · exact h
  · exact completeErr_win _ _ _ h2

theorem execCellConfig_win (c : Cmd) (s : State) (h : windowsOk s) :
    OutInv windowsOk (execCellConfig c s) := by
  unfold execCellConfig
  refine OutInv.ends reelObserve_win ?_
  refine Inv.runCmd (Q := windowsOk) goodPacket_win answer_win ?_ fun x0 _ h1 => ?_
  · exact h
  · exact cellConfigBody_win _ _ h1

theorem execCellConfigDone_win (s : State) (h : windowsOk s) :
    OutInv windowsOk (execCellConfigDone s) := by
  unfold execCellConfigDone
  refine OutInv.clocked ?_ ?_
  · exact h
  · refine OutInv.ends reelObserve_win ?_
    split
    · exact h
    · extract_lets y90 y91
      clear_value y90 y91
      exact completeOk_win _ _ _ h

theorem execDiscover_win (c : Cmd) (s : State) (h : windowsOk s) :
    OutInv windowsOk (execDiscover c s) := by
  unfold execDiscover
  refine OutInv.ends reelObserve_win ?_
  refine Inv.runCmd (Q := windowsOk) goodPacket_win answer_win ?_ fun x0 _ h1 => ?_
  · exact h
  · exact discoverBody_win _ _ h1

theorem execDiscoverDone_win (boards : List (Option (List Byte))) (again : List (Option (List Byte))) (s : State) (h
      : windowsOk s) :
    OutInv windowsOk (execDiscoverDone boards s again) := by
  unfold execDiscoverDone
  extract_lets y0
  refine Inv.cut (Q := windowsOk) (s := y0) ?_ fun h30 => ?_
  · unfold y0
    exact windowsOk.keep (putBoards_keeps _ _ _) (by rfl) h
  clear_value y0
  refine OutInv.clocked ?_ ?_
  · exact h
  · refine OutInv.ends reelObserve_win ?_
    split
    · exact h
    · exact completeOk_win _ _ _ h30

theorem execPlace_win (c : Cmd) (s : State) (h : windowsOk s) :
    OutInv windowsOk (execPlace c s) := by
  unfold execPlace
  refine OutInv.ends reelObserve_win ?_
  refine Inv.runCmd (Q := windowsOk) goodPacket_win answer_win ?_ fun x0 _ h1 => ?_
  · exact h
  · exact placeBody_win _ _ h1

theorem execReadIdentity_win (c : Cmd) (s : State) (h : windowsOk s) :
    OutInv windowsOk (execReadIdentity c s) := by
  unfold execReadIdentity
  refine OutInv.ends reelObserve_win ?_
  refine Inv.runCmd (Q := windowsOk) goodPacket_win answer_win ?_ fun x0 _ h1 => ?_
  · exact h
  · exact readIdentityBody_win _ _ h1

theorem execTallyReport_win (c : Cmd) (s : State) (h : windowsOk s) :
    OutInv windowsOk (execTallyReport c s) := by
  unfold execTallyReport
  refine OutInv.ends reelObserve_win ?_
  refine Inv.runCmd (Q := windowsOk) goodPacket_win answer_win ?_ fun x0 _ h1 => ?_
  · exact h
  · exact tallyReportBody_win _ _ h1

theorem idBoardDone_win (s : State) (o : LongOp) (board : Option (List Byte)) (again : Option (List Byte)) (h :
      windowsOk s) :
    windowsOk (idBoardDone s o board again) := by
  unfold idBoardDone
  extract_lets y0
  clear_value y0
  refine Inv.ite (Q := windowsOk) ?_ ?_
  · exact completeOk_win _ _ _ h
  · exact completeErr_win _ _ _ h

theorem idLaneDone_win (s : State) (o : LongOp) (h : windowsOk s) :
    windowsOk (idLaneDone s o) := by
  unfold idLaneDone
  extract_lets y0 y1 y2 y3
  clear_value y0 y1 y2
  refine Inv.cut (Q := windowsOk) (s := y3) ?_ fun h30 => ?_
  · unfold y3
    exact windowsOk.keep (updLane_keeps _ _ _) (by rfl) h
  clear_value y3
  refine Inv.ite (Q := windowsOk) ?_ ?_
  · exact completeOk_win _ _ _ h30
  · exact completeErr_win _ _ _ h30

theorem placeCleat_win (s : State) (h : windowsOk s) :
    windowsOk (placeCleat s) := by
  unfold placeCleat
  extract_lets y0
  refine Inv.cut (Q := windowsOk) (s := y0) ?_ fun h30 => ?_
  · unfold y0
    exact windowsOk.same (s := s) rfl rfl rfl rfl h
  clear_value y0
  exact windowsOk.keep (placeCauses_keeps _) (by rfl) (endRetires_win _ h30)

theorem execReadIdentityDone_win (board : Option (List Byte)) (again : Option (List Byte)) (s : State) (h : windowsOk
      s) :
    OutInv windowsOk (execReadIdentityDone board s again) := by
  unfold execReadIdentityDone
  extract_lets y0 y1
  clear_value y0 y1
  refine OutInv.clocked ?_ ?_
  · exact h
  · refine OutInv.ends reelObserve_win ?_
    split
    · exact idLaneDone_win _ _ h
    · refine Inv.ite (Q := windowsOk) ?_ ?_
      · exact idBoardDone_win _ _ _ _ h
      · exact idLaneDone_win _ _ h
    · exact idBoardDone_win _ _ _ _ h
    · exact h

theorem execMtWindowEnd_win (s : State) (h : windowsOk s) :
    OutInv windowsOk (execMtWindowEnd s) := by
  unfold execMtWindowEnd
  extract_lets y0
  clear_value y0
  refine OutInv.clocked ?_ ?_
  · exact h
  · refine OutInv.ends reelObserve_win ?_
    refine Inv.ite (Q := windowsOk) ?_ ?_
    · refine Inv.atMark (Q := windowsOk) advanceTo_win ?_ fun x30 h31 => ?_
      · exact h
      · refine mtEnd_win _ ?_
        refine Inv.ite (Q := windowsOk) ?_ ?_
        · exact windowsOk.keep (mtChargeOf_keeps _ _ _) (by rfl) h31
        · exact h31
    · exact h

theorem execTallyPersistExpiry_win (kind : Fin 3) (s : State) (h : windowsOk s) :
    OutInv windowsOk (execTallyPersistExpiry kind s) := by
  unfold execTallyPersistExpiry
  extract_lets y0
  refine Inv.cut (Q := windowsOk) (s := y0) ?_ fun h30 => ?_
  · unfold y0
    exact windowsOk.keep (tallyFollow_keeps _ _) (by rfl) h
  clear_value y0
  refine OutInv.clocked ?_ ?_
  · exact h
  · refine OutInv.ends reelObserve_win ?_
    split
    · exact h30
    · extract_lets y121
      refine Inv.cut (Q := windowsOk) (s := y121) ?_ fun h151 => ?_
      · unfold y121
        exact windowsOk.keep (advanceTo_keeps _ _) (by rfl) h30
      clear_value y121
      refine Inv.ite (Q := windowsOk) ?_ ?_
      · exact h151
      · exact raiseFault_win _ _ _ h151

theorem placeWatch_win (s : State) (h : windowsOk s) :
    windowsOk (placeWatch s) := by
  unfold placeWatch
  refine ledgerWatch_win _ ?_
  refine cleatWatch_win _ ?_
  exact windowsOk.keep (tallyFollow_keeps _ _) (by rfl) (windowsOk.keep (tallyStale_keeps _) (by rfl) h)

theorem placeDo_win (s : State) (t : List Word) (h : windowsOk s) :
    windowsOk (placeDo s t) := by
  unfold placeDo
  extract_lets y0 y1 y2 y3 y4 y5 y6 y7 y8 y9 y10 y11
  clear_value y0 y1 y2 y3
  refine Inv.cut (Q := windowsOk) (s := y4) ?_ fun h30 => ?_
  · unfold y4
    refine windowsOk.keep (dropTasks_keeps _ _) (by rfl) ?_
    exact windowsOk.keep (mtAbort_keeps _) (by rfl) (placeCleat_win _ h)
  clear_value y4
  refine Inv.cut (Q := windowsOk) (s := y5) ?_ fun h31 => ?_
  · unfold y5
    exact windowsOk.same (s := y4) rfl rfl rfl rfl h30
  clear_value y5
  refine Inv.cut (Q := windowsOk) (s := y6) ?_ fun h32 => ?_
  · unfold y6
    refine Inv.foldl (Q := windowsOk) ?_ fun x33 a34 h35 => ?_
    · exact h31
    · exact windowsOk.keep (placeCell_keeps _ _ _) (by rfl) h35
  clear_value y6
  refine Inv.cut (Q := windowsOk) (s := y7) ?_ fun h36 => ?_
  · unfold y7
    refine Inv.foldl (Q := windowsOk) ?_ fun x37 a38 h39 => ?_
    · refine Inv.foldl (Q := windowsOk) ?_ fun x40 a41 h42 => ?_
      · exact h32
      · exact windowsOk.keep (placeLane_keeps _ _ _) (by rfl) h42
    · exact windowsOk.keep (placeArm_keeps _ _) (by rfl) h39
  clear_value y7
  refine Inv.cut (Q := windowsOk) (s := y11) ?_ fun h43 => ?_
  · unfold y11
    exact windowsOk.same (s := y7) rfl rfl rfl rfl h36
  clear_value y11
  exact latencyChange_win _ _ (recompute_win _ h43)

theorem execPlaceDone_win (s : State) (h : windowsOk s) :
    OutInv windowsOk (execPlaceDone s) := by
  unfold execPlaceDone
  refine OutInv.clocked ?_ ?_
  · exact h
  · refine OutInv.ends reelObserve_win ?_
    split
    · exact h
    · extract_lets y90
      refine Inv.cut (Q := windowsOk) (s := y90) ?_ fun h120 => ?_
      · unfold y90
        exact placeWatch_win _ (placeDo_win _ _ h)
      clear_value y90
      exact completeOk_win _ _ _ h120

/-! ### Machine/Faults.lean -/

theorem factoryUnlockBody_win (c : Cmd) (s : State) (h : windowsOk s) :
    ResInv windowsOk (factoryUnlockBody c s) := by
  exact windowsOk.res (factoryUnlockBody_keeps _ _) (by rfl) h

theorem faultReadBody_win (c : Cmd) (s : State) (h : windowsOk s) :
    ResInv windowsOk (faultReadBody c s) := by
  exact windowsOk.res (faultReadBody_keeps _ _) (by rfl) h

theorem execErrPulseEnd_win (s : State) (h : windowsOk s) :
    OutInv windowsOk (execErrPulseEnd s) := by
  unfold execErrPulseEnd
  refine OutInv.clocked ?_ ?_
  · exact h
  · refine OutInv.ends reelObserve_win ?_
    split
    · extract_lets y90 y91
      refine Inv.cut (Q := windowsOk) (s := y90) ?_ fun h120 => ?_
      · unfold y90
        exact windowsOk.keep (advanceTo_keeps _ _) (by rfl) h
      clear_value y90
      exact windowsOk.same (s := y90) rfl rfl rfl rfl h120
    · exact h

theorem execFactoryUnlock_win (c : Cmd) (s : State) (h : windowsOk s) :
    OutInv windowsOk (execFactoryUnlock c s) := by
  unfold execFactoryUnlock
  refine OutInv.ends reelObserve_win ?_
  refine Inv.runCmd (Q := windowsOk) goodPacket_win answer_win ?_ fun x0 _ h1 => ?_
  · exact h
  · exact factoryUnlockBody_win _ _ h1

theorem execFaultRead_win (c : Cmd) (s : State) (h : windowsOk s) :
    OutInv windowsOk (execFaultRead c s) := by
  unfold execFaultRead
  refine OutInv.ends reelObserve_win ?_
  refine Inv.runCmd (Q := windowsOk) goodPacket_win answer_win ?_ fun x0 _ h1 => ?_
  · exact h
  · exact faultReadBody_win _ _ h1

theorem execGraceExpiry_win (entry : Fin 256) (s : State) (h : windowsOk s) :
    OutInv windowsOk (execGraceExpiry entry s) := by
  unfold execGraceExpiry
  extract_lets y0
  clear_value y0
  refine OutInv.clocked ?_ ?_
  · exact h
  · refine OutInv.ends reelObserve_win ?_
    refine Inv.ite (Q := windowsOk) ?_ ?_
    · exact graceExpire_win _ _ (windowsOk.keep (advanceTo_keeps _ _) (by rfl) h)
    · exact h

theorem faultAckBody_win (c : Cmd) (s : State) (h : windowsOk s) :
    ResInv windowsOk (faultAckBody c s) := by
  unfold faultAckBody
  extract_lets y0 y1
  clear_value y1
  refine Inv.cut (Q := windowsOk) (s := y0) ?_ fun h30 => ?_
  · unfold y0
    exact gracesDue_win _ h
  clear_value y0
  split
  · trivial
  · exact ResInv.done (windowsOk.keep (setFlt_keeps _ _ _) (by rfl) h30)

theorem faultClearBody_win (c : Cmd) (s : State) (h : windowsOk s) :
    ResInv windowsOk (faultClearBody c s) := by
  unfold faultClearBody
  extract_lets y0 y1
  clear_value y1
  refine Inv.cut (Q := windowsOk) (s := y0) ?_ fun h30 => ?_
  · unfold y0
    exact gracesDue_win _ h
  clear_value y0
  split
  · trivial
  · refine ResInv.ite ?_ ?_
    · trivial
    · refine ResInv.done ?_
      refine windowsOk.keep (chopCleared_keeps _ _ _) (by rfl) ?_
      exact windowsOk.keep (freeEntry_keeps _ _) (by rfl) h30

theorem execFaultAck_win (c : Cmd) (s : State) (h : windowsOk s) :
    OutInv windowsOk (execFaultAck c s) := by
  unfold execFaultAck
  refine OutInv.ends reelObserve_win ?_
  refine Inv.runCmd (Q := windowsOk) goodPacket_win answer_win ?_ fun x0 _ h1 => ?_
  · exact h
  · exact faultAckBody_win _ _ h1

theorem execFaultClear_win (c : Cmd) (s : State) (h : windowsOk s) :
    OutInv windowsOk (execFaultClear c s) := by
  unfold execFaultClear
  refine OutInv.ends reelObserve_win ?_
  refine Inv.runCmd (Q := windowsOk) goodPacket_win answer_win ?_ fun x0 _ h1 => ?_
  · exact h
  · exact faultClearBody_win _ _ h1

theorem injectFault_win (s : State) (code : Nat) (inst : Nat) (h : windowsOk s) :
    windowsOk (injectFault s code inst) := by
  unfold injectFault
  extract_lets y0 y1 y2 y3 y4
  clear_value y0 y2 y3 y4
  refine Inv.cut (Q := windowsOk) (s := y1) ?_ fun h30 => ?_
  · unfold y1
    refine Inv.ite (Q := windowsOk) ?_ ?_
    · exact h
    · exact windowsOk.keep (belayLatch_keeps _ _) (by rfl) (windowsOk.keep (belayReact_keeps _ _) (by rfl) h)
  clear_value y1
  refine Inv.ite (Q := windowsOk) ?_ ?_
  · exact raiseWith_win _ _ _ _ _ _ _ h30
  · refine Inv.ite (Q := windowsOk) ?_ ?_
    · refine Inv.ite (Q := windowsOk) ?_ ?_
      · exact fltRecord_win _ _ _ _ (windowsOk.keep (setFlt_keeps _ _ _) (by rfl) h)
      · exact reRaise_win _ _ _ _ _ _ h
    · exact raiseWith_win _ _ _ _ _ _ _ h

theorem faultInjectBody_win (c : Cmd) (s : State) (h : windowsOk s) :
    ResInv windowsOk (faultInjectBody c s) := by
  unfold faultInjectBody
  extract_lets y0 y1
  clear_value y0 y1
  exact ResInv.check (ResInv.done (injectFault_win _ _ _ h))

theorem execFaultInject_win (c : Cmd) (s : State) (h : windowsOk s) :
    OutInv windowsOk (execFaultInject c s) := by
  unfold execFaultInject
  refine OutInv.ends reelObserve_win ?_
  refine Inv.runCmd (Q := windowsOk) goodPacket_win answer_win ?_ fun x0 _ h1 => ?_
  · exact h
  · exact faultInjectBody_win _ _ h1

/-! ### Machine/Maint.lean -/

theorem cleatReleaseBody_win (c : Cmd) (s : State) (h : windowsOk s) :
    ResInv windowsOk (cleatReleaseBody c s) := by
  exact windowsOk.res (cleatReleaseBody_keeps _ _) (by rfl) h

theorem maintEndBody_win (c : Cmd) (s : State) (h : windowsOk s) :
    ResInv windowsOk (maintEndBody c s) := by
  exact windowsOk.res (maintEndBody_keeps _ _) (by rfl) h

theorem execCellRetireTimeout_win (cell : Fin 3072) (s : State) (h : windowsOk s) :
    OutInv windowsOk (execCellRetireTimeout cell s) := by
  unfold execCellRetireTimeout
  refine OutInv.clocked ?_ ?_
  · exact h
  · refine OutInv.ends reelObserve_win ?_
    split
    · extract_lets y90
      refine Inv.cut (Q := windowsOk) (s := y90) ?_ fun h120 => ?_
      · unfold y90
        exact windowsOk.keep (advanceTo_keeps _ _) (by rfl) h
      clear_value y90
      refine Inv.ite (Q := windowsOk) ?_ ?_
      · exact completeErr_win _ _ _ h120
      · exact h
    · exact h

theorem execCleatRelease_win (c : Cmd) (s : State) (h : windowsOk s) :
    OutInv windowsOk (execCleatRelease c s) := by
  unfold execCleatRelease
  refine OutInv.ends reelObserve_win ?_
  refine Inv.runCmd (Q := windowsOk) goodPacket_win answer_win ?_ fun x0 _ h1 => ?_
  · exact h
  · exact cleatReleaseBody_win _ _ h1

theorem execCleatRetryWindowEnd_win (entry : Fin 32) (s : State) (h : windowsOk s) :
    OutInv windowsOk (execCleatRetryWindowEnd entry s) := by
  unfold execCleatRetryWindowEnd
  extract_lets y0
  clear_value y0
  refine OutInv.clocked ?_ ?_
  · exact h
  · refine OutInv.ends reelObserve_win ?_
    split
    · refine Inv.ite (Q := windowsOk) ?_ ?_
      · exact windowsOk.keep (releaseEntry_keeps _ _ _) (by rfl) (windowsOk.keep (advanceTo_keeps _ _) (by rfl) h)
      · exact h
    · exact h

theorem execMaintEnd_win (c : Cmd) (s : State) (h : windowsOk s) :
    OutInv windowsOk (execMaintEnd c s) := by
  unfold execMaintEnd
  refine OutInv.ends reelObserve_win ?_
  refine Inv.runCmd (Q := windowsOk) goodPacket_win answer_win ?_ fun x0 _ h1 => ?_
  · exact h
  · exact maintEndBody_win _ _ h1

theorem execPermBypassRetry_win (cell : Fin 3072) (s : State) (h : windowsOk s) :
    OutInv windowsOk (execPermBypassRetry cell s) := by
  unfold execPermBypassRetry
  refine OutInv.clocked ?_ ?_
  · exact h
  · refine OutInv.ends reelObserve_win ?_
    split
    · exact sendPair_win _ _ (windowsOk.keep (advanceTo_keeps _ _) (by rfl) h)
    · exact h

theorem execPermConfirmTimeout_win (cell : Fin 3072) (s : State) (h : windowsOk s) :
    OutInv windowsOk (execPermConfirmTimeout cell s) := by
  unfold execPermConfirmTimeout
  refine OutInv.clocked ?_ ?_
  · exact h
  · refine OutInv.ends reelObserve_win ?_
    split
    · exact permFailed_win _ _ (windowsOk.keep (advanceTo_keeps _ _) (by rfl) h)
    · exact h

theorem cleatAddBody_win (c : Cmd) (s : State) (h : windowsOk s) :
    ResInv windowsOk (cleatAddBody c s) := by
  unfold cleatAddBody
  extract_lets y0 y1 y2 y3
  clear_value y0 y1 y2 y3
  exact ResInv.check (ResInv.ok (cleatWatch_win _ (windowsOk.keep (updCleat_keeps _ _ _) (by rfl) h)))

theorem execCleatAdd_win (c : Cmd) (s : State) (h : windowsOk s) :
    OutInv windowsOk (execCleatAdd c s) := by
  unfold execCleatAdd
  refine OutInv.ends reelObserve_win ?_
  refine Inv.runCmd (Q := windowsOk) goodPacket_win answer_win ?_ fun x0 _ h1 => ?_
  · exact h
  · exact cleatAddBody_win _ _ h1

theorem maintAdmitBody_win (c : Cmd) (s : State) (h : windowsOk s) :
    ResInv windowsOk (maintAdmitBody c s) := by
  unfold maintAdmitBody
  exact ResInv.check (ResInv.done (ledgerWatch_win _ (windowsOk.keep (updAct_keeps _ _ _) (by rfl) h)))

theorem cellRetireBody_win (c : Cmd) (s : State) (h : windowsOk s) :
    ResInv windowsOk (cellRetireBody c s) := by
  unfold cellRetireBody
  extract_lets y0 y1
  clear_value y0 y1
  refine ResInv.check ?_
  refine ResInv.accepted ?_ fun x30 h31 => ?_
  · exact windowsOk.keep (startOp_keeps _ _ _ _ _) (by rfl) h
  · exact serveRetire_win _ _ h31

theorem execActivityFree_win (slot : Fin 16) (s : State) (h : windowsOk s) :
    OutInv windowsOk (execActivityFree slot s) := by
  unfold execActivityFree
  refine OutInv.clocked ?_ ?_
  · exact h
  · refine OutInv.ends reelObserve_win ?_
    split
    · refine Inv.ite (Q := windowsOk) ?_ ?_
      · exact freeActivity_win _ _ (windowsOk.keep (advanceTo_keeps _ _) (by rfl) h)
      · exact h
    · exact h

theorem execCellRetire_win (c : Cmd) (s : State) (h : windowsOk s) :
    OutInv windowsOk (execCellRetire c s) := by
  unfold execCellRetire
  refine OutInv.ends reelObserve_win ?_
  refine Inv.runCmd (Q := windowsOk) goodPacket_win answer_win ?_ fun x0 _ h1 => ?_
  · exact h
  · exact cellRetireBody_win _ _ h1

theorem execMaintAdmit_win (c : Cmd) (s : State) (h : windowsOk s) :
    OutInv windowsOk (execMaintAdmit c s) := by
  unfold execMaintAdmit
  refine OutInv.ends reelObserve_win ?_
  refine Inv.runCmd (Q := windowsOk) goodPacket_win answer_win ?_ fun x0 _ h1 => ?_
  · exact h
  · exact maintAdmitBody_win _ _ h1

theorem execCleatEntryFree_win (entry : Fin 32) (s : State) (h : windowsOk s) :
    OutInv windowsOk (execCleatEntryFree entry s) := by
  unfold execCleatEntryFree
  refine OutInv.clocked ?_ ?_
  · exact h
  · refine OutInv.ends reelObserve_win ?_
    refine Inv.ite (Q := windowsOk) ?_ ?_
    · refine Inv.atMark (Q := windowsOk) advanceTo_win ?_ fun x0 h1 => ?_
      · exact h
      · exact freeCleat_win _ _ h1
    · exact h

/-! ### Machine/Params.lean -/

theorem commitArm_win (c : Cmd) (s : State) (h : windowsOk s) :
    ResInv windowsOk (commitArm c s) := by
  exact windowsOk.res (commitArm_keeps _ _) (by rfl) h

theorem commitDrop_win (c : Cmd) (s : State) (h : windowsOk s) :
    ResInv windowsOk (commitDrop c s) := by
  exact windowsOk.res (commitDrop_keeps _ _) (by rfl) h

theorem commitGroupBody_win (c : Cmd) (s : State) (h : windowsOk s) :
    ResInv windowsOk (commitGroupBody c s) := by
  exact windowsOk.res (commitGroupBody_keeps _ _) (by rfl) h

theorem setShadow_win (s : State) (p : Port) (x : Shadow) (h : windowsOk s) :
    windowsOk (setShadow s p x) := by
  unfold setShadow
  refine windowsOk.upd (fun _ => by split <;> exact ⟨rfl, rfl, rfl, rfl⟩) ?_
  exact h

theorem strandRead_win (s : State) (n : Nat) (id : Nat) (t : Nat) (h : windowsOk s) :
    windowsOk (strandRead s n id t).2 := by
  unfold strandRead
  extract_lets y0
  clear_value y0
  dsimp only
  refine windowsOk.upd (fun _ => ⟨rfl, rfl, rfl, rfl⟩) ?_
  exact h

theorem readAs_win (s : State) (p : Port) (id : Nat) (t : Nat) (h : windowsOk s) :
    windowsOk (readAs s p id t).2 := by
  unfold readAs
  extract_lets y0
  clear_value y0
  dsimp only
  exact setShadow_win _ _ _ h

theorem readRun_win (p : Port) (t : Nat) (a : List Nat) (a' : State) (h : windowsOk a') :
    windowsOk (readRun p t a a').2 := by
  induction a generalizing a' with
  | nil => exact h
  | cons id l ih => exact ih _ (readAs_win _ _ _ _ h)

theorem getBlockBody_win (c : Cmd) (s : State) (h : windowsOk s) :
    ResInv windowsOk (getBlockBody c s) := by
  unfold getBlockBody
  extract_lets y0
  refine Inv.cut (Q := windowsOk) (s := y0.2) ?_ fun h30 => ?_
  · unfold y0
    exact readRun_win _ _ _ _ h
  clear_value y0
  refine ResInv.ite ?_ ?_
  · exact ResInv.ok h
  · exact ResInv.ok h30

theorem getParamBody_win (c : Cmd) (s : State) (h : windowsOk s) :
    ResInv windowsOk (getParamBody c s) := by
  unfold getParamBody
  extract_lets y0 y1 y2
  clear_value y0 y1
  refine Inv.cut (Q := windowsOk) (s := y2.2) ?_ fun h30 => ?_
  · unfold y2
    exact readAs_win _ _ _ _ h
  clear_value y2
  split
  · trivial
  · refine ResInv.ite ?_ ?_
    · exact ResInv.ok h30
    · split
      · exact ResInv.ok h30
      · exact ResInv.ok h30

theorem execCommitGroup_win (c : Cmd) (s : State) (h : windowsOk s) :
    OutInv windowsOk (execCommitGroup c s) := by
  unfold execCommitGroup
  refine OutInv.ends reelObserve_win ?_
  refine Inv.runCmd (Q := windowsOk) goodPacket_win answer_win ?_ fun x0 _ h1 => ?_
  · exact h
  · exact commitGroupBody_win _ _ h1

theorem execCommitGroupDiscard_win (c : Cmd) (s : State) (h : windowsOk s) :
    OutInv windowsOk (execCommitGroupDiscard c s) := by
  unfold execCommitGroupDiscard
  extract_lets y0
  clear_value y0
  refine OutInv.ends reelObserve_win ?_
  refine Inv.runCmd (Q := windowsOk) goodPacket_win answer_win ?_ fun x30 _ h31 => ?_
  · exact h
  · exact commitGroupBody_win _ _ h31

theorem execGetBlock_win (c : Cmd) (s : State) (h : windowsOk s) :
    OutInv windowsOk (execGetBlock c s) := by
  unfold execGetBlock
  refine OutInv.ends reelObserve_win ?_
  refine Inv.runCmd (Q := windowsOk) goodPacket_win answer_win ?_ fun x0 _ h1 => ?_
  · exact h
  · exact getBlockBody_win _ _ h1

theorem execGetParam_win (c : Cmd) (s : State) (h : windowsOk s) :
    OutInv windowsOk (execGetParam c s) := by
  unfold execGetParam
  refine OutInv.ends reelObserve_win ?_
  refine Inv.runCmd (Q := windowsOk) goodPacket_win answer_win ?_ fun x0 _ h1 => ?_
  · exact h
  · exact getParamBody_win _ _ h1

theorem afterSet_win (s : State) (id : Nat) (t : Nat) (old : Word) (h : windowsOk s) :
    windowsOk (afterSet s id t old) := by
  unfold afterSet
  refine Inv.ite (Q := windowsOk) ?_ ?_
  · exact windowsOk.keep (chopForceSet_keeps _ _) (by rfl) h
  · refine Inv.ite (Q := windowsOk) ?_ ?_
    · exact windowsOk.keep (chopModeSet_keeps _ _) (by rfl) h
    · refine Inv.ite (Q := windowsOk) ?_ ?_
      · exact windowsOk.keep (updLine_keeps _ _ _) (by rfl) h
      · refine Inv.ite (Q := windowsOk) ?_ ?_
        · exact windowsOk.keep (adcKick_keeps _ _) (by rfl) h
        · refine Inv.ite (Q := windowsOk) ?_ ?_
          · exact windowsOk.keep (adcKick_keeps _ _) (by rfl) h
          · refine Inv.ite (Q := windowsOk) ?_ ?_
            · exact encModeSet_win _ _ _ h
            · refine Inv.ite (Q := windowsOk) ?_ ?_
              · exact windowsOk.keep (limReleases_keeps _ _) (by rfl) h
              · refine Inv.ite (Q := windowsOk) ?_ ?_
                · exact illegalWatch_win _ _ h
                · refine Inv.ite (Q := windowsOk) ?_ ?_
                  · refine Inv.ite (Q := windowsOk) ?_ ?_
                    · exact windowsOk.keep (updEnc_keeps _ _ _) (by rfl) h
                    · exact h
                  · refine Inv.ite (Q := windowsOk) ?_ ?_
                    · exact windowsOk.keep (decCfgSet_keeps _ _) (by rfl) h
                    · refine Inv.ite (Q := windowsOk) ?_ ?_
                      · exact cleatWatch_win _ h
                      · refine Inv.ite (Q := windowsOk) ?_ ?_
                        · exact cleatWatch_win _ h
                        · refine Inv.ite (Q := windowsOk) ?_ ?_
                          · exact ledgerWatch_win _ h
                          · refine Inv.ite (Q := windowsOk) ?_ ?_
                            · refine Inv.foldl (Q := windowsOk) ?_ fun x0 a1 h2 => ?_
                              · exact h
                              · refine Inv.ite (Q := windowsOk) ?_ ?_
                                · exact windowsOk.keep (queueOwn_keeps _ _) (by rfl) h2
                                · exact h2
                            · refine Inv.ite (Q := windowsOk) ?_ ?_
                              · exact windowsOk.keep (traceCtrl_keeps _ _ _) (by rfl) h
                              · refine Inv.ite (Q := windowsOk) ?_ ?_
                                · exact windowsOk.keep (tallyWatch_keeps _) (by rfl) h
                                · refine Inv.ite (Q := windowsOk) ?_ ?_
                                  · refine Inv.ite (Q := windowsOk) ?_ ?_
                                    · exact windowsOk.keep (dupEnter_keeps _) (by rfl) h
                                    · exact h
                                  · refine Inv.ite (Q := windowsOk) ?_ ?_
                                    · exact laneEnSet_win _ h
                                    · exact h

theorem setWord_win (s : State) (id : Nat) (t : Nat) (w : Word) (h : windowsOk s) :
    windowsOk (setWord s id t w) := by
  unfold setWord
  split
  · exact h
  · split
    · exact windowsOk.keep (clearSet_keeps _ _ _ _) (by rfl) h
    · exact windowsOk.keep (writeAct_keeps _ _ _ _) (by rfl) h
    · refine Inv.ite (Q := windowsOk) ?_ ?_
      · exact windowsOk.keep (stageW_keeps _ _ _ _) (by rfl) h
      · refine windowsOk.keep (tallyTouch_keeps _ _) (by rfl) ?_
        exact afterSet_win _ _ _ _ (windowsOk.keep (putP_keeps _ _ _ _) (by rfl) h)
    · exact h

theorem setParamBody_win (c : Cmd) (s : State) (h : windowsOk s) :
    ResInv windowsOk (setParamBody c s) := by
  unfold setParamBody
  extract_lets y0 y1
  clear_value y0 y1
  exact ResInv.check (ResInv.done (setWord_win _ _ _ _ h))

theorem setRun_win (t : Nat) (a : List (Nat × Word)) (a' : State) (h : windowsOk a') :
    SumInv windowsOk (setRun t a a') := by
  induction a generalizing a' with
  | nil => exact h
  | cons x l ih =>
    unfold setRun
    split
    · trivial
    · exact ih _ (setWord_win _ _ _ _ h)

theorem setBlockBody_win (c : Cmd) (s : State) (h : windowsOk s) :
    ResInv windowsOk (setBlockBody c s) := by
  unfold setBlockBody
  extract_lets num data
  refine ResInv.ite ?_ ?_
  · exact ResInv.ite trivial (ResInv.ite trivial ((windowsOk.keep (tableWrite_keeps _ _ _ _) (by rfl) h)))
  · have k := setRun_win (tgt c) ((runIds c).zip data) s h
    revert k
    cases setRun (tgt c) ((runIds c).zip data) s with
    | inl e => exact fun _ => trivial
    | inr t => exact fun k => k

theorem setParam_win (c : Cmd) (s : State) (h : windowsOk s) :
    windowsOk (setParam c s) := by
  unfold setParam
  refine Inv.runCmd (Q := windowsOk) goodPacket_win answer_win ?_ fun x0 _ h1 => ?_
  · exact h
  · exact setParamBody_win _ _ h1

theorem execAdcPtStart_win (c : Cmd) (s : State) (h : windowsOk s) :
    OutInv windowsOk (execAdcPtStart c s) := by
  unfold execAdcPtStart
  exact OutInv.ends reelObserve_win (setParam_win _ _ h)

theorem execChopForce_win (c : Cmd) (s : State) (h : windowsOk s) :
    OutInv windowsOk (execChopForce c s) := by
  unfold execChopForce
  exact OutInv.ends reelObserve_win (setParam_win _ _ h)

theorem execChopMode_win (c : Cmd) (s : State) (h : windowsOk s) :
    OutInv windowsOk (execChopMode c s) := by
  unfold execChopMode
  exact OutInv.ends reelObserve_win (setParam_win _ _ h)

theorem execCltExclude_win (c : Cmd) (s : State) (h : windowsOk s) :
    OutInv windowsOk (execCltExclude c s) := by
  unfold execCltExclude
  exact OutInv.ends reelObserve_win (setParam_win _ _ h)

theorem execDecCfg_win (c : Cmd) (s : State) (h : windowsOk s) :
    OutInv windowsOk (execDecCfg c s) := by
  unfold execDecCfg
  exact OutInv.ends reelObserve_win (setParam_win _ _ h)

theorem execDiscMtAbort_win (c : Cmd) (s : State) (h : windowsOk s) :
    OutInv windowsOk (execDiscMtAbort c s) := by
  unfold execDiscMtAbort
  exact OutInv.ends reelObserve_win (setParam_win _ _ h)

theorem execDiscMtStart_win (c : Cmd) (s : State) (h : windowsOk s) :
    OutInv windowsOk (execDiscMtStart c s) := by
  unfold execDiscMtStart
  exact OutInv.ends reelObserve_win (setParam_win _ _ h)

theorem execEncLatchCfg_win (c : Cmd) (s : State) (h : windowsOk s) :
    OutInv windowsOk (execEncLatchCfg c s) := by
  unfold execEncLatchCfg
  exact OutInv.ends reelObserve_win (setParam_win _ _ h)

theorem execEncPreset_win (c : Cmd) (s : State) (h : windowsOk s) :
    OutInv windowsOk (execEncPreset c s) := by
  unfold execEncPreset
  exact OutInv.ends reelObserve_win (setParam_win _ _ h)

theorem execFltErrHold_win (c : Cmd) (s : State) (h : windowsOk s) :
    OutInv windowsOk (execFltErrHold c s) := by
  unfold execFltErrHold
  exact OutInv.ends reelObserve_win (setParam_win _ _ h)

theorem execFrmHubHoldMax_win (c : Cmd) (s : State) (h : windowsOk s) :
    OutInv windowsOk (execFrmHubHoldMax c s) := by
  unfold execFrmHubHoldMax
  exact OutInv.ends reelObserve_win (setParam_win _ _ h)

theorem execPwrLaneEn_win (c : Cmd) (s : State) (h : windowsOk s) :
    OutInv windowsOk (execPwrLaneEn c s) := by
  unfold execPwrLaneEn
  exact OutInv.ends reelObserve_win (setParam_win _ _ h)

theorem execSetBlock_win (c : Cmd) (s : State) (h : windowsOk s) :
    OutInv windowsOk (execSetBlock c s) := by
  unfold execSetBlock
  refine OutInv.ends reelObserve_win ?_
  refine Inv.runCmd (Q := windowsOk) goodPacket_win answer_win ?_ fun x0 _ h1 => ?_
  · exact h
  · exact setBlockBody_win _ _ h1

theorem execSetParam_win (c : Cmd) (s : State) (h : windowsOk s) :
    OutInv windowsOk (execSetParam c s) := by
  unfold execSetParam
  exact OutInv.ends reelObserve_win (setParam_win _ _ h)

theorem execStrTraceCtrl_win (c : Cmd) (s : State) (h : windowsOk s) :
    OutInv windowsOk (execStrTraceCtrl c s) := by
  unfold execStrTraceCtrl
  exact OutInv.ends reelObserve_win (setParam_win _ _ h)

theorem execTallyExpectAct_win (c : Cmd) (s : State) (h : windowsOk s) :
    OutInv windowsOk (execTallyExpectAct c s) := by
  unfold execTallyExpectAct
  exact OutInv.ends reelObserve_win (setParam_win _ _ h)

theorem execTallyOldClear_win (c : Cmd) (s : State) (h : windowsOk s) :
    OutInv windowsOk (execTallyOldClear c s) := by
  unfold execTallyOldClear
  exact OutInv.ends reelObserve_win (setParam_win _ _ h)

theorem execTbusForce_win (c : Cmd) (s : State) (h : windowsOk s) :
    OutInv windowsOk (execTbusForce c s) := by
  unfold execTbusForce
  exact OutInv.ends reelObserve_win (setParam_win _ _ h)

theorem execTrajPreset_win (c : Cmd) (s : State) (h : windowsOk s) :
    OutInv windowsOk (execTrajPreset c s) := by
  unfold execTrajPreset
  exact OutInv.ends reelObserve_win (setParam_win _ _ h)

/-! ### Machine/Power.lean -/

theorem wake_win (s : State) (h : windowsOk s) :
    windowsOk (wake s) := by
  exact windowsOk.zero rfl rfl rfl rfl

theorem execDormantEntry_win (s : State) (h : windowsOk s) :
    OutInv windowsOk (execDormantEntry s) := by
  unfold execDormantEntry
  refine OutInv.ends reelObserve_win ?_
  split
  · refine Inv.ite (Q := windowsOk) (wake_win _ ?_) ?_ <;> exact (windowsOk.zero rfl rfl rfl rfl)
  · exact h

theorem execPorstAssert_win (supervisor : Bool) (s : State) (h : windowsOk s) :
    OutInv windowsOk (execPorstAssert supervisor s) := by
  unfold execPorstAssert
  exact OutInv.ends reelObserve_win (windowsOk.zero rfl rfl rfl rfl)

theorem execPorstRelease_win (testmode : Bool) (s : State) (h : windowsOk s) :
    OutInv windowsOk (execPorstRelease testmode s) := by
  unfold execPorstRelease
  extract_lets y0 y1
  clear_value y0
  refine Inv.cut (Q := windowsOk) (s := y1) ?_ fun h30 => ?_
  · unfold y1
    exact windowsOk.keep (putN_keeps _ _ _ _) (by rfl) h
  clear_value y1
  refine OutInv.ends reelObserve_win ?_
  refine Inv.ite (Q := windowsOk) ?_ ?_
  · exact windowsOk.keep (updPwr_keeps _ _) (by rfl) h30
  · exact h

theorem execWakeNLow_win (testmode : Bool) (s : State) (h : windowsOk s) :
    OutInv windowsOk (execWakeNLow testmode s) := by
  unfold execWakeNLow
  refine OutInv.ends reelObserve_win ?_
  split
  · exact wake_win _ (windowsOk.keep (updPwr_keeps _ _) (by rfl) h)
  · exact windowsOk.keep (updPwr_keeps _ _) (by rfl) h
  · exact h

theorem execXtalFail_win (s : State) (h : windowsOk s) :
    OutInv windowsOk (execXtalFail s) := by
  unfold execXtalFail
  refine OutInv.ends reelObserve_win ?_
  refine Inv.ite (Q := windowsOk) ?_ ?_
  · exact windowsOk.keep (orP_keeps _ _ _ _) (by rfl) (windowsOk.keep (updPwr_keeps _ _) (by rfl) h)
  · exact h

theorem execXtalSwitch_win (s : State) (h : windowsOk s) :
    OutInv windowsOk (execXtalSwitch s) := by
  unfold execXtalSwitch
  refine OutInv.ends reelObserve_win ?_
  refine Inv.ite (Q := windowsOk) ?_ ?_
  · exact h
  · exact windowsOk.keep (updPwr_keeps _ _) (by rfl) h

theorem execCorePllLoss_win (s : State) (h : windowsOk s) :
    OutInv windowsOk (execCorePllLoss s) := by
  unfold execCorePllLoss
  extract_lets y0 y1
  refine Inv.cut (Q := windowsOk) (s := y0) ?_ fun h30 => ?_
  · unfold y0
    exact windowsOk.keep (orP_keeps _ _ _ _) (by rfl) (windowsOk.keep (updPwr_keeps _ _) (by rfl) h)
  clear_value y0
  refine Inv.cut (Q := windowsOk) (s := y1) ?_ fun h31 => ?_
  · unfold y1
    exact internalFail_win _ _ (windowsOk.keep (updBelay_keeps _ _) (by rfl) h30)
  clear_value y1
  refine OutInv.ends reelObserve_win ?_
  refine Inv.ite (Q := windowsOk) ?_ ?_
  · exact h
  · split
    · exact windowsOk.keep (updPwr_keeps _ _) (by rfl) h31
    · exact windowsOk.keep (updPwr_keeps _ _) (by rfl) h31

theorem endPllOps_win (s : State) (h : windowsOk s) :
    windowsOk (endPllOps s) := by
  unfold endPllOps
  refine Inv.foldl (Q := windowsOk) ?_ fun x0 a1 h2 => ?_
  · exact h
  · exact endRunOp_win _ _ h2

theorem lanePllLost_win (s : State) (l : Nat) (h : windowsOk s) :
    windowsOk (lanePllLost s l) := by
  unfold lanePllLost
  split
  · split
    · exact lockLost_win _ _ _ (windowsOk.same (s := s) rfl rfl rfl rfl h)
    · exact lockLost_win _ _ _ h
  · exact bringupFail_win _ _ _ _ h
  · exact bringupFail_win _ _ _ _ h
  · exact h

theorem execLanePllLoss_win (quad : Fin 4) (s : State) (h : windowsOk s) :
    OutInv windowsOk (execLanePllLoss quad s) := by
  unfold execLanePllLoss
  extract_lets y0
  refine Inv.cut (Q := windowsOk) (s := y0) ?_ fun h30 => ?_
  · unfold y0
    exact windowsOk.keep (updPwr_keeps _ _) (by rfl) h
  clear_value y0
  refine OutInv.clocked ?_ ?_
  · exact h
  · refine OutInv.ends reelObserve_win ?_
    refine Inv.ite (Q := windowsOk) ?_ ?_
    · refine Inv.foldl (Q := windowsOk) ?_ fun x31 a32 h33 => ?_
      · exact windowsOk.keep (orP_keeps _ _ _ _) (by rfl) h30
      · exact lanePllLost_win _ _ h33
    · exact h

theorem execDispatchTestDone_win (pass : Bool) (strandsBad : BitVec 4) (s : State) (h : windowsOk s) :
    OutInv windowsOk (execDispatchTestDone pass strandsBad s) := by
  unfold execDispatchTestDone
  refine OutInv.clocked ?_ ?_
  · exact h
  · refine OutInv.ends reelObserve_win ?_
    split
    · extract_lets y90 y91
      refine Inv.cut (Q := windowsOk) (s := y90) ?_ fun h120 => ?_
      · unfold y90
        exact windowsOk.keep (advanceTo_keeps _ _) (by rfl) h
      clear_value y90
      refine Inv.cut (Q := windowsOk) (s := y91) ?_ fun h121 => ?_
      · unfold y91
        exact windowsOk.keep (orP_keeps _ _ _ _) (by rfl) h120
      clear_value y91
      refine Inv.ite (Q := windowsOk) ?_ ?_
      · exact enterRun_win _ h121
      · refine powerFail_win _ ?_
        exact windowsOk.keep (updPwr_keeps _ _) (by rfl) (windowsOk.keep (domains_keeps _ _ _) (by rfl) h121)
    · exact h

theorem execRunToReady_win (s : State) (h : windowsOk s) :
    OutInv windowsOk (execRunToReady s) := by
  unfold execRunToReady
  refine OutInv.clocked ?_ ?_
  · exact h
  · refine OutInv.ends reelObserve_win ?_
    split
    · exact nextMark_win _ _ _ h
    · exact h

theorem runReady_win (s : State) (h : windowsOk s) :
    windowsOk (runReady s) := by
  unfold runReady
  refine Inv.ite (Q := windowsOk) ?_ ?_
  · refine Inv.ite (Q := windowsOk) ?_ ?_
    · exact enterRun_win _ h
    · exact windowsOk.keep (updPwr_keeps _ _) (by rfl) h
  · exact h

theorem execLanePllLock_win (quad : Fin 4) (s : State) (h : windowsOk s) :
    OutInv windowsOk (execLanePllLock quad s) := by
  unfold execLanePllLock
  refine OutInv.ends reelObserve_win ?_
  refine Inv.ite (Q := windowsOk) ?_ ?_
  · exact runReady_win _ (windowsOk.keep (updPwr_keeps _ _) (by rfl) h)
  · exact h

theorem powerGo_win (s : State) (h : windowsOk s) :
    windowsOk (powerGo s) := by
  unfold powerGo
  exact runReady_win _ (powerNext_win _ h)

theorem powerStateBody_win (c : Cmd) (s : State) (h : windowsOk s) :
    ResInv windowsOk (powerStateBody c s) := by
  unfold powerStateBody
  extract_lets y0
  clear_value y0
  refine ResInv.check ?_
  refine ResInv.accepted ?_ fun x90 h91 => ?_
  · exact windowsOk.keep (startOp_keeps _ _ _ _ _) (by rfl) h
  · extract_lets y92
    refine Inv.cut (Q := windowsOk) (s := y92) ?_ fun h122 => ?_
    · unfold y92
      exact windowsOk.keep (updPwr_keeps _ _) (by rfl) h91
    clear_value y92
    refine Inv.ite (Q := windowsOk) ?_ ?_
    · exact h122
    · exact powerGo_win _ (windowsOk.keep (updPwr_keeps _ _) (by rfl) h122)

theorem relock_win (s : State) (h : windowsOk s) :
    windowsOk (relock s) := by
  unfold relock
  extract_lets y0 y1 y2
  refine Inv.cut (Q := windowsOk) (s := y0) ?_ fun h30 => ?_
  · unfold y0
    exact windowsOk.keep (updPwr_keeps _ _) (by rfl) h
  clear_value y0
  refine Inv.cut (Q := windowsOk) (s := y1) ?_ fun h31 => ?_
  · unfold y1
    exact endPllOps_win _ h30
  clear_value y1
  refine Inv.cut (Q := windowsOk) (s := y2) ?_ fun h32 => ?_
  · unfold y2
    refine Inv.ite (Q := windowsOk) ?_ ?_
    · exact leaveRun_win _ h31
    · exact windowsOk.keep (updPwr_keeps _ _) (by rfl) (windowsOk.keep (domains_keeps _ _ _) (by rfl) h31)
  clear_value y2
  split
  · exact windowsOk.keep (updPwr_keeps _ _) (by rfl) h32
  · refine Inv.ite (Q := windowsOk) ?_ ?_
    · exact completeErr_win _ _ _ (windowsOk.keep (updPwr_keeps _ _) (by rfl) h32)
    · exact powerGo_win _ h32

theorem execBistDone_win (sram : Bool) (rom : Bool) (belayClock : Bool) (tripBack : Bool) (strandsBad : BitVec 4) (s
      : State) (h : windowsOk s) :
    OutInv windowsOk (execBistDone sram rom belayClock tripBack strandsBad s) := by
  unfold execBistDone
  refine OutInv.ends reelObserve_win ?_
  split
  · extract_lets y60 y61 y62 y63 y64
    refine Inv.cut (Q := windowsOk) (s := y60) ?_ fun h90 => ?_
    · unfold y60
      exact windowsOk.keep (advanceTo_keeps _ _) (by rfl) h
    clear_value y60
    refine Inv.cut (Q := windowsOk) (s := y61) ?_ fun h91 => ?_
    · unfold y61
      exact windowsOk.keep (putN_keeps _ _ _ _) (by rfl) h90
    clear_value y61
    refine Inv.cut (Q := windowsOk) (s := y62) ?_ fun h92 => ?_
    · unfold y62
      refine Inv.foldl (Q := windowsOk) ?_ fun x93 a94 h95 => ?_
      · exact h91
      · exact windowsOk.keep (updStrand_keeps _ _ _) (by rfl) h95
    clear_value y62
    refine Inv.cut (Q := windowsOk) (s := y63) ?_ fun h96 => ?_
    · unfold y63
      exact windowsOk.keep (updPwr_keeps _ _) (by rfl) h92
    clear_value y63
    exact powerGo_win _ (windowsOk.same (s := y63) rfl rfl rfl rfl h96)
  · exact h

theorem execCorePllLock_win (s : State) (h : windowsOk s) :
    OutInv windowsOk (execCorePllLock s) := by
  unfold execCorePllLock
  refine OutInv.ends reelObserve_win ?_
  split
  · exact windowsOk.keep (updPwr_keeps _ _) (by rfl) h
  · exact relock_win _ h
  · exact h

theorem execListenEntry_win (wakeLow : Bool) (s : State) (h : windowsOk s) :
    OutInv windowsOk (execListenEntry wakeLow s) := by
  unfold execListenEntry
  refine OutInv.ends reelObserve_win ?_
  split
  · extract_lets y60 y61
    refine Inv.cut (Q := windowsOk) (s := y60) ?_ fun h90 => ?_
    · unfold y60
      exact windowsOk.keep (advanceTo_keeps _ _) (by rfl) h
    clear_value y60
    refine Inv.cut (Q := windowsOk) (s := y61) ?_ fun h91 => ?_
    · unfold y61
      exact windowsOk.keep (updPwr_keeps _ _) (by rfl) h90
    clear_value y61
    refine Inv.ite (Q := windowsOk) ?_ ?_
    · exact powerGo_win _ (windowsOk.keep (updPwr_keeps _ _) (by rfl) h91)
    · exact h91
  · exact h

theorem execPowerState_win (c : Cmd) (s : State) (h : windowsOk s) :
    OutInv windowsOk (execPowerState c s) := by
  unfold execPowerState
  refine OutInv.ends reelObserve_win ?_
  refine Inv.runCmd (Q := windowsOk) goodPacket_win answer_win ?_ fun x0 _ h1 => ?_
  · exact h
  · exact powerStateBody_win _ _ h1

/-! ### Machine/Reel.lean -/

theorem reelArmBody_win (c : Cmd) (s : State) (h : windowsOk s) :
    ResInv windowsOk (reelArmBody c s) := by
  exact windowsOk.res (reelArmBody_keeps _ _) (by rfl) h

theorem reelReadBody_win (c : Cmd) (s : State) (h : windowsOk s) :
    ResInv windowsOk (reelReadBody c s) := by
  exact windowsOk.res (reelReadBody_keeps _ _) (by rfl) h

theorem tbusTrigger_win (n : Nat) (s : State) (h : windowsOk s) :
    windowsOk (tbusTrigger n s) := by
  unfold tbusTrigger
  split
  · refine Inv.ite (Q := windowsOk) ?_ ?_
    · exact reelTrigger_win _ _ _ h
    · exact h
  · exact h

theorem reelStopBody_win (a : Cmd) (s : State) (h : windowsOk s) :
    ResInv windowsOk (reelStopBody a s) := by
  unfold reelStopBody
  refine ResInv.ite ?_ ?_
  · exact ResInv.done (reelStop_win _ _ (reelSync_win _ h))
  · exact ResInv.ok h

theorem execReelArm_win (c : Cmd) (s : State) (h : windowsOk s) :
    OutInv windowsOk (execReelArm c s) := by
  unfold execReelArm
  refine OutInv.ends reelObserve_win ?_
  refine Inv.runCmd (Q := windowsOk) goodPacket_win answer_win ?_ fun x0 _ h1 => ?_
  · exact h
  · exact reelArmBody_win _ _ h1

theorem execReelPostEnd_win (s : State) (h : windowsOk s) :
    OutInv windowsOk (execReelPostEnd s) := by
  unfold execReelPostEnd
  refine OutInv.clocked ?_ ?_
  · exact h
  · refine OutInv.ends reelObserve_win ?_
    split
    · refine Inv.ite (Q := windowsOk) ?_ ?_
      · exact h
      · refine Inv.ite (Q := windowsOk) ?_ ?_
        · exact reelStop_win _ _ (reelSync_win _ (windowsOk.keep (advanceTo_keeps _ _) (by rfl) h))
        · refine Inv.ite (Q := windowsOk) ?_ ?_
          · exact reelStop_win _ _ h
          · exact h
    · exact h

theorem execReelRead_win (c : Cmd) (s : State) (h : windowsOk s) :
    OutInv windowsOk (execReelRead c s) := by
  unfold execReelRead
  refine OutInv.ends reelObserve_win ?_
  refine Inv.runCmd (Q := windowsOk) goodPacket_win answer_win ?_ fun x0 _ h1 => ?_
  · exact h
  · exact reelReadBody_win _ _ h1

theorem execReelStop_win (c : Cmd) (s : State) (h : windowsOk s) :
    OutInv windowsOk (execReelStop c s) := by
  unfold execReelStop
  refine OutInv.ends reelObserve_win ?_
  refine Inv.runCmd (Q := windowsOk) goodPacket_win answer_win ?_ fun x0 _ h1 => ?_
  · exact h
  · exact reelStopBody_win _ _ h1

theorem execTbusFall_win (line : Fin 4) (s : State) (h : windowsOk s) :
    OutInv windowsOk (execTbusFall line s) := by
  unfold execTbusFall
  extract_lets y0
  refine Inv.cut (Q := windowsOk) (s := y0) ?_ fun h30 => ?_
  · unfold y0
    split
    · exact windowsOk.keep (advanceTo_keeps _ _) (by rfl) h
    · exact h
  clear_value y0
  refine OutInv.clocked ?_ ?_
  · exact h
  · refine OutInv.ends reelObserve_win ?_
    refine Inv.ite (Q := windowsOk) ?_ ?_
    · exact h
    · refine Inv.reelObserveWith (Q := windowsOk) reelSync_win reelBefore_win linesSeen_win linesDone_win ?_ fun x31
        h32 => ?_
      · exact windowsOk.keep (tbusFallen_keeps _ _) (by rfl) h30
      · exact tbusTrigger_win _ _ h32

theorem execTbusPulseEnd_win (line : Fin 4) (s : State) (h : windowsOk s) :
    OutInv windowsOk (execTbusPulseEnd line s) := by
  unfold execTbusPulseEnd
  refine OutInv.clocked ?_ ?_
  · exact h
  · refine OutInv.ends reelObserve_win ?_
    split
    · exact windowsOk.keep (updLine_keeps _ _ _) (by rfl) (windowsOk.keep (advanceTo_keeps _ _) (by rfl) h)
    · exact h

theorem execTbusRisingEdge_win (line : Fin 4) (s : State) (h : windowsOk s) :
    OutInv windowsOk (execTbusRisingEdge line s) := by
  unfold execTbusRisingEdge
  extract_lets y0
  refine Inv.cut (Q := windowsOk) (s := y0) ?_ fun h30 => ?_
  · unfold y0
    split
    · exact windowsOk.keep (advanceTo_keeps _ _) (by rfl) h
    · exact h
  clear_value y0
  refine OutInv.clocked ?_ ?_
  · exact h
  · refine OutInv.ends reelObserve_win ?_
    refine Inv.ite (Q := windowsOk) ?_ ?_
    · exact windowsOk.keep (updLine_keeps _ _ _) (by rfl) h30
    · exact h

theorem execTickWrap_win (s : State) (h : windowsOk s) :
    OutInv windowsOk (execTickWrap s) := by
  unfold execTickWrap
  extract_lets y0
  clear_value y0
  refine OutInv.clocked ?_ ?_
  · exact h
  · refine OutInv.ends reelObserve_win ?_
    split
    · extract_lets y120
      refine Inv.cut (Q := windowsOk) (s := y120) ?_ fun h150 => ?_
      · unfold y120
        exact reelSync_win _ (windowsOk.keep (advanceTo_keeps _ _) (by rfl) h)
      clear_value y120
      exact windowsOk.keep (reelForm_keeps _ _) (by rfl) (windowsOk.keep (updReel_keeps _ _) (by rfl) h150)
    · exact h

theorem execTriggerUnitTimeout_win (unit : Fin 4) (s : State) (h : windowsOk s) :
    OutInv windowsOk (execTriggerUnitTimeout unit s) := by
  unfold execTriggerUnitTimeout
  extract_lets y0 y1 y2
  clear_value y0 y1 y2
  refine OutInv.clocked ?_ ?_
  · exact h
  · refine OutInv.ends reelObserve_win ?_
    split
    · extract_lets y120
      refine Inv.cut (Q := windowsOk) (s := y120) ?_ fun h150 => ?_
      · unfold y120
        exact reelSync_win _ (windowsOk.keep (advanceTo_keeps _ _) (by rfl) h)
      clear_value y120
      refine Inv.ite (Q := windowsOk) ?_ ?_
      · exact reelTrigger_win _ _ _ h150
      · exact h
    · exact h

/-! ### Machine/Time.lean -/

theorem timeReadBody_win (a : Cmd) (s : State) (h : windowsOk s) :
    ResInv windowsOk (timeReadBody a s) := by
  exact windowsOk.res (timeReadBody_keeps _ _) (by rfl) h

theorem servoLock_win (s : State) (h : windowsOk s) :
    windowsOk (servoLock s) := by
  unfold servoLock
  refine Inv.ite (Q := windowsOk) ?_ ?_
  · refine windowsOk.keep (causeGone_keeps _ _ _) (by rfl) ?_
    exact timeEvent_win _ _ (windowsOk.keep (updTime_keeps _ _) (by rfl) h)
  · exact h

theorem servoUpdate_win (s : State) (o : Int) (h : windowsOk s) :
    windowsOk (servoUpdate s o) := by
  unfold servoUpdate
  extract_lets y0 y1 y2 y3 y4 y5
  clear_value y0 y1 y2 y3 y4
  refine Inv.cut (Q := windowsOk) (s := y5) ?_ fun h30 => ?_
  · unfold y5
    exact windowsOk.keep (updTime_keeps _ _) (by rfl) h
  clear_value y5
  refine Inv.ite (Q := windowsOk) ?_ ?_
  · exact h30
  · exact timeEvent_win _ _ h30

theorem execTimeRead_win (c : Cmd) (s : State) (h : windowsOk s) :
    OutInv windowsOk (execTimeRead c s) := by
  unfold execTimeRead
  refine OutInv.ends reelObserve_win ?_
  refine Inv.runCmd (Q := windowsOk) goodPacket_win answer_win ?_ fun x0 _ h1 => ?_
  · exact h
  · exact timeReadBody_win _ _ h1

theorem servoUnlock_win (s : State) (st : Servo) (h : windowsOk s) :
    windowsOk (servoUnlock s st) := by
  unfold servoUnlock
  extract_lets y0 y1
  clear_value y0
  refine Inv.cut (Q := windowsOk) (s := y1) ?_ fun h30 => ?_
  · unfold y1
    exact windowsOk.keep (updTime_keeps _ _) (by rfl) h
  clear_value y1
  refine Inv.ite (Q := windowsOk) ?_ ?_
  · exact raiseFault_win _ _ _ (timeEvent_win _ _ h30)
  · exact h30

theorem timeSet_win (s : State) (h : windowsOk s) :
    windowsOk (timeSet s) := by
  unfold timeSet
  extract_lets y0
  refine Inv.cut (Q := windowsOk) (s := y0) ?_ fun h30 => ?_
  · unfold y0
    exact servoUnlock_win _ _ (timeEvent_win _ _ h)
  clear_value y0
  exact reelStep_win _ (windowsOk.keep (updTime_keeps _ _) (by rfl) h30)

theorem execTimeHoldoverExpiry_win (s : State) (h : windowsOk s) :
    OutInv windowsOk (execTimeHoldoverExpiry s) := by
  unfold execTimeHoldoverExpiry
  refine OutInv.clocked ?_ ?_
  · exact h
  · split
    · exact OutInv.ends reelObserve_win h
    · extract_lets y60
      refine Inv.cut (Q := windowsOk) (s := y60) ?_ fun h90 => ?_
      · unfold y60
        exact servoUnlock_win _ _ (windowsOk.keep (advanceTo_keeps _ _) (by rfl) h)
      clear_value y60
      exact OutInv.ends reelObserve_win (windowsOk.keep (updTime_keeps _ _) (by rfl) h90)

theorem servoFollow_win (s : State) (o : Int) (h : windowsOk s) :
    windowsOk (servoFollow s o) := by
  unfold servoFollow
  extract_lets y0 y1 y2 y3 y4
  clear_value y0 y1 y4
  refine Inv.cut (Q := windowsOk) (s := y2) ?_ fun h30 => ?_
  · unfold y2
    exact windowsOk.keep (updTime_keeps _ _) (by rfl) h
  clear_value y2
  refine Inv.cut (Q := windowsOk) (s := y3) ?_ fun h31 => ?_
  · unfold y3
    refine Inv.ite (Q := windowsOk) ?_ ?_
    · exact h30
    · exact servoLock_win _ (servoUnlock_win _ _ h30)
  clear_value y3
  exact windowsOk.keep (updTime_keeps _ _) (by rfl) h31

theorem stepBy_win (s : State) (d : Int) (h : windowsOk s) :
    windowsOk (stepBy s d) := by
  unfold stepBy
  extract_lets y0
  exact timeSet_win _ (windowsOk.same (s := s) rfl rfl rfl rfl h)

theorem stepTo_win (s : State) (d : Nat) (h : windowsOk s) :
    windowsOk (stepTo s d) := by
  unfold stepTo
  exact timeSet_win _ (windowsOk.keep (updTime_keeps _ _) (by rfl) h)

theorem timeOffsetBody_win (c : Cmd) (s : State) (h : windowsOk s) :
    ResInv windowsOk (timeOffsetBody c s) := by
  unfold timeOffsetBody
  extract_lets y0 y1 y2
  clear_value y0 y2
  refine Inv.cut (Q := windowsOk) (s := y1) ?_ fun h30 => ?_
  · unfold y1
    exact windowsOk.keep (updTime_keeps _ _) (by rfl) (windowsOk.keep (put64_keeps _ _ _ _ _) (by rfl) h)
  clear_value y1
  refine ResInv.ite ?_ ?_
  · exact ResInv.done (stepBy_win _ _ h30)
  · exact ResInv.done (servoFollow_win _ _ (servoUpdate_win _ _ h30))

theorem timeStepBody_win (c : Cmd) (s : State) (h : windowsOk s) :
    ResInv windowsOk (timeStepBody c s) := by
  unfold timeStepBody
  exact ResInv.check (ResInv.done (stepTo_win _ _ h))

theorem execTimeOffset_win (c : Cmd) (s : State) (h : windowsOk s) :
    OutInv windowsOk (execTimeOffset c s) := by
  unfold execTimeOffset
  refine OutInv.ends reelObserve_win ?_
  refine Inv.runCmd (Q := windowsOk) goodPacket_win answer_win ?_ fun x0 _ h1 => ?_
  · exact h
  · exact timeOffsetBody_win _ _ h1

theorem execTimeStep_win (c : Cmd) (s : State) (h : windowsOk s) :
    OutInv windowsOk (execTimeStep c s) := by
  unfold execTimeStep
  refine OutInv.ends reelObserve_win ?_
  refine Inv.runCmd (Q := windowsOk) goodPacket_win answer_win ?_ fun x0 _ h1 => ?_
  · exact h
  · exact timeStepBody_win _ _ h1

/-! ### Machine/Transport.lean -/

theorem busPut_win (s : State) (ws : List Word) (h : windowsOk s) :
    windowsOk (busPut s ws) := by
  unfold busPut
  refine windowsOk.upd (fun _ => ⟨rfl, rfl, rfl, rfl⟩) ?_
  exact h

theorem pingBody_win (c : Cmd) (s : State) (h : windowsOk s) :
    ResInv windowsOk (pingBody c s) := by
  exact windowsOk.res (pingBody_keeps _ _) (by rfl) h

theorem readReply_win (s : State) (words : Nat) (h : windowsOk s) :
    windowsOk (readReply s words) := by
  unfold readReply
  extract_lets y0
  clear_value y0
  split
  · exact busPut_win _ _ h
  · extract_lets y60
    refine Inv.cut (Q := windowsOk) (s := y60) ?_ fun h90 => ?_
    · unfold y60
      exact busPut_win _ _ (windowsOk.same (s := s) rfl rfl rfl rfl h)
    clear_value y60
    refine Inv.ite (Q := windowsOk) ?_ ?_
    · refine windowsOk.upd (fun _ => ⟨rfl, rfl, rfl, rfl⟩) ?_
      exact h90
    · exact h90

theorem tailWrite_win (s : State) (v : Word) (h : windowsOk s) :
    windowsOk (tailWrite s v) := by
  unfold tailWrite
  split
  · rename_i ht
    unfold tailOk at ht
    simp only [Bool.and_eq_true, decide_eq_true_eq] at ht
    exact ⟨ht.1.2, h.2⟩
  · exact windowsOk.keep (dropWrite_keeps _) rfl h

theorem writePacket_win (s : State) (words : List Word) (h : windowsOk s) :
    windowsOk (writePacket s words) := by
  unfold writePacket
  refine Inv.ite (Q := windowsOk) ?_ ?_
  · refine windowsOk.upd (fun _ => ⟨rfl, rfl, rfl, rfl⟩) ?_
    exact h
  · exact windowsOk.keep (incP_keeps _ _ _) (by rfl) h

theorem headWrite_win (s : State) (v : Word) (h : windowsOk s) :
    windowsOk (headWrite s v) := by
  unfold headWrite
  dsimp only
  split
  · rename_i ht
    simp only [Bool.and_eq_true, decide_eq_true_eq] at ht
    exact flushHeld_win _ _ ⟨h.1, (Nat.le_trans ht.2 h.2)⟩
  · exact windowsOk.keep (dropWrite_keeps _) rfl h

theorem mirrorRead_win (s : State) (id : Nat) (h : windowsOk s) :
    windowsOk (mirrorRead s id).2 := by
  unfold mirrorRead
  extract_lets y0
  clear_value y0
  split
  · exact readAs_win _ _ _ _ h
  · dsimp only
    exact setShadow_win _ _ _ h

theorem mirrorWide.mirrorTwo_win (s : State) (id : Nat) (h : windowsOk s) :
    windowsOk (mirrorWide.mirrorTwo s id).2 := by
  unfold mirrorWide.mirrorTwo
  extract_lets y0 y1
  refine Inv.cut (Q := windowsOk) (s := y0.2) ?_ fun h30 => ?_
  · unfold y0
    exact mirrorRead_win _ _ h
  clear_value y0
  refine Inv.cut (Q := windowsOk) (s := y1.2) ?_ fun h31 => ?_
  · unfold y1
    exact mirrorRead_win _ _ h30
  clear_value y1
  dsimp only
  exact h31

theorem refusePkt_win (s : State) (ws : List Word) (p : Port) (e : CmdErr) (h : windowsOk s) :
    windowsOk (refusePkt s ws p e) := by
  unfold refusePkt
  extract_lets y0
  clear_value y0
  exact sendReply_win _ _ _ _ h

theorem spiTransaction_win (s : State) (a : List Nat) (h : windowsOk s) :
    windowsOk (spiTransaction s a) := by
  unfold spiTransaction
  split
  · exact h
  · split
    · refine Inv.ite (Q := windowsOk) ?_ ?_
      · exact writePacket_win _ _ h
      · exact windowsOk.keep (incP_keeps _ _ _) (by rfl) h
    · exact readReply_win _ _ h
    · exact busPut_win _ _ h
    · exact h

theorem bar2Write_win (s : State) (o : Nat) (v : Word) (h : windowsOk s) :
    windowsOk (bar2Write s o v) := by
  unfold bar2Write
  refine Inv.ite (Q := windowsOk) (windowsOk.upd (fun _ => ⟨rfl, rfl, rfl,
        rfl⟩) h) (Inv.ite (Q := windowsOk) (tailWrite_win _ _ h)
    (Inv.ite (Q := windowsOk) (headWrite_win _ _ h) (Inv.ite (Q := windowsOk) (windowsOk.keep (clearSet_keeps _ _ _
        _) rfl h)
      (Inv.ite (Q := windowsOk) (windowsOk.keep (putP_keeps _ _ _ _) rfl h)
        (Inv.ite (Q := windowsOk) (windowsOk.upd (fun _ => msixPut_same _ _ _) h) (windowsOk.keep (dropWrite_keeps _)
            rfl h))))))

theorem mirrorWide_win (s : State) (id : Nat) (h : windowsOk s) :
    windowsOk (mirrorWide s id).2 := by
  unfold mirrorWide
  extract_lets y0
  clear_value y0
  split
  · split
    · dsimp only
      exact setShadow_win _ _ _ h
    · exact mirrorWide.mirrorTwo_win _ _ h
  · exact mirrorWide.mirrorTwo_win _ _ h

theorem overLong_win (s : State) (ws : List Word) (p : Port) (h : windowsOk s) :
    windowsOk (overLong s ws p) := by
  unfold overLong
  dsimp only
  refine refusePkt_win _ _ _ _ ?_
  cases p with
  | pcie => exact ⟨by simp [cmdWords, updHost], h.2⟩
  | spi => exact windowsOk.upd (fun _ => ⟨rfl, rfl, rfl, rfl⟩) h

theorem execBar0Read_win (offset : BitVec 18) (wide : Bool) (s : State) (h : windowsOk s) :
    OutInv windowsOk (execBar0Read offset wide s) := by
  unfold execBar0Read
  extract_lets y0 y1 y2 y3
  clear_value y0
  refine Inv.cut (Q := windowsOk) (s := y1.2) ?_ fun h30 => ?_
  · unfold y1
    exact mirrorRead_win _ _ h
  clear_value y1
  refine Inv.cut (Q := windowsOk) (s := y2.2) ?_ fun h31 => ?_
  · unfold y2
    exact mirrorWide_win _ _ h
  clear_value y2
  refine Inv.cut (Q := windowsOk) (s := y3.2) ?_ fun h32 => ?_
  · unfold y3
    exact mirrorRead_win _ _ h30
  clear_value y3
  refine OutInv.ends reelObserve_win ?_
  refine Inv.ite (Q := windowsOk) ?_ ?_
  · exact h
  · refine Inv.ite (Q := windowsOk) ?_ ?_
    · exact busPut_win _ _ h30
    · refine Inv.ite (Q := windowsOk) ?_ ?_
      · exact busPut_win _ _ h31
      · exact busPut_win _ _ h32

theorem execBar0Write_win (offset : BitVec 18) (value : Word) (s : State) (h : windowsOk s) :
    OutInv windowsOk (execBar0Write offset value s) := by
  unfold execBar0Write
  refine OutInv.ends reelObserve_win ?_
  refine Inv.ite (Q := windowsOk) ?_ ?_
  · exact windowsOk.keep (dropWrite_keeps _) (by rfl) h
  · exact h

theorem execBar2RoWrite_win (offset : BitVec 14) (value : Word) (s : State) (h : windowsOk s) :
    OutInv windowsOk (execBar2RoWrite offset value s) := by
  unfold execBar2RoWrite
  refine OutInv.ends reelObserve_win ?_
  refine Inv.ite (Q := windowsOk) ?_ ?_
  · exact bar2Write_win _ _ _ h
  · exact h

theorem execCmdTailWrite_win (words : List Word) (value : Word) (s : State) (h : windowsOk s) :
    OutInv windowsOk (execCmdTailWrite words value s) := by
  unfold execCmdTailWrite
  refine OutInv.ends reelObserve_win (Inv.ite (Q := windowsOk) ?_ h)
  exact tailWrite_win _ _ (windowsOk.upd (fun _ => ⟨rfl, rfl, rfl, rfl⟩) h)

theorem execIrqCauseWrite_win (value : Word) (s : State) (h : windowsOk s) :
    OutInv windowsOk (execIrqCauseWrite value s) := by
  unfold execIrqCauseWrite
  refine OutInv.ends reelObserve_win ?_
  refine Inv.ite (Q := windowsOk) ?_ ?_
  · exact windowsOk.keep (clearSet_keeps _ _ _ _) (by rfl) h
  · exact h

theorem execMsiEnableWrite_win (value : Word) (s : State) (h : windowsOk s) :
    OutInv windowsOk (execMsiEnableWrite value s) := by
  unfold execMsiEnableWrite
  refine OutInv.ends reelObserve_win ?_
  refine Inv.ite (Q := windowsOk) ?_ ?_
  · exact windowsOk.keep (putP_keeps _ _ _ _) (by rfl) h
  · exact h

theorem execPcieLinkDown_win (s : State) (h : windowsOk s) :
    OutInv windowsOk (execPcieLinkDown s) := by
  unfold execPcieLinkDown
  refine OutInv.ends reelObserve_win ?_
  refine windowsOk.upd (fun _ => ⟨rfl, rfl, rfl, rfl⟩) ?_
  exact h

theorem execPcieReset_win (s : State) (h : windowsOk s) :
    OutInv windowsOk (execPcieReset s) := by
  unfold execPcieReset
  refine OutInv.ends reelObserve_win (Inv.ite (Q := windowsOk) ?_ h)
  exact ⟨by simp [cmdWords, updHost], by simp [rplWords, updHost]⟩

theorem execPing_win (c : Cmd) (s : State) (h : windowsOk s) :
    OutInv windowsOk (execPing c s) := by
  unfold execPing
  refine OutInv.ends reelObserve_win ?_
  refine Inv.runCmd (Q := windowsOk) goodPacket_win answer_win ?_ fun x0 _ h1 => ?_
  · exact h
  · exact pingBody_win _ _ h1

theorem execRplHeadWrite_win (value : Word) (s : State) (h : windowsOk s) :
    OutInv windowsOk (execRplHeadWrite value s) := by
  unfold execRplHeadWrite
  refine OutInv.ends reelObserve_win ?_
  refine Inv.ite (Q := windowsOk) ?_ ?_
  · exact headWrite_win _ _ h
  · exact h

theorem spiRun_win (s : State) (bytes : List Nat) (h : windowsOk s) :
    OutInv windowsOk (spiRun s bytes) := by
  unfold spiRun
  refine OutInv.ends reelObserve_win ?_
  refine Inv.ite (Q := windowsOk) ?_ ?_
  · exact spiTransaction_win _ _ h
  · exact h

theorem execReadReply_win (words : Nat) (s : State) (h : windowsOk s) :
    OutInv windowsOk (execReadReply words s) := by
  unfold execReadReply
  exact spiRun_win _ _ h

theorem execReadStatus_win (s : State) (h : windowsOk s) :
    OutInv windowsOk (execReadStatus s) := by
  unfold execReadStatus
  exact spiRun_win _ _ h

theorem execWritePacket_win (words : List Word) (s : State) (h : windowsOk s) :
    OutInv windowsOk (execWritePacket words s) := by
  unfold execWritePacket
  exact spiRun_win _ _ h

theorem execHostSilent_win (s : State) (h : windowsOk s) :
    OutInv windowsOk (execHostSilent s) := by
  unfold execHostSilent
  extract_lets y0
  refine Inv.cut (Q := windowsOk) (s := y0) ?_ fun h30 => ?_
  · unfold y0
    exact windowsOk.keep (advanceTo_keeps _ _) (by rfl) h
  clear_value y0
  refine OutInv.clocked ?_ ?_
  · exact h
  · refine OutInv.ends reelObserve_win ?_
    refine Inv.ite (Q := windowsOk) ?_ ?_
    · refine Inv.ite (Q := windowsOk) ?_ ?_
      · exact h30
      · exact raiseFault_win _ _ _ h30
    · exact h

theorem rowA_win (c : Cmd) (op : Nat) (r : CmdRow) (h : rowA c op = some r) (s : State)
    (_hc : commonErr r.sp r.own c s = none) (q : windowsOk s) : ResInv windowsOk (r.body c s) := by
  unfold rowA at h
  split at h
  · exact Option.some.inj h ▸ pingBody_win c s q
  · exact Option.some.inj h ▸ getParamBody_win c s q
  · exact Option.some.inj h ▸ setParamBody_win c s q
  · exact Option.some.inj h ▸ commitGroupBody_win c s q
  · exact Option.some.inj h ▸ getBlockBody_win c s q
  · exact Option.some.inj h ▸ setBlockBody_win c s q
  · exact Option.some.inj h ▸ discoverBody_win c s q
  · exact Option.some.inj h ▸ readIdentityBody_win c s q
  · exact Option.some.inj h ▸ placeBody_win c s q
  · exact Option.some.inj h ▸ cellConfigBody_win c s q
  · exact Option.some.inj h ▸ tallyReportBody_win c s q
  · exact absurd h (by simp)

theorem rowB_win (c : Cmd) (op : Nat) (r : CmdRow) (h : rowB op = some r) (s : State)
    (_hc : commonErr r.sp r.own c s = none) (q : windowsOk s) : ResInv windowsOk (r.body c s) := by
  unfold rowB at h
  split at h
  · exact Option.some.inj h ▸ laneBringupBody_win c s q
  · exact Option.some.inj h ▸ laneRetireBody_win c s q
  · exact Option.some.inj h ▸ laneLoopBody_win c s q
  · exact Option.some.inj h ▸ eyeScanBody_win c s q
  · exact Option.some.inj h ▸ armEnableBody_win c s q
  · exact Option.some.inj h ▸ deblockBody_win c s q
  · exact Option.some.inj h ▸ blockBody_win c s q
  · exact Option.some.inj h ▸ cleatAddBody_win c s q
  · exact Option.some.inj h ▸ cleatReleaseBody_win c s q
  · exact Option.some.inj h ▸ maintAdmitBody_win c s q
  · exact Option.some.inj h ▸ maintEndBody_win c s q
  · exact Option.some.inj h ▸ cellRetireBody_win c s q
  · exact Option.some.inj h ▸ loopModeBody_win c s q
  · exact Option.some.inj h ▸ trajQueueBody_win c s q
  · exact Option.some.inj h ▸ trajFlushBody_win c s q
  · exact absurd h (by simp)

theorem rowC_win (c : Cmd) (op : Nat) (r : CmdRow) (h : rowC c op = some r) (s : State)
    (_hc : commonErr r.sp r.own c s = none) (q : windowsOk s) : ResInv windowsOk (r.body c s) := by
  unfold rowC at h
  split at h
  · exact Option.some.inj h ▸ adcCalBody_win _ _ c s q
  · exact Option.some.inj h ▸ adcCalBody_win _ _ c s q
  · exact Option.some.inj h ▸ adcInjectBody_win c s q
  · exact Option.some.inj h ▸ decSyncBody_win c s q
  · exact Option.some.inj h ▸ homeStartBody_win c s q
  · exact Option.some.inj h ▸ homeAbortBody_win c s q
  · exact Option.some.inj h ▸ cmpSelftestBody_win c s q
  · exact Option.some.inj h ▸ faultReadBody_win c s q
  · exact Option.some.inj h ▸ faultClearBody_win c s q
  · exact Option.some.inj h ▸ faultAckBody_win c s q
  · exact Option.some.inj h ▸ faultInjectBody_win c s q
  · exact Option.some.inj h ▸ safetyUnlockBody_win c s q
  · exact Option.some.inj h ▸ safetyWriteBody_win c s q
  · exact Option.some.inj h ▸ safetyLogReadBody_win c s q
  · exact Option.some.inj h ▸ safetyLockBody_win c s q
  · exact absurd h (by simp)

theorem rowD_win (c : Cmd) (op : Nat) (r : CmdRow) (h : rowD op = some r) (s : State)
    (_hc : commonErr r.sp r.own c s = none) (q : windowsOk s) : ResInv windowsOk (r.body c s) := by
  unfold rowD at h
  split at h
  · exact Option.some.inj h ▸ takeoverBody_win c s q
  · exact Option.some.inj h ▸ switchbackBody_win c s q
  · exact Option.some.inj h ▸ reelArmBody_win c s q
  · exact Option.some.inj h ▸ reelReadBody_win c s q
  · exact Option.some.inj h ▸ reelStopBody_win c s q
  · exact Option.some.inj h ▸ timeOffsetBody_win c s q
  · exact Option.some.inj h ▸ timeStepBody_win c s q
  · exact Option.some.inj h ▸ timeReadBody_win c s q
  · exact Option.some.inj h ▸ powerStateBody_win c s q
  · exact Option.some.inj h ▸ traceReadBody_win c s q
  · exact Option.some.inj h ▸ fwPatchBody_win c s q
  · exact Option.some.inj h ▸ factoryUnlockBody_win c s q
  · exact absurd h (by simp)

theorem cmdRow?_win (c : Cmd) (op : Nat) (r : CmdRow) (h : cmdRow? op c = some r) (s : State)
    (hc : commonErr r.sp r.own c s = none) (q : windowsOk s) : ResInv windowsOk (r.body c s) := by
  unfold cmdRow? at h
  cases h1 : rowA c op with
  | some x => exact rowA_win c op r (by rw [h1] at h; exact h1.trans (by simpa using h)) s hc q
  | none =>
    cases h2 : rowB op with
    | some x => exact rowB_win c op r (by rw [h1, h2] at h; exact h2.trans (by simpa using h)) s hc q
    | none =>
      cases h3 : rowC c op with
      | some x => exact rowC_win c op r (by rw [h1, h2, h3] at h; exact h3.trans (by simpa using h)) s hc q
      | none => exact rowD_win c op r (by rw [h1, h2, h3] at h; simpa using h) s hc q

theorem execPkt_win (s : State) (ws : List Word) (c : Cmd) (h : windowsOk s) :
    windowsOk (execPkt s ws c) := by
  unfold execPkt
  dsimp only
  split
  · exact (answer_win _ _ _ _ _ _ (goodPacket_win _ _ _ h))
  · rename_i r _ hr
    exact Inv.interpret (Q := windowsOk) goodPacket_win answer_win h fun x hc q => cmdRow?_win _ _ r hr x hc q
  · exact h

theorem checkPkt_win (s : State) (ws : List Word) (p : Port) (h : windowsOk s) :
    windowsOk (checkPkt s ws p) := by
  unfold checkPkt
  extract_lets y0 y1
  clear_value y0 y1
  refine Inv.ite (Q := windowsOk) ?_ ?_
  · exact refusePkt_win _ _ _ _ (windowsOk.keep (incP_keeps _ _ _) (by rfl) h)
  · split
    · exact execPkt_win _ _ _ h
    · refine Inv.ite (Q := windowsOk) ?_ ?_
      · exact execPkt_win _ _ _ h
      · refine Inv.ite (Q := windowsOk) ?_ ?_
        · exact sendReply_win _ _ _ _ (goodPacket_win _ _ _ h)
        · exact refusePkt_win _ _ _ _ (windowsOk.keep (incP_keeps _ _ _) (by rfl) h)

theorem takePacket_win (s : State) (p : Port) (h : windowsOk s) :
    windowsOk (takePacket s p) := by
  unfold takePacket
  dsimp only
  split
  · exact h
  · split
    · exact overLong_win _ _ _ h
    · split
      · exact h
      · rename_i hn
        refine checkPkt_win _ _ _ (consume_win s p _ ?_ h)
        intro e
        subst e
        have hl : (packetWords s .pcie).length = cmdWords s.host := by simp [packetWords, cmdWords]
        omega

theorem execPacketTake_win (port : Port) (s : State) (h : windowsOk s) :
    OutInv windowsOk (execPacketTake port s) := by
  unfold execPacketTake
  exact OutInv.ends reelObserve_win (takePacket_win _ _ h)

/-! ### Machine/Dispatch.lean -/

theorem exec_win (i : Instr) (s : State) (h : windowsOk s) :
    OutInv windowsOk (exec i s) := by
  unfold exec
  split
  · exact execPing_win _ _ h
  · exact execGetParam_win _ _ h
  · exact execSetParam_win _ _ h
  · exact execCommitGroup_win _ _ h
  · exact execCommitGroupDiscard_win _ _ h
  · exact execGetBlock_win _ _ h
  · exact execSetBlock_win _ _ h
  · exact execDiscover_win _ _ h
  · exact execDiscoverDone_win _ _ _ h
  · exact execReadIdentity_win _ _ h
  · exact execReadIdentityDone_win _ _ _ h
  · exact execPlace_win _ _ h
  · exact execPlaceDone_win _ h
  · exact execCellConfig_win _ _ h
  · exact execCellConfigDone_win _ h
  · exact execTallyReport_win _ _ h
  · exact execLaneBringup_win _ _ h
  · exact execLaneRetire_win _ _ h
  · exact execLaneLoop_win _ _ h
  · exact execLaneLoopEndMode0_win _ _ h
  · exact execLaneLoopEnd_win _ _ _ _ _ _ h
  · exact execEyeScan_win _ _ h
  · exact execEyeScanDone_win _ _ h
  · exact execArmEnable_win _ _ h
  · exact execDeblock_win _ _ h
  · exact execBlock_win _ _ h
  · exact execCleatAdd_win _ _ h
  · exact execCleatRelease_win _ _ h
  · exact execMaintAdmit_win _ _ h
  · exact execMaintEnd_win _ _ h
  · exact execCellRetire_win _ _ h
  · exact execCellRetireTimeout_win _ _ h
  · exact execLoopMode_win _ _ h
  · exact execTrajQueue_win _ _ h
  · exact execTrajFlush_win _ _ h
  · exact execAdcCalZero_win _ _ h
  · exact execAdcCalFull_win _ _ h
  · exact execAdcCalZeroDone_win _ _ h
  · exact execAdcCalFullDone_win _ _ h
  · exact execAdcInject_win _ _ h
  · exact execDecSync_win _ _ h
  · exact execHomeStart_win _ _ h
  · exact execHomeAbort_win _ _ h
  · exact execHomingDone_win _ _ h
  · exact execCmpSelftest_win _ _ h
  · exact execCmpSelftestDone_win _ _ _ h
  · exact execFaultRead_win _ _ h
  · exact execFaultClear_win _ _ h
  · exact execFaultAck_win _ _ h
  · exact execFaultInject_win _ _ h
  · exact execSafetyUnlock_win _ _ h
  · exact execSafetyWrite_win _ _ h
  · exact execSafetyLogRead_win _ _ h
  · exact execSafetyLock_win _ _ h
  · exact execTakeover_win _ _ h
  · exact execSwitchback_win _ _ h
  · exact execReelArm_win _ _ h
  · exact execReelRead_win _ _ h
  · exact execReelStop_win _ _ h
  · exact execTimeOffset_win _ _ h
  · exact execTimeStep_win _ _ h
  · exact execTimeRead_win _ _ h
  · exact execPowerState_win _ _ h
  · exact execTraceRead_win _ _ h
  · exact execFwPatch_win _ _ h
  · exact execFwPatchDone_win _ h
  · exact execFactoryUnlock_win _ _ h
  · exact execPacketTake_win _ _ h
  · exact execWritePacket_win _ _ h
  · exact execReadReply_win _ _ h
  · exact execReadStatus_win _ h
  · exact execCmdTailWrite_win _ _ _ h
  · exact execRplHeadWrite_win _ _ h
  · exact execIrqCauseWrite_win _ _ h
  · exact execMsiEnableWrite_win _ _ h
  · exact execBar0Write_win _ _ _ h
  · exact execBar2RoWrite_win _ _ _ h
  · exact execPcieReset_win _ h
  · exact execPcieLinkDown_win _ h
  · exact execHostSilent_win _ h
  · exact execTrajPreset_win _ _ h
  · exact execEncPreset_win _ _ h
  · exact execEncLatchCfg_win _ _ h
  · exact execDiscMtStart_win _ _ h
  · exact execDiscMtAbort_win _ _ h
  · exact execMtWindowEnd_win _ h
  · exact execTallyExpectAct_win _ _ h
  · exact execTallyOldClear_win _ _ h
  · exact execTallyPersistExpiry_win _ _ h
  · exact execCltExclude_win _ _ h
  · exact execAdcPtStart_win _ _ h
  · exact execPathTestDone_win _ h
  · exact execDecCfg_win _ _ h
  · exact execTbusForce_win _ _ h
  · exact execChopMode_win _ _ h
  · exact execChopForce_win _ _ h
  · exact execPwrLaneEn_win _ _ h
  · exact execFrmHubHoldMax_win _ _ h
  · exact execStrTraceCtrl_win _ _ h
  · exact execFltErrHold_win _ _ h
  · exact execPeriodMark_win _ _ _ h
  · exact execDispatchResume_win _ h
  · exact execResumeTimeout_win _ h
  · exact execTakeoverWindowEnd_win _ h
  · exact execPeerHeartbeat_win _ _ _ h
  · exact execPeerDataFrame_win _ _ h
  · exact execUpstreamFrame_win _ _ h
  · exact execUpstreamFrameDeadline_win _ _ h
  · exact execCellSilenceSuspect_win _ _ h
  · exact execCleatRetryWindowEnd_win _ _ h
  · exact execCleatEntryFree_win _ _ h
  · exact execActivityFree_win _ _ h
  · exact execPermConfirmTimeout_win _ _ h
  · exact execPermBypassRetry_win _ _ h
  · exact execTaskPlace_win _ h
  · exact execTaskComplete_win _ _ h
  · exact execTaskDeadline_win _ _ h
  · exact execTaskWatchdog_win _ _ h
  · exact execStrandSramError_win _ _ _ h
  · exact execDetectDone_win _ _ _ h
  · exact execTrainDone_win _ _ _ _ h
  · exact execLockDone_win _ _ _ h
  · exact execCapsDone_win _ _ _ _ _ _ _ h
  · exact execBringupStageTimeout_win _ _ h
  · exact execLossOfLock_win _ _ _ _ h
  · exact execRebringupRetry_win _ _ h
  · exact execRetryWindowEnd_win _ _ h
  · exact execLaneErrorWindowEnd_win _ _ h
  · exact execGraceExpiry_win _ _ h
  · exact execErrPulseEnd_win _ h
  · exact execBelaySample_win _ _ _ _ _ _ _ h
  · exact execTestPulseStart_win _ _ h
  · exact execTestPulseEnd_win _ _ h
  · exact execSrstStuck_win _ h
  · exact execHeartbeatTimeout_win _ h
  · exact execFdcStaleTimeout_win _ _ h
  · exact execBelayClockCheck_win _ _ h
  · exact execBelayReset_win _ _ _ h
  · exact execBelayResetRelease_win _ _ _ h
  · exact execSafetySessionTimeout_win _ h
  · exact execUnlockBackoffEnd_win _ h
  · exact execChopCycleStart_win _ _ _ h
  · exact execChopGateEdge_win _ _ _ _ h
  · exact execChopTripRecognised_win _ _ h
  · exact execChopTripReleased_win _ _ h
  · exact execChopBlankingEnd_win _ _ h
  · exact execChopScConfirm_win _ _ _ h
  · exact execChopScWindowEnd_win _ _ h
  · exact execGateSupplyNotOk_win _ _ _ h
  · exact execGateSupplyOk_win _ _ _ h
  · exact execAdcSequenceTrigger_win _ _ _ h
  · exact execAdcConversionEnd_win _ _ _ h
  · exact execDecSlot_win _ _ _ h
  · exact execDecStuck_win _ _ h
  · exact execDsyncFall_win _ h
  · exact execEncTransition_win _ _ _ _ _ _ h
  · exact execEncIllegalWindowEnd_win _ _ h
  · exact execEncLimitTrip_win _ _ _ _ h
  · exact execEncHomeActive_win _ _ _ h
  · exact execTimeHoldoverExpiry_win _ h
  · exact execTbusFall_win _ _ h
  · exact execTbusPulseEnd_win _ _ h
  · exact execReelPostEnd_win _ h
  · exact execPorstRelease_win _ _ h
  · exact execPorstAssert_win _ _ h
  · exact execListenEntry_win _ _ h
  · exact execWakeNLow_win _ _ h
  · exact execDormantEntry_win _ h
  · exact execXtalSwitch_win _ h
  · exact execXtalFail_win _ h
  · exact execCorePllLock_win _ h
  · exact execBistDone_win _ _ _ _ _ _ h
  · exact execLanePllLock_win _ _ h
  · exact execDispatchTestDone_win _ _ _ h
  · exact execRunToReady_win _ h
  · exact execCorePllLoss_win _ h
  · exact execLanePllLoss_win _ _ h
  · exact execEncLimitInactive_win _ _ _ _ h
  · exact execTbusRisingEdge_win _ _ h
  · exact execTriggerUnitTimeout_win _ _ h
  · exact execTickWrap_win _ h
  · exact execBar0Read_win _ _ _ h
  · exact execBelaySramError_win _ h

/-! ### Safety.lean -/

theorem arrived_win (s : State) (c : Cmd) (h : windowsOk s) :
    windowsOk (arrived s c) := by
  unfold arrived
  exact goodPacket_win _ _ _ h

theorem rowFrom_win (id : Nat) (c : Cmd) (s : State) (h : windowsOk s) :
    windowsOk (rowFrom id c s) := by
  unfold rowFrom
  exact arrived_win _ _ h

end Sys2Proof.Machine
end

