-- ==== Sys2Proof/Machine/Pins.lean ====
section
/-! DEFINITION. The balls of the package and the data that bind the integrator (R499 to R517): where each ball lies, what
the controller drives on it in a state, supplies, ratings and timing as tables. Nothing here changes the state. -/

namespace Sys2Proof.Machine

/-! ### The ball grid (R499, R500) -/

/-- The 34 rows in their order (R499). -/
def ballRows : List String :=
  ["A", "B", "C", "D", "E", "F", "G", "H", "J", "K", "L", "M", "N", "P", "T", "U", "V", "W", "Y",
   "AA", "AB", "AC", "AD", "AE", "AF", "AG", "AH", "AJ", "AK", "AL", "AM", "AN", "AP", "AT"]

/-- A ball: its row and its column, 1 to 34 (R499). -/
structure Ball where
  row : String
  col : Nat
  deriving DecidableEq, Repr

/-- Whether a ball lies in the array. -/
def Ball.inGrid (b : Ball) : Bool := ballRows.contains b.row && decide (1 ≤ b.col) && decide (b.col ≤ 34)

/-- The four balls of a lane pair. -/
inductive LaneBall where
  | txp | txn | rxp | rxn
  deriving DecidableEq, Repr

/-- The transmit and the receive row of a quad (R500). -/
def quadRows : Nat → String × String
  | 0 => ("A", "C")
  | 1 => ("E", "G")
  | 2 => ("AT", "AN")
  | _ => ("AL", "AJ")

/-- The shield rows of a quad: every ball of theirs is VSS (R500). -/
def shieldRows : Nat → List String
  | 0 => ["B", "D"]
  | 1 => ["F", "H"]
  | 2 => ["AP", "AM"]
  | _ => ["AK", "AH"]

/-- The ball of a cell lane (R500). -/
def laneBall (l : Fin 64) (b : LaneBall) : Ball :=
  let q := l.val / 16
  let k := l.val % 16
  match b with
  | .txp => ⟨(quadRows q).1, 2 + 2 * k⟩
  | .txn => ⟨(quadRows q).1, 3 + 2 * k⟩
  | .rxp => ⟨(quadRows q).2, 2 + 2 * k⟩
  | .rxn => ⟨(quadRows q).2, 3 + 2 * k⟩

/-! ### The other signal balls (R502) -/

/-- Direction of a ball (R502). -/
inductive BallDir where
  | input | output | openDrain | ioOpenDrain | analogue
  deriving DecidableEq, Repr

/-- Internal pull of a ball (R502). -/
inductive Pull where
  | none | up | down
  deriving DecidableEq, Repr

/-- A signal of R502: its ball, direction, power domain and pull. -/
structure Signal where
  name   : String
  ball   : Ball
  dir    : BallDir
  domain : Nat
  pull   : Pull
  deriving DecidableEq, Repr

/-- Signals of consecutive columns of a row. -/
def signalRun (row : String) (col : Nat) (dir : BallDir) (domain : Nat) (pull : Pull) (names : List String) :
    List Signal :=
  names.zipIdx.map (fun p => ⟨p.1, ⟨row, col + p.2⟩, dir, domain, pull⟩)

/-- Names with a running number. -/
def numbered (pre post : String) (from_ n : Nat) : List String :=
  (List.range n).map (fun i => pre ++ toString (from_ + i) ++ post)

/-- Host, clock and system signals (R502). -/
def hostSignals : List Signal :=
  signalRun "J" 1 .output 2 .none ((List.range 4).flatMap (fun i => ["PE_TX" ++ toString i ++ "P", "PE_TX" ++ toString i ++ "N"]))
  ++ signalRun "L" 1 .input 2 .none ((List.range 4).flatMap (fun i => ["PE_RX" ++ toString i ++ "P", "PE_RX" ++ toString i ++ "N"]))
  ++ signalRun "N" 1 .input 2 .none ["PE_REFCLK_P", "PE_REFCLK_N"]
  ++ signalRun "N" 3 .input 2 .up ["PE_PERST_N"]
  ++ signalRun "N" 4 .input 2 .none ["SPI_SCLK"]
  ++ signalRun "N" 5 .input 2 .up ["SPI_CS_N"]
  ++ signalRun "N" 6 .input 2 .none ["SPI_MOSI"]
  ++ signalRun "N" 7 .output 2 .none ["SPI_MISO"]
  ++ signalRun "N" 8 .openDrain 2 .none ["INT_N"]
  ++ signalRun "T" 1 .input 3 .none ["REFCLK"]
  ++ signalRun "T" 2 .analogue 0 .none ["XTAL32_IN", "XTAL32_OUT"]
  ++ signalRun "T" 4 .input 0 .none ["PORST_N"]
  ++ signalRun "T" 5 .input 0 .up ["WAKE_N"]
  ++ signalRun "T" 6 .input 0 .down ["TESTMODE"]
  ++ signalRun "T" 7 .openDrain 3 .none ["FEB_SCL"]
  ++ signalRun "T" 8 .ioOpenDrain 3 .none ["FEB_SDA"]
  ++ signalRun "V" 1 .openDrain 3 .none ["ERR_N"]
  ++ signalRun "V" 2 .ioOpenDrain 3 .none (numbered "TBUS" "" 0 4)
  ++ signalRun "V" 6 .input 3 .down (numbered "PULSE_IN" "" 0 2)
  ++ signalRun "V" 8 .input 11 .up ["DSYNC"]

/-- Machine, decimator and peer signals (R502). -/
def machineSignals : List Signal :=
  signalRun "AG" 1 .output 10 .none ["PEER0_TXP", "PEER0_TXN"]
  ++ signalRun "AG" 3 .input 10 .none ["PEER0_RXP", "PEER0_RXN"]
  ++ signalRun "AG" 5 .output 10 .none ["PEER1_TXP", "PEER1_TXN"]
  ++ signalRun "AG" 7 .input 10 .none ["PEER1_RXP", "PEER1_RXN"]
  ++ [("Y", "ENC0"), ("AA", "ENC1")].flatMap (fun p =>
    signalRun p.1 1 .input 3 .none [p.2 ++ "_A", p.2 ++ "_B", p.2 ++ "_Z"]
    ++ signalRun p.1 4 .input 3 .down [p.2 ++ "_LIMP", p.2 ++ "_LIMN"]
    ++ signalRun p.1 6 .input 3 .none [p.2 ++ "_HOME"])
  ++ (List.range 4).flatMap (fun q => signalRun "AB" (1 + q) .analogue (7 + q) .none ["LN_CAL" ++ toString q])
  ++ signalRun "AB" 5 .output 11 .none (numbered "BS_CLK" "" 0 4)
  ++ signalRun "AD" 1 .input 11 .down (numbered "BS" "" 0 8)
  ++ signalRun "AF" 1 .input 11 .down (numbered "BS" "" 8 8)

/-- Safety, chopper and analogue signals (R502). -/
def safetySignals : List Signal :=
  signalRun "J" 27 .input 1 .down ((List.range 4).flatMap (fun n => ["SI" ++ toString n ++ "A", "SI" ++ toString n ++ "B"]))
  ++ signalRun "L" 27 .input 1 .down
    ((List.range 4).flatMap (fun n => ["SI" ++ toString (n + 4) ++ "A", "SI" ++ toString (n + 4) ++ "B"]))
  ++ signalRun "N" 27 .output 1 .down (numbered "TP" "" 0 4)
  ++ signalRun "N" 31 .output 1 .none ["TRIP_A", "TRIP_B"]
  ++ signalRun "N" 33 .input 1 .up ["SRST_N"]
  ++ ["T", "V", "Y", "AB"].zipIdx.flatMap (fun p =>
    let ch := "CH" ++ toString p.2
    signalRun p.1 27 .output 11 .down [ch ++ "_GH", ch ++ "_GL"]
    ++ signalRun p.1 29 .input 11 .down [ch ++ "_TRIP_N", ch ++ "_GSOK_H", ch ++ "_GSOK_L"])
  ++ signalRun "AF" 27 .analogue 11 .none (numbered "CH" "_ISENSE" 0 4 ++ ["ADC_VREF", "ADC_VREFN"])
  ++ signalRun "AC" 27 .analogue 11 .none (numbered "AIN" "" 0 8)
  ++ signalRun "AE" 27 .analogue 11 .none (numbered "AIN" "" 8 8)
  ++ signalRun "AG" 27 .analogue 11 .none (numbered "AIN" "" 16 8)

/-- Every signal of R502. -/
def signals : List Signal := hostSignals ++ machineSignals ++ safetySignals

/-! ### What the controller drives (R400, R407, R439, R471, R501 to R503) -/

/-- What stands on an output ball. -/
inductive PinLevel where
  | low | high | released
  deriving DecidableEq, Repr

/-- Whether a power domain is on (R481). -/
def domainOn (s : State) (d : Nat) : Bool := bit s.pwr.domains.toNat d

/-- An open-drain ball of a domain. -/
def openDrain (s : State) (d : Nat) (low : Bool) : PinLevel := if domainOn s d && low then .low else .released

/-- `INT_N` (R41, R502). -/
def pinIntN (s : State) : PinLevel := openDrain s 2 (intLow s)

/-- `ERR_N` (R439, R502). -/
def pinErrN (s : State) : PinLevel := openDrain s 3 (errLow s)

/-- `TBUSn` as this controller drives it (R471, R502). -/
def pinTbus (s : State) (n : Fin 4) : PinLevel := openDrain s 3 (bit (tbusLevel s) (4 + n.val))

/-- `TRIP_A`: low when tripped (R400). Unpowered, the integrator's pull-down holds it. -/
def pinTripA (s : State) : PinLevel :=
  if !domainOn s 1 then .released else if s.belay.tripOut || s.belay.inReset then .low else .high

/-- `TRIP_B`: high when tripped (R400). -/
def pinTripB (s : State) : PinLevel :=
  if !domainOn s 1 then .released else if s.belay.tripOut || s.belay.inReset then .high else .low

/-- `TPk`: high where enabled but for its pulse (R407). -/
def pinTp (s : State) (k : Fin 4) : PinLevel :=
  if !domainOn s 1 || s.belay.inReset then .released
  else if bit (getN s P.SAFE_TP_EN 0) k && !bit s.belay.tpOn.toNat k then .high else .low

/-- `CHn_GH` and `CHn_GL` (R378, R382, R396, R503): high-impedance from the time PD11 turns on until the first write of
`CHOP_MODE` to the leg, from then on the level of the output under its polarity bit. -/
def pinGates (s : State) (n : Fin 4) : PinLevel × PinLevel :=
  if !domainOn s 11 || !(legOf s n).driven then (.released, .released)
  else
    let m := getN s P.CHOP_MODE n
    let drive := fun (on low : Bool) => if on != low then PinLevel.high else PinLevel.low
    (drive (legBalls s n).1 (bit m 4), drive (legBalls s n).2 (bit m 5))

/-- Whether a lane's transmitter sends (R241, R501): in electrical idle while its domain is off or the lane is not brought
up. -/
def pinLaneSends (s : State) (l : Nat) : Bool :=
  domainOn s (7 + min (l / 16) 3) && (laneOf s l).st != .down && (laneOf s l).st != .retired

/-! ### Supplies and ratings (R504 to R507) -/

/-- A supply of R504 and R507, in millivolts: its balls, absolute limits (R506), nominal value and operating range. -/
structure Supply where
  name   : String
  balls  : Nat
  absMin : Int
  absMax : Int
  nom    : Nat
  lo     : Nat
  hi     : Nat
  deriving DecidableEq, Repr

/-- The supplies (R504, R506, R507), with the range in tenths of a millivolt. -/
def supplies : List Supply :=
  [ ⟨"VDD_CORE", 144, -300, 950, 800, 7760, 8240⟩, ⟨"VDD_BELAY", 8, -300, 950, 800, 7760, 8240⟩,
    ⟨"VDD_LN", 48, -300, 1050, 900, 8730, 9270⟩, ⟨"VDD_PE", 8, -300, 1050, 900, 8730, 9270⟩,
    ⟨"VDDH_LN", 32, -300, 1400, 1200, 11400, 12600⟩, ⟨"VDD_AON", 4, -300, 2100, 1800, 17100, 18900⟩,
    ⟨"VDD_IO18", 8, -300, 2100, 1800, 17100, 18900⟩, ⟨"VDDA", 12, -300, 2100, 1800, 17460, 18540⟩,
    ⟨"VDD_IO33", 24, -300, 3900, 3300, 31350, 34650⟩ ]

/-- Balls of VSS, VSSA and DNC (R504). -/
def groundBalls : Nat × Nat × Nat := (428, 16, 11)

/-- Milliwatts an ACTIVE lane draws from `VDD_LN` and `VDDH_LN` by generation (R505). -/
def laneDraw : Nat → Nat × Nat
  | 1 => (16, 9)
  | 2 => (22, 13)
  | 3 => (35, 20)
  | _ => (0, 0)

/-- Milliwatts the lanes draw in a state (R483, R505): 4 for an idle lane whose domain is on. -/
def lanesDraw (s : State) : Nat :=
  sumNat ((List.range 66).map (fun l =>
    if !domainOn s (7 + min (l / 16) 3) then 0
    else if (laneOf s l).st == .active then (laneDraw (laneOf s l).gen).1 + (laneDraw (laneOf s l).gen).2
    else 4))

/-- A draw, as the manual gives it: a current in microamperes or a power in milliwatts. -/
inductive Draw where
  | microamps (n : Nat)
  | milliwatts (n : Nat)
  deriving DecidableEq, Repr

/-- Typical draw of a power state; that of RUN holds for 64 ACTIVE lanes at G3 and a period of 1 µs (R483, R504). -/
def stateDraw : Power → Draw
  | .dormant => .microamps 1
  | .listen => .microamps 3000
  | .ready => .milliwatts 900
  | .run => .milliwatts 8500

/-- The greatest draw of DORMANT, and of RUN with every lane at G3 (R483). -/
def maxDraw : Draw × Draw := (.microamps 4, .milliwatts 11800)

/-- Millivolts below which the `VDD_AON` supervisor resets, and its tolerance (R491, R508). -/
def aonSupervisor : Nat × Nat := (1550, 30)

/-- Junction temperature in tenths of a degree from ambient, draw in milliwatts and the path's milli-degrees per watt
(R516). -/
def junctionTemp (ambient draw path : Nat) : Nat := ambient + draw * path / 100000

/-! ### Electrical and timing data (R508 to R517) -/

/-- A row of a data table: what it bounds, its unit, and the bounds it has. -/
structure DataRow where
  item : String
  unit : String
  lo   : Option Int
  hi   : Option Int
  deriving DecidableEq, Repr

/-- Whether a measured value keeps to a row. -/
def DataRow.ok (r : DataRow) (x : Int) : Bool := (r.lo.all (fun a => decide (a ≤ x))) && (r.hi.all (fun b => decide (x ≤ b)))

/-- Supply ramps, balls and clocks (R508 to R510). -/
def dcData : List DataRow :=
  [ ⟨"supply ramp", "µs", some 100, some 10000⟩, ⟨"PORST_N low after the supplies are in range", "µs", some 1000, none⟩,
    ⟨"PORST_N low after a supply leaves its range", "µs", none, some 10⟩,
    ⟨"VIH of 3.3 V balls", "mV", some 2000, none⟩, ⟨"VIL of 3.3 V balls", "mV", none, some 800⟩,
    ⟨"VIH of 1.8 V balls", "1/1000 of the supply", some 650, none⟩, ⟨"VIL of 1.8 V balls", "1/1000 of the supply", none, some 350⟩,
    ⟨"hysteresis of 3.3 V balls", "mV", some 150, none⟩, ⟨"hysteresis of 1.8 V balls", "mV", some 100, none⟩,
    ⟨"VOH of 3.3 V balls at -8 mA", "mV", some 2400, none⟩, ⟨"VOL of 3.3 V balls at 8 mA", "mV", none, some 400⟩,
    ⟨"VOH of 1.8 V balls at -4 mA below the supply", "mV", none, some 450⟩, ⟨"VOL of 1.8 V balls at 4 mA", "mV", none, some 450⟩,
    ⟨"open-drain VOL at 24 mA", "mV", none, some 400⟩, ⟨"input leakage", "µA", some (-10), some 10⟩,
    ⟨"internal pull", "kΩ", some 35, some 65⟩, ⟨"lane receiver sensitivity", "mV", none, some 100⟩,
    ⟨"PE_REFCLK offset", "ppm", some (-300), some 300⟩, ⟨"REFCLK offset", "ppm", some (-50), some 50⟩,
    ⟨"REFCLK duty cycle", "%", some 40, some 60⟩, ⟨"REFCLK jitter", "ps", none, some 3⟩, ⟨"crystal ESR", "kΩ", none, some 70⟩,
    ⟨"ADC_VREF", "100 µV", some 24975, some 25025⟩, ⟨"source impedance of AIN", "Ω", none, some 200⟩,
    ⟨"INL", "LSB", some (-4), some 4⟩, ⟨"offset", "codes", some (-64), some 64⟩, ⟨"gain error", "1/1000", some (-5), some 5⟩,
    ⟨"comparator threshold", "mV", some (-10), some 10⟩ ]

/-- Timing of SPI, encoder, chopper and bus balls in tenths of a nanosecond (R512 to R515). -/
def timingData : List DataRow :=
  [ ⟨"SPI_SCLK period", "100 ps", some 200, none⟩, ⟨"SPI_SCLK high and low time", "100 ps", some 80, none⟩,
    ⟨"SPI_CS_N low to first rising edge", "100 ps", some 100, none⟩, ⟨"last rising edge to SPI_CS_N high", "100 ps", some 100, none⟩,
    ⟨"SPI_CS_N high between transactions", "100 ps", some 1000, none⟩, ⟨"SPI_MOSI setup and hold", "100 ps", some 30, none⟩,
    ⟨"falling edge to SPI_MISO valid", "100 ps", none, some 70⟩, ⟨"SPI_CS_N high to SPI_MISO high-impedance", "100 ps", none, some 100⟩,
    ⟨"encoder rise and fall time", "100 ps", none, some 50⟩, ⟨"PULSE_IN high and low time", "100 ps", some 150, none⟩,
    ⟨"commanded tick to the gate ball edge", "100 ps", some 40, some 90⟩, ⟨"skew of a leg's gates", "100 ps", none, some 10⟩,
    ⟨"skew between legs", "100 ps", none, some 20⟩, ⟨"gate rise and fall time", "100 ps", none, some 30⟩,
    ⟨"CHn_TRIP_N pulse always recognised", "100 ps", some 120, none⟩, ⟨"CHn_TRIP_N pulse never recognised", "100 ps", none, some 50⟩,
    ⟨"CHn_TRIP_N edge to gate balls off", "100 ps", none, some 250⟩, ⟨"comparator propagation", "100 ps", none, some 200⟩,
    ⟨"gate-supply recognition", "100 ps", some 20000, some 20050⟩, ⟨"ball fall after the driving tick", "100 ps", none, some 60⟩,
    ⟨"fall recognised after VIL", "100 ps", some 100, some 150⟩, ⟨"TBUS pull-up", "Ω", some 330, some 2200⟩,
    ⟨"TBUS load", "pF", none, some 400⟩ ]

/-- Nanoseconds from a crossing at `CHn_ISENSE` to the gate balls off (R514). -/
def iSenseOff (filter : Nat) : Nat := 5 * filter + 30

/-- The least spacing of A and B transitions and the least Z and HOME pulse in ticks (R513). -/
def encSpacing (filter : Nat) : Nat × Nat := (filter + 2, filter + 1)

/-- Thermal resistance of the package in milli-degrees per watt: to the lid, to the board, to still air (R516). -/
def thermal : Nat × Nat × Nat := (100, 2600, 9000)

/-- Mechanical data in micrometres, newtons, levels and milligrams (R517). -/
def mechanical : List DataRow :=
  [ ⟨"body", "µm", some 34900, some 35100⟩, ⟨"lid", "µm", some 33000, some 33000⟩, ⟨"ball pitch", "µm", some 1000, some 1000⟩,
    ⟨"ball diameter", "µm", some 600, some 600⟩, ⟨"seated height", "µm", none, some 3200⟩, ⟨"coplanarity", "µm", none, some 200⟩,
    ⟨"heatsink force", "N", none, some 200⟩, ⟨"mass", "mg", some 11500, some 11500⟩ ]

end Sys2Proof.Machine
end

