-- ==== Sys2Proof/Tests/Slice0.lean ====
section
/-! SUPPORT. Tests of the model: ill-formed commands are refused by the well-formedness check, and for each statement
states and operands that meet its hypotheses. -/

namespace Sys2Proof.Tests

open Sys2Proof.Machine

-- One test after the other: their kernel checks would else each hold a thread.
set_option Elab.async false

/-! ### Small states -/

/-- A controller in READY. -/
def ready : State :=
  { State.reset with pwr := { PwrSt.reset with
      held := false, state := .ready, target := .ready, domains := 0x81F, corePll := true } }

/-- A controller in LISTEN. -/
def listen : State := { State.reset with pwr := { PwrSt.reset with held := false, domains := 5 } }

/-- A controller in RUN, its belay NORMAL. -/
def run : State :=
  { State.reset with
    pwr := { PwrSt.reset with
      held := false, state := .run, target := .run, domains := 0xFFF, corePll := true, lanePll := 15 }
    per := { PerSt.reset with running := true, count := 5, nextMark := 1000 }
    belay := { BelaySt.reset with state := .normal, inReset := false, clockOk := true } }

/-- A command on the SPI port. -/
def cmd (target : BitVec 16) (payload : List Word) : Cmd := ⟨.spi, false, false, 7, target, 1, payload⟩

/-! ### Well-formedness: an ill-formed term for each check -/

/-- A payload above 1,020 words. -/
theorem test_wf_payload (ws : List Word) (h : ws.length = 1021) : (Instr.ping (cmd 0 ws)).wf = false := by
  simp [Instr.wf, Cmd.wf, cmd, h]

/-- More than 8 boards, a board's record of other than 64 bytes. -/
theorem test_wf_discoverDone : (Instr.discoverDone (List.replicate 9 none) []).wf = false
    ∧ (Instr.discoverDone [some [0]] []).wf = false ∧ (Instr.discoverDone [] [some [0]]).wf = false := by decide

/-- A board's record of other than 64 bytes. -/
theorem test_wf_readIdentityDone : (Instr.readIdentityDone (some [0]) none).wf = false
    ∧ (Instr.readIdentityDone none (some [0])).wf = false := by decide

/-- A frame of more than 48 reports. -/
theorem test_wf_upstreamFrame :
    (Instr.upstreamFrame ⟨0, 0, 0, 0, 0, 0, 0, 0, 0, 0, List.replicate 49 0, 0, 0⟩).wf = false := by decide

/-- Capabilities of more than 48 cells. -/
theorem test_wf_capsDone : (Instr.capsDone 0 0 0 (List.replicate 49 0) true 0).wf = false := by decide

/-- An eye scan of the wrong number of points. -/
theorem test_wf_eyeScan : (Instr.eyeScanDone []).wf = false := by decide

/-- A WRITE_PACKET and a window write of more than 1,024 words. -/
theorem test_wf_window (ws : List Word) (h : ws.length = 1025) :
    (Instr.writePacket ws).wf = false ∧ (Instr.cmdTailWrite ws 0).wf = false := by
  simp [Instr.wf, h]

/-- A peer data frame without its sections, one with the digests cut short. -/
theorem test_wf_peerData :
    (Instr.peerDataFrame ⟨⟨0, 0, false, false, false, false, 0⟩, 0, 0, 0, 0, [], [], [], [], [], [], [], none, 0⟩).wf = false
    ∧ (Instr.peerDataFrame ⟨⟨0, 0, false, false, false, false, 0⟩, 0, 0, 0, 0, List.replicate 16 0, List.replicate 6 0,
        List.replicate 16 0, List.replicate 4 ⟨0, 0, 0, 0, 0, 0, 0, 0⟩, List.replicate 32 0, List.replicate 16 0,
        List.replicate 192 0, some [], 0⟩).wf = false := by decide +kernel



/-! ### StepRunsFront -/

/-- A queued event is executed. -/
theorem test_step : ∃ t, step (withFront ready .readStatus []) = .next t ∧ t.pending = [] := ⟨_, rfl, by decide +kernel⟩

/-! ### StepIdle -/

/-- An idle state with its clock running, and one with its clock standing. -/
theorem test_idle : ready.pending = [] ∧ clockOn ready = true ∧ stepWaits ready.time = false ∧ ready.str.traceDue = []
    ∧ listen.pending = [] ∧ clockOn listen = false ∧ ready.chop.legs = [] := by
  decide

/-! ### TimeNeverBack -/

/-- A step that answers a next state. -/
theorem test_time : ∃ t, step ready = .next t := ⟨_, rfl⟩

/-! ### WindowsKept -/

/-- The windows of a state in READY, and a full one. -/
theorem test_windows : windowsOk ready ∧ windowsOk { ready with host := { ready.host with cmdTail := 1024 } } := by
  unfold windowsOk
  decide +kernel

/-! ### ParamsKept -/

/-- A table with one word listed. -/
theorem test_params : paramsWf ready ∧ paramsWf { ready with params := [(pkey P.HOST_WDOG 0, 5)] } := by
  refine ⟨⟨.nil, nofun⟩, ⟨.cons nofun .nil, ?_⟩⟩
  intro p h
  simp only [List.mem_singleton] at h
  subst h
  decide +kernel

/-! ### CommandRows -/

/-- A command constructor and the row of its opcode. -/
theorem test_rows : cmdOf? (.block (cmd 0 [1])) = some (0x32, cmd 0 [1]) := rfl

/-! ### DryRunChangesNothing -/

/-- A dry run in READY. -/
theorem test_dryRun : takeable ready .spi = true ∧ cmdOf? (.block { cmd 0 [1] with dryRun := true })
    = some (0x32, { cmd 0 [1] with dryRun := true }) ∧ (cmdRow? 0x32 (cmd 0 [1])).isSome := by decide

/-! ### RefusedCommandsChangeNothing -/

/-- A packet with a bad target, and a port that is off. -/
theorem test_refused : commonErr spBlock none (cmd 1 [1]) ready = some ⟨St.range, 0xFFFD, 1⟩
    ∧ takeable State.reset .spi = false := by decide

/-! ### ListenCommands -/

/-- `BLOCK` on the SPI port in LISTEN. -/
theorem test_listen : listen.pwr.state = .listen ∧ takeable listen .spi = true ∧ powerErr spBlock listen ≠ none
    ∧ firstErr [targetErr spBlock (cmd 0 [1]), none, lengthErr spBlock (cmd 0 [1])] = none := by decide

/-! ### ReplyDelivery -/

/-- Room in the window, no room, the SPI port. -/
theorem test_reply : pcieOn ready = true ∧ ready.host.held = [] ∧ 1 ≤ rplFree ready.host ∧ spiOn ready = true
    ∧ rplFree { ready.host with rplTail := 1024 } < 1 := by decide

/-! ### PacketTaken -/

/-- A `BLOCK` packet in the SPI buffer of a controller in READY. -/
theorem test_packet : (cmd 0 [1]).wf = true
    ∧ packetWords { ready with host := { ready.host with spiBuf := packetOf 0x32 (cmd 0 [1]) } } .spi
        = packetOf 0x32 (cmd 0 [1]) ++ []
    ∧ takeable ready .spi = true ∧ (portSt ready .spi).seq = none
    ∧ roomFor ready (packetOf 0x32 (cmd 0 [1])) .spi = true := by decide +kernel

/-! ### PacketRefused -/

/-- A packet of four zero words (its CRC is wrong), and one of five words of which four are there. -/
theorem test_badPacket : takeable ready .spi = true
    ∧ packetWords { ready with host := { ready.host with spiBuf := [0, 0, 0, 0] } } .spi = [0, 0, 0, 0]
    ∧ crcWords [0, 0, 0] ≠ 0 ∧ roomFor ready [0, 0, 0, 0] .spi = true ∧ pktLen [0, 1, 0, 0] = 1 := by decide +kernel
/-- A repeated and an unexpected sequence: the packet is whole, another was the last. -/
theorem test_sequence : crcWords ((packetOf 0x32 (cmd 0 [1])).take 3 ++ [1]) = (packetOf 0x32 (cmd 0 [1])).getD 3 0
    ∧ (pktCmd .spi (packetOf 0x32 (cmd 0 [1]))).seq = 1 ∧ (1 : Word) ≠ 1 + 1 ∧ (1 : Word) ≠ 5 := by decide +kernel

/-! ### Bar0WriteDiscarded -/

/-- The endpoint is on in READY, the counter below its largest value. -/
theorem test_bar0Write : pcieOn ready = true ∧ getN ready P.HOST_BAR0_WR_DROP 0 < 4294967295 := by decide +kernel

/-! ### Bar2Writes -/

/-- A legal and an illegal CMD_TAIL, at the edge of the window. -/
theorem test_tail : tailOk ready.host 1024 = true ∧ tailOk ready.host 1025 = false := by decide
/-- An RPL_HEAD that leaves no more words than before, and one that leaves more. -/
theorem test_head : (ready.host.rplTail - BitVec.ofNat 11 0).toNat ≤ rplWords ready.host
    ∧ rplWords ready.host < (ready.host.rplTail - BitVec.ofNat 11 1).toNat := by decide
/-- The endpoint is off in LISTEN; the offsets of the registers of BAR2. -/
theorem test_bar2Off : pcieOn listen = false ∧ (0x2000#14).toNat / 4 = 0x800 ∧ (0x200C#14).toNat / 4 = 0x803
    ∧ (0x2010#14).toNat / 4 = 0x804 ∧ (0x2014#14).toNat / 4 = 0x805 ∧ 0x3000 ≤ (0x307C#14).toNat := by decide +kernel

/-! ### SpiFraming -/

/-- The port is off with PORST_N low. -/
theorem test_spiOff : spiOn State.reset = false := by decide
/-- A packet of the right length, one that is short, a full buffer. -/
theorem test_framing : spiOn ready = true ∧ ready.host.spiBuf = []
    ∧ ([0, 1, 0, 0, 9] : List Word).length = 4 + pktLen [0, 1, 0, 0, 9]
    ∧ ([0, 1, 0, 0] : List Word).length ≠ 4 + pktLen [0, 1, 0, 0]
    ∧ getN ready P.HOST_SPI_FRAMING 0 < 4294967295 := by decide +kernel

/-! ### SpiReply -/

/-- A pending reply of two words, and none. -/
theorem test_spiReply : spiOn { ready with host := { ready.host with spiOut := [[1, 2]] } } = true
    ∧ ready.host.spiOut = [] := by decide

/-! ### PortEvents -/

/-- BAR0 offsets of a defined and of an undefined ID, and of an instance out of range. -/
theorem test_mirror : (mirrorTarget ready P.HOST_WDOG).isSome
    ∧ mirrorTarget { ready with params := [(pkey P.HOST_MIRROR_SEL 0, 99)] } P.ARM_LEDGER = none := by decide +kernel
/-- A 64-bit parameter read at a multiple of 8, and offsets of others. -/
theorem test_wideRead : (0x10#18).toNat / 4 = P.DEV_SERIAL ∧ (0x10#18).toNat % 8 = 0
    ∧ (paramDef? P.DEV_SERIAL).map (fun d => d.wide) = some true ∧ mirrorTarget ready P.DEV_SERIAL = some 0
    ∧ (0xA004#18).toNat % 8 ≠ 0 ∧ (paramDef? P.HOST_WDOG).map (fun d => d.wide) = some false ∧ pcieOn ready = true ∧ pcieOn listen = false := by decide +kernel
/-- A deblocked arm and a watchdog of 1 ms that has run out. -/
theorem test_watchdog :
    let s := { run with tick := 200000, params := [(pkey P.HOST_WDOG 0, 1)]
                        arms := [(0, { Arm.empty with deblocked := true })] }
    clockOn s = true ∧ getN s P.HOST_WDOG 0 ≠ 0 ∧ anyDeb s = true ∧ causeHeld s F.HOST_SILENT 0 = false
      ∧ s.host.lastGood + 200000 * getN s P.HOST_WDOG 0 ≤ s.tick := by decide +kernel

/-! ### ReadCommands -/

/-- A PING, and reads of a 32-bit, a 64-bit, a staged and an undefined parameter. -/
theorem test_ping : Admitted spPing (pingOwn (cmd 0 [])) (cmd 0 []) ready := by
  unfold Admitted; decide +kernel
theorem test_getParam : Admitted (spGetParam (cmd 0 [0x0104])) (paramOwn (cmd 0 [0x0104])) (cmd 0 [0x0104]) ready
    ∧ ((paramAny? 0x0104).map (fun d => d.wide)) = some false
    ∧ Admitted (spGetParam (cmd 0 [0x2801])) (paramOwn (cmd 0 [0x2801])) (cmd 0 [0x2801]) ready
    ∧ ((paramAny? P.TIME_NOW).map (fun d => d.wide)) = some true ∧ paramAny? 0x01FF = none := by
  unfold Admitted; decide +kernel
/-- A staged period, and block reads of a gain table and of a run. -/
theorem test_getBlock : stagedW (stageW ready P.PER_PERIOD 0 900) P.PER_PERIOD 0 = some 900
    ∧ Admitted spGetBlock (blockOwn (cmd 0 [0x10200, 0, 18])) (cmd 0 [0x10200, 0, 18]) ready
    ∧ Admitted spGetBlock (blockOwn (cmd 0 [0x0100, 0, 4])) (cmd 0 [0x0100, 0, 4]) ready := by
  unfold Admitted; decide +kernel

/-! ### SetParamWrites -/

/-- A write to a plain parameter outside every group. -/
theorem test_setPlain : Admitted (spSetParam (cmd 0 [0x0104, 5])) (paramOwn (cmd 0 [0x0104, 5])) (cmd 0 [0x0104, 5]) ready
    ∧ setErr ready 0x0104 0 5 = none ∧ actingIds.contains 0x0104 = false
    ∧ ((paramDef? 0x0104).map (fun d => (d.access == .rw, d.group))) = some (true, 0) := by
  unfold Admitted; decide +kernel
/-- A group member, a flag word and a counter. -/
theorem test_setOther : setErr ready P.PER_PERIOD 0 900 = none
    ∧ ((paramDef? P.PER_PERIOD).map (fun d => (d.access == .rw, d.group))) = some (true, 1)
    ∧ flagMask P.HOST_IRQ_CAUSE = some 0x1F ∧ flagMask P.HOST_CRC_ERR = none
    ∧ ((paramDef? P.HOST_CRC_ERR).map (fun d => (d.access == .rw1c, d.id))) = some (true, P.HOST_CRC_ERR) := by
  decide +kernel

/-! ### SetParamRefusals -/

/-- An undefined ID and a read-only one. -/
theorem test_setRefused : Admitted (spSetParam (cmd 0 [0x01FF, 0])) (paramOwn (cmd 0 [0x01FF, 0])) (cmd 0 [0x01FF, 0]) ready
    ∧ paramDef? 0x01FF = none ∧ ((paramDef? P.PER_LATENCY).map (fun d => d.access == .ro)) = some true
    ∧ Admitted (spSetParam (cmd 0 [0x0803, 0])) (paramOwn (cmd 0 [0x0803, 0])) (cmd 0 [0x0803, 0]) ready := by
  unfold Admitted; decide +kernel
/-- A period out of range, one in range with its group armed. -/
theorem test_setArmed : ((paramDef? P.PER_PERIOD).map (fun d => (inRange d 1, inRange d 900, d.group))) = some (false, true, 1)
    ∧ groupArmed (setArmed ready 1 0 true) 1 0 = true ∧ specialErr (setArmed ready 1 0 true) P.PER_PERIOD 0 900 = none
    ∧ Admitted (spSetParam (cmd 0 [0x0801, 900])) (paramOwn (cmd 0 [0x0801, 900])) (cmd 0 [0x0801, 900])
        (setArmed ready 1 0 true) := by
  unfold Admitted; decide +kernel

/-! ### StopOnlyRefused -/

/-- A stop-only parameter with an arm deblocked, by SET_PARAM and by SET_BLOCK. -/
theorem test_stopOnly :
    let s := { run with arms := [(0, { Arm.empty with deblocked := true })] }
    anyDeb s = true ∧ ((paramDef? P.DUP_CFG).map (fun d => (d.stop, d.access == .rw))) = some (true, true)
      ∧ Admitted (spSetParam (cmd 0 [0x4801, 0])) (paramOwn (cmd 0 [0x4801, 0])) (cmd 0 [0x4801, 0]) s
      ∧ Admitted (spSetBlock (cmd 0 [0x4801, 0, 1, 0])) (blockOwn (cmd 0 [0x4801, 0, 1, 0])) (cmd 0 [0x4801, 0, 1, 0]) s
      ∧ (runIds (cmd 0 [0x4801, 0, 1, 0])).zip ([0] : List Word) = [] ++ (0x4801, 0) :: [] := by
  unfold Admitted; decide +kernel
/-- A staged stop-only member of CG_LANE. -/
theorem test_stopGroup :
    let s := stageW { run with arms := [(0, { Arm.empty with deblocked := true })] } P.LANE_POLARITY 3 1
    Admitted spCommitGroup (commitOwn (cmd 3 [2])) (cmd 3 [2]) s ∧ groupTargets 2 ≠ 0 ∧ anyDeb s = true
      ∧ groupStaged s 2 3 = true := by
  unfold Admitted; decide +kernel

/-! ### CommitGroups -/

/-- A staged budget group, committed and discarded. -/
theorem test_commit :
    let s := stageW ready P.BUD_EPOCH_TOTAL 0 5
    Admitted spCommitGroup (commitOwn (cmd 0 [6])) (cmd 0 [6]) s ∧ groupStaged s 6 0 = true
      ∧ groupCross s 6 0 = none ∧ anyDeb s = false ∧ groupArmed s 6 0 = false
      ∧ groupStaged ready 6 0 = false ∧ groupArmed (setArmed ready 6 0 true) 6 0 = true := by
  unfold Admitted; decide +kernel
theorem test_discard : Admitted spCommitGroup (commitOwn (cmd 0 [0x101])) (cmd 0 [0x101]) ready
    ∧ bit (pw (cmd 0 [0x101]) 0) 8 = true ∧ commitCode (cmd 0 [0x101]) = 1
    ∧ cmd 0 [0x106] = { cmd 0 [6] with payload := (cmd 0 [6]).payload.modifyHead (fun w => w ||| 0x100) } := by
  unfold Admitted; decide +kernel

/-! ### SetBlockWrites -/

/-- A run of two words, the second of which is refused, one of which none is, and a gain table word. -/
theorem test_setBlock : Admitted (spSetBlock (cmd 0 [0x0104, 0, 1, 5])) (blockOwn (cmd 0 [0x0104, 0, 1, 5]))
      (cmd 0 [0x0104, 0, 1, 5]) ready
    ∧ (runIds (cmd 0 [0x0104, 0, 1, 5])).zip ([5] : List Word) = [(0x0104, 5)]
    ∧ setErr ready 0x0104 0 5 = none ∧ paramDef? 0x01FF = none ∧ paramAny? 0x01FF = none := by
  unfold Admitted; decide +kernel
theorem test_setTable : Admitted (spSetBlock (cmd 0 [0x10200, 0, 1, 5])) (blockOwn (cmd 0 [0x10200, 0, 1, 5]))
      (cmd 0 [0x10200, 0, 1, 5]) ready
    ∧ tableWritable 0x0200 = true ∧ groupArmed ready 5 0 = false := by
  unfold Admitted; decide +kernel

/-! ### Discovery -/

/-- A `DISCOVER` of lane 0 and reads of a board's and a hub's record. -/
theorem test_discover : Admitted spDiscover none (cmd 0 [1, 0]) ready
    ∧ discoverErr ready (maskLanes (discMask (cmd 0 [1, 0]))) (discMask (cmd 0 [1, 0])) = none
    ∧ Admitted spReadIdentity (readIdOwn (cmd 3 [2])) (cmd 3 [2]) ready ∧ opRun? ready 0x11 (2 * 65536 + 3) = none := by
  unfold Admitted; decide +kernel
theorem test_readHub :
    let s := { ready with lanes := [(3, { Lane.empty with st := .active })] }
    Admitted spReadIdentity (readIdOwn (cmd 3 [1])) (cmd 3 [1]) s ∧ laneActive s 3 = true ∧ msgClaim s [3] = none
      ∧ Admitted spReadIdentity (readIdOwn (cmd 144 [0])) (cmd 144 [0]) ready ∧ laneActive ready 3 = false
      ∧ Admitted spReadIdentity (readIdOwn (cmd 3 [1])) (cmd 3 [1]) (startOp s 0x11 65539 (cmd 3 [1]) [1, 3, 63, 0])
      ∧ (msgClaim (startOp s 0x11 65539 (cmd 3 [1]) [1, 3, 63, 0]) [3]).isSome = true
      ∧ Admitted spReadIdentity (readIdOwn (cmd 3 [2])) (cmd 3 [2]) (startOp s 0x11 131075 (cmd 3 [2]) [2, 0, 0, 0])
      ∧ (opRun? (startOp s 0x11 131075 (cmd 3 [2]) [2, 0, 0, 0]) 0x11 131075).isSome = true
      ∧ Admitted spDiscover none (cmd 0 [8, 0]) (startOp s 0x11 65539 (cmd 3 [1]) [1, 3, 63, 0])
      ∧ (discoverErr (startOp s 0x11 65539 (cmd 3 [1]) [1, 3, 63, 0]) [3] 8).isSome = true := by
  unfold Admitted; decide +kernel
/-- A running `DISCOVER` whose lanes are read, running reads of a board and of a hub. -/
theorem test_discoverDone :
    let o : LongOp := opOf 0x10 1 (cmd 0 []) [1] 0
    let b : LongOp := opOf 0x11 (2 * 65536) (cmd 0 []) [2, 0, 0, 0] 0
    let h : LongOp := opOf 0x11 65536 (cmd 0 []) [1, 0, 63, 1] 0
    clockOn ready = true
      ∧ [o].find? (fun o => o.op == 0x10 && (maskLanes o.key).all (fun l => !srcBusy ready 3 l)) = some o
      ∧ [b].find? (fun o => o.op == 0x11 && o.args.getD 0 0 == 2) = some b
      ∧ [b].find? (fun o => o.op == 0x11 && o.args.getD 0 0 != 2 && o.args.getD 3 0 != 0) = none
      ∧ [h].find? (fun o => o.op == 0x11 && o.args.getD 0 0 != 2 && o.args.getD 3 0 != 0) = some h := by decide +kernel

/-! ### Placement -/

/-- An empty topology, and a controller that holds it with its CRC. -/
def emptyTopo : List Word := 0x5450 :: List.replicate 456 0
def topoState : State := putTable ready 0x0600 0 (emptyTopo ++ [crcWords emptyTopo])

/-- A wrong table number fails the first check of `PLACE`; one that runs. -/
theorem test_placeFail : (placeFail ready 1).isSome = true
    ∧ (opAny? (startOp ready 0x12 0 (cmd 0 []) [0x0600]) 0x12).isSome = true := by decide +kernel

/-- The empty topology passes every check. -/
theorem test_place : Admitted spPlace none (cmd 0 [0x0600]) topoState ∧ placeFail topoState 0x0600 = none := by
  refine ⟨⟨by decide +kernel, rfl, by decide +kernel⟩, ?_⟩
  have l : (emptyTopo ++ [crcWords emptyTopo]).length = 458 := by
    simp only [List.length_append, List.length_singleton]; decide +kernel
  have h : topoWords topoState 0x0600 = emptyTopo ++ [crcWords emptyTopo] := by
    have k := tableWords_putTable ready 0x0600 (emptyTopo ++ [crcWords emptyTopo])
    rw [l] at k
    exact k
  unfold placeFail
  rw [h]
  dsimp only
  rw [if_neg (by decide), if_neg (by decide +kernel), if_neg]
  · decide +kernel
  · refine not_or.mpr ⟨by decide +kernel, fun k => k ?_⟩
    rw [List.dropLast_concat]
    rfl

/-- An image of one entry for every hub of a placement. -/
theorem test_cellConfig :
    let t : List Word := [1, 0x40000000]
    let s := { putTable run 0x0400 0 (t ++ [0x846fd211]) with disc := { DiscSt.reset with placed := true } }
    Admitted spCellConfig (cellCfgOwn (cmd 0 [3, 0x0400])) (cmd 0 [3, 0x0400]) s
      ∧ cellCfgErr (cmd 0 [3, 0x0400]) s (cfgTargets (cmd 0 [3, 0x0400]) s) = none
      ∧ (cellCfgErr (cmd 0 [3, 0x0401]) s (cfgTargets (cmd 0 [3, 0x0401]) s)).isSome = true := by
  unfold Admitted; decide +kernel

/-! ### TallyAndMembership -/

theorem test_tally : Admitted spTallyReport (tallyOwn (cmd 0 [0])) (cmd 0 [0]) ready
    ∧ RowOk P.TALLY_OLD_CLEAR (cmd 0 [1]) ready := by
  unfold RowOk Admitted; decide +kernel
/-- An expectation table of one block expecting 0, and a controller that holds it with its CRC. -/
def expTable : List Word := 1 :: List.replicate 812 0
def expState : State := putTable ready 0x0500 0 (expTable ++ [crcWords expTable])

theorem expTable_read : expWords expState 0x0500 = expTable ++ [crcWords expTable] := by
  have l : (expTable ++ [crcWords expTable]).length = 814 := by
    simp only [List.length_append, List.length_singleton]; decide +kernel
  have k := tableWords_putTable ready 0x0500 (expTable ++ [crcWords expTable])
  have c : tableWord expState 0x0500 0 = 1 := by
    unfold tableWord expState putTable
    dsimp only
    rw [tabGet_tabRun, l, if_pos (by omega), Nat.sub_self]
    rfl
  rw [l] at k
  unfold expWords
  rw [c]
  exact k

theorem expTable_fields : expFieldsOk (expTable ++ [crcWords expTable]) = true := by
  have g (n i : Nat) (x : Word) (h : i < n) : ((1 : Word) :: List.replicate n 0 ++ [x]).getD (i + 1) 0 = 0 := by
    rw [List.cons_append, List.getD_cons_succ]
    simp [List.getD_eq_getElem?_getD, List.getElem?_append, h]
  have e : ∀ c ∈ cellCodes ++ hubCodes, expByte (expTable ++ [crcWords expTable]) c = 0 := by
    intro c hc
    have j : ∃ j, j < 812 ∧ (if c < 0x1000 then 28 + 1 + c / 4 else 796 + 1 + (c - 0x1000) / 4) = j + 1 := by
      simp only [cellCodes, hubCodes, hubCode, List.mem_append, List.mem_range, List.mem_map] at hc
      rcases hc with hc | ⟨d, hd, rfl⟩
      · exact ⟨28 + c / 4, by omega, by rw [if_pos (by omega)]; omega⟩
      · exact ⟨796 + (0x1000 + d - 0x1000) / 4, by omega, by rw [if_neg (by omega)]; omega⟩
    obtain ⟨j, hj, e⟩ := j
    show field ((expTable ++ [crcWords expTable]).getD
      (if c < 0x1000 then 28 + 1 + c / 4 else 796 + 1 + (c - 0x1000) / 4) 0).toNat _ _ = 0
    rw [e]
    unfold expTable
    rw [g _ _ _ hj]
    simp [field]
  unfold expFieldsOk
  simp only [Bool.and_eq_true, List.all_eq_true]
  refine ⟨by decide, fun c hc => ?_⟩
  rw [e c hc]
  decide

theorem expTable_ok (s : State) (a : expWords s 0x0500 = expTable ++ [crcWords expTable]) :
    setErr s P.TALLY_EXPECT_ACT 0 0x0500 = none := by
  have h : expectErr s 0x0500 = none := by
    unfold expectErr
    rw [show (0x0500 : Word).toNat = 0x0500 from rfl, a]
    dsimp only
    rw [expTable_fields, List.dropLast_concat, List.getLast?_concat]
    simp [badValue, errIf, firstErr]
  have d : setErr s P.TALLY_EXPECT_ACT 0 0x0500 = firstErr [expectErr s 0x0500, none, none] := rfl
  rw [d, h]
  rfl

/-- The table may be activated. -/
theorem test_expectAct : Admitted (spSetParam (paramCmd P.TALLY_EXPECT_ACT (cmd 0 [0x0500])))
    (paramOwn (paramCmd P.TALLY_EXPECT_ACT (cmd 0 [0x0500]))) (paramCmd P.TALLY_EXPECT_ACT (cmd 0 [0x0500])) expState :=
  ⟨by decide +kernel, rfl, by decide +kernel⟩

theorem test_expectErr : setErr (arrived expState (paramCmd P.TALLY_EXPECT_ACT (cmd 0 [0x0500]))) P.TALLY_EXPECT_ACT
    0 0x0500 = none := by
  have e (s u : State) (h : u.tables = s.tables) : expWords u 0x0500 = expWords s 0x0500 := by
    unfold expWords tableWords tableWord
    rw [h]
  exact expTable_ok _ ((e expState _ (goodPacket_keeps _ _ _).tables).trans expTable_read)

/-- A mismatch that begins in tick 9. -/
theorem test_mismatch :
    let s := { ready with tick := 9, tally := { TallySt.reset with exp_ := some [0, 0, 1], stale := false } }
    clockOn s = true ∧ (mismatchFrom (tallyFollow s 0) 0, mismatchFrom (tallyFollow ready 1) 1) = (some 9, none) := by
  decide +kernel

/-- The membership test: a placement in force, one test that runs. -/
theorem test_membership :
    let s := { run with disc := { DiscSt.reset with placed := true, mt := ⟨1, false, 0, 5, [], []⟩ } }
    let c := { cmd 0 [] with payload := [0] }
    Admitted (spSetParam (paramCmd P.DISC_MT_START (cmd 0 [1]))) (paramOwn (paramCmd P.DISC_MT_START (cmd 0 [1])))
        (paramCmd P.DISC_MT_START (cmd 0 [1])) s
      ∧ anyDeb s = false ∧ s.disc.placed = true ∧ s.per.running = true ∧ s.disc.mt.st = 1 ∧ clockOn s = true
      ∧ s.disc.mt.from_ + s.disc.mt.win ≤ s.per.count ∧ 1 + s.disc.mt.win = s.per.count + 1
      ∧ RowOk P.DISC_MT_START c s ∧ ready.disc.mt.st ≠ 1 := by
  unfold RowOk Admitted; decide +kernel

/-! ### LaneCommands -/

/-- Lane 5 in a state, everything else at reset, in RUN. -/
def withLane (f : Lane → Lane) : State := updLane run 5 f

theorem test_laneBringup : Admitted spLaneBringup none (cmd 5 []) run ∧ laneOn run 5 = true ∧ laneHeld run 5 = none := by
  unfold Admitted; decide +kernel
theorem test_laneRetire : Admitted spLaneRetire none (cmd 5 []) run ∧ autoHeld run 5 = none ∧ retireLedger run 5 = none
    ∧ (laneOf (withLane fun x => { x with st := .retired }) 5).st = .retired
    ∧ Admitted spLaneRetire none (cmd 5 []) (withLane fun x => { x with st := .retired })
    ∧ retireLedger (putN (updCell (withLane fun x => { x with st := .active }) 240 fun x => { x with placed := true })
        P.ARM_CELLS_REQUIRED 0 1) 5
        = some 0 := by
  unfold Admitted; decide +kernel
theorem test_laneLoop : Admitted spLaneLoop none (cmd 5 [1, 60000]) run ∧ loopAdmitted run 5 = true
    ∧ laneOn run 5 = true ∧ laneHeld run 5 = none ∧ autoHeld run 5 = none ∧ (laneOf run 5).st ≠ .retired
    ∧ Admitted spLaneLoop none (cmd 65 [1, 1]) run ∧ laneHeld run 65 = none ∧ autoHeld run 65 = none
    ∧ (laneOf run 65).st = .down
    ∧ Admitted spLaneLoop none (cmd 5 [0, 1]) (withLane fun x => { x with st := .loop, loopRun := some (newLoop run 5 1 9) }) := by
  unfold Admitted; decide +kernel
/-- Commands that a check refuses: a domain off, an operation that holds the lane, a duration, a lane not ACTIVE. -/
theorem test_laneRefused : Admitted spLaneBringup none (cmd 5 []) (updPwr run (fun p => { p with domains := 0x87F }))
    ∧ laneOn (updPwr run (fun p => { p with domains := 0x87F })) 5 = false
    ∧ Admitted spLaneRetire none (cmd 5 []) (startOp run 0x23 5 (cmd 5 [12]) [12, 1])
    ∧ (laneHeld (startOp run 0x23 5 (cmd 5 [12]) [12, 1]) 5).isSome = true
    ∧ Admitted spLaneLoop none (cmd 5 [2, 0]) run ∧ pw (cmd 5 [2, 0]) 1 < 1 ∧ Admitted spLaneLoop none (cmd 5 [0, 60001]) run
    ∧ pw (cmd 5 [0, 60001]) 0 = 0 ∧ Admitted spEyeScan none (cmd 5 [12]) run ∧ (laneOf run 5).st ≠ .active := by
  unfold Admitted; decide +kernel
theorem test_eyeScan : Admitted spEyeScan none (cmd 5 [36]) (withLane fun x => { x with st := .active })
    ∧ opAny? run 0x23 = none ∧ pw (cmd 5 [12]) 0 = 12 := by
  unfold Admitted; decide +kernel

/-! ### LaneBringupEvents -/

/-- Four commas, alternating in disparity: a receiver aligns on them at G1. -/
def rxGood : Rx := .symbols [0x0FA, 0x305, 0x0FA, 0x305]
/-- A lane in each stage, due at once; a retry due, a window over; a lane at reset; a far-end loop in CAPS. -/
theorem test_bringup : clockOn run = true
    ∧ (stageOf (laneOf (withLane fun x => { x with st := .detect }) 5)).1 = .detect
    ∧ alignedAt (laneOf (withLane fun x => { x with st := .detect }) 5) rxGood = true
    ∧ (stageOf (laneOf (withLane fun x => { x with st := .train }) 5)).1 = .train
    ∧ (stageOf (laneOf (withLane fun x => { x with st := .lock }) 5)).1 = .lock
    ∧ (laneOf (withLane fun x => { x with st := .lock }) 5).awaiting = false
    ∧ alignedAt (laneOf (withLane fun x => { x with st := .lock }) 5) rxGood = true
    ∧ (laneOf (withLane fun x => { x with st := .caps }) 5).st = .caps
    ∧ (laneOf (withLane fun x => { x with st := .caps }) 5).awaiting = false
    ∧ bringupRuns (laneOf (withLane fun x => { x with st := .caps }) 5) = true
    ∧ (stageOf (laneOf (withLane fun x => { x with st := .loop, loopRun := some { newLoop run 5 3 9 with stage := .caps } })
        5)).1 = .caps
    ∧ (laneOf (withLane fun x => { x with retryAt := some 0 }) 5).retryAt = some 0
    ∧ (laneOf (withLane fun x => { x with retryEnd := some 0 }) 5).retryEnd = some 0
    ∧ (stageOf (laneOf run 5)).1 = .down
    ∧ (laneOf run 5).retryAt = none ∧ (laneOf run 5).retryEnd = none ∧ bringupRuns (laneOf run 5) = false := by
  decide +kernel

/-! ### LaneFaultEvents -/

/-- 64 symbols that are none. -/
def rxBad : Rx := .symbols (List.replicate 64 0)
/-- Lanes that lose lock; an error window that is over; a loop and a scan that have ended. -/
theorem test_laneFaults : rxLost rxBad = true
      ∧ rxFits (rateOf (laneOf (withLane fun x => { x with st := .active, gen := 1 }) 5)) rxBad = true
      ∧ (laneOf (withLane fun x => { x with st := .active, gen := 1 }) 5).st = .active
      ∧ rxFits (rateOf (laneOf (withLane fun x => { x with st := .lock }) 5)) rxBad = true
      ∧ (laneOf (withLane fun x => { x with st := .lock }) 5).st = .lock
      ∧ rxFits (rateOf (laneOf run 5)) rxBad = true ∧ rxLost rxGood = false
      ∧ (laneOf run 5).st = .down ∧ (laneOf run 5).errOpen = false ∧ (laneOf run 5).loopRun = none := by decide +kernel
theorem test_laneEnds :
    let s := { withLane fun x => { x with st := .loop, errOpen := true, loopRun := some { newLoop run 5 1 9 with gen := 2 } } with
      tick := 2 ^ 60, ops := [opOf 0x22 5 (cmd 5 []) [] 0, opOf 0x23 5 (cmd 5 []) [12, 1] 0] }
    clockOn s = true ∧ (laneOf s 5).errOpen = true
      ∧ rxFits (rateOf (laneOf s 5)) rxBad = true
      ∧ (laneOf s 5).loopRun.isSome = true ∧ opRun? s 0x22 5 = some (opOf 0x22 5 (cmd 5 []) [] 0)
      ∧ opAny? s 0x23 = some (opOf 0x23 5 (cmd 5 []) [12, 1] 0):= by decide +kernel

/-! ### BlockDeblock -/

/-- A buffer of words, and an arm with an active table. -/
def withTable : State := updArm run 0 fun x => { x with active := some ⟨0, false, 0, 0, 0, 0, 0, 0, [], [], [], 0⟩ }

theorem test_armEnable : Admitted spArmEnable none (cmd 0 [1]) run ∧ noTableErr withTable 1 = none
    ∧ Admitted spArmEnable none (cmd 0 [1]) withTable ∧ (noTableErr run 1).isSome = true := by
  unfold Admitted; decide +kernel
theorem test_deblock : Admitted spDeblock none (cmd 0 [1]) withTable ∧ deblockErr withTable 1 = none
    ∧ withTable.dup.role ≠ .standby ∧ withTable.belay.state = .normal ∧ (armOf withTable 0).deblocked = false := by
  unfold Admitted; decide +kernel
theorem test_block : Admitted spBlock none (cmd 0 [1]) run ∧ Admitted spBlock none (cmd 0 [63]) ready
    ∧ ¬ Admitted spBlock none (cmd 0 [1]) listen := by
  unfold Admitted; decide +kernel

/-! ### CleatCommands -/

/-- Cells 240 and 241 placed on an ACTIVE lane, an activity admitted with one entry and costs, entry 3 held by it. -/
def maint : State :=
  let s := updCell (updCell run 240 fun x => { x with placed := true }) 241 fun x => { x with placed := true }
  let s := putN (updLane s 5 fun x => { x with st := .active }) P.CLT_MAINT_RESERVE 0 4
  let s := updAct s 0 fun _ => ⟨9, 1, [1, 0, 0, 0, 0, 0], none⟩
  updAct (updCleat s 3 fun x => { x with st := .held, cell := 7, act := 8 }) 1 fun _ => ⟨8, 1, [], none⟩
/-- The same as a standby. -/
def maintStandby : State := { maint with dup := { maint.dup with role := .standby } }

theorem test_cleatAdd : Admitted spCleatAdd none (cmd 240 [2, 9]) maint ∧ maint.dup.role ≠ .standby
    ∧ pw (cmd 240 [2, 9]) 0 = 2 ∧ (cellOf maint 240).placed = true ∧ cleatAddErr (arrived maint (cmd 240 [2, 9])) 240 2 9 = none
    ∧ (maintFree maint).headD 0 = 0
    ∧ Admitted spCleatAdd none (cmd 240 [2, 9]) maintStandby ∧ maintStandby.dup.role = .standby
    ∧ Admitted spCleatAdd none (cmd 240 [0, 9]) maint ∧ Admitted spCleatAdd none (cmd 5 [1, 9]) maint
    ∧ (cellOf maint 5).placed = false ∧ (cleatAddErr (arrived maint (cmd 240 [1, 7])) 240 1 7).isSome = true := by
  unfold Admitted; decide +kernel
theorem test_cleatRelease : Admitted spCleatRelease none (cmd 0 [3]) maint ∧ maint.dup.role ≠ .standby
    ∧ (cleatOf maint 3).st = .held ∧ (cleatOf maint 3).fault = false
    ∧ Admitted spCleatRelease none (cmd 0 [31]) maintStandby
    ∧ Admitted spCleatRelease none (cmd 0 [32]) maint ∧ Admitted spCleatRelease none (cmd 0 [31]) maint
    ∧ (cleatOf maint 31).st ≠ .held := by
  unfold Admitted; decide +kernel
theorem test_maintAdmit : Admitted spMaintAdmit none (cmd 0 [65535, 0, 0, 0, 0, 0, 0, 0]) maint
    ∧ maintAdmitErr (cmd 0 [65535, 0, 0, 0, 0, 0, 0, 0]) (arrived maint (cmd 0 [65535, 0, 0, 0, 0, 0, 0, 0])) = none
    ∧ (maintAdmitErr (cmd 0 [65536, 0, 0, 0, 0, 0, 0, 0]) (arrived maint (cmd 0 [65536, 0, 0, 0, 0, 0, 0, 0]))).isSome = true
    ∧ Admitted spMaintAdmit none (cmd 0 [65536, 0, 0, 0, 0, 0, 0, 0]) maint
    ∧ Admitted spMaintAdmit none (cmd 0 [1, 0, 0, 0, 0, 0, 0, 0]) maintStandby := by
  unfold Admitted; decide +kernel
theorem test_maintEnd : Admitted spMaintEnd none (cmd 0 [9]) maint ∧ maint.dup.role ≠ .standby
    ∧ actAdmitted? maint 9 = some 0 ∧ actHeld maint 9 = 0
    ∧ Admitted spMaintEnd none (cmd 0 [8]) maint ∧ actAdmitted? maint 8 = some 1 ∧ actHeld maint 8 ≠ 0
    ∧ Admitted spMaintEnd none (cmd 0 [5]) maint ∧ actAdmitted? maint 5 = none
    ∧ Admitted spMaintEnd none (cmd 0 [9]) maintStandby := by
  unfold Admitted; decide +kernel
theorem test_exclude : RowOk P.CLT_EXCLUDE (cmd 240 [9]) maint ∧ RowOk P.CLT_EXCLUDE (cmd 3071 [0]) maint
    ∧ Admitted (spSetParam (paramCmd P.CLT_EXCLUDE (cmd 240 [9]))) (paramOwn (paramCmd P.CLT_EXCLUDE (cmd 240 [9])))
        (paramCmd P.CLT_EXCLUDE (cmd 240 [9])) maintStandby
    ∧ (setErr (rowFrom P.CLT_EXCLUDE (cmd 240 [7]) maint) P.CLT_EXCLUDE 240 7).isSome = true := by
  unfold RowOk Admitted; decide +kernel
/-- Cell 240 retired, or its arm without reserve; a retirement of it that runs. -/
theorem test_cellRetire : Admitted spCellRetire none (cmd 240 []) maint ∧ maint.dup.role ≠ .standby
    ∧ (cellOf maint 240).placed = true ∧ opRun? maint 0x37 240 = none ∧ (cellOf maint 240).retired = false
    ∧ (cellOf maint 240).retire = .no ∧ retireBelow (arrived maint (cmd 240 [])) 240 = false
    ∧ Admitted spCellRetire none (cmd 240 []) maintStandby
    ∧ Admitted spCellRetire none (cmd 5 []) maint
    ∧ (cellOf (updCell maint 240 fun x => { x with retired := true }) 240).retired = true
    ∧ retireBelow (arrived (putN maint P.ARM_CELLS_REQUIRED 0 2) (cmd 240 [])) 240 = true
    ∧ opRun? (startOp maint 0x37 240 (cmd 240 []) [1]) 0x37 240 = some (opOf 0x37 240 (cmd 240 []) [1] 0) := by
  unfold Admitted; decide +kernel

/-! ### CleatTimers -/

/-- Two entries at the latch mark of their epoch, a waiting retirement, a fired bypass and a failed one. -/
theorem test_cleatTimers :
    let s := { maint with
      tick := 2 ^ 50, ops := [opOf 0x37 240 (cmd 240 []) [1] 0]
      per := { maint.per with lat := 2, epochStart := 0, eff := maint.per.count + 2 } }
    let s := updCleat s 20 fun x => { x with st := .held, fault := true, latches := some 1, since := 5 }
    let s := updCleat s 21 fun x => { x with st := .pending, freeAt := 5 }
    let s := updAct s 2 fun _ => ⟨7, 1, [], some 1⟩
    let s := updCell (updCell s 1 fun x => { x with retire := .fired 9 }) 2 fun x => { x with retire := .again 9 }
    clockOn s = true ∧ latchNext s = true ∧ (cleatOf s 20).latches = some 1 ∧ (cleatOf s 20).since ≤ s.per.count
      ∧ (cleatOf s 20).st = .held ∧ (cleatOf s 20).fault = true ∧ s.per.running = true
      ∧ (cleatOf s 21).st = .pending ∧ (cleatOf s 21).freeAt ≤ s.per.count + 1 ∧ (cleatOf s 3).latches = none
      ∧ (tabGet Activity.empty s.cleat.acts 2).ending = some 1 ∧ (tabGet Activity.empty s.cleat.acts 0).ending = none
      ∧ opRun? s 0x37 240 = some (opOf 0x37 240 (cmd 240 []) [1] 0)
      ∧ (cellOf s 1).retire = .fired 9 ∧ (cellOf s 2).retire = .again 9 ∧ opRun? s 0x37 241 = none := by decide +kernel

/-! ### LoopsAndTrajectories -/

/-- A generator with a queue of eight moves. -/
def fullQueue : State := updGen run 3 fun g => { g with queue := List.replicate 8 ⟨5, 1, 1, 1⟩ }

theorem test_loopMode : Admitted spLoopMode none (cmd 15 [1]) run ∧ anyDeb run = false
    ∧ LoopMode.ofCode 0 ≠ .start ∧ LoopMode.ofCode 2 = .test
    ∧ Admitted spLoopMode none (cmd 0 [2]) (updArm run 0 fun x => { x with deblocked := true })
    ∧ anyDeb (updArm run 0 fun x => { x with deblocked := true }) = true := by
  unfold Admitted; decide +kernel
/-- A homing of axis 1 claims generator 3; a standby. -/
def claimed : State := startOp (updGen run 3 fun g => { g with homing := some 1 }) 0x60 1 (cmd 1 [0]) []
def standbyRun : State := { run with dup := { run.dup with role := .standby } }

theorem test_trajQueue : Admitted spTrajQueue none (cmd 3 [0, 9, 1, 2147483647, 1]) run ∧ run.dup.role ≠ .standby
    ∧ (genOf run 3).homing = none ∧ (genOf (syncGen (arrived run (cmd 3 [0, 9, 1, 2147483647, 1])) 3) 3).queue.length < 8
    ∧ Admitted spTrajQueue none (cmd 3 [1, 9, 1, 2147483647, 1]) run
    ∧ Admitted spTrajQueue none (cmd 3 [0, 9, 1, 2147483647, 1]) fullQueue
    ∧ 8 ≤ (genOf (syncGen (arrived fullQueue (cmd 3 [0, 9, 1, 2147483647, 1])) 3) 3).queue.length
    ∧ Admitted spTrajQueue none (cmd 3 [0, 9, 1, 2147483647, 1]) standbyRun ∧ standbyRun.dup.role = .standby
    ∧ Admitted spTrajQueue none (cmd 3 [0, 9, 1, 2147483648, 0]) run
    ∧ Admitted spTrajQueue none (cmd 3 [0, 9, 1, 2147483647, 1]) claimed
    ∧ (genOf claimed 3).homing = some 1 ∧ (opRun? claimed 0x60 1).isSome = true := by
  unfold Admitted; decide +kernel
theorem test_trajFlush : Admitted spTrajFlush none (cmd 3 [1]) run ∧ Admitted spTrajFlush none (cmd 0 [0]) run
    ∧ Admitted spTrajFlush none (cmd 3 [1]) standbyRun ∧ Admitted spTrajFlush none (cmd 3 [1]) claimed := by
  unfold Admitted; decide +kernel
theorem test_trajPreset : RowOk P.TRAJ_PRESET (cmd 3 [0xFFFFFFFF]) run ∧ run.pwr.state = .run
    ∧ RowOk P.TRAJ_PRESET (cmd 3 [5]) ready ∧ ready.pwr.state = .ready
    ∧ Admitted (spSetParam (paramCmd P.TRAJ_PRESET (cmd 3 [5]))) (paramOwn (paramCmd P.TRAJ_PRESET (cmd 3 [5])))
        (paramCmd P.TRAJ_PRESET (cmd 3 [5])) fullQueue
    ∧ (genOf fullQueue 3).homing = none ∧ genIdle (genSync 10 (genOf fullQueue 3) fullQueue.tick).1 = false
    ∧ Admitted (spSetParam (paramCmd P.TRAJ_PRESET (cmd 3 [5]))) (paramOwn (paramCmd P.TRAJ_PRESET (cmd 3 [5])))
        (paramCmd P.TRAJ_PRESET (cmd 3 [5])) claimed := by
  unfold RowOk Admitted; decide +kernel

/-! ### AdcCommands -/

/-- A calibration of ADC 1 whose four conversions of 1,000 are made; of 50,000 for full scale. -/
def calDone (full : Bool) (v : Nat) : State :=
  updAdc ready 1 fun x => { x with cal := some ⟨full, true, [], 4, 4, 4 * v, none⟩ }

theorem test_adcCal : Admitted spAdcCalZero none (cmd 0 [1]) ready ∧ calErr (arrived ready (cmd 0 [1])) 1 = none
    ∧ Admitted spAdcCalFull none (cmd 0 [0]) ready ∧ calErr (arrived ready (cmd 0 [0])) 0 = none
    ∧ clockOn (calDone false 1000) = true ∧ calMean (calDone false 1000) 1 false = some 1000
    ∧ ((1000 : Int) - (getN (calDone false 1000) P.ADC_CAL_ZREF 1 : Int)).natAbs ≤ 4096
    ∧ calMean (calDone false 50000) 1 false = some 50000
    ∧ 4096 < ((50000 : Int) - getN (calDone false 50000) P.ADC_CAL_ZREF 1).natAbs
    ∧ calMean (calDone true 0) 1 true = some 0 ∧ (0 : Int) - getI (calDone true 0) P.ADC_CAL_Z 1 - getN (calDone true 0) P.ADC_CAL_ZREF 1 ≤ 0
    ∧ calMean ready 1 false = none ∧ calMean ready 1 true = none
    ∧ (calErr (arrived (startOp ready 0x50 1 (cmd 0 [1]) []) (cmd 0 [1])) 1).isSome = true := by
  unfold Admitted; decide +kernel
/-- A full-scale mean that gives gain 1, one that gives half. -/
theorem test_adcFull :
    let s := putN (calDone true 50000) P.ADC_CAL_FREF 1 50000
    let u := putN (calDone true 50000) P.ADC_CAL_FREF 1 25000
    clockOn s = true ∧ calMean s 1 true = some 50000 ∧ (50000 : Int) - getI s P.ADC_CAL_Z 1 - getN s P.ADC_CAL_ZREF 1 = 50000
      ∧ roundHalfAway (16384 * ((getN s P.ADC_CAL_FREF 1 : Int) - getN s P.ADC_CAL_ZREF 1 : Int) / ((50000 : Int) : Rat))
        = 16384
      ∧ roundHalfAway (16384 * ((getN u P.ADC_CAL_FREF 1 : Int) - getN u P.ADC_CAL_ZREF 1 : Int) / ((50000 : Int) : Rat))
        < 12288 := by decide +kernel
theorem test_adcInject :
    let s := putN run P.ADC_INJ_CFG 7 0x4000000
    Admitted spAdcInject none (cmd 0 [0xF0]) run ∧ Admitted spAdcInject none (cmd 0 [0x70]) run
    ∧ pw (cmd 0 [0x70]) 0 % 2 = 0 ∧ field (pw (cmd 0 [0x70]) 0) 7 4 = 7
    ∧ bit (getN run P.ADC_INJ_CFG 7) 26 = false
    ∧ Admitted spAdcInject none (cmd 0 [0x70]) s ∧ bit (getN s P.ADC_INJ_CFG 7) 26 = true
    ∧ getN s P.ADC_INJ_DELAY 7 = 0
    ∧ Admitted spAdcInject none (cmd 0 [0x70]) (putN s P.ADC_INJ_DELAY 7 1)
    ∧ bit (getN (putN s P.ADC_INJ_DELAY 7 1) P.ADC_INJ_CFG 7) 26 = true
    ∧ getN (putN s P.ADC_INJ_DELAY 7 1) P.ADC_INJ_DELAY 7 ≠ 0 := by
  unfold Admitted; decide +kernel
/-- A path test that starts, one of 16 conversions of 100 at the first level and 300 at the second. -/
theorem test_pathTest :
    let p := updMeas run fun m => { m with pt := some ⟨1, 23, 0, 256, true, 16, 1600, 4800, 0⟩ }
    RowOk P.ADC_PT_START (cmd 0 [0x117]) run ∧ clockOn p = true
      ∧ p.meas.pt = some ⟨1, 23, 0, 256, true, 16, 1600, 4800, 0⟩ ∧ run.meas.pt = none
      ∧ Admitted (spSetParam (paramCmd P.ADC_PT_START (cmd 0 [0x18]))) (paramOwn (paramCmd P.ADC_PT_START (cmd 0 [0x18])))
          (paramCmd P.ADC_PT_START (cmd 0 [0x18])) run
      ∧ (setErr (rowFrom P.ADC_PT_START (cmd 0 [0x18]) run) P.ADC_PT_START 0 0x18).isSome = true := by
  unfold RowOk Admitted; decide +kernel

/-! ### AdcEvents -/

theorem test_adcEvents :
    let s := updAdc { run with tick := 500 } 1 fun x => { x with
      trigs := [⟨400, 8, some 3, none⟩, ⟨450, 2, none, some (cmd 0 [0x20])⟩], conv := some (.injected 3, 5, 400) }
    clockOn s = true ∧ (adcOf s 1).trigs.find? (fun x => x.seq == 8) = some ⟨400, 8, some 3, none⟩
      ∧ (adcOf s 1).trigs.find? (fun x => x.seq == 2) = some ⟨450, 2, none, some (cmd 0 [0x20])⟩
      ∧ (adcOf s 1).conv ≠ none ∧ (adcOf (convWake s 1) 1).conv = some (.injected 3, 5, 400)
      ∧ (adcOf (convWake run 0) 0).conv = none
      ∧ (adcOf run 0).trigs.find? (fun x => x.seq == 8) = none := by decide +kernel
/-- A conversion of each kind. -/
theorem test_conv (k : ConvKind) :
    (adcOf (updAdc { run with tick := 500 } 0 fun x => { x with conv := some (k, 5, 400) }) 0).conv
      = some (k, 5, 400) := by
  unfold adcOf updAdc
  rw [tabGet_tabUpd_same]

/-! ### Decimation -/

theorem test_dec : Admitted spDecSync none (cmd 0 []) run ∧ RowOk P.DEC_CFG (cmd 15 [0x11]) run
    ∧ RowOk P.DEC_CFG (cmd 0 [0x6]) run := by
  unfold RowOk Admitted; decide +kernel
theorem test_decEvents :
    let s := { putN (putN (putN run P.DEC_CFG 2 7) P.DEC_STUCK_LIMIT 0 5) P.DEC_CTRL 0 1 with tick := 23 }
    clockOn s = true ∧ bit (getN s P.DEC_CFG 2) 0 = true ∧ bit (getN s P.DEC_CFG 3) 0 = false
      ∧ getN s P.DEC_STUCK_LIMIT 0 ≠ 0
      ∧ getN (updDec s 2 fun x => { x with run := 5 }) P.DEC_STUCK_LIMIT 0
        ≤ (decOf (updDec s 2 fun x => { x with run := 5 }) 2).run ∧ (decOf s 2).stuck = false ∧ bit (getN s P.DEC_CTRL 0) 0 = true
      ∧ bit (getN run P.DEC_CTRL 0) 0 = false := by decide +kernel

/-! ### Homing -/

/-- Axis 1 enabled; in a state of its homing. -/
def axisOn : State := putN run P.ENC_MODE 1 1
def homingIn (x : HomeState) : State := updEnc axisOn 1 fun e => { e with hState := x }

theorem test_homeStart : Admitted spHomeStart none (cmd 1 [1]) axisOn ∧ opRun? axisOn 0x60 1 = none
    ∧ encOn axisOn 1 = true ∧ encFlag axisOn 1 3 = false ∧ genIdle (genSync 10 (genOf axisOn 0) axisOn.tick).1 = true
    ∧ field (getN axisOn P.ENC_HOME_CFG 1) 1 0 = 0 ∧ encOn run 1 = false ∧ Admitted spHomeStart none (cmd 1 [1]) run
    ∧ axisOn.dup.role ≠ .standby ∧ (genOf axisOn 0).homing = none
    ∧ opRun? (startOp axisOn 0x60 1 (cmd 1 [0]) []) 0x60 1 = some (opOf 0x60 1 (cmd 1 [0]) [] 0)
    ∧ Admitted spHomeStart none (cmd 1 [1]) (startOp axisOn 0x60 1 (cmd 1 [0]) [])
    ∧ Admitted spHomeStart none (cmd 1 [1]) standbyRun := by
  unfold Admitted; decide +kernel
/-- The negative limit of axis 1 has tripped, without and with ENC_HOME_REVERSE; its generator moves, or is claimed. -/
def tripped : State := putN axisOn P.ENC_STATUS 1 8
def reversing : State := putN tripped P.ENC_HOME_REVERSE 1 1
def genMoves : State := updGen reversing 0 fun g => { g with cur := some ⟨5, 1, 1, 1⟩, pend := .replace }
def genTaken : State := startOp (updGen axisOn 0 fun g => { g with homing := some 0 }) 0x60 0 (cmd 0 [0]) []
theorem test_homeStartLimit :
    (∀ s ∈ [tripped, reversing, genMoves, genTaken], Admitted spHomeStart none (cmd 1 [1]) s ∧ s.dup.role ≠ .standby
      ∧ opRun? s 0x60 1 = none ∧ encOn s 1 = true ∧ field (getN s P.ENC_HOME_CFG 1) 1 0 = 0)
    ∧ encFlag tripped 1 3 = true ∧ getN tripped P.ENC_HOME_REVERSE 1 ≠ 1
    ∧ encFlag reversing 1 3 = true ∧ getN reversing P.ENC_HOME_REVERSE 1 = 1
    ∧ genIdle (genSync 10 (genOf reversing 0) reversing.tick).1 = true ∧ (genOf reversing 0).homing = none
    ∧ genIdle (genSync 10 (genOf genMoves 0) genMoves.tick).1 = false
    ∧ genIdle (genSync 10 (genOf genTaken 0) genTaken.tick).1 = true ∧ (genOf genTaken 0).homing = some 0
    ∧ (opRun? genTaken 0x60 0).isSome = true ∧ encFlag genTaken 1 3 = false := by
  unfold Admitted; decide +kernel
theorem test_homeAbort : Admitted spHomeAbort none (cmd 1 []) run ∧ homing run 1 = false
    ∧ Admitted spHomeAbort none (cmd 1 []) (homingIn .indexWait) ∧ Admitted spHomeAbort none (cmd 1 []) (homingIn .stopping)
    ∧ clockOn (homingIn .stopping) = true ∧ (genOf (homingIn .stopping) 0).stopping = false
    ∧ (encOf (homingIn .stopping) 1).hGen = 0 ∧ (encOf run 1).hState ≠ .stopping
    ∧ homeSearching (homingIn .indexWait) 1 = true ∧ homing (homingIn .stopping) 1 = true
    ∧ homeSearching (homingIn .stopping) 1 = false ∧ (encOf (homingIn .stopping) 1).hState = .stopping
    ∧ (genOf (syncGen (homingIn .stopping) 0) 0).cur = none := by
  unfold Admitted; decide +kernel
/-- A generator in motion that a homing has left. -/
theorem test_homingMoves :
    let s := updGen (homingIn .stopping) 0 fun g => { g with cur := some ⟨5, 1, 1, 1⟩, pend := .replace }
    (genOf (syncGen s 0) 0).cur ≠ none := by decide +kernel

/-! ### Encoder -/

theorem test_encoder : RowOk P.ENC_PRESET (cmd 1 [0xFFFFFFFF]) run ∧ RowOk P.ENC_LATCH_CFG (cmd 1 [3]) run
    ∧ RowOk P.ENC_LATCH_CFG (cmd 0 [2]) run ∧ encOn run 1 = false ∧ encMode axisOn 1 1 = false
    ∧ encMode (putN run P.ENC_MODE 1 3) 1 1 = true ∧ encOn (putN run P.ENC_MODE 1 3) 1 = true
    ∧ run.per.running = true ∧ ready.per.running = false ∧ clockOn ready = true ∧ clockOn run = true
    ∧ Admitted (spSetParam (paramCmd P.ENC_PRESET (cmd 1 [5]))) (paramOwn (paramCmd P.ENC_PRESET (cmd 1 [5])))
        (paramCmd P.ENC_PRESET (cmd 1 [5])) claimed
    ∧ (opRun? claimed 0x60 1).isSome = true
    ∧ 20000 * getN run P.ENC_LIM_DEBOUNCE 1 = 200000 ∧ getN run P.ENC_FILTER 1 = 2 := by
  unfold RowOk Admitted; decide +kernel
/-- A level counts once it has held for the last two samples, not before. -/
theorem test_filtered :
    filtered 2 false false [false, true] = false ∧ filtered 2 false false [true, true] = true := by decide
/-- In quadrature a step of A alone, A then leading B, counts up by one; a change of both levels is illegal. -/
theorem test_quad :
    encR (encQuad axisOn 1 true false).1 1 = 1 ∧ encR (encQuad axisOn 1 false true).1 1 = -1
      ∧ getN (encQuad axisOn 1 true true).1 P.ENC_ILLEGAL 1 = 1 := by decide +kernel

/-! ### ChopperCommands -/

/-- Leg 3 in a state and mode. -/
def withLeg (f : Leg → Leg) : State := updLeg run 3 f

theorem test_chopMode : RowOk P.CHOP_MODE (cmd 3 [0]) (withLeg fun l => { l with st := .running, mode := 1, gh := true })
    ∧ RowOk P.CHOP_MODE (cmd 3 [9]) run ∧ RowOk P.CHOP_FORCE (cmd 3 [2]) run
    ∧ (legOf run 3).st = .off ∧ (legOf run 3).dueAt = none
    ∧ RowOk P.CHOP_MODE (cmd 3 [0]) (withLeg fun l => { l with st := .latched }) := by
  unfold RowOk Admitted; decide +kernel
/-- A leg in FORCE with a write due in tick 5, its upper or its lower output on. -/
theorem test_force :
    let l : Leg := { Leg.empty with mode := 4, st := .running, dueAt := some (5, false) }
    (legDue 5 2 { l with gh := true }).forceAt = some (105, 2) ∧ (legDue 5 1 { l with gl := true }).forceAt = some (105, 1)
      ∧ (legDue 4 2 { l with gh := true }).gh = true
      ∧ (∃ p ∈ (withLeg fun l => { l with dueAt := some (5, true) }).chop.legs, p.2.dueAt ≠ none)
      ∧ (withLeg fun l => { l with dueAt := some (5, true) }).tick < 5 := by decide +kernel
/-- What CHOP_MODE refuses. -/
theorem test_chopModeErr :
    (∀ p ∈ ([(5, run), (4, updArm run 0 fun x => { x with deblocked := true }),
        (1, withLeg fun l => { l with stDone := true }), (16, withLeg fun l => { l with st := .running }),
        (1, startOp run 0x62 3 (cmd 3 []) [])] : List (Word × State)),
      Admitted (spSetParam (paramCmd P.CHOP_MODE (cmd 3 [p.1]))) (paramOwn (paramCmd P.CHOP_MODE (cmd 3 [p.1])))
        (paramCmd P.CHOP_MODE (cmd 3 [p.1])) p.2)
    ∧ debMask (updArm run 0 fun x => { x with deblocked := true }) ≠ 0 := by
  unfold Admitted; decide +kernel
theorem test_selftest : Admitted spCmpSelftest none (cmd 3 []) run ∧ opRun? run 0x62 3 = none ∧ clockOn run = true
    ∧ switching (legOf run 3).mode = false
    ∧ Admitted spCmpSelftest none (cmd 3 []) (withLeg fun l => { l with st := .running, mode := 1 })
    ∧ switching (legOf (withLeg fun l => { l with st := .running, mode := 1 }) 3).mode = true
    ∧ Admitted spCmpSelftest none (cmd 3 []) (startOp run 0x62 3 (cmd 3 []) [])
    ∧ opRun? (startOp run 0x62 3 (cmd 3 []) []) 0x62 3 = some (opOf 0x62 3 (cmd 3 []) [] 0) := by
  unfold Admitted; decide +kernel

/-! ### ChopperCycle -/

/-- Leg 3 runs in a mode. -/
def legIn (m : Nat) : State := withLeg fun l => { l with running := true, mode := m, st := .running }
/-- A leg that runs, one about to start, one in FORCE with a delayed turn-on or none, a leg at reset. -/
theorem test_chopCycle :
    cycleDue (advanceTo (legIn 1) (cycleDue (legIn 1) 3)) 3 ≤ (advanceTo (legIn 1) (cycleDue (legIn 1) 3)).tick
      ∧ cycleAwaited (legIn 1) 3 = true ∧ clockOn (legIn 1) = true ∧ (legOf (legIn 1) 3).dueAt = none
      ∧ chopStarting (putN run P.CHOP_MODE 3 1) 3 = true ∧ (legOf run 3).waitMark = false
      ∧ chopStarting run 3 = false ∧ (legOf run 3).running = false ∧ cycleAwaited run 3 = false
      ∧ (legOf (updLeg (legIn 4) 3 fun l => { l with forceAt := some (0, 2) }) 3).forceAt = some (0, 2)
      ∧ edgeTick (updLeg (legIn 4) 3 fun l => { l with forceAt := some (9, 2) }) 3 3 = 9
      ∧ (legOf (legIn 4) 3).mode = 4 ∧ (legOf (legIn 4) 3).forceAt = none := by decide +kernel
/-- A cycle of 1,000 ticks, deadtime 20, duty 300: both pulses; edges at 0, 20, 320 and 340. -/
theorem test_edges :
    let l := legOf (withLeg fun l => { l with per := 1000, dt := 20, duty := 300 }) 3
    ghPulse l = true ∧ glPulse l = true ∧ (List.range 4).map (edgeOffset l) = [0, 20, 320, 340] := by decide +kernel

/-! ### ChopperFaults -/

/-- Leg 3 runs; alone, or while the window of leg 1 or its own is open, or a window is past its end. -/
theorem test_comparators :
    let w : Nat → State := fun m => { legIn 1 with chop := { (legIn 1).chop with scWin := some (m, 200) } }
    (legOf (legIn 1) 3).mode ≠ 0 ∧ (legOf (legIn 1) 3).stBusy = false ∧ (legIn 1).chop.scWin = none
      ∧ (legOf (legIn 1) 3).scFilter = 16 ∧ clockOn (w 1) = true ∧ (w 1).chop.scWin = some (1, 200)
      ∧ (w 1).chop.scWin.any (fun x => decide (x.2 < (w 1).tick)) = false
      ∧ ({ w 1 with tick := 201 } : State).chop.scWin.any (fun x => decide (x.2 < 201)) = true
      ∧ (scClose { w 1 with tick := 201 }).chop.scWin = none
      ∧ (w 3).chop.scWin = some (3, 200) ∧ (w 4).chop.scWin = some (4, 200) ∧ (legOf run 3).mode = 0 := by decide +kernel

/-! ### FaultCommands -/

/-- A controller in READY with an entry of DC_OV, instance 1. -/
def withFault (f : FltEntry → FltEntry) : State :=
  setFlt ready 3 (f { FltEntry.empty with st := .reacted, code := F.DC_OV, inst := 1 })
/-- The same in the test mode, unlocked or not. -/
def factory (u : Bool) : State :=
  { ready with pwr := { ready.pwr with testmode := true }, flt := { ready.flt with unlocked := u } }

theorem test_faultRead : Admitted spFaultRead none (cmd 0 [0x40FF]) ready ∧ field 0x40FF 15 8 = 64
    ∧ Admitted spFaultRead none (cmd 0 [0x100]) ready ∧ Admitted spFaultRead none (cmd 0 [0x4100]) ready := by
  unfold Admitted; decide +kernel
theorem test_faultClear : Admitted spFaultClear none (cmd 1 [BitVec.ofNat 32 F.DC_OV]) (withFault id)
    ∧ fltFind (gracesDue (arrived (withFault id) (cmd 1 [BitVec.ofNat 32 F.DC_OV]))) F.DC_OV 1 = some 3
    ∧ (fltOf (gracesDue (arrived (withFault id) (cmd 1 [BitVec.ofNat 32 F.DC_OV]))) 3).cause = false
    ∧ Admitted spFaultClear none (cmd 1 [BitVec.ofNat 32 F.DC_OV]) (withFault fun e => { e with cause := true })
    ∧ (fltOf (gracesDue (arrived (withFault fun e => { e with cause := true }) (cmd 1 [BitVec.ofNat 32 F.DC_OV]))) 3).cause
        = true
    ∧ Admitted spFaultClear none (cmd 1 [BitVec.ofNat 32 F.DC_OV]) ready
    ∧ Admitted spFaultAck none (cmd 1 [BitVec.ofNat 32 F.DC_OV]) ready
    ∧ fltFind (gracesDue (arrived ready (cmd 1 [BitVec.ofNat 32 F.DC_OV]))) F.DC_OV 1 = none
    ∧ Admitted spFaultAck none (cmd 1 [BitVec.ofNat 32 F.DC_OV]) (withFault id) := by
  unfold Admitted; decide +kernel
theorem test_faultInject : Admitted spFaultInject none (cmd 1 [BitVec.ofNat 32 F.DC_OV]) (factory true)
    ∧ (fltDef? F.DC_OV).map (fun d => d.hasInst 1) = some true ∧ (factory true).flt.unlocked = true
    ∧ Admitted spFaultInject none (cmd 1 [BitVec.ofNat 32 F.DC_OV]) (factory false) ∧ (factory false).flt.unlocked = false
    ∧ Admitted spFaultInject none (cmd 1 [0x4A4A]) (factory true) ∧ fltDef? 0x4A4A = none
    ∧ Admitted spFaultInject none (cmd 1 [BitVec.ofNat 32 F.DC_OV]) ready ∧ ready.pwr.testmode = false := by
  unfold Admitted; decide +kernel
theorem test_factoryUnlock (a b : Word) : Admitted spFactoryUnlock none (cmd 0 [a, b]) (factory false)
    ∧ Admitted spFactoryUnlock none (cmd 0 [a, b]) ready := by
  constructor <;> exact ⟨rfl, rfl, rfl⟩
theorem test_faultTimes : (fltOf (withFault fun e => { e with st := .grace, due := 50 }) 3).st = .grace
    ∧ (fltOf ready 3).st ≠ .grace ∧ ready.flt.errEnd = none ∧ clockOn ready = true
    ∧ clockOn (withFault fun e => { e with st := .grace, due := 50 }) = true
    ∧ RowOk P.FLT_ERR_HOLD (cmd 0 [1]) ready := by
  unfold RowOk Admitted; decide +kernel

/-! ### SafetySessions -/

/-- A controller in READY with a password, a session open or not. -/
def session (o : Bool) : State :=
  { ready with belay := { ready.belay with password := some (0x21212121, 0x7E7E7E7E), open_ := o, session := 255 } }

theorem test_unlock : Admitted spSafetyUnlock none (cmd 0 [0x21212121, 0x7E7E7E7E]) (session false)
    ∧ pwChars 0x21212121 = true ∧ pwChars 0x7E7E7E7E = true ∧ (session false).belay.backoff = none
    ∧ Admitted spSafetyUnlock none (cmd 0 [1, 2]) (session false) ∧ Admitted spSafetyUnlock none (cmd 0 [1, 2]) ready
    ∧ pwChars 1 = false
    ∧ Admitted spSafetyUnlock none (cmd 0 [1, 2]) (updBelay (session false) fun x => { x with backoff := some 9 }) := by
  unfold Admitted; decide +kernel
theorem test_safetyWrite :
    let c := cmd 0 [BitVec.ofNat 32 P.SAFE_HB_MISS, 3]
    Admitted spSafetyWrite (safetyWriteOwn c) c (session true) ∧ Admitted spSafetyWrite (safetyWriteOwn c) c ready
      ∧ (safeParam? P.SAFE_HB_MISS).map (fun d => (decide (d.access = .rw), rangeErr d 3, safeValueErr (session true) d 3))
          = some (true, none, none)
      ∧ anyDeb (session true) = false ∧ ready.belay.open_ = false := by
  unfold Admitted; decide +kernel
/-- A counter cleared, each half of a password, a parameter no write reaches, a value out of range. -/
theorem test_safetyWriteForms :
    (∀ p ∈ ([(P.SAFE_DISC_EVENTS, 0xFFFFFFFF), (P.SAFE_PASSWORD_LO, 0x21212121), (P.SAFE_PASSWORD_HI, 0x7E7E7E7E),
        (P.SAFE_STATE, 0), (P.SAFE_HB_MISS, 9)] : List (Nat × Word)),
      Admitted spSafetyWrite (safetyWriteOwn (cmd 0 [BitVec.ofNat 32 p.1, p.2])) (cmd 0 [BitVec.ofNat 32 p.1, p.2])
        (session true))
    ∧ (safeParam? P.SAFE_DISC_EVENTS).map (fun d => (decide (d.access = .rw1c), clearErr d 0xFFFFFFFF)) = some (true, none)
    ∧ (safeParam? P.SAFE_PASSWORD_LO).map (fun d => (decide (d.access = .wo), rangeErr d 0x21212121,
        safeValueErr (session true) d 0x21212121)) = some (true, none, none)
    ∧ (safeParam? P.SAFE_PASSWORD_HI).map (fun d => (decide (d.access = .wo), rangeErr d 0x7E7E7E7E,
        safeValueErr (updBelay (session true) fun x => { x with pendLo := some 0x21212121 }) d 0x7E7E7E7E))
          = some (true, none, none)
    ∧ safeParam? P.SAFE_STATE = none
    ∧ (safeParam? P.SAFE_HB_MISS).map (fun d => (decide (d.access ≠ .rw1c), (rangeErr d 9).isSome)) = some (true, true) := by
  unfold Admitted; decide +kernel
theorem test_safetyRest : Admitted spSafetyLogRead none (cmd 0 [63, 64]) ready ∧ Admitted spSafetyLock none (cmd 0 []) ready
    ∧ Admitted spSafetyLock none (cmd 0 []) (session true) ∧ (session true).belay.open_ = true
    ∧ ready.belay.backoff = none ∧ (session false).belay.open_ = false
    ∧ Admitted spSafetyLogRead none (cmd 0 [64, 1]) ready ∧ Admitted spSafetyLogRead none (cmd 0 [63, 65]) ready := by
  unfold Admitted; decide +kernel

/-! ### BelayEvents -/

/-- The belay running with a heartbeat seen, output 3 in its pulse or not. -/
def belayed (on : BitVec 4) : State :=
  putP (putP { run with belay := { run.belay with
    hbSeen := true, srstFrom := some 5, inserted := true, tpOn := on, tpOrigin := some 10000 } }
    P.SAFE_TP_EN 0 15) P.SAFE_FDC_I_TAG 0 0x80

theorem test_belayOn : belayOn run = true ∧ belayOn ready = false ∧ clockOn run = true ∧ ready.belay.state = .off
    ∧ ready.belay.inReset = true ∧ ({ run with belay := { run.belay with inReset := true } } : State).belay.state ≠ .off
    ∧ belayOn { run with belay := { run.belay with inReset := true } } = false
    ∧ ({ run with belay := { run.belay with inReset := true } } : State).belay.lowVdd = false := by
  decide +kernel
theorem test_belayEvents : belayOn (belayed 8) = true ∧ tpPulse (belayed 8) 3 = true ∧ tpPulse (belayed 8) 0 = false
    ∧ belayOn (belayed 0) = true ∧ (belayed 0).belay.tpOn = 0 ∧ (belayed 0).belay.tpOrigin = some 10000
    ∧ bit (getN (belayed 0) P.SAFE_TP_EN 0) 0 = true ∧ getN run P.SAFE_TP_PERIOD 0 = 100 ∧ (belayed 8).belay.hbSeen = true
    ∧ (belayed 8).belay.srstFrom = some 5 ∧ (belayed 8).belay.srstStuck = false ∧ (belayed 8).belay.inserted = true
    ∧ bit (getN (belayed 8) P.SAFE_FDC_I_TAG 0) 7 = true ∧ getN (belayed 8) P.SAFE_FDC_STALE 0 = 50 := by
  decide +kernel
/-- Output 1 of a period of 100 ms: a quarter of it after the origin. -/
theorem test_tpDue : tpDue (belayed 0) 1 10000 = 5010000 ∧ tpDue { belayed 0 with tick := 5010001 } 1 10000 = 25010000 := by
  decide +kernel

/-! ### DuplexCommands -/

/-- A controller in RUN as one half of a pair, an armed standby with its belay NORMAL seen or not. -/
def half (r : Role) (armed : Bool) : State :=
  { run with dup := { run.dup with role := r, seen := true, hb := some ⟨0, 1, false, false, armed, true, 4⟩ } }

/-- The same with an entry of a difference between the halves. -/
def differ (r : Role) : State :=
  setFlt (half r true) 3 { FltEntry.empty with st := .reacted, code := F.TALLY_MISMATCH, inst := 1, cause := true }

theorem test_takeover :
    (∀ s ∈ [half .standby false, half .active true, half .takingOver true, run, differ .standby,
        startOp (half .standby false) 0x90 0 (cmd 0 []) [], updBelay (half .standby false) (fun x => { x with state := .tripped })],
      Admitted spTakeover none (cmd 0 []) s)
    ∧ (half .standby false).belay.state = .normal ∧ run.dup.role = .solo ∧ opAny? (half .standby false) 0x90 = none
    ∧ (opAny? (startOp (half .standby false) 0x90 0 (cmd 0 []) []) 0x90).isSome = true
    ∧ fltFind (arrived (half .standby false) (cmd 0 [])) F.TALLY_MISMATCH 1 = none
    ∧ (fltFind (arrived (differ .standby) (cmd 0 [])) F.TALLY_MISMATCH 1).isSome = true
    ∧ opAny? (differ .standby) 0x90 = none := by
  unfold Admitted; decide +kernel
theorem test_switchback :
    (∀ s ∈ [half .active true, half .active false, half .standby true, half .takingOver true, run, differ .active,
        startOp (half .active true) 0x91 0 (cmd 0 []) []], Admitted spSwitchback none (cmd 0 []) s)
    ∧ armedStandby (half .active true) = true ∧ armedStandby (half .active false) = false
    ∧ peerNormal (half .active true) = true ∧ opAny? (half .active true) 0x91 = none
    ∧ (opAny? (startOp (half .active true) 0x91 0 (cmd 0 []) []) 0x91).isSome = true
    ∧ fltFind (arrived (half .active true) (cmd 0 [])) F.TALLY_MISMATCH 1 = none
    ∧ (fltFind (arrived (differ .active) (cmd 0 [])) F.TALLY_MISMATCH 1).isSome = true := by
  unfold Admitted; decide +kernel
/-- An armed standby whose belay is not NORMAL. -/
theorem test_switchbackBelay :
    let s : State := { half .active true with dup := { (half .active true).dup with hb := some ⟨0, 1, false, false, true, false, 4⟩ } }
    Admitted spSwitchback none (cmd 0 []) s ∧ armedStandby s = true ∧ peerNormal s = false
      ∧ fltFind (arrived s (cmd 0 [])) F.TALLY_MISMATCH 1 = none := by
  unfold Admitted; decide +kernel

/-! ### PeerFrames -/

/-- A half with its peer lane PEER0 ACTIVE. -/
def linked (r : Role) : State := updLane (half r true) 64 (fun x => { x with st := .active })

theorem test_peerFrames : clockOn (linked .standby) = true ∧ paired (linked .standby) = true ∧ paired run = false
    ∧ laneActive (linked .standby) 64 = true ∧ (linked .standby).per.running = true
    ∧ (linked .standby).dup.gotMark = none ∧ laneActive (linked .standby) 65 = false
    ∧ (linked .takingOver).dup.role = .takingOver ∧ (linked .active).dup.giving = none
    ∧ (linked .standby).dup.takeover = false ∧ resumeReady (linked .standby) = false := by
  decide +kernel
/-- Heartbeat 4 of an armed standby: its CRC, that of another one; a frame whose CRC is its own. -/
theorem test_peerCrc : hbCrc ⟨0, 1, false, false, true, true, 4⟩ ≠ hbCrc ⟨0, 1, false, false, true, true, 5⟩
    ∧ hbCrc ⟨0, 1, false, false, true, true, 4⟩ = hbCrc ⟨1, 1, false, false, true, true, 4⟩ := by
  decide +kernel
theorem test_giving :
    let s : State := { linked .active with dup := { (linked .active).dup with giving := some 9, takeover := true } }
    s.dup.role = .active ∧ s.dup.giving = some 9 ∧ s.dup.takeover = true ∧ s.dup.resumed = false ∧ paired s = true := by
  decide +kernel
theorem test_resumeReady : resumeReady { linked .takingOver with
    per := { (linked .takingOver).per with count := 6 }, dup := { (linked .takingOver).dup with takeover := true } } = true := by
  decide +kernel

/-! ### ReelCommands -/

/-- A reel configuration without triggers, its CRC added. -/
def reelCfgWords : List Word := (fun (l : List Word) => l ++ [crcWords l]) (0x524C :: List.replicate 351 0)
/-- A controller in RUN with that configuration. -/
def reeled : State := putTable run 0x0A00 0 reelCfgWords
/-- A capture in a state. -/
def capture (r : ReelState) (cfg : List (Nat × Word)) : State :=
  { run with reel := { run.reel with state := r, tick0 := some 1, cfg := cfg, trigTick := some 3 } }

theorem test_reelTable (st : State) (h : st.tables = reeled.tables) : reelTable st 0x0A00 = reelCfgWords := by
  have e : reelTable st 0x0A00 = reelTable reeled 0x0A00 := by unfold reelTable tableWords tableWord; rw [h]
  have l : reelCfgWords.length = 353 := by
    unfold reelCfgWords
    dsimp only
    rw [List.length_append, List.length_cons, List.length_replicate]
    rfl
  have k := tableWords_putTable run 0x0A00 reelCfgWords
  rw [l] at k
  rw [e]
  unfold reelTable reeled
  exact k
theorem test_reelArmErr (st : State) (h : st.tables = reeled.tables) (hr : reelRuns st = false) :
    reelArmErr st 0x0A00 = none := by
  have c : crcWords reelCfgWords.dropLast = reelCfgWords.getD 352 0 := by
    unfold reelCfgWords
    dsimp only
    rw [List.dropLast_concat]
    rfl
  have g : (List.range 352).find? (reelWordBad reelCfgWords) = none := by decide +kernel
  unfold reelArmErr
  rw [test_reelTable st h]
  dsimp only
  rw [c, g, hr]
  have a : cfgW reelCfgWords 0 % 65536 = 0x524C := by decide +kernel
  rw [a]
  simp [errIf, firstErr]
theorem test_reelArm : Admitted spReelArm none (cmd 0 [0x0A00]) reeled
    ∧ reelArmErr (arrived reeled (cmd 0 [0x0A00])) 0x0A00 = none :=
  ⟨⟨rfl, rfl, rfl⟩, test_reelArmErr _ (goodPacket_keeps _ _ _).tables (by
    unfold reelRuns
    rw [show (arrived reeled (cmd 0 [0x0A00])).reel = reeled.reel from (goodPacket_keeps reeled _ _).reel]
    rfl)⟩
theorem test_reelArmBad : Admitted spReelArm none (cmd 0 [0x0300]) run
    ∧ Admitted spReelArm none (cmd 0 [0x0A01]) run ∧ cfgW (reelTable run 0x0A01) 0 % 65536 ≠ 0x524C := by
  unfold Admitted; decide +kernel
/-- The table's checks, one by one; a table with a reserved bit set; the same while a capture runs. -/
theorem test_reelChecks : cfgW (reelTable reeled 0x0A00) 0 % 65536 = 0x524C
    ∧ crcWords (reelTable reeled 0x0A00).dropLast = (reelTable reeled 0x0A00).getD 352 0
    ∧ (List.range 352).find? (reelWordBad (reelTable reeled 0x0A00)) = none ∧ reelRuns reeled = false := by
  rw [test_reelTable reeled rfl]
  refine ⟨by decide +kernel, ?_, by decide +kernel, rfl⟩
  unfold reelCfgWords
  dsimp only
  rw [List.dropLast_concat]
  rfl
theorem test_reelRange : reelWordBad (0x2524C :: List.replicate 352 0) 0 = true := by decide +kernel
theorem test_reelArmBusy : Admitted spReelArm none (cmd 0 [0x0A00]) (capture .armed []) ∧ reelRuns (capture .armed []) = true := by
  unfold Admitted; decide +kernel
theorem test_reelReadRange : Admitted spReelRead none (cmd 0 [524288, 1]) ready
    ∧ Admitted spReelRead none (cmd 0 [524287, 2]) ready := by
  unfold Admitted; decide +kernel
theorem test_reelReadStop : Admitted spReelRead none (cmd 0 [524287, 1]) ready ∧ reelRuns ready = false
    ∧ Admitted spReelRead none (cmd 0 [16, 1016]) (capture .armed []) ∧ reelRuns (capture .armed []) = true
    ∧ Admitted spReelStop none (cmd 0 []) (capture .triggered []) ∧ Admitted spReelStop none (cmd 0 []) run ∧ reelRuns run = false := by
  unfold Admitted; decide +kernel

/-! ### ReelTimers -/

theorem test_reelTimers : clockOn (capture .triggered [(10, 7)]) = true ∧ reelCfg (capture .triggered [(10, 7)]) 10 = 7
    ∧ reelRuns (capture .triggered []) = true ∧ clockOn run = true ∧ run.reel.state = .idle ∧ run.reel.tick0 = none
    ∧ ({ capture .stopped [(10, 7)] with tick := 11 } : State).tick = 1 + 3 + reelCfg (capture .stopped [(10, 7)]) 10
    ∧ reelWatches run = false
    ∧ (let s := capture .armed [(24, 0x0405), (26, 9)]
       reelWatches s = true ∧ s.reel.tick0 = some 1 ∧ field (unitWord s 3) 3 0 = 5
         ∧ bit ((reelLines s).getD (field (unitWord s 3) 15 8 / 8) 0) (field (unitWord s 3) 15 8 % 8)
            = (field (unitWord s 3) 5 4 == 0)) := by
  decide +kernel
theorem test_tbus : (lineOf run 3).low = false ∧ (lineOf (updLine run 3 fun l => { l with low := true }) 3).low = true
    ∧ (lineOf (tbusDrive run 3) 3).driveTo.isSome = true ∧ (lineOf run 3).driveTo = none
    ∧ (lineOf (tbusDrive run 3) 3).driveTo.any (fun d => decide (run.tick < d)) = true
    ∧ RowOk P.TBUS_FORCE (cmd 0 [15]) run := by
  unfold RowOk Admitted; decide +kernel

/-! ### MarksIgnoreTime -/

theorem test_timeStep : (match exec (.timeStep (cmd 0 [5, 0, 7])) ready with
    | .next t => decide (t.per = ready.per ∧ devSec t = 0 ∧ devSec (advanceTo t 1) = 5 ∧ devNs (advanceTo t 1) = 7)
    | _ => false) = true := by
  decide +kernel

/-! ### TimeCommands -/

/-- The servo locked, its holdover running. -/
def servoLocked : State :=
  { ready with time := { TimeSt.reset with servo := .locked, n := 4, integ := 9, maxOff := 5, holdDue := some 1000000000 } }

theorem test_timeCommands : Admitted spTimeRead none (cmd 0 []) ready ∧ Admitted spTimeStep none (cmd 0 [5, 0xFFFF, 999999999]) ready
    ∧ Admitted spTimeStep none (cmd 0 [5, 0, 1000000000]) ready ∧ pw (cmd 0 [5, 0, 1000000000]) 2 = 1000000000
    ∧ Admitted spTimeOffset none (cmd 0 [16, 0]) ready ∧ getN ready P.TIME_STEP_LIMIT 0 = 100000 := by
  unfold Admitted; decide +kernel

/-- An offset one sixteenth above a limit of 1 ns, in a state that takes it. -/
theorem test_timeOffset : Admitted spTimeOffset none (cmd 0 [17, 0]) (putN ready P.TIME_STEP_LIMIT 0 1)
    ∧ getN (putN ready P.TIME_STEP_LIMIT 0 1) P.TIME_STEP_LIMIT 0 ≠ 0 ∧ 16 < (signedOf 64 (pw (cmd 0 [17, 0]) 0)).natAbs
    ∧ (signedOf 64 (pw (cmd 0 [16, 0]) 0)).natAbs = 16 ∧ signedOf 64 (0xFFFFFFF0 + 4294967296 * 0xFFFFFFFF) = -16 := by
  unfold Admitted; decide +kernel

/-- The conditions of the clauses about the next tick and the holdover. -/
theorem test_timeTick : clockOn ready = true ∧ (stepTo ready 5).time.stepTo = some 5 ∧ (stepTo ready 5).time.stepBy = 0
    ∧ clockOn (stepTo ready 5) = true ∧ clockOn (stepBy ready 7) = true ∧ (stepBy ready 7).time.stepTo = none
    ∧ (advanceTo (stepBy ready 7) 1).time.dev = tickUnits ready + 7
    ∧ clockOn servoLocked = true ∧ servoLocked.time.holdDue = some 1000000000 ∧ ready.time.holdDue = none
    ∧ (match exec .timeHoldoverExpiry servoLocked with
        | .next t => decide (t.time.rate = -5 ∧ t.tick = 1000000000) | _ => false) = true := by
  decide +kernel

/-! ### PowerStates -/

/-- A power state with a wait. -/
def power (p : Power) (w : PwrWait) : State := { ready with pwr := { ready.pwr with state := p, wait := w } }

theorem test_powerState : Admitted spPowerState none (cmd 0 [3]) ready ∧ Admitted spPowerState none (cmd 0 [2]) run
    ∧ opAny? run 0xC0 = none ∧ anyDeb run = false ∧ inTransit ready = false
    ∧ Admitted spPowerState none (cmd 0 [4]) listen := by
  unfold Admitted; decide +kernel

/-- A request while one runs, and one that would leave RUN with an arm deblocked. -/
theorem test_powerRefused : Admitted spPowerState none (cmd 0 [0]) (startOp ready 0xC0 0 (cmd 0 [3]) [3])
    ∧ (opAny? (startOp ready 0xC0 0 (cmd 0 [3]) [3]) 0xC0).isSome = true
    ∧ Admitted spPowerState none (cmd 0 [2]) (updArm run 5 (fun x => { x with deblocked := true }))
    ∧ anyDeb (updArm run 5 (fun x => { x with deblocked := true })) = true
    ∧ opAny? (updArm run 5 (fun x => { x with deblocked := true })) 0xC0 = none := by
  unfold Admitted; decide +kernel

theorem test_powerEvents : State.reset.pwr.held = true ∧ ready.pwr.held = false ∧ (power .listen (.dormant 9)).pwr.wait = .dormant 9
    ∧ (power .dormant .none).pwr.state = .dormant ∧ (power .listen (.dormant 9)).pwr.state ≠ .dormant
    ∧ (power .listen (.listen 5)).pwr.wait = .listen 5 ∧ ready.pwr.wait = .none ∧ RowOk P.PWR_LANE_EN (cmd 0 [0]) run := by
  unfold RowOk Admitted; decide +kernel

/-! ### ClocksAndSelfTest -/

theorem test_clocks : ready.pwr.xtalGone = false ∧ ready.pwr.held = false ∧ ready.tick ≤ ready.pwr.relAt + 10000000 ∧ ready.pwr.corePll = true ∧ ready.pwr.onXtal = false
    ∧ (power .listen .corePll).pwr.wait = .corePll ∧ (power .ready .relock).pwr.wait = .relock ∧ listen.pwr.corePll = false
    ∧ (power .listen (.bist 8)).pwr.wait = .bist 8 ∧ bit run.pwr.domains.toNat 10 = true ∧ bit ready.pwr.domains.toNat 7 = false
    ∧ bit run.pwr.lanePll.toNat 3 = true ∧ bit ready.pwr.lanePll.toNat 0 = false ∧ clockOn (power .ready (.dispatch 9)) = true
    ∧ run.per.running = true ∧ ready.per.running = false ∧ (power .ready .lanePll).pwr.wait = .lanePll
    ∧ lanePllsOk (putN (power .ready .lanePll) P.PWR_LANE_EN 0 0) = true ∧ lanePllsOk ready = false
    ∧ (updPwr run (fun p => { p with wait := .leaveRun })).pwr.wait = .leaveRun
    ∧ clockOn (updPwr run (fun p => { p with wait := .leaveRun })) = true := by
  decide +kernel

/-! ### StrandTasks -/

/-- A controller in RUN with a task in slot 3 running on strand 1. -/
def tasked : State :=
  updStrand (updTask run 3 fun _ => { newTask TC.pred 0 0 0 [] none (some 7) with st := .running, strand := 1, startAt := 9 })
    1 fun x => { x with slot := some 3 }

theorem test_tasks : clockOn tasked = true ∧ (strandOf tasked 1).slot = some 3 ∧ (taskOf tasked 3).deadline = some 7
    ∧ (taskOf run 3).deadline = none ∧ (strandOf run 1).slot = none := by decide +kernel
theorem test_placeOrder : ((sortBy placeLe (readyTasks (updTask (updTask run 9 fun _ => newTask TC.tally 0 0 0 [] none none) 40
      fun _ => { newTask TC.sort 0 0 0 [] none none with st := .ready })
    )).map (fun p => p.1), freeStrands run) = ([40], [0, 1, 2, 3, 4, 5, 6, 7]) := by decide +kernel
/-- A task placed on a gated strand is recorded as started two ticks later (R215, R228). -/
theorem test_gatedStart :
    let p := placeOn (updStrand (updTask run 40 fun _ => { newTask TC.sort 0 0 0 [] none none with st := .ready }) 0
      fun x => { x with gateAt := 0 }) 40 0
    let e := fun (s : State) => (List.range s.str.traceNext).map (fun i =>
      ((tabGet (0, 0) s.str.trace i).1.toNat, traceCode (tabGet (0, 0) s.str.trace i)))
    let at_ := run.tick - run.pwr.pllAt
    (e (advanceTo p (p.tick + 1))).length = (e run).length
      ∧ (e (advanceTo p (p.tick + 2))).drop (e run).length = [(at_ + 2, 1)] := by decide +kernel

/-! ### TraceAndPatch -/

theorem test_trace : Admitted spTraceRead none (cmd 0 [4095, 100]) ready
    ∧ Admitted spTraceRead none (cmd 0 [4096, 509]) ready ∧ Admitted spTraceRead none (cmd 0 [0, 509]) ready ∧ RowOk P.STR_TRACE_CTRL (cmd 0 [1]) ready
    ∧ bit 1 0 = true := by
  unfold RowOk Admitted; decide +kernel
theorem test_fwPatch : Admitted spFwPatch none (cmd 0 [8191, 0]) ready ∧ opAny? ready 0xE0 = none
    ∧ patchLast (patchStore ready 0 [0x00064650, 1, 2, 3, 4, 5]) 0 6 = true
    ∧ patchLast (patchStore ready 0 [0x00064650]) 0 1 = false
    ∧ Admitted spFwPatch none (cmd 0 [8192, 0]) ready
    ∧ Admitted spFwPatch none (cmd 0 [0, 0]) (startOp ready 0xE0 0 (cmd 0 [0, 0]) [])
    ∧ (opAny? (startOp ready 0xE0 0 (cmd 0 [0, 0]) []) 0xE0).isSome = true := by
  unfold Admitted; decide +kernel
theorem test_patchErr : (patchErr ready).isSome = true := by decide +kernel

/-! ### FramesAndMarks -/

/-- A frame of a lane without cells. -/
def frame (l : Fin 64) (mark : Word) (ok : Bool) : UpFrame :=
  let f : UpFrame := ⟨l, 0x5A, BitVec.ofNat 6 l.val, 0, 0, 0, 0, 0, 0, mark, [], 0, 0⟩
  { f with crc := if ok then usCrc f else usCrc f + 1 }
/-- Lane 5 ACTIVE in RUN, its frame of mark 5 due. -/
def upLane : State := withLane fun x => { x with st := .active, nextUs := 5, div := 1, divOld := 1, mask := 0 }

theorem test_upstream : clockOn upLane = true ∧ usIntact upLane 5 (frame 5 5 true) = true ∧ usOver upLane 5 (frame 5 5 true) = false
    ∧ usInTime upLane 5 = true ∧ usIntact upLane 5 (frame 5 5 false) = false ∧ usOver upLane 5 (frame 5 3 true) = true
    ∧ (laneOf upLane 5).nextUs + divFor (laneOf upLane 5) (laneOf upLane 5).nextUs = upLane.per.count + 1 ∧ (laneOf run 5).st ≠ .active := by
  decide +kernel
/-- A placed cell of a deblocked arm without a report since mark 0, on an ACTIVE lane, at mark 4,000. -/
def silentCell : State :=
  updArm (updCell (updLane run 5 (fun x => { x with st := .active })) 240 (fun x => { x with placed := true, arm := 1 })) 1
    (fun x => { x with deblocked := true, firstDeb := 0 })

theorem test_silence : (cellOf silentCell 240).placed = true ∧ laneActive silentCell (laneOfCell 240) = true
    ∧ silenceMark silentCell (cellOf silentCell 240) ≤ 4000
    ∧ debThrough (armOf silentCell (cellOf silentCell 240).arm) (cellOf silentCell 240).lastRep 4000 = true
    ∧ (cellOf silentCell 240).silent = false ∧ (cellOf silentCell 240).retired = false := by decide +kernel
theorem test_marks : run.per.running = true ∧ run.pwr.wait ≠ .leaveRun ∧ clockOn run = true
    ∧ silenceMark run (cellOf run 7) ≤ { run with per := { run.per with count := 4000 } }.per.count
    ∧ RowOk P.FRM_HUB_HOLD_MAX (cmd 0 [2]) run := by
  unfold RowOk Admitted; decide +kernel

/-! ### AdmittedCommands -/

theorem test_admittedRows : Admitted spCleatAdd none (cmd 0 [1, 0]) run ∧ Admitted spMaintAdmit none (cmd 0 [1, 0, 0, 0, 0, 0, 0, 0]) run
    ∧ Admitted spLoopMode none (cmd 0 [1]) run ∧ Admitted spTrajFlush none (cmd 0 [0]) run := by
  unfold Admitted; decide +kernel

/-! ### EventsComplete -/

/-- The core clock stands still at reset and runs in READY. -/
theorem test_clock : clockOn State.reset = false ∧ clockOn ready = true := by decide

end Sys2Proof.Tests
end

section
/-! SUPPORT. One step of the block (R49, log entry 10): what every command and every idle tick keeps, a step keeps. -/

namespace Sys2Proof.Machine

/-- The two steps there are: an idle tick on an empty queue, else the command at the front. -/
theorem step_idle {s : State} (h : s.pending = []) : step s = ends (advanceTo s (s.tick + 1)) := by
  unfold step
  rw [h]

theorem step_front {s : State} {c : Instr} {rest : List Instr} (h : s.pending = c :: rest) :
    step s = exec c { s with pending := rest } := by
  unfold step
  rw [h]

/-- An invariant of the commands, of passing time, of the reel's look and of the queue is one of the step. -/
theorem OutInv.step {Q : State → Prop} {s : State} (hq : ∀ x l, Q x → Q { x with pending := l })
    (he : ∀ i x, Q x → OutInv Q (exec i x)) (ha : ∀ x n, Q x → Q (advanceTo x n)) (ho : ∀ x, Q x → Q (reelObserve x))
    (h : Q s) : OutInv Q (Machine.step s) := by
  cases hp : s.pending with
  | nil => exact step_idle hp ▸ .ends ho (ha s _ h)
  | cons c rest => exact step_front hp ▸ he c _ (hq s rest h)

/-- Settles O6: the commands, passing time and the reel keep the canonical form, and the queue is no part of it. -/
theorem paramsKept : Obligations.ParamsKept := by
  intro s t h e
  exact OutInv.step (Q := paramsWf) (fun _ _ q => .eq rfl q) exec_par advanceTo_par reelObserve_par h t e

/-- Settles O4: the tick before the step bounds from below the tick of every state the step passes through. -/
theorem timeNeverBack : Obligations.TimeNeverBack := by
  intro s t e
  exact OutInv.step (Q := timeFrom s.tick) (fun _ _ q => .eq rfl q) exec_tick advanceTo_tick reelObserve_tick
    (Nat.le_refl _) t e

/-! ### The idle tick -/

/-- Time, once it passes: the clock advances while it runs, and its course is recorded. -/
theorem advanceTo_time {s : State} {t : Nat} (h : s.tick < t) :
    (advanceTo s t).time = { (if clockOn s then clockAfter s (t - s.tick) else s.time) with hist := devCourse s } := by
  unfold advanceTo
  rw [if_neg (Nat.not_le.mpr h)]

theorem advanceTo_reaches {s : State} {t : Nat} (h : s.tick < t) : (advanceTo s t).tick = t := by
  unfold advanceTo
  rw [if_neg (Nat.not_le.mpr h)]

/-- No START entry waits, so none is written (R227). -/
theorem advanceTo_str_idle {s : State} (t : Nat) (h : s.str.traceDue = []) : (advanceTo s t).str = s.str := by
  unfold advanceTo
  split
  · rfl
  · simp [traceDueTo, h]

/-- No leg waits for the tick of a write, so the legs stay as they are (R378, R381). -/
theorem advanceTo_chop_idle {s : State} (t : Nat) (h : ∀ p ∈ s.chop.legs, p.2.dueAt = none) :
    (advanceTo s t).chop = s.chop := by
  unfold advanceTo
  split
  · rfl
  · exact if_pos (List.all_eq_true.mpr fun p hp => by rw [h p hp]; rfl)

/-- One tick of a running clock (R317, R323). -/
theorem clockAfter_cell (s : State) : (clockAfter s 1).cell = s.time.cell + tickUnits s := by
  unfold clockAfter
  dsimp only
  split <;> exact congrArg (s.time.cell + ·) (Nat.one_mul _)

theorem clockAfter_dev {s : State} (h : stepWaits s.time = false) :
    (clockAfter s 1).dev = s.time.dev + tickUnits s := by
  unfold clockAfter
  simp [h]

/-- A clock that advances changes device time, cell time and the waiting step only (R317, R321). -/
theorem clockAfter_frame (s : State) (n : Nat) :
    clockAfter s n = { s.time with
      dev := (clockAfter s n).dev, cell := (clockAfter s n).cell, stepTo := (clockAfter s n).stepTo
      stepBy := (clockAfter s n).stepBy } := by
  unfold clockAfter
  dsimp only
  split <;> rfl

/-- The clock after one tick, running or not. -/
theorem idle_time (s : State) :
    (advanceTo s (s.tick + 1)).time
      = { (if clockOn s then clockAfter s 1 else s.time) with hist := devCourse s } := by
  have h := advanceTo_time (Nat.lt_succ_self s.tick)
  rwa [Nat.succ_eq_add_one, Nat.add_sub_cancel_left] at h

theorem idle_time_frame (s : State) :
    (advanceTo s (s.tick + 1)).time = { s.time with
      dev := (advanceTo s (s.tick + 1)).time.dev, cell := (advanceTo s (s.tick + 1)).time.cell
      hist := (advanceTo s (s.tick + 1)).time.hist, stepTo := (advanceTo s (s.tick + 1)).time.stepTo
      stepBy := (advanceTo s (s.tick + 1)).time.stepBy } := by
  rw [idle_time]
  split
  · rw [clockAfter_frame s 1]
  · rfl

/-- Settles O2: the tick's own lemmas above, and the reel's look leaves time, trace and choppers as they are. -/
theorem stepIdle : Obligations.StepIdle := by
  intro s hp
  have k := reelObserve_keeps (advanceTo s (s.tick + 1))
  refine ⟨_, step_idle hp, reelObserve_seen _, ?_, ?_, ?_, ?_, ?_, ?_, ?_⟩
  · exact k.tick.trans (advanceTo_reaches (Nat.lt_succ_self _))
  · intro hc
    rw [k.time, idle_time, if_pos hc]
    exact ⟨clockAfter_cell s, clockAfter_dev⟩
  · intro hc
    rw [k.time, idle_time, if_neg (by simp [hc])]
    exact ⟨rfl, rfl⟩
  · rw [k.time]
    exact idle_time_frame s
  · exact fun h => k.str.trans (advanceTo_str_idle _ h)
  · exact fun h => k.chop.trans (advanceTo_chop_idle _ h)
  · exact k.step ((advanceTo_keeps s _).mono (by decide)) (by decide)

/-! ### Reset -/

/-- Settles O7: every table of the reset state is empty, so each entry reads its reset value. -/
theorem resetState : Obligations.ResetState := by
  refine ⟨rfl, rfl, rfl, rfl, fun _ _ => rfl, rfl, rfl, rfl, rfl, rfl, rfl, rfl, rfl, fun _ => rfl, fun _ => rfl,
    fun _ => rfl, rfl, rfl, rfl, rfl, rfl, rfl, ?_, ?_⟩
  · exact windowsOk.zero rfl rfl rfl rfl
  · exact paramsWf.nil rfl

end Sys2Proof.Machine
end

section
/-! SUPPORT. Rows that are no command packet (R9, R490). -/

namespace Sys2Proof.Machine

/-- Every row answers a next state, and time does not run back in it. -/
theorem exec_forward (i : Instr) (s : State) : ∃ t, exec i s = .next t ∧ s.tick ≤ t.tick := by
  obtain ⟨t, e⟩ := exec_next i s
  exact ⟨t, e, exec_tick i s (Nat.le_refl s.tick) t e⟩

theorem whenClocked_off {s : State} {o : Host.Outcome State Fault Refusal} (h : clockOn s = false) :
    whenClocked s o = .next s := by
  unfold whenClocked
  rw [if_neg (by simp [h])]

/-- A row whose meaning waits for the core clock is one of the logic that the clock drives. -/
theorem Clocked.ofExec {i : Instr} {o : Host.Outcome State Fault Refusal} (s : State)
    (h : exec i s = whenClocked s o) : Clocked s (exec i s) :=
  ⟨fun hc => h.trans (whenClocked_off hc), fun _ => exec_forward i s⟩

/-- Settles O60: the first 75 rows are those of the clocked logic, the other 36 those of the host port, the always-on
logic and the belay. -/
theorem eventsComplete : Obligations.EventsComplete := by
  unfold Obligations.EventsComplete
  iterate 75 refine And.intro (by intros; exact .ofExec _ rfl) ?_
  iterate 35 refine And.intro (by intros; exact exec_forward _ _) ?_
  exact fun s => exec_forward .belaySramError s

end Sys2Proof.Machine
end

section
/-! SUPPORT. The events of the ports (R28 to R31, R38, R70). -/

namespace Sys2Proof.Machine

/-! ### What the port rows run -/

theorem exec_readStatus (s : State) :
    exec .readStatus s = ends (if spiOn s then busPut s [wN (spiStatus s)] else s) := rfl

theorem exec_bar0Read_off {s : State} (o : BitVec 18) (w : Bool) (h : pcieOn s = false) :
    exec (.bar0Read o w) s = ends s := by
  show ends (if !pcieOn s then s else _) = ends s
  rw [if_pos (by simp [h])]

theorem exec_bar0Read_word {s : State} (o : BitVec 18) (h : pcieOn s = true) :
    exec (.bar0Read o false) s
      = ends (busPut (mirrorRead s (o.toNat / 4)).2 [(mirrorRead s (o.toNat / 4)).1]) := by
  show ends (if !pcieOn s then s else if !false then _ else _) = _
  rw [if_neg (by simp [h]), if_pos (by decide)]

/-- A 64-bit read at an aligned offset takes its words as `mirrorWide` says (R31). -/
theorem exec_bar0Read_wide {s : State} (o : BitVec 18) (h : pcieOn s = true) (ho : o.toNat % 8 = 0) :
    exec (.bar0Read o true) s = ends (busPut (mirrorWide s (o.toNat / 4)).2 (mirrorWide s (o.toNat / 4)).1) := by
  show ends (if !pcieOn s then s else if !true then _ else if o.toNat % 8 = 0 then _ else _) = _
  rw [if_neg (by simp [h]), if_neg (by decide), if_pos ho]

theorem mirrorWide_pair {s : State} {id t : Nat} {d : ParamDef} (hd : paramDef? id = some d) (hw : d.wide = true)
    (ht : mirrorTarget s id = some t) :
    mirrorWide s id
      = ([readParam s id t, readParam s (id + 1) t], setShadow s .pcie { shadowOf s .pcie with last := none }) := by
  unfold mirrorWide
  rw [hd, ht]
  exact if_pos hw

/-- Where the offset shows no 64-bit parameter in range the two words are read one after the other. -/
theorem mirrorWide_two {s : State} {id : Nat}
    (h : (∀ d, paramDef? id = some d → d.wide = false) ∨ mirrorTarget s id = none) :
    mirrorWide s id = mirrorWide.mirrorTwo s id := by
  unfold mirrorWide
  split
  · rename_i d t hd ht
    rcases h with h | h
    · exact if_neg (by simp [h d hd])
    · exact absurd (h.symm.trans ht) (by simp)
  · rfl

/-- A 64-bit read that takes no pair at once takes its two words one after the other (R31). -/
theorem exec_bar0Read_two {s : State} (o : BitVec 18) (h : pcieOn s = true)
    (hw : o.toNat % 8 ≠ 0 ∨ (∀ d, paramDef? (o.toNat / 4) = some d → d.wide = false)
      ∨ mirrorTarget s (o.toNat / 4) = none) :
    exec (.bar0Read o true) s
      = ends (busPut (mirrorWide.mirrorTwo s (o.toNat / 4)).2 (mirrorWide.mirrorTwo s (o.toNat / 4)).1) := by
  by_cases ho : o.toNat % 8 = 0
  · rw [exec_bar0Read_wide o h ho, mirrorWide_two (hw.resolve_left (absurd ho))]
  · show ends (if !pcieOn s then s else if !true then _ else if o.toNat % 8 = 0 then _ else _) = _
    rw [if_neg (by simp [h]), if_neg (by decide), if_neg ho]
    rfl

theorem mirrorRead_some {s : State} {id t : Nat} (h : mirrorTarget s id = some t) :
    mirrorRead s id = readAs s .pcie id t := by
  unfold mirrorRead
  rw [h]

theorem mirrorRead_none {s : State} {id : Nat} (h : mirrorTarget s id = none) :
    mirrorRead s id = (0, setShadow s .pcie { shadowOf s .pcie with last := none }) := by
  unfold mirrorRead
  rw [h]

theorem exec_pcieReset_off {s : State} (h : pcieOn s = false) : exec .pcieReset s = ends s := by
  show ends (if pcieOn s then _ else s) = ends s
  rw [if_neg (by simp [h])]

theorem exec_pcieReset_on {s : State} (h : pcieOn s = true) :
    exec .pcieReset s = ends (updHost s (fun h => { h with
      cmdWin := [], rplWin := [], cmdTail := 0, cmdHead := 0, rplTail := 0, rplHead := 0, msix := [], pba := 0, held := []
      pcie := ⟨none, []⟩ })) := by
  show ends (if pcieOn s then _ else s) = _
  rw [if_pos h]

/-- The watchdog's own condition (R70). -/
theorem exec_hostSilent_due {s u : State} (hc : clockOn s = true) (hw : getN s P.HOST_WDOG 0 ≠ 0)
    (ha : anyDeb s = true) (hu : u = advanceTo s (s.host.lastGood + 200000 * getN s P.HOST_WDOG 0)) :
    exec .hostSilent s = ends (if causeHeld u F.HOST_SILENT 0 then u else raiseFault u F.HOST_SILENT 0) := by
  show whenClocked s (ends (if getN s P.HOST_WDOG 0 != 0 && anyDeb s then _ else s)) = _
  rw [whenClocked_on hc, if_pos (by simp [hw, ha]), hu]

theorem exec_hostSilent_idle {s : State} (hc : clockOn s = true)
    (h : getN s P.HOST_WDOG 0 = 0 ∨ anyDeb s = false) : exec .hostSilent s = ends s := by
  show whenClocked s (ends (if getN s P.HOST_WDOG 0 != 0 && anyDeb s then _ else s)) = _
  rw [whenClocked_on hc, if_neg (by rcases h with h | h <;> simp [h])]

/-- A row that runs to a state is seen from there. -/
theorem seen_of_exec {i : Instr} {s u : State} (h : exec i s = ends u) : ∃ t, exec i s = .next t ∧ Seen u t := by
  rw [h]
  exact ends_seen u

/-- Settles O19: each clause is the row's own equation above, then the reel's look at the lines. -/
theorem portEvents : Obligations.PortEvents := by
  intro s
  refine ⟨fun h => ?_, fun h => ⟨fun o w => ?_, ?_⟩, fun o d x h ho hd hw ht => ?_, fun o a b h hor ha hb => ?_,
    fun h => ?_, fun o x h ht => ?_, fun o h ht => ?_, fun h => ?_, ?_, fun u hc hw ha hu => ?_, fun hc h => ?_⟩
  · exact seen_of_exec ((exec_readStatus s).trans (by rw [if_neg (by simp [h])]))
  · exact seen_of_exec (exec_bar0Read_off o w h)
  · exact seen_of_exec (exec_pcieReset_off h)
  · exact seen_of_exec ((exec_bar0Read_wide o h ho).trans (by rw [mirrorWide_pair hd hw ht]; rfl))
  · subst hb ha
    exact seen_of_exec (exec_bar0Read_two o h hor)
  · exact seen_of_exec ((exec_readStatus s).trans (by rw [if_pos h]; rfl))
  · exact seen_of_exec ((exec_bar0Read_word o h).trans (by rw [mirrorRead_some ht]; rfl))
  · exact seen_of_exec ((exec_bar0Read_word o h).trans (by rw [mirrorRead_none ht]; rfl))
  · exact seen_of_exec (exec_pcieReset_on h)
  · exact seen_of_exec rfl
  · exact seen_of_exec (exec_hostSilent_due hc hw ha hu)
  · exact seen_of_exec (exec_hostSilent_idle hc h)

end Sys2Proof.Machine
end

section
/-! SUPPORT. What `PING`, `GET_PARAM` and `GET_BLOCK` answer (R62, R63). -/

namespace Sys2Proof.Machine

/-- A packet's arrival stages nothing and keeps what is staged. -/
theorem stagedW_arrived (s : State) (c : Cmd) (id t : Nat) : stagedW (arrived s c) id t = stagedW s id t := by
  unfold stagedW
  rw [(arrived_keeps s c).staged]

theorem getP_arrived (s : State) (c : Cmd) (id t : Nat) : getP (arrived s c) id t = getP s id t :=
  ((arrived_keeps s c).2 rfl).1 id t rfl

/-! ### `GET_PARAM`, by the kind of its parameter -/

theorem getParamBody_undefined {c : Cmd} (s : State) (h : paramAny? (pw c 0 % 65536) = none) :
    getParamBody c s = .err ⟨St.param, pw c 0 % 65536, pw c 0 % 65536⟩ := by
  unfold getParamBody
  simp only [h]

theorem getParamBody_wide {c : Cmd} {d : ParamDef} (s : State) (h : paramAny? (pw c 0 % 65536) = some d)
    (hw : d.wide = true) :
    getParamBody c s = .ok 0 [(readAs s c.port (pw c 0 % 65536) (tgt c)).1, readParam s (pw c 0 % 65536 + 1) (tgt c)]
      (readAs s c.port (pw c 0 % 65536) (tgt c)).2 := by
  unfold getParamBody
  simp only [h]
  exact if_pos hw

theorem getParamBody_held {c : Cmd} {d : ParamDef} {s : State} (h : paramAny? (pw c 0 % 65536) = some d)
    (hw : d.wide = false) (hs : bit (pw c 0) 16 = false ∨ stagedW s (pw c 0 % 65536) (tgt c) = none) :
    getParamBody c s
      = .ok 0 [(readAs s c.port (pw c 0 % 65536) (tgt c)).1] (readAs s c.port (pw c 0 % 65536) (tgt c)).2 := by
  have e : (if bit (pw c 0) 16 then stagedW s (pw c 0 % 65536) (tgt c) else none) = none := by
    rcases hs with hs | hs <;> simp [hs]
  unfold getParamBody
  simp only [h, hw, e]
  rfl

theorem getParamBody_staged {c : Cmd} {d : ParamDef} {s : State} {w : Word}
    (h : paramAny? (pw c 0 % 65536) = some d) (hw : d.wide = false) (hb : bit (pw c 0) 16 = true)
    (hs : stagedW s (pw c 0 % 65536) (tgt c) = some w) :
    getParamBody c s = .ok 0 [w] (readAs s c.port (pw c 0 % 65536) (tgt c)).2 := by
  unfold getParamBody
  simp only [h, hw, hb, hs]
  rfl

/-- Settles O20: each clause is what the command's body answers on the state its packet leaves as it arrives. -/
theorem readCommands : Obligations.ReadCommands := by
  refine ⟨fun c s h => ?_, fun c s d h hd hw hs => ?_, fun c s d w h hd hw hb hs => ?_, fun c s d h hd hw => ?_,
    fun c s h hd => ?_, fun c s h hb => ?_, fun c s h hb => ?_⟩
  · refine exec_ok (body := pingBody) h ?_
    rw [pingBody, getP_arrived]
  · exact exec_ok h (getParamBody_held hd hw (stagedW_arrived s c _ _ ▸ hs))
  · exact exec_ok h (getParamBody_staged hd hw hb ((stagedW_arrived s c _ _).trans hs))
  · exact exec_ok h (getParamBody_wide _ hd hw)
  · exact exec_err h (getParamBody_undefined _ hd)
  · exact exec_ok (body := getBlockBody) h (if_pos hb)
  · exact exec_ok (body := getBlockBody) h (if_neg (by simp [hb]))

end Sys2Proof.Machine
end

section
/-! SUPPORT. `SET_PARAM` by the kind of its parameter: what it refuses (R14, R59, R518, R519) and what it writes (R14,
R56, R61, R518). -/

namespace Sys2Proof.Machine

/-! ### A `SET_PARAM` is refused or answered as its check says -/

theorem exec_setParam_err {c : Cmd} {s : State} {e : CmdErr} (h : Admitted (spSetParam c) (paramOwn c) c s)
    (he : setErr (arrived s c) (pw c 0 % 65536) (tgt c) (c.payload.getD 1 0) = some e) :
    ∃ t, exec (.setParam c) s = .next t
      ∧ Replied 0x03 e.status e.detail [BitVec.ofNat 32 e.diag] c (arrived s c) t := by
  refine exec_err (body := setParamBody) h ?_
  show Res.check (setErr (arrived s c) (pw c 0 % 65536) (tgt c) (c.payload.getD 1 0)) _ = _
  rw [he]
  rfl

theorem exec_setParam_ok {c : Cmd} {s u : State} (h : Admitted (spSetParam c) (paramOwn c) c s)
    (he : setErr (arrived s c) (pw c 0 % 65536) (tgt c) (c.payload.getD 1 0) = none)
    (hu : setWord (arrived s c) (pw c 0 % 65536) (tgt c) (c.payload.getD 1 0) = u) :
    ∃ t, exec (.setParam c) s = .next t ∧ Replied 0x03 St.ok 0 [] c u t := by
  refine exec_ok (body := setParamBody) h ?_
  show Res.check (setErr (arrived s c) (pw c 0 % 65536) (tgt c) (c.payload.getD 1 0)) (Res.done _) = _
  rw [he, hu]
  rfl

/-! ### The refusals -/

theorem setErr_undefined {id : Nat} (s : State) (t : Nat) (w : Word) (h : paramDef? id = none) :
    setErr s id t w = some ⟨St.param, id, id⟩ := by
  unfold setErr
  rw [h]

theorem setErr_safety {id : Nat} {d : ParamDef} (s : State) (t : Nat) (w : Word) (h : paramDef? id = some d)
    (hb : id / 256 = 0x40) : setErr s id t w = some ⟨St.locked, id, id⟩ := by
  unfold setErr
  rw [h]
  exact if_pos hb

theorem setErr_readOnly {id : Nat} {d : ParamDef} (s : State) (t : Nat) (w : Word) (h : paramDef? id = some d)
    (hb : id / 256 ≠ 0x40) (ha : d.access = .ro ∨ d.access = .rs) : setErr s id t w = some ⟨St.param, id, id⟩ := by
  rcases ha with ha | ha <;> simp only [setErr, h, hb, if_false, ha]

theorem setErr_clear {id : Nat} {d : ParamDef} (s : State) (t : Nat) (w : Word) (h : paramDef? id = some d)
    (hb : id / 256 ≠ 0x40) (ha : d.access = .rw1c) : setErr s id t w = clearErr d w := by
  simp only [setErr, h, hb, if_false, ha]

theorem setErr_value {id : Nat} {d : ParamDef} (s : State) (t : Nat) (w : Word) (h : paramDef? id = some d)
    (hb : id / 256 ≠ 0x40) (ha : d.access = .rw ∨ d.access = .wo) : setErr s id t w = setErr.valueErr s t w d := by
  rcases ha with ha | ha <;> simp only [setErr, h, hb, if_false, ha]

/-- A flag word takes every word (R518). -/
theorem clearErr_flag {d : ParamDef} {m : Nat} (w : Word) (h : flagMask d.id = some m) : clearErr d w = none := by
  unfold clearErr
  rw [h]

/-- A counter takes 0 and 0xFFFFFFFF (R518). -/
theorem clearErr_counter {d : ParamDef} (w : Word) (h : flagMask d.id = none) :
    clearErr d w = errIf (w.toNat != 0 && w.toNat != 0xFFFFFFFF) St.range d.id w.toNat := by
  unfold clearErr
  rw [h]

/-- The two words a counter takes pass the check of its write. -/
theorem setErr_counter_taken {id : Nat} {d : ParamDef} {w : Word} (s : State) (t : Nat) (h : paramDef? id = some d)
    (hb : id / 256 ≠ 0x40) (ha : d.access = .rw1c) (hf : flagMask d.id = none) (hw : w = 0xFFFFFFFF ∨ w = 0) :
    setErr s id t w = none := by
  rw [setErr_clear s t w h hb ha, clearErr_counter w hf]
  rcases hw with rfl | rfl <;> rfl

theorem rangeErr_out {d : ParamDef} {w : Word} (h : widthOk d w = false ∨ inRange d w = false) :
    rangeErr d w = some ⟨St.range, d.id, w.toNat⟩ := by
  unfold rangeErr
  exact if_pos (by rcases h with h | h <;> simp [h])

theorem rangeErr_in {d : ParamDef} {w : Word} (hw : widthOk d w = true) (hr : inRange d w = true) :
    rangeErr d w = none := by
  unfold rangeErr
  exact if_neg (by simp [hw, hr])

/-- A word out of range is refused before every other check of its value (R519). -/
theorem valueErr_range {s : State} {d : ParamDef} {w : Word} {e : CmdErr} (t : Nat) (h : rangeErr d w = some e) :
    setErr.valueErr s t w d = some e := by
  unfold setErr.valueErr
  rw [h]
  rfl

/-- A word in range is refused while its group is armed (R59). -/
theorem valueErr_armed {s : State} {d : ParamDef} {t : Nat} {w : Word} (hr : rangeErr d w = none)
    (hs : specialErr s d.id t w = none) (hg : d.group ≠ 0)
    (ha : groupArmed s d.group (groupTarget d.group t) = true) :
    setErr.valueErr s t w d = some ⟨St.state, 7, d.group⟩ := by
  unfold setErr.valueErr
  rw [hr, hs, show errIf (d.group != 0 && groupArmed s d.group (groupTarget d.group t)) St.state 7 d.group
    = some ⟨St.state, 7, d.group⟩ from if_pos (by simp [hg, ha])]
  rfl

/-- A packet's arrival arms no group and disarms none. -/
theorem groupArmed_arrived (s : State) (c : Cmd) (g t : Nat) : groupArmed (arrived s c) g t = groupArmed s g t := by
  unfold groupArmed
  rw [(arrived_keeps s c).armedG]

/-- Settles O22: each clause is the one refusal that its hypotheses leave. -/
theorem setParamRefusals : Obligations.SetParamRefusals := by
  rintro c s _ rfl h
  have err := fun e => exec_setParam_err (e := e) h
  have word : BitVec.ofNat 32 (c.payload.getD 1 0).toNat = c.payload.getD 1 0 := by rw [BitVec.ofNat_toNat, BitVec.setWidth_eq]
  refine ⟨fun hd => err _ (setErr_undefined _ _ _ hd), fun d hd => ⟨fun hb => err _ (setErr_safety _ _ _ hd hb),
    fun hb ha => err _ (setErr_readOnly _ _ _ hd hb ha), fun hb ha hf h0 h1 => ?_, fun hb ha hr => ?_,
    fun hb ha hw hr hs hg hx => ?_⟩⟩
  · rw [← word]
    refine err ⟨St.range, d.id, (c.payload.getD 1 0).toNat⟩ ?_
    rw [setErr_clear _ _ _ hd hb ha, clearErr_counter _ hf]
    exact if_pos (by simp only [bne_iff_ne, Bool.and_eq_true]; exact ⟨h0, h1⟩)
  · rw [← word]
    refine err ⟨St.range, d.id, (c.payload.getD 1 0).toNat⟩ ?_
    rw [setErr_value _ _ _ hd hb ha]
    exact valueErr_range _ (rangeErr_out hr)
  · refine err ⟨St.state, 7, d.group⟩ ?_
    rw [setErr_value _ _ _ hd hb (.inl ha)]
    exact valueErr_armed (rangeErr_in hw hr) hs hg ((groupArmed_arrived s c _ _).trans hx)

/-! ### The writes -/

/-- Outside the parameters that act by themselves nothing follows the write of the word. -/
theorem afterSet_plain {id : Nat} (s : State) (t : Nat) (old : Word) (h : actingIds.contains id = false) :
    afterSet s id t old = s := by
  simp only [actingIds, List.contains_cons, List.contains_nil, Bool.or_false, Bool.or_eq_false_iff, beq_eq_false_iff_ne]
    at h
  simp only [afterSet, h, if_false]

theorem setWord_plain {id : Nat} {d : ParamDef} (s : State) (t : Nat) (w : Word) (h : paramDef? id = some d)
    (ha : d.access = .rw) (hg : d.group = 0) (hi : actingIds.contains id = false) :
    setWord s id t w = tallyTouch (putP s id t w) id := by
  simp only [setWord, h, ha, hg, ne_eq, not_true_eq_false, if_false, afterSet_plain _ _ _ hi]

theorem setWord_group {id : Nat} {d : ParamDef} (s : State) (t : Nat) (w : Word) (h : paramDef? id = some d)
    (ha : d.access = .rw) (hg : d.group ≠ 0) : setWord s id t w = stageW s id t w := by
  simp only [setWord, h, ha, ne_eq, hg, not_false_eq_true, if_true]

theorem setWord_clear {id : Nat} {d : ParamDef} (s : State) (t : Nat) (w : Word) (h : paramDef? id = some d)
    (ha : d.access = .rw1c) : setWord s id t w = clearSet s id t w := by
  simp only [setWord, h, ha]

theorem clearSet_flag {id m : Nat} (s : State) (t : Nat) (w : Word) (h : flagMask id = some m) :
    clearSet s id t w = putN s id t (getN s id t - (getN s id t &&& (w.toNat &&& m))) := by
  simp only [clearSet, h]

theorem clearSet_counter {id : Nat} (s : State) (t : Nat) (w : Word) (h : flagMask id = none) :
    clearSet s id t w = if w.toNat = 0xFFFFFFFF then putN s id t 0 else s := by
  simp only [clearSet, h]

/-- A word staged is the word that waits (R56). -/
theorem stagedW_stageW (s : State) (id t : Nat) (w : Word) : stagedW (stageW s id t w) id t = some w :=
  tabGet_tabSet_same none s.staged (pkey id t) (some w)

/-- The counts of the task slots and of the lost trace entries, which the digests' task may change, are no RW
parameters (R14). -/
theorem not_rw_of_taskCount {id : Nat} {d : ParamDef} (h : paramDef? id = some d)
    (hi : [P.STR_READY_MAX, P.STR_SLOTS_HIGH, P.STR_TRACE_LOST].contains id = true) : d.access ≠ .rw := by
  have all : ∀ i ∈ [P.STR_READY_MAX, P.STR_SLOTS_HIGH, P.STR_TRACE_LOST],
      ∀ d ∈ paramDef? i, d.access ≠ .rw := by decide
  exact all id (by simpa using hi) d h

/-- That the digests are due anew changes no RW parameter. -/
theorem getP_tallyTouch {id : Nat} {d : ParamDef} (s : State) (j t : Nat) (h : paramDef? id = some d)
    (ha : d.access = .rw) : getP (tallyTouch s j) id t = getP s id t :=
  ((tallyTouch_keeps s j).2 rfl).1 id t (Bool.eq_false_iff.mpr fun hi => not_rw_of_taskCount h hi ha)

/-- Settles O21: the check passes in each clause, and the write is the one of the parameter's kind. -/
theorem setParamWrites : Obligations.SetParamWrites := by
  rintro c s _ d rfl hd h hb
  refine ⟨fun ha he hg hi => ?_, fun ha he hg => ?_, fun m ha hid hf => ?_, fun ha hid hf hw => ?_,
    fun ha hid hf hw => ?_⟩
  · obtain ⟨t, ht, hr⟩ := exec_setParam_ok h he (setWord_plain _ _ _ hd ha hg hi)
    exact ⟨t, ht, hr, (getP_tallyTouch _ _ _ hd ha).trans (getP_putP_same _ _ _ _)⟩
  · obtain ⟨t, ht, hr⟩ := exec_setParam_ok h he (setWord_group _ _ _ hd ha hg)
    exact ⟨t, ht, hr, stagedW_stageW _ _ _ _⟩
  · refine exec_setParam_ok h ?_ ((setWord_clear _ _ _ hd ha).trans (clearSet_flag _ _ _ hf))
    exact (setErr_clear _ _ _ hd hb ha).trans (clearErr_flag _ (hid.symm ▸ hf))
  · refine exec_setParam_ok h (setErr_counter_taken _ _ hd hb ha (hid.symm ▸ hf) (.inl hw))
      ((setWord_clear _ _ _ hd ha).trans ?_)
    rw [clearSet_counter _ _ _ hf, hw]
    rfl
  · refine exec_setParam_ok h (setErr_counter_taken _ _ hd hb ha (hid.symm ▸ hf) (.inr hw))
      ((setWord_clear _ _ _ hd ha).trans ?_)
    rw [clearSet_counter _ _ _ hf, hw]
    rfl

end Sys2Proof.Machine
end

section
/-! SUPPORT. What a step does with its queue and with the host windows (R33, R49). -/

namespace Sys2Proof.Machine

/-- Settles O5: the commands, passing time and the reel keep both windows, and the queue is no part of them. -/
theorem windowsKept : Obligations.WindowsKept := by
  intro s t h e
  exact OutInv.step (Q := windowsOk) (fun _ _ q => .eq rfl q) exec_win advanceTo_win reelObserve_win h t e

/-- No command and no event touches the queue. -/
theorem exec_pending {i : Instr} {s t : State} (e : exec i s = .next t) : t.pending = s.pending :=
  (exec_keeps i s t e).pending

/-- Settles O1: the queue of `withFront` begins with the command. -/
theorem stepRunsFront : Obligations.StepRunsFront := by
  intro s c rest
  exact step_front (s := withFront s c rest) rfl

/-- Settles O3: an idle tick has nothing to take, a command answers a next state and leaves the rest of the queue. -/
theorem stepTakesFront : Obligations.StepTakesFront := by
  intro s
  cases hp : s.pending with
  | nil =>
    have k := (reelObserve_keeps (advanceTo s (s.tick + 1))).pending.trans (advanceTo_keeps s (s.tick + 1)).pending
    exact ⟨_, step_idle hp, k.trans hp⟩
  | cons c rest =>
    obtain ⟨t, e⟩ := exec_next c { s with pending := rest }
    exact ⟨t, (step_front hp).trans e, exec_pending e⟩

end Sys2Proof.Machine
end

section
/-! SUPPORT. The rows of the command table (R44, R53, R62, R65, R66): which row a constructor runs, and how any row is
refused, answered or tried as a dry run. -/

namespace Sys2Proof.Machine

/-- Settles O8: one case per command constructor, each of which runs the row its opcode names. -/
theorem commandRows : Obligations.CommandRows := by
  intro i op c h
  unfold cmdOf? at h
  split at h
  case h_73 => exact absurd h (by simp)
  all_goals
    obtain ⟨rfl, rfl⟩ := Prod.mk.inj (Option.some.inj h)
    exact ⟨_, rfl, rfl, fun _ => rfl⟩

/-- The row of a command constructor, as the statements about any row name it. -/
theorem exec_row {i : Instr} {op : Nat} {c : Cmd} {r : CmdRow} (h : cmdOf? i = some (op, c))
    (hr : cmdRow? op c = some r) :
    r.sp.op = op ∧ ∀ s, exec i s = ends (runCmd r.sp r.own r.body c s) := by
  obtain ⟨r', hr', hop, he⟩ := commandRows i op c h
  obtain rfl : r' = r := Option.some.inj (hr'.symm.trans hr)
  exact ⟨hop, he⟩

/-! ### Dry runs (R53) -/

/-- A dry run answers its verdict on the state it found. -/
theorem finish_dry {op : Nat} {c : Cmd} (r : Res) (s : State) (h : c.dryRun = true) :
    finish op c r s = answer s op c (dryReply r).1 (dryReply r).2.1 (dryReply r).2.2 := by
  cases r <;> simp only [finish, dryReply, h, if_true]

theorem runCmd_dry {sp : CmdSpec} {own : Option CmdErr} {body : Cmd → State → Res} {c : Cmd} {s : State}
    (ht : takeable s c.port = true) : runCmd sp own body c s
      = finish sp.op c (Res.check (commonErr sp own c s) (body c (arrived s c))) (arrived s c) := by
  unfold runCmd
  rw [if_pos ht, ← commonErr_arrived sp own c s]
  rfl

/-- Settles O9: the verdict of the checks is answered on the state in which the packet arrived. -/
theorem dryRunChangesNothing : Obligations.DryRunChangesNothing := by
  intro i op c r s h hr ht hd
  obtain ⟨rfl, he⟩ := exec_row h hr
  refine ⟨_, he s, ?_⟩
  rw [runCmd_dry ht, finish_dry _ _ hd]
  exact answer_replied _ _ _ _ _ _

/-! ### Refusals (R44, R47, R49) -/

/-- Settles O10: a check of R44, an admission test, or a port that cannot be served. -/
theorem refusedCommandsChangeNothing : Obligations.RefusedCommandsChangeNothing := by
  intro i op c r s h hr
  obtain ⟨rfl, he⟩ := exec_row h hr
  rw [he s]
  exact ⟨fun e ht hc => exec_common ht hc, fun e ha hb => exec_err ha hb,
    fun ht => ⟨_, exec_untaken ht, reelObserve_seen s⟩⟩

/-! ### Admitted commands (R44, R50, R51) -/

/-- A refusal that leaves a trace (R418): the error reply, beside it the trace. -/
theorem exec_fail {sp : CmdSpec} {own : Option CmdErr} {body : Cmd → State → Res} {c : Cmd} {s u : State} {e : CmdErr}
    (h : Admitted sp own c s) (hb : body c (arrived s c) = .fail e u) :
    ∃ t, ends (runCmd sp own body c s) = .next t
      ∧ Replied sp.op e.status e.detail [BitVec.ofNat 32 e.diag] c u t := by
  refine ⟨_, rfl, ?_⟩
  rw [runCmd_admitted h, hb]
  simp only [finish, h.2.1]
  exact answer_replied _ _ _ _ _ _

/-- An admitted command answers as the verdict of its own checks and effect says. -/
theorem exec_answered {sp : CmdSpec} {own : Option CmdErr} {body : Cmd → State → Res} {c : Cmd} {s : State}
    (h : Admitted sp own c s) :
    ∃ t, ends (runCmd sp own body c s) = .next t ∧ Answered sp.op c (body c (arrived s c)) (arrived s c) t := by
  cases hb : body c (arrived s c) with
  | err e => exact exec_err h hb
  | fail e u => exact exec_fail h hb
  | ok d p u => exact exec_ok h hb
  | accepted u f => exact exec_started h hb
  | later u => exact exec_later h hb

/-- A write row whose checks pass holds its parameter's word. -/
theorem exec_rowDone {id : Nat} {c : Cmd} {s : State} (hid : id < 65536) (h : RowOk id c s) :
    ∃ t, ends (setParam (paramCmd id c) s) = .next t
      ∧ RowDone id c (setWord (rowFrom id c s) id (tgt c) (c.payload.getD 0 0)) t :=
  param_row hid h.1 h.2 rfl

/-- Settles O59: first the rows of the opcode table, then the write rows; among each stand the rows that fill in a
payload word and run the packet that holds it. -/
theorem admittedCommands : Obligations.AdmittedCommands := by
  unfold Obligations.AdmittedCommands
  iterate 4 refine And.intro (fun c s h => exec_answered h) ?_
  refine And.intro (fun c d s hd h => hd ▸ exec_answered (hd ▸ h)) ?_
  iterate 10 refine And.intro (fun c s h => exec_answered h) ?_
  refine And.intro (fun c d s hd h => hd ▸ exec_answered (hd ▸ h)) ?_
  iterate 39 refine And.intro (fun c s h => exec_answered h) ?_
  iterate 4 refine And.intro (fun c s h => exec_rowDone (by decide) h) ?_
  refine And.intro (fun c d s hd h => hd ▸ exec_rowDone (by decide) (hd ▸ h)) ?_
  iterate 11 refine And.intro (fun c s h => exec_rowDone (by decide) h) ?_
  exact fun c s h => exec_rowDone (by decide) h

/-! ### LISTEN (R66) -/

/-- The rows that LISTEN has: `PING`, `GET_PARAM` and `SET_PARAM` on the blocks DEV and PWR, `POWER_STATE`. -/
def listenOp (op : Nat) (c : Cmd) : Prop :=
  op = 0x01 ∨ ((op = 0x02 ∨ op = 0x03)
    ∧ (pw c 0 % 65536 / 256 = 0x00 ∨ pw c 0 % 65536 / 256 = 0x02)) ∨ op = 0xC0

theorem cmdRow?_cases {op : Nat} {c : Cmd} {r : CmdRow} (h : cmdRow? op c = some r) :
    rowA c op = some r ∨ rowB op = some r ∨ rowC c op = some r ∨ rowD op = some r := by
  unfold cmdRow? at h
  simp only [Option.or_eq_some_iff] at h
  tauto

theorem rowA_listen {c : Cmd} {op : Nat} {r : CmdRow} (h : rowA c op = some r) :
    r.sp.listen = true ↔ listenOp op c := by
  unfold rowA at h
  split at h
  case h_12 => exact absurd h (by simp)
  all_goals obtain rfl := Option.some.inj h
  case h_1 => exact iff_of_true rfl (.inl rfl)
  case h_2 => simp [listenOp, spGetParam, listenBlock]
  case h_3 => simp [listenOp, spSetParam, listenBlock]
  all_goals exact iff_of_false Bool.false_ne_true (by simp [listenOp])

theorem rowB_listen {c : Cmd} {op : Nat} {r : CmdRow} (h : rowB op = some r) :
    r.sp.listen = true ↔ listenOp op c := by
  unfold rowB at h
  split at h
  case h_16 => exact absurd h (by simp)
  all_goals
    obtain rfl := Option.some.inj h
    exact iff_of_false Bool.false_ne_true (by simp [listenOp])

theorem rowC_listen {c : Cmd} {op : Nat} {r : CmdRow} (h : rowC c op = some r) :
    r.sp.listen = true ↔ listenOp op c := by
  unfold rowC at h
  split at h
  case h_16 => exact absurd h (by simp)
  all_goals
    obtain rfl := Option.some.inj h
    exact iff_of_false Bool.false_ne_true (by simp [listenOp])

theorem rowD_listen {c : Cmd} {op : Nat} {r : CmdRow} (h : rowD op = some r) :
    r.sp.listen = true ↔ listenOp op c := by
  unfold rowD at h
  split at h
  case h_13 => exact absurd h (by simp)
  all_goals obtain rfl := Option.some.inj h
  case h_9 => exact iff_of_true rfl (.inr (.inr rfl))
  all_goals exact iff_of_false Bool.false_ne_true (by simp [listenOp])

theorem cmdRow?_listen {op : Nat} {c : Cmd} {r : CmdRow} (h : cmdRow? op c = some r) :
    r.sp.listen = true ↔ listenOp op c := by
  rcases cmdRow?_cases h with h | h | h | h
  · exact rowA_listen h
  · exact rowB_listen h
  · exact rowC_listen h
  · exact rowD_listen h

theorem powerErr_listen {sp : CmdSpec} {s : State} (h : s.pwr.state = .listen) :
    powerErr sp s = errIf (!sp.listen) St.state 1 1 := by
  unfold powerErr
  rw [h]
  rfl

theorem pcieOn_listen {s : State} (h : s.pwr.state = .listen) : pcieOn s = false := by
  simp [pcieOn, h]

/-- The last of a list of checks decides where those before it find nothing (R44). -/
theorem firstErr_concat (l : List (Option CmdErr)) (e : Option CmdErr) : firstErr (l ++ [e]) = (firstErr l).or e := by
  induction l with
  | nil => cases e <;> rfl
  | cons a l ih => cases a with
    | none => exact ih
    | some a => rfl

theorem commonErr_power {sp : CmdSpec} {own : Option CmdErr} {c : Cmd} {s : State}
    (h : firstErr [targetErr sp c, own, lengthErr sp c] = none) : commonErr sp own c s = powerErr sp s :=
  (firstErr_concat [targetErr sp c, own, lengthErr sp c] (powerErr sp s)).trans (by rw [h, Option.none_or])

/-- Settles O11: in LISTEN a row's own flag decides, which is set for the rows of R66 alone. -/
theorem listenCommands : Obligations.ListenCommands := by
  intro s hs
  refine ⟨pcieOn_listen hs, pcieOn_listen hs, fun i op c r h hr => ?_⟩
  obtain ⟨rfl, he⟩ := exec_row h hr
  rw [powerErr_listen hs]
  cases hl : r.sp.listen with
  | true => exact ⟨iff_of_true rfl ((cmdRow?_listen hr).mp hl), fun hn => absurd rfl hn⟩
  | false =>
    refine ⟨iff_of_false (by simp [errIf]) fun ho => ?_, fun _ hc ht => ?_⟩
    · exact Bool.false_ne_true (hl.symm.trans ((cmdRow?_listen hr).mpr ho))
    · rw [he s]
      refine exec_common (e := ⟨St.state, 1, 1⟩) ht ?_
      rw [commonErr_power hc, powerErr_listen hs, hl]
      rfl

end Sys2Proof.Machine
end

section
/-! SUPPORT. Replies to the ports (R33, R36, R40, R43, R51, R67): where their words stand, and which causes they set. -/

namespace Sys2Proof.Machine

/-! ### Interrupt causes (R67) -/

theorem bit_eq_testBit (w i : Nat) : bit w i = w.testBit i := by
  rw [bit, Nat.testBit_eq_decide_div_mod_eq, Nat.shiftRight_eq_div_pow, beq_eq_decide]

theorem bit_orP {b : Nat} (s : State) (id t : Nat) (hb : b < 32) : bit (getN (orP s id t (2 ^ b)) id t) b = true := by
  unfold orP putN getN
  rw [getP_putP_same, BitVec.toNat_ofNat, bit_eq_testBit, Nat.testBit_mod_two_pow, Nat.testBit_or,
    Nat.testBit_two_pow_self, Bool.or_true, decide_eq_true hb, Bool.and_true]

/-- A cause set holds. -/
theorem bit_irqSet {b : Nat} (s : State) (hb : b < 32) : bit (getN (irqSet s b) P.HOST_IRQ_CAUSE 0) b = true := by
  unfold irqSet
  split
  · assumption
  · dsimp only
    split <;> exact bit_orP s P.HOST_IRQ_CAUSE 0 hb

/-- A cause leaves the windows, their pointers and what waits as they are. -/
theorem irqSet_windows (s : State) (b : Nat) : (irqSet s b).host.rplWin = s.host.rplWin
    ∧ (irqSet s b).host.rplTail = s.host.rplTail ∧ (irqSet s b).host.spiOut = s.host.spiOut := by
  rw [irqSet_msi s b]
  exact ⟨rfl, rfl, rfl⟩

/-! ### The reply window (R33, R36) -/

/-- The words of a run written into a ring of 1,024 words from a place on. -/
def ringPut (t : Tab Word) (n : Nat) (ws : List (Word × Nat)) : Tab Word :=
  ws.foldl (fun t p => tabSet 0 t ((n + p.2) % 1024) p.1) t

theorem rplPut_rplWin (h : HostSt) (ws : List Word) :
    (rplPut h ws).rplWin = ringPut h.rplWin h.rplTail.toNat ws.zipIdx := rfl

/-- Places that no word of the run takes keep theirs. -/
theorem tabGet_ringPut_ne {j n k : Nat} {ws : List Word} {t : Tab Word}
    (h : ∀ i < ws.length, j ≠ (n + (k + i)) % 1024) : tabGet 0 (ringPut t n (ws.zipIdx k)) j = tabGet 0 t j := by
  induction ws generalizing t k with
  | nil => rfl
  | cons w ws ih =>
    refine (ih (k := k + 1) (t := tabSet 0 t ((n + k) % 1024) w) fun i hi => ?_).trans (tabGet_tabSet_ne 0 t _ _ w ?_)
    · rw [Nat.add_right_comm k 1 i, Nat.add_assoc k i 1]
      exact h (i + 1) (Nat.succ_lt_succ hi)
    · exact (h 0 (Nat.succ_pos _)).symm

/-- A run no longer than the ring stands in it whole. -/
theorem tabGet_ringPut {i n k : Nat} {ws : List Word} {t : Tab Word} (hl : ws.length ≤ 1024) (hi : i < ws.length) :
    tabGet 0 (ringPut t n (ws.zipIdx k)) ((n + (k + i)) % 1024) = ws.getD i 0 := by
  induction ws generalizing t k i with
  | nil => exact absurd hi (Nat.not_lt_zero i)
  | cons w ws ih =>
    rw [List.length_cons] at hl hi
    cases i with
    | zero =>
      refine (tabGet_ringPut_ne (k := k + 1) (t := tabSet 0 t ((n + k) % 1024) w) fun i _ => ?_).trans
        (tabGet_tabSet_same 0 t _ w)
      omega
    | succ i =>
      rw [List.getD_cons_succ, ← Nat.add_assoc k i 1, Nat.add_right_comm k i 1]
      exact ih (k := k + 1) (t := tabSet 0 t ((n + k) % 1024) w) (Nat.le_of_succ_le hl) (Nat.lt_of_succ_lt_succ hi)

/-! ### Delivery (R36, R40) -/

theorem sendReply_written {s : State} (irq : Bool) {ws : List Word} (ho : pcieOn s = true) (hh : s.host.held = [])
    (hf : ws.length ≤ rplFree s.host) :
    sendReply s .pcie irq ws
      = if irq then irqSet (updHost s (fun h => rplPut h ws)) 0 else updHost s (fun h => rplPut h ws) := by
  unfold sendReply
  rw [if_pos (by simp [ho]), if_pos (by simp [hh, hf])]

/-- A reply that is written, with or without its cause, leaves these in the window. -/
theorem sendReply_window {s : State} (irq : Bool) {ws : List Word} (ho : pcieOn s = true) (hh : s.host.held = [])
    (hf : ws.length ≤ rplFree s.host) :
    (sendReply s .pcie irq ws).host.rplWin = ringPut s.host.rplWin s.host.rplTail.toNat ws.zipIdx
      ∧ (sendReply s .pcie irq ws).host.rplTail = s.host.rplTail + BitVec.ofNat 11 ws.length := by
  rw [sendReply_written irq ho hh hf]
  cases irq with
  | false => exact ⟨rfl, rfl⟩
  | true =>
    obtain ⟨hw, ht, _⟩ := irqSet_windows (updHost s (fun h => rplPut h ws)) 0
    exact ⟨hw, ht⟩

theorem sendReply_held {s : State} (irq : Bool) {ws : List Word} (ho : pcieOn s = true)
    (h : s.host.held ≠ [] ∨ rplFree s.host < ws.length) :
    sendReply s .pcie irq ws = updHost s (fun h => { h with held := h.held ++ [BitVec.ofNat 32 (b2n irq) :: ws] }) := by
  unfold sendReply
  rw [if_pos (by simp [ho]), if_neg]
  simp only [Bool.and_eq_true, List.isEmpty_iff, decide_eq_true_eq]
  rintro ⟨h1, h2⟩
  exact h.elim (absurd h1) (Nat.not_lt.mpr h2)

theorem sendReply_spi {s : State} (irq : Bool) (ws : List Word) (ho : spiOn s = true) :
    sendReply s .spi irq ws = irqSet (updHost s (fun h => { h with spiOut := h.spiOut ++ [ws] })) 4 := by
  unfold sendReply
  rw [if_neg (by simp), if_pos ho]

theorem rplFree_le (h : HostSt) : rplFree h ≤ 1024 := Nat.sub_le _ _

/-- Settles O12: a reply with room is a run in the ring of the window; without room, or on SPI, it joins its list. -/
theorem replyDelivery : Obligations.ReplyDelivery := by
  intro s irq ws
  refine ⟨fun ho hh hf => ?_, fun ho h => sendReply_held irq ho h, fun ho => ?_, fun p => sendReply_keeps s p irq ws⟩
  · obtain ⟨hw, ht⟩ := sendReply_window irq ho hh hf
    refine ⟨fun i hi => ?_, fun j hj => ?_, ht, ?_⟩
    · have k := tabGet_ringPut (n := s.host.rplTail.toNat) (k := 0) (t := s.host.rplWin) (hf.trans (rplFree_le _)) hi
      rw [Nat.zero_add] at k
      exact hw ▸ k
    · rw [hw]
      exact tabGet_ringPut_ne fun i hi => (Nat.zero_add i).symm ▸ hj i hi
    · rintro rfl
      rw [sendReply_written true ho hh hf]
      exact bit_irqSet _ (by decide)
  · rw [sendReply_spi irq ws ho]
    exact ⟨(irqSet_windows _ 4).2.2, bit_irqSet _ (by decide)⟩

/-! ### Completions (R51, R52) -/

theorem pcieOn_dropOp (s : State) (op key : Nat) : pcieOn (dropOp s op key) = pcieOn s := rfl

/-- Settles O26: the operation is dropped, its reply sent, and the cause set at once where the window does not. -/
theorem completionReply : Obligations.CompletionReply := by
  intro s o status detail payload
  refine ⟨?_, completeOp_keeps s o status detail payload, ?_⟩
  · rintro _ rfl
    exact ⟨fun h => if_pos (by simpa [pcieOn_dropOp] using h), fun h => if_neg (by simpa [pcieOn_dropOp] using h)⟩
  · unfold completeOp
    dsimp only
    split
    · exact (sendReply_keeps _ _ _ _).ops
    · exact (irqSet_keeps _ _).ops.trans (sendReply_keeps _ _ _ _).ops

end Sys2Proof.Machine
end

section
/-! SUPPORT. What the host writes to BAR0 and BAR2 and clocks through the SPI port (R32 to R34, R39, R40, R68). -/

namespace Sys2Proof.Machine

/-! ### Counters -/

/-- A counter below its largest value rises by one (R13). -/
theorem getN_incP {s : State} {id t : Nat} (h : getN s id t < 4294967295) :
    getN (incP s id t) id t = getN s id t + 1 := by
  have hlt : getN s id t + 1 < 4294967296 := Nat.succ_lt_succ h
  unfold incP addP
  rw [if_pos hlt]
  unfold putN
  generalize getN s id t + 1 = n at hlt
  unfold getN
  rw [getP_putP_same, BitVec.toNat_ofNat, Nat.mod_eq_of_lt hlt]

/-- The reel's look changes no parameter but those of the causes and of the reel. -/
theorem Seen.getN {u t : State} (h : Seen u t) (id k : Nat) (hi : asideIds.contains id = false := by decide) :
    Machine.getN t id k = Machine.getN u id k := by
  unfold Machine.getN
  rw [h.1.param id k (by decide) hi]

/-! ### BAR0 and BAR2 with the endpoint on and off -/

theorem endpoint_on {s u : State} (h : pcieOn s = true) : ends (if pcieOn s then u else s) = ends u := by
  rw [if_pos h]

theorem endpoint_off {s u : State} (h : pcieOn s = false) : ends (if pcieOn s then u else s) = ends s := by
  rw [if_neg (by simp [h])]

/-- A write with the endpoint on, its effect by one of the equations below. -/
theorem seen_endpoint {i : Instr} {s u v : State} (e : exec i s = ends (if pcieOn s then u else s))
    (h : pcieOn s = true) (hu : u = v) : ∃ t, exec i s = .next t ∧ Seen v t :=
  seen_of_exec (e.trans ((endpoint_on h).trans (congrArg ends hu)))

/-- Settles O15: the row counts the write and does nothing else. -/
theorem bar0WriteDiscarded : Obligations.Bar0WriteDiscarded := by
  intro offset value s h
  obtain ⟨t, ht, hs⟩ := seen_endpoint (i := .bar0Write offset value) (v := incP s P.HOST_BAR0_WR_DROP 0) rfl h rfl
  exact ⟨t, ht, hs, fun hc => by rw [hs.getN P.HOST_BAR0_WR_DROP 0, getN_incP hc]⟩

/-! ### The pointers of BAR2 (R33) -/

theorem tailOk_iff (h : HostSt) (v : Word) : tailOk h v = true ↔ v.toNat < 2048
    ∧ (BitVec.ofNat 11 v.toNat - h.cmdHead).toNat ≤ 1024
    ∧ cmdWords h ≤ (BitVec.ofNat 11 v.toNat - h.cmdHead).toNat := by
  unfold tailOk cmdWords
  simp only [Bool.and_eq_true, decide_eq_true_eq, and_assoc]

theorem tailWrite_ok {s : State} {v : Word} (h : tailOk s.host v = true) :
    tailWrite s v = updHost s (fun h => { h with cmdTail := BitVec.ofNat 11 v.toNat }) := if_pos h

theorem tailWrite_bad {s : State} {v : Word} (h : tailOk s.host v = false) : tailWrite s v = dropWrite s :=
  if_neg (by simp [h])

theorem headWrite_ok {s : State} {v : Word} (hv : v.toNat < 2048)
    (hw : (s.host.rplTail - BitVec.ofNat 11 v.toNat).toNat ≤ rplWords s.host) :
    headWrite s v = flushHeld s.host.held (updHost s (fun h => { h with rplHead := BitVec.ofNat 11 v.toNat })) := by
  unfold rplWords at hw
  exact if_pos (by simp only [hv, hw, decide_true, Bool.and_self])

theorem headWrite_bad {s : State} {v : Word}
    (h : 2048 ≤ v.toNat ∨ rplWords s.host < (s.host.rplTail - BitVec.ofNat 11 v.toNat).toNat) :
    headWrite s v = dropWrite s := by
  unfold rplWords at h
  refine if_neg ?_
  simp only [Bool.and_eq_true, decide_eq_true_eq, not_and, Nat.not_le]
  exact fun hv => h.resolve_left (Nat.not_le.mpr hv)

/-! ### Offsets of BAR2 (R27, R33) -/

theorem bar2Write_readOnly {o : Nat} (s : State) (v : Word) (h0 : 0x1000 ≤ o) (h1 : o / 4 ≠ 0x800) (h2 : o / 4 ≠ 0x803)
    (h3 : o / 4 ≠ 0x804) (h4 : o / 4 ≠ 0x805) (h5 : o < 0x3000 ∨ 0x3080 ≤ o) : bar2Write s o v = dropWrite s := by
  unfold bar2Write
  rw [if_neg (by omega), if_neg h1, if_neg h2, if_neg h3, if_neg h4, if_neg (by omega)]

theorem bar2Write_window {o : Nat} (s : State) (v : Word) (h : o < 0x1000) :
    bar2Write s o v = updHost s (fun h => { h with cmdWin := tabSet 0 h.cmdWin (o / 4) v }) := if_pos h

theorem bar2Write_msix {o : Nat} (s : State) (v : Word) (h0 : 0x3000 ≤ o) (h1 : o < 0x3080) :
    bar2Write s o v = updHost s (fun h => msixPut h ((o - 0x3000) / 4) v) := by
  unfold bar2Write
  rw [if_neg (by omega), if_neg (by omega), if_neg (by omega), if_neg (by omega), if_neg (by omega), if_pos ⟨h0, h1⟩]

theorem bar2Write_tail {o : Nat} (s : State) (v : Word) (h : o / 4 = 0x800) : bar2Write s o v = tailWrite s v := by
  unfold bar2Write
  rw [if_neg (by omega), if_pos h]

theorem bar2Write_head {o : Nat} (s : State) (v : Word) (h : o / 4 = 0x803) : bar2Write s o v = headWrite s v := by
  unfold bar2Write
  rw [if_neg (by omega), if_neg (by omega), if_pos h]

theorem bar2Write_cause {o : Nat} (s : State) (v : Word) (h : o / 4 = 0x804) :
    bar2Write s o v = clearSet s P.HOST_IRQ_CAUSE 0 v := by
  unfold bar2Write
  rw [if_neg (by omega), if_neg (by omega), if_neg (by omega), if_pos h]

theorem bar2Write_enable {o : Nat} (s : State) (v : Word) (h : o / 4 = 0x805) :
    bar2Write s o v = putP s P.HOST_MSI_ENABLE 0 (v &&& 0xF) := by
  unfold bar2Write
  rw [if_neg (by omega), if_neg (by omega), if_neg (by omega), if_neg (by omega), if_pos h]

/-- A word of the MSI-X table just written, and the others. -/
theorem msixWord_tabSet (h : HostSt) (i : Nat) (v : Word) (j : Nat) :
    msixWord { h with msix := tabSet (BitVec.ofNat 32 (b2n (i % 4 == 3))) h.msix i v } j
      = if i = j then v else msixWord h j := by
  unfold msixWord
  split
  · next e => exact e ▸ tabGet_tabSet_same _ _ i v
  · next e => exact getP_putP.tabGet_tabSet_other _ _ _ _ _ _ e

/-- Settles O16: each clause is the write's own equation above, the endpoint being on, or off. -/
theorem bar2Writes : Obligations.Bar2Writes := by
  refine ⟨fun s v h => ⟨fun ws hk => ?_, fun ws hk => ?_, tailOk_iff s.host v, fun hv hw => ?_, fun hv => ?_, ?_, ?_,
    fun o h0 h1 h2 h3 h4 h5 => ?_, fun o ho => ?_, fun o h0 h1 => ?_,
    fun o => ⟨fun ho => ?_, fun ho => ?_, fun ho => ?_,
      fun ho => ?_⟩⟩, msixWord_tabSet, fun s v h => ⟨fun ws => ?_, ?_, ?_, ?_, fun o => ?_⟩⟩
  · exact seen_endpoint rfl h (tailWrite_ok (s := updHost s fun h => winWrite h ws) hk)
  · exact seen_endpoint rfl h (tailWrite_bad (s := updHost s fun h => winWrite h ws) hk)
  · exact seen_endpoint rfl h (headWrite_ok hv hw)
  · exact seen_endpoint rfl h (headWrite_bad hv)
  · exact seen_endpoint rfl h (clearSet_flag s 0 v (m := 0x1F) rfl)
  · exact seen_endpoint rfl h rfl
  · exact seen_endpoint rfl h (bar2Write_readOnly s v h0 h1 h2 h3 h4 h5)
  · exact seen_endpoint rfl h (bar2Write_window s v ho)
  · exact seen_endpoint rfl h (bar2Write_msix s v h0 h1)
  · exact congrArg (fun u => ends (if pcieOn s then u else s)) (bar2Write_tail s v ho)
  · exact congrArg (fun u => ends (if pcieOn s then u else s)) (bar2Write_head s v ho)
  · exact congrArg (fun u => ends (if pcieOn s then u else s)) (bar2Write_cause s v ho)
  · exact congrArg (fun u => ends (if pcieOn s then u else s)) (bar2Write_enable s v ho)
  · exact seen_of_exec (endpoint_off h)
  · exact seen_of_exec (endpoint_off h)
  · exact seen_of_exec (endpoint_off h)
  · exact seen_of_exec (endpoint_off h)
  · exact seen_of_exec (endpoint_off h)

/-! ### WRITE_PACKET (R39) -/

theorem exec_writePacket_on {s : State} (ws : List Word) (h : spiOn s = true) :
    exec (.writePacket ws) s = ends (writePacket s ws) := by
  show ends (if spiOn s then _ else s) = _
  rw [if_pos h, spiTransaction_write]

theorem spi_off {s u : State} (h : spiOn s = false) : ends (if spiOn s then u else s) = ends s := by
  rw [if_neg (by simp [h])]

theorem writePacket_taken {s : State} {ws : List Word} (hb : s.host.spiBuf = []) (hl : ws.length = 4 + pktLen ws) :
    writePacket s ws = updHost s (fun h => { h with spiBuf := ws }) :=
  if_pos (by
    simp only [hb, List.isEmpty_nil, hl, beq_self_eq_true, Bool.true_and, Bool.and_true, decide_eq_true_eq]
    omega)

theorem writePacket_dropped {s : State} {ws : List Word} (h : ws.length ≠ 4 + pktLen ws ∨ s.host.spiBuf ≠ []) :
    writePacket s ws = incP s P.HOST_SPI_FRAMING 0 :=
  if_neg (by
    simp only [Bool.and_eq_true, List.isEmpty_iff, beq_iff_eq]
    rintro ⟨⟨hb, -⟩, hl⟩
    exact h.elim (absurd hl) (absurd hb))

/-- What the reel's look leaves of the host block. -/
theorem Seen.spi {u t : State} (h : Seen u t) : t.host.spiBuf = u.host.spiBuf ∧ t.host.spiOut = u.host.spiOut
    ∧ t.host.busOut = u.host.busOut := by
  rw [h.2.1]
  exact ⟨rfl, rfl, rfl⟩

/-- Settles O17: a packet of its own length fills the empty buffer, every other one is counted. -/
theorem spiFraming : Obligations.SpiFraming := by
  refine ⟨fun ws s h => ⟨fun hb hl => ?_, fun hd => ?_⟩, fun ws s h => seen_of_exec (spi_off h)⟩
  · exact seen_of_exec ((exec_writePacket_on ws h).trans (congrArg ends (writePacket_taken hb hl)))
  · obtain ⟨t, ht, hs⟩ :=
      seen_of_exec ((exec_writePacket_on ws h).trans (congrArg ends (writePacket_dropped hd)))
    have hk : (incP s P.HOST_SPI_FRAMING 0).host = s.host := (incP_keeps s P.HOST_SPI_FRAMING 0).host
    obtain ⟨hb, ho, -⟩ := hs.spi
    exact ⟨t, ht, hs, hb.trans (congrArg HostSt.spiBuf hk), ho.trans (congrArg HostSt.spiOut hk),
      fun hc => by rw [hs.getN P.HOST_SPI_FRAMING 0, getN_incP hc]⟩

/-! ### READ_REPLY (R40) -/

theorem exec_readReply_on {s : State} (n : Nat) (h : spiOn s = true) :
    exec (.readReply n) s = ends (readReply s n) := by
  show ends (if spiOn s then _ else s) = _
  rw [if_pos h, spiTransaction_read]

theorem readReply_none {s : State} (n : Nat) (h : s.host.spiOut = []) :
    readReply s n = updHost s (fun h => { h with busOut := List.replicate n 0xFFFFFFFF }) := by
  unfold readReply replyOut
  rw [h]
  rfl

/-- A reply that is clocked out whole: its words come first, words the manual leaves open after them. -/
theorem readReply_whole {s : State} {n : Nat} {r : List Word} {l : List (List Word)} (h : s.host.spiOut = r :: l)
    (hn : r.length ≤ n) : (readReply s n).host.spiOut = l
      ∧ (readReply s n).host.busOut
        = r ++ (List.range (n - r.length)).map (fun i => Config.freeWord (s.freeCtr + i)) := by
  unfold readReply replyOut
  rw [h]
  dsimp only
  rw [if_pos hn, List.take_of_length_le hn]
  exact ⟨rfl, rfl⟩

/-- A reply that is clocked out in part stays. -/
theorem readReply_part {s : State} {n : Nat} {r : List Word} {l : List (List Word)} (h : s.host.spiOut = r :: l)
    (hn : n < r.length) : readReply s n = updHost s (fun h => { h with busOut := r.take n }) := by
  unfold readReply replyOut
  rw [h]
  dsimp only
  rw [if_neg (Nat.not_le.mpr hn), Nat.sub_eq_zero_of_le hn.le, List.range_zero, List.map_nil, List.append_nil]
  rfl

/-- Settles O18: no reply, a reply in part and a whole reply. -/
theorem spiReply : Obligations.SpiReply := by
  refine ⟨fun n s h => seen_of_exec (spi_off h), fun n s h => ⟨fun r l hr hn => ?_, fun r l hr hn => ?_, fun hr => ?_⟩⟩
  · obtain ⟨t, ht, hs⟩ := seen_of_exec (exec_readReply_on n h)
    obtain ⟨ho, hb⟩ := readReply_whole hr hn
    obtain ⟨-, hso, hsb⟩ := hs.spi
    refine ⟨t, ht, hso.trans ho, ?_, ?_, hs.1.step ((readReply_keeps s n).mono (by decide)) (by decide)⟩
    · rw [hsb, hb, List.take_left]
    · rw [hsb, hb, List.length_append, List.length_map, List.length_range, Nat.add_sub_cancel' hn]
  · obtain ⟨t, ht, hs⟩ := seen_of_exec ((exec_readReply_on n h).trans (congrArg ends (readReply_part hr hn)))
    exact ⟨t, ht, hs, hs.spi.2.1.trans hr⟩
  · obtain ⟨t, ht, hs⟩ := seen_of_exec ((exec_readReply_on n h).trans (congrArg ends (readReply_none n hr)))
    exact ⟨t, ht, hs, hs.spi.2.1.trans hr⟩

end Sys2Proof.Machine
end

section
/-! SUPPORT. Packets (R35, R42 to R45): the words of a command read back as that command, and what `PACKET_TAKE` does
with the words that wait. -/

namespace Sys2Proof.Machine

/-! ### The fields of a packet (R42) -/

theorem cmdOf?_op_lt {i : Instr} {op : Nat} {c : Cmd} (h : cmdOf? i = some (op, c)) : op < 256 := by
  unfold cmdOf? at h
  split at h
  case h_73 => exact absurd h (by simp)
  all_goals
    obtain ⟨rfl, -⟩ := Prod.mk.inj (Option.some.inj h)
    decide

theorem b2n_le (b : Bool) : b2n b ≤ 1 := by cases b <;> decide

theorem decide_b2n (b : Bool) : decide (b2n b = 1) = b := by cases b <;> rfl

/-- A header word 0 is within its 32 bits. -/
theorem pkt_zero {op : Nat} {c : Cmd} (rest : List Word) (ho : op < 256) :
    pkt (packetOf op c ++ rest) 0 = op + 256 * b2n c.irq + 512 * b2n c.dryRun + 65536 * c.tag.toNat := by
  have hi := b2n_le c.irq
  have hd := b2n_le c.dryRun
  have ht := c.tag.isLt
  show (BitVec.ofNat 32 _).toNat = _
  rw [BitVec.toNat_ofNat]
  omega

theorem pkt_one {op : Nat} {c : Cmd} (rest : List Word) (hl : c.payload.length ≤ 1020) :
    pkt (packetOf op c ++ rest) 1 = c.payload.length + 65536 * c.target.toNat := by
  have ht := c.target.isLt
  show (BitVec.ofNat 32 _).toNat = _
  rw [BitVec.toNat_ofNat]
  omega

theorem field_eq (w hi lo : Nat) : field w hi lo = w / 2 ^ lo % 2 ^ (hi - lo + 1) := by
  rw [field, Nat.shiftRight_eq_div_pow]

theorem bit_eq_div (w i : Nat) : bit w i = decide (w / 2 ^ i % 2 = 1) := by
  rw [bit, Nat.shiftRight_eq_div_pow, beq_eq_decide]

theorem pktLen_packetOf {op : Nat} {c : Cmd} (rest : List Word) (hl : c.payload.length ≤ 1020) :
    pktLen (packetOf op c ++ rest) = c.payload.length := by
  rw [pktLen, pkt_one rest hl, field_eq]
  omega

/-- The flags and the tag of header word 0. -/
theorem header_flags {op t : Nat} (irq dry : Bool) (ho : op < 256) :
    bit (op + 256 * b2n irq + 512 * b2n dry + 65536 * t) 8 = irq
      ∧ bit (op + 256 * b2n irq + 512 * b2n dry + 65536 * t) 9 = dry
      ∧ field (op + 256 * b2n irq + 512 * b2n dry + 65536 * t) 15 10 = 0
      ∧ (op + 256 * b2n irq + 512 * b2n dry + 65536 * t) % 256 = op
      ∧ (op + 256 * b2n irq + 512 * b2n dry + 65536 * t) / 65536 = t := by
  have hi := b2n_le irq
  have hd := b2n_le dry
  refine ⟨?_, ?_, ?_, by omega, by omega⟩
  · rw [bit_eq_div, show (op + 256 * b2n irq + 512 * b2n dry + 65536 * t) / 2 ^ 8 % 2 = b2n irq by omega, decide_b2n]
  · rw [bit_eq_div, show (op + 256 * b2n irq + 512 * b2n dry + 65536 * t) / 2 ^ 9 % 2 = b2n dry by omega, decide_b2n]
  · rw [field_eq]
    omega

/-- The words of a packet spell its command. -/
theorem pktCmd_packetOf {op : Nat} {c : Cmd} (rest : List Word) (ho : op < 256) (hl : c.payload.length ≤ 1020) :
    pktCmd c.port (packetOf op c ++ rest) = c := by
  have hp : ((packetOf op c ++ rest).drop 4).take c.payload.length = c.payload := List.take_left
  have hs : (packetOf op c ++ rest).getD 2 0 = c.seq := rfl
  have htgt : (c.payload.length + 65536 * c.target.toNat) / 65536 = c.target.toNat := by omega
  obtain ⟨hi, hd, -, -, ht⟩ := header_flags (t := c.tag.toNat) c.irq c.dryRun ho
  unfold pktCmd
  rw [pkt_zero rest ho, pkt_one rest hl, pktLen_packetOf rest hl, hp, hs, hi, hd, ht, htgt, BitVec.ofNat_toNat,
    BitVec.ofNat_toNat, BitVec.setWidth_eq, BitVec.setWidth_eq]

theorem crc_packetOf (op : Nat) (c : Cmd) (rest : List Word) :
    crcWords ((packetOf op c ++ rest).take 3 ++ c.payload) = (packetOf op c ++ rest).getD 3 0 := rfl

theorem packetOf_length (op : Nat) (c : Cmd) : (packetOf op c).length = 4 + c.payload.length := by
  unfold packetOf
  simp only [List.length_append, List.length_cons, List.length_nil]

/-! ### Taking a packet (R35, R44) -/

theorem takePacket_whole {s : State} {p : Port} (ht : takeable s p = true) (h2 : 2 ≤ (packetWords s p).length)
    (hr : roomFor s (packetWords s p) p = true) (hl : pktLen (packetWords s p) ≤ 1020)
    (hw : 4 + pktLen (packetWords s p) ≤ (packetWords s p).length) :
    takePacket s p = checkPkt (consume s p (4 + pktLen (packetWords s p))) (packetWords s p) p := by
  unfold takePacket
  dsimp only
  rw [if_neg, if_neg (by omega), if_neg (by omega)]
  simp only [ht, hr, Bool.not_true, Bool.false_or, Bool.or_false, decide_eq_true_eq]
  omega

theorem takePacket_waits {s : State} {p : Port} (h : takeable s p = false ∨ (packetWords s p).length < 2
      ∨ roomFor s (packetWords s p) p = false
      ∨ pktLen (packetWords s p) ≤ 1020 ∧ (packetWords s p).length < 4 + pktLen (packetWords s p)) :
    takePacket s p = s := by
  unfold takePacket
  dsimp only
  split
  · rfl
  · next hn =>
    simp only [Bool.or_eq_true, Bool.not_eq_true', decide_eq_true_eq, not_or] at hn
    obtain ⟨⟨ht, h2⟩, hr⟩ := hn
    obtain ⟨hl, hw⟩ := ((h.resolve_left ht).resolve_left h2).resolve_left hr
    rw [if_neg (by omega), if_pos hw]

/-- What a packet that leaves its window or buffer keeps: its port is served as before, and expects what it did. -/
theorem takeable_consume (s : State) (p : Port) (n : Nat) : takeable (consume s p n) p = takeable s p := by
  cases p <;> rfl

theorem portSt_consume (s : State) (p : Port) (n : Nat) : portSt (consume s p n) p = portSt s p := by
  cases p <;> rfl

/-! ### CRC and SEQUENCE (R44, R45) -/

theorem checkPkt_crc {s : State} {ws : List Word} {p : Port}
    (h : crcWords (ws.take 3 ++ (pktCmd p ws).payload) ≠ ws.getD 3 0) :
    checkPkt s ws p = refusePkt (incP s P.HOST_CRC_ERR 0) ws p ⟨St.integrity, 1, pkt ws 3⟩ := if_pos h

section
variable {s : State} {ws : List Word} {p : Port} {q : Word}
  (hc : crcWords (ws.take 3 ++ (pktCmd p ws).payload) = ws.getD 3 0)
include hc

theorem checkPkt_expected (h : (portSt s p).seq = none ∨ (portSt s p).seq = some ((pktCmd p ws).seq - 1)) :
    checkPkt s ws p = execPkt s ws (pktCmd p ws) := by
  unfold checkPkt
  dsimp only
  rw [if_neg (not_not.mpr hc)]
  rcases h with h | h <;> rw [h]
  exact if_pos (BitVec.sub_add_cancel _ _).symm

theorem checkPkt_repeat (hq : (portSt s p).seq = some q) (hn : (pktCmd p ws).seq ≠ q + 1)
    (h : (pktCmd p ws).seq = q) :
    checkPkt s ws p = sendReply (goodPacket s p q) p (pktCmd p ws).irq (portSt s p).reply := by
  unfold checkPkt
  dsimp only
  rw [if_neg (not_not.mpr hc), hq]
  exact (if_neg hn).trans (if_pos h)

theorem checkPkt_seq (hq : (portSt s p).seq = some q) (hn : (pktCmd p ws).seq ≠ q + 1) (h : (pktCmd p ws).seq ≠ q) :
    checkPkt s ws p = refusePkt (incP s P.HOST_SEQ_ERR 0) ws p ⟨St.integrity, 2, (q + 1).toNat⟩ := by
  unfold checkPkt
  dsimp only
  rw [if_neg (not_not.mpr hc), hq]
  exact (if_neg hn).trans (if_neg h)

end

/-- A row that takes a packet is seen from what the packet leaves. -/
theorem seen_packetTake {s u : State} {p : Port} (h : takePacket s p = u) :
    ∃ t, exec (.packetTake p) s = .next t ∧ Seen u t := seen_of_exec (congrArg ends h)

/-- Settles O14: the CRC decides first, then the sequence; a packet that cannot be taken waits. -/
theorem packetRefused : Obligations.PacketRefused := by
  intro p s
  refine ⟨fun ht h2 hr hl hw => ?_, fun h => seen_packetTake (takePacket_waits h)⟩
  have take := takePacket_whole ht h2 hr hl hw
  refine ⟨fun hc => seen_packetTake (take.trans (checkPkt_crc hc)), fun hc q hq hn => ?_⟩
  have hq' : (portSt (consume s p (4 + pktLen (packetWords s p))) p).seq = some q := by rw [portSt_consume]; exact hq
  refine ⟨fun h => ?_, fun h => seen_packetTake (take.trans (checkPkt_seq hc hq' hn h))⟩
  refine seen_packetTake (take.trans ?_)
  rw [checkPkt_repeat hc hq' hn h, portSt_consume]

/-! ### A packet that is executed (R42, R44) -/

/-- The words of a defined command are executed as that command. -/
theorem execPkt_packetOf {op : Nat} {c : Cmd} {r : CmdRow} (s : State) (rest : List Word) (ho : op < 256)
    (hr : cmdRow? op c = some r) : execPkt s (packetOf op c ++ rest) c = interpret r.sp r.own r.body c s := by
  obtain ⟨-, -, hf, hop, -⟩ := header_flags (t := c.tag.toNat) c.irq c.dryRun ho
  have he : opcodeErr (packetOf op c ++ rest) c = none := by
    unfold opcodeErr
    dsimp only
    rw [pkt_zero rest ho, hop, hf, hr]
    rfl
  unfold execPkt
  dsimp only
  rw [he, pkt_zero rest ho, hop, hr]

/-- Settles O13: the words that wait read back as the command, which is interpreted once they are consumed. -/
theorem packetTaken : Obligations.PacketTaken := by
  intro i op c rest s h hwf hws ht hroom hseq
  obtain ⟨r, hr, rfl, he⟩ := commandRows i op c h
  have ho := cmdOf?_op_lt h
  have hl : c.payload.length ≤ 1020 := of_decide_eq_true hwf
  have hlen := pktLen_packetOf (op := r.sp.op) rest hl
  have hcmd := pktCmd_packetOf rest ho hl
  have hn : (packetOf r.sp.op c ++ rest).length = 4 + c.payload.length + rest.length := by
    rw [List.length_append, packetOf_length]
  have take := takePacket_whole ht (by rw [hws, hn]; omega) hroom (by rw [hws, hlen]; exact hl)
    (by rw [hws, hlen, hn]; omega)
  rw [hws, hlen] at take
  have hcrc : crcWords ((packetOf r.sp.op c ++ rest).take 3 ++ (pktCmd c.port (packetOf r.sp.op c ++ rest)).payload)
      = (packetOf r.sp.op c ++ rest).getD 3 0 := by
    rw [hcmd]
    exact crc_packetOf _ c rest
  have run : takePacket s c.port
      = runCmd r.sp r.own r.body c (consume s c.port (4 + c.payload.length)) := by
    rw [take, checkPkt_expected hcrc (by rw [portSt_consume, hcmd]; exact hseq), hcmd, execPkt_packetOf _ rest ho hr]
    exact (if_pos (by rw [takeable_consume]; exact ht)).symm
  exact ⟨_, congrArg ends run, he _⟩

end Sys2Proof.Machine
end

section
/-! SUPPORT. Block writes, commit groups and stop-only parameters (R55 to R60, R63). -/

namespace Sys2Proof.Machine

/-! ### What a packet's arrival leaves -/

theorem armOf_arrived (s : State) (c : Cmd) (a : Nat) : armOf (arrived s c) a = armOf s a := by
  unfold armOf
  rw [(arrived_keeps s c).arms]

theorem debMask_arrived (s : State) (c : Cmd) : debMask (arrived s c) = debMask s := by
  unfold debMask
  simp only [armOf_arrived]

theorem groupStaged_arrived (s : State) (c : Cmd) (g t : Nat) : groupStaged (arrived s c) g t = groupStaged s g t := by
  unfold groupStaged gainStaged stagedGain
  simp only [stagedW_arrived, (arrived_keeps s c).gain]

theorem groupStop_arrived (s : State) (c : Cmd) (g t : Nat) : groupStop (arrived s c) g t = groupStop s g t := by
  unfold groupStop
  simp only [stagedW_arrived]

/-! ### Stop-only checks (R60) -/

theorem deblockedErr_some {s : State} (h : anyDeb s = true) : deblockedErr s = some ⟨St.state, 2, debMask s⟩ := if_pos h

theorem deblockedErr_none {s : State} (h : anyDeb s = false) : deblockedErr s = none := if_neg (by simp [h])

theorem deblockedErr_arrived (s : State) (c : Cmd) : deblockedErr (arrived s c) = deblockedErr s := by
  unfold deblockedErr anyDeb
  rw [debMask_arrived]

/-- A stop-only parameter while an arm is deblocked: refused, and for that reason where no earlier check fails. -/
theorem setErr_stop {s : State} {id t : Nat} {w : Word} {d : ParamDef} (hd : paramDef? id = some d)
    (hs : d.stop = true) (ha : d.access = .rw) (hb : id / 256 ≠ 0x40) (h : anyDeb s = true) :
    ∃ e, setErr s id t w = some e ∧ (firstErr [rangeErr d w, specialErr s d.id t w,
      errIf (d.group != 0 && groupArmed s d.group (groupTarget d.group t)) St.state 7 d.group] = none →
        e = ⟨St.state, 2, debMask s⟩) := by
  have hv : setErr s id t w = _ := (setErr_value s t w hd hb (.inl ha)).trans
    (firstErr_concat [rangeErr d w, specialErr s d.id t w,
      errIf (d.group != 0 && groupArmed s d.group (groupTarget d.group t)) St.state 7 d.group]
        (if d.stop then deblockedErr s else none))
  rw [if_pos hs, deblockedErr_some h] at hv
  rw [hv]
  generalize firstErr [rangeErr d w, specialErr s d.id t w,
    errIf (d.group != 0 && groupArmed s d.group (groupTarget d.group t)) St.state 7 d.group] = f
  cases f with
  | none => exact ⟨_, rfl, fun _ => rfl⟩
  | some e => exact ⟨e, rfl, fun hn => absurd hn (by simp)⟩

/-! ### A run of writes (R63) -/

theorem setRun_cons_err {s : State} {t id : Nat} {w : Word} {e : CmdErr} (l : List (Nat × Word))
    (h : setErr s id t w = some e) : setRun t ((id, w) :: l) s = .inl e := by
  simp only [setRun, h]

theorem setRun_cons_ok {s : State} {t id : Nat} {w : Word} (l : List (Nat × Word)) (h : setErr s id t w = none) :
    setRun t ((id, w) :: l) s = setRun t l (setWord s id t w) := by
  simp only [setRun, h]

/-- A run goes on from the state its first part leaves. -/
theorem setRun_append_ok {s x : State} {t : Nat} {l : List (Nat × Word)} (m : List (Nat × Word))
    (h : setRun t l s = .inr x) : setRun t (l ++ m) s = setRun t m x := by
  induction l generalizing s with
  | nil =>
    obtain rfl : s = x := Sum.inr.inj h
    rfl
  | cons p l ih =>
    obtain ⟨id, w⟩ := p
    cases he : setErr s id t w with
    | some e => exact absurd ((setRun_cons_err l he).symm.trans h) (by simp)
    | none =>
      rw [setRun_cons_ok l he] at h
      exact (setRun_cons_ok (l ++ m) he).trans (ih h)

/-- A run is refused where its first part is. -/
theorem setRun_append_err {s : State} {t : Nat} {e : CmdErr} {l : List (Nat × Word)} (m : List (Nat × Word))
    (h : setRun t l s = .inl e) : setRun t (l ++ m) s = .inl e := by
  induction l generalizing s with
  | nil => exact absurd h (by simp [setRun])
  | cons p l ih =>
    obtain ⟨id, w⟩ := p
    cases he : setErr s id t w with
    | some e' => exact (setRun_cons_err (l ++ m) he).trans ((setRun_cons_err l he).symm.trans h)
    | none =>
      rw [setRun_cons_ok l he] at h
      exact (setRun_cons_ok (l ++ m) he).trans (ih h)

/-- A run ends well where its last write does, on the state the writes before it leave. -/
theorem setRun_concat_ok (k : Nat) (l : List (Nat × Word)) (id : Nat) (w : Word) (s u : State) :
    setRun k (l ++ [(id, w)]) s = .inr u ↔
      ∃ x, setRun k l s = .inr x ∧ setErr x id k w = none ∧ u = setWord x id k w := by
  cases h : setRun k l s with
  | inl e => simp [setRun_append_err _ h]
  | inr x =>
    rw [setRun_append_ok _ h]
    cases he : setErr x id k w with
    | some e => simp [setRun_cons_err _ he, he]
    | none =>
      rw [setRun_cons_ok _ he]
      simp [setRun, he, eq_comm]

/-! ### `SET_BLOCK` (R63) -/

theorem setBlockBody_done {c : Cmd} {s u : State} (hb : bit (pw c 0) 16 = false)
    (h : setRun (tgt c) ((runIds c).zip (c.payload.drop 3)) s = .inr u) : setBlockBody c s = .ok 0 [] u := by
  simp only [setBlockBody, hb, h]
  rfl

theorem setBlockBody_refused {c : Cmd} {s : State} {e : CmdErr} (hb : bit (pw c 0) 16 = false)
    (h : setRun (tgt c) ((runIds c).zip (c.payload.drop 3)) s = .inl e) : setBlockBody c s = .err e := by
  simp only [setBlockBody, hb, h]
  rfl

/-- The first word that would be refused refuses the whole. -/
theorem exec_setBlock_refused {c : Cmd} {s x : State} {l m : List (Nat × Word)} {id : Nat} {w : Word} {e : CmdErr}
    (h : Admitted (spSetBlock c) (blockOwn c) c s) (hb : bit (pw c 0) 16 = false)
    (hl : (runIds c).zip (c.payload.drop 3) = l ++ (id, w) :: m) (hx : setRun (tgt c) l (arrived s c) = .inr x)
    (he : setErr x id (tgt c) w = some e) :
    ∃ t, exec (.setBlock c) s = .next t
      ∧ Replied 0x06 e.status e.detail [BitVec.ofNat 32 e.diag] c (arrived s c) t := by
  refine exec_err h (setBlockBody_refused hb ?_)
  rw [hl, setRun_append_ok _ hx]
  exact setRun_cons_err m he

/-- A table the host writes, its gain group not armed. -/
theorem setBlockBody_table {c : Cmd} {s : State} (hb : bit (pw c 0) 16 = true)
    (hw : tableWritable (pw c 0 % 65536) = true)
    (hg : 0x0300 ≤ pw c 0 % 65536 ∨ groupArmed s 5 (pw c 0 % 65536 - 0x0200) = false) :
    setBlockBody c s = .ok 0 [] (tableWrite s (pw c 0 % 65536) (pw c 1) (c.payload.drop 3)) := by
  unfold setBlockBody
  dsimp only
  rw [if_pos hb, if_neg (by simp [hw]), if_neg]
  · rfl
  · rintro h
    simp only [Bool.and_eq_true, decide_eq_true_eq] at h
    rcases hg with hg | hg
    · exact absurd h.1 (Nat.not_lt.mpr hg)
    · exact absurd h.2 (by simp [hg])

/-- No row and no high word of a row: the ID is undefined. -/
theorem paramAny?_none {id : Nat} (h : paramAny? id = none) : paramDef? id = none ∧ paramHigh? id = none := by
  unfold paramAny? at h
  split at h
  · exact absurd h (by simp)
  · next hd => exact ⟨hd, Option.map_eq_none_iff.mp h⟩

theorem readAs_undefined {id : Nat} (s : State) (p : Port) (k : Nat) (h : paramAny? id = none) :
    (readAs s p id k).1 = 0 := by
  obtain ⟨hd, hh⟩ := paramAny?_none h
  simp only [readAs, readShadow, readParam, hd, hh]
  rfl

/-- Settles O25: a run of writes is applied whole or refused by its first refusal; a table is stored. -/
theorem setBlockWrites : Obligations.SetBlockWrites := by
  refine ⟨fun c s h hb => ⟨fun u hu => exec_ok h (setBlockBody_done hb hu), fun l id w m x e hl hx he =>
    exec_setBlock_refused h hb hl hx he⟩, setRun_concat_ok, fun s id k w hd => setErr_undefined s k w hd,
    fun s p id k h => readAs_undefined s p k h, fun c s h hb hw hg => exec_ok h (setBlockBody_table hb hw ?_)⟩
  exact hg.imp_right fun hg => (groupArmed_arrived s c _ _).trans hg

/-! ### `COMMIT_GROUP` without DISCARD (R57) -/

theorem commitGroupBody_arm {c : Cmd} (s : State) (hg : groupTargets (commitCode c) ≠ 0) (hb : bit (pw c 0) 8 = false) :
    commitGroupBody c s = commitArm c s := by
  unfold commitGroupBody
  rw [if_neg hg, if_neg (by simp [hb])]

theorem commitArm_armed {c : Cmd} {s : State} (h : groupArmed s (commitCode c) (tgt c) = true) :
    commitArm c s = .ok 2 [wN (groupBoundary (commitCode c))] s := if_pos h

theorem commitArm_unstaged {c : Cmd} {s : State} (h : groupArmed s (commitCode c) (tgt c) = false)
    (hs : groupStaged s (commitCode c) (tgt c) = false) :
    commitArm c s = .ok 1 [wN (groupBoundary (commitCode c))] s := by
  unfold commitArm
  dsimp only
  rw [if_neg (by simp [h]), if_pos (by simp [hs])]

theorem commitArm_staged {c : Cmd} {s : State} (h : groupArmed s (commitCode c) (tgt c) = false)
    (hs : groupStaged s (commitCode c) (tgt c) = true) :
    commitArm c s = Res.check ((groupCross s (commitCode c) (tgt c)).or
        (if groupStop s (commitCode c) (tgt c) then deblockedErr s else none))
      (.ok 0 [wN (groupBoundary (commitCode c))] (setArmed s (commitCode c) (tgt c) true)) := by
  unfold commitArm
  dsimp only
  rw [if_neg (by simp [h]), if_neg (by simp [hs])]
  exact congrArg (Res.check · _) ((firstErr_concat [_] _).trans (congrArg (Option.or · _) (firstErr_concat [] _)))

/-- A staged stop-only value is a staged value. -/
theorem groupStaged_of_stop {s : State} {g t : Nat} (h : groupStop s g t = true) : groupStaged s g t = true := by
  unfold groupStop at h
  obtain ⟨m, hm, hs⟩ := List.any_eq_true.mp h
  unfold groupStaged
  rw [Bool.or_eq_true]
  exact .inl (List.any_eq_true.mpr ⟨m, hm, (Bool.and_eq_true_iff.mp hs).1⟩)

/-- Settles O23: the check of deblocked arms comes last in each of the three, so it decides where no other fails. -/
theorem stopOnlyRefused : Obligations.StopOnlyRefused := by
  refine ⟨?_, fun c s l m id w d x h hb hl hx hd hs ha hid hdeb => ?_, fun c s h hg hb hna hst hdeb => ?_⟩
  · rintro c s _ d rfl hd h hs ha hb hdeb
    have hdeb' : anyDeb (arrived s c) = true := by rwa [anyDeb, debMask_arrived]
    obtain ⟨e, he, hlast⟩ := setErr_stop (t := tgt c) (w := c.payload.getD 1 0) hd hs ha hb hdeb'
    refine ⟨by rw [he]; rfl, fun hn => ?_⟩
    obtain rfl := hlast ((groupArmed_arrived s c _ _).symm ▸ hn)
    rw [← debMask_arrived s c]
    exact exec_setParam_err (e := ⟨St.state, 2, debMask (arrived s c)⟩) h he
  · obtain ⟨e, he, hlast⟩ := setErr_stop (t := tgt c) (w := w) hd hs ha hid hdeb
    obtain ⟨t, ht, hr⟩ := exec_setBlock_refused h hb hl hx he
    exact ⟨e, t, ht, hr, hlast⟩
  · have body : commitGroupBody c (arrived s c) = _ := (commitGroupBody_arm _ hg hb).trans
      (commitArm_staged ((groupArmed_arrived s c _ _).trans hna)
        ((groupStaged_arrived s c _ _).trans (groupStaged_of_stop hst)))
    rw [groupStop_arrived, if_pos hst, deblockedErr_arrived, deblockedErr_some hdeb] at body
    cases hx : groupCross (arrived s c) (commitCode c) (tgt c) with
    | none =>
      rw [hx] at body
      obtain ⟨t, ht, hr⟩ := exec_err h body
      exact ⟨_, t, ht, hr, fun _ => rfl⟩
    | some e =>
      rw [hx] at body
      obtain ⟨t, ht, hr⟩ := exec_err h body
      exact ⟨e, t, ht, hr, fun hn => absurd hn (by simp)⟩

/-! ### `COMMIT_GROUP` with DISCARD (R58) -/

theorem commitGroupBody_drop {c : Cmd} (s : State) (hg : groupTargets (commitCode c) ≠ 0) (hb : bit (pw c 0) 8 = true) :
    commitGroupBody c s = commitDrop c s := by
  unfold commitGroupBody
  rw [if_neg hg, if_pos hb]

theorem commitDrop_other {c : Cmd} (s : State) (h : commitCode c ≠ 1) :
    commitDrop c s = .ok (if groupStaged s (commitCode c) (tgt c) then 0 else 1)
      [wN (groupBoundary (commitCode c))] (dropGroup s (commitCode c) (tgt c)) := by
  unfold commitDrop
  dsimp only
  rw [if_neg h]

/-- CG_PERIOD forgets its boundary too. -/
theorem commitDrop_period {c : Cmd} (s : State) (h : commitCode c = 1) :
    commitDrop c s = .ok (if groupStaged s 1 (tgt c) then 0 else 1) [wN 1]
      { dropGroup s 1 (tgt c) with per := { s.per with boundary := none } } := by
  unfold commitDrop
  dsimp only
  rw [if_pos h, h, (dropGroup_keeps s 1 (tgt c)).per]
  rfl

/-- Settles O24: arming by what the group holds, discarding by its code. -/
theorem commitGroups : Obligations.CommitGroups := by
  refine ⟨fun c s h hg hb => ⟨fun hna hst hx hdeb => ?_, fun hna hst => ?_, fun ha => ?_⟩, ?_⟩
  · refine exec_ok h ((commitGroupBody_arm _ hg hb).trans ((commitArm_staged ((groupArmed_arrived s c _ _).trans hna)
      ((groupStaged_arrived s c _ _).trans hst)).trans ?_))
    rw [hx, groupStop_arrived, deblockedErr_arrived]
    rcases hdeb with hd | hd
    · rw [hd]
      rfl
    · rw [deblockedErr_none hd, ite_self]
      rfl
  · exact exec_ok h ((commitGroupBody_arm _ hg hb).trans (commitArm_unstaged ((groupArmed_arrived s c _ _).trans hna)
      ((groupStaged_arrived s c _ _).trans hst)))
  · exact exec_ok h ((commitGroupBody_arm _ hg hb).trans (commitArm_armed ((groupArmed_arrived s c _ _).trans ha)))
  · rintro c c' s hc h hg hb
    have e : exec (.commitGroupDiscard c) s
        = ends (runCmd spCommitGroup (commitOwn c') commitGroupBody c' s) := hc ▸ rfl
    rw [e]
    refine ⟨fun hcode => ?_, fun hcode => ?_⟩
    · rw [← groupStaged_arrived s c']
      exact exec_ok h ((commitGroupBody_drop _ hg hb).trans (commitDrop_other _ hcode))
    · rw [← groupStaged_arrived s c']
      exact exec_ok h ((commitGroupBody_drop _ hg hb).trans (commitDrop_period _ hcode))

end Sys2Proof.Machine
end

section
/-! SUPPORT. `ARM_ENABLE`, `DEBLOCK` and `BLOCK`, arm by arm (R117, R148, R149). -/

namespace Sys2Proof.Machine

/-! ### What a run over the arms does to each -/

/-- A run over distinct arms, each of which is changed by itself and the periods, changes these arms once and no
other. -/
theorem armOf_foldl {f : State → Nat → State} {g : PerSt → Nat → Arm → Arm} (hp : ∀ s a, (f s a).per = s.per)
    (hg : ∀ s a b, armOf (f s a) b = if a = b then g s.per a (armOf s a) else armOf s b) {l : List Nat} (hl : l.Nodup)
    (s : State) (b : Nat) : armOf (l.foldl f s) b = if b ∈ l then g s.per b (armOf s b) else armOf s b := by
  induction l generalizing s with
  | nil => rfl
  | cons a l ih =>
    obtain ⟨ha, hl⟩ := List.nodup_cons.mp hl
    rw [List.foldl_cons, ih hl, hp, hg]
    by_cases hab : a = b
    · subst hab
      rw [if_neg ha, if_pos rfl, if_pos List.mem_cons_self]
    · have hm : b ∈ a :: l ↔ b ∈ l := by rw [List.mem_cons, or_iff_right (Ne.symm hab)]
      rw [if_neg hab]
      simp only [hm]

theorem mem_maskArms {m a : Nat} : a ∈ maskArms m ↔ a < 6 ∧ bit m a = true := by
  unfold maskArms armList
  rw [List.mem_filter, List.mem_range]

theorem maskArms_nodup (m : Nat) : (maskArms m).Nodup := List.nodup_range.filter _

/-! ### `DEBLOCK` (R149) -/

/-- A listed arm once deblocked: one that was not is so from period m + L − 1 on, m the next mark. -/
def deblockedArm (p : PerSt) (x : Arm) : Arm :=
  if x.deblocked then x else { x with deblocked := true, firstDeb := p.count + 1 + p.lat - 1 }

theorem armOf_deblockArms (s : State) (m a : Nat) :
    armOf (deblockArms s m) a = if a ∈ maskArms m then deblockedArm s.per (armOf s a) else armOf s a := by
  have hf : armOf (deblockArms s m) a = _ := congrArg (tabGet Arm.empty · a) (mtAbort_keeps _).arms
  refine hf.trans (armOf_foldl (g := fun p _ x => deblockedArm p x) (fun s a => ?_) (fun s a b => ?_)
    (maskArms_nodup m) s a)
  · split <;> rfl
  · unfold deblockedArm
    by_cases hab : a = b
    · subst hab
      rw [if_pos rfl]
      split
      · rfl
      · exact armOf_updArm s a _
    · rw [if_neg hab]
      split
      · rfl
      · exact armOf_updArm_ne s a b _ hab

theorem deblockErr_standby {s : State} (m : Nat) (h : s.dup.role = .standby) :
    deblockErr s m = some ⟨St.state, 5, 0⟩ := by
  unfold deblockErr standbyErr
  rw [h]
  rfl

theorem deblockErr_belay {s : State} (m : Nat) (hr : s.dup.role ≠ .standby) (h : s.belay.state ≠ .normal) :
    deblockErr s m = some ⟨St.state, 10, 0⟩ := by
  have h1 : standbyErr s = none := if_neg (by simpa using hr)
  have h2 : errIf (s.belay.state != .normal) St.state 0xA 0 = some ⟨St.state, 10, 0⟩ := if_pos (by simpa using h)
  unfold deblockErr
  rw [h1, h2]
  rfl

theorem deblockBody_err {c : Cmd} {s : State} {e : CmdErr} (h : deblockErr s (pw c 0) = some e) :
    deblockBody c s = .err e := congrArg (Res.check · _) h

theorem deblockBody_ok {c : Cmd} {s : State} (h : deblockErr s (pw c 0) = none) :
    deblockBody c s = .ok 0 [] (deblockArms s (pw c 0)) := congrArg (Res.check · _) h

/-! ### `BLOCK` (R148) -/

/-- A listed arm once blocked: one that was deblocked is so from the period after the next mark on. -/
def blockedArm (p : PerSt) (x : Arm) : Arm :=
  if x.deblocked then { x with deblocked := false, blockFrom := p.count + 2 } else x

theorem armOf_blockArms (s : State) (m a : Nat) :
    armOf (blockArms s m) a = if a < 6 ∧ bit m a = true then blockedArm s.per (armOf s a) else armOf s a := by
  refine (armOf_foldl (g := fun p a x => if bit m a then blockedArm p x else x) (fun s a => ?_) (fun s a b => ?_)
    List.nodup_range s a).trans ?_
  · split <;> rfl
  · unfold blockedArm
    by_cases hab : a = b
    · subst hab
      rw [if_pos rfl]
      cases bit m a
      · rfl
      · split
        · next hd => exact (armOf_updArm s a _).trans (if_pos hd).symm
        · next hd => exact (if_neg hd).symm
    · rw [if_neg hab]
      split
      · exact armOf_updArm_ne s a b _ hab
      · rfl
  · simp only [List.mem_range, ite_and]

/-! ### The three commands -/

/-- A reply leaves the choppers as they are. -/
theorem Replied.chop {op status detail : Nat} {p : List Word} {c : Cmd} {u t : State}
    (h : Replied op status detail p c u t) : t.chop = u.chop := h.2.1.chop

/-- A reply leaves every arm as it is. -/
theorem Replied.armOf {op status detail : Nat} {p : List Word} {c : Cmd} {u t : State}
    (h : Replied op status detail p c u t) (a : Nat) : armOf t a = armOf u a := by
  unfold Machine.armOf
  rw [h.2.1.arms]

theorem noTableErr_arrived (s : State) (c : Cmd) (m : Nat) : noTableErr (arrived s c) m = noTableErr s m := by
  unfold noTableErr
  simp only [armOf_arrived]

theorem armEnableBody_eq (c : Cmd) (s : State) :
    armEnableBody c (arrived s c) = Res.check (noTableErr s (pw c 0)) (.done (arrived s c)) := by
  unfold armEnableBody
  rw [noTableErr_arrived]

/-- The arms after a command, as the statements say it. -/
theorem ite_deblockedArm (q : Prop) [Decidable q] (p : PerSt) (x : Arm) :
    (if q then deblockedArm p x else x)
      = if q ∧ x.deblocked = false then { x with deblocked := true, firstDeb := p.count + 1 + p.lat - 1 } else x := by
  unfold deblockedArm
  cases hd : x.deblocked <;> simp

theorem ite_blockedArm (q : Prop) [Decidable q] (p : PerSt) (x : Arm) :
    (if q then blockedArm p x else x)
      = if q ∧ x.deblocked = true then { x with deblocked := false, blockFrom := p.count + 2 } else x := by
  unfold blockedArm
  cases hd : x.deblocked <;> simp

/-- Settles O33: the checks in their order, then the arms one by one. -/
theorem blockDeblock : Obligations.BlockDeblock := by
  refine ⟨fun c s h => ⟨fun hn => ?_, fun e he => ?_⟩, fun c s h => ⟨fun hr => ?_, fun hr hb => ?_, fun hn => ?_⟩,
    fun c s h => ?_⟩
  · exact exec_ok h ((armEnableBody_eq c s).trans (hn ▸ rfl))
  · exact exec_err h ((armEnableBody_eq c s).trans (he ▸ rfl))
  · exact exec_err (e := ⟨St.state, 5, 0⟩) h (deblockBody_err (deblockErr_standby _ ((arrived_keeps s c).dup ▸ hr)))
  · exact exec_err (e := ⟨St.state, 10, 0⟩) h (deblockBody_err (deblockErr_belay _ ((arrived_keeps s c).dup ▸ hr)
      ((arrived_keeps s c).belay ▸ hb)))
  · obtain ⟨t, ht, hr⟩ := exec_ok h (deblockBody_ok hn)
    refine ⟨t, ht, hr, hr.chop.trans ((deblockArms_keeps _ _).chop.trans (arrived_keeps s c).chop), fun a => ?_⟩
    rw [hr.armOf, armOf_deblockArms, armOf_arrived, (arrived_keeps s c).per, ite_deblockedArm]
    simp only [mem_maskArms, and_assoc]
  · obtain ⟨t, ht, hr⟩ := exec_ok (body := blockBody) h rfl
    refine ⟨t, ht, hr, hr.chop.trans ((blockArms_keeps _ _).chop.trans (arrived_keeps s c).chop), fun a => ?_⟩
    rw [hr.armOf, armOf_blockArms, armOf_arrived, (arrived_keeps s c).per, ite_blockedArm]
    simp only [and_assoc]

end Sys2Proof.Machine
end

section
/-! SUPPORT. `TAKEOVER` and `SWITCHBACK` (R47, R52, R459). -/

namespace Sys2Proof.Machine

/-! ### What the checks read of a state whose packet has arrived -/

theorem opAny?_arrived (s : State) (c : Cmd) (op : Nat) : opAny? (arrived s c) op = opAny? s op := by
  unfold opAny?
  rw [(arrived_keeps s c).ops]

theorem dup_arrived (s : State) (c : Cmd) : (arrived s c).dup = s.dup := (arrived_keeps s c).dup

theorem belay_arrived (s : State) (c : Cmd) : (arrived s c).belay = s.belay := (arrived_keeps s c).belay

/-! ### The checks shared by the two commands -/

theorem paired_of_ne {s : State} (h : s.dup.role ≠ .solo) : paired s = true := by
  unfold paired
  simpa using h

theorem roleErr_none {s : State} {r : Role} (h : s.dup.role = r) : roleErr s r = none := by
  unfold roleErr
  rw [h]
  exact if_neg (by simp)

theorem peerTallyErr_some {s : State} (h : (fltFind s F.TALLY_MISMATCH 1).isSome = true) :
    peerTallyErr s = some (notReady 5 (0x3000 + (peerBad s).headD 0)) := if_pos h

theorem peerTallyErr_none {s : State} (h : fltFind s F.TALLY_MISMATCH 1 = none) : peerTallyErr s = none :=
  if_neg (by simp [h])

/-- The operation that a long command leaves is among those that run, whatever follows it in its tick. -/
theorem Accepted.opOf_mem {op key : Nat} {c : Cmd} {s t : State} {args : List Nat} {f : State → State}
    (h : Accepted op c (startOp (arrived s c) op key c args) f t) (hf : ∀ v, (f v).ops = v.ops) :
    opOf op key c args s.tick ∈ t.ops := by
  rw [h.ops hf]
  show _ ∈ (arrived s c).ops ++ [opOf op key c args (arrived s c).tick]
  rw [(arrived_keeps s c).tick]
  exact List.mem_append_right _ List.mem_cons_self

/-! ### `TAKEOVER` -/

/-- Every check of `TAKEOVER`, in its order. -/
def takeoverErr (s : State) : Option CmdErr :=
  firstErr [ if paired s then none else some (notReady 0 0), roleErr s .standby, busyErr (opAny? s 0x90),
    peerTallyErr s, errIf (s.belay.state != .normal) St.state 0xA 0 ]

/-- What follows an accepted `TAKEOVER` in its tick. -/
def takeoverAfter (s : State) : State :=
  if 2 ≤ s.dup.missRun then updDup s (fun d => { d with forceTko := true })
  else updDup s (fun d => { d with yieldReq := true })

theorem takeoverBody_eq (c : Cmd) (s : State) :
    takeoverBody c s = Res.check (takeoverErr s) (.accepted (startOp s 0x90 0 c []) takeoverAfter) := rfl

theorem takeoverErr_solo {s : State} (h : s.dup.role = .solo) : takeoverErr s = some ⟨St.state, 3, 0⟩ := by
  unfold takeoverErr paired
  rw [h]
  rfl

theorem takeoverErr_role {s : State} (h : s.dup.role = .active ∨ s.dup.role = .takingOver) :
    takeoverErr s = some ⟨St.state, 5, 1⟩ := by
  unfold takeoverErr paired roleErr
  rcases h with h | h <;> rw [h] <;> rfl

/-- On a standby the checks after those of the role decide. -/
theorem takeoverErr_standby {s : State} (h : s.dup.role = .standby) :
    takeoverErr s = firstErr [busyErr (opAny? s 0x90), peerTallyErr s,
      errIf (s.belay.state != .normal) St.state 0xA 0] := by
  unfold takeoverErr
  rw [if_pos (paired_of_ne (by rw [h]; decide)), roleErr_none h]
  rfl

theorem takeoverAfter_ops (s : State) : (takeoverAfter s).ops = s.ops := by
  unfold takeoverAfter
  split <;> rfl

theorem takeoverAfter_dup (s : State) : (takeoverAfter s).dup
    = if 2 ≤ s.dup.missRun then { s.dup with forceTko := true } else { s.dup with yieldReq := true } := by
  unfold takeoverAfter
  split <;> rfl

/-- What an accepted long command leaves of the duplex block. -/
theorem Accepted.dup {op : Nat} {c : Cmd} {u t : State} {f : State → State} (h : Accepted op c u f t) :
    ∃ v, v.dup = u.dup ∧ t.dup = (f v).dup := by
  obtain ⟨v, -, hv, ht⟩ := h
  exact ⟨v, hv.dup, ht.1.dup⟩

/-! ### `SWITCHBACK` -/

/-- Every check of `SWITCHBACK`, in its order. -/
def switchbackErr (s : State) : Option CmdErr :=
  firstErr [ if paired s then none else some (notReady 0 0), roleErr s .active, busyErr (opAny? s 0x91),
    if armedStandby s then none else some (notReady 0 0), peerTallyErr s, errIf (!peerNormal s) St.state 0xA 0 ]

theorem switchbackBody_eq (c : Cmd) (s : State) :
    switchbackBody c s = Res.check (switchbackErr s) (.accepted (startOp s 0x91 0 c []) id) := rfl

theorem switchbackErr_solo {s : State} (h : s.dup.role = .solo) : switchbackErr s = some ⟨St.state, 3, 0⟩ := by
  unfold switchbackErr paired
  rw [h]
  rfl

theorem switchbackErr_standby {s : State} (h : s.dup.role = .standby) : switchbackErr s = some ⟨St.state, 5, 0⟩ := by
  unfold switchbackErr paired roleErr
  rw [h]
  rfl

theorem switchbackErr_takingOver {s : State} (h : s.dup.role = .takingOver) :
    switchbackErr s = some ⟨St.state, 5, 1⟩ := by
  unfold switchbackErr paired roleErr
  rw [h]
  rfl

/-- On an active controller the checks after those of the role decide. -/
theorem switchbackErr_active {s : State} (h : s.dup.role = .active) :
    switchbackErr s = firstErr [busyErr (opAny? s 0x91), if armedStandby s then none else some (notReady 0 0),
      peerTallyErr s, errIf (!peerNormal s) St.state 0xA 0] := by
  unfold switchbackErr
  rw [if_pos (paired_of_ne (by rw [h]; decide)), roleErr_none h]
  rfl

theorem armedStandby_arrived (s : State) (c : Cmd) : armedStandby (arrived s c) = armedStandby s := by
  unfold armedStandby
  rw [dup_arrived]

theorem peerNormal_arrived (s : State) (c : Cmd) : peerNormal (arrived s c) = peerNormal s := by
  unfold peerNormal
  rw [dup_arrived]

/-- The checks of `TAKEOVER` on a standby, read on the state before the packet. -/
theorem takeoverErr_arrived {s : State} (c : Cmd) (h : s.dup.role = .standby) :
    takeoverErr (arrived s c) = firstErr [busyErr (opAny? s 0x90), peerTallyErr (arrived s c),
      errIf (s.belay.state != .normal) St.state 0xA 0] := by
  rw [takeoverErr_standby (by rw [dup_arrived]; exact h), opAny?_arrived, belay_arrived]

/-- The checks of `SWITCHBACK` on an active controller, read on the state before the packet. -/
theorem switchbackErr_arrived {s : State} (c : Cmd) (h : s.dup.role = .active) :
    switchbackErr (arrived s c) = firstErr [busyErr (opAny? s 0x91),
      if armedStandby s then none else some (notReady 0 0), peerTallyErr (arrived s c),
      errIf (!peerNormal s) St.state 0xA 0] := by
  rw [switchbackErr_active (by rw [dup_arrived]; exact h), opAny?_arrived, armedStandby_arrived, peerNormal_arrived]

/-! ### The rows -/

theorem exec_takeover_err {c : Cmd} {s : State} {e : CmdErr} (h : Admitted spTakeover none c s)
    (he : takeoverErr (arrived s c) = some e) :
    ∃ t, exec (.takeover c) s = .next t
      ∧ Replied 0x90 e.status e.detail [BitVec.ofNat 32 e.diag] c (arrived s c) t :=
  exec_err h ((takeoverBody_eq c _).trans (congrArg (Res.check · _) he))

theorem exec_takeover_ok {c : Cmd} {s : State} (h : Admitted spTakeover none c s)
    (he : takeoverErr (arrived s c) = none) :
    ∃ t, exec (.takeover c) s = .next t ∧ Accepted 0x90 c (startOp (arrived s c) 0x90 0 c []) takeoverAfter t :=
  exec_started h ((takeoverBody_eq c _).trans (congrArg (Res.check · _) he))

theorem exec_switchback_err {c : Cmd} {s : State} {e : CmdErr} (h : Admitted spSwitchback none c s)
    (he : switchbackErr (arrived s c) = some e) :
    ∃ t, exec (.switchback c) s = .next t
      ∧ Replied 0x91 e.status e.detail [BitVec.ofNat 32 e.diag] c (arrived s c) t :=
  exec_err h ((switchbackBody_eq c _).trans (congrArg (Res.check · _) he))

theorem exec_switchback_ok {c : Cmd} {s : State} (h : Admitted spSwitchback none c s)
    (he : switchbackErr (arrived s c) = none) :
    ∃ t, exec (.switchback c) s = .next t ∧ Accepted 0x91 c (startOp (arrived s c) 0x91 0 c []) id t :=
  exec_started h ((switchbackBody_eq c _).trans (congrArg (Res.check · _) he))

/-- Settles O48: the checks in their order, then what an accepted command starts. -/
theorem duplexCommands : Obligations.DuplexCommands := by
  refine ⟨fun c s h => ⟨fun hr => ?_, fun hr => ?_, fun o hr ho => ?_, fun hr ho hf => ?_, fun hr ho hf hb => ?_,
    fun hr ho hf hb => ?_⟩, fun c s h => ⟨fun hr => ?_, fun hr => ?_, fun hr => ?_, fun o hr ho => ?_,
    fun hr ho ha => ?_, fun hr ho ha hf => ?_, fun hr ho ha hf hn => ?_, fun hr ho ha hf hn => ?_⟩⟩
  · exact exec_takeover_err (e := ⟨St.state, 3, 0⟩) h (takeoverErr_solo (by rwa [dup_arrived]))
  · exact exec_takeover_err (e := ⟨St.state, 5, 1⟩) h (takeoverErr_role (by rwa [dup_arrived]))
  · refine exec_takeover_err (e := heldBy o.tag.toNat) h ?_
    rw [takeoverErr_arrived c hr, ho]
    rfl
  · refine exec_takeover_err (e := notReady 5 _) h ?_
    rw [takeoverErr_arrived c hr, ho, peerTallyErr_some hf]
    rfl
  · refine exec_takeover_err (e := ⟨St.state, 0xA, 0⟩) h ?_
    rw [takeoverErr_arrived c hr, ho, peerTallyErr_none hf, errIf, if_pos (by simpa using hb)]
    rfl
  · have hok : takeoverErr (arrived s c) = none := by
      rw [takeoverErr_arrived c hr, ho, peerTallyErr_none hf, hb]
      rfl
    obtain ⟨t, ht, hacc⟩ := exec_takeover_ok h hok
    obtain ⟨v, hv, hd⟩ := hacc.dup
    refine ⟨t, ht, hacc, ?_, hacc.opOf_mem takeoverAfter_ops⟩
    rw [hd, takeoverAfter_dup, show v.dup = s.dup from hv.trans (dup_arrived s c)]
  · exact exec_switchback_err (e := ⟨St.state, 3, 0⟩) h (switchbackErr_solo (by rwa [dup_arrived]))
  · exact exec_switchback_err (e := ⟨St.state, 5, 0⟩) h (switchbackErr_standby (by rwa [dup_arrived]))
  · exact exec_switchback_err (e := ⟨St.state, 5, 1⟩) h (switchbackErr_takingOver (by rwa [dup_arrived]))
  · refine exec_switchback_err (e := heldBy o.tag.toNat) h ?_
    rw [switchbackErr_arrived c hr, ho]
    rfl
  · refine exec_switchback_err (e := ⟨St.state, 3, 0⟩) h ?_
    rw [switchbackErr_arrived c hr, ho, ha]
    rfl
  · refine exec_switchback_err (e := notReady 5 _) h ?_
    rw [switchbackErr_arrived c hr, ho, ha, peerTallyErr_some hf]
    rfl
  · refine exec_switchback_err (e := ⟨St.state, 0xA, 0⟩) h ?_
    rw [switchbackErr_arrived c hr, ho, ha, peerTallyErr_none hf, hn]
    rfl
  · have hok : switchbackErr (arrived s c) = none := by
      rw [switchbackErr_arrived c hr, ho, ha, peerTallyErr_none hf, hn]
      rfl
    obtain ⟨t, ht, hacc⟩ := exec_switchback_ok h hok
    obtain ⟨v, hv, hd⟩ := hacc.dup
    exact ⟨t, ht, hacc, hacc.opOf_mem (fun _ => rfl), hd.trans (hv.trans (dup_arrived s c))⟩

end Sys2Proof.Machine
end

section
/-! SUPPORT. The period mark, upstream frames and their deadlines, a silent cell, the hubs' hold limit (R73, R86, R103,
R261, R283). -/

namespace Sys2Proof.Machine

/-- A row that waits for the core clock is seen, while the clock runs, from the state it comes to. -/
theorem seen_of_clocked {i : Instr} {s u v : State} (hc : clockOn s = true) (h : exec i s = whenClocked s (ends u))
    (hu : u = v) : ∃ t, exec i s = .next t ∧ Seen v t :=
  seen_of_exec (h.trans ((whenClocked_on hc).trans (congrArg ends hu)))

/-! ### The period mark (R73, R485) -/

/-- What a period owes at its end leaves the power state, and so a wait to leave RUN, as it was. -/
theorem pwr_countMark_periodEnd (s : State) : (countMark (periodEnd s)).pwr = s.pwr :=
  (countMark_keeps _).pwr.trans (periodEnd_keeps s).pwr

theorem nextMark_stays {s : State} (p0 p1 : List Nat) (h : s.pwr.wait ≠ .leaveRun) :
    nextMark s p0 p1 = markWork (countMark (periodEnd s)) (s.per.nextMark - s.per.lastMark) p0 p1 := by
  unfold nextMark
  exact if_neg (by rwa [pwr_countMark_periodEnd])

theorem nextMark_leaves {s : State} (p0 p1 : List Nat) (h : s.pwr.wait = .leaveRun) :
    nextMark s p0 p1 = powerNext (leaveRun (countMark (periodEnd s))) := by
  unfold nextMark
  exact if_pos (by rwa [pwr_countMark_periodEnd])

theorem exec_periodMark_running {s : State} (p0 p1 : List Nat) (h : s.per.running = true) :
    exec (.periodMark p0 p1) s = whenClocked s (ends (nextMark s p0 p1)) :=
  congrArg (whenClocked s <| ends ·) (if_pos h)

theorem exec_periodMark_stopped {s : State} (p0 p1 : List Nat) (h : s.per.running = false) :
    exec (.periodMark p0 p1) s = whenClocked s (ends s) :=
  congrArg (whenClocked s <| ends ·) (if_neg (by simp [h]))

/-! ### An upstream frame (R261) -/

/-- What a frame does to the block (R245, R261). -/
def usTake (s : State) (l : Nat) (f : UpFrame) : State :=
  if (laneOf s l).st ≠ .active then s
  else if usIntact s l f && usOver s l f then s
  else if usIntact s l f && decide ((laneOf s l).nextUs ≤ s.per.count)
      && f.mark.toNat == (laneOf s l).nextUs % 4294967296 && usInTime s l then usAccept s l f
  else usLost s l

theorem exec_upstreamFrame (f : UpFrame) (s : State) :
    exec (.upstreamFrame f) s = whenClocked s (ends (usTake s f.lane.toNat f)) := rfl

section
variable {s : State} {l : Nat} {f : UpFrame}

theorem usTake_inactive (h : (laneOf s l).st ≠ .active) : usTake s l f = s := if_pos h

theorem usTake_over (hi : usIntact s l f = true) (ho : usOver s l f = true) : usTake s l f = s := by
  unfold usTake
  rw [if_pos (show (usIntact s l f && usOver s l f) = true by rw [hi, ho]; rfl), ite_self]

/-- An intact frame of the mark due next, in time. -/
theorem usTake_due (ha : (laneOf s l).st = .active) (hi : usIntact s l f = true) (ho : usOver s l f = false)
    (hk : (laneOf s l).nextUs ≤ s.per.count) (hm : f.mark.toNat = (laneOf s l).nextUs % 4294967296)
    (ht : usInTime s l = true) : usTake s l f = usAccept s l f := by
  unfold usTake
  rw [if_neg (not_not_intro ha), if_neg (by simp [ho]), if_pos (by simp [hi, hk, hm, ht])]

/-- Any other frame: not intact, or neither over nor the one due next in time. -/
theorem usTake_other (ha : (laneOf s l).st = .active)
    (h : usIntact s l f = false ∨ (usOver s l f = false ∧ (s.per.count < (laneOf s l).nextUs
      ∨ f.mark.toNat ≠ (laneOf s l).nextUs % 4294967296 ∨ usInTime s l = false))) : usTake s l f = usLost s l := by
  unfold usTake
  rw [if_neg (not_not_intro ha)]
  rcases h with hi | ⟨ho, h⟩
  · rw [if_neg (by simp [hi]), if_neg (by simp [hi])]
  · rw [if_neg (by simp [ho]), if_neg]
    rcases h with hk | hm | ht
    · simp [Nat.not_le.mpr hk]
    · simp [hm]
    · simp [ht]

end

/-! ### The deadline of a frame (R86, R261) -/

section
variable {s : State} {l : Nat} {x : Lane}

theorem usDeadline_none (hx : x = laneOf s l)
    (h : x.st ≠ .active ∨ x.div = 0 ∨ s.per.count + 1 < x.nextUs + divFor x x.nextUs) : usDeadline s l = s := by
  subst hx
  exact if_pos h

theorem usDeadline_next (hx : x = laneOf s l) (ha : x.st = .active) (hd : x.div ≠ 0)
    (h : x.nextUs + divFor x x.nextUs = s.per.count + 1) :
    usDeadline s l = usLost (advanceTo s (s.per.nextMark - 39)) l := by
  subst hx
  exact (if_neg (by simp [ha, hd, h])).trans (if_pos h)

theorem usDeadline_past (hx : x = laneOf s l) (ha : x.st = .active) (hd : x.div ≠ 0)
    (h : x.nextUs + divFor x x.nextUs < s.per.count + 1) : usDeadline s l = usLost s l := by
  subst hx
  exact (if_neg (by simp [ha, hd, h.le])).trans (if_neg h.ne)

end

/-! ### Silence (R103, R166) -/

theorem exec_cellSilenceSuspect_past {s : State} {c : Fin 3072} (h : silenceMark s (cellOf s c) ≤ s.per.count) :
    exec (.cellSilenceSuspect c) s = whenClocked s (ends (silenceAt s s.per.count c)) :=
  congrArg (whenClocked s <| ends ·) (if_pos h)

theorem exec_cellSilenceSuspect_ahead {s : State} {c : Fin 3072} (h : s.per.count < silenceMark s (cellOf s c)) :
    exec (.cellSilenceSuspect c) s
      = whenClocked s (ends (atMark s (silenceMark s (cellOf s c)) (fun v => silenceAt v (v.per.count + 1) c))) :=
  congrArg (whenClocked s <| ends ·) (if_neg (Nat.not_le.mpr h))

/-- Whether a cell counts as silent at mark `m` (R103). -/
def silentBy (s : State) (m c : Nat) : Bool :=
  (cellOf s c).placed && !(cellOf s c).retired && laneActive s (laneOfCell c)
    && decide (silenceMark s (cellOf s c) ≤ m) && debThrough (armOf s (cellOf s c).arm) (cellOf s c).lastRep m

theorem silenceAt_eq (s : State) (m c : Nat) :
    silenceAt s m c = if silentBy s m c then
        if (cellOf s c).silent then silenceFail s m c
        else suspectCell (updCell s c (fun x => { x with silent := true })) c F.CELL_SUSPECT
      else s := rfl

/-! ### `FRM_HUB_HOLD_MAX` (R283) -/

/-- The write of an RW parameter outside the groups, and what follows it. -/
theorem setWord_rw {id : Nat} (s : State) (t : Nat) (w : Word)
    (h : (paramDef? id).map (fun d => (d.access, d.group)) = some (.rw, 0)) :
    setWord s id t w = tallyTouch (afterSet (putP s id t w) id t (getP s id t)) id := by
  obtain ⟨d, hd, he⟩ := Option.map_eq_some_iff.mp h
  obtain ⟨ha, hg⟩ := Prod.mk.inj he
  simp only [setWord, hd, ha, hg, ne_eq, not_true_eq_false, if_false]

/-- What follows is the own writes of every ACTIVE lane. -/
theorem afterSet_hubHoldMax (s : State) (t : Nat) (old : Word) :
    afterSet s P.FRM_HUB_HOLD_MAX t old
      = (List.range 64).foldl (fun s l => if laneActive s l then queueOwn s l else s) s := by
  unfold afterSet
  rfl

theorem setWord_hubHoldMax (s : State) (t : Nat) (w : Word) :
    setWord s P.FRM_HUB_HOLD_MAX t w
      = tallyTouch ((List.range 64).foldl (fun s l => if laneActive s l then queueOwn s l else s)
          (putP s P.FRM_HUB_HOLD_MAX t w)) P.FRM_HUB_HOLD_MAX := by
  rw [setWord_rw s t w (by decide), afterSet_hubHoldMax]

/-- Settles O58: the mark by the wait to leave RUN, the frame and its deadline by what the lane has due, silence by
its conditions. -/
theorem framesAndMarks : Obligations.FramesAndMarks := by
  refine ⟨fun p0 p1 s hc => ⟨fun hr hw => ?_, fun hr hw => ?_, fun hr => ?_⟩, fun s => rfl,
    fun f s l x hc hl hx => ⟨fun ha => ?_, fun _ hi ho => ?_, fun ha hi ho hk hm ht => ?_, fun ha h => ?_⟩,
    fun l s x hc hx => ⟨fun ha hd h => ?_, fun ha hd h => ?_, fun h => ?_⟩,
    fun c s k hc hk => ⟨fun h => ?_, fun h => ?_⟩, fun s m c x g hx hg => ?_, fun c s w v h hw hv => ?_⟩
  · exact seen_of_clocked hc (exec_periodMark_running p0 p1 hr) (nextMark_stays p0 p1 hw)
  · exact seen_of_clocked hc (exec_periodMark_running p0 p1 hr) (nextMark_leaves p0 p1 hw)
  · exact seen_of_clocked hc (exec_periodMark_stopped p0 p1 hr) rfl
  · subst hl hx
    exact seen_of_clocked hc (exec_upstreamFrame f s) (usTake_inactive ha)
  · subst hl
    exact seen_of_clocked hc (exec_upstreamFrame f s) (usTake_over hi ho)
  · subst hl hx
    exact seen_of_clocked hc (exec_upstreamFrame f s) (usTake_due ha hi ho hk hm ht)
  · subst hl hx
    exact seen_of_clocked hc (exec_upstreamFrame f s) (usTake_other ha h)
  · exact seen_of_clocked hc rfl (usDeadline_next hx ha hd h)
  · exact seen_of_clocked hc rfl (usDeadline_past hx ha hd h)
  · exact seen_of_clocked hc rfl (usDeadline_none hx h)
  · subst hk
    exact seen_of_clocked hc (exec_cellSilenceSuspect_past h) rfl
  · subst hk
    exact seen_of_clocked hc (exec_cellSilenceSuspect_ahead h) rfl
  · subst hx
    rw [silenceAt_eq, show silentBy s m c = g from hg.symm]
    exact ⟨fun h hs => by rw [if_pos h, if_neg (by simp [hs])], fun h hs => by rw [if_pos h, if_pos hs],
      fun h => if_neg (by simp [h])⟩
  · subst hw hv
    obtain ⟨t, ht, hd⟩ := exec_rowDone (by decide) h
    exact ⟨t, _, ht, hd, setWord_hubHoldMax _ _ _⟩

end Sys2Proof.Machine
end

section
/-! SUPPORT. The commands of the cleat, of maintenance and of retirement (R161 to R173, R452). -/

namespace Sys2Proof.Machine

/-! ### What a packet's arrival leaves -/

theorem cellOf_arrived (s : State) (c : Cmd) (x : Nat) : cellOf (arrived s c) x = cellOf s x := by
  unfold cellOf
  rw [(arrived_keeps s c).cells rfl]

theorem cleatOf_arrived (s : State) (c : Cmd) (e : Nat) : cleatOf (arrived s c) e = cleatOf s e := by
  unfold cleatOf
  rw [(arrived_keeps s c).cleat rfl]

theorem opRun?_arrived (s : State) (c : Cmd) (op key : Nat) : opRun? (arrived s c) op key = opRun? s op key := by
  unfold opRun?
  rw [(arrived_keeps s c).ops rfl]

theorem nextMarkNo_arrived (s : State) (c : Cmd) : nextMarkNo (arrived s c) = s.per.count + 1 := by
  unfold nextMarkNo
  rw [(arrived_keeps s c).per rfl]

theorem maintFree_arrived (s : State) (c : Cmd) : maintFree (arrived s c) = maintFree s := by
  unfold maintFree maintSize getN
  simp only [cleatOf_arrived, getP_arrived]

theorem freeActs_arrived (s : State) (c : Cmd) : freeActs (arrived s c) = freeActs s := by
  unfold freeActs
  rw [(arrived_keeps s c).cleat rfl]

theorem actAdmitted?_arrived (s : State) (c : Cmd) (id : Nat) : actAdmitted? (arrived s c) id = actAdmitted? s id := by
  unfold actAdmitted?
  rw [(arrived_keeps s c).cleat rfl]

theorem actHeld_arrived (s : State) (c : Cmd) (id : Nat) : actHeld (arrived s c) id = actHeld s id := by
  unfold actHeld cleatList
  rw [funext (cleatOf_arrived s c)]

/-! ### Lists of checks (R44) -/

@[simp] theorem firstErr_none_cons (l : List (Option CmdErr)) : firstErr (none :: l) = firstErr l := rfl

@[simp] theorem firstErr_some_cons (e : CmdErr) (l : List (Option CmdErr)) : firstErr (some e :: l) = some e := rfl

@[simp] theorem firstErr_singleton (e : Option CmdErr) : firstErr [e] = e := by
  cases e <;> rfl

@[simp] theorem errIf_true (status detail diag : Nat) :
    errIf true status detail diag = some ⟨status, detail, diag⟩ := rfl

@[simp] theorem errIf_false (status detail diag : Nat) : errIf false status detail diag = none := rfl

@[simp] theorem Res.check_some (e : CmdErr) (r : Res) : Res.check (some e) r = .err e := rfl

@[simp] theorem Res.check_none (r : Res) : Res.check none r = r := rfl

theorem standbyErr_some {s : State} (h : s.dup.role = .standby) : standbyErr s = some ⟨St.state, 5, 0⟩ := by
  simp [standbyErr, h]

theorem standbyErr_none {s : State} (h : s.dup.role ≠ .standby) : standbyErr s = none := by
  simp [standbyErr, beq_false_of_ne h]

/-! ### The cleat and the activities after a command -/

/-- A reply leaves the cleat and the activities as they are. -/
theorem Replied.cleat {op status detail : Nat} {p : List Word} {c : Cmd} {u t : State}
    (h : Replied op status detail p c u t) : t.cleat = u.cleat := h.2.1.cleat rfl

theorem cleatOf_congr {s t : State} (h : t.cleat = s.cleat) (e : Nat) : cleatOf t e = cleatOf s e := by
  unfold cleatOf
  rw [h]

theorem acts_congr {s t : State} (h : t.cleat = s.cleat) (i : Nat) :
    tabGet Activity.empty t.cleat.acts i = tabGet Activity.empty s.cleat.acts i := by rw [h]

theorem acts_updAct (s : State) (i : Nat) (f : Activity → Activity) :
    tabGet Activity.empty (updAct s i f).cleat.acts i = f (tabGet Activity.empty s.cleat.acts i) :=
  tabGet_tabUpd_same _ _ _ _

/-- A HELD entry once released at mark `m`: RELEASE_PENDING until mark m + L − 1 (R161). -/
theorem cleatOf_releaseEntry {s : State} {e : Nat} (m : Nat) (h : (cleatOf s e).st = .held) :
    cleatOf (releaseEntry s e m) e
      = { cleatOf s e with st := .pending, freeAt := m + s.per.lat - 1, latches := none } := by
  unfold releaseEntry
  rw [if_pos h, cleatOf_congr ((cellCauses_keeps _ _).cleat rfl)]
  exact cleatOf_updCleat s e _

/-! ### `CLEAT_ADD` (R163) -/

theorem cleatAddBody_standby {s : State} (c : Cmd) (h : s.dup.role = .standby) :
    cleatAddBody c s = .err ⟨St.state, 5, 0⟩ := by
  simp [cleatAddBody, standbyErr_some h]

theorem cleatAddBody_noOverride {c : Cmd} {s : State} (hr : s.dup.role ≠ .standby) (h : pw c 0 = 0) :
    cleatAddBody c s = .err ⟨St.range, 0x8000, 0⟩ := by
  simp [cleatAddBody, standbyErr_none hr, h]

theorem cleatAddBody_unplaced {c : Cmd} {s : State} (hr : s.dup.role ≠ .standby) (h0 : pw c 0 ≠ 0)
    (h : (cellOf s (tgt c)).placed = false) : cleatAddBody c s = .err (notReady 2 (tgt c)) := by
  simp [cleatAddBody, standbyErr_none hr, beq_false_of_ne h0, h]

/-- For a placed cell and an override the checks against the activity decide. -/
theorem cleatAddBody_placed {c : Cmd} {s : State} (hr : s.dup.role ≠ .standby) (h0 : pw c 0 ≠ 0)
    (h : (cellOf s (tgt c)).placed = true) :
    cleatAddBody c s = Res.check (cleatAddErr s (tgt c) (pw c 0) (pw c 1))
      (.ok 0 [BitVec.ofNat 32 ((maintFree s).headD 0)] (cleatWatch (updCleat s ((maintFree s).headD 0) fun _ =>
        heldEntry s ((maintFree s).headD 0) (tgt c) (ovrOf (pw c 0)) false (pw c 1) (nextMarkNo s)))) := by
  simp [cleatAddBody, standbyErr_none hr, beq_false_of_ne h0, h]

/-! ### `CLEAT_RELEASE` (R168) -/

theorem cleatReleaseBody_standby {s : State} (c : Cmd) (h : s.dup.role = .standby) :
    cleatReleaseBody c s = .err ⟨St.state, 5, 0⟩ := by
  simp [cleatReleaseBody, standbyErr_some h]

theorem cleatReleaseBody_range {c : Cmd} {s : State} (hr : s.dup.role ≠ .standby) (h : 31 < pw c 0) :
    cleatReleaseBody c s = .err ⟨St.range, 0x8000, pw c 0⟩ := by
  simp [cleatReleaseBody, standbyErr_none hr, h]

theorem cleatReleaseBody_other {c : Cmd} {s : State} (hr : s.dup.role ≠ .standby) (he : pw c 0 ≤ 31)
    (h : (cleatOf s (pw c 0)).st ≠ .held ∨ (cleatOf s (pw c 0)).fault = true) :
    cleatReleaseBody c s = .err (noSuch (pw c 0)) := by
  simp [cleatReleaseBody, standbyErr_none hr, Nat.not_lt.mpr he, h]

theorem cleatReleaseBody_held {c : Cmd} {s : State} (hr : s.dup.role ≠ .standby) (he : pw c 0 ≤ 31)
    (h : (cleatOf s (pw c 0)).st = .held) (hf : (cleatOf s (pw c 0)).fault = false) :
    cleatReleaseBody c s = .ok 0 [] (releaseEntry s (pw c 0) (nextMarkNo s)) := by
  simp [cleatReleaseBody, Res.done, standbyErr_none hr, Nat.not_lt.mpr he, h, hf]

/-! ### `MAINT_ADMIT` and `MAINT_END` (R171, R173) -/

theorem maintAdmitErr_standby {s : State} (c : Cmd) (h : s.dup.role = .standby) :
    maintAdmitErr c s = some ⟨St.state, 5, 0⟩ := by
  unfold maintAdmitErr
  rw [standbyErr_some h]
  rfl

theorem maintAdmitBody_err {c : Cmd} {s : State} {e : CmdErr} (h : maintAdmitErr c s = some e) :
    maintAdmitBody c s = .err e := by
  rw [maintAdmitBody, h, Res.check_some]

theorem maintAdmitBody_ok {c : Cmd} {s : State} (h : maintAdmitErr c s = none) :
    maintAdmitBody c s = .ok 0 [] (ledgerWatch (updAct s ((freeActs s).headD 0)
      fun _ => ⟨pw c 0, pw c 1, armList.map (fun a => pw c (2 + a)), none⟩)) := by
  rw [maintAdmitBody, h, Res.check_none, Res.done]

theorem maintEndBody_unknown {c : Cmd} {s : State} (h : actAdmitted? s (pw c 0) = none) :
    maintEndBody c s = Res.check (standbyErr s) (.err (noSuch (pw c 0))) := by
  simp only [maintEndBody, h]

theorem maintEndBody_known {c : Cmd} {s : State} {i : Nat} (h : actAdmitted? s (pw c 0) = some i) :
    maintEndBody c s = Res.check
      (firstErr [standbyErr s, if actHeld s (pw c 0) = 0 then none else some (noSuch (pw c 0))])
      (.ok 0 [] (updAct (clearExcl s (pw c 0)) i fun a => { a with ending := some 2 })) := by
  simp only [maintEndBody, h]
  rfl

theorem maintEndBody_standby {s : State} (c : Cmd) (h : s.dup.role = .standby) :
    maintEndBody c s = .err ⟨St.state, 5, 0⟩ := by
  cases ha : actAdmitted? s (pw c 0) with
  | none => rw [maintEndBody_unknown ha, standbyErr_some h]; rfl
  | some i => rw [maintEndBody_known ha, standbyErr_some h]; rfl

/-- An activity that is not admitted, or holds entries, cannot end. -/
theorem maintEndBody_refused {c : Cmd} {s : State} (hr : s.dup.role ≠ .standby)
    (h : ∀ i, actAdmitted? s (pw c 0) = some i → actHeld s (pw c 0) ≠ 0) :
    maintEndBody c s = .err (noSuch (pw c 0)) := by
  cases ha : actAdmitted? s (pw c 0) with
  | none => rw [maintEndBody_unknown ha, standbyErr_none hr]; rfl
  | some i => rw [maintEndBody_known ha, standbyErr_none hr, if_neg (h i ha)]; rfl

theorem maintEndBody_ok {c : Cmd} {s : State} {i : Nat} (hr : s.dup.role ≠ .standby)
    (ha : actAdmitted? s (pw c 0) = some i) (h : actHeld s (pw c 0) = 0) :
    maintEndBody c s = .ok 0 [] (updAct (clearExcl s (pw c 0)) i fun a => { a with ending := some 2 }) := by
  rw [maintEndBody_known ha, standbyErr_none hr, if_pos h]
  rfl

/-! ### `CLT_EXCLUDE` (R172) -/

theorem excludeErr_standby {s : State} (t : Nat) (w : Word) (h : s.dup.role = .standby) :
    excludeErr s t w = some ⟨St.state, 5, 0⟩ := by
  simp [excludeErr, standbyErr_some h]

/-- A mark of 16 bits is checked by the rules of R172 (it has no group and is not stop-only). -/
theorem setErr_exclude {s : State} {w : Word} {e : CmdErr} (t : Nat) (hw : w.toNat < 65536)
    (h : excludeErr s t w = some e) : setErr s P.CLT_EXCLUDE t w = some e := by
  have hd : paramDef? P.CLT_EXCLUDE = some ⟨P.CLT_EXCLUDE, false, 16, .rw, 3072, 0, false, .special, false, 0⟩ := by
    decide
  have hs : specialErr s P.CLT_EXCLUDE t w = some e :=
    (show _ = excludeErr s t w from rfl).trans h
  have hwide : widthOk ⟨P.CLT_EXCLUDE, false, 16, .rw, 3072, 0, false, .special, false, 0⟩ w = true := decide_eq_true hw
  rw [setErr_value s t w hd (by decide) (.inl rfl), setErr.valueErr, rangeErr_in hwide rfl, hs]
  rfl

/-- A write row that its check refuses. -/
theorem exec_param_err {id : Nat} {c : Cmd} {s : State} {e : CmdErr} (hid : id < 65536)
    (h : Admitted (spSetParam (paramCmd id c)) (paramOwn (paramCmd id c)) (paramCmd id c) s)
    (he : setErr (rowFrom id c s) id (tgt c) (c.payload.getD 0 0) = some e) :
    ∃ t, ends (setParam (paramCmd id c) s) = .next t
      ∧ Replied 0x03 e.status e.detail [BitVec.ofNat 32 e.diag] (paramCmd id c) (rowFrom id c s) t :=
  exec_setParam_err h ((congrArg (setErr _ · _ _) (paramCmd_id id c hid)).trans he)

theorem setWord_exclude (s : State) (t : Nat) (w : Word) :
    setWord s P.CLT_EXCLUDE t w = tallyTouch (putP s P.CLT_EXCLUDE t w) P.CLT_EXCLUDE := by
  rw [setWord_rw s t w (by decide), afterSet_plain _ _ _ (by decide)]

/-- What a write row answered OK leaves of a parameter that no cause and no reel writes. -/
theorem RowDone.getP {id : Nat} {c : Cmd} {u t : State} (h : RowDone id c u t) (i k : Nat)
    (hi : asideIds.contains i = false) : getP t i k = getP u i k :=
  h.2.1.param i k rfl hi

/-! ### `CELL_RETIRE` (R167) -/

theorem cellRetireBody_standby {s : State} (c : Cmd) (h : s.dup.role = .standby) :
    cellRetireBody c s = .err ⟨St.state, 5, 0⟩ := by
  simp [cellRetireBody, standbyErr_some h]

theorem cellRetireBody_unplaced {c : Cmd} {s : State} (hr : s.dup.role ≠ .standby)
    (h : (cellOf s (tgt c)).placed = false) : cellRetireBody c s = .err (notReady 2 (tgt c)) := by
  simp [cellRetireBody, standbyErr_none hr, h]

theorem cellRetireBody_busy {c : Cmd} {s : State} {o : LongOp} (hr : s.dup.role ≠ .standby)
    (hp : (cellOf s (tgt c)).placed = true) (h : opRun? s 0x37 (tgt c) = some o) :
    cellRetireBody c s = .err (heldBy o.tag.toNat) := by
  simp [cellRetireBody, standbyErr_none hr, hp, h, busyErr]

theorem cellRetireBody_begun {c : Cmd} {s : State} (hr : s.dup.role ≠ .standby)
    (hp : (cellOf s (tgt c)).placed = true) (ho : opRun? s 0x37 (tgt c) = none)
    (h : (cellOf s (tgt c)).retired = true ∨ (cellOf s (tgt c)).retire ≠ .no) :
    cellRetireBody c s = .err ⟨St.conflict, 3, tgt c⟩ := by
  simp [cellRetireBody, standbyErr_none hr, hp, ho, busyErr, errIf, h]

/-- For a cell whose retirement may begin the ledger of its arm decides. -/
theorem cellRetireBody_ledger {c : Cmd} {s : State} (hr : s.dup.role ≠ .standby)
    (hp : (cellOf s (tgt c)).placed = true) (ho : opRun? s 0x37 (tgt c) = none)
    (ht : (cellOf s (tgt c)).retired = false) (h : (cellOf s (tgt c)).retire = .no) :
    cellRetireBody c s = Res.check (errIf (retireBelow s (tgt c)) St.conflict 2 (cellOf s (tgt c)).arm)
      (.accepted (startOp s 0x37 (tgt c) c [1]) (serveRetire (nextMarkNo s))) := by
  simp [cellRetireBody, standbyErr_none hr, hp, ho, busyErr, ht, h]

/-- Settles O34: each refusal is the first check that fails, read on the state the packet found, and without one the
entry, the activity or the retirement is the one the body writes. -/
theorem cleatCommands : Obligations.CleatCommands := by
  have role : ∀ {s : State} (c : Cmd), s.dup.role ≠ .standby → (arrived s c).dup.role ≠ .standby :=
    fun {s} c h => dup_arrived s c ▸ h
  have standby : ∀ {s : State} (c : Cmd), s.dup.role = .standby → (arrived s c).dup.role = .standby :=
    fun {s} c h => (congrArg DupSt.role (dup_arrived s c)).trans h
  refine ⟨fun c s h => ⟨fun hr => ?_, fun hr h0 hp he => ?_, fun hr h0 => ?_, fun hr h0 hp => ?_,
      fun e hr h0 hp he => ?_⟩,
    fun c s h => ⟨fun hr => ?_, fun hr hi hh hf => ?_, fun hr hi => ?_, fun hr hi ho => ?_⟩,
    fun c s h => ⟨fun hr => ?_, fun he => ?_, fun e he => ?_⟩,
    fun c s h => ⟨fun hr => ?_, fun i hr ha h0 => ?_, fun i hr ha h0 => ?_, fun hr ha => ?_⟩,
    fun c s h => ⟨fun hr hw => ?_, fun e he => ?_⟩, fun c s h => ?_,
    fun c s h => ⟨fun hr => ?_, fun hr hp ho ht hn hb => ?_, fun hr hp => ?_, fun o hr hp ho => ?_,
      fun hr hp ho hn => ?_, fun hr hp ho ht hn hb => ?_⟩⟩
  · exact exec_err (e := ⟨St.state, 5, 0⟩) h (cleatAddBody_standby c (standby c hr))
  · have hb := cleatAddBody_placed (role c hr) h0 (by rwa [cellOf_arrived])
    rw [he, Res.check_none] at hb
    obtain ⟨t, ht, hd⟩ := exec_ok h hb
    rw [maintFree_arrived, nextMarkNo_arrived] at hd
    have hx := (cleatOf_congr (hd.cleat.trans ((cleatWatch_keeps _).cleat rfl)) _).trans (cleatOf_updCleat _ _ _)
    exact ⟨t, ht, hd, by rw [hx]; rfl, by rw [hx]; rfl⟩
  · exact exec_err (e := ⟨St.range, 0x8000, 0⟩) h (cleatAddBody_noOverride (role c hr) h0)
  · exact exec_err (e := notReady 2 _) h (cleatAddBody_unplaced (role c hr) h0 (by rwa [cellOf_arrived]))
  · have hb := cleatAddBody_placed (role c hr) h0 (by rwa [cellOf_arrived])
    rw [he, Res.check_some] at hb
    exact exec_err h hb
  · exact exec_err (e := ⟨St.state, 5, 0⟩) h (cleatReleaseBody_standby c (standby c hr))
  · have hs : (cleatOf (arrived s c) (pw c 0)).st = .held := by rwa [cleatOf_arrived]
    obtain ⟨t, ht, hd⟩ := exec_ok h (cleatReleaseBody_held (role c hr) hi hs (by rwa [cleatOf_arrived]))
    rw [nextMarkNo_arrived] at hd
    have hx := (cleatOf_congr hd.cleat _).trans (cleatOf_releaseEntry _ hs)
    exact ⟨t, ht, hd, by rw [hx], by rw [hx, (arrived_keeps s c).per rfl]⟩
  · exact exec_err (e := ⟨St.range, 0x8000, _⟩) h (cleatReleaseBody_range (role c hr) hi)
  · exact exec_err (e := noSuch _) h (cleatReleaseBody_other (role c hr) hi (by rwa [cleatOf_arrived]))
  · exact exec_err (e := ⟨St.state, 5, 0⟩) h (maintAdmitBody_err (maintAdmitErr_standby c (standby c hr)))
  · obtain ⟨t, ht, hd⟩ := exec_ok h (maintAdmitBody_ok he)
    rw [freeActs_arrived] at hd
    refine ⟨t, ht, hd, ?_⟩
    rw [acts_congr (hd.cleat.trans ((ledgerWatch_keeps _).cleat rfl)), acts_updAct]
  · exact exec_err h (maintAdmitBody_err he)
  · exact exec_err (e := ⟨St.state, 5, 0⟩) h (maintEndBody_standby c (standby c hr))
  · obtain ⟨t, ht, hd⟩ := exec_ok h (maintEndBody_ok (role c hr) ((actAdmitted?_arrived s c _).trans ha)
      ((actHeld_arrived s c _).trans h0))
    exact ⟨t, ht, hd, by rw [acts_congr hd.cleat, acts_updAct]⟩
  · exact exec_err (e := noSuch _) h (maintEndBody_refused (role c hr) fun _ _ => by rwa [actHeld_arrived])
  · refine exec_err (e := noSuch _) h (maintEndBody_refused (role c hr) fun i hi => ?_)
    rw [actAdmitted?_arrived, ha] at hi
    cases hi
  · exact exec_param_err (e := ⟨St.state, 5, 0⟩) (by decide) h
      (setErr_exclude _ hw (excludeErr_standby _ _ (standby (paramCmd _ c) hr)))
  · exact exec_param_err (by decide) h he
  · obtain ⟨t, ht, hd⟩ := exec_rowDone (by decide) h
    rw [setWord_exclude] at hd
    have hp := (tallyTouch_keeps (putP (rowFrom P.CLT_EXCLUDE c s) P.CLT_EXCLUDE (tgt c) (c.payload.getD 0 0))
      P.CLT_EXCLUDE).param P.CLT_EXCLUDE (tgt c) rfl rfl
    exact ⟨t, ht, hd, (hd.getP _ _ rfl).trans (hp.trans (getP_putP_same _ _ _ _))⟩
  · exact exec_err (e := ⟨St.state, 5, 0⟩) h (cellRetireBody_standby c (standby c hr))
  · have he := cellRetireBody_ledger (role c hr) (by rwa [cellOf_arrived]) (by rwa [opRun?_arrived])
      (by rwa [cellOf_arrived]) (by rwa [cellOf_arrived])
    rw [hb, errIf_false, Res.check_none, nextMarkNo_arrived] at he
    exact exec_started h he
  · exact exec_err (e := notReady 2 _) h (cellRetireBody_unplaced (role c hr) (by rwa [cellOf_arrived]))
  · exact exec_err (e := heldBy _) h
      (cellRetireBody_busy (role c hr) (by rwa [cellOf_arrived]) (by rwa [opRun?_arrived]))
  · exact exec_err (e := ⟨St.conflict, 3, tgt c⟩) h (cellRetireBody_begun (role c hr)
      (by rwa [cellOf_arrived]) (by rwa [opRun?_arrived]) (by rwa [cellOf_arrived]))
  · have he := cellRetireBody_ledger (role c hr) (by rwa [cellOf_arrived]) (by rwa [opRun?_arrived])
      (by rwa [cellOf_arrived]) (by rwa [cellOf_arrived])
    rw [hb, cellOf_arrived, errIf_true, Res.check_some] at he
    exact exec_err (e := ⟨St.conflict, 2, (cellOf s (tgt c)).arm⟩) h he

end Sys2Proof.Machine
end

section
/-! SUPPORT. What the cleat's times do (R161, R166, R167, R168, R173, R286). -/

namespace Sys2Proof.Machine

/-! ### Effects at the next mark -/

/-- That time passes changes no cleat entry. -/
theorem cleatOf_advanceTo (s : State) (n e : Nat) : cleatOf (advanceTo s n) e = cleatOf s e :=
  cleatOf_congr ((advanceTo_keeps s n).cleat rfl) e

/-- What the reel's look leaves of the cleat. -/
theorem Seen.cleat {u t : State} (h : Seen u t) : t.cleat = u.cleat := h.1.cleat rfl

/-- An effect due by the next mark comes at once where its mark has come, else at that mark's tick. -/
theorem atMark_due {s : State} {m : Nat} (f : State → State) (hr : s.per.running = true) (hm : m ≤ s.per.count + 1) :
    atMark s m f = f (if m ≤ s.per.count then s else advanceTo s s.per.nextMark) := by
  unfold atMark
  rw [if_neg (by simp [hr])]
  by_cases h : m ≤ s.per.count
  · rw [if_pos h, if_pos h]
  · rw [if_neg h, if_neg h, if_pos (by omega)]

/-- Before the mark ahead of its own, or while no period runs, an effect waits. -/
theorem atMark_waits {s : State} {m : Nat} (f : State → State)
    (h : s.per.running = false ∨ s.per.count + 1 < m) : atMark s m f = s := by
  unfold atMark
  rcases h with h | h
  · exact if_pos (by simp [h])
  · rw [if_neg (show ¬ m ≤ s.per.count by omega), if_neg (show ¬ m = s.per.count + 1 by omega), ite_self]

/-! ### Retry windows (R166) -/

theorem exec_cleatRetryWindowEnd_due {e : Fin 32} {s : State} {n : Nat} (hl : (cleatOf s e).latches = some n)
    (hn : n ≤ 1) (hs : (cleatOf s e).st = .held) (hf : (cleatOf s e).fault = true) (hr : s.per.running = true)
    (hm : latchNext s = true) (hw : (cleatOf s e).since ≤ s.per.count) :
    exec (.cleatRetryWindowEnd e) s
      = whenClocked s (ends (releaseEntry (advanceTo s s.per.nextMark) e (nextMarkNo s))) := by
  show execCleatRetryWindowEnd e s = _
  simp only [execCleatRetryWindowEnd, hl]
  rw [if_pos (by simp [hn, hs, hf, hr, hm, hw])]

theorem exec_cleatRetryWindowEnd_waits {e : Fin 32} {s : State} (h : ∀ n, (cleatOf s e).latches = some n →
      1 < n ∨ (cleatOf s e).st ≠ .held ∨ (cleatOf s e).fault = false ∨ s.per.running = false ∨ latchNext s = false
        ∨ s.per.count < (cleatOf s e).since) :
    exec (.cleatRetryWindowEnd e) s = whenClocked s (ends s) := by
  show execCleatRetryWindowEnd e s = _
  cases hl : (cleatOf s e).latches with
  | none => simp only [execCleatRetryWindowEnd, hl]
  | some n =>
    simp only [execCleatRetryWindowEnd, hl]
    rw [if_neg]
    simp only [Bool.and_eq_true, beq_iff_eq, decide_eq_true_eq]
    rintro ⟨⟨⟨⟨⟨hr, hs⟩, hf⟩, hn⟩, hm⟩, hw⟩
    rcases h n hl with h | h | h | h | h | h
    · exact absurd hn (Nat.not_le.mpr h)
    · exact h hs
    · exact Bool.false_ne_true (h.symm.trans hf)
    · exact Bool.false_ne_true (h.symm.trans hr)
    · exact Bool.false_ne_true (h.symm.trans hm)
    · exact absurd hw (Nat.not_le.mpr h)

/-! ### RELEASE_PENDING (R161) -/

theorem exec_cleatEntryFree_due {e : Fin 32} {s : State} (hs : (cleatOf s e).st = .pending)
    (hr : s.per.running = true) (hm : (cleatOf s e).freeAt ≤ s.per.count + 1) :
    exec (.cleatEntryFree e) s = whenClocked s (ends (freeCleats
      (if (cleatOf s e).freeAt ≤ s.per.count then s else advanceTo s s.per.nextMark) (cleatOf s e).freeAt)) := by
  have hv : cleatOf (if (cleatOf s e).freeAt ≤ s.per.count then s else advanceTo s s.per.nextMark) e = cleatOf s e := by
    split
    · rfl
    · exact cleatOf_advanceTo s _ e
  refine congrArg (whenClocked s <| ends ·) ((if_pos hs).trans ((atMark_due _ hr hm).trans ?_))
  unfold freeCleat
  rw [hv, if_pos hs]

theorem exec_cleatEntryFree_waits {e : Fin 32} {s : State}
    (h : (cleatOf s e).st ≠ .pending ∨ s.per.running = false ∨ s.per.count + 1 < (cleatOf s e).freeAt) :
    exec (.cleatEntryFree e) s = whenClocked s (ends s) := by
  refine congrArg (whenClocked s <| ends ·) ?_
  rcases h with h | h
  · exact if_neg h
  · exact (congrArg (ite _ · s) (atMark_waits _ h)).trans (ite_self s)

/-! ### Activities that end (R173) -/

theorem exec_activityFree_due {i : Fin 16} {s : State} {n : Nat}
    (he : (tabGet Activity.empty s.cleat.acts i).ending = some n) (hn : n ≤ 1) (hr : s.per.running = true)
    (hm : latchNext s = true) :
    exec (.activityFree i) s = whenClocked s (ends (freeActivity (advanceTo s s.per.nextMark) i)) := by
  show execActivityFree i s = _
  simp only [execActivityFree, he]
  rw [if_pos (by simp [hn, hr, hm])]

theorem exec_activityFree_waits {i : Fin 16} {s : State}
    (h : ∀ n, (tabGet Activity.empty s.cleat.acts i).ending = some n →
      1 < n ∨ s.per.running = false ∨ latchNext s = false) :
    exec (.activityFree i) s = whenClocked s (ends s) := by
  show execActivityFree i s = _
  cases he : (tabGet Activity.empty s.cleat.acts i).ending with
  | none => simp only [execActivityFree, he]
  | some n =>
    simp only [execActivityFree, he]
    rw [if_neg]
    simp only [Bool.and_eq_true, decide_eq_true_eq]
    rintro ⟨⟨hr, hn⟩, hm⟩
    rcases h n he with h | h | h
    · exact absurd hn (Nat.not_le.mpr h)
    · exact Bool.false_ne_true (h.symm.trans hr)
    · exact Bool.false_ne_true (h.symm.trans hm)

/-- A freed slot holds no activity. -/
theorem acts_freeActivity (s : State) (i : Nat) :
    tabGet Activity.empty (freeActivity s i).cleat.acts i = Activity.empty := by
  rw [freeActivity, acts_congr ((ledgerWatch_keeps _).cleat rfl), acts_updAct]

/-! ### Retirement (R167, R286) -/

theorem exec_cellRetireTimeout_due {x : Fin 3072} {s v : State} {o : LongOp} (ho : opRun? s 0x37 x = some o)
    (ha : o.args.headD 0 = 1) (hn : (cellOf s x).retire = .no)
    (hv : v = advanceTo s (o.start + 4 * s.per.eff * s.per.per)) :
    exec (.cellRetireTimeout x) s = whenClocked s (ends (completeErr v o ⟨St.timeout, 1, elapsedUs v o⟩)) := by
  subst hv
  show execCellRetireTimeout x s = _
  simp only [execCellRetireTimeout, ho]
  rw [if_pos (by simp only [ha, hn, decide_true, beq_self_eq_true, Bool.and_self])]

theorem exec_cellRetireTimeout_idle {x : Fin 3072} {s : State}
    (h : ∀ o, opRun? s 0x37 x = some o → o.args.headD 0 ≠ 1 ∨ (cellOf s x).retire ≠ .no) :
    exec (.cellRetireTimeout x) s = whenClocked s (ends s) := by
  show execCellRetireTimeout x s = _
  cases ho : opRun? s 0x37 x with
  | none => simp only [execCellRetireTimeout, ho]
  | some o =>
    simp only [execCellRetireTimeout, ho]
    rw [if_neg]
    simp only [Bool.and_eq_true, beq_iff_eq, decide_eq_true_eq]
    rintro ⟨ha, hn⟩
    rcases h o ho with h | h
    · exact h ha
    · exact h hn

theorem exec_permConfirmTimeout_fired {x : Fin 3072} {s : State} {d : Nat} (h : (cellOf s x).retire = .fired d) :
    exec (.permConfirmTimeout x) s = whenClocked s (ends (permFailed (advanceTo s d) x)) := by
  show execPermConfirmTimeout x s = _
  simp only [execPermConfirmTimeout, h]

theorem exec_permConfirmTimeout_other {x : Fin 3072} {s : State} (h : ∀ d, (cellOf s x).retire ≠ .fired d) :
    exec (.permConfirmTimeout x) s = whenClocked s (ends s) := by
  show execPermConfirmTimeout x s = _
  unfold execPermConfirmTimeout
  split
  · next d hd => exact absurd hd (h d)
  · rfl

theorem exec_permBypassRetry_again {x : Fin 3072} {s : State} {d : Nat} (h : (cellOf s x).retire = .again d) :
    exec (.permBypassRetry x) s = whenClocked s (ends (sendPair (advanceTo s d) x)) := by
  show execPermBypassRetry x s = _
  simp only [execPermBypassRetry, h]

theorem exec_permBypassRetry_other {x : Fin 3072} {s : State} (h : ∀ d, (cellOf s x).retire ≠ .again d) :
    exec (.permBypassRetry x) s = whenClocked s (ends s) := by
  show execPermBypassRetry x s = _
  unfold execPermBypassRetry
  split
  · next d hd => exact absurd hd (h d)
  · rfl

/-- Settles O35: where something is due the row's own equation gives the state it comes to, elsewhere it stands. -/
theorem cleatTimers : Obligations.CleatTimers := by
  refine ⟨fun e s n hc hl hn hs hf hr hm hw => ?_, fun e s hc h => ?_, fun e s hc hs hr hm => ?_, fun e s hc h => ?_,
    fun i s n hc he hn hr hm => ?_, fun i s hc h => ?_, fun x s o hc ho ha hn => ?_, fun x s hc h => ?_,
    fun x s d hc h => ?_, fun x s d hc h => ?_, fun x s hc => ⟨fun h => ?_, fun h => ?_⟩⟩
  · obtain ⟨t, ht, hd⟩ := seen_of_clocked hc (exec_cleatRetryWindowEnd_due hl hn hs hf hr hm hw) rfl
    refine ⟨t, ht, hd, ?_⟩
    rw [cleatOf_congr hd.cleat, cleatOf_releaseEntry _ (by rwa [cleatOf_advanceTo])]
  · exact seen_of_clocked hc (exec_cleatRetryWindowEnd_waits h) rfl
  · exact seen_of_clocked hc (exec_cleatEntryFree_due hs hr hm) rfl
  · exact seen_of_clocked hc (exec_cleatEntryFree_waits h) rfl
  · obtain ⟨t, ht, hd⟩ := seen_of_clocked hc (exec_activityFree_due he hn hr hm) rfl
    exact ⟨t, ht, hd, by rw [acts_congr hd.cleat, acts_freeActivity]; rfl⟩
  · exact seen_of_clocked hc (exec_activityFree_waits h) rfl
  · obtain ⟨t, ht, hd⟩ := seen_of_clocked hc (exec_cellRetireTimeout_due ho ha hn rfl) rfl
    exact ⟨t, _, ht, rfl, hd⟩
  · exact seen_of_clocked hc (exec_cellRetireTimeout_idle h) rfl
  · exact seen_of_clocked hc (exec_permConfirmTimeout_fired h) rfl
  · exact seen_of_clocked hc (exec_permBypassRetry_again h) rfl
  · exact seen_of_clocked hc (exec_permConfirmTimeout_other h) rfl
  · exact seen_of_clocked hc (exec_permBypassRetry_other h) rfl

end Sys2Proof.Machine
end

section
/-! SUPPORT. The commands of the loop engine and of the trajectory generators (R194 to R207, R367, R452). -/

namespace Sys2Proof.Machine

/-! ### What a packet's arrival and a reply leave -/

theorem role_arrived (s : State) (c : Cmd) : (arrived s c).dup.role = s.dup.role :=
  congrArg DupSt.role (dup_arrived s c)

theorem notStandby_arrived {s : State} (c : Cmd) (h : s.dup.role ≠ .standby) : (arrived s c).dup.role ≠ .standby :=
  (role_arrived s c).trans_ne h

theorem tick_arrived (s : State) (c : Cmd) : (arrived s c).tick = s.tick := (arrived_keeps s c).tick rfl

theorem slotOf_arrived (s : State) (c : Cmd) (n : Nat) : slotOf (arrived s c) n = slotOf s n := by
  unfold slotOf
  rw [(arrived_keeps s c).loops rfl]

theorem genOf_arrived (s : State) (c : Cmd) (n : Nat) : genOf (arrived s c) n = genOf s n := by
  unfold genOf
  rw [(arrived_keeps s c).loops rfl]

theorem anyDeb_arrived (s : State) (c : Cmd) : anyDeb (arrived s c) = anyDeb s := by
  unfold anyDeb
  rw [debMask_arrived]

/-- A reply leaves the loop slots and the generators as they are. -/
theorem Replied.loops {op status detail : Nat} {p : List Word} {c : Cmd} {u t : State}
    (h : Replied op status detail p c u t) : t.loops = u.loops := h.2.1.loops rfl

theorem Replied.slotOf {op status detail : Nat} {p : List Word} {c : Cmd} {u t : State}
    (h : Replied op status detail p c u t) (n : Nat) : slotOf t n = slotOf u n := by
  unfold Machine.slotOf
  rw [h.loops]

theorem Replied.genOf {op status detail : Nat} {p : List Word} {c : Cmd} {u t : State}
    (h : Replied op status detail p c u t) (n : Nat) : genOf t n = genOf u n := by
  unfold Machine.genOf
  rw [h.loops]

/-! ### `LOOP_MODE` (R194, R196) -/

theorem loopModeBody_noted {c : Cmd} {s : State}
    (h : ¬ (LoopMode.ofCode (pw c 0) = .start ∨ LoopMode.ofCode (pw c 0) = .test) ∨ anyDeb s = false) :
    loopModeBody c s = .ok 0 [] (updSlot s (tgt c) (fun x => { x with pend := some (LoopMode.ofCode (pw c 0)) })) := by
  have hc : ((LoopMode.ofCode (pw c 0) == .start || LoopMode.ofCode (pw c 0) == .test) && anyDeb s) = false := by
    rcases h with h | h
    · simpa using fun hm => absurd hm h
    · rw [h, Bool.and_false]
  simp only [loopModeBody, hc, errIf_false, Res.check_none, Res.done]

theorem loopModeBody_deblocked {c : Cmd} {s : State}
    (hm : LoopMode.ofCode (pw c 0) = .start ∨ LoopMode.ofCode (pw c 0) = .test) (hd : anyDeb s = true) :
    loopModeBody c s = .err ⟨St.state, 2, debMask s⟩ := by
  have hc : ((LoopMode.ofCode (pw c 0) == .start || LoopMode.ofCode (pw c 0) == .test) && anyDeb s) = true := by
    simp [hm, hd]
  simp only [loopModeBody, hc, errIf_true, Res.check_some]

/-! ### The homing that claims a generator (R367) -/

theorem genClaimed_arrived_none {s : State} (c : Cmd) {n : Nat} (h : (genOf s n).homing = none) :
    genClaimed (arrived s c) n = none := by
  simp only [genClaimed, genOf_arrived, h]

theorem genClaimed_arrived_some {s : State} (c : Cmd) {n axis : Nat} {o : LongOp}
    (h : (genOf s n).homing = some axis) (ho : opRun? s 0x60 axis = some o) :
    genClaimed (arrived s c) n = some (heldBy o.tag.toNat) := by
  simp only [genClaimed, genOf_arrived, h, opRun?_arrived, ho, busyErr, Option.map_some]

/-! ### `TRAJ_QUEUE` (R202, R205) -/

/-- The check of the limit in a payload word (R202). -/
def limitErr (c : Cmd) (i : Nat) : Option CmdErr :=
  errIf (pw c i == 0 || decide (2147483647 < pw c i)) St.range (0x8000 + i) (pw c i)

theorem limitErr_none {c : Cmd} {i : Nat} (h : 1 ≤ pw c i ∧ pw c i ≤ 2147483647) : limitErr c i = none :=
  if_neg (by simp; omega)

theorem limitErr_some {c : Cmd} {i : Nat} (h : pw c i = 0 ∨ 2147483647 < pw c i) :
    limitErr c i = some ⟨St.range, 0x8000 + i, pw c i⟩ :=
  if_pos (by simpa using h)

/-- The move a `TRAJ_QUEUE` packet carries (R202). -/
def moveOf (c : Cmd) : TrajMove := ⟨signedOf 32 (pw c 1), pw c 2, pw c 3, pw c 4⟩

theorem trajQueueBody_eq (c : Cmd) (s : State) :
    trajQueueBody c s = Res.check
      (firstErr [standbyErr s, limitErr c 2, limitErr c 3, limitErr c 4, genClaimed s (tgt c),
        errIf (!bit (pw c 0) 0 && decide (8 ≤ (genOf (syncGen s (tgt c)) (tgt c)).queue.length)) St.resource 2 8])
      (.ok 0 [] (if bit (pw c 0) 0 then genReplace s (tgt c) (moveOf c)
        else updGen (syncGen s (tgt c)) (tgt c) (fun g => { g with queue := g.queue ++ [moveOf c] }))) := rfl

theorem trajQueueBody_standby {s : State} (c : Cmd) (h : s.dup.role = .standby) :
    trajQueueBody c s = .err ⟨St.state, 5, 0⟩ := by
  rw [trajQueueBody_eq, standbyErr_some h, firstErr_some_cons, Res.check_some]

/-- The first limit out of its range is refused by its word. -/
theorem trajQueueBody_limit {c : Cmd} {s : State} {i : Nat} (hr : s.dup.role ≠ .standby) (h2 : 2 ≤ i) (h4 : i ≤ 4)
    (h : pw c i = 0 ∨ 2147483647 < pw c i) (hb : ∀ k, 2 ≤ k → k < i → 1 ≤ pw c k ∧ pw c k ≤ 2147483647) :
    trajQueueBody c s = .err ⟨St.range, 0x8000 + i, pw c i⟩ := by
  rw [trajQueueBody_eq, standbyErr_none hr, firstErr_none_cons]
  obtain rfl | rfl | rfl : i = 2 ∨ i = 3 ∨ i = 4 := by omega
  · rw [limitErr_some h, firstErr_some_cons, Res.check_some]
  · rw [limitErr_none (hb 2 (by decide) (by decide)), limitErr_some h, firstErr_none_cons, firstErr_some_cons,
      Res.check_some]
  · rw [limitErr_none (hb 2 (by decide) (by decide)), limitErr_none (hb 3 (by decide) (by decide)), limitErr_some h,
      firstErr_none_cons, firstErr_none_cons, firstErr_some_cons, Res.check_some]

/-- With its limits in range the homing and the queue's room decide. -/
theorem trajQueueBody_limitsIn {c : Cmd} {s : State} (hr : s.dup.role ≠ .standby)
    (h : ∀ i, 2 ≤ i → i ≤ 4 → 1 ≤ pw c i ∧ pw c i ≤ 2147483647) :
    trajQueueBody c s = Res.check
      (firstErr [genClaimed s (tgt c),
        errIf (!bit (pw c 0) 0 && decide (8 ≤ (genOf (syncGen s (tgt c)) (tgt c)).queue.length)) St.resource 2 8])
      (.ok 0 [] (if bit (pw c 0) 0 then genReplace s (tgt c) (moveOf c)
        else updGen (syncGen s (tgt c)) (tgt c) (fun g => { g with queue := g.queue ++ [moveOf c] }))) := by
  rw [trajQueueBody_eq, standbyErr_none hr, limitErr_none (h 2 (by decide) (by decide)),
    limitErr_none (h 3 (by decide) (by decide)), limitErr_none (h 4 (by decide) (by decide))]
  rfl

theorem trajQueueBody_claimed {c : Cmd} {s : State} {e : CmdErr} (hr : s.dup.role ≠ .standby)
    (h : ∀ i, 2 ≤ i → i ≤ 4 → 1 ≤ pw c i ∧ pw c i ≤ 2147483647) (hc : genClaimed s (tgt c) = some e) :
    trajQueueBody c s = .err e := by
  rw [trajQueueBody_limitsIn hr h, hc, firstErr_some_cons, Res.check_some]

theorem trajQueueBody_replace {c : Cmd} {s : State} (hr : s.dup.role ≠ .standby)
    (h : ∀ i, 2 ≤ i → i ≤ 4 → 1 ≤ pw c i ∧ pw c i ≤ 2147483647) (hc : genClaimed s (tgt c) = none)
    (hb : bit (pw c 0) 0 = true) : trajQueueBody c s = .ok 0 [] (genReplace s (tgt c) (moveOf c)) := by
  rw [trajQueueBody_limitsIn hr h, hc, hb]
  rfl

theorem trajQueueBody_append {c : Cmd} {s : State} (hr : s.dup.role ≠ .standby)
    (h : ∀ i, 2 ≤ i → i ≤ 4 → 1 ≤ pw c i ∧ pw c i ≤ 2147483647) (hc : genClaimed s (tgt c) = none)
    (hb : bit (pw c 0) 0 = false) (hq : (genOf (syncGen s (tgt c)) (tgt c)).queue.length < 8) :
    trajQueueBody c s = .ok 0 []
      (updGen (syncGen s (tgt c)) (tgt c) (fun g => { g with queue := g.queue ++ [moveOf c] })) := by
  rw [trajQueueBody_limitsIn hr h, hc, hb, decide_eq_false (Nat.not_le.mpr hq)]
  rfl

theorem trajQueueBody_full {c : Cmd} {s : State} (hr : s.dup.role ≠ .standby)
    (h : ∀ i, 2 ≤ i → i ≤ 4 → 1 ≤ pw c i ∧ pw c i ≤ 2147483647) (hc : genClaimed s (tgt c) = none)
    (hb : bit (pw c 0) 0 = false) (hq : 8 ≤ (genOf (syncGen s (tgt c)) (tgt c)).queue.length) :
    trajQueueBody c s = .err ⟨St.resource, 2, 8⟩ := by
  rw [trajQueueBody_limitsIn hr h, hc, hb, decide_eq_true hq]
  rfl

/-! ### `TRAJ_FLUSH` (R206) -/

theorem trajFlushBody_standby {s : State} (c : Cmd) (h : s.dup.role = .standby) :
    trajFlushBody c s = .err ⟨St.state, 5, 0⟩ := by
  rw [trajFlushBody, standbyErr_some h, firstErr_some_cons, Res.check_some]

theorem trajFlushBody_claimed {c : Cmd} {s : State} {e : CmdErr} (hr : s.dup.role ≠ .standby)
    (hc : genClaimed s (tgt c) = some e) : trajFlushBody c s = .err e := by
  rw [trajFlushBody, standbyErr_none hr, hc, firstErr_none_cons, firstErr_some_cons, Res.check_some]

theorem trajFlushBody_ok {c : Cmd} {s : State} (hr : s.dup.role ≠ .standby) (hc : genClaimed s (tgt c) = none) :
    trajFlushBody c s = .ok 0 [] (if bit (pw c 0) 0 then genStop s (tgt c) else genFlush s (tgt c)) := by
  rw [trajFlushBody, standbyErr_none hr, hc, firstErr_none_cons, firstErr_none_cons]
  rfl

theorem queue_genStop (s : State) (n : Nat) : (genOf (genStop s n) n).queue = [] := by
  unfold genStop
  dsimp only
  rw [genOf_updGen]
  split
  · rfl
  · split <;> rfl

theorem queue_genFlush (s : State) (n : Nat) : (genOf (genFlush s n) n).queue = [] := by
  unfold genFlush
  dsimp only
  rw [genOf_updGen]

/-! ### `TRAJ_PRESET` (R207) -/

theorem trajPresetErr_claimed {s : State} {n : Nat} {e : CmdErr} (hc : genClaimed s n = some e) :
    trajPresetErr s n = some e := by
  rw [trajPresetErr, hc, firstErr_some_cons]

theorem trajPresetErr_moving {s : State} {n : Nat} (hc : genClaimed s n = none)
    (hi : genIdle (genSync 10 (genOf s n) s.tick).1 = false) : trajPresetErr s n = some ⟨St.conflict, 3, n⟩ := by
  rw [trajPresetErr, hc, hi]
  rfl

/-- Every word fits a signed parameter of 32 bits. -/
theorem widthOk_signed32 {d : ParamDef} (w : Word) (hs : d.signed = true) (hw : d.width = 32) :
    widthOk d w = true := by
  unfold widthOk
  rw [hs, hw]
  have h1 := BitVec.le_toInt w
  have h2 := BitVec.toInt_lt (x := w)
  exact Bool.and_eq_true_iff.mpr ⟨decide_eq_true h1, decide_eq_true h2⟩

/-- The checks of R207 are the first that can refuse a preset: every word is in its range. -/
theorem setErr_trajPreset {s : State} {t : Nat} {w : Word} {e : CmdErr} (h : trajPresetErr s t = some e) :
    setErr s P.TRAJ_PRESET t w = some e := by
  have hd : paramDef? P.TRAJ_PRESET = some ⟨P.TRAJ_PRESET, false, 32, .wo, 4, 0, true, .full, false, 0⟩ := by decide
  have hs : specialErr s P.TRAJ_PRESET t w = some e := (show _ = trajPresetErr s t from rfl).trans h
  rw [setErr_value s t w hd (by decide) (.inr rfl), setErr.valueErr, rangeErr_in (widthOk_signed32 w rfl rfl) rfl, hs]
  rfl

theorem setWord_trajPreset (s : State) (t : Nat) (w : Word) :
    setWord s P.TRAJ_PRESET t w = trajPresetSet s t w.toInt := by
  have hd : paramDef? P.TRAJ_PRESET = some ⟨P.TRAJ_PRESET, false, 32, .wo, 4, 0, true, .full, false, 0⟩ := by decide
  simp only [setWord, hd, writeAct, if_true]

theorem trajPresetSet_notRun {s : State} (n : Nat) (x : Int) (h : s.pwr.state ≠ .run) : trajPresetSet s n x = s :=
  if_neg h

theorem getP_updGen (s : State) (n : Nat) (f : TrajGen → TrajGen) (id k : Nat) :
    getP (updGen s n f) id k = getP s id k := rfl

/-- In RUN the position reads the value written, velocity and acceleration read 0. -/
theorem getP_trajPresetSet {s : State} (n : Nat) (x : Int) (h : s.pwr.state = .run) :
    getP (trajPresetSet s n x) P.TRAJ_POS n = BitVec.ofInt 32 x ∧ getP (trajPresetSet s n x) P.TRAJ_VEL n = 0
      ∧ getP (trajPresetSet s n x) P.TRAJ_ACC n = 0 := by
  unfold trajPresetSet
  rw [if_pos h]
  dsimp only
  refine ⟨?_, ?_, ?_⟩
  · rw [getP_updGen, putI, getP_putP_ne _ _ _ _ _ _ (by decide), putI, getP_putP_ne _ _ _ _ _ _ (by decide), putI,
      getP_putP_same]
  · rw [getP_updGen, putI, getP_putP_ne _ _ _ _ _ _ (by decide), putI, getP_putP_same]
    rfl
  · rw [getP_updGen, putI, getP_putP_same]
    rfl

/-- Settles O36: each refusal is the first check that fails, read on the state the packet found, and without one the
slot, the generator or the preset is the one the body writes. -/
theorem loopsAndTrajectories : Obligations.LoopsAndTrajectories := by
  refine ⟨fun c s h => ⟨fun hm => ?_, fun hm hd => ?_⟩,
    fun c s h => ⟨fun hr => ?_, fun i hr h2 h4 hi hb => ?_,
      fun hr hl => ⟨fun n o hh ho => ?_, fun hh hb => ?_, fun hh hb hq => ?_, fun hh hb hq => ?_⟩⟩,
    fun c s h => ⟨fun hr => ?_, fun n o hr hh ho => ?_, fun hr hh => ?_⟩,
    fun c s h hp => ?_, fun c s h hp => ?_, fun c s h => ⟨fun n o hh ho => ?_, fun hh hi => ?_⟩⟩
  · obtain ⟨t, ht, hd⟩ := exec_ok h (loopModeBody_noted (by rwa [anyDeb_arrived]))
    exact ⟨t, ht, hd, by rw [hd.slotOf, slotOf_updSlot, slotOf_arrived]⟩
  · rw [← debMask_arrived s c]
    exact exec_err (e := ⟨St.state, 2, _⟩) h (loopModeBody_deblocked hm (by rwa [anyDeb_arrived]))
  · exact exec_err (e := ⟨St.state, 5, 0⟩) h (trajQueueBody_standby c ((role_arrived s c).trans hr))
  · exact exec_err (e := ⟨St.range, 0x8000 + i, pw c i⟩) h (trajQueueBody_limit (notStandby_arrived c hr) h2 h4 hi hb)
  · exact exec_err (e := heldBy _) h
      (trajQueueBody_claimed (notStandby_arrived c hr) hl (genClaimed_arrived_some c hh ho))
  · exact exec_ok h (trajQueueBody_replace (notStandby_arrived c hr) hl (genClaimed_arrived_none c hh) hb)
  · exact exec_ok h (trajQueueBody_append (notStandby_arrived c hr) hl (genClaimed_arrived_none c hh) hb hq)
  · exact exec_err (e := ⟨St.resource, 2, 8⟩) h
      (trajQueueBody_full (notStandby_arrived c hr) hl (genClaimed_arrived_none c hh) hb hq)
  · exact exec_err (e := ⟨St.state, 5, 0⟩) h (trajFlushBody_standby c ((role_arrived s c).trans hr))
  · exact exec_err (e := heldBy _) h
      (trajFlushBody_claimed (notStandby_arrived c hr) (genClaimed_arrived_some c hh ho))
  · obtain ⟨t, ht, hd⟩ := exec_ok h (trajFlushBody_ok (notStandby_arrived c hr) (genClaimed_arrived_none c hh))
    refine ⟨t, ht, hd, ?_⟩
    rw [hd.genOf]
    split
    · exact queue_genStop _ _
    · exact queue_genFlush _ _
  · obtain ⟨t, ht, hd⟩ := exec_rowDone (by decide) h
    rw [setWord_trajPreset] at hd
    obtain ⟨hpos, hvel, hacc⟩ := getP_trajPresetSet (tgt c) (c.payload.getD 0 0).toInt
      ((congrArg PwrSt.state ((rowFrom_keeps P.TRAJ_PRESET c s).pwr rfl)).trans hp)
    exact ⟨t, ht, hd, (hd.getP _ _ rfl).trans (hpos.trans BitVec.ofInt_toInt), (hd.getP _ _ rfl).trans hvel,
      (hd.getP _ _ rfl).trans hacc⟩
  · obtain ⟨t, ht, hd⟩ := exec_rowDone (by decide) h
    rw [setWord_trajPreset, trajPresetSet_notRun _ _ (by rwa [(rowFrom_keeps P.TRAJ_PRESET c s).pwr rfl])] at hd
    exact ⟨t, ht, hd⟩
  · exact exec_param_err (e := heldBy _) (by decide) h
      (setErr_trajPreset (trajPresetErr_claimed (genClaimed_arrived_some (paramCmd P.TRAJ_PRESET c) hh ho)))
  · exact exec_param_err (e := ⟨St.conflict, 3, tgt c⟩) (by decide) h
      (setErr_trajPreset (trajPresetErr_moving (genClaimed_arrived_none (paramCmd P.TRAJ_PRESET c) hh)
        (by rwa [rowFrom, genOf_arrived, tick_arrived])))

end Sys2Proof.Machine
end

section
/-! SUPPORT. Tasks on their strands (R215, R219, R222 to R226). -/

namespace Sys2Proof.Machine

/-! ### What a trace entry leaves as it was -/

/-- From `s` to `t` the tasks, the strands and the patch store are the same. -/
structure TasksKept (s t : State) : Prop where
  slots : t.str.slots = s.str.slots
  strands : t.str.strands = s.str.strands
  patch : t.str.patch = s.str.patch

theorem TasksKept.of_str {s t : State} (h : t.str = s.str) : TasksKept s t :=
  ⟨congrArg StrSt.slots h, congrArg StrSt.strands h, congrArg StrSt.patch h⟩

theorem TasksKept.refl (s : State) : TasksKept s s := .of_str rfl

theorem TasksKept.trans {r s t : State} (h : TasksKept r s) (k : TasksKept s t) : TasksKept r t :=
  ⟨k.slots.trans h.slots, k.strands.trans h.strands, k.patch.trans h.patch⟩

theorem TasksKept.ite {p : Prop} [Decidable p] {r s t : State} (h : TasksKept r s) (k : TasksKept r t) :
    TasksKept r (if p then s else t) := by
  split
  · exact h
  · exact k

theorem TasksKept.taskOf {s t : State} (h : TasksKept s t) (i : Nat) : taskOf t i = taskOf s i := by
  unfold Machine.taskOf
  rw [h.slots]

theorem TasksKept.strandOf {s t : State} (h : TasksKept s t) (n : Nat) : strandOf t n = strandOf s n := by
  unfold Machine.strandOf
  rw [h.strands]

theorem incP_tasksKept (s : State) (id t : Nat) : TasksKept s (incP s id t) := .of_str (incP_keeps s id t).str

theorem maxP_tasksKept (s : State) (id t n : Nat) : TasksKept s (maxP s id t n) := .of_str (maxP_keeps s id t n).str

theorem traceEvent_tasksKept (s : State) (code slot cls strand prio info : Nat) :
    TasksKept s (traceEvent s code slot cls strand prio info) := by
  unfold traceEvent
  dsimp only
  refine .ite (.refl s) (.trans (s := if 4 ≤ _ then incP s P.STR_TRACE_LOST 0 else s) ?_ ⟨rfl, rfl, rfl⟩)
  exact .ite (incP_tasksKept s _ _) (.refl s)

theorem traceLater_tasksKept (s : State) (code at_ slot cls strand prio info : Nat) :
    TasksKept s (traceLater s code at_ slot cls strand prio info) :=
  .ite (.refl s) (.ite (incP_tasksKept s _ _) ⟨rfl, rfl, rfl⟩)

theorem traceTask_tasksKept (s : State) (code slot : Nat) (t : Task) (strand : Nat) :
    TasksKept s (traceTask s code slot t strand) :=
  traceEvent_tasksKept ..

theorem gateDrop_tasksKept (s : State) (n : Nat) : TasksKept s (gateDrop s n) := ⟨rfl, rfl, rfl⟩

/-! ### Placement (R215, R222) -/

/-- The tick from which a strand runs a task placed on it (R215). -/
def placeTick (s : State) (n : Nat) : Nat := if strandGated s n then s.tick + 2 else s.tick

/-- The strand is made ready: UNGATE, or the GATE entry that waits is not written (R215). -/
def placeOpen (s : State) (n : Nat) : State :=
  if strandGated s n then traceEvent s 6 0 0 n 0 0 else gateDrop s n

/-- A task that runs on strand `n` from a tick on, with the limit in force (R215, R225). -/
def taskOn (s : State) (n at_ : Nat) (t : Task) : Task :=
  { t with st := .running, strand := n, startAt := at_, limit := getN s P.STR_TASK_LIMIT 0 }

/-- The task has its strand and the strand its task. -/
def placeSeat (s : State) (i n at_ : Nat) : State :=
  updStrand { updTask s i (taskOn s n at_) with freeCtr := s.freeCtr + sramWords } n
    (fun x => { x with slot := some i, sram := some s.freeCtr })

theorem placeOpen_keeps (s : State) (n : Nat) : Keeps [.str, .freeCtr] [P.STR_TRACE_LOST] s (placeOpen s n) :=
  .ite (traceEvent_keeps ..) ((gateDrop_keeps s n).mono (by decide))

theorem placeOpen_tasksKept (s : State) (n : Nat) : TasksKept s (placeOpen s n) :=
  .ite (traceEvent_tasksKept ..) (gateDrop_tasksKept s n)

/-- Beside counts and entries of the trace, placement seats the task on the strand made ready. -/
theorem placeOn_seats (s : State) (i n : Nat) :
    TasksKept (placeSeat (placeOpen s n) i n (placeTick s n)) (placeOn s i n) := by
  have htick : (placeOpen s n).tick = s.tick := (placeOpen_keeps s n).tick
  unfold placeTick
  rw [← htick]
  exact (maxP_tasksKept ..).trans (.ite (traceLater_tasksKept ..) (traceTask_tasksKept ..))

theorem taskOf_placeSeat (s : State) (i n at_ : Nat) :
    taskOf (placeSeat s i n at_) i = taskOn s n at_ (taskOf s i) :=
  taskOf_updTask s i _

theorem strandOf_placeSeat (s : State) (i n at_ : Nat) : (strandOf (placeSeat s i n at_) n).slot = some i := by
  rw [placeSeat, strandOf_updStrand]

theorem taskOf_placeOn (s : State) (i n : Nat) :
    taskOf (placeOn s i n) i = taskOn s n (placeTick s n) (taskOf s i) := by
  have hlim : getN (placeOpen s n) P.STR_TASK_LIMIT 0 = getN s P.STR_TASK_LIMIT 0 :=
    congrArg BitVec.toNat ((placeOpen_keeps s n).param P.STR_TASK_LIMIT 0)
  rw [(placeOn_seats s i n).taskOf i, taskOf_placeSeat, taskOn, hlim, (placeOpen_tasksKept s n).taskOf i]
  rfl

theorem strandOf_placeOn (s : State) (i n : Nat) : (strandOf (placeOn s i n) n).slot = some i := by
  rw [(placeOn_seats s i n).strandOf n, strandOf_placeSeat]

/-- A strand that has a task is not gated (R215). -/
theorem strandGated_of_slot {s : State} {n i : Nat} (h : (strandOf s n).slot = some i) : strandGated s n = false := by
  rw [strandGated, h]
  rfl

/-! ### Completion, deadline, watchdog and SRAM error (R219, R224 to R226) -/

theorem exec_taskComplete_seated {s : State} {n : Fin 8} {i : Nat} (h : (strandOf s n).slot = some i) :
    exec (.taskComplete n) s = whenClocked s (ends
      (if (advanceTo s (taskOf s i).startAt).per.running
            && deadlinePast (advanceTo s (taskOf s i).startAt) (taskOf s i).deadline
        then abandonTask (advanceTo s (taskOf s i).startAt) i
        else taskDone (advanceTo s (taskOf s i).startAt) n i (taskOf s i))) := by
  show whenClocked s (ends (taskCompleteAt s n)) = _
  simp only [taskCompleteAt, h]

theorem exec_taskComplete_empty {s : State} {n : Fin 8} (h : (strandOf s n).slot = none) :
    exec (.taskComplete n) s = whenClocked s (ends s) := by
  show whenClocked s (ends (taskCompleteAt s n)) = _
  simp only [taskCompleteAt, h]

theorem exec_taskDeadline_some {s : State} {i : Fin 256} {m : Nat} (h : (taskOf s i).deadline = some m) :
    exec (.taskDeadline i) s = whenClocked s (ends (atMark s m (fun s => abandonTask s i))) := by
  show execTaskDeadline i s = _
  simp only [execTaskDeadline, h]

theorem exec_taskDeadline_none {s : State} {i : Fin 256} (h : (taskOf s i).deadline = none) :
    exec (.taskDeadline i) s = whenClocked s (ends s) := by
  show execTaskDeadline i s = _
  simp only [execTaskDeadline, h]

theorem exec_taskWatchdog_seated {s : State} {n : Fin 8} {i : Nat} (h : (strandOf s n).slot = some i) :
    exec (.taskWatchdog n) s
      = whenClocked s (ends (stopTask (advanceTo s ((taskOf s i).startAt + (taskOf s i).limit + 1)) n 0)) := by
  show execTaskWatchdog n s = _
  simp only [execTaskWatchdog, h]

theorem exec_taskWatchdog_empty {s : State} {n : Fin 8} (h : (strandOf s n).slot = none) :
    exec (.taskWatchdog n) s = whenClocked s (ends s) := by
  show execTaskWatchdog n s = _
  simp only [execTaskWatchdog, h]

theorem exec_strandSramError_uncorrected (s : State) (n : Fin 8) :
    exec (.strandSramError n false) s = whenClocked s (ends (stopTask s n 1)) := rfl

theorem exec_strandSramError_corrected (s : State) (n : Fin 8) :
    exec (.strandSramError n true) s = whenClocked s (ends (incP s P.STR_SRAM_CORR n)) := rfl

/-- Without a task there is nothing to stop. -/
theorem stopTask_empty {s : State} {n : Nat} (info : Nat) (h : (strandOf s n).slot = none) : stopTask s n info = s := by
  simp only [stopTask, h]

/-- Settles O56: each row by whether the strand, or the slot's deadline, is there; a placed task by the seat that
placement gives it. -/
theorem strandTasks : Obligations.StrandTasks := by
  refine ⟨fun s hc => ?_, ?_, fun i s hc => ⟨fun m hm => ?_, fun hm => ?_⟩,
    fun n s hc => ⟨fun i hi => ⟨?_, ?_⟩, fun hn => ⟨?_, ?_, ?_⟩, ?_⟩, fun s i n => ?_⟩
  · exact seen_of_clocked hc rfl rfl
  · rintro n s i v x hc hi rfl rfl
    exact seen_of_clocked hc (exec_taskComplete_seated hi) rfl
  · exact seen_of_clocked hc (exec_taskDeadline_some hm) rfl
  · exact seen_of_clocked hc (exec_taskDeadline_none hm) rfl
  · exact seen_of_clocked hc (exec_taskWatchdog_seated hi) rfl
  · exact seen_of_clocked hc (exec_strandSramError_uncorrected s n) rfl
  · exact seen_of_clocked hc (exec_taskWatchdog_empty hn) rfl
  · exact seen_of_clocked hc (exec_strandSramError_uncorrected s n) (stopTask_empty 1 hn)
  · exact seen_of_clocked hc (exec_taskComplete_empty hn) rfl
  · exact seen_of_clocked hc (exec_strandSramError_corrected s n) rfl
  · have hslot := strandOf_placeOn s i n
    rw [taskOf_placeOn s i n]
    exact ⟨rfl, rfl, rfl, rfl, hslot, strandGated_of_slot hslot⟩

end Sys2Proof.Machine
end

section
/-! SUPPORT. The scheduling trace and patch images (R230 to R233). -/

namespace Sys2Proof.Machine

/-! ### `TRACE_READ` (R230) -/

theorem traceWords_arrived (s : State) (c : Cmd) (first n : Nat) :
    traceWords (arrived s c) first n = traceWords s first n := by
  unfold traceWords
  rw [(arrived_keeps s c).str]

theorem traceReadBody_first {c : Cmd} (s : State) (h : 4095 < pw c 0) :
    traceReadBody c s = .err ⟨St.range, 0x8000, pw c 0⟩ := by
  rw [traceReadBody, decide_eq_true h, errIf_true, firstErr_some_cons, Res.check_some]

/-- From an index of the buffer on the count decides. -/
theorem traceReadBody_within {c : Cmd} (s : State) (h : pw c 0 ≤ 4095) :
    traceReadBody c s = Res.check
      (errIf (!(decide (1 ≤ pw c 1) && decide (pw c 1 ≤ 508))) St.range 0x8001 (pw c 1))
      (.ok 0 (traceWords s (pw c 0) (pw c 1)) s) := by
  rw [traceReadBody, decide_eq_false (Nat.not_lt.mpr h), errIf_false, firstErr_none_cons, firstErr_singleton]

theorem traceReadBody_ok {c : Cmd} (s : State) (h : pw c 0 ≤ 4095) (h1 : 1 ≤ pw c 1) (h2 : pw c 1 ≤ 508) :
    traceReadBody c s = .ok 0 (traceWords s (pw c 0) (pw c 1)) s := by
  rw [traceReadBody_within s h, decide_eq_true h1, decide_eq_true h2]
  rfl

theorem traceReadBody_count {c : Cmd} (s : State) (h : pw c 0 ≤ 4095) (hn : pw c 1 = 0 ∨ 508 < pw c 1) :
    traceReadBody c s = .err ⟨St.range, 0x8001, pw c 1⟩ := by
  have hb : ¬ (1 ≤ pw c 1 ∧ pw c 1 ≤ 508) := by omega
  rw [traceReadBody_within s h, ← Bool.decide_and, decide_eq_false hb]
  rfl

/-! ### `STR_TRACE_CTRL` (R231) -/

theorem afterSet_traceCtrl (s : State) (t : Nat) (old : Word) :
    afterSet s P.STR_TRACE_CTRL t old = traceCtrl s old.toNat (getN s P.STR_TRACE_CTRL t) := by
  unfold afterSet
  rfl

/-- What follows the write works on the word before it and the word written. -/
theorem setWord_traceCtrl (s : State) (t : Nat) (w : Word) :
    setWord s P.STR_TRACE_CTRL t w
      = tallyTouch (traceCtrl (putP s P.STR_TRACE_CTRL t w) (getN s P.STR_TRACE_CTRL t) w.toNat) P.STR_TRACE_CTRL := by
  rw [setWord_rw s t w (by decide), afterSet_traceCtrl, getN, getP_putP_same]
  rfl

theorem traceCtrl_run {new : Nat} (s : State) (old : Nat) (h : bit new 0 = true) :
    traceCtrl s old new = { s with str := { s.str with traceFrz := false } } :=
  if_pos h

theorem traceCtrl_stop {old new : Nat} (s : State) (hn : bit new 0 = false) (ho : bit old 0 = true) :
    traceCtrl s old new = putN (traceFreeze (putN s P.STR_TRACE_CTRL 0 old)) P.STR_TRACE_CTRL 0 new := by
  rw [traceCtrl, hn, ho]
  rfl

theorem traceCtrl_stopped {old new : Nat} (s : State) (hn : bit new 0 = false) (ho : bit old 0 = false) :
    traceCtrl s old new = s := by
  rw [traceCtrl, hn, ho]
  rfl

theorem traceFreeze_recording {s : State} (h : s.str.traceFrz = false) :
    traceFreeze s = { traceEvent s 10 0 0 0 0 0 with
      str := { (traceEvent s 10 0 0 0 0 0).str with traceFrz := true } } := by
  rw [traceFreeze, h]
  rfl

theorem traceFreeze_frozen {s : State} (h : s.str.traceFrz = true) : traceFreeze s = s := if_pos h

/-! ### The patch store (R232, R233) -/

theorem readyTask_patch (s : State) (i : Nat) : (readyTask s i).str.patch = s.str.patch :=
  ((traceTask_tasksKept ..).trans (maxP_tasksKept ..)).patch

theorem seatTask_patch (s : State) (i : Nat) (t : Task) : (seatTask s i t).str.patch = s.str.patch := by
  have hseat := (maxP_tasksKept (updTask s i fun _ => { t with st := .waiting }) P.STR_SLOTS_HIGH 0
    (slotsUsed (updTask s i fun _ => { t with st := .waiting }))).patch
  unfold seatTask
  dsimp only
  split
  · exact (readyTask_patch _ _).trans hseat
  · exact hseat

theorem createTask_patch (s : State) (t : Task) : (createTask s t).str.patch = s.str.patch := by
  unfold createTask createSlot
  split
  · exact seatTask_patch ..
  · rfl

theorem tallyStale_patch (s : State) : (tallyStale s).str.patch = s.str.patch := by
  unfold tallyStale
  dsimp only
  split
  · rfl
  · exact createTask_patch ..

theorem patchStore_patch (s : State) (off : Nat) (ws : List Word) :
    (patchStore s off ws).str.patch = tabRun 0 s.str.patch off ws := by
  unfold patchStore
  dsimp only
  split
  · exact tallyStale_patch _
  · rfl

/-! ### `FW_PATCH` and its end (R232, R233) -/

theorem fwPatchBody_busy {c : Cmd} {s : State} {o : LongOp} (h : opAny? s 0xE0 = some o) :
    fwPatchBody c s = .err (heldBy o.tag.toNat) := by
  unfold fwPatchBody
  rw [h]
  rfl

/-- While no image is checked the end of the segment decides. -/
theorem fwPatchBody_free {c : Cmd} {s : State} (h : opAny? s 0xE0 = none) :
    fwPatchBody c s = Res.check (errIf (decide (8192 < pw c 0 + (c.payload.drop 1).length)) St.range 0x8000 (pw c 0))
      (if patchLast (patchStore s (pw c 0) (c.payload.drop 1)) (pw c 0) (c.payload.drop 1).length
        then .accepted (startOp (patchStore s (pw c 0) (c.payload.drop 1)) 0xE0 0 c []) id
        else .done (patchStore s (pw c 0) (c.payload.drop 1))) := by
  unfold fwPatchBody
  rw [h]
  exact congrArg (Res.check · _) (firstErr_singleton _)

theorem fwPatchBody_beyond {c : Cmd} {s : State} (h : opAny? s 0xE0 = none)
    (hl : 8192 < pw c 0 + (c.payload.drop 1).length) : fwPatchBody c s = .err ⟨St.range, 0x8000, pw c 0⟩ := by
  rw [fwPatchBody_free h, decide_eq_true hl, errIf_true, Res.check_some]

theorem fwPatchBody_stored {c : Cmd} {s : State} (h : opAny? s 0xE0 = none)
    (hl : pw c 0 + (c.payload.drop 1).length ≤ 8192) :
    fwPatchBody c s = if patchLast (patchStore s (pw c 0) (c.payload.drop 1)) (pw c 0) (c.payload.drop 1).length
      then .accepted (startOp (patchStore s (pw c 0) (c.payload.drop 1)) 0xE0 0 c []) id
      else .done (patchStore s (pw c 0) (c.payload.drop 1)) := by
  rw [fwPatchBody_free h, decide_eq_false (Nat.not_lt.mpr hl), errIf_false, Res.check_none]

/-- The operation that a long command starts is among those that run, with the tick in which it came. -/
theorem Accepted.started_mem {op key : Nat} {c : Cmd} {u t : State} {args : List Nat} {f : State → State}
    (h : Accepted op c (startOp u op key c args) f t) (hf : ∀ v, (f v).ops = v.ops) :
    opOf op key c args u.tick ∈ t.ops := by
  rw [h.ops hf]
  exact List.mem_append_right _ List.mem_cons_self

theorem exec_fwPatchDone_running {s : State} {o : LongOp} (h : opAny? s 0xE0 = some o) :
    exec .fwPatchDone s = whenClocked s (ends (patchEnd s o)) := by
  show execFwPatchDone s = _
  simp only [execFwPatchDone, h]

theorem exec_fwPatchDone_none {s : State} (h : opAny? s 0xE0 = none) :
    exec .fwPatchDone s = whenClocked s (ends s) := by
  show execFwPatchDone s = _
  simp only [execFwPatchDone, h]

theorem patchEnd_active {s : State} (o : LongOp)
    (h : patchErr { s with str := { s.str with patchLoad := false } } = none) :
    patchEnd s o = completeOk (tallyStale (putP (putN { s with str := { s.str with patchLoad := false } }
      P.STR_PATCH_STATE 0 2) P.STR_PATCH_LEVEL 0 (tabGet 0 s.str.patch 2))) o [] := by
  simp only [patchEnd, h]

theorem patchEnd_failed {s : State} {e : CmdErr} (o : LongOp)
    (h : patchErr { s with str := { s.str with patchLoad := false } } = some e) :
    patchEnd s o
      = completeErr (putN { s with str := { s.str with patchLoad := false } } P.STR_PATCH_STATE 0 3) o e := by
  simp only [patchEnd, h]

/-- Settles O57: the reads and the segments by the first check that fails, the trace's control by its bit RUN, the end
of a load by the check of its image. -/
theorem traceAndPatch : Obligations.TraceAndPatch := by
  refine ⟨fun c s h h0 h1 h2 => ?_, fun c s h => ⟨fun h0 => ?_, fun h0 hn => ?_⟩, ?_,
    fun s old new hn => traceCtrl_run s old hn,
    fun s old new hn => ⟨traceCtrl_stop s hn, traceCtrl_stopped s hn⟩,
    fun s => ⟨traceFreeze_recording, traceFreeze_frozen⟩, ?_, fun s off ws k hk => ?_, fun s hc => ⟨?_, fun ho => ?_⟩⟩
  · have hb := traceReadBody_ok (arrived s c) h0 h1 h2
    rw [traceWords_arrived] at hb
    exact exec_ok h hb
  · exact exec_err (e := ⟨St.range, 0x8000, pw c 0⟩) h (traceReadBody_first _ h0)
  · exact exec_err (e := ⟨St.range, 0x8001, pw c 1⟩) h (traceReadBody_count _ h0 hn)
  · rintro c s w v h rfl rfl
    obtain ⟨t, ht, hd⟩ := exec_rowDone (by decide) h
    exact ⟨t, _, ht, hd, setWord_traceCtrl _ _ _⟩
  · rintro c s ws u h rfl rfl
    refine ⟨fun ho hl hp => ?_, fun ho hl hp => ?_, fun ho hl => ?_, fun o ho => ?_⟩ <;>
      rw [← opAny?_arrived s c] at ho
    · obtain ⟨t, ht, hacc⟩ := exec_started h ((fwPatchBody_stored ho hl).trans (if_pos hp))
      have htick : (patchStore (arrived s c) (pw c 0) (c.payload.drop 1)).tick = s.tick :=
        (patchStore_keeps _ _ _).tick.trans (tick_arrived s c)
      have hmem := hacc.started_mem fun _ => rfl
      rw [htick] at hmem
      exact ⟨t, ht, hacc, hmem⟩
    · refine exec_ok (d := 0) (p := []) h ((fwPatchBody_stored ho hl).trans (if_neg ?_))
      rw [hp]
      exact Bool.false_ne_true
    · exact exec_err (e := ⟨St.range, 0x8000, pw c 0⟩) h (fwPatchBody_beyond ho hl)
    · exact exec_err (e := heldBy o.tag.toNat) h (fwPatchBody_busy ho)
  · rw [patchStore_patch, tabGet_tabRun, if_pos (by omega), Nat.add_sub_cancel_left]
  · rintro o u ho rfl
    exact ⟨fun he => seen_of_clocked hc (exec_fwPatchDone_running ho) (patchEnd_active o he),
      fun e he => seen_of_clocked hc (exec_fwPatchDone_running ho) (patchEnd_failed o he)⟩
  · exact seen_of_clocked hc (exec_fwPatchDone_none ho) rfl

end Sys2Proof.Machine
end

section
/-! SUPPORT. `LANE_BRINGUP`, `LANE_RETIRE`, `LANE_LOOP` and `EYE_SCAN` (R244, R249, R252 to R256). -/

namespace Sys2Proof.Machine

/-! ### What the checks read of a state whose packet has arrived -/

theorem laneOf_arrived (s : State) (c : Cmd) (l : Nat) : laneOf (arrived s c) l = laneOf s l := by
  unfold laneOf
  rw [(arrived_keeps s c).lanes]

theorem laneOffErr_arrived (s : State) (c : Cmd) (l : Nat) : laneOffErr (arrived s c) l = laneOffErr s l := by
  unfold laneOffErr laneOn
  rw [(arrived_keeps s c).pwr]

theorem laneOn_arrived (s : State) (c : Cmd) (l : Nat) : laneOn (arrived s c) l = laneOn s l := by
  unfold laneOn
  rw [(arrived_keeps s c).pwr]

theorem laneHeld_arrived (s : State) (c : Cmd) (l : Nat) : laneHeld (arrived s c) l = laneHeld s l := by
  unfold laneHeld
  rw [(arrived_keeps s c).ops]

theorem autoHeld_arrived (s : State) (c : Cmd) (l : Nat) : autoHeld (arrived s c) l = autoHeld s l := by
  unfold autoHeld
  rw [laneOf_arrived]

theorem activePos_arrived (s : State) (c : Cmd) (a x : Nat) : activePos (arrived s c) a x = activePos s a x := by
  unfold activePos
  rw [armOf_arrived]

theorem loopAdmitted_arrived (s : State) (c : Cmd) (l : Nat) : loopAdmitted (arrived s c) l = loopAdmitted s l := by
  unfold loopAdmitted getN
  simp only [cellOf_arrived, getP_arrived, activePos_arrived]

/-- A reply leaves every lane as it is. -/
theorem Replied.laneOf {op status detail : Nat} {p : List Word} {c : Cmd} {u t : State}
    (h : Replied op status detail p c u t) (l : Nat) : Machine.laneOf t l = Machine.laneOf u l := by
  unfold Machine.laneOf
  rw [h.2.1.lanes]

/-! ### The checks of a packet (R44) -/

/-- Every check of a list that passes passes. -/
theorem eq_none_of_firstErr {l : List (Option CmdErr)} (h : firstErr l = none) : ∀ e ∈ l, e = none := by
  induction l with
  | nil => simp
  | cons e l ih =>
    cases e with
    | some x => exact absurd h (by simp)
    | none => exact List.forall_mem_cons.mpr ⟨rfl, ih h⟩

/-- The payload of an admitted command is as long as its row asks (R44). -/
theorem Admitted.lenLo_le {sp : CmdSpec} {own : Option CmdErr} {c : Cmd} {s : State} (h : Admitted sp own c s) :
    sp.lenLo ≤ c.payload.length := by
  have hl : lengthErr sp c = none := eq_none_of_firstErr h.2.2 _ (by simp)
  have he := eq_none_of_firstErr hl (errIf (decide (c.payload.length < sp.lenLo)) St.param 0xFFFF sp.lenLo) (by simp)
  by_contra hn
  rw [decide_eq_true (Nat.not_le.mp hn)] at he
  exact absurd he (by simp)

/-! ### `LANE_BRINGUP` (R244) -/

theorem laneOffErr_none {s : State} {l : Nat} (h : laneOn s l = true) : laneOffErr s l = none := by
  rw [laneOffErr, h, Bool.not_true, errIf_false]

theorem laneBringupBody_ok {c : Cmd} {s : State} (hon : laneOn s (tgt c) = true) (hh : laneHeld s (tgt c) = none) :
    laneBringupBody c s = .accepted (startOp s 0x20 (tgt c) c []) (fun s =>
      startBringup (updLane (closeRetry s (tgt c)) (tgt c) (fun x => { x with retireReq := false })) (tgt c) false) := by
  unfold laneBringupBody
  dsimp only
  rw [laneOffErr_none hon, hh]
  rfl

theorem laneBringupBody_err {c : Cmd} {s : State} {e : CmdErr}
    (h : firstErr [laneOffErr s (tgt c), laneHeld s (tgt c)] = some e) : laneBringupBody c s = .err e :=
  congrArg (Res.check · _) h

/-! ### `LANE_RETIRE` (R249) -/

theorem laneRetireBody_retired {c : Cmd} {s : State} (h : (laneOf s (tgt c)).st = .retired) :
    laneRetireBody c s = .ok 0 [] s := if_pos h

/-- Of a lane that is not RETIRED the three checks decide. -/
theorem laneRetireBody_eq {c : Cmd} {s : State} (h : (laneOf s (tgt c)).st ≠ .retired) :
    laneRetireBody c s = Res.check
      (firstErr [laneHeld s (tgt c), autoHeld s (tgt c),
        (retireLedger s (tgt c)).map (fun a => (⟨St.conflict, 2, a⟩ : CmdErr))])
      (.ok 0 [] (updLane s (tgt c) (fun x => { x with retireReq := true }))) := if_neg h

/-- Of a lane that nothing holds, as the packet found it, the ledger decides. -/
theorem laneRetireBody_arrived {c : Cmd} {s : State} (h : (laneOf s (tgt c)).st ≠ .retired)
    (hh : laneHeld s (tgt c) = none) (ha : autoHeld s (tgt c) = none) :
    laneRetireBody c (arrived s c)
      = Res.check ((retireLedger (arrived s c) (tgt c)).map (fun a => (⟨St.conflict, 2, a⟩ : CmdErr)))
          (.ok 0 [] (updLane (arrived s c) (tgt c) (fun x => { x with retireReq := true }))) := by
  rw [laneRetireBody_eq (by rwa [laneOf_arrived]), laneHeld_arrived, autoHeld_arrived, hh, ha, firstErr_none_cons,
    firstErr_none_cons, firstErr_singleton]

/-! ### `LANE_LOOP` (R252 to R254) -/

/-- The checks of a loop's start, in their order. -/
def loopStartErr (s : State) (l ms : Nat) : Option CmdErr :=
  firstErr [ loopMsErr ms, laneOffErr s l, laneHeld s l, autoHeld s l,
    errIf ((laneOf s l).st == .retired || (decide (64 ≤ l) && (laneOf s l).st == .active)) St.state 6 l,
    errIf (decide (l < 64) && !loopAdmitted s l) St.state 0xB l ]

theorem loopStartErr_arrived (s : State) (c : Cmd) (l ms : Nat) :
    loopStartErr (arrived s c) l ms = loopStartErr s l ms := by
  unfold loopStartErr
  rw [laneOffErr_arrived, laneHeld_arrived, autoHeld_arrived, laneOf_arrived, loopAdmitted_arrived]

/-- What follows an accepted loop in its tick. -/
def loopStart (l mode ms : Nat) (s : State) : State :=
  updLane (closeRetry (laneTo s l .loop) l) l (fun x => { x with
    retireReq := false, awaiting := false, auto := false, pass2 := false
    loopRun := some (newLoop (closeRetry (laneTo s l .loop) l) l mode ms) })

/-- In modes 1 to 3 a loop starts once its checks pass. -/
theorem laneLoopBody_start {c : Cmd} (s : State) (h : pw c 0 ≠ 0) :
    laneLoopBody c s = Res.check (loopStartErr s (tgt c) (pw c 1))
      (.accepted (startOp s 0x22 (tgt c) c []) (loopStart (tgt c) (pw c 0) (pw c 1))) := if_neg h

/-- In mode 0 the running loop ends. -/
theorem laneLoopBody_end {c : Cmd} (s : State) (h : pw c 0 = 0) :
    laneLoopBody c s = Res.check (loopMsErr (pw c 1)) (loopEndNow s (tgt c)) := if_pos h

theorem loopMsErr_out {ms : Nat} (h : ms < 1 ∨ 60000 < ms) : loopMsErr ms = some ⟨St.range, 0x8001, ms⟩ := by
  rw [loopMsErr, ← Bool.decide_or, decide_eq_true h, errIf_true]

theorem loopMsErr_in {ms : Nat} (h1 : 1 ≤ ms) (h2 : ms ≤ 60000) : loopMsErr ms = none := by
  rw [loopMsErr, ← Bool.decide_or, decide_eq_false (by omega), errIf_false]

/-- With the domain on and the lane free its state decides, then the exclusion of its cells. -/
theorem loopStartErr_free {s : State} {l ms : Nat} (h1 : 1 ≤ ms) (h2 : ms ≤ 60000) (hon : laneOn s l = true)
    (hh : laneHeld s l = none) (ha : autoHeld s l = none) :
    loopStartErr s l ms = firstErr [
      errIf ((laneOf s l).st == .retired || (decide (64 ≤ l) && (laneOf s l).st == .active)) St.state 6 l,
      errIf (decide (l < 64) && !loopAdmitted s l) St.state 0xB l ] := by
  rw [loopStartErr, loopMsErr_in h1 h2, laneOffErr_none hon, hh, ha]
  simp only [firstErr_none_cons]

/-- A peer lane that is not ACTIVE, or a cell lane whose cells are excluded. -/
theorem loopStartErr_none {s : State} {l ms : Nat} (h1 : 1 ≤ ms) (h2 : ms ≤ 60000) (hon : laneOn s l = true)
    (hh : laneHeld s l = none) (ha : autoHeld s l = none) (hr : (laneOf s l).st ≠ .retired)
    (hs : (64 ≤ l ∧ (laneOf s l).st ≠ .active) ∨ (l < 64 ∧ loopAdmitted s l = true)) :
    loopStartErr s l ms = none := by
  rw [loopStartErr_free h1 h2 hon hh ha, beq_false_of_ne hr, Bool.false_or]
  rcases hs with ⟨hl, hs⟩ | ⟨hl, hs⟩
  · rw [beq_false_of_ne hs, Bool.and_false, errIf_false, decide_eq_false (Nat.not_lt.mpr hl), Bool.false_and,
      errIf_false]
    rfl
  · rw [decide_eq_false (Nat.not_le.mpr hl), Bool.false_and, errIf_false, hs, Bool.not_true, Bool.and_false,
      errIf_false]
    rfl

theorem loopStartErr_retired {s : State} {l ms : Nat} (h1 : 1 ≤ ms) (h2 : ms ≤ 60000) (hon : laneOn s l = true)
    (hh : laneHeld s l = none) (ha : autoHeld s l = none) (hr : (laneOf s l).st = .retired) :
    loopStartErr s l ms = some ⟨St.state, 6, l⟩ := by
  rw [loopStartErr_free h1 h2 hon hh ha, hr]
  rfl

/-- A packet whose mode is 0 stands as it is for its end of a loop. -/
theorem modeZero_eq {c : Cmd} (hl : 2 ≤ c.payload.length) (h : pw c 0 = 0) :
    { c with payload := 0 :: c.payload.drop 1 } = c := by
  obtain ⟨w, ws, hw⟩ := List.exists_cons_of_length_pos (Nat.lt_of_lt_of_le Nat.two_pos hl)
  have h0 : w = 0 := BitVec.eq_of_toNat_eq (by rwa [pw, hw] at h)
  rw [hw, h0, List.drop_one, List.tail_cons, ← h0, ← hw]

theorem loopEndNow_running {s : State} {l : Nat} (h : (laneOf s l).st = .loop) :
    loopEndNow s l = .ok 0 [] (updLane s l (fun x => { x with
      st := .down, loopRun := x.loopRun.map (fun r => { r with due := s.tick }) })) := if_pos h

theorem loopEndNow_none {s : State} {l : Nat} (h : (laneOf s l).st ≠ .loop) :
    loopEndNow s l = .err ⟨St.state, 8, l⟩ := if_neg h

/-- The row takes its packet with mode 0. -/
theorem exec_laneLoopEndMode0 {c c' : Cmd} {s : State} (hc : c' = { c with payload := 0 :: c.payload.drop 1 }) :
    exec (.laneLoopEndMode0 c) s = ends (runCmd spLaneLoop none laneLoopBody c' s) := by
  rw [hc]
  rfl

/-! ### `EYE_SCAN` (R255) -/

theorem eyeScanBody_err {c : Cmd} {s : State} {e : CmdErr}
    (h : firstErr [ errIf (decide (pw c 0 < 12) || decide (36 < pw c 0)) St.range 0x8000 (pw c 0),
      busyErr (opAny? s 0x23), errIf ((laneOf s (tgt c)).st != .active) St.state 6 (tgt c) ] = some e) :
    eyeScanBody c s = .err e := congrArg (Res.check · _) h

theorem eyeScanBody_ok {c : Cmd} {s : State} (h1 : 12 ≤ pw c 0) (h2 : pw c 0 ≤ 36) (ho : opAny? s 0x23 = none)
    (ha : (laneOf s (tgt c)).st = .active) :
    eyeScanBody c s = .accepted (startOp s 0x23 (tgt c) c [pw c 0, (laneOf s (tgt c)).gen]) (fun s =>
      putTable s 0x0300 0 (eyeWords (tgt c) (laneOf s (tgt c)).gen (pw c 0) false [])) := by
  unfold eyeScanBody
  dsimp only
  rw [← Bool.decide_or, decide_eq_false (by omega), ho, ha]
  rfl

/-- Settles O30: each refusal is the first check that fails on the state the packet found, and without one the command
does what its body says. -/
theorem laneCommands : Obligations.LaneCommands := by
  refine ⟨fun c s h hon hh => ?_, ?_, ?_, ?_, ?_, fun c s h0 h => ?_, ?_, fun c s h hr => ?_,
    fun c s h hr hh ha => ⟨fun hl => ?_, fun a hl => ?_⟩, fun c s h h0 h1 h2 hon hh ha hr hs => ?_,
    fun c s h h0 h1 h2 hon hh ha hr => ?_, fun s l mode ms => rfl, ?_, fun c s h h1 h2 ho ha => ?_⟩
  · exact exec_started h (laneBringupBody_ok (by rwa [laneOn_arrived]) (by rwa [laneHeld_arrived]))
  · rintro c s e v h rfl he
    exact exec_err h (laneBringupBody_err he)
  · rintro c s e v h rfl hr he
    refine exec_err h ((laneRetireBody_eq (by rwa [laneOf_arrived])).trans ?_)
    rw [he, Res.check_some]
  · rintro c s e v h rfl h0 he
    exact exec_err h ((laneLoopBody_start _ h0).trans (congrArg (Res.check · _) he))
  · intro c c' s hc h hms
    have hb := laneLoopBody_end (c := c') (arrived s c') (by rw [hc]; rfl)
    rw [loopMsErr_out hms, Res.check_some] at hb
    exact exec_laneLoopEndMode0 hc ▸ exec_err h hb
  · exact congrArg (fun c => ends (runCmd spLaneLoop none laneLoopBody c s)) (modeZero_eq h.lenLo_le h0).symm
  · rintro c s e v h rfl he
    exact exec_err h (eyeScanBody_err he)
  · exact exec_ok h (laneRetireBody_retired (by rwa [laneOf_arrived]))
  · have hb := laneRetireBody_arrived hr hh ha
    rw [hl, Option.map_none, Res.check_none] at hb
    obtain ⟨t, ht, hrep⟩ := exec_ok h hb
    refine ⟨t, ht, hrep, ?_⟩
    rw [hrep.laneOf, laneOf_updLane, laneOf_arrived]
  · have hb := laneRetireBody_arrived hr hh ha
    rw [hl, Option.map_some, Res.check_some] at hb
    exact exec_err h hb
  · refine exec_started h (f := loopStart (tgt c) (pw c 0) (pw c 1)) ((laneLoopBody_start _ h0).trans ?_)
    rw [loopStartErr_arrived, loopStartErr_none h1 h2 hon hh ha hr hs, Res.check_none]
  · refine exec_err (e := ⟨St.state, 6, tgt c⟩) h ((laneLoopBody_start _ h0).trans ?_)
    rw [loopStartErr_arrived, loopStartErr_retired h1 h2 hon hh ha hr, Res.check_some]
  · intro c c' s hc h h1 h2
    have hb := laneLoopBody_end (c := c') (arrived s c') (by rw [hc]; rfl)
    rw [loopMsErr_in h1 h2, Res.check_none] at hb
    have htgt : tgt c' = tgt c := by rw [hc]; rfl
    rw [htgt] at hb
    rw [exec_laneLoopEndMode0 hc]
    refine ⟨fun hl => ?_, fun hl => ?_⟩
    · rw [loopEndNow_running (by rwa [laneOf_arrived]), tick_arrived] at hb
      obtain ⟨t, ht, hrep⟩ := exec_ok h hb
      refine ⟨t, ht, hrep, ?_⟩
      rw [hrep.laneOf, laneOf_updLane]
    · rw [loopEndNow_none (by rwa [laneOf_arrived])] at hb
      exact exec_err h hb
  · have hb := eyeScanBody_ok (s := arrived s c) h1 h2 (by rwa [opAny?_arrived]) (by rwa [laneOf_arrived])
    rw [laneOf_arrived] at hb
    obtain ⟨t, ht, hacc⟩ := exec_started h hb
    exact ⟨t, ht, hacc, hacc.opOf_mem fun _ => (putTable_keeps _ _ _ _).ops⟩

end Sys2Proof.Machine
end

section
/-! SUPPORT. The stages of a lane's bring-up, its time limits and retries (R238 to R243, R247, R253). -/

namespace Sys2Proof.Machine

/-! ### The stages (R240 to R243, R253) -/

section
variable {s : State} {l : Fin 66} {rx : Rx}

theorem exec_detectDone_aligned (hd : (stageOf (laneOf s l)).1 = .detect) (ha : alignedAt (laneOf s l) rx = true) :
    exec (.detectDone l rx) s = whenClocked s (ends (toStage s l .train false)) :=
  congrArg (whenClocked s <| ends ·) (if_pos (by rw [hd, ha]; rfl))

theorem exec_detectDone_idle (h : (stageOf (laneOf s l)).1 ≠ .detect ∨ alignedAt (laneOf s l) rx = false) :
    exec (.detectDone l rx) s = whenClocked s (ends s) :=
  congrArg (whenClocked s <| ends ·) (if_neg (by rcases h with h | h <;> simp [h]))

theorem exec_trainDone_trained {clean : Nat} (eq : BitVec 4) (ht : (stageOf (laneOf s l)).1 = .train)
    (hc : 65536 ≤ clean) :
    exec (.trainDone l eq clean) s = whenClocked s (ends (toStage (putN s P.LANE_EQ_RESULT l
      (if bit (getN s P.LANE_RX_EQ l) 7 then eq.toNat else getN s P.LANE_RX_EQ l % 16)) l .lock
      (stageOf (laneOf s l)).2)) :=
  congrArg (whenClocked s) (if_pos (by rw [ht, decide_eq_true hc]; rfl))

theorem exec_trainDone_idle {clean : Nat} (eq : BitVec 4)
    (h : (stageOf (laneOf s l)).1 ≠ .train ∨ clean < 65536) :
    exec (.trainDone l eq clean) s = whenClocked s (ends s) :=
  congrArg (whenClocked s) (if_neg (by rcases h with h | h <;> simp [h]))

theorem exec_lockDone_aligned (hl : (stageOf (laneOf s l)).1 = .lock) (hw : (laneOf s l).awaiting = false)
    (ha : alignedAt (laneOf s l) rx = true) :
    exec (.lockDone l rx) s = whenClocked s (ends (if (stageOf (laneOf s l)).2 = false then toStage s l .caps false
      else if (laneOf s l).st = .loop then loopStage s l .loop false
      else updLane s l (fun x => { x with awaiting := true }))) := by
  refine congrArg (whenClocked s) ((if_pos (by rw [hl, hw, ha]; rfl)).trans ?_)
  cases (stageOf (laneOf s l)).2 <;> rfl

theorem exec_lockDone_idle
    (h : (stageOf (laneOf s l)).1 ≠ .lock ∨ (laneOf s l).awaiting = true ∨ alignedAt (laneOf s l) rx = false) :
    exec (.lockDone l rx) s = whenClocked s (ends s) :=
  congrArg (whenClocked s) (if_neg (by rcases h with h | h | h <;> simp [h]))

end

/-! ### CAPS (R242, R253) -/

/-- A lane outside LOOP is in the stage of its state. -/
theorem stageOf_fst {x : Lane} (h : x.st ≠ .loop) : (stageOf x).1 = x.st := by
  unfold stageOf
  split
  · next hl _ => exact absurd hl h
  · rfl

/-- The present ports that a capability record gives: a peer lane has none. -/
def capsMask (l : Nat) (m : BitVec 48) : Nat := if l < 64 then m.toNat else 0

/-- The lowest generation of the cells on a record's present ports; 0 where there is none. -/
def capsLow (l : Nat) (m : BitVec 48) (gs : List (BitVec 2)) : Nat :=
  if l < 64 && m != 0 then minNat 0 ((gs.map (fun g => g.toNat)).filter (fun g => g != 0)) else 0

section
variable {s : State} {l : Fin 66} (hg : BitVec 2) (m : BitVec 48) (gs : List (BitVec 2)) (ok : Bool) (p : BitVec 2)

theorem exec_capsDone_loop (h : (laneOf s l).st = .loop) (hc : (stageOf (laneOf s l)).1 = .caps) :
    exec (.capsDone l hg m gs ok p) s
      = whenClocked s (ends (loopCaps s l hg.toNat (capsMask l m) (capsLow l m gs) ok)) :=
  congrArg (whenClocked s) (if_pos (by rw [h, hc]; rfl))

theorem exec_capsDone_caps (h : (laneOf s l).st = .caps) (hw : (laneOf s l).awaiting = false) :
    exec (.capsDone l hg m gs ok p) s
      = whenClocked s (ends (capsDone s l hg.toNat (capsMask l m) (capsLow l m gs) ok p.toNat)) :=
  congrArg (whenClocked s) ((if_neg (by simp [h])).trans (if_pos (by rw [h, hw]; rfl)))

theorem exec_capsDone_idle
    (h : (stageOf (laneOf s l)).1 ≠ .caps ∨ (laneOf s l).st = .caps ∧ (laneOf s l).awaiting = true) :
    exec (.capsDone l hg m gs ok p) s = whenClocked s (ends s) := by
  refine congrArg (whenClocked s) ?_
  rcases h with h | ⟨h, hw⟩
  · have hst : (laneOf s l).st ≠ .caps := fun he => h ((stageOf_fst (by rw [he]; decide)).trans he)
    exact (if_neg (by simp [h])).trans (if_neg (by simp [hst]))
  · exact (if_neg (by simp [h])).trans (if_neg (by simp [hw]))

end

/-! ### Time limits and retries (R240, R247) -/

section
variable {s : State} {l : Fin 66}

theorem exec_bringupStageTimeout_runs (h : bringupRuns (laneOf s l) = true) (hw : (laneOf s l).awaiting = false) :
    exec (.bringupStageTimeout l) s = whenClocked s (ends (bringupFail (advanceTo s (laneOf s l).stageDue) l 0
      (fun o => ⟨St.timeout, 1, elapsedUs (advanceTo s (laneOf s l).stageDue) o⟩))) :=
  congrArg (whenClocked s) (if_pos (by rw [h, hw]; rfl))

theorem exec_bringupStageTimeout_idle (h : bringupRuns (laneOf s l) = false ∨ (laneOf s l).awaiting = true) :
    exec (.bringupStageTimeout l) s = whenClocked s (ends s) :=
  congrArg (whenClocked s) (if_neg (by rcases h with h | h <;> simp [h]))

theorem exec_rebringupRetry_due {d : Nat} (h : (laneOf s l).retryAt = some d) :
    exec (.rebringupRetry l) s
      = whenClocked s (ends (if (laneOf s l).st = .down then startBringup (advanceTo s d) l true else s)) := by
  show execRebringupRetry l s = _
  simp only [execRebringupRetry, h]

theorem exec_rebringupRetry_none (h : (laneOf s l).retryAt = none) :
    exec (.rebringupRetry l) s = whenClocked s (ends s) := by
  show execRebringupRetry l s = _
  simp only [execRebringupRetry, h]

theorem exec_retryWindowEnd_open {d : Nat} (h : (laneOf s l).retryEnd = some d) :
    exec (.retryWindowEnd l) s = whenClocked s (ends (updLane (advanceTo s d) l
      (fun x => { x with retryEnd := none, retryN := 0 }))) := by
  show execRetryWindowEnd l s = _
  simp only [execRetryWindowEnd, h]

theorem exec_retryWindowEnd_none (h : (laneOf s l).retryEnd = none) :
    exec (.retryWindowEnd l) s = whenClocked s (ends s) := by
  show execRetryWindowEnd l s = _
  simp only [execRetryWindowEnd, h]

end

/-- Settles O31: each row by its own equation, the stage reached or the event without effect. -/
theorem laneBringupEvents : Obligations.LaneBringupEvents := by
  refine ⟨fun l rx s hc => ⟨fun hd ha => ?_, fun h => ?_⟩, fun l eq clean s hc => ⟨fun ht hn => ?_, fun h => ?_⟩, ?_,
    fun s l st p => ⟨fun h => if_pos h, fun h => if_neg h⟩, fun l hg m gs ok p s hc h hs => ?_,
    fun l hg m gs ok p s hc h hw => ?_, fun l hg m gs ok p s hc h => ?_, fun l s hc h hw => ?_, fun l s hc h => ?_,
    fun l s d hc h => ?_, fun l s hc h => ?_, fun l s d hc h => ?_, fun l s hc h => ?_⟩
  · exact seen_of_clocked hc (exec_detectDone_aligned hd ha) rfl
  · exact seen_of_clocked hc (exec_detectDone_idle h) rfl
  · exact seen_of_clocked hc (exec_trainDone_trained eq ht hn) rfl
  · exact seen_of_clocked hc (exec_trainDone_idle eq h) rfl
  · rintro l rx s x hc rfl
    exact ⟨fun hl hw ha => seen_of_clocked hc (exec_lockDone_aligned hl hw ha) rfl,
      fun h => seen_of_clocked hc (exec_lockDone_idle h) rfl⟩
  · exact seen_of_clocked hc (exec_capsDone_loop hg m gs ok p h hs) rfl
  · exact seen_of_clocked hc (exec_capsDone_caps hg m gs ok p h hw) rfl
  · exact seen_of_clocked hc (exec_capsDone_idle hg m gs ok p h) rfl
  · obtain ⟨t, ht, hseen⟩ := seen_of_clocked hc (exec_bringupStageTimeout_runs h hw) rfl
    exact ⟨t, _, ht, rfl, hseen⟩
  · exact seen_of_clocked hc (exec_bringupStageTimeout_idle h) rfl
  · exact seen_of_clocked hc (exec_rebringupRetry_due h) rfl
  · exact seen_of_clocked hc (exec_rebringupRetry_none h) rfl
  · exact seen_of_clocked hc (exec_retryWindowEnd_open h) rfl
  · exact seen_of_clocked hc (exec_retryWindowEnd_none h) rfl

end Sys2Proof.Machine
end

section
/-! SUPPORT. Loss of lock, error windows, the ends of loops and scans (R239, R245 to R247, R250, R251, R254 to R256). -/

namespace Sys2Proof.Machine

/-! ### Loss of lock (R239, R245, R247, R250) -/

theorem exec_lossOfLock_lost {s : State} {l : Fin 66} {rx : Rx} (pts : List (BitVec 16))
    (hf : rxFits (rateOf (laneOf s l)) rx = true) (hl : rxLost rx = true) :
    exec (.lossOfLock l pts rx) s = whenClocked s (ends (lockGone s l pts)) :=
  congrArg (whenClocked s <| ends ·) (if_pos (by rw [hf, hl]; rfl))

theorem exec_lossOfLock_kept {s : State} {l : Fin 66} {rx : Rx} (pts : List (BitVec 16))
    (h : rxFits (rateOf (laneOf s l)) rx = false ∨ rxLost rx = false) :
    exec (.lossOfLock l pts rx) s = whenClocked s (ends s) :=
  congrArg (whenClocked s <| ends ·) (if_neg (by rcases h with h | h <;> simp [h]))

section
variable {s : State} {l : Nat} (pts : List (BitVec 16))

theorem lockGone_active (h : (laneOf s l).st = .active) :
    lockGone s l pts = lockLost (incP s P.LANE_LOCK_LOSS l) l pts := by
  simp only [lockGone, h]

/-- In LOCK and CAPS the bring-up fails. -/
theorem lockGone_bringup (h : (laneOf s l).st = .lock ∨ (laneOf s l).st = .caps) :
    lockGone s l pts = bringupFail (incP s P.LANE_LOCK_LOSS l) l 1 (fun _ => ⟨St.state, 0xD, l⟩) := by
  rcases h with h | h <;> simp only [lockGone, h]

theorem lockGone_loop (h : (laneOf s l).st = .loop) :
    lockGone s l pts = updLane (incP s P.LANE_LOCK_LOSS l) l (fun x => { x with
      loopRun := x.loopRun.map (fun r => { r with losses := r.losses + 1 }) }) := by
  simp only [lockGone, h]

theorem lockGone_other (ha : (laneOf s l).st ≠ .active) (hk : (laneOf s l).st ≠ .lock)
    (hc : (laneOf s l).st ≠ .caps) (hp : (laneOf s l).st ≠ .loop) : lockGone s l pts = s := by
  unfold lockGone
  split
  · next h => exact absurd h ha
  · next h => exact absurd h hk
  · next h => exact absurd h hc
  · next h => exact absurd h hp
  · rfl

end

/-! ### Error windows (R246, R251) -/

/-- What the end of an error window at its tick leaves. -/
def errWindowEnd (v : State) (l : Nat) : State :=
  updLane (putN (if getN v P.LANE_ERR_COUNT l = 0 then causeGone v F.LANE_TRANSIENT l else v) P.LANE_ERR_COUNT l 0) l
    (fun x => { x with errWin := x.errWin + 200000000 })

/-- The count begins anew. -/
theorem errWindowEnd_count (v : State) (l : Nat) : getN (errWindowEnd v l) P.LANE_ERR_COUNT l = 0 := by
  unfold errWindowEnd getN
  rw [(updLane_keeps _ l _).param P.LANE_ERR_COUNT l, putN, getP_putP_same]
  rfl

section
variable {s : State} {l : Fin 66}

theorem exec_laneErrorWindowEnd_open (h : (laneOf s l).errOpen = true) :
    exec (.laneErrorWindowEnd l) s
      = whenClocked s (ends (errWindowEnd (advanceTo s ((laneOf s l).errWin + 200000000)) l)) :=
  congrArg (whenClocked s) (if_pos h)

theorem exec_laneErrorWindowEnd_closed (h : (laneOf s l).errOpen = false) :
    exec (.laneErrorWindowEnd l) s = whenClocked s (ends s) :=
  congrArg (whenClocked s) (if_neg (by simp [h]))

/-! ### The end of a loop (R254) -/

theorem exec_laneLoopEnd_runs {r : LoopRun} {o : LongOp} (a b d g : Word) (hr : (laneOf s l).loopRun = some r)
    (ho : opRun? s 0x22 l = some o) :
    exec (.laneLoopEnd l a b d g) s = whenClocked s (ends (completeOk
      (updLane (advanceTo s r.due) l (fun x => { x with st := .down, loopRun := none })) o
      [BitVec.ofNat 32 r.sent, a, b, d, BitVec.ofNat 32 r.losses + g])) := by
  show execLaneLoopEnd l a b d g s = _
  simp only [execLaneLoopEnd, hr, ho]

theorem exec_laneLoopEnd_none (a b d g : Word) (h : (laneOf s l).loopRun = none ∨ opRun? s 0x22 l = none) :
    exec (.laneLoopEnd l a b d g) s = whenClocked s (ends s) := by
  show execLaneLoopEnd l a b d g s = _
  unfold execLaneLoopEnd
  split
  · next hr ho => rcases h with h | h <;> simp [h] at hr ho
  · rfl

end

/-- A completion reply, and the reel's look after it, leave every lane as it is. -/
theorem laneOf_completed {s t : State} {o : LongOp} {p : List Word} (h : Seen (completeOk s o p) t) (l : Nat) :
    laneOf t l = laneOf s l := by
  unfold laneOf
  rw [h.1.lanes, (completeOk_keeps s o p).lanes]

/-! ### The end of a scan (R255, R256) -/

theorem exec_eyeScanDone_runs {s : State} {o : LongOp} (pts : List (BitVec 16)) (h : opAny? s 0x23 = some o) :
    exec (.eyeScanDone pts) s = whenClocked s (ends (completeOk
      (eyeStore (advanceTo s (o.start + uiTicks (o.args.getD 1 0) (4160 * 2 ^ (o.args.getD 0 0)))) o o.key true pts) o
      [BitVec.ofNat 32 (eyeWidth pts), BitVec.ofNat 32 (eyeHeight pts)])) := by
  show execEyeScanDone pts s = _
  simp only [execEyeScanDone, h]

theorem exec_eyeScanDone_none {s : State} (pts : List (BitVec 16)) (h : opAny? s 0x23 = none) :
    exec (.eyeScanDone pts) s = whenClocked s (ends s) := by
  show execEyeScanDone pts s = _
  simp only [execEyeScanDone, h]

/-- Settles O32: a loss of lock by the lane's state, every other row by what it finds to end. -/
theorem laneFaultEvents : Obligations.LaneFaultEvents := by
  refine ⟨?_, fun l s hc h => ?_, fun l s hc h => ?_, fun l a b d g s r o hc hr ho => ?_,
    fun l a b d g s hc h => ?_, fun pts s o hc h => ?_, fun pts s hc h => ?_⟩
  · rintro l rx pts s x hc rfl
    refine ⟨fun hf hl => ?_, fun h => seen_of_clocked hc (exec_lossOfLock_kept pts h) rfl⟩
    have hx := exec_lossOfLock_lost pts hf hl
    exact ⟨fun h => seen_of_clocked hc hx (lockGone_active pts h),
      fun h => seen_of_clocked hc hx (lockGone_bringup pts h), fun h => seen_of_clocked hc hx (lockGone_loop pts h),
      fun ha hk hcaps hp => seen_of_clocked hc hx (lockGone_other pts ha hk hcaps hp)⟩
  · obtain ⟨t, ht, hseen⟩ := seen_of_clocked hc (exec_laneErrorWindowEnd_open h) rfl
    exact ⟨t, _, ht, rfl, hseen, (hseen.getN _ _).trans (errWindowEnd_count _ _)⟩
  · exact seen_of_clocked hc (exec_laneErrorWindowEnd_closed h) rfl
  · obtain ⟨t, ht, hseen⟩ := seen_of_clocked hc (exec_laneLoopEnd_runs a b d g hr ho) rfl
    refine ⟨t, ht, hseen, ?_⟩
    rw [laneOf_completed hseen, laneOf_updLane]
  · exact seen_of_clocked hc (exec_laneLoopEnd_none a b d g h) rfl
  · exact seen_of_clocked hc (exec_eyeScanDone_runs pts h) rfl
  · exact seen_of_clocked hc (exec_eyeScanDone_none pts h) rfl

end Sys2Proof.Machine
end

section
/-! SUPPORT. Peer heartbeats and data frames, resumption and the ends of a takeover's windows (R447, R451, R456,
R458). -/

namespace Sys2Proof.Machine

theorem paired_eq_false {s : State} (h : s.dup.role = .solo) : paired s = false := by
  unfold paired
  rw [h]
  rfl

/-! ### Frames of the peer (R245, R257, R447, R451) -/

/-- What a frame on a peer lane does to the block, `u` where it counts: it does so on an ACTIVE lane, with its correct
CRC, in a pair. -/
def peerTake (s : State) (lane : Nat) (crc right : Word) (u : State) : State :=
  if !laneActive s lane then s else if crc ≠ right then laneError s lane else if !paired s then s else u

section
variable {s u : State} {lane : Nat} {crc right : Word}

theorem peerTake_ignored (h : laneActive s lane = false ∨ (crc = right ∧ paired s = false)) :
    peerTake s lane crc right u = s := by
  unfold peerTake
  rcases h with ha | ⟨hcrc, hp⟩
  · exact if_pos (by rw [ha]; rfl)
  · rw [if_neg (not_not_intro hcrc), hp]
    exact ite_self s

theorem peerTake_bad (ha : laneActive s lane = true) (hcrc : crc ≠ right) :
    peerTake s lane crc right u = laneError s lane := by
  unfold peerTake
  rw [if_neg (by simp [ha]), if_pos hcrc]

theorem peerTake_good (hp : paired s = true) (ha : laneActive s lane = true) (hcrc : crc = right) :
    peerTake s lane crc right u = u := by
  unfold peerTake
  rw [if_neg (by simp [ha]), if_neg (not_not_intro hcrc), if_neg (by simp [hp])]

end

/-- What a heartbeat that counts leaves: the first of its period is kept, its copy only notes the lane. -/
def heartbeatNote (s : State) (h : PeerHeader) : State :=
  if s.dup.gotMark = some h.period.toNat then
    updDup s (fun d => { d with hbOk := d.hbOk ||| BitVec.ofNat 2 (2 ^ h.lane.val) })
  else updDup s (fun d => { d with
    hb := some h, gotMark := some h.period.toNat, hbOk := BitVec.ofNat 2 (2 ^ h.lane.val) })

theorem exec_peerHeartbeat (h : PeerHeader) (crc : Word) (s : State) :
    exec (.peerHeartbeat h crc) s
      = whenClocked s (ends (peerTake s (64 + h.lane.val) crc (hbCrc h) (heartbeatNote s h))) := by
  refine congrArg (whenClocked s) ?_
  simp only [peerTake, heartbeatNote, apply_ite ends]

/-- What a data frame that counts leaves: a standby that has not taken the period from an active controller follows its
time and keeps the frame; the digests are taken. -/
def dataNote (s : State) (f : PeerData) : State :=
  peerDigests (if s.dup.role = .standby ∧ (f.hdr.role = 3 ∨ f.hdr.role = 2) ∧ dataTaken s f = false then
      updDup (if s.per.running then slewMark (slewCell s f) f else slewCell s f) (fun d => { d with data := some f })
    else s) f

theorem exec_peerDataFrame (f : PeerData) (s : State) :
    exec (.peerDataFrame f) s
      = whenClocked s (ends (peerTake s (64 + f.hdr.lane.val) f.crc (dataCrc f) (dataNote s f))) := by
  refine congrArg (whenClocked s) ?_
  simp only [peerTake, dataNote, apply_ite ends, Bool.and_eq_true, Bool.or_eq_true, decide_eq_true_eq, beq_iff_eq,
    Bool.not_eq_true', and_assoc, (slewCell_keeps s f).per]

/-! ### Resumption and the windows of a takeover (R456, R458, R459) -/

section
variable {s : State}

theorem exec_dispatchResume_ready (hr : s.per.running = true) (hp : paired s = true)
    (hd : resumeReady { s with per := { s.per with count := s.per.count + 1 } } = true) :
    exec .dispatchResume s = whenClocked s (ends (resumeAt s (s.per.count + 1))) :=
  congrArg (whenClocked s) (if_pos (by rw [hr, hp, hd]; rfl))

theorem exec_dispatchResume_waits (h : s.per.running = false ∨ paired s = false
      ∨ resumeReady { s with per := { s.per with count := s.per.count + 1 } } = false) :
    exec .dispatchResume s = whenClocked s (ends s) :=
  congrArg (whenClocked s) (if_neg (by rcases h with h | h | h <;> simp [h]))

theorem exec_resumeTimeout_pending (hp : paired s = true) (ht : s.dup.takeover = true) (hr : s.dup.resumed = false) :
    exec .resumeTimeout s = whenClocked s (ends (atMark s (s.dup.u + getN s P.DUP_RESUME_MAX 0) (fun s =>
      if s.dup.failedRes then s
      else raiseFault (updDup s (fun d => { d with failedRes := true })) F.TAKEOVER_FAILED 0))) :=
  congrArg (whenClocked s) (if_pos (by rw [hp, ht, hr]; rfl))

theorem exec_resumeTimeout_idle (h : paired s = false ∨ s.dup.takeover = false ∨ s.dup.resumed = true) :
    exec .resumeTimeout s = whenClocked s (ends s) :=
  congrArg (whenClocked s) (if_neg (by rcases h with h | h | h <;> simp [h]))

theorem exec_takeoverWindowEnd_taking (h : s.dup.role = .takingOver) :
    exec .takeoverWindowEnd s = whenClocked s (ends (atMark s (s.dup.u + getN s P.DUP_TKO_WINDOW 0)
      (fun t => windowEndAt t (s.dup.u + getN s P.DUP_TKO_WINDOW 0)))) := by
  refine congrArg (whenClocked s) ((if_pos (paired_of_ne (by rw [h]; decide))).trans ?_)
  simp only [h]

theorem exec_takeoverWindowEnd_giving {u : Nat} (h : s.dup.role = .active) (hg : s.dup.giving = some u) :
    exec .takeoverWindowEnd s = whenClocked s (ends (atMark s (u + getN s P.DUP_TKO_WINDOW 0)
      (fun t => windowEndAt t (u + getN s P.DUP_TKO_WINDOW 0)))) := by
  refine congrArg (whenClocked s) ((if_pos (paired_of_ne (by rw [h]; decide))).trans ?_)
  simp only [h, hg]

theorem exec_takeoverWindowEnd_none
    (h : s.dup.role = .standby ∨ s.dup.role = .solo ∨ (s.dup.role = .active ∧ s.dup.giving = none)) :
    exec .takeoverWindowEnd s = whenClocked s (ends s) := by
  refine congrArg (whenClocked s) ?_
  rcases h with h | h | ⟨h, hg⟩
  · refine (if_pos (paired_of_ne (by rw [h]; decide))).trans ?_
    simp only [h]
  · exact if_neg (by simp [paired_eq_false h])
  · refine (if_pos (paired_of_ne (by rw [h]; decide))).trans ?_
    simp only [h, hg]

end

/-- Settles O49: the frames by their lane, their CRC and the pair, the windows by what there is to end. -/
theorem peerFrames : Obligations.PeerFrames := by
  refine ⟨fun h crc s hc => ⟨fun hi => ?_, fun ha hcrc => ?_, fun hp ha hcrc hm => ?_, fun hp ha hcrc hm => ?_⟩,
    fun f s hc => ⟨fun hi => ?_, fun ha hcrc => ?_, fun hp ha hcrc => ?_⟩, ?_,
    fun s hc => ⟨fun hp ht hr => ?_, fun h => ?_⟩, ?_⟩
  · exact seen_of_clocked hc (exec_peerHeartbeat h crc s) (peerTake_ignored hi)
  · exact seen_of_clocked hc (exec_peerHeartbeat h crc s) (peerTake_bad ha hcrc)
  · exact seen_of_clocked hc (exec_peerHeartbeat h crc s) ((peerTake_good hp ha hcrc).trans (if_pos hm))
  · exact seen_of_clocked hc (exec_peerHeartbeat h crc s) ((peerTake_good hp ha hcrc).trans (if_neg hm))
  · exact seen_of_clocked hc (exec_peerDataFrame f s) (peerTake_ignored hi)
  · exact seen_of_clocked hc (exec_peerDataFrame f s) (peerTake_bad ha hcrc)
  · exact seen_of_clocked hc (exec_peerDataFrame f s) (peerTake_good hp ha hcrc)
  · rintro s n hc rfl
    exact ⟨fun hr hp hd => seen_of_clocked hc (exec_dispatchResume_ready hr hp hd) rfl,
      fun h => seen_of_clocked hc (exec_dispatchResume_waits h) rfl⟩
  · exact seen_of_clocked hc (exec_resumeTimeout_pending hp ht hr) rfl
  · exact seen_of_clocked hc (exec_resumeTimeout_idle h) rfl
  · rintro s w hc rfl
    exact ⟨fun h => seen_of_clocked hc (exec_takeoverWindowEnd_taking h) rfl,
      fun u h hg => seen_of_clocked hc (exec_takeoverWindowEnd_giving h hg) rfl,
      fun h => seen_of_clocked hc (exec_takeoverWindowEnd_none h) rfl⟩

end Sys2Proof.Machine
end

section
/-! SUPPORT. `PLACE` and `CELL_CONFIG`, their start and their completion (R284, R296, R297, R303 to R305). -/

namespace Sys2Proof.Machine

/-! ### `PLACE` (R296) -/

section
variable {c : Cmd} {s : State}

theorem placeBody_ok (h : placeFail s (pw c 0) = none) :
    placeBody c s = .accepted (startOp (putN s P.DISC_FAIL 0 0) 0x12 (c.seq.toNat * 2 + b2n (c.port == .spi)) c
      (pw c 0 :: (topoWords s (pw c 0)).map (fun w => w.toNat))) (fun v => v) := by
  simp only [placeBody, h]

theorem placeBody_fail {f : Nat × CmdErr × Nat} (h : placeFail s (pw c 0) = some f) :
    placeBody c s = .fail f.2.1 (putN s P.DISC_FAIL 0 (f.1 + 65536 * f.2.2)) := by
  simp only [placeBody, h]

end

/-! ### A placement takes effect (R297) -/

/-- The topology that `PLACE_DONE` brings into force: the words that `PLACE` has stored with its operation. -/
def placedTopo (o : LongOp) : List Word := (o.args.drop 1).map (BitVec.ofNat 32)

/-- The state in which `PLACE_DONE` answers. -/
def afterPlace (s : State) (o : LongOp) : State := placeWatch (placeDo s (placedTopo o))

/-- What follows the record of the topology leaves it: the period's quantities and the change of the latency. -/
theorem placeDo_inForce (s : State) (t : List Word) :
    (placeDo s t).disc.placed = true ∧ (placeDo s t).disc.topo = t := by
  unfold placeDo
  dsimp only
  rw [(latencyChange_keeps _ _).disc, (recompute_keeps _).disc]
  exact ⟨rfl, rfl⟩

/-- A completion reply, and the reel's look after it, leave discovery and placement as they are. -/
theorem disc_completed {s t : State} {o : LongOp} {p : List Word} (h : Seen (completeOk s o p) t) : t.disc = s.disc :=
  (h.1.disc).trans (completeOk_keeps s o p).disc

theorem afterPlace_disc (s : State) (o : LongOp) : (afterPlace s o).disc = (placeDo s (placedTopo o)).disc :=
  (placeWatch_keeps _).disc

theorem exec_placeDone_runs {s : State} {o : LongOp} (h : opAny? s 0x12 = some o) :
    exec .placeDone s = whenClocked s (ends (completeOk (afterPlace s o) o
      [BitVec.ofNat 32 (placedCount (afterPlace s o))])) := by
  show execPlaceDone s = _
  simp only [execPlaceDone, h]
  rfl

theorem exec_placeDone_none {s : State} (h : opAny? s 0x12 = none) :
    exec .placeDone s = whenClocked s (ends s) := by
  show execPlaceDone s = _
  simp only [execPlaceDone, h]

/-! ### `CELL_CONFIG` (R284, R303 to R305) -/

/-- The lanes of `CELL_CONFIG`'s targets, as a mask. -/
def cfgMask (ts : List (Nat × Nat)) : Nat :=
  sumNat ((List.range 64).map (fun l => if ts.any (fun p => p.1 == l) then 2 ^ l else 0))

/-- The checks decide; without a failure the image starts for every target. -/
theorem cellConfigBody_eq (c : Cmd) (s : State) :
    cellConfigBody c s = Res.check (cellCfgErr c s (cfgTargets c s))
      (.accepted (startOp s 0x13 (cfgMask (cfgTargets c s) + 2 ^ 64 * b2n (bit (pw c 0) 1)) c
          (cfgMask (cfgTargets c s) :: (cfgTargets c s).map (fun p => p.1 * 64 + p.2)))
        (fun v => (cfgTargets c s).foldl (cfgStart (imgEntries v (pw c 1))) v)) := rfl

section
variable {c : Cmd} {s : State}

theorem cellConfigBody_ok (h : cellCfgErr c s (cfgTargets c s) = none) :
    cellConfigBody c s = .accepted (startOp s 0x13 (cfgMask (cfgTargets c s) + 2 ^ 64 * b2n (bit (pw c 0) 1)) c
        (cfgMask (cfgTargets c s) :: (cfgTargets c s).map (fun p => p.1 * 64 + p.2)))
      (fun v => (cfgTargets c s).foldl (cfgStart (imgEntries v (pw c 1))) v) := by
  rw [cellConfigBody_eq, h, Res.check_none]

theorem cellConfigBody_err {e : CmdErr} (h : cellCfgErr c s (cfgTargets c s) = some e) :
    cellConfigBody c s = .err e := by
  rw [cellConfigBody_eq, h, Res.check_some]

end

/-- The oldest `CELL_CONFIG` of which no lane has a transaction left. -/
def cfgEnded? (s : State) : Option LongOp :=
  s.ops.find? (fun o => o.op == 0x13 && (maskLanes (o.args.headD 0)).all (fun l => !srcBusy s 5 l))

/-- How many targets of a `CELL_CONFIG` have failed (R305). -/
def cfgFailures (s : State) (o : LongOp) : Nat := ((o.args.drop 1).filter (cfgFailed s)).length

theorem exec_cellConfigDone_runs {s : State} {o : LongOp} (h : cfgEnded? s = some o) :
    exec .cellConfigDone s = whenClocked s (ends (completeOk s o
      [BitVec.ofNat 32 ((o.args.drop 1).length - cfgFailures s o), BitVec.ofNat 32 (cfgFailures s o)])) := by
  show execCellConfigDone s = _
  unfold cfgEnded? at h
  simp only [execCellConfigDone, h]
  rfl

theorem exec_cellConfigDone_none {s : State} (h : cfgEnded? s = none) :
    exec .cellConfigDone s = whenClocked s (ends s) := by
  show execCellConfigDone s = _
  unfold cfgEnded? at h
  simp only [execCellConfigDone, h]

/-- Settles O28: the two commands by what their checks find, the two completions by the operation that has ended. -/
theorem placement : Obligations.Placement := by
  refine ⟨fun c s h hf => ?_, fun c s k e x h hf => ?_, fun s o hc h => ?_, fun s hc h => ?_, ?_,
    fun c s e h he => ?_, fun s o hc h => ?_, fun s hc h => ?_⟩
  · exact exec_started h (placeBody_ok hf)
  · exact exec_fail h (placeBody_fail hf)
  · obtain ⟨t, ht, hseen⟩ := seen_of_clocked hc (exec_placeDone_runs h) rfl
    refine ⟨t, ht, hseen, ?_⟩
    rw [disc_completed hseen, afterPlace_disc]
    exact placeDo_inForce s (placedTopo o)
  · exact seen_of_clocked hc (exec_placeDone_none h) rfl
  · rintro c s mask h he rfl
    exact exec_started h (cellConfigBody_ok he)
  · exact exec_err h (cellConfigBody_err he)
  · exact seen_of_clocked hc (exec_cellConfigDone_runs h) rfl
  · exact seen_of_clocked hc (exec_cellConfigDone_none h) rfl

end Sys2Proof.Machine
end

section
/-! SUPPORT. `DISCOVER` and `READ_IDENTITY`, their start and their completion (R290 to R294). -/

namespace Sys2Proof.Machine

/-! ### `DISCOVER` (R291, R292) -/

section
variable {c : Cmd} {s : State}

theorem discoverBody_ok (h : discoverErr s (maskLanes (discMask c)) (discMask c) = none) :
    discoverBody c s = .accepted (startOp s 0x10 (discMask c) c [discMask c])
      (fun v => (maskLanes (discMask c)).foldl discoverLane v) :=
  congrArg (Res.check · _) h

theorem discoverBody_err {e : CmdErr} (h : discoverErr s (maskLanes (discMask c)) (discMask c) = some e) :
    discoverBody c s = .err e :=
  congrArg (Res.check · _) h

end

/-- The start of the lanes' reads changes cells and lanes, no running operation. -/
theorem discoverLanes_ops (ls : List Nat) (s : State) : (ls.foldl discoverLane s).ops = s.ops :=
  (Keeps.foldl (A := [.cells, .lanes]) (ai := [P.DISC_LANE_CHECK]) (.refl s)
    fun v l k => k.trans (discoverLane_keeps v l)).ops

/-- Reading after a write at every index of a list. -/
theorem tabGet_foldl_tabSet {α : Type} [DecidableEq α] (d : α) (g : Nat → α) (l : List Nat) (t : Tab α) (j : Nat) :
    tabGet d (l.foldl (fun t i => tabSet d t i (g i)) t) j = if j ∈ l then g j else tabGet d t j := by
  induction l generalizing t with
  | nil => rfl
  | cons i l ih =>
    rw [List.foldl_cons, ih, tabGet_tabSet]
    by_cases hl : j ∈ l
    · rw [if_pos hl, if_pos (List.mem_cons_of_mem i hl)]
    · rw [if_neg hl]
      by_cases hi : i = j
      · subst hi
        rw [if_pos rfl, if_pos List.mem_cons_self]
      · rw [if_neg hi, if_neg (by simp [hl, Ne.symm hi])]

/-- Each of the eight boards has the record that its address answered (R290). -/
theorem boardOf_putBoards {b : Nat} (s : State) (boards again : List (Option (List Byte))) (hb : b < 8) :
    boardOf (putBoards s boards again) b = boardRead (boards.getD b none) (again.getD b none) :=
  (tabGet_foldl_tabSet Board.empty (fun b => boardRead (boards.getD b none) (again.getD b none)) (List.range 8)
    s.disc.boards b).trans (if_pos (List.mem_range.mpr hb))

/-- The oldest `DISCOVER` of which no lane has a read left. -/
def discEnded? (s : State) : Option LongOp :=
  s.ops.find? (fun o => o.op == 0x10 && (maskLanes o.key).all (fun l => !srcBusy s 3 l))

section
variable {s : State} (boards again : List (Option (List Byte)))

theorem exec_discoverDone_runs {o : LongOp} (h : discEnded? s = some o) :
    exec (.discoverDone boards again) s = whenClocked s (ends (completeOk (putBoards s boards again) o
      (discoverReply (putBoards s boards again) (maskLanes o.key)))) := by
  show execDiscoverDone boards s again = _
  unfold discEnded? at h
  simp only [execDiscoverDone, h]

theorem exec_discoverDone_none (h : discEnded? s = none) :
    exec (.discoverDone boards again) s = whenClocked s (ends s) := by
  show execDiscoverDone boards s again = _
  unfold discEnded? at h
  simp only [execDiscoverDone, h]

end

/-! ### `READ_IDENTITY` (R294) -/

theorem laneActive_arrived (s : State) (c : Cmd) (l : Nat) : laneActive (arrived s c) l = laneActive s l := by
  unfold laneActive
  rw [laneOf_arrived]

theorem msgClaim_arrived (s : State) (c : Cmd) (ls : List Nat) : msgClaim (arrived s c) ls = msgClaim s ls := by
  unfold msgClaim
  rw [(arrived_keeps s c).ops]

/-- The lane whose messenger reads the record of a cell (kind 0) or hub. -/
def idLane (c : Cmd) : Nat := if pw c 0 = 0 then tgt c / 48 else tgt c

/-- The port of that record on its lane, 63 for the hub's own. -/
def idPort (c : Cmd) : Nat := if pw c 0 = 0 then tgt c % 48 else 63

/-- A record's bytes are forgotten and its 64 reads queued. -/
def idLaneStart (l port : Nat) (v : State) : State :=
  updLane v l (fun x => { rdClear x port with rdBad := [], qCmd := x.qCmd ++ idReads 4 port })

section
variable {c : Cmd} {s : State}

theorem readIdentityBody_board (hk : pw c 0 = 2) :
    readIdentityBody c s = Res.check (busyErr (opRun? s 0x11 (2 * 65536 + tgt c)))
      (.accepted (startOp s 0x11 (2 * 65536 + tgt c) c [2, 0, 0, 0]) (fun v => v)) := by
  simp only [readIdentityBody, hk, if_true]

theorem readIdentityBody_lane (hk : pw c 0 ≠ 2) :
    readIdentityBody c s = Res.check
      (firstErr [errIf (!laneActive s (idLane c)) St.state 6 (idLane c), busyErr (msgClaim s [idLane c])])
      (.accepted (startOp s 0x11 (pw c 0 * 65536 + tgt c) c [pw c 0, idLane c, idPort c, 0])
        (idLaneStart (idLane c) (idPort c))) :=
  if_neg hk

theorem readIdentityBody_boardFree (hk : pw c 0 = 2) (h : opRun? s 0x11 (2 * 65536 + tgt c) = none) :
    readIdentityBody c s = .accepted (startOp s 0x11 (2 * 65536 + tgt c) c [2, 0, 0, 0]) (fun v => v) := by
  rw [readIdentityBody_board hk, h]
  rfl

theorem readIdentityBody_boardBusy {o : LongOp} (hk : pw c 0 = 2)
    (h : opRun? s 0x11 (2 * 65536 + tgt c) = some o) : readIdentityBody c s = .err (heldBy o.tag.toNat) := by
  rw [readIdentityBody_board hk, h]
  rfl

theorem readIdentityBody_laneFree (hk : pw c 0 ≠ 2) (ha : laneActive s (idLane c) = true)
    (hm : msgClaim s [idLane c] = none) :
    readIdentityBody c s = .accepted (startOp s 0x11 (pw c 0 * 65536 + tgt c) c [pw c 0, idLane c, idPort c, 0])
      (idLaneStart (idLane c) (idPort c)) := by
  rw [readIdentityBody_lane hk, ha, hm]
  rfl

theorem readIdentityBody_laneInactive (hk : pw c 0 ≠ 2) (ha : laneActive s (idLane c) = false) :
    readIdentityBody c s = .err ⟨St.state, 6, idLane c⟩ := by
  rw [readIdentityBody_lane hk, ha]
  rfl

theorem readIdentityBody_laneClaimed {o : LongOp} (hk : pw c 0 ≠ 2) (ha : laneActive s (idLane c) = true)
    (hm : msgClaim s [idLane c] = some o) : readIdentityBody c s = .err (heldBy o.tag.toNat) := by
  rw [readIdentityBody_lane hk, ha, hm]
  rfl

end

/-- The oldest running read of a board's record. -/
def idBoardOp? (s : State) : Option LongOp := s.ops.find? (fun o => o.op == 0x11 && o.args.getD 0 0 == 2)

/-- The oldest read of a cell's or hub's record that has come to its end. -/
def idLaneEnded? (s : State) : Option LongOp :=
  s.ops.find? (fun o => o.op == 0x11 && o.args.getD 0 0 != 2 && o.args.getD 3 0 != 0)

theorem exec_readIdentityDone (board again : Option (List Byte)) (s : State) :
    exec (.readIdentityDone board again) s = whenClocked s (ends (match idLaneEnded? s, idBoardOp? s with
      | some o, none => idLaneDone s o
      | some o, some p => if board.isSome then idBoardDone s p board again else idLaneDone s o
      | none, some p => idBoardDone s p board again
      | none, none => s)) := rfl

section
variable {s : State} {board : Option (List Byte)} (again : Option (List Byte))

/-- A board's read ends where no lane's has ended or a board has answered. -/
theorem exec_readIdentityDone_board {o : LongOp} (hl : idLaneEnded? s = none ∨ board ≠ none)
    (hb : idBoardOp? s = some o) :
    exec (.readIdentityDone board again) s = whenClocked s (ends (idBoardDone s o board again)) := by
  rw [exec_readIdentityDone, hb]
  cases he : idLaneEnded? s with
  | none => rfl
  | some p =>
    have ha : board.isSome = true := Option.isSome_iff_ne_none.mpr (hl.resolve_left (by simp [he]))
    exact congrArg (whenClocked s <| ends ·) (if_pos ha)

/-- A lane's read that has ended completes where no board is read or none has answered. -/
theorem exec_readIdentityDone_lane {o : LongOp} (hl : idLaneEnded? s = some o)
    (hb : idBoardOp? s = none ∨ board = none) :
    exec (.readIdentityDone board again) s = whenClocked s (ends (idLaneDone s o)) := by
  rw [exec_readIdentityDone, hl]
  cases he : idBoardOp? s with
  | none => rfl
  | some p =>
    obtain rfl : board = none := hb.resolve_left (by simp [he])
    rfl

theorem exec_readIdentityDone_none (hl : idLaneEnded? s = none) (hb : idBoardOp? s = none) :
    exec (.readIdentityDone board again) s = whenClocked s (ends s) := by
  rw [exec_readIdentityDone, hl, hb]

end

/-- Settles O27: the two commands by what their checks find, the two completions by the operations that have ended. -/
theorem discovery : Obligations.Discovery := by
  refine ⟨fun c s h he => ?_, fun c s e h he => exec_err h (discoverBody_err he), fun s ls m => rfl,
    fun boards again s o hc h => ?_, fun boards again s hc h => ?_, fun c s h hk ho => ?_, ?_,
    fun c s o h hk ho => ?_, ?_, fun board again s o hc hl hb => ?_, fun board again s o hc hl hb => ?_,
    fun board again s hc hl hb => ?_⟩
  · obtain ⟨t, ht, hacc⟩ := exec_started h (discoverBody_ok he)
    exact ⟨t, ht, hacc, hacc.opOf_mem (discoverLanes_ops _)⟩
  · obtain ⟨t, ht, hseen⟩ := seen_of_clocked hc (exec_discoverDone_runs boards again h) rfl
    refine ⟨t, ht, hseen, fun b hb => ?_⟩
    rw [← boardOf_putBoards s boards again hb, boardOf, disc_completed hseen]
    rfl
  · exact seen_of_clocked hc (exec_discoverDone_none boards again h) rfl
  · exact exec_started h (readIdentityBody_boardFree hk ((opRun?_arrived s c _ _).trans ho))
  · rintro c s _ _ _ h rfl hk rfl rfl ha hm
    exact exec_started h (readIdentityBody_laneFree hk ((laneActive_arrived s c _).trans ha)
      ((msgClaim_arrived s c _).trans hm))
  · exact exec_err (e := heldBy _) h (readIdentityBody_boardBusy hk ((opRun?_arrived s c _ _).trans ho))
  · rintro c s _ _ h rfl hk rfl
    exact ⟨fun ha => exec_err (e := ⟨St.state, 6, _⟩) h
        (readIdentityBody_laneInactive hk ((laneActive_arrived s c _).trans ha)),
      fun o ha hm => exec_err (e := heldBy _) h (readIdentityBody_laneClaimed hk
        ((laneActive_arrived s c _).trans ha) ((msgClaim_arrived s c _).trans hm))⟩
  · exact seen_of_clocked hc (exec_readIdentityDone_board again hl hb) rfl
  · exact seen_of_clocked hc (exec_readIdentityDone_lane again hl hb) rfl
  · exact seen_of_clocked hc (exec_readIdentityDone_none again hl hb) rfl

end Sys2Proof.Machine
end

section
/-! SUPPORT. The tally's report and expectations, a mismatch that lasts, the membership test (R300 to R302, R309 to
R311, R314). -/

namespace Sys2Proof.Machine

/-! ### `TALLY_REPORT` (R314) -/

theorem tallyReportBody_eq (c : Cmd) (s : State) :
    tallyReportBody c s = .ok 0 (if pw c 0 = 0 then tallySummary s
      else if pw c 0 = 1 then tallyList s else tallyArms s) s := by
  unfold tallyReportBody
  split
  · next h => rw [if_pos h]
  · next h => rw [h, if_neg (by decide), if_pos rfl]
  · next h0 h1 => rw [if_neg h0, if_neg h1]

/-! ### Expectations and old digests (R309, R310) -/

/-- Of the tally, following a kind of mismatch changes only when the mismatches began. -/
theorem tallyFollow_tally (s : State) (k : Nat) :
    (tallyFollow s k).tally = { s.tally with since := (tallyFollow s k).tally.since } := by
  unfold tallyFollow
  dsimp only
  split
  · rw [(causeGone_keeps _ _ _).tally]
  · rfl

theorem tallyWatch_expectations (s : State) :
    (tallyWatch s).tally.exp_ = s.tally.exp_ ∧ (tallyWatch s).tally.old = s.tally.old := by
  unfold tallyWatch
  rw [tallyFollow_tally _ 2, tallyFollow_tally _ 1, tallyFollow_tally _ 0]
  exact ⟨rfl, rfl⟩

theorem expectAct_exp (s : State) (num : Nat) : (expectAct s num).tally.exp_ = some (expWords s num) := by
  rw [expectAct, (tallyWatch_expectations _).1]

theorem oldClear_old (s : State) : (oldClear s).tally.old = [] := by
  rw [oldClear, (tallyWatch_expectations _).2]

/-- A packet's arrival writes no table. -/
theorem expWords_arrived (s : State) (c : Cmd) (num : Nat) : expWords (arrived s c) num = expWords s num := by
  unfold expWords tableWords tableWord
  rw [(arrived_keeps s c).tables]

/-- The write of a WO parameter is its action. -/
theorem setWord_wo {id : Nat} (s : State) (t : Nat) (w : Word)
    (h : (paramDef? id).map (fun d => d.access) = some .wo) : setWord s id t w = writeAct s id t w := by
  obtain ⟨d, hd, ha⟩ := Option.map_eq_some_iff.mp h
  simp only [setWord, hd, ha]

theorem setWord_expectAct (s : State) (t : Nat) (w : Word) :
    setWord s P.TALLY_EXPECT_ACT t w = expectAct s w.toNat := by
  rw [setWord_wo s t w (by decide)]
  simp [writeAct]

theorem setWord_oldClear (s : State) (t : Nat) (w : Word) : setWord s P.TALLY_OLD_CLEAR t w = oldClear s := by
  rw [setWord_wo s t w (by decide)]
  simp [writeAct]

/-- A reply leaves the tally as it is. -/
theorem Replied.tally {op status detail : Nat} {p : List Word} {c : Cmd} {u t : State}
    (h : Replied op status detail p c u t) : t.tally = u.tally := h.2.1.tally rfl

/-! ### A mismatch that lasts (R311) -/

/-- The fault of a mismatch that has lasted, raised where it is not held already. -/
def mismatchRaise (v : State) (k : Nat) : State :=
  if causeHeld v F.TALLY_MISMATCH k then v else raiseFault v F.TALLY_MISMATCH k

theorem exec_tallyPersistExpiry_since {s : State} {k : Fin 3} {t0 : Nat}
    (h : mismatchFrom (tallyFollow s k) k = some t0) :
    exec (.tallyPersistExpiry k) s = whenClocked s (ends
      (mismatchRaise (advanceTo (tallyFollow s k) (t0 + 200000 * getN s P.TALLY_PERSIST 0)) k)) := by
  have hp : getN (tallyFollow s k) P.TALLY_PERSIST 0 = getN s P.TALLY_PERSIST 0 :=
    congrArg BitVec.toNat ((tallyFollow_keeps s k).param P.TALLY_PERSIST 0)
  show execTallyPersistExpiry k s = _
  simp only [execTallyPersistExpiry, h, hp, mismatchRaise]

theorem exec_tallyPersistExpiry_none {s : State} {k : Fin 3} (h : mismatchFrom (tallyFollow s k) k = none) :
    exec (.tallyPersistExpiry k) s = whenClocked s (ends (tallyFollow s k)) := by
  show execTallyPersistExpiry k s = _
  simp only [execTallyPersistExpiry, h]

/-! ### The start of the membership test and its abort (R300) -/

/-- A start is within the parameter's range, so that R300's own checks decide. -/
theorem setErr_mtStart (s : State) (t : Nat) : setErr s P.DISC_MT_START t 1 = mtStartErr s 1 := by
  have hd : paramDef? P.DISC_MT_START
      = some ⟨P.DISC_MT_START, false, 8, .wo, 0, 0, false, .among [(0, 1)], false, 0⟩ := by decide
  rw [setErr_value s t 1 hd (by decide) (.inr rfl), setErr.valueErr, rangeErr_in (by decide) (by decide)]
  show firstErr [mtStartErr s 1, none, none] = _
  cases mtStartErr s 1 <;> rfl

theorem mtStartErr_deblocked {s : State} (h : anyDeb s = true) : mtStartErr s 1 = some ⟨St.state, 2, debMask s⟩ := by
  rw [mtStartErr, if_pos rfl, deblockedErr_some h, firstErr_some_cons]

/-- With every arm blocked the placement decides. -/
theorem mtStartErr_blocked {s : State} (h : anyDeb s = false) :
    mtStartErr s 1 = if s.disc.placed then none else some (notReady 0 0) := by
  rw [mtStartErr, if_pos rfl, deblockedErr_none h, firstErr_none_cons, firstErr_singleton]

theorem setWord_mtStart (s : State) (t : Nat) :
    setWord s P.DISC_MT_START t 1 = updMt s (fun m => { m with armed := true }) :=
  setWord_wo s t 1 (by decide)

theorem setWord_mtAbort (s : State) (t : Nat) : setWord s P.DISC_MT_START t 0 = mtAbort s :=
  setWord_wo s t 0 (by decide)

theorem mtAbort_stopped (s : State) : (mtAbort s).disc.mt.st ≠ 1 := by
  unfold mtAbort
  split
  · exact (by decide : (3 : Nat) ≠ 1)
  · next h => exact fun h1 => h (by simp [h1])

/-- A reply leaves discovery, placement and the membership test as they are. -/
theorem Replied.disc {op status detail : Nat} {p : List Word} {c : Cmd} {u t : State}
    (h : Replied op status detail p c u t) : t.disc = u.disc := h.2.1.disc rfl

/-! ### The end of the window (R301, R302) -/

/-- The verdict on one placed cell; FAIL raises `F_ID_MISMATCH`. -/
def mtJudge (s : State) (p : Nat × Cell) : State :=
  if p.2.retired || !laneActive s (laneOfCell p.1) then s
  else
    let v := mtVerdict s p.2
    let s := updCell s p.1 (fun x => { x with mt := { x.mt with verdict := v.1, best := v.2 } })
    if v.1 = 3 then raiseFault s F.ID_MISMATCH p.1 else s

theorem mtEnd_running {s : State} (h : s.disc.mt.st = 1) :
    mtEnd s = (placedCells s).foldl mtJudge (updMt s (fun t => { t with st := 2 })) := if_pos h

/-- A verdict is the cell's: the test itself stays as it is. -/
theorem mtJudge_disc (s : State) (p : Nat × Cell) : (mtJudge s p).disc = s.disc := by
  unfold mtJudge
  dsimp only
  split
  · rfl
  · split
    · rw [(raiseFault_keeps _ _ _).disc, (updCell_keeps _ _ _).disc]
    · exact (updCell_keeps _ _ _).disc

theorem mtJudges_disc (l : List (Nat × Cell)) (s : State) : (l.foldl mtJudge s).disc = s.disc := by
  induction l generalizing s with
  | nil => rfl
  | cons p l ih => rw [List.foldl_cons, ih, mtJudge_disc]

theorem mtEnd_done {s : State} (h : s.disc.mt.st = 1) : (mtEnd s).disc.mt.st = 2 := by
  rw [mtEnd_running h, mtJudges_disc]
  rfl

/-- The charge of a mark does not end the test: its words are parameters, no part of the test's own state. -/
theorem mtChargeOf_st (s : State) (k per : Nat) : (mtChargeOf s k per).disc.mt.st = s.disc.mt.st := by
  unfold mtChargeOf
  dsimp only
  split
  · refine congrArg (·.mt.st) (Keeps.foldl (A := [.freeCtr]) (ai := [P.DISC_MT_QPOS, P.DISC_MT_QABS]) (.refl _)
      fun v a k => ?_).disc
    exact (putCharge_keeps _ _ _ _).step ((putCharge_keeps _ _ _ _).step k (by decide)) (by decide)
  · rfl

/-- What the end of a window at mark `m` does, the charge of the mark before it added where `m` is still to come. -/
def mtClose (m : Nat) (s : State) : State :=
  mtEnd (if s.per.count < m then mtChargeOf s s.per.count (s.per.nextMark - s.per.lastMark) else s)

theorem mtClose_come {s : State} {m : Nat} (h : m ≤ s.per.count) : mtClose m s = mtEnd s := by
  rw [mtClose, if_neg (Nat.not_lt.mpr h)]

/-- At the tick of the next mark its predecessor's charge is added. -/
theorem mtClose_next (s : State) :
    mtClose (s.per.count + 1) (advanceTo s s.per.nextMark)
      = mtEnd (mtChargeOf (advanceTo s s.per.nextMark) s.per.count (s.per.nextMark - s.per.lastMark)) := by
  rw [mtClose, (advanceTo_keeps s s.per.nextMark).per, if_pos (Nat.lt_succ_self _)]

section
variable {s : State}

theorem exec_mtWindowEnd_running (h : s.disc.mt.st = 1) :
    exec .mtWindowEnd s
      = whenClocked s (ends (atMark s (s.disc.mt.from_ + s.disc.mt.win) (mtClose (s.disc.mt.from_ + s.disc.mt.win)))) :=
  congrArg (whenClocked s <| ends ·) (if_pos h)

theorem exec_mtWindowEnd_due (h : s.disc.mt.st = 1) (hr : s.per.running = true)
    (hm : s.disc.mt.from_ + s.disc.mt.win ≤ s.per.count) :
    exec .mtWindowEnd s = whenClocked s (ends (mtEnd s)) := by
  rw [exec_mtWindowEnd_running h, atMark_due _ hr (Nat.le_succ_of_le hm), if_pos hm, mtClose_come hm]

theorem exec_mtWindowEnd_next (h : s.disc.mt.st = 1) (hr : s.per.running = true)
    (hm : s.disc.mt.from_ + s.disc.mt.win = s.per.count + 1) :
    exec .mtWindowEnd s = whenClocked s (ends (mtEnd
      (mtChargeOf (advanceTo s s.per.nextMark) s.per.count (s.per.nextMark - s.per.lastMark)))) := by
  rw [exec_mtWindowEnd_running h, hm, atMark_due _ hr le_rfl, if_neg (Nat.not_succ_le_self _), mtClose_next]

theorem exec_mtWindowEnd_idle (h : s.disc.mt.st ≠ 1 ∨ s.per.running = false
      ∨ s.per.count + 1 < s.disc.mt.from_ + s.disc.mt.win) :
    exec .mtWindowEnd s = whenClocked s (ends s) := by
  by_cases hs : s.disc.mt.st = 1
  · rw [exec_mtWindowEnd_running hs, atMark_waits _ (h.resolve_left (not_not_intro hs))]
  · exact congrArg (whenClocked s <| ends ·) (if_neg hs)

end

/-- What the reel's look leaves of the membership test. -/
theorem Seen.disc {u t : State} (h : Seen u t) : t.disc = u.disc := h.1.disc rfl

/-- Settles O29: the report by its mode, the writes by their actions, the two timed events by whether they are due. -/
theorem tallyAndMembership : Obligations.TallyAndMembership := by
  refine ⟨fun c s h => exec_ok h (tallyReportBody_eq c _), fun c s h => ?_, fun c s h => ?_,
    fun k s t0 hc h => ?_, fun k s hc h => seen_of_clocked hc (exec_tallyPersistExpiry_none h) rfl,
    fun c s h _ hw => ⟨fun hd hp => ?_, fun hd => ?_, fun hd hp => ?_⟩, ?_, ?_,
    fun s hc h => seen_of_clocked hc (exec_mtWindowEnd_idle h) rfl⟩
  · obtain ⟨t, ht, hdone⟩ := exec_rowDone (by decide) h
    rw [setWord_expectAct] at hdone
    refine ⟨t, ht, hdone, ?_⟩
    rw [Replied.tally hdone, expectAct_exp, rowFrom, expWords_arrived]
  · obtain ⟨t, ht, hdone⟩ := exec_rowDone (by decide) h
    rw [setWord_oldClear] at hdone
    exact ⟨t, ht, hdone, (congrArg TallySt.old (Replied.tally hdone)).trans (oldClear_old _)⟩
  · obtain ⟨t, ht, hseen⟩ := seen_of_clocked hc (exec_tallyPersistExpiry_since h) rfl
    exact ⟨t, _, ht, rfl, hseen⟩
  · refine param_row (by decide) h ?_ ?_
    · rw [hw, setErr_mtStart, mtStartErr_blocked (by rwa [anyDeb_arrived]), (arrived_keeps s _).disc, if_pos hp]
    · rw [hw]
      exact setWord_mtStart _ _
  · rw [← debMask_arrived s (paramCmd P.DISC_MT_START c)]
    refine exec_param_err (e := ⟨St.state, 2, _⟩) (by decide) h ?_
    rw [hw, setErr_mtStart]
    exact mtStartErr_deblocked (by rwa [rowFrom, anyDeb_arrived])
  · refine exec_param_err (e := notReady 0 0) (by decide) h ?_
    rw [hw, setErr_mtStart, rowFrom, mtStartErr_blocked (by rwa [anyDeb_arrived]), (arrived_keeps s _).disc,
      if_neg (by simp [hp])]
  · rintro c _ s rfl h
    obtain ⟨t, ht, hdone⟩ := exec_rowDone (by decide) h
    rw [show ({ c with payload := 0 :: c.payload } : Cmd).payload.getD 0 0 = 0 from rfl, setWord_mtAbort] at hdone
    refine ⟨t, ht, hdone, ?_⟩
    rw [Replied.disc hdone]
    exact mtAbort_stopped _
  · rintro s _ hc hs hr rfl
    refine ⟨fun hm => ?_, ?_⟩
    · obtain ⟨t, ht, hseen⟩ := seen_of_clocked hc (exec_mtWindowEnd_due hs hr hm) rfl
      exact ⟨t, ht, hseen, by rw [hseen.disc, mtEnd_done hs]⟩
    · rintro _ hm rfl
      obtain ⟨t, ht, hseen⟩ := seen_of_clocked hc (exec_mtWindowEnd_next hs hr hm) rfl
      refine ⟨t, ht, hseen, ?_⟩
      rw [hseen.disc, mtEnd_done]
      rw [mtChargeOf_st, (advanceTo_keeps s s.per.nextMark).disc, hs]

end Sys2Proof.Machine
end

section
/-! SUPPORT. The time commands, the servo and the holdover (R317 to R322, R330), and that none of them moves a mark
(R318). -/

namespace Sys2Proof.Machine

/-! ### What a step of device time leaves of the period -/

/-- Settles O52: the frames of the three rows and of passing time leave the period out. -/
theorem marksIgnoreTime : Obligations.MarksIgnoreTime := by
  refine ⟨?_, fun s t h => (execTimeHoldoverExpiry_keeps s t h).per rfl, fun s d => (advanceTo_keeps s d).per rfl⟩
  rintro c s t (h | h)
  · have k := execTimeStep_keeps c s t h
    exact ⟨k.per rfl, k.tick rfl⟩
  · have k := execTimeOffset_keeps c s t h
    exact ⟨k.per rfl, k.tick rfl⟩

/-! ### `TIME_EVENT` -/

/-- A flag that was set stays set as flags are added. -/
theorem bit_orP_of_bit {s : State} {id t m b : Nat} (h : bit (getN s id t) b = true) :
    bit (getN (orP s id t m) id t) b = true := by
  have hb : b < 32 := by
    by_contra hb
    rw [bit_eq_testBit, getN, BitVec.testBit_toNat, BitVec.getLsbD_of_ge _ _ (Nat.not_lt.mp hb)] at h
    exact Bool.false_ne_true h
  rw [bit_eq_testBit] at h
  rw [bit_eq_testBit]
  unfold orP putN
  rw [getN, getP_putP_same, BitVec.toNat_ofNat, Nat.testBit_mod_two_pow, Nat.testBit_or, h, decide_eq_true hb]
  rfl

/-- A parameter that an operation does not list, as a number. -/
theorem Keeps.getN {fs : List Fld} {ids : List Nat} {s t : State} (h : Keeps fs ids s t) (id k : Nat)
    (hp : fs.contains .params = false) (hi : ids.contains id = false) : Machine.getN t id k = Machine.getN s id k :=
  congrArg BitVec.toNat (h.param id k hp hi)

/-- The flags of `TIME_EVENT` are those the event's bit was added to: its cause is another register's. -/
theorem getN_timeEvent (s : State) (b : Nat) :
    getN (timeEvent s b) P.TIME_EVENT 0 = getN (orP s P.TIME_EVENT 0 (2 ^ b)) P.TIME_EVENT 0 :=
  (irqSet_keeps _ 3).getN P.TIME_EVENT 0 rfl rfl

theorem timeEvent_time (s : State) (b : Nat) : (timeEvent s b).time = s.time := (timeEvent_keeps s b).time rfl

theorem getN_arrived (s : State) (c : Cmd) (id k : Nat) : getN (arrived s c) id k = getN s id k :=
  congrArg BitVec.toNat (getP_arrived s c id k)

/-! ### The servo's states (R322) -/

/-- Leaving a state ends its holdover; the clock stays otherwise as it was. -/
theorem servoUnlock_time (s : State) (st : Servo) :
    (servoUnlock s st).time = { s.time with servo := st, holdDue := none } := by
  unfold servoUnlock
  dsimp only
  split
  · exact ((raiseFault_keeps _ _ _).time rfl).trans (timeEvent_time _ 2)
  · rfl

/-- LOCKED comes after enough offsets in a row. -/
theorem servoLock_time (s : State) :
    (servoLock s).time = { s.time with
      servo := if s.time.servo = .tracking ∧ getN s P.TIME_LOCK_COUNT 0 ≤ s.time.n then .locked
        else s.time.servo } := by
  unfold servoLock
  simp only [Bool.and_eq_true, decide_eq_true_eq]
  split
  · exact ((causeGone_keeps _ _ _).time rfl).trans (timeEvent_time _ 1)
  · rfl

/-- Leaving a state adds flags to `TIME_EVENT` and clears none. -/
theorem bit_servoUnlock {s : State} {b : Nat} (st : Servo) (h : bit (getN s P.TIME_EVENT 0) b = true) :
    bit (getN (servoUnlock s st) P.TIME_EVENT 0) b = true := by
  unfold servoUnlock
  dsimp only
  split
  · rw [(raiseFault_keeps _ _ _).getN P.TIME_EVENT 0 rfl rfl, getN_timeEvent]
    exact bit_orP_of_bit h
  · exact h

/-! ### A step of device time (R321) -/

/-- The servo after a step: TRACKING with a count of 0, no holdover. -/
theorem timeSet_time (s : State) :
    (timeSet s).time = { s.time with servo := .tracking, holdDue := none, n := 0 } := by
  unfold timeSet
  dsimp only
  rw [(reelStep_keeps _).time rfl, updTime_time, servoUnlock_time, timeEvent_time]

/-- A step sets STEPPED. -/
theorem bit_timeSet (s : State) : bit (getN (timeSet s) P.TIME_EVENT 0) 0 = true := by
  unfold timeSet
  dsimp only
  rw [(reelStep_keeps _).getN P.TIME_EVENT 0 rfl rfl, (updTime_keeps _ _).getN P.TIME_EVENT 0 rfl rfl]
  refine bit_servoUnlock _ ?_
  rw [getN_timeEvent]
  exact bit_orP s P.TIME_EVENT 0 (by decide)

theorem stepTo_time (s : State) (d : Nat) :
    (stepTo s d).time = { s.time with stepTo := some d, stepBy := 0, servo := .tracking, holdDue := none, n := 0 } :=
  timeSet_time _

theorem stepBy_time (s : State) (d : Int) :
    (stepBy s d).time = { s.time with
      stepBy := s.time.stepBy + d, stepFree := s.freeCtr, servo := .tracking, holdDue := none, n := 0 } :=
  timeSet_time _

/-! ### Device time in the next tick (R317, R321) -/

/-- A time that the seconds register holds is the one that comes. -/
theorem nextDev_of_fits {s : State} {d : Nat}
    (he : ((s.time.stepTo.getD (s.time.dev + tickUnits s) : Nat) : Int) + s.time.stepBy = d)
    (hd : d < 2 ^ 48 * secUnit) : nextDev s = d := by
  unfold nextDev
  dsimp only
  rw [he, if_pos ⟨Int.natCast_nonneg d, by exact_mod_cast hd⟩, Int.toNat_natCast]

/-- Where a step waits, device time takes the stepped time in the next tick. -/
theorem clockAfter_dev_step {s : State} (h : stepWaits s.time = true) : (clockAfter s 1).dev = nextDev s := by
  unfold clockAfter
  simp [h]

/-- With or without a step, the time that comes is the running one, or the set one, and what is added. -/
theorem clockAfter_dev_of_fits {s : State} {d : Nat}
    (he : ((s.time.stepTo.getD (s.time.dev + tickUnits s) : Nat) : Int) + s.time.stepBy = d)
    (hd : d < 2 ^ 48 * secUnit) : (clockAfter s 1).dev = d := by
  cases hw : stepWaits s.time with
  | true => rw [clockAfter_dev_step hw, nextDev_of_fits he hd]
  | false =>
    rw [clockAfter_dev hw]
    unfold stepWaits at hw
    simp only [Bool.or_eq_false_iff, Option.isSome_eq_false_iff, Option.isNone_iff_eq_none, bne_eq_false_iff_eq] at hw
    obtain ⟨ht, hb⟩ := hw
    rw [ht, hb, Option.getD_none, Int.add_zero] at he
    exact_mod_cast he

/-- The same as time passes by one tick. -/
theorem dev_next_of_fits {s : State} {d : Nat} (hc : clockOn s = true)
    (he : ((s.time.stepTo.getD (s.time.dev + tickUnits s) : Nat) : Int) + s.time.stepBy = d)
    (hd : d < 2 ^ 48 * secUnit) : (advanceTo s (s.tick + 1)).time.dev = d := by
  rw [idle_time, if_pos hc]
  exact clockAfter_dev_of_fits he hd

/-- Passing time leaves the servo's integrator and bound as they are. -/
theorem advanceTo_integ_maxOff (s : State) (t : Nat) :
    (advanceTo s t).time.integ = s.time.integ ∧ (advanceTo s t).time.maxOff = s.time.maxOff := by
  rcases Nat.lt_or_ge s.tick t with h | h
  · rw [advanceTo_time h, clockAfter_frame]
    constructor <;> dsimp only <;> split <;> rfl
  · unfold advanceTo
    rw [if_pos h]
    exact ⟨rfl, rfl⟩

/-! ### The servo's update (R320) -/

/-- The integrator after an offset. -/
def integAfter (s : State) (o : Int) : Int :=
  clampInt (s.time.integ + asr ((getN s P.TIME_KI 0 : Int) * o) 4) (-rateMax s) (rateMax s)

/-- The clock after an update; a clamped RATE sets its flag only. -/
theorem servoUpdate_time (s : State) (o : Int) :
    (servoUpdate s o).time = { s.time with
      integ := integAfter s o, maxOff := rateMax s
      rate := clampInt (-(asr ((getN s P.TIME_KP 0 : Int) * o) 4 + integAfter s o)) (-rateMax s) (rateMax s) } := by
  unfold servoUpdate
  dsimp only
  split
  · rfl
  · exact timeEvent_time _ 3

/-- Where an offset does not keep LOCKED, the count decides anew. -/
theorem servoRelock_time (s : State) :
    (servoLock (servoUnlock s .tracking)).time = { s.time with
      servo := if getN s P.TIME_LOCK_COUNT 0 ≤ s.time.n then .locked else .tracking, holdDue := none } := by
  rw [servoLock_time, servoUnlock_time, (servoUnlock_keeps s .tracking).getN P.TIME_LOCK_COUNT 0 rfl rfl]
  simp only [true_and]

/-- The number of offsets in a row within the bound, after one that is or is not. -/
def lockRun (s : State) (good : Bool) : Nat :=
  if good then (if s.time.servo = .holdover then 1 else s.time.n + 1) else 0

/-- The servo's state after an offset. -/
def servoAfter (s : State) (good : Bool) : Servo :=
  if (s.time.servo = .locked ∧ good = true) ∨ getN s P.TIME_LOCK_COUNT 0 ≤ lockRun s good then .locked else .tracking

/-- The state once an offset is counted and the servo's state follows, before the holdover is set anew. -/
def offsetCounted (s : State) (good : Bool) : State :=
  let u := updTime s (fun t => { t with n := lockRun s good })
  if s.time.servo = .locked && good then u else servoLock (servoUnlock u .tracking)

theorem servoFollow_eq {s : State} {o : Int} {good : Bool}
    (hg : good = decide (o.natAbs ≤ 16 * getN s P.TIME_LOCK_LIMIT 0)) :
    servoFollow s o = updTime (offsetCounted s good) (fun t => { t with
      holdDue := if t.servo = .locked && getN (offsetCounted s good) P.TIME_HOLDOVER 0 != 0
        then some ((offsetCounted s good).tick + 200000 * getN (offsetCounted s good) P.TIME_HOLDOVER 0)
        else none }) := by
  rw [hg]
  rfl

/-- Within the bound a LOCKED servo stays so. -/
theorem offsetCounted_stays {s : State} {good : Bool} (h : s.time.servo = .locked ∧ good = true) :
    offsetCounted s good = updTime s (fun t => { t with n := lockRun s good }) :=
  if_pos (by simp [h])

/-- Otherwise it leaves LOCKED, unless the count brings it back. -/
theorem offsetCounted_relocks {s : State} {good : Bool} (h : ¬(s.time.servo = .locked ∧ good = true)) :
    offsetCounted s good
      = servoLock (servoUnlock (updTime s (fun t => { t with n := lockRun s good })) .tracking) :=
  if_neg (by simpa using h)

/-- Counting an offset changes neither the tick nor the parameter that the holdover is set by. -/
theorem offsetCounted_frame (s : State) (good : Bool) : (offsetCounted s good).tick = s.tick
    ∧ getN (offsetCounted s good) P.TIME_HOLDOVER 0 = getN s P.TIME_HOLDOVER 0 := by
  by_cases h : s.time.servo = .locked ∧ good = true
  · rw [offsetCounted_stays h]
    exact ⟨rfl, rfl⟩
  · rw [offsetCounted_relocks h, (servoLock_keeps _).tick rfl, (servoUnlock_keeps _ _).tick rfl,
      (servoLock_keeps _).getN P.TIME_HOLDOVER 0 rfl rfl, (servoUnlock_keeps _ _).getN P.TIME_HOLDOVER 0 rfl rfl]
    exact ⟨rfl, rfl⟩

/-- A servo that stays LOCKED keeps its holdover for now; else the count decides. -/
theorem offsetCounted_time (s : State) (good : Bool) :
    (offsetCounted s good).time = { s.time with
      n := lockRun s good, servo := servoAfter s good
      holdDue := if s.time.servo = .locked ∧ good = true then s.time.holdDue else none } := by
  unfold servoAfter
  by_cases h : s.time.servo = .locked ∧ good = true
  · rw [offsetCounted_stays h, if_pos h, if_pos (.inl h), updTime_time, ← h.1]
  · rw [offsetCounted_relocks h, if_neg h, servoRelock_time, if_congr (or_iff_right h) rfl rfl]
    rfl

/-- The clock after an offset's count and state. -/
theorem servoFollow_time {s : State} {o : Int} {good : Bool}
    (hg : good = decide (o.natAbs ≤ 16 * getN s P.TIME_LOCK_LIMIT 0)) :
    (servoFollow s o).time = { s.time with
      n := lockRun s good, servo := servoAfter s good
      holdDue := if servoAfter s good = .locked ∧ getN s P.TIME_HOLDOVER 0 ≠ 0
        then some (s.tick + 200000 * getN s P.TIME_HOLDOVER 0) else none } := by
  obtain ⟨ht, hh⟩ := offsetCounted_frame s good
  rw [servoFollow_eq hg, updTime_time, offsetCounted_time, ht, hh]
  simp only [Bool.and_eq_true, decide_eq_true_eq, bne_iff_ne]

/-! ### The commands -/

/-- The time read is that of the state the packet found. -/
theorem timeReadBody_arrived (c : Cmd) (s : State) :
    timeReadBody c (arrived s c) = .ok 0 [BitVec.ofNat 32 (devSec s),
      BitVec.ofNat 32 (devSec s / 4294967296 % 65536), BitVec.ofNat 32 (devNs s)] (arrived s c) := by
  unfold timeReadBody devSec devNs
  rw [(arrived_keeps s c).time rfl]

theorem timeStepBody_sets {c : Cmd} {s : State} (h : pw c 2 < 1000000000) :
    timeStepBody c s = .ok 0 [] (stepTo s ((pw c 0 + 4294967296 * pw c 1) * secUnit + pw c 2 * nsUnit)) := by
  unfold timeStepBody
  rw [decide_eq_false (Nat.not_le.mpr h)]
  rfl

theorem timeStepBody_range {c : Cmd} {s : State} (h : 1000000000 ≤ pw c 2) :
    timeStepBody c s = .err ⟨St.range, 0x8002, pw c 2⟩ := by
  unfold timeStepBody
  rw [decide_eq_true h]
  rfl

/-- The offset is kept, then steps device time or updates the servo, as its size against the limit says. -/
theorem timeOffsetBody_eq {c : Cmd} {s u : State} {o : Int} (ho : o = signedOf 64 (pw c 0 + 4294967296 * pw c 1))
    (hu : u = updTime (put64 s P.TIME_LAST_OFFSET 0 (BitVec.ofNat 32 (pw c 0)) (BitVec.ofNat 32 (pw c 1)))
      (fun t => { t with lastOff := o })) :
    timeOffsetBody c s =
      if getN s P.TIME_STEP_LIMIT 0 ≠ 0 ∧ 16 * getN s P.TIME_STEP_LIMIT 0 < o.natAbs
      then .ok 0 [] (stepBy u (-(o * 2 ^ 36))) else .ok 0 [] (servoFollow (servoUpdate u o) o) := by
  have hl : getN u P.TIME_STEP_LIMIT 0 = getN s P.TIME_STEP_LIMIT 0 := by
    rw [hu, (updTime_keeps _ _).getN P.TIME_STEP_LIMIT 0 rfl rfl,
      (put64_keeps _ _ _ _ _).getN P.TIME_STEP_LIMIT 0 rfl rfl]
  rw [← hl, hu, ho]
  rfl

/-! ### The holdover's end (R322) -/

theorem exec_timeHoldoverExpiry_due {s : State} {d : Nat} (h : s.time.holdDue = some d) :
    exec .timeHoldoverExpiry s = whenClocked s (ends (updTime (servoUnlock (advanceTo s d) .holdover)
      (fun t => { t with rate := clampInt (-t.integ) (-t.maxOff) t.maxOff }))) := by
  show execTimeHoldoverExpiry s = _
  simp only [execTimeHoldoverExpiry, h]

theorem exec_timeHoldoverExpiry_none {s : State} (h : s.time.holdDue = none) :
    exec .timeHoldoverExpiry s = whenClocked s (ends s) := by
  show execTimeHoldoverExpiry s = _
  simp only [execTimeHoldoverExpiry, h]

/-- What the reel's look leaves of the clock. -/
theorem Seen.time {u t : State} (h : Seen u t) : t.time = u.time := h.1.time rfl

/-- Settles O53: the commands by their bodies' equations, a step and the servo by the clock each leaves, the holdover by
whether one is due. -/
theorem timeCommands : Obligations.TimeCommands := by
  refine ⟨fun c s h => exec_ok h (timeReadBody_arrived c s),
    fun c s h => ⟨fun hn => exec_ok h (timeStepBody_sets hn), fun hn => exec_err h (timeStepBody_range hn)⟩, rfl,
    fun c s o u h ho hu => ?_, fun s w => ⟨?_, ?_, ?_⟩, fun s hc => ⟨fun d ht hb hd => ?_, fun e ht he h0 hm => ?_⟩,
    ?_, ?_, fun s hc => ⟨fun d hd => ?_, fun hd => seen_of_clocked hc (exec_timeHoldoverExpiry_none hd) rfl⟩⟩
  · have hb := timeOffsetBody_eq ho hu
    rw [getN_arrived] at hb
    exact ⟨fun h0 hl => exec_ok h (hb.trans (if_pos ⟨h0, hl⟩)),
      fun hl => exec_ok h (hb.trans (if_neg fun k => hl.elim k.1 (Nat.not_le.mpr k.2)))⟩
  · rintro d rfl
    rw [stepTo_time]
    exact ⟨rfl, rfl⟩
  · rintro b rfl
    rw [stepBy_time]
    exact ⟨rfl, rfl⟩
  · rintro (⟨d, rfl⟩ | ⟨b, rfl⟩)
    · rw [stepTo_time]
      exact ⟨rfl, rfl, rfl, rfl, rfl, bit_timeSet _⟩
    · rw [stepBy_time]
      exact ⟨rfl, rfl, rfl, rfl, rfl, bit_timeSet _⟩
  · exact dev_next_of_fits hc (by rw [ht, hb, Option.getD_some, Int.add_zero]) hd
  · lift e to Nat using h0
    exact congrArg Nat.cast (dev_next_of_fits hc (by rw [ht, Option.getD_none, he]) (by exact_mod_cast hm))
  · rintro s o _ rfl
    rw [servoUpdate_time]
    exact ⟨rfl, rfl, rfl, rfl, rfl⟩
  · rintro s o _ good rfl hg
    rw [servoFollow_time hg]
    exact ⟨rfl, rfl, rfl, rfl⟩
  · obtain ⟨t, ht, hseen⟩ := seen_of_clocked hc (exec_timeHoldoverExpiry_due hd) rfl
    refine ⟨t, _, ht, rfl, hseen, ?_⟩
    obtain ⟨hi, hm⟩ := advanceTo_integ_maxOff s d
    rw [hseen.time, updTime_time, servoUnlock_time, hi, hm]
    exact ⟨rfl, rfl, rfl⟩

end Sys2Proof.Machine
end

section
/-! SUPPORT. The commands of the converters: calibration, injected sequences, the input path test, and how each ends
(R339, R344 to R348, R357). -/

namespace Sys2Proof.Machine

/-! ### What a reply leaves of the measurement block -/

/-- A reply leaves the measurement block as it is. -/
theorem Replied.meas {op status detail : Nat} {p : List Word} {c : Cmd} {u t : State}
    (h : Replied op status detail p c u t) : t.meas = u.meas := h.2.1.meas rfl

/-- What the reel's look leaves of the measurement block. -/
theorem Seen.meas {u t : State} (h : Seen u t) : t.meas = u.meas := h.1.meas rfl

/-! ### `ADC_CAL_ZERO` and `ADC_CAL_FULL` (R345) -/

theorem adcCalBody_started {c : Cmd} {s : State} (op : Nat) (full : Bool) (h : calErr s (pw c 0) = none) :
    adcCalBody op full c s
      = .accepted (startOp s op (pw c 0) c []) (fun v => calBegin v (pw c 0) full) := by
  rw [adcCalBody, h, Res.check_none]

theorem adcCalBody_conflict {c : Cmd} {s : State} {e : CmdErr} (op : Nat) (full : Bool)
    (h : calErr s (pw c 0) = some e) : adcCalBody op full c s = .err e := by
  rw [adcCalBody, h, Res.check_some]

/-! ### The end of a calibration (R344) -/

section
variable {a : Fin 2} {s : State} {m d g z : Int}

theorem exec_adcCalZeroDone_unmade (h : calMean s a false = none) :
    exec (.adcCalZeroDone a) s = whenClocked s (ends s) := by
  show execAdcCalZeroDone a s = _
  simp only [execAdcCalZeroDone, h]

/-- A mean gives the offset Z, which its bound holds or refuses. -/
theorem exec_adcCalZeroDone_made (h : calMean s a false = some m) (hz : z = m - getN s P.ADC_CAL_ZREF a) :
    exec (.adcCalZeroDone a) s = whenClocked s
      (ends (calEnd s a 0x50 4 P.ADC_CAL_Z m z (if 4096 < z.natAbs then some z else none))) := by
  show execAdcCalZeroDone a s = _
  simp only [execAdcCalZeroDone, h, hz]

theorem exec_adcCalFullDone_unmade (h : calMean s a true = none) :
    exec (.adcCalFullDone a) s = whenClocked s (ends s) := by
  show execAdcCalFullDone a s = _
  simp only [execAdcCalFullDone, h]

/-- A mean above zero's gives the gain, which its bounds hold or refuse. -/
theorem exec_adcCalFullDone_above (h : calMean s a true = some m)
    (hd : d = m - getI s P.ADC_CAL_Z a - getN s P.ADC_CAL_ZREF a) (h0 : 0 < d)
    (hg : g = roundHalfAway (16384 * ((getN s P.ADC_CAL_FREF a : Int) - getN s P.ADC_CAL_ZREF a : Int) / (d : Rat))) :
    exec (.adcCalFullDone a) s = whenClocked s
      (ends (calEnd s a 0x51 8 P.ADC_CAL_G m g (if g < 12288 ∨ 20480 < g then some g else none))) := by
  show execAdcCalFullDone a s = _
  simp only [execAdcCalFullDone, h, ← hd, ← hg, Int.not_le.mpr h0, if_false, false_or]

/-- A mean not above zero's gives no gain. -/
theorem exec_adcCalFullDone_notAbove (h : calMean s a true = some m)
    (hd : m - getI s P.ADC_CAL_Z a - getN s P.ADC_CAL_ZREF a ≤ 0) :
    exec (.adcCalFullDone a) s = whenClocked s (ends (calEnd s a 0x51 8 P.ADC_CAL_G m 0 (some 0))) := by
  show execAdcCalFullDone a s = _
  simp only [execAdcCalFullDone, h, hd, if_true, true_or]

end

/-! ### `ADC_INJECT` (R339) -/

section
variable {c : Cmd} {s : State} {a q : Nat}

theorem adcInjectBody_range (h : 8 ≤ field (pw c 0) 7 4) :
    adcInjectBody c s = .err ⟨St.range, 0x8000, pw c 0⟩ := by
  rw [adcInjectBody, decide_eq_true h, errIf_true, firstErr_some_cons, Res.check_some]

/-- Without an error of its number the sequence's EN and DELAY decide. -/
theorem adcInjectBody_defined (ha : a = pw c 0 % 2) (hq : q = field (pw c 0) 7 4) (h : q < 8) :
    adcInjectBody c s = Res.check (errIf (!bit (getN s P.ADC_INJ_CFG (8 * a + q)) 26) St.state 3 (diagKind 7 q))
      (if getN s P.ADC_INJ_DELAY (8 * a + q) = 0 then
        .ok (b2n (injTrigger s a q s.tick none).2) [] (injTrigger s a q s.tick none).1
      else .later (updAdc s a (fun x => { x with
        trigs := x.trigs ++ [⟨s.tick + getN s P.ADC_INJ_DELAY (8 * a + q), q, none, some c⟩] }))) := by
  subst ha hq
  rw [adcInjectBody, decide_eq_false (Nat.not_le.mpr h), errIf_false, firstErr_none_cons, firstErr_singleton]

theorem adcInjectBody_disabled (ha : a = pw c 0 % 2) (hq : q = field (pw c 0) 7 4) (h : q < 8)
    (he : bit (getN s P.ADC_INJ_CFG (8 * a + q)) 26 = false) :
    adcInjectBody c s = .err ⟨St.state, 3, diagKind 7 q⟩ := by
  rw [adcInjectBody_defined ha hq h, he, Bool.not_false, errIf_true, Res.check_some]

theorem adcInjectBody_now (ha : a = pw c 0 % 2) (hq : q = field (pw c 0) 7 4) (h : q < 8)
    (he : bit (getN s P.ADC_INJ_CFG (8 * a + q)) 26 = true) (hd : getN s P.ADC_INJ_DELAY (8 * a + q) = 0) :
    adcInjectBody c s
      = .ok (b2n (injTrigger s a q s.tick none).2) [] (injTrigger s a q s.tick none).1 := by
  rw [adcInjectBody_defined ha hq h, he, Bool.not_true, errIf_false, Res.check_none, if_pos hd]

theorem adcInjectBody_delayed (ha : a = pw c 0 % 2) (hq : q = field (pw c 0) 7 4) (h : q < 8)
    (he : bit (getN s P.ADC_INJ_CFG (8 * a + q)) 26 = true) (hd : getN s P.ADC_INJ_DELAY (8 * a + q) ≠ 0) :
    adcInjectBody c s = .later (updAdc s a (fun x => { x with
      trigs := x.trigs ++ [⟨s.tick + getN s P.ADC_INJ_DELAY (8 * a + q), q, none, some c⟩] })) := by
  rw [adcInjectBody_defined ha hq h, he, Bool.not_true, errIf_false, Res.check_none, if_neg hd]

end

/-! ### The path test (R347, R348, R356) -/

theorem setWord_ptStart (s : State) (t : Nat) (w : Word) : setWord s P.ADC_PT_START t w = ptStart s w.toNat := by
  rw [setWord_wo s t w (by decide)]
  simp [writeAct]

/-- The test that starts is of the converter and the input written. -/
theorem ptStart_pt (s : State) (v : Nat) :
    (ptStart s v).meas.pt.map (fun p => (p.adc, p.chan)) = some (field v 8 8, field v 4 0) := rfl

/-- The path test has ended and its result is held. -/
def ptClosed (s : State) (p : PathTest) (ratio : Int) (ok : Bool) : State :=
  putN (updMeas s (fun m => { m with pt := none })) P.ADC_PT_RESULT p.chan (bitsOf 16 ratio + 65536 * b2n ok + 2 ^ 17)

/-- The verdict of a path test that has ended sets or ends its fault's cause. -/
def ptJudge (s : State) (p : PathTest) (ok : Bool) : State :=
  if ok then causeGone s F.ADC_PATH_TEST p.chan else raiseFault s F.ADC_PATH_TEST p.chan

/-- The verdict leaves the measurement block as it is. -/
theorem ptJudge_meas (s : State) (p : PathTest) (ok : Bool) : (ptJudge s p ok).meas = s.meas := by
  unfold ptJudge
  split
  · exact (causeGone_keeps _ _ _).meas rfl
  · exact (raiseFault_keeps _ _ _).meas rfl

theorem exec_pathTestDone_made {s : State} {p : PathTest} {ratio : Int} {ok : Bool} (hp : s.meas.pt = some p)
    (h2 : p.second = true) (hn : p.n = 16)
    (hr : ratio = sat16 (roundHalfAway (128 * ((p.s2 : Rat) - p.s1) / ((p.l2 : Rat) - p.l1))))
    (hok : ok = decide ((ratio - getN s P.ADC_PT_EXPECT p.chan).natAbs ≤ getN s P.ADC_PT_TOL p.chan)) :
    exec .pathTestDone s = whenClocked s (ends (ptJudge (ptClosed s p ratio ok) p ok)) := by
  show execPathTestDone s = _
  simp only [execPathTestDone, hp, h2, hn, beq_self_eq_true, Bool.and_true, if_true, ← hr, ← hok]
  rfl

theorem exec_pathTestDone_unmade {s : State} (h : ∀ p, s.meas.pt = some p → p.second = false ∨ p.n ≠ 16) :
    exec .pathTestDone s = whenClocked s (ends s) := by
  show execPathTestDone s = _
  cases hp : s.meas.pt with
  | none => simp only [execPathTestDone, hp]
  | some p =>
    have hc : (p.second && p.n == 16) = false := by
      rcases h p hp with h | h <;> simp [h]
    simp only [execPathTestDone, hp, hc, Bool.false_eq_true, if_false]

/-- Settles O37: the commands by their bodies' cases, the ends by whether their conversions are made and the result lies
within its bounds. -/
theorem adcCommands : Obligations.AdcCommands := by
  refine ⟨fun c s h he => exec_started h (adcCalBody_started 0x50 false he),
    fun c s e h he => exec_err h (adcCalBody_conflict 0x50 false he),
    fun c s h he => exec_started h (adcCalBody_started 0x51 true he),
    fun c s e h he => exec_err h (adcCalBody_conflict 0x51 true he),
    fun a s m z hc hm hz => ?_, fun a s m d g hc hm hd h0 hg => ?_,
    fun a s m hc hm hd => seen_of_clocked hc (exec_adcCalFullDone_notAbove hm hd) rfl,
    fun a s hc => ⟨fun h => seen_of_clocked hc (exec_adcCalZeroDone_unmade h) rfl,
      fun h => seen_of_clocked hc (exec_adcCalFullDone_unmade h) rfl⟩,
    fun c s a q h ha hq => ?_, fun c s e h he => exec_param_err (by decide) h he, fun c s h => ?_,
    fun s p ratio ok hc hp h2 hn hr hok => ?_,
    fun s hc h => seen_of_clocked hc (exec_pathTestDone_unmade h) rfl⟩
  · have he := exec_adcCalZeroDone_made hm hz
    exact ⟨fun hin => seen_of_clocked hc he (by rw [if_neg (Nat.not_lt.mpr hin)]),
      fun hout => seen_of_clocked hc he (by rw [if_pos hout])⟩
  · have he := exec_adcCalFullDone_above hm hd h0 hg
    exact ⟨fun hlo hhi => seen_of_clocked hc he (by rw [if_neg (by omega)]),
      fun hout => seen_of_clocked hc he (by rw [if_pos hout])⟩
  · rw [← getN_arrived s c P.ADC_INJ_CFG, ← getN_arrived s c P.ADC_INJ_DELAY, ← tick_arrived s c]
    refine ⟨fun h8 => ?_, fun h8 he => ?_, fun h8 he hd => ?_, fun h8 he hd => ?_⟩
    · exact exec_err (e := ⟨St.range, 0x8000, pw c 0⟩) h (adcInjectBody_range (hq ▸ h8))
    · exact exec_err (e := ⟨St.state, 3, diagKind 7 q⟩) h (adcInjectBody_disabled ha hq h8 he)
    · exact exec_ok h (adcInjectBody_now ha hq h8 he hd)
    · exact exec_later h (adcInjectBody_delayed ha hq h8 he hd)
  · obtain ⟨t, ht, hdone⟩ := exec_rowDone (by decide) h
    rw [setWord_ptStart] at hdone
    refine ⟨t, ht, hdone, ?_⟩
    rw [Replied.meas hdone]
    exact ptStart_pt _ _
  · obtain ⟨t, ht, hseen⟩ := seen_of_clocked hc (exec_pathTestDone_made hp h2 hn hr hok) rfl
    refine ⟨t, ptClosed s p ratio ok, ht, rfl, hseen, ?_⟩
    rw [hseen.meas, ptJudge_meas]
    rfl

end Sys2Proof.Machine
end

section
/-! SUPPORT. Triggers that wait for their delay, and the ends of conversions (R331, R333 to R336, R340, R347, R415). -/

namespace Sys2Proof.Machine

/-! ### Triggers (R333, R334, R339) -/

section
variable {a : Fin 2} {q : Fin 9} {s : State}

theorem exec_adcSequenceTrigger_none (h : (adcOf s a).trigs.find? (fun x => x.seq == q.val) = none) :
    exec (.adcSequenceTrigger a q) s = whenClocked s (ends s) := by
  show execAdcSequenceTrigger a q s = _
  simp only [execAdcSequenceTrigger, h]

/-- A trigger taken from the list as its delay passes. -/
def trigTaken (s : State) (a : Nat) (g : AdcTrig) : State :=
  updAdc (advanceTo s g.due) a (fun x => { x with trigs := x.trigs.erase g })

theorem exec_adcSequenceTrigger_due {g : AdcTrig}
    (h : (adcOf s a).trigs.find? (fun x => x.seq == q.val) = some g) :
    exec (.adcSequenceTrigger a q) s = whenClocked s (ends
      (if q.val < 8 then injReply g.cmd (injTrigger (trigTaken s a g) a q g.due g.mark).2
          (injTrigger (trigTaken s a g) a q g.due g.mark).1
        else regTrigger (trigTaken s a g) a g.mark)) := by
  show execAdcSequenceTrigger a q s = _
  simp only [execAdcSequenceTrigger, h]
  rfl

end

/-! ### Conversions (R331, R340, R347, R415) -/

section
variable {a : Fin 2} {raw : BitVec 16} {s : State}

/-- The state 100 ticks after a conversion's start at `b`, the converter free again (R331). -/
def convOver (w : State) (a b : Nat) : State := updAdc (advanceTo w (b + 100)) a (fun x => { x with conv := none })

/-- What the belay takes of a code (R415): ADC-B's, but for a calibration's. -/
def convBelay (u : State) (a : Nat) (k : ConvKind) (ch raw : Nat) : State :=
  match k with
  | .cal => u
  | _ => if a = 1 then fdcResult u ch raw else u

theorem convBelay_eq (u : State) (a : Nat) (k : ConvKind) (ch raw : Nat) :
    convBelay u a k ch raw = if a = 1 ∧ k ≠ .cal then fdcResult u ch raw else u := by
  cases k <;> simp [convBelay]

/-- A code goes to what its conversion serves. -/
def convServe (v : State) (a : Nat) (k : ConvKind) (ch raw : Nat) : State :=
  match k with
  | .regular => regConverted v a ch raw
  | .injected q => injConverted v a q ch raw
  | .cal => updAdc v a (fun x => { x with cal := x.cal.map (fun c => { c with n := c.n + 1, sum := c.sum + raw }) })
  | .path => pathConverted v raw

theorem exec_adcConversionEnd_idle (h : (adcOf (convWake s a) a).conv = none) :
    exec (.adcConversionEnd a raw) s = whenClocked s (ends (convWake s a)) := by
  show execAdcConversionEnd a raw s = _
  simp only [execAdcConversionEnd, h]

theorem exec_adcConversionEnd_made {k : ConvKind} {ch b : Nat}
    (h : (adcOf (convWake s a) a).conv = some (k, ch, b)) :
    exec (.adcConversionEnd a raw) s = whenClocked s (ends (adcKick
      (convServe (convBelay (convOver (convWake s a) a b) a k ch raw.toNat) a k ch raw.toNat) a)) := by
  show execAdcConversionEnd a raw s = _
  simp only [execAdcConversionEnd, h]
  cases k <;> rfl

end

/-- A converter that converts, or that no path test uses, has not started a conversion meanwhile. -/
theorem convWake_stays {s : State} {a : Nat}
    (h : (adcOf s a).conv ≠ none ∨ (∀ p, s.meas.pt = some p → p.adc ≠ a)) : convWake s a = s := by
  unfold convWake
  split
  · next p hc hp => exact if_pos (h.resolve_left (not_not_intro hc) p hp)
  · rfl

/-- Settles O38: a trigger by whether one waits, a conversion by whether one is under way. -/
theorem adcEvents : Obligations.AdcEvents := by
  refine ⟨fun a q s g hc h => ?_, fun a q s hc h => seen_of_clocked hc (exec_adcSequenceTrigger_none h) rfl,
    ?_, fun s a => convWake_stays⟩
  · obtain ⟨t, ht, hseen⟩ := seen_of_clocked hc (exec_adcSequenceTrigger_due h) rfl
    refine ⟨t, trigTaken s a g, ht, rfl, ?_⟩
    unfold injReply at hseen
    exact hseen
  · rintro a raw s _ hc rfl
    refine ⟨fun k ch b h => ?_, fun h => seen_of_clocked hc (exec_adcConversionEnd_idle h) rfl⟩
    obtain ⟨t, ht, hseen⟩ := seen_of_clocked hc (exec_adcConversionEnd_made h) rfl
    exact ⟨t, _, _, ht, rfl, convBelay_eq _ a k ch raw.toNat, hseen⟩

end Sys2Proof.Machine
end

section
/-! SUPPORT. The decimator: `DEC_SYNC`, `DEC_CFG`, its slots, a stuck bitstream and `DSYNC` (R350, R351, R353, R355,
R358). -/

namespace Sys2Proof.Machine

/-! ### `DEC_CFG` (R353) -/

theorem setWord_decCfg (s : State) (t : Nat) (w : Word) :
    setWord s P.DEC_CFG t w = tallyTouch (decCfgSet (putP s P.DEC_CFG t w) t) P.DEC_CFG := by
  rw [setWord_rw s t w (by decide)]
  simp [afterSet]

/-- That the digests are due anew changes no decimator channel. -/
theorem decOf_tallyTouch (s : State) (id n : Nat) : decOf (tallyTouch s id) n = decOf s n := by
  unfold decOf
  rw [(tallyTouch_keeps s id).meas rfl]

theorem Replied.decOf {op status detail : Nat} {p : List Word} {c : Cmd} {u t : State}
    (h : Replied op status detail p c u t) (n : Nat) : decOf t n = decOf u n := by
  unfold Machine.decOf
  rw [h.meas]

theorem Seen.decOf {u t : State} (h : Seen u t) (n : Nat) : decOf t n = decOf u n := by
  unfold Machine.decOf
  rw [h.meas]

/-- A restart forgets the channel's samples, outputs and filter state; it starts from the tick given. -/
theorem decOf_decRestart (s : State) (n base : Nat) :
    (decOf (decRestart s n base) n).samples = 0 ∧ (decOf (decRestart s n base) n).outs = 0
      ∧ (decOf (decRestart s n base) n).taps = [] ∧ (decOf (decRestart s n base) n).from_ = base := by
  unfold decRestart
  rw [decOf_updDec]
  exact ⟨rfl, rfl, rfl, rfl⟩

/-- A packet's arrival moves neither the time nor the input grid. -/
theorem gridBack_rowFrom (id : Nat) (c : Cmd) (s : State) : gridBack (rowFrom id c s) = gridBack s := by
  unfold gridBack
  rw [(rowFrom_keeps id c s).tick rfl, (rowFrom_keeps id c s).meas rfl]

/-- A write of `DEC_CFG` reads back the value and restarts its channel on the grid. -/
theorem setWord_decCfg_channel (s : State) (n : Nat) (w : Word) :
    getP (setWord s P.DEC_CFG n w) P.DEC_CFG n = w ∧ (decOf (setWord s P.DEC_CFG n w) n).samples = 0
      ∧ (decOf (setWord s P.DEC_CFG n w) n).outs = 0 ∧ (decOf (setWord s P.DEC_CFG n w) n).taps = []
      ∧ (decOf (setWord s P.DEC_CFG n w) n).from_ = gridBack s := by
  rw [setWord_decCfg, decOf_tallyTouch]
  refine ⟨?_, decOf_decRestart _ _ _⟩
  rw [(tallyTouch_keeps _ _).param P.DEC_CFG n rfl rfl, (decCfgSet_keeps _ _).param P.DEC_CFG n rfl rfl,
    getP_putP_same]

/-! ### Slots (R350, R351) -/

/-- A bit of a slot: the filter takes it, then the run of equal bits is checked (R355). -/
def slotBit (n : Nat) (s : State) (b : Bool) : State := stuckCheck (decBit s n b) n (decOf (decBit s n b) n).run

theorem exec_decSlot_enabled {n : Fin 16} {bits : List Bool} {s : State} (h : bit (getN s P.DEC_CFG n) 0 = true) :
    exec (.decSlot n bits) s = whenClocked s (ends (bits.foldl (slotBit n) (advanceTo s
      (slotEnd s n ((decOf s n).from_ + 10 * ((decOf s n).samples + bits.length)))))) := by
  show execDecSlot n bits s = _
  simp only [execDecSlot, h, if_true]
  rfl

theorem exec_decSlot_disabled {n : Fin 16} {bits : List Bool} {s : State} (h : bit (getN s P.DEC_CFG n) 0 = false) :
    exec (.decSlot n bits) s = whenClocked s (ends s) := by
  show execDecSlot n bits s = _
  simp only [execDecSlot, h, Bool.false_eq_true, if_false]

/-! ### A stuck bitstream (R355) -/

/-- A run of the limit or more of a channel not yet found stuck raises the fault. -/
theorem stuckCheck_eq (s : State) (n run : Nat) :
    stuckCheck s n run = if getN s P.DEC_STUCK_LIMIT 0 ≠ 0 ∧ getN s P.DEC_STUCK_LIMIT 0 ≤ run
        ∧ (decOf s n).stuck = false then
      raiseFault (updDec s n (fun x => { x with stuck := true, stuckAt := (s.tick - x.from_) / 10 })) F.DEC_STUCK n
    else s := by
  simp only [stuckCheck, Bool.and_eq_true, bne_iff_ne, decide_eq_true_eq, Bool.not_eq_true', and_assoc]

/-- A fault raised leaves the decimator channels as they are. -/
theorem decOf_raiseFault (s : State) (code inst n : Nat) : decOf (raiseFault s code inst) n = decOf s n := by
  unfold decOf
  rw [(raiseFault_keeps s code inst).meas rfl]

theorem exec_decStuck (n : Fin 16) (s : State) :
    exec (.decStuck n) s
      = whenClocked s (ends (if bit (getN s P.DEC_CFG n) 0 then stuckCheck s n (stuckRun s n) else s)) := rfl

/-! ### `DSYNC` (R353) -/

/-- A restart of every channel moves the grid's origin to its tick. -/
theorem grid_decSyncAt (s : State) (t : Nat) : (decSyncAt s t).meas.grid = t := by
  unfold decSyncAt
  exact Inv.foldl (Q := fun x => x.meas.grid = t) rfl fun _ _ hx => hx

/-- The next input sample: an origin still to come, else the first tick of the grid from now on. -/
def dsyncOrigin (s : State) : Nat :=
  if s.tick ≤ s.meas.grid then s.meas.grid else s.tick + (10 - (s.tick - s.meas.grid) % 10) % 10

/-- The tick to which the falling edge moves the origin. -/
theorem dsyncOrigin_eq (s : State) :
    (if s.tick ≤ s.meas.grid then s.meas.grid
      else if (s.tick - s.meas.grid) % 10 = 0 then s.tick else gridBack s + 10) = dsyncOrigin s := by
  unfold dsyncOrigin gridBack
  split
  · rfl
  · next h =>
    rw [if_neg (fun hlt => h (Nat.le_of_lt hlt))]
    split <;> omega

theorem exec_dsyncFall_counts {s : State} (h : bit (getN s P.DEC_CTRL 0) 0 = true) :
    exec .dsyncFall s = whenClocked s (ends (incP (decSyncAt s (dsyncOrigin s)) P.DEC_SYNC_COUNT 0)) := by
  show execDsyncFall s = _
  simp only [execDsyncFall, h, if_true, dsyncOrigin_eq]

theorem exec_dsyncFall_off {s : State} (h : bit (getN s P.DEC_CTRL 0) 0 = false) :
    exec .dsyncFall s = whenClocked s (ends s) := by
  show execDsyncFall s = _
  simp only [execDsyncFall, h, Bool.false_eq_true, if_false]

/-- Settles O39: the write by the channel it restarts, the events by whether the channel is enabled, its run has reached
the limit, or `DSYNC` counts. -/
theorem decimation : Obligations.Decimation := by
  refine ⟨fun c s h => ?_, fun c s h => ?_, fun n bits s hc h => seen_of_clocked hc (exec_decSlot_enabled h) rfl,
    fun n bits s hc h => seen_of_clocked hc (exec_decSlot_disabled h) rfl, fun n s hc he h0 hl hs => ?_,
    fun n s hc h => ?_, stuckCheck_eq, ?_, fun s hc h => seen_of_clocked hc (exec_dsyncFall_off h) rfl⟩
  · obtain ⟨t, ht, hdone⟩ := exec_ok (body := decSyncBody) h rfl
    exact ⟨t, ht, hdone, by rw [hdone.meas]; rfl⟩
  · obtain ⟨t, ht, hdone⟩ := exec_rowDone (by decide) h
    obtain ⟨hw, hsamples, houts, htaps, hfrom⟩ := setWord_decCfg_channel (rowFrom P.DEC_CFG c s) (tgt c)
      (c.payload.getD 0 0)
    rw [← setWord_decCfg]
    refine ⟨t, ht, hdone, (hdone.getP _ _ rfl).trans hw, ?_⟩
    rw [Replied.decOf hdone]
    exact ⟨hsamples, houts, htaps, hfrom.trans (gridBack_rowFrom _ _ _)⟩
  · obtain ⟨t, ht, hseen⟩ := seen_of_clocked hc (exec_decStuck n s)
      ((if_pos he).trans ((stuckCheck_eq _ _ _).trans (if_pos ⟨h0, hl, hs⟩)))
    refine ⟨t, ht, hseen, ?_⟩
    rw [hseen.decOf, decOf_raiseFault, decOf_updDec]
  · refine seen_of_clocked hc (exec_decStuck n s) ?_
    by_cases he : bit (getN s P.DEC_CFG n) 0 = true
    · rw [if_pos he, stuckCheck_eq, if_neg]
      rintro ⟨h0, hl, hs⟩
      rcases h with h | h | h | h
      · exact absurd he (by simp [h])
      · exact h0 h
      · exact absurd h (by simp [hs])
      · exact absurd hl (Nat.not_le.mpr h)
    · exact if_neg he
  · rintro s _ hc h rfl
    obtain ⟨t, ht, hseen⟩ := seen_of_clocked hc (exec_dsyncFall_counts h) rfl
    refine ⟨t, ht, hseen, ?_⟩
    rw [hseen.meas, (incP_keeps _ _ _).meas rfl, grid_decSyncAt]
    rfl

end Sys2Proof.Machine
end

section
/-! SUPPORT. `HOME_START`, `HOME_ABORT` and the end of a homing (R360, R367, R368, R370, R452). -/

namespace Sys2Proof.Machine

/-! ### What the checks read of a state whose packet has arrived -/

theorem encOf_arrived (s : State) (c : Cmd) (n : Nat) : encOf (arrived s c) n = encOf s n := by
  unfold encOf
  rw [(arrived_keeps s c).encs rfl]

theorem encFlag_arrived (s : State) (c : Cmd) (n b : Nat) : encFlag (arrived s c) n b = encFlag s n b :=
  congrArg (bit · b) (getN_arrived s c P.ENC_STATUS n)

theorem encOn_arrived (s : State) (c : Cmd) (n : Nat) : encOn (arrived s c) n = encOn s n :=
  congrArg (bit · 0) (getN_arrived s c P.ENC_MODE n)

theorem homing_arrived (s : State) (c : Cmd) (n : Nat) : homing (arrived s c) n = homing s n := by
  unfold homing
  rw [encOf_arrived]

theorem homeSearching_arrived (s : State) (c : Cmd) (n : Nat) : homeSearching (arrived s c) n = homeSearching s n := by
  unfold homeSearching
  rw [encOf_arrived]

/-! ### `HOME_START` (R367, R452) -/

/-- The generator that homes the axis. -/
def homeGen (c : Cmd) (s : State) : Nat := field (getN s P.ENC_HOME_CFG (tgt c)) 1 0

/-- Whether the limit in the search direction has tripped. -/
def homeTripped (c : Cmd) (s : State) : Bool := encFlag s (tgt c) (if bit (pw c 0) 0 then 3 else 2)

/-- The start of the search, with what the axis' parameters and its limits said at the command. -/
def homeBegin (c : Cmd) (s v : State) : State :=
  let w := causeGone (syncGen v (homeGen c s)) F.HOME_LIMIT (tgt c)
  let d := if homeTripped c s then !bit (pw c 0) 0 else bit (pw c 0) 0
  homeMove (updEnc (updGen w (homeGen c s) (fun x =>
      { genFrom x ⟨encP w (tgt c), 0, 0⟩ w.tick [] with homing := some (tgt c) })) (tgt c) (fun x =>
      { x with
        hState := .search, hNeg := d, hRev := homeTripped c s, hGen := homeGen c s
        hIndex := bit (getN s P.ENC_HOME_CFG (tgt c)) 2, hStart := w.tick, hEnd := .none, hShift := 0
        hTurn := decide (getN s P.ENC_HOME_REVERSE (tgt c) = 1), hVel := getN s P.ENC_HOME_VEL (tgt c)
        hAcc := getN s P.ENC_HOME_ACC (tgt c), hJerk := getN s P.ENC_HOME_JERK (tgt c) }))
    (tgt c) d

theorem homeGen_arrived (c : Cmd) (s : State) : homeGen c (arrived s c) = homeGen c s :=
  congrArg (field · 1 0) (getN_arrived s c P.ENC_HOME_CFG (tgt c))

theorem homeTripped_arrived (c : Cmd) (s : State) : homeTripped c (arrived s c) = homeTripped c s :=
  encFlag_arrived s c _ _

theorem homeBegin_arrived (c : Cmd) (s v : State) : homeBegin c (arrived s c) v = homeBegin c s v := by
  unfold homeBegin
  simp only [getN_arrived, homeGen_arrived, homeTripped_arrived]

theorem homeStartBody_eq (c : Cmd) (s : State) :
    homeStartBody c s = Res.check
      (firstErr [standbyErr s, busyErr (opRun? s 0x60 (tgt c)),
        errIf (!encOn s (tgt c)) St.state 3 (diagKind 7 (tgt c)),
        errIf (homeTripped c s && !decide (getN s P.ENC_HOME_REVERSE (tgt c) = 1)) St.state 3 (diagKind 7 (tgt c)),
        errIf (!genIdle (genSync 10 (genOf s (homeGen c s)) s.tick).1) St.conflict 3 (homeGen c s),
        genClaimed s (homeGen c s)])
      (.accepted (startOp s 0x60 (tgt c) c []) (homeBegin c s)) := by
  unfold homeStartBody homeTripped homeGen
  refine congrArg (Res.check _ <| .accepted _ ·) ?_
  funext v
  unfold homeBegin homeTripped homeGen
  rfl

section
variable {c : Cmd} {s : State}

theorem homeStartBody_standby (h : s.dup.role = .standby) : homeStartBody c s = .err ⟨St.state, 5, 0⟩ := by
  rw [homeStartBody_eq, standbyErr_some h, firstErr_some_cons, Res.check_some]

variable (hr : s.dup.role ≠ .standby)
include hr

theorem homeStartBody_running {o : LongOp} (ho : opRun? s 0x60 (tgt c) = some o) :
    homeStartBody c s = .err (heldBy o.tag.toNat) := by
  rw [homeStartBody_eq, standbyErr_none hr, ho]
  rfl

variable (ho : opRun? s 0x60 (tgt c) = none)
include ho

theorem homeStartBody_notReady (h : encOn s (tgt c) = false
      ∨ (homeTripped c s = true ∧ getN s P.ENC_HOME_REVERSE (tgt c) ≠ 1)) :
    homeStartBody c s = .err (notReady 7 (tgt c)) := by
  rw [homeStartBody_eq, standbyErr_none hr, ho]
  cases he : encOn s (tgt c) with
  | false => rfl
  | true =>
    obtain ⟨ht, hv⟩ := h.resolve_left (by simp [he])
    rw [ht, decide_eq_false hv]
    rfl

/-- An axis that may be homed: the generator decides. -/
theorem homeStartBody_ready (he : encOn s (tgt c) = true)
    (ht : homeTripped c s = false ∨ getN s P.ENC_HOME_REVERSE (tgt c) = 1) :
    homeStartBody c s = Res.check
      (firstErr [errIf (!genIdle (genSync 10 (genOf s (homeGen c s)) s.tick).1) St.conflict 3 (homeGen c s),
        genClaimed s (homeGen c s)])
      (.accepted (startOp s 0x60 (tgt c) c []) (homeBegin c s)) := by
  have hl : (homeTripped c s && !decide (getN s P.ENC_HOME_REVERSE (tgt c) = 1)) = false := by
    rcases ht with ht | ht <;> simp [ht]
  rw [homeStartBody_eq, standbyErr_none hr, ho, he, hl]
  rfl

end

/-! ### `HOME_ABORT` (R370) -/

section
variable {c : Cmd} {s : State}

theorem homeAbortBody_none (h : homing s (tgt c) = false) : homeAbortBody c s = .err (noSuch (tgt c)) := by
  simp only [homeAbortBody, h]
  rfl

theorem homeAbortBody_homing (h : homing s (tgt c) = true) :
    homeAbortBody c s = .ok 0 [] (if homeSearching s (tgt c) then homeStop s (tgt c) .aborted else s) := by
  simp only [homeAbortBody, h]
  rfl

end

theorem homing_of_searching {s : State} {n : Nat} (h : homeSearching s n = true) : homing s n = true := by
  unfold homeSearching at h
  unfold homing
  cases hs : (encOf s n).hState <;> simp_all

/-- A homing that is stopped waits for its generator to come to rest (R368). -/
theorem hState_homeStop (s : State) (n : Nat) (e : HomeEnd) : (encOf (homeStop s n e) n).hState = .stopping := by
  unfold homeStop
  rw [encOf_updEnc]

/-- A reply leaves the axes as they are. -/
theorem Replied.encOf {op status detail : Nat} {p : List Word} {c : Cmd} {u t : State}
    (h : Replied op status detail p c u t) (n : Nat) : encOf t n = encOf u n := by
  unfold Machine.encOf
  rw [h.2.1.encs rfl]

theorem Seen.encOf {u t : State} (h : Seen u t) (n : Nat) : encOf t n = encOf u n := by
  unfold Machine.encOf
  rw [h.1.encs rfl]

/-! ### The end of a homing (R360, R370) -/

/-- A stored bit of `ENC_STATUS` reads as it was set. -/
theorem encFlag_setEncFlag {b : Nat} (s : State) (n : Nat) (x : Bool) (hb : b < 32) :
    encFlag (setEncFlag s n b x) n b = x := by
  unfold setEncFlag
  split
  · assumption
  · next h =>
    unfold encFlag putN getN at *
    rw [getP_putP_same, BitVec.toNat_ofNat, bit_eq_testBit, Nat.testBit_mod_two_pow, Nat.testBit_xor,
      Nat.testBit_two_pow_self, decide_eq_true hb]
    rw [bit_eq_testBit] at h
    cases x <;> simp_all

/-- The axis is idle and its generator free; the operation's completion is still to come. -/
def homeFreed (s : State) (n : Nat) : State :=
  updEnc (setEncFlag (updGen s (encOf s n).hGen (fun g => { g with homing := none })) n 1 false) n
    (fun x => { x with hState := .idle })

/-- The completion of the operation changes neither the axis nor its flags. -/
theorem homeFinish_freed (s : State) (n : Nat) :
    Keeps [.ops, .host] [P.HOST_IRQ_CAUSE] (homeFreed s n) (homeFinish s n) := by
  unfold homeFinish
  dsimp only
  change Keeps _ _ (homeFreed s n) (match opRun? (homeFreed s n) 0x60 n with | none => homeFreed s n | some o => _)
  split
  · exact .refl _
  · split
    · exact completeOk_keeps _ _ _
    · exact completeErr_keeps _ _ _
    · exact completeErr_keeps _ _ _

theorem hState_homeFinish (s : State) (n : Nat) : (encOf (homeFinish s n) n).hState = .idle := by
  unfold encOf
  rw [(homeFinish_freed s n).encs rfl]
  exact congrArg EncAxis.hState (encOf_updEnc _ n _)

theorem uncertain_homeFinish (s : State) (n : Nat) : encFlag (homeFinish s n) n 1 = false := by
  unfold encFlag
  rw [(homeFinish_freed s n).getN P.ENC_STATUS n rfl rfl]
  exact encFlag_setEncFlag (b := 1) _ n false (by decide)

/-- Time has come to the rest of a stopping homing's generator, which is brought up to it. -/
def homeRest (s : State) (n : Nat) : State :=
  syncGen (if (genOf s (encOf s n).hGen).stopping then advanceTo s (genEnd (genOf s (encOf s n).hGen)).ceil.toNat
    else s) (encOf s n).hGen

theorem exec_homingDone_stopping {n : Fin 2} {s : State} (h : (encOf s n).hState = .stopping) :
    exec (.homingDone n) s = whenClocked s (ends
      (if (genOf (homeRest s n) (encOf (homeRest s n) n).hGen).cur.isNone then homeFinish (homeRest s n) n
        else homeRest s n)) := by
  have k : encOf (if (genOf s (encOf s n).hGen).stopping
      then advanceTo s (genEnd (genOf s (encOf s n).hGen)).ceil.toNat else s) n = encOf s n := by
    unfold encOf
    rw [(Keeps.ite (advanceTo_keeps s _) (.refl s)).encs rfl]
  show execHomingDone n s = _
  simp only [execHomingDone, h, if_true, k]
  rfl

theorem exec_homingDone_other {n : Fin 2} {s : State} (h : (encOf s n).hState ≠ .stopping) :
    exec (.homingDone n) s = whenClocked s (ends s) := by
  show execHomingDone n s = _
  simp only [execHomingDone, h, if_false]

/-- Settles O40: `HOME_START` by the first check that fails on the state its packet found, `HOME_ABORT` by the homing's
state, the end by whether the generator is at rest. -/
theorem homingRows : Obligations.Homing := by
  refine ⟨?_, fun c s h => ⟨fun hn => ?_, fun hs => ?_, fun hm hs => ?_⟩, ?_, fun n s hc h =>
    seen_of_clocked hc (exec_homingDone_other h) rfl⟩
  · rintro c s _ _ _ h rfl rfl rfl
    refine ⟨fun hr => ?_, fun o hr ho => ?_, fun hr ho hx => ?_, fun hr ho he ht => ?_⟩
    · exact exec_err (e := ⟨St.state, 5, 0⟩) h (homeStartBody_standby ((role_arrived s c).trans hr))
    · exact exec_err (e := heldBy _) h
        (homeStartBody_running (notStandby_arrived c hr) ((opRun?_arrived s c _ _).trans ho))
    · exact exec_err (e := notReady 7 _) h (homeStartBody_notReady (notStandby_arrived c hr)
        ((opRun?_arrived s c _ _).trans ho) (by rwa [encOn_arrived, homeTripped_arrived, getN_arrived]))
    · have ready := homeStartBody_ready (notStandby_arrived c hr) ((opRun?_arrived s c _ _).trans ho)
        ((encOn_arrived s c _).trans he) (by rwa [homeTripped_arrived, getN_arrived])
      rw [genOf_arrived, tick_arrived, homeGen_arrived] at ready
      refine ⟨fun hi => ?_, fun n o hi hn hb => ?_, fun hi hn => ?_⟩
      · exact exec_err (e := ⟨St.conflict, 3, _⟩) h (ready.trans (by rw [homeGen, hi]; rfl))
      · exact exec_err (e := heldBy _) h (ready.trans (by
          rw [homeGen, hi, genClaimed_arrived_some c hn hb]; rfl))
      · obtain ⟨t, ht, hacc⟩ := exec_started h (ready.trans (by rw [homeGen, hi, genClaimed_arrived_none c hn]; rfl))
        refine ⟨t, _, ht, hacc, ?_⟩
        rintro v _ _ rfl rfl
        exact homeBegin_arrived c s v
  · exact exec_err (e := noSuch _) h (homeAbortBody_none ((homing_arrived s c _).trans hn))
  · obtain ⟨t, ht, hd⟩ := exec_ok h (homeAbortBody_homing ((homing_arrived s c _).trans (homing_of_searching hs)))
    rw [homeSearching_arrived, hs, if_pos rfl] at hd
    exact ⟨t, ht, hd, by rw [hd.encOf]; exact hState_homeStop _ _ _⟩
  · obtain ⟨t, ht, hd⟩ := exec_ok h (homeAbortBody_homing ((homing_arrived s c _).trans hm))
    rw [homeSearching_arrived, hs] at hd
    exact ⟨t, ht, hd⟩
  · rintro n s _ hc h rfl
    have hex := exec_homingDone_stopping h
    refine ⟨fun hn => ?_, fun hn => ?_⟩
    · obtain ⟨t, ht, hseen⟩ := seen_of_clocked hc hex (if_pos (Option.isNone_iff_eq_none.mpr hn))
      refine ⟨t, ht, hseen, by rw [hseen.encOf]; exact hState_homeFinish _ _, ?_⟩
      unfold encFlag
      rw [hseen.getN P.ENC_STATUS n rfl]
      exact uncertain_homeFinish _ _
    · exact seen_of_clocked hc hex (if_neg (mt Option.isNone_iff_eq_none.mp hn))

end Sys2Proof.Machine
end

section
/-! SUPPORT. Presets, latches, transitions, windows, limits and HOME of an axis (R359 to R372). -/

namespace Sys2Proof.Machine

/-! ### `ENC_PRESET` (R372) -/

theorem setWord_encPreset (s : State) (t : Nat) (w : Word) :
    setWord s P.ENC_PRESET t w = encPresetSet s t w.toInt := by
  rw [setWord_wo s t w (by decide)]
  simp [writeAct]

/-- The homing of the axis is the first check that can refuse a preset: every word is in its range. -/
theorem setErr_encPreset {s : State} {t : Nat} {w : Word} {e : CmdErr} (h : busyErr (opRun? s 0x60 t) = some e) :
    setErr s P.ENC_PRESET t w = some e := by
  have hd : paramDef? P.ENC_PRESET = some ⟨P.ENC_PRESET, false, 32, .wo, 2, 0, true, .full, false, 0⟩ := by decide
  have hs : specialErr s P.ENC_PRESET t w = some e := (show _ = busyErr (opRun? s 0x60 t) from rfl).trans h
  rw [setErr_value s t w hd (by decide) (.inr rfl), setErr.valueErr, rangeErr_in (widthOk_signed32 w rfl rfl) rfl, hs]
  rfl

/-! ### `ENC_LATCH_CFG` (R365) -/

/-- Arming forgets the last capture. -/
theorem afterSet_encLatchCfg (s : State) (t : Nat) (old : Word) :
    afterSet s P.ENC_LATCH_CFG t old
      = if bit (getN s P.ENC_LATCH_CFG t) 0 then updEnc s t (fun x => { x with latchAt := none }) else s := by
  unfold afterSet
  rfl

theorem setWord_encLatchCfg (s : State) (t : Nat) (w : Word) :
    setWord s P.ENC_LATCH_CFG t w = tallyTouch (if bit w.toNat 0
      then updEnc (putP s P.ENC_LATCH_CFG t w) t (fun x => { x with latchAt := none })
      else putP s P.ENC_LATCH_CFG t w) P.ENC_LATCH_CFG := by
  rw [setWord_rw s t w (by decide), afterSet_encLatchCfg, getN, getP_putP_same]

theorem getP_setWord_encLatchCfg (s : State) (t : Nat) (w : Word) :
    getP (setWord s P.ENC_LATCH_CFG t w) P.ENC_LATCH_CFG t = w := by
  rw [setWord_encLatchCfg, (tallyTouch_keeps _ _).param P.ENC_LATCH_CFG t rfl rfl,
    (Keeps.ite (updEnc_keeps _ _ _) (.refl _)).param P.ENC_LATCH_CFG t rfl rfl, getP_putP_same]

/-! ### A transition (R359 to R363) -/

/-- What a sample of the levels of A and B counts: the state after it, and whether the sample is an index. -/
def encCounted (s : State) (n : Nat) (a b : Bool) : State × Bool :=
  if !encOn s n then (updEnc s n (fun x => { x with a := a, b := b }), false)
  else if encMode s n 1 then encTooth s n a b
  else encQuad s n a b

section
variable {s : State} {n : Nat} {a b : Bool}

theorem encCounted_disabled (h : encOn s n = false) :
    encCounted s n a b = (updEnc s n (fun x => { x with a := a, b := b }), false) := by
  simp [encCounted, h]

theorem encCounted_quad (h : encOn s n = true) (hm : encMode s n 1 = false) :
    encCounted s n a b = encQuad s n a b := by
  simp [encCounted, h, hm]

theorem encCounted_tooth (h : encOn s n = true) (hm : encMode s n 1 = true) :
    encCounted s n a b = encTooth s n a b := by
  simp [encCounted, h, hm]

end

/-! ### The illegal window (R360, R371) -/

/-- The axis as time reaches the window's end. -/
def illEnd (s : State) (n : Nat) : State := advanceTo s ((encOf s n).illFrom + 200000)

theorem exec_encIllegalWindowEnd_running {n : Fin 2} {s : State} (h : s.per.running = true) :
    exec (.encIllegalWindowEnd n) s = whenClocked s (ends (updEnc
      (if (encOf (illEnd s n) n).illRun ≤ getN (illEnd s n) P.ENC_ILLEGAL_MAX n
        then causeGone (illEnd s n) F.ENC_ILLEGAL n else illEnd s n) n
      (fun x => { x with illRun := 0, illHit := false, illFrom := x.illFrom + 200000 }))) := by
  show execEncIllegalWindowEnd n s = _
  simp only [execEncIllegalWindowEnd, h, if_true]
  rfl

theorem exec_encIllegalWindowEnd_stopped {n : Fin 2} {s : State} (h : s.per.running = false) :
    exec (.encIllegalWindowEnd n) s = whenClocked s (ends s) := by
  show execEncIllegalWindowEnd n s = _
  simp only [execEncIllegalWindowEnd, h, Bool.false_eq_true, if_false]

/-! ### The limit and HOME inputs (R359, R366, R368) -/

theorem exec_encLimitTrip (n : Fin 2) (neg : Bool) (held : Nat) (s : State) :
    exec (.encLimitTrip n neg held) s = whenClocked s (ends
      (if 20000 * getN s P.ENC_LIM_DEBOUNCE n ≤ held then limReleases (limActive s n neg) n else s)) := rfl

theorem exec_encLimitInactive (n : Fin 2) (neg : Bool) (held : Nat) (s : State) :
    exec (.encLimitInactive n neg held) s = whenClocked s (ends
      (if 20000 * getN s P.ENC_LIM_DEBOUNCE n ≤ held then limInactive s n neg else s)) := rfl

theorem exec_encHomeActive (n : Fin 2) (held : Nat) (s : State) :
    exec (.encHomeActive n held) s = whenClocked s (ends
      (if getN s P.ENC_FILTER n ≤ held
        then limReleases (encLevels (homeLatch s n true) n (encOf s n).z true) n else s)) := rfl

/-- Settles O41: the writes by what follows their words, a transition by the axis' mode, the window's end by whether a
period runs, an input by whether it has held for its time. -/
theorem encoder : Obligations.Encoder := by
  refine ⟨fun c s h => ?_, fun c s o h ho => ?_, fun c s h => ?_, ?_, fun n s hc h => ?_,
    fun n s hc h => seen_of_clocked hc (exec_encIllegalWindowEnd_stopped h) rfl,
    fun n neg held s hc => ⟨fun h => ⟨?_, ?_⟩, fun h => ⟨?_, ?_⟩, fun h => ?_, fun h => ?_⟩⟩
  · rw [← setWord_encPreset]
    exact exec_rowDone (by decide) h
  · exact exec_param_err (e := heldBy _) (by decide) h
      (setErr_encPreset (by rw [rowFrom, opRun?_arrived, ho]; rfl))
  · obtain ⟨t, ht, hd⟩ := exec_rowDone (by decide) h
    refine ⟨t, _, ht, rfl, ?_, (hd.getP _ _ rfl).trans (getP_setWord_encLatchCfg _ _ _)⟩
    rwa [← setWord_encLatchCfg]
  · rintro n as bs zs homes _ a b z home s hc rfl rfl rfl rfl rfl
    obtain ⟨t, ht, hseen⟩ := seen_of_clocked hc (i := .encTransition n as bs zs homes) rfl rfl
    exact ⟨t, encCounted s n _ _, _, _, ht, encCounted_disabled, encCounted_quad, encCounted_tooth, rfl, rfl, hseen⟩
  · obtain ⟨t, ht, hseen⟩ := seen_of_clocked hc (exec_encIllegalWindowEnd_running h) rfl
    exact ⟨t, _, ht, rfl, hseen, by rw [hseen.encOf, encOf_updEnc]⟩
  · exact seen_of_clocked hc (exec_encLimitTrip n neg held s) (if_pos h)
  · exact seen_of_clocked hc (exec_encLimitInactive n neg held s) (if_pos h)
  · exact seen_of_clocked hc (exec_encLimitTrip n neg held s) (if_neg (Nat.not_le.mpr h))
  · exact seen_of_clocked hc (exec_encLimitInactive n neg held s) (if_neg (Nat.not_le.mpr h))
  · exact seen_of_clocked hc (exec_encHomeActive n held s) (if_pos h)
  · exact seen_of_clocked hc (exec_encHomeActive n held s) (if_neg (Nat.not_le.mpr h))

end Sys2Proof.Machine
end

section
/-! SUPPORT. `CHOP_MODE`, `CHOP_FORCE`, the tick in which they act, and `CMP_SELFTEST` (R378 to R381, R386, R388). -/

namespace Sys2Proof.Machine

/-! ### Frames of a leg -/

theorem legOf_arrived (s : State) (c : Cmd) (n : Nat) : legOf (arrived s c) n = legOf s n := by
  unfold legOf
  rw [(arrived_keeps s c).chop rfl]

theorem legOf_putP (s : State) (id k n : Nat) (w : Word) : legOf (putP s id k w) n = legOf s n := by
  unfold legOf
  rw [(putP_keeps s id k w).chop rfl]

theorem legOf_tallyTouch (s : State) (id n : Nat) : legOf (tallyTouch s id) n = legOf s n := by
  unfold legOf
  rw [(tallyTouch_keeps s id).chop rfl]

theorem Replied.legOf {op status detail : Nat} {p : List Word} {c : Cmd} {u t : State}
    (h : Replied op status detail p c u t) (n : Nat) : legOf t n = legOf u n := by
  unfold Machine.legOf
  rw [h.chop]

theorem Seen.legOf {u t : State} (h : Seen u t) (n : Nat) : legOf t n = legOf u n := by
  unfold Machine.legOf
  rw [h.1.chop rfl]

/-! ### The writes of `CHOP_MODE` and `CHOP_FORCE` (R378, R379, R396) -/

theorem setWord_chopMode (s : State) (t : Nat) (w : Word) :
    setWord s P.CHOP_MODE t w = tallyTouch (chopModeSet (putP s P.CHOP_MODE t w) t) P.CHOP_MODE := by
  rw [setWord_rw s t w (by decide)]
  simp [afterSet]

theorem setWord_chopForce (s : State) (t : Nat) (w : Word) :
    setWord s P.CHOP_FORCE t w = tallyTouch (chopForceSet (putP s P.CHOP_FORCE t w) t) P.CHOP_FORCE := by
  rw [setWord_rw s t w (by decide)]
  simp [afterSet]

theorem chopModeSet_params (s : State) (n : Nat) : (chopModeSet s n).params = s.params := by
  unfold chopModeSet
  dsimp only
  split <;> rfl

theorem getP_setWord_chopMode (s : State) (t : Nat) (w : Word) :
    getP (setWord s P.CHOP_MODE t w) P.CHOP_MODE t = w := by
  rw [setWord_chopMode, (tallyTouch_keeps _ _).param P.CHOP_MODE t rfl rfl, getP, chopModeSet_params]
  exact getP_putP_same s P.CHOP_MODE t w

theorem getP_setWord_chopForce (s : State) (t : Nat) (w : Word) :
    getP (setWord s P.CHOP_FORCE t w) P.CHOP_FORCE t = w := by
  rw [setWord_chopForce, (tallyTouch_keeps _ _).param P.CHOP_FORCE t rfl rfl]
  exact getP_putP_same s P.CHOP_FORCE t w

section
variable {s : State} {t : Nat} {w : Word}

theorem chopModeSet_off (h : field (getN s P.CHOP_MODE t) 2 0 = 0) :
    chopModeSet s t = updLeg (updLeg s t (fun l => { l with driven := true })) t
      (fun l => { l with dueAt := some (s.tick + 1, true), waitMark := false }) :=
  if_pos h

theorem chopModeSet_on (h : field (getN s P.CHOP_MODE t) 2 0 ≠ 0) :
    chopModeSet s t = updLeg (updLeg s t (fun l => { l with driven := true })) t (fun l =>
      let l := { l with dueAt := l.dueAt.filter (fun d => !d.2) }
      if l.st = .off then { l with waitMark := bit (getN s P.CHOP_MODE t) 3, startAt := s.tick + 1, running := false }
      else l) :=
  if_neg h

/-- Mode 0 is due in the next tick. -/
theorem dueAt_setWord_chopMode (h : field w.toNat 2 0 = 0) :
    (legOf (setWord s P.CHOP_MODE t w) t).dueAt = some (s.tick + 1, true) := by
  rw [setWord_chopMode, legOf_tallyTouch, chopModeSet_off (by rwa [getN, getP_putP_same]), legOf_updLeg]
  rfl

/-- Another mode schedules the first cycle of a leg in OFF. -/
theorem startAt_setWord_chopMode (h : field w.toNat 2 0 ≠ 0) (ho : (legOf s t).st = .off) :
    (legOf (setWord s P.CHOP_MODE t w) t).waitMark = bit w.toNat 3
      ∧ (legOf (setWord s P.CHOP_MODE t w) t).startAt = s.tick + 1 := by
  rw [setWord_chopMode, legOf_tallyTouch, chopModeSet_on (by rwa [getN, getP_putP_same]), legOf_updLeg, legOf_updLeg,
    legOf_putP]
  dsimp only
  rw [if_pos ho, getN, getP_putP_same]
  exact ⟨rfl, rfl⟩

/-- The force word is due in the next tick. -/
theorem dueAt_setWord_chopForce (h : (legOf s t).dueAt = none) :
    (legOf (setWord s P.CHOP_FORCE t w) t).dueAt = some (s.tick + 1, false) := by
  rw [setWord_chopForce, legOf_tallyTouch, chopForceSet, legOf_updLeg, legOf_putP, h]
  rfl

end

/-! ### The checks of `CHOP_MODE` (R380) -/

theorem busyErr_eq (o : Option LongOp) : busyErr o = o.map (fun o => heldBy o.tag.toNat) := rfl

/-- The first check of `CHOP_MODE` that fails, of a state whose packet has arrived. -/
theorem chopModeErr_arrived (s : State) (c : Cmd) (n v : Nat) :
    chopModeErr (arrived s c) n v = firstErr
      [ errIf (decide (4 < field v 2 0)) St.range P.CHOP_MODE v,
        errIf (field v 2 0 == 4 && debMask s != 0) St.state 2 (debMask s),
        errIf (switching (field v 2 0) && (legOf s n).stDone && !(legOf s n).stPass) St.state 3 (diagKind 7 n),
        errIf (field v 5 4 != field (getN s P.CHOP_MODE n) 5 4 && (legOf s n).st != .off) St.conflict 3 n,
        (opRun? s 0x62 n).map (fun o => heldBy o.tag.toNat) ] := by
  have hd : (if field v 2 0 = 4 then deblockedErr s else none)
      = errIf (field v 2 0 == 4 && debMask s != 0) St.state 2 (debMask s) := by
    by_cases hm : field v 2 0 = 4
    · rw [if_pos hm, hm]
      rfl
    · rw [if_neg hm, beq_false_of_ne hm]
      rfl
  simp only [chopModeErr, legOf_arrived, getN_arrived, opRun?_arrived, deblockedErr_arrived, hd, busyErr_eq]

/-- A word without reserved bits is checked by the rules of R380 (it has no group and is not stop-only). -/
theorem setErr_chopMode {s : State} {t : Nat} {w : Word} {e : CmdErr} (hw : w.toNat < 64)
    (h : chopModeErr s t w.toNat = some e) : setErr s P.CHOP_MODE t w = some e := by
  have hd : paramDef? P.CHOP_MODE = some ⟨P.CHOP_MODE, false, 8, .rw, 4, 0, false, .mask 0x3F, false, 0⟩ := by decide
  have hs : specialErr s P.CHOP_MODE t w = some e := (show _ = chopModeErr s t w.toNat from rfl).trans h
  have hwide : widthOk ⟨P.CHOP_MODE, false, 8, .rw, 4, 0, false, .mask 0x3F, false, 0⟩ w = true :=
    decide_eq_true (Nat.lt_trans hw (by decide))
  have hin : inRange ⟨P.CHOP_MODE, false, 8, .rw, 4, 0, false, .mask 0x3F, false, 0⟩ w = true :=
    beq_iff_eq.mpr ((Nat.and_two_pow_sub_one_eq_mod w.toNat 6).trans (Nat.mod_eq_of_lt hw))
  rw [setErr_value s t w hd (by decide) (.inl rfl), setErr.valueErr, rangeErr_in hwide hin, hs]
  rfl

/-! ### The tick in which a write acts (R378, R381) -/

/-- A leg waits for the tick of a write, so every leg is looked at as time passes. -/
theorem advanceTo_legs_due {s : State} {u : Nat} (hu : s.tick < u) (h : ∃ p ∈ s.chop.legs, p.2.dueAt ≠ none) :
    (advanceTo s u).chop.legs = tabMap Leg.empty (fun n l => legDue u (getN s P.CHOP_FORCE n) l) s.chop.legs := by
  obtain ⟨p, hp, hdue⟩ := h
  have hall : ¬ s.chop.legs.all (fun p => p.2.dueAt.isNone) = true := fun hx =>
    hdue (Option.isNone_iff_eq_none.mp (List.all_eq_true.mp hx p hp))
  unfold advanceTo legsDue
  rw [if_neg (Nat.not_le.mpr hu)]
  dsimp only
  rw [if_neg hall]

section
variable {l : Leg} {t f u : Nat}

theorem legGhOff_gh (u : Nat) (l : Leg) : (legGhOff u l).gh = false := by
  unfold legGhOff
  dsimp only
  split
  · rfl
  · next h => exact Bool.not_eq_true _ ▸ h

theorem legGlOff_gl (u : Nat) (l : Leg) : (legGlOff u l).gl = false := by
  unfold legGlOff
  split
  · rfl
  · next h => exact Bool.not_eq_true _ ▸ h

theorem legGlOff_gh (u : Nat) (l : Leg) : (legGlOff u l).gh = l.gh := by
  unfold legGlOff
  split <;> rfl

theorem legGlOff_st (u : Nat) (l : Leg) : (legGlOff u l).st = l.st := by
  unfold legGlOff
  split <;> rfl

theorem legGhOff_st (u : Nat) (l : Leg) : (legGhOff u l).st = l.st := by
  unfold legGhOff
  dsimp only
  split <;> rfl

/-- Both outputs off, and no delayed turn-on left. -/
theorem legBothOff_outputs (u : Nat) (l : Leg) :
    (legBothOff u l).gh = false ∧ (legBothOff u l).gl = false ∧ (legBothOff u l).forceAt = none :=
  ⟨(legGlOff_gh u _).trans (legGhOff_gh u l), legGlOff_gl u _, rfl⟩

theorem legBothOff_st (u : Nat) (l : Leg) : (legBothOff u l).st = l.st :=
  (legGlOff_st u _).trans (legGhOff_st u l)

/-- Mode 0 turns both outputs off. -/
theorem legStop_outputs (u : Nat) (l : Leg) : (legStop u l).gh = false ∧ (legStop u l).gl = false := by
  obtain ⟨hgh, hgl, -⟩ := legBothOff_outputs u l
  unfold legStop
  dsimp only
  split <;> exact ⟨hgh, hgl⟩

/-- Mode 0 takes a leg that is not latched to OFF. -/
theorem legStop_st {u : Nat} (h : l.st ≠ .latched) : (legStop u l).st = .off := by
  unfold legStop
  exact congrArg Leg.st (if_neg (by rwa [← legBothOff_st u l] at h))

/-- The leg whose write acts: none waits any more. -/
def legWritten (l : Leg) : Leg := { l with dueAt := none }

theorem legDue_stop (h : l.dueAt = some (u, true)) (ht : u ≤ t) :
    legDue t f l = legStop u (legWritten l) := by
  unfold legDue
  rw [h]
  exact if_neg (Nat.not_lt.mpr ht)

theorem legDue_force (h : l.dueAt = some (u, false)) (ht : u ≤ t) :
    legDue t f l = legForce u f (legWritten l) := by
  unfold legDue
  rw [h]
  exact if_neg (Nat.not_lt.mpr ht)

theorem legDue_idle (h : l.dueAt = none) : legDue t f l = l := by
  unfold legDue
  rw [h]

variable (hm : l.mode = 4) (hs : l.st = .running) (ht : l.tripped = false)
include hm hs ht

theorem legForce_live : legForce u f l = match f with
    | 1 =>
      if l.gh then { l with forceAt := none }
      else if l.gl then { legGlOff u l with forceAt := some (u + l.dt, 1) }
      else { l with forceAt := some ((l.forceAt.map (fun f => f.1)).getD u, 1) }
    | 2 =>
      if l.gl then { l with forceAt := none }
      else if l.gh then { legGhOff u l with forceAt := some (u + l.dt, 2) }
      else { l with forceAt := some ((l.forceAt.map (fun f => f.1)).getD u, 2) }
    | _ => legBothOff u l :=
  if_neg (by simp [hm, hs, ht])

/-- From the low output to the high one. -/
theorem legForce_high (hgl : l.gl = true) (hgh : l.gh = false) :
    legForce u 1 l = { legGlOff u l with forceAt := some (u + l.dt, 1) } := by
  rw [legForce_live hm hs ht]
  simp [hgl, hgh]

/-- From the high output to the low one. -/
theorem legForce_low (hgh : l.gh = true) (hgl : l.gl = false) :
    legForce u 2 l = { legGhOff u l with forceAt := some (u + l.dt, 2) } := by
  rw [legForce_live hm hs ht]
  simp [hgl, hgh]

end

/-! ### `CMP_SELFTEST` (R388) -/

section
variable {c : Cmd} {s : State}

theorem cmpSelftestBody_busy {o : LongOp} (h : opRun? s 0x62 (tgt c) = some o) :
    cmpSelftestBody c s = .err (heldBy o.tag.toNat) := by
  simp only [cmpSelftestBody, h]
  rfl

theorem cmpSelftestBody_switching (h : opRun? s 0x62 (tgt c) = none) (hm : switching (legOf s (tgt c)).mode = true)
    (hs : (legOf s (tgt c)).st = .running) : cmpSelftestBody c s = .err ⟨St.state, 2, debMask s⟩ := by
  simp only [cmpSelftestBody, h, hm, hs]
  rfl

theorem cmpSelftestBody_start (h : opRun? s 0x62 (tgt c) = none)
    (hx : switching (legOf s (tgt c)).mode = false ∨ (legOf s (tgt c)).st ≠ .running) :
    cmpSelftestBody c s = .accepted
      (updLeg (startOp s 0x62 (tgt c) c []) (tgt c) (fun l => { l with stBusy := true })) id := by
  have hb : (switching (legOf s (tgt c)).mode && (legOf s (tgt c)).st == .running) = false := by
    rcases hx with hx | hx <;> simp [hx]
  simp only [cmpSelftestBody, h, hb]
  rfl

end

theorem exec_cmpSelftestDone_running {n : Fin 4} {k : BitVec 3} {s : State} {o : LongOp}
    (h : opRun? s 0x62 n = some o) :
    exec (.cmpSelftestDone n k) s = whenClocked s (ends (completeOk
      (updLeg (advanceTo s (o.start + 4 * getN s P.CHOP_SC_FILTER n)) n (fun l =>
        { l with stBusy := false, stDone := true, stPass := k == 7, stSteps := k.toNat })) o
      [BitVec.ofNat 32 (k.toNat + 8 * b2n (k == 7))])) := by
  show execCmpSelftestDone n k s = _
  simp only [execCmpSelftestDone, h]

theorem exec_cmpSelftestDone_none {n : Fin 4} {k : BitVec 3} {s : State} (h : opRun? s 0x62 n = none) :
    exec (.cmpSelftestDone n k) s = whenClocked s (ends s) := by
  show execCmpSelftestDone n k s = _
  simp only [execCmpSelftestDone, h]

/-- Settles O42: a write by what it leaves of its leg, the tick it acts in by the output that was on, the self-test by
the first check that fails and by whether one runs. -/
theorem chopperCommands : Obligations.ChopperCommands := by
  refine ⟨?_, fun c s h => ?_, fun s u hu h => advanceTo_legs_due hu h, fun l t f u x hl ht => ⟨?_, ?_⟩, ?_,
    fun c s h => ⟨fun o ho => ?_, fun ho hx => ?_, fun ho hm hs => ?_⟩, fun n k s o hc h => ?_,
    fun n k s hc h => seen_of_clocked hc (exec_cmpSelftestDone_none h) rfl⟩
  · rintro c s w h rfl
    obtain ⟨t, ht, hd⟩ := exec_rowDone (by decide) h
    have tick : (rowFrom P.CHOP_MODE c s).tick = s.tick := tick_arrived s _
    have leg : ∀ n, legOf (rowFrom P.CHOP_MODE c s) n = legOf s n := legOf_arrived s _
    rw [← setWord_chopMode]
    refine ⟨t, ht, hd, (hd.getP _ _ rfl).trans (getP_setWord_chopMode _ _ _), fun h0 => ?_, fun h0 hs => ?_⟩
    · rw [Replied.legOf hd, dueAt_setWord_chopMode h0, tick]
    · rw [Replied.legOf hd, ← tick]
      exact startAt_setWord_chopMode h0 ((congrArg Leg.st (leg _)).trans hs)
  · obtain ⟨t, ht, hd⟩ := exec_rowDone (by decide) h
    rw [← setWord_chopForce]
    refine ⟨t, ht, hd, (hd.getP _ _ rfl).trans (getP_setWord_chopForce _ _ _), fun h0 => ?_⟩
    have h1 : (legOf (rowFrom P.CHOP_FORCE c s) (tgt c)).dueAt = none :=
      (congrArg Leg.dueAt (legOf_arrived s _ _)).trans h0
    rw [Replied.legOf hd, dueAt_setWord_chopForce h1, rowFrom, tick_arrived]
  · rintro rfl
    rw [legDue_stop hl ht]
    exact ⟨(legStop_outputs u _).1, (legStop_outputs u _).2, fun hs => legStop_st hs⟩
  · rintro rfl hm hs hp
    rw [legDue_force hl ht]
    refine ⟨?_, ?_, ?_⟩
    · rintro rfl
      rw [legForce_live (l := legWritten l) hm hs hp]
      exact legBothOff_outputs u _
    · rintro rfl hgl hgh
      rw [legForce_high (l := legWritten l) hm hs hp hgl hgh]
      exact ⟨legGlOff_gl u _, rfl⟩
    · rintro rfl hgh hgl
      rw [legForce_low (l := legWritten l) hm hs hp hgh hgl]
      exact ⟨legGhOff_gh u _, rfl⟩
  · rintro c s _ _ e h rfl hv rfl he
    exact exec_param_err (by decide) h (setErr_chopMode hv ((chopModeErr_arrived s _ _ _).trans he))
  · exact exec_err (e := heldBy _) h (cmpSelftestBody_busy ((opRun?_arrived s c _ _).trans ho))
  · exact exec_started h (cmpSelftestBody_start ((opRun?_arrived s c _ _).trans ho) (by rwa [legOf_arrived]))
  · rw [← debMask_arrived s c]
    exact exec_err (e := ⟨St.state, 2, _⟩) h (cmpSelftestBody_switching ((opRun?_arrived s c _ _).trans ho)
      (by rwa [legOf_arrived]) (by rwa [legOf_arrived]))
  · obtain ⟨t, ht, hseen⟩ := seen_of_clocked hc (exec_cmpSelftestDone_running h) rfl
    refine ⟨t, ht, hseen, ?_⟩
    rw [hseen.legOf]
    unfold legOf
    rw [(completeOk_keeps _ _ _).chop rfl]
    exact congrArg Leg.stPass (legOf_updLeg _ n _)

end Sys2Proof.Machine
end

section
/-! SUPPORT. Cycle starts, commanded edges, trips and blanking of a leg (R374, R376, R379, R381, R383, R384). -/

namespace Sys2Proof.Machine

/-! ### Cycle starts (R374, R379, R384) -/

section
variable {s : State} {n : Nat}

theorem cycleAwaited_running (h : (legOf s n).running = true) : cycleAwaited s n = true := by
  simp [cycleAwaited, h]

theorem cycleDue_running (h : (legOf s n).running = true) :
    cycleDue s n = (legOf s n).startAt + (legOf s n).per := if_pos h

/-- A leg that does not run awaits a cycle start only where it is starting and waits for no mark. -/
theorem cycleAwaited_stopped (h : (legOf s n).running = false) :
    cycleAwaited s n = (chopStarting s n && !(legOf s n).waitMark) := by
  simp [cycleAwaited, h]

theorem cycleDue_starting (h : (legOf s n).running = false) (ha : cycleAwaited s n = true) :
    cycleDue s n = (legOf s n).startAt := by
  simp [cycleDue, h, ha]

end

/-- A leg's cycle start, with the restart of the source leg of its blanking in TIMER. -/
def cycleStarts (s : State) (n : Nat) (cmp : BitVec 4) : State :=
  let u := cmpLevels (cycleStart s n) cmp
  if n < 2 && (legOf u n).blankSrc == 1 && (legOf u (n + 2)).running && (legOf u (n + 2)).mode == 3
  then cycleStart u (n + 2) else u

theorem exec_chopCycleStart (n : Fin 4) (cmp : BitVec 4) (s : State) :
    exec (.chopCycleStart n cmp) s = whenClocked s (ends
      (if cycleDue (advanceTo s (cycleDue s n)) n ≤ (advanceTo s (cycleDue s n)).tick
          && cycleAwaited (advanceTo s (cycleDue s n)) n
        then cycleStarts (advanceTo s (cycleDue s n)) n cmp else cmpLevels (advanceTo s (cycleDue s n)) cmp)) := by
  show execChopCycleStart n cmp s = _
  unfold execChopCycleStart
  dsimp only
  split <;> rfl

/-! ### The tick of an edge (R374) -/

/-- Outside FORCE an edge of a running leg lies at its offset in the cycle. -/
theorem edgeTick_cycle {s : State} {n : Nat} (e : Nat) (hd : (legOf s n).dueAt = none)
    (hr : (legOf s n).running = true) (h0 : (legOf s n).mode ≠ 0) (h4 : (legOf s n).mode ≠ 4) :
    edgeTick s n e = (legOf s n).startAt + edgeOffset (legOf s n) e := by
  unfold edgeTick
  rw [legDue_idle hd]
  simp [hr, h0, h4]

/-! ### What an edge does (R374, R376, R377, R381) -/

theorem exec_chopGateEdge (n e : Fin 4) (cmp : BitVec 4) (s : State) :
    exec (.chopGateEdge n e cmp) s
      = whenClocked s (ends (cmpLevels (edgeAct (advanceTo s (edgeTick s n e)) n e) cmp)) := rfl

section
variable {s : State} {n : Nat}

theorem edgeAct_off (e : Nat) (h : (legOf s n).running = false ∨ (legOf s n).mode = 0) : edgeAct s n e = s :=
  if_pos (by rcases h with h | h <;> simp [h])

section
variable (hr : (legOf s n).running = true)
include hr

theorem edgeAct_cycle (e : Nat) (h0 : (legOf s n).mode ≠ 0) (h4 : (legOf s n).mode ≠ 4) :
    edgeAct s n e = match e with
      | 0 => glTurnOff s n
      | 1 => if ((legOf s n).st == .running && !(legOf s n).tripped) && ghPulse (legOf s n) then ghTurnOn s n else s
      | 2 => ghTurnOff s n
      | _ => if ((legOf s n).st == .running && !(legOf s n).tripped) && glPulse (legOf s n) then glTurnOn s n else s :=
  (if_neg (by simp [hr, h0])).trans (if_neg h4)

variable (h4 : (legOf s n).mode = 4)
include h4

/-- In FORCE without a delayed turn-on an edge row finds nothing to do. -/
theorem edgeAct_force_none (e : Nat) (hf : (legOf s n).forceAt = none) : edgeAct s n e = s := by
  simp [edgeAct, hr, h4, hf]

theorem edgeAct_force {e d out : Nat} (hf : (legOf s n).forceAt = some (d, out))
    (he : (out = 1 ∧ e = 1) ∨ (out = 2 ∧ e = 3)) : edgeAct s n e = forceOn s n := by
  have hx : (out = 1 && e = 1 || out = 2 && e = 3) = true := by simpa using he
  simp only [edgeAct, hr, h4, hf, hx]
  rfl

end

/-- The delayed turn-on happens where the leg is live. -/
theorem forceOn_due {d out : Nat} (hf : (legOf s n).forceAt = some (d, out)) (hd : d ≤ s.tick) :
    forceOn s n = if (legOf s n).st ≠ .running ∨ (legOf s n).tripped = true
      then updLeg s n (fun l => { l with forceAt := none })
      else if out = 1 then ghTurnOn (updLeg s n (fun l => { l with forceAt := none })) n
      else glTurnOn (updLeg s n (fun l => { l with forceAt := none })) n := by
  simp [forceOn, hf, Nat.not_lt.mpr hd]

end

/-! ### Trips and blanking (R383, R384, R392) -/

theorem exec_chopTripRecognised (n : Fin 4) (s : State) :
    exec (.chopTripRecognised n) s = whenClocked s (ends
      (if cycleFirst (updLeg s n (fun l => { l with tripIn := true })) n
        then updLeg s n (fun l => { l with tripIn := true })
        else tripAct (updLeg s n (fun l => { l with tripIn := true })) n)) := rfl

theorem exec_chopTripReleased (n : Fin 4) (s : State) :
    exec (.chopTripReleased n) s = whenClocked s (ends
      (causeGone (updLeg s n (fun l => { l with tripIn := false })) F.CHOP_TRIP_LATCHED n)) := rfl

/-- The leg at the end of its blanking: another leg's internal signal ends it now, its own time at its tick. -/
def blankEnd (s : State) (n : Nat) : State :=
  if n < 2 ∧ (legOf s n).blankSrc = 1 then s else advanceTo s (legOf s n).blankTo

theorem exec_chopBlankingEnd (n : Fin 4) (s : State) :
    exec (.chopBlankingEnd n) s = whenClocked s (ends
      (if cycleFirst (blankEnd s n) n then blankEnd s n else tripAct (blankEnd s n) n)) := by
  have k : (if n.val < 2 && (legOf s n).blankSrc == 1 then s else advanceTo s (legOf s n).blankTo) = blankEnd s n := by
    simp [blankEnd]
  exact congrArg (fun x => whenClocked s (ends (if cycleFirst x n then x else tripAct x n))) k

/-- A cause that is gone changes no leg. -/
theorem legOf_causeGone (s : State) (code inst n : Nat) : legOf (causeGone s code inst) n = legOf s n := by
  unfold legOf
  rw [(causeGone_keeps s code inst).chop rfl]

/-- Settles O43: a cycle start by whether one is awaited and due, an edge by the leg's mode, a trip and the end of
blanking by whether a cycle start is still to come. -/
theorem chopperCycle : Obligations.ChopperCycle := by
  refine ⟨?_,
    fun n s => ⟨fun hr => ⟨cycleAwaited_running hr, cycleDue_running hr⟩, fun hr hs hw => ?_, fun hr hx => ?_⟩,
    fun n e s hd hr h0 h4 => ⟨?_, ?_, ?_, ?_⟩, ?_, fun n s hc => ⟨?_, ?_, ?_⟩⟩
  · rintro n cmp s _ hc rfl
    refine ⟨fun hd ha => ?_, fun hx => ?_⟩
    · obtain ⟨t, ht, hseen⟩ := seen_of_clocked hc (exec_chopCycleStart n cmp s) (if_pos (by simp [hd, ha]))
      exact ⟨t, _, ht, rfl, hseen⟩
    · refine seen_of_clocked hc (exec_chopCycleStart n cmp s) (if_neg ?_)
      rcases hx with hx | hx <;> simp [hx]
  · have ha : cycleAwaited s n = true := by simp [cycleAwaited_stopped hr, hs, hw]
    exact ⟨ha, cycleDue_starting hr ha⟩
  · rcases hx with hx | hx <;> simp [cycleAwaited_stopped hr, hx]
  · rintro rfl
    exact edgeTick_cycle 0 hd hr h0 h4
  · rintro rfl
    exact edgeTick_cycle 1 hd hr h0 h4
  · rintro rfl
    exact edgeTick_cycle 2 hd hr h0 h4
  · rintro rfl
    exact edgeTick_cycle 3 hd hr h0 h4
  · rintro n e cmp s _ _ hc rfl rfl
    obtain ⟨t, ht, hseen⟩ := seen_of_clocked hc (exec_chopGateEdge n e cmp s) rfl
    refine ⟨fun hr h0 h4 => ⟨t, ht, ?_, ?_, ?_, ?_⟩, fun d out hr h4 hf hd he => ⟨t, _, ht, rfl, ?_⟩,
      fun hx => ⟨t, ht, ?_⟩⟩
    · rintro rfl
      rwa [edgeAct_cycle hr _ h0 h4] at hseen
    · rintro rfl
      rwa [edgeAct_cycle hr _ h0 h4] at hseen
    · rintro rfl
      rw [edgeAct_cycle hr _ h0 h4] at hseen
      simpa [and_assoc] using hseen
    · rintro rfl
      rw [edgeAct_cycle hr _ h0 h4] at hseen
      simpa [and_assoc] using hseen
    · have he' : (out = 1 ∧ e.val = 1) ∨ (out = 2 ∧ e.val = 3) :=
        he.imp (And.imp_right (congrArg Fin.val)) (And.imp_right (congrArg Fin.val))
      rwa [edgeAct_force hr h4 hf he', forceOn_due hf hd] at hseen
    · rcases hx with hx | hx | ⟨h4, hf⟩
      · rwa [edgeAct_off _ (.inl hx)] at hseen
      · rwa [edgeAct_off _ (.inr hx)] at hseen
      · cases hr : (legOf (advanceTo s (edgeTick s n e)) n).running with
        | false => rwa [edgeAct_off _ (.inl hr)] at hseen
        | true => rwa [edgeAct_force_none hr h4 _ hf] at hseen
  · rintro _ rfl
    exact seen_of_clocked hc (exec_chopTripRecognised n s) rfl
  · obtain ⟨t, ht, hseen⟩ := seen_of_clocked hc (exec_chopTripReleased n s) rfl
    exact ⟨t, ht, hseen, by rw [hseen.legOf, legOf_causeGone, legOf_updLeg]⟩
  · rintro _ rfl
    exact seen_of_clocked hc (exec_chopBlankingEnd n s) rfl

end Sys2Proof.Machine
end

section
/-! SUPPORT. Confirmed comparators, their classification, and the gate supplies (R386 to R389, R392, R395). -/

namespace Sys2Proof.Machine

/-- A leg's change counts only by what it makes of that leg. -/
theorem updLeg_congr {s : State} {n : Nat} {f g : Leg → Leg} (h : f (legOf s n) = g (legOf s n)) :
    updLeg s n f = updLeg s n g := by
  unfold updLeg tabUpd
  exact congrArg (fun x => { s with chop := { s.chop with legs := tabSet Leg.empty s.chop.legs n x } }) h

/-! ### A confirmation (R386, R387) -/

/-- The comparator of a leg in mode 0 or under test confirms nothing. -/
theorem exec_chopScConfirm_idle {n : Fin 4} {held : Nat} {s : State}
    (h : (legOf s n).stBusy = true ∨ (legOf s n).mode = 0) :
    exec (.chopScConfirm n held) s = whenClocked s (ends s) := by
  have hb : ((legOf s n).stBusy || (legOf s n).mode == 0) = true := by
    rcases h with h | h <;> simp [h]
  show execChopScConfirm n s held = _
  simp only [execChopScConfirm, hb, if_true]

section
variable {n : Fin 4} {held : Nat} {s : State} (hb : (legOf s n).stBusy = false) (hm : (legOf s n).mode ≠ 0)
include hb hm

theorem exec_chopScConfirm_live :
    exec (.chopScConfirm n held) s = whenClocked s (ends
      (if (legOf s n).scFilter ≤ held then
        scConfirm (updLeg s n (fun l => { l with cmp := true, conf := l.conf || decide (l.scFilter ≤ held) })) n
      else updLeg s n (fun l => { l with cmp := true, conf := l.conf || decide (l.scFilter ≤ held) }))) := by
  have hx : ((legOf s n).stBusy || (legOf s n).mode == 0) = false := by simp [hb, hm]
  show execChopScConfirm n s held = _
  simp only [execChopScConfirm, hx]
  rfl

theorem exec_chopScConfirm_short (h : held < (legOf s n).scFilter) :
    exec (.chopScConfirm n held) s = whenClocked s (ends (updLeg s n (fun l => { l with cmp := true }))) := by
  rw [exec_chopScConfirm_live hb hm, if_neg (Nat.not_le.mpr h)]
  exact congrArg (fun x => whenClocked s (ends x)) (updLeg_congr (by simp [Nat.not_le.mpr h]))

theorem exec_chopScConfirm_confirmed (h : (legOf s n).scFilter ≤ held) :
    exec (.chopScConfirm n held) s
      = whenClocked s (ends (scConfirm (updLeg s n (fun l => { l with cmp := true, conf := true })) n)) := by
  rw [exec_chopScConfirm_live hb hm, if_pos h]
  exact congrArg (fun x => whenClocked s (ends (scConfirm x n))) (updLeg_congr (by simp [h]))

end

/-- The window that has ended before this tick is closed. -/
def scPast (s : State) : State := if s.chop.scWin.any (fun x => decide (x.2 < s.tick)) then scClose s else s

section
variable {s : State} {n : Nat}

theorem scConfirm_first (h : (scPast s).chop.scWin = none) :
    scConfirm s n = scOpen (legLatch (scPast s) n (fun l => { l with lSc := true })) n ((scPast s).tick + 200) := by
  unfold scPast at h ⊢
  simp only [scConfirm, h]

theorem scConfirm_second {m e : Nat} (h : (scPast s).chop.scWin = some (m, e)) (h4 : m ≠ 4) (hn : m ≠ n) :
    scConfirm s n = raiseFault (scOpen (dclinkLatch (legLatch (scPast s) n (fun l => { l with lSc := true }))) 4 e)
      F.CHOP_DCLINK_SHORT 0 := by
  unfold scPast at h ⊢
  simp only [scConfirm, h, h4, hn, or_self, if_false]

theorem scConfirm_again {m e : Nat} (h : (scPast s).chop.scWin = some (m, e)) (hm : m = 4 ∨ m = n) :
    scConfirm s n = scPast s := by
  unfold scPast at h ⊢
  simp only [scConfirm, h, hm, if_true]

end

theorem legLatch_st (s : State) (n : Nat) :
    (legOf (legLatch s n (fun l => { l with lSc := true })) n).st = .latched := by
  unfold legLatch
  rw [legOf_updLeg]

/-- The window's record is no leg's. -/
theorem legOf_scOpen (s : State) (m e n : Nat) : legOf (scOpen s m e) n = legOf s n := by
  unfold legOf scOpen
  rfl

/-! ### The window's end (R387) -/

/-- Time that passes leaves the classification window as it is. -/
theorem advanceTo_scWin (s : State) (t : Nat) : (advanceTo s t).chop.scWin = s.chop.scWin := by
  unfold advanceTo
  split
  · rfl
  · unfold legsDue
    dsimp only
    split <;> rfl

/-- The window is closed; what it classifies is still to come. -/
def scShut (s : State) : State := { s with chop := { s.chop with scWin := none } }

theorem scClose_open {s : State} {m e : Nat} (h : s.chop.scWin = some (m, e)) :
    scClose s = if m < 4 then
      (if (legOf (raiseFault (scShut s) F.CHOP_SC m) m).cmp then raiseFault (scShut s) F.CHOP_SC m
        else causeGone (raiseFault (scShut s) F.CHOP_SC m) F.CHOP_SC m)
      else scShut s := by
  simp only [scClose, h]
  rfl

theorem exec_chopScWindowEnd_open {cmp : BitVec 4} {s : State} {m e : Nat} (h : s.chop.scWin = some (m, e)) :
    exec (.chopScWindowEnd cmp) s = whenClocked s (ends (cmpLevels (scClose (advanceTo s e)) cmp)) := by
  show execChopScWindowEnd s cmp = _
  simp only [execChopScWindowEnd, h]

theorem exec_chopScWindowEnd_none {cmp : BitVec 4} {s : State} (h : s.chop.scWin = none) :
    exec (.chopScWindowEnd cmp) s = whenClocked s (ends (cmpLevels s cmp)) := by
  show execChopScWindowEnd s cmp = _
  simp only [execChopScWindowEnd, h]

/-- Settles O44: a confirmation by the window it finds, the window's end by what was classified, a gate supply by its
level. -/
theorem chopperFaults : Obligations.ChopperFaults := by
  refine ⟨fun n held s hc h => seen_of_clocked hc (exec_chopScConfirm_idle h) rfl,
    fun n held s hc hb hm => ⟨fun h => seen_of_clocked hc (exec_chopScConfirm_short hb hm h) rfl, ?_⟩,
    fun s cmp m e hc h => ?_, fun s cmp hc h => seen_of_clocked hc (exec_chopScWindowEnd_none h) rfl,
    fun n low s hc => ⟨?_, ?_⟩⟩
  · rintro _ _ h rfl rfl
    have hex := exec_chopScConfirm_confirmed hb hm h
    refine ⟨fun hw => ?_, fun m e hw h4 hn => seen_of_clocked hc hex (scConfirm_second hw h4 hn),
      fun m e hw hx => seen_of_clocked hc hex (scConfirm_again hw hx)⟩
    obtain ⟨t, ht, hseen⟩ := seen_of_clocked hc hex (scConfirm_first hw)
    exact ⟨t, ht, hseen, by rw [hseen.legOf, legOf_scOpen, legLatch_st]⟩
  · obtain ⟨t, ht, hseen⟩ := seen_of_clocked hc (exec_chopScWindowEnd_open (cmp := cmp) h)
      (congrArg (cmpLevels · cmp) (scClose_open ((advanceTo_scWin s e).trans h)))
    exact ⟨t, _, ht, rfl, hseen⟩
  · obtain ⟨t, ht, hseen⟩ := seen_of_clocked hc (i := .gateSupplyNotOk n low) rfl rfl
    exact ⟨t, _, ht, rfl, hseen⟩
  · obtain ⟨t, ht, hseen⟩ := seen_of_clocked hc (i := .gateSupplyOk n low) rfl rfl
    exact ⟨t, _, ht, rfl, hseen⟩

end Sys2Proof.Machine
end

section
/-! SUPPORT. The fault collector's commands and timers (R391, R428 to R442). -/

namespace Sys2Proof.Machine

/-! ### Frames of the collector -/

/-- That a cause is gone changes entries only. -/
theorem causeGone_unlocked (s : State) (code inst : Nat) : (causeGone s code inst).flt.unlocked = s.flt.unlocked := by
  unfold causeGone
  split
  · rfl
  · exact (apply_ite (fun x : State => x.flt.unlocked) _ _ _).trans (ite_self _)

/-- A packet's arrival neither locks nor unlocks. -/
theorem unlocked_arrived (s : State) (c : Cmd) : (arrived s c).flt.unlocked = s.flt.unlocked :=
  causeGone_unlocked _ _ _

theorem testmode_arrived (s : State) (c : Cmd) : (arrived s c).pwr.testmode = s.pwr.testmode := by
  rw [(arrived_keeps s c).pwr rfl]

theorem Replied.flt {op status detail : Nat} {p : List Word} {c : Cmd} {u t : State}
    (h : Replied op status detail p c u t) : t.flt = u.flt := h.2.1.flt rfl

/-! ### `FAULT_READ` (R438) -/

section
variable {c : Cmd} {s : State}

theorem faultReadBody_ok (h1 : 1 ≤ field (pw c 0) 15 8) (h64 : field (pw c 0) 15 8 ≤ 64) :
    faultReadBody c s = .ok 0 ((List.range (field (pw c 0) 15 8)).flatMap
      (fun k => fltRec s (field (pw c 0) 7 0 + k))) s := by
  have hr : (field (pw c 0) 15 8 == 0 || decide (64 < field (pw c 0) 15 8)) = false := by
    simp only [Bool.or_eq_false_iff, beq_eq_false_iff_ne, decide_eq_false_iff_not]
    omega
  rw [faultReadBody, hr]
  rfl

theorem faultReadBody_range (h : field (pw c 0) 15 8 = 0 ∨ 64 < field (pw c 0) 15 8) :
    faultReadBody c s = .err ⟨St.range, 0x8000, field (pw c 0) 15 8⟩ := by
  have hr : (field (pw c 0) 15 8 == 0 || decide (64 < field (pw c 0) 15 8)) = true := by simpa using h
  rw [faultReadBody, hr]
  rfl

/-! ### `FAULT_CLEAR` and `FAULT_ACK` (R391, R429, R431) -/

theorem faultClearBody_none (h : fltFind (gracesDue s) (pw c 0 % 65536) (tgt c) = none) :
    faultClearBody c s = .err ⟨St.state, 8, pw c 0 % 65536⟩ := by
  simp only [faultClearBody, h]

theorem faultClearBody_held {i : Nat} (h : fltFind (gracesDue s) (pw c 0 % 65536) (tgt c) = some i)
    (hc : (fltOf (gracesDue s) i).cause = true) : faultClearBody c s = .err ⟨St.state, 4, pw c 0 % 65536⟩ := by
  simp only [faultClearBody, h, hc, if_true]

theorem faultClearBody_freed {i : Nat} (h : fltFind (gracesDue s) (pw c 0 % 65536) (tgt c) = some i)
    (hc : (fltOf (gracesDue s) i).cause = false) :
    faultClearBody c s = .ok 0 [] (chopCleared (freeEntry (gracesDue s) i) (pw c 0 % 65536) (tgt c)) := by
  simp only [faultClearBody, h, hc]
  rfl

theorem faultAckBody_none (h : fltFind (gracesDue s) (pw c 0 % 65536) (tgt c) = none) :
    faultAckBody c s = .err ⟨St.state, 8, pw c 0 % 65536⟩ := by
  simp only [faultAckBody, h]

theorem faultAckBody_found {i : Nat} (h : fltFind (gracesDue s) (pw c 0 % 65536) (tgt c) = some i) :
    faultAckBody c s = .ok 0 [] (setFlt (gracesDue s) i (ackEntry (fltOf (gracesDue s) i))) := by
  simp only [faultAckBody, h]
  rfl

/-! ### `FAULT_INJECT` and `FACTORY_UNLOCK` (R441, R442) -/

/-- Whether a code is defined for the target (R442). -/
def fltKnown (code inst : Nat) : Bool :=
  match fltDef? code with
  | some d => d.hasInst inst
  | none => false

theorem fltKnown_of_def {d : FltDef} {code inst : Nat} (hd : fltDef? code = some d) (hi : d.hasInst inst = true) :
    fltKnown code inst = true := by
  simp only [fltKnown, hd, hi]

theorem fltKnown_eq_false {code inst : Nat} (h : ∀ d, fltDef? code = some d → d.hasInst inst = false) :
    fltKnown code inst = false := by
  unfold fltKnown
  split
  · next d hd => exact h d hd
  · rfl

theorem faultInjectBody_eq (c : Cmd) (s : State) :
    faultInjectBody c s = Res.check (firstErr
      [ errIf (!s.pwr.testmode) St.factory 1 0, errIf (!s.flt.unlocked) St.factory 2 0,
        errIf (!fltKnown (pw c 0 % 65536) (tgt c)) St.range 0x8000 (pw c 0 % 65536) ])
      (.done (injectFault s (pw c 0 % 65536) (tgt c))) := rfl

theorem faultInjectBody_normal (ht : s.pwr.testmode = false) : faultInjectBody c s = .err ⟨St.factory, 1, 0⟩ := by
  rw [faultInjectBody_eq, ht]
  rfl

theorem factoryUnlockBody_normal (ht : s.pwr.testmode = false) :
    factoryUnlockBody c s = .err ⟨St.factory, 1, 0⟩ := by
  simp only [factoryUnlockBody, ht]
  rfl

section
variable (ht : s.pwr.testmode = true)
include ht

theorem faultInjectBody_locked (hu : s.flt.unlocked = false) : faultInjectBody c s = .err ⟨St.factory, 2, 0⟩ := by
  rw [faultInjectBody_eq, ht, hu]
  rfl

theorem faultInjectBody_unknown (hu : s.flt.unlocked = true) (hk : fltKnown (pw c 0 % 65536) (tgt c) = false) :
    faultInjectBody c s = .err ⟨St.range, 0x8000, pw c 0 % 65536⟩ := by
  rw [faultInjectBody_eq, ht, hu, hk]
  rfl

theorem faultInjectBody_raised (hu : s.flt.unlocked = true) (hk : fltKnown (pw c 0 % 65536) (tgt c) = true) :
    faultInjectBody c s = .ok 0 [] (injectFault s (pw c 0 % 65536) (tgt c)) := by
  rw [faultInjectBody_eq, ht, hu, hk]
  rfl

theorem factoryUnlockBody_key (h0 : c.payload.getD 0 0 = Config.factoryKey.1)
    (h1 : c.payload.getD 1 0 = Config.factoryKey.2) :
    factoryUnlockBody c s = .ok 0 [] { s with flt := { s.flt with unlocked := true } } := by
  simp only [factoryUnlockBody, ht, h0, h1, beq_self_eq_true]
  rfl

theorem factoryUnlockBody_wrong
    (h : c.payload.getD 0 0 ≠ Config.factoryKey.1 ∨ c.payload.getD 1 0 ≠ Config.factoryKey.2) :
    factoryUnlockBody c s = .err ⟨St.locked, 0, 0⟩ := by
  have hk : (c.payload.getD 0 0 == Config.factoryKey.1 && c.payload.getD 1 0 == Config.factoryKey.2) = false := by
    rcases h with h | h
    · rw [beq_false_of_ne h, Bool.false_and]
    · rw [beq_false_of_ne h, Bool.and_false]
  simp only [factoryUnlockBody, ht, hk]
  rfl

end

end

/-! ### The timers (R428, R439) -/

theorem exec_graceExpiry (i : Fin 256) (s : State) :
    exec (.graceExpiry i) s = whenClocked s (ends
      (if (fltOf s i).st = .grace then graceExpire (advanceTo s (fltOf s i).due) i else s)) := rfl

theorem exec_errPulseEnd_running {s : State} {d : Nat} (h : s.flt.errEnd = some d) :
    exec .errPulseEnd s = whenClocked s (ends
      { advanceTo s d with flt := { (advanceTo s d).flt with errEnd := none } }) := by
  show execErrPulseEnd s = _
  simp only [execErrPulseEnd, h]

theorem exec_errPulseEnd_none {s : State} (h : s.flt.errEnd = none) :
    exec .errPulseEnd s = whenClocked s (ends s) := by
  show execErrPulseEnd s = _
  simp only [execErrPulseEnd, h]

/-! ### `FLT_ERR_HOLD` (R439) -/

theorem setWord_fltErrHold (s : State) (t : Nat) (w : Word) :
    setWord s P.FLT_ERR_HOLD t w = tallyTouch (putP s P.FLT_ERR_HOLD t w) P.FLT_ERR_HOLD := by
  rw [setWord_rw s t w (by decide), afterSet_plain _ _ _ (by decide)]

theorem getP_setWord_fltErrHold (s : State) (t : Nat) (w : Word) :
    getP (setWord s P.FLT_ERR_HOLD t w) P.FLT_ERR_HOLD t = w := by
  rw [setWord_fltErrHold, (tallyTouch_keeps _ _).param P.FLT_ERR_HOLD t rfl rfl, getP_putP_same]

/-- Settles O45: each command by its entry, its operands and the test mode, the timers by whether they run. -/
theorem faultCommands : Obligations.FaultCommands := by
  refine ⟨fun c s h h1 h64 => exec_ok h (faultReadBody_ok h1 h64),
    fun c s h hx => exec_err (e := ⟨St.range, 0x8000, _⟩) h (faultReadBody_range hx), ?_, ?_,
    fun c s h => ⟨fun ht => ?_, fun ht hu => ?_, fun ht hu hk => ?_, fun d ht hu hd hi => ?_⟩,
    fun c s h => ⟨fun ht => ?_, fun ht h0 h1 => ?_, fun ht hx => ?_⟩,
    fun i s hc => ⟨fun hg => seen_of_clocked hc (exec_graceExpiry i s) (if_pos hg),
      fun hg => seen_of_clocked hc (exec_graceExpiry i s) (if_neg hg)⟩,
    fun s hc => ⟨fun d hd => ?_, fun hn => seen_of_clocked hc (exec_errPulseEnd_none hn) rfl⟩, fun c s h => ?_⟩
  · rintro c s _ _ h rfl rfl
    exact ⟨fun hn => exec_err (e := ⟨St.state, 8, _⟩) h (faultClearBody_none hn),
      fun i hi hx => exec_err (e := ⟨St.state, 4, _⟩) h (faultClearBody_held hi hx),
      fun i hi hx => exec_ok h (faultClearBody_freed hi hx)⟩
  · rintro c s _ _ h rfl rfl
    exact ⟨fun hn => exec_err (e := ⟨St.state, 8, _⟩) h (faultAckBody_none hn),
      fun i hi => exec_ok h (faultAckBody_found hi)⟩
  · exact exec_err (e := ⟨St.factory, 1, 0⟩) h (faultInjectBody_normal ((testmode_arrived s c).trans ht))
  · exact exec_err (e := ⟨St.factory, 2, 0⟩) h
      (faultInjectBody_locked ((testmode_arrived s c).trans ht) ((unlocked_arrived s c).trans hu))
  · exact exec_err (e := ⟨St.range, 0x8000, _⟩) h (faultInjectBody_unknown ((testmode_arrived s c).trans ht)
      ((unlocked_arrived s c).trans hu) (fltKnown_eq_false hk))
  · exact exec_ok h (faultInjectBody_raised ((testmode_arrived s c).trans ht) ((unlocked_arrived s c).trans hu)
      (fltKnown_of_def hd hi))
  · exact exec_err (e := ⟨St.factory, 1, 0⟩) h (factoryUnlockBody_normal ((testmode_arrived s c).trans ht))
  · obtain ⟨t, ht', hd⟩ := exec_ok h (factoryUnlockBody_key ((testmode_arrived s c).trans ht) h0 h1)
    exact ⟨t, ht', hd, by rw [hd.flt]⟩
  · exact exec_err (e := ⟨St.locked, 0, 0⟩) h (factoryUnlockBody_wrong ((testmode_arrived s c).trans ht) hx)
  · obtain ⟨t, ht, hseen⟩ := seen_of_clocked hc (exec_errPulseEnd_running hd) rfl
    exact ⟨t, ht, hseen, by rw [hseen.1.flt rfl]⟩
  · obtain ⟨t, ht, hd⟩ := exec_rowDone (by decide) h
    rw [← setWord_fltErrHold]
    exact ⟨t, ht, hd, (hd.getP _ _ rfl).trans (getP_setWord_fltErrHold _ _ _)⟩

end Sys2Proof.Machine
end

section
/-! SUPPORT. The safety sessions: unlock, write, log, lock and their times (R410, R418 to R422). -/

namespace Sys2Proof.Machine

/-! ### Frames of the belay -/

theorem Replied.belay {op status detail : Nat} {p : List Word} {c : Cmd} {u t : State}
    (h : Replied op status detail p c u t) : t.belay = u.belay := h.2.1.belay rfl

theorem Seen.belay {u t : State} (h : Seen u t) : t.belay = u.belay := h.1.belay rfl

/-- After the end of a session none is open. -/
theorem sessionEnd_closed (s : State) : (sessionEnd s).belay.open_ = false := by
  unfold sessionEnd
  split
  · rfl
  · next h => exact Bool.not_eq_true _ ▸ h

/-! ### `SAFETY_UNLOCK` (R418) -/

/-- The two words of the password that the command gives. -/
def unlockWords (c : Cmd) : Word × Word := (c.payload.getD 0 0, c.payload.getD 1 0)

/-- Whether the words are characters and agree with the password that is set. -/
def unlockGood (s : State) (p : Word × Word) : Bool :=
  pwChars p.1 && pwChars p.2 && match s.belay.password with
    | some q => q == p
    | none => true

/-- A wrong password is counted and logged. -/
def unlockWrong (s : State) : State := belayLogAdd (incP s P.SAFE_UNLOCK_FAIL 0) 3 0 0 0 0

/-- The third wrong password in a row starts the wait. -/
def unlockRefused (u : State) : State :=
  updBelay u (fun x => { x with
    wrongRun := if u.belay.wrongRun + 1 = 3 then 0 else u.belay.wrongRun + 1
    backoff := if u.belay.wrongRun + 1 = 3 then some (u.tick + 2000000000) else none })

/-- The next session, opened with the password given. -/
def unlockOpen (s : State) (p : Word × Word) : State :=
  belayLogAdd (updBelay (sessionEnd s) (fun x => { x with
    password := some (x.password.getD p), wrongRun := 0, session := s.belay.session % 255 + 1, open_ := true
    sesFrom := (sessionEnd s).tick, pendLo := none })) 1 0 0 0 0

section
variable {s : State} {p : Word × Word}

theorem unlockGood_of_match (h1 : pwChars p.1 = true) (h2 : pwChars p.2 = true)
    (hq : s.belay.password = none ∨ s.belay.password = some p) : unlockGood s p = true := by
  rcases hq with hq | hq <;> simp [unlockGood, h1, h2, hq]

theorem unlockGood_eq_false
    (h : pwChars p.1 = false ∨ pwChars p.2 = false ∨ ∃ q, s.belay.password = some q ∧ q ≠ p) :
    unlockGood s p = false := by
  unfold unlockGood
  rcases h with h | h | ⟨q, hq, hne⟩
  · rw [h]
    rfl
  · rw [h, Bool.and_false]
    rfl
  · rw [hq]
    exact (congrArg (_ && ·) (beq_false_of_ne hne)).trans (Bool.and_false _)

theorem unlockGood_arrived (s : State) (c : Cmd) (p : Word × Word) : unlockGood (arrived s c) p = unlockGood s p := by
  unfold unlockGood
  rw [belay_arrived]

end

section
variable {c : Cmd} {s : State}

theorem safetyUnlockBody_waiting {d : Nat} (h : s.belay.backoff = some d) :
    safetyUnlockBody c s = .fail ⟨St.locked, 0, 0⟩ (incP s P.SAFE_UNLOCK_FAIL 0) := by
  simp only [safetyUnlockBody, h]
  rfl

variable (h : s.belay.backoff = none)
include h

theorem safetyUnlockBody_wrong (hg : unlockGood s (unlockWords c) = false) :
    safetyUnlockBody c s = .fail ⟨St.locked, 0, 0⟩ (unlockRefused (unlockWrong s)) := by
  unfold unlockGood at hg
  have h' : s.belay.backoff.isSome = false := by rw [h]; rfl
  unfold safetyUnlockBody
  dsimp only
  rw [h', if_neg Bool.false_ne_true]
  refine (if_pos ?_).trans rfl
  rw [Bool.not_eq_true']
  exact hg

theorem safetyUnlockBody_open (hg : unlockGood s (unlockWords c) = true) :
    safetyUnlockBody c s
      = .ok 0 [BitVec.ofNat 32 (s.belay.session % 255 + 1)] (unlockOpen s (unlockWords c)) := by
  unfold unlockGood at hg
  have h' : s.belay.backoff.isSome = false := by rw [h]; rfl
  unfold safetyUnlockBody
  dsimp only
  rw [h', if_neg Bool.false_ne_true]
  refine (if_neg ?_).trans rfl
  rw [Bool.not_eq_true', Bool.not_eq_false]
  exact hg

end

/-! ### `SAFETY_WRITE` (R419, R420, R422) -/

/-- The session is used by a write of `s`, which leaves `u`: its time restarts. -/
def sessionUsed (s u : State) : State := updBelay u (fun x => { x with sesFrom := s.tick })

section
variable {c : Cmd} {s : State}

theorem safetyWriteBody_closed (h : s.belay.open_ = false) :
    safetyWriteBody c s = .err ⟨St.locked, pw c 0, pw c 0⟩ := by
  simp only [safetyWriteBody, h]
  rfl

section
variable (ho : s.belay.open_ = true)
include ho

theorem safetyWriteBody_unnamed (h : safeParam? (pw c 0) = none) :
    safetyWriteBody c s = .err ⟨St.param, pw c 0, pw c 0⟩ := by
  simp only [safetyWriteBody, ho, h]
  rfl

variable {d : ParamDef} (hd : safeParam? (pw c 0) = some d)
include hd

theorem safetyWriteBody_clear (ha : d.access = .rw1c) :
    safetyWriteBody c s = Res.check (clearErr d (c.payload.getD 1 0))
      (.done (sessionUsed (clearSet s (pw c 0) (tgt c) (c.payload.getD 1 0)) (belayLogAdd
        (clearSet s (pw c 0) (tgt c) (c.payload.getD 1 0)) 0 (pw c 0) (tgt c)
        (getN s (pw c 0) (tgt c)) (getN (clearSet s (pw c 0) (tgt c) (c.payload.getD 1 0)) (pw c 0) (tgt c))))) := by
  simp only [safetyWriteBody, ho, hd, ha, if_true]
  rfl

theorem safetyWriteBody_value (ha : d.access ≠ .rw1c) :
    safetyWriteBody c s = Res.check
      (firstErr [rangeErr d (c.payload.getD 1 0), safeValueErr s d (c.payload.getD 1 0), deblockedErr s])
      (if pw c 0 = P.SAFE_PASSWORD_LO then
        .done (sessionUsed s (belayLogAdd (updBelay s (fun x => { x with pendLo := some (c.payload.getD 1 0) }))
          0 (pw c 0) (tgt c) 0 0))
      else if pw c 0 = P.SAFE_PASSWORD_HI then
        .done (sessionUsed s (belayLogAdd (updBelay s (fun x =>
          { x with password := some (x.pendLo.getD 0, c.payload.getD 1 0), pendLo := none })) 0 (pw c 0) (tgt c) 0 0))
      else
        .done (tallyTouch (sessionUsed s (belayLogAdd (putP s (pw c 0) (tgt c) (c.payload.getD 1 0)) 0 (pw c 0) (tgt c)
          (getN s (pw c 0) (tgt c)) (c.payload.getD 1 0).toNat)) (pw c 0))) := by
  simp only [safetyWriteBody, ho, hd, ha, if_false]
  rfl

/-- A refused write, of either kind, by its first check that fails. -/
theorem safetyWriteBody_refused {e : CmdErr}
    (h : (d.access = .rw1c ∧ clearErr d (c.payload.getD 1 0) = some e)
      ∨ (d.access ≠ .rw1c ∧ firstErr [rangeErr d (c.payload.getD 1 0), safeValueErr s d (c.payload.getD 1 0),
          deblockedErr s] = some e)) : safetyWriteBody c s = .err e := by
  rcases h with ⟨ha, he⟩ | ⟨ha, he⟩
  · rw [safetyWriteBody_clear ho hd ha, he, Res.check_some]
  · rw [safetyWriteBody_value ho hd ha, he, Res.check_some]

/-- A taken clear. -/
theorem safetyWriteBody_cleared (ha : d.access = .rw1c) (he : clearErr d (c.payload.getD 1 0) = none) :
    safetyWriteBody c s = .ok 0 [] (sessionUsed (clearSet s (pw c 0) (tgt c) (c.payload.getD 1 0)) (belayLogAdd
        (clearSet s (pw c 0) (tgt c) (c.payload.getD 1 0)) 0
      (pw c 0) (tgt c) (getN s (pw c 0) (tgt c))
      (getN (clearSet s (pw c 0) (tgt c) (c.payload.getD 1 0)) (pw c 0) (tgt c)))) := by
  rw [safetyWriteBody_clear ho hd ha, he, Res.check_none]
  rfl

/-! A value that passes its checks while no arm is deblocked. -/

variable (ha : d.access ≠ .rw1c) (hr : rangeErr d (c.payload.getD 1 0) = none)
  (hv : safeValueErr s d (c.payload.getD 1 0) = none) (hb : anyDeb s = false)
include ha hr hv hb

theorem safetyWriteBody_low (hid : pw c 0 = P.SAFE_PASSWORD_LO) :
    safetyWriteBody c s = .ok 0 [] (sessionUsed s (belayLogAdd
      (updBelay s (fun x => { x with pendLo := some (c.payload.getD 1 0) })) 0 (pw c 0) (tgt c) 0 0)) := by
  rw [safetyWriteBody_value ho hd ha, hr, hv, deblockedErr_none hb, if_pos hid]
  rfl

theorem safetyWriteBody_high (hid : pw c 0 = P.SAFE_PASSWORD_HI) :
    safetyWriteBody c s = .ok 0 [] (sessionUsed s (belayLogAdd (updBelay s (fun x =>
      { x with password := some (x.pendLo.getD 0, c.payload.getD 1 0), pendLo := none })) 0 (pw c 0) (tgt c) 0 0)) := by
  have hlo : pw c 0 ≠ P.SAFE_PASSWORD_LO := by rw [hid]; decide
  rw [safetyWriteBody_value ho hd ha, hr, hv, deblockedErr_none hb, if_neg hlo, if_pos hid]
  rfl

theorem safetyWriteBody_held (hlo : pw c 0 ≠ P.SAFE_PASSWORD_LO) (hhi : pw c 0 ≠ P.SAFE_PASSWORD_HI) :
    safetyWriteBody c s = .ok 0 [] (tallyTouch (sessionUsed s (belayLogAdd
      (putP s (pw c 0) (tgt c) (c.payload.getD 1 0)) 0 (pw c 0) (tgt c) (getN s (pw c 0) (tgt c))
      (c.payload.getD 1 0).toNat)) (pw c 0)) := by
  rw [safetyWriteBody_value ho hd ha, hr, hv, deblockedErr_none hb, if_neg hlo, if_neg hhi]
  rfl

end

/-! ### `SAFETY_LOG_READ` and `SAFETY_LOCK` (R410, R419, R420) -/

theorem safetyLogReadBody_ok (h0 : pw c 0 ≤ 63) (h1 : 1 ≤ pw c 1) (h64 : pw c 1 ≤ 64) :
    safetyLogReadBody c s = .ok 0 ((List.range (pw c 1)).flatMap (fun k =>
      if (tabGet [] s.belay.log ((pw c 0 + k) % 64)).isEmpty then List.replicate 5 0
      else tabGet [] s.belay.log ((pw c 0 + k) % 64))) s := by
  have ha : decide (63 < pw c 0) = false := decide_eq_false (Nat.not_lt.mpr h0)
  have hn : (pw c 1 == 0 || decide (64 < pw c 1)) = false := by
    simp only [Bool.or_eq_false_iff, beq_eq_false_iff_ne, decide_eq_false_iff_not]
    omega
  simp only [safetyLogReadBody, ha, hn]
  rfl

theorem safetyLogReadBody_start (h : 63 < pw c 0) : safetyLogReadBody c s = .err ⟨St.range, 0x8000, pw c 0⟩ := by
  simp only [safetyLogReadBody, decide_eq_true h]
  rfl

theorem safetyLogReadBody_count (h0 : pw c 0 ≤ 63) (h : pw c 1 = 0 ∨ 64 < pw c 1) :
    safetyLogReadBody c s = .err ⟨St.range, 0x8001, pw c 1⟩ := by
  have ha : decide (63 < pw c 0) = false := decide_eq_false (Nat.not_lt.mpr h0)
  have hn : (pw c 1 == 0 || decide (64 < pw c 1)) = true := by simpa using h
  simp only [safetyLogReadBody, ha, hn]
  rfl

end

/-- Locked: an open session is ended, with the condition of two latches met. -/
def lockedBy (s : State) : State :=
  if s.belay.open_ then updBelay (sessionEnd s) (fun x => { x with okLock := true }) else s

theorem lockedBy_closed (s : State) : (lockedBy s).belay.open_ = false := by
  unfold lockedBy
  split
  · exact sessionEnd_closed s
  · next h => exact Bool.not_eq_true _ ▸ h

/-! ### The times (R418, R419) -/

theorem exec_safetySessionTimeout (s : State) :
    exec .safetySessionTimeout s
      = ends (if s.belay.open_ then sessionEnd (advanceTo s (s.belay.sesFrom + 12000000000)) else s) := by
  show execSafetySessionTimeout s = _
  unfold execSafetySessionTimeout
  split <;> rfl

theorem exec_unlockBackoffEnd_waiting {s : State} {d : Nat} (h : s.belay.backoff = some d) :
    exec .unlockBackoffEnd s = ends (updBelay (advanceTo s d) (fun x => { x with backoff := none })) := by
  show execUnlockBackoffEnd s = _
  simp only [execUnlockBackoffEnd, h]

theorem exec_unlockBackoffEnd_none {s : State} (h : s.belay.backoff = none) : exec .unlockBackoffEnd s = ends s := by
  show execUnlockBackoffEnd s = _
  simp only [execUnlockBackoffEnd, h]

/-- Settles O46: the unlock by the wait and the password, the write by the session, the parameter and its value, the
others by their operands and by what they end. -/
theorem safetySessions : Obligations.SafetySessions := by
  refine ⟨?_, ?_, fun c s h h0 h1 h64 => ?_,
    fun c s h => ⟨fun h0 => exec_err (e := ⟨St.range, 0x8000, _⟩) h (safetyLogReadBody_start h0),
      fun h0 hx => exec_err (e := ⟨St.range, 0x8001, _⟩) h (safetyLogReadBody_count h0 hx)⟩,
    fun c s h => ?_, fun s => ⟨fun ho => ?_, fun ho => ?_⟩,
    fun s => ⟨fun d hd => ?_, fun hn => seen_of_exec (exec_unlockBackoffEnd_none hn)⟩⟩
  · rintro c s _ h rfl
    refine ⟨fun d hd => ?_, fun hn hx => ?_, fun hn h1 h2 hq => ?_⟩
    · exact exec_fail h (safetyUnlockBody_waiting ((congrArg BelaySt.backoff (belay_arrived s c)).trans hd))
    · obtain ⟨t, ht, hr⟩ := exec_fail h (safetyUnlockBody_wrong
        ((congrArg BelaySt.backoff (belay_arrived s c)).trans hn)
        ((unlockGood_arrived s c _).trans (unlockGood_eq_false hx)))
      exact ⟨t, _, ht, rfl, hr⟩
    · obtain ⟨t, ht, hr⟩ := exec_ok h (safetyUnlockBody_open
        ((congrArg BelaySt.backoff (belay_arrived s c)).trans hn)
        ((unlockGood_arrived s c _).trans (unlockGood_of_match h1 h2 hq)))
      rw [← belay_arrived s c]
      exact ⟨t, ht, hr, by rw [hr.belay]; rfl, by rw [hr.belay]; rfl⟩
  · rintro c s _ _ h rfl rfl
    have blocked : anyDeb s = false → anyDeb (arrived s c) = false := fun hb => by rwa [anyDeb_arrived]
    rw [← tick_arrived s c, ← belay_arrived s c]
    refine ⟨fun ho => exec_err (e := ⟨St.locked, _, _⟩) h (safetyWriteBody_closed ho),
      fun d ho hd ha hlo hhi hr hv hb => ?_,
      fun ho hn => exec_err (e := ⟨St.param, _, _⟩) h (safetyWriteBody_unnamed ho hn), ?_, fun d e ho hd hx => ?_,
      fun d ho hd ha hr hv hb => ⟨fun hid => ?_, fun hid => ?_⟩⟩
    · obtain ⟨t, ht, hx⟩ := exec_ok h (safetyWriteBody_held ho hd (by simp [ha]) hr hv (blocked hb) hlo hhi)
      refine ⟨t, ht, hx, ?_⟩
      rw [hx.belay, (tallyTouch_keeps _ _).belay rfl]
      rfl
    · rintro d _ ho hd ha he rfl
      exact exec_ok h (safetyWriteBody_cleared ho hd ha he)
    · exact exec_err h (safetyWriteBody_refused ho hd (by
        rwa [deblockedErr, anyDeb_arrived, debMask_arrived]))
    · obtain ⟨t, ht, hx⟩ := exec_ok h (safetyWriteBody_low ho hd (by simp [ha]) hr hv (blocked hb) hid)
      exact ⟨t, ht, hx, by rw [hx.belay]; rfl⟩
    · obtain ⟨t, ht, hx⟩ := exec_ok h (safetyWriteBody_high ho hd (by simp [ha]) hr hv (blocked hb) hid)
      exact ⟨t, ht, hx, by rw [hx.belay]; rfl⟩
  · rw [← belay_arrived s c]
    exact exec_ok h (safetyLogReadBody_ok h0 h1 h64)
  · obtain ⟨t, ht, hr⟩ := exec_ok (body := safetyLockBody) h rfl
    rw [← belay_arrived s c]
    exact ⟨t, ht, hr, by rw [hr.belay]; exact lockedBy_closed _⟩
  · obtain ⟨t, ht, hseen⟩ := seen_of_exec (exec_safetySessionTimeout s)
    rw [if_pos ho] at hseen
    exact ⟨t, ht, hseen, by rw [hseen.belay]; exact sessionEnd_closed _⟩
  · obtain ⟨t, ht, hseen⟩ := seen_of_exec (exec_safetySessionTimeout s)
    rw [if_neg (by simp [ho])] at hseen
    exact ⟨t, ht, hseen⟩
  · obtain ⟨t, ht, hseen⟩ := seen_of_exec (exec_unlockBackoffEnd_waiting hd)
    exact ⟨t, ht, hseen, by rw [hseen.belay]; rfl⟩

end Sys2Proof.Machine
end

section
/-! SUPPORT. The belay's samples, test pulses, timers, clock check, reset and SRAM error (R398 to R417). -/

namespace Sys2Proof.Machine

/-! ### A sample (R400, R404, R409) -/

theorem exec_belaySample_on {a b : BitVec 8} {h ta tb inj : Bool} {s : State} (hb : belayOn s = true) :
    exec (.belaySample a b h ta tb inj) s = ends (srstSample ((List.range 8).foldl
      (fun s n => siSample s n (bit a.toNat n) (bit b.toNat n))
      (updBelay (internalPass (tripBack (gridNext s) ta tb) 3) (fun x => { x with readback := inj }))) h inj) :=
  if_pos hb

theorem exec_belaySample_off {a b : BitVec 8} {h ta tb inj : Bool} {s : State} (hb : belayOn s = false) :
    exec (.belaySample a b h ta tb inj) s = ends s :=
  if_neg (by simp [hb])

/-! ### Test pulses (R407) -/

/-- The pulse has started at the present tick. -/
def tpStarted (s : State) (k : Nat) : State :=
  updBelay s (fun x => { x with tpOn := x.tpOn ||| BitVec.ofNat 4 (2 ^ k), tpStart := tabSet 0 x.tpStart k s.tick })

/-- The run states of an input's tested channels before the pulse are kept. -/
def tpKeep (k : Nat) (s : State) (n : Nat) : State :=
  updSi s n (fun x =>
    let x := if bit (siCfg s n) 4 && field (siCfg s n) 3 2 == k
      then { x with prevA := !chanSafe (siCfg s n) false x.aLevel } else x
    if bit (siCfg s n) 7 && field (siCfg s n) 6 5 == k
      then { x with prevB := !chanSafe (siCfg s n) true x.bLevel } else x)

/-- What is kept of the inputs changes neither the pulses nor the time. -/
theorem tpKeep_frame (s : State) (k : Nat) (l : List Nat) :
    (l.foldl (tpKeep k) s).belay.tpOn = s.belay.tpOn ∧ (l.foldl (tpKeep k) s).belay.tpStart = s.belay.tpStart
      ∧ (l.foldl (tpKeep k) s).tick = s.tick :=
  Inv.foldl (Q := fun x => x.belay.tpOn = s.belay.tpOn ∧ x.belay.tpStart = s.belay.tpStart ∧ x.tick = s.tick)
    ⟨rfl, rfl, rfl⟩ fun _ _ hx => hx

theorem exec_testPulseStart_due {k : Fin 4} {s : State} {o : Nat} (hb : belayOn s = true)
    (he : bit (getN s P.SAFE_TP_EN 0) k = true) (h0 : s.belay.tpOn = 0) (ho : s.belay.tpOrigin = some o) :
    exec (.testPulseStart k) s
      = ends ((List.range 8).foldl (tpKeep k) (tpStarted (advanceTo s (tpDue s k o)) k)) := by
  have hx : (belayOn s && bit (getN s P.SAFE_TP_EN 0) k && s.belay.tpOn == 0 && s.belay.tpOrigin.isSome) = true := by
    simp [hb, he, h0, ho]
  refine (if_pos hx).trans ?_
  rw [ho]
  rfl

theorem exec_testPulseStart_none {k : Fin 4} {s : State} (h : belayOn s = false
      ∨ bit (getN s P.SAFE_TP_EN 0) k = false ∨ s.belay.tpOn ≠ 0 ∨ s.belay.tpOrigin = none) :
    exec (.testPulseStart k) s = ends s := by
  refine if_neg ?_
  rcases h with h | h | h | h
  · simp [h]
  · simp [h]
  · rw [beq_false_of_ne h, Bool.and_false, Bool.false_and]
    exact Bool.false_ne_true
  · simp [h]

/-- An output's slot: the first from now on of those a period apart, a quarter of it after the output before it. -/
theorem tpDue_slot (s : State) (k o : Nat) (h : 0 < 200000 * getN s P.SAFE_TP_PERIOD 0) :
    s.tick ≤ tpDue s k o ∧ ∃ i, tpDue s k o
      = o + k * (200000 * getN s P.SAFE_TP_PERIOD 0) / 4 + i * (200000 * getN s P.SAFE_TP_PERIOD 0) := by
  refine ⟨?_, _, rfl⟩
  unfold tpDue
  dsimp only
  generalize 200000 * getN s P.SAFE_TP_PERIOD 0 = p at *
  generalize o + k * p / 4 = a
  have hd := Nat.lt_div_mul_add (a := s.tick - a + (p - 1)) h
  omega

theorem exec_testPulseEnd_on {k : Fin 4} {s : State} (h : tpPulse s k = true) :
    exec (.testPulseEnd k) s = ends (updBelay
      (advanceTo s (tabGet 0 s.belay.tpStart k + 200 * getN s P.SAFE_TP_WIDTH 0)) (fun x =>
        { x with
          tpOn := x.tpOn &&& ~~~(BitVec.ofNat 4 (2 ^ k.val))
          tpEnd := tabSet 0 x.tpEnd k
            (advanceTo s (tabGet 0 s.belay.tpStart k + 200 * getN s P.SAFE_TP_WIDTH 0)).tick })) :=
  if_pos h

theorem exec_testPulseEnd_off {k : Fin 4} {s : State} (h : tpPulse s k = false) :
    exec (.testPulseEnd k) s = ends s :=
  if_neg (by simp [h])

/-! ### The timers (R409, R414, R416) -/

theorem exec_srstStuck_due {s : State} {f : Nat} (hb : belayOn s = true) (hf : s.belay.srstFrom = some f)
    (hn : s.belay.srstStuck = false) : exec .srstStuck s = ends (srstHeld (advanceTo s (f + 1000000000))) := by
  show execSrstStuck s = _
  simp only [execSrstStuck, hf, hb, hn]
  rfl

theorem exec_srstStuck_none {s : State}
    (h : belayOn s = false ∨ s.belay.srstFrom = none ∨ s.belay.srstStuck = true) : exec .srstStuck s = ends s := by
  show execSrstStuck s = _
  unfold execSrstStuck
  split
  · next t ht =>
    refine if_neg ?_
    rcases h with h | h | h
    · simp [h]
    · simp [h] at ht
    · simp [h]
  · rfl

theorem exec_heartbeatTimeout_due {s : State} (hb : belayOn s = true) (hs : s.belay.hbSeen = true) :
    exec .heartbeatTimeout s
      = ends (raiseBelay (advanceTo s (s.belay.hbTick + 200 * getN s P.SAFE_HB_TIMEOUT 0)) F.CAPSTAN_SILENT 0 6) :=
  if_pos (by simp [hb, hs])

theorem exec_heartbeatTimeout_none {s : State} (h : belayOn s = false ∨ s.belay.hbSeen = false) :
    exec .heartbeatTimeout s = ends s :=
  if_neg (by rcases h with h | h <;> simp [h])

/-- The configuration of the fast comparators' tag, of current or voltage. -/
def fdcCfg (i : Bool) (s : State) : Nat := getN s (if i then P.SAFE_FDC_I_TAG else P.SAFE_FDC_V_TAG) 0

/-- The last result of that tag. -/
def fdcLast (i : Bool) (s : State) : Option (Nat × Nat) :=
  if i then s.belay.iLast.filter (fun _ => s.belay.iTag == field (fdcCfg i s) 4 0)
  else s.belay.vLast.filter (fun _ => s.belay.vTag == field (fdcCfg i s) 4 0)

section
variable {i : Bool} {s : State}

theorem exec_fdcStaleTimeout_due (hb : belayOn s = true) (hi : s.belay.inserted = true)
    (h0 : getN s P.SAFE_FDC_STALE 0 ≠ 0) (hc : bit (fdcCfg i s) 7 = true) :
    exec (.fdcStaleTimeout i) s = ends (raiseBelay (advanceTo s
      (max (((fdcLast i s).map (fun r => r.1)).getD 0) s.belay.fdcFrom + 200 * getN s P.SAFE_FDC_STALE 0))
      F.SAFE_FDC_STALE (field (fdcCfg i s) 4 0) 9) := by
  have hx : (belayOn s && bit (fdcCfg i s) 7 && getN s P.SAFE_FDC_STALE 0 != 0 && s.belay.inserted) = true := by
    simp [hb, hi, h0, hc]
  have hl : (match fdcLast i s with
      | some r => r.1
      | none => 0) = ((fdcLast i s).map (fun r => r.1)).getD 0 := by
    cases fdcLast i s <;> rfl
  rw [← hl]
  exact if_pos hx

theorem exec_fdcStaleTimeout_none (h : belayOn s = false ∨ s.belay.inserted = false
      ∨ getN s P.SAFE_FDC_STALE 0 = 0 ∨ bit (fdcCfg i s) 7 = false) :
    exec (.fdcStaleTimeout i) s = ends s := by
  have hx : (belayOn s && bit (fdcCfg i s) 7 && getN s P.SAFE_FDC_STALE 0 != 0 && s.belay.inserted) = false := by
    rcases h with h | h | h | h <;> simp [h]
  exact if_neg (Bool.not_eq_true _ ▸ hx)

end

/-! ### The clock check (R399) -/

/-- The result of the check is kept. -/
def clockSeen (s : State) (n : Nat) : State :=
  updBelay s (fun x => { x with clockOk := decide (36000 ≤ n) && decide (n ≤ 44000) })

theorem exec_belayClockCheck_on {n : Nat} {s : State} (hb : belayOn s = true) (hc : clockOn s = true) :
    exec (.belayClockCheck n) s = ends (if 36000 ≤ n ∧ n ≤ 44000 then internalPass (clockSeen s n) 0
      else internalFail (clockSeen s n) 0) := by
  refine (if_pos (by simp [hb, hc])).trans (congrArg ends ?_)
  by_cases hn : 36000 ≤ n ∧ n ≤ 44000
  · rw [if_pos hn]
    exact if_pos (by simpa using hn)
  · rw [if_neg hn]
    exact if_neg (by simpa using hn)

theorem exec_belayClockCheck_off {n : Nat} {s : State} (h : belayOn s = false ∨ clockOn s = false) :
    exec (.belayClockCheck n) s = ends s :=
  if_neg (by rcases h with h | h <;> simp [h])

/-! ### Reset and release (R399, R400, R401) -/

theorem rcOk_eq_false {rc : Nat} (h : rc < 600 ∨ 960 < rc) : rcOk rc = false := by
  unfold rcOk
  simp only [Bool.and_eq_false_iff, decide_eq_false_iff_not]
  omega

theorem rcOk_eq_true {rc : Nat} (h : 600 ≤ rc) (h' : rc ≤ 960) : rcOk rc = true := by
  simp [rcOk, h, h']

section
variable {low : Bool} {rc : Nat} {s : State}

theorem exec_belayReset_held (hb : belayOn s = true) (h : low = true ∨ rc < 600 ∨ 960 < rc) :
    exec (.belayReset low rc) s = ends (updBelay (internalFail s 4) (fun x =>
      { x with inReset := true, injecting := true, tripOut := true, lowVdd := low })) := by
  refine if_pos ?_
  rcases h with h | h
  · simp [hb, h]
  · simp [hb, rcOk_eq_false h]

theorem exec_belayReset_noted (hb : belayOn s = false) (hs : s.belay.state ≠ .off) (hl : low = true) :
    exec (.belayReset low rc) s = ends (updBelay s (fun x => { x with lowVdd := true })) :=
  (if_neg (by simp [hb])).trans (if_pos ⟨hs, hl⟩)

/-- A belay that is off does not run. -/
theorem belayOn_of_off (h : s.belay.state = .off) : belayOn s = false := by
  unfold belayOn
  rw [h]
  rfl

theorem exec_belayReset_none
    (h : (low = false ∧ (belayOn s = false ∨ 600 ≤ rc ∧ rc ≤ 960)) ∨ s.belay.state = .off) :
    exec (.belayReset low rc) s = ends s := by
  refine (if_neg ?_).trans (if_neg ?_)
  · rcases h with ⟨hl, hb | ⟨h1, h2⟩⟩ | h
    · simp [hb]
    · simp [hl, rcOk_eq_true h1 h2]
    · simp [belayOn_of_off h]
  · rcases h with ⟨hl, -⟩ | h
    · simp [hl]
    · exact fun hx => hx.1 h

end

/-- The released belay: tripped, with latch BELAY_RESET, its samples and pulses anew. -/
def belayReleased (s : State) : State :=
  updBelay (internalPass (belayLatch s 1) 4) (fun x =>
    { x with
      inReset := false, lowVdd := false, state := .tripped, srstRun := 0, srstLow := false, srstFrom := none
      srstStuck := false, tpOn := 0, gridAt := none, tpOrigin := none, ovRun := 0, ocRun := 0, icmRun := [] })

/-- Latch BELAY_RESET is set. -/
theorem belayReleased_latch (s : State) : bit (belayReleased s).belay.latch 1 = true := by
  show bit (s.belay.latch ||| 2 ^ 1) 1 = true
  rw [bit_eq_testBit, Nat.testBit_or, Nat.testBit_two_pow_self, Bool.or_true]

theorem exec_belayResetRelease_done {ok rc : Nat} {s : State} (hs : s.belay.state ≠ .off)
    (hr : s.belay.inReset = true) (h1 : 600 ≤ rc) (h2 : rc ≤ 960) (hl : s.belay.lowVdd = false ∨ 200000 ≤ ok) :
    exec (.belayResetRelease ok rc) s = ends (belayReleased s) :=
  if_pos ⟨hs, hr, rcOk_eq_true h1 h2, by rcases hl with hl | hl <;> simp [hl]⟩

theorem exec_belayResetRelease_none {ok rc : Nat} {s : State} (h : s.belay.state = .off ∨ s.belay.inReset = false
      ∨ rc < 600 ∨ 960 < rc ∨ (s.belay.lowVdd = true ∧ ok < 200000)) :
    exec (.belayResetRelease ok rc) s = ends s := by
  refine if_neg ?_
  rintro ⟨hs, hr, hrc, hl⟩
  rcases h with h | h | h | h | ⟨hv, hok⟩
  · exact hs h
  · simp [h] at hr
  · simp [rcOk_eq_false (.inl h)] at hrc
  · simp [rcOk_eq_false (.inr h)] at hrc
  · simp [hv, Nat.not_le.mpr hok] at hl

theorem exec_belaySramError_on {s : State} (h : belayOn s = true) :
    exec .belaySramError s = ends (internalFail s 3) :=
  if_pos h

theorem exec_belaySramError_off {s : State} (h : belayOn s = false) : exec .belaySramError s = ends s :=
  if_neg (by simp [h])

/-- Settles O47: every event by whether the belay runs and by what the event waits for. -/
theorem belayEvents : Obligations.BelayEvents := by
  refine ⟨fun a b h ta tb inj s hb => ?_, ?_, ?_, fun k s h => seen_of_exec (exec_testPulseStart_none h),
    fun k s => ⟨fun h => ?_, fun h => seen_of_exec (exec_testPulseEnd_off h)⟩,
    fun s => ⟨fun f hb hf hn => ?_, fun h => seen_of_exec (exec_srstStuck_none h)⟩,
    fun s => ⟨fun hb hs => ?_, fun h => seen_of_exec (exec_heartbeatTimeout_none h)⟩, ?_, ?_,
    fun low rc s => ⟨fun hb h => ?_, fun hb hs hl => seen_of_exec (exec_belayReset_noted hb hs hl),
      fun h => seen_of_exec (exec_belayReset_none h)⟩,
    fun ok rc s => ⟨fun hs hr h1 h2 hl => ?_, fun h => seen_of_exec (exec_belayResetRelease_none h)⟩,
    fun s => ⟨fun h => seen_of_exec (exec_belaySramError_on h), fun h => seen_of_exec (exec_belaySramError_off h)⟩,
    fun a b h ta tb inj s hb => seen_of_exec (exec_belaySample_off hb)⟩
  · obtain ⟨t, ht, hseen⟩ := seen_of_exec (exec_belaySample_on hb)
    exact ⟨t, _, ht, rfl, hseen⟩
  · rintro k s o _ hb he h0 ho rfl
    obtain ⟨t, ht, hseen⟩ := seen_of_exec (exec_testPulseStart_due hb he h0 ho)
    obtain ⟨hon, hstart, htick⟩ := tpKeep_frame (tpStarted (advanceTo s (tpDue s k o)) k) k (List.range 8)
    refine ⟨t, _, ht, hseen, hon.trans ?_, ?_, htick⟩
    · rw [← (advanceTo_keeps s (tpDue s k o)).belay rfl]
      rfl
    · rw [hstart]
      exact tabGet_tabSet_same _ _ _ _
  · rintro s k o _ rfl h
    exact tpDue_slot s k o h
  · obtain ⟨t, ht, hseen⟩ := seen_of_exec (exec_testPulseEnd_on h)
    exact ⟨t, _, ht, rfl, hseen⟩
  · obtain ⟨t, ht, hseen⟩ := seen_of_exec (exec_srstStuck_due hb hf hn)
    exact ⟨t, _, ht, rfl, hseen⟩
  · obtain ⟨t, ht, hseen⟩ := seen_of_exec (exec_heartbeatTimeout_due hb hs)
    exact ⟨t, _, ht, rfl, hseen⟩
  · rintro i s _ _ _ rfl rfl rfl
    refine ⟨fun hb hi h0 hc => ?_, fun h => seen_of_exec (exec_fdcStaleTimeout_none h)⟩
    obtain ⟨t, ht, hseen⟩ := seen_of_exec (exec_fdcStaleTimeout_due hb hi h0 hc)
    exact ⟨t, _, ht, rfl, hseen⟩
  · rintro n s _ rfl
    exact ⟨fun hb hc => seen_of_exec (exec_belayClockCheck_on hb hc),
      fun h => seen_of_exec (exec_belayClockCheck_off h)⟩
  · obtain ⟨t, ht, hseen⟩ := seen_of_exec (exec_belayReset_held (low := low) (rc := rc) hb h)
    refine ⟨t, ht, hseen, ?_⟩
    unfold belayOn
    rw [hseen.belay]
    exact Bool.and_false _
  · obtain ⟨t, ht, hseen⟩ := seen_of_exec (exec_belayResetRelease_done hs hr h1 h2 hl)
    exact ⟨t, _, ht, hseen, rfl, rfl, rfl, belayReleased_latch s⟩

end Sys2Proof.Machine
end

section
/-! SUPPORT. `REEL_ARM`, `REEL_READ` and `REEL_STOP` (R464, R465, R474, R477, R478). -/

namespace Sys2Proof.Machine

/-! ### What the checks read of a state whose packet has arrived -/

theorem reelTable_arrived (s : State) (c : Cmd) (num : Nat) : reelTable (arrived s c) num = reelTable s num := by
  unfold reelTable tableWords tableWord
  rw [(arrived_keeps s c).tables rfl]

theorem reelRuns_arrived (s : State) (c : Cmd) : reelRuns (arrived s c) = reelRuns s :=
  reelRuns_keep (arrived_keeps s c) rfl

theorem reel_arrived (s : State) (c : Cmd) : (arrived s c).reel = s.reel := (arrived_keeps s c).reel rfl

theorem reelWord_arrived (s : State) (c : Cmd) (i : Nat) : reelWord (arrived s c) i = reelWord s i := by
  unfold reelWord
  rw [reel_arrived]

/-! ### `REEL_ARM` (R465) -/

/-- The checks of R465 in order, the table's words given. -/
def reelArmChecks (num : Nat) (w : List Word) (runs : Bool) : Option CmdErr :=
  firstErr
    [ errIf (num != 0x0A00 && num != 0x0A01) St.param 0x8000 num,
      errIf (cfgW w 0 % 65536 != 0x524C || crcWords w.dropLast != w.getD 352 0) St.integrity 3 num,
      ((List.range 352).find? (reelWordBad w)).map (fun i => (⟨St.range, 0x8000 + i, cfgW w i⟩ : CmdErr)),
      errIf runs St.conflict 1 0 ]

theorem reelArmBody_arrived (s : State) (c : Cmd) :
    reelArmBody c (arrived s c) = Res.check (reelArmChecks (pw c 0) (reelTable s (pw c 0)) (reelRuns s))
      (.ok 0 [] (reelStart (arrived s c) (pw c 0))) := by
  rw [← reelTable_arrived s c, ← reelRuns_arrived s c]
  rfl

section
variable {num : Nat} {w : List Word} {runs : Bool}

theorem reelArmChecks_table (h0 : num ≠ 0x0A00) (h1 : num ≠ 0x0A01) :
    reelArmChecks num w runs = some ⟨St.param, 0x8000, num⟩ := by
  have hb : (num != 0x0A00 && num != 0x0A01) = true := by simp [h0, h1]
  rw [reelArmChecks, hb]
  rfl

variable (hn : num = 0x0A00 ∨ num = 0x0A01)
include hn

theorem reelArmChecks_content (h : cfgW w 0 % 65536 ≠ 0x524C ∨ crcWords w.dropLast ≠ w.getD 352 0) :
    reelArmChecks num w runs = some ⟨St.integrity, 3, num⟩ := by
  have hb : (num != 0x0A00 && num != 0x0A01) = false := by rcases hn with rfl | rfl <;> rfl
  have hc : (cfgW w 0 % 65536 != 0x524C || crcWords w.dropLast != w.getD 352 0) = true := by
    rw [Bool.or_eq_true, bne_iff_ne, bne_iff_ne]
    exact h
  rw [reelArmChecks, hb, hc]
  rfl

/-- A table with its signature and CRC: the words and a running capture decide. -/
theorem reelArmChecks_sound (hs : cfgW w 0 % 65536 = 0x524C) (hc : crcWords w.dropLast = w.getD 352 0) :
    reelArmChecks num w runs = firstErr
      [ ((List.range 352).find? (reelWordBad w)).map (fun i => (⟨St.range, 0x8000 + i, cfgW w i⟩ : CmdErr)),
        errIf runs St.conflict 1 0 ] := by
  have hb : (num != 0x0A00 && num != 0x0A01) = false := by rcases hn with rfl | rfl <;> rfl
  have hx : (cfgW w 0 % 65536 != 0x524C || crcWords w.dropLast != w.getD 352 0) = false := by
    rw [hs, hc, bne_self_eq_false, bne_self_eq_false]
    rfl
  rw [reelArmChecks, hb, hx]
  rfl

end

/-- The reel as `REEL_ARM` leaves it: armed, its memory empty, the table's words copied. -/
theorem reelStart_reel (s : State) (num : Nat) :
    (reelStart s num).reel.state = .armed ∧ (reelStart s num).reel.ring = []
      ∧ (reelStart s num).reel.table = num ∧ (reelStart s num).reel.trigTick = none
      ∧ (reelStart s num).reel.header = [] ∧ (reelStart s num).reel.cfg = tabRun 0 [] 0 (reelTable s num)
      ∧ (reelStart s num).reel.tick0 = (if bit (cfgW (reelTable s num) 0) 16 then none else some (s.tick + 1)) := by
  unfold reelStart
  dsimp only
  split <;> simp only [reelForm, updReel, putN, putP, ReelSt.reset, and_self]

/-! ### `REEL_READ` (R477, R478) -/

/-- The checks of R478 in order. -/
theorem reelReadBody_arrived (s : State) (c : Cmd) :
    reelReadBody c (arrived s c) = Res.check (firstErr
      [ errIf (reelRuns s) St.state 0xC s.reel.state.code, errIf (decide (524287 < pw c 0)) St.range 0x8000 (pw c 0),
        errIf (pw c 1 == 0 || decide (1016 < pw c 1) || decide (524288 < pw c 0 + pw c 1)) St.range 0x8001 (pw c 1) ])
      (.ok 0 ((List.range (pw c 1)).map (fun i => reelWord s (pw c 0 + i))) (arrived s c)) := by
  simp only [reelReadBody, reelRuns_arrived, reel_arrived, reelWord_arrived]

section
variable {s : State} {c : Cmd}

theorem reelReadBody_runs (hr : reelRuns s = true) :
    reelReadBody c (arrived s c) = .err ⟨St.state, 0xC, s.reel.state.code⟩ := by
  rw [reelReadBody_arrived, hr]
  rfl

variable (hr : reelRuns s = false)
include hr

theorem reelReadBody_start (h : 524287 < pw c 0) :
    reelReadBody c (arrived s c) = .err ⟨St.range, 0x8000, pw c 0⟩ := by
  rw [reelReadBody_arrived, hr, decide_eq_true h]
  rfl

variable (h0 : pw c 0 ≤ 524287)
include h0

theorem reelReadBody_count (h : pw c 1 = 0 ∨ 1016 < pw c 1 ∨ 524288 < pw c 0 + pw c 1) :
    reelReadBody c (arrived s c) = .err ⟨St.range, 0x8001, pw c 1⟩ := by
  have hn : (pw c 1 == 0 || decide (1016 < pw c 1) || decide (524288 < pw c 0 + pw c 1)) = true := by
    simpa [or_assoc] using h
  rw [reelReadBody_arrived, hr, decide_eq_false (Nat.not_lt.mpr h0), hn]
  rfl

theorem reelReadBody_ok (h1 : 1 ≤ pw c 1) (h2 : pw c 1 ≤ 1016) (h3 : pw c 0 + pw c 1 ≤ 524288) :
    reelReadBody c (arrived s c)
      = .ok 0 ((List.range (pw c 1)).map (fun i => reelWord s (pw c 0 + i))) (arrived s c) := by
  have hn : (pw c 1 == 0 || decide (1016 < pw c 1) || decide (524288 < pw c 0 + pw c 1)) = false := by
    simp only [Bool.or_eq_false_iff, beq_eq_false_iff_ne, decide_eq_false_iff_not]
    omega
  rw [reelReadBody_arrived, hr, decide_eq_false (Nat.not_lt.mpr h0), hn]
  rfl

end

/-! ### `REEL_STOP` and a stop (R474) -/

theorem reelStopBody_runs {s : State} (c : Cmd) (h : reelRuns s = true) :
    reelStopBody c s = .ok 0 [] (reelStop (reelSync s) 4) :=
  if_pos h

theorem reelStopBody_idle {s : State} (c : Cmd) (h : reelRuns s = false) : reelStopBody c s = .ok 1 [] s :=
  if_neg (by simp [h])

/-- A capture that has ended is stopped, with the cause of its end. -/
theorem reelEnd_reel (s : State) (cause u : Nat) :
    (reelEnd s cause u).reel.state = .stopped ∧ (reelEnd s cause u).reel.cause = cause := by
  unfold reelEnd
  dsimp only
  rw [(irqSet_keeps _ _).reel rfl]
  exact ⟨rfl, rfl⟩

theorem reelStop_runs {s : State} (cause : Nat) (h : reelRuns s = true) :
    reelStop s cause = reelEnd s (if s.reel.stopDue then min cause 3 else cause) s.tick :=
  if_pos h

/-- Settles O50: `REEL_ARM` by the first check that fails, the others by whether a capture runs. -/
theorem reelCommands : Obligations.ReelCommands := by
  refine ⟨?_, reelStart_reel, fun c s h => ⟨fun hr h1 h2 h3 => ?_, fun hr => ?_, fun hr h0 => ?_, fun hr h0 hx => ?_⟩,
    fun c s h => ⟨fun hr => ?_, fun hr => ?_⟩, fun s cause hr => ?_⟩
  · rintro c s _ h rfl
    have refused : ∀ {e}, reelArmChecks (pw c 0) (reelTable s (pw c 0)) (reelRuns s) = some e →
        reelArmBody c (arrived s c) = .err e := fun he => by rw [reelArmBody_arrived, he, Res.check_some]
    refine ⟨fun h0 h1 => ?_, fun hn hx => ?_, fun hn hs hc => ⟨fun i hi => ?_, fun hi hr => ?_, fun hi hr => ?_⟩⟩
    · exact exec_err (e := ⟨St.param, 0x8000, _⟩) h (refused (reelArmChecks_table h0 h1))
    · exact exec_err (e := ⟨St.integrity, 3, _⟩) h (refused (reelArmChecks_content hn hx))
    · refine exec_err (e := ⟨St.range, 0x8000 + i, _⟩) h (refused ?_)
      rw [reelArmChecks_sound hn hs hc, hi]
      rfl
    · refine exec_err (e := ⟨St.conflict, 1, 0⟩) h (refused ?_)
      rw [reelArmChecks_sound hn hs hc, hi, hr]
      rfl
    · refine exec_ok h ((reelArmBody_arrived s c).trans ?_)
      rw [reelArmChecks_sound hn hs hc, hi, hr]
      rfl
  · exact exec_ok h (reelReadBody_ok hr (by omega) h1 h2 h3)
  · exact exec_err (e := ⟨St.state, 0xC, _⟩) h (reelReadBody_runs hr)
  · exact exec_err (e := ⟨St.range, 0x8000, _⟩) h (reelReadBody_start hr h0)
  · exact exec_err (e := ⟨St.range, 0x8001, _⟩) h (reelReadBody_count hr h0 hx)
  · exact exec_ok h (reelStopBody_runs c ((reelRuns_arrived s c).trans hr))
  · exact exec_ok h (reelStopBody_idle c ((reelRuns_arrived s c).trans hr))
  · rw [reelStop_runs cause hr]
    exact reelEnd_reel _ _ _

end Sys2Proof.Machine
end

section
/-! SUPPORT. The capture's end, a unit's timeout, the tick wrap and the trigger bus (R467 to R476). -/

namespace Sys2Proof.Machine

/-! ### The end of a triggered capture (R474) -/

section
variable {s : State} {t0 x : Nat} (h0 : s.reel.tick0 = some t0) (hx : s.reel.trigTick = some x)
include h0 hx

theorem exec_reelPostEnd_triggered (hp : reelCfg s 10 ≠ 0) (hs : s.reel.state = .triggered) :
    exec .reelPostEnd s
      = whenClocked s (ends (reelStop (reelSync (advanceTo s (t0 + x + reelCfg s 10))) 1)) := by
  show execReelPostEnd s = _
  simp only [execReelPostEnd, h0, hx, hp, hs, if_false, if_true]

theorem exec_reelPostEnd_sameTick (hp : reelCfg s 10 ≠ 0) (hs : s.reel.state ≠ .triggered)
    (ht : s.tick = t0 + x + reelCfg s 10) : exec .reelPostEnd s = whenClocked s (ends (reelStop s 1)) := by
  show execReelPostEnd s = _
  simp only [execReelPostEnd, h0, hx, hp, hs, if_false]
  rw [if_pos ht]

theorem exec_reelPostEnd_none
    (h : reelCfg s 10 = 0 ∨ (s.reel.state ≠ .triggered ∧ s.tick ≠ t0 + x + reelCfg s 10)) :
    exec .reelPostEnd s = whenClocked s (ends s) := by
  show execReelPostEnd s = _
  simp only [execReelPostEnd, h0, hx]
  rcases h with h | ⟨hs, ht⟩
  · rw [if_pos h]
  · rw [if_neg hs, if_neg ht, ite_self]

end

theorem exec_reelPostEnd_idle {s : State} (h : s.reel.tick0 = none ∨ s.reel.trigTick = none) :
    exec .reelPostEnd s = whenClocked s (ends s) := by
  show execReelPostEnd s = _
  unfold execReelPostEnd
  split
  · next t t0 ht h0 => exact absurd h (by simp [ht, h0])
  · rfl

/-! ### A unit's timeout and the tick wrap (R469, R476) -/

/-- The level of the line that a unit watches. -/
def unitHigh (s : State) (k : Nat) : Bool :=
  bit ((reelLines s).getD (field (unitWord s k) 15 8 / 8) 0) (field (unitWord s k) 15 8 % 8)

section
variable {k : Fin 4} {s : State}

theorem exec_triggerUnitTimeout_fires {t0 : Nat} (hw : reelWatches s = true) (h0 : s.reel.tick0 = some t0)
    (hk : field (unitWord s k) 3 0 = 5) (hl : unitHigh s k = (field (unitWord s k) 5 4 == 0)) :
    exec (.triggerUnitTimeout k) s = whenClocked s (ends (reelTrigger
      (reelSync (advanceTo s (t0 + ((reelUnit s k).since + reelCfg s (14 + 4 * k.val))))) k
      ((reelUnit s k).since + reelCfg s (14 + 4 * k.val) : Nat))) := by
  unfold unitHigh at hl
  show execTriggerUnitTimeout k s = _
  simp only [execTriggerUnitTimeout, hw, h0, hk, hl, beq_self_eq_true]
  rfl

theorem exec_triggerUnitTimeout_none (h : reelWatches s = false ∨ s.reel.tick0 = none
      ∨ field (unitWord s k) 3 0 ≠ 5 ∨ unitHigh s k ≠ (field (unitWord s k) 5 4 == 0)) :
    exec (.triggerUnitTimeout k) s = whenClocked s (ends s) := by
  unfold unitHigh at h
  show execTriggerUnitTimeout k s = _
  unfold execTriggerUnitTimeout
  dsimp only
  split
  · next t0 hw h0 =>
    rw [if_neg]
    rcases h with h | h | h | h
    · exact absurd hw (by simp [h])
    · exact absurd h0 (by simp [h])
    · rw [decide_eq_false h]
      exact Bool.false_ne_true
    · rw [beq_false_of_ne h, Bool.and_false]
      exact Bool.false_ne_true
  · rfl

theorem exec_tickWrap_runs {t0 : Nat} (hr : reelRuns s = true) (h0 : s.reel.tick0 = some t0) :
    exec .tickWrap s = whenClocked s (ends (reelForm (updReel
      (reelSync (advanceTo s (t0 + (s.reel.wraps + 1) * 4294967296))) (fun x => { x with wraps := s.reel.wraps + 1 }))
      (specialRec 0 3 (s.reel.wraps + 1)))) := by
  show execTickWrap s = _
  simp only [execTickWrap, hr, h0]

theorem exec_tickWrap_none (h : reelRuns s = false ∨ s.reel.tick0 = none) :
    exec .tickWrap s = whenClocked s (ends s) := by
  show execTickWrap s = _
  unfold execTickWrap
  split
  · next t0 hr h0 => exact absurd h (by simp [hr, h0])
  · rfl

end

/-! ### Edges and pulses of the bus (R467, R471) -/

/-- The state as the tick comes in which an own drive or release is recognised, two ticks after it. -/
def tbusSeen (s : State) (a : Option Nat) : State := (a.map (fun a => advanceTo s (a + 2))).getD s

section
variable {l : Fin 4} {s : State}

theorem exec_tbusFall_high (h : (lineOf s l).low = false) :
    exec (.tbusFall l) s = whenClocked s (ends (reelObserveWith (tbusTrigger l)
      (tbusFallen (tbusSeen s (lineOf s l).loopAt) l))) := by
  show execTbusFall l s = _
  simp only [execTbusFall, tbusSeen, h, Bool.false_eq_true, if_false]
  cases (lineOf s l).loopAt <;> rfl

theorem exec_tbusFall_low (h : (lineOf s l).low = true) :
    exec (.tbusFall l) s = whenClocked s (ends s) := by
  show execTbusFall l s = _
  simp only [execTbusFall, h, if_true]

theorem exec_tbusPulseEnd_driven {d : Nat} (h : (lineOf s l).driveTo = some d) :
    exec (.tbusPulseEnd l) s = whenClocked s (ends
      (updLine (advanceTo s d) l (fun x => { x with driveTo := none, loopAt := none }))) := by
  show execTbusPulseEnd l s = _
  simp only [execTbusPulseEnd, h]

theorem exec_tbusPulseEnd_none (h : (lineOf s l).driveTo = none) :
    exec (.tbusPulseEnd l) s = whenClocked s (ends s) := by
  show execTbusPulseEnd l s = _
  simp only [execTbusPulseEnd, h]

theorem exec_tbusRisingEdge_low (h : (lineOf s l).low = true) :
    exec (.tbusRisingEdge l) s = whenClocked s (ends (updLine (tbusSeen s (lineOf s l).driveTo) l
      (fun x => { x with low := false, driveTo := none, loopAt := none }))) := by
  show execTbusRisingEdge l s = _
  simp only [execTbusRisingEdge, tbusSeen, h, if_true]
  cases (lineOf s l).driveTo <;> rfl

theorem exec_tbusRisingEdge_high (h : (lineOf s l).low = false) :
    exec (.tbusRisingEdge l) s = whenClocked s (ends s) := by
  show execTbusRisingEdge l s = _
  simp only [execTbusRisingEdge, h]
  rfl

end

/-! ### `TBUS_FORCE` (R472) -/

theorem setWord_tbusForce (s : State) (t : Nat) (w : Word) :
    setWord s P.TBUS_FORCE t w
      = (List.range 4).foldl (fun s n => if bit w.toNat n then tbusDrive s n else s) s := by
  rw [setWord_wo s t w (by decide)]
  simp only [writeAct]
  rfl

/-- A pulse that runs is prolonged. -/
theorem lineOf_tbusDrive_running {s : State} {n d : Nat} (h : (lineOf s n).driveTo = some d) (hd : s.tick < d) :
    lineOf (tbusDrive s n) n
      = { lineOf s n with driveTo := some (max d (s.tick + 1 + getN s P.TBUS_PULSE 0)) } := by
  unfold tbusDrive
  rw [lineOf_updLine]
  simp only [h, Option.any_some, decide_eq_true hd, if_true, Option.map_some]

/-- A new pulse; what its fall shows is measured where the line stood high. -/
theorem lineOf_tbusDrive_new {s : State} {n : Nat} (h : ∀ d, (lineOf s n).driveTo = some d → d ≤ s.tick) :
    lineOf (tbusDrive s n) n
      = { lineOf s n with
          driveFrom := s.tick + 1, driveTo := some (s.tick + 1 + getN s P.TBUS_PULSE 0)
          loopAt := if (lineOf s n).low then none else some (s.tick + 1) } := by
  have hr : ¬ (lineOf s n).driveTo.any (fun t => decide (s.tick < t)) = true := by
    rw [Option.any_eq_true]
    rintro ⟨d, hd, hx⟩
    exact Nat.not_lt.mpr (h d hd) (of_decide_eq_true hx)
  unfold tbusDrive
  rw [lineOf_updLine]
  exact if_neg hr

/-- Settles O51: each timer by what it waits for, an edge by the line's level, the forced pulse by one that runs. -/
theorem reelTimers : Obligations.ReelTimers := by
  refine ⟨fun s t0 x hc h0 hx => ⟨fun hp hs => ?_, fun hp hs ht => ?_, fun h => ?_⟩,
    fun s hc h => seen_of_clocked hc (exec_reelPostEnd_idle h) rfl, ?_, ?_, ?_,
    fun l s hc => ⟨fun d hd => ?_, fun h => ?_⟩, ?_, fun c s h => ?_, ?_⟩
  · exact seen_of_clocked hc (exec_reelPostEnd_triggered h0 hx hp hs) rfl
  · exact seen_of_clocked hc (exec_reelPostEnd_sameTick h0 hx hp hs ht) rfl
  · exact seen_of_clocked hc (exec_reelPostEnd_none h0 hx h) rfl
  · rintro k s _ _ hc rfl rfl
    refine ⟨?_, fun h => seen_of_clocked hc (exec_triggerUnitTimeout_none h) rfl⟩
    rintro t0 _ hw h0 hk hl rfl
    exact seen_of_clocked hc (exec_triggerUnitTimeout_fires hw h0 hk hl) rfl
  · rintro s _ hc rfl
    exact ⟨fun t0 hr h0 => seen_of_clocked hc (exec_tickWrap_runs hr h0) rfl,
      fun h => seen_of_clocked hc (exec_tickWrap_none h) rfl⟩
  · rintro l s _ hc rfl
    exact ⟨fun h => seen_of_clocked hc (exec_tbusFall_high h) rfl,
      fun h => seen_of_clocked hc (exec_tbusFall_low h) rfl⟩
  · exact seen_of_clocked hc (exec_tbusPulseEnd_driven hd) rfl
  · exact seen_of_clocked hc (exec_tbusPulseEnd_none h) rfl
  · rintro l s _ hc rfl
    exact ⟨fun h => seen_of_clocked hc (exec_tbusRisingEdge_low h) rfl,
      fun h => seen_of_clocked hc (exec_tbusRisingEdge_high h) rfl⟩
  · obtain ⟨t, ht, hd⟩ := exec_rowDone (by decide) h
    exact ⟨t, _, ht, hd, setWord_tbusForce _ _ _⟩
  · rintro s n _ rfl
    exact ⟨fun d hd hlt => lineOf_tbusDrive_running hd hlt, fun h => lineOf_tbusDrive_new h⟩

end Sys2Proof.Machine
end

section
/-! SUPPORT. The crystal, the core PLL, BIST, the lane PLLs, the dispatch test and the end of RUN (R485, R488 to
R494). -/

namespace Sys2Proof.Machine

/-! ### The crystal (R488) -/

section
variable {s : State}

theorem exec_xtalSwitch_taken (hh : s.pwr.held = false) (hg : s.pwr.xtalGone = false)
    (ht : s.tick ≤ s.pwr.relAt + 10000000) :
    exec .xtalSwitch s = ends (updPwr s (fun p => { p with onXtal := true })) :=
  congrArg ends (if_neg (by simp [hh, hg, ht]))

theorem exec_xtalSwitch_none (h : s.pwr.held = true ∨ s.pwr.xtalGone = true ∨ s.pwr.relAt + 10000000 < s.tick) :
    exec .xtalSwitch s = ends s :=
  congrArg ends (if_pos (by simpa [or_assoc] using h))

theorem exec_xtalFail_on (h : s.pwr.onXtal = true) :
    exec .xtalFail s
      = ends (orP (updPwr s (fun p => { p with onXtal := false, xtalGone := true })) P.PWR_EVENT 0 2) :=
  congrArg ends (if_pos h)

theorem exec_xtalFail_off (h : s.pwr.onXtal = false) : exec .xtalFail s = ends s :=
  congrArg ends (if_neg (by simp [h]))

/-! ### The core PLL (R489, R490) -/

theorem exec_corePllLock_first (h : s.pwr.wait = .corePll) :
    exec .corePllLock s = ends (updPwr s (fun p =>
      { p with corePll := true, pllAt := s.tick, wait := .bist (s.tick + 4000000) })) := by
  show execCorePllLock s = _
  simp only [execCorePllLock, h]

theorem exec_corePllLock_again (h : s.pwr.wait = .relock) : exec .corePllLock s = ends (relock s) := by
  show execCorePllLock s = _
  simp only [execCorePllLock, h]

theorem exec_corePllLock_none (hc : s.pwr.wait ≠ .corePll) (hr : s.pwr.wait ≠ .relock) :
    exec .corePllLock s = ends s := by
  show execCorePllLock s = _
  unfold execCorePllLock
  split
  · next h => exact absurd h hc
  · next h => exact absurd h hr
  · rfl

/-- The loss of lock: the core clock stops, the belay's clock check fails. -/
def pllLost (s : State) : State :=
  internalFail (updBelay (orP (updPwr s (fun p => { p with corePll := false })) P.PWR_EVENT 0 1)
    (fun x => { x with clockOk := false })) 0

theorem pllLost_eq (s : State) :
    pllLost s = internalFail (updBelay (orP (updPwr s (fun p => { p with corePll := false })) P.PWR_EVENT 0 1)
      (fun x => { x with clockOk := false })) 0 := by
  unfold pllLost
  rfl

/-- The belay's reaction changes nothing of the power block. -/
theorem pllLost_corePll (s : State) : (pllLost s).pwr.corePll = false := by
  unfold pllLost
  rw [(internalFail_keeps _ _).pwr rfl]
  rfl

theorem exec_corePllLoss_relock (h : s.pwr.corePll = true) (hs : (pllLost s).pwr.state ≠ .listen) :
    exec .corePllLoss s = ends (updPwr (pllLost s) (fun p => { p with wait := .relock })) := by
  show execCorePllLoss s = _
  unfold execCorePllLoss
  unfold pllLost at hs ⊢
  rw [if_neg (by simp [h])]
  dsimp only at hs ⊢
  generalize internalFail _ 0 = u at hs ⊢
  split
  · next hl => exact absurd hl hs
  · rfl

theorem exec_corePllLoss_listen (h : s.pwr.corePll = true) (hs : (pllLost s).pwr.state = .listen) :
    exec .corePllLoss s = ends (updPwr (pllLost s) (fun p => { p with wait := .corePll })) := by
  show execCorePllLoss s = _
  unfold execCorePllLoss
  unfold pllLost at hs ⊢
  rw [if_neg (by simp [h])]
  dsimp only at hs ⊢
  rw [hs]

theorem exec_corePllLoss_none (h : s.pwr.corePll = false) : exec .corePllLoss s = ends s :=
  congrArg ends (if_pos (by simp [h]))

/-! ### BIST (R492, R494) -/

/-- BIST has ended: its word and the strands it found bad. -/
def bistNoted (a b x y : Bool) (bad : BitVec 4) (s : State) : State :=
  (List.range 4).foldl (fun s n => updStrand s n (fun x => { x with offline := bit bad.toNat n }))
    (putN s P.PWR_BIST 0 (bistWord a b x y bad.toNat))

/-- READY is entered after it. -/
def bistReady (u : State) : State :=
  powerGo { (updPwr u (fun p => { p with state := .ready, wait := .none })) with
    host := { u.host with linkUp := true } }

theorem exec_bistDone_due {a b x y : Bool} {bad : BitVec 4} {d : Nat} (h : s.pwr.wait = .bist d) :
    exec (.bistDone a b x y bad) s = ends (bistReady (bistNoted a b x y bad (advanceTo s d))) := by
  show execBistDone a b x y bad s = _
  simp only [execBistDone, h]
  rfl

theorem exec_bistDone_none {a b x y : Bool} {bad : BitVec 4} (h : ∀ d, s.pwr.wait ≠ .bist d) :
    exec (.bistDone a b x y bad) s = ends s := by
  show execBistDone a b x y bad s = _
  unfold execBistDone
  split
  · next d hd => exact absurd hd (h d)
  · rfl

/-! ### The lane PLLs (R489, R490) -/

theorem exec_lanePllLock_on {q : Fin 4} (h : bit s.pwr.domains.toNat (7 + q.val) = true) :
    exec (.lanePllLock q) s
      = ends (runReady (updPwr s (fun p => { p with lanePll := p.lanePll ||| BitVec.ofNat 4 (2 ^ q.val) }))) :=
  congrArg ends (if_pos h)

theorem exec_lanePllLock_off {q : Fin 4} (h : bit s.pwr.domains.toNat (7 + q.val) = false) :
    exec (.lanePllLock q) s = ends s :=
  congrArg ends (if_neg (by simp [h]))

theorem exec_lanePllLoss (q : Fin 4) (s : State) :
    exec (.lanePllLoss q) s = whenClocked s (ends (if bit s.pwr.lanePll.toNat q then
      (quadLanes q).foldl lanePllLost (orP (updPwr s (fun p =>
        { p with lanePll := p.lanePll &&& ~~~(BitVec.ofNat 4 (2 ^ q.val)) })) P.PWR_EVENT 0 4)
      else s)) := rfl

/-- RUN is entered, or the dispatch test starts, once every enabled lane PLL holds. -/
theorem runReady_locked (h : s.pwr.wait = .lanePll) (hl : lanePllsOk s = true) :
    runReady s = if bit (getN s P.PWR_BIST 0) 7 then enterRun s
      else updPwr s (fun p => { p with wait := .dispatch (s.tick + 400000) }) :=
  if_pos (by simp [h, hl])

theorem runReady_waits (h : s.pwr.wait ≠ .lanePll ∨ lanePllsOk s = false) : runReady s = s :=
  if_neg (by rcases h with h | h <;> simp [h])

/-! ### The dispatch test and the end of RUN (R485, R492) -/

theorem exec_dispatchTestDone_due {pass : Bool} {bad : BitVec 4} {d : Nat} (h : s.pwr.wait = .dispatch d) :
    exec (.dispatchTestDone pass bad) s = whenClocked s (ends (
      let u := orP (advanceTo s d) P.PWR_BIST 0 (128 + 256 * b2n pass + 2 ^ 20 * bad.toNat)
      if pass then enterRun u else powerFail (updPwr (domains u 0 0x7E0) (fun p => { p with lanePll := 0 })))) := by
  show execDispatchTestDone pass bad s = _
  simp only [execDispatchTestDone, h]

theorem exec_dispatchTestDone_none {pass : Bool} {bad : BitVec 4} (h : ∀ d, s.pwr.wait ≠ .dispatch d) :
    exec (.dispatchTestDone pass bad) s = whenClocked s (ends s) := by
  show execDispatchTestDone pass bad s = _
  unfold execDispatchTestDone
  split
  · next d hd => exact absurd hd (h d)
  · rfl

theorem exec_runToReady_leaves (hr : s.per.running = true) (hw : s.pwr.wait = .leaveRun) :
    exec .runToReady s = whenClocked s (ends (powerNext (leaveRun (countMark (periodEnd s))))) := by
  show execRunToReady s = _
  simp only [execRunToReady, hr, hw, nextMark_leaves [] [] hw]

theorem exec_runToReady_none (h : s.per.running = false ∨ s.pwr.wait ≠ .leaveRun) :
    exec .runToReady s = whenClocked s (ends s) := by
  show execRunToReady s = _
  unfold execRunToReady
  split
  · next hr hw => exact absurd h (by simp [hr, hw])
  · rfl

end

/-- RUN left: READY, no period runs, no lane PLL holds. -/
theorem leaveRun_ready (s : State) :
    (leaveRun s).pwr.state = .ready ∧ (leaveRun s).per.running = false ∧ (leaveRun s).pwr.lanePll = 0 := by
  unfold leaveRun
  exact ⟨rfl, rfl, rfl⟩

theorem Seen.pwr {u t : State} (h : Seen u t) : t.pwr = u.pwr := h.1.pwr rfl

/-- Settles O55: each event by the wait it belongs to. -/
theorem clocksAndSelfTest : Obligations.ClocksAndSelfTest := by
  refine ⟨fun s => ⟨fun hh hg ht => seen_of_exec (exec_xtalSwitch_taken hh hg ht),
      fun h => seen_of_exec (exec_xtalSwitch_none h)⟩,
    fun s => ⟨fun h => seen_of_exec (exec_xtalFail_on h), fun h => seen_of_exec (exec_xtalFail_off h)⟩,
    fun s => ⟨fun h => seen_of_exec (exec_corePllLock_first h), fun h => seen_of_exec (exec_corePllLock_again h),
      fun hc hr => seen_of_exec (exec_corePllLock_none hc hr)⟩,
    ?_, fun a b x y bad s => ⟨fun d hd => ?_, fun h => seen_of_exec (exec_bistDone_none h)⟩,
    fun q s => ⟨fun h => seen_of_exec (exec_lanePllLock_on h), fun h => seen_of_exec (exec_lanePllLock_off h)⟩,
    fun q s hc => ⟨fun h => seen_of_clocked hc (exec_lanePllLoss q s) (if_pos h),
      fun h => seen_of_clocked hc (exec_lanePllLoss q s) (if_neg (by simp [h]))⟩,
    fun pass bad s hc => ⟨?_, fun h => seen_of_clocked hc (exec_dispatchTestDone_none h) rfl⟩,
    fun s hc => ⟨fun hr hw => seen_of_clocked hc (exec_runToReady_leaves hr hw) rfl,
      fun h => seen_of_clocked hc (exec_runToReady_none h) rfl⟩,
    fun s => ⟨runReady_locked, runReady_waits⟩, leaveRun_ready⟩
  · intro s u hu
    rw [hu, ← pllLost_eq]
    refine ⟨fun h hs => ?_, fun h hs => seen_of_exec (exec_corePllLoss_listen h hs),
      fun h => seen_of_exec (exec_corePllLoss_none h)⟩
    obtain ⟨t, ht, hseen⟩ := seen_of_exec (exec_corePllLoss_relock h hs)
    refine ⟨t, ht, hseen, ?_⟩
    rw [hseen.pwr, updPwr_pwr]
    dsimp only
    exact pllLost_corePll s
  · obtain ⟨t, ht, hseen⟩ := seen_of_exec (exec_bistDone_due (a := a) (b := b) (x := x) (y := y) (bad := bad) hd)
    exact ⟨t, bistNoted a b x y bad (advanceTo s d), ht, rfl, hseen⟩
  · rintro d _ hd rfl
    exact seen_of_clocked hc (exec_dispatchTestDone_due hd) rfl

end Sys2Proof.Machine
end
